-- ==== Sys2Proof/Word.lean ====
section
/-!
DEFINITION. The word types of the STN3160 and the plain bit-field arithmetic over them (R10, R11, R16): a register
field is a run of bits of a 32-bit register at a fixed address, read and written as a natural number.
-/
namespace Sys2Proof

/-- One byte of memory. -/
abbrev Byte := BitVec 8
/-- A register, or an Awl instruction word (R17, R247). -/
abbrev Word := BitVec 32
/-- A general register of an Awl thread (R239). -/
abbrev Dword := BitVec 64

/-- A register field: the address of its register, its lowest bit and its length in bits. -/
structure RF where
  addr : Nat
  lo : Nat
  len : Nat
deriving DecidableEq, Repr

/-- One row of a register table: base address, instance counts and strides from the widest down, the masks of the
RW, W1C, WO and RWS bits (R18), the reset word, the number of words of the multi-word quantity whose lowest word
this register is (R17; 0: none) and the manual's name. -/
structure RegRow where
  base : Nat
  dims : List (Nat × Nat)
  rw : Nat
  w1c : Nat
  wo : Nat
  rws : Nat
  reset : Nat
  multi : Nat
  name : String
deriving DecidableEq, Repr

/-- The `len` bits of `w` from bit `lo` up, as a number. -/
def bitsOf (w : BitVec n) (lo len : Nat) : Nat := (w.extractLsb' lo len).toNat

/-- `w` with the `len` bits from bit `lo` up replaced by the low `len` bits of `v`. -/
def setBitsOf (w : BitVec n) (lo len v : Nat) : BitVec n :=
  let m : BitVec n := (BitVec.allOnes len).zeroExtend n <<< lo
  (w &&& ~~~m) ||| (((BitVec.ofNat len v).zeroExtend n) <<< lo)

/-- The two's-complement value of the low `len` bits of `v` (R10). -/
def signedOf (len v : Nat) : Int :=
  let u := v % 2 ^ len
  if u < 2 ^ (len - 1) then (u : Int) else (u : Int) - 2 ^ len

/-- The `len`-bit two's-complement pattern of `v`, as a number (R10; wraps). -/
def unsignedOf (len : Nat) (v : Int) : Nat := (v % 2 ^ len).toNat

/-- `v` held within `lo` and `hi`. -/
def clampNat (lo hi v : Nat) : Nat := max lo (min hi v)

/-- `v` held within `lo` and `hi`. -/
def clampInt (lo hi v : Int) : Int := max lo (min hi v)

/-- Rounding to nearest with ties away from zero of `a / b`, for non-negative operands (R12 `round`). -/
def roundDiv (a b : Nat) : Nat := (2 * a + b) / (2 * b)

/-- Rounding to nearest with ties to even of `a / b` (R12 `rne`). -/
def rneDiv (a : Int) (b : Nat) : Int :=
  let q := a / b
  let r := a % b
  if 2 * r < b then q else if (b : Int) < 2 * r then q + 1 else if q % 2 = 0 then q else q + 1

/-- The `n` low bytes of `v`, least significant first. -/
def bytesLE (n : Nat) (v : Nat) : List Byte :=
  match n with
  | 0 => []
  | n + 1 => BitVec.ofNat 8 v :: bytesLE n (v / 256)

/-- The number whose bytes, least significant first, are `bs`. -/
def ofBytesLE (bs : List Byte) : Nat := bs.foldr (fun b acc => b.toNat + 256 * acc) 0

/-- The number whose bytes, most significant first (network order), are `bs`. -/
def ofBytesBE (bs : List Byte) : Nat := bs.foldl (fun acc b => acc * 256 + b.toNat) 0

/-- The `n` low bytes of `v`, most significant first. -/
def bytesBE (n : Nat) (v : Nat) : List Byte := (bytesLE n v).reverse

end Sys2Proof
end

