-- ==== Sys2Proof/Syntax.lean ====
section
/-!
DEFINITION. The commands of the block: one constructor for each row of the opcode table, with the operands that the
manual's event carries, and the records those operands are.
-/
namespace Sys2Proof

/-! ### Records -/

/-- What a chain measures in one window at the ADC: in-channel power and wideband power, in units of 2^-8 dBFS. -/
structure WindowPower where
  p : Int
  wide : Int
deriving DecidableEq, Repr

/-- What a mismatch window measures on one chain: the magnitude of the reflection coefficient in units of 2^-16, and
its angle in units of 2^-16 turns. -/
structure Reflection where
  mag : Nat
  angle : Nat
deriving DecidableEq, Repr

/-- A complex sample or tap. -/
structure Cx where
  re : Int
  im : Int
deriving DecidableEq, Repr

/-- What the chains of the other slice of the pair see of a transmission (R141, R142, R146): the aggressor's baseband of
each of its chains, shifted to the victim's baseband and resampled to its rate; the samples of each victim chain while
that chain was in no PPDU; both newest last and in step; and the powers in channel before and after subtraction. -/
structure Leakage where
  refs : List (List Cx)
  victim : List (List Cx)
  powers : List (Nat × Nat)
deriving DecidableEq, Repr

/-- The format family that L-SIG and the symbols after it show (R153, R161). -/
inductive LsigFormat where
  | legacy
  | he
  | eht
deriving DecidableEq, Repr

/-- The header that decides a reception (R153): L-SIG as the LLRs of its 48 coded bits (units of 2^-8), with those of the
one that repeats it; or the 48 bits of the PLCP header of a DSSS PPDU. -/
inductive PpduHeader where
  | ofdm (f : LsigFormat) (llr : List Int) (rep : Option (List Int))
  | dsss (bits : BitVec 48)
deriving DecidableEq, Repr

/-- The PPDU formats of R171 and R172. -/
inductive PpduFormat where
  | dsss
  | dsssOfdm
  | pbcc
  | nonHt
  | htMixed
  | htGreenfield
  | vht
  | he
  | eht
deriving DecidableEq, Repr

/-- The shape of a PPDU (R171): format, width code (0 to 4: 20 to 320 MHz), MCS, whether it is punctured, whether it uses
STBC, and the periodicity of its midambles (0: none). -/
structure PpduShape where
  fmt : PpduFormat
  width : Fin 5
  mcs : Nat
  punctured : Bool
  stbc : Bool
  midamble : Nat
deriving DecidableEq, Repr

/-- A later signal field of a reception (R154, R162): whether its CRC and validity checks hold, the PPDU's shape, the
streams of all its users, the users of its fullest RU, and where the PPDU's own training field lies, from the start of
the L-STF, in nanoseconds (R155). -/
structure SignalField where
  valid : Bool
  shape : PpduShape
  streams : Nat
  users : Nat
  stf : Nat × Nat
deriving DecidableEq, Repr

/-- An LDPC codeword (R163, R164): the LLRs of its bits (units of 2^-8); its parity checks, as the bit positions of each,
in the layers in which the decoder takes them; and the MPDUs it touches, by their place in the PPDU. -/
structure LdpcWord where
  llr : List Int
  checks : List (List (List Nat))
  mpdus : List Nat
deriving DecidableEq, Repr

/-- What an MPDU received on air is (R181, R191, R194 to R196). -/
inductive MpduKind where
  | data
  | mgmt
  | ack
  | cts
  | psPoll
  | blockAckReq (ssn : BitVec 12)
  | control
deriving DecidableEq, Repr

/-- An MPDU as a modem hands it to Welt: kind, transmitter address, whether its FCS is valid, TID, sequence number, PN
and key ID, whether it is protected and whether decryption and MIC prove it sound, its Power Management bit, its place in
its PPDU (R165), and the frames it carries: the MSDUs of a data MPDU, else the body. -/
structure RxMpdu where
  kind : MpduKind
  ta : BitVec 48
  fcs : Bool
  tid : Fin 8
  sn : BitVec 12
  pn : BitVec 48
  key : Bool
  protectedFrame : Bool
  sound : Bool
  pm : Bool
  place : Nat
  frames : List (List Byte)
deriving DecidableEq, Repr

/-- A frame that reaches an Ethernet ball: its bytes without the FCS, whether the FCS is right, and what MACsec
verification yields of it: the frame without SecTAG and ICV, or nothing where the ICV fails (R368). -/
structure EthRx where
  bytes : List Byte
  fcs : Bool
  clear : Option (List Byte)
deriving DecidableEq, Repr

/-- A received fragment of a preemptable frame (R373): whether it starts a frame, the frame count and fragment count
of Clause 99, its bytes, whether it is the last, whether its mCRC (or, on the last, the FCS) is right, and what MACsec
verification yields of the whole frame. -/
structure EthFragment where
  start : Bool
  frameCount : Fin 4
  fragCount : Fin 4
  bytes : List Byte
  final : Bool
  check : Bool
  clear : Option (List Byte)
deriving DecidableEq, Repr

/-- A partner's rate page (R395): RATES, the FEC it allows (bit 0 BASE-R, bit 1 RS), its NEG_ID. -/
structure RatePage where
  rates : BitVec 5
  fec : BitVec 2
  negId : BitVec 24
deriving DecidableEq, Repr

/-- What the CRC of a Uzovi frame shows at its end (R408). -/
inductive CrcFinding where
  | correct
  | stomped
  | wrong
deriving DecidableEq, Repr

/-- What the check bits of the words an access touches show (R484, R505). -/
inductive EccFinding where
  | clean
  | corrected
  | uncorrectable
deriving DecidableEq, Repr

/-- What the wake receiver takes in a listen window (R553): a WUR frame, whether it is a WUR Wake-up or Short Wake-up
frame, whether its frame check is valid, its address and whether it came at HDR; or energy at a level for a time in µs. -/
inductive WurSight where
  | frame (wakeUp fcs : Bool) (addr : BitVec 12) (hdr : Bool)
  | energy (dbm : Int) (us : Nat)
deriving DecidableEq, Repr

/-- What the Ethernet wake detector sees (R387): a frame with the validity of its FCS, or a change in link state. -/
inductive WakeSight where
  | frame (bytes : List Byte) (fcs : Bool)
  | linkChange
deriving DecidableEq, Repr

/-- The functions that R43 opens and closes. -/
inductive FuncId where
  | slice (x : Fin 3)
  | eth (n : Fin 8)
  | lane (n : Fin 12)
  | hop (i : Fin 4)
  | engine (e : Fin 64)
  | ring (r : Fin 64)
  | queue (q : Fin 16384)
deriving DecidableEq, Repr

/-- An image copy in the boot flash (R572): its header of 352 bytes and its payload. -/
structure FlashCopy where
  header : List Byte
  payload : List Byte
deriving DecidableEq, Repr

/-- The boot flash as the ROM finds it (R571, R572): the first mode its SFDP table advertises in the order of R571 (0: no
SFDP signature; 1 1S-1S-1S, 2 1S-4S-4S, 3 8D-8D-8D), and copies 0 to 2. -/
structure Flash where
  mode : Fin 4
  copy0 : FlashCopy
  copy1 : FlashCopy
  copy2 : FlashCopy
deriving DecidableEq, Repr

/-! ### Commands -/

/-- The commands, one for each row of the opcode table, in its order. -/
inductive Instr where
  /-- REGISTER_WRITE (R18): A write to a register that has no row of its own sets, ignores or clears fields according
  to their access types. -/
  | registerWrite (m : Fin 27) (addr : BitVec 40) (v : Word)
  /-- LATCHING_READ (R17): A read of the lowest word or pair of a multi-word quantity returns it and latches the
  remaining words for that requester. -/
  | latchingRead (r : Fin 320) (addr : BitVec 40) (wide : Bool)
  /-- SHANK_ACCESS (R479): A master presents a read or write of 1 to 64 bytes to a Shank target, where it waits for a
  grant. -/
  | shankAccess (m : Fin 27) (addr : BitVec 40) (size : Nat) (data : Option (List Byte)) (cont : Bool)
  /-- ARBITER_GRANT (R485): A target's arbiter grants one waiting request by the emergency, forced, express, turn and
  rotation rules, and the target performs the access. -/
  | arbiterGrant (t : Fin 67) (preempts : Bool) (e : EccFinding)
  /-- FCTL_EN_SET (R44): Writing EN = 1 runs the function's open check and takes a Closed function into Opening, or
  sets PEND during Closing. -/
  | fctlEnSet (f : FuncId)
  /-- FCTL_EN_CLEAR (R46): Writing EN = 0 takes an Open function into Closing, refusing or back-pressuring new work,
  or stops Opening at once. -/
  | fctlEnClear (f : FuncId)
  /-- FUNCTION_OPENED (R43): A function in Opening whose preparation has finished enters Open. -/
  | functionOpened (f : FuncId)
  /-- DRAIN_COMPLETE (R46): The last work in flight of a Closing function finishes, and the function enters Closed,
  setting CLOSED_EV and reopening if PEND is set. -/
  | drainComplete (f : FuncId)
  /-- DRAIN_TIMEOUT (R46): The drain timeout of a Closing function expires and every unfinished item is aborted with
  CLOSED_ABORT before the function enters Closed. -/
  | drainTimeout (f : FuncId)
  /-- SENTINEL_WINDOW_END (R55): The 1,024-tick window of one speed sentinel ends and its count and slack are
  recorded. -/
  | sentinelWindowEnd (count : Nat)
  /-- SWEEP_START (R56): The sweep period expires and a new sentinel sweep starts. -/
  | sweepStart
  /-- SWEEP_COMPLETE (R56): A sentinel sweep completes and SYS_SPEED_STAT is updated from its sixteen results. -/
  | sweepComplete
  /-- AVS_MODE_WRITE (R64): A write of SYS_AVS_CTL.MODE starts, changes or stops the AVS loop after any transaction in
  progress, reading the rail target back when the loop starts. -/
  | avsModeWrite (v : Word)
  /-- AVS_MAN_WRITE (R69): A write to SYS_AVS_MAN in manual mode sends V, clamped, as a target-rail-voltage write. -/
  | avsManWrite (v : Word)
  /-- AVS_LIM_WRITE (R70): A write to SYS_AVS_LIM clamps the voltages, or is refused with CFG_ERR when VMIN exceeds
  VMAX or RAIL is 0b1111. -/
  | avsLimWrite (v : Word)
  /-- AVS_RESPONSE (R62): An AVSBus response arrives and its CRC is checked, completing the transaction. -/
  | avsResponse (crcGood : Bool) (mv : BitVec 16)
  /-- AVS_RETRY (R66): A transaction without a valid response is retried after 10 µs. -/
  | avsRetry
  /-- AVS_SETTLE_END (R63): The settle time after an AVS request ends and the loop may decide again. -/
  | avsSettleEnd
  /-- CONVERTER_RX_OVERRUN (R77): A converter receive FIFO overruns, aborting the reception on the slice and flushing
  the FIFO. -/
  | converterRxOverrun (x : Fin 3) (c : Fin 8)
  /-- CONVERTER_TX_UNDERRUN (R77): A converter transmit FIFO underruns and the slice ramps down and ends the PPDU with
  TX_UNDERRUN. -/
  | converterTxUnderrun (x : Fin 3) (c : Fin 8)
  /-- LANE_RX_OVERRUN (R77): A lane receive FIFO overruns and the frame in progress is truncated and discarded. -/
  | laneRxOverrun (n : Fin 12)
  /-- LANE_TX_UNDERRUN (R77): A lane transmit FIFO underruns and the MAC ends the frame with an error control block.
  -/
  | laneTxUnderrun (n : Fin 12)
  /-- HWM_CLR (R78): Writing HWM_CLR sets a FIFO's high-water mark to its present occupancy. -/
  | hwmClr (k : Fin 76)
  /-- LANE_TX_FRAME_START (R75): The lane transmit MAC starts a frame once the whole frame or the prefill is in its
  FIFO. -/
  | laneTxFrameStart (n : Fin 12) (level : Fin 65)
  /-- RETUNE_GO (R92): Writing GO checks the staged NCO words and makes a valid retune pending. -/
  | retuneGo (x : Fin 3)
  /-- RETUNE_APPLY (R92): At the first instant the slice neither receives nor transmits, the pending retune zeroes the
  accumulators, replaces the words and flushes the filters. -/
  | retuneApply (x : Fin 3)
  /-- RETUNE_SETTLE_END (R92): Two microseconds after a retune the slice receives and transmits again. -/
  | retuneSettleEnd (x : Fin 3)
  /-- SYNTH_START_END (R95): The 60 µs START interval of the synthesiser ends and it enters ACQUIRE. -/
  | synthStartEnd (x : Fin 3)
  /-- SYNTH_LOCK (R95): The lock detector has held for 4 µs and the synthesiser enters SETTLE. -/
  | synthLock (x : Fin 3)
  /-- SYNTH_ACQ_TIMEOUT (R95): ACQUIRE lasts 400 µs without lock and the synthesiser returns to START or enters FAULT.
  -/
  | synthAcqTimeout (x : Fin 3)
  /-- SYNTH_SETTLE_END (R95): The 40 µs SETTLE interval ends and the synthesiser reaches READY. -/
  | synthSettleEnd (x : Fin 3)
  /-- SYNTH_LOCK_LOST (R96): Lock drops for 1 µs in READY, aborting any reception and ramping down any transmission
  with SYNTH_LOST. -/
  | synthLockLost (x : Fin 3)
  /-- RESTART (R105): Writing RESTART in FAULT sends the synthesiser to START. -/
  | restart (x : Fin 3)
  /-- TRANSMIT_COMMAND (R97): Welt issues a transmit command to a slice, which starts it or holds it while the slice
  is not ready or not granted. -/
  | transmitCommand (x : Fin 3) (lead : Nat) (len : Nat) (shape : PpduShape) (chains : BitVec 8) (resp : Nat) (fit : Nat) (latest : Option Nat)
  /-- HELD_COMMAND_SENT (R97): A held transmit command proceeds when its slice becomes ready, and HELD_SENT
  increments. -/
  | heldCommandSent (x : Fin 3)
  /-- HOLD_DEADLINE (R98): A held command's deadline passes and it fails with SYNTH_NOT_READY or COEX_DENIED,
  returning its frames without a retry. -/
  | holdDeadline (x : Fin 3)
  /-- CAL_START (R109): Writing START requests a calibration of KIND at the next idle moment. -/
  | calStart (x : Fin 3) (v : Word)
  /-- TEMP_SAMPLE (R101): The slice temperature is read every 1.024 ms and compared with T_CAL against THRESH and
  FORCE_THRESH. -/
  | tempSample (x : Fin 3) (t : Int)
  /-- CALIBRATION_BEGIN (R99): A requested calibration starts at its window or idle moment, aborting any reception and
  holding the converters. -/
  | calibrationBegin (x : Fin 3)
  /-- CALIBRATION_COMPLETE (R102): A calibration ends, setting DONE_EV, T_CAL, CHAIN_OK and VALID and returning the
  synthesiser to READY. -/
  | calibrationComplete (x : Fin 3) (fails : BitVec 8)
  /-- TR_LEAD (R114): At t0 − TR_LEAD the transmitting chains raise TRSW and lower LNAEN. -/
  | trLead (x : Fin 3)
  /-- PA_LEAD (R114): At t0 − PA_LEAD PAEN rises. -/
  | paLead (x : Fin 3)
  /-- PA_LAG (R114): At t1 + PA_LAG PAEN falls. -/
  | paLag (x : Fin 3)
  /-- TR_LAG (R114): At t1 + TR_LAG TRSW falls, LNAEN rises and detection resumes. -/
  | trLag (x : Fin 3) (tx : List (List Cx)) (leak : Leakage)
  /-- ENERGY_CROSSING (R149): The primary-subchannel power reaches ED_THRESH, fixing instant D and starting the aerial
  and gain timeline. -/
  | energyCrossing (x : Fin 3) (rs : List (List Cx))
  /-- TB_EXPECTED_START (R150): For a solicited trigger-based PPDU, the expected start taken as D arrives and starts
  the timeline. -/
  | tbExpectedStart (x : Fin 3)
  /-- DIV_SWITCH_INB (R117): After the aerial A window the chain switches to INB. -/
  | divSwitchInb (x : Fin 3)
  /-- DIV_DECISION (R118): After both windows the chain chooses its aerial with hysteresis and applies the new gain.
  -/
  | divDecision (x : Fin 3) (m : List (WindowPower × WindowPower))
  /-- FIXED_WINDOW_END (R119): In fixed-aerial mode the single 1.6 µs window ends and the new gain is applied. -/
  | fixedWindowEnd (x : Fin 3) (m : List WindowPower)
  /-- QUALIFIER_START (R117): Samples pass to the qualifier and the aerial and gain are frozen. -/
  | qualifierStart (x : Fin 3)
  /-- ADC_CLIP_GAIN_DROP (R123): Four full-scale samples in a measurement window lower the gain by 18 dB and restart
  averaging. -/
  | adcClipGainDrop (x : Fin 3) (c : Fin 8)
  /-- QUAL_EVALUATION (R151): The qualifier evaluates the autocorrelation metric and starts the reception when it
  reaches QUAL_THRESH. -/
  | qualEvaluation (x : Fin 3) (rs : List (List Cx)) (chips : List Cx)
  /-- LLTF_TIMING_SEARCH (R152): The L-LTF peak search ends, fixing the receive stamp point or declaring a false lock.
  -/
  | lltfTimingSearch (x : Fin 3) (peak : Option Nat) (coarse : Int) (fine : Int)
  /-- LSIG_DECISION (R153): The L-SIG checks decide whether the reception continues. -/
  | lsigDecision (x : Fin 3) (f : PpduHeader) (pAdc : List Int)
  /-- SIGNAL_FIELD_CHECK (R154): A later signal field is checked, and a failure or too many streams ends the reception
  with the medium busy to its declared end. -/
  | signalFieldCheck (x : Fin 3) (f : SignalField)
  /-- RESTART_CANDIDATE (R156): A stronger preamble candidate is decided against the restart or capture margin,
  restarting the reception or continuing. -/
  | restartCandidate (x : Fin 3) (rs : List (List Cx)) (chips : List Cx) (full : Bool)
  /-- RECEPTION_END (R154): A reception reaches the last sample of its declared duration and its MPDUs and reception
  vector pass to Welt. -/
  | receptionEnd (x : Fin 3)
  /-- LDPC_CODEWORD_IN (R165): A codeword enters the shared decoder pool, limited in iterations when the buffer is
  over half full or dropped when full. -/
  | ldpcCodewordIn (x : Fin 3) (w : LdpcWord)
  /-- LDPC_DECODE_DONE (R164): A codeword finishes decoding by meeting every check or reaching MAX_ITER. -/
  | ldpcDecodeDone (k : Fin 24)
  /-- NF_BLOCK_END (R169): A 16 µs idle block ends and adds its per-subchannel power to the noise-floor averages. -/
  | nfBlockEnd (x : Fin 3) (powers : List (List Int))
  /-- TUNE_APPLY (R126): A written transmit match takes effect at the first instant outside any PPDU interval. -/
  | tuneApply (x : Fin 3) (c : Fin 8)
  /-- MISM_WINDOW_END (R127): A 4 µs mismatch window ends and the reflection coefficient is written to RFS_x_c_MISM.
  -/
  | mismWindowEnd (x : Fin 3) (m : List Reflection)
  /-- VSWR_ALARM_CLEAR (R128): Clearing ALARM ends back-off or stop from the next PPDU. -/
  | vswrAlarmClear (x : Fin 3) (c : Fin 8)
  /-- MASK_CHECK (R131): The mask monitor checks one chain of a PPDU of at least 16 µs against the breakpoint table.
  -/
  | maskCheck (x : Fin 3) (bins : List Int)
  /-- CX_REQ_RECOGNISED (R136): An arbiter port recognises REQ high, samples PRIO and starts the grant procedure. -/
  | cxReqRecognised (n : Fin 3) (prio : Bool)
  /-- CX_GRANT (R136): The arbiter's grant condition is met and GRANT is asserted. -/
  | cxGrant (n : Fin 3)
  /-- CX_REQ_FALL (R137): REQ falls and the arbiter lowers GRANT, letting the masked slices transmit after RESUME_GAP.
  -/
  | cxReqFall (n : Fin 3)
  /-- CX_REVOKE (R137): REVOKE_LEAD before a reserved period or MAX_GRANT expiry revokes a grant. -/
  | cxRevoke (n : Fin 3)
  /-- CX_TXACT_VIOLATION (R137): TXACT high while GRANT is low sets VIOL_EV and increments VIOL. -/
  | cxTxactViolation (n : Fin 3) (high : Bool)
  /-- CX_CLIENT_REQ_RAISE (R138): A client port raises REQ, with PRIO where applicable, ahead of a planned or decided
  PPDU. -/
  | cxClientReqRaise (n : Fin 3)
  /-- CX_CLIENT_GRANT_RISE (R138): A client port recognises GRANT and the held transmit sequence may start. -/
  | cxClientGrantRise (n : Fin 3)
  /-- CX_CLIENT_GRANT_FALL (R138): GRANT falls during a PPDU, which completes or is aborted with COEX_ABORT under
  STOP_ON_REVOKE. -/
  | cxClientGrantFall (n : Fin 3)
  /-- CX_CLIENT_REQ_FALL (R138): REQ falls when TR_LAG of the last PPDU ends and no command is held. -/
  | cxClientReqFall (n : Fin 3)
  /-- CX_MODE_WRITE (R139): A write to a coexistence port's MODE drops its outputs and resets its request state. -/
  | cxModeWrite (n : Fin 3) (v : Word)
  /-- CANC_RESET (R142): Writing RESET zeroes the canceller coefficients of a chain. -/
  | cancReset (x : Fin 3) (c : Fin 8)
  /-- OPEN (R182): Context command OPEN checks a free station context, enters its addresses and makes it open. -/
  | ctxOpen (s : Fin 1024)
  /-- CLOSE (R183): Context command CLOSE makes the station closing and stops selecting it for new PPDUs. -/
  | ctxClose (s : Fin 1024)
  /-- CLOSE_COMPLETE (R183): After the station's PPDUs complete, its agreements, keys and addresses are removed and
  the context becomes free. -/
  | ctxCloseComplete (s : Fin 1024)
  /-- KEY (R182): Context command KEY installs a pairwise key slot and cipher for a key ID and resets its PNs. -/
  | ctxKey (s : Fin 1024)
  /-- MAP (R182): Context command MAP replaces the downlink or uplink TID-to-link map in one step. -/
  | ctxMap (s : Fin 1024)
  /-- BA_TX_ADD (R182): Context command BA_TX_ADD creates a transmit block-ack agreement. -/
  | baTxAdd (s : Fin 1024)
  /-- BA_TX_DEL (R182): Context command BA_TX_DEL deletes a transmit block-ack agreement. -/
  | baTxDel (s : Fin 1024)
  /-- BA_RX_ADD (R182): Context command BA_RX_ADD creates a receive block-ack agreement with WinStart = SSN. -/
  | baRxAdd (s : Fin 1024)
  /-- BA_RX_DEL (R182): Context command BA_RX_DEL releases held MPDUs in order and deletes the receive agreement. -/
  | baRxDel (s : Fin 1024)
  /-- TSF_OFS_HI_WRITE (R178): A write to WELT_TSF_OFS_HI applies the held low word and the new high word to the TSF
  offset in one step. -/
  | tsfOfsHiWrite (v : Word)
  /-- MPDU_RECEIVED (R196): Welt receives an MPDU, finds its station, acknowledges, decrypts, reorders and delivers
  MSDUs to Clicker. -/
  | mpduReceived (l : Fin 3) (m : RxMpdu)
  /-- REORDER_TIMEOUT (R196): Held MPDUs wait TIMEOUT for a gap and WinStart advances, releasing what is held in
  sequence. -/
  | reorderTimeout (s : Fin 1024) (t : Fin 8)
  /-- BLOCKACK_RECEIVED (R194): A BlockAck on any link acknowledges MPDUs of an agreement and moves its window. -/
  | blockackReceived (l : Fin 3) (s : Fin 1024) (t : Fin 8) (ssn : BitVec 12) (bitmap : List Bool)
  /-- EDCA_BACKOFF_ZERO (R193): An AC's backoff reaches zero, the AC wins and Welt serves the first eligible source
  with an SU PPDU. -/
  | edcaBackoffZero (l : Fin 3) (ac : Fin 4) (fit : Nat) (ns : Nat)
  /-- RESPONSE_TIMEOUT (R191): No response arrives within the response timeout, so a retry counts and the contention
  window doubles. -/
  | responseTimeout (l : Fin 3)
  /-- TX_STATUS (R191): A PPDU ends with a status from the slice and Welt requeues or retries its MPDUs and adjusts
  the contention window. -/
  | txStatus (l : Fin 3)
  /-- LINK_UNAVAILABLE (R188): A link becomes unavailable, its backoffs hold and UNAVAIL increments. -/
  | linkUnavailable (l : Fin 3)
  /-- LINK_AVAILABLE (R189): A link becomes available again, requiring RTS/CTS protection after a long unavailability.
  -/
  | linkAvailable (l : Fin 3)
  /-- WUR_JOB_START (R199): A write to WELT_WUR_j_CMD starts a wake-up job after checking its station. -/
  | wurJobStart (j : Fin 16) (v : Word)
  /-- WUR_SEND_DUE (R199): A wake-up send falls due, the previous unstarted send is skipped, and the job ends after
  its last send. -/
  | wurSendDue (j : Fin 16)
  /-- WUR_BEACON_DUE (R200): A WUR Beacon falls due every PERIOD TU of the TSF. -/
  | wurBeaconDue (l : Fin 3)
  /-- ARM (R219): Writing ARM starts validation of the inactive Last bank. -/
  | arm (l : Fin 3)
  /-- LAST_VALIDATION_DONE (R219): Validation of a Last bank completes, setting PEND or recording the failing code
  with VAL_ERR_EV. -/
  | lastValidationDone (l : Fin 3)
  /-- DISARM (R222): Writing DISARM before the boundary cancels a pending swap. -/
  | disarm (l : Fin 3)
  /-- STOP (R222): Writing STOP lets the active bank run to its next boundary and discards any pending swap. -/
  | stop (l : Fin 3)
  /-- LAST_CYCLE_BOUNDARY (R221): A cycle boundary of the active bank is reached, swapping in a pending bank or
  stopping. -/
  | lastCycleBoundary (l : Fin 3)
  /-- LAST_BANK_START (R209): A bank reaches its first start and its entries begin to run. -/
  | lastBankStart (l : Fin 3)
  /-- LAST_ENTRY_START (R216): An entry occurrence starts, latching its list and beginning the clear check or its
  QUIET or CAL action. -/
  | lastEntryStart (l : Fin 3)
  /-- CLEAR_CHECK_END (R216): The medium has been idle for PIFS and Welt commits the first PPDU's content. -/
  | clearCheckEnd (l : Fin 3) (fit : Nat)
  /-- FIRST_PPDU_START (R216): At T + OPEN the first PPDU of the occurrence starts, or starts late with LATE. -/
  | firstPpduStart (l : Fin 3) (delay : Nat)
  /-- LAST_ENTRY_END (R210): An entry occurrence reaches start + DUR and the link returns to contention time. -/
  | lastEntryEnd (l : Fin 3)
  /-- GO (R223): Writing GO to LAST_x_AMEND_CMD checks and applies an amendment of one active entry. -/
  | go (l : Fin 3) (i : Fin 4096)
  /-- ADD (R253): Awl ADD writes the modular sum and optionally sets the flags. -/
  | add (t : Fin 256)
  /-- ADDS (R254): Awl ADDS writes the saturated signed or unsigned sum. -/
  | adds (t : Fin 256)
  /-- SUB (R253): Awl SUB writes the modular difference and optionally sets the flags. -/
  | sub (t : Fin 256)
  /-- SUBS (R254): Awl SUBS writes the saturated difference. -/
  | subs (t : Fin 256)
  /-- MUL (R255): Awl MUL writes the low 64 bits of the product. -/
  | mul (t : Fin 256)
  /-- MULH (R255): Awl MULH writes the high 64 bits of the signed or unsigned product. -/
  | mulh (t : Fin 256)
  /-- AND (R256): Awl AND writes the bitwise and. -/
  | and (t : Fin 256)
  /-- OR (R256): Awl OR writes the bitwise or, with the immediate shifted by halfword. -/
  | or (t : Fin 256)
  /-- XOR (R256): Awl XOR writes the bitwise exclusive or. -/
  | xor (t : Fin 256)
  /-- SHL (R257): Awl SHL shifts left. -/
  | shl (t : Fin 256)
  /-- SHR (R257): Awl SHR shifts right logically. -/
  | shr (t : Fin 256)
  /-- SHRA (R257): Awl SHRA shifts right arithmetically. -/
  | shra (t : Fin 256)
  /-- CLZ (R258): Awl CLZ counts leading zeros. -/
  | clz (t : Fin 256)
  /-- POPC (R258): Awl POPC counts one bits. -/
  | popc (t : Fin 256)
  /-- CMP (R253): Awl CMP sets the flags from a subtraction without writing a register. -/
  | cmp (t : Fin 256)
  /-- BFX (R259): Awl BFX extracts a bit field with sign or zero extension. -/
  | bfx (t : Fin 256)
  /-- BFI (R259): Awl BFI inserts a bit field into the destination. -/
  | bfi (t : Fin 256)
  /-- B_COND (R260): Awl B.cond branches when its condition holds. -/
  | bCond (t : Fin 256)
  /-- CALL (R260): Awl CALL saves the return address in g15 and branches. -/
  | call (t : Fin 256)
  /-- RET (R260): Awl RET sets the PC from a register. -/
  | ret (t : Fin 256)
  /-- LD (R243): Awl LD loads 1 to 8 bytes locally or through Shank. -/
  | ld (t : Fin 256)
  /-- ST (R243): Awl ST stores 1 to 8 bytes locally or through Shank. -/
  | st (t : Fin 256)
  /-- LONG_LATENCY_COMPLETE (R237): A long-latency instruction completes and its thread leaves Wait to issue again. -/
  | longLatencyComplete (t : Fin 256)
  /-- YIELD (R261): Awl YIELD ends the thread's dispatch or start and returns it to Idle. -/
  | yield (t : Fin 256)
  /-- RAISE (R261): Awl RAISE offers a code and value as a signal to the Bench. -/
  | raise (t : Fin 256)
  /-- TRAP (R261): Awl TRAP raises the TRAP exception with its code. -/
  | trap (t : Fin 256)
  /-- HALT (R261): Awl HALT stops the thread in Halt, dropping any frame. -/
  | halt (t : Fin 256)
  /-- LDP (R274): Awl LDP loads frame bytes in network order from the head slot or buffers. -/
  | ldp (t : Fin 256)
  /-- STP (R274): Awl STP stores frame bytes and marks head lines dirty. -/
  | stp (t : Fin 256)
  /-- CRC (R276): Awl CRC updates a running CRC-32 or CRC-32C over 1 to 8 bytes. -/
  | crc (t : Fin 256)
  /-- HASH (R277): Awl HASH mixes two words into a hash. -/
  | hash (t : Fin 256)
  /-- QPUSH (R279): Awl QPUSH appends a word to a ring, mailbox or work queue, waiting or refused when full. -/
  | qpush (t : Fin 256)
  /-- QPULL (R280): Awl QPULL removes the oldest word, waiting when empty for an ordinary thread. -/
  | qpull (t : Fin 256)
  /-- QPEEK (R280): Awl QPEEK copies the oldest word without removing it. -/
  | qpeek (t : Fin 256)
  /-- LOCK (R283): Awl LOCK acquires a hardware lock, waits for it or is refused. -/
  | lock (t : Fin 256)
  /-- UNLOCK (R283): Awl UNLOCK releases a hardware lock, handing it to the longest waiter. -/
  | unlock (t : Fin 256)
  /-- TNOW (R285): Awl TNOW writes network time to a register pair. -/
  | tnow (t : Fin 256)
  /-- TMONO (R285): Awl TMONO writes elapsed time. -/
  | tmono (t : Fin 256)
  /-- TADD (R286): Awl TADD adds a signed interval to a time pair and normalises it. -/
  | tadd (t : Fin 256)
  /-- TCMP (R287): Awl TCMP compares two time pairs under the modulo rule and sets the flags. -/
  | tcmp (t : Fin 256)
  /-- CFADD (R288): Awl CFADD adds correction-field values with saturation. -/
  | cfadd (t : Fin 256)
  /-- STAMP_READ (R289): Awl STAMP with U = 0 writes the held frame's ingress stamp to a pair. -/
  | stampRead (t : Fin 256)
  /-- STAMP_MARK (R290): Awl STAMP with U = 1 records a stamp action word for the frame's egress. -/
  | stampMark (t : Fin 256)
  /-- WAITEV (R291): Awl WAITEV returns pending masked events or waits for one, a deadline or closing. -/
  | waitev (t : Fin 256)
  /-- WAITEV_WAKE (R291): A waited event, the deadline or the engine's Closing resumes a thread in WAITEV. -/
  | waitevWake (t : Fin 256)
  /-- WAITT (R293): Awl WAITT waits for an elapsed-time or network-time deadline. -/
  | waitt (t : Fin 256)
  /-- WAITT_WAKE (R293): The deadline, a network-time step or engine Closing resumes a thread in WAITT with its
  status. -/
  | waittWake (t : Fin 256)
  /-- RELEASE (R294): Awl RELEASE hands the held frame to Lacing for a traffic-manager queue with its disposition. -/
  | release (t : Fin 256)
  /-- DROP (R295): Awl DROP discards the held frame with a reason. -/
  | drop (t : Fin 256)
  /-- FWD (R296): Awl FWD releases the held frame into another order domain as a new arrival. -/
  | fwd (t : Fin 256)
  /-- LASTW (R297): Awl LASTW writes an entry, list word or bank register of the inactive Last bank. -/
  | lastw (t : Fin 256)
  /-- LASTAMEND (R298): Awl LASTAMEND amends one entry of the active Last bank and waits for the result. -/
  | lastamend (t : Fin 256)
  /-- THR_RESTART (R269): THR_CMD RESTART resets a thread in Fault or Halt to Idle. -/
  | thrRestart (e : Fin 64) (k : Fin 4)
  /-- THR_START (R269): THR_CMD START starts an Idle ordinary thread at ENTRY. -/
  | thrStart (e : Fin 64) (k : Fin 4) (entry : BitVec 15)
  /-- EVT_SET (R292): A write to AWL_c_EVT latches cluster event lines in every thread of the cluster. -/
  | evtSet (c : Fin 8) (bits : BitVec 8)
  /-- CLASSIFICATION_POINT (R304): A frame's first 64 bytes arrive and Clicker classifies it, checks its destination
  and descriptor, and grants its pool. -/
  | classificationPoint (s : Fin 16)
  /-- FRAME_BUFFER_REQUEST (R307): A frame's bytes reach a new buffer, which is taken from its reservation or the
  pool, truncating it when none is free or it is oversize. -/
  | frameBufferRequest (s : Fin 16)
  /-- FRAME_COMPLETE (R304): Clicker writes a frame's last byte, fixing its arrival order and returning its unused
  reservation. -/
  | frameComplete (s : Fin 16)
  /-- POOL_ENABLE (R308): Writing a pool's EN = 1 checks its configuration and lets it grant again. -/
  | poolEnable (p : Fin 16)
  /-- LOW_CLR (R309): Writing LOW_CLR sets a pool's LOW to its FREE. -/
  | lowClr (p : Fin 16)
  /-- LACING_DISPATCH (R320): Lacing dispatches a waiting frame to an eligible Idle thread, copying its head. -/
  | lacingDispatch
  /-- LACING_DISPOSE (R322): A frame's turn comes in its order domain and its RELEASE, DROP or FWD takes effect. -/
  | lacingDispose (d : Fin 4096)
  /-- RXF_WRITE (R330): An RXF ring copies a frame into a slot, writes its entry and advances PROD. -/
  | rxfWrite (r : Fin 64)
  /-- TXF_ENTRY (R331): Clicker processes the next TXF ring entry as a source-15 frame and advances CONS. -/
  | txfEntry (r : Fin 64)
  /-- RING_PROD_WRITE (R328): A core write of PROD posts TXF entries, or is discarded with CFG_ERR when out of range
  or on the wrong side. -/
  | ringProdWrite (r : Fin 64) (v : Word)
  /-- RING_CONS_WRITE (R328): A core write of CONS consumes MSG or RXF entries, or is discarded with CFG_ERR. -/
  | ringConsWrite (r : Fin 64) (v : Word)
  /-- RING_ERROR (R332): A decode error or refusal on a ring access sets ERR and closes the ring at once. -/
  | ringError (r : Fin 64)
  /-- FILL (R344): Writing FILL sets a meter's buckets to their burst sizes. -/
  | fill (m : Fin 4096)
  /-- EGRESS_REQUEST (R352): An egress able to begin a frame asks its scheduler, which selects from the strict then
  the fair level. -/
  | egressRequest (e : Fin 80)
  /-- ETH_FRAME_RECEIVED (R362): A frame arrives at an Ethernet port and is checked, verified by MACsec and passed to
  Clicker or discarded. -/
  | ethFrameReceived (n : Fin 8) (f : EthRx)
  /-- PAUSE (R364): A valid PAUSE frame stops TC 0 to 6 for its pause time. -/
  | pause (n : Fin 8) (dest : BitVec 48) (time : BitVec 16)
  /-- PFC (R364): A valid PFC frame pauses the enabled priorities. -/
  | pfc (n : Fin 8) (dest : BitVec 48) (enable : BitVec 8) (times : List (BitVec 16))
  /-- PAUSE_EXPIRE (R365): A pause time runs out and the paused TCs may start again. -/
  | pauseExpire (n : Fin 8)
  /-- ETH_FRAME_TRANSMIT (R363): A port transmits a selected frame with padding, FCS, MACsec and stamp actions. -/
  | ethFrameTransmit (n : Fin 8)
  /-- PREEMPT (R372): An eligible express frame preempts a preemptable frame at the next allowed boundary. -/
  | preempt (n : Fin 12) (carried : Nat)
  /-- FRAGMENT_RECEIVED (R373): A preemption fragment arrives and is reassembled, or the frame is discarded on a
  sequence or mCRC error. -/
  | fragmentReceived (n : Fin 8) (g : EthFragment)
  /-- VERIFY_START (R371): PRE_EN written 1 or a link rise starts preemption verification. -/
  | verifyStart (n : Fin 8)
  /-- VERIFY_TIMER (R371): VERIFY_MS expires and another verify mPacket is sent or verification fails after three. -/
  | verifyTimer (n : Fin 8)
  /-- RESPOND_RECEIVED (R371): The partner's respond mPacket makes verification SUCCEEDED. -/
  | respondReceived (n : Fin 8)
  /-- VERIFY_RECEIVED (R371): A received verify mPacket is answered while PRE_EN = 1. -/
  | verifyReceived (n : Fin 8)
  /-- GATE_EN_WRITE (R376): A write of GATE_EN or INIT_STATES sets the gate states at once, stopping the list when
  disabled. -/
  | gateEnWrite (n : Fin 8) (en : Bool) (init : BitVec 8)
  /-- GATE_GO (R377): Writing GO starts validation of the inactive gate bank. -/
  | gateGo (n : Fin 8)
  /-- GATE_VALIDATION_DONE (R377): Gate validation completes, setting PEND and computing CCT or recording its code. -/
  | gateValidationDone (n : Fin 8)
  /-- GATE_CANCEL (R379): Writing CANCEL abandons a validation or a pending change. -/
  | gateCancel (n : Fin 8)
  /-- GATE_ENTRY_CHANGE (R375): A gate entry's interval ends and the next entry's states take effect. -/
  | gateEntryChange (n : Fin 8)
  /-- GATE_CYCLE_START (R378): A gate cycle starts and is checked for truncation or extension toward a pending CCT. -/
  | gateCycleStart (n : Fin 8)
  /-- GATE_CCT (R378): At CCT the prepared gate bank becomes operative and SWAP_EV is set. -/
  | gateCct (n : Fin 8)
  /-- LPM_ADD (R384): Router command LPM_ADD adds or replaces a prefix. -/
  | lpmAdd
  /-- LPM_DEL (R384): Router command LPM_DEL removes a prefix. -/
  | lpmDel
  /-- EM_ADD (R384): Router command EM_ADD adds or replaces an exact-match key. -/
  | emAdd
  /-- EM_DEL (R384): Router command EM_DEL removes an exact-match key. -/
  | emDel
  /-- LPM_CLEAR (R384): Router command OP 4 clears the longest-prefix table. -/
  | lpmClear
  /-- EM_CLEAR (R384): Router command OP 5 clears the exact-match table. -/
  | emClear
  /-- LPM_LOOKUP (R385): A read of slot offset +0x08 performs a longest-prefix lookup on the slot's key. -/
  | lpmLookup (k : Fin 264)
  /-- EM_LOOKUP (R385): A read of slot offset +0x10 performs an exact-match lookup on the slot's key. -/
  | emLookup (k : Fin 264)
  /-- WAKE_FRAME_DETECT (R387): In Doze the wake detector matches a wake frame, pattern or link change and wakes the
  device. -/
  | wakeFrameDetect (w : WakeSight)
  /-- NEG_TIMEOUT (R394): NEG_TO passes without a partner page and the lane probes or fails the attempt. -/
  | negTimeout (n : Fin 12)
  /-- RATE_PAGE_EXCHANGED (R395): The rate exchange completes and the lane goes to TRAIN or UP at the agreed rate. -/
  | ratePageExchanged (n : Fin 12) (p : Option RatePage)
  /-- PROBE_STEP (R394): PROBE_MS at one rate passes without lock and the lane tries the next rate or fails. -/
  | probeStep (n : Fin 12)
  /-- PROBE_LOCK (R394): A probing lane locks and enters UP. -/
  | probeLock (n : Fin 12)
  /-- TRAIN_LOCK_HELD (R394): Lock held for 2 ms in TRAIN takes the lane to UP. -/
  | trainLockHeld (n : Fin 12)
  /-- TRAIN_TIMEOUT (R396): TRAIN_TO expires and the attempt fails. -/
  | trainTimeout (n : Fin 12)
  /-- LINK_LOSS (R396): Loss of lock for 1 ms in UP takes the lane to NEG and sets DOWN_EV. -/
  | linkLoss (n : Fin 12)
  /-- BACKOFF_END (R396): A backoff ends and the lane re-enters NEG. -/
  | backoffEnd (n : Fin 12)
  /-- DETECT_SAMPLE (R397): A parked lane samples its signal detector and leaves L2 on signal. -/
  | detectSample (n : Fin 12) (signal : Bool)
  /-- L2_EXIT_COMPLETE (R397): Leaving L2 completes and the lane enters NEG or UP. -/
  | l2ExitComplete (n : Fin 12) (locked : Bool)
  /-- LANE_RETRY (R397): Writing RETRY in PARKED or BACKOFF restarts negotiation at once. -/
  | laneRetry (n : Fin 12)
  /-- PWR_WRITE (R398): A write of PWR requests L1, L2 or run after the frame in transmission. -/
  | pwrWrite (n : Fin 12) (v : BitVec 2)
  /-- QUIET_EXIT_COMPLETE (R398): An exit from L1 or L2 completes and the lane returns to UP or NEG. -/
  | quietExitComplete (n : Fin 12) (locked : Bool)
  /-- CHECKER_LOCK (R402): The PRBS checker locks after 1,024 correct predictions. -/
  | checkerLock (n : Fin 12)
  /-- CHECKER_LOCK_LOST (R402): Thirty-two wrong bits in an aligned block clear LOCK and reload the checker. -/
  | checkerLockLost (n : Fin 12) (blocks : List Nat)
  /-- INJ_GO (R403): Writing INJ_GO injects a single error or a burst into the generator output. -/
  | injGo (n : Fin 12)
  /-- TEST_CLR (R402): Writing CLR zeroes the bit and error counters. -/
  | testClr (n : Fin 12)
  /-- UZOVI_HEADER_DECISION (R410): At the end of a Uzovi header the hop checks it and delivers, transits or drops the
  frame. -/
  | uzoviHeaderDecision (i : Fin 4) (header : List Byte) (opcode : BitVec 16)
  /-- UZOVI_FRAME_END (R408): A Uzovi frame's CRC is checked at its end, dropping or stomping bad frames. -/
  | uzoviFrameEnd (i : Fin 4) (payload : List Byte) (crc : CrcFinding)
  /-- HOP_SEND_SELECT (R412): A hop able to start a frame picks from the express line, HELLOs and alternating best-
  effort sources. -/
  | hopSendSelect (e : Fin 4)
  /-- HELLO_DUE (R417): HELLO_MS expires and an Open, UP hop sends a HELLO to its neighbour. -/
  | helloDue (i : Fin 4)
  /-- HELLO_RECEIVED (R417): A received HELLO updates the neighbour record and sets VALID. -/
  | helloReceived (i : Fin 4) (sender : BitVec 32) (nbrHop : Fin 4) (ring : Bool) (owner : Bool)
  /-- NEIGHBOUR_TIMEOUT (R417): Three HELLO_MS pass without a HELLO and VALID clears. -/
  | neighbourTimeout (i : Fin 4)
  /-- HOP_DOWN (R420): A ring hop goes down, is blocked for failure, flood mode starts and RING_FAIL is sent. -/
  | hopDown (i : Fin 4)
  /-- RING_FAIL (R420): A received RING_FAIL enters flood mode, is forwarded, and unblocks the owner hop. -/
  | ringFail (i : Fin 4) (id1 : BitVec 32) (id2 : BitVec 32)
  /-- RING_RESTORE (R421): A received RING_RESTORE is forwarded and makes the owner start its wait-to-restore. -/
  | ringRestore (i : Fin 4) (id1 : BitVec 32) (id2 : BitVec 32)
  /-- WTR_EXPIRE (R421): The owner's wait-to-restore ends, it blocks its owner hop and sends RING_CLEAR. -/
  | wtrExpire
  /-- RING_CLEAR (R421): A received RING_CLEAR is forwarded, ends flood mode and unblocks failure-blocked hops. -/
  | ringClear (i : Fin 4) (id1 : BitVec 32)
  /-- REGISTER_REQUEST (R422): A remote register request runs as a master-22 access and its response is sent. -/
  | registerRequest
  /-- UZL_RT_ADD (R411): Uzovi route command ADD adds or replaces a route. -/
  | uzlRtAdd
  /-- UZL_RT_DEL (R411): Uzovi route command DEL removes a route. -/
  | uzlRtDel
  /-- UZL_RT_CLEAR (R411): Uzovi route command CLEAR empties the route table. -/
  | uzlRtClear
  /-- TRIM_BOUNDARY (R431): Every 512 ticks network time receives its rate trim and slew, reducing REM. -/
  | trimBoundary
  /-- SET (R432): Time command SET steps network time to a value or slews toward it. -/
  | timeSet
  /-- STEP (R432): Time command STEP steps network time by an interval or adds it to REM. -/
  | timeStep
  /-- SLEW_ABORT (R431): Writing SLEW_ABORT sets REM to zero. -/
  | slewAbort
  /-- TB_LOCK_LOST (R427): The time-base PLL loses lock for 1 µs, stopping network time, pulses and captures. -/
  | tbLockLost
  /-- TB_LOCK_ACQUIRED (R426): The time-base PLL locks and network time resumes with ET back on ticks. -/
  | tbLockAcquired
  /-- PATH_WRITE (R446): A write of TIME_p_PATH is tested against PATH_REF and may start a hold. -/
  | pathWrite (p : Fin 15) (v : Word)
  /-- HOLD_EXPIRE (R447): A servo hold runs out and REF_VALID of its port clears. -/
  | holdExpire
  /-- HOLD_END (R447): Writing HOLD_END ends a servo hold. -/
  | holdEnd
  /-- POP (R445): Writing TIME_p_TSQ_POP removes the oldest time-stamp queue entry. -/
  | pop (p : Fin 15)
  /-- PPS_MODE_WRITE (R450): A write of MODE arms, disarms or rejects a pulse output. -/
  | ppsModeWrite (n : Fin 8) (v : Word)
  /-- PPS_ACTIVE_EDGE (R448): Time reaches a pulse instant and the output becomes active. -/
  | ppsActiveEdge (n : Fin 8)
  /-- PPS_INACTIVE_EDGE (R448): WIDTH after an active edge the output becomes inactive. -/
  | ppsInactiveEdge (n : Fin 8)
  /-- CAPTURE_EDGE (R451): An enabled edge on a capture input is stamped and queued or dropped when full. -/
  | captureEdge (n : Fin 4) (rising : Bool)
  /-- CAPTURE_POP (R451): Writing TIME_CAP_n_POP removes the oldest capture entry. -/
  | capturePop (n : Fin 4)
  /-- CREATE (R463): Bench CREATE makes an unused thread READY or SUSPENDED. -/
  | create (n : Fin 8) (t : Fin 4096)
  /-- READY (R463): Bench READY makes a suspended, delayed or waiting thread READY, or is discarded. -/
  | ready (n : Fin 8) (t : Fin 4096)
  /-- CANCEL (R465): Bench CANCEL tombstones a thread and ends it now or at its next preemption point. -/
  | cancel (n : Fin 8) (t : Fin 4096)
  /-- SUSPEND (R463): Bench SUSPEND makes a thread SUSPENDED. -/
  | suspend (n : Fin 8) (t : Fin 4096)
  /-- DELAY (R463): Bench DELAY puts the calling thread in the delay list. -/
  | delay (n : Fin 8)
  /-- WAIT (R466): Bench WAIT returns matching events or blocks the thread with an optional timeout. -/
  | wait (n : Fin 8)
  /-- SET_EVENT (R466): Bench SET_EVENT ORs bits into a thread's event word and may wake it. -/
  | setEvent (n : Fin 8) (t : Fin 4096)
  /-- SET_PRIO (R463): Bench SET_PRIO changes a thread's base priority. -/
  | setPrio (n : Fin 8) (t : Fin 4096)
  /-- BENCH_YIELD (R463): Bench YIELD puts the calling thread at the tail of its ready list. -/
  | benchYield (n : Fin 8)
  /-- SIG_POP (R473): Bench SIG_POP removes the calling thread's oldest signal. -/
  | sigPop (n : Fin 8)
  /-- IRQ_ACK (R475): Bench IRQ_ACK clears an interrupt source's PEND. -/
  | irqAck (n : Fin 8)
  /-- EXIT (R463): Bench EXIT makes the calling thread UNUSED. -/
  | exit (n : Fin 8)
  /-- TICK (R467): The Bench tick increments TICK_CNT and runs expiries, ageing, slices and dispatch. -/
  | tick
  /-- DELAY_EXPIRY (R467): A delay or WAIT timeout comes due and the thread becomes READY. -/
  | delayExpiry (t : Fin 4096)
  /-- AGEING (R468): A waiting thread's effective priority improves by ageing and AGED increments. -/
  | ageing (t : Fin 4096)
  /-- SLICE_END (R469): A thread's time slice ends and it yields to another ready thread of its level. -/
  | sliceEnd (n : Fin 8)
  /-- ACK (R471): A write of ACK makes NEXT current or sets ACK_STALE. -/
  | ack (n : Fin 8) (v : Word)
  /-- PMASK_WRITE (R470): A write of PMASK to 0 lets the Bench consider the core again. -/
  | pmaskWrite (n : Fin 8) (v : Word)
  /-- PUSH (R474): Core queue operation PUSH appends a word to a mailbox or work queue. -/
  | push (n : Fin 8)
  /-- PULL (R474): Core queue operation PULL removes a word from a work queue. -/
  | pull (n : Fin 8)
  /-- PEEK (R474): Core queue operation PEEK copies a work-queue word. -/
  | peek (n : Fin 8)
  /-- INTERRUPT_POST (R475): A high enabled interrupt source without PEND sets its event bit on its thread. -/
  | interruptPost (i : Fin 256)
  /-- RUN_WRITE (R460): A write of RUN starts a core at its entry or resets it, breaking its locks. -/
  | runWrite (m : Fin 27) (n : Fin 8) (v : Word)
  /-- LOCK_ACQ_READ (R491): A core read of SHK_LOCK_i_ACQ attempts to acquire a lock. -/
  | lockAcqRead (m : Fin 27) (i : Fin 1024)
  /-- LOCK_REL_WRITE (R492): A core write of REL releases its lock to the longest waiter. -/
  | lockRelWrite (m : Fin 27) (i : Fin 1024)
  /-- BRK (R493): A core write of BRK breaks a lock. -/
  | brk (m : Fin 27) (i : Fin 1024)
  /-- DRAM_ACCESS (R497): A DRAM channel performs an access as one activation with auto-precharge and ECC. -/
  | dramAccess (c : Fin 2) (e : EccFinding)
  /-- REFRESH_DECISION (R500): At an idle moment or access end the channel issues urgent, owed or no refresh. -/
  | refreshDecision (c : Fin 2)
  /-- NEIGHBOUR_REFRESH (R503): A queued neighbour row is refreshed by an activation and precharge. -/
  | neighbourRefresh (c : Fin 2)
  /-- MR4_READ (R502): Every 16 ms the channel reads MR4 and sets the refresh code. -/
  | mr4Read (c : Fin 2) (log2 : Int) (hot : Bool)
  /-- TRAIN_START (R498): Writing START begins DRAM training of both channels. -/
  | trainStart
  /-- TRAINING_DONE (R498): Training ends READY or FAILED with TRAIN_EV. -/
  | trainingDone (step : Fin 8) (ch : BitVec 2)
  /-- INIT (R506): Writing INIT writes zero with valid check bytes over the DRAM window. -/
  | init
  /-- INIT_DONE (R506): ECC initialisation completes and STATE returns to READY. -/
  | initDone
  /-- SELF_REFRESH_ACK (R507): A DRAM channel enters self-refresh and acknowledges the Heel. -/
  | selfRefreshAck (c : Fin 2)
  /-- SELF_REFRESH_TIMEOUT (R507): No self-refresh acknowledgement within 100 µs aborts the entry. -/
  | selfRefreshTimeout
  /-- PROVISION (R517): Lifecycle command PROVISION programs the PROVISION fuse group. -/
  | lcProvision (m : Fin 27)
  /-- SECURE (R517): Lifecycle command SECURE programs the SECURE fuse group. -/
  | lcSecure (m : Fin 27)
  /-- RETURN (R517): Lifecycle command RETURN zeroises customer keys and programs the RETURN group. -/
  | lcReturn (m : Fin 27)
  /-- RETIRE (R517): Lifecycle command RETIRE programs the RETIRE group. -/
  | lcRetire (m : Fin 27)
  /-- LIFECYCLE_DONE (R517): Lifecycle programming completes, closes debug and requests a main-domain reset. -/
  | lifecycleDone
  /-- PROG (R515): Writing PROG programs one OTP word. -/
  | prog
  /-- OTP_PROG_DONE (R515): OTP programming and read-back complete with a status. -/
  | otpProgDone (failed : Word)
  /-- IMAGE_VERIFY (R521): Iltil verifies a boot image header, signature and payload. -/
  | imageVerify (header : List Byte)
  /-- SVN_WRITE (R523): A write of ILT_SVN programs the security version counter or is refused. -/
  | svnWrite (v : Word)
  /-- RNG_READ (R525): A read of ILT_RNG returns fresh random bits. -/
  | rngRead (m : Fin 27)
  /-- RNG_HEALTH_FAIL (R525): A failed health test stops the random source and sets FAIL. -/
  | rngHealthFail
  /-- KEY_DERIVE (R527): ILT_KL_CMD derives a key and exports it or writes it to a hardware slot. -/
  | keyDerive (v : Word)
  /-- KL_OUT_READ (R527): A read of ILT_KL_OUT_7 clears the exported key. -/
  | klOutRead (m : Fin 27)
  /-- SIGN (R528): Writing SIGN signs the digest with the identity key. -/
  | sign
  /-- REQ (R534): Writing REQ opens an unauthenticated level or issues a challenge. -/
  | req (level : BitVec 2)
  /-- VERIFY (R534): Writing VERIFY checks the debugger's key and signature and opens the level. -/
  | verify
  /-- CHALLENGE_EXPIRE (R534): A challenge's 10 s lifetime ends and it is discarded. -/
  | challengeExpire
  /-- DEBUG_CLOSE (R536): Writing CLOSE closes the debug session. -/
  | debugClose
  /-- LOCK_WRITE (R531): Writing ILT_ACC_CTL.LOCK locks the access tables. -/
  | lockWrite (v : Word)
  /-- DOZE_REQUEST (R544): A TARGET Doze request is checked and starts entry or is refused. -/
  | dozeRequest
  /-- WATCH_REQUEST (R544): A TARGET Watch request is checked, including the heel budget, and starts entry or is
  refused. -/
  | watchRequest
  /-- OFF_REQUEST (R544): A TARGET Off request is checked and starts entry or is refused. -/
  | offRequest
  /-- RUN_REQUEST (R543): A TARGET Run request wakes the device with cause software after an entry. -/
  | runRequest
  /-- ENTRY_COMPLETE (R545): Main domains power off and STATE becomes the target, running any pending wake or request.
  -/
  | entryComplete
  /-- WATCH_PERIOD_START (R552): A Watch period starts and the sequencer runs its enabled sources in order. -/
  | watchPeriodStart
  /-- WUR_MATCH (R553): The wake receiver matches a wake-up frame or energy and wakes the device. -/
  | wurMatch (w : WurSight)
  /-- TEMP_COMPARE (R554): The temperature comparator matches beyond T_HI or T_LO. -/
  | tempCompare (t : Int)
  /-- SUPPLY_COMPARE (R554): The supply comparator matches on VSENSE_IN. -/
  | supplyCompare (mv : Nat)
  /-- WAKE_PIN (R554): A wake pin at its active level is recognised and latched in PEND. -/
  | wakePin (n : Fin 4) (high : Bool)
  /-- WAKE_START (R550): A wake source starts a wake, raising the enables. -/
  | wakeStart
  /-- POWER_GOOD (R550): CORE_PG or RAIL_PG rises during a wake. -/
  | powerGood (rail : Bool)
  /-- REFERENCE_WINDOW_END (R550): A reference-count window ends and the reference is judged valid or not. -/
  | referenceWindowEnd (count : Nat)
  /-- TAG_CHECK (R537): Iltil checks the save-area tag and restores the list, or forces a cold boot. -/
  | tagCheck
  /-- WAKE_COMPLETE (R550): Core 0 reaches the resume stub, WAKE_EV is set and WAKES increments. -/
  | wakeComplete
  /-- WAKE_TRY_FAIL (R557): A power-good or reference timeout fails the wake try. -/
  | wakeTryFail (step : Fin 3)
  /-- OFF_WAIT_END (R557): OFF_WAIT after a failed try ends and the wake retries, or wake failure or diagnostic mode
  follows. -/
  | offWaitEnd
  /-- BROWN_OUT (R556): The heel regulator stays below 0.72 V for 2 µs, resetting everything and setting BOR. -/
  | brownOut
  /-- OSC_SEL_WRITE (R562): A write of OSC_SEL switches to the crystal after checking it or sets XTAL_FAIL. -/
  | oscSelWrite (v : Word) (hz : Nat)
  /-- HEEL_POR_RELEASE (R565): The Heel leaves power-on reset, starts ET and raises the enables after 1 ms. -/
  | heelPorRelease
  /-- MAIN_RESET_RELEASE (R566): The main-domain reset is released, recording its cause and starting SRAM clear and
  OTP load. -/
  | mainResetRelease
  /-- KEY_WRITE (R568): A write of KEY 0x5253 to SYS_RST_CMD resets the main domain. -/
  | keyWrite (m : Fin 27)
  /-- CORE0_BOOT (R570): Core 0 enters the boot ROM and resumes, runs diagnostics or boots from flash. -/
  | core0Boot (f : Flash)
  /-- RECOVERY_HELLO (R573): A recovery HELLO is answered with identity and status. -/
  | recoveryHello (src : BitVec 48) (seq : BitVec 16)
  /-- RECOVERY_WRITE (R573): A recovery WRITE places image bytes. -/
  | recoveryWrite (src : BitVec 48) (seq : BitVec 16) (offset : Word) (data : List Byte)
  /-- RECOVERY_BOOT (R573): A recovery BOOT verifies and starts the image. -/
  | recoveryBoot (src : BitVec 48) (seq : BitVec 16)
  /-- MODE_WRITE (R574): A write of CKR_CTL.MODE switches filtering from the next classification point. -/
  | modeWrite (v : Word)
  /-- VDD_HEEL_IN_LOSS (R556): VDD_HEEL_IN is removed, so the Heel and every domain lose power, heel SRAM and RWS
  state are lost and HEEL_BOR.BOR clears. -/
  | vddHeelInLoss
  /-- ILLEGAL_INSTRUCTION_WORD (R248): A thread issues a word whose OP is unassigned, such as a zeroed or erased word,
  and raises ILLEGAL under R263. -/
  | illegalInstructionWord (t : Fin 256)
deriving DecidableEq, Repr

end Sys2Proof
end

