-- ==== Sys2Proof/Decode.lean ====
section
/-!
DEFINITION. The words of the commands. No row of the command table gives bits: a command comes from a port of the
block, not from a word, and no word spells one.
-/
namespace Sys2Proof

/-- The command that the word `w` of `nbits` bits spells: none. -/
def decodeTableWord (_nbits _w : Nat) : Option Instr := none

end Sys2Proof
end

