-- ==== Sys2Proof/Config.lean ====
section
/-!
DEFINITION. What the manual leaves open: one opaque constant for each kind of open value, applied to what it depends
on and to the state's counter of free values. None has a body, so no proof can use a particular value.
-/
namespace Sys2Proof.Config

/-- A value the manual leaves undefined after an effect it does define: the `n`-th such value drawn. -/
opaque freeWord : Nat → BitVec 64
/-- Bytes the manual leaves undefined (headroom never written, R273): the `n`-th byte drawn. -/
opaque freeByte : Nat → Byte
/-- The random source of Iltil (R525): the `n`-th word drawn. -/
opaque randomWord : Nat → BitVec 32
/-- Which of the free buffers of a pool is granted (the manual fixes no order, R303): the `n`-th choice. -/
opaque bufferChoice : Nat → Nat

/-- The hard decision of a bit whose sum of LLRs is 0 (R164). -/
opaque hardTie : Nat → Bool
/-- Which of two paths of equal metric survives (R166): at a step, into a register. -/
opaque viterbiTie : Nat → Nat → Bool
/-- The trim CAL and TC of a chain that Cethar holds in OTP (R168), the place of which the manual does not give. -/
opaque rssiTrim : Nat → BitVec 16

/-- The contents of the boot ROM, which the manual does not give: the byte at each address. -/
opaque romByte : Nat → Byte

/-- What MACsec protection makes of a frame (R366, R367): GCM-AES under 802.1AE, which the manual names and does not
give: a function of the key words, the PN, the SCI, the options and the frame's bytes. -/
opaque macsecProtect (key : List Nat) (pn sci options : Nat) (frame : List Byte) : List Byte

/-- What the cipher of a code 1 to 8 makes of an MPDU under a key, its key ID and PN (R197): CCMP, GCMP, BIP-CMAC and
BIP-GMAC of IEEE 802.11, which the manual names and does not give. -/
opaque wlanProtect (cipher : Nat) (key : List Nat) (keyId pn : Nat) (mpdu : List Byte) : List Byte
/-- The EHT-MCS that Welt chooses from a station's last RSSI (R212), which the manual does not give. -/
opaque mcsFor : Nat → Nat

/-! The cryptographic functions that the manual names by their standards and does not give. -/

/-- SHA-384 (R514, R520, R521, R534). -/
opaque sha384 (m : List Byte) : List Byte
/-- HMAC-SHA-384 (R526, R537). -/
opaque hmacSha384 (key m : List Byte) : List Byte
/-- ECDSA P-384 verification of a signature r ‖ s over a digest, under a public key X ‖ Y (R520, R534). -/
opaque ecdsaVerify (key sig digest : List Byte) : Bool
/-- The public key X ‖ Y of an identity seed, and its deterministic signature of a digest (R528). -/
opaque ecdsaPublic (seed : List Byte) : List Byte
opaque ecdsaSign (seed digest : List Byte) : List Byte
/-- AES-256-GCM decryption under a key, nonce and tag (R520, R521): the plaintext, or nothing where the tag fails. -/
opaque gcmDecrypt (key nonce tag cipher : List Byte) : Option (List Byte)

/-- OTP words 24 to 63, which Cethar programs in each device (R514). -/
opaque factoryWord : Nat → BitVec 32

/-- The byte at an offset of the engine region of heel SRAM, for a save list in its fixed order, which the manual does
not give (R547, R548). -/
opaque saveByte (list : List (Nat × BitVec 32)) (offset : Nat) : Byte

end Sys2Proof.Config
end

