-- ==== Sys2Proof/Machine/Hw.lean ====
section
/-!
DEFINITION. The hardware's state as plain data: the register store, the memories, the clocks and timers, and, for each
subsystem, what the manual gives it beside its registers. A register of a register table lives at its address in
`regs`; what stands here is the rest.
-/
namespace Sys2Proof.Machine

/-- A sparse table by number, in rising order of its keys. -/
abbrev NMap (α : Type) := List (Nat × α)

/-- The timed instants of the device: each runs to a deadline on elapsed time (R50). -/
inductive TimerId where
  /-- The end of a servo hold (R447). -/
  | servoHold
  /-- The inactive edge of pulse output `n` (R448). -/
  | ppsOff (n : Nat)
  /-- The next sentinel sweep (R56), and the window in progress (R55). -/
  | sweep
  | sentWindow
  /-- The retry and settle times of the AVS bus (R63, R66). -/
  | avsRetry
  | avsSettle
  /-- The present interval of the synthesiser of slice `x` (R94), the 2 µs of a retune (R92), its held command (R97),
  its temperature reading (R101). -/
  | synth (x : Nat)
  | retune (x : Nat)
  | hold (x : Nat)
  | temp (x : Nat)
  /-- The four instants of the transmit setting (R114). -/
  | trLead (x : Nat)
  | paLead (x : Nat)
  | paLag (x : Nat)
  | trLag (x : Nat)
  /-- The aerial and gain timeline (R117, R119), the qualifier (R151), the end of a reception (R154), the mismatch
  window (R127). -/
  | divSwitch (x : Nat)
  | divDecision (x : Nat)
  | fixedWindow (x : Nat)
  | qualifier (x : Nat)
  | qualEval (x : Nat)
  | reception (x : Nat)
  /-- The expected start of a solicited PPDU (R150) and the end of the search for the L-LTF peak (R152). -/
  | tbStart (x : Nat)
  | lltf (x : Nat)
  | mismatch (x : Nat)
  /-- The Bench tick (R467). -/
  | benchTick
  /-- The longest grant of coexistence port `n` (R137). -/
  | cxGrant (n : Nat)
  /-- The reorder timeout of station and TID `i` = 8s + t (R196). -/
  | reorder (i : Nat)
  /-- The next send of wake-up job `j` (R199). -/
  | wurSend (j : Nat)
  /-- The end of the earliest pause of port `n` (R365), and the next verify mPacket (R371). -/
  | pauseEnd (n : Nat)
  | verify (n : Nat)
  /-- The present interval of lane `n` (R394, R396, R397) and its exit from a quiet state (R397, R398). -/
  | lane (n : Nat)
  | laneExit (n : Nat)
  /-- The next HELLO of hop `h` and the time its neighbour has left (R417), and the wait to restore (R421). -/
  | hello (h : Nat)
  | neighbour (h : Nat)
  | wtr
  /-- The next reading of MR4 of DRAM channel `c` (R502). -/
  | mr4 (c : Nat)
  /-- The lifetime of a debug challenge (R534). -/
  | challenge
  /-- The acknowledgement of self-refresh (R507), the timeouts of a wake try (1 CORE_PG, 2 RAIL_PG, 3 the reference;
  R550), the reference window in progress, the wait after a failed try (R557), and the next Watch period (R552). -/
  | selfRefresh
  | wakeTry (step : Nat)
  | refWindow
  | offWait
  | watch
  /-- The drain timeout of a function in Closing (R46). -/
  | drain (f : FuncId)
deriving DecidableEq, Repr

/-- A time stamp: 48-bit seconds and 48-bit subsecond, LSB 2^-16 ns (R428). -/
structure Stamp where
  sec : Nat
  sub : Nat
deriving DecidableEq, Repr

/-- One entry of a port's time-stamp queue (R443). -/
structure TsqEntry where
  tag : Nat
  valid : Bool
  gap : Bool
  dropped : Bool
  acked : Bool
  stepCnt : Nat
  stamp : Stamp
  ackDelta : Nat
deriving DecidableEq, Repr

/-- One entry of a capture queue (R451). -/
structure CapEntry where
  stamp : Stamp
  rising : Bool
  ntValid : Bool
  stepCnt : Nat
deriving DecidableEq, Repr

/-- A pulse output: the number of its next pulse (none: none is to come) and its level (R448). -/
structure Pulse where
  next : Option Nat
  active : Bool
deriving DecidableEq, Repr

/-- The time subsystem beside its registers: the stamp queues, the ports whose next entry sets GAP, the port that
started the hold, the capture queues, the pulse outputs and the elapsed time of the last step (R441). -/
structure TimeUnit where
  tsq : NMap (List TsqEntry)
  gap : List Nat
  holdPort : Option Nat
  caps : NMap (List CapEntry)
  pulses : NMap Pulse
  stepEt : Option Nat
deriving DecidableEq, Repr

/-- A transaction on the AVS bus (R62): the read of the target, or the write of one. The manual gives the device no
occasion to send the status and version reads that R62 also allows it, and it sends none (DESIGN CHOICE, log 43). -/
inductive AvsKind where
  | readTarget
  | writeTarget (mv : Nat)
deriving DecidableEq, Repr

/-- The AVS transaction in progress and the retries it has had (R66). -/
structure AvsTransaction where
  kind : AvsKind
  rail : Nat
  retries : Nat
deriving DecidableEq, Repr

/-- A write that takes effect after the transaction in progress (R67): of MODE, or of SYS_AVS_MAN. -/
inductive AvsWrite where
  | mode (m : Nat)
  | man (v : Word)
deriving DecidableEq, Repr

/-- The speed sentinels and the AVS loop beside their registers (R56, R63 to R67): the sentinel being measured (16:
the sweep is measured whole), the last target written, the run of ample sweeps, whether the loop runs, the transaction
in progress, the writes that wait for its end, oldest first, and whether an emergency request does. -/
structure SpeedUnit where
  sweepAt : Option Nat
  target : Nat
  hiRun : Nat
  loop : Bool
  transaction : Option AvsTransaction
  waits : List AvsWrite
  emergencyWaits : Bool
deriving DecidableEq, Repr

/-- How a PPDU ended, as the slice tells Welt (R77, R96, R98, R128, R136, R138, R46). -/
inductive TxStatus where
  | sent
  | txUnderrun
  | synthLost
  | synthNotReady
  | coexDenied
  | coexAbort
  | txVswr
  | closedAbort
  | refused
deriving DecidableEq, Repr

/-- A PPDU that a slice is to transmit or transmits (R114): its first and last instants at the ball, the chains that
transmit, the width code, whether it lies in a reserved period and whether it is a response (R136); TR_LEAD, PA_LAG and TR_LAG as they stood when
it was accepted (R115), in nanoseconds; the FIR bank it is filtered by (R130; none: passed); the deadline of its
command (R97); and the time that the responses it solicits take after it (R214, R218). -/
structure TxPpdu where
  t0 : Nat
  t1 : Nat
  chains : Nat
  width : Nat
  reserved : Bool
  response : Bool
  trLead : Nat
  paLag : Nat
  trLag : Nat
  fir : Option Nat
  deadline : Nat
  resp : Nat
deriving DecidableEq, Repr

/-- A transmit command a slice holds (R97, R126, R138), with its deadline. -/
structure HeldTx where
  ppdu : TxPpdu
  deadline : Nat
deriving DecidableEq, Repr

/-- The phases of a reception (R149 to R154): from D to the qualifier, in the qualifier, in the search for the L-LTF peak,
before and after the L-SIG decision. -/
inductive RxPhase where
  | idle
  | timeline
  | qualifying
  | searching
  | beforeLsig
  | afterLsig
deriving DecidableEq, Repr

/-- How the streams of a PPDU are detected (R162): max-log maximum likelihood, or MMSE with ordered successive
interference cancellation. -/
inductive Detector where
  | maxLog
  | mmseSic
deriving DecidableEq, Repr

/-- The reception of a slice: its phase, its instant D, the control values in force since D (R174), the evaluations
made, P_ref, whether a candidate was decided, and what the preamble gave: the ball instant of the L-STF on elapsed time,
the stamp, the frequency estimate by which the main path corrects (R160), whether the PPDU is DSSS, whether pilot tracking
runs (R161); and what the signal fields gave: how it is detected, the periodicity of its midambles, at each of which the
channel estimate is refreshed (R162), and the interval of its own training field, on elapsed time (R155). -/
structure Reception where
  phase : RxPhase
  d : Nat
  qualThresh : Nat
  restartMargin : Nat
  captureMargin : Nat
  trackThresh : Nat
  trackAlways : Bool
  evaluations : Nat
  pRef : Int
  candidate : Bool
  lstf : Nat
  stamp : Stamp
  eps : Int
  dsss : Bool
  tracked : Bool
  rssiCal : List Word
  detector : Option Detector
  midamble : Nat
  blank : Nat × Nat
deriving DecidableEq, Repr

/-- A calibration that runs (R99): full or drift, whether it was forced (R101), the temperature at its start, and whether
a full one is still starting the synthesiser. -/
structure Calibration where
  full : Bool
  forced : Bool
  temp : Int
  starting : Bool
deriving DecidableEq, Repr

/-- The sampling slice beside its registers: one timed-out ACQUIRE since START (R95), the pending retune words (R92),
the held command (R97), the PPDU in transmission, the reception, the calibration that runs, the calibration that waits
for the idle moment (full, forced), the end of the Last window a
drift calibration may use, whether the next Opening calibrates in full (R100), the NCO accumulators as they stood at the
elapsed time `ncoAt` (R88), the instant
a match settles (R126), the control lines FEM_EN, TRSW, LNAEN and PAEN (R113), the medium-busy instant told to Welt
(R154), whether the power of R149 last stood at the energy threshold or above, the LDPC iteration limit in force (R174),
the chain the mask
monitor checks next, the noise-floor sums (R170) and the start of the present idle block (R169), the last reception's
stamp, the elapsed time at which a reception, energy or a
transmission last ended (R216), whether its next Opening follows a wake (R100), the MPDUs of the last PPDU that lost a
codeword (R165), and the hard decisions of its codewords, the oldest first (R164). -/
structure Slice where
  acqFailed : Bool
  retune : Option (Nat × Nat)
  held : Option HeldTx
  tx : Option TxPpdu
  rx : Reception
  cal : Option Calibration
  calWaits : Option (Bool × Bool)
  calWindow : Option Nat
  needFull : Bool
  ncoRx : Nat
  ncoTx : Nat
  ncoAt : Nat
  matchSettles : Nat
  femEn : Bool
  trsw : Nat
  lnaen : Nat
  paen : Nat
  busyUntil : Nat
  energy : Bool
  maxIter : Nat
  maskNext : Nat
  nfSums : NMap Nat
  nfFrom : Nat
  lastStamp : Stamp
  idleFrom : Nat
  woken : Bool
  spoiled : List Nat
  decoded : List (List Bool)
deriving DecidableEq, Repr

/-- One receive and transmit chain: the aerial connected now (R117), whether it runs the diversity timeline since D, the
gain code at the end of window A, whether aerial and gain are frozen (R123), a match that waits to take effect and the
one in force (R126), whether back-off and stop end with the present PPDU (R128), and the canceller's coefficients, signed
24-bit (R142; none: 0). -/
structure Chain where
  aerial : Nat
  diversity : Bool
  kA : Nat
  frozen : Bool
  tunePending : Bool
  tuneInForce : Word
  clearWaits : Bool
  coefs : NMap Cx
deriving DecidableEq, Repr

/-- A codeword in the decoders (R165): its slice, its iteration limit and itself. -/
structure Codeword where
  slice : Nat
  limit : Nat
  word : LdpcWord
deriving DecidableEq, Repr

/-- The pool of LDPC decoders (R165): the input buffer, oldest first, and the codeword in each of the 24 cores. -/
structure LdpcPool where
  buffer : List Codeword
  cores : NMap Codeword
deriving DecidableEq, Repr

/-- Where a frame goes after Clicker (R314). -/
inductive Dest where
  | domain (d : Nat)
  | queue (q word : Nat)
  | ring (r : Nat)
deriving DecidableEq, Repr

/-- What a thread has disposed of a frame as, until its turn comes (R294 to R296, R322). -/
inductive Disposition where
  | none
  | release (queue word : Nat)
  | drop (reason : Nat)
  | fwd (domain user : Nat)
deriving DecidableEq, Repr

/-- A descriptor (R324): source, length, tagging, pool and the byte addresses of its buffers; forwarding, user word,
ingress stamp; the order domain and the completion store it holds an entry of (true: the express one); its disposition;
queue, disposition word (METER, MET_EN, TC, ADJ), stamp action word, colour; the order and elapsed time of its enqueue;
the dirty head lines to be written back (R275). -/
structure Frame where
  src : Nat
  len : Nat
  tagged : Bool
  pool : Nat
  bufs : List Nat
  fwds : Nat
  fwded : Bool
  user : Nat
  stamp : Stamp
  domain : Option Nat
  store : Option Bool
  disp : Disposition
  queue : Option Nat
  word : Nat
  action : Nat
  colour : Nat
  enqSeq : Nat
  enqAt : Nat
  lines : List (Nat × List Byte)
deriving DecidableEq, Repr

/-- A frame in a source's staging store (R304): its bytes, whether its end proves good, its ingress stamp, the Welt
word of R318; once classified, its descriptor, destination and the buffers still reserved for it. -/
structure Staged where
  bytes : List Byte
  good : Bool
  stamp : Stamp
  weltWord : Nat
  frame : Option Nat
  dest : Option Dest
  reserved : Nat
deriving DecidableEq, Repr

/-- A meter's buckets in units of 2^-10 byte and the elapsed time of its last update (R341). -/
structure Meter where
  tc : Nat
  tp : Nat
  last : Nat
deriving DecidableEq, Repr

/-- A shaper's credit in units of 2^-10 byte and the elapsed time of its last accrual (R349). -/
structure Shaper where
  credit : Int
  last : Nat
deriving DecidableEq, Repr

/-- Clicker, Lacing and the queue fabric beside their registers: staging stores by source; descriptors; the next
descriptor and arrival numbers; the buffers held, by pool; the frames that wait for dispatch, in arrival order; the
frames of each domain not yet disposed of, in arrival order; the cluster used last (R320); the frames each ring is to
write, with the queue each left, and the ring entries reserved; the frames of each queue, oldest first;
the filter entries being changed out of the order of R316. -/
structure Fabric where
  staged : NMap (List Staged)
  frames : NMap Frame
  nextFrame : Nat
  nextSeq : Nat
  held : NMap (List Nat)
  waiting : List Nat
  domains : NMap (List Nat)
  lastCluster : Nat
  ringPending : NMap (List (Nat × Nat))
  ringReserved : NMap Nat
  queues : NMap (List Nat)
  loose : List Nat
deriving DecidableEq, Repr

/-- The traffic manager beside its registers: meters, shapers, finish tags of the active fair queues (R354), and the
elapsed time its arithmetic starts from. -/
structure TrafficUnit where
  meters : NMap Meter
  shapers : NMap Shaper
  tags : NMap Nat
  epoch : Nat
deriving DecidableEq, Repr

/-- A request waiting at a Shank target (R479, R485): the master, the array thread of an Awl access, the express mark,
the address, the size, the bytes of a write, whether the access continues a transfer (the turn hint of R487), and
whether the target's grant was parked on it (R487). -/
structure Request where
  master : Nat
  thread : Option Nat
  express : Bool
  addr : Nat
  size : Nat
  data : Option (List Byte)
  hint : Bool
  parked : Bool
deriving DecidableEq, Repr

/-- The arbiter of a target (R485 to R487): waiting requests in order of arrival, wait counters by master, grants still
to be made before the next forced one, the master last granted in rotation and the one last granted at all, and the
turn in progress with the grants left to it. -/
structure Arbiter where
  waiting : List Request
  waits : NMap Nat
  window : Nat
  lastRotation : Option Nat
  lastGrant : Option Nat
  turn : Option (Nat × Nat)
deriving DecidableEq, Repr

/-- A completed Shank access of a master other than an Awl thread: its outcome (0 done, 1 decode error, 2 refusal)
and the bytes read. -/
structure BusReply where
  master : Nat
  addr : Nat
  outcome : Nat
  bytes : List Byte
deriving DecidableEq, Repr

/-- A 64-byte line of the core caches, and whether a core has changed it since memory held it (R458). -/
structure CacheLine where
  bytes : List Byte
  dirty : Bool
deriving DecidableEq, Repr

/-- Shank beside its registers: the arbiters, the last answer of each master that is no Awl cluster, the waiters of
each lock in order of arrival (R491, R492), and the lines of the core caches (R458). -/
structure ShankUnit where
  arbiters : NMap Arbiter
  replies : NMap BusReply
  lockWaiters : NMap (List Nat)
  lines : NMap CacheLine
deriving DecidableEq, Repr

/-- A DRAM channel beside its registers (R497 to R507): the elapsed time from which its debt accrues, the accesses
passed to it, the LFSR, the neighbour rows queued (bank, row), the master of the real-time burst in progress, whether
that burst has been interrupted, and whether the channel has acknowledged a request for self-refresh. -/
structure DramChannel where
  debtAt : Nat
  waiting : List Request
  lfsr : Word
  neighbours : List (Nat × Nat)
  burst : Option Nat
  interrupted : Bool
  acknowledged : Bool
deriving DecidableEq, Repr

/-- The DRAM controller: its channels, whether ECC initialisation has covered the window, and, with ECC on and before
it has, the 8-byte words written since training (R506). -/
structure DramUnit where
  channels : NMap DramChannel
  initialised : Bool
  written : List Nat
deriving DecidableEq, Repr

/-- What a long-latency instruction brings back (R237): the register and the value written to it (none: unchanged), the
Z flag it sets (N, C and V cleared; none: flags unchanged), and the BUS code of a failed access (0: none). -/
structure Reply where
  rd : Nat
  value : Option Dword
  z : Option Bool
  bus : Nat
deriving DecidableEq, Repr

/-- What a thread in Wait waits for (R237, R244, R270, R274, R279, R280, R283, R291, R293, R261): the response of its
Shank access, the grant of its queue, lock or Last operation, the access to a frame's buffers, space in a queue, a word, a lock, the Bench, an event, a time; or nothing more: its result stands ready. -/
inductive WaitOn where
  | nothing
  | access (rd size : Nat) (load : Bool)
  | unit
  | packet (store : Bool)
  | push (rd q : Nat) (word : Dword)
  | pull (rd q : Nat)
  | lock (rd i : Nat)
  | raise (rd code : Nat) (value : Dword)
  | event (rd mask deadline : Nat)
  | elapsed (rd deadline : Nat)
  | network (rd : Nat) (deadline : Stamp)
  | done (r : Reply)
deriving DecidableEq, Repr

/-- An Awl thread context (R235 to R240, R265, R273, R275, R284, R291): PC, general registers, flags, the instructions
issued since it left Idle, how it was started, the frame it holds and the dirty lines of its head, the locks it holds,
its latched event lines, what it waits for, and the word and the address of the instruction it waits in. -/
structure AwlThread where
  pc : Nat
  g : NMap Dword
  z : Bool
  n : Bool
  c : Bool
  v : Bool
  count : Nat
  dispatched : Bool
  frame : Option Nat
  dirty : Nat
  locks : List Nat
  events : Nat
  on : WaitOn
  insn : Word
  addr : Nat
deriving DecidableEq, Repr

/-- The engine array beside its registers: thread contexts, the ordinary thread each engine issued last (R236), the
words of mailboxes and work queues by queue ID (R278), the threads waiting to push to or pull from each queue, and the
threads whose RAISE waits, in order of arrival. -/
structure AwlUnit where
  threads : NMap AwlThread
  lastIssued : NMap Nat
  words : NMap (List Dword)
  pushers : NMap (List Nat)
  pullers : NMap (List Nat)
  raisers : List Nat
deriving DecidableEq, Repr

/-- A Bench thread beside its record (R461 to R473): affinity, whether it ages, its slice, the ticks it has run since
its dispatch and stood READY since it last ran, the mask it waits for, whether it stands in the delay list, whether a
completed READY command made it READY, and its signals, oldest first. -/
structure BenchThread where
  aff : Nat
  ageEn : Bool
  slice : Nat
  ran : Nat
  stood : Nat
  mask : Word
  timed : Bool
  byReady : Bool
  signals : List (Nat × Dword)
deriving DecidableEq, Repr

/-- The Bench beside its registers: threads, the ready lists by effective priority, and the address at which each core
last started (R460). -/
structure BenchUnit where
  threads : NMap BenchThread
  ready : NMap (List Nat)
  started : NMap Nat
deriving DecidableEq, Repr

/-- The phases of an occurrence of a Last entry (R213, R216, R217). -/
inductive OccPhase where
  | check
  | committed
  | serving
  | quiet
  | open
  | skipped
deriving DecidableEq, Repr

/-- An occurrence in progress (R210, R212, R217): the entry and its words, its start on network time and on elapsed
time, the latched list, its phase, whether a foreign transmission or a busy medium and a calibration overlap were
counted, whether class E MPDUs did not fit, and the next list position of an RTWT entry. -/
structure Occurrence where
  entry : Nat
  words : List Nat
  start : Nat
  startEt : Nat
  list : List Nat
  phase : OccPhase
  foreign : Bool
  overlap : Bool
  unfit : Nat
  position : Nat
deriving DecidableEq, Repr

/-- The sequencer of a slice beside its registers (R208 to R224): a validation in progress; the instant of the bank's
first start while it is still to come; the start of the cycle in progress and its number; the next entry to look at; a
stop to come; entries amended to a START already passed (entry, cycle); the occurrence in progress. -/
structure LastSlice where
  arming : Bool
  first : Option Nat
  start : Nat
  k : Nat
  next : Nat
  stopping : Bool
  passed : List (Nat × Nat)
  occ : Option Occurrence
deriving DecidableEq, Repr

/-- A coexistence port beside its registers (R134 to R139): the outputs it drives (GRANT; REQ, PRIO, TXACT), the priority held for the request,
whether a request waits for its grant, whether REQ must be seen low first, and the instant from which masked slices may
transmit after a grant. -/
structure CoexPort where
  grant : Bool
  req : Bool
  prioOut : Bool
  txact : Bool
  prio : Bool
  waiting : Bool
  needLow : Bool
  resumeAt : Nat
deriving DecidableEq, Repr

/-- The key an MPDU goes under (R197): slot, key ID and cipher code. -/
structure MpduKey where
  slot : Nat
  id : Nat
  cipher : Nat
deriving DecidableEq, Repr

/-- An MPDU made from a frame (R190, R194): its station (none: group or management), TID, sequence number, PN, key
(none: unprotected), retries, whether it awaits acknowledgement, and its egress stamp. -/
structure Mpdu where
  sta : Option Nat
  tid : Nat
  sn : Nat
  pn : Nat
  key : Option MpduKey
  retries : Nat
  awaits : Bool
  stamp : Stamp
  stampValid : Bool
deriving DecidableEq, Repr

/-- What an exchange sends (R193, R199, R200, R213); `mu`: a DL OFDMA or MU-MIMO PPDU. -/
inductive ExchangeKind where
  | data
  | mu
  | group
  | wur (j : Nat)
  | wurBeacon
  | beacon
  | trigger
deriving DecidableEq, Repr

/-- A user of a DL_MU or TRIG_UL round (R212, R213): station, RU or MRU allocation index, streams − 1 and EHT-MCS. -/
structure MuUser where
  sta : Nat
  ru : Nat
  nss : Nat
  mcs : Nat
deriving DecidableEq, Repr

/-- A frame exchange of a link: its kind, AC, MPDUs (frames), whether it begins with an RTS or MU-RTS still to be
answered, whether its PPDU was handed to the slice, whether it awaits a response, whether it lies in a reserved period
and whether it solicits a response; its stations; the BlockAckReqs (station, TID) that go ahead of the MPDUs (R194); the
users of a multi-user round and the length of the TB PPDUs it triggers, in nanoseconds (R213); and the width code that
its entry sets (R211). -/
structure Exchange where
  kind : ExchangeKind
  ac : Nat
  frames : List Nat
  rts : Bool
  issued : Bool
  awaits : Bool
  reserved : Bool
  responses : Bool
  stas : List Nat
  bars : List (Nat × Nat)
  users : List MuUser
  ulNs : Nat
  width : Option Nat
deriving DecidableEq, Repr

/-- A transmit block-ack agreement (R194): buffer size, the oldest sequence number not yet acknowledged, and whether a
BlockAckReq is due before the next MPDU. -/
structure TxAgreement where
  bufsz : Nat
  winStart : Nat
  barDue : Bool
deriving DecidableEq, Repr

/-- An MPDU held in the reorder store (R196): what it carries, and its slots of the region. -/
structure HeldMpdu where
  sn : Nat
  link : Nat
  key : Nat
  pn : Nat
  sound : Bool
  protectedFrame : Bool
  sizes : List Nat
  stamp : Stamp
  slots : List Nat
deriving DecidableEq, Repr

/-- A receive block-ack agreement (R196). -/
structure RxAgreement where
  bufsz : Nat
  winStart : Nat
  held : List HeldMpdu
deriving DecidableEq, Repr

/-- An EDCA function (R193, R207): its contention window (none: CWmin at the next draw), the backoff drawn, whether it
holds at zero for its NSTR partner, and its parameter word at its last draw (none: it has not drawn). -/
structure Edca where
  cw : Option Nat
  backoff : Nat
  hold : Bool
  par : Option Word
deriving DecidableEq, Repr

/-- An MPDU that a response acknowledges (R181, R194, R196): transmitter address, TID and sequence number. -/
structure Acked where
  ta : Nat
  tid : Nat
  sn : Nat
deriving DecidableEq, Repr

/-- The response a link sends one SIFS after a PPDU (R181, R194, R196, R213): its instant, whether it is a Multi-STA
BlockAck, what it acknowledges, and whether its PPDU was handed to the slice. -/
structure Response where
  due : Nat
  multi : Bool
  acked : List Acked
  issued : Bool
deriving DecidableEq, Repr

/-- A WUR PPDU (R199, R200): subchannel, WUR ID, whether it is a WUR Beacon, a Short Wake-up frame, and whether it goes
at HDR. -/
structure WurPpdu where
  subch : Nat
  id : Nat
  beacon : Bool
  short : Bool
  hdr : Bool
deriving DecidableEq, Repr

/-- A TXOP (R193): its AC, its station and its end on elapsed time. -/
structure Txop where
  ac : Nat
  sta : Nat
  stop : Nat
deriving DecidableEq, Repr

/-- A link (R188, R189): whether it is available, since when it is not, whether its first contention PPDU needs
protection; the stations whose PS-Poll waits for the link (R195), its TXOP (R193), the response it last sent or is to
send, and the WUR PPDU it last sent. -/
structure WeltLink where
  available : Bool
  since : Nat
  protect : Bool
  polls : List Nat
  txop : Option Txop
  response : Option Response
  wur : Option WurPpdu
deriving DecidableEq, Repr

/-- A wake-up job (R199): the elapsed time of its start, the number of its next send to fall due, whether the last one
due is still unsent. -/
structure WurJob where
  startEt : Nat
  next : Nat
  waiting : Bool
deriving DecidableEq, Repr

/-- Welt beside its registers: MPDUs by frame; the exchange of each link; agreements by 8s + t; the next and the last
received sequence numbers by 8s + t; the station served last by AC and link (4l + ac); EDCA functions; links; wake-up
jobs; WUR beacons due by link; the held low word of TSF_OFS; PNs of group slots; the instant until which an EMLSR
station is bound to a link (link, elapsed time); the links' next sequence numbers for group and management frames. -/
structure WeltUnit where
  mpdus : NMap Mpdu
  exchanges : NMap Exchange
  txBa : NMap TxAgreement
  rxBa : NMap RxAgreement
  nextSn : NMap Nat
  lastSn : NMap Nat
  served : NMap Nat
  edca : NMap Edca
  links : NMap WeltLink
  jobs : NMap WurJob
  beacons : List Nat
  tsfHeld : Word
  groupPn : NMap Nat
  emlsr : NMap (Nat × Nat)
  linkSn : NMap Nat
deriving DecidableEq, Repr

/-- A frame that an Ethernet port sends (R363, R373): the frame, whether it is express, whether its lane's transmit MAC
has started it (R75), the bytes and the fragments of it already sent, the instant and validity of its egress stamp, and
the AN of its SA (R367). -/
structure EthTx where
  frame : Nat
  express : Bool
  started : Bool
  done : Nat
  fragments : Nat
  stamp : Stamp
  stampValid : Bool
  an : Nat
deriving DecidableEq, Repr

/-- A received preemptable frame in reassembly (R373): frame count, the next fragment count, the bytes so far, its
stamp. -/
structure EthAssembly where
  count : Nat
  next : Nat
  bytes : List Byte
  stamp : Stamp
deriving DecidableEq, Repr

/-- A cycle of a gate control list (R375, R378), times on network time in units of 2^-32 ns: its bank, start, nominal
end, end, whether the change of banks ends it, the entry in force and its end. -/
structure GateRun where
  bank : Nat
  start : Nat
  nominal : Nat
  stop : Nat
  swap : Bool
  entry : Nat
  entryEnd : Nat
deriving DecidableEq, Repr

/-- An Ethernet port beside its registers: the frame in transmission, the express frames selected behind it, the suspended
one; the pauses by TC with their ends, the start of the time not yet counted and the part of a unit left, in units of
10 ps, with the unit itself (R365); verify and respond mPackets sent (R371); the frame in reassembly; the transmit SAs
whose PNs are used up (R367); the cycle of the operative gate list, the first start of a restarted one, and the
configuration change time (R377, R378, R382). -/
structure EthPort where
  tx : Option EthTx
  next : List EthTx
  suspended : Option EthTx
  pauses : NMap Nat
  pausedFrom : Nat
  residue : Nat
  pauseUnit : Nat
  verifySent : Nat
  responds : Nat
  assembly : Option EthAssembly
  spent : List Nat
  gateRun : Option GateRun
  gateWait : Option Nat
  cct : Option Nat
deriving DecidableEq, Repr

/-- The router tables (R383): prefixes by 128 * key + length, and exact-match keys, each with its VALUE. -/
structure RouterUnit where
  lpm : NMap Nat
  em : NMap Nat
deriving DecidableEq, Repr

/-- A serial lane beside its registers: the code of a TRAIN failure in the preceding attempt (R396), the elapsed time
from which the checker's bits count and of the generator's start (R401, R402), and the injected run: its first bit and
its length (R403). -/
structure Lane where
  lastTrain : Option Nat
  lockAt : Nat
  genAt : Nat
  inject : Option (Nat × Nat)
deriving DecidableEq, Repr

/-- A transit frame, or a CTRL frame of the device, in a hop's lines (R412, R414): its number, header and payload (none:
still arriving), whether it is stomped, its place in the order of arrival, the bytes it reserves, its ingress stamp and
hop, whether it is a TIME frame, and whether it is being sent already. -/
structure TransitFrame where
  id : Nat
  header : List Byte
  payload : Option (List Byte)
  stomp : Bool
  express : Bool
  ctrl : Bool
  seq : Nat
  reserved : Nat
  stamp : Stamp
  ingress : Option Nat
  time : Bool
  started : Bool
deriving DecidableEq, Repr

/-- A frame a hop sends: whether it is express, its length with CRC (0: it leaves cut-through, and its end is still to
arrive), the bytes sent in earlier fragments, whether any was, and the elapsed times at which its lane's transmit MAC
started it (R75) and at which its last byte leaves. -/
structure HopTx where
  express : Bool
  total : Nat
  done : Nat
  fragmented : Bool
  startAt : Option Nat
  endAt : Nat
deriving DecidableEq, Repr

/-- A frame whose header has been decided and whose end is still to come (R410): its header as it goes on, whether it
is delivered locally, is a register request or a CTRL frame, its stamp, and the transit copies (hop, number). -/
structure HopArrival where
  header : List Byte
  deliver : Bool
  request : Bool
  ctrl : Bool
  stamp : Stamp
  copies : List (Nat × Nat)
deriving DecidableEq, Repr

/-- A cascade hop beside its registers (R412 to R421): its lines, a HELLO due, whether transit sent last, the buffer
bytes in use, whether the hop is blocked for failure and the HELLOs since it is up again, the frame in transmission, the
suspended one, the frame arriving. -/
structure Hop where
  express : List TransitFrame
  best : List TransitFrame
  helloDue : Bool
  transitLast : Bool
  expressUsed : Nat
  bestUsed : Nat
  failed : Bool
  hellos : Nat
  tx : Option HopTx
  suspended : Option HopTx
  arriving : Option HopArrival
deriving DecidableEq, Repr

/-- A register request that waits (R422): its source and payload. -/
structure RemoteRequest where
  src : Nat
  payload : List Byte
deriving DecidableEq, Repr

/-- Uzovi beside its registers: hops, routes by ID with hop and RING bit (R411), waiting register requests, and the
next transit number. -/
structure UzoviUnit where
  hops : NMap Hop
  routes : NMap (Nat × Bool)
  requests : List RemoteRequest
  nextId : Nat
deriving DecidableEq, Repr

/-- Iltil beside its registers: the OTP words programmed beyond those of the factory, the shadows last loaded, the
programming in progress (word, data), the lifecycle command in progress, the level that the live challenge is for, the
heel key latch, ENTRY_CNT and the tag of the save area (R514 to R517, R534, R537). -/
structure IltilUnit where
  otp : NMap Word
  shadow : NMap Word
  otpJob : Option (Nat × Word)
  lcJob : Option Nat
  wanted : Nat
  latch : Nat
  entryCnt : Nat
  tag : Option (List Byte)
deriving DecidableEq, Repr

/-- The Heel beside its registers (R537 to R560): in power-on reset; the target of the entry in progress or last made;
the save list last written, by register; network time, elapsed time and ET_ERR at entry; the number of the next Watch period and the first
source of the present one still to run (0: no period runs); the cause of a wake that is due; the power-good inputs and
the reference as the wake in progress has found them; the start of the reference windows and their number; the enables
REF_EN, CORE_EN, RAIL_EN and the fault output; the main domains powered. -/
structure HeelUnit where
  por : Bool
  target : Nat
  saved : Option (List (Nat × Word))
  ntEntry : Nat
  entryEt : Nat
  errEntry : Nat
  period : Nat
  slot : Nat
  wake : Option Nat
  corePg : Bool
  railPg : Bool
  refOk : Bool
  refStart : Nat
  windows : Nat
  refEn : Bool
  coreEn : Bool
  railEn : Bool
  fault : Bool
  powered : Bool
deriving DecidableEq, Repr

/-- Reset and boot beside their registers (R565 to R573): the main-domain reset in force, with the cause it will record;
whether the main domain lost power with it; whether core 0 still waits for the ROM; whether a wake's save list stands
restored; whether recovery runs, and its header buffer. -/
structure BootUnit where
  reset : Option Nat
  powerLoss : Bool
  waits : Bool
  restored : Bool
  recovery : Bool
  header : List Byte
deriving DecidableEq, Repr


/-- The latch of one requester (R17): the address of the last word that its latching read returned, and the words of
the quantity that remain above it, lowest first. -/
structure Latch where
  base : Nat
  words : List Word
deriving DecidableEq, Repr

structure Hw where
  /-- Registers whose word differs from, or was written since, their reset word, by address. -/
  regs : NMap Word
  /-- Memory: every address whose byte is not 0, in rising order. -/
  mem : List Host.Cell
  /-- Elapsed time in nanoseconds (R435) and its fraction in 64ths of a nanosecond. -/
  et : Nat
  etFrac : Nat
  /-- Network time in units of 2^-32 ns (R428). -/
  nt : Nat
  /-- The slew still to be applied, in units of 2^-32 ns (R431). -/
  rem : Int
  /-- The time-base PLL is locked (R426, R427). -/
  tbLock : Bool
  /-- The error accumulated by elapsed time, in 10^-6 of 1/64 ns (R436). -/
  etErr : Nat
  /-- Running timers: deadline on elapsed time. -/
  timers : List (TimerId × Nat)
  /-- Latches by requester (R17): master m is m, Awl thread t is 64 + t. -/
  latches : NMap Latch
  /-- The model's own counter of free values drawn. -/
  free : Nat
  time : TimeUnit
  speed : SpeedUnit
  slices : NMap Slice
  /-- Chains, by 8 x + c. -/
  chains : NMap Chain
  ldpc : LdpcPool
  /-- What the slice has told Welt of its last PPDU, until TX_STATUS takes it. -/
  txStatus : NMap TxStatus
  fabric : Fabric
  traffic : TrafficUnit
  shank : ShankUnit
  dram : DramUnit
  awl : AwlUnit
  bench : BenchUnit
  last : NMap LastSlice
  coex : NMap CoexPort
  welt : WeltUnit
  /-- The frames of the last transmission at the ball of each port (0 to 7 Ethernet, 8 to 11 hops, 12 to 14 slices). -/
  wire : NMap (List (List Byte))
  eth : NMap EthPort
  router : RouterUnit
  lanes : NMap Lane
  uzovi : UzoviUnit
  iltil : IltilUnit
  heel : HeelUnit
  boot : BootUnit
  /-- The entries in each FIFO of R74, numbered as Fifo.lean does. -/
  fifo : NMap Nat
deriving DecidableEq, Repr

end Sys2Proof.Machine
end

