-- ==== Sys2Proof/Machine/RegMap.lean ====
section
/-!
DEFINITION. The register map: every register of the manual's register tables by its manual name, as an address
(`R.NAME`) and as named fields (`R.NAME_FIELD`), and the table of rows that gives each address its access masks and
its reset word. Written from the register tables of spec/ and the address map R27, R28. Instances are arguments.
-/
namespace Sys2Proof.Machine

/-- R59 -/
def R.SYS_SENT_CTL : Nat := 0x40000200
def R.SYS_SENT_CTL_EN : RF := ⟨R.SYS_SENT_CTL, 0, 1⟩
def R.SYS_SENT_CTL_PER_EXP : RF := ⟨R.SYS_SENT_CTL, 4, 5⟩
/-- R60 -/
def R.SYS_SPEED_STAT : Nat := 0x40000204
def R.SYS_SPEED_STAT_MIN_SLACK : RF := ⟨R.SYS_SPEED_STAT, 0, 16⟩
def R.SYS_SPEED_STAT_MIN_ID : RF := ⟨R.SYS_SPEED_STAT, 16, 4⟩
def R.SYS_SPEED_STAT_BELOW : RF := ⟨R.SYS_SPEED_STAT, 20, 1⟩
def R.SYS_SPEED_STAT_BELOW_CNT : RF := ⟨R.SYS_SPEED_STAT, 24, 8⟩
/-- R61 -/
def R.SYS_SENT_STAT (n : Nat) : Nat := 0x40000240 + 0x4 * n
def R.SYS_SENT_STAT_SLACK (n : Nat) : RF := ⟨R.SYS_SENT_STAT n, 0, 16⟩
def R.SYS_SENT_STAT_COUNT (n : Nat) : RF := ⟨R.SYS_SENT_STAT n, 16, 12⟩
/-- R69 -/
def R.SYS_AVS_CTL : Nat := 0x40000280
def R.SYS_AVS_CTL_MODE : RF := ⟨R.SYS_AVS_CTL, 0, 2⟩
def R.SYS_AVS_CTL_STEP_UP : RF := ⟨R.SYS_AVS_CTL, 4, 5⟩
def R.SYS_AVS_CTL_STEP_DN : RF := ⟨R.SYS_AVS_CTL, 9, 5⟩
def R.SYS_AVS_CTL_HOLD : RF := ⟨R.SYS_AVS_CTL, 16, 8⟩
def R.SYS_AVS_CTL_SETTLE_US : RF := ⟨R.SYS_AVS_CTL, 24, 8⟩
/-- R70 -/
def R.SYS_AVS_LIM : Nat := 0x40000284
def R.SYS_AVS_LIM_VMIN : RF := ⟨R.SYS_AVS_LIM, 0, 10⟩
def R.SYS_AVS_LIM_VMAX : RF := ⟨R.SYS_AVS_LIM, 10, 10⟩
def R.SYS_AVS_LIM_RAIL : RF := ⟨R.SYS_AVS_LIM, 20, 4⟩
/-- R71 -/
def R.SYS_AVS_STAT : Nat := 0x40000288
def R.SYS_AVS_STAT_V_REQ : RF := ⟨R.SYS_AVS_STAT, 0, 16⟩
def R.SYS_AVS_STAT_BUSY : RF := ⟨R.SYS_AVS_STAT, 16, 1⟩
def R.SYS_AVS_STAT_BUS_FAIL : RF := ⟨R.SYS_AVS_STAT, 17, 1⟩
def R.SYS_AVS_STAT_CFG_ERR : RF := ⟨R.SYS_AVS_STAT, 18, 1⟩
/-- R71 -/
def R.SYS_AVS_MAN : Nat := 0x4000028C
def R.SYS_AVS_MAN_V : RF := ⟨R.SYS_AVS_MAN, 0, 16⟩
def R.SYS_AVS_MAN_SLACK_LO : RF := ⟨R.SYS_AVS_MAN, 16, 8⟩
def R.SYS_AVS_MAN_SLACK_HI : RF := ⟨R.SYS_AVS_MAN, 24, 8⟩
/-- R78 -/
def R.RFS_FIFO_STAT (x : Nat) (c : Nat) : Nat := 0x41010300 + 0x100000 * x + 0x1000 * c
def R.RFS_FIFO_STAT_HWM (x : Nat) (c : Nat) : RF := ⟨R.RFS_FIFO_STAT x c, 0, 7⟩
def R.RFS_FIFO_STAT_HWM_CLR (x : Nat) (c : Nat) : RF := ⟨R.RFS_FIFO_STAT x c, 7, 1⟩
def R.RFS_FIFO_STAT_EVT (x : Nat) (c : Nat) : RF := ⟨R.RFS_FIFO_STAT x c, 8, 1⟩
def R.RFS_FIFO_STAT_EVT_CNT (x : Nat) (c : Nat) : RF := ⟨R.RFS_FIFO_STAT x c, 16, 16⟩
/-- R78 -/
def R.LANE_FIFO_STAT (n : Nat) : Nat := 0x40700300 + 0x1000 * n
def R.LANE_FIFO_STAT_HWM (n : Nat) : RF := ⟨R.LANE_FIFO_STAT n, 0, 7⟩
def R.LANE_FIFO_STAT_HWM_CLR (n : Nat) : RF := ⟨R.LANE_FIFO_STAT n, 7, 1⟩
def R.LANE_FIFO_STAT_EVT (n : Nat) : RF := ⟨R.LANE_FIFO_STAT n, 8, 1⟩
def R.LANE_FIFO_STAT_EVT_CNT (n : Nat) : RF := ⟨R.LANE_FIFO_STAT n, 16, 16⟩
/-- R44 -/
def R.RFS_FCTL (x : Nat) : Nat := 0x41000000 + 0x100000 * x
def R.RFS_FCTL_EN (x : Nat) : RF := ⟨R.RFS_FCTL x, 0, 1⟩
def R.RFS_FCTL_DRAIN_EXP (x : Nat) : RF := ⟨R.RFS_FCTL x, 4, 4⟩
/-- R45 -/
def R.RFS_FSTAT (x : Nat) : Nat := 0x41000004 + 0x100000 * x
def R.RFS_FSTAT_STATE (x : Nat) : RF := ⟨R.RFS_FSTAT x, 0, 2⟩
def R.RFS_FSTAT_PEND (x : Nat) : RF := ⟨R.RFS_FSTAT x, 2, 1⟩
def R.RFS_FSTAT_CLOSED_EV (x : Nat) : RF := ⟨R.RFS_FSTAT x, 3, 1⟩
def R.RFS_FSTAT_TIMED_OUT (x : Nat) : RF := ⟨R.RFS_FSTAT x, 4, 1⟩
def R.RFS_FSTAT_ABORTED (x : Nat) : RF := ⟨R.RFS_FSTAT x, 16, 16⟩
/-- R104 -/
def R.RFS_INFO (x : Nat) : Nat := 0x41000008 + 0x100000 * x
def R.RFS_INFO_N_CHAINS (x : Nat) : RF := ⟨R.RFS_INFO x, 0, 4⟩
def R.RFS_INFO_ZONE (x : Nat) : RF := ⟨R.RFS_INFO x, 4, 4⟩
def R.RFS_INFO_RX_INV (x : Nat) : RF := ⟨R.RFS_INFO x, 8, 1⟩
def R.RFS_INFO_TX_INV (x : Nat) : RF := ⟨R.RFS_INFO x, 9, 1⟩
def R.RFS_INFO_TX_MIX (x : Nat) : RF := ⟨R.RFS_INFO x, 10, 1⟩
def R.RFS_INFO_ADC_RATIO (x : Nat) : RF := ⟨R.RFS_INFO x, 16, 8⟩
/-- R105 -/
def R.RFS_SYNTH (x : Nat) : Nat := 0x41000010 + 0x100000 * x
def R.RFS_SYNTH_STATE (x : Nat) : RF := ⟨R.RFS_SYNTH x, 0, 3⟩
def R.RFS_SYNTH_RESTART (x : Nat) : RF := ⟨R.RFS_SYNTH x, 3, 1⟩
def R.RFS_SYNTH_LOCKED (x : Nat) : RF := ⟨R.RFS_SYNTH x, 4, 1⟩
def R.RFS_SYNTH_FAULT_EV (x : Nat) : RF := ⟨R.RFS_SYNTH x, 5, 1⟩
def R.RFS_SYNTH_LOCK_LOST_CNT (x : Nat) : RF := ⟨R.RFS_SYNTH x, 8, 8⟩
def R.RFS_SYNTH_ACQ_FAIL_CNT (x : Nat) : RF := ⟨R.RFS_SYNTH x, 16, 8⟩
/-- R105 -/
def R.RFS_HOLD (x : Nat) : Nat := 0x41000014 + 0x100000 * x
def R.RFS_HOLD_HOLD (x : Nat) : RF := ⟨R.RFS_HOLD x, 0, 8⟩
/-- R106 -/
def R.RFS_NCO_RX_LO (x : Nat) : Nat := 0x41000020 + 0x100000 * x
def R.RFS_NCO_RX_LO_W_RX_LO (x : Nat) : RF := ⟨R.RFS_NCO_RX_LO x, 0, 32⟩
/-- R106 -/
def R.RFS_NCO_RX_HI (x : Nat) : Nat := 0x41000024 + 0x100000 * x
def R.RFS_NCO_RX_HI_W_RX_HI (x : Nat) : RF := ⟨R.RFS_NCO_RX_HI x, 0, 16⟩
/-- R106 -/
def R.RFS_NCO_TX_LO (x : Nat) : Nat := 0x41000028 + 0x100000 * x
def R.RFS_NCO_TX_LO_W_TX_LO (x : Nat) : RF := ⟨R.RFS_NCO_TX_LO x, 0, 32⟩
/-- R106 -/
def R.RFS_NCO_TX_HI (x : Nat) : Nat := 0x4100002C + 0x100000 * x
def R.RFS_NCO_TX_HI_W_TX_HI (x : Nat) : RF := ⟨R.RFS_NCO_TX_HI x, 0, 16⟩
/-- R108 -/
def R.RFS_RETUNE (x : Nat) : Nat := 0x41000030 + 0x100000 * x
def R.RFS_RETUNE_GO (x : Nat) : RF := ⟨R.RFS_RETUNE x, 0, 1⟩
def R.RFS_RETUNE_PEND (x : Nat) : RF := ⟨R.RFS_RETUNE x, 1, 1⟩
def R.RFS_RETUNE_RANGE_ERR (x : Nat) : RF := ⟨R.RFS_RETUNE x, 2, 1⟩
/-- R109 -/
def R.RFS_CAL_CTL (x : Nat) : Nat := 0x41000040 + 0x100000 * x
def R.RFS_CAL_CTL_START (x : Nat) : RF := ⟨R.RFS_CAL_CTL x, 0, 1⟩
def R.RFS_CAL_CTL_KIND (x : Nat) : RF := ⟨R.RFS_CAL_CTL x, 1, 1⟩
def R.RFS_CAL_CTL_TEMP_REQ_EN (x : Nat) : RF := ⟨R.RFS_CAL_CTL x, 2, 1⟩
def R.RFS_CAL_CTL_THRESH (x : Nat) : RF := ⟨R.RFS_CAL_CTL x, 4, 5⟩
def R.RFS_CAL_CTL_FORCE_THRESH (x : Nat) : RF := ⟨R.RFS_CAL_CTL x, 10, 6⟩
def R.RFS_CAL_CTL_FORCE_EN (x : Nat) : RF := ⟨R.RFS_CAL_CTL x, 16, 1⟩
/-- R110 -/
def R.RFS_CAL_STAT (x : Nat) : Nat := 0x41000044 + 0x100000 * x
def R.RFS_CAL_STAT_STATE (x : Nat) : RF := ⟨R.RFS_CAL_STAT x, 0, 2⟩
def R.RFS_CAL_STAT_VALID (x : Nat) : RF := ⟨R.RFS_CAL_STAT x, 2, 1⟩
def R.RFS_CAL_STAT_REQ_TEMP (x : Nat) : RF := ⟨R.RFS_CAL_STAT x, 3, 1⟩
def R.RFS_CAL_STAT_DONE_EV (x : Nat) : RF := ⟨R.RFS_CAL_STAT x, 4, 1⟩
def R.RFS_CAL_STAT_CFG_ERR (x : Nat) : RF := ⟨R.RFS_CAL_STAT x, 5, 1⟩
def R.RFS_CAL_STAT_FAIL_EV (x : Nat) : RF := ⟨R.RFS_CAL_STAT x, 6, 1⟩
def R.RFS_CAL_STAT_CHAIN_OK (x : Nat) : RF := ⟨R.RFS_CAL_STAT x, 8, 8⟩
def R.RFS_CAL_STAT_T_CAL (x : Nat) : RF := ⟨R.RFS_CAL_STAT x, 16, 10⟩
/-- R110 -/
def R.RFS_TEMP (x : Nat) : Nat := 0x41000048 + 0x100000 * x
def R.RFS_TEMP_T (x : Nat) : RF := ⟨R.RFS_TEMP x, 0, 10⟩
/-- R111 -/
def R.RFS_EVT_CNT0 (x : Nat) : Nat := 0x4100004C + 0x100000 * x
def R.RFS_EVT_CNT0_NOT_READY (x : Nat) : RF := ⟨R.RFS_EVT_CNT0 x, 0, 16⟩
def R.RFS_EVT_CNT0_HELD_SENT (x : Nat) : RF := ⟨R.RFS_EVT_CNT0 x, 16, 16⟩
/-- R111 -/
def R.RFS_EVT_CNT1 (x : Nat) : Nat := 0x41000050 + 0x100000 * x
def R.RFS_EVT_CNT1_RX_ABORT_CAL (x : Nat) : RF := ⟨R.RFS_EVT_CNT1 x, 0, 16⟩
def R.RFS_EVT_CNT1_FORCED_CAL (x : Nat) : RF := ⟨R.RFS_EVT_CNT1 x, 16, 16⟩
/-- R107 -/
def R.RFS_NCO_RX_ACT_LO (x : Nat) : Nat := 0x41000080 + 0x100000 * x
def R.RFS_NCO_RX_ACT_LO_W_RX_LO (x : Nat) : RF := ⟨R.RFS_NCO_RX_ACT_LO x, 0, 32⟩
/-- R107 -/
def R.RFS_NCO_RX_ACT_HI (x : Nat) : Nat := 0x41000084 + 0x100000 * x
def R.RFS_NCO_RX_ACT_HI_W_RX_HI (x : Nat) : RF := ⟨R.RFS_NCO_RX_ACT_HI x, 0, 16⟩
/-- R107 -/
def R.RFS_NCO_TX_ACT_LO (x : Nat) : Nat := 0x41000088 + 0x100000 * x
def R.RFS_NCO_TX_ACT_LO_W_TX_LO (x : Nat) : RF := ⟨R.RFS_NCO_TX_ACT_LO x, 0, 32⟩
/-- R107 -/
def R.RFS_NCO_TX_ACT_HI (x : Nat) : Nat := 0x4100008C + 0x100000 * x
def R.RFS_NCO_TX_ACT_HI_W_TX_HI (x : Nat) : RF := ⟨R.RFS_NCO_TX_ACT_HI x, 0, 16⟩
/-- R115 -/
def R.RFS_FE_TIME (x : Nat) : Nat := 0x41000060 + 0x100000 * x
def R.RFS_FE_TIME_TR_LEAD (x : Nat) : RF := ⟨R.RFS_FE_TIME x, 0, 8⟩
def R.RFS_FE_TIME_PA_LEAD (x : Nat) : RF := ⟨R.RFS_FE_TIME x, 8, 8⟩
def R.RFS_FE_TIME_PA_LAG (x : Nat) : RF := ⟨R.RFS_FE_TIME x, 16, 8⟩
def R.RFS_FE_TIME_TR_LAG (x : Nat) : RF := ⟨R.RFS_FE_TIME x, 24, 8⟩
/-- R133 -/
def R.RFS_FE_CTL (x : Nat) : Nat := 0x41000064 + 0x100000 * x
def R.RFS_FE_CTL_OP_BW (x : Nat) : RF := ⟨R.RFS_FE_CTL x, 0, 3⟩
def R.RFS_FE_CTL_ISO (x : Nat) : RF := ⟨R.RFS_FE_CTL x, 4, 8⟩
def R.RFS_FE_CTL_FIR_BANK (x : Nat) : RF := ⟨R.RFS_FE_CTL x, 12, 1⟩
def R.RFS_FE_CTL_FIR_EN (x : Nat) : RF := ⟨R.RFS_FE_CTL x, 13, 1⟩
def R.RFS_FE_CTL_MON_MODE (x : Nat) : RF := ⟨R.RFS_FE_CTL x, 14, 2⟩
def R.RFS_FE_CTL_MON_CHAIN (x : Nat) : RF := ⟨R.RFS_FE_CTL x, 16, 3⟩
def R.RFS_FE_CTL_CFG_ERR (x : Nat) : RF := ⟨R.RFS_FE_CTL x, 20, 1⟩
/-- R147 -/
def R.RFS_STR_STAT (x : Nat) : Nat := 0x41000068 + 0x100000 * x
def R.RFS_STR_STAT_STR_OK (x : Nat) : RF := ⟨R.RFS_STR_STAT x, 0, 1⟩
def R.RFS_STR_STAT_CHG_EV (x : Nat) : RF := ⟨R.RFS_STR_STAT x, 1, 1⟩
def R.RFS_STR_STAT_SEP_FAIL (x : Nat) : RF := ⟨R.RFS_STR_STAT x, 2, 1⟩
def R.RFS_STR_STAT_ISO_FAIL (x : Nat) : RF := ⟨R.RFS_STR_STAT x, 3, 1⟩
def R.RFS_STR_STAT_CANC_FAIL (x : Nat) : RF := ⟨R.RFS_STR_STAT x, 4, 1⟩
def R.RFS_STR_STAT_SEP (x : Nat) : RF := ⟨R.RFS_STR_STAT x, 16, 13⟩
/-- R133 -/
def R.RFS_MASK_STAT (x : Nat) : Nat := 0x4100006C + 0x100000 * x
def R.RFS_MASK_STAT_LAST_PASS (x : Nat) : RF := ⟨R.RFS_MASK_STAT x, 0, 1⟩
def R.RFS_MASK_STAT_FAIL_EV (x : Nat) : RF := ⟨R.RFS_MASK_STAT x, 1, 1⟩
def R.RFS_MASK_STAT_TBL_ERR (x : Nat) : RF := ⟨R.RFS_MASK_STAT x, 2, 1⟩
def R.RFS_MASK_STAT_LAST_CHAIN (x : Nat) : RF := ⟨R.RFS_MASK_STAT x, 3, 3⟩
def R.RFS_MASK_STAT_WORST (x : Nat) : RF := ⟨R.RFS_MASK_STAT x, 16, 10⟩
/-- R133 -/
def R.RFS_MASK_CNT (x : Nat) : Nat := 0x41000070 + 0x100000 * x
def R.RFS_MASK_CNT_FAIL_CNT (x : Nat) : RF := ⟨R.RFS_MASK_CNT x, 0, 16⟩
def R.RFS_MASK_CNT_FIR_SAT_CNT (x : Nat) : RF := ⟨R.RFS_MASK_CNT x, 16, 16⟩
/-- R133 -/
def R.RFS_FIR (x : Nat) (b : Nat) (k : Nat) : Nat := 0x41000800 + 0x100000 * x + 0x80 * b + 0x4 * k
def R.RFS_FIR_I (x : Nat) (b : Nat) (k : Nat) : RF := ⟨R.RFS_FIR x b k, 0, 16⟩
def R.RFS_FIR_Q (x : Nat) (b : Nat) (k : Nat) : RF := ⟨R.RFS_FIR x b k, 16, 16⟩
/-- R132 -/
def R.RFS_MASK (x : Nat) (w : Nat) (p : Nat) : Nat := 0x41000A00 + 0x100000 * x + 0x20 * w + 0x4 * p
def R.RFS_MASK_OFFSET (x : Nat) (w : Nat) (p : Nat) : RF := ⟨R.RFS_MASK x w p, 0, 10⟩
def R.RFS_MASK_LEVEL (x : Nat) (w : Nat) (p : Nat) : RF := ⟨R.RFS_MASK x w p, 16, 10⟩
/-- R120 -/
def R.RFS_DIV (x : Nat) (c : Nat) : Nat := 0x41010000 + 0x100000 * x + 0x1000 * c
def R.RFS_DIV_MODE (x : Nat) (c : Nat) : RF := ⟨R.RFS_DIV x c, 0, 2⟩
def R.RFS_DIV_HYST (x : Nat) (c : Nat) : RF := ⟨R.RFS_DIV x c, 2, 5⟩
def R.RFS_DIV_CUR (x : Nat) (c : Nat) : RF := ⟨R.RFS_DIV x c, 8, 1⟩
/-- R124 -/
def R.RFS_GAIN (x : Nat) (c : Nat) : Nat := 0x41010004 + 0x100000 * x + 0x1000 * c
def R.RFS_GAIN_G_IDLE (x : Nat) (c : Nat) : RF := ⟨R.RFS_GAIN x c, 0, 5⟩
def R.RFS_GAIN_G_CAP (x : Nat) (c : Nat) : RF := ⟨R.RFS_GAIN x c, 5, 5⟩
def R.RFS_GAIN_G_CUR (x : Nat) (c : Nat) : RF := ⟨R.RFS_GAIN x c, 10, 5⟩
def R.RFS_GAIN_TARGET (x : Nat) (c : Nat) : RF := ⟨R.RFS_GAIN x c, 16, 6⟩
/-- R120 -/
def R.RFS_DIV_CNT (x : Nat) (c : Nat) : Nat := 0x41010008 + 0x100000 * x + 0x1000 * c
def R.RFS_DIV_CNT_RUNS (x : Nat) (c : Nat) : RF := ⟨R.RFS_DIV_CNT x c, 0, 16⟩
def R.RFS_DIV_CNT_SWITCHES (x : Nat) (c : Nat) : RF := ⟨R.RFS_DIV_CNT x c, 16, 16⟩
/-- R125 -/
def R.RFS_TUNE (x : Nat) (c : Nat) : Nat := 0x41010010 + 0x100000 * x + 0x1000 * c
def R.RFS_TUNE_CS (x : Nat) (c : Nat) : RF := ⟨R.RFS_TUNE x c, 0, 5⟩
def R.RFS_TUNE_CP1 (x : Nat) (c : Nat) : RF := ⟨R.RFS_TUNE x c, 8, 4⟩
def R.RFS_TUNE_CP2 (x : Nat) (c : Nat) : RF := ⟨R.RFS_TUNE x c, 12, 4⟩
def R.RFS_TUNE_BYPASS (x : Nat) (c : Nat) : RF := ⟨R.RFS_TUNE x c, 16, 1⟩
/-- R127 -/
def R.RFS_MISM (x : Nat) (c : Nat) : Nat := 0x41010014 + 0x100000 * x + 0x1000 * c
def R.RFS_MISM_MAG (x : Nat) (c : Nat) : RF := ⟨R.RFS_MISM x c, 0, 8⟩
def R.RFS_MISM_PHASE (x : Nat) (c : Nat) : RF := ⟨R.RFS_MISM x c, 8, 8⟩
def R.RFS_MISM_VALID (x : Nat) (c : Nat) : RF := ⟨R.RFS_MISM x c, 16, 1⟩
def R.RFS_MISM_SEQ (x : Nat) (c : Nat) : RF := ⟨R.RFS_MISM x c, 24, 8⟩
/-- R129 -/
def R.RFS_VSWR (x : Nat) (c : Nat) : Nat := 0x41010018 + 0x100000 * x + 0x1000 * c
def R.RFS_VSWR_THRESH (x : Nat) (c : Nat) : RF := ⟨R.RFS_VSWR x c, 0, 8⟩
def R.RFS_VSWR_ACTION (x : Nat) (c : Nat) : RF := ⟨R.RFS_VSWR x c, 8, 2⟩
def R.RFS_VSWR_EN (x : Nat) (c : Nat) : RF := ⟨R.RFS_VSWR x c, 10, 1⟩
def R.RFS_VSWR_ALARM (x : Nat) (c : Nat) : RF := ⟨R.RFS_VSWR x c, 12, 1⟩
def R.RFS_VSWR_BACKOFF_ACT (x : Nat) (c : Nat) : RF := ⟨R.RFS_VSWR x c, 13, 1⟩
def R.RFS_VSWR_TX_OFF (x : Nat) (c : Nat) : RF := ⟨R.RFS_VSWR x c, 14, 1⟩
def R.RFS_VSWR_ALARM_CNT (x : Nat) (c : Nat) : RF := ⟨R.RFS_VSWR x c, 16, 16⟩
/-- R146 -/
def R.RFS_CANC_CTL (x : Nat) (c : Nat) : Nat := 0x41010040 + 0x100000 * x + 0x1000 * c
def R.RFS_CANC_CTL_EN (x : Nat) (c : Nat) : RF := ⟨R.RFS_CANC_CTL x c, 0, 1⟩
def R.RFS_CANC_CTL_ADAPT (x : Nat) (c : Nat) : RF := ⟨R.RFS_CANC_CTL x c, 1, 1⟩
def R.RFS_CANC_CTL_RESET (x : Nat) (c : Nat) : RF := ⟨R.RFS_CANC_CTL x c, 2, 1⟩
def R.RFS_CANC_CTL_MU (x : Nat) (c : Nat) : RF := ⟨R.RFS_CANC_CTL x c, 4, 5⟩
def R.RFS_CANC_CTL_BULK_DELAY (x : Nat) (c : Nat) : RF := ⟨R.RFS_CANC_CTL x c, 16, 8⟩
/-- R146 -/
def R.RFS_CANC_STAT (x : Nat) (c : Nat) : Nat := 0x41010044 + 0x100000 * x + 0x1000 * c
def R.RFS_CANC_STAT_SUPP (x : Nat) (c : Nat) : RF := ⟨R.RFS_CANC_STAT x c, 0, 8⟩
def R.RFS_CANC_STAT_CONV (x : Nat) (c : Nat) : RF := ⟨R.RFS_CANC_STAT x c, 8, 1⟩
def R.RFS_CANC_STAT_CLIP_CNT (x : Nat) (c : Nat) : RF := ⟨R.RFS_CANC_STAT x c, 16, 16⟩
/-- R142 -/
def R.RFS_CANC_COEF (x : Nat) (c : Nat) (k : Nat) : Nat := 0x41010400 + 0x100000 * x + 0x1000 * c + 0x4 * k
def R.RFS_CANC_COEF_I (x : Nat) (c : Nat) (k : Nat) : RF := ⟨R.RFS_CANC_COEF x c k, 0, 16⟩
def R.RFS_CANC_COEF_Q (x : Nat) (c : Nat) (k : Nat) : RF := ⟨R.RFS_CANC_COEF x c k, 16, 16⟩
/-- R140 -/
def R.SYS_CX_CTL (n : Nat) : Nat := 0x40000400 + 0x20 * n
def R.SYS_CX_CTL_MODE (n : Nat) : RF := ⟨R.SYS_CX_CTL n, 0, 2⟩
def R.SYS_CX_CTL_SLICE_MASK (n : Nat) : RF := ⟨R.SYS_CX_CTL n, 2, 3⟩
def R.SYS_CX_CTL_PRIO_IN_RES (n : Nat) : RF := ⟨R.SYS_CX_CTL n, 5, 1⟩
def R.SYS_CX_CTL_ABORT_ON_PRIO (n : Nat) : RF := ⟨R.SYS_CX_CTL n, 6, 1⟩
def R.SYS_CX_CTL_STOP_ON_REVOKE (n : Nat) : RF := ⟨R.SYS_CX_CTL n, 7, 1⟩
def R.SYS_CX_CTL_PRIO_RES (n : Nat) : RF := ⟨R.SYS_CX_CTL n, 8, 1⟩
def R.SYS_CX_CTL_POL (n : Nat) : RF := ⟨R.SYS_CX_CTL n, 9, 4⟩
/-- R140 -/
def R.SYS_CX_TIME (n : Nat) : Nat := 0x40000404 + 0x20 * n
def R.SYS_CX_TIME_REQ_LEAD (n : Nat) : RF := ⟨R.SYS_CX_TIME n, 0, 8⟩
def R.SYS_CX_TIME_RESUME_GAP (n : Nat) : RF := ⟨R.SYS_CX_TIME n, 8, 8⟩
def R.SYS_CX_TIME_REVOKE_LEAD (n : Nat) : RF := ⟨R.SYS_CX_TIME n, 16, 8⟩
def R.SYS_CX_TIME_MAX_GRANT (n : Nat) : RF := ⟨R.SYS_CX_TIME n, 24, 8⟩
/-- R140 -/
def R.SYS_CX_STAT (n : Nat) : Nat := 0x40000408 + 0x20 * n
def R.SYS_CX_STAT_LIVE (n : Nat) : RF := ⟨R.SYS_CX_STAT n, 0, 4⟩
def R.SYS_CX_STAT_VIOL_EV (n : Nat) : RF := ⟨R.SYS_CX_STAT n, 4, 1⟩
def R.SYS_CX_STAT_REVOKE_EV (n : Nat) : RF := ⟨R.SYS_CX_STAT n, 5, 1⟩
/-- R140 -/
def R.SYS_CX_CNT0 (n : Nat) : Nat := 0x4000040C + 0x20 * n
def R.SYS_CX_CNT0_GRANTS (n : Nat) : RF := ⟨R.SYS_CX_CNT0 n, 0, 16⟩
def R.SYS_CX_CNT0_REVOKES (n : Nat) : RF := ⟨R.SYS_CX_CNT0 n, 16, 16⟩
/-- R140 -/
def R.SYS_CX_CNT1 (n : Nat) : Nat := 0x40000410 + 0x20 * n
def R.SYS_CX_CNT1_VIOL (n : Nat) : RF := ⟨R.SYS_CX_CNT1 n, 0, 16⟩
def R.SYS_CX_CNT1_DENIED (n : Nat) : RF := ⟨R.SYS_CX_CNT1 n, 16, 16⟩
/-- R174 -/
def R.PHY_DET_CTL (x : Nat) : Nat := 0x41400000 + 0x100000 * x
def R.PHY_DET_CTL_ED_THRESH (x : Nat) : RF := ⟨R.PHY_DET_CTL x, 0, 8⟩
def R.PHY_DET_CTL_QUAL_THRESH (x : Nat) : RF := ⟨R.PHY_DET_CTL x, 16, 16⟩
/-- R174 -/
def R.PHY_RST_CTL (x : Nat) : Nat := 0x41400004 + 0x100000 * x
def R.PHY_RST_CTL_RESTART_MARGIN (x : Nat) : RF := ⟨R.PHY_RST_CTL x, 0, 5⟩
def R.PHY_RST_CTL_CAPTURE_MARGIN (x : Nat) : RF := ⟨R.PHY_RST_CTL x, 8, 5⟩
/-- R174 -/
def R.PHY_TRK_CTL (x : Nat) : Nat := 0x41400008 + 0x100000 * x
def R.PHY_TRK_CTL_TRACK_THRESH (x : Nat) : RF := ⟨R.PHY_TRK_CTL x, 0, 16⟩
def R.PHY_TRK_CTL_TRACK_ALWAYS (x : Nat) : RF := ⟨R.PHY_TRK_CTL x, 16, 1⟩
/-- R174 -/
def R.PHY_DEC_CTL (x : Nat) : Nat := 0x4140000C + 0x100000 * x
def R.PHY_DEC_CTL_MAX_ITER (x : Nat) : RF := ⟨R.PHY_DEC_CTL x, 0, 5⟩
/-- R175 -/
def R.PHY_LAST_RSSI (x : Nat) : Nat := 0x41400010 + 0x100000 * x
def R.PHY_LAST_RSSI_RSSI (x : Nat) : RF := ⟨R.PHY_LAST_RSSI x, 0, 12⟩
/-- R175 -/
def R.PHY_LAST_CFO (x : Nat) : Nat := 0x41400014 + 0x100000 * x
def R.PHY_LAST_CFO_CFO (x : Nat) : RF := ⟨R.PHY_LAST_CFO x, 0, 16⟩
def R.PHY_LAST_CFO_TRACKED (x : Nat) : RF := ⟨R.PHY_LAST_CFO x, 16, 1⟩
def R.PHY_LAST_CFO_OUT_TOL (x : Nat) : RF := ⟨R.PHY_LAST_CFO x, 17, 1⟩
/-- R176 -/
def R.PHY_CNT_0 (x : Nat) : Nat := 0x41400020 + 0x100000 * x
def R.PHY_CNT_0_QUAL_FAIL (x : Nat) : RF := ⟨R.PHY_CNT_0 x, 0, 16⟩
def R.PHY_CNT_0_FALSE_LOCK (x : Nat) : RF := ⟨R.PHY_CNT_0 x, 16, 16⟩
/-- R176 -/
def R.PHY_CNT_1 (x : Nat) : Nat := 0x41400024 + 0x100000 * x
def R.PHY_CNT_1_RESTARTS (x : Nat) : RF := ⟨R.PHY_CNT_1 x, 0, 16⟩
def R.PHY_CNT_1_RESTART_REJ (x : Nat) : RF := ⟨R.PHY_CNT_1 x, 16, 16⟩
/-- R176 -/
def R.PHY_CNT_2 (x : Nat) : Nat := 0x41400028 + 0x100000 * x
def R.PHY_CNT_2_CAPTURES (x : Nat) : RF := ⟨R.PHY_CNT_2 x, 0, 16⟩
def R.PHY_CNT_2_CAPTURE_REJ (x : Nat) : RF := ⟨R.PHY_CNT_2 x, 16, 16⟩
/-- R176 -/
def R.PHY_CNT_3 (x : Nat) : Nat := 0x4140002C + 0x100000 * x
def R.PHY_CNT_3_SIG_FAIL (x : Nat) : RF := ⟨R.PHY_CNT_3 x, 0, 16⟩
def R.PHY_CNT_3_STREAM_REJ (x : Nat) : RF := ⟨R.PHY_CNT_3 x, 16, 16⟩
/-- R176 -/
def R.PHY_CNT_4 (x : Nat) : Nat := 0x41400030 + 0x100000 * x
def R.PHY_CNT_4_OUT_TOL (x : Nat) : RF := ⟨R.PHY_CNT_4 x, 0, 16⟩
def R.PHY_CNT_4_TRACK_ON (x : Nat) : RF := ⟨R.PHY_CNT_4 x, 16, 16⟩
/-- R176 -/
def R.PHY_CNT_5 (x : Nat) : Nat := 0x41400034 + 0x100000 * x
def R.PHY_CNT_5_LDPC_FAIL (x : Nat) : RF := ⟨R.PHY_CNT_5 x, 0, 16⟩
def R.PHY_CNT_5_ITER_CUT (x : Nat) : RF := ⟨R.PHY_CNT_5 x, 16, 16⟩
/-- R176 -/
def R.PHY_CNT_6 (x : Nat) : Nat := 0x41400038 + 0x100000 * x
def R.PHY_CNT_6_DEC_OVF (x : Nat) : RF := ⟨R.PHY_CNT_6 x, 0, 16⟩
def R.PHY_CNT_6_NF_DISCARD (x : Nat) : RF := ⟨R.PHY_CNT_6 x, 16, 16⟩
/-- R174 -/
def R.PHY_RSSI_CAL (x : Nat) (c : Nat) : Nat := 0x41400040 + 0x100000 * x + 0x4 * c
def R.PHY_RSSI_CAL_CAL (x : Nat) (c : Nat) : RF := ⟨R.PHY_RSSI_CAL x c, 0, 8⟩
def R.PHY_RSSI_CAL_TC (x : Nat) (c : Nat) : RF := ⟨R.PHY_RSSI_CAL x c, 8, 8⟩
/-- R175 -/
def R.PHY_LAST_RSSI_c (x : Nat) (c : Nat) : Nat := 0x41400060 + 0x100000 * x + 0x4 * c
def R.PHY_LAST_RSSI_c_RSSI (x : Nat) (c : Nat) : RF := ⟨R.PHY_LAST_RSSI_c x c, 0, 12⟩
/-- R175 -/
def R.PHY_NF_STAT (x : Nat) : Nat := 0x414000F0 + 0x100000 * x
def R.PHY_NF_STAT_SEQ (x : Nat) : RF := ⟨R.PHY_NF_STAT x, 0, 8⟩
def R.PHY_NF_STAT_UPD_EV (x : Nat) : RF := ⟨R.PHY_NF_STAT x, 8, 1⟩
/-- R175 -/
def R.PHY_NF (x : Nat) (s : Nat) : Nat := 0x41400100 + 0x100000 * x + 0x4 * s
def R.PHY_NF_NF (x : Nat) (s : Nat) : RF := ⟨R.PHY_NF x s, 0, 12⟩
def R.PHY_NF_BLOCKS (x : Nat) (s : Nat) : RF := ⟨R.PHY_NF x s, 16, 9⟩
/-- R205 -/
def R.WELT_CTL : Nat := 0x40D00000
def R.WELT_CTL_TIMING_MASK : RF := ⟨R.WELT_CTL, 0, 8⟩
/-- R205 -/
def R.WELT_STAT : Nat := 0x40D00004
def R.WELT_STAT_CFG_ERR : RF := ⟨R.WELT_STAT, 0, 1⟩
def R.WELT_STAT_PN_EV : RF := ⟨R.WELT_STAT, 1, 1⟩
def R.WELT_STAT_RO_FULL : RF := ⟨R.WELT_STAT, 16, 16⟩
/-- R205 -/
def R.WELT_CTX_ARG : Nat := 0x40D00008
def R.WELT_CTX_ARG_ARG : RF := ⟨R.WELT_CTX_ARG, 0, 32⟩
/-- R205 -/
def R.WELT_CTX_CMD : Nat := 0x40D0000C
def R.WELT_CTX_CMD_OP : RF := ⟨R.WELT_CTX_CMD, 0, 4⟩
def R.WELT_CTX_CMD_STA : RF := ⟨R.WELT_CTX_CMD, 4, 10⟩
/-- R205 -/
def R.WELT_CTX_RSP : Nat := 0x40D00010
def R.WELT_CTX_RSP_BUSY : RF := ⟨R.WELT_CTX_RSP, 0, 1⟩
def R.WELT_CTX_RSP_DONE_EV : RF := ⟨R.WELT_CTX_RSP, 1, 1⟩
def R.WELT_CTX_RSP_LOST : RF := ⟨R.WELT_CTX_RSP, 2, 1⟩
def R.WELT_CTX_RSP_STATUS : RF := ⟨R.WELT_CTX_RSP, 4, 4⟩
def R.WELT_CTX_RSP_STA : RF := ⟨R.WELT_CTX_RSP, 8, 10⟩
/-- R205 -/
def R.WELT_RO_BASE : Nat := 0x40D00018
def R.WELT_RO_BASE_BASE : RF := ⟨R.WELT_RO_BASE, 0, 15⟩
/-- R205 -/
def R.WELT_RO_CTL : Nat := 0x40D0001C
def R.WELT_RO_CTL_SLOTS : RF := ⟨R.WELT_RO_CTL, 0, 15⟩
def R.WELT_RO_CTL_TIMEOUT : RF := ⟨R.WELT_RO_CTL, 16, 8⟩
/-- R204 -/
def R.WELT_TSF_OFS_LO : Nat := 0x40D00020
def R.WELT_TSF_OFS_LO_LO : RF := ⟨R.WELT_TSF_OFS_LO, 0, 32⟩
/-- R204 -/
def R.WELT_TSF_OFS_HI : Nat := 0x40D00024
def R.WELT_TSF_OFS_HI_HI : RF := ⟨R.WELT_TSF_OFS_HI, 0, 32⟩
/-- R204 -/
def R.WELT_MLD_ADDR_LO : Nat := 0x40D00028
def R.WELT_MLD_ADDR_LO_LO : RF := ⟨R.WELT_MLD_ADDR_LO, 0, 32⟩
/-- R204 -/
def R.WELT_MLD_ADDR_HI : Nat := 0x40D0002C
def R.WELT_MLD_ADDR_HI_HI : RF := ⟨R.WELT_MLD_ADDR_HI, 0, 16⟩
/-- R206 -/
def R.WELT_WUR_CMD (j : Nat) : Nat := 0x40D00400 + 0x10 * j
def R.WELT_WUR_CMD_STA (j : Nat) : RF := ⟨R.WELT_WUR_CMD j, 0, 10⟩
def R.WELT_WUR_CMD_ID (j : Nat) : RF := ⟨R.WELT_WUR_CMD j, 10, 12⟩
def R.WELT_WUR_CMD_GROUP (j : Nat) : RF := ⟨R.WELT_WUR_CMD j, 22, 1⟩
def R.WELT_WUR_CMD_SHORT (j : Nat) : RF := ⟨R.WELT_WUR_CMD j, 23, 1⟩
def R.WELT_WUR_CMD_RATE (j : Nat) : RF := ⟨R.WELT_WUR_CMD j, 24, 1⟩
def R.WELT_WUR_CMD_REPEAT (j : Nat) : RF := ⟨R.WELT_WUR_CMD j, 25, 4⟩
/-- R206 -/
def R.WELT_WUR_TIME (j : Nat) : Nat := 0x40D00404 + 0x10 * j
def R.WELT_WUR_TIME_SPACING (j : Nat) : RF := ⟨R.WELT_WUR_TIME j, 0, 8⟩
/-- R206 -/
def R.WELT_WUR_STAT (j : Nat) : Nat := 0x40D00408 + 0x10 * j
def R.WELT_WUR_STAT_STATE (j : Nat) : RF := ⟨R.WELT_WUR_STAT j, 0, 3⟩
def R.WELT_WUR_STAT_DONE_EV (j : Nat) : RF := ⟨R.WELT_WUR_STAT j, 3, 1⟩
def R.WELT_WUR_STAT_SENT (j : Nat) : RF := ⟨R.WELT_WUR_STAT j, 4, 5⟩
def R.WELT_WUR_STAT_SKIPPED (j : Nat) : RF := ⟨R.WELT_WUR_STAT j, 9, 5⟩
/-- R207 -/
def R.WELT_CFG (l : Nat) : Nat := 0x40D01000 + 0x100 * l
def R.WELT_CFG_MGMTQ (l : Nat) : RF := ⟨R.WELT_CFG l, 0, 14⟩
def R.WELT_CFG_GRPQ (l : Nat) : RF := ⟨R.WELT_CFG l, 14, 14⟩
/-- R207 -/
def R.WELT_SYNC (l : Nat) : Nat := 0x40D01004 + 0x100 * l
def R.WELT_SYNC_SYNC_THRESH (l : Nat) : RF := ⟨R.WELT_SYNC l, 0, 8⟩
/-- R207 -/
def R.WELT_WUR (l : Nat) : Nat := 0x40D01008 + 0x100 * l
def R.WELT_WUR_PERIOD (l : Nat) : RF := ⟨R.WELT_WUR l, 0, 16⟩
def R.WELT_WUR_SUBCH (l : Nat) : RF := ⟨R.WELT_WUR l, 16, 3⟩
def R.WELT_WUR_BRATE (l : Nat) : RF := ⟨R.WELT_WUR l, 19, 1⟩
/-- R207 -/
def R.WELT_GKEY (l : Nat) : Nat := 0x40D0100C + 0x100 * l
def R.WELT_GKEY_VALID (l : Nat) : RF := ⟨R.WELT_GKEY l, 0, 6⟩
def R.WELT_GKEY_TX_GTK (l : Nat) : RF := ⟨R.WELT_GKEY l, 6, 1⟩
def R.WELT_GKEY_TX_IGTK (l : Nat) : RF := ⟨R.WELT_GKEY l, 7, 1⟩
def R.WELT_GKEY_TX_BIGTK (l : Nat) : RF := ⟨R.WELT_GKEY l, 8, 1⟩
def R.WELT_GKEY_GCIPHER (l : Nat) : RF := ⟨R.WELT_GKEY l, 12, 4⟩
def R.WELT_GKEY_MCIPHER (l : Nat) : RF := ⟨R.WELT_GKEY l, 16, 4⟩
/-- R207 -/
def R.WELT_EDCA (ac : Nat) (l : Nat) : Nat := 0x40D01010 + 0x4 * ac + 0x100 * l
def R.WELT_EDCA_AIFSN (ac : Nat) (l : Nat) : RF := ⟨R.WELT_EDCA ac l, 0, 4⟩
def R.WELT_EDCA_ECWMIN (ac : Nat) (l : Nat) : RF := ⟨R.WELT_EDCA ac l, 4, 4⟩
def R.WELT_EDCA_ECWMAX (ac : Nat) (l : Nat) : RF := ⟨R.WELT_EDCA ac l, 8, 4⟩
def R.WELT_EDCA_TXOP (ac : Nat) (l : Nat) : RF := ⟨R.WELT_EDCA ac l, 12, 16⟩
def R.WELT_EDCA_RETRY (ac : Nat) (l : Nat) : RF := ⟨R.WELT_EDCA ac l, 28, 4⟩
/-- R207 -/
def R.WELT_LIFE (l : Nat) : Nat := 0x40D01020 + 0x100 * l
def R.WELT_LIFE_BK (l : Nat) : RF := ⟨R.WELT_LIFE l, 0, 8⟩
def R.WELT_LIFE_BE (l : Nat) : RF := ⟨R.WELT_LIFE l, 8, 8⟩
def R.WELT_LIFE_VI (l : Nat) : RF := ⟨R.WELT_LIFE l, 16, 8⟩
def R.WELT_LIFE_VO (l : Nat) : RF := ⟨R.WELT_LIFE l, 24, 8⟩
/-- R204 -/
def R.WELT_ADDR_LO (l : Nat) : Nat := 0x40D01028 + 0x100 * l
def R.WELT_ADDR_LO_LO (l : Nat) : RF := ⟨R.WELT_ADDR_LO l, 0, 32⟩
/-- R204 -/
def R.WELT_ADDR_HI (l : Nat) : Nat := 0x40D0102C + 0x100 * l
def R.WELT_ADDR_HI_HI (l : Nat) : RF := ⟨R.WELT_ADDR_HI l, 0, 16⟩
/-- R207 -/
def R.WELT_CNT_0 (l : Nat) : Nat := 0x40D01040 + 0x100 * l
def R.WELT_CNT_0_UNKNOWN_TA (l : Nat) : RF := ⟨R.WELT_CNT_0 l, 0, 16⟩
def R.WELT_CNT_0_UNAVAIL (l : Nat) : RF := ⟨R.WELT_CNT_0 l, 16, 16⟩
/-- R207 -/
def R.WELT_CNT_1 (l : Nat) : Nat := 0x40D01044 + 0x100 * l
def R.WELT_CNT_1_NSTR_HOLD (l : Nat) : RF := ⟨R.WELT_CNT_1 l, 0, 16⟩
def R.WELT_CNT_1_NSTR_COLLIDE (l : Nat) : RF := ⟨R.WELT_CNT_1 l, 16, 16⟩
/-- R207 -/
def R.WELT_CNT_2 (l : Nat) : Nat := 0x40D01048 + 0x100 * l
def R.WELT_CNT_2_RETRY_DROP (l : Nat) : RF := ⟨R.WELT_CNT_2 l, 0, 16⟩
def R.WELT_CNT_2_LIFE_DROP (l : Nat) : RF := ⟨R.WELT_CNT_2 l, 16, 16⟩
/-- R204 -/
def R.WELT_HALF (n : Nat) : Nat := 0x40D02000 + 0x4 * n
def R.WELT_HALF_HALF (n : Nat) : RF := ⟨R.WELT_HALF n, 0, 32⟩
/-- R204 -/
def R.WELT_TIM (n : Nat) : Nat := 0x40D02100 + 0x4 * n
def R.WELT_TIM_TIM (n : Nat) : RF := ⟨R.WELT_TIM n, 0, 32⟩
/-- R204 -/
def R.WELT_KEY (k : Nat) (w : Nat) : Nat := 0x40D10000 + 0x20 * k + 0x4 * w
def R.WELT_KEY_KEY (k : Nat) (w : Nat) : RF := ⟨R.WELT_KEY k w, 0, 32⟩
/-- R179 -/
def R.STA_W0 (s : Nat) : Nat := 0x40D40000 + 0x100 * s
def R.STA_W0_STATE (s : Nat) : RF := ⟨R.STA_W0 s, 0, 2⟩
def R.STA_W0_LINKS (s : Nat) : RF := ⟨R.STA_W0 s, 2, 3⟩
def R.STA_W0_MLD (s : Nat) : RF := ⟨R.STA_W0 s, 5, 1⟩
def R.STA_W0_AID (s : Nat) : RF := ⟨R.STA_W0 s, 6, 11⟩
def R.STA_W0_WUR (s : Nat) : RF := ⟨R.STA_W0 s, 17, 1⟩
def R.STA_W0_PM (s : Nat) : RF := ⟨R.STA_W0 s, 18, 3⟩
def R.STA_W0_TX_KEYID (s : Nat) : RF := ⟨R.STA_W0 s, 21, 1⟩
/-- R179 -/
def R.STA_MLD_LO (s : Nat) : Nat := 0x40D40004 + 0x100 * s
def R.STA_MLD_LO_ADDR (s : Nat) : RF := ⟨R.STA_MLD_LO s, 0, 32⟩
/-- R179 -/
def R.STA_MLD_HI (s : Nat) : Nat := 0x40D40008 + 0x100 * s
def R.STA_MLD_HI_ADDR (s : Nat) : RF := ⟨R.STA_MLD_HI s, 0, 16⟩
/-- R179 -/
def R.STA_LINK_LO (s : Nat) (l : Nat) : Nat := 0x40D4000C + 0x100 * s + 0x8 * l
def R.STA_LINK_LO_ADDR (s : Nat) (l : Nat) : RF := ⟨R.STA_LINK_LO s l, 0, 32⟩
/-- R179 -/
def R.STA_LINK_HI (s : Nat) (l : Nat) : Nat := 0x40D40010 + 0x100 * s + 0x8 * l
def R.STA_LINK_HI_ADDR (s : Nat) (l : Nat) : RF := ⟨R.STA_LINK_HI s l, 0, 16⟩
/-- R179 -/
def R.STA_W9 (s : Nat) : Nat := 0x40D40024 + 0x100 * s
def R.STA_W9_DL_MAP (s : Nat) : RF := ⟨R.STA_W9 s, 0, 24⟩
def R.STA_W9_RES_ONLY (s : Nat) : RF := ⟨R.STA_W9 s, 24, 8⟩
/-- R179 -/
def R.STA_W10 (s : Nat) : Nat := 0x40D40028 + 0x100 * s
def R.STA_W10_UL_MAP (s : Nat) : RF := ⟨R.STA_W10 s, 0, 24⟩
/-- R179 -/
def R.STA_W11 (s : Nat) : Nat := 0x40D4002C + 0x100 * s
def R.STA_W11_CAP_A (s : Nat) : RF := ⟨R.STA_W11 s, 0, 6⟩
def R.STA_W11_CAP_B (s : Nat) : RF := ⟨R.STA_W11 s, 8, 6⟩
def R.STA_W11_CAP_C (s : Nat) : RF := ⟨R.STA_W11 s, 16, 6⟩
/-- R179 -/
def R.STA_W12 (s : Nat) : Nat := 0x40D40030 + 0x100 * s
def R.STA_W12_KEY0 (s : Nat) : RF := ⟨R.STA_W12 s, 0, 11⟩
def R.STA_W12_KEY0_V (s : Nat) : RF := ⟨R.STA_W12 s, 11, 1⟩
def R.STA_W12_CIPHER (s : Nat) : RF := ⟨R.STA_W12 s, 12, 4⟩
def R.STA_W12_KEY1 (s : Nat) : RF := ⟨R.STA_W12 s, 16, 11⟩
def R.STA_W12_KEY1_V (s : Nat) : RF := ⟨R.STA_W12 s, 27, 1⟩
/-- R179 -/
def R.STA_TXPN_LO (s : Nat) (k : Nat) : Nat := 0x40D40034 + 0x100 * s + 0x8 * k
def R.STA_TXPN_LO_PN (s : Nat) (k : Nat) : RF := ⟨R.STA_TXPN_LO s k, 0, 32⟩
/-- R179 -/
def R.STA_TXPN_HI (s : Nat) (k : Nat) : Nat := 0x40D40038 + 0x100 * s + 0x8 * k
def R.STA_TXPN_HI_PN (s : Nat) (k : Nat) : RF := ⟨R.STA_TXPN_HI s k, 0, 16⟩
/-- R179 -/
def R.STA_RXPN_LO (s : Nat) (k : Nat) (t : Nat) : Nat := 0x40D40044 + 0x100 * s + 0x48 * k + 0x8 * t
def R.STA_RXPN_LO_PN (s : Nat) (k : Nat) (t : Nat) : RF := ⟨R.STA_RXPN_LO s k t, 0, 32⟩
/-- R179 -/
def R.STA_RXPN_HI (s : Nat) (k : Nat) (t : Nat) : Nat := 0x40D40048 + 0x100 * s + 0x48 * k + 0x8 * t
def R.STA_RXPN_HI_PN (s : Nat) (k : Nat) (t : Nat) : RF := ⟨R.STA_RXPN_HI s k t, 0, 16⟩
/-- R179 -/
def R.STA_W53 (s : Nat) : Nat := 0x40D400D4 + 0x100 * s
def R.STA_W53_TX_BA (s : Nat) : RF := ⟨R.STA_W53 s, 0, 8⟩
def R.STA_W53_RX_BA (s : Nat) : RF := ⟨R.STA_W53 s, 8, 8⟩
/-- R179 -/
def R.STA_W54 (s : Nat) : Nat := 0x40D400D8 + 0x100 * s
/-- R179 -/
def R.STA_W55 (s : Nat) : Nat := 0x40D400DC + 0x100 * s
def R.STA_W55_WUR_ID (s : Nat) : RF := ⟨R.STA_W55 s, 0, 12⟩
def R.STA_W55_WUR_LINK (s : Nat) : RF := ⟨R.STA_W55 s, 12, 1⟩
/-- R179 -/
def R.STA_ACT_LO (s : Nat) : Nat := 0x40D400E0 + 0x100 * s
def R.STA_ACT_LO_LAST_ACT (s : Nat) : RF := ⟨R.STA_ACT_LO s, 0, 32⟩
/-- R179 -/
def R.STA_ACT_HI (s : Nat) : Nat := 0x40D400E4 + 0x100 * s
def R.STA_ACT_HI_LAST_ACT (s : Nat) : RF := ⟨R.STA_ACT_HI s, 0, 32⟩
/-- R179 -/
def R.STA_W58 (s : Nat) : Nat := 0x40D400E8 + 0x100 * s
def R.STA_W58_LAST_RSSI_A (s : Nat) : RF := ⟨R.STA_W58 s, 0, 12⟩
def R.STA_W58_LAST_RSSI_B (s : Nat) : RF := ⟨R.STA_W58 s, 16, 12⟩
/-- R179 -/
def R.STA_W59 (s : Nat) : Nat := 0x40D400EC + 0x100 * s
def R.STA_W59_LAST_RSSI_C (s : Nat) : RF := ⟨R.STA_W59 s, 0, 12⟩
/-- R179 -/
def R.STA_W60 (s : Nat) : Nat := 0x40D400F0 + 0x100 * s
def R.STA_W60_EMLSR (s : Nat) : RF := ⟨R.STA_W60 s, 0, 1⟩
def R.STA_W60_PAD (s : Nat) : RF := ⟨R.STA_W60 s, 1, 3⟩
def R.STA_W60_TRANS (s : Nat) : RF := ⟨R.STA_W60 s, 4, 3⟩
/-- R179 -/
def R.STA_W61 (s : Nat) (w : Nat) : Nat := 0x40D400F4 + 0x100 * s + 0x4 * w
/-- R203 -/
def R.STA_STAT_LO (s : Nat) (n : Nat) : Nat := 0x40D80000 + 0x40 * s + 0x8 * n
def R.STA_STAT_LO_CNT (s : Nat) (n : Nat) : RF := ⟨R.STA_STAT_LO s n, 0, 32⟩
/-- R203 -/
def R.STA_STAT_HI (s : Nat) (n : Nat) : Nat := 0x40D80004 + 0x40 * s + 0x8 * n
def R.STA_STAT_HI_CNT (s : Nat) (n : Nat) : RF := ⟨R.STA_STAT_HI s n, 0, 8⟩
/-- R230 -/
def R.LAST_CTL (l : Nat) : Nat := 0x40E00000 + 0x40000 * l
def R.LAST_CTL_STOP (l : Nat) : RF := ⟨R.LAST_CTL l, 0, 1⟩
def R.LAST_CTL_LONG_SLOT (l : Nat) : RF := ⟨R.LAST_CTL l, 1, 1⟩
/-- R230 -/
def R.LAST_STAT (l : Nat) : Nat := 0x40E00004 + 0x40000 * l
def R.LAST_STAT_RUN (l : Nat) : RF := ⟨R.LAST_STAT l, 0, 1⟩
def R.LAST_STAT_ACTIVE (l : Nat) : RF := ⟨R.LAST_STAT l, 1, 1⟩
def R.LAST_STAT_PEND (l : Nat) : RF := ⟨R.LAST_STAT l, 2, 1⟩
def R.LAST_STAT_SWAP_EV (l : Nat) : RF := ⟨R.LAST_STAT l, 3, 1⟩
def R.LAST_STAT_VAL_ERR_EV (l : Nat) : RF := ⟨R.LAST_STAT l, 4, 1⟩
def R.LAST_STAT_AMEND_ERR (l : Nat) : RF := ⟨R.LAST_STAT l, 5, 1⟩
def R.LAST_STAT_STEP_EV (l : Nat) : RF := ⟨R.LAST_STAT l, 6, 1⟩
def R.LAST_STAT_CFG_ERR (l : Nat) : RF := ⟨R.LAST_STAT l, 7, 1⟩
def R.LAST_STAT_ENTRY (l : Nat) : RF := ⟨R.LAST_STAT l, 16, 12⟩
def R.LAST_STAT_IN_ENTRY (l : Nat) : RF := ⟨R.LAST_STAT l, 28, 1⟩
/-- R230 -/
def R.LAST_SWAP (l : Nat) : Nat := 0x40E00008 + 0x40000 * l
def R.LAST_SWAP_ARM (l : Nat) : RF := ⟨R.LAST_SWAP l, 0, 1⟩
def R.LAST_SWAP_DISARM (l : Nat) : RF := ⟨R.LAST_SWAP l, 1, 1⟩
/-- R230 -/
def R.LAST_VAL (l : Nat) : Nat := 0x40E0000C + 0x40000 * l
def R.LAST_VAL_CODE (l : Nat) : RF := ⟨R.LAST_VAL l, 0, 4⟩
def R.LAST_VAL_INDEX (l : Nat) : RF := ⟨R.LAST_VAL l, 16, 12⟩
/-- R230 -/
def R.LAST_CYC_LO (l : Nat) : Nat := 0x40E00010 + 0x40000 * l
def R.LAST_CYC_LO_K (l : Nat) : RF := ⟨R.LAST_CYC_LO l, 0, 32⟩
/-- R230 -/
def R.LAST_CYC_HI (l : Nat) : Nat := 0x40E00014 + 0x40000 * l
def R.LAST_CYC_HI_K (l : Nat) : RF := ⟨R.LAST_CYC_HI l, 0, 32⟩
/-- R230 -/
def R.LAST_BCN_ADDR (l : Nat) : Nat := 0x40E00018 + 0x40000 * l
def R.LAST_BCN_ADDR_ADDR (l : Nat) : RF := ⟨R.LAST_BCN_ADDR l, 0, 23⟩
/-- R230 -/
def R.LAST_BCN_LEN (l : Nat) : Nat := 0x40E0001C + 0x40000 * l
def R.LAST_BCN_LEN_LEN (l : Nat) : RF := ⟨R.LAST_BCN_LEN l, 0, 12⟩
/-- R231 -/
def R.LAST_BASE_NS (l : Nat) (b : Nat) : Nat := 0x40E00020 + 0x40000 * l + 0x20 * b
def R.LAST_BASE_NS_NS (l : Nat) (b : Nat) : RF := ⟨R.LAST_BASE_NS l b, 0, 30⟩
/-- R231 -/
def R.LAST_BASE_S_LO (l : Nat) (b : Nat) : Nat := 0x40E00024 + 0x40000 * l + 0x20 * b
def R.LAST_BASE_S_LO_S_LO (l : Nat) (b : Nat) : RF := ⟨R.LAST_BASE_S_LO l b, 0, 32⟩
/-- R231 -/
def R.LAST_BASE_S_HI (l : Nat) (b : Nat) : Nat := 0x40E00028 + 0x40000 * l + 0x20 * b
def R.LAST_BASE_S_HI_S_HI (l : Nat) (b : Nat) : RF := ⟨R.LAST_BASE_S_HI l b, 0, 16⟩
/-- R231 -/
def R.LAST_CYCLE (l : Nat) (b : Nat) : Nat := 0x40E0002C + 0x40000 * l + 0x20 * b
def R.LAST_CYCLE_CYCLE (l : Nat) (b : Nat) : RF := ⟨R.LAST_CYCLE l b, 0, 24⟩
/-- R231 -/
def R.LAST_COUNT (l : Nat) (b : Nat) : Nat := 0x40E00030 + 0x40000 * l + 0x20 * b
def R.LAST_COUNT_COUNT (l : Nat) (b : Nat) : RF := ⟨R.LAST_COUNT l b, 0, 13⟩
/-- R231 -/
def R.LAST_CNT_0 (l : Nat) : Nat := 0x40E00060 + 0x40000 * l
def R.LAST_CNT_0_SKIP_UNAVAIL (l : Nat) : RF := ⟨R.LAST_CNT_0 l, 0, 16⟩
def R.LAST_CNT_0_FOREIGN (l : Nat) : RF := ⟨R.LAST_CNT_0 l, 16, 16⟩
/-- R231 -/
def R.LAST_CNT_1 (l : Nat) : Nat := 0x40E00064 + 0x40000 * l
def R.LAST_CNT_1_LATE (l : Nat) : RF := ⟨R.LAST_CNT_1 l, 0, 16⟩
def R.LAST_CNT_1_CAL_OVERLAP (l : Nat) : RF := ⟨R.LAST_CNT_1 l, 16, 16⟩
/-- R231 -/
def R.LAST_CNT_2 (l : Nat) : Nat := 0x40E00068 + 0x40000 * l
def R.LAST_CNT_2_EMPTY (l : Nat) : RF := ⟨R.LAST_CNT_2 l, 0, 16⟩
def R.LAST_CNT_2_CAL_UNUSED (l : Nat) : RF := ⟨R.LAST_CNT_2 l, 16, 16⟩
/-- R231 -/
def R.LAST_CNT_3 (l : Nat) : Nat := 0x40E0006C + 0x40000 * l
def R.LAST_CNT_3_STEP_RESTART (l : Nat) : RF := ⟨R.LAST_CNT_3 l, 0, 16⟩
def R.LAST_CNT_3_CAPACITY (l : Nat) : RF := ⟨R.LAST_CNT_3 l, 16, 16⟩
/-- R230 -/
def R.LAST_AMEND_W (l : Nat) (w : Nat) : Nat := 0x40E00070 + 0x40000 * l + 0x4 * w
def R.LAST_AMEND_W_W (l : Nat) (w : Nat) : RF := ⟨R.LAST_AMEND_W l w, 0, 32⟩
/-- R230 -/
def R.LAST_AMEND_CMD (l : Nat) : Nat := 0x40E00080 + 0x40000 * l
def R.LAST_AMEND_CMD_INDEX (l : Nat) : RF := ⟨R.LAST_AMEND_CMD l, 0, 12⟩
def R.LAST_AMEND_CMD_GO (l : Nat) : RF := ⟨R.LAST_AMEND_CMD l, 31, 1⟩
/-- R211 -/
def R.LAST_E0 (l : Nat) (b : Nat) (i : Nat) : Nat := 0x40E10000 + 0x40000 * l + 0x10000 * b + 0x10 * i
def R.LAST_E0_START (l : Nat) (b : Nat) (i : Nat) : RF := ⟨R.LAST_E0 l b i, 0, 24⟩
def R.LAST_E0_TYPE (l : Nat) (b : Nat) (i : Nat) : RF := ⟨R.LAST_E0 l b i, 24, 3⟩
def R.LAST_E0_EXPRESS (l : Nat) (b : Nat) (i : Nat) : RF := ⟨R.LAST_E0 l b i, 27, 1⟩
/-- R211 -/
def R.LAST_E1 (l : Nat) (b : Nat) (i : Nat) : Nat := 0x40E10004 + 0x40000 * l + 0x10000 * b + 0x10 * i
def R.LAST_E1_DUR (l : Nat) (b : Nat) (i : Nat) : RF := ⟨R.LAST_E1 l b i, 0, 16⟩
def R.LAST_E1_EVERY (l : Nat) (b : Nat) (i : Nat) : RF := ⟨R.LAST_E1 l b i, 16, 8⟩
def R.LAST_E1_PHASE (l : Nat) (b : Nat) (i : Nat) : RF := ⟨R.LAST_E1 l b i, 24, 8⟩
/-- R211 -/
def R.LAST_E2 (l : Nat) (b : Nat) (i : Nat) : Nat := 0x40E10008 + 0x40000 * l + 0x10000 * b + 0x10 * i
def R.LAST_E2_LIST (l : Nat) (b : Nat) (i : Nat) : RF := ⟨R.LAST_E2 l b i, 0, 13⟩
def R.LAST_E2_NUSR (l : Nat) (b : Nat) (i : Nat) : RF := ⟨R.LAST_E2 l b i, 13, 8⟩
def R.LAST_E2_TIDS (l : Nat) (b : Nat) (i : Nat) : RF := ⟨R.LAST_E2 l b i, 24, 8⟩
/-- R211 -/
def R.LAST_E3 (l : Nat) (b : Nat) (i : Nat) : Nat := 0x40E1000C + 0x40000 * l + 0x10000 * b + 0x10 * i
def R.LAST_E3_BW (l : Nat) (b : Nat) (i : Nat) : RF := ⟨R.LAST_E3 l b i, 0, 3⟩
def R.LAST_E3_MU_MIMO (l : Nat) (b : Nat) (i : Nat) : RF := ⟨R.LAST_E3 l b i, 3, 1⟩
def R.LAST_E3_REPEAT (l : Nat) (b : Nat) (i : Nat) : RF := ⟨R.LAST_E3 l b i, 4, 1⟩
def R.LAST_E3_UL_LEN (l : Nat) (b : Nat) (i : Nat) : RF := ⟨R.LAST_E3 l b i, 8, 8⟩
/-- R212 -/
def R.LAST_LIST (l : Nat) (b : Nat) (n : Nat) : Nat := 0x40E30000 + 0x40000 * l + 0x8000 * b + 0x4 * n
def R.LAST_LIST_STA (l : Nat) (b : Nat) (n : Nat) : RF := ⟨R.LAST_LIST l b n, 0, 10⟩
def R.LAST_LIST_RU (l : Nat) (b : Nat) (n : Nat) : RF := ⟨R.LAST_LIST l b n, 10, 9⟩
def R.LAST_LIST_NSS (l : Nat) (b : Nat) (n : Nat) : RF := ⟨R.LAST_LIST l b n, 19, 3⟩
def R.LAST_LIST_MCS (l : Nat) (b : Nat) (n : Nat) : RF := ⟨R.LAST_LIST l b n, 22, 5⟩
/-- R267 -/
def R.AWL_INFO : Nat := 0x40C00000
def R.AWL_INFO_N_ENG : RF := ⟨R.AWL_INFO, 0, 8⟩
def R.AWL_INFO_N_THR_M1 : RF := ⟨R.AWL_INFO, 8, 3⟩
def R.AWL_INFO_ISA : RF := ⟨R.AWL_INFO, 16, 8⟩
/-- R267 -/
def R.AWL_EXC_SUM_LO : Nat := 0x40C00010
def R.AWL_EXC_SUM_LO_ENG : RF := ⟨R.AWL_EXC_SUM_LO, 0, 32⟩
/-- R267 -/
def R.AWL_EXC_SUM_HI : Nat := 0x40C00014
def R.AWL_EXC_SUM_HI_ENG : RF := ⟨R.AWL_EXC_SUM_HI, 0, 32⟩
/-- R267 -/
def R.AWL_CLU_CFG (c : Nat) : Nat := 0x40C00100 + 0x4 * c
def R.AWL_CLU_CFG_LIMIT (c : Nat) : RF := ⟨R.AWL_CLU_CFG c, 0, 16⟩
def R.AWL_CLU_CFG_RESUME (c : Nat) : RF := ⟨R.AWL_CLU_CFG c, 16, 1⟩
/-- R292 -/
def R.AWL_EVT (c : Nat) : Nat := 0x40C00200 + 0x4 * c
def R.AWL_EVT_SET (c : Nat) : RF := ⟨R.AWL_EVT c, 0, 8⟩
/-- R44 -/
def R.AWL_FCTL (e : Nat) : Nat := 0x40C10000 + 0x100 * e
def R.AWL_FCTL_EN (e : Nat) : RF := ⟨R.AWL_FCTL e, 0, 1⟩
def R.AWL_FCTL_DRAIN_EXP (e : Nat) : RF := ⟨R.AWL_FCTL e, 4, 4⟩
/-- R45 -/
def R.AWL_FSTAT (e : Nat) : Nat := 0x40C10004 + 0x100 * e
def R.AWL_FSTAT_STATE (e : Nat) : RF := ⟨R.AWL_FSTAT e, 0, 2⟩
def R.AWL_FSTAT_PEND (e : Nat) : RF := ⟨R.AWL_FSTAT e, 2, 1⟩
def R.AWL_FSTAT_CLOSED_EV (e : Nat) : RF := ⟨R.AWL_FSTAT e, 3, 1⟩
def R.AWL_FSTAT_TIMED_OUT (e : Nat) : RF := ⟨R.AWL_FSTAT e, 4, 1⟩
def R.AWL_FSTAT_ABORTED (e : Nat) : RF := ⟨R.AWL_FSTAT e, 16, 16⟩
/-- R268 -/
def R.AWL_THR_STAT (e : Nat) (t : Nat) : Nat := 0x40C10040 + 0x100 * e + 0x20 * t
def R.AWL_THR_STAT_STATE (e : Nat) (t : Nat) : RF := ⟨R.AWL_THR_STAT e t, 0, 3⟩
def R.AWL_THR_STAT_PRIV (e : Nat) (t : Nat) : RF := ⟨R.AWL_THR_STAT e t, 3, 1⟩
def R.AWL_THR_STAT_EXPRESS (e : Nat) (t : Nat) : RF := ⟨R.AWL_THR_STAT e t, 4, 1⟩
def R.AWL_THR_STAT_CMD_ERR (e : Nat) (t : Nat) : RF := ⟨R.AWL_THR_STAT e t, 5, 1⟩
def R.AWL_THR_STAT_CODE (e : Nat) (t : Nat) : RF := ⟨R.AWL_THR_STAT e t, 8, 5⟩
def R.AWL_THR_STAT_EXC_EV (e : Nat) (t : Nat) : RF := ⟨R.AWL_THR_STAT e t, 13, 1⟩
def R.AWL_THR_STAT_OVF (e : Nat) (t : Nat) : RF := ⟨R.AWL_THR_STAT e t, 14, 1⟩
def R.AWL_THR_STAT_EXC_CNT (e : Nat) (t : Nat) : RF := ⟨R.AWL_THR_STAT e t, 16, 16⟩
/-- R268 -/
def R.AWL_THR_CMD (e : Nat) (t : Nat) : Nat := 0x40C10044 + 0x100 * e + 0x20 * t
def R.AWL_THR_CMD_OP (e : Nat) (t : Nat) : RF := ⟨R.AWL_THR_CMD e t, 0, 2⟩
def R.AWL_THR_CMD_ENTRY (e : Nat) (t : Nat) : RF := ⟨R.AWL_THR_CMD e t, 2, 15⟩
/-- R268 -/
def R.AWL_EXC_PC (e : Nat) (t : Nat) : Nat := 0x40C10048 + 0x100 * e + 0x20 * t
def R.AWL_EXC_PC_PC (e : Nat) (t : Nat) : RF := ⟨R.AWL_EXC_PC e t, 0, 17⟩
/-- R268 -/
def R.AWL_EXC_INSN (e : Nat) (t : Nat) : Nat := 0x40C1004C + 0x100 * e + 0x20 * t
def R.AWL_EXC_INSN_INSN (e : Nat) (t : Nat) : RF := ⟨R.AWL_EXC_INSN e t, 0, 32⟩
/-- R268 -/
def R.AWL_EXC_ADDR_LO (e : Nat) (t : Nat) : Nat := 0x40C10050 + 0x100 * e + 0x20 * t
def R.AWL_EXC_ADDR_LO_ADDR (e : Nat) (t : Nat) : RF := ⟨R.AWL_EXC_ADDR_LO e t, 0, 32⟩
/-- R268 -/
def R.AWL_EXC_ADDR_HI (e : Nat) (t : Nat) : Nat := 0x40C10054 + 0x100 * e + 0x20 * t
def R.AWL_EXC_ADDR_HI_ADDR (e : Nat) (t : Nat) : RF := ⟨R.AWL_EXC_ADDR_HI e t, 0, 32⟩
/-- R268 -/
def R.AWL_EXC_INFO (e : Nat) (t : Nat) : Nat := 0x40C10058 + 0x100 * e + 0x20 * t
def R.AWL_EXC_INFO_IMM (e : Nat) (t : Nat) : RF := ⟨R.AWL_EXC_INFO e t, 0, 16⟩
def R.AWL_EXC_INFO_BUS (e : Nat) (t : Nat) : RF := ⟨R.AWL_EXC_INFO e t, 16, 2⟩
/-- R335 -/
def R.CKR_CTL : Nat := 0x40B00000
def R.CKR_CTL_MODE : RF := ⟨R.CKR_CTL, 0, 1⟩
def R.CKR_CTL_PM_RING : RF := ⟨R.CKR_CTL, 1, 6⟩
def R.CKR_CTL_PM_POOL : RF := ⟨R.CKR_CTL, 7, 4⟩
/-- R335 -/
def R.CKR_STAT : Nat := 0x40B00004
def R.CKR_STAT_CFG_ERR : RF := ⟨R.CKR_STAT, 0, 1⟩
def R.CKR_STAT_BUS_EV : RF := ⟨R.CKR_STAT, 1, 1⟩
def R.CKR_STAT_HALF_EV : RF := ⟨R.CKR_STAT, 2, 1⟩
/-- R313 -/
def R.CKR_DEF_W0 (s : Nat) : Nat := 0x40B00040 + 0x10 * s
def R.CKR_DEF_W0_POOL (s : Nat) : RF := ⟨R.CKR_DEF_W0 s, 0, 4⟩
def R.CKR_DEF_W0_KIND (s : Nat) : RF := ⟨R.CKR_DEF_W0 s, 4, 2⟩
def R.CKR_DEF_W0_DEST (s : Nat) : RF := ⟨R.CKR_DEF_W0 s, 6, 14⟩
/-- R313 -/
def R.CKR_DEF_W1 (s : Nat) : Nat := 0x40B00044 + 0x10 * s
def R.CKR_DEF_W1_USER (s : Nat) : RF := ⟨R.CKR_DEF_W1 s, 0, 32⟩
/-- R309 -/
def R.CKR_POOL_CFG (p : Nat) : Nat := 0x40B00200 + 0x20 * p
def R.CKR_POOL_CFG_EN (p : Nat) : RF := ⟨R.CKR_POOL_CFG p, 0, 1⟩
def R.CKR_POOL_CFG_LOC (p : Nat) : RF := ⟨R.CKR_POOL_CFG p, 1, 1⟩
def R.CKR_POOL_CFG_RESV (p : Nat) : RF := ⟨R.CKR_POOL_CFG p, 2, 1⟩
def R.CKR_POOL_CFG_MTU (p : Nat) : RF := ⟨R.CKR_POOL_CFG p, 4, 15⟩
/-- R309 -/
def R.CKR_POOL_FIRST (p : Nat) : Nat := 0x40B00204 + 0x20 * p
def R.CKR_POOL_FIRST_FIRST (p : Nat) : RF := ⟨R.CKR_POOL_FIRST p, 0, 22⟩
/-- R309 -/
def R.CKR_POOL_COUNT (p : Nat) : Nat := 0x40B00208 + 0x20 * p
def R.CKR_POOL_COUNT_COUNT (p : Nat) : RF := ⟨R.CKR_POOL_COUNT p, 0, 23⟩
/-- R309 -/
def R.CKR_POOL_LINK_LO (p : Nat) : Nat := 0x40B0020C + 0x20 * p
def R.CKR_POOL_LINK_LO_LINK_LO (p : Nat) : RF := ⟨R.CKR_POOL_LINK_LO p, 0, 32⟩
/-- R309 -/
def R.CKR_POOL_LINK_HI (p : Nat) : Nat := 0x40B00210 + 0x20 * p
def R.CKR_POOL_LINK_HI_LINK_HI (p : Nat) : RF := ⟨R.CKR_POOL_LINK_HI p, 0, 8⟩
/-- R309 -/
def R.CKR_POOL_FREE (p : Nat) : Nat := 0x40B00214 + 0x20 * p
def R.CKR_POOL_FREE_FREE (p : Nat) : RF := ⟨R.CKR_POOL_FREE p, 0, 23⟩
/-- R309 -/
def R.CKR_POOL_LOW (p : Nat) : Nat := 0x40B00218 + 0x20 * p
def R.CKR_POOL_LOW_LOW (p : Nat) : RF := ⟨R.CKR_POOL_LOW p, 0, 23⟩
def R.CKR_POOL_LOW_LOW_CLR (p : Nat) : RF := ⟨R.CKR_POOL_LOW p, 31, 1⟩
/-- R311 -/
def R.CKR_PM_W0 (n : Nat) : Nat := 0x40B00400 + 0x10 * n
def R.CKR_PM_W0_DA_LO (n : Nat) : RF := ⟨R.CKR_PM_W0 n, 0, 32⟩
/-- R311 -/
def R.CKR_PM_W1 (n : Nat) : Nat := 0x40B00404 + 0x10 * n
def R.CKR_PM_W1_DA_HI (n : Nat) : RF := ⟨R.CKR_PM_W1 n, 0, 16⟩
def R.CKR_PM_W1_ETYPE (n : Nat) : RF := ⟨R.CKR_PM_W1 n, 16, 16⟩
/-- R311 -/
def R.CKR_PM_W2 (n : Nat) : Nat := 0x40B00408 + 0x10 * n
def R.CKR_PM_W2_PORTS (n : Nat) : RF := ⟨R.CKR_PM_W2 n, 0, 16⟩
def R.CKR_PM_W2_EN (n : Nat) : RF := ⟨R.CKR_PM_W2 n, 16, 1⟩
def R.CKR_PM_W2_ET_EN (n : Nat) : RF := ⟨R.CKR_PM_W2 n, 17, 1⟩
/-- R44 -/
def R.CKR_RING_FCTL (r : Nat) : Nat := 0x40B00800 + 0x20 * r
def R.CKR_RING_FCTL_EN (r : Nat) : RF := ⟨R.CKR_RING_FCTL r, 0, 1⟩
def R.CKR_RING_FCTL_DRAIN_EXP (r : Nat) : RF := ⟨R.CKR_RING_FCTL r, 4, 4⟩
/-- R45 -/
def R.CKR_RING_FSTAT (r : Nat) : Nat := 0x40B00804 + 0x20 * r
def R.CKR_RING_FSTAT_STATE (r : Nat) : RF := ⟨R.CKR_RING_FSTAT r, 0, 2⟩
def R.CKR_RING_FSTAT_PEND (r : Nat) : RF := ⟨R.CKR_RING_FSTAT r, 2, 1⟩
def R.CKR_RING_FSTAT_CLOSED_EV (r : Nat) : RF := ⟨R.CKR_RING_FSTAT r, 3, 1⟩
def R.CKR_RING_FSTAT_TIMED_OUT (r : Nat) : RF := ⟨R.CKR_RING_FSTAT r, 4, 1⟩
def R.CKR_RING_FSTAT_ABORTED (r : Nat) : RF := ⟨R.CKR_RING_FSTAT r, 16, 16⟩
/-- R334 -/
def R.CKR_RING_CFG (r : Nat) : Nat := 0x40B00808 + 0x20 * r
def R.CKR_RING_CFG_MODE (r : Nat) : RF := ⟨R.CKR_RING_CFG r, 0, 2⟩
def R.CKR_RING_CFG_SIZE_EXP (r : Nat) : RF := ⟨R.CKR_RING_CFG r, 2, 4⟩
def R.CKR_RING_CFG_SLOT_EXP (r : Nat) : RF := ⟨R.CKR_RING_CFG r, 6, 3⟩
def R.CKR_RING_CFG_IRQ_EN (r : Nat) : RF := ⟨R.CKR_RING_CFG r, 9, 1⟩
def R.CKR_RING_CFG_ERR (r : Nat) : RF := ⟨R.CKR_RING_CFG r, 10, 1⟩
def R.CKR_RING_CFG_TXQ (r : Nat) : RF := ⟨R.CKR_RING_CFG r, 16, 14⟩
/-- R334 -/
def R.CKR_RING_BASE_LO (r : Nat) : Nat := 0x40B0080C + 0x20 * r
def R.CKR_RING_BASE_LO_BASE_LO (r : Nat) : RF := ⟨R.CKR_RING_BASE_LO r, 0, 32⟩
/-- R334 -/
def R.CKR_RING_HI (r : Nat) : Nat := 0x40B00810 + 0x20 * r
def R.CKR_RING_HI_BASE_HI (r : Nat) : RF := ⟨R.CKR_RING_HI r, 0, 8⟩
def R.CKR_RING_HI_DATA_HI (r : Nat) : RF := ⟨R.CKR_RING_HI r, 8, 8⟩
/-- R334 -/
def R.CKR_RING_DATA_LO (r : Nat) : Nat := 0x40B00814 + 0x20 * r
def R.CKR_RING_DATA_LO_DATA_LO (r : Nat) : RF := ⟨R.CKR_RING_DATA_LO r, 0, 32⟩
/-- R334 -/
def R.CKR_RING_PROD (r : Nat) : Nat := 0x40B00818 + 0x20 * r
def R.CKR_RING_PROD_PROD (r : Nat) : RF := ⟨R.CKR_RING_PROD r, 0, 32⟩
/-- R334 -/
def R.CKR_RING_CONS (r : Nat) : Nat := 0x40B0081C + 0x20 * r
def R.CKR_RING_CONS_CONS (r : Nat) : RF := ⟨R.CKR_RING_CONS r, 0, 32⟩
/-- R313 -/
def R.CKR_FLT_W0 (i : Nat) : Nat := 0x40B01000 + 0x20 * i
def R.CKR_FLT_W0_ETYPE (i : Nat) : RF := ⟨R.CKR_FLT_W0 i, 0, 16⟩
def R.CKR_FLT_W0_ETYPE_M (i : Nat) : RF := ⟨R.CKR_FLT_W0 i, 16, 16⟩
/-- R313 -/
def R.CKR_FLT_W1 (i : Nat) : Nat := 0x40B01004 + 0x20 * i
def R.CKR_FLT_W1_VID (i : Nat) : RF := ⟨R.CKR_FLT_W1 i, 0, 12⟩
def R.CKR_FLT_W1_VID_M (i : Nat) : RF := ⟨R.CKR_FLT_W1 i, 12, 12⟩
def R.CKR_FLT_W1_PCP (i : Nat) : RF := ⟨R.CKR_FLT_W1 i, 24, 3⟩
def R.CKR_FLT_W1_PCP_M (i : Nat) : RF := ⟨R.CKR_FLT_W1 i, 27, 3⟩
def R.CKR_FLT_W1_TAGM (i : Nat) : RF := ⟨R.CKR_FLT_W1 i, 30, 2⟩
/-- R313 -/
def R.CKR_FLT_W2 (i : Nat) : Nat := 0x40B01008 + 0x20 * i
def R.CKR_FLT_W2_PORTS (i : Nat) : RF := ⟨R.CKR_FLT_W2 i, 0, 16⟩
def R.CKR_FLT_W2_DAC (i : Nat) : RF := ⟨R.CKR_FLT_W2 i, 16, 3⟩
def R.CKR_FLT_W2_EN (i : Nat) : RF := ⟨R.CKR_FLT_W2 i, 19, 1⟩
def R.CKR_FLT_W2_POOL (i : Nat) : RF := ⟨R.CKR_FLT_W2 i, 20, 4⟩
def R.CKR_FLT_W2_KIND (i : Nat) : RF := ⟨R.CKR_FLT_W2 i, 24, 2⟩
/-- R313 -/
def R.CKR_FLT_W3 (i : Nat) : Nat := 0x40B0100C + 0x20 * i
def R.CKR_FLT_W3_DEST (i : Nat) : RF := ⟨R.CKR_FLT_W3 i, 0, 14⟩
/-- R313 -/
def R.CKR_FLT_W4 (i : Nat) : Nat := 0x40B01010 + 0x20 * i
def R.CKR_FLT_W4_USER (i : Nat) : RF := ⟨R.CKR_FLT_W4 i, 0, 32⟩
/-- R336 -/
def R.CKR_POOL_CNT_LO (p : Nat) (n : Nat) : Nat := 0x40B04000 + 0x20 * p + 0x8 * n
def R.CKR_POOL_CNT_LO_CNT (p : Nat) (n : Nat) : RF := ⟨R.CKR_POOL_CNT_LO p n, 0, 32⟩
/-- R336 -/
def R.CKR_POOL_CNT_HI (p : Nat) (n : Nat) : Nat := 0x40B04004 + 0x20 * p + 0x8 * n
def R.CKR_POOL_CNT_HI_CNT (p : Nat) (n : Nat) : RF := ⟨R.CKR_POOL_CNT_HI p n, 0, 8⟩
/-- R336 -/
def R.CKR_SRC_CNT_LO (s : Nat) (n : Nat) : Nat := 0x40B05000 + 0x20 * s + 0x8 * n
def R.CKR_SRC_CNT_LO_CNT (s : Nat) (n : Nat) : RF := ⟨R.CKR_SRC_CNT_LO s n, 0, 32⟩
/-- R336 -/
def R.CKR_SRC_CNT_HI (s : Nat) (n : Nat) : Nat := 0x40B05004 + 0x20 * s + 0x8 * n
def R.CKR_SRC_CNT_HI_CNT (s : Nat) (n : Nat) : RF := ⟨R.CKR_SRC_CNT_HI s n, 0, 8⟩
/-- R336 -/
def R.CKR_RING_CNT_LO (r : Nat) (n : Nat) : Nat := 0x40B06000 + 0x10 * r + 0x8 * n
def R.CKR_RING_CNT_LO_CNT (r : Nat) (n : Nat) : RF := ⟨R.CKR_RING_CNT_LO r n, 0, 32⟩
/-- R336 -/
def R.CKR_RING_CNT_HI (r : Nat) (n : Nat) : Nat := 0x40B06004 + 0x10 * r + 0x8 * n
def R.CKR_RING_CNT_HI_CNT (r : Nat) (n : Nat) : RF := ⟨R.CKR_RING_CNT_HI r n, 0, 8⟩
/-- R335 -/
def R.LAC_STAT : Nat := 0x40B80000
def R.LAC_STAT_HALF_EV : RF := ⟨R.LAC_STAT, 0, 1⟩
def R.LAC_STAT_WAITING : RF := ⟨R.LAC_STAT, 16, 13⟩
/-- R335 -/
def R.LAC_COMP : Nat := 0x40B80004
def R.LAC_COMP_ORD_USED : RF := ⟨R.LAC_COMP, 0, 12⟩
def R.LAC_COMP_EXP_USED : RF := ⟨R.LAC_COMP, 16, 5⟩
/-- R336 -/
def R.LAC_DROP_LO (n : Nat) : Nat := 0x40B82000 + 0x8 * n
def R.LAC_DROP_LO_CNT (n : Nat) : RF := ⟨R.LAC_DROP_LO n, 0, 32⟩
/-- R336 -/
def R.LAC_DROP_HI (n : Nat) : Nat := 0x40B82004 + 0x8 * n
def R.LAC_DROP_HI_CNT (n : Nat) : RF := ⟨R.LAC_DROP_HI n, 0, 8⟩
/-- R319 -/
def R.LAC_DOM_W0 (d : Nat) : Nat := 0x40B90000 + 0x8 * d
def R.LAC_DOM_W0_ENTRY (d : Nat) : RF := ⟨R.LAC_DOM_W0 d, 0, 15⟩
def R.LAC_DOM_W0_EXPRESS (d : Nat) : RF := ⟨R.LAC_DOM_W0 d, 15, 1⟩
def R.LAC_DOM_W0_MASK (d : Nat) : RF := ⟨R.LAC_DOM_W0 d, 16, 8⟩
def R.LAC_DOM_W0_EN (d : Nat) : RF := ⟨R.LAC_DOM_W0 d, 24, 1⟩
/-- R319 -/
def R.LAC_DOM_W1 (d : Nat) : Nat := 0x40B90004 + 0x8 * d
def R.LAC_DOM_W1_LIMIT (d : Nat) : RF := ⟨R.LAC_DOM_W1 d, 0, 12⟩
def R.LAC_DOM_W1_WAIT (d : Nat) : RF := ⟨R.LAC_DOM_W1 d, 16, 12⟩
/-- R336 -/
def R.TM_Q_CNT_LO (q : Nat) (n : Nat) : Nat := 0x40A40000 + 0x10 * q + 0x8 * n
def R.TM_Q_CNT_LO_CNT (q : Nat) (n : Nat) : RF := ⟨R.TM_Q_CNT_LO q n, 0, 32⟩
/-- R336 -/
def R.TM_Q_CNT_HI (q : Nat) (n : Nat) : Nat := 0x40A40004 + 0x10 * q + 0x8 * n
def R.TM_Q_CNT_HI_CNT (q : Nat) (n : Nat) : RF := ⟨R.TM_Q_CNT_HI q n, 0, 8⟩
/-- R44 -/
def R.TM_Q_FCTL (q : Nat) : Nat := 0x40A80000 + 0x20 * q
def R.TM_Q_FCTL_EN (q : Nat) : RF := ⟨R.TM_Q_FCTL q, 0, 1⟩
def R.TM_Q_FCTL_DRAIN_EXP (q : Nat) : RF := ⟨R.TM_Q_FCTL q, 4, 4⟩
/-- R45 -/
def R.TM_Q_FSTAT (q : Nat) : Nat := 0x40A80004 + 0x20 * q
def R.TM_Q_FSTAT_STATE (q : Nat) : RF := ⟨R.TM_Q_FSTAT q, 0, 2⟩
def R.TM_Q_FSTAT_PEND (q : Nat) : RF := ⟨R.TM_Q_FSTAT q, 2, 1⟩
def R.TM_Q_FSTAT_CLOSED_EV (q : Nat) : RF := ⟨R.TM_Q_FSTAT q, 3, 1⟩
def R.TM_Q_FSTAT_TIMED_OUT (q : Nat) : RF := ⟨R.TM_Q_FSTAT q, 4, 1⟩
def R.TM_Q_FSTAT_ABORTED (q : Nat) : RF := ⟨R.TM_Q_FSTAT q, 16, 16⟩
/-- R325 -/
def R.TM_Q_W2 (q : Nat) : Nat := 0x40A80008 + 0x20 * q
def R.TM_Q_W2_MAX_FRAMES (q : Nat) : RF := ⟨R.TM_Q_W2 q, 0, 16⟩
/-- R325 -/
def R.TM_Q_W3 (q : Nat) : Nat := 0x40A8000C + 0x20 * q
def R.TM_Q_W3_MAX_BUFS (q : Nat) : RF := ⟨R.TM_Q_W3 q, 0, 23⟩
/-- R325 -/
def R.TM_Q_W4 (q : Nat) : Nat := 0x40A80010 + 0x20 * q
def R.TM_Q_W4_FRAMES (q : Nat) : RF := ⟨R.TM_Q_W4 q, 0, 16⟩
/-- R325 -/
def R.TM_Q_W5 (q : Nat) : Nat := 0x40A80014 + 0x20 * q
def R.TM_Q_W5_BUFS (q : Nat) : RF := ⟨R.TM_Q_W5 q, 0, 23⟩
/-- R358 -/
def R.TM_STAT : Nat := 0x40A00000
def R.TM_STAT_CFG_ERR : RF := ⟨R.TM_STAT, 0, 1⟩
def R.TM_STAT_LEVEL_EV : RF := ⟨R.TM_STAT, 1, 1⟩
def R.TM_STAT_HALF_EV : RF := ⟨R.TM_STAT, 2, 1⟩
/-- R356 -/
def R.TM_EG_CFG (e : Nat) : Nat := 0x40A00200 + 0x10 * e
def R.TM_EG_CFG_OVH (e : Nat) : RF := ⟨R.TM_EG_CFG e, 0, 6⟩
/-- R356 -/
def R.TM_EG_VT (e : Nat) : Nat := 0x40A00204 + 0x10 * e
def R.TM_EG_VT_V (e : Nat) : RF := ⟨R.TM_EG_VT e, 0, 32⟩
/-- R356 -/
def R.TM_EG_STAT (e : Nat) : Nat := 0x40A00208 + 0x10 * e
def R.TM_EG_STAT_STRICT_BYTES (e : Nat) : RF := ⟨R.TM_EG_STAT e, 0, 24⟩
/-- R350 -/
def R.TM_SHP_RATE (k : Nat) : Nat := 0x40A04000 + 0x10 * k
def R.TM_SHP_RATE_MANT (k : Nat) : RF := ⟨R.TM_SHP_RATE k, 0, 12⟩
def R.TM_SHP_RATE_EXP (k : Nat) : RF := ⟨R.TM_SHP_RATE k, 12, 4⟩
/-- R350 -/
def R.TM_SHP_BURST (k : Nat) : Nat := 0x40A04004 + 0x10 * k
def R.TM_SHP_BURST_BURST (k : Nat) : RF := ⟨R.TM_SHP_BURST k, 0, 24⟩
def R.TM_SHP_BURST_OVH (k : Nat) : RF := ⟨R.TM_SHP_BURST k, 24, 6⟩
/-- R350 -/
def R.TM_SHP_CREDIT (k : Nat) : Nat := 0x40A04008 + 0x10 * k
def R.TM_SHP_CREDIT_CREDIT (k : Nat) : RF := ⟨R.TM_SHP_CREDIT k, 0, 26⟩
/-- R345 -/
def R.TM_MTR_CIR (m : Nat) : Nat := 0x40A10000 + 0x10 * m
def R.TM_MTR_CIR_RATE (m : Nat) : RF := ⟨R.TM_MTR_CIR m, 0, 32⟩
/-- R345 -/
def R.TM_MTR_PIR (m : Nat) : Nat := 0x40A10004 + 0x10 * m
def R.TM_MTR_PIR_RATE (m : Nat) : RF := ⟨R.TM_MTR_PIR m, 0, 32⟩
/-- R345 -/
def R.TM_MTR_CBS (m : Nat) : Nat := 0x40A10008 + 0x10 * m
def R.TM_MTR_CBS_CBS (m : Nat) : RF := ⟨R.TM_MTR_CBS m, 0, 24⟩
def R.TM_MTR_CBS_OVH (m : Nat) : RF := ⟨R.TM_MTR_CBS m, 24, 6⟩
/-- R345 -/
def R.TM_MTR_PBS (m : Nat) : Nat := 0x40A1000C + 0x10 * m
def R.TM_MTR_PBS_PBS (m : Nat) : RF := ⟨R.TM_MTR_PBS m, 0, 24⟩
def R.TM_MTR_PBS_YEL_DROP (m : Nat) : RF := ⟨R.TM_MTR_PBS m, 24, 1⟩
def R.TM_MTR_PBS_RED_DROP (m : Nat) : RF := ⟨R.TM_MTR_PBS m, 25, 1⟩
def R.TM_MTR_PBS_FILL (m : Nat) : RF := ⟨R.TM_MTR_PBS m, 26, 1⟩
/-- R345 -/
def R.TM_MTR_CNT_LO (m : Nat) (n : Nat) : Nat := 0x40A20000 + 0x20 * m + 0x8 * n
def R.TM_MTR_CNT_LO_CNT (m : Nat) (n : Nat) : RF := ⟨R.TM_MTR_CNT_LO m n, 0, 32⟩
/-- R345 -/
def R.TM_MTR_CNT_HI (m : Nat) (n : Nat) : Nat := 0x40A20004 + 0x20 * m + 0x8 * n
def R.TM_MTR_CNT_HI_CNT (m : Nat) (n : Nat) : RF := ⟨R.TM_MTR_CNT_HI m n, 0, 8⟩
/-- R346 -/
def R.TM_Q_W6 (q : Nat) : Nat := 0x40A80018 + 0x20 * q
def R.TM_Q_W6_EGRESS (q : Nat) : RF := ⟨R.TM_Q_W6 q, 0, 7⟩
def R.TM_Q_W6_LEVEL (q : Nat) : RF := ⟨R.TM_Q_W6 q, 7, 1⟩
def R.TM_Q_W6_SH_EN (q : Nat) : RF := ⟨R.TM_Q_W6 q, 8, 1⟩
def R.TM_Q_W6_SHAPER (q : Nat) : RF := ⟨R.TM_Q_W6 q, 9, 10⟩
/-- R346 -/
def R.TM_Q_W7 (q : Nat) : Nat := 0x40A8001C + 0x20 * q
def R.TM_Q_W7_WEIGHT (q : Nat) : RF := ⟨R.TM_Q_W7 q, 0, 16⟩
/-- R390 -/
def R.ETH_STAT : Nat := 0x40900000
def R.ETH_STAT_CFG_ERR : RF := ⟨R.ETH_STAT, 0, 1⟩
def R.ETH_STAT_PORT_HALF : RF := ⟨R.ETH_STAT, 8, 8⟩
/-- R388 -/
def R.ETH_RT_ARG (i : Nat) : Nat := 0x40900100 + 0x4 * i
def R.ETH_RT_ARG_ARG (i : Nat) : RF := ⟨R.ETH_RT_ARG i, 0, 32⟩
/-- R390 -/
def R.ETH_RT_CMD : Nat := 0x40900110
def R.ETH_RT_CMD_OP : RF := ⟨R.ETH_RT_CMD, 0, 3⟩
/-- R390 -/
def R.ETH_RT_RSP : Nat := 0x40900114
def R.ETH_RT_RSP_BUSY : RF := ⟨R.ETH_RT_RSP, 0, 1⟩
def R.ETH_RT_RSP_DONE_EV : RF := ⟨R.ETH_RT_RSP, 1, 1⟩
def R.ETH_RT_RSP_LOST : RF := ⟨R.ETH_RT_RSP, 2, 1⟩
def R.ETH_RT_RSP_STATUS : RF := ⟨R.ETH_RT_RSP, 4, 4⟩
/-- R390 -/
def R.ETH_RT_LPM_USED : Nat := 0x40900118
def R.ETH_RT_LPM_USED_USED : RF := ⟨R.ETH_RT_LPM_USED, 0, 16⟩
/-- R390 -/
def R.ETH_RT_EM_USED : Nat := 0x4090011C
def R.ETH_RT_EM_USED_USED : RF := ⟨R.ETH_RT_EM_USED, 0, 18⟩
/-- R390 -/
def R.ETH_WAKE_CTL : Nat := 0x40900200
def R.ETH_WAKE_CTL_PORT : RF := ⟨R.ETH_WAKE_CTL, 0, 3⟩
def R.ETH_WAKE_CTL_EN : RF := ⟨R.ETH_WAKE_CTL, 3, 1⟩
def R.ETH_WAKE_CTL_FRAME_EN : RF := ⟨R.ETH_WAKE_CTL, 4, 1⟩
def R.ETH_WAKE_CTL_PAT_EN : RF := ⟨R.ETH_WAKE_CTL, 5, 8⟩
def R.ETH_WAKE_CTL_LINK_EN : RF := ⟨R.ETH_WAKE_CTL, 13, 1⟩
/-- R390 -/
def R.ETH_WAKE_STAT : Nat := 0x40900204
def R.ETH_WAKE_STAT_CAUSE : RF := ⟨R.ETH_WAKE_STAT, 0, 2⟩
def R.ETH_WAKE_STAT_PAT : RF := ⟨R.ETH_WAKE_STAT, 2, 3⟩
/-- R388 -/
def R.ETH_WAKE_MASK (j : Nat) (i : Nat) : Nat := 0x40900300 + 0x20 * j + 0x4 * i
def R.ETH_WAKE_MASK_MASK (j : Nat) (i : Nat) : RF := ⟨R.ETH_WAKE_MASK j i, 0, 32⟩
/-- R388 -/
def R.ETH_WAKE_CRC (j : Nat) : Nat := 0x40900310 + 0x20 * j
def R.ETH_WAKE_CRC_CRC (j : Nat) : RF := ⟨R.ETH_WAKE_CRC j, 0, 32⟩
/-- R44 -/
def R.ETH_FCTL (n : Nat) : Nat := 0x40910000 + 0x2000 * n
def R.ETH_FCTL_EN (n : Nat) : RF := ⟨R.ETH_FCTL n, 0, 1⟩
def R.ETH_FCTL_DRAIN_EXP (n : Nat) : RF := ⟨R.ETH_FCTL n, 4, 4⟩
/-- R45 -/
def R.ETH_FSTAT (n : Nat) : Nat := 0x40910004 + 0x2000 * n
def R.ETH_FSTAT_STATE (n : Nat) : RF := ⟨R.ETH_FSTAT n, 0, 2⟩
def R.ETH_FSTAT_PEND (n : Nat) : RF := ⟨R.ETH_FSTAT n, 2, 1⟩
def R.ETH_FSTAT_CLOSED_EV (n : Nat) : RF := ⟨R.ETH_FSTAT n, 3, 1⟩
def R.ETH_FSTAT_TIMED_OUT (n : Nat) : RF := ⟨R.ETH_FSTAT n, 4, 1⟩
def R.ETH_FSTAT_ABORTED (n : Nat) : RF := ⟨R.ETH_FSTAT n, 16, 16⟩
/-- R389 -/
def R.ETH_CFG (n : Nat) : Nat := 0x40910008 + 0x2000 * n
def R.ETH_CFG_PAUSE_HONOUR (n : Nat) : RF := ⟨R.ETH_CFG n, 0, 1⟩
def R.ETH_CFG_PFC_HONOUR (n : Nat) : RF := ⟨R.ETH_CFG n, 1, 1⟩
def R.ETH_CFG_MAXLEN (n : Nat) : RF := ⟨R.ETH_CFG n, 4, 14⟩
def R.ETH_CFG_PFC_MASK (n : Nat) : RF := ⟨R.ETH_CFG n, 18, 7⟩
/-- R389 -/
def R.ETH_PSTAT (n : Nat) : Nat := 0x4091000C + 0x2000 * n
def R.ETH_PSTAT_SPEED (n : Nat) : RF := ⟨R.ETH_PSTAT n, 0, 3⟩
def R.ETH_PSTAT_LINK (n : Nat) : RF := ⟨R.ETH_PSTAT n, 3, 1⟩
def R.ETH_PSTAT_PAUSED (n : Nat) : RF := ⟨R.ETH_PSTAT n, 4, 1⟩
def R.ETH_PSTAT_HALF_EV (n : Nat) : RF := ⟨R.ETH_PSTAT n, 5, 1⟩
def R.ETH_PSTAT_FEC (n : Nat) : RF := ⟨R.ETH_PSTAT n, 6, 2⟩
/-- R388 -/
def R.ETH_ADDR_LO (n : Nat) : Nat := 0x40910010 + 0x2000 * n
def R.ETH_ADDR_LO_ADDR (n : Nat) : RF := ⟨R.ETH_ADDR_LO n, 0, 32⟩
/-- R388 -/
def R.ETH_ADDR_HI (n : Nat) : Nat := 0x40910014 + 0x2000 * n
def R.ETH_ADDR_HI_ADDR (n : Nat) : RF := ⟨R.ETH_ADDR_HI n, 0, 16⟩
/-- R389 -/
def R.ETH_PRE_CTL (n : Nat) : Nat := 0x40910020 + 0x2000 * n
def R.ETH_PRE_CTL_PRE_EN (n : Nat) : RF := ⟨R.ETH_PRE_CTL n, 0, 1⟩
def R.ETH_PRE_CTL_VERIFY_EN (n : Nat) : RF := ⟨R.ETH_PRE_CTL n, 1, 1⟩
def R.ETH_PRE_CTL_VERIFY_MS (n : Nat) : RF := ⟨R.ETH_PRE_CTL n, 2, 8⟩
def R.ETH_PRE_CTL_ADD_FRAG (n : Nat) : RF := ⟨R.ETH_PRE_CTL n, 10, 2⟩
def R.ETH_PRE_CTL_EXPRESS (n : Nat) : RF := ⟨R.ETH_PRE_CTL n, 12, 7⟩
/-- R389 -/
def R.ETH_PRE_STAT (n : Nat) : Nat := 0x40910024 + 0x2000 * n
def R.ETH_PRE_STAT_VERIFY (n : Nat) : RF := ⟨R.ETH_PRE_STAT n, 0, 3⟩
def R.ETH_PRE_STAT_ACTIVE (n : Nat) : RF := ⟨R.ETH_PRE_STAT n, 3, 1⟩
def R.ETH_PRE_STAT_HOLD (n : Nat) : RF := ⟨R.ETH_PRE_STAT n, 4, 1⟩
def R.ETH_PRE_STAT_FAIL_EV (n : Nat) : RF := ⟨R.ETH_PRE_STAT n, 5, 1⟩
/-- R390 -/
def R.ETH_GATE_CTL (n : Nat) : Nat := 0x40910040 + 0x2000 * n
def R.ETH_GATE_CTL_GATE_EN (n : Nat) : RF := ⟨R.ETH_GATE_CTL n, 0, 1⟩
def R.ETH_GATE_CTL_INIT_STATES (n : Nat) : RF := ⟨R.ETH_GATE_CTL n, 1, 8⟩
def R.ETH_GATE_CTL_GO (n : Nat) : RF := ⟨R.ETH_GATE_CTL n, 9, 1⟩
def R.ETH_GATE_CTL_CANCEL (n : Nat) : RF := ⟨R.ETH_GATE_CTL n, 10, 1⟩
/-- R390 -/
def R.ETH_GATE_STAT (n : Nat) : Nat := 0x40910044 + 0x2000 * n
def R.ETH_GATE_STAT_OPER (n : Nat) : RF := ⟨R.ETH_GATE_STAT n, 0, 1⟩
def R.ETH_GATE_STAT_ACTIVE (n : Nat) : RF := ⟨R.ETH_GATE_STAT n, 1, 1⟩
def R.ETH_GATE_STAT_PEND (n : Nat) : RF := ⟨R.ETH_GATE_STAT n, 2, 1⟩
def R.ETH_GATE_STAT_SWAP_EV (n : Nat) : RF := ⟨R.ETH_GATE_STAT n, 3, 1⟩
def R.ETH_GATE_STAT_VAL_ERR_EV (n : Nat) : RF := ⟨R.ETH_GATE_STAT n, 4, 1⟩
def R.ETH_GATE_STAT_STEP_EV (n : Nat) : RF := ⟨R.ETH_GATE_STAT n, 5, 1⟩
def R.ETH_GATE_STAT_CODE (n : Nat) : RF := ⟨R.ETH_GATE_STAT n, 6, 4⟩
def R.ETH_GATE_STAT_STATES (n : Nat) : RF := ⟨R.ETH_GATE_STAT n, 10, 8⟩
def R.ETH_GATE_STAT_ENTRY (n : Nat) : RF := ⟨R.ETH_GATE_STAT n, 18, 8⟩
def R.ETH_GATE_STAT_IN_EXT (n : Nat) : RF := ⟨R.ETH_GATE_STAT n, 26, 1⟩
def R.ETH_GATE_STAT_VAL_BUSY (n : Nat) : RF := ⟨R.ETH_GATE_STAT n, 27, 1⟩
/-- R390 -/
def R.ETH_BASE_NS (n : Nat) (b : Nat) : Nat := 0x40910060 + 0x2000 * n + 0x20 * b
def R.ETH_BASE_NS_NS (n : Nat) (b : Nat) : RF := ⟨R.ETH_BASE_NS n b, 0, 30⟩
/-- R390 -/
def R.ETH_BASE_S_LO (n : Nat) (b : Nat) : Nat := 0x40910064 + 0x2000 * n + 0x20 * b
def R.ETH_BASE_S_LO_S_LO (n : Nat) (b : Nat) : RF := ⟨R.ETH_BASE_S_LO n b, 0, 32⟩
/-- R390 -/
def R.ETH_BASE_S_HI (n : Nat) (b : Nat) : Nat := 0x40910068 + 0x2000 * n + 0x20 * b
def R.ETH_BASE_S_HI_S_HI (n : Nat) (b : Nat) : RF := ⟨R.ETH_BASE_S_HI n b, 0, 16⟩
/-- R390 -/
def R.ETH_CYCLE (n : Nat) (b : Nat) : Nat := 0x4091006C + 0x2000 * n + 0x20 * b
def R.ETH_CYCLE_CYCLE (n : Nat) (b : Nat) : RF := ⟨R.ETH_CYCLE n b, 0, 32⟩
/-- R390 -/
def R.ETH_EXT (n : Nat) (b : Nat) : Nat := 0x40910070 + 0x2000 * n + 0x20 * b
def R.ETH_EXT_EXT (n : Nat) (b : Nat) : RF := ⟨R.ETH_EXT n b, 0, 32⟩
/-- R390 -/
def R.ETH_COUNT (n : Nat) (b : Nat) : Nat := 0x40910074 + 0x2000 * n + 0x20 * b
def R.ETH_COUNT_COUNT (n : Nat) (b : Nat) : RF := ⟨R.ETH_COUNT n b, 0, 9⟩
/-- R389 -/
def R.ETH_SEC_CTL (n : Nat) : Nat := 0x409100A0 + 0x2000 * n
def R.ETH_SEC_CTL_TX_EN (n : Nat) : RF := ⟨R.ETH_SEC_CTL n, 0, 1⟩
def R.ETH_SEC_CTL_RX_EN (n : Nat) : RF := ⟨R.ETH_SEC_CTL n, 1, 1⟩
def R.ETH_SEC_CTL_KEY256 (n : Nat) : RF := ⟨R.ETH_SEC_CTL n, 2, 1⟩
def R.ETH_SEC_CTL_XPN (n : Nat) : RF := ⟨R.ETH_SEC_CTL n, 3, 1⟩
def R.ETH_SEC_CTL_INC_SCI (n : Nat) : RF := ⟨R.ETH_SEC_CTL n, 4, 1⟩
def R.ETH_SEC_CTL_CONF (n : Nat) : RF := ⟨R.ETH_SEC_CTL n, 5, 2⟩
def R.ETH_SEC_CTL_VALIDATE (n : Nat) : RF := ⟨R.ETH_SEC_CTL n, 7, 2⟩
def R.ETH_SEC_CTL_REPLAY (n : Nat) : RF := ⟨R.ETH_SEC_CTL n, 9, 1⟩
def R.ETH_SEC_CTL_TX_AN (n : Nat) : RF := ⟨R.ETH_SEC_CTL n, 10, 2⟩
def R.ETH_SEC_CTL_PN_EV (n : Nat) : RF := ⟨R.ETH_SEC_CTL n, 12, 1⟩
/-- R388 -/
def R.ETH_REPLAY_WIN (n : Nat) : Nat := 0x409100A8 + 0x2000 * n
def R.ETH_REPLAY_WIN_WIN (n : Nat) : RF := ⟨R.ETH_REPLAY_WIN n, 0, 32⟩
/-- R388 -/
def R.ETH_TX_SCI_LO (n : Nat) : Nat := 0x409100B0 + 0x2000 * n
def R.ETH_TX_SCI_LO_SCI (n : Nat) : RF := ⟨R.ETH_TX_SCI_LO n, 0, 32⟩
/-- R388 -/
def R.ETH_TX_SCI_HI (n : Nat) : Nat := 0x409100B4 + 0x2000 * n
def R.ETH_TX_SCI_HI_SCI (n : Nat) : RF := ⟨R.ETH_TX_SCI_HI n, 0, 32⟩
/-- R386 -/
def R.ETH_CNT_LO (n : Nat) (i : Nat) : Nat := 0x40910400 + 0x2000 * n + 0x8 * i
def R.ETH_CNT_LO_CNT (n : Nat) (i : Nat) : RF := ⟨R.ETH_CNT_LO n i, 0, 32⟩
/-- R386 -/
def R.ETH_CNT_HI (n : Nat) (i : Nat) : Nat := 0x40910404 + 0x2000 * n + 0x8 * i
def R.ETH_CNT_HI_CNT (n : Nat) (i : Nat) : RF := ⟨R.ETH_CNT_HI n i, 0, 8⟩
/-- R388 -/
def R.ETH_GE_W0 (n : Nat) (b : Nat) (i : Nat) : Nat := 0x40911000 + 0x2000 * n + 0x800 * b + 0x8 * i
def R.ETH_GE_W0_STATES (n : Nat) (b : Nat) (i : Nat) : RF := ⟨R.ETH_GE_W0 n b i, 0, 8⟩
def R.ETH_GE_W0_OP (n : Nat) (b : Nat) (i : Nat) : RF := ⟨R.ETH_GE_W0 n b i, 8, 2⟩
/-- R388 -/
def R.ETH_GE_W1 (n : Nat) (b : Nat) (i : Nat) : Nat := 0x40911004 + 0x2000 * n + 0x800 * b + 0x8 * i
def R.ETH_GE_W1_INTERVAL (n : Nat) (b : Nat) (i : Nat) : RF := ⟨R.ETH_GE_W1 n b i, 0, 32⟩
/-- R369 -/
def R.ETH_TX_KEY (n : Nat) (a : Nat) (w : Nat) : Nat := 0x40940000 + 0x2000 * n + 0x40 * a + 0x4 * w
def R.ETH_TX_KEY_KEY (n : Nat) (a : Nat) (w : Nat) : RF := ⟨R.ETH_TX_KEY n a w, 0, 32⟩
/-- R369 -/
def R.ETH_TX_SALT (n : Nat) (a : Nat) (w : Nat) : Nat := 0x40940020 + 0x2000 * n + 0x40 * a + 0x4 * w
def R.ETH_TX_SALT_SALT (n : Nat) (a : Nat) (w : Nat) : RF := ⟨R.ETH_TX_SALT n a w, 0, 32⟩
/-- R369 -/
def R.ETH_TX_SSCI (n : Nat) (a : Nat) : Nat := 0x4094002C + 0x2000 * n + 0x40 * a
def R.ETH_TX_SSCI_SSCI (n : Nat) (a : Nat) : RF := ⟨R.ETH_TX_SSCI n a, 0, 32⟩
/-- R369 -/
def R.ETH_TX_PN_LO (n : Nat) (a : Nat) : Nat := 0x40940030 + 0x2000 * n + 0x40 * a
def R.ETH_TX_PN_LO_PN (n : Nat) (a : Nat) : RF := ⟨R.ETH_TX_PN_LO n a, 0, 32⟩
/-- R369 -/
def R.ETH_TX_PN_HI (n : Nat) (a : Nat) : Nat := 0x40940034 + 0x2000 * n + 0x40 * a
def R.ETH_TX_PN_HI_PN (n : Nat) (a : Nat) : RF := ⟨R.ETH_TX_PN_HI n a, 0, 32⟩
/-- R369 -/
def R.ETH_TX_SA_CTL (n : Nat) (a : Nat) : Nat := 0x40940038 + 0x2000 * n + 0x40 * a
def R.ETH_TX_SA_CTL_IN_USE (n : Nat) (a : Nat) : RF := ⟨R.ETH_TX_SA_CTL n a, 0, 1⟩
/-- R369 -/
def R.ETH_RX_SCI_LO (n : Nat) (c : Nat) : Nat := 0x40940400 + 0x2000 * n + 0x200 * c
def R.ETH_RX_SCI_LO_SCI (n : Nat) (c : Nat) : RF := ⟨R.ETH_RX_SCI_LO n c, 0, 32⟩
/-- R369 -/
def R.ETH_RX_SCI_HI (n : Nat) (c : Nat) : Nat := 0x40940404 + 0x2000 * n + 0x200 * c
def R.ETH_RX_SCI_HI_SCI (n : Nat) (c : Nat) : RF := ⟨R.ETH_RX_SCI_HI n c, 0, 32⟩
/-- R369 -/
def R.ETH_RX_SC_CTL (n : Nat) (c : Nat) : Nat := 0x40940408 + 0x2000 * n + 0x200 * c
def R.ETH_RX_SC_CTL_EN (n : Nat) (c : Nat) : RF := ⟨R.ETH_RX_SC_CTL n c, 0, 1⟩
/-- R369 -/
def R.ETH_RX_KEY (n : Nat) (c : Nat) (a : Nat) (w : Nat) : Nat := 0x40940440 + 0x2000 * n + 0x200 * c + 0x40 * a + 0x4 * w
def R.ETH_RX_KEY_KEY (n : Nat) (c : Nat) (a : Nat) (w : Nat) : RF := ⟨R.ETH_RX_KEY n c a w, 0, 32⟩
/-- R369 -/
def R.ETH_RX_SALT (n : Nat) (c : Nat) (a : Nat) (w : Nat) : Nat := 0x40940460 + 0x2000 * n + 0x200 * c + 0x40 * a + 0x4 * w
def R.ETH_RX_SALT_SALT (n : Nat) (c : Nat) (a : Nat) (w : Nat) : RF := ⟨R.ETH_RX_SALT n c a w, 0, 32⟩
/-- R369 -/
def R.ETH_RX_SSCI (n : Nat) (c : Nat) (a : Nat) : Nat := 0x4094046C + 0x2000 * n + 0x200 * c + 0x40 * a
def R.ETH_RX_SSCI_SSCI (n : Nat) (c : Nat) (a : Nat) : RF := ⟨R.ETH_RX_SSCI n c a, 0, 32⟩
/-- R369 -/
def R.ETH_RX_PN_LO (n : Nat) (c : Nat) (a : Nat) : Nat := 0x40940470 + 0x2000 * n + 0x200 * c + 0x40 * a
def R.ETH_RX_PN_LO_PN (n : Nat) (c : Nat) (a : Nat) : RF := ⟨R.ETH_RX_PN_LO n c a, 0, 32⟩
/-- R369 -/
def R.ETH_RX_PN_HI (n : Nat) (c : Nat) (a : Nat) : Nat := 0x40940474 + 0x2000 * n + 0x200 * c + 0x40 * a
def R.ETH_RX_PN_HI_PN (n : Nat) (c : Nat) (a : Nat) : RF := ⟨R.ETH_RX_PN_HI n c a, 0, 32⟩
/-- R369 -/
def R.ETH_RX_SA_CTL (n : Nat) (c : Nat) (a : Nat) : Nat := 0x40940478 + 0x2000 * n + 0x200 * c + 0x40 * a
def R.ETH_RX_SA_CTL_IN_USE (n : Nat) (c : Nat) (a : Nat) : RF := ⟨R.ETH_RX_SA_CTL n c a, 0, 1⟩
/-- R385 -/
def R.ETH_SLOT_KEY_LO (k : Nat) : Nat := 0x40980000 + 0x20 * k
def R.ETH_SLOT_KEY_LO_KEY (k : Nat) : RF := ⟨R.ETH_SLOT_KEY_LO k, 0, 32⟩
/-- R385 -/
def R.ETH_SLOT_KEY_HI (k : Nat) : Nat := 0x40980004 + 0x20 * k
def R.ETH_SLOT_KEY_HI_KEY (k : Nat) : RF := ⟨R.ETH_SLOT_KEY_HI k, 0, 32⟩
/-- R385 -/
def R.ETH_SLOT_LPM_LO (k : Nat) : Nat := 0x40980008 + 0x20 * k
def R.ETH_SLOT_LPM_LO_RES (k : Nat) : RF := ⟨R.ETH_SLOT_LPM_LO k, 0, 32⟩
/-- R385 -/
def R.ETH_SLOT_LPM_HI (k : Nat) : Nat := 0x4098000C + 0x20 * k
def R.ETH_SLOT_LPM_HI_RES (k : Nat) : RF := ⟨R.ETH_SLOT_LPM_HI k, 0, 32⟩
/-- R385 -/
def R.ETH_SLOT_EM_LO (k : Nat) : Nat := 0x40980010 + 0x20 * k
def R.ETH_SLOT_EM_LO_RES (k : Nat) : RF := ⟨R.ETH_SLOT_EM_LO k, 0, 32⟩
/-- R385 -/
def R.ETH_SLOT_EM_HI (k : Nat) : Nat := 0x40980014 + 0x20 * k
def R.ETH_SLOT_EM_HI_RES (k : Nat) : RF := ⟨R.ETH_SLOT_EM_HI k, 0, 32⟩
/-- R44 -/
def R.LANE_FCTL (n : Nat) : Nat := 0x40700000 + 0x1000 * n
def R.LANE_FCTL_EN (n : Nat) : RF := ⟨R.LANE_FCTL n, 0, 1⟩
def R.LANE_FCTL_DRAIN_EXP (n : Nat) : RF := ⟨R.LANE_FCTL n, 4, 4⟩
/-- R45 -/
def R.LANE_FSTAT (n : Nat) : Nat := 0x40700004 + 0x1000 * n
def R.LANE_FSTAT_STATE (n : Nat) : RF := ⟨R.LANE_FSTAT n, 0, 2⟩
def R.LANE_FSTAT_PEND (n : Nat) : RF := ⟨R.LANE_FSTAT n, 2, 1⟩
def R.LANE_FSTAT_CLOSED_EV (n : Nat) : RF := ⟨R.LANE_FSTAT n, 3, 1⟩
def R.LANE_FSTAT_TIMED_OUT (n : Nat) : RF := ⟨R.LANE_FSTAT n, 4, 1⟩
def R.LANE_FSTAT_ABORTED (n : Nat) : RF := ⟨R.LANE_FSTAT n, 16, 16⟩
/-- R405 -/
def R.LANE_CTL (n : Nat) : Nat := 0x40700008 + 0x1000 * n
def R.LANE_CTL_RATE_MAX (n : Nat) : RF := ⟨R.LANE_CTL n, 0, 3⟩
def R.LANE_CTL_FEC_EN (n : Nat) : RF := ⟨R.LANE_CTL n, 3, 2⟩
def R.LANE_CTL_PROBE_EN (n : Nat) : RF := ⟨R.LANE_CTL n, 5, 1⟩
def R.LANE_CTL_PWR (n : Nat) : RF := ⟨R.LANE_CTL n, 6, 2⟩
def R.LANE_CTL_TRIES (n : Nat) : RF := ⟨R.LANE_CTL n, 8, 8⟩
def R.LANE_CTL_DET_PER (n : Nat) : RF := ⟨R.LANE_CTL n, 16, 8⟩
def R.LANE_CTL_RETRY (n : Nat) : RF := ⟨R.LANE_CTL n, 24, 1⟩
/-- R405 -/
def R.LANE_STAT (n : Nat) : Nat := 0x4070000C + 0x1000 * n
def R.LANE_STAT_STATE (n : Nat) : RF := ⟨R.LANE_STAT n, 0, 4⟩
def R.LANE_STAT_RATE (n : Nat) : RF := ⟨R.LANE_STAT n, 4, 3⟩
def R.LANE_STAT_LINK (n : Nat) : RF := ⟨R.LANE_STAT n, 7, 1⟩
def R.LANE_STAT_FEC (n : Nat) : RF := ⟨R.LANE_STAT n, 8, 2⟩
def R.LANE_STAT_FAILED (n : Nat) : RF := ⟨R.LANE_STAT n, 10, 5⟩
def R.LANE_STAT_NO_PARTNER_EV (n : Nat) : RF := ⟨R.LANE_STAT n, 15, 1⟩
def R.LANE_STAT_UP_EV (n : Nat) : RF := ⟨R.LANE_STAT n, 16, 1⟩
def R.LANE_STAT_DOWN_EV (n : Nat) : RF := ⟨R.LANE_STAT n, 17, 1⟩
def R.LANE_STAT_TRY (n : Nat) : RF := ⟨R.LANE_STAT n, 18, 8⟩
def R.LANE_STAT_CFG_ERR (n : Nat) : RF := ⟨R.LANE_STAT n, 26, 1⟩
/-- R405 -/
def R.LANE_TIMER (n : Nat) : Nat := 0x40700010 + 0x1000 * n
def R.LANE_TIMER_NEG_TO (n : Nat) : RF := ⟨R.LANE_TIMER n, 0, 8⟩
def R.LANE_TIMER_TRAIN_TO (n : Nat) : RF := ⟨R.LANE_TIMER n, 8, 8⟩
def R.LANE_TIMER_PROBE_MS (n : Nat) : RF := ⟨R.LANE_TIMER n, 16, 8⟩
/-- R405 -/
def R.LANE_NEG_ID (n : Nat) : Nat := 0x40700014 + 0x1000 * n
def R.LANE_NEG_ID_NEG_ID (n : Nat) : RF := ⟨R.LANE_NEG_ID n, 0, 24⟩
/-- R405 -/
def R.LANE_TEST (n : Nat) : Nat := 0x40700020 + 0x1000 * n
def R.LANE_TEST_MODE (n : Nat) : RF := ⟨R.LANE_TEST n, 0, 2⟩
def R.LANE_TEST_PAT (n : Nat) : RF := ⟨R.LANE_TEST n, 2, 2⟩
def R.LANE_TEST_TEST_RATE (n : Nat) : RF := ⟨R.LANE_TEST n, 4, 3⟩
def R.LANE_TEST_INJ (n : Nat) : RF := ⟨R.LANE_TEST n, 7, 2⟩
def R.LANE_TEST_INJ_GO (n : Nat) : RF := ⟨R.LANE_TEST n, 9, 1⟩
def R.LANE_TEST_BURST_LEN (n : Nat) : RF := ⟨R.LANE_TEST n, 10, 8⟩
def R.LANE_TEST_RATE_EXP (n : Nat) : RF := ⟨R.LANE_TEST n, 18, 5⟩
def R.LANE_TEST_LOCK (n : Nat) : RF := ⟨R.LANE_TEST n, 23, 1⟩
def R.LANE_TEST_LOCK_LOST_EV (n : Nat) : RF := ⟨R.LANE_TEST n, 24, 1⟩
def R.LANE_TEST_CLR (n : Nat) : RF := ⟨R.LANE_TEST n, 25, 1⟩
/-- R405 -/
def R.LANE_ERR_CNT (n : Nat) : Nat := 0x40700024 + 0x1000 * n
def R.LANE_ERR_CNT_ERR_CNT (n : Nat) : RF := ⟨R.LANE_ERR_CNT n, 0, 32⟩
/-- R405 -/
def R.LANE_BIT_LO (n : Nat) : Nat := 0x40700028 + 0x1000 * n
def R.LANE_BIT_LO_BIT_CNT (n : Nat) : RF := ⟨R.LANE_BIT_LO n, 0, 32⟩
/-- R405 -/
def R.LANE_BIT_HI (n : Nat) : Nat := 0x4070002C + 0x1000 * n
def R.LANE_BIT_HI_BIT_CNT (n : Nat) : RF := ⟨R.LANE_BIT_HI n, 0, 16⟩
/-- R405 -/
def R.LANE_CNT (n : Nat) : Nat := 0x40700030 + 0x1000 * n
def R.LANE_CNT_TRAIN_FAIL (n : Nat) : RF := ⟨R.LANE_CNT n, 0, 16⟩
def R.LANE_CNT_LINK_DOWN (n : Nat) : RF := ⟨R.LANE_CNT n, 16, 16⟩
/-- R423 -/
def R.UZL_CTL : Nat := 0x40800000
def R.UZL_CTL_TIME_LOCAL : RF := ⟨R.UZL_CTL, 0, 1⟩
def R.UZL_CTL_DEF_EN : RF := ⟨R.UZL_CTL, 1, 1⟩
def R.UZL_CTL_DEF_HOP : RF := ⟨R.UZL_CTL, 2, 2⟩
def R.UZL_CTL_RESP_HOP : RF := ⟨R.UZL_CTL, 8, 8⟩
/-- R423 -/
def R.UZL_ID : Nat := 0x40800004
def R.UZL_ID_ID : RF := ⟨R.UZL_ID, 0, 32⟩
/-- R423 -/
def R.UZL_STAT : Nat := 0x40800008
def R.UZL_STAT_CFG_ERR : RF := ⟨R.UZL_STAT, 0, 1⟩
def R.UZL_STAT_FLOOD : RF := ⟨R.UZL_STAT, 1, 1⟩
def R.UZL_STAT_RING_STATE : RF := ⟨R.UZL_STAT, 2, 2⟩
def R.UZL_STAT_RING_EV : RF := ⟨R.UZL_STAT, 4, 1⟩
def R.UZL_STAT_HALF_EV : RF := ⟨R.UZL_STAT, 5, 1⟩
def R.UZL_STAT_BLOCKED : RF := ⟨R.UZL_STAT, 6, 4⟩
/-- R423 -/
def R.UZL_RING : Nat := 0x40800010
def R.UZL_RING_EN : RF := ⟨R.UZL_RING, 0, 1⟩
def R.UZL_RING_HOP_A : RF := ⟨R.UZL_RING, 1, 2⟩
def R.UZL_RING_HOP_B : RF := ⟨R.UZL_RING, 3, 2⟩
def R.UZL_RING_OWNER : RF := ⟨R.UZL_RING, 5, 1⟩
def R.UZL_RING_OWNER_HOP : RF := ⟨R.UZL_RING, 6, 1⟩
def R.UZL_RING_WTR : RF := ⟨R.UZL_RING, 8, 8⟩
/-- R423 -/
def R.UZL_RT_ARG0 : Nat := 0x40800020
def R.UZL_RT_ARG0_ID : RF := ⟨R.UZL_RT_ARG0, 0, 32⟩
/-- R423 -/
def R.UZL_RT_ARG1 : Nat := 0x40800024
def R.UZL_RT_ARG1_HOP : RF := ⟨R.UZL_RT_ARG1, 0, 2⟩
def R.UZL_RT_ARG1_RING : RF := ⟨R.UZL_RT_ARG1, 2, 1⟩
/-- R423 -/
def R.UZL_RT_CMD : Nat := 0x40800028
def R.UZL_RT_CMD_OP : RF := ⟨R.UZL_RT_CMD, 0, 2⟩
/-- R423 -/
def R.UZL_RT_RSP : Nat := 0x4080002C
def R.UZL_RT_RSP_BUSY : RF := ⟨R.UZL_RT_RSP, 0, 1⟩
def R.UZL_RT_RSP_DONE_EV : RF := ⟨R.UZL_RT_RSP, 1, 1⟩
def R.UZL_RT_RSP_LOST : RF := ⟨R.UZL_RT_RSP, 2, 1⟩
def R.UZL_RT_RSP_STATUS : RF := ⟨R.UZL_RT_RSP, 4, 4⟩
/-- R423 -/
def R.UZL_RT_USED : Nat := 0x40800030
def R.UZL_RT_USED_USED : RF := ⟨R.UZL_RT_USED, 0, 13⟩
/-- R423 -/
def R.UZL_RREQ_LO (i : Nat) : Nat := 0x40800100 + 0x8 * i
def R.UZL_RREQ_LO_CNT (i : Nat) : RF := ⟨R.UZL_RREQ_LO i, 0, 32⟩
/-- R423 -/
def R.UZL_RREQ_HI (i : Nat) : Nat := 0x40800104 + 0x8 * i
def R.UZL_RREQ_HI_CNT (i : Nat) : RF := ⟨R.UZL_RREQ_HI i, 0, 8⟩
/-- R44 -/
def R.UZL_FCTL (h : Nat) : Nat := 0x40801000 + 0x100 * h
def R.UZL_FCTL_EN (h : Nat) : RF := ⟨R.UZL_FCTL h, 0, 1⟩
def R.UZL_FCTL_DRAIN_EXP (h : Nat) : RF := ⟨R.UZL_FCTL h, 4, 4⟩
/-- R45 -/
def R.UZL_FSTAT (h : Nat) : Nat := 0x40801004 + 0x100 * h
def R.UZL_FSTAT_STATE (h : Nat) : RF := ⟨R.UZL_FSTAT h, 0, 2⟩
def R.UZL_FSTAT_PEND (h : Nat) : RF := ⟨R.UZL_FSTAT h, 2, 1⟩
def R.UZL_FSTAT_CLOSED_EV (h : Nat) : RF := ⟨R.UZL_FSTAT h, 3, 1⟩
def R.UZL_FSTAT_TIMED_OUT (h : Nat) : RF := ⟨R.UZL_FSTAT h, 4, 1⟩
def R.UZL_FSTAT_ABORTED (h : Nat) : RF := ⟨R.UZL_FSTAT h, 16, 16⟩
/-- R423 -/
def R.UZL_CFG (h : Nat) : Nat := 0x40801008 + 0x100 * h
def R.UZL_CFG_HELLO_MS (h : Nat) : RF := ⟨R.UZL_CFG h, 0, 8⟩
def R.UZL_CFG_RMGMT (h : Nat) : RF := ⟨R.UZL_CFG h, 8, 1⟩
/-- R423 -/
def R.UZL_LINK_DELAY (h : Nat) : Nat := 0x4080100C + 0x100 * h
def R.UZL_LINK_DELAY_DELAY (h : Nat) : RF := ⟨R.UZL_LINK_DELAY h, 0, 32⟩
/-- R423 -/
def R.UZL_NBR_ID (h : Nat) : Nat := 0x40801010 + 0x100 * h
def R.UZL_NBR_ID_ID (h : Nat) : RF := ⟨R.UZL_NBR_ID h, 0, 32⟩
/-- R423 -/
def R.UZL_NBR_STAT (h : Nat) : Nat := 0x40801014 + 0x100 * h
def R.UZL_NBR_STAT_VALID (h : Nat) : RF := ⟨R.UZL_NBR_STAT h, 0, 1⟩
def R.UZL_NBR_STAT_NBR_HOP (h : Nat) : RF := ⟨R.UZL_NBR_STAT h, 1, 2⟩
def R.UZL_NBR_STAT_NBR_EV (h : Nat) : RF := ⟨R.UZL_NBR_STAT h, 5, 1⟩
def R.UZL_NBR_STAT_DOWN (h : Nat) : RF := ⟨R.UZL_NBR_STAT h, 6, 1⟩
def R.UZL_NBR_STAT_NBR_RING (h : Nat) : RF := ⟨R.UZL_NBR_STAT h, 3, 1⟩
def R.UZL_NBR_STAT_NBR_OWNER (h : Nat) : RF := ⟨R.UZL_NBR_STAT h, 4, 1⟩
/-- R424 -/
def R.UZL_HCNT_LO (h : Nat) (i : Nat) : Nat := 0x40801040 + 0x100 * h + 0x8 * i
def R.UZL_HCNT_LO_CNT (h : Nat) (i : Nat) : RF := ⟨R.UZL_HCNT_LO h i, 0, 32⟩
/-- R424 -/
def R.UZL_HCNT_HI (h : Nat) (i : Nat) : Nat := 0x40801044 + 0x100 * h + 0x8 * i
def R.UZL_HCNT_HI_CNT (h : Nat) (i : Nat) : RF := ⟨R.UZL_HCNT_HI h i, 0, 8⟩
/-- R455 -/
def R.TIME_CTL : Nat := 0x40600000
def R.TIME_CTL_STEP_EN : RF := ⟨R.TIME_CTL, 0, 1⟩
def R.TIME_CTL_SLEW_ABORT : RF := ⟨R.TIME_CTL, 1, 1⟩
def R.TIME_CTL_HOLD_END : RF := ⟨R.TIME_CTL, 2, 1⟩
/-- R455 -/
def R.TIME_STAT : Nat := 0x40600004
def R.TIME_STAT_TB_LOCK : RF := ⟨R.TIME_STAT, 0, 1⟩
def R.TIME_STAT_NT_VALID : RF := ⟨R.TIME_STAT, 1, 1⟩
def R.TIME_STAT_SLEWING : RF := ⟨R.TIME_STAT, 2, 1⟩
def R.TIME_STAT_HOLD : RF := ⟨R.TIME_STAT, 3, 1⟩
def R.TIME_STAT_STEP_EV : RF := ⟨R.TIME_STAT, 4, 1⟩
def R.TIME_STAT_TB_LOST_EV : RF := ⟨R.TIME_STAT, 5, 1⟩
def R.TIME_STAT_CARRIED : RF := ⟨R.TIME_STAT, 6, 1⟩
def R.TIME_STAT_CFG_ERR : RF := ⟨R.TIME_STAT, 7, 1⟩
def R.TIME_STAT_STEP_CNT : RF := ⟨R.TIME_STAT, 8, 8⟩
def R.TIME_STAT_HOLD_DISC : RF := ⟨R.TIME_STAT, 16, 16⟩
/-- R455 -/
def R.TIME_RATE : Nat := 0x40600008
def R.TIME_RATE_RATE : RF := ⟨R.TIME_RATE, 0, 32⟩
/-- R455 -/
def R.TIME_SLEW_MAX : Nat := 0x4060000C
def R.TIME_SLEW_MAX_MAX : RF := ⟨R.TIME_SLEW_MAX, 0, 31⟩
/-- R454 -/
def R.TIME_NT_SUB0 : Nat := 0x40600010
def R.TIME_NT_SUB0_SUB0 : RF := ⟨R.TIME_NT_SUB0, 0, 32⟩
/-- R455 -/
def R.TIME_NT_SUB1 : Nat := 0x40600014
def R.TIME_NT_SUB1_SUB1 : RF := ⟨R.TIME_NT_SUB1, 0, 16⟩
/-- R454 -/
def R.TIME_NT_S0 : Nat := 0x40600018
def R.TIME_NT_S0_S0 : RF := ⟨R.TIME_NT_S0, 0, 32⟩
/-- R455 -/
def R.TIME_NT_S1 : Nat := 0x4060001C
def R.TIME_NT_S1_S1 : RF := ⟨R.TIME_NT_S1, 0, 16⟩
/-- R454 -/
def R.TIME_ADJ_W (w : Nat) : Nat := 0x40600020 + 0x4 * w
def R.TIME_ADJ_W_W (w : Nat) : RF := ⟨R.TIME_ADJ_W w, 0, 32⟩
/-- R455 -/
def R.TIME_ADJ_CMD : Nat := 0x40600030
def R.TIME_ADJ_CMD_OP : RF := ⟨R.TIME_ADJ_CMD, 0, 2⟩
/-- R454 -/
def R.TIME_SLEW_REM_LO : Nat := 0x40600034
def R.TIME_SLEW_REM_LO_REM_LO : RF := ⟨R.TIME_SLEW_REM_LO, 0, 32⟩
/-- R454 -/
def R.TIME_SLEW_REM_HI : Nat := 0x40600038
def R.TIME_SLEW_REM_HI_REM_HI : RF := ⟨R.TIME_SLEW_REM_HI, 0, 32⟩
/-- R454 -/
def R.TIME_ET_LO : Nat := 0x40600040
def R.TIME_ET_LO_ET_LO : RF := ⟨R.TIME_ET_LO, 0, 32⟩
/-- R454 -/
def R.TIME_ET_HI : Nat := 0x40600044
def R.TIME_ET_HI_ET_HI : RF := ⟨R.TIME_ET_HI, 0, 32⟩
/-- R455 -/
def R.TIME_ET_ERR : Nat := 0x40600048
def R.TIME_ET_ERR_ERR : RF := ⟨R.TIME_ET_ERR, 0, 32⟩
/-- R455 -/
def R.TIME_NT_ERR : Nat := 0x4060004C
def R.TIME_NT_ERR_ERR : RF := ⟨R.TIME_NT_ERR, 0, 32⟩
/-- R455 -/
def R.TIME_RES : Nat := 0x40600050
def R.TIME_RES_MAX : RF := ⟨R.TIME_RES, 0, 16⟩
/-- R455 -/
def R.TIME_PATH_CFG : Nat := 0x40600054
def R.TIME_PATH_CFG_THRESH : RF := ⟨R.TIME_PATH_CFG, 0, 16⟩
def R.TIME_PATH_CFG_HOLD_N : RF := ⟨R.TIME_PATH_CFG, 16, 8⟩
def R.TIME_PATH_CFG_LOG_SYNC : RF := ⟨R.TIME_PATH_CFG, 24, 8⟩
/-- R455 -/
def R.TIME_SERVO : Nat := 0x40600058
def R.TIME_SERVO_PORT : RF := ⟨R.TIME_SERVO, 0, 4⟩
/-- R454 -/
def R.TIME_ASYM (p : Nat) : Nat := 0x40601000 + 0x100 * p
def R.TIME_ASYM_ASYM (p : Nat) : RF := ⟨R.TIME_ASYM p, 0, 32⟩
/-- R454 -/
def R.TIME_PATH (p : Nat) : Nat := 0x40601004 + 0x100 * p
def R.TIME_PATH_PATH (p : Nat) : RF := ⟨R.TIME_PATH p, 0, 32⟩
/-- R454 -/
def R.TIME_PATH_REF (p : Nat) : Nat := 0x40601008 + 0x100 * p
def R.TIME_PATH_REF_REF (p : Nat) : RF := ⟨R.TIME_PATH_REF p, 0, 32⟩
/-- R456 -/
def R.TIME_PSTAT (p : Nat) : Nat := 0x4060100C + 0x100 * p
def R.TIME_PSTAT_REF_VALID (p : Nat) : RF := ⟨R.TIME_PSTAT p, 0, 1⟩
def R.TIME_PSTAT_PATH_STEP_EV (p : Nat) : RF := ⟨R.TIME_PSTAT p, 1, 1⟩
def R.TIME_PSTAT_OVF (p : Nat) : RF := ⟨R.TIME_PSTAT p, 2, 1⟩
def R.TIME_PSTAT_LEVEL (p : Nat) : RF := ⟨R.TIME_PSTAT p, 16, 7⟩
/-- R456 -/
def R.TIME_LOST (p : Nat) : Nat := 0x40601010 + 0x100 * p
def R.TIME_LOST_LOST_TAG (p : Nat) : RF := ⟨R.TIME_LOST p, 0, 16⟩
def R.TIME_LOST_LOST_CNT (p : Nat) : RF := ⟨R.TIME_LOST p, 16, 16⟩
/-- R456 -/
def R.TIME_TSQ_POP (p : Nat) : Nat := 0x40601014 + 0x100 * p
def R.TIME_TSQ_POP_POP (p : Nat) : RF := ⟨R.TIME_TSQ_POP p, 0, 1⟩
/-- R454 -/
def R.TIME_TSQ_W (p : Nat) (w : Nat) : Nat := 0x40601020 + 0x100 * p + 0x4 * w
def R.TIME_TSQ_W_W (p : Nat) (w : Nat) : RF := ⟨R.TIME_TSQ_W p w, 0, 32⟩
/-- R456 -/
def R.TIME_CNT (p : Nat) : Nat := 0x40601040 + 0x100 * p
def R.TIME_CNT_PSTEP_CNT (p : Nat) : RF := ⟨R.TIME_CNT p, 0, 16⟩
def R.TIME_CNT_RES_BAD (p : Nat) : RF := ⟨R.TIME_CNT p, 16, 16⟩
/-- R456 -/
def R.TIME_PPS_CTL (n : Nat) : Nat := 0x40600200 + 0x20 * n
def R.TIME_PPS_CTL_MODE (n : Nat) : RF := ⟨R.TIME_PPS_CTL n, 0, 2⟩
def R.TIME_PPS_CTL_SRC (n : Nat) : RF := ⟨R.TIME_PPS_CTL n, 2, 1⟩
def R.TIME_PPS_CTL_POL (n : Nat) : RF := ⟨R.TIME_PPS_CTL n, 3, 1⟩
def R.TIME_PPS_CTL_FIRED (n : Nat) : RF := ⟨R.TIME_PPS_CTL n, 4, 1⟩
def R.TIME_PPS_CTL_LATE (n : Nat) : RF := ⟨R.TIME_PPS_CTL n, 5, 1⟩
/-- R456 -/
def R.TIME_PPS_START_W (n : Nat) (w : Nat) : Nat := 0x40600204 + 0x20 * n + 0x4 * w
def R.TIME_PPS_START_W_START (n : Nat) (w : Nat) : RF := ⟨R.TIME_PPS_START_W n w, 0, 32⟩
/-- R456 -/
def R.TIME_PPS_PERIOD (n : Nat) : Nat := 0x40600214 + 0x20 * n
def R.TIME_PPS_PERIOD_PERIOD (n : Nat) : RF := ⟨R.TIME_PPS_PERIOD n, 0, 32⟩
/-- R456 -/
def R.TIME_PPS_WIDTH (n : Nat) : Nat := 0x40600218 + 0x20 * n
def R.TIME_PPS_WIDTH_WIDTH (n : Nat) : RF := ⟨R.TIME_PPS_WIDTH n, 0, 32⟩
/-- R456 -/
def R.TIME_CAP_CTL (n : Nat) : Nat := 0x40600300 + 0x20 * n
def R.TIME_CAP_CTL_EDGE (n : Nat) : RF := ⟨R.TIME_CAP_CTL n, 0, 2⟩
/-- R456 -/
def R.TIME_CAP_STAT (n : Nat) : Nat := 0x40600304 + 0x20 * n
def R.TIME_CAP_STAT_LEVEL (n : Nat) : RF := ⟨R.TIME_CAP_STAT n, 0, 3⟩
def R.TIME_CAP_STAT_OVF_EV (n : Nat) : RF := ⟨R.TIME_CAP_STAT n, 3, 1⟩
def R.TIME_CAP_STAT_OVF_CNT (n : Nat) : RF := ⟨R.TIME_CAP_STAT n, 16, 16⟩
/-- R456 -/
def R.TIME_CAP_POP (n : Nat) : Nat := 0x40600308 + 0x20 * n
def R.TIME_CAP_POP_POP (n : Nat) : RF := ⟨R.TIME_CAP_POP n, 0, 1⟩
/-- R454 -/
def R.TIME_CAP_W (n : Nat) (w : Nat) : Nat := 0x40600310 + 0x20 * n + 0x4 * w
def R.TIME_CAP_W_W (n : Nat) (w : Nat) : RF := ⟨R.TIME_CAP_W n w, 0, 32⟩
/-- R460 -/
def R.SYS_CORE_CTL (n : Nat) : Nat := 0x40000600 + 0x10 * n
def R.SYS_CORE_CTL_RUN (n : Nat) : RF := ⟨R.SYS_CORE_CTL n, 0, 1⟩
/-- R460 -/
def R.SYS_CORE_ENTRY_LO (n : Nat) : Nat := 0x40000604 + 0x10 * n
def R.SYS_CORE_ENTRY_LO_ENTRY_LO (n : Nat) : RF := ⟨R.SYS_CORE_ENTRY_LO n, 0, 32⟩
/-- R460 -/
def R.SYS_CORE_ENTRY_HI (n : Nat) : Nat := 0x40000608 + 0x10 * n
def R.SYS_CORE_ENTRY_HI_ENTRY_HI (n : Nat) : RF := ⟨R.SYS_CORE_ENTRY_HI n, 0, 8⟩
/-- R460 -/
def R.SYS_CORE_STAT (n : Nat) : Nat := 0x4000060C + 0x10 * n
def R.SYS_CORE_STAT_STATE (n : Nat) : RF := ⟨R.SYS_CORE_STAT n, 0, 2⟩
/-- R477 -/
def R.BENCH_CFG : Nat := 0x40500000
def R.BENCH_CFG_RES_LEVELS : RF := ⟨R.BENCH_CFG, 0, 5⟩
def R.BENCH_CFG_CEIL : RF := ⟨R.BENCH_CFG, 8, 6⟩
def R.BENCH_CFG_AGE_TICKS : RF := ⟨R.BENCH_CFG, 16, 16⟩
/-- R477 -/
def R.BENCH_TICK : Nat := 0x40500004
def R.BENCH_TICK_PERIOD : RF := ⟨R.BENCH_TICK, 0, 16⟩
def R.BENCH_TICK_EN : RF := ⟨R.BENCH_TICK, 16, 1⟩
/-- R477 -/
def R.BENCH_STAT : Nat := 0x40500008
def R.BENCH_STAT_CFG_ERR : RF := ⟨R.BENCH_STAT, 0, 1⟩
/-- R477 -/
def R.BENCH_TICK_CNT : Nat := 0x4050000C
def R.BENCH_TICK_CNT_TICK_CNT : RF := ⟨R.BENCH_TICK_CNT, 0, 32⟩
/-- R477 -/
def R.BENCH_CNT0 : Nat := 0x40500010
def R.BENCH_CNT0_READY_DISC : RF := ⟨R.BENCH_CNT0, 0, 16⟩
def R.BENCH_CNT0_EV_DROP : RF := ⟨R.BENCH_CNT0, 16, 16⟩
/-- R477 -/
def R.BENCH_CNT1 : Nat := 0x40500014
def R.BENCH_CNT1_SIG_FULL : RF := ⟨R.BENCH_CNT1, 0, 16⟩
def R.BENCH_CNT1_AGED : RF := ⟨R.BENCH_CNT1, 16, 16⟩
/-- R476 -/
def R.BENCH_ARG (n : Nat) (i : Nat) : Nat := 0x40500100 + 0x40 * n + 0x4 * i
def R.BENCH_ARG_ARG (n : Nat) (i : Nat) : RF := ⟨R.BENCH_ARG n i, 0, 32⟩
/-- R477 -/
def R.BENCH_CMD (n : Nat) : Nat := 0x4050010C + 0x40 * n
def R.BENCH_CMD_OP (n : Nat) : RF := ⟨R.BENCH_CMD n, 0, 4⟩
def R.BENCH_CMD_THREAD (n : Nat) : RF := ⟨R.BENCH_CMD n, 4, 12⟩
/-- R477 -/
def R.BENCH_RSP (n : Nat) : Nat := 0x40500110 + 0x40 * n
def R.BENCH_RSP_BUSY (n : Nat) : RF := ⟨R.BENCH_RSP n, 0, 1⟩
def R.BENCH_RSP_ACK_STALE (n : Nat) : RF := ⟨R.BENCH_RSP n, 1, 1⟩
def R.BENCH_RSP_STATUS (n : Nat) : RF := ⟨R.BENCH_RSP n, 4, 4⟩
def R.BENCH_RSP_CODE (n : Nat) : RF := ⟨R.BENCH_RSP n, 16, 16⟩
/-- R477 -/
def R.BENCH_CUR (n : Nat) : Nat := 0x40500114 + 0x40 * n
def R.BENCH_CUR_THREAD (n : Nat) : RF := ⟨R.BENCH_CUR n, 0, 12⟩
def R.BENCH_CUR_IDLE (n : Nat) : RF := ⟨R.BENCH_CUR n, 12, 1⟩
/-- R477 -/
def R.BENCH_NEXT (n : Nat) : Nat := 0x40500118 + 0x40 * n
def R.BENCH_NEXT_THREAD (n : Nat) : RF := ⟨R.BENCH_NEXT n, 0, 12⟩
def R.BENCH_NEXT_IDLE (n : Nat) : RF := ⟨R.BENCH_NEXT n, 12, 1⟩
def R.BENCH_NEXT_CAUSE (n : Nat) : RF := ⟨R.BENCH_NEXT n, 13, 3⟩
/-- R477 -/
def R.BENCH_ACK (n : Nat) : Nat := 0x4050011C + 0x40 * n
def R.BENCH_ACK_THREAD (n : Nat) : RF := ⟨R.BENCH_ACK n, 0, 12⟩
def R.BENCH_ACK_IDLE (n : Nat) : RF := ⟨R.BENCH_ACK n, 12, 1⟩
/-- R477 -/
def R.BENCH_PMASK (n : Nat) : Nat := 0x40500120 + 0x40 * n
def R.BENCH_PMASK_PMASK (n : Nat) : RF := ⟨R.BENCH_PMASK n, 0, 1⟩
/-- R477 -/
def R.BENCH_QID (n : Nat) : Nat := 0x40500124 + 0x40 * n
def R.BENCH_QID_QID (n : Nat) : RF := ⟨R.BENCH_QID n, 0, 16⟩
/-- R477 -/
def R.BENCH_QDATA_LO (n : Nat) : Nat := 0x40500128 + 0x40 * n
def R.BENCH_QDATA_LO_DATA (n : Nat) : RF := ⟨R.BENCH_QDATA_LO n, 0, 32⟩
/-- R477 -/
def R.BENCH_QDATA_HI (n : Nat) : Nat := 0x4050012C + 0x40 * n
def R.BENCH_QDATA_HI_DATA (n : Nat) : RF := ⟨R.BENCH_QDATA_HI n, 0, 32⟩
/-- R477 -/
def R.BENCH_QCMD (n : Nat) : Nat := 0x40500130 + 0x40 * n
def R.BENCH_QCMD_OP (n : Nat) : RF := ⟨R.BENCH_QCMD n, 0, 2⟩
/-- R477 -/
def R.BENCH_QRSP (n : Nat) : Nat := 0x40500134 + 0x40 * n
def R.BENCH_QRSP_STATUS (n : Nat) : RF := ⟨R.BENCH_QRSP n, 0, 2⟩
def R.BENCH_QRSP_BUSY (n : Nat) : RF := ⟨R.BENCH_QRSP n, 2, 1⟩
/-- R477 -/
def R.BENCH_RSP_D0 (n : Nat) : Nat := 0x40500138 + 0x40 * n
def R.BENCH_RSP_D0_D (n : Nat) : RF := ⟨R.BENCH_RSP_D0 n, 0, 32⟩
/-- R477 -/
def R.BENCH_RSP_D1 (n : Nat) : Nat := 0x4050013C + 0x40 * n
def R.BENCH_RSP_D1_D (n : Nat) : RF := ⟨R.BENCH_RSP_D1 n, 0, 32⟩
/-- R477 -/
def R.BENCH_IRQ (i : Nat) : Nat := 0x40501000 + 0x4 * i
def R.BENCH_IRQ_THREAD (i : Nat) : RF := ⟨R.BENCH_IRQ i, 0, 12⟩
def R.BENCH_IRQ_EVBIT (i : Nat) : RF := ⟨R.BENCH_IRQ i, 12, 4⟩
def R.BENCH_IRQ_EN (i : Nat) : RF := ⟨R.BENCH_IRQ i, 16, 1⟩
def R.BENCH_IRQ_PEND (i : Nat) : RF := ⟨R.BENCH_IRQ i, 17, 1⟩
/-- R477 -/
def R.BENCH_THR_W0 (t : Nat) : Nat := 0x40510000 + 0x10 * t
def R.BENCH_THR_W0_STATE (t : Nat) : RF := ⟨R.BENCH_THR_W0 t, 0, 3⟩
def R.BENCH_THR_W0_TOMB (t : Nat) : RF := ⟨R.BENCH_THR_W0 t, 3, 1⟩
def R.BENCH_THR_W0_CANCEL_PEND (t : Nat) : RF := ⟨R.BENCH_THR_W0 t, 4, 1⟩
def R.BENCH_THR_W0_DISC (t : Nat) : RF := ⟨R.BENCH_THR_W0 t, 5, 1⟩
def R.BENCH_THR_W0_PRIO (t : Nat) : RF := ⟨R.BENCH_THR_W0 t, 8, 6⟩
def R.BENCH_THR_W0_EFF (t : Nat) : RF := ⟨R.BENCH_THR_W0 t, 16, 6⟩
/-- R477 -/
def R.BENCH_THR_W1 (t : Nat) : Nat := 0x40510004 + 0x10 * t
def R.BENCH_THR_W1_EVENTS (t : Nat) : RF := ⟨R.BENCH_THR_W1 t, 0, 32⟩
/-- R477 -/
def R.BENCH_THR_W2 (t : Nat) : Nat := 0x40510008 + 0x10 * t
def R.BENCH_THR_W2_WAKE (t : Nat) : RF := ⟨R.BENCH_THR_W2 t, 0, 32⟩
/-- R477 -/
def R.BENCH_THR_W3 (t : Nat) : Nat := 0x4051000C + 0x10 * t
def R.BENCH_THR_W3_WOKE (t : Nat) : RF := ⟨R.BENCH_THR_W3 t, 0, 32⟩
/-- R508 -/
def R.SHK_STAT : Nat := 0x40300000
def R.SHK_STAT_CFG_ERR : RF := ⟨R.SHK_STAT, 0, 1⟩
def R.SHK_STAT_ERR_EV : RF := ⟨R.SHK_STAT, 1, 1⟩
def R.SHK_STAT_ECC_EV : RF := ⟨R.SHK_STAT, 2, 1⟩
def R.SHK_STAT_LOCK_ERR : RF := ⟨R.SHK_STAT, 3, 1⟩
def R.SHK_STAT_HALF_EV : RF := ⟨R.SHK_STAT, 4, 1⟩
/-- R508 -/
def R.SHK_ERR_CNT_LO : Nat := 0x40300008
def R.SHK_ERR_CNT_LO_CNT : RF := ⟨R.SHK_ERR_CNT_LO, 0, 32⟩
/-- R508 -/
def R.SHK_ERR_CNT_HI : Nat := 0x4030000C
def R.SHK_ERR_CNT_HI_CNT : RF := ⟨R.SHK_ERR_CNT_HI, 0, 8⟩
/-- R508 -/
def R.SHK_SRAM_CE_LO : Nat := 0x40300010
def R.SHK_SRAM_CE_LO_CNT : RF := ⟨R.SHK_SRAM_CE_LO, 0, 32⟩
/-- R508 -/
def R.SHK_SRAM_CE_HI : Nat := 0x40300014
def R.SHK_SRAM_CE_HI_CNT : RF := ⟨R.SHK_SRAM_CE_HI, 0, 8⟩
/-- R508 -/
def R.SHK_SRAM_UE_LO : Nat := 0x40300018
def R.SHK_SRAM_UE_LO_CNT : RF := ⟨R.SHK_SRAM_UE_LO, 0, 32⟩
/-- R508 -/
def R.SHK_SRAM_UE_HI : Nat := 0x4030001C
def R.SHK_SRAM_UE_HI_CNT : RF := ⟨R.SHK_SRAM_UE_HI, 0, 8⟩
/-- R508 -/
def R.SHK_ERR_ADDR_LO : Nat := 0x40300020
def R.SHK_ERR_ADDR_LO_ADDR : RF := ⟨R.SHK_ERR_ADDR_LO, 0, 32⟩
/-- R508 -/
def R.SHK_ERR_ADDR_HI : Nat := 0x40300024
def R.SHK_ERR_ADDR_HI_ADDR : RF := ⟨R.SHK_ERR_ADDR_HI, 0, 8⟩
/-- R508 -/
def R.SHK_ERR_INFO : Nat := 0x40300028
def R.SHK_ERR_INFO_MASTER : RF := ⟨R.SHK_ERR_INFO, 0, 6⟩
def R.SHK_ERR_INFO_KIND : RF := ⟨R.SHK_ERR_INFO, 6, 2⟩
def R.SHK_ERR_INFO_WRITE : RF := ⟨R.SHK_ERR_INFO, 8, 1⟩
/-- R508 -/
def R.SHK_HINT_EN : Nat := 0x40300030
def R.SHK_HINT_EN_EN : RF := ⟨R.SHK_HINT_EN, 16, 7⟩
/-- R508 -/
def R.SHK_ARB_CFG (t : Nat) : Nat := 0x40300400 + 0x4 * t
def R.SHK_ARB_CFG_LIMIT (t : Nat) : RF := ⟨R.SHK_ARB_CFG t, 0, 8⟩
def R.SHK_ARB_CFG_WIN (t : Nat) : RF := ⟨R.SHK_ARB_CFG t, 8, 8⟩
def R.SHK_ARB_CFG_TURN_MAX (t : Nat) : RF := ⟨R.SHK_ARB_CFG t, 16, 4⟩
def R.SHK_ARB_CFG_PARK_ID (t : Nat) : RF := ⟨R.SHK_ARB_CFG t, 20, 6⟩
def R.SHK_ARB_CFG_PARK_FIX (t : Nat) : RF := ⟨R.SHK_ARB_CFG t, 26, 1⟩
/-- R508 -/
def R.SHK_ARB_STAT (t : Nat) : Nat := 0x40300600 + 0x4 * t
def R.SHK_ARB_STAT_FORCED (t : Nat) : RF := ⟨R.SHK_ARB_STAT t, 0, 16⟩
def R.SHK_ARB_STAT_PREEMPT (t : Nat) : RF := ⟨R.SHK_ARB_STAT t, 16, 16⟩
/-- R508 -/
def R.SHK_LOCK_STAT (i : Nat) : Nat := 0x40301000 + 0x10 * i
def R.SHK_LOCK_STAT_HELD (i : Nat) : RF := ⟨R.SHK_LOCK_STAT i, 0, 1⟩
def R.SHK_LOCK_STAT_BROKEN (i : Nat) : RF := ⟨R.SHK_LOCK_STAT i, 1, 1⟩
def R.SHK_LOCK_STAT_OWNER (i : Nat) : RF := ⟨R.SHK_LOCK_STAT i, 2, 6⟩
def R.SHK_LOCK_STAT_THREAD (i : Nat) : RF := ⟨R.SHK_LOCK_STAT i, 8, 8⟩
def R.SHK_LOCK_STAT_WAITERS (i : Nat) : RF := ⟨R.SHK_LOCK_STAT i, 16, 9⟩
/-- R508 -/
def R.SHK_LOCK_ACQ (i : Nat) : Nat := 0x40301004 + 0x10 * i
def R.SHK_LOCK_ACQ_STATUS (i : Nat) : RF := ⟨R.SHK_LOCK_ACQ i, 0, 2⟩
/-- R508 -/
def R.SHK_LOCK_REL (i : Nat) : Nat := 0x40301008 + 0x10 * i
def R.SHK_LOCK_REL_REL (i : Nat) : RF := ⟨R.SHK_LOCK_REL i, 0, 1⟩
/-- R508 -/
def R.SHK_LOCK_BRK (i : Nat) : Nat := 0x4030100C + 0x10 * i
def R.SHK_LOCK_BRK_BRK (i : Nat) : RF := ⟨R.SHK_LOCK_BRK i, 0, 1⟩
/-- R509 -/
def R.DRC_CFG : Nat := 0x40400000
def R.DRC_CFG_RATE : RF := ⟨R.DRC_CFG, 0, 2⟩
def R.DRC_CFG_DENS : RF := ⟨R.DRC_CFG, 2, 2⟩
def R.DRC_CFG_ECC_EN : RF := ⟨R.DRC_CFG, 4, 1⟩
/-- R509 -/
def R.DRC_STAT : Nat := 0x40400004
def R.DRC_STAT_STATE : RF := ⟨R.DRC_STAT, 0, 3⟩
def R.DRC_STAT_CFG_ERR : RF := ⟨R.DRC_STAT, 3, 1⟩
def R.DRC_STAT_TRAIN_EV : RF := ⟨R.DRC_STAT, 4, 1⟩
def R.DRC_STAT_CE_EV : RF := ⟨R.DRC_STAT, 5, 1⟩
def R.DRC_STAT_UE_EV : RF := ⟨R.DRC_STAT, 6, 1⟩
def R.DRC_STAT_RATE_EV : RF := ⟨R.DRC_STAT, 7, 1⟩
def R.DRC_STAT_HOT_EV : RF := ⟨R.DRC_STAT, 8, 1⟩
def R.DRC_STAT_FAIL_STEP : RF := ⟨R.DRC_STAT, 9, 3⟩
def R.DRC_STAT_FAIL_CH : RF := ⟨R.DRC_STAT, 12, 2⟩
/-- R509 -/
def R.DRC_TIM : Nat := 0x40400008
def R.DRC_TIM_TRFC : RF := ⟨R.DRC_TIM, 0, 10⟩
/-- R509 -/
def R.DRC_REF : Nat := 0x4040000C
def R.DRC_REF_F_MIN : RF := ⟨R.DRC_REF, 0, 3⟩
def R.DRC_REF_POST : RF := ⟨R.DRC_REF, 4, 4⟩
/-- R509 -/
def R.DRC_NR : Nat := 0x40400010
def R.DRC_NR_K : RF := ⟨R.DRC_NR, 0, 4⟩
def R.DRC_NR_EN : RF := ⟨R.DRC_NR, 4, 1⟩
/-- R509 -/
def R.DRC_ECC : Nat := 0x40400014
def R.DRC_ECC_SCRUB_WB : RF := ⟨R.DRC_ECC, 0, 1⟩
def R.DRC_ECC_INIT : RF := ⟨R.DRC_ECC, 1, 1⟩
/-- R509 -/
def R.DRC_RT : Nat := 0x40400018
def R.DRC_RT_RT_MASK : RF := ⟨R.DRC_RT, 0, 27⟩
/-- R509 -/
def R.DRC_TRAIN : Nat := 0x4040001C
def R.DRC_TRAIN_START : RF := ⟨R.DRC_TRAIN, 0, 1⟩
/-- R510 -/
def R.DRC_DEBT (c : Nat) : Nat := 0x40400100 + 0x40 * c
def R.DRC_DEBT_D (c : Nat) : RF := ⟨R.DRC_DEBT c, 0, 32⟩
/-- R510 -/
def R.DRC_REF_STAT (c : Nat) : Nat := 0x40400104 + 0x40 * c
def R.DRC_REF_STAT_CODE (c : Nat) : RF := ⟨R.DRC_REF_STAT c, 0, 3⟩
def R.DRC_REF_STAT_URGENT (c : Nat) : RF := ⟨R.DRC_REF_STAT c, 3, 1⟩
def R.DRC_REF_STAT_OWED (c : Nat) : RF := ⟨R.DRC_REF_STAT c, 4, 4⟩
/-- R510 -/
def R.DRC_CNT0 (c : Nat) : Nat := 0x40400108 + 0x40 * c
def R.DRC_CNT0_CATCHUP (c : Nat) : RF := ⟨R.DRC_CNT0 c, 0, 16⟩
def R.DRC_CNT0_RT_PREEMPT (c : Nat) : RF := ⟨R.DRC_CNT0 c, 16, 16⟩
/-- R510 -/
def R.DRC_CNT1 (c : Nat) : Nat := 0x4040010C + 0x40 * c
def R.DRC_CNT1_NR_FULL (c : Nat) : RF := ⟨R.DRC_CNT1 c, 0, 16⟩
def R.DRC_CNT1_CE_CNT (c : Nat) : RF := ⟨R.DRC_CNT1 c, 16, 16⟩
/-- R510 -/
def R.DRC_CNT2 (c : Nat) : Nat := 0x40400110 + 0x40 * c
def R.DRC_CNT2_UE_CNT (c : Nat) : RF := ⟨R.DRC_CNT2 c, 0, 16⟩
/-- R510 -/
def R.DRC_ERR_LO (c : Nat) : Nat := 0x40400114 + 0x40 * c
def R.DRC_ERR_LO_ADDR (c : Nat) : RF := ⟨R.DRC_ERR_LO c, 0, 32⟩
/-- R510 -/
def R.DRC_ERR_HI (c : Nat) : Nat := 0x40400118 + 0x40 * c
def R.DRC_ERR_HI_ADDR (c : Nat) : RF := ⟨R.DRC_ERR_HI c, 0, 8⟩
def R.DRC_ERR_HI_UE (c : Nat) : RF := ⟨R.DRC_ERR_HI c, 8, 1⟩
/-- R540 -/
def R.ILT_LC_STAT : Nat := 0x40200000
def R.ILT_LC_STAT_STATE : RF := ⟨R.ILT_LC_STAT, 0, 3⟩
def R.ILT_LC_STAT_TORN : RF := ⟨R.ILT_LC_STAT, 3, 1⟩
def R.ILT_LC_STAT_BUSY : RF := ⟨R.ILT_LC_STAT, 4, 1⟩
def R.ILT_LC_STAT_STATUS : RF := ⟨R.ILT_LC_STAT, 8, 4⟩
/-- R540 -/
def R.ILT_LC_CMD : Nat := 0x40200004
def R.ILT_LC_CMD_OP : RF := ⟨R.ILT_LC_CMD, 0, 3⟩
/-- R539 -/
def R.ILT_LC_ARG : Nat := 0x40200008
def R.ILT_LC_ARG_ARG : RF := ⟨R.ILT_LC_ARG, 0, 32⟩
/-- R539 -/
def R.ILT_DEV_ID_LO : Nat := 0x4020000C
def R.ILT_DEV_ID_LO_ID : RF := ⟨R.ILT_DEV_ID_LO, 0, 32⟩
/-- R539 -/
def R.ILT_DEV_ID_HI : Nat := 0x40200010
def R.ILT_DEV_ID_HI_ID : RF := ⟨R.ILT_DEV_ID_HI, 0, 32⟩
/-- R540 -/
def R.ILT_BOOT_STAT : Nat := 0x40200014
def R.ILT_BOOT_STAT_RESULT : RF := ⟨R.ILT_BOOT_STAT, 0, 4⟩
def R.ILT_BOOT_STAT_VERIFIED : RF := ⟨R.ILT_BOOT_STAT, 4, 1⟩
def R.ILT_BOOT_STAT_UNVERIFIED : RF := ⟨R.ILT_BOOT_STAT, 5, 1⟩
def R.ILT_BOOT_STAT_SLOT : RF := ⟨R.ILT_BOOT_STAT, 6, 2⟩
def R.ILT_BOOT_STAT_SVN : RF := ⟨R.ILT_BOOT_STAT, 8, 8⟩
/-- R540 -/
def R.ILT_SVN : Nat := 0x40200018
def R.ILT_SVN_COUNT : RF := ⟨R.ILT_SVN, 0, 8⟩
def R.ILT_SVN_REFUSED : RF := ⟨R.ILT_SVN, 8, 1⟩
/-- R540 -/
def R.ILT_OTP_ADDR : Nat := 0x40200020
def R.ILT_OTP_ADDR_ADDR : RF := ⟨R.ILT_OTP_ADDR, 0, 9⟩
/-- R539 -/
def R.ILT_OTP_DATA : Nat := 0x40200024
def R.ILT_OTP_DATA_DATA : RF := ⟨R.ILT_OTP_DATA, 0, 32⟩
/-- R540 -/
def R.ILT_OTP_CMD : Nat := 0x40200028
def R.ILT_OTP_CMD_PROG : RF := ⟨R.ILT_OTP_CMD, 0, 1⟩
/-- R540 -/
def R.ILT_OTP_STAT : Nat := 0x4020002C
def R.ILT_OTP_STAT_BUSY : RF := ⟨R.ILT_OTP_STAT, 0, 1⟩
def R.ILT_OTP_STAT_DONE_EV : RF := ⟨R.ILT_OTP_STAT, 1, 1⟩
def R.ILT_OTP_STAT_STATUS : RF := ⟨R.ILT_OTP_STAT, 2, 2⟩
/-- R540 -/
def R.ILT_KL_CMD : Nat := 0x40200040
def R.ILT_KL_CMD_ROOT : RF := ⟨R.ILT_KL_CMD, 0, 1⟩
def R.ILT_KL_CMD_LEN : RF := ⟨R.ILT_KL_CMD, 1, 1⟩
/-- R539 -/
def R.ILT_KL_LABEL : Nat := 0x40200044
def R.ILT_KL_LABEL_LABEL : RF := ⟨R.ILT_KL_LABEL, 0, 32⟩
/-- R539 -/
def R.ILT_KL_CTX (w : Nat) : Nat := 0x40200048 + 0x4 * w
def R.ILT_KL_CTX_CTX (w : Nat) : RF := ⟨R.ILT_KL_CTX w, 0, 32⟩
/-- R539 -/
def R.ILT_KL_DEST_LO : Nat := 0x40200058
def R.ILT_KL_DEST_LO_DEST : RF := ⟨R.ILT_KL_DEST_LO, 0, 32⟩
/-- R539 -/
def R.ILT_KL_DEST_HI : Nat := 0x4020005C
def R.ILT_KL_DEST_HI_DEST : RF := ⟨R.ILT_KL_DEST_HI, 0, 32⟩
/-- R540 -/
def R.ILT_KL_STAT : Nat := 0x40200060
def R.ILT_KL_STAT_BUSY : RF := ⟨R.ILT_KL_STAT, 0, 1⟩
def R.ILT_KL_STAT_DONE_EV : RF := ⟨R.ILT_KL_STAT, 1, 1⟩
def R.ILT_KL_STAT_STATUS : RF := ⟨R.ILT_KL_STAT, 2, 3⟩
/-- R539 -/
def R.ILT_KL_OUT (w : Nat) : Nat := 0x40200080 + 0x4 * w
def R.ILT_KL_OUT_OUT (w : Nat) : RF := ⟨R.ILT_KL_OUT w, 0, 32⟩
/-- R539 -/
def R.ILT_RNG : Nat := 0x402000C0
def R.ILT_RNG_RNG : RF := ⟨R.ILT_RNG, 0, 32⟩
/-- R540 -/
def R.ILT_RNG_STAT : Nat := 0x402000C4
def R.ILT_RNG_STAT_VALID : RF := ⟨R.ILT_RNG_STAT, 0, 1⟩
def R.ILT_RNG_STAT_FAIL : RF := ⟨R.ILT_RNG_STAT, 1, 1⟩
/-- R540 -/
def R.ILT_DBG_CTL : Nat := 0x40200100
def R.ILT_DBG_CTL_REQ : RF := ⟨R.ILT_DBG_CTL, 0, 2⟩
def R.ILT_DBG_CTL_VERIFY : RF := ⟨R.ILT_DBG_CTL, 2, 1⟩
def R.ILT_DBG_CTL_CLOSE : RF := ⟨R.ILT_DBG_CTL, 3, 1⟩
def R.ILT_DBG_CTL_SLEEP_OK : RF := ⟨R.ILT_DBG_CTL, 4, 1⟩
/-- R540 -/
def R.ILT_DBG_STAT : Nat := 0x40200104
def R.ILT_DBG_STAT_LEVEL : RF := ⟨R.ILT_DBG_STAT, 0, 2⟩
def R.ILT_DBG_STAT_CHAL_VALID : RF := ⟨R.ILT_DBG_STAT, 2, 1⟩
def R.ILT_DBG_STAT_KEY_USED : RF := ⟨R.ILT_DBG_STAT, 3, 2⟩
def R.ILT_DBG_STAT_FAILS : RF := ⟨R.ILT_DBG_STAT, 5, 2⟩
def R.ILT_DBG_STAT_LOCKOUT : RF := ⟨R.ILT_DBG_STAT, 7, 1⟩
def R.ILT_DBG_STAT_CHG_EV : RF := ⟨R.ILT_DBG_STAT, 8, 1⟩
/-- R539 -/
def R.ILT_DBG_CHAL (w : Nat) : Nat := 0x40200140 + 0x4 * w
def R.ILT_DBG_CHAL_CHAL (w : Nat) : RF := ⟨R.ILT_DBG_CHAL w, 0, 32⟩
/-- R539 -/
def R.ILT_DBG_KEY (w : Nat) : Nat := 0x40200180 + 0x4 * w
def R.ILT_DBG_KEY_KEY (w : Nat) : RF := ⟨R.ILT_DBG_KEY w, 0, 32⟩
/-- R539 -/
def R.ILT_DBG_SIG (w : Nat) : Nat := 0x402001E0 + 0x4 * w
def R.ILT_DBG_SIG_SIG (w : Nat) : RF := ⟨R.ILT_DBG_SIG w, 0, 32⟩
/-- R540 -/
def R.ILT_ACC_CTL : Nat := 0x40200300
def R.ILT_ACC_CTL_LOCK : RF := ⟨R.ILT_ACC_CTL, 0, 1⟩
/-- R540 -/
def R.ILT_ACC_STAT : Nat := 0x40200304
def R.ILT_ACC_STAT_CFG_ERR : RF := ⟨R.ILT_ACC_STAT, 0, 1⟩
/-- R539 -/
def R.ILT_ID_DIG (w : Nat) : Nat := 0x40200400 + 0x4 * w
def R.ILT_ID_DIG_DIG (w : Nat) : RF := ⟨R.ILT_ID_DIG w, 0, 32⟩
/-- R540 -/
def R.ILT_ID_CMD : Nat := 0x40200430
def R.ILT_ID_CMD_SIGN : RF := ⟨R.ILT_ID_CMD, 0, 1⟩
/-- R540 -/
def R.ILT_ID_STAT : Nat := 0x40200434
def R.ILT_ID_STAT_BUSY : RF := ⟨R.ILT_ID_STAT, 0, 1⟩
def R.ILT_ID_STAT_DONE_EV : RF := ⟨R.ILT_ID_STAT, 1, 1⟩
def R.ILT_ID_STAT_REFUSED : RF := ⟨R.ILT_ID_STAT, 2, 1⟩
/-- R539 -/
def R.ILT_ID_SIG (w : Nat) : Nat := 0x40200440 + 0x4 * w
def R.ILT_ID_SIG_SIG (w : Nat) : RF := ⟨R.ILT_ID_SIG w, 0, 32⟩
/-- R539 -/
def R.ILT_ID_PUB (w : Nat) : Nat := 0x402004A0 + 0x4 * w
def R.ILT_ID_PUB_PUB (w : Nat) : RF := ⟨R.ILT_ID_PUB w, 0, 32⟩
/-- R539 -/
def R.ILT_ACC_BASE_LO (t : Nat) (w : Nat) : Nat := 0x40210000 + 0x400 * t + 0x20 * w
def R.ILT_ACC_BASE_LO_BASE (t : Nat) (w : Nat) : RF := ⟨R.ILT_ACC_BASE_LO t w, 0, 32⟩
/-- R539 -/
def R.ILT_ACC_BASE_HI (t : Nat) (w : Nat) : Nat := 0x40210004 + 0x400 * t + 0x20 * w
def R.ILT_ACC_BASE_HI_BASE (t : Nat) (w : Nat) : RF := ⟨R.ILT_ACC_BASE_HI t w, 0, 32⟩
/-- R539 -/
def R.ILT_ACC_LIMIT_LO (t : Nat) (w : Nat) : Nat := 0x40210008 + 0x400 * t + 0x20 * w
def R.ILT_ACC_LIMIT_LO_LIMIT (t : Nat) (w : Nat) : RF := ⟨R.ILT_ACC_LIMIT_LO t w, 0, 32⟩
/-- R539 -/
def R.ILT_ACC_LIMIT_HI (t : Nat) (w : Nat) : Nat := 0x4021000C + 0x400 * t + 0x20 * w
def R.ILT_ACC_LIMIT_HI_LIMIT (t : Nat) (w : Nat) : RF := ⟨R.ILT_ACC_LIMIT_HI t w, 0, 32⟩
/-- R539 -/
def R.ILT_ACC_RMASK_LO (t : Nat) (w : Nat) : Nat := 0x40210010 + 0x400 * t + 0x20 * w
def R.ILT_ACC_RMASK_LO_RMASK (t : Nat) (w : Nat) : RF := ⟨R.ILT_ACC_RMASK_LO t w, 0, 32⟩
/-- R539 -/
def R.ILT_ACC_RMASK_HI (t : Nat) (w : Nat) : Nat := 0x40210014 + 0x400 * t + 0x20 * w
def R.ILT_ACC_RMASK_HI_RMASK (t : Nat) (w : Nat) : RF := ⟨R.ILT_ACC_RMASK_HI t w, 0, 32⟩
/-- R539 -/
def R.ILT_ACC_WMASK_LO (t : Nat) (w : Nat) : Nat := 0x40210018 + 0x400 * t + 0x20 * w
def R.ILT_ACC_WMASK_LO_WMASK (t : Nat) (w : Nat) : RF := ⟨R.ILT_ACC_WMASK_LO t w, 0, 32⟩
/-- R539 -/
def R.ILT_ACC_WMASK_HI (t : Nat) (w : Nat) : Nat := 0x4021001C + 0x400 * t + 0x20 * w
def R.ILT_ACC_WMASK_HI_WMASK (t : Nat) (w : Nat) : RF := ⟨R.ILT_ACC_WMASK_HI t w, 0, 32⟩
/-- R539 -/
def R.ILT_ACC_DEF_RMASK_LO (t : Nat) : Nat := 0x40210200 + 0x400 * t
def R.ILT_ACC_DEF_RMASK_LO_RMASK (t : Nat) : RF := ⟨R.ILT_ACC_DEF_RMASK_LO t, 0, 32⟩
/-- R539 -/
def R.ILT_ACC_DEF_RMASK_HI (t : Nat) : Nat := 0x40210204 + 0x400 * t
def R.ILT_ACC_DEF_RMASK_HI_RMASK (t : Nat) : RF := ⟨R.ILT_ACC_DEF_RMASK_HI t, 0, 32⟩
/-- R539 -/
def R.ILT_ACC_DEF_WMASK_LO (t : Nat) : Nat := 0x40210208 + 0x400 * t
def R.ILT_ACC_DEF_WMASK_LO_WMASK (t : Nat) : RF := ⟨R.ILT_ACC_DEF_WMASK_LO t, 0, 32⟩
/-- R539 -/
def R.ILT_ACC_DEF_WMASK_HI (t : Nat) : Nat := 0x4021020C + 0x400 * t
def R.ILT_ACC_DEF_WMASK_HI_WMASK (t : Nat) : RF := ⟨R.ILT_ACC_DEF_WMASK_HI t, 0, 32⟩
/-- R539 -/
def R.ILT_ACC_EN (t : Nat) : Nat := 0x40210210 + 0x400 * t
def R.ILT_ACC_EN_EN (t : Nat) : RF := ⟨R.ILT_ACC_EN t, 0, 16⟩
/-- R562 -/
def R.HEEL_PS_CMD : Nat := 0x40100000
def R.HEEL_PS_CMD_TARGET : RF := ⟨R.HEEL_PS_CMD, 0, 2⟩
/-- R562 -/
def R.HEEL_PS_STAT : Nat := 0x40100004
def R.HEEL_PS_STAT_STATE : RF := ⟨R.HEEL_PS_STAT, 0, 3⟩
def R.HEEL_PS_STAT_PEND_TGT : RF := ⟨R.HEEL_PS_STAT, 3, 2⟩
def R.HEEL_PS_STAT_PEND : RF := ⟨R.HEEL_PS_STAT, 5, 1⟩
def R.HEEL_PS_STAT_REFUSE_EV : RF := ⟨R.HEEL_PS_STAT, 6, 1⟩
def R.HEEL_PS_STAT_WAKE_EV : RF := ⟨R.HEEL_PS_STAT, 7, 1⟩
def R.HEEL_PS_STAT_LAST_REFUSER : RF := ⟨R.HEEL_PS_STAT, 8, 4⟩
def R.HEEL_PS_STAT_CFG_ERR : RF := ⟨R.HEEL_PS_STAT, 12, 1⟩
/-- R562 -/
def R.HEEL_CTL : Nat := 0x40100008
def R.HEEL_CTL_OSC_SEL : RF := ⟨R.HEEL_CTL, 0, 1⟩
def R.HEEL_CTL_XTAL_FAIL : RF := ⟨R.HEEL_CTL, 1, 1⟩
def R.HEEL_CTL_DIAG_EN : RF := ⟨R.HEEL_CTL, 2, 1⟩
def R.HEEL_CTL_OFF_WAIT : RF := ⟨R.HEEL_CTL, 8, 8⟩
/-- R562 -/
def R.HEEL_WAKE_EN : Nat := 0x40100010
def R.HEEL_WAKE_EN_ETH : RF := ⟨R.HEEL_WAKE_EN, 0, 1⟩
def R.HEEL_WAKE_EN_WUR : RF := ⟨R.HEEL_WAKE_EN, 1, 1⟩
def R.HEEL_WAKE_EN_TEMP : RF := ⟨R.HEEL_WAKE_EN, 2, 1⟩
def R.HEEL_WAKE_EN_SUPPLY : RF := ⟨R.HEEL_WAKE_EN, 3, 1⟩
def R.HEEL_WAKE_EN_PIN : RF := ⟨R.HEEL_WAKE_EN, 4, 4⟩
/-- R562 -/
def R.HEEL_WAKE_STAT : Nat := 0x40100014
def R.HEEL_WAKE_STAT_PEND : RF := ⟨R.HEEL_WAKE_STAT, 0, 8⟩
def R.HEEL_WAKE_STAT_CAUSE : RF := ⟨R.HEEL_WAKE_STAT, 8, 4⟩
/-- R561 -/
def R.HEEL_WAKE_ET_LO : Nat := 0x40100018
def R.HEEL_WAKE_ET_LO_ET : RF := ⟨R.HEEL_WAKE_ET_LO, 0, 32⟩
/-- R561 -/
def R.HEEL_WAKE_ET_HI : Nat := 0x4010001C
def R.HEEL_WAKE_ET_HI_ET : RF := ⟨R.HEEL_WAKE_ET_HI, 0, 32⟩
/-- R562 -/
def R.HEEL_WATCH_CFG : Nat := 0x40100020
def R.HEEL_WATCH_CFG_PERIOD : RF := ⟨R.HEEL_WATCH_CFG, 0, 15⟩
def R.HEEL_WATCH_CFG_LISTEN : RF := ⟨R.HEEL_WATCH_CFG, 15, 8⟩
/-- R562 -/
def R.HEEL_WUR_CFG : Nat := 0x40100024
def R.HEEL_WUR_CFG_CHAN : RF := ⟨R.HEEL_WUR_CFG, 0, 4⟩
def R.HEEL_WUR_CFG_MODE : RF := ⟨R.HEEL_WUR_CFG, 4, 1⟩
def R.HEEL_WUR_CFG_RATE : RF := ⟨R.HEEL_WUR_CFG, 5, 1⟩
def R.HEEL_WUR_CFG_DIV : RF := ⟨R.HEEL_WUR_CFG, 6, 1⟩
def R.HEEL_WUR_CFG_ED : RF := ⟨R.HEEL_WUR_CFG, 8, 8⟩
/-- R562 -/
def R.HEEL_WUR_ID : Nat := 0x40100028
def R.HEEL_WUR_ID_WUR_ID : RF := ⟨R.HEEL_WUR_ID, 0, 12⟩
def R.HEEL_WUR_ID_GROUP_ID : RF := ⟨R.HEEL_WUR_ID, 12, 12⟩
def R.HEEL_WUR_ID_GROUP_EN : RF := ⟨R.HEEL_WUR_ID, 24, 1⟩
/-- R562 -/
def R.HEEL_CMP_CFG : Nat := 0x4010002C
def R.HEEL_CMP_CFG_T_HI : RF := ⟨R.HEEL_CMP_CFG, 0, 8⟩
def R.HEEL_CMP_CFG_T_LO : RF := ⟨R.HEEL_CMP_CFG, 8, 8⟩
def R.HEEL_CMP_CFG_V_TH : RF := ⟨R.HEEL_CMP_CFG, 16, 8⟩
def R.HEEL_CMP_CFG_V_POL : RF := ⟨R.HEEL_CMP_CFG, 24, 1⟩
/-- R562 -/
def R.HEEL_PIN_CFG : Nat := 0x40100030
def R.HEEL_PIN_CFG_POL : RF := ⟨R.HEEL_PIN_CFG, 0, 4⟩
/-- R562 -/
def R.HEEL_BUDGET : Nat := 0x40100034
def R.HEEL_BUDGET_PEAK : RF := ⟨R.HEEL_BUDGET, 0, 10⟩
/-- R562 -/
def R.HEEL_CNT0 : Nat := 0x40100038
def R.HEEL_CNT0_REFUSED : RF := ⟨R.HEEL_CNT0, 0, 16⟩
def R.HEEL_CNT0_ABORTED : RF := ⟨R.HEEL_CNT0, 16, 16⟩
/-- R562 -/
def R.HEEL_CNT1 : Nat := 0x4010003C
def R.HEEL_CNT1_WAKES : RF := ⟨R.HEEL_CNT1, 0, 16⟩
def R.HEEL_CNT1_REPLACED : RF := ⟨R.HEEL_CNT1, 16, 16⟩
/-- R562 -/
def R.HEEL_LOG_HEAD : Nat := 0x40100040
def R.HEEL_LOG_HEAD_HEAD : RF := ⟨R.HEEL_LOG_HEAD, 0, 4⟩
def R.HEEL_LOG_HEAD_COUNT : RF := ⟨R.HEEL_LOG_HEAD, 4, 5⟩
/-- R562 -/
def R.HEEL_WFAIL : Nat := 0x40100050
def R.HEEL_WFAIL_STEP : RF := ⟨R.HEEL_WFAIL, 0, 2⟩
def R.HEEL_WFAIL_TRIES : RF := ⟨R.HEEL_WFAIL, 2, 2⟩
def R.HEEL_WFAIL_FROM : RF := ⟨R.HEEL_WFAIL, 4, 3⟩
/-- R562 -/
def R.HEEL_BOR : Nat := 0x40100054
def R.HEEL_BOR_BOR : RF := ⟨R.HEEL_BOR, 0, 1⟩
/-- R562 -/
def R.HEEL_SAVE_INFO : Nat := 0x40100058
def R.HEEL_SAVE_INFO_COUNT : RF := ⟨R.HEEL_SAVE_INFO, 0, 12⟩
/-- R561 -/
def R.HEEL_LOG_W0 (i : Nat) : Nat := 0x40100080 + 0x8 * i
def R.HEEL_LOG_W0_W (i : Nat) : RF := ⟨R.HEEL_LOG_W0 i, 0, 32⟩
/-- R561 -/
def R.HEEL_LOG_W1 (i : Nat) : Nat := 0x40100084 + 0x8 * i
def R.HEEL_LOG_W1_W (i : Nat) : RF := ⟨R.HEEL_LOG_W1 i, 0, 32⟩
/-- R569 -/
def R.SYS_RST_REC : Nat := 0x40000700
def R.SYS_RST_REC_CAUSE : RF := ⟨R.SYS_RST_REC, 0, 4⟩
def R.SYS_RST_REC_PREV : RF := ⟨R.SYS_RST_REC, 4, 4⟩
def R.SYS_RST_REC_HEEL_LOST : RF := ⟨R.SYS_RST_REC, 8, 1⟩
def R.SYS_RST_REC_COLD_CNT : RF := ⟨R.SYS_RST_REC, 16, 16⟩
/-- R569 -/
def R.SYS_RST_CMD : Nat := 0x40000704
def R.SYS_RST_CMD_KEY : RF := ⟨R.SYS_RST_CMD, 0, 16⟩
/-- R569 -/
def R.SYS_BOOT_REC : Nat := 0x40000708
def R.SYS_BOOT_REC_COPY : RF := ⟨R.SYS_BOOT_REC, 0, 2⟩
def R.SYS_BOOT_REC_BOOTED : RF := ⟨R.SYS_BOOT_REC, 2, 1⟩
def R.SYS_BOOT_REC_FLASH : RF := ⟨R.SYS_BOOT_REC, 15, 2⟩
def R.SYS_BOOT_REC_RECOV : RF := ⟨R.SYS_BOOT_REC, 17, 1⟩
def R.SYS_BOOT_REC_RES0 : RF := ⟨R.SYS_BOOT_REC, 3, 4⟩
def R.SYS_BOOT_REC_RES1 : RF := ⟨R.SYS_BOOT_REC, 7, 4⟩
def R.SYS_BOOT_REC_RES2 : RF := ⟨R.SYS_BOOT_REC, 11, 4⟩
/-- R596 -/
def R.SYS_ID : Nat := 0x40000000
def R.SYS_ID_PART : RF := ⟨R.SYS_ID, 0, 16⟩
def R.SYS_ID_STEP_LETTER : RF := ⟨R.SYS_ID, 16, 4⟩
def R.SYS_ID_STEP_DIGIT : RF := ⟨R.SYS_ID, 20, 4⟩
def R.SYS_ID_GRADE : RF := ⟨R.SYS_ID, 24, 4⟩
/-- R596 -/
def R.SYS_COMPAT : Nat := 0x40000004
def R.SYS_COMPAT_CLASS : RF := ⟨R.SYS_COMPAT, 0, 8⟩
def R.SYS_COMPAT_ISA : RF := ⟨R.SYS_COMPAT, 8, 8⟩
def R.SYS_COMPAT_BALLMAP : RF := ⟨R.SYS_COMPAT, 16, 8⟩

end Sys2Proof.Machine
end

