-- ==== Sys2Proof/Machine/RegTable.lean ====
section
/-!
DEFINITION. The rows of the register tables, one list per 1 MiB register window (R27): base address, instance
counts and strides, the masks of the RW, W1C, WO and RWS fields (R18; every other listed bit is RO), the reset word,
the number of words of a multi-word quantity whose lowest word this is (R17; 0 for a single-word register), and the
manual's name.
-/
namespace Sys2Proof.Machine

def regRows400_0 : List RegRow :=
  [⟨0x40000200, [], 0x1F1, 0x0, 0x0, 0x0, 0xA1, 0, "SYS_SENT_CTL"⟩,
   ⟨0x40000204, [], 0x0, 0x100000, 0x0, 0x0, 0x0, 0, "SYS_SPEED_STAT"⟩,
   ⟨0x40000240, [(0x10, 0x4)], 0x0, 0x0, 0x0, 0x0, 0x0, 0, "SYS_SENT_STAT"⟩,
   ⟨0x40000280, [], 0xFFFF3FF3, 0x0, 0x0, 0x0, 0x64100AA0, 0, "SYS_AVS_CTL"⟩,
   ⟨0x40000284, [], 0xFFFFFF, 0x0, 0x0, 0x0, 0xD4ABC, 0, "SYS_AVS_LIM"⟩,
   ⟨0x40000288, [], 0x0, 0x60000, 0x0, 0x0, 0x0, 0, "SYS_AVS_STAT"⟩,
   ⟨0x4000028C, [], 0xFFFFFFFF, 0x0, 0x0, 0x0, 0x4D1A02EE, 0, "SYS_AVS_MAN"⟩,
   ⟨0x40000400, [(0x3, 0x20)], 0x1FFF, 0x0, 0x0, 0x0, 0x100, 0, "SYS_CX_CTL"⟩,
   ⟨0x40000404, [(0x3, 0x20)], 0xFFFFFFFF, 0x0, 0x0, 0x0, 0xA320A14, 0, "SYS_CX_TIME"⟩,
   ⟨0x40000408, [(0x3, 0x20)], 0x0, 0x30, 0x0, 0x0, 0x0, 0, "SYS_CX_STAT"⟩,
   ⟨0x4000040C, [(0x3, 0x20)], 0x0, 0x0, 0x0, 0x0, 0x0, 0, "SYS_CX_CNT0"⟩,
   ⟨0x40000410, [(0x3, 0x20)], 0x0, 0x0, 0x0, 0x0, 0x0, 0, "SYS_CX_CNT1"⟩,
   ⟨0x40000600, [], 0x1, 0x0, 0x0, 0x0, 0x1, 0, "SYS_CORE_CTL"⟩,
   ⟨0x40000610, [], 0x1, 0x0, 0x0, 0x0, 0x0, 0, "SYS_CORE_CTL"⟩,
   ⟨0x40000620, [], 0x1, 0x0, 0x0, 0x0, 0x0, 0, "SYS_CORE_CTL"⟩,
   ⟨0x40000630, [], 0x1, 0x0, 0x0, 0x0, 0x0, 0, "SYS_CORE_CTL"⟩,
   ⟨0x40000640, [], 0x1, 0x0, 0x0, 0x0, 0x0, 0, "SYS_CORE_CTL"⟩,
   ⟨0x40000650, [], 0x1, 0x0, 0x0, 0x0, 0x0, 0, "SYS_CORE_CTL"⟩,
   ⟨0x40000660, [], 0x1, 0x0, 0x0, 0x0, 0x0, 0, "SYS_CORE_CTL"⟩,
   ⟨0x40000670, [], 0x1, 0x0, 0x0, 0x0, 0x0, 0, "SYS_CORE_CTL"⟩,
   ⟨0x40000604, [(0x8, 0x10)], 0xFFFFFFFF, 0x0, 0x0, 0x0, 0x0, 2, "SYS_CORE_ENTRY_LO"⟩,
   ⟨0x40000608, [(0x8, 0x10)], 0xFF, 0x0, 0x0, 0x0, 0x0, 0, "SYS_CORE_ENTRY_HI"⟩,
   ⟨0x4000060C, [(0x8, 0x10)], 0x0, 0x0, 0x0, 0x0, 0x0, 0, "SYS_CORE_STAT"⟩,
   ⟨0x40000700, [], 0x0, 0x0, 0x0, 0xFFFF00F0, 0x0, 0, "SYS_RST_REC"⟩,
   ⟨0x40000704, [], 0x0, 0x0, 0xFFFF, 0x0, 0x0, 0, "SYS_RST_CMD"⟩,
   ⟨0x40000708, [], 0x3FFFF, 0x0, 0x0, 0x0, 0x7FF8, 0, "SYS_BOOT_REC"⟩,
   ⟨0x40000000, [], 0x0, 0x0, 0x0, 0x0, 0xB003160, 0, "SYS_ID"⟩,
   ⟨0x40000004, [], 0x0, 0x0, 0x0, 0x0, 0x10101, 0, "SYS_COMPAT"⟩]

def regRows401_0 : List RegRow :=
  [⟨0x40100000, [], 0x0, 0x0, 0x3, 0x0, 0x0, 0, "HEEL_PS_CMD"⟩,
   ⟨0x40100004, [], 0x0, 0x10C0, 0x0, 0xF00, 0x0, 0, "HEEL_PS_STAT"⟩,
   ⟨0x40100008, [], 0x0, 0x0, 0x0, 0xFF05, 0x1401, 0, "HEEL_CTL"⟩,
   ⟨0x40100010, [], 0x0, 0x0, 0x0, 0xFF, 0x16, 0, "HEEL_WAKE_EN"⟩,
   ⟨0x40100014, [], 0x0, 0xFF, 0x0, 0xF00, 0x0, 0, "HEEL_WAKE_STAT"⟩,
   ⟨0x40100018, [], 0x0, 0x0, 0x0, 0xFFFFFFFF, 0x0, 2, "HEEL_WAKE_ET_LO"⟩,
   ⟨0x4010001C, [], 0x0, 0x0, 0x0, 0xFFFFFFFF, 0x0, 0, "HEEL_WAKE_ET_HI"⟩,
   ⟨0x40100020, [], 0x0, 0x0, 0x0, 0x7FFFFF, 0x80064, 0, "HEEL_WATCH_CFG"⟩,
   ⟨0x40100024, [], 0x0, 0x0, 0x0, 0xFF7F, 0xBA01, 0, "HEEL_WUR_CFG"⟩,
   ⟨0x40100028, [], 0x0, 0x0, 0x0, 0x1FFFFFF, 0x0, 0, "HEEL_WUR_ID"⟩,
   ⟨0x4010002C, [], 0x0, 0x0, 0x0, 0x1FFFFFF, 0xD864, 0, "HEEL_CMP_CFG"⟩,
   ⟨0x40100030, [], 0x0, 0x0, 0x0, 0xF, 0x0, 0, "HEEL_PIN_CFG"⟩,
   ⟨0x40100034, [], 0x0, 0x0, 0x0, 0x0, 0xF0, 0, "HEEL_BUDGET"⟩,
   ⟨0x40100038, [], 0x0, 0x0, 0x0, 0xFFFFFFFF, 0x0, 0, "HEEL_CNT0"⟩,
   ⟨0x4010003C, [], 0x0, 0x0, 0x0, 0xFFFFFFFF, 0x0, 0, "HEEL_CNT1"⟩,
   ⟨0x40100040, [], 0x0, 0x0, 0x0, 0x1FF, 0x0, 0, "HEEL_LOG_HEAD"⟩,
   ⟨0x40100050, [], 0x0, 0x0, 0x0, 0x7F, 0x0, 0, "HEEL_WFAIL"⟩,
   ⟨0x40100054, [], 0x0, 0x1, 0x0, 0x0, 0x0, 0, "HEEL_BOR"⟩,
   ⟨0x40100058, [], 0x0, 0x0, 0x0, 0x0, 0xA36, 0, "HEEL_SAVE_INFO"⟩,
   ⟨0x40100080, [(0x10, 0x8)], 0x0, 0x0, 0x0, 0xFFFFFFFF, 0x0, 0, "HEEL_LOG_W0"⟩,
   ⟨0x40100084, [(0x10, 0x8)], 0x0, 0x0, 0x0, 0xFFFFFFFF, 0x0, 0, "HEEL_LOG_W1"⟩]

def regRows402_0 : List RegRow :=
  [⟨0x40200000, [], 0x0, 0x0, 0x0, 0x0, 0x0, 0, "ILT_LC_STAT"⟩,
   ⟨0x40200004, [], 0x0, 0x0, 0x7, 0x0, 0x0, 0, "ILT_LC_CMD"⟩,
   ⟨0x40200008, [], 0xFFFFFFFF, 0x0, 0x0, 0x0, 0x0, 0, "ILT_LC_ARG"⟩,
   ⟨0x4020000C, [], 0x0, 0x0, 0x0, 0x0, 0x0, 2, "ILT_DEV_ID_LO"⟩,
   ⟨0x40200010, [], 0x0, 0x0, 0x0, 0x0, 0x0, 0, "ILT_DEV_ID_HI"⟩,
   ⟨0x40200014, [], 0x0, 0x0, 0x0, 0x0, 0x0, 0, "ILT_BOOT_STAT"⟩,
   ⟨0x40200018, [], 0xFF, 0x100, 0x0, 0x0, 0x0, 0, "ILT_SVN"⟩,
   ⟨0x40200020, [], 0x1FF, 0x0, 0x0, 0x0, 0x0, 0, "ILT_OTP_ADDR"⟩,
   ⟨0x40200024, [], 0xFFFFFFFF, 0x0, 0x0, 0x0, 0x0, 0, "ILT_OTP_DATA"⟩,
   ⟨0x40200028, [], 0x0, 0x0, 0x1, 0x0, 0x0, 0, "ILT_OTP_CMD"⟩,
   ⟨0x4020002C, [], 0x0, 0x2, 0x0, 0x0, 0x0, 0, "ILT_OTP_STAT"⟩,
   ⟨0x40200040, [], 0x0, 0x0, 0x3, 0x0, 0x0, 0, "ILT_KL_CMD"⟩,
   ⟨0x40200044, [], 0xFFFFFFFF, 0x0, 0x0, 0x0, 0x0, 0, "ILT_KL_LABEL"⟩,
   ⟨0x40200048, [(0x4, 0x4)], 0xFFFFFFFF, 0x0, 0x0, 0x0, 0x0, 0, "ILT_KL_CTX"⟩,
   ⟨0x40200058, [], 0xFFFFFFFF, 0x0, 0x0, 0x0, 0x0, 2, "ILT_KL_DEST_LO"⟩,
   ⟨0x4020005C, [], 0xFFFFFFFF, 0x0, 0x0, 0x0, 0x0, 0, "ILT_KL_DEST_HI"⟩,
   ⟨0x40200060, [], 0x0, 0x2, 0x0, 0x0, 0x0, 0, "ILT_KL_STAT"⟩,
   ⟨0x40200080, [(0x8, 0x4)], 0x0, 0x0, 0x0, 0x0, 0x0, 0, "ILT_KL_OUT"⟩,
   ⟨0x402000C0, [], 0x0, 0x0, 0x0, 0x0, 0x0, 0, "ILT_RNG"⟩,
   ⟨0x402000C4, [], 0x0, 0x0, 0x0, 0x0, 0x0, 0, "ILT_RNG_STAT"⟩,
   ⟨0x40200100, [], 0x10, 0x0, 0xF, 0x0, 0x0, 0, "ILT_DBG_CTL"⟩,
   ⟨0x40200104, [], 0x0, 0x100, 0x0, 0x0, 0x0, 0, "ILT_DBG_STAT"⟩,
   ⟨0x40200140, [(0xA, 0x4)], 0x0, 0x0, 0x0, 0x0, 0x0, 0, "ILT_DBG_CHAL"⟩,
   ⟨0x40200180, [(0x18, 0x4)], 0x0, 0x0, 0xFFFFFFFF, 0x0, 0x0, 0, "ILT_DBG_KEY"⟩,
   ⟨0x402001E0, [(0x18, 0x4)], 0x0, 0x0, 0xFFFFFFFF, 0x0, 0x0, 0, "ILT_DBG_SIG"⟩,
   ⟨0x40200300, [], 0x1, 0x0, 0x0, 0x0, 0x0, 0, "ILT_ACC_CTL"⟩,
   ⟨0x40200304, [], 0x0, 0x1, 0x0, 0x0, 0x0, 0, "ILT_ACC_STAT"⟩,
   ⟨0x40200400, [(0xC, 0x4)], 0x0, 0x0, 0xFFFFFFFF, 0x0, 0x0, 0, "ILT_ID_DIG"⟩,
   ⟨0x40200430, [], 0x0, 0x0, 0x1, 0x0, 0x0, 0, "ILT_ID_CMD"⟩,
   ⟨0x40200434, [], 0x0, 0x2, 0x0, 0x0, 0x0, 0, "ILT_ID_STAT"⟩,
   ⟨0x40200440, [(0x18, 0x4)], 0x0, 0x0, 0x0, 0x0, 0x0, 0, "ILT_ID_SIG"⟩,
   ⟨0x402004A0, [(0x18, 0x4)], 0x0, 0x0, 0x0, 0x0, 0x0, 0, "ILT_ID_PUB"⟩,
   ⟨0x40210000, [(0x43, 0x400), (0x10, 0x20)], 0xFFFFFFFF, 0x0, 0x0, 0x0, 0x0, 2, "ILT_ACC_BASE_LO"⟩,
   ⟨0x40210004, [(0x43, 0x400), (0x10, 0x20)], 0xFFFFFFFF, 0x0, 0x0, 0x0, 0x0, 0, "ILT_ACC_BASE_HI"⟩,
   ⟨0x40210008, [(0x43, 0x400), (0x10, 0x20)], 0xFFFFFFFF, 0x0, 0x0, 0x0, 0x0, 2, "ILT_ACC_LIMIT_LO"⟩,
   ⟨0x4021000C, [(0x43, 0x400), (0x10, 0x20)], 0xFFFFFFFF, 0x0, 0x0, 0x0, 0x0, 0, "ILT_ACC_LIMIT_HI"⟩,
   ⟨0x40210010, [(0x43, 0x400), (0x10, 0x20)], 0xFFFFFFFF, 0x0, 0x0, 0x0, 0x0, 2, "ILT_ACC_RMASK_LO"⟩,
   ⟨0x40210014, [(0x43, 0x400), (0x10, 0x20)], 0xFFFFFFFF, 0x0, 0x0, 0x0, 0x0, 0, "ILT_ACC_RMASK_HI"⟩,
   ⟨0x40210018, [(0x43, 0x400), (0x10, 0x20)], 0xFFFFFFFF, 0x0, 0x0, 0x0, 0x0, 2, "ILT_ACC_WMASK_LO"⟩,
   ⟨0x4021001C, [(0x43, 0x400), (0x10, 0x20)], 0xFFFFFFFF, 0x0, 0x0, 0x0, 0x0, 0, "ILT_ACC_WMASK_HI"⟩]

def regRows402_1 : List RegRow :=
  [⟨0x40210200, [(0x43, 0x400)], 0xFFFFFFFF, 0x0, 0x0, 0x0, 0x1, 2, "ILT_ACC_DEF_RMASK_LO"⟩,
   ⟨0x40210204, [(0x43, 0x400)], 0xFFFFFFFF, 0x0, 0x0, 0x0, 0x0, 0, "ILT_ACC_DEF_RMASK_HI"⟩,
   ⟨0x40210208, [(0x43, 0x400)], 0xFFFFFFFF, 0x0, 0x0, 0x0, 0x1, 2, "ILT_ACC_DEF_WMASK_LO"⟩,
   ⟨0x4021020C, [(0x43, 0x400)], 0xFFFFFFFF, 0x0, 0x0, 0x0, 0x0, 0, "ILT_ACC_DEF_WMASK_HI"⟩,
   ⟨0x40210210, [(0x43, 0x400)], 0xFFFF, 0x0, 0x0, 0x0, 0x0, 0, "ILT_ACC_EN"⟩]

def regRows403_0 : List RegRow :=
  [⟨0x40300000, [], 0x0, 0x1F, 0x0, 0x0, 0x0, 0, "SHK_STAT"⟩,
   ⟨0x40300008, [], 0x0, 0x0, 0x0, 0x0, 0x0, 2, "SHK_ERR_CNT_LO"⟩,
   ⟨0x4030000C, [], 0x0, 0x0, 0x0, 0x0, 0x0, 0, "SHK_ERR_CNT_HI"⟩,
   ⟨0x40300010, [], 0x0, 0x0, 0x0, 0x0, 0x0, 2, "SHK_SRAM_CE_LO"⟩,
   ⟨0x40300014, [], 0x0, 0x0, 0x0, 0x0, 0x0, 0, "SHK_SRAM_CE_HI"⟩,
   ⟨0x40300018, [], 0x0, 0x0, 0x0, 0x0, 0x0, 2, "SHK_SRAM_UE_LO"⟩,
   ⟨0x4030001C, [], 0x0, 0x0, 0x0, 0x0, 0x0, 0, "SHK_SRAM_UE_HI"⟩,
   ⟨0x40300020, [], 0x0, 0x0, 0x0, 0x0, 0x0, 2, "SHK_ERR_ADDR_LO"⟩,
   ⟨0x40300024, [], 0x0, 0x0, 0x0, 0x0, 0x0, 0, "SHK_ERR_ADDR_HI"⟩,
   ⟨0x40300028, [], 0x0, 0x0, 0x0, 0x0, 0x0, 0, "SHK_ERR_INFO"⟩,
   ⟨0x40300030, [], 0x7F0000, 0x0, 0x0, 0x0, 0x7F0000, 0, "SHK_HINT_EN"⟩,
   ⟨0x40300400, [(0x43, 0x4)], 0x7FFFFFF, 0x0, 0x0, 0x0, 0x41020, 0, "SHK_ARB_CFG"⟩,
   ⟨0x40300600, [(0x43, 0x4)], 0x0, 0x0, 0x0, 0x0, 0x0, 0, "SHK_ARB_STAT"⟩,
   ⟨0x40301000, [(0x400, 0x10)], 0x0, 0x0, 0x0, 0x0, 0x0, 0, "SHK_LOCK_STAT"⟩,
   ⟨0x40301004, [(0x400, 0x10)], 0x0, 0x0, 0x0, 0x0, 0x0, 0, "SHK_LOCK_ACQ"⟩,
   ⟨0x40301008, [(0x400, 0x10)], 0x0, 0x0, 0x1, 0x0, 0x0, 0, "SHK_LOCK_REL"⟩,
   ⟨0x4030100C, [(0x400, 0x10)], 0x0, 0x0, 0x1, 0x0, 0x0, 0, "SHK_LOCK_BRK"⟩]

def regRows404_0 : List RegRow :=
  [⟨0x40400000, [], 0x1F, 0x0, 0x0, 0x0, 0x2, 0, "DRC_CFG"⟩,
   ⟨0x40400004, [], 0x0, 0x1F8, 0x0, 0x0, 0x0, 0, "DRC_STAT"⟩,
   ⟨0x40400008, [], 0x3FF, 0x0, 0x0, 0x0, 0x118, 0, "DRC_TIM"⟩,
   ⟨0x4040000C, [], 0xF7, 0x0, 0x0, 0x0, 0x42, 0, "DRC_REF"⟩,
   ⟨0x40400010, [], 0x1F, 0x0, 0x0, 0x0, 0x1A, 0, "DRC_NR"⟩,
   ⟨0x40400014, [], 0x1, 0x0, 0x2, 0x0, 0x1, 0, "DRC_ECC"⟩,
   ⟨0x40400018, [], 0x7FFFFFF, 0x0, 0x0, 0x0, 0x270000, 0, "DRC_RT"⟩,
   ⟨0x4040001C, [], 0x0, 0x0, 0x1, 0x0, 0x0, 0, "DRC_TRAIN"⟩,
   ⟨0x40400100, [(0x2, 0x40)], 0x0, 0x0, 0x0, 0x0, 0x0, 0, "DRC_DEBT"⟩,
   ⟨0x40400104, [(0x2, 0x40)], 0x0, 0x0, 0x0, 0x0, 0x2, 0, "DRC_REF_STAT"⟩,
   ⟨0x40400108, [(0x2, 0x40)], 0x0, 0x0, 0x0, 0x0, 0x0, 0, "DRC_CNT0"⟩,
   ⟨0x4040010C, [(0x2, 0x40)], 0x0, 0x0, 0x0, 0x0, 0x0, 0, "DRC_CNT1"⟩,
   ⟨0x40400110, [(0x2, 0x40)], 0x0, 0x0, 0x0, 0x0, 0x0, 0, "DRC_CNT2"⟩,
   ⟨0x40400114, [(0x2, 0x40)], 0x0, 0x0, 0x0, 0x0, 0x0, 2, "DRC_ERR_LO"⟩,
   ⟨0x40400118, [(0x2, 0x40)], 0x0, 0x0, 0x0, 0x0, 0x0, 0, "DRC_ERR_HI"⟩]

def regRows405_0 : List RegRow :=
  [⟨0x40500000, [], 0xFFFF3F1F, 0x0, 0x0, 0x0, 0x404, 0, "BENCH_CFG"⟩,
   ⟨0x40500004, [], 0x1FFFF, 0x0, 0x0, 0x0, 0x3E8, 0, "BENCH_TICK"⟩,
   ⟨0x40500008, [], 0x0, 0x1, 0x0, 0x0, 0x0, 0, "BENCH_STAT"⟩,
   ⟨0x4050000C, [], 0x0, 0x0, 0x0, 0x0, 0x0, 0, "BENCH_TICK_CNT"⟩,
   ⟨0x40500010, [], 0x0, 0x0, 0x0, 0x0, 0x0, 0, "BENCH_CNT0"⟩,
   ⟨0x40500014, [], 0x0, 0x0, 0x0, 0x0, 0x0, 0, "BENCH_CNT1"⟩,
   ⟨0x40500100, [(0x8, 0x40), (0x3, 0x4)], 0xFFFFFFFF, 0x0, 0x0, 0x0, 0x0, 0, "BENCH_ARG"⟩,
   ⟨0x4050010C, [(0x8, 0x40)], 0x0, 0x0, 0xFFFF, 0x0, 0x0, 0, "BENCH_CMD"⟩,
   ⟨0x40500110, [(0x8, 0x40)], 0x0, 0x0, 0x0, 0x0, 0x0, 0, "BENCH_RSP"⟩,
   ⟨0x40500114, [(0x8, 0x40)], 0x0, 0x0, 0x0, 0x0, 0x1000, 0, "BENCH_CUR"⟩,
   ⟨0x40500118, [(0x8, 0x40)], 0x0, 0x0, 0x0, 0x0, 0x1000, 0, "BENCH_NEXT"⟩,
   ⟨0x4050011C, [(0x8, 0x40)], 0x0, 0x0, 0x1FFF, 0x0, 0x1000, 0, "BENCH_ACK"⟩,
   ⟨0x40500120, [(0x8, 0x40)], 0x1, 0x0, 0x0, 0x0, 0x0, 0, "BENCH_PMASK"⟩,
   ⟨0x40500124, [(0x8, 0x40)], 0xFFFF, 0x0, 0x0, 0x0, 0x0, 0, "BENCH_QID"⟩,
   ⟨0x40500128, [(0x8, 0x40)], 0xFFFFFFFF, 0x0, 0x0, 0x0, 0x0, 2, "BENCH_QDATA_LO"⟩,
   ⟨0x4050012C, [(0x8, 0x40)], 0xFFFFFFFF, 0x0, 0x0, 0x0, 0x0, 0, "BENCH_QDATA_HI"⟩,
   ⟨0x40500130, [(0x8, 0x40)], 0x0, 0x0, 0x3, 0x0, 0x0, 0, "BENCH_QCMD"⟩,
   ⟨0x40500134, [(0x8, 0x40)], 0x0, 0x0, 0x0, 0x0, 0x0, 0, "BENCH_QRSP"⟩,
   ⟨0x40500138, [(0x8, 0x40)], 0x0, 0x0, 0x0, 0x0, 0x0, 2, "BENCH_RSP_D0"⟩,
   ⟨0x4050013C, [(0x8, 0x40)], 0x0, 0x0, 0x0, 0x0, 0x0, 0, "BENCH_RSP_D1"⟩,
   ⟨0x40501000, [(0x100, 0x4)], 0x1FFFF, 0x0, 0x0, 0x0, 0x0, 0, "BENCH_IRQ"⟩,
   ⟨0x40510000, [(0x1000, 0x10)], 0x0, 0x0, 0x0, 0x0, 0x0, 0, "BENCH_THR_W0"⟩,
   ⟨0x40510004, [(0x1000, 0x10)], 0x0, 0x0, 0x0, 0x0, 0x0, 0, "BENCH_THR_W1"⟩,
   ⟨0x40510008, [(0x1000, 0x10)], 0x0, 0x0, 0x0, 0x0, 0x0, 0, "BENCH_THR_W2"⟩,
   ⟨0x4051000C, [(0x1000, 0x10)], 0x0, 0x0, 0x0, 0x0, 0x0, 0, "BENCH_THR_W3"⟩]

def regRows406_0 : List RegRow :=
  [⟨0x40600000, [], 0x1, 0x0, 0x6, 0x0, 0x0, 0, "TIME_CTL"⟩,
   ⟨0x40600004, [], 0x0, 0xB0, 0x0, 0x0, 0x0, 0, "TIME_STAT"⟩,
   ⟨0x40600008, [], 0xFFFFFFFF, 0x0, 0x0, 0x0, 0x0, 0, "TIME_RATE"⟩,
   ⟨0x4060000C, [], 0x7FFFFFFF, 0x0, 0x0, 0x0, 0xD1B7176, 0, "TIME_SLEW_MAX"⟩,
   ⟨0x40600010, [], 0x0, 0x0, 0x0, 0x0, 0x0, 4, "TIME_NT_SUB0"⟩,
   ⟨0x40600014, [], 0x0, 0x0, 0x0, 0x0, 0x0, 0, "TIME_NT_SUB1"⟩,
   ⟨0x40600018, [], 0x0, 0x0, 0x0, 0x0, 0x0, 0, "TIME_NT_S0"⟩,
   ⟨0x4060001C, [], 0x0, 0x0, 0x0, 0x0, 0x0, 0, "TIME_NT_S1"⟩,
   ⟨0x40600020, [(0x4, 0x4)], 0xFFFFFFFF, 0x0, 0x0, 0x0, 0x0, 0, "TIME_ADJ_W"⟩,
   ⟨0x40600030, [], 0x0, 0x0, 0x3, 0x0, 0x0, 0, "TIME_ADJ_CMD"⟩,
   ⟨0x40600034, [], 0x0, 0x0, 0x0, 0x0, 0x0, 2, "TIME_SLEW_REM_LO"⟩,
   ⟨0x40600038, [], 0x0, 0x0, 0x0, 0x0, 0x0, 0, "TIME_SLEW_REM_HI"⟩,
   ⟨0x40600040, [], 0x0, 0x0, 0x0, 0x0, 0x0, 2, "TIME_ET_LO"⟩,
   ⟨0x40600044, [], 0x0, 0x0, 0x0, 0x0, 0x0, 0, "TIME_ET_HI"⟩,
   ⟨0x40600048, [], 0x0, 0x0, 0x0, 0xFFFFFFFF, 0x0, 0, "TIME_ET_ERR"⟩,
   ⟨0x4060004C, [], 0x0, 0x0, 0x0, 0x0, 0x0, 0, "TIME_NT_ERR"⟩,
   ⟨0x40600050, [], 0xFFFF, 0x0, 0x0, 0x0, 0x3E8, 0, "TIME_RES"⟩,
   ⟨0x40600054, [], 0xFFFFFFFF, 0x0, 0x0, 0x0, 0xFD100064, 0, "TIME_PATH_CFG"⟩,
   ⟨0x40600058, [], 0xF, 0x0, 0x0, 0x0, 0x0, 0, "TIME_SERVO"⟩,
   ⟨0x40601000, [(0xF, 0x100)], 0xFFFFFFFF, 0x0, 0x0, 0x0, 0x0, 0, "TIME_ASYM"⟩,
   ⟨0x40601004, [(0xF, 0x100)], 0xFFFFFFFF, 0x0, 0x0, 0x0, 0x0, 0, "TIME_PATH"⟩,
   ⟨0x40601008, [(0xF, 0x100)], 0x0, 0x0, 0x0, 0x0, 0x0, 0, "TIME_PATH_REF"⟩,
   ⟨0x4060100C, [(0xF, 0x100)], 0x0, 0x6, 0x0, 0x0, 0x0, 0, "TIME_PSTAT"⟩,
   ⟨0x40601010, [(0xF, 0x100)], 0x0, 0x0, 0x0, 0x0, 0x0, 0, "TIME_LOST"⟩,
   ⟨0x40601014, [(0xF, 0x100)], 0x0, 0x0, 0x1, 0x0, 0x0, 0, "TIME_TSQ_POP"⟩,
   ⟨0x40601020, [(0xF, 0x100), (0x8, 0x4)], 0x0, 0x0, 0x0, 0x0, 0x0, 0, "TIME_TSQ_W"⟩,
   ⟨0x40601040, [(0xF, 0x100)], 0x0, 0x0, 0x0, 0x0, 0x0, 0, "TIME_CNT"⟩,
   ⟨0x40600200, [(0x8, 0x20)], 0xF, 0x20, 0x0, 0x0, 0x0, 0, "TIME_PPS_CTL"⟩,
   ⟨0x40600204, [(0x8, 0x20), (0x4, 0x4)], 0xFFFFFFFF, 0x0, 0x0, 0x0, 0x0, 0, "TIME_PPS_START_W"⟩,
   ⟨0x40600214, [(0x8, 0x20)], 0xFFFFFFFF, 0x0, 0x0, 0x0, 0x0, 0, "TIME_PPS_PERIOD"⟩,
   ⟨0x40600218, [(0x8, 0x20)], 0xFFFFFFFF, 0x0, 0x0, 0x0, 0x0, 0, "TIME_PPS_WIDTH"⟩,
   ⟨0x40600300, [(0x4, 0x20)], 0x3, 0x0, 0x0, 0x0, 0x0, 0, "TIME_CAP_CTL"⟩,
   ⟨0x40600304, [(0x4, 0x20)], 0x0, 0x8, 0x0, 0x0, 0x0, 0, "TIME_CAP_STAT"⟩,
   ⟨0x40600308, [(0x4, 0x20)], 0x0, 0x0, 0x1, 0x0, 0x0, 0, "TIME_CAP_POP"⟩,
   ⟨0x40600310, [(0x4, 0x20), (0x4, 0x4)], 0x0, 0x0, 0x0, 0x0, 0x0, 0, "TIME_CAP_W"⟩]

def regRows407_0 : List RegRow :=
  [⟨0x40700300, [(0xC, 0x1000)], 0x0, 0x100, 0x80, 0x0, 0x0, 0, "LANE_FIFO_STAT"⟩,
   ⟨0x40700000, [(0xC, 0x1000)], 0xF1, 0x0, 0x0, 0x0, 0xA0, 0, "LANE_FCTL"⟩,
   ⟨0x40700004, [(0xC, 0x1000)], 0x0, 0x18, 0x0, 0x0, 0x0, 0, "LANE_FSTAT"⟩,
   ⟨0x40700008, [(0xC, 0x1000)], 0xFFFFFF, 0x0, 0x1000000, 0x0, 0xA083C, 0, "LANE_CTL"⟩,
   ⟨0x4070000C, [(0xC, 0x1000)], 0x0, 0x4038000, 0x0, 0x0, 0x0, 0, "LANE_STAT"⟩,
   ⟨0x40700010, [(0xC, 0x1000)], 0xFFFFFF, 0x0, 0x0, 0x0, 0x143264, 0, "LANE_TIMER"⟩,
   ⟨0x40700014, [(0xC, 0x1000)], 0xFFFFFF, 0x0, 0x0, 0x0, 0x0, 0, "LANE_NEG_ID"⟩,
   ⟨0x40700020, [(0xC, 0x1000)], 0x7FFDFF, 0x1000000, 0x2000200, 0x0, 0x280400, 0, "LANE_TEST"⟩,
   ⟨0x40700024, [(0xC, 0x1000)], 0x0, 0x0, 0x0, 0x0, 0x0, 0, "LANE_ERR_CNT"⟩,
   ⟨0x40700028, [(0xC, 0x1000)], 0x0, 0x0, 0x0, 0x0, 0x0, 2, "LANE_BIT_LO"⟩,
   ⟨0x4070002C, [(0xC, 0x1000)], 0x0, 0x0, 0x0, 0x0, 0x0, 0, "LANE_BIT_HI"⟩,
   ⟨0x40700030, [(0xC, 0x1000)], 0x0, 0x0, 0x0, 0x0, 0x0, 0, "LANE_CNT"⟩]

def regRows408_0 : List RegRow :=
  [⟨0x40800000, [], 0xFF0F, 0x0, 0x0, 0x0, 0x1000, 0, "UZL_CTL"⟩,
   ⟨0x40800004, [], 0xFFFFFFFF, 0x0, 0x0, 0x0, 0x0, 0, "UZL_ID"⟩,
   ⟨0x40800008, [], 0x0, 0x31, 0x0, 0x0, 0x0, 0, "UZL_STAT"⟩,
   ⟨0x40800010, [], 0xFF7F, 0x0, 0x0, 0x0, 0xA00, 0, "UZL_RING"⟩,
   ⟨0x40800020, [], 0xFFFFFFFF, 0x0, 0x0, 0x0, 0x0, 0, "UZL_RT_ARG0"⟩,
   ⟨0x40800024, [], 0x7, 0x0, 0x0, 0x0, 0x0, 0, "UZL_RT_ARG1"⟩,
   ⟨0x40800028, [], 0x0, 0x0, 0x3, 0x0, 0x0, 0, "UZL_RT_CMD"⟩,
   ⟨0x4080002C, [], 0x0, 0x6, 0x0, 0x0, 0x0, 0, "UZL_RT_RSP"⟩,
   ⟨0x40800030, [], 0x0, 0x0, 0x0, 0x0, 0x0, 0, "UZL_RT_USED"⟩,
   ⟨0x40800100, [(0x2, 0x8)], 0x0, 0x0, 0x0, 0x0, 0x0, 2, "UZL_RREQ_LO"⟩,
   ⟨0x40800104, [(0x2, 0x8)], 0x0, 0x0, 0x0, 0x0, 0x0, 0, "UZL_RREQ_HI"⟩,
   ⟨0x40801000, [(0x4, 0x100)], 0xF1, 0x0, 0x0, 0x0, 0xA0, 0, "UZL_FCTL"⟩,
   ⟨0x40801004, [(0x4, 0x100)], 0x0, 0x18, 0x0, 0x0, 0x0, 0, "UZL_FSTAT"⟩,
   ⟨0x40801008, [(0x4, 0x100)], 0x1FF, 0x0, 0x0, 0x0, 0xA, 0, "UZL_CFG"⟩,
   ⟨0x4080100C, [(0x4, 0x100)], 0xFFFFFFFF, 0x0, 0x0, 0x0, 0x0, 0, "UZL_LINK_DELAY"⟩,
   ⟨0x40801010, [(0x4, 0x100)], 0x0, 0x0, 0x0, 0x0, 0x0, 0, "UZL_NBR_ID"⟩,
   ⟨0x40801014, [(0x4, 0x100)], 0x0, 0x20, 0x0, 0x0, 0x40, 0, "UZL_NBR_STAT"⟩,
   ⟨0x40801040, [(0x4, 0x100), (0xD, 0x8)], 0x0, 0x0, 0x0, 0x0, 0x0, 2, "UZL_HCNT_LO"⟩,
   ⟨0x40801044, [(0x4, 0x100), (0xD, 0x8)], 0x0, 0x0, 0x0, 0x0, 0x0, 0, "UZL_HCNT_HI"⟩]

def regRows409_0 : List RegRow :=
  [⟨0x40900000, [], 0x0, 0x1, 0x0, 0x0, 0x0, 0, "ETH_STAT"⟩,
   ⟨0x40900100, [(0x4, 0x4)], 0xFFFFFFFF, 0x0, 0x0, 0x0, 0x0, 0, "ETH_RT_ARG"⟩,
   ⟨0x40900110, [], 0x0, 0x0, 0x7, 0x0, 0x0, 0, "ETH_RT_CMD"⟩,
   ⟨0x40900114, [], 0x0, 0x6, 0x0, 0x0, 0x0, 0, "ETH_RT_RSP"⟩,
   ⟨0x40900118, [], 0x0, 0x0, 0x0, 0x0, 0x0, 0, "ETH_RT_LPM_USED"⟩,
   ⟨0x4090011C, [], 0x0, 0x0, 0x0, 0x0, 0x0, 0, "ETH_RT_EM_USED"⟩,
   ⟨0x40900200, [], 0x3FFF, 0x0, 0x0, 0x0, 0x10, 0, "ETH_WAKE_CTL"⟩,
   ⟨0x40900204, [], 0x0, 0x0, 0x0, 0x1F, 0x0, 0, "ETH_WAKE_STAT"⟩,
   ⟨0x40900300, [(0x8, 0x20), (0x4, 0x4)], 0xFFFFFFFF, 0x0, 0x0, 0x0, 0x0, 0, "ETH_WAKE_MASK"⟩,
   ⟨0x40900310, [(0x8, 0x20)], 0xFFFFFFFF, 0x0, 0x0, 0x0, 0x0, 0, "ETH_WAKE_CRC"⟩,
   ⟨0x40910000, [(0x8, 0x2000)], 0xF1, 0x0, 0x0, 0x0, 0xA0, 0, "ETH_FCTL"⟩,
   ⟨0x40910004, [(0x8, 0x2000)], 0x0, 0x18, 0x0, 0x0, 0x0, 0, "ETH_FSTAT"⟩,
   ⟨0x40910008, [(0x8, 0x2000)], 0x1FFFFF3, 0x0, 0x0, 0x0, 0x5F20, 0, "ETH_CFG"⟩,
   ⟨0x4091000C, [(0x8, 0x2000)], 0x0, 0x20, 0x0, 0x0, 0x0, 0, "ETH_PSTAT"⟩,
   ⟨0x40910010, [(0x8, 0x2000)], 0xFFFFFFFF, 0x0, 0x0, 0x0, 0x0, 2, "ETH_ADDR_LO"⟩,
   ⟨0x40910014, [(0x8, 0x2000)], 0xFFFF, 0x0, 0x0, 0x0, 0x0, 0, "ETH_ADDR_HI"⟩,
   ⟨0x40910020, [(0x8, 0x2000)], 0x7FFFF, 0x0, 0x0, 0x0, 0x2A, 0, "ETH_PRE_CTL"⟩,
   ⟨0x40910024, [(0x8, 0x2000)], 0x0, 0x20, 0x0, 0x0, 0x0, 0, "ETH_PRE_STAT"⟩,
   ⟨0x40910040, [(0x8, 0x2000)], 0x1FF, 0x0, 0x600, 0x0, 0x1FE, 0, "ETH_GATE_CTL"⟩,
   ⟨0x40910044, [(0x8, 0x2000)], 0x0, 0x38, 0x0, 0x0, 0x3FC00, 0, "ETH_GATE_STAT"⟩,
   ⟨0x40910060, [(0x8, 0x2000), (0x2, 0x20)], 0x3FFFFFFF, 0x0, 0x0, 0x0, 0x0, 0, "ETH_BASE_NS"⟩,
   ⟨0x40910064, [(0x8, 0x2000), (0x2, 0x20)], 0xFFFFFFFF, 0x0, 0x0, 0x0, 0x0, 2, "ETH_BASE_S_LO"⟩,
   ⟨0x40910068, [(0x8, 0x2000), (0x2, 0x20)], 0xFFFF, 0x0, 0x0, 0x0, 0x0, 0, "ETH_BASE_S_HI"⟩,
   ⟨0x4091006C, [(0x8, 0x2000), (0x2, 0x20)], 0xFFFFFFFF, 0x0, 0x0, 0x0, 0x0, 0, "ETH_CYCLE"⟩,
   ⟨0x40910070, [(0x8, 0x2000), (0x2, 0x20)], 0xFFFFFFFF, 0x0, 0x0, 0x0, 0x0, 0, "ETH_EXT"⟩,
   ⟨0x40910074, [(0x8, 0x2000), (0x2, 0x20)], 0x1FF, 0x0, 0x0, 0x0, 0x0, 0, "ETH_COUNT"⟩,
   ⟨0x409100A0, [(0x8, 0x2000)], 0xFFF, 0x1000, 0x0, 0x0, 0x310, 0, "ETH_SEC_CTL"⟩,
   ⟨0x409100A8, [(0x8, 0x2000)], 0xFFFFFFFF, 0x0, 0x0, 0x0, 0x0, 0, "ETH_REPLAY_WIN"⟩,
   ⟨0x409100B0, [(0x8, 0x2000)], 0xFFFFFFFF, 0x0, 0x0, 0x0, 0x0, 2, "ETH_TX_SCI_LO"⟩,
   ⟨0x409100B4, [(0x8, 0x2000)], 0xFFFFFFFF, 0x0, 0x0, 0x0, 0x0, 0, "ETH_TX_SCI_HI"⟩,
   ⟨0x40910400, [(0x8, 0x2000), (0x10, 0x8)], 0x0, 0x0, 0x0, 0x0, 0x0, 2, "ETH_CNT_LO"⟩,
   ⟨0x40910404, [(0x8, 0x2000), (0x10, 0x8)], 0x0, 0x0, 0x0, 0x0, 0x0, 0, "ETH_CNT_HI"⟩,
   ⟨0x40911000, [(0x8, 0x2000), (0x2, 0x800), (0x100, 0x8)], 0x3FF, 0x0, 0x0, 0x0, 0x0, 0, "ETH_GE_W0"⟩,
   ⟨0x40911004, [(0x8, 0x2000), (0x2, 0x800), (0x100, 0x8)], 0xFFFFFFFF, 0x0, 0x0, 0x0, 0x0, 0, "ETH_GE_W1"⟩,
   ⟨0x40940000, [(0x8, 0x2000), (0x4, 0x40), (0x8, 0x4)], 0x0, 0x0, 0xFFFFFFFF, 0x0, 0x0, 0, "ETH_TX_KEY"⟩,
   ⟨0x40940020, [(0x8, 0x2000), (0x4, 0x40), (0x3, 0x4)], 0x0, 0x0, 0xFFFFFFFF, 0x0, 0x0, 0, "ETH_TX_SALT"⟩,
   ⟨0x4094002C, [(0x8, 0x2000), (0x4, 0x40)], 0x0, 0x0, 0xFFFFFFFF, 0x0, 0x0, 0, "ETH_TX_SSCI"⟩,
   ⟨0x40940030, [(0x8, 0x2000), (0x4, 0x40)], 0xFFFFFFFF, 0x0, 0x0, 0x0, 0x0, 2, "ETH_TX_PN_LO"⟩,
   ⟨0x40940034, [(0x8, 0x2000), (0x4, 0x40)], 0xFFFFFFFF, 0x0, 0x0, 0x0, 0x0, 0, "ETH_TX_PN_HI"⟩,
   ⟨0x40940038, [(0x8, 0x2000), (0x4, 0x40)], 0x1, 0x0, 0x0, 0x0, 0x0, 0, "ETH_TX_SA_CTL"⟩]

def regRows409_1 : List RegRow :=
  [⟨0x40940400, [(0x8, 0x2000), (0x8, 0x200)], 0xFFFFFFFF, 0x0, 0x0, 0x0, 0x0, 2, "ETH_RX_SCI_LO"⟩,
   ⟨0x40940404, [(0x8, 0x2000), (0x8, 0x200)], 0xFFFFFFFF, 0x0, 0x0, 0x0, 0x0, 0, "ETH_RX_SCI_HI"⟩,
   ⟨0x40940408, [(0x8, 0x2000), (0x8, 0x200)], 0x1, 0x0, 0x0, 0x0, 0x0, 0, "ETH_RX_SC_CTL"⟩,
   ⟨0x40940440, [(0x8, 0x2000), (0x8, 0x200), (0x4, 0x40), (0x8, 0x4)], 0x0, 0x0, 0xFFFFFFFF, 0x0, 0x0, 0, "ETH_RX_KEY"⟩,
   ⟨0x40940460, [(0x8, 0x2000), (0x8, 0x200), (0x4, 0x40), (0x3, 0x4)], 0x0, 0x0, 0xFFFFFFFF, 0x0, 0x0, 0, "ETH_RX_SALT"⟩,
   ⟨0x4094046C, [(0x8, 0x2000), (0x8, 0x200), (0x4, 0x40)], 0x0, 0x0, 0xFFFFFFFF, 0x0, 0x0, 0, "ETH_RX_SSCI"⟩,
   ⟨0x40940470, [(0x8, 0x2000), (0x8, 0x200), (0x4, 0x40)], 0xFFFFFFFF, 0x0, 0x0, 0x0, 0x0, 2, "ETH_RX_PN_LO"⟩,
   ⟨0x40940474, [(0x8, 0x2000), (0x8, 0x200), (0x4, 0x40)], 0xFFFFFFFF, 0x0, 0x0, 0x0, 0x0, 0, "ETH_RX_PN_HI"⟩,
   ⟨0x40940478, [(0x8, 0x2000), (0x8, 0x200), (0x4, 0x40)], 0x1, 0x0, 0x0, 0x0, 0x0, 0, "ETH_RX_SA_CTL"⟩,
   ⟨0x40980000, [(0x108, 0x20)], 0xFFFFFFFF, 0x0, 0x0, 0x0, 0x0, 2, "ETH_SLOT_KEY_LO"⟩,
   ⟨0x40980004, [(0x108, 0x20)], 0xFFFFFFFF, 0x0, 0x0, 0x0, 0x0, 0, "ETH_SLOT_KEY_HI"⟩,
   ⟨0x40980008, [(0x108, 0x20)], 0x0, 0x0, 0x0, 0x0, 0x0, 2, "ETH_SLOT_LPM_LO"⟩,
   ⟨0x4098000C, [(0x108, 0x20)], 0x0, 0x0, 0x0, 0x0, 0x0, 0, "ETH_SLOT_LPM_HI"⟩,
   ⟨0x40980010, [(0x108, 0x20)], 0x0, 0x0, 0x0, 0x0, 0x0, 2, "ETH_SLOT_EM_LO"⟩,
   ⟨0x40980014, [(0x108, 0x20)], 0x0, 0x0, 0x0, 0x0, 0x0, 0, "ETH_SLOT_EM_HI"⟩]

def regRows40A_0 : List RegRow :=
  [⟨0x40A40000, [(0x4000, 0x10), (0x2, 0x8)], 0x0, 0x0, 0x0, 0x0, 0x0, 2, "TM_Q_CNT_LO"⟩,
   ⟨0x40A40004, [(0x4000, 0x10), (0x2, 0x8)], 0x0, 0x0, 0x0, 0x0, 0x0, 0, "TM_Q_CNT_HI"⟩,
   ⟨0x40A80000, [(0x4000, 0x20)], 0xF1, 0x0, 0x0, 0x0, 0xA0, 0, "TM_Q_FCTL"⟩,
   ⟨0x40A80004, [(0x4000, 0x20)], 0x0, 0x18, 0x0, 0x0, 0x0, 0, "TM_Q_FSTAT"⟩,
   ⟨0x40A80008, [(0x4000, 0x20)], 0xFFFF, 0x0, 0x0, 0x0, 0x0, 0, "TM_Q_W2"⟩,
   ⟨0x40A8000C, [(0x4000, 0x20)], 0x7FFFFF, 0x0, 0x0, 0x0, 0x0, 0, "TM_Q_W3"⟩,
   ⟨0x40A80010, [(0x4000, 0x20)], 0x0, 0x0, 0x0, 0x0, 0x0, 0, "TM_Q_W4"⟩,
   ⟨0x40A80014, [(0x4000, 0x20)], 0x0, 0x0, 0x0, 0x0, 0x0, 0, "TM_Q_W5"⟩,
   ⟨0x40A00000, [], 0x0, 0x7, 0x0, 0x0, 0x0, 0, "TM_STAT"⟩,
   ⟨0x40A00200, [(0xC, 0x10)], 0x3F, 0x0, 0x0, 0x0, 0x18, 0, "TM_EG_CFG"⟩,
   ⟨0x40A002C0, [(0x4, 0x10)], 0x0, 0x0, 0x0, 0x0, 0x0, 0, "TM_EG_CFG"⟩,
   ⟨0x40A00300, [(0x40, 0x10)], 0x3F, 0x0, 0x0, 0x0, 0x18, 0, "TM_EG_CFG"⟩,
   ⟨0x40A00700, [(0x30, 0x10)], 0x0, 0x0, 0x0, 0x0, 0x0, 0, "TM_EG_CFG"⟩,
   ⟨0x40A00204, [(0xC, 0x10)], 0x0, 0x0, 0x0, 0x0, 0x0, 0, "TM_EG_VT"⟩,
   ⟨0x40A002C4, [(0x4, 0x10)], 0x0, 0x0, 0x0, 0x0, 0x0, 0, "TM_EG_VT"⟩,
   ⟨0x40A00304, [(0x40, 0x10)], 0x0, 0x0, 0x0, 0x0, 0x0, 0, "TM_EG_VT"⟩,
   ⟨0x40A00704, [(0x30, 0x10)], 0x0, 0x0, 0x0, 0x0, 0x0, 0, "TM_EG_VT"⟩,
   ⟨0x40A00208, [(0xC, 0x10)], 0x0, 0x0, 0x0, 0x0, 0x0, 0, "TM_EG_STAT"⟩,
   ⟨0x40A002C8, [(0x4, 0x10)], 0x0, 0x0, 0x0, 0x0, 0x0, 0, "TM_EG_STAT"⟩,
   ⟨0x40A00308, [(0x40, 0x10)], 0x0, 0x0, 0x0, 0x0, 0x0, 0, "TM_EG_STAT"⟩,
   ⟨0x40A00708, [(0x30, 0x10)], 0x0, 0x0, 0x0, 0x0, 0x0, 0, "TM_EG_STAT"⟩,
   ⟨0x40A04000, [(0x400, 0x10)], 0xFFFF, 0x0, 0x0, 0x0, 0x0, 0, "TM_SHP_RATE"⟩,
   ⟨0x40A04004, [(0x400, 0x10)], 0x3FFFFFFF, 0x0, 0x0, 0x0, 0x0, 0, "TM_SHP_BURST"⟩,
   ⟨0x40A04008, [(0x400, 0x10)], 0x0, 0x0, 0x0, 0x0, 0x0, 0, "TM_SHP_CREDIT"⟩,
   ⟨0x40A10000, [(0x1000, 0x10)], 0xFFFFFFFF, 0x0, 0x0, 0x0, 0x0, 0, "TM_MTR_CIR"⟩,
   ⟨0x40A10004, [(0x1000, 0x10)], 0xFFFFFFFF, 0x0, 0x0, 0x0, 0x0, 0, "TM_MTR_PIR"⟩,
   ⟨0x40A10008, [(0x1000, 0x10)], 0x3FFFFFFF, 0x0, 0x0, 0x0, 0x0, 0, "TM_MTR_CBS"⟩,
   ⟨0x40A1000C, [(0x1000, 0x10)], 0x3FFFFFF, 0x0, 0x4000000, 0x0, 0x2000000, 0, "TM_MTR_PBS"⟩,
   ⟨0x40A20000, [(0x1000, 0x20), (0x4, 0x8)], 0x0, 0x0, 0x0, 0x0, 0x0, 2, "TM_MTR_CNT_LO"⟩,
   ⟨0x40A20004, [(0x1000, 0x20), (0x4, 0x8)], 0x0, 0x0, 0x0, 0x0, 0x0, 0, "TM_MTR_CNT_HI"⟩,
   ⟨0x40A80018, [(0x2000, 0x20)], 0x0, 0x0, 0x0, 0x0, 0x0, 0, "TM_Q_W6"⟩,
   ⟨0x40AC0018, [(0x2000, 0x20)], 0x7FFFF, 0x0, 0x0, 0x0, 0x0, 0, "TM_Q_W6"⟩,
   ⟨0x40A8001C, [(0x2000, 0x20)], 0x0, 0x0, 0x0, 0x0, 0x0, 0, "TM_Q_W7"⟩,
   ⟨0x40AC001C, [(0x2000, 0x20)], 0xFFFF, 0x0, 0x0, 0x0, 0x0, 0, "TM_Q_W7"⟩]

def regRows40B_0 : List RegRow :=
  [⟨0x40B00000, [], 0x7FF, 0x0, 0x0, 0x0, 0x0, 0, "CKR_CTL"⟩,
   ⟨0x40B00004, [], 0x0, 0x7, 0x0, 0x0, 0x0, 0, "CKR_STAT"⟩,
   ⟨0x40B00040, [(0x10, 0x10)], 0xFFFFF, 0x0, 0x0, 0x0, 0x30, 0, "CKR_DEF_W0"⟩,
   ⟨0x40B00044, [(0x10, 0x10)], 0xFFFFFFFF, 0x0, 0x0, 0x0, 0x0, 0, "CKR_DEF_W1"⟩,
   ⟨0x40B00200, [(0x10, 0x20)], 0x7FFF7, 0x0, 0x0, 0x0, 0x6404, 0, "CKR_POOL_CFG"⟩,
   ⟨0x40B00204, [(0x10, 0x20)], 0x3FFFFF, 0x0, 0x0, 0x0, 0x0, 0, "CKR_POOL_FIRST"⟩,
   ⟨0x40B00208, [(0x10, 0x20)], 0x7FFFFF, 0x0, 0x0, 0x0, 0x0, 0, "CKR_POOL_COUNT"⟩,
   ⟨0x40B0020C, [(0x10, 0x20)], 0xFFFFFFFF, 0x0, 0x0, 0x0, 0x0, 2, "CKR_POOL_LINK_LO"⟩,
   ⟨0x40B00210, [(0x10, 0x20)], 0xFF, 0x0, 0x0, 0x0, 0x0, 0, "CKR_POOL_LINK_HI"⟩,
   ⟨0x40B00214, [(0x10, 0x20)], 0x0, 0x0, 0x0, 0x0, 0x0, 0, "CKR_POOL_FREE"⟩,
   ⟨0x40B00218, [(0x10, 0x20)], 0x0, 0x0, 0x80000000, 0x0, 0x0, 0, "CKR_POOL_LOW"⟩,
   ⟨0x40B00400, [(0x20, 0x10)], 0xFFFFFFFF, 0x0, 0x0, 0x0, 0x0, 0, "CKR_PM_W0"⟩,
   ⟨0x40B00404, [(0x20, 0x10)], 0xFFFFFFFF, 0x0, 0x0, 0x0, 0x0, 0, "CKR_PM_W1"⟩,
   ⟨0x40B00408, [(0x20, 0x10)], 0x3FFFF, 0x0, 0x0, 0x0, 0x0, 0, "CKR_PM_W2"⟩,
   ⟨0x40B00800, [(0x40, 0x20)], 0xF1, 0x0, 0x0, 0x0, 0xA0, 0, "CKR_RING_FCTL"⟩,
   ⟨0x40B00804, [(0x40, 0x20)], 0x0, 0x18, 0x0, 0x0, 0x0, 0, "CKR_RING_FSTAT"⟩,
   ⟨0x40B00808, [(0x40, 0x20)], 0x3FFF03FF, 0x400, 0x0, 0x0, 0xC0, 0, "CKR_RING_CFG"⟩,
   ⟨0x40B0080C, [(0x40, 0x20)], 0xFFFFFFFF, 0x0, 0x0, 0x0, 0x0, 2, "CKR_RING_BASE_LO"⟩,
   ⟨0x40B00810, [(0x40, 0x20)], 0xFFFF, 0x0, 0x0, 0x0, 0x0, 0, "CKR_RING_HI"⟩,
   ⟨0x40B00814, [(0x40, 0x20)], 0xFFFFFFFF, 0x0, 0x0, 0x0, 0x0, 0, "CKR_RING_DATA_LO"⟩,
   ⟨0x40B00818, [(0x40, 0x20)], 0xFFFFFFFF, 0x0, 0x0, 0x0, 0x0, 0, "CKR_RING_PROD"⟩,
   ⟨0x40B0081C, [(0x40, 0x20)], 0xFFFFFFFF, 0x0, 0x0, 0x0, 0x0, 0, "CKR_RING_CONS"⟩,
   ⟨0x40B01000, [(0x100, 0x20)], 0xFFFFFFFF, 0x0, 0x0, 0x0, 0x0, 0, "CKR_FLT_W0"⟩,
   ⟨0x40B01004, [(0x100, 0x20)], 0xFFFFFFFF, 0x0, 0x0, 0x0, 0x0, 0, "CKR_FLT_W1"⟩,
   ⟨0x40B01008, [(0x100, 0x20)], 0x3FFFFFF, 0x0, 0x0, 0x0, 0x0, 0, "CKR_FLT_W2"⟩,
   ⟨0x40B0100C, [(0x100, 0x20)], 0x3FFF, 0x0, 0x0, 0x0, 0x0, 0, "CKR_FLT_W3"⟩,
   ⟨0x40B01010, [(0x100, 0x20)], 0xFFFFFFFF, 0x0, 0x0, 0x0, 0x0, 0, "CKR_FLT_W4"⟩,
   ⟨0x40B04000, [(0x10, 0x20), (0x4, 0x8)], 0x0, 0x0, 0x0, 0x0, 0x0, 2, "CKR_POOL_CNT_LO"⟩,
   ⟨0x40B04004, [(0x10, 0x20), (0x4, 0x8)], 0x0, 0x0, 0x0, 0x0, 0x0, 0, "CKR_POOL_CNT_HI"⟩,
   ⟨0x40B05000, [(0x10, 0x20), (0x4, 0x8)], 0x0, 0x0, 0x0, 0x0, 0x0, 2, "CKR_SRC_CNT_LO"⟩,
   ⟨0x40B05004, [(0x10, 0x20), (0x4, 0x8)], 0x0, 0x0, 0x0, 0x0, 0x0, 0, "CKR_SRC_CNT_HI"⟩,
   ⟨0x40B06000, [(0x40, 0x10), (0x2, 0x8)], 0x0, 0x0, 0x0, 0x0, 0x0, 2, "CKR_RING_CNT_LO"⟩,
   ⟨0x40B06004, [(0x40, 0x10), (0x2, 0x8)], 0x0, 0x0, 0x0, 0x0, 0x0, 0, "CKR_RING_CNT_HI"⟩,
   ⟨0x40B80000, [], 0x0, 0x1, 0x0, 0x0, 0x0, 0, "LAC_STAT"⟩,
   ⟨0x40B80004, [], 0x0, 0x0, 0x0, 0x0, 0x0, 0, "LAC_COMP"⟩,
   ⟨0x40B82000, [(0x100, 0x8)], 0x0, 0x0, 0x0, 0x0, 0x0, 2, "LAC_DROP_LO"⟩,
   ⟨0x40B82004, [(0x100, 0x8)], 0x0, 0x0, 0x0, 0x0, 0x0, 0, "LAC_DROP_HI"⟩,
   ⟨0x40B90000, [(0x1000, 0x8)], 0x1FFFFFF, 0x0, 0x0, 0x0, 0x0, 0, "LAC_DOM_W0"⟩,
   ⟨0x40B90004, [(0x1000, 0x8)], 0xFFF, 0x0, 0x0, 0x0, 0x40, 0, "LAC_DOM_W1"⟩]

def regRows40C_0 : List RegRow :=
  [⟨0x40C00000, [], 0x0, 0x0, 0x0, 0x0, 0x10340, 0, "AWL_INFO"⟩,
   ⟨0x40C00010, [], 0x0, 0x0, 0x0, 0x0, 0x0, 2, "AWL_EXC_SUM_LO"⟩,
   ⟨0x40C00014, [], 0x0, 0x0, 0x0, 0x0, 0x0, 0, "AWL_EXC_SUM_HI"⟩,
   ⟨0x40C00100, [(0x8, 0x4)], 0x1FFFF, 0x0, 0x0, 0x0, 0x10000, 0, "AWL_CLU_CFG"⟩,
   ⟨0x40C00200, [(0x8, 0x4)], 0x0, 0x0, 0xFF, 0x0, 0x0, 0, "AWL_EVT"⟩,
   ⟨0x40C10000, [(0x40, 0x100)], 0xF1, 0x0, 0x0, 0x0, 0xA0, 0, "AWL_FCTL"⟩,
   ⟨0x40C10004, [(0x40, 0x100)], 0x0, 0x18, 0x0, 0x0, 0x0, 0, "AWL_FSTAT"⟩,
   ⟨0x40C10040, [(0x40, 0x100), (0x4, 0x20)], 0x0, 0x6020, 0x0, 0x0, 0x0, 0, "AWL_THR_STAT"⟩,
   ⟨0x40C10044, [(0x40, 0x100), (0x4, 0x20)], 0x0, 0x0, 0x1FFFF, 0x0, 0x0, 0, "AWL_THR_CMD"⟩,
   ⟨0x40C10048, [(0x40, 0x100), (0x4, 0x20)], 0x0, 0x0, 0x0, 0x0, 0x0, 0, "AWL_EXC_PC"⟩,
   ⟨0x40C1004C, [(0x40, 0x100), (0x4, 0x20)], 0x0, 0x0, 0x0, 0x0, 0x0, 0, "AWL_EXC_INSN"⟩,
   ⟨0x40C10050, [(0x40, 0x100), (0x4, 0x20)], 0x0, 0x0, 0x0, 0x0, 0x0, 2, "AWL_EXC_ADDR_LO"⟩,
   ⟨0x40C10054, [(0x40, 0x100), (0x4, 0x20)], 0x0, 0x0, 0x0, 0x0, 0x0, 0, "AWL_EXC_ADDR_HI"⟩,
   ⟨0x40C10058, [(0x40, 0x100), (0x4, 0x20)], 0x0, 0x0, 0x0, 0x0, 0x0, 0, "AWL_EXC_INFO"⟩]

def regRows40D_0 : List RegRow :=
  [⟨0x40D00000, [], 0xFF, 0x0, 0x0, 0x0, 0x0, 0, "WELT_CTL"⟩,
   ⟨0x40D00004, [], 0x0, 0x3, 0x0, 0x0, 0x0, 0, "WELT_STAT"⟩,
   ⟨0x40D00008, [], 0xFFFFFFFF, 0x0, 0x0, 0x0, 0x0, 0, "WELT_CTX_ARG"⟩,
   ⟨0x40D0000C, [], 0x0, 0x0, 0x3FFF, 0x0, 0x0, 0, "WELT_CTX_CMD"⟩,
   ⟨0x40D00010, [], 0x0, 0x6, 0x0, 0x0, 0x0, 0, "WELT_CTX_RSP"⟩,
   ⟨0x40D00018, [], 0x7FFF, 0x0, 0x0, 0x0, 0x0, 0, "WELT_RO_BASE"⟩,
   ⟨0x40D0001C, [], 0xFF7FFF, 0x0, 0x0, 0x0, 0x4E0000, 0, "WELT_RO_CTL"⟩,
   ⟨0x40D00020, [], 0xFFFFFFFF, 0x0, 0x0, 0x0, 0x0, 2, "WELT_TSF_OFS_LO"⟩,
   ⟨0x40D00024, [], 0xFFFFFFFF, 0x0, 0x0, 0x0, 0x0, 0, "WELT_TSF_OFS_HI"⟩,
   ⟨0x40D00028, [], 0xFFFFFFFF, 0x0, 0x0, 0x0, 0x0, 2, "WELT_MLD_ADDR_LO"⟩,
   ⟨0x40D0002C, [], 0xFFFF, 0x0, 0x0, 0x0, 0x0, 0, "WELT_MLD_ADDR_HI"⟩,
   ⟨0x40D00400, [(0x10, 0x10)], 0x1FFFFFFF, 0x0, 0x0, 0x0, 0x0, 0, "WELT_WUR_CMD"⟩,
   ⟨0x40D00404, [(0x10, 0x10)], 0xFF, 0x0, 0x0, 0x0, 0xA, 0, "WELT_WUR_TIME"⟩,
   ⟨0x40D00408, [(0x10, 0x10)], 0x0, 0x8, 0x0, 0x0, 0x0, 0, "WELT_WUR_STAT"⟩,
   ⟨0x40D01000, [(0x3, 0x100)], 0xFFFFFFF, 0x0, 0x0, 0x0, 0x0, 0, "WELT_CFG"⟩,
   ⟨0x40D01004, [(0x3, 0x100)], 0xFF, 0x0, 0x0, 0x0, 0x12, 0, "WELT_SYNC"⟩,
   ⟨0x40D01008, [(0x3, 0x100)], 0xFFFFF, 0x0, 0x0, 0x0, 0x0, 0, "WELT_WUR"⟩,
   ⟨0x40D0100C, [(0x3, 0x100)], 0xFF1FF, 0x0, 0x0, 0x0, 0x0, 0, "WELT_GKEY"⟩,
   ⟨0x40D01010, [(0x3, 0x100)], 0xFFFFFFFF, 0x0, 0x0, 0x0, 0x70000A47, 0, "WELT_EDCA"⟩,
   ⟨0x40D01014, [(0x3, 0x100)], 0xFFFFFFFF, 0x0, 0x0, 0x0, 0x70000643, 0, "WELT_EDCA"⟩,
   ⟨0x40D01018, [(0x3, 0x100)], 0xFFFFFFFF, 0x0, 0x0, 0x0, 0x7005E431, 0, "WELT_EDCA"⟩,
   ⟨0x40D0101C, [(0x3, 0x100)], 0xFFFFFFFF, 0x0, 0x0, 0x0, 0x7002F321, 0, "WELT_EDCA"⟩,
   ⟨0x40D01020, [(0x3, 0x100)], 0xFFFFFFFF, 0x0, 0x0, 0x0, 0x0, 0, "WELT_LIFE"⟩,
   ⟨0x40D01028, [(0x3, 0x100)], 0xFFFFFFFF, 0x0, 0x0, 0x0, 0x0, 2, "WELT_ADDR_LO"⟩,
   ⟨0x40D0102C, [(0x3, 0x100)], 0xFFFF, 0x0, 0x0, 0x0, 0x0, 0, "WELT_ADDR_HI"⟩,
   ⟨0x40D01040, [(0x3, 0x100)], 0x0, 0x0, 0x0, 0x0, 0x0, 0, "WELT_CNT_0"⟩,
   ⟨0x40D01044, [(0x3, 0x100)], 0x0, 0x0, 0x0, 0x0, 0x0, 0, "WELT_CNT_1"⟩,
   ⟨0x40D01048, [(0x3, 0x100)], 0x0, 0x0, 0x0, 0x0, 0x0, 0, "WELT_CNT_2"⟩,
   ⟨0x40D02000, [(0x20, 0x4)], 0x0, 0xFFFFFFFF, 0x0, 0x0, 0x0, 0, "WELT_HALF"⟩,
   ⟨0x40D02100, [(0x40, 0x4)], 0x0, 0x0, 0x0, 0x0, 0x0, 0, "WELT_TIM"⟩,
   ⟨0x40D10000, [(0x812, 0x20), (0x8, 0x4)], 0x0, 0x0, 0xFFFFFFFF, 0x0, 0x0, 0, "WELT_KEY"⟩,
   ⟨0x40D40000, [(0x400, 0x100)], 0x3FFFC, 0x0, 0x0, 0x0, 0x0, 0, "STA_W0"⟩,
   ⟨0x40D40004, [(0x400, 0x100)], 0xFFFFFFFF, 0x0, 0x0, 0x0, 0x0, 2, "STA_MLD_LO"⟩,
   ⟨0x40D40008, [(0x400, 0x100)], 0xFFFF, 0x0, 0x0, 0x0, 0x0, 0, "STA_MLD_HI"⟩,
   ⟨0x40D4000C, [(0x400, 0x100), (0x3, 0x8)], 0xFFFFFFFF, 0x0, 0x0, 0x0, 0x0, 2, "STA_LINK_LO"⟩,
   ⟨0x40D40010, [(0x400, 0x100), (0x3, 0x8)], 0xFFFF, 0x0, 0x0, 0x0, 0x0, 0, "STA_LINK_HI"⟩,
   ⟨0x40D40024, [(0x400, 0x100)], 0xFF000000, 0x0, 0x0, 0x0, 0x0, 0, "STA_W9"⟩,
   ⟨0x40D40028, [(0x400, 0x100)], 0x0, 0x0, 0x0, 0x0, 0x0, 0, "STA_W10"⟩,
   ⟨0x40D4002C, [(0x400, 0x100)], 0x3F3F3F, 0x0, 0x0, 0x0, 0x0, 0, "STA_W11"⟩,
   ⟨0x40D40030, [(0x400, 0x100)], 0x0, 0x0, 0x0, 0x0, 0x0, 0, "STA_W12"⟩]

def regRows40D_1 : List RegRow :=
  [⟨0x40D40034, [(0x400, 0x100), (0x2, 0x8)], 0x0, 0x0, 0x0, 0x0, 0x0, 2, "STA_TXPN_LO"⟩,
   ⟨0x40D40038, [(0x400, 0x100), (0x2, 0x8)], 0x0, 0x0, 0x0, 0x0, 0x0, 0, "STA_TXPN_HI"⟩,
   ⟨0x40D40044, [(0x400, 0x100), (0x2, 0x48), (0x9, 0x8)], 0x0, 0x0, 0x0, 0x0, 0x0, 2, "STA_RXPN_LO"⟩,
   ⟨0x40D40048, [(0x400, 0x100), (0x2, 0x48), (0x9, 0x8)], 0x0, 0x0, 0x0, 0x0, 0x0, 0, "STA_RXPN_HI"⟩,
   ⟨0x40D400D4, [(0x400, 0x100)], 0x0, 0x0, 0x0, 0x0, 0x0, 0, "STA_W53"⟩,
   ⟨0x40D400D8, [(0x400, 0x100)], 0x0, 0x0, 0x0, 0x0, 0x0, 0, "STA_W54"⟩,
   ⟨0x40D400DC, [(0x400, 0x100)], 0x1FFF, 0x0, 0x0, 0x0, 0x0, 0, "STA_W55"⟩,
   ⟨0x40D400E0, [(0x400, 0x100)], 0x0, 0x0, 0x0, 0x0, 0x0, 2, "STA_ACT_LO"⟩,
   ⟨0x40D400E4, [(0x400, 0x100)], 0x0, 0x0, 0x0, 0x0, 0x0, 0, "STA_ACT_HI"⟩,
   ⟨0x40D400E8, [(0x400, 0x100)], 0x0, 0x0, 0x0, 0x0, 0x0, 0, "STA_W58"⟩,
   ⟨0x40D400EC, [(0x400, 0x100)], 0x0, 0x0, 0x0, 0x0, 0x0, 0, "STA_W59"⟩,
   ⟨0x40D400F0, [(0x400, 0x100)], 0x7F, 0x0, 0x0, 0x0, 0x0, 0, "STA_W60"⟩,
   ⟨0x40D400F4, [(0x400, 0x100), (0x3, 0x4)], 0x0, 0x0, 0x0, 0x0, 0x0, 0, "STA_W61"⟩,
   ⟨0x40D80000, [(0x400, 0x40), (0x8, 0x8)], 0x0, 0x0, 0x0, 0x0, 0x0, 2, "STA_STAT_LO"⟩,
   ⟨0x40D80004, [(0x400, 0x40), (0x8, 0x8)], 0x0, 0x0, 0x0, 0x0, 0x0, 0, "STA_STAT_HI"⟩]

def regRows40E_0 : List RegRow :=
  [⟨0x40E00000, [(0x3, 0x40000)], 0x2, 0x0, 0x1, 0x0, 0x0, 0, "LAST_CTL"⟩,
   ⟨0x40E00004, [(0x3, 0x40000)], 0x0, 0xF8, 0x0, 0x0, 0x0, 0, "LAST_STAT"⟩,
   ⟨0x40E00008, [(0x3, 0x40000)], 0x0, 0x0, 0x3, 0x0, 0x0, 0, "LAST_SWAP"⟩,
   ⟨0x40E0000C, [(0x3, 0x40000)], 0x0, 0x0, 0x0, 0x0, 0x0, 0, "LAST_VAL"⟩,
   ⟨0x40E00010, [(0x3, 0x40000)], 0x0, 0x0, 0x0, 0x0, 0x0, 2, "LAST_CYC_LO"⟩,
   ⟨0x40E00014, [(0x3, 0x40000)], 0x0, 0x0, 0x0, 0x0, 0x0, 0, "LAST_CYC_HI"⟩,
   ⟨0x40E00018, [(0x3, 0x40000)], 0x7FFFFF, 0x0, 0x0, 0x0, 0x0, 0, "LAST_BCN_ADDR"⟩,
   ⟨0x40E0001C, [(0x3, 0x40000)], 0xFFF, 0x0, 0x0, 0x0, 0x0, 0, "LAST_BCN_LEN"⟩,
   ⟨0x40E00020, [(0x3, 0x40000), (0x2, 0x20)], 0x3FFFFFFF, 0x0, 0x0, 0x0, 0x0, 0, "LAST_BASE_NS"⟩,
   ⟨0x40E00024, [(0x3, 0x40000), (0x2, 0x20)], 0xFFFFFFFF, 0x0, 0x0, 0x0, 0x0, 2, "LAST_BASE_S_LO"⟩,
   ⟨0x40E00028, [(0x3, 0x40000), (0x2, 0x20)], 0xFFFF, 0x0, 0x0, 0x0, 0x0, 0, "LAST_BASE_S_HI"⟩,
   ⟨0x40E0002C, [(0x3, 0x40000), (0x2, 0x20)], 0xFFFFFF, 0x0, 0x0, 0x0, 0x0, 0, "LAST_CYCLE"⟩,
   ⟨0x40E00030, [(0x3, 0x40000), (0x2, 0x20)], 0x1FFF, 0x0, 0x0, 0x0, 0x0, 0, "LAST_COUNT"⟩,
   ⟨0x40E00060, [(0x3, 0x40000)], 0x0, 0x0, 0x0, 0x0, 0x0, 0, "LAST_CNT_0"⟩,
   ⟨0x40E00064, [(0x3, 0x40000)], 0x0, 0x0, 0x0, 0x0, 0x0, 0, "LAST_CNT_1"⟩,
   ⟨0x40E00068, [(0x3, 0x40000)], 0x0, 0x0, 0x0, 0x0, 0x0, 0, "LAST_CNT_2"⟩,
   ⟨0x40E0006C, [(0x3, 0x40000)], 0x0, 0x0, 0x0, 0x0, 0x0, 0, "LAST_CNT_3"⟩,
   ⟨0x40E00070, [(0x3, 0x40000), (0x4, 0x4)], 0xFFFFFFFF, 0x0, 0x0, 0x0, 0x0, 0, "LAST_AMEND_W"⟩,
   ⟨0x40E00080, [(0x3, 0x40000)], 0x0, 0x0, 0x80000FFF, 0x0, 0x0, 0, "LAST_AMEND_CMD"⟩,
   ⟨0x40E10000, [(0x3, 0x40000), (0x2, 0x10000), (0x1000, 0x10)], 0xFFFFFFF, 0x0, 0x0, 0x0, 0x0, 0, "LAST_E0"⟩,
   ⟨0x40E10004, [(0x3, 0x40000), (0x2, 0x10000), (0x1000, 0x10)], 0xFFFFFFFF, 0x0, 0x0, 0x0, 0x0, 0, "LAST_E1"⟩,
   ⟨0x40E10008, [(0x3, 0x40000), (0x2, 0x10000), (0x1000, 0x10)], 0xFF1FFFFF, 0x0, 0x0, 0x0, 0x0, 0, "LAST_E2"⟩,
   ⟨0x40E1000C, [(0x3, 0x40000), (0x2, 0x10000), (0x1000, 0x10)], 0xFF1F, 0x0, 0x0, 0x0, 0x0, 0, "LAST_E3"⟩,
   ⟨0x40E30000, [(0x3, 0x40000), (0x2, 0x8000), (0x2000, 0x4)], 0x7FFFFFF, 0x0, 0x0, 0x0, 0x0, 0, "LAST_LIST"⟩]

def regRows410_0 : List RegRow :=
  [⟨0x41010300, [(0x4, 0x1000)], 0x0, 0x100, 0x80, 0x0, 0x0, 0, "RFS_FIFO_STAT"⟩,
   ⟨0x41000000, [(0x3, 0x100000)], 0xF1, 0x0, 0x0, 0x0, 0xA0, 0, "RFS_FCTL"⟩,
   ⟨0x41000004, [(0x3, 0x100000)], 0x0, 0x18, 0x0, 0x0, 0x0, 0, "RFS_FSTAT"⟩,
   ⟨0x41000008, [], 0x0, 0x0, 0x0, 0x0, 0x500124, 0, "RFS_INFO"⟩,
   ⟨0x41000010, [(0x3, 0x100000)], 0x0, 0x20, 0x8, 0x0, 0x0, 0, "RFS_SYNTH"⟩,
   ⟨0x41000014, [(0x3, 0x100000)], 0xFF, 0x0, 0x0, 0x0, 0x32, 0, "RFS_HOLD"⟩,
   ⟨0x41000020, [(0x3, 0x100000)], 0xFFFFFFFF, 0x0, 0x0, 0x0, 0x0, 2, "RFS_NCO_RX_LO"⟩,
   ⟨0x41000024, [(0x3, 0x100000)], 0xFFFF, 0x0, 0x0, 0x0, 0x0, 0, "RFS_NCO_RX_HI"⟩,
   ⟨0x41000028, [(0x3, 0x100000)], 0xFFFFFFFF, 0x0, 0x0, 0x0, 0x0, 2, "RFS_NCO_TX_LO"⟩,
   ⟨0x4100002C, [(0x3, 0x100000)], 0xFFFF, 0x0, 0x0, 0x0, 0x0, 0, "RFS_NCO_TX_HI"⟩,
   ⟨0x41000030, [(0x3, 0x100000)], 0x0, 0x4, 0x1, 0x0, 0x0, 0, "RFS_RETUNE"⟩,
   ⟨0x41000040, [(0x3, 0x100000)], 0x1FDF6, 0x0, 0x1, 0x0, 0x14084, 0, "RFS_CAL_CTL"⟩,
   ⟨0x41000044, [(0x3, 0x100000)], 0x0, 0x70, 0x0, 0x4, 0x0, 0, "RFS_CAL_STAT"⟩,
   ⟨0x41000048, [(0x3, 0x100000)], 0x0, 0x0, 0x0, 0x0, 0x0, 0, "RFS_TEMP"⟩,
   ⟨0x4100004C, [(0x3, 0x100000)], 0x0, 0x0, 0x0, 0x0, 0x0, 0, "RFS_EVT_CNT0"⟩,
   ⟨0x41000050, [(0x3, 0x100000)], 0x0, 0x0, 0x0, 0x0, 0x0, 0, "RFS_EVT_CNT1"⟩,
   ⟨0x41000080, [(0x3, 0x100000)], 0x0, 0x0, 0x0, 0x0, 0x0, 2, "RFS_NCO_RX_ACT_LO"⟩,
   ⟨0x41000084, [(0x3, 0x100000)], 0x0, 0x0, 0x0, 0x0, 0x0, 0, "RFS_NCO_RX_ACT_HI"⟩,
   ⟨0x41000088, [(0x3, 0x100000)], 0x0, 0x0, 0x0, 0x0, 0x0, 2, "RFS_NCO_TX_ACT_LO"⟩,
   ⟨0x4100008C, [(0x3, 0x100000)], 0x0, 0x0, 0x0, 0x0, 0x0, 0, "RFS_NCO_TX_ACT_HI"⟩,
   ⟨0x41000060, [(0x3, 0x100000)], 0xFFFFFFFF, 0x0, 0x0, 0x0, 0x140A1428, 0, "RFS_FE_TIME"⟩,
   ⟨0x41000064, [(0x3, 0x100000)], 0x7FFF7, 0x100000, 0x0, 0x0, 0x0, 0, "RFS_FE_CTL"⟩,
   ⟨0x41000068, [], 0x0, 0x0, 0x0, 0x0, 0x0, 0, "RFS_STR_STAT"⟩,
   ⟨0x4100006C, [(0x3, 0x100000)], 0x0, 0x6, 0x0, 0x0, 0x0, 0, "RFS_MASK_STAT"⟩,
   ⟨0x41000070, [(0x3, 0x100000)], 0x0, 0x0, 0x0, 0x0, 0x0, 0, "RFS_MASK_CNT"⟩,
   ⟨0x41000800, [(0x3, 0x100000), (0x2, 0x80), (0x1F, 0x4)], 0xFFFFFFFF, 0x0, 0x0, 0x0, 0x0, 0, "RFS_FIR"⟩,
   ⟨0x41000A00, [(0x3, 0x100000), (0x5, 0x20), (0x8, 0x4)], 0x3FF03FF, 0x0, 0x0, 0x0, 0x0, 0, "RFS_MASK"⟩,
   ⟨0x41010000, [(0x4, 0x1000)], 0x7F, 0x0, 0x0, 0x0, 0x12, 0, "RFS_DIV"⟩,
   ⟨0x41010004, [(0x4, 0x1000)], 0x3F03FF, 0x0, 0x0, 0x0, 0x1E5EF7, 0, "RFS_GAIN"⟩,
   ⟨0x41010008, [(0x4, 0x1000)], 0x0, 0x0, 0x0, 0x0, 0x0, 0, "RFS_DIV_CNT"⟩,
   ⟨0x41010010, [(0x4, 0x1000)], 0x1FF1F, 0x0, 0x0, 0x0, 0x10000, 0, "RFS_TUNE"⟩,
   ⟨0x41010014, [(0x4, 0x1000)], 0x0, 0x0, 0x0, 0x0, 0x0, 0, "RFS_MISM"⟩,
   ⟨0x41010018, [(0x4, 0x1000)], 0x7FF, 0x1000, 0x0, 0x0, 0x580, 0, "RFS_VSWR"⟩,
   ⟨0x41010040, [(0x4, 0x1000)], 0x0, 0x0, 0x0, 0x0, 0x0, 0, "RFS_CANC_CTL"⟩,
   ⟨0x41010044, [(0x4, 0x1000)], 0x0, 0x0, 0x0, 0x0, 0x0, 0, "RFS_CANC_STAT"⟩,
   ⟨0x41010400, [(0x4, 0x1000), (0x40, 0x4)], 0x0, 0x0, 0x0, 0x0, 0x0, 0, "RFS_CANC_COEF"⟩]

def regRows411_0 : List RegRow :=
  [⟨0x41110300, [(0x4, 0x1000)], 0x0, 0x100, 0x80, 0x0, 0x0, 0, "RFS_FIFO_STAT"⟩,
   ⟨0x41000000, [(0x3, 0x100000)], 0xF1, 0x0, 0x0, 0x0, 0xA0, 0, "RFS_FCTL"⟩,
   ⟨0x41000004, [(0x3, 0x100000)], 0x0, 0x18, 0x0, 0x0, 0x0, 0, "RFS_FSTAT"⟩,
   ⟨0x41100008, [], 0x0, 0x0, 0x0, 0x0, 0x640634, 0, "RFS_INFO"⟩,
   ⟨0x41000010, [(0x3, 0x100000)], 0x0, 0x20, 0x8, 0x0, 0x0, 0, "RFS_SYNTH"⟩,
   ⟨0x41000014, [(0x3, 0x100000)], 0xFF, 0x0, 0x0, 0x0, 0x32, 0, "RFS_HOLD"⟩,
   ⟨0x41000020, [(0x3, 0x100000)], 0xFFFFFFFF, 0x0, 0x0, 0x0, 0x0, 2, "RFS_NCO_RX_LO"⟩,
   ⟨0x41000024, [(0x3, 0x100000)], 0xFFFF, 0x0, 0x0, 0x0, 0x0, 0, "RFS_NCO_RX_HI"⟩,
   ⟨0x41000028, [(0x3, 0x100000)], 0xFFFFFFFF, 0x0, 0x0, 0x0, 0x0, 2, "RFS_NCO_TX_LO"⟩,
   ⟨0x4100002C, [(0x3, 0x100000)], 0xFFFF, 0x0, 0x0, 0x0, 0x0, 0, "RFS_NCO_TX_HI"⟩,
   ⟨0x41000030, [(0x3, 0x100000)], 0x0, 0x4, 0x1, 0x0, 0x0, 0, "RFS_RETUNE"⟩,
   ⟨0x41000040, [(0x3, 0x100000)], 0x1FDF6, 0x0, 0x1, 0x0, 0x14084, 0, "RFS_CAL_CTL"⟩,
   ⟨0x41000044, [(0x3, 0x100000)], 0x0, 0x70, 0x0, 0x4, 0x0, 0, "RFS_CAL_STAT"⟩,
   ⟨0x41000048, [(0x3, 0x100000)], 0x0, 0x0, 0x0, 0x0, 0x0, 0, "RFS_TEMP"⟩,
   ⟨0x4100004C, [(0x3, 0x100000)], 0x0, 0x0, 0x0, 0x0, 0x0, 0, "RFS_EVT_CNT0"⟩,
   ⟨0x41000050, [(0x3, 0x100000)], 0x0, 0x0, 0x0, 0x0, 0x0, 0, "RFS_EVT_CNT1"⟩,
   ⟨0x41000080, [(0x3, 0x100000)], 0x0, 0x0, 0x0, 0x0, 0x0, 2, "RFS_NCO_RX_ACT_LO"⟩,
   ⟨0x41000084, [(0x3, 0x100000)], 0x0, 0x0, 0x0, 0x0, 0x0, 0, "RFS_NCO_RX_ACT_HI"⟩,
   ⟨0x41000088, [(0x3, 0x100000)], 0x0, 0x0, 0x0, 0x0, 0x0, 2, "RFS_NCO_TX_ACT_LO"⟩,
   ⟨0x4100008C, [(0x3, 0x100000)], 0x0, 0x0, 0x0, 0x0, 0x0, 0, "RFS_NCO_TX_ACT_HI"⟩,
   ⟨0x41000060, [(0x3, 0x100000)], 0xFFFFFFFF, 0x0, 0x0, 0x0, 0x140A1428, 0, "RFS_FE_TIME"⟩,
   ⟨0x41000064, [(0x3, 0x100000)], 0x7FFF7, 0x100000, 0x0, 0x0, 0x0, 0, "RFS_FE_CTL"⟩,
   ⟨0x41100068, [], 0x0, 0x2, 0x0, 0x0, 0x1C, 0, "RFS_STR_STAT"⟩,
   ⟨0x4100006C, [(0x3, 0x100000)], 0x0, 0x6, 0x0, 0x0, 0x0, 0, "RFS_MASK_STAT"⟩,
   ⟨0x41000070, [(0x3, 0x100000)], 0x0, 0x0, 0x0, 0x0, 0x0, 0, "RFS_MASK_CNT"⟩,
   ⟨0x41000800, [(0x3, 0x100000), (0x2, 0x80), (0x1F, 0x4)], 0xFFFFFFFF, 0x0, 0x0, 0x0, 0x0, 0, "RFS_FIR"⟩,
   ⟨0x41000A00, [(0x3, 0x100000), (0x5, 0x20), (0x8, 0x4)], 0x3FF03FF, 0x0, 0x0, 0x0, 0x0, 0, "RFS_MASK"⟩,
   ⟨0x41110000, [(0x4, 0x1000)], 0x7F, 0x0, 0x0, 0x0, 0x12, 0, "RFS_DIV"⟩,
   ⟨0x41110004, [(0x4, 0x1000)], 0x3F03FF, 0x0, 0x0, 0x0, 0x1E5EF7, 0, "RFS_GAIN"⟩,
   ⟨0x41110008, [(0x4, 0x1000)], 0x0, 0x0, 0x0, 0x0, 0x0, 0, "RFS_DIV_CNT"⟩,
   ⟨0x41110010, [(0x4, 0x1000)], 0x1FF1F, 0x0, 0x0, 0x0, 0x10000, 0, "RFS_TUNE"⟩,
   ⟨0x41110014, [(0x4, 0x1000)], 0x0, 0x0, 0x0, 0x0, 0x0, 0, "RFS_MISM"⟩,
   ⟨0x41110018, [(0x4, 0x1000)], 0x7FF, 0x1000, 0x0, 0x0, 0x580, 0, "RFS_VSWR"⟩,
   ⟨0x41110040, [(0x4, 0x1000)], 0xFF01F3, 0x0, 0x4, 0x0, 0xE2, 0, "RFS_CANC_CTL"⟩,
   ⟨0x41110044, [(0x4, 0x1000)], 0x0, 0x0, 0x0, 0x0, 0x0, 0, "RFS_CANC_STAT"⟩,
   ⟨0x41110400, [(0x4, 0x1000), (0x40, 0x4)], 0xFFFFFFFF, 0x0, 0x0, 0x0, 0x0, 0, "RFS_CANC_COEF"⟩]

def regRows412_0 : List RegRow :=
  [⟨0x41210300, [(0x8, 0x1000)], 0x0, 0x100, 0x80, 0x0, 0x0, 0, "RFS_FIFO_STAT"⟩,
   ⟨0x41000000, [(0x3, 0x100000)], 0xF1, 0x0, 0x0, 0x0, 0xA0, 0, "RFS_FCTL"⟩,
   ⟨0x41000004, [(0x3, 0x100000)], 0x0, 0x18, 0x0, 0x0, 0x0, 0, "RFS_FSTAT"⟩,
   ⟨0x41200008, [], 0x0, 0x0, 0x0, 0x0, 0x5D0748, 0, "RFS_INFO"⟩,
   ⟨0x41000010, [(0x3, 0x100000)], 0x0, 0x20, 0x8, 0x0, 0x0, 0, "RFS_SYNTH"⟩,
   ⟨0x41000014, [(0x3, 0x100000)], 0xFF, 0x0, 0x0, 0x0, 0x32, 0, "RFS_HOLD"⟩,
   ⟨0x41000020, [(0x3, 0x100000)], 0xFFFFFFFF, 0x0, 0x0, 0x0, 0x0, 2, "RFS_NCO_RX_LO"⟩,
   ⟨0x41000024, [(0x3, 0x100000)], 0xFFFF, 0x0, 0x0, 0x0, 0x0, 0, "RFS_NCO_RX_HI"⟩,
   ⟨0x41000028, [(0x3, 0x100000)], 0xFFFFFFFF, 0x0, 0x0, 0x0, 0x0, 2, "RFS_NCO_TX_LO"⟩,
   ⟨0x4100002C, [(0x3, 0x100000)], 0xFFFF, 0x0, 0x0, 0x0, 0x0, 0, "RFS_NCO_TX_HI"⟩,
   ⟨0x41000030, [(0x3, 0x100000)], 0x0, 0x4, 0x1, 0x0, 0x0, 0, "RFS_RETUNE"⟩,
   ⟨0x41000040, [(0x3, 0x100000)], 0x1FDF6, 0x0, 0x1, 0x0, 0x14084, 0, "RFS_CAL_CTL"⟩,
   ⟨0x41000044, [(0x3, 0x100000)], 0x0, 0x70, 0x0, 0x4, 0x0, 0, "RFS_CAL_STAT"⟩,
   ⟨0x41000048, [(0x3, 0x100000)], 0x0, 0x0, 0x0, 0x0, 0x0, 0, "RFS_TEMP"⟩,
   ⟨0x4100004C, [(0x3, 0x100000)], 0x0, 0x0, 0x0, 0x0, 0x0, 0, "RFS_EVT_CNT0"⟩,
   ⟨0x41000050, [(0x3, 0x100000)], 0x0, 0x0, 0x0, 0x0, 0x0, 0, "RFS_EVT_CNT1"⟩,
   ⟨0x41000080, [(0x3, 0x100000)], 0x0, 0x0, 0x0, 0x0, 0x0, 2, "RFS_NCO_RX_ACT_LO"⟩,
   ⟨0x41000084, [(0x3, 0x100000)], 0x0, 0x0, 0x0, 0x0, 0x0, 0, "RFS_NCO_RX_ACT_HI"⟩,
   ⟨0x41000088, [(0x3, 0x100000)], 0x0, 0x0, 0x0, 0x0, 0x0, 2, "RFS_NCO_TX_ACT_LO"⟩,
   ⟨0x4100008C, [(0x3, 0x100000)], 0x0, 0x0, 0x0, 0x0, 0x0, 0, "RFS_NCO_TX_ACT_HI"⟩,
   ⟨0x41000060, [(0x3, 0x100000)], 0xFFFFFFFF, 0x0, 0x0, 0x0, 0x140A1428, 0, "RFS_FE_TIME"⟩,
   ⟨0x41000064, [(0x3, 0x100000)], 0x7FFF7, 0x100000, 0x0, 0x0, 0x0, 0, "RFS_FE_CTL"⟩,
   ⟨0x41200068, [], 0x0, 0x2, 0x0, 0x0, 0x1C, 0, "RFS_STR_STAT"⟩,
   ⟨0x4100006C, [(0x3, 0x100000)], 0x0, 0x6, 0x0, 0x0, 0x0, 0, "RFS_MASK_STAT"⟩,
   ⟨0x41000070, [(0x3, 0x100000)], 0x0, 0x0, 0x0, 0x0, 0x0, 0, "RFS_MASK_CNT"⟩,
   ⟨0x41000800, [(0x3, 0x100000), (0x2, 0x80), (0x1F, 0x4)], 0xFFFFFFFF, 0x0, 0x0, 0x0, 0x0, 0, "RFS_FIR"⟩,
   ⟨0x41000A00, [(0x3, 0x100000), (0x5, 0x20), (0x8, 0x4)], 0x3FF03FF, 0x0, 0x0, 0x0, 0x0, 0, "RFS_MASK"⟩,
   ⟨0x41210000, [(0x8, 0x1000)], 0x7F, 0x0, 0x0, 0x0, 0x12, 0, "RFS_DIV"⟩,
   ⟨0x41210004, [(0x8, 0x1000)], 0x3F03FF, 0x0, 0x0, 0x0, 0x1E5EF7, 0, "RFS_GAIN"⟩,
   ⟨0x41210008, [(0x8, 0x1000)], 0x0, 0x0, 0x0, 0x0, 0x0, 0, "RFS_DIV_CNT"⟩,
   ⟨0x41210010, [(0x8, 0x1000)], 0x1FF1F, 0x0, 0x0, 0x0, 0x10000, 0, "RFS_TUNE"⟩,
   ⟨0x41210014, [(0x8, 0x1000)], 0x0, 0x0, 0x0, 0x0, 0x0, 0, "RFS_MISM"⟩,
   ⟨0x41210018, [(0x8, 0x1000)], 0x7FF, 0x1000, 0x0, 0x0, 0x580, 0, "RFS_VSWR"⟩,
   ⟨0x41210040, [(0x8, 0x1000)], 0xFF01F3, 0x0, 0x4, 0x0, 0xE2, 0, "RFS_CANC_CTL"⟩,
   ⟨0x41210044, [(0x8, 0x1000)], 0x0, 0x0, 0x0, 0x0, 0x0, 0, "RFS_CANC_STAT"⟩,
   ⟨0x41210400, [(0x8, 0x1000), (0x40, 0x4)], 0xFFFFFFFF, 0x0, 0x0, 0x0, 0x0, 0, "RFS_CANC_COEF"⟩]

def regRows414_0 : List RegRow :=
  [⟨0x41400000, [(0x3, 0x100000)], 0xFFFF00FF, 0x0, 0x0, 0x0, 0x4CCD00AE, 0, "PHY_DET_CTL"⟩,
   ⟨0x41400004, [(0x3, 0x100000)], 0x1F1F, 0x0, 0x0, 0x0, 0xA06, 0, "PHY_RST_CTL"⟩,
   ⟨0x41400008, [(0x3, 0x100000)], 0x1FFFF, 0x0, 0x0, 0x0, 0x3EEA, 0, "PHY_TRK_CTL"⟩,
   ⟨0x4140000C, [(0x3, 0x100000)], 0x1F, 0x0, 0x0, 0x0, 0x8, 0, "PHY_DEC_CTL"⟩,
   ⟨0x41400010, [(0x3, 0x100000)], 0x0, 0x0, 0x0, 0x0, 0x0, 0, "PHY_LAST_RSSI"⟩,
   ⟨0x41400014, [(0x3, 0x100000)], 0x0, 0x0, 0x0, 0x0, 0x0, 0, "PHY_LAST_CFO"⟩,
   ⟨0x41400020, [(0x3, 0x100000)], 0x0, 0x0, 0x0, 0x0, 0x0, 0, "PHY_CNT_0"⟩,
   ⟨0x41400024, [(0x3, 0x100000)], 0x0, 0x0, 0x0, 0x0, 0x0, 0, "PHY_CNT_1"⟩,
   ⟨0x41400028, [(0x3, 0x100000)], 0x0, 0x0, 0x0, 0x0, 0x0, 0, "PHY_CNT_2"⟩,
   ⟨0x4140002C, [(0x3, 0x100000)], 0x0, 0x0, 0x0, 0x0, 0x0, 0, "PHY_CNT_3"⟩,
   ⟨0x41400030, [(0x3, 0x100000)], 0x0, 0x0, 0x0, 0x0, 0x0, 0, "PHY_CNT_4"⟩,
   ⟨0x41400034, [(0x3, 0x100000)], 0x0, 0x0, 0x0, 0x0, 0x0, 0, "PHY_CNT_5"⟩,
   ⟨0x41400038, [(0x3, 0x100000)], 0x0, 0x0, 0x0, 0x0, 0x0, 0, "PHY_CNT_6"⟩,
   ⟨0x41400040, [(0x4, 0x4)], 0xFFFF, 0x0, 0x0, 0x0, 0x0, 0, "PHY_RSSI_CAL"⟩,
   ⟨0x41400050, [(0x4, 0x4)], 0x0, 0x0, 0x0, 0x0, 0x0, 0, "PHY_RSSI_CAL"⟩,
   ⟨0x41400060, [(0x4, 0x4)], 0x0, 0x0, 0x0, 0x0, 0x0, 0, "PHY_LAST_RSSI_c"⟩,
   ⟨0x41400070, [(0x4, 0x4)], 0x0, 0x0, 0x0, 0x0, 0x0, 0, "PHY_LAST_RSSI_c"⟩,
   ⟨0x414000F0, [(0x3, 0x100000)], 0x0, 0x100, 0x0, 0x0, 0x0, 0, "PHY_NF_STAT"⟩,
   ⟨0x41400100, [(0x3, 0x100000), (0x10, 0x4)], 0x0, 0x0, 0x0, 0x0, 0x800, 0, "PHY_NF"⟩]

def regRows415_0 : List RegRow :=
  [⟨0x41400000, [(0x3, 0x100000)], 0xFFFF00FF, 0x0, 0x0, 0x0, 0x4CCD00AE, 0, "PHY_DET_CTL"⟩,
   ⟨0x41400004, [(0x3, 0x100000)], 0x1F1F, 0x0, 0x0, 0x0, 0xA06, 0, "PHY_RST_CTL"⟩,
   ⟨0x41400008, [(0x3, 0x100000)], 0x1FFFF, 0x0, 0x0, 0x0, 0x3EEA, 0, "PHY_TRK_CTL"⟩,
   ⟨0x4140000C, [(0x3, 0x100000)], 0x1F, 0x0, 0x0, 0x0, 0x8, 0, "PHY_DEC_CTL"⟩,
   ⟨0x41400010, [(0x3, 0x100000)], 0x0, 0x0, 0x0, 0x0, 0x0, 0, "PHY_LAST_RSSI"⟩,
   ⟨0x41400014, [(0x3, 0x100000)], 0x0, 0x0, 0x0, 0x0, 0x0, 0, "PHY_LAST_CFO"⟩,
   ⟨0x41400020, [(0x3, 0x100000)], 0x0, 0x0, 0x0, 0x0, 0x0, 0, "PHY_CNT_0"⟩,
   ⟨0x41400024, [(0x3, 0x100000)], 0x0, 0x0, 0x0, 0x0, 0x0, 0, "PHY_CNT_1"⟩,
   ⟨0x41400028, [(0x3, 0x100000)], 0x0, 0x0, 0x0, 0x0, 0x0, 0, "PHY_CNT_2"⟩,
   ⟨0x4140002C, [(0x3, 0x100000)], 0x0, 0x0, 0x0, 0x0, 0x0, 0, "PHY_CNT_3"⟩,
   ⟨0x41400030, [(0x3, 0x100000)], 0x0, 0x0, 0x0, 0x0, 0x0, 0, "PHY_CNT_4"⟩,
   ⟨0x41400034, [(0x3, 0x100000)], 0x0, 0x0, 0x0, 0x0, 0x0, 0, "PHY_CNT_5"⟩,
   ⟨0x41400038, [(0x3, 0x100000)], 0x0, 0x0, 0x0, 0x0, 0x0, 0, "PHY_CNT_6"⟩,
   ⟨0x41500040, [(0x4, 0x4)], 0xFFFF, 0x0, 0x0, 0x0, 0x0, 0, "PHY_RSSI_CAL"⟩,
   ⟨0x41500050, [(0x4, 0x4)], 0x0, 0x0, 0x0, 0x0, 0x0, 0, "PHY_RSSI_CAL"⟩,
   ⟨0x41500060, [(0x4, 0x4)], 0x0, 0x0, 0x0, 0x0, 0x0, 0, "PHY_LAST_RSSI_c"⟩,
   ⟨0x41500070, [(0x4, 0x4)], 0x0, 0x0, 0x0, 0x0, 0x0, 0, "PHY_LAST_RSSI_c"⟩,
   ⟨0x414000F0, [(0x3, 0x100000)], 0x0, 0x100, 0x0, 0x0, 0x0, 0, "PHY_NF_STAT"⟩,
   ⟨0x41400100, [(0x3, 0x100000), (0x10, 0x4)], 0x0, 0x0, 0x0, 0x0, 0x800, 0, "PHY_NF"⟩]

def regRows416_0 : List RegRow :=
  [⟨0x41400000, [(0x3, 0x100000)], 0xFFFF00FF, 0x0, 0x0, 0x0, 0x4CCD00AE, 0, "PHY_DET_CTL"⟩,
   ⟨0x41400004, [(0x3, 0x100000)], 0x1F1F, 0x0, 0x0, 0x0, 0xA06, 0, "PHY_RST_CTL"⟩,
   ⟨0x41400008, [(0x3, 0x100000)], 0x1FFFF, 0x0, 0x0, 0x0, 0x3EEA, 0, "PHY_TRK_CTL"⟩,
   ⟨0x4140000C, [(0x3, 0x100000)], 0x1F, 0x0, 0x0, 0x0, 0x8, 0, "PHY_DEC_CTL"⟩,
   ⟨0x41400010, [(0x3, 0x100000)], 0x0, 0x0, 0x0, 0x0, 0x0, 0, "PHY_LAST_RSSI"⟩,
   ⟨0x41400014, [(0x3, 0x100000)], 0x0, 0x0, 0x0, 0x0, 0x0, 0, "PHY_LAST_CFO"⟩,
   ⟨0x41400020, [(0x3, 0x100000)], 0x0, 0x0, 0x0, 0x0, 0x0, 0, "PHY_CNT_0"⟩,
   ⟨0x41400024, [(0x3, 0x100000)], 0x0, 0x0, 0x0, 0x0, 0x0, 0, "PHY_CNT_1"⟩,
   ⟨0x41400028, [(0x3, 0x100000)], 0x0, 0x0, 0x0, 0x0, 0x0, 0, "PHY_CNT_2"⟩,
   ⟨0x4140002C, [(0x3, 0x100000)], 0x0, 0x0, 0x0, 0x0, 0x0, 0, "PHY_CNT_3"⟩,
   ⟨0x41400030, [(0x3, 0x100000)], 0x0, 0x0, 0x0, 0x0, 0x0, 0, "PHY_CNT_4"⟩,
   ⟨0x41400034, [(0x3, 0x100000)], 0x0, 0x0, 0x0, 0x0, 0x0, 0, "PHY_CNT_5"⟩,
   ⟨0x41400038, [(0x3, 0x100000)], 0x0, 0x0, 0x0, 0x0, 0x0, 0, "PHY_CNT_6"⟩,
   ⟨0x41600040, [(0x8, 0x4)], 0xFFFF, 0x0, 0x0, 0x0, 0x0, 0, "PHY_RSSI_CAL"⟩,
   ⟨0x41600060, [(0x8, 0x4)], 0x0, 0x0, 0x0, 0x0, 0x0, 0, "PHY_LAST_RSSI_c"⟩,
   ⟨0x414000F0, [(0x3, 0x100000)], 0x0, 0x100, 0x0, 0x0, 0x0, 0, "PHY_NF_STAT"⟩,
   ⟨0x41400100, [(0x3, 0x100000), (0x10, 0x4)], 0x0, 0x0, 0x0, 0x0, 0x800, 0, "PHY_NF"⟩]

/-- The rows of the register window whose address divided by 1 MiB is `w`. -/
def regRows (w : Nat) : List RegRow :=
  match w with
  | 0x400 => regRows400_0
  | 0x401 => regRows401_0
  | 0x402 => regRows402_0 ++ regRows402_1
  | 0x403 => regRows403_0
  | 0x404 => regRows404_0
  | 0x405 => regRows405_0
  | 0x406 => regRows406_0
  | 0x407 => regRows407_0
  | 0x408 => regRows408_0
  | 0x409 => regRows409_0 ++ regRows409_1
  | 0x40A => regRows40A_0
  | 0x40B => regRows40B_0
  | 0x40C => regRows40C_0
  | 0x40D => regRows40D_0 ++ regRows40D_1
  | 0x40E => regRows40E_0
  | 0x410 => regRows410_0
  | 0x411 => regRows411_0
  | 0x412 => regRows412_0
  | 0x414 => regRows414_0
  | 0x415 => regRows415_0
  | 0x416 => regRows416_0
  | _ => []

end Sys2Proof.Machine
end

