-- ==== Sys2Proof/Machine/State.lean ====
section
/-!
DEFINITION. The state of the block: the hardware and the queue of the commands that wait, first in, first out; the
reasons a step can stop; and the state right after reset.
-/
namespace Sys2Proof.Machine

structure State where
  hw : Hw
  /-- The commands that wait, the first to be taken in front. -/
  pending : List Instr
deriving DecidableEq, Repr

/-- Why a step can fault: no command of this block stops the machine, and no constructor stands here. -/
inductive Fault where
deriving DecidableEq, Repr

/-- Why a step can be refused. -/
inductive Refusal where
  /-- Raised by exec's arms of commands that have no meaning yet (safe). -/
  | notModelled (mnemonic : String)
deriving DecidableEq, Repr

/-! ### Reset (R565, R566, R569) -/

/-- Elapsed time at the release of the main-domain reset of a power-on: no fixed value; that of the timeline of chapter
19 (DESIGN CHOICE, log 2). -/
def resetEt : Nat := 2200000

/-- A seed drawn from the random source, never zero (R503). -/
def resetSeed (n : Nat) : Word := if Config.randomWord n = 0 then 1 else Config.randomWord n

/-- The key of the heel key latch: 256 bits from the random source (R537). -/
def resetKey : Nat := (List.range 8).foldl (fun acc n => acc * 2 ^ 32 + (Config.randomWord n).toNat) 0

/-- A DRAM channel at reset, with its seed. -/
def resetChannel (seed : Word) : DramChannel := ⟨resetEt, [], seed, [], none, false, false⟩

/-- PHY_x_RSSI_CAL_c as loaded from OTP (R168): 4 chains of A and B, 8 of C, at their register addresses. -/
def resetTrims (x chains : Nat) : NMap Word :=
  (List.range chains).map fun c => (0x41400040 + 0x100000 * x + 4 * c, (Config.rssiTrim (8 * x + c)).setWidth 32)

/-- The hardware right after the release of the main-domain reset of a power-on: every register at its reset word but
SYS_RST_REC, which records cause 0, HEEL_LOST and the first cold boot, and the RSSI trims; the Heel in Run; core 0 waiting for the ROM; the
lifecycle Blank; the sweep and the temperature samples due. -/
def Hw.reset : Hw where
  regs := (0x40000700, 0x00010100) :: (resetTrims 0 4 ++ resetTrims 1 4 ++ resetTrims 2 8)
  mem := []
  et := resetEt
  etFrac := 0
  nt := 0
  rem := 0
  tbLock := false
  etErr := 0
  timers := [(.temp 2, resetEt + 1024000), (.temp 1, resetEt + 1024000), (.temp 0, resetEt + 1024000),
    (.sweep, resetEt + 1024000)]
  latches := []
  free := 10
  time := ⟨[], [], none, [], [], none⟩
  speed := ⟨none, 0, 0, false, none, [], false⟩
  slices := []
  chains := []
  ldpc := ⟨[], []⟩
  txStatus := []
  fabric := ⟨[], [], 0, 0, [], [], [], 7, [], [], [], []⟩
  traffic := ⟨[], [], [], resetEt⟩
  shank := ⟨[], [], [], []⟩
  dram := ⟨[(0, resetChannel (resetSeed 8)), (1, resetChannel (resetSeed 9))], false, []⟩
  awl := ⟨[], [], [], [], [], []⟩
  bench := ⟨[], [], []⟩
  last := []
  coex := []
  welt := ⟨[], [], [], [], [], [], [], [], [], [], [], 0, [], [], []⟩
  wire := []
  eth := []
  router := ⟨[], []⟩
  lanes := []
  uzovi := ⟨[], [], [], 0⟩
  iltil := ⟨[], [], none, none, 0, resetKey, 0, none⟩
  heel := ⟨false, 0, none, 0, 0, 0, 0, 0, none, true, true, true, 0, 0, true, true, true, false, true⟩
  boot := ⟨none, false, true, false, false, []⟩
  fifo := []

/-- The block right after reset: no command waits. -/
def State.reset : State := ⟨Hw.reset, []⟩

end Sys2Proof.Machine
end

