-- ==== Sys2Proof/Machine/Ops.lean ====
section
/-!
DEFINITION. The named operations every meaning is built from: the sparse tables, the register store and its fields,
memory, free values, timers, and the one door by which a command's effect leaves (`State.effect`).
-/
namespace Sys2Proof.Machine

/-! ### Sparse tables -/

/-- The entry of key `k`. -/
def kget (m : NMap α) (k : Nat) : Option α :=
  match m with
  | [] => none
  | (k', v) :: t => if k = k' then some v else kget t k

/-- `m` with the entry of key `k` set to `v`, keeping the keys in rising order. -/
def kput (m : NMap α) (k : Nat) (v : α) : NMap α :=
  match m with
  | [] => [(k, v)]
  | (k', v') :: t => if k < k' then (k, v) :: (k', v') :: t else if k = k' then (k, v) :: t else (k', v') :: kput t k v

/-- `m` without the entry of key `k`. -/
def kdel (m : NMap α) (k : Nat) : NMap α :=
  match m with
  | [] => []
  | (k', v) :: t => if k = k' then kdel t k else (k', v) :: kdel t k

/-- The entry of key `k`, or `d` where there is none. -/
def kgetD (d : α) (m : NMap α) (k : Nat) : α := (kget m k).getD d

/-! ### The register table -/

/-- Whether `d` is the offset of an instance of the dimensions `dims`. -/
def inDims (dims : List (Nat × Nat)) (d : Nat) : Bool :=
  match dims with
  | [] => d == 0
  | (n, s) :: t => decide (d / s < n) && inDims t (d % s)

/-- The row of the register at `a` among `rows`. -/
def findRow (rows : List RegRow) (a : Nat) : Option RegRow :=
  match rows with
  | [] => none
  | r :: t => if decide (r.base ≤ a) && inDims r.dims (a - r.base) then some r else findRow t a

/-- The row of the register at `a`; none: `a` is no register (R19). -/
def regRow (a : Nat) : Option RegRow := findRow (regRows (a / 0x100000)) a

/-- The reset word of the register at `a` (R19). -/
def resetWord (a : Nat) : Word :=
  match regRow a with
  | some r => BitVec.ofNat 32 r.reset
  | none => 0

/-! ### Registers -/

/-- The word the register at `a` holds. -/
def Hw.word (h : Hw) (a : Nat) : Word :=
  match kget h.regs a with
  | some w => w
  | none => resetWord a

/-- `h` with the register at `a` holding `w`. -/
def Hw.setWord (h : Hw) (a : Nat) (w : Word) : Hw := { h with regs := kput h.regs a w }

/-- The value of a register field. -/
def Hw.get (h : Hw) (f : RF) : Nat := bitsOf (h.word f.addr) f.lo f.len

/-- `h` with a register field holding the low bits of `v`. -/
def Hw.set (h : Hw) (f : RF) (v : Nat) : Hw := h.setWord f.addr (setBitsOf (h.word f.addr) f.lo f.len v)

/-- A field read as a flag. -/
def Hw.flag (h : Hw) (f : RF) : Bool := h.get f != 0

/-- A field set to 1 or 0 by a condition. -/
def Hw.setFlag (h : Hw) (f : RF) (b : Bool) : Hw := h.set f (if b then 1 else 0)

/-- A field read as a two's-complement number (R10). -/
def Hw.getI (h : Hw) (f : RF) : Int := signedOf f.len (h.get f)

/-- A field set to a two's-complement number. -/
def Hw.setI (h : Hw) (f : RF) (v : Int) : Hw := h.set f (unsignedOf f.len v)

/-- A saturating counter field raised by `n`. -/
def Hw.bump (h : Hw) (f : RF) (n : Nat := 1) : Hw := h.set f (min (h.get f + n) (2 ^ f.len - 1))

/-- A wrapping counter field raised by `n`. -/
def Hw.count (h : Hw) (f : RF) (n : Nat := 1) : Hw := h.set f (h.get f + n)

/-- A register written by firmware: RW and RWS bits take the value, W1C bits written 1 clear, every other bit keeps
its value (R18, R19). -/
def Hw.writeFields (h : Hw) (a : Nat) (v : Word) : Hw :=
  match regRow a with
  | none => h
  | some r =>
    let rw : Word := BitVec.ofNat 32 (r.rw ||| r.rws)
    let w1c : Word := BitVec.ofNat 32 r.w1c
    h.setWord a (((h.word a) &&& ~~~rw &&& ~~~(w1c &&& v)) ||| (v &&& rw))

/-- A field of a written word. -/
def fieldOf (v : Word) (f : RF) : Nat := bitsOf v f.lo f.len

/-- The states of R43, as FSTAT codes them (R45). -/
def stClosed : Nat := 0
def stOpening : Nat := 1
def stOpen : Nat := 2
def stClosing : Nat := 3

/-! ### Memory -/

/-- The byte at `a`; an address nothing has written reads 0. -/
def Hw.byte (h : Hw) (a : Nat) : Byte := (kget h.mem a).getD 0

/-- A memory with the byte at `a` set to `b`, in canonical form. -/
def memPut (m : List Host.Cell) (a : Nat) (b : Byte) : List Host.Cell := if b = 0 then kdel m a else kput m a b

/-- The canonical form of memory: addresses strictly rising, no entry 0. -/
def memWf (m : List Host.Cell) : Bool :=
  match m with
  | [] => true
  | [(_, b)] => b != 0
  | (a, b) :: (a', b') :: t => b != 0 && decide (a < a') && memWf ((a', b') :: t)

/-- The canonical form of any list of cells, the first entry of an address counting. -/
def memCanon (m : List Host.Cell) : List Host.Cell := m.foldr (fun c acc => memPut acc c.1 c.2) []

def Hw.setByte (h : Hw) (a : Nat) (b : Byte) : Hw := { h with mem := memPut h.mem a b }

/-- `n` bytes from `a` up. -/
def Hw.bytes (h : Hw) (a n : Nat) : List Byte :=
  match n with
  | 0 => []
  | n + 1 => h.byte a :: h.bytes (a + 1) n

/-- `h` with the bytes `bs` stored from `a` up. -/
def Hw.setBytes (h : Hw) (a : Nat) (bs : List Byte) : Hw :=
  match bs with
  | [] => h
  | b :: t => (h.setByte a b).setBytes (a + 1) t

/-- A little-endian number of `n` bytes at `a`. -/
def Hw.memLE (h : Hw) (a n : Nat) : Nat := ofBytesLE (h.bytes a n)

def Hw.setMemLE (h : Hw) (a n v : Nat) : Hw := h.setBytes a (bytesLE n v)

/-! ### Free values -/

/-- One more free value drawn. -/
def Hw.drawn (h : Hw) : Hw := { h with free := h.free + 1 }

/-- The free value the next draw gives. -/
def Hw.freeNat (h : Hw) : Nat := (Config.freeWord h.free).toNat

/-- `n` bytes the manual leaves undefined are stored from `a` up (R273, R294). -/
def Hw.setFreeBytes (h : Hw) (a n : Nat) : Hw :=
  { (h.setBytes a ((List.range n).map fun i => Config.freeByte (h.free + i))) with free := h.free + n }

/-! ### Timers -/

def tget (m : List (TimerId × Nat)) (t : TimerId) : Option Nat :=
  match m with
  | [] => none
  | (t', d) :: r => if t = t' then some d else tget r t

def tdel (m : List (TimerId × Nat)) (t : TimerId) : List (TimerId × Nat) :=
  match m with
  | [] => []
  | (t', d) :: r => if t = t' then tdel r t else (t', d) :: tdel r t

/-- The timer `t` started, or started again, to run out at `d` on elapsed time. -/
def Hw.startAt (h : Hw) (t : TimerId) (d : Nat) : Hw := { h with timers := (t, d) :: tdel h.timers t }

/-- The timer `t` started to run out in `n` nanoseconds. -/
def Hw.start (h : Hw) (t : TimerId) (n : Nat) : Hw := h.startAt t (h.et + n)

def Hw.stop (h : Hw) (t : TimerId) : Hw := { h with timers := tdel h.timers t }

def Hw.running (h : Hw) (t : TimerId) : Bool := (tget h.timers t).isSome

/-! ### The effect of a command -/

/-- The main domains are powered and not in reset: they take commands (R541, R545, R566). -/
def Hw.mainUp (h : Hw) : Bool := h.heel.powered && h.boot.reset.isNone

/-- Every command's effect leaves by this door: the hardware as the effect makes it, memory in its canonical form, and
the queue as it stood. The Heel takes its commands in every state. -/
def State.effectHeel (s : State) (f : Hw → Hw) : Host.Outcome State Fault Refusal :=
  let h := f s.hw
  .next { s with hw := { h with mem := memCanon h.mem } }

/-- The effect of a command to the main domains: while they are off or in reset, nothing happens. -/
def State.effect (s : State) (f : Hw → Hw) : Host.Outcome State Fault Refusal :=
  s.effectHeel fun h => if h.mainUp then f h else h

/-- The effect of a command whose operands can name what the device does not have (a chain, a FIFO, an egress, an access
size, a header length): such a command finds nothing to act on and changes nothing (DESIGN CHOICE, log 39). -/
def State.effectIf (s : State) (ok : Bool) (f : Hw → Hw) : Host.Outcome State Fault Refusal :=
  s.effect fun h => if ok then f h else h

end Sys2Proof.Machine
end

