-- ==== Sys2Proof/Machine/Clock.lean ====
section
/-!
DEFINITION. The clocks: elapsed time, network time and its trims (R426 to R436), the arrival of timed instants,
stamps and their arithmetic (R428, R434, R438), and the time-stamp queues (R443, R444).
-/
namespace Sys2Proof.Machine

/-! ### Network time and elapsed time -/

/-- One second of network time, in units of 2^-32 ns (R428). -/
def ntSecond : Nat := 1000000000 * 2 ^ 32

/-- One full turn of network time, in units of 2^-32 ns (R428). -/
def ntTurn : Nat := 2 ^ 48 * ntSecond

/-- The slew that `k` trim boundaries apply (R431): each boundary moves REM toward zero by at most SLEW_MAX, held so
that the trim stays within the range of TIME_RATE. -/
def slewOver (rate rem : Int) (slewMax k : Nat) : Int :=
  if 0 ≤ rem then min rem (k * min (slewMax : Int) (2 ^ 31 - 1 - rate))
  else - min (-rem) (k * min (slewMax : Int) (2 ^ 31 + rate))

/-- One period of the 32.768 kHz source in 64ths of a nanosecond (R435). -/
def sourcePeriod64 : Nat := 1953125

/-- What one source period adds to the error of elapsed time, in 10^-6 of 1/64 ns: 50 ppm of the period on the
crystal, 2 % on the internal RC (R436). -/
def etErrPerPeriod (h : Hw) : Nat := sourcePeriod64 * (if h.get R.HEEL_CTL_OSC_SEL = 0 then 50 else 20000)

/-- Time passes: `n` ticks of a locked time base, with the trims and slew of every boundary crossed (R429, R431,
R435); with the time base off or unlocked, the whole source periods that cover `n` nanoseconds, and network time
stands (R427). -/
def Hw.advance (h : Hw) (n : Nat) : Hw :=
  if h.tbLock then
    let k := (h.et + n) / 512 - h.et / 512
    let rate := h.getI R.TIME_RATE_RATE
    let s := slewOver rate h.rem (h.get R.TIME_SLEW_MAX_MAX) k
    let nt := (((h.nt : Int) + n * 2 ^ 32 + k * rate + s) % ntTurn).toNat
    { h with et := h.et + n, nt := nt, rem := h.rem - s }
  else
    let p := (64 * n - h.etFrac + (sourcePeriod64 - 1)) / sourcePeriod64
    let e := h.et * 64 + h.etFrac + p * sourcePeriod64
    { h with et := e / 64, etFrac := e % 64, etErr := h.etErr + p * etErrPerPeriod h }

/-- With no command waiting, one nanosecond passes (DESIGN CHOICE, log 3); in power-on reset the clock stands still. -/
def State.idle (s : State) : Host.Outcome State Fault Refusal :=
  s.effectHeel fun h => if h.heel.por then h else h.advance 1

/-- Time passes until elapsed time reaches `d`, if it has not. -/
def Hw.advanceTo (h : Hw) (d : Nat) : Hw := if h.et < d then h.advance (d - h.et) else h

/-- The instant of a running timer arrives: the clock stands at its deadline (or later, if it has passed), the timer
no longer runs, and `f` follows. Where the timer does not run, nothing happens. -/
def Hw.onTimer (h : Hw) (t : TimerId) (f : Hw → Hw) : Hw :=
  match tget h.timers t with
  | some d => f ((h.advanceTo d).stop t)
  | none => h

/-- The signed difference of two network times in units of 2^-32 ns, by the modulo rule (R434). -/
def ntDiff (a b : Nat) : Int :=
  let d : Nat := (a / ntSecond + 2 ^ 48 - b / ntSecond % 2 ^ 48) % 2 ^ 48
  let ds : Int := if d < 2 ^ 47 then (d : Int) else (d : Int) - 2 ^ 48
  ds * ntSecond + ((a % ntSecond : Nat) : Int) - ((b % ntSecond : Nat) : Int)

/-- Whether network time has reached `target` (units of 2^-32 ns). -/
def Hw.ntReached (h : Hw) (target : Nat) : Bool := decide (0 ≤ ntDiff h.nt target)

/-- Time passes until network time reaches `target` (at the first tick that does, R448): each round takes the most
ticks that cannot overshoot at the fastest rate of R429, and the last rounds go tick by tick. -/
def Hw.advanceToNtFuel (h : Hw) (target fuel : Nat) : Hw :=
  match fuel with
  | 0 => h
  | fuel + 1 =>
    if h.ntReached target || !h.tbLock then h
    else
      let d := (ntDiff target h.nt).toNat
      (h.advance (max 1 (d * 1023 / 1024 / 2 ^ 32 - 1))).advanceToNtFuel target fuel

def Hw.advanceToNt (h : Hw) (target : Nat) : Hw := h.advanceToNtFuel target 64

/-- A network-time instant arrives: the clock stands at the first tick that reaches it, and `f` follows. While the
time base is unlocked no instant of network time arrives (R427). -/
def Hw.atNt (h : Hw) (target : Nat) (f : Hw → Hw) : Hw :=
  let h1 := h.advanceToNt target
  if h1.ntReached target then f h1 else h

/-- TSF and beacon arithmetic run on whole microseconds of network time. -/
def Hw.ntMicros (h : Hw) : Nat := h.nt / (1000 * 2 ^ 32)

/-! ### Stamps -/

def Stamp.zero : Stamp := ⟨0, 0⟩

/-- The stamp of network time `nt`: the subsecond is truncated to 2^-16 ns (R428). -/
def stampOf (nt : Nat) : Stamp := ⟨nt / ntSecond, nt % ntSecond / 2 ^ 16⟩

/-- A stamp taken now at a stamp point: 0 s + 0 ns while the time base is unlocked (R427); a wired stamp has its two
fraction bits below 0.25 ns zero (R428). -/
def Hw.stampNow (h : Hw) (wired : Bool) : Stamp :=
  if h.tbLock then
    let s := stampOf h.nt
    if wired then ⟨s.sec, s.sub / 2 ^ 14 * 2 ^ 14⟩ else s
  else Stamp.zero

/-- The difference of two stamps in units of 2^-16 ns (R434). -/
def stampDiff (a b : Stamp) : Int :=
  let d : Nat := (a.sec + 2 ^ 48 - b.sec % 2 ^ 48) % 2 ^ 48
  let ds : Int := if d < 2 ^ 47 then (d : Int) else (d : Int) - 2 ^ 48
  ds * (1000000000 * 2 ^ 16) + (a.sub : Int) - (b.sub : Int)

/-- The correction-field sum (R288): a saturated field stays saturated, and a sum outside 64 bits, of either sign,
saturates to the value that marks it. -/
def cfAdd (a b : Int) : Int :=
  if a = 2 ^ 63 - 1 ∨ a + b < -(2 ^ 63) ∨ 2 ^ 63 - 1 < a + b then 2 ^ 63 - 1 else a + b

/-- Residence insertion at an egress stamp point (R441): the new correction field and whether the insertion was sound.
`inPort` is the ingress port, whose asymmetry is added unless it is a cascade hop. -/
def Hw.oneStep (h : Hw) (tIn tEg : Stamp) (inPort : Nat) (cf : Int) : Int × Bool :=
  let res := stampDiff tEg tIn
  let maxNs := h.get R.TIME_RES_MAX * 1000
  let stepOld := match h.time.stepEt with
    | none => true
    | some e => decide (e + maxNs < h.et)
  let ok := h.tbLock && decide (0 ≤ res) && decide (res ≤ (maxNs * 2 ^ 16 : Nat)) && stepOld
  let asym := if 8 ≤ inPort && inPort ≤ 11 || inPort = 15 then 0 else h.getI (R.TIME_ASYM_ASYM inPort)
  if ok then (cfAdd cf (res + asym), true) else (2 ^ 63 - 1, false)

/-! ### Time-stamp queues -/

/-- The stamp queue of port `p` with an entry due (R443, R444): an entry into a full queue is lost and recorded; the
next one written sets GAP. -/
def Hw.tsqWrite (h : Hw) (p : Nat) (e : TsqEntry) : Hw :=
  let q := kgetD [] h.time.tsq p
  if q.length < 64 then
    let e' := { e with gap := h.time.gap.contains p }
    let h := { h with time := { h.time with tsq := kput h.time.tsq p (q ++ [e']), gap := h.time.gap.filter (· != p) } }
    h.set (R.TIME_PSTAT_LEVEL p) (q.length + 1)
  else
    let h := { h with time := { h.time with gap := p :: h.time.gap.filter (· != p) } }
    ((h.set (R.TIME_LOST_LOST_TAG p) e.tag).bump (R.TIME_LOST_LOST_CNT p)).set (R.TIME_PSTAT_OVF p) 1

/-- The words of a stamp-queue entry (R443). -/
def TsqEntry.word (e : TsqEntry) (w : Nat) : Nat :=
  match w with
  | 0 => e.tag % 2 ^ 16 + (if e.valid then 2 ^ 16 else 0) + (if e.gap then 2 ^ 17 else 0) +
      (if e.dropped then 2 ^ 18 else 0) + (if e.acked then 2 ^ 19 else 0) + e.stepCnt % 256 * 2 ^ 24
  | 1 => e.stamp.sub % 2 ^ 32
  | 2 => e.stamp.sub / 2 ^ 32 % 2 ^ 16
  | 3 => e.stamp.sec % 2 ^ 32
  | 4 => e.stamp.sec / 2 ^ 32 % 2 ^ 16
  | 5 => e.ackDelta % 2 ^ 32
  | 6 => e.ackDelta / 2 ^ 32 % 2 ^ 32
  | _ => 0

end Sys2Proof.Machine
end

