-- ==== Sys2Proof/Machine/Traffic.lean ====
section
/-!
DEFINITION. Descriptors, buffers, queues and the traffic manager (R302, R305 to R309, R324 to R327, R336, R339 to R356):
what Clicker, Lacing and every egress share.
-/
namespace Sys2Proof.Machine

/-! ### Counters of R336

Pool, source, ring, queue, meter and reason numbers have the widths their fields have: 4, 4, 6, 14, 12 and 8 bits. -/

/-- A 40-bit counter in two registers rises by `n`, wrapping; a change of bit 39 sets the block's HALF_EV (R203, R336). -/
def Hw.count40 (h : Hw) (lo hi half : RF) (n : Nat := 1) : Hw :=
  let v := h.get lo + 2 ^ 32 * h.get hi
  let v' := (v + n) % 2 ^ 40
  let h := (h.set lo v').set hi (v' / 2 ^ 32)
  if v.testBit 39 != v'.testBit 39 then h.set half 1 else h

def Hw.countPool (h : Hw) (p n : Nat) : Hw :=
  h.count40 (R.CKR_POOL_CNT_LO_CNT (p % 16) n) (R.CKR_POOL_CNT_HI_CNT (p % 16) n) R.CKR_STAT_HALF_EV
def Hw.countSource (h : Hw) (s n : Nat) : Hw :=
  h.count40 (R.CKR_SRC_CNT_LO_CNT (s % 16) n) (R.CKR_SRC_CNT_HI_CNT (s % 16) n) R.CKR_STAT_HALF_EV
def Hw.countRing (h : Hw) (r n : Nat) : Hw :=
  h.count40 (R.CKR_RING_CNT_LO_CNT (r % 64) n) (R.CKR_RING_CNT_HI_CNT (r % 64) n) R.CKR_STAT_HALF_EV
def Hw.countQueue (h : Hw) (q n : Nat) : Hw :=
  h.count40 (R.TM_Q_CNT_LO_CNT (q % 16384) n) (R.TM_Q_CNT_HI_CNT (q % 16384) n) R.TM_STAT_HALF_EV
def Hw.countReason (h : Hw) (n : Nat) : Hw :=
  h.count40 (R.LAC_DROP_LO_CNT (n % 256)) (R.LAC_DROP_HI_CNT (n % 256)) R.LAC_STAT_HALF_EV
def Hw.countMeter (h : Hw) (m n : Nat) : Hw :=
  h.count40 (R.TM_MTR_CNT_LO_CNT (m % 4096) n) (R.TM_MTR_CNT_HI_CNT (m % 4096) n) R.TM_STAT_HALF_EV

/-! ### Descriptors -/

def Frame.empty : Frame :=
  ⟨0, 0, false, 0, [], 0, false, 0, Stamp.zero, none, none, .none, none, 0, 0, 0, 0, 0, []⟩

def Hw.frame (h : Hw) (id : Nat) : Frame := kgetD Frame.empty h.fabric.frames id
def Hw.setFrame (h : Hw) (id : Nat) (f : Frame) : Hw :=
  { h with fabric := { h.fabric with frames := kput h.fabric.frames id f } }
def Hw.modFrame (h : Hw) (id : Nat) (g : Frame → Frame) : Hw := h.setFrame id (g (h.frame id))

/-- The descriptors the fabric stores (R324). -/
def descriptors : Nat := 262144

/-- The buffers a frame of length `l` occupies (R302). -/
def buffersFor (l : Nat) : Nat := (l + 64 + 255) / 256

/-- The fields of a disposition word (R294). -/
def Frame.meter (f : Frame) : Nat := f.word % 4096
def Frame.metered (f : Frame) : Bool := f.word.testBit 12
def Frame.tc (f : Frame) : Nat := f.word / 2 ^ 13 % 8
def Frame.adj (f : Frame) : Int := signedOf 8 (f.word / 2 ^ 16)

/-- The bytes counted of a frame with an overhead (R339). -/
def Frame.counted (f : Frame) (ovh : Nat) : Nat := ((f.len : Int) - f.adj + ovh).toNat

/-- The length of a frame as it leaves (R294). -/
def Frame.leaving (f : Frame) : Nat := ((f.len : Int) - f.adj).toNat

/-- The address of byte `o` of a frame, counted from its first byte; negative: in the headroom (R302). -/
def Frame.addrOf (f : Frame) (o : Int) : Nat :=
  let k := (o + 64).toNat
  (f.bufs[k / 256]?).getD 0 + k % 256

/-- `n` bytes of a frame from byte `o` on. -/
def Hw.frameBytes (h : Hw) (f : Frame) (o : Int) (n : Nat) : List Byte :=
  (List.range n).map fun i => h.byte (f.addrOf (o + i))

/-- The bytes of a frame as it leaves, after ADJ (R294). -/
def Hw.leavingBytes (h : Hw) (f : Frame) : List Byte := h.frameBytes f f.adj f.leaving

/-! ### Pools -/

/-- The byte address of buffer `i` of pool `p` (R27, R305). -/
def Hw.bufferAddr (h : Hw) (p i : Nat) : Nat :=
  if h.flag (R.CKR_POOL_CFG_LOC p) then 0x1000000000 + 0x100 * i else 0x10000000 + 0x100 * i

/-- FREE set, with LOW following it down (R308, R309). -/
def Hw.setFree (h : Hw) (p n : Nat) : Hw :=
  let h := h.set (R.CKR_POOL_FREE_FREE (p % 16)) n
  if n < h.get (R.CKR_POOL_LOW_LOW (p % 16)) then h.set (R.CKR_POOL_LOW_LOW (p % 16)) n else h

def Hw.poolFree (h : Hw) (p : Nat) : Nat := h.get (R.CKR_POOL_FREE_FREE (p % 16))
def Hw.heldBy (h : Hw) (p : Nat) : List Nat := kgetD [] h.fabric.held p

/-- The first buffer not in `held` from `i` on, turning round within `n`. -/
def findFree (held : List Nat) (n i fuel : Nat) : Nat :=
  match fuel with
  | 0 => i
  | fuel + 1 => if held.contains i then findFree held n ((i + 1) % n) fuel else i

/-- A free buffer of a pool, counted from FIRST: the manual defines no order, so the choice is open (R305). -/
def Hw.chooseBuffer (h : Hw) (p : Nat) : Nat :=
  let n := h.get (R.CKR_POOL_COUNT_COUNT p)
  findFree (h.heldBy p) n (if n = 0 then 0 else Config.bufferChoice h.free % n) ((h.heldBy p).length + 1)

/-- A buffer of a pool becomes held; the result is its byte address. FREE is not changed here. -/
def Hw.holdBuffer (h : Hw) (p : Nat) : Hw × Nat :=
  let i := h.chooseBuffer p
  let h := h.drawn
  ({ h with fabric := { h.fabric with held := kput h.fabric.held p (i :: h.heldBy p) } },
   h.bufferAddr p (h.get (R.CKR_POOL_FIRST_FIRST p) + i))

/-- The buffers of a frame return to their pool, and to FREE (R308). -/
def Hw.returnBuffers (h : Hw) (p : Nat) (bufs : List Nat) : Hw :=
  let base := h.bufferAddr p (h.get (R.CKR_POOL_FIRST_FIRST p))
  let idx := bufs.map fun a => (a - base) / 0x100
  let h := { h with fabric := { h.fabric with held := kput h.fabric.held p ((h.heldBy p).filter fun i => !idx.contains i) } }
  h.setFree p (h.poolFree p + bufs.length)

/-- A frame is gone: its buffers and its descriptor are free (R324). -/
def Hw.freeFrame (h : Hw) (id : Nat) : Hw :=
  let f := h.frame id
  let h := h.returnBuffers f.pool f.bufs
  { h with fabric := { h.fabric with frames := kdel h.fabric.frames id } }

/-! ### Meters -/

def Hw.meterRec (h : Hw) (m : Nat) : Meter := kgetD ⟨0, 0, h.traffic.epoch⟩ h.traffic.meters m
def Hw.setMeter (h : Hw) (m : Nat) (v : Meter) : Hw :=
  { h with traffic := { h.traffic with meters := kput h.traffic.meters m v } }

/-- A bucket after `dt` nanoseconds at a rate word, held at its burst size (R341). -/
def fillBucket (t rate dt burst : Nat) : Nat := min (t + rate * dt / 2 ^ 10) (burst * 2 ^ 10)

/-- The buckets of a meter, updated to now (R341). -/
def Hw.meterNow (h : Hw) (m : Nat) : Meter :=
  let r := h.meterRec m
  let dt := h.et - r.last
  ⟨fillBucket r.tc (h.get (R.TM_MTR_CIR_RATE m)) dt (h.get (R.TM_MTR_CBS_CBS m)),
   fillBucket r.tp (h.get (R.TM_MTR_PIR_RATE m)) dt (h.get (R.TM_MTR_PBS_PBS m)), h.et⟩

/-- The colour of a frame of `b` units and the buckets after it (R340): 0 green, 1 yellow, 2 red. -/
def colourOf (r : Meter) (b : Nat) : Nat × Meter :=
  if r.tp < b then (2, r)
  else if r.tc < b then (1, { r with tp := r.tp - b })
  else (0, { r with tp := r.tp - b, tc := r.tc - b })

/-- The two-rate three-colour marking of RFC 2698 in colour-blind mode (R340): the meter's buckets are brought up to
now, the frame is coloured and counted. The flag says that its colour drops it (R343). -/
def Hw.meterFrame (h : Hw) (id : Nat) : Hw × Bool :=
  let f := h.frame id
  let m := f.meter
  let (c, r) := colourOf (h.meterNow m) (f.counted (h.get (R.TM_MTR_CBS_OVH m)) * 2 ^ 10)
  let h := (h.setMeter m r).countMeter m c
  let dropped := (c == 1 && h.flag (R.TM_MTR_PBS_YEL_DROP m)) || (c == 2 && h.flag (R.TM_MTR_PBS_RED_DROP m))
  let h := h.modFrame id fun f => { f with colour := c }
  if dropped then (h.countMeter m 3, true) else (h, false)

/-- Writing FILL (R344): both buckets hold their burst sizes. It is no update (R341): the next one counts its time from
the last. -/
def Hw.fillMeter (h : Hw) (m : Nat) : Hw :=
  h.setMeter m ⟨h.get (R.TM_MTR_CBS_CBS m) * 2 ^ 10, h.get (R.TM_MTR_PBS_PBS m) * 2 ^ 10, (h.meterRec m).last⟩

/-- A bucket is clamped to the burst size that was just written (R344); its clock is unchanged. -/
def Hw.clampMeter (h : Hw) (m : Nat) : Hw :=
  let r := h.meterRec m
  h.setMeter m { r with tc := min r.tc (h.get (R.TM_MTR_CBS_CBS m) * 2 ^ 10),
                        tp := min r.tp (h.get (R.TM_MTR_PBS_PBS m) * 2 ^ 10) }

/-- A write of CIR or PIR (R344): one that would leave PIR below CIR is discarded with CFG_ERR. -/
def Hw.writeMeterRate (h : Hw) (m : Nat) (peak : Bool) (v : Word) : Hw :=
  let cir := if peak then h.get (R.TM_MTR_CIR_RATE m) else v.toNat
  let pir := if peak then v.toNat else h.get (R.TM_MTR_PIR_RATE m)
  if pir < cir then h.set R.TM_STAT_CFG_ERR 1
  else h.set (if peak then R.TM_MTR_PIR_RATE m else R.TM_MTR_CIR_RATE m) v.toNat

/-- A write of CBS (R344, R345). -/
def Hw.writeMeterCbs (h : Hw) (m : Nat) (v : Word) : Hw := (h.writeFields (R.TM_MTR_CBS m) v).clampMeter m

/-- A write of PBS, with FILL (R344, R345). -/
def Hw.writeMeterPbs (h : Hw) (m : Nat) (v : Word) : Hw :=
  let h := (h.writeFields (R.TM_MTR_PBS m) v).clampMeter m
  if fieldOf v (R.TM_MTR_PBS_FILL m) = 1 then h.fillMeter m else h

/-- FILL (R344). -/
def execFill (m : Fin 4096) (s : State) : Host.Outcome State Fault Refusal := s.effect fun h => h.fillMeter m

/-! ### Shapers -/

def Hw.shaperRec (h : Hw) (k : Nat) : Shaper := kgetD ⟨0, h.traffic.epoch⟩ h.traffic.shapers k

/-- The rate of a shaper in the LSB of R342 (R349). -/
def Hw.shaperRate (h : Hw) (k : Nat) : Nat := h.get (R.TM_SHP_RATE_MANT k) * 2 ^ h.get (R.TM_SHP_RATE_EXP k)

/-- The credit of a shaper now (R349): it accrues with the arithmetic of R341 and saturates at BURST. -/
def Hw.creditNow (h : Hw) (k : Nat) : Int :=
  let r := h.shaperRec k
  min (r.credit + ((h.shaperRate k * (h.et - r.last) / 2 ^ 10 : Nat) : Int)) ((h.get (R.TM_SHP_BURST_BURST k) * 2 ^ 10 : Nat) : Int)

def Hw.setCredit (h : Hw) (k : Nat) (c : Int) : Hw :=
  let h := { h with traffic := { h.traffic with shapers := kput h.traffic.shapers k ⟨c, h.et⟩ } }
  h.setI (R.TM_SHP_CREDIT_CREDIT k) (c / 1024)

/-- A write of BURST clamps the credit to the new size at once (R350). -/
def Hw.writeShaperBurst (h : Hw) (k : Nat) (v : Word) : Hw :=
  let c := h.creditNow k
  let h := h.writeFields (R.TM_SHP_BURST k) v
  h.setCredit k (min c ((h.get (R.TM_SHP_BURST_BURST k) * 2 ^ 10 : Nat) : Int))

/-- A write of RATE takes effect from the next accrual, and that accrual covers the whole time since the last one
(R350, as R344 has it for meters). -/
def Hw.writeShaperRate (h : Hw) (k : Nat) (v : Word) : Hw := h.writeFields (R.TM_SHP_RATE k) v

/-! ### Queues -/

def Hw.queueFrames (h : Hw) (q : Nat) : List Nat := kgetD [] h.fabric.queues q
def Hw.setQueue (h : Hw) (q : Nat) (l : List Nat) : Hw :=
  { h with fabric := { h.fabric with queues := kput h.fabric.queues q l } }

def Hw.queueState (h : Hw) (q : Nat) : Nat := h.get (R.TM_Q_FSTAT_STATE q)

/-- Whether EGRESS names an assigned egress (R351). -/
def egressAssigned (e : Nat) : Bool := decide (e ≤ 11) || (decide (16 ≤ e) && decide (e ≤ 79))

/-- A queue of the strict level of its egress; air queues have no level (R346). -/
def Hw.strictQueue (h : Hw) (q : Nat) : Bool := decide (8192 ≤ q) && h.flag (R.TM_Q_W6_LEVEL q)

/-- The leaving lengths of the frames held at the strict level of egress `e` (R356). -/
def Hw.strictHeld (h : Hw) (e : Nat) : Nat :=
  ((h.fabric.queues.filter fun (q, _) => h.strictQueue q && h.get (R.TM_Q_W6_EGRESS q) == e).map fun (_, l) =>
    (l.map fun id => (h.frame id).leaving).sum).sum

/-- STRICT_BYTES of the egress of queue `q` follows the frames held (R356). -/
def Hw.strictBytes (h : Hw) (q : Nat) : Hw :=
  if h.strictQueue q then
    let e := h.get (R.TM_Q_W6_EGRESS q)
    h.set (R.TM_EG_STAT_STRICT_BYTES e) (min (h.strictHeld e) (2 ^ 24 - 1))
  else h

/-- A frame is enqueued (R326): it joins the end of the queue. -/
def Hw.append (h : Hw) (q id : Nat) : Hw :=
  let n := h.fabric.nextSeq
  let h := { h with fabric := { h.fabric with nextSeq := n + 1 } }
  let h := h.modFrame id fun f => { f with queue := some q, enqSeq := n, enqAt := h.et }
  let f := h.frame id
  let h := h.setQueue q (h.queueFrames q ++ [id])
  let h := h.set (R.TM_Q_W4_FRAMES (q % 16384)) (h.get (R.TM_Q_W4_FRAMES (q % 16384)) + 1)
  let h := h.set (R.TM_Q_W5_BUFS (q % 16384)) (h.get (R.TM_Q_W5_BUFS (q % 16384)) + f.bufs.length)
  (h.strictBytes q).countQueue q 0

/-- Whether a frame of `n` buffers may be enqueued (R326). -/
def Hw.queueAdmits (h : Hw) (q n : Nat) : Bool :=
  h.queueState q == stOpen && decide (h.get (R.TM_Q_W4_FRAMES q) < h.get (R.TM_Q_W2_MAX_FRAMES q)) &&
  decide (h.get (R.TM_Q_W5_BUFS q) + n ≤ h.get (R.TM_Q_W3_MAX_BUFS q))

/-- A frame is offered to a queue (R326, R340, R343, R348): it is metered if its disposition asks for it, then dropped
from a strict queue unless its TC is 7, then enqueued if the queue admits it. -/
def Hw.offer (h : Hw) (q id : Nat) : Hw :=
  let (h, dropped) := if (h.frame id).metered then h.meterFrame id else (h, false)
  if dropped then h.freeFrame id
  else
    let f := h.frame id
    if h.strictQueue q && f.tc != 7 then ((h.freeFrame id).countQueue q 1).set R.TM_STAT_LEVEL_EV 1
    else if h.queueAdmits q f.bufs.length then h.append q id
    else (h.freeFrame id).countQueue q 1

/-- A frame leaves a queue (its descriptor stays). -/
def Hw.takeFrom (h : Hw) (q id : Nat) : Hw :=
  let f := h.frame id
  let h := h.setQueue q ((h.queueFrames q).filter (· != id))
  let h := h.set (R.TM_Q_W4_FRAMES (q % 16384)) (h.get (R.TM_Q_W4_FRAMES (q % 16384)) - 1)
  let h := h.set (R.TM_Q_W5_BUFS (q % 16384)) (h.get (R.TM_Q_W5_BUFS (q % 16384)) - f.bufs.length)
  (h.strictBytes q).modFrame id fun f => { f with queue := none }

/-- A frame returns to the front of the queue it came from (R190, R191). -/
def Hw.putBack (h : Hw) (q id : Nat) : Hw :=
  let f := h.frame id
  let h := h.modFrame id fun f => { f with queue := some q }
  let h := h.setQueue q (id :: h.queueFrames q)
  let h := h.set (R.TM_Q_W4_FRAMES (q % 16384)) (h.get (R.TM_Q_W4_FRAMES (q % 16384)) + 1)
  h.set (R.TM_Q_W5_BUFS (q % 16384)) (h.get (R.TM_Q_W5_BUFS (q % 16384)) + f.bufs.length)

/-- Every frame of a queue is freed; the result counts them (R327, R355). -/
def Hw.flushQueue (h : Hw) (q : Nat) : Hw × Nat :=
  let l := h.queueFrames q
  let h := l.foldl (fun h id => (h.takeFrom q id).freeFrame id) h
  ({ h with traffic := { h.traffic with tags := kdel h.traffic.tags q } }, l.length)

/-! ### The scheduler of an egress -/

/-- The queues that hold frames and feed egress `e`. -/
def Hw.queuesOf (h : Hw) (e : Nat) : List Nat :=
  (h.fabric.queues.filter fun (q, l) => !l.isEmpty && decide (8192 ≤ q) && h.get (R.TM_Q_W6_EGRESS q) == e).map (·.1)

/-- The head frame of a queue. -/
def Hw.headOf (h : Hw) (q : Nat) : Frame :=
  match h.queueFrames q with
  | id :: _ => h.frame id
  | [] => Frame.empty

/-- A queue is eligible at its egress (R352): Open or Closing, holding a frame, its shaper's credit at least 0, and its
head admitted by the egress. -/
def Hw.eligibleQueue (h : Hw) (admits : Nat → Frame → Bool) (q : Nat) : Bool :=
  (h.queueState q == stOpen || h.queueState q == stClosing) && !(h.queueFrames q).isEmpty &&
  (!h.flag (R.TM_Q_W6_SH_EN q) || decide (0 ≤ h.creditNow (h.get (R.TM_Q_W6_SHAPER q)))) && admits q (h.headOf q)

/-- `f1` is earlier than `f2` among finish tags (R354). -/
def earlierTag (f1 f2 : Nat) : Bool := decide (2 ^ 31 ≤ (f1 + 2 ^ 32 - f2 % 2 ^ 32) % 2 ^ 32)

/-- What a head frame adds to its queue's tag (R354). -/
def Hw.tagInc (h : Hw) (e q : Nat) : Nat :=
  let w := h.get (R.TM_Q_W7_WEIGHT q)
  (h.headOf q).counted (h.get (R.TM_EG_CFG_OVH e)) * 2 ^ 16 / w

/-- The fair queues of egress `e`. -/
def Hw.fairQueues (h : Hw) (e : Nat) : List Nat :=
  (h.fabric.queues.map (·.1)).filter fun q =>
    decide (8192 ≤ q) && h.get (R.TM_Q_W6_EGRESS q) == e && !h.flag (R.TM_Q_W6_LEVEL q)

def Hw.dropTag (h : Hw) (q : Nat) : Hw := { h with traffic := { h.traffic with tags := kdel h.traffic.tags q } }

/-- The fair queues of egress `e` whose head frame shows `p` leave the active set, and drop their tags (R354). -/
def Hw.dropTags (h : Hw) (e : Nat) (p : Frame → Bool) : Hw :=
  ((h.fairQueues e).filter fun q => p (h.headOf q)).foldl (fun (h : Hw) q => h.dropTag q) h

/-- The tags of egress `e`'s fair queues brought up to date (R354): a queue that is not eligible drops its tag; one
newly active starts from V. -/
def Hw.refreshTags (h : Hw) (admits : Nat → Frame → Bool) (e : Nat) : Hw :=
  (h.fairQueues e).foldl (fun (h : Hw) q =>
    let t := h.traffic.tags
    if h.eligibleQueue admits q then
      match kget t q with
      | some _ => h
      | none => { h with traffic := { h.traffic with tags := kput t q ((h.get (R.TM_EG_VT_V e) + h.tagInc e q) % 2 ^ 32) } }
    else h.dropTag q) h

/-- The strict queue whose head was enqueued earliest (R353). -/
def Hw.pickStrict (h : Hw) (admits : Nat → Frame → Bool) (e : Nat) : Option Nat :=
  ((h.queuesOf e).filter fun q => h.flag (R.TM_Q_W6_LEVEL q) && h.eligibleQueue admits q).foldl
    (fun b q => match b with
      | none => some q
      | some q' => if (h.headOf q).enqSeq < (h.headOf q').enqSeq then some q else some q') none

/-- The active fair queue with the smallest tag, the lower number winning a tie (R354). -/
def Hw.pickFair (h : Hw) (admits : Nat → Frame → Bool) (e : Nat) : Option Nat :=
  ((h.queuesOf e).filter fun q => !h.flag (R.TM_Q_W6_LEVEL q) && h.eligibleQueue admits q).foldl
    (fun b q => match b with
      | none => some q
      | some q' => if earlierTag (kgetD 0 h.traffic.tags q) (kgetD 0 h.traffic.tags q') then some q else some q') none

/-- The queues of shaper `k` leave the active set while its credit is below 0 (R349, R354). -/
def Hw.shaperTags (h : Hw) (k : Nat) : Hw :=
  if h.creditNow k < 0 then
    ((h.traffic.tags.map (·.1)).filter fun q =>
      h.flag (R.TM_Q_W6_SH_EN q) && h.get (R.TM_Q_W6_SHAPER q) == k).foldl (fun (h : Hw) q => h.dropTag q) h
  else h

/-- A selected frame of a shaped queue lowers the shaper's credit (R349). -/
def Hw.chargeShaper (h : Hw) (q : Nat) (f : Frame) : Hw :=
  if h.flag (R.TM_Q_W6_SH_EN q) then
    let k := h.get (R.TM_Q_W6_SHAPER q)
    (h.setCredit k (h.creditNow k - ((f.counted (h.get (R.TM_SHP_BURST_OVH k)) * 2 ^ 10 : Nat) : Int))).shaperTags k
  else h

/-- The scheduler of egress `e`, asked for a frame that shows `only` (R352 to R354): the earliest of the strict line,
else the fair queue of the smallest tag, which becomes V; the frame leaves its queue. `admits` decides eligibility,
whatever the request is answered from. The result is the queue and the frame. -/
def Hw.select (h : Hw) (admits only : Nat → Frame → Bool) (e : Nat) : Hw × Option (Nat × Nat) :=
  let h := h.refreshTags admits e
  let asked (q : Nat) (f : Frame) : Bool := admits q f && only q f
  let pick (h : Hw) (q : Nat) : Hw × Option (Nat × Nat) :=
    match h.queueFrames q with
    | id :: _ => (((h.chargeShaper q (h.frame id)).takeFrom q id), some (q, id))
    | [] => (h, none)
  match h.pickStrict asked e with
  | some q => pick h q
  | none =>
    match h.pickFair asked e with
    | none => (h, none)
    | some q =>
      let f := kgetD 0 h.traffic.tags q
      let h := h.set (R.TM_EG_VT_V e) f
      let (h, r) := pick h q
      let t := if h.eligibleQueue admits q then kput h.traffic.tags q ((f + h.tagInc e q) % 2 ^ 32) else kdel h.traffic.tags q
      ({ h with traffic := { h.traffic with tags := t } }, r)

/-- Every queue is eligible that its own state and shaper admit: the request of a hop or a ring (R352). -/
def anyQueue (_q : Nat) (_f : Frame) : Bool := true

/-- A write of words 6 or 7 of a queue's context (R346, R347): ignored for air queues, refused unless the queue is
Closed. -/
def Hw.writePlacement (h : Hw) (a q : Nat) (v : Word) : Hw :=
  if q < 8192 then h
  else if h.queueState q = 0 then h.writeFields a v
  else h.set R.TM_STAT_CFG_ERR 1

/-- The open check of a queue (R347). -/
def Hw.queueMayOpen (h : Hw) (q : Nat) : Bool :=
  decide (q < 8192) ||
  (egressAssigned (h.get (R.TM_Q_W6_EGRESS q)) &&
   (if h.flag (R.TM_Q_W6_LEVEL q) then !h.flag (R.TM_Q_W6_SH_EN q) else decide (1 ≤ h.get (R.TM_Q_W7_WEIGHT q))))

end Sys2Proof.Machine
end

