-- ==== Sys2Proof/Machine/Bus.lean ====
section
/-!
DEFINITION. Shank's address map and checks (R27 to R31, R479 to R484, R496, R529, R531, R532), the error log of R481,
and the reads and writes of memory that every master's access comes down to. The register blocks are in RegRead and
RegWrite.
-/
namespace Sys2Proof.Machine

/-! ### The address map -/

/-- The bank of the 64-byte block at SRAM offset `o` (R482). -/
def sramBank (o : Nat) : Nat := Nat.xor (o / 2 ^ 6 % 32) (o / 2 ^ 11 % 32)

/-- The DRAM channel of an address (R496). -/
def dramChannel (a : Nat) : Nat := (a - 0x1000000000) / 256 % 2

/-- The register block windows: blocks 0 to 14, RFS and PHY of the three slices (R27). -/
def isRegister (a : Nat) : Bool :=
  (decide (0x40000000 ≤ a) && decide (a < 0x40F00000)) || (decide (0x41000000 ≤ a) && decide (a < 0x41300000)) ||
  (decide (0x41400000 ≤ a) && decide (a < 0x41700000)) || (decide (0x30080000 ≤ a) && decide (a < 0x30090000))

/-- The register an address names: the heel alias is the HEEL block (R30). -/
def registerAddr (a : Nat) : Nat := if 0x30080000 ≤ a ∧ a < 0x30090000 then a - 0x30080000 + 0x40100000 else a

/-- The target of an address (R480). The HEEL block is reached at target 43, which R480 names for both its aliases. -/
def targetOf (a : Nat) : Option Nat :=
  if a < 0x20000 then some 42
  else if 0x10000000 ≤ a ∧ a < 0x11800000 then some (sramBank (a - 0x10000000))
  else if 0x20000000 ≤ a ∧ a < 0x20800000 then some (32 + (a - 0x20000000) / 0x100000)
  else if 0x30000000 ≤ a ∧ a < 0x30040000 then some 43
  else if isRegister a then
    let r := registerAddr a
    if r / 0x100000 = 0x401 then some 43
    else if r < 0x41000000 then some (46 + (r - 0x40000000) / 0x100000)
    else if r < 0x41400000 then some (61 + (r - 0x41000000) / 0x100000)
    else some (64 + (r - 0x41400000) / 0x100000)
  else if 0x1000000000 ≤ a ∧ a < 0x1200000000 then some (40 + dramChannel a)
  else none

/-- The DRAM states of DRC_STAT (R509). -/
def drcUntrained : Nat := 0
def drcTraining : Nat := 1
def drcReady : Nat := 2
def drcEccInit : Nat := 3
def drcSelfRefresh : Nat := 4
def drcFailed : Nat := 5

/-- The size of the DRAM window (R495, R496). -/
def Hw.dramWindow (h : Hw) : Nat :=
  let w := 2 ^ (30 + h.get R.DRC_CFG_DENS)
  if h.flag R.DRC_CFG_ECC_EN then w / 8 * 7 else w

/-- Whether memory stands at `a`: an offset of a cluster window that R29 does not list is reserved, and so is DRAM
above its window or not READY (R29, R31, R496). -/
def Hw.memoryAt (h : Hw) (a : Nat) : Bool :=
  if a < 0x20000 then true
  else if 0x10000000 ≤ a ∧ a < 0x11800000 then true
  else if 0x20000000 ≤ a ∧ a < 0x20800000 then
    let o := (a - 0x20000000) % 0x100000
    decide (o < 0x20000) || (decide (0x40000 ≤ o) && decide (o < 0xA0000))
  else if 0x30000000 ≤ a ∧ a < 0x30040000 then true
  else if 0x1000000000 ≤ a ∧ a < 0x1200000000 then
    h.get R.DRC_STAT_STATE == drcReady && decide (a - 0x1000000000 < h.dramWindow)
  else false

/-! ### The error log -/

/-- An error or refusal on Shank is counted and logged (R481): KIND 1 decode error, 2 refusal, 3 uncorrectable. -/
def Hw.shankError (h : Hw) (master addr kind : Nat) (write : Bool) : Hw :=
  let h := h.count40 R.SHK_ERR_CNT_LO_CNT R.SHK_ERR_CNT_HI_CNT R.SHK_STAT_HALF_EV
  if h.flag R.SHK_STAT_ERR_EV then h
  else
    let h := (h.set R.SHK_ERR_ADDR_LO_ADDR addr).set R.SHK_ERR_ADDR_HI_ADDR (addr / 2 ^ 32)
    let h := ((h.set R.SHK_ERR_INFO_MASTER master).set R.SHK_ERR_INFO_KIND kind).setFlag R.SHK_ERR_INFO_WRITE write
    h.set R.SHK_STAT_ERR_EV 1

/-! ### Access tables -/

/-- A two-word mask or bound of an access table. -/
def Hw.pair (h : Hw) (lo hi : Nat) : Nat := (h.word lo).toNat + 2 ^ 32 * (h.word hi).toNat

/-- The enabled window of target `t` with the lowest number that covers `a` (R529): the granularity is 4 KiB. -/
def Hw.windowOf (h : Hw) (t a : Nat) : Option Nat :=
  (List.range 16).find? fun w =>
    (h.word (R.ILT_ACC_EN t)).toNat.testBit w &&
    decide (h.pair (R.ILT_ACC_BASE_LO t w) (R.ILT_ACC_BASE_HI t w) % 2 ^ 40 / 4096 ≤ a / 4096) &&
    decide (a / 4096 ≤ h.pair (R.ILT_ACC_LIMIT_LO t w) (R.ILT_ACC_LIMIT_HI t w) % 2 ^ 40 / 4096)

/-- The default of target `t` permits master `m` (R529). -/
def Hw.defaultPermits (h : Hw) (t m : Nat) (write : Bool) : Bool :=
  if write then (h.pair (R.ILT_ACC_DEF_WMASK_LO t) (R.ILT_ACC_DEF_WMASK_HI t)).testBit m
  else (h.pair (R.ILT_ACC_DEF_RMASK_LO t) (R.ILT_ACC_DEF_RMASK_HI t)).testBit m

/-- Whether the access tables apply: in Blank they do not (R531). -/
def Hw.tablesApply (h : Hw) : Bool := h.get R.ILT_LC_STAT_STATE != 0

/-- The table of target `t` permits an access of master `m` at `a` (R529, R531). -/
def Hw.tablePermits (h : Hw) (t m a : Nat) (write : Bool) : Bool :=
  !h.tablesApply ||
  match h.windowOf t a with
  | some w =>
    if write then (h.pair (R.ILT_ACC_WMASK_LO t w) (R.ILT_ACC_WMASK_HI t w)).testBit m
    else (h.pair (R.ILT_ACC_RMASK_LO t w) (R.ILT_ACC_RMASK_HI t w)).testBit m
  | none => h.defaultPermits t m write

/-- The debug, challenge and response registers of Iltil (R532, R539). -/
def isDebugRegister (a : Nat) : Bool :=
  decide (a = R.ILT_DBG_CTL) || decide (a = R.ILT_DBG_STAT) || (decide (0x40200140 ≤ a) && decide (a < 0x40200240))

/-- What the debug port may do at its level (R532). -/
def Hw.debugPermits (h : Hw) (a : Nat) (write : Bool) : Bool :=
  let r := registerAddr a
  match h.get R.ILT_DBG_STAT_LEVEL with
  | 2 => !(decide (0x40200080 ≤ r) && decide (r < 0x402000A0))
  | 1 => isDebugRegister r || (!write && isRegister a && r / 0x100000 != 0x402)
  | _ => isDebugRegister r

/-- The engine region of heel SRAM, which only master 26 writes (R548). -/
def isEngineRegion (a : Nat) : Bool := decide (0x30000000 ≤ a) && decide (a < 0x30008000)

/-- An access of master `m` at `a` of target `t` is permitted (R513, R529, R531, R532, R548). -/
def Hw.permits (h : Hw) (t m a : Nat) (write : Bool) : Bool :=
  (!(write && isEngineRegion a) || m == 26) &&
  (m == 24 || m == 26 || (if m = 25 then h.debugPermits a write else h.tablePermits t m a write))

/-! ### Memory accesses of the device's own masters -/

/-- A byte of memory; the boot ROM's contents and the order of the save list are not given, and the words of the engine
region beyond the list read zero (R547, R548). -/
def Hw.memByte (h : Hw) (a : Nat) : Byte :=
  if a < 0x20000 then Config.romByte a
  else if isEngineRegion a then
    match h.heel.saved with
    | some l => if 0x30000000 + 4 * h.get R.HEEL_SAVE_INFO_COUNT ≤ a then 0 else Config.saveByte l (a - 0x30000000)
    | none => h.byte a
  else h.byte a

def Hw.memBytes (h : Hw) (a n : Nat) : List Byte := (List.range n).map fun i => h.memByte (a + i)

/-- Bytes stored to memory; the boot ROM does not change. -/
def Hw.storeBytes (h : Hw) (a : Nat) (bs : List Byte) : Hw := if a < 0x20000 then h else h.setBytes a bs

/-- The first failure of an access to memory at `a`: 1 a decode error, 2 a refusal, 0 none (R481). -/
def Hw.memFault (h : Hw) (m a : Nat) (write : Bool) : Nat :=
  match targetOf a with
  | none => 1
  | some t => if !h.permits t m a write then 2 else if h.memoryAt a then 0 else 1

/-- The first failing 64-byte block of `n` bytes at `a`: its address and failure. -/
def Hw.rangeFault (h : Hw) (m a n : Nat) (write : Bool) : Option (Nat × Nat) :=
  ((List.range ((a + n + 63) / 64 - a / 64)).map fun i => max a ((a / 64 + i) * 64)).findSome? fun b =>
    match h.memFault m b write with
    | 0 => none
    | k => some (b, k)

/-- The blocks of 8 bytes an access touches in DRAM, as word numbers. -/
def dramWords (a n : Nat) : List Nat :=
  if 0x1000000000 ≤ a then (List.range ((a + n + 7) / 8 - a / 8)).map (a / 8 + ·) else []

/-- DRAM words become valid under ECC as they are written whole (R504, R506). -/
def Hw.markWritten (h : Hw) (a n : Nat) : Hw :=
  if h.flag R.DRC_CFG_ECC_EN && !h.dram.initialised then
    let ws := (dramWords a n).filter fun w => decide (a ≤ 8 * w) && decide (8 * w + 8 ≤ a + n) && !h.dram.written.contains w
    { h with dram := { h.dram with written := ws ++ h.dram.written } }
  else h

/-- Some word that an access would read has never been written under ECC (R506): an uncorrectable error. A write reads
only the words it covers in part (R504). -/
def Hw.unwritten (h : Hw) (a n : Nat) (write : Bool) : Bool :=
  h.flag R.DRC_CFG_ECC_EN && !h.dram.initialised &&
  (dramWords a n).any fun w =>
    !h.dram.written.contains w && !(write && decide (a ≤ 8 * w) && decide (8 * w + 8 ≤ a + n))

/-- An ECC finding of a DRAM channel (R505). -/
def Hw.dramFinding (h : Hw) (a : Nat) (uncorrectable : Bool) : Hw :=
  let c := dramChannel a
  let h := ((h.set (R.DRC_ERR_LO_ADDR c) a).set (R.DRC_ERR_HI_ADDR c) (a / 2 ^ 32)).setFlag (R.DRC_ERR_HI_UE c) uncorrectable
  if uncorrectable then (h.bump (R.DRC_CNT2_UE_CNT c)).set R.DRC_STAT_UE_EV 1
  else (h.bump (R.DRC_CNT1_CE_CNT c)).set R.DRC_STAT_CE_EV 1

/-- A read of `n` bytes at `a` by one of the device's own masters; none: it failed and was logged (R481). -/
def Hw.busRead (h : Hw) (m a n : Nat) : Hw × Option (List Byte) :=
  match h.rangeFault m a n false with
  | some (b, k) => (h.shankError m b k false, none)
  | none =>
    if h.unwritten a n false then ((h.dramFinding a true).shankError m a 3 false, none)
    else (h, some (h.memBytes a n))

/-- A write of bytes at `a` by one of the device's own masters; false: it failed and was logged (R481). -/
def Hw.busWrite (h : Hw) (m a : Nat) (bs : List Byte) : Hw × Bool :=
  match h.rangeFault m a bs.length true with
  | some (b, k) => (h.shankError m b k true, false)
  | none =>
    if h.unwritten a bs.length true then ((h.dramFinding a true).shankError m a 3 true, false)
    else ((h.markWritten a bs.length).storeBytes a bs, true)

end Sys2Proof.Machine
end

