-- ==== Sys2Proof/Machine/Operands.lean ====
section
/-!
DEFINITION. The operand forms of the Awl instruction words: the fields of the formats R, I, M, BF, B and C (R247), the
instruction a word names (R249 to R251, R261, R270), and the strict check of reserved and unused fields (R248).
-/
namespace Sys2Proof.Machine

/-- The Awl instructions, as the opcode table lists them. -/
inductive AwlKind where
  | add | adds | sub | subs | mul | mulh | and | or | xor | shl | shr | shra | clz | popc | cmp | bfx | bfi
  | bcond | call | ret | ld | st | yield | raise | trap | halt
  | ldp | stp | crc | hash | qpush | qpull | qpeek | lock | unlock | tnow | tmono | tadd | tcmp | cfadd
  | stampRead | stampMark | waitev | waitt | release | drop | fwd | lastw | lastamend
deriving DecidableEq, Repr

/-! ### Fields (R247) -/

def opOf (w : Word) : Nat := bitsOf w 26 6
def rdOf (w : Word) : Nat := bitsOf w 22 4
def raOf (w : Word) : Nat := bitsOf w 18 4
def rbOf (w : Word) : Nat := bitsOf w 14 4
def fOf (w : Word) : Bool := w.getLsbD 13
def uOf (w : Word) : Bool := w.getLsbD 6
def fnOf (w : Word) : Nat := bitsOf w 0 6
def xOf (w : Word) : Nat := bitsOf w 16 2
def immOf (w : Word) : Nat := bitsOf w 0 16
def posOf (w : Word) : Nat := bitsOf w 12 6
def lenOf (w : Word) : Nat := bitsOf w 6 6 + 1
def sxOf (w : Word) : Bool := w.getLsbD 5
def offM (w : Word) : Int := signedOf 16 (immOf w)
def offB (w : Word) : Int := signedOf 22 (bitsOf w 0 22)
def offC (w : Word) : Int := signedOf 26 (bitsOf w 0 26)
/-- The access size in bytes. -/
def accessSize (w : Word) : Nat := 2 ^ xOf w

/-- The sign-extended and zero-extended immediates of R251. -/
def immSigned (w : Word) : Dword := BitVec.ofInt 64 (signedOf 16 (immOf w))
def immZero (w : Word) : Dword := BitVec.ofNat 64 (immOf w)

/-- The word is an immediate form of its arithmetic instruction. -/
def isImm (w : Word) : Bool := opOf w != 1

/-! ### The instruction a word names -/

/-- The instruction that OP, FN, X, KIND or U name, before the check of reserved fields; none: unassigned (R248). -/
def kindOf (w : Word) : Option AwlKind :=
  match opOf w with
  | 0x01 =>
    match fnOf w with
    | 0 => some .add | 1 => some .adds | 2 => some .sub | 3 => some .subs | 4 => some .mul | 5 => some .mulh
    | 6 => some .and | 7 => some .or | 8 => some .xor | 9 => some .shl | 10 => some .shr | 11 => some .shra
    | 12 => some .clz | 13 => some .popc | 14 => some .cmp
    | _ => none
  | 0x02 => some .add
  | 0x03 => some .adds
  | 0x04 => some .mul
  | 0x05 => some .and
  | 0x06 => some .or
  | 0x07 => some .xor
  | 0x08 => match bitsOf w 6 2 with | 0 => some .shl | 1 => some .shr | 2 => some .shra | _ => none
  | 0x09 => some .cmp
  | 0x0A => if w.getLsbD 4 then some .bfi else some .bfx
  | 0x10 => some .bcond
  | 0x11 => some .call
  | 0x12 => some .ret
  | 0x14 => some .ld
  | 0x15 => some .st
  | 0x18 => some .ldp
  | 0x19 => some .stp
  | 0x1A => match fnOf w with | 0 => some .crc | 1 => some .hash | _ => none
  | 0x1B => match fnOf w with | 0 => some .qpush | 1 => some .qpull | 2 => some .qpeek | _ => none
  | 0x1C => match xOf w with | 0 => some .lock | 1 => some .unlock | _ => none
  | 0x1D =>
    match fnOf w with
    | 0 => some .tnow | 1 => some .tmono | 2 => some .tadd | 3 => some .tcmp | 4 => some .cfadd
    | 5 => if uOf w then some .stampMark else some .stampRead
    | _ => none
  | 0x1E => match xOf w with | 0 => some .waitev | 1 => some .waitt | _ => none
  | 0x1F => match fnOf w with | 0 => some .release | 1 => some .drop | 2 => some .fwd | _ => none
  | 0x20 => match fnOf w with | 0 => some .lastw | 1 => some .lastamend | _ => none
  | 0x3C => match xOf w with | 0 => some .yield | 1 => some .raise | 2 => some .trap | _ => some .halt
  | _ => none

/-! ### The strict check of R248 -/

/-- The reserved bits [12:7] of format R are zero. -/
def reservedR (w : Word) : Bool := bitsOf w 7 6 == 0

/-- A pair operand names an even register g2 to g14 (R271). -/
def isPair (r : Nat) : Bool := r % 2 == 0 && r != 0

/-- Format R with U and F zero. -/
def plainR (w : Word) : Bool := reservedR w && !uOf w && !fOf w

/-- The ALU register group (R250): `u` and `rb` say whether U and RB are used. -/
def validAlu (w : Word) (u rb : Bool) : Bool := reservedR w && (u || !uOf w) && (rb || rbOf w == 0)

/-- Whether a word that names instruction `k` is valid under R248, R250 to R252, R259, R261, R270 and R271. -/
def validWord (k : AwlKind) (w : Word) : Bool :=
  match k with
  | .add => if isImm w then bitsOf w 17 1 == 0 else validAlu w false true
  | .adds => isImm w || validAlu w true true
  | .sub => validAlu w false true
  | .subs => validAlu w true true
  | .mul => if isImm w then bitsOf w 17 1 == 0 else validAlu w false true
  | .mulh => validAlu w true true
  | .and => if isImm w then bitsOf w 17 1 == 0 else validAlu w false true
  | .or => isImm w || validAlu w false true
  | .xor => isImm w || validAlu w false true
  | .shl => if isImm w then bitsOf w 17 1 == 0 && bitsOf w 8 8 == 0 else validAlu w false true
  | .shr => if isImm w then bitsOf w 17 1 == 0 && bitsOf w 8 8 == 0 else validAlu w false true
  | .shra => if isImm w then bitsOf w 17 1 == 0 && bitsOf w 8 8 == 0 else validAlu w false true
  | .clz => validAlu w false false
  | .popc => validAlu w false false
  | .cmp =>
    if isImm w then xOf w == 0 && rdOf w == 0 else validAlu w false true && rdOf w == 0 && !fOf w
  | .bfx => bitsOf w 0 4 == 0 && decide (posOf w + lenOf w ≤ 64)
  | .bfi => bitsOf w 0 4 == 0 && decide (posOf w + lenOf w ≤ 64) && !sxOf w
  | .bcond => rdOf w != 15
  | .call => true
  | .ret => reservedR w && rdOf w == 0 && rbOf w == 0 && !fOf w && !uOf w && fnOf w == 0
  | .ld => true
  | .st => true
  | .yield => rdOf w == 0 && raOf w == 0 && immOf w == 0
  | .raise => true
  | .trap => rdOf w == 0 && raOf w == 0
  | .halt => rdOf w == 0 && raOf w == 0 && immOf w == 0
  | .ldp => true
  | .stp => true
  | .crc => reservedR w && !fOf w
  | .hash => plainR w
  | .qpush => plainR w
  | .qpull => reservedR w && !fOf w && rbOf w == 0
  | .qpeek => plainR w && rbOf w == 0
  | .lock => true
  | .unlock => rdOf w == 0
  | .tnow => plainR w && isPair (rdOf w) && raOf w == 0 && rbOf w == 0
  | .tmono => plainR w && raOf w == 0 && rbOf w == 0
  | .tadd => reservedR w && !uOf w && isPair (rdOf w) && isPair (raOf w)
  | .tcmp => plainR w && rdOf w == 0 && isPair (raOf w) && isPair (rbOf w)
  | .cfadd => reservedR w && !uOf w
  | .stampRead => reservedR w && !fOf w && isPair (rdOf w) && raOf w == 0 && rbOf w == 0
  | .stampMark => reservedR w && !fOf w && rdOf w == 0 && rbOf w == 0
  | .waitev => bitsOf w 1 7 == 0
  | .waitt => bitsOf w 1 15 == 0 && (!w.getLsbD 0 || isPair (raOf w))
  | .release => plainR w && rdOf w == 0
  | .drop => plainR w && rdOf w == 0 && rbOf w == 0
  | .fwd => plainR w && rdOf w == 0
  | .lastw => plainR w
  | .lastamend => plainR w && isPair (raOf w)

/-- The instructions that place their thread in Wait (R237, R244, R270), and RAISE: in the last word of the
instruction memory each raises FETCH, as every instruction that continues sequentially (R260). The ones that do not
continue there. -/
def continues (k : AwlKind) (taken : Bool) : Bool :=
  match k with
  | .bcond => !taken
  | .call => false
  | .ret => false
  | .yield => false
  | .halt => false
  | .trap => false
  | _ => true

end Sys2Proof.Machine
end

