-- ==== Sys2Proof/Machine/AwlCore.lean ====
section
/-!
DEFINITION. The Awl thread contexts: registers, flags and PC (R238, R239), who may issue (R236), start, reset, exception
and return to Idle (R235, R263, R268, R269), the word queues (R278 to R282) and the hardware locks (R283, R284, R491 to
R493), with the threads that wait for them.
-/
namespace Sys2Proof.Machine

/-! ### Threads -/

/-- A reset context (R263, R269). -/
def AwlThread.initial : AwlThread :=
  ⟨0, [], false, false, false, false, 0, false, none, 0, [], 0, .nothing, 0, 0⟩

/-- The states of R235. -/
def thrIdle : Nat := 0
def thrRun : Nat := 1
def thrWait : Nat := 2
def thrFault : Nat := 3
def thrHalt : Nat := 4

def Hw.thread (h : Hw) (t : Nat) : AwlThread := kgetD AwlThread.initial h.awl.threads t
def Hw.setThread (h : Hw) (t : Nat) (v : AwlThread) : Hw := { h with awl := { h.awl with threads := kput h.awl.threads t v } }
def Hw.modThread (h : Hw) (t : Nat) (f : AwlThread → AwlThread) : Hw := h.setThread t (f (h.thread t))

def Hw.threadState (h : Hw) (t : Nat) : Nat := h.get (R.AWL_THR_STAT_STATE (t / 4) (t % 4))
def Hw.setThreadState (h : Hw) (t v : Nat) : Hw := h.set (R.AWL_THR_STAT_STATE (t / 4) (t % 4)) v

/-- Express-reserved (R234): thread 0 of an engine of cluster 0. -/
def expressThread (t : Nat) : Bool := decide (t < 32) && t % 4 == 0

/-- A Welt timing thread (R234): thread 1 of engine `k` of cluster 0 with its TIMING_MASK bit set. -/
def Hw.timingThread (h : Hw) (t : Nat) : Bool :=
  decide (t < 32) && t % 4 == 1 && (h.get R.WELT_CTL_TIMING_MASK).testBit (t / 4)

/-- Privileged (R234). -/
def Hw.privileged (h : Hw) (t : Nat) : Bool := expressThread t || h.timingThread t

/-- A general register; g0 reads zero (R239). -/
def AwlThread.reg (th : AwlThread) (r : Nat) : Dword := if r = 0 then 0 else kgetD 0 th.g r

/-- A general register written; a write of g0 is discarded (R239). -/
def AwlThread.setReg (th : AwlThread) (r : Nat) (v : Dword) : AwlThread :=
  if r = 0 then th else { th with g := kput th.g r v }

def AwlThread.setFlags (th : AwlThread) (z n c v : Bool) : AwlThread := { th with z := z, n := n, c := c, v := v }

/-- The identity word of g2 (R238). -/
def Hw.identity (h : Hw) (t : Nat) (dispatched : Bool) : Nat :=
  t % 4 + 4 * (t / 4 % 8) + 32 * (t / 32) + (if h.privileged t then 256 else 0) + (if expressThread t then 512 else 0) +
    (if dispatched then 1024 else 0)

/-- A thread enters Run from Idle (R238). Its latched event lines stay as they are (R291). -/
def Hw.startThread (h : Hw) (t entry : Nat) (g1 : Dword) (dispatched : Bool) : Hw :=
  let th := h.thread t
  let h := h.setThread t
    { AwlThread.initial with
        pc := entry, g := kput (kput [] 1 g1) 2 (BitVec.ofNat 64 (h.identity t dispatched)), dispatched := dispatched,
        events := th.events }
  h.setThreadState t thrRun

/-! ### Word queues (R278 to R282) -/

/-- The queue ID of a thread's mailbox. -/
def mailboxOf (t : Nat) : Nat := 0x100 + t

/-- A mailbox or a work queue (R278). -/
def isMailbox (q : Nat) : Bool := decide (0x100 ≤ q) && decide (q < 0x200)
def isWorkQueue (q : Nat) : Bool := decide (0x200 ≤ q) && decide (q < 0x240)

/-- Depth in words (R278). -/
def queueDepth (q : Nat) : Nat := if isMailbox q then 16 else 256

def Hw.wordsOf (h : Hw) (q : Nat) : List Dword := kgetD [] h.awl.words q
def Hw.setWords (h : Hw) (q : Nat) (l : List Dword) : Hw := { h with awl := { h.awl with words := kput h.awl.words q l } }
def Hw.pushersOf (h : Hw) (q : Nat) : List Nat := kgetD [] h.awl.pushers q
def Hw.setPushers (h : Hw) (q : Nat) (l : List Nat) : Hw := { h with awl := { h.awl with pushers := kput h.awl.pushers q l } }
def Hw.pullersOf (h : Hw) (q : Nat) : List Nat := kgetD [] h.awl.pullers q
def Hw.setPullers (h : Hw) (q : Nat) (l : List Nat) : Hw := { h with awl := { h.awl with pullers := kput h.awl.pullers q l } }

/-- What thread `t` waits for has come: its result stands ready for its completion. -/
def Hw.answer (h : Hw) (t : Nat) (r : Reply) : Hw := h.modThread t fun th => { th with on := .done r }

/-- A word joins a queue with space: it wakes the longest-waiting puller, or stays (R281). -/
def Hw.pushWord (h : Hw) (q : Nat) (w : Dword) : Hw :=
  match h.pullersOf q with
  | t :: rest =>
    match (h.thread t).on with
    | .pull rd _ => (h.setPullers q rest).answer t ⟨rd, some w, some false, 0⟩
    | _ => (h.setPullers q rest).setWords q (h.wordsOf q ++ [w])
  | [] => h.setWords q (h.wordsOf q ++ [w])

/-- Space has appeared: waiting pushers append, longest-waiting first, while it lasts (R279, R281). -/
def Hw.servePushers (h : Hw) (q fuel : Nat) : Hw :=
  match fuel with
  | 0 => h
  | fuel + 1 =>
    match h.pushersOf q with
    | [] => h
    | t :: rest =>
      if (h.wordsOf q).length < queueDepth q then
        let h' := h.setPushers q rest
        match (h.thread t).on with
        | .push rd _ w => ((h'.pushWord q w).answer t ⟨rd, some 0, none, 0⟩).servePushers q fuel
        | _ => h'.servePushers q fuel
      else h

/-- The oldest word leaves a queue (R280). -/
def Hw.pullWord (h : Hw) (q : Nat) : Hw × Option Dword :=
  match h.wordsOf q with
  | [] => (h, none)
  | w :: rest => ((h.setWords q rest).servePushers q 256, some w)

/-- A mailbox is emptied (R282). -/
def Hw.emptyMailbox (h : Hw) (t : Nat) : Hw := (h.setWords (mailboxOf t) []).servePushers (mailboxOf t) 256

/-! ### Hardware locks -/

def Hw.lockWaiters (h : Hw) (i : Nat) : List Nat := kgetD [] h.shank.lockWaiters i
def Hw.setLockWaiters (h : Hw) (i : Nat) (l : List Nat) : Hw :=
  ({ h with shank := { h.shank with lockWaiters := kput h.shank.lockWaiters i l } }).set (R.SHK_LOCK_STAT_WAITERS i) l.length

def Hw.lockHeld (h : Hw) (i : Nat) : Bool := h.flag (R.SHK_LOCK_STAT_HELD i)
def Hw.lockBroken (h : Hw) (i : Nat) : Bool := h.flag (R.SHK_LOCK_STAT_BROKEN i)

/-- Core or other master `m` owns lock `i`. -/
def Hw.lockOwnedByMaster (h : Hw) (i m : Nat) : Bool := h.lockHeld i && h.get (R.SHK_LOCK_STAT_OWNER i) == m

/-- Lock `i` becomes held by master `m` (thread `t` of it), its BROKEN flag cleared (R491). -/
def Hw.giveLock (h : Hw) (i m t : Nat) : Hw :=
  (((h.set (R.SHK_LOCK_STAT_HELD i) 1).set (R.SHK_LOCK_STAT_BROKEN i) 0).set (R.SHK_LOCK_STAT_OWNER i) m).set
    (R.SHK_LOCK_STAT_THREAD i) t

/-- Awl thread `t` holds lock `i`. -/
def Hw.giveLockThread (h : Hw) (i t : Nat) : Hw :=
  (h.giveLock i (8 + t / 32) t).modThread t fun th => { th with locks := i :: th.locks }

/-- A lock loses its owner (R492, R493): the longest-waiting thread acquires it, with ACQUIRED_BROKEN where the lock was
broken; with no waiter it is free. -/
def Hw.passLock (h : Hw) (i : Nat) (broken : Bool) : Hw :=
  match h.lockWaiters i with
  | t :: rest =>
    let rd := match (h.thread t).on with
      | .lock rd _ => rd
      | _ => 0
    ((h.setLockWaiters i rest).giveLockThread i t).answer t ⟨rd, some (if broken then 1 else 0), none, 0⟩
  | [] =>
    (((h.set (R.SHK_LOCK_STAT_HELD i) 0).setFlag (R.SHK_LOCK_STAT_BROKEN i) broken).set (R.SHK_LOCK_STAT_OWNER i) 0).set
      (R.SHK_LOCK_STAT_THREAD i) 0

/-- The lock leaves the list of the thread that held it. -/
def Hw.forgetLock (h : Hw) (i : Nat) : Hw :=
  let m := h.get (R.SHK_LOCK_STAT_OWNER i)
  if h.lockHeld i && decide (8 ≤ m) && decide (m < 16) then
    h.modThread (h.get (R.SHK_LOCK_STAT_THREAD i)) fun th => { th with locks := th.locks.filter (· != i) }
  else h

/-- A lock is broken (R493). -/
def Hw.breakLock (h : Hw) (i : Nat) : Hw := (h.forgetLock i).passLock i true

/-- A lock is released by its owner (R492). -/
def Hw.releaseLock (h : Hw) (i : Nat) : Hw := (h.forgetLock i).passLock i false

/-- Every lock of a thread is broken (R493). -/
def Hw.breakLocksOf (h : Hw) (t : Nat) : Hw := (h.thread t).locks.foldl (fun h i => h.breakLock i) h

/-- Every lock of a core is broken (R460, R493). -/
def Hw.breakLocksOfCore (h : Hw) (n : Nat) : Hw :=
  (List.range 1024).foldl (fun h i => if h.lockOwnedByMaster i n then h.breakLock i else h) h

/-! ### Leaving waits, context reset, exceptions -/

/-- An access of a thread that its target has not performed is withdrawn (R47, R263; DEDUCED, log 8). -/
def Hw.withdrawAccess (h : Hw) (t : Nat) : Hw :=
  let other (q : Request) : Bool := q.thread != some t
  { h with
    shank := { h.shank with arbiters := h.shank.arbiters.map fun x => (x.1, { x.2 with waiting := x.2.waiting.filter other }) }
    dram := { h.dram with channels := h.dram.channels.map fun x => (x.1, { x.2 with waiting := x.2.waiting.filter other }) } }

/-- A thread leaves every list it waits in (R492). -/
def Hw.leaveWaits (h : Hw) (t : Nat) : Hw :=
  match (h.thread t).on with
  | .access _ _ _ => h.withdrawAccess t
  | .unit => h.withdrawAccess t
  | .packet _ => h.withdrawAccess t
  | .push _ q _ => h.setPushers q ((h.pushersOf q).filter (· != t))
  | .pull _ q => h.setPullers q ((h.pullersOf q).filter (· != t))
  | .lock _ i => h.setLockWaiters i ((h.lockWaiters i).filter (· != t))
  | .raise _ _ _ => { h with awl := { h.awl with raisers := h.awl.raisers.filter (· != t) } }
  | _ => h

/-- The context of a thread is reset (R17, R263, R269, R282, R291); its state is the caller's. -/
def Hw.resetContext (h : Hw) (t : Nat) : Hw :=
  let h := (h.leaveWaits t).setThread t AwlThread.initial
  let h := { h with latches := kdel h.latches (64 + t) }
  h.emptyMailbox t

/-- The held frame is dropped with a device reason; in its domain it counts as released and dropped (R47, R263). -/
def Hw.dropHeld (h : Hw) (t reason : Nat) : Hw :=
  match (h.thread t).frame with
  | some id => (h.modFrame id fun f => { f with disp := .drop reason }).modThread t fun th => { th with frame := none, dirty := 0 }
  | none => h

/-- The register record of an exception (R263, R268): a record still marked keeps its place and sets OVF. While OVF is
set the record is held, and an exception that finds EXC_EV cleared sets it again without a new record (CODE stays with
the record it names; DEDUCED, log 21). -/
def Hw.recordException (h : Hw) (t code : Nat) (insn : Word) (pc addr imm bus : Nat) : Hw :=
  let e := t / 4
  let k := t % 4
  let h := h.bump (R.AWL_THR_STAT_EXC_CNT e k)
  if h.flag (R.AWL_THR_STAT_EXC_EV e k) then h.set (R.AWL_THR_STAT_OVF e k) 1
  else if h.flag (R.AWL_THR_STAT_OVF e k) then h.set (R.AWL_THR_STAT_EXC_EV e k) 1
  else
    let h := (h.set (R.AWL_THR_STAT_CODE e k) code).set (R.AWL_THR_STAT_EXC_EV e k) 1
    let h := (h.setWord (R.AWL_EXC_PC e k) (BitVec.ofNat 32 pc)).setWord (R.AWL_EXC_INSN e k) insn
    let h := (h.setWord (R.AWL_EXC_ADDR_LO e k) (BitVec.ofNat 32 addr)).setWord (R.AWL_EXC_ADDR_HI e k) (BitVec.ofNat 32 (addr / 2 ^ 32))
    h.setWord (R.AWL_EXC_INFO e k) (BitVec.ofNat 32 (imm + 2 ^ 16 * bus))

/-- An exception of a thread (R263): its frame is dropped with reason 254, its locks are broken, the record is written,
and the thread is Idle after a context reset, in Fault, or, for HALT, in Halt. -/
def Hw.exception (h : Hw) (t code : Nat) (insn : Word) (addr imm bus : Nat) : Hw :=
  let pc := (h.thread t).pc
  let h := (h.dropHeld t 254).breakLocksOf t
  let h := h.recordException t code insn pc addr imm bus
  if code = 10 then (h.setThreadState t thrHalt).modThread t fun th => { th with on := .nothing }
  else if h.flag (R.AWL_CLU_CFG_RESUME (t / 32)) then (h.resetContext t).setThreadState t thrIdle
  else ((h.leaveWaits t).setThreadState t thrFault).modThread t fun th => { th with on := .nothing }

/-- The exception codes of R262 and R272. -/
def excIllegal : Nat := 1
def excFetch : Nat := 2
def excLimit : Nat := 3
def excAddr : Nat := 4
def excAlign : Nat := 5
def excProt : Nat := 6
def excBus : Nat := 7
def excTrap : Nat := 8
def excUndisposed : Nat := 9
def excHalt : Nat := 10
def excNoFrame : Nat := 16
def excPktRange : Nat := 17
def excQid : Nat := 18
def excLockId : Nat := 19
def excLockState : Nat := 20
def excTimeFmt : Nat := 21
def excDisp : Nat := 22
def excArg : Nat := 23

/-! ### Issue -/

/-- The state of engine `e` (R43). -/
def Hw.engineState (h : Hw) (e : Nat) : Nat := h.get (R.AWL_FSTAT_STATE e)

/-- The thread an engine issues from next (R236): its express-reserved thread, then its Welt timing thread, then its
ordinary threads in rotation, starting after the one that issued last. -/
def Hw.issuer (h : Hw) (e : Nat) : Option Nat :=
  let run (t : Nat) : Bool := h.threadState t == thrRun
  if expressThread (4 * e) && run (4 * e) then some (4 * e)
  else if h.timingThread (4 * e + 1) && run (4 * e + 1) then some (4 * e + 1)
  else
    let last := kgetD 3 h.awl.lastIssued e
    ((List.range 4).map fun i => 4 * e + (last + 1 + i) % 4).find? fun t =>
      run t && !expressThread t && !h.timingThread t

/-- The address of an Awl cluster's window (R27). -/
def clusterBase (c : Nat) : Nat := 0x20000000 + 0x100000 * c

/-- The head slot of a thread (R317). -/
def headSlot (t : Nat) : Nat := clusterBase (t / 32) + 0x40000 + 0x3E800 + 0xC0 * (t % 32)

/-- The word at the PC of a thread (R247). -/
def Hw.fetched (h : Hw) (t : Nat) : Word :=
  BitVec.ofNat 32 (h.memLE (clusterBase (t / 32) + (h.thread t).pc) 4)

/-- The engine has issued from thread `t`: the rotation moves, and the instruction counts (R236, R265). -/
def Hw.issued (h : Hw) (t : Nat) : Hw :=
  let h := if h.privileged t then h else { h with awl := { h.awl with lastIssued := kput h.awl.lastIssued (t / 4) (t % 4) } }
  h.modThread t fun th => { th with count := th.count + 1 }

/-- The instruction limit is reached (R265). -/
def Hw.atLimit (h : Hw) (t : Nat) : Bool :=
  h.get (R.AWL_CLU_CFG_LIMIT (t / 32)) != 0 && decide (h.get (R.AWL_CLU_CFG_LIMIT (t / 32)) ≤ (h.thread t).count)

/-- Thread `t` issues the word at its PC, when it is the thread its engine picks and the word names instruction `k`:
the exceptions that any instruction may raise come first (R248, R260, R262, R265), then `f` gives its effect, with the
PC already past it. `taken` tells whether a branch transfers. -/
def Hw.issue (h : Hw) (t : Nat) (k : AwlKind) (taken : Bool) (target : Option Int) (f : Word → Hw → Hw) : Hw :=
  let w := h.fetched t
  if h.issuer (t / 4) = some t ∧ kindOf w = some k then
    let limit := h.atLimit t
    let h := h.issued t
    let pc := (h.thread t).pc
    let badTarget := match target with
      | some x => x < 0 || 0x1FFFC < x || x % 4 != 0
      | none => false
    if validWord k w && taken && badTarget then
      h.exception t excFetch w ((target.getD 0) % 2 ^ 64).toNat 0 0
    else if validWord k w && continues k taken && pc == 0x1FFFC then h.exception t excFetch w 0x20000 0 0
    else if limit then h.exception t excLimit w 0 0 0
    else if !validWord k w then h.exception t excIllegal w 0 0 0
    else f w (h.modThread t fun th => { th with pc := th.pc + 4 })
  else h

/-- An exception of the instruction just issued: the PC is put back on it, so that the thread's state is as it was
before (R262). -/
def Hw.raiseAt (h : Hw) (t code : Nat) (w : Word) (addr imm bus : Nat) : Hw :=
  (h.modThread t fun th => { th with pc := th.pc - 4 }).exception t code w addr imm bus

/-- The thread enters Wait on its long-latency instruction (R237): the PC stays on it until it completes. -/
def Hw.suspend (h : Hw) (t : Nat) (w : Word) (addr : Nat) (on : WaitOn) : Hw :=
  (h.modThread t fun th => { th with pc := th.pc - 4, on := on, insn := w, addr := addr }).setThreadState t thrWait

/-- A waiting thread runs again with a reply: RD and flags are written, and the PC passes the instruction; a failed
access raises BUS (R244). -/
def Hw.complete (h : Hw) (t : Nat) (r : Reply) : Hw :=
  if r.bus != 0 then
    let th := h.thread t
    h.exception t excBus th.insn th.addr 0 r.bus
  else
    (h.modThread t fun th =>
      let th := match r.value with
        | some v => th.setReg r.rd v
        | none => th
      let th := match r.z with
        | some z => th.setFlags z false false false
        | none => th
      { th with on := .nothing, pc := th.pc + 4 }).setThreadState t thrRun

/-- LONG_LATENCY_COMPLETE (R237, R244): the result of the thread's instruction stands ready, and the thread leaves
Wait. -/
def execLongLatencyComplete (t : Fin 256) (s : State) : Host.Outcome State Fault Refusal :=
  s.effect fun h =>
    match (h.thread t).on with
    | .done r => if h.threadState t = thrWait then h.complete t r else h
    | _ => h

/-! ### Commands on threads -/

/-- THR_CMD RESTART (R269). -/
def Hw.thrRestart (h : Hw) (e k : Nat) : Hw :=
  let t := 4 * e + k
  if (h.threadState t = thrFault ∨ h.threadState t = thrHalt) ∧ h.engineState e ≠ stClosing then
    (h.resetContext t).setThreadState t thrIdle
  else h.set (R.AWL_THR_STAT_CMD_ERR e k) 1

/-- THR_CMD START (R269). -/
def Hw.thrStart (h : Hw) (e k entry : Nat) : Hw :=
  let t := 4 * e + k
  if h.threadState t = thrIdle ∧ h.engineState e = stOpen ∧ !expressThread t then h.startThread t entry 0 false
  else h.set (R.AWL_THR_STAT_CMD_ERR e k) 1

/-- A write of THR_CMD (R268). -/
def Hw.writeThrCmd (h : Hw) (e k : Nat) (v : Word) : Hw :=
  match fieldOf v (R.AWL_THR_CMD_OP e k) with
  | 1 => h.thrRestart e k
  | 2 => h.thrStart e k (4 * fieldOf v (R.AWL_THR_CMD_ENTRY e k))
  | _ => h

def execThrRestart (e : Fin 64) (k : Fin 4) (s : State) : Host.Outcome State Fault Refusal :=
  s.effect fun h => h.thrRestart e k

def execThrStart (e : Fin 64) (k : Fin 4) (entry : BitVec 15) (s : State) : Host.Outcome State Fault Refusal :=
  s.effect fun h => h.thrStart e k (4 * entry.toNat)

/-- A write of AWL_c_EVT (R292): each bit set latches its event line in every thread of the cluster. -/
def Hw.evtSet (h : Hw) (c bits : Nat) : Hw :=
  (List.range 32).foldl (fun h i => h.modThread (32 * c + i) fun th => { th with events := Nat.lor th.events (bits % 256) }) h

def execEvtSet (c : Fin 8) (bits : BitVec 8) (s : State) : Host.Outcome State Fault Refusal :=
  s.effect fun h => h.evtSet c bits.toNat

/-- The masked events pending for a thread (R291): the mailbox level, and the latched lines. -/
def Hw.pendingEvents (h : Hw) (t mask : Nat) : Nat :=
  Nat.land mask ((if (h.wordsOf (mailboxOf t)).isEmpty then 0 else 1) + 256 * (h.thread t).events)

/-- The latched lines that WAITEV returns are cleared (R291). -/
def Hw.takeEvents (h : Hw) (t bits : Nat) : Hw :=
  h.modThread t fun th => { th with events := Nat.xor th.events (Nat.land th.events (bits / 256)) }

/-- WAITEV_WAKE (R291, R293): a waited event is pending, the engine is Closing, or the deadline has come; the closing
indication is bit 63. -/
def execWaitevWake (t : Fin 256) (s : State) : Host.Outcome State Fault Refusal :=
  s.effect fun h =>
    match (h.thread t).on with
    | .event rd mask deadline =>
      let p := h.pendingEvents t mask
      if h.engineState (t / 4) = stClosing then
        (h.takeEvents t p).complete t ⟨rd, some (BitVec.ofNat 64 (p + 2 ^ 63)), none, 0⟩
      else if p ≠ 0 then (h.takeEvents t p).complete t ⟨rd, some (BitVec.ofNat 64 p), none, 0⟩
      else if deadline ≠ 0 then (h.advanceTo deadline).complete t ⟨rd, some 0, none, 0⟩
      else h
    | _ => h

/-- WAITT_WAKE (R293): the engine is Closing, or the deadline is reached. -/
def execWaittWake (t : Fin 256) (s : State) : Host.Outcome State Fault Refusal :=
  s.effect fun h =>
    let closing := h.engineState (t / 4) = stClosing
    match (h.thread t).on with
    | .elapsed rd deadline =>
      if closing then h.complete t ⟨rd, some 3, none, 0⟩ else (h.advanceTo deadline).complete t ⟨rd, some 0, none, 0⟩
    | .network rd d =>
      if closing then h.complete t ⟨rd, some 3, none, 0⟩
      else h.atNt (d.sec * ntSecond + d.sub * 2 ^ 16) fun h => h.complete t ⟨rd, some 0, none, 0⟩
    | _ => h

/-- A step of network time ends every wait on it with status 2 (R293, R433). -/
def Hw.waittStep (h : Hw) : Hw :=
  (List.range 256).foldl (fun h t =>
    match (h.thread t).on with
    | .network rd _ => h.complete t ⟨rd, some 2, none, 0⟩
    | _ => h) h

end Sys2Proof.Machine
end

