-- ==== Sys2Proof/Machine/Bench.lean ====
section
/-!
DEFINITION. The Bench: RTOS threads, commands, events, the tick, ageing, dispatch and the switch handshake (R461 to
R478), the cores' queue ports (R474), RUN (R460) and the cores' side of the hardware locks (R491 to R493).
-/
namespace Sys2Proof.Machine

/-! ### Threads -/

def btUnused : Nat := 0
def btReady : Nat := 1
def btRunning : Nat := 2
def btDelayed : Nat := 3
def btWaiting : Nat := 4
def btSuspended : Nat := 5

def BenchThread.initial : BenchThread := ⟨0, false, 0, 0, 0, 0, false, false, []⟩
def Hw.bt (h : Hw) (t : Nat) : BenchThread := kgetD BenchThread.initial h.bench.threads t
def Hw.modBt (h : Hw) (t : Nat) (f : BenchThread → BenchThread) : Hw :=
  { h with bench := { h.bench with threads := kput h.bench.threads t (f (h.bt t)) } }

def Hw.btState (h : Hw) (t : Nat) : Nat := h.get (R.BENCH_THR_W0_STATE t)
def Hw.setBtState (h : Hw) (t v : Nat) : Hw := h.set (R.BENCH_THR_W0_STATE t) v
def Hw.btTomb (h : Hw) (t : Nat) : Bool := h.flag (R.BENCH_THR_W0_TOMB t)
def Hw.btEff (h : Hw) (t : Nat) : Nat := h.get (R.BENCH_THR_W0_EFF t)

def Hw.readyList (h : Hw) (l : Nat) : List Nat := kgetD [] h.bench.ready l
def Hw.setReadyList (h : Hw) (l : Nat) (v : List Nat) : Hw :=
  { h with bench := { h.bench with ready := kput h.bench.ready l v } }

/-- A thread leaves its ready list. -/
def Hw.unlist (h : Hw) (t : Nat) : Hw := h.setReadyList (h.btEff t) ((h.readyList (h.btEff t)).filter (· != t))

/-- The effective priority of a thread with base `b` that has stood READY for `w` ticks (R468). -/
def Hw.effective (h : Hw) (b w : Nat) (age : Bool) : Nat :=
  let ceil := h.get R.BENCH_CFG_CEIL
  let a := h.get R.BENCH_CFG_AGE_TICKS
  if b ≤ ceil || a = 0 || !age then b else max ceil (b - w / a)

/-- A thread becomes READY at the tail, or the head, of the list of its base priority (R461, R470). -/
def Hw.makeReady (h : Hw) (t : Nat) (head byReady : Bool) : Hw :=
  let b := h.get (R.BENCH_THR_W0_PRIO t)
  let h := (h.setBtState t btReady).set (R.BENCH_THR_W0_EFF t) b
  let h := h.modBt t fun x => { x with timed := false, byReady := byReady, stood := 0 }
  h.setReadyList b (if head then t :: h.readyList b else h.readyList b ++ [t])

/-- A thread takes a state other than READY and RUNNING, out of every list, its effective priority its base one. -/
def Hw.putAside (h : Hw) (t st : Nat) : Hw :=
  let h := h.unlist t
  let h := (h.setBtState t st).set (R.BENCH_THR_W0_EFF t) (h.get (R.BENCH_THR_W0_PRIO t))
  h.modBt t fun x => { x with timed := false, byReady := false }

/-! ### Cores -/

def Hw.coreIdle (h : Hw) (n : Nat) : Bool := h.flag (R.BENCH_NEXT_IDLE n)
def Hw.curIdle (h : Hw) (n : Nat) : Bool := h.flag (R.BENCH_CUR_IDLE n)
def Hw.cur (h : Hw) (n : Nat) : Nat := h.get (R.BENCH_CUR_THREAD n)
def Hw.next (h : Hw) (n : Nat) : Nat := h.get (R.BENCH_NEXT_THREAD n)

/-- The thread of CUR runs on core `n`. -/
def Hw.curRuns (h : Hw) (n : Nat) : Bool := !h.curIdle n && h.btState (h.cur n) == btRunning

def Hw.setNext (h : Hw) (n t cause : Nat) : Hw :=
  ((h.set (R.BENCH_NEXT_THREAD n) t).set (R.BENCH_NEXT_IDLE n) 0).set (R.BENCH_NEXT_CAUSE n) cause
def Hw.setNextIdle (h : Hw) (n cause : Nat) : Hw :=
  ((h.set (R.BENCH_NEXT_THREAD n) 0).set (R.BENCH_NEXT_IDLE n) 1).set (R.BENCH_NEXT_CAUSE n) cause

/-- A core runs, so threads may go to it (R470). -/
def Hw.coreUp (h : Hw) (n : Nat) : Bool := h.get (R.SYS_CORE_STAT_STATE n) != 0

def Hw.eligibleCore (h : Hw) (t n : Nat) : Bool := (h.bt t).aff.testBit n && h.coreUp n

/-- The core a RUNNING thread runs on. -/
def Hw.coreOf (h : Hw) (t : Nat) : Option Nat :=
  (List.range 8).find? fun n => !h.curIdle n && h.cur n == t && h.btState t == btRunning

/-- The core whose NEXT names a READY thread. -/
def Hw.assigned (h : Hw) (t : Nat) : Bool := (List.range 8).any fun n => !h.coreIdle n && h.next n == t

/-- A NEXT whose thread is neither READY nor running on its core is withdrawn: the core keeps its RUNNING thread, or
becomes idle. -/
def Hw.withdraw (h : Hw) (n : Nat) : Hw :=
  if h.coreIdle n then h
  else
    let t := h.next n
    if h.btState t == btReady || (h.curRuns n && h.cur n == t) then h
    else if h.curRuns n then h.setNext n (h.cur n) 0
    else h.setNextIdle n (h.get (R.BENCH_NEXT_CAUSE n))

/-- The core a READY thread preempts (R470): the worst effective priority, and among those the highest number. -/
def Hw.victim (h : Hw) (t : Nat) : Option Nat :=
  (List.range 8).foldl (fun b n =>
    if h.eligibleCore t n && !h.coreIdle n && !h.flag (R.BENCH_PMASK_PMASK n) && decide (h.btEff t < h.btEff (h.next n)) then
      match b with
      | none => some n
      | some m => if h.btEff (h.next m) ≤ h.btEff (h.next n) then some n else some m
    else b) none

/-- R470 for one READY thread. -/
def Hw.dispatchOne (h : Hw) (t : Nat) : Hw :=
  if h.assigned t then h
  else
    match (List.range 8).find? fun n => h.eligibleCore t n && h.coreIdle n with
    | some n => h.setNext n t (if h.curIdle n then 0 else h.get (R.BENCH_NEXT_CAUSE n))
    | none =>
      match h.victim t with
      | some n => h.setNext n t (if h.curRuns n && h.next n == h.cur n then 1 else h.get (R.BENCH_NEXT_CAUSE n))
      | none => h

/-- A thread becomes RUNNING (R468, R471). -/
def Hw.runThread (h : Hw) (t : Nat) : Hw :=
  let h := h.unlist t
  let h := (h.setBtState t btRunning).set (R.BENCH_THR_W0_EFF t) (h.get (R.BENCH_THR_W0_PRIO t))
  h.modBt t fun x => { x with ran := 0, stood := 0, byReady := false }

/-- The dispatch decisions that follow every input (R470): from the best effective priority down. A core given back the
thread its CUR names runs it on without a switch. -/
def Hw.dispatch (h : Hw) : Hw :=
  let h := (List.range 8).foldl (fun h n => h.withdraw n) h
  let h := (h.bench.ready.flatMap (·.2)).foldl (fun h t => h.dispatchOne t) h
  (List.range 8).foldl (fun h n =>
    if !h.coreIdle n && !h.curIdle n && h.next n == h.cur n && h.btState (h.cur n) == btReady then h.runThread (h.cur n)
    else h) h

/-- A RUNNING thread reaches a preemption point and takes the state that `f` gives it, or, with CANCEL_PEND set,
becomes UNUSED (R464, R465); its core is free, with the cause of the switch. -/
def Hw.preemptionPoint (h : Hw) (n cause : Nat) (f : Hw → Hw) : Hw :=
  let t := h.cur n
  let h := if !h.coreIdle n && h.next n == t || h.coreIdle n then h.setNextIdle n cause
    else h.set (R.BENCH_NEXT_CAUSE n) cause
  if h.flag (R.BENCH_THR_W0_CANCEL_PEND t) then (h.putAside t btUnused).set (R.BENCH_THR_W0_CANCEL_PEND t) 0 else f h

/-! ### Events -/

/-- R466: a WAITING thread with a masked event is woken. -/
def Hw.wakeOnEvent (h : Hw) (t : Nat) : Hw :=
  let e := h.word (R.BENCH_THR_W1 t)
  let w := e &&& (h.bt t).mask
  if h.btState t = btWaiting ∧ w ≠ 0 then
    ((h.setWord (R.BENCH_THR_W1 t) (e &&& ~~~w)).setWord (R.BENCH_THR_W3 t) w).makeReady t false false
  else h

/-- SET_EVENT of `bits` (R463, R466). -/
def Hw.setEvent (h : Hw) (t : Nat) (bits : Word) : Hw :=
  (h.setWord (R.BENCH_THR_W1 t) (h.word (R.BENCH_THR_W1 t) ||| bits)).wakeOnEvent t

/-- An event from an interrupt or a signal: discarded at an UNUSED or tombstoned thread (R465, R472). -/
def Hw.postEvent (h : Hw) (t bit : Nat) : Hw :=
  if h.btState t = btUnused ∨ h.btTomb t then h.bump R.BENCH_CNT0_EV_DROP
  else (h.setEvent t (BitVec.ofNat 32 (2 ^ bit))).dispatch

/-- The signals stored (R472). -/
def Hw.signalCount (h : Hw) : Nat := h.bench.threads.foldl (fun n x => n + x.2.signals.length) 0

/-- Whether a RAISE with code `c` can be accepted (R472). -/
def Hw.signalAccepted (h : Hw) (c : Nat) : Bool :=
  decide (h.signalCount < 1024) && decide ((h.bt (c % 4096)).signals.length < 64)

/-- An accepted signal (R472). -/
def Hw.signal (h : Hw) (c : Nat) (v : Dword) : Hw :=
  let t := c % 4096
  if h.btState t = btUnused ∨ h.btTomb t then h.bump R.BENCH_CNT0_EV_DROP
  else (h.modBt t fun x => { x with signals := x.signals ++ [(c, v)] }).postEvent t (16 + c / 4096 % 16)

/-- Waiting RAISEs that can now be accepted are, longest-waiting first (R261, R472). -/
def Hw.serveRaisers (h : Hw) : Hw :=
  h.awl.raisers.foldl (fun h t =>
    match (h.thread t).on with
    | .raise rd c v =>
      if h.signalAccepted c then
        let h := { h with awl := { h.awl with raisers := h.awl.raisers.filter (· != t) } }
        (h.signal c v).answer t ⟨rd, some 0, none, 0⟩
      else h
    | _ => h) h

/-! ### Commands (R463) -/

/-- The status codes. -/
def bsOk : Nat := 0
def bsBadState : Nat := 1
def bsBadArg : Nat := 2
def bsDiscarded : Nat := 3
def bsEmpty : Nat := 4

/-- A command of core `n`: discarded with CFG_ERR while BUSY; else it resolves, with a status, and the dispatch
decisions follow. -/
def Hw.benchCommand (h : Hw) (n : Nat) (f : Hw → Hw × Nat) : Hw :=
  if h.flag (R.BENCH_RSP_BUSY n) then h.set R.BENCH_STAT_CFG_ERR 1
  else
    let (h, st) := f h
    (h.set (R.BENCH_RSP_STATUS n) st).dispatch

/-- A command on self: the thread CUR names, RUNNING on the issuing core; BAD_STATE when the core runs none. -/
def Hw.benchSelf (h : Hw) (n : Nat) (f : Nat → Hw → Hw × Nat) : Hw :=
  h.benchCommand n fun h => if h.curRuns n then f (h.cur n) h else (h, bsBadState)

def Hw.arg (h : Hw) (n i : Nat) : Word := h.word (R.BENCH_ARG n i)

/-- CREATE (R463); the signals that it clears make room for RAISEs that wait (R472). -/
def Hw.benchCreate (h : Hw) (n t : Nat) : Hw × Nat :=
  let a := h.arg n 0
  if bitsOf a 6 8 = 0 then (h, bsBadArg)
  else if h.btState t ≠ btUnused then (h, bsBadState)
  else
    let h := ((h.setWord (R.BENCH_THR_W0 t) 0).setWord (R.BENCH_THR_W1 t) 0).set (R.BENCH_THR_W0_PRIO t) (bitsOf a 0 6)
    let h := h.set (R.BENCH_THR_W0_EFF t) (bitsOf a 0 6)
    let h := h.modBt t fun _ =>
      { BenchThread.initial with aff := bitsOf a 6 8, ageEn := a.getLsbD 14, slice := bitsOf a 16 8 }
    ((if a.getLsbD 24 then h.makeReady t false false else h.setBtState t btSuspended).serveRaisers, bsOk)

/-- READY (R463, R465). -/
def Hw.benchReady (h : Hw) (t : Nat) : Hw × Nat :=
  if h.btTomb t then (h.bump R.BENCH_CNT0_READY_DISC, bsDiscarded)
  else
    let st := h.btState t
    if st = btUnused then (h, bsDiscarded)
    else if st = btReady ∨ st = btRunning then (h, bsOk)
    else (h.makeReady t false true, bsOk)

/-- CANCEL (R465). -/
def Hw.benchCancel (h : Hw) (t : Nat) : Hw × Nat :=
  let st := h.btState t
  let h := h.set (R.BENCH_THR_W0_TOMB t) 1
  if st = btRunning then (h.set (R.BENCH_THR_W0_CANCEL_PEND t) 1, bsOk)
  else
    let h := if st = btReady ∧ (h.bt t).byReady then (h.set (R.BENCH_THR_W0_DISC t) 1).bump R.BENCH_CNT0_READY_DISC else h
    (if st = btUnused then h else h.putAside t btUnused, bsOk)

/-- SUSPEND (R463, R464). -/
def Hw.benchSuspend (h : Hw) (t : Nat) : Hw × Nat :=
  let st := h.btState t
  if st = btUnused then (h, bsBadState)
  else if st = btRunning then
    match h.coreOf t with
    | some n => (h.preemptionPoint n 3 fun h => h.putAside t btSuspended, bsOk)
    | none => (h, bsOk)
  else (h.putAside t btSuspended, bsOk)

/-- YIELD: self joins the tail of its ready list (R463). -/
def Hw.benchYield (h : Hw) (n t : Nat) : Hw × Nat :=
  (h.preemptionPoint n 3 fun h => h.makeReady t false false, bsOk)

/-- DELAY (R463, R467). -/
def Hw.benchDelay (h : Hw) (n t : Nat) : Hw × Nat :=
  let d := bitsOf (h.arg n 0) 0 24
  if d = 0 then h.benchYield n t
  else
    (h.preemptionPoint n 3 fun h =>
      ((h.putAside t btDelayed).set (R.BENCH_THR_W2_WAKE t) (h.get R.BENCH_TICK_CNT_TICK_CNT + d)).modBt t
        fun x => { x with timed := true }, bsOk)

/-- WAIT (R463, R466). -/
def Hw.benchWait (h : Hw) (n t : Nat) : Hw × Nat :=
  let m := h.arg n 0
  let d := bitsOf (h.arg n 1) 0 24
  let e := h.word (R.BENCH_THR_W1 t)
  if m = 0 then (h, bsBadArg)
  else if e &&& m ≠ 0 then
    ((h.setWord (R.BENCH_THR_W1 t) (e &&& ~~~m)).setWord (R.BENCH_RSP_D0 n) (e &&& m), bsOk)
  else
    (h.preemptionPoint n 3 fun h =>
      let h := (h.putAside t btWaiting).modBt t fun x => { x with mask := m }
      if d = 0 then h
      else (h.set (R.BENCH_THR_W2_WAKE t) (h.get R.BENCH_TICK_CNT_TICK_CNT + d)).modBt t fun x => { x with timed := true },
     bsOk)

/-- SET_EVENT (R463). -/
def Hw.benchSetEvent (h : Hw) (n t : Nat) : Hw × Nat :=
  if h.btState t = btUnused then (h, bsBadState) else (h.setEvent t (h.arg n 0), bsOk)

/-- SET_PRIO (R463). -/
def Hw.benchSetPrio (h : Hw) (n t : Nat) : Hw × Nat :=
  let b := bitsOf (h.arg n 0) 0 6
  let st := h.btState t
  if st = btUnused then (h, bsBadState)
  else if st = btReady then
    let h := (h.unlist t).set (R.BENCH_THR_W0_PRIO t) b
    let e := h.effective b (h.bt t).stood (h.bt t).ageEn
    ((h.set (R.BENCH_THR_W0_EFF t) e).setReadyList e (h.readyList e ++ [t]), bsOk)
  else ((h.set (R.BENCH_THR_W0_PRIO t) b).set (R.BENCH_THR_W0_EFF t) b, bsOk)

/-- SIG_POP (R473). -/
def Hw.benchSigPop (h : Hw) (n t : Nat) : Hw × Nat :=
  match (h.bt t).signals with
  | [] => (h, bsEmpty)
  | (c, v) :: rest =>
    let h := h.modBt t fun x => { x with signals := rest }
    let h := (h.set (R.BENCH_RSP_CODE n) c).setWord (R.BENCH_RSP_D0 n) (v.setWidth 32)
    ((h.setWord (R.BENCH_RSP_D1 n) ((v >>> 32).setWidth 32)).serveRaisers, bsOk)

/-- IRQ_ACK (R475). -/
def Hw.benchIrqAck (h : Hw) (n : Nat) : Hw × Nat := (h.set (R.BENCH_IRQ_PEND (bitsOf (h.arg n 0) 0 8)) 0, bsOk)

/-- EXIT (R463, R465). -/
def Hw.benchExit (h : Hw) (n t : Nat) : Hw × Nat :=
  (h.preemptionPoint n 3 fun h => (h.putAside t btUnused).set (R.BENCH_THR_W0_TOMB t) 0, bsOk)

def execCreate (n : Fin 8) (t : Fin 4096) (s : State) : Host.Outcome State Fault Refusal :=
  s.effect fun h => h.benchCommand n fun h => h.benchCreate n t
def execReady (n : Fin 8) (t : Fin 4096) (s : State) : Host.Outcome State Fault Refusal :=
  s.effect fun h => h.benchCommand n fun h => h.benchReady t
def execCancel (n : Fin 8) (t : Fin 4096) (s : State) : Host.Outcome State Fault Refusal :=
  s.effect fun h => h.benchCommand n fun h => h.benchCancel t
def execSuspend (n : Fin 8) (t : Fin 4096) (s : State) : Host.Outcome State Fault Refusal :=
  s.effect fun h => h.benchCommand n fun h => h.benchSuspend t
def execDelay (n : Fin 8) (s : State) : Host.Outcome State Fault Refusal :=
  s.effect fun h => h.benchSelf n fun t h => h.benchDelay n t
def execWait (n : Fin 8) (s : State) : Host.Outcome State Fault Refusal :=
  s.effect fun h => h.benchSelf n fun t h => h.benchWait n t
def execSetEvent (n : Fin 8) (t : Fin 4096) (s : State) : Host.Outcome State Fault Refusal :=
  s.effect fun h => h.benchCommand n fun h => h.benchSetEvent n t
def execSetPrio (n : Fin 8) (t : Fin 4096) (s : State) : Host.Outcome State Fault Refusal :=
  s.effect fun h => h.benchCommand n fun h => h.benchSetPrio n t
def execBenchYield (n : Fin 8) (s : State) : Host.Outcome State Fault Refusal :=
  s.effect fun h => h.benchSelf n fun t h => h.benchYield n t
def execSigPop (n : Fin 8) (s : State) : Host.Outcome State Fault Refusal :=
  s.effect fun h => h.benchSelf n fun t h => h.benchSigPop n t
def execExit (n : Fin 8) (s : State) : Host.Outcome State Fault Refusal :=
  s.effect fun h => h.benchSelf n fun t h => h.benchExit n t

/-! ### The tick -/

/-- A wake tick has come (R467). -/
def Hw.wakeCome (h : Hw) (t : Nat) : Bool :=
  decide ((h.get R.BENCH_TICK_CNT_TICK_CNT + 2 ^ 32 - h.get (R.BENCH_THR_W2_WAKE t)) % 2 ^ 32 < 2 ^ 31)

/-- A delay or WAIT timeout that has come due (R466, R467). -/
def Hw.expire (h : Hw) (t : Nat) : Hw :=
  if (h.bt t).timed ∧ h.wakeCome t then
    let h := if h.btState t = btWaiting then h.setWord (R.BENCH_THR_W3 t) 0 else h
    h.makeReady t false false
  else h

/-- The ageing of one thread at a tick (R468). -/
def Hw.ageThread (h : Hw) (t : Nat) : Hw :=
  if h.btState t = btReady ∧ (h.bt t).ageEn then
    let h := h.modBt t fun x => { x with stood := x.stood + 1 }
    let e := h.effective (h.get (R.BENCH_THR_W0_PRIO t)) (h.bt t).stood true
    if e < h.btEff t then
      let h := (h.unlist t).set (R.BENCH_THR_W0_EFF t) e
      (h.setReadyList e (h.readyList e ++ [t])).bump R.BENCH_CNT1_AGED
    else h
  else h

/-- The end of a time slice on core `n` (R469): with PMASK = 1 the core keeps its thread. -/
def Hw.endSlice (h : Hw) (n : Nat) : Hw :=
  if h.curRuns n ∧ h.next n = h.cur n ∧ !h.coreIdle n then
    let t := h.cur n
    let s := (h.bt t).slice
    let h := h.modBt t fun x => { x with ran := x.ran + 1 }
    if s ≠ 0 ∧ s ≤ (h.bt t).ran then
      let other := (h.readyList (h.btEff t)).any fun u => h.eligibleCore u n
      if other ∧ !h.flag (R.BENCH_PMASK_PMASK n) then h.preemptionPoint n 2 fun h => h.makeReady t false false
      else h.modBt t fun x => { x with ran := 0 }
    else h
  else h

/-- The created threads in the order expiries are taken (R467): by effective priority, then by number. -/
def Hw.expiryOrder (h : Hw) : List Nat :=
  (List.range 64).flatMap fun l => (h.bench.threads.map (·.1)).filter fun t => h.btEff t == l

/-- The work of one tick (R467). -/
def Hw.benchTick (h : Hw) : Hw :=
  let h := h.count R.BENCH_TICK_CNT_TICK_CNT
  let h := h.expiryOrder.foldl (fun h t => h.expire t) h
  let h := (h.bench.threads.map (·.1)).foldl (fun h t => h.ageThread t) h
  let h := (List.range 8).foldl (fun h n => h.endSlice n) h
  h.dispatch

/-- TICK (R467): the period on elapsed time runs out and the next begins. -/
def execTick (s : State) : Host.Outcome State Fault Refusal :=
  s.effect fun h => h.onTimer .benchTick fun h => (h.start .benchTick (h.get R.BENCH_TICK_PERIOD * 1000)).benchTick

def execDelayExpiry (t : Fin 4096) (s : State) : Host.Outcome State Fault Refusal :=
  s.effect fun h => (h.expire t).dispatch
def execAgeing (t : Fin 4096) (s : State) : Host.Outcome State Fault Refusal :=
  s.effect fun h => (h.ageThread t).dispatch
def execSliceEnd (n : Fin 8) (s : State) : Host.Outcome State Fault Refusal :=
  s.effect fun h => (h.endSlice n).dispatch

/-- A write of BENCH_TICK (R467, R477). -/
def Hw.writeBenchTick (h : Hw) (v : Word) : Hw :=
  let was := h.flag R.BENCH_TICK_EN
  let h := h.writeFields R.BENCH_TICK v
  let h := if h.get R.BENCH_TICK_PERIOD = 0 then h.set R.BENCH_TICK_PERIOD 1 else h
  if !h.flag R.BENCH_TICK_EN then h.stop .benchTick
  else if was then h
  else h.start .benchTick (h.get R.BENCH_TICK_PERIOD * 1000)

/-- A write of BENCH_CFG (R468, R477). -/
def Hw.writeBenchCfg (h : Hw) (v : Word) : Hw :=
  let h := h.writeFields R.BENCH_CFG v
  let res := min 16 (h.get R.BENCH_CFG_RES_LEVELS)
  (h.set R.BENCH_CFG_RES_LEVELS res).set R.BENCH_CFG_CEIL (max res (h.get R.BENCH_CFG_CEIL))

/-! ### The switch handshake -/

/-- A write of ACK (R471): it names the present NEXT, which becomes CUR, or is refused. A preempted thread joins the
head of its ready list, or, with CANCEL_PEND set, becomes UNUSED. -/
def Hw.ackSwitch (h : Hw) (n : Nat) (v : Word) : Hw :=
  let idle := fieldOf v (R.BENCH_ACK_IDLE n) == 1
  let t := fieldOf v (R.BENCH_ACK_THREAD n)
  if (idle == h.coreIdle n) && (idle || t == h.next n) then
    let old := h.cur n
    let h := h.set (R.BENCH_RSP_ACK_STALE n) 0
    if h.curRuns n && !idle && old == t then h
    else
      let h := if h.curRuns n then
          (if h.flag (R.BENCH_THR_W0_CANCEL_PEND old) then
            (h.putAside old btUnused).set (R.BENCH_THR_W0_CANCEL_PEND old) 0
          else h.makeReady old true false)
        else h
      let h := (h.set (R.BENCH_CUR_IDLE n) (if idle then 1 else 0)).set (R.BENCH_CUR_THREAD n) (if idle then 0 else t)
      (if idle then h else h.runThread t).dispatch
  else h.set (R.BENCH_RSP_ACK_STALE n) 1

def execAck (n : Fin 8) (v : Word) (s : State) : Host.Outcome State Fault Refusal :=
  s.effect fun h => h.ackSwitch n v

/-- A write of PMASK (R470): at 0 the core is considered again. -/
def Hw.writePmask (h : Hw) (n : Nat) (v : Word) : Hw := (h.set (R.BENCH_PMASK_PMASK n) (fieldOf v (R.BENCH_PMASK_PMASK n))).dispatch

def execPmaskWrite (n : Fin 8) (v : Word) (s : State) : Host.Outcome State Fault Refusal :=
  s.effect fun h => h.writePmask n v

/-! ### Queue ports (R474) -/

/-- A queue operation of core `n`: discarded with CFG_ERR while BUSY. -/
def Hw.queuePort (h : Hw) (n : Nat) (f : Nat → Hw → Hw × Nat) : Hw :=
  if h.flag (R.BENCH_QRSP_BUSY n) then h.set R.BENCH_STAT_CFG_ERR 1
  else
    let (h, st) := f (h.get (R.BENCH_QID_QID n)) h
    h.set (R.BENCH_QRSP_STATUS n) st

def Hw.portPush (h : Hw) (n q : Nat) : Hw × Nat :=
  if isMailbox q || isWorkQueue q then
    if (h.wordsOf q).length < queueDepth q then
      (h.pushWord q (BitVec.ofNat 64 (h.pair (R.BENCH_QDATA_LO n) (R.BENCH_QDATA_HI n))), 0)
    else (h, 1)
  else (h, 3)

def Hw.portData (h : Hw) (n : Nat) (w : Dword) : Hw :=
  (h.setWord (R.BENCH_QDATA_LO n) (w.setWidth 32)).setWord (R.BENCH_QDATA_HI n) ((w >>> 32).setWidth 32)

def Hw.portPull (h : Hw) (n q : Nat) : Hw × Nat :=
  if isWorkQueue q then
    match h.pullWord q with
    | (h, some w) => (h.portData n w, 0)
    | (h, none) => (h, 2)
  else (h, 3)

def Hw.portPeek (h : Hw) (n q : Nat) : Hw × Nat :=
  if isWorkQueue q then
    match h.wordsOf q with
    | w :: _ => (h.portData n w, 0)
    | [] => (h, 2)
  else (h, 3)

def execPush (n : Fin 8) (s : State) : Host.Outcome State Fault Refusal :=
  s.effect fun h => h.queuePort n fun q h => h.portPush n q
def execPull (n : Fin 8) (s : State) : Host.Outcome State Fault Refusal :=
  s.effect fun h => h.queuePort n fun q h => h.portPull n q
def execPeek (n : Fin 8) (s : State) : Host.Outcome State Fault Refusal :=
  s.effect fun h => h.queuePort n fun q h => h.portPeek n q

/-- A write of QCMD (R474): any other operation has status QID. -/
def Hw.writeQcmd (h : Hw) (n : Nat) (v : Word) : Hw :=
  match fieldOf v (R.BENCH_QCMD_OP n) with
  | 1 => h.queuePort n fun q h => h.portPush n q
  | 2 => h.queuePort n fun q h => h.portPull n q
  | 3 => h.queuePort n fun q h => h.portPeek n q
  | _ => h.queuePort n fun _ h => (h, 3)

/-! ### Interrupt posts -/

/-- A high interrupt source (R475): with EN set and PEND clear, its event bit is set on its thread, and PEND. -/
def Hw.postInterrupt (h : Hw) (i : Nat) : Hw :=
  if h.flag (R.BENCH_IRQ_EN i) ∧ !h.flag (R.BENCH_IRQ_PEND i) then
    (h.set (R.BENCH_IRQ_PEND i) 1).postEvent (h.get (R.BENCH_IRQ_THREAD i)) (h.get (R.BENCH_IRQ_EVBIT i))
  else h

/-! ### RUN and the cores' locks -/

/-- A write of SYS_CORE_n_CTL by master `m` (R460). -/
def Hw.writeRun (h : Hw) (m n : Nat) (v : Word) : Hw :=
  let run := fieldOf v (R.SYS_CORE_CTL_RUN n) = 1
  let was := h.flag (R.SYS_CORE_CTL_RUN n)
  if run ∧ !was then
    let h := (h.set (R.SYS_CORE_CTL_RUN n) 1).set (R.SYS_CORE_STAT_STATE n) 1
    let entry := h.pair (R.SYS_CORE_ENTRY_LO n) (R.SYS_CORE_ENTRY_HI n) / 4 * 4
    { h with bench := { h.bench with started := kput h.bench.started n entry } }.dispatch
  else if ¬ run ∧ was then
    if (m < 8 ∧ m ≠ n) ∨ (m = 25 ∧ h.get R.ILT_DBG_STAT_LEVEL = 2) then
      let h := ((h.set (R.SYS_CORE_CTL_RUN n) 0).set (R.SYS_CORE_STAT_STATE n) 0).breakLocksOfCore n
      let h := if h.curRuns n then
          let t := h.cur n
          h.preemptionPoint n 4 fun h => h.makeReady t true false
        else h
      (h.setNextIdle n 4).dispatch
    else h
  else h

def execRunWrite (m : Fin 27) (n : Fin 8) (v : Word) (s : State) : Host.Outcome State Fault Refusal :=
  s.effect fun h => h.writeRun m n v

/-- A read of SHK_LOCK_i_ACQ by master `m` (R491, R508): the status. -/
def Hw.lockAcqRead (h : Hw) (m i : Nat) : Hw × Nat :=
  if 8 ≤ m then (h, 3)
  else if h.lockHeld i then
    (if h.get (R.SHK_LOCK_STAT_OWNER i) = m then h.set R.SHK_STAT_LOCK_ERR 1 else h, 3)
  else (h.giveLock i m 0, if h.lockBroken i then 1 else 0)

/-- A write of SHK_LOCK_i_REL by master `m` (R492). -/
def Hw.lockRelWrite (h : Hw) (m i : Nat) : Hw :=
  if 8 ≤ m then h.set R.SHK_STAT_CFG_ERR 1
  else if h.lockOwnedByMaster i m then h.releaseLock i
  else h.set R.SHK_STAT_LOCK_ERR 1

/-- A write of SHK_LOCK_i_BRK by master `m` (R493). -/
def Hw.lockBrkWrite (h : Hw) (m i : Nat) : Hw :=
  if 8 ≤ m then h.set R.SHK_STAT_CFG_ERR 1 else h.breakLock i

/-- The answer of a bus read for master `m`, kept where the master finds it. -/
def Hw.busAnswer (h : Hw) (r : BusReply) : Hw := { h with shank := { h.shank with replies := kput h.shank.replies r.master r } }

def execLockAcqRead (m : Fin 27) (i : Fin 1024) (s : State) : Host.Outcome State Fault Refusal :=
  s.effect fun h =>
    let (h, st) := h.lockAcqRead m i
    h.busAnswer ⟨m, R.SHK_LOCK_ACQ i, 0, bytesLE 4 st⟩
def execLockRelWrite (m : Fin 27) (i : Fin 1024) (s : State) : Host.Outcome State Fault Refusal :=
  s.effect fun h => h.lockRelWrite m i
def execBrk (m : Fin 27) (i : Fin 1024) (s : State) : Host.Outcome State Fault Refusal :=
  s.effect fun h => h.lockBrkWrite m i

end Sys2Proof.Machine
end

