-- ==== Sys2Proof/Machine/Flags.lean ====
section
/-!
DEFINITION. The arithmetic of the Awl instructions as pure functions of 64-bit values: results and flags of R253 to
R259, R276, R277, R286 to R288. An `AwlResult` is the value written and the four flags set when F asks for them.
-/
namespace Sys2Proof.Machine

/-- The result of an instruction and its flags Z, N, C, V. -/
structure AwlResult where
  r : Dword
  z : Bool
  n : Bool
  c : Bool
  v : Bool
deriving DecidableEq, Repr

/-- Z and N from r, with C and V as given. -/
def AwlResult.of (r : Dword) (c v : Bool) : AwlResult := ⟨r, r == 0, r.msb, c, v⟩

/-- ADD (R253). -/
def awlAdd (a b : Dword) : AwlResult :=
  let r := a + b
  .of r (decide (2 ^ 64 ≤ a.toNat + b.toNat)) (a.msb == b.msb && r.msb != a.msb)

/-- SUB and CMP (R253): C = 1 means no borrow. -/
def awlSub (a b : Dword) : AwlResult :=
  let r := a - b
  .of r (decide (b.toNat ≤ a.toNat)) (a.msb != b.msb && r.msb != a.msb)

/-- The signed range of a 64-bit value. -/
def inSigned64 (x : Int) : Bool := decide (-(2 ^ 63) ≤ x) && decide (x ≤ 2 ^ 63 - 1)

/-- An exact sum or difference clamped to the range of its reading (R254). -/
def awlClamp (unsigned : Bool) (x : Int) : AwlResult :=
  let y := if unsigned then clampInt 0 (2 ^ 64 - 1) x else clampInt (-(2 ^ 63)) (2 ^ 63 - 1) x
  .of (BitVec.ofInt 64 y) false (y != x)

/-- ADDS (R254). -/
def awlAdds (unsigned : Bool) (a b : Dword) : AwlResult :=
  awlClamp unsigned (if unsigned then (a.toNat : Int) + b.toNat else a.toInt + b.toInt)

/-- SUBS (R254). -/
def awlSubs (unsigned : Bool) (a b : Dword) : AwlResult :=
  awlClamp unsigned (if unsigned then (a.toNat : Int) - b.toNat else a.toInt - b.toInt)

/-- MUL (R255). -/
def awlMul (a b : Dword) : AwlResult :=
  .of (a * b) (decide (2 ^ 64 ≤ a.toNat * b.toNat)) (!inSigned64 (a.toInt * b.toInt))

/-- MULH and MULH.u (R255). -/
def awlMulh (unsigned : Bool) (a b : Dword) : AwlResult :=
  .of (BitVec.ofInt 64 ((if unsigned then (a.toNat : Int) * b.toNat else a.toInt * b.toInt) / 2 ^ 64)) false false

/-- The logic instructions (R256): C and V cleared. -/
def awlLogic (r : Dword) : AwlResult := .of r false false

/-- The shifts of R257. -/
inductive ShiftKind where
  | shl
  | shr
  | shra
deriving DecidableEq, Repr

/-- SHL, SHR and SHRA by any amount (R257). -/
def awlShift (k : ShiftKind) (a : Dword) (n : Nat) : AwlResult :=
  match k with
  | .shl =>
    .of (if n < 64 then a <<< n else 0) (if n = 0 then false else if n ≤ 64 then a.getLsbD (64 - n) else false) false
  | .shr =>
    .of (if n < 64 then a >>> n else 0) (if n = 0 then false else if n ≤ 64 then a.getLsbD (n - 1) else false) false
  | .shra =>
    .of (if n < 64 then a.sshiftRight n else if a.msb then BitVec.allOnes 64 else 0)
      (if n = 0 then false else if n ≤ 64 then a.getLsbD (n - 1) else a.msb) false

/-- The leading zero bits of `a` below bit `i`. -/
def leadingZeros (a : Dword) (i : Nat) : Nat :=
  match i with
  | 0 => 0
  | i + 1 => if a.getLsbD i then 0 else 1 + leadingZeros a i

/-- The one bits of `a` below bit `i`. -/
def oneBits (a : Dword) (i : Nat) : Nat :=
  match i with
  | 0 => 0
  | i + 1 => (if a.getLsbD i then 1 else 0) + oneBits a i

/-- CLZ (R258). -/
def awlClz (a : Dword) : AwlResult := .of (BitVec.ofNat 64 (leadingZeros a 64)) (a == 0) false

/-- POPC (R258). -/
def awlPopc (a : Dword) : AwlResult := .of (BitVec.ofNat 64 (oneBits a 64)) false false

/-- BFX (R259). -/
def awlBfx (a : Dword) (pos len : Nat) (sx : Bool) : Dword :=
  let f := a.toNat / 2 ^ pos % 2 ^ len
  if sx && decide (2 ^ (len - 1) ≤ f) then BitVec.ofInt 64 ((f : Int) - 2 ^ len) else BitVec.ofNat 64 f

/-- BFI (R259): `d` is the old value of the destination. -/
def awlBfi (d a : Dword) (pos len : Nat) : Dword :=
  let m := BitVec.ofNat 64 ((2 ^ len - 1) * 2 ^ pos)
  (d &&& ~~~m) ||| ((a <<< pos) &&& m)

/-- The condition codes of R252; none: COND 0xF. -/
def awlCond (cond : Nat) (z n c v : Bool) : Option Bool :=
  match cond with
  | 0 => some z
  | 1 => some (!z)
  | 2 => some c
  | 3 => some (!c)
  | 4 => some n
  | 5 => some (!n)
  | 6 => some v
  | 7 => some (!v)
  | 8 => some (c && !z)
  | 9 => some (!c || z)
  | 10 => some (n == v)
  | 11 => some (n != v)
  | 12 => some (!z && n == v)
  | 13 => some (z || n != v)
  | 14 => some true
  | _ => none

/-- One bit of the CRC (R276). -/
def crcBit (p crc : Word) : Word := if crc.getLsbD 0 then (crc >>> 1) ^^^ p else crc >>> 1

/-- Eight bits of the CRC over one byte (R276). -/
def crcByte (p crc : Word) (b : Nat) : Word :=
  let c := crc ^^^ BitVec.ofNat 32 b
  crcBit p (crcBit p (crcBit p (crcBit p (crcBit p (crcBit p (crcBit p (crcBit p c)))))))

/-- CRC over the `n` low bytes of `a`, most significant first (R276). -/
def awlCrc (p crc : Word) (a : Dword) (n : Nat) : Word :=
  match n with
  | 0 => crc
  | i + 1 => awlCrc p (crcByte p crc (a.toNat / 2 ^ (8 * i) % 256)) a i

/-- The two polynomials of R276. -/
def crcPoly (c : Bool) : Word := if c then 0x82F63B78 else 0xEDB88320

/-- HASH (R277). -/
def awlHash (a b : Dword) : Dword :=
  let t := (a ^^^ b) * 0x9E3779B97F4A7C15
  t ^^^ (t >>> 32)

/-- One second in the subsecond unit 2^-16 ns (R271). -/
def subSecond : Nat := 1000000000 * 2 ^ 16

/-- TADD (R286): the sum's seconds and subsecond, and V. -/
def awlTadd (sec sub : Nat) (b : Int) : Nat × Nat × Bool :=
  let total := (sub : Int) + b
  let carry := total / (subSecond : Int)
  let s := (sec : Int) + carry
  ((s % 2 ^ 48).toNat, (total % (subSecond : Int)).toNat, decide (s < 0) || decide (2 ^ 48 ≤ s))

/-- The order of two times under the modulo rule (R287): less, equal or greater for earlier, equal or later. -/
def timeOrder (secA subA secB subB : Nat) : Ordering :=
  let d := (secA + 2 ^ 48 - secB % 2 ^ 48) % 2 ^ 48
  if d = 0 then compare subA subB else if d < 2 ^ 47 then .gt else .lt

/-- CFADD (R288). -/
def awlCfadd (a b : Dword) : AwlResult :=
  let s := a.toInt + b.toInt
  let sat := a.toInt == 2 ^ 63 - 1 || !inSigned64 s
  .of (if sat then BitVec.ofNat 64 (2 ^ 63 - 1) else BitVec.ofInt 64 s) false sat

end Sys2Proof.Machine
end

