-- ==== Sys2Proof/Machine/Clicker.lean ====
section
/-!
DEFINITION. Clicker: the classification point, filters, pools and frame buffers, and the completion of frames (R301 to
R316, R321, R324, R335, R336).
-/
namespace Sys2Proof.Machine

/-! ### Staging stores -/

def Hw.staged (h : Hw) (s : Nat) : List Staged := kgetD [] h.fabric.staged s
def Hw.setStaged (h : Hw) (s : Nat) (l : List Staged) : Hw := { h with fabric := { h.fabric with staged := kput h.fabric.staged s l } }

/-- A frame begins to accumulate in the staging store of source `s` (R304). -/
def Hw.stage (h : Hw) (s : Nat) (bytes : List Byte) (good : Bool) (stamp : Stamp) (weltWord : Nat) : Hw :=
  h.setStaged s (h.staged s ++ [⟨bytes, good, stamp, weltWord, none, none, 0⟩])

/-- The head of a staging store is gone. -/
def Hw.unstage (h : Hw) (s : Nat) : Hw := h.setStaged s (h.staged s).tail

def Hw.setHeadStaged (h : Hw) (s : Nat) (g : Staged) : Hw := h.setStaged s (g :: (h.staged s).tail)

/-! ### Parsing (R312) -/

/-- Byte `i` of a frame; bytes beyond its end read 0. -/
def byteAt (bs : List Byte) (i : Nat) : Nat := ((bs[i]?).getD 0).toNat

def field16 (bs : List Byte) (i : Nat) : Nat := byteAt bs i * 256 + byteAt bs (i + 1)

/-- The destination address: bits [47:40] are the first byte on the wire (R204, R311). -/
def destAddr (bs : List Byte) : Nat := (field16 bs 0 * 65536 + field16 bs 2) * 65536 + field16 bs 4

def srcAddr (bs : List Byte) : Nat := (field16 bs 6 * 65536 + field16 bs 8) * 65536 + field16 bs 10

/-- The group bit of a destination address. -/
def isGroup (bs : List Byte) : Bool := byteAt bs 0 % 2 == 1

/-- The destination class (R312): 0 unicast, 1 multicast, 2 broadcast. -/
def destClass (bs : List Byte) : Nat := if destAddr bs = 2 ^ 48 - 1 then 2 else if isGroup bs then 1 else 0

def isTagged (bs : List Byte) : Bool := field16 bs 12 == 0x8100 || field16 bs 12 == 0x88A8
def vidOf (bs : List Byte) : Nat := if isTagged bs then field16 bs 14 % 4096 else 0
def pcpOf (bs : List Byte) : Nat := if isTagged bs then field16 bs 14 / 8192 else 0
def etherType (bs : List Byte) : Nat := if isTagged bs then field16 bs 16 else field16 bs 12

/-! ### Filters -/

/-- Perfect-match entry `n` matches a frame of source `s` (R311). -/
def Hw.pmMatches (h : Hw) (s : Nat) (bs : List Byte) (n : Nat) : Bool :=
  h.flag (R.CKR_PM_W2_EN n) && (h.get (R.CKR_PM_W2_PORTS n)).testBit s &&
  destAddr bs == h.get (R.CKR_PM_W0_DA_LO n) + 2 ^ 32 * h.get (R.CKR_PM_W1_DA_HI n) &&
  (!h.flag (R.CKR_PM_W2_ET_EN n) || etherType bs == h.get (R.CKR_PM_W1_ETYPE n))

/-- A masked comparison (R313). -/
def masked (v value mask : Nat) : Bool := Nat.land v mask == Nat.land value mask

/-- Filter entry `i` matches a frame of source `s` (R313). -/
def Hw.filterMatches (h : Hw) (s : Nat) (bs : List Byte) (i : Nat) : Bool :=
  h.flag (R.CKR_FLT_W2_EN i) && (h.get (R.CKR_FLT_W2_PORTS i)).testBit s &&
  (h.get (R.CKR_FLT_W2_DAC i)).testBit (destClass bs) &&
  (match h.get (R.CKR_FLT_W1_TAGM i) with
    | 1 => !isTagged bs
    | 2 => isTagged bs
    | _ => true) &&
  masked (etherType bs) (h.get (R.CKR_FLT_W0_ETYPE i)) (h.get (R.CKR_FLT_W0_ETYPE_M i)) &&
  masked (vidOf bs) (h.get (R.CKR_FLT_W1_VID i)) (h.get (R.CKR_FLT_W1_VID_M i)) &&
  masked (pcpOf bs) (h.get (R.CKR_FLT_W1_PCP i)) (h.get (R.CKR_FLT_W1_PCP_M i))

/-- Whether the filter takes entry `i` for a frame: the match of an entry that firmware is changing out of the order of
R316 is undefined, a free value. -/
def Hw.filterTakes (h : Hw) (s : Nat) (bs : List Byte) (i : Nat) : Bool :=
  if h.fabric.loose.contains i then (Config.freeWord (h.free + i)).getLsbD 0 else h.filterMatches s bs i

/-- What classification decides: pool, destination (none: drop), user word. -/
structure Verdict where
  pool : Nat
  dest : Option Dest
  user : Nat
deriving DecidableEq, Repr

/-- The action kinds of R314. -/
def actionOf (kind dest user : Nat) : Option Dest :=
  match kind with
  | 0 => some (.domain dest)
  | 1 => some (.queue dest (user % 65536))
  | 2 => some (.ring dest)
  | _ => none

/-- Classification under the mode in force (R310 to R314). -/
def Hw.classify (h : Hw) (s : Nat) (bs : List Byte) : Verdict :=
  if h.flag R.CKR_CTL_MODE then
    match (List.range 256).find? fun i => h.filterTakes s bs i with
    | some i =>
      let u := h.get (R.CKR_FLT_W4_USER i)
      ⟨h.get (R.CKR_FLT_W2_POOL i), actionOf (h.get (R.CKR_FLT_W2_KIND i)) (h.get (R.CKR_FLT_W3_DEST i)) u, u⟩
    | none =>
      let u := h.get (R.CKR_DEF_W1_USER s)
      ⟨h.get (R.CKR_DEF_W0_POOL s), actionOf (h.get (R.CKR_DEF_W0_KIND s)) (h.get (R.CKR_DEF_W0_DEST s)) u, u⟩
  else if (List.range 32).any fun n => h.pmMatches s bs n then
    ⟨h.get R.CKR_CTL_PM_POOL, some (.ring (h.get R.CKR_CTL_PM_RING)), 0⟩
  else ⟨0, none, 0⟩

/-! ### Destinations (R315, R321) -/

def Hw.domainWait (h : Hw) (d : Nat) : Nat := h.get (R.LAC_DOM_W1_WAIT d)

/-- A domain has room (R321, without regard to EN). -/
def Hw.domainRoom (h : Hw) (d : Nat) : Bool :=
  decide (h.domainWait d < h.get (R.LAC_DOM_W1_LIMIT d)) && decide (h.get R.LAC_STAT_WAITING < 4096)

def Hw.waitMore (h : Hw) (d : Nat) : Hw :=
  (h.set (R.LAC_DOM_W1_WAIT d) (h.domainWait d + 1)).set R.LAC_STAT_WAITING (h.get R.LAC_STAT_WAITING + 1)
def Hw.waitLess (h : Hw) (d : Nat) : Hw :=
  (h.set (R.LAC_DOM_W1_WAIT d) (h.domainWait d - 1)).set R.LAC_STAT_WAITING (h.get R.LAC_STAT_WAITING - 1)

def Hw.ringState (h : Hw) (r : Nat) : Nat := h.get (R.CKR_RING_FSTAT_STATE r)
def Hw.ringMode (h : Hw) (r : Nat) : Nat := h.get (R.CKR_RING_CFG_MODE r)
def Hw.ringSize (h : Hw) (r : Nat) : Nat := 2 ^ (h.get (R.CKR_RING_CFG_SIZE_EXP r) + 4)
def Hw.ringProd (h : Hw) (r : Nat) : Nat := h.get (R.CKR_RING_PROD_PROD r)
def Hw.ringCons (h : Hw) (r : Nat) : Nat := h.get (R.CKR_RING_CONS_CONS r)
/-- The entries a ring holds (R328). -/
def Hw.ringCount (h : Hw) (r : Nat) : Nat := (h.ringProd r + 2 ^ 32 - h.ringCons r) % 2 ^ 32
def Hw.ringReservedOf (h : Hw) (r : Nat) : Nat := kgetD 0 h.fabric.ringReserved r
def Hw.setRingReserved (h : Hw) (r n : Nat) : Hw := { h with fabric := { h.fabric with ringReserved := kput h.fabric.ringReserved r n } }

/-- The destination accepts a frame at step 2 of R304 (R315, R321). -/
def Hw.destAccepts (h : Hw) (d : Dest) : Bool :=
  match d with
  | .domain d => decide (d < 4096) && h.flag (R.LAC_DOM_W0_EN d) && h.domainRoom d
  | .queue q _ => decide (q < 16384) && h.queueState q == stOpen
  | .ring r =>
    decide (r < 64) && h.ringState r == stOpen && h.ringMode r == 1 &&
    decide (h.ringCount r + h.ringReservedOf r < h.ringSize r)

/-- What a destination gives up at acceptance, and gets back from a frame that is discarded (R304, R315, R321). -/
def Hw.destTake (h : Hw) (d : Dest) : Hw :=
  match d with
  | .domain d => h.waitMore d
  | .queue _ _ => h
  | .ring r => h.setRingReserved r (h.ringReservedOf r + 1)
def Hw.destReturn (h : Hw) (d : Dest) : Hw :=
  match d with
  | .domain d => h.waitLess d
  | .queue _ _ => h
  | .ring r => h.setRingReserved r (h.ringReservedOf r - 1)

/-! ### Pools (R306 to R309) -/

/-- The buffers a frame reserves (R306). -/
def Hw.reservation (h : Hw) (p : Nat) : Nat :=
  if h.flag (R.CKR_POOL_CFG_RESV p) then (h.get (R.CKR_POOL_CFG_MTU p) + 255) / 256 else 0

/-- The pool grants a frame (R306 to R308). -/
def Hw.poolGrants (h : Hw) (p : Nat) : Bool :=
  h.flag (R.CKR_POOL_CFG_EN p) && decide (max 1 (h.reservation p) ≤ h.poolFree p)

/-- A new descriptor for a frame of source `s` in pool `p` (R324). -/
def Hw.newFrame (h : Hw) (f : Frame) : Hw × Nat :=
  let id := h.fabric.nextFrame
  ((h.setFrame id f) |> fun h => { h with fabric := { h.fabric with nextFrame := id + 1 } }, id)

/-- Steps 3 and 4 of R304 for a staged frame: descriptor and grant. The result is none where a step fails. -/
def Hw.takeIn (h : Hw) (s : Nat) (g : Staged) (pool user : Nat) (d : Option Dest) : Hw × Option Staged :=
  if descriptors ≤ h.fabric.frames.length then (h.countSource s 3, none)
  else if !h.poolGrants pool then (h.countPool pool 1, none)
  else
    let r := h.reservation pool
    let h := h.setFree pool (h.poolFree pool - r)
    let h := match d with
      | some d => h.destTake d
      | none => h
    let u := if 12 ≤ s ∧ s ≤ 14 then g.weltWord else user
    let (h, id) := h.newFrame
      { Frame.empty with src := s, len := g.bytes.length, tagged := isTagged g.bytes, pool := pool, user := u, stamp := g.stamp }
    (h, some { g with frame := some id, dest := d, reserved := r })

/-- CLASSIFICATION_POINT (R304): the four steps at the head of the staging store of source `s`. -/
def Hw.classificationPoint (h : Hw) (s : Nat) : Hw :=
  match h.staged s with
  | [] => h
  | g :: _ =>
    if g.frame.isSome then h
    else
      let h := (h.countSource s 0)
      let v := h.classify s g.bytes
      let h := h.drawn
      match v.dest with
      | none => (h.countSource s 1).unstage s
      | some d =>
        if !h.destAccepts d then (h.countSource s 2).unstage s
        else
          match h.takeIn s g v.pool v.user (some d) with
          | (h, some g) => h.setHeadStaged s g
          | (h, none) => h.unstage s

def execClassificationPoint (s : Fin 16) (st : State) : Host.Outcome State Fault Refusal :=
  st.effect fun h => h.classificationPoint s

/-- A frame that proved bad, was truncated or met a bus error returns everything it took (R304, R306, R307). -/
def Hw.discardStaged (h : Hw) (g : Staged) : Hw :=
  let h := match g.frame with
    | some id =>
      let p := (h.frame id).pool
      (h.setFree p (h.poolFree p + g.reserved)).freeFrame id
    | none => h
  match g.dest with
  | some d => h.destReturn d
  | none => h

/-- The index, relative to FIRST, of a pool's buffer at address `a`. -/
def Hw.bufferIndex (h : Hw) (p a : Nat) : Nat := (a - h.bufferAddr p (h.get (R.CKR_POOL_FIRST_FIRST p))) / 0x100

/-- The address of the link word of the buffer with relative index `i` of a DRAM pool (R303). -/
def Hw.linkAddr (h : Hw) (p i : Nat) : Nat :=
  (h.get (R.CKR_POOL_LINK_LO_LINK_LO p) + 2 ^ 32 * h.get (R.CKR_POOL_LINK_HI_LINK_HI p)) / 4 * 4 + 4 * i

/-- The link word of a buffer of a DRAM pool is written (R303); an SRAM pool has none. -/
def Hw.writeLink (h : Hw) (p a next : Nat) : Hw × Bool :=
  if h.flag (R.CKR_POOL_CFG_LOC p) then h.busWrite 19 (h.linkAddr p (h.bufferIndex p a)) (bytesLE 4 next)
  else (h, true)

/-- The frame bytes of buffer `j` of a chain and their offset in the buffer (R302). -/
def bufferPart (bs : List Byte) (j : Nat) : Nat × List Byte :=
  if j = 0 then (64, bs.take 192) else (0, (bs.drop (256 * j - 64)).take 256)

/-- What came of a frame's request for its next buffer. -/
inductive BufferOutcome where
  | taken (g : Staged)
  | discarded
deriving DecidableEq, Repr

/-- A staged frame takes its next buffer and its bytes are stored there (R302, R303, R305 to R307); headroom that no
program has written holds free values (R273, R294). The frame is truncated at the byte that comes first: the one that
would carry it past MTU, or the first that finds no buffer. -/
def Hw.takeBuffer (h : Hw) (g : Staged) (id : Nat) : Hw × BufferOutcome :=
  let f := h.frame id
  let p := f.pool
  let j := f.bufs.length
  let mtu := h.get (R.CKR_POOL_CFG_MTU p)
  if mtu ≤ 256 * j then ((h.discardStaged g).countPool p 3, .discarded)
  else if g.reserved = 0 ∧ h.poolFree p = 0 then ((h.discardStaged g).countPool p 2, .discarded)
  else
    let h := if g.reserved = 0 then h.setFree p (h.poolFree p - 1) else h
    let g := { g with reserved := g.reserved - 1 }
    let (h, a) := h.holdBuffer p
    let h := h.modFrame id fun f => { f with bufs := f.bufs ++ [a] }
    if mtu < min (g.bytes.length + 64) (256 * (j + 1)) then ((h.discardStaged g).countPool p 3, .discarded) else
    let (o, bs) := bufferPart g.bytes j
    let h := if j = 0 then h.setFreeBytes a 64 else h
    let (h, ok1) := h.busWrite 19 (a + o) bs
    let (h, ok2) := match f.bufs.getLast? with
      | some b => h.writeLink p b (h.bufferIndex p a)
      | none => (h, true)
    if ok1 && ok2 then (h, .taken g) else ((h.discardStaged g).set R.CKR_STAT_BUS_EV 1, .discarded)

/-- FRAME_BUFFER_REQUEST (R305 to R307): the bytes of the head frame of source `s` reach a new buffer. -/
def Hw.frameBufferRequest (h : Hw) (s : Nat) : Hw :=
  match h.staged s with
  | [] => h
  | g :: _ =>
    match g.frame with
    | none => h
    | some id =>
      if buffersFor g.bytes.length ≤ (h.frame id).bufs.length then h
      else
        match h.takeBuffer g id with
        | (h, .taken g) => h.setHeadStaged s g
        | (h, .discarded) => h.unstage s

def execFrameBufferRequest (s : Fin 16) (st : State) : Host.Outcome State Fault Refusal :=
  st.effect fun h => h.frameBufferRequest s

/-- A complete frame goes where it was classified to (R304, R314, R317, R330). -/
def Hw.deliver (h : Hw) (id : Nat) (d : Dest) : Hw :=
  let n := h.fabric.nextSeq
  match d with
  | .domain d =>
    let h := h.modFrame id fun f => { f with domain := some d }
    { h with fabric := { h.fabric with
        nextSeq := n + 1, waiting := h.fabric.waiting ++ [id],
        domains := kput h.fabric.domains d (kgetD [] h.fabric.domains d ++ [id]) } }
  | .queue q word => (h.modFrame id fun f => { f with word := word }).offer q id
  | .ring r =>
    { h with fabric := { h.fabric with ringPending := kput h.fabric.ringPending r (kgetD [] h.fabric.ringPending r ++ [(id, 0)]) } }

/-- FRAME_COMPLETE (R304, R306): the last byte of the head frame of source `s` is written; a frame that proved bad is
discarded. -/
def Hw.frameComplete (h : Hw) (s : Nat) : Hw :=
  match h.staged s with
  | [] => h
  | g :: _ =>
    match g.frame with
    | none => h
    | some id =>
      let f := h.frame id
      if f.bufs.length < buffersFor g.bytes.length then h
      else
        let h := h.unstage s
        if !g.good then h.discardStaged g
        else
          let (h, ok) := match f.bufs.getLast? with
            | some b => h.writeLink f.pool b 0xFFFFFFFF
            | none => (h, true)
          if !ok then (h.discardStaged g).set R.CKR_STAT_BUS_EV 1
          else
            let h := (h.setFree f.pool (h.poolFree f.pool + g.reserved)).countPool f.pool 0
            match g.dest with
            | some d => h.deliver id d
            | none => h

def execFrameComplete (s : Fin 16) (st : State) : Host.Outcome State Fault Refusal :=
  st.effect fun h => h.frameComplete s

/-! ### Pool commands -/

/-- Two pools' buffers overlap (R305, R308). -/
def Hw.poolsShare (h : Hw) (p q : Nat) : Bool :=
  h.flag (R.CKR_POOL_CFG_LOC p) == h.flag (R.CKR_POOL_CFG_LOC q) &&
  decide (h.get (R.CKR_POOL_FIRST_FIRST p) < h.get (R.CKR_POOL_FIRST_FIRST q) + h.get (R.CKR_POOL_COUNT_COUNT q)) &&
  decide (h.get (R.CKR_POOL_FIRST_FIRST q) < h.get (R.CKR_POOL_FIRST_FIRST p) + h.get (R.CKR_POOL_COUNT_COUNT p))

/-- The checks of EN = 1 (R308). -/
def Hw.poolMayOpen (h : Hw) (p : Nat) : Bool :=
  let n := h.get (R.CKR_POOL_COUNT_COUNT p)
  let top := if h.flag (R.CKR_POOL_CFG_LOC p) then 4194304 else 65536
  decide (1 ≤ n) && decide (h.get (R.CKR_POOL_FIRST_FIRST p) + n ≤ top) &&
  !(List.range 16).any fun q => q != p && h.flag (R.CKR_POOL_CFG_EN q) && h.poolsShare p q

/-- POOL_ENABLE (R308). -/
def Hw.poolEnable (h : Hw) (p : Nat) : Hw :=
  if h.flag (R.CKR_POOL_CFG_EN p) then h
  else if h.poolMayOpen p then h.set (R.CKR_POOL_CFG_EN p) 1
  else h.set R.CKR_STAT_CFG_ERR 1

def execPoolEnable (p : Fin 16) (s : State) : Host.Outcome State Fault Refusal := s.effect fun h => h.poolEnable p

/-- A pool may be configured (R308). -/
def Hw.poolConfigurable (h : Hw) (p : Nat) : Bool :=
  !h.flag (R.CKR_POOL_CFG_EN p) && h.poolFree p == h.get (R.CKR_POOL_COUNT_COUNT p)

/-- A write of CKR_POOL_p_CFG (R308, R309): EN may be written at any time; a write that would change another field is
discarded while the pool may not be configured. -/
def Hw.writePoolCfg (h : Hw) (p : Nat) (v : Word) : Hw :=
  let old := h.word (R.CKR_POOL_CFG p)
  let mtu := clampNat 65 16384 (fieldOf v (R.CKR_POOL_CFG_MTU p))
  let new := setBitsOf (v &&& 0x7FFF7) 4 15 mtu
  let same := decide (new ||| 1 = (old &&& 0x7FFFF) ||| 1)
  if !same && !h.poolConfigurable p then h.set R.CKR_STAT_CFG_ERR 1
  else
    let h := h.setWord (R.CKR_POOL_CFG p) ((new &&& ~~~(1 : Word)) ||| (old &&& 1))
    if v.getLsbD 0 then h.poolEnable p else h.set (R.CKR_POOL_CFG_EN p) 0

/-- A write of FIRST, COUNT or LINK (R308): COUNT changes FREE with it. -/
def Hw.writePoolRange (h : Hw) (p a : Nat) (v : Word) : Hw :=
  if h.poolConfigurable p then
    let h := h.writeFields a v
    if a = R.CKR_POOL_COUNT p then h.setFree p (h.get (R.CKR_POOL_COUNT_COUNT p)) else h
  else h.set R.CKR_STAT_CFG_ERR 1

/-- LOW_CLR (R309). -/
def Hw.lowClr (h : Hw) (p : Nat) : Hw := h.set (R.CKR_POOL_LOW_LOW p) (h.poolFree p)

def execLowClr (p : Fin 16) (s : State) : Host.Outcome State Fault Refusal := s.effect fun h => h.lowClr p

/-- MODE_WRITE (R310, R335, R574): a write of CKR_CTL, in force from the next classification point. -/
def execModeWrite (v : Word) (s : State) : Host.Outcome State Fault Refusal := s.effect fun h => h.writeFields R.CKR_CTL v

/-- A write of a word of filter entry `i` (R316): the order of a change is W2 with EN = 0, the other words, W2 with
EN = 1; a change in any other order leaves the entry loose until W2 is written with EN = 0. -/
def Hw.writeFilter (h : Hw) (i a : Nat) (v : Word) : Hw :=
  let was := h.flag (R.CKR_FLT_W2_EN i)
  let h' := h.writeFields a v
  if a = R.CKR_FLT_W2 i then
    if h'.flag (R.CKR_FLT_W2_EN i) = false then
      { h' with fabric := { h'.fabric with loose := h'.fabric.loose.filter (· != i) } }
    else if was ∧ h'.word a ≠ h.word a then { h' with fabric := { h'.fabric with loose := i :: h'.fabric.loose } }
    else h'
  else if was ∧ h'.word a ≠ h.word a then { h' with fabric := { h'.fabric with loose := i :: h'.fabric.loose } }
  else h'

/-- A write of word 1 of domain `d` (R319): a LIMIT of 0 stores 1. -/
def Hw.writeDomainLimit (h : Hw) (d : Nat) (v : Word) : Hw :=
  h.set (R.LAC_DOM_W1_LIMIT d) (max 1 (fieldOf v (R.LAC_DOM_W1_LIMIT d)))

end Sys2Proof.Machine
end

