-- ==== Sys2Proof/Machine/Lacing.lean ====
section
/-!
DEFINITION. The DMA rings (R328 to R334), dispatch through Lacing and release in arrival order (R317 to R323).
-/
namespace Sys2Proof.Machine

/-! ### Frame bytes read by an egress -/

/-- The addresses of a frame's bytes as 64-byte reads would touch them: none, if every buffer may be read by master
`m`; else the first failure. -/
def Hw.frameFault (h : Hw) (m : Nat) (f : Frame) : Option (Nat × Nat) :=
  f.bufs.findSome? fun b => h.rangeFault m b 256 false

/-- The addresses of `n` buffers of pool `p` from the one at `a` on, by the link words of a DRAM pool (R303); none: a read
of the link table failed. -/
def Hw.followLinks (h : Hw) (p a n : Nat) : Hw × Option (List Nat) :=
  match n with
  | 0 => (h, some [])
  | 1 => (h, some [a])
  | n + 1 =>
    match h.busRead 19 (h.linkAddr p (h.bufferIndex p a)) 4 with
    | (h, none) => (h, none)
    | (h, some w) =>
      match h.followLinks p (h.bufferAddr p (h.get (R.CKR_POOL_FIRST_FIRST p) + ofBytesLE w)) n with
      | (h, some l) => (h, some (a :: l))
      | (h, none) => (h, none)

/-- The buffers of a frame as Clicker reads them (R303): those of an SRAM pool from the fabric's own storage, those of a
DRAM pool from its link table. -/
def Hw.chainOf (h : Hw) (f : Frame) : Hw × Option (List Nat) :=
  match h.flag (R.CKR_POOL_CFG_LOC f.pool), f.bufs with
  | true, a :: _ => h.followLinks f.pool a f.bufs.length
  | _, _ => (h, some f.bufs)

/-- The bytes of a frame as it leaves (R294), read by master `m`; none: an access failed and was logged (R303, R481). A
failed access of Clicker's own sets BUS_EV. -/
def Hw.readLeaving (h : Hw) (m : Nat) (f : Frame) : Hw × Option (List Byte) :=
  match h.chainOf f with
  | (h, none) => (h.set R.CKR_STAT_BUS_EV 1, none)
  | (h, some l) =>
    let f := { f with bufs := l }
    match h.frameFault m f with
    | some (a, k) => ((if m = 19 then h.set R.CKR_STAT_BUS_EV 1 else h).shankError m a k false, none)
    | none => (h, some (h.leavingBytes f))

/-! ### Rings -/

def Hw.ringBase (h : Hw) (r : Nat) : Nat :=
  (h.get (R.CKR_RING_BASE_LO_BASE_LO r) + 2 ^ 32 * h.get (R.CKR_RING_HI_BASE_HI r)) / 8 * 8
def Hw.ringData (h : Hw) (r : Nat) : Nat :=
  (h.get (R.CKR_RING_DATA_LO_DATA_LO r) + 2 ^ 32 * h.get (R.CKR_RING_HI_DATA_HI r)) / 256 * 256
/-- The address of entry `i` of a ring (R328). -/
def Hw.entryAddr (h : Hw) (r i : Nat) : Nat := h.ringBase r + 8 * (i % h.ringSize r)
/-- The slot of entry `i` of an RXF ring, and its size (R330, R334). -/
def Hw.slotSize (h : Hw) (r : Nat) : Nat := 2 ^ (h.get (R.CKR_RING_CFG_SLOT_EXP r) + 8)
def Hw.slotAddr (h : Hw) (r i : Nat) : Nat := h.ringData r + h.slotSize r * (i % h.ringSize r)

def Hw.ringQueue (h : Hw) (r : Nat) : List (Nat × Nat) := kgetD [] h.fabric.ringPending r
def Hw.setRingQueue (h : Hw) (r : Nat) (l : List (Nat × Nat)) : Hw :=
  { h with fabric := { h.fabric with ringPending := kput h.fabric.ringPending r l } }

/-- Producers waiting on a ring receive CLOSED (R279, R332). -/
def Hw.closePushers (h : Hw) (r : Nat) : Hw :=
  let l := h.pushersOf r
  l.foldl (fun h t =>
    match (h.thread t).on with
    | .push rd _ _ => h.answer t ⟨rd, some 2, none, 0⟩
    | _ => h) (h.setPushers r [])

/-- A ring enters Closed (R45, R47): CLOSED_EV is set, and PEND leads to Opening. -/
def Hw.ringClosed (h : Hw) (r : Nat) : Hw :=
  let h := (h.set (R.CKR_RING_FSTAT_CLOSED_EV r) 1).closePushers r
  if h.flag (R.CKR_RING_FSTAT_PEND r) then
    ((h.set (R.CKR_RING_FSTAT_STATE r) stOpening).set (R.CKR_RING_FSTAT_PEND r) 0).set (R.CKR_RING_FCTL_EN r) 1
  else h.set (R.CKR_RING_FSTAT_STATE r) stClosed

/-- A failed ring access (R332): ERR is set and the ring enters Closed at once; ABORTED counts the entry concerned, and
on a TXF ring every posted entry not yet processed. -/
def Hw.ringError (h : Hw) (r : Nat) : Hw :=
  let txf := h.ringMode r == 2
  let n := if txf then h.ringCount r else 1
  let h := h.set (R.CKR_RING_CFG_ERR r) 1
  let h := h.set (R.CKR_RING_FSTAT_ABORTED r) (min n 0xFFFF)
  let h := if txf then h.set (R.CKR_RING_CONS_CONS r) (h.ringProd r) else h
  h.ringClosed r

/-- An entry is appended to an MSG ring with space (R328, R329); a failed access is a ring error. -/
def Hw.ringAppend (h : Hw) (r : Nat) (w : Dword) : Hw × Bool :=
  match h.busWrite 19 (h.entryAddr r (h.ringProd r)) (bytesLE 8 w.toNat) with
  | (h, true) => ((h.set (R.CKR_RING_PROD_PROD r) (h.ringProd r + 1)).countRing r 0, true)
  | (h, false) => (h.ringError r, false)

/-- Space has appeared in an MSG ring: waiting pushers append, longest-waiting first (R279). -/
def Hw.serveRing (h : Hw) (r fuel : Nat) : Hw :=
  match fuel with
  | 0 => h
  | fuel + 1 =>
    if h.ringState r = stOpen ∧ h.ringMode r = 0 ∧ h.ringCount r < h.ringSize r then
      match h.pushersOf r with
      | [] => h
      | t :: rest =>
        let h' := h.setPushers r rest
        match (h.thread t).on with
        | .push rd _ w =>
          match h'.ringAppend r w with
          | (h'', true) => (h''.answer t ⟨rd, some 0, none, 0⟩).serveRing r fuel
          | (h'', false) => h''.answer t ⟨rd, some 2, none, 0⟩
        | _ => h'.serveRing r fuel
    else h

/-- A core writes PROD (R328, R333, R334): only on an Open TXF ring, and not beyond CONS + size. -/
def Hw.writeRingProd (h : Hw) (r : Nat) (v : Word) : Hw :=
  if h.ringMode r = 2 ∧ h.ringState r = stOpen ∧ (v.toNat + 2 ^ 32 - h.ringCons r) % 2 ^ 32 ≤ h.ringSize r then
    h.setWord (R.CKR_RING_PROD r) v
  else h.set R.CKR_STAT_CFG_ERR 1

/-- A core writes CONS (R328, R334): only on an MSG or RXF ring, and not beyond PROD. -/
def Hw.writeRingCons (h : Hw) (r : Nat) (v : Word) : Hw :=
  if h.ringMode r ≠ 2 ∧ (h.ringProd r + 2 ^ 32 - v.toNat) % 2 ^ 32 ≤ h.ringSize r then
    (h.setWord (R.CKR_RING_CONS r) v).serveRing r 256
  else h.set R.CKR_STAT_CFG_ERR 1

def execRingProdWrite (r : Fin 64) (v : Word) (s : State) : Host.Outcome State Fault Refusal :=
  s.effect fun h => h.writeRingProd r v
def execRingConsWrite (r : Fin 64) (v : Word) (s : State) : Host.Outcome State Fault Refusal :=
  s.effect fun h => h.writeRingCons r v

/-- The first frame that a ring is to write leaves its line, and its entry is no longer reserved (R315). -/
def Hw.unpend (h : Hw) (r : Nat) : Hw :=
  (h.setRingQueue r (h.ringQueue r).tail).setRingReserved r (h.ringReservedOf r - 1)

/-- The frames that a ring was to write are freed, and their entries are no longer reserved (R47, R333). -/
def Hw.dropPending (h : Hw) (r : Nat) : Hw :=
  let l := h.ringQueue r
  l.foldl (fun (h : Hw) x => h.freeFrame x.1) ((h.setRingQueue r []).setRingReserved r (h.ringReservedOf r - l.length))

/-- RING_ERROR (R332): an access of ring `r` fails. The frame of the entry concerned is lost. -/
def execRingError (r : Fin 64) (s : State) : Host.Outcome State Fault Refusal :=
  s.effect fun h =>
    let h := if h.ringMode r = 1 then
        match h.ringQueue r with
        | (id, _) :: _ => (h.unpend r).freeFrame id
        | [] => h
      else h
    h.ringError r

/-- A write of CFG, BASE or DATA (R332, R334): only while the ring is Closed, ERR with them; MODE 3 leaves MODE, SIZE_EXP
and SLOT_EXP are clamped. -/
def Hw.writeRingCfg (h : Hw) (r a : Nat) (v : Word) : Hw :=
  let cfg := a == R.CKR_RING_CFG r
  if h.ringState r ≠ stClosed then h.set R.CKR_STAT_CFG_ERR 1
  else
    let old := h.ringMode r
    let h := h.writeFields a v
    if cfg then
      let h := if h.ringMode r = 3 then h.set (R.CKR_RING_CFG_MODE r) old else h
      let h := h.set (R.CKR_RING_CFG_SIZE_EXP r) (min 12 (h.get (R.CKR_RING_CFG_SIZE_EXP r)))
      h.set (R.CKR_RING_CFG_SLOT_EXP r) (min 6 (h.get (R.CKR_RING_CFG_SLOT_EXP r)))
    else h

/-- The entry of an RXF ring (R329). -/
def rxfEntry (len src queue : Nat) (st : Stamp) : Nat :=
  len % 2 ^ 14 + 2 ^ 14 * (src % 16) + 2 ^ 18 * (queue % 2 ^ 14) + 2 ^ 32 * (st.sub / 2 ^ 16 % 2 ^ 30) + 2 ^ 62 * (st.sec % 4)

/-- RXF_WRITE (R329, R330): the ring copies its next frame into a slot, writes the entry, and advances PROD. A full ring
leaves the frame waiting. A ring that has closed meanwhile takes nothing: the frame's buffers are freed. -/
def Hw.rxfWrite (h : Hw) (r : Nat) : Hw :=
  match h.ringQueue r with
  | [] => h
  | (id, q) :: _ =>
    let f := h.frame id
    let full := decide (h.ringSize r ≤ h.ringCount r)
    if h.ringState r = stClosed ∨ h.ringState r = stOpening then (h.unpend r).freeFrame id
    else if h.slotSize r < f.leaving then ((h.unpend r).freeFrame id).countRing r 1
    else if full then h
    else
      match (h.unpend r).readLeaving 19 f with
      | (h, none) => h.freeFrame id
      | (h, some bs) =>
        let i := h.ringProd r
        match h.busWrite 19 (h.slotAddr r i) bs with
        | (h, false) => (h.freeFrame id).ringError r
        | (h, true) =>
          match h.busWrite 19 (h.entryAddr r i) (bytesLE 8 (rxfEntry f.leaving f.src q f.stamp)) with
          | (h, false) => (h.freeFrame id).ringError r
          | (h, true) => ((h.freeFrame id).set (R.CKR_RING_PROD_PROD r) (i + 1)).countRing r 0

def execRxfWrite (r : Fin 64) (s : State) : Host.Outcome State Fault Refusal := s.effect fun h => h.rxfWrite r

/-- A frame of source 15 is stored whole: every buffer in turn (R305 to R307). The flag tells that it stands stored. -/
def Hw.storeWhole (h : Hw) (g : Staged) (id fuel : Nat) : Hw × Option Staged :=
  match fuel with
  | 0 => (h, some g)
  | fuel + 1 =>
    if buffersFor g.bytes.length ≤ (h.frame id).bufs.length then (h, some g)
    else
      match h.takeBuffer g id with
      | (h, .taken g) => h.storeWhole g id fuel
      | (h, .discarded) => (h, none)

/-- The completion of a stored frame of source 15. -/
def Hw.txfStored (h : Hw) (g : Staged) (id : Nat) (f : Hw → Hw) : Hw :=
  match h.storeWhole g id 64 with
  | (h, none) => h
  | (h, some g) =>
    let fr := h.frame id
    let (h, ok) := match fr.bufs.getLast? with
      | some b => h.writeLink fr.pool b 0xFFFFFFFF
      | none => (h, true)
    if !ok then (h.discardStaged g).set R.CKR_STAT_BUS_EV 1
    else f ((h.setFree fr.pool (h.poolFree fr.pool + g.reserved)).countPool fr.pool 0)

/-- A frame read from a TXF ring arrives from source 15 (R331). -/
def Hw.txfFrame (h : Hw) (r : Nat) (bs : List Byte) : Hw :=
  let g : Staged := ⟨bs, true, h.stampNow false, 0, none, none, 0⟩
  let h := h.countSource 15 0
  if h.flag R.CKR_CTL_MODE then
    let v := h.classify 15 bs
    let h := h.drawn
    match v.dest with
    | none => h.countSource 15 1
    | some d =>
      if !h.destAccepts d then h.countSource 15 2
      else
        match h.takeIn 15 g v.pool v.user (some d) with
        | (h, none) => h
        | (h, some g) =>
          match g.frame with
          | some id => h.txfStored g id fun h => h.deliver id d
          | none => h
  else
    match h.takeIn 15 g (h.get R.CKR_CTL_PM_POOL) 0 none with
    | (h, none) => h
    | (h, some g) =>
      match g.frame with
      | some id => h.txfStored g id fun h => h.offer (h.get (R.CKR_RING_CFG_TXQ r)) id
      | none => h

/-- TXF_ENTRY (R331): Clicker processes the next entry of a TXF ring and advances CONS. -/
def Hw.txfEntry (h : Hw) (r : Nat) : Hw :=
  let st := h.ringState r
  if h.ringMode r = 2 ∧ (st = stOpen ∨ st = stClosing) ∧ h.ringCount r ≠ 0 then
    match h.busRead 19 (h.entryAddr r (h.ringCons r)) 8 with
    | (h, none) => h.ringError r
    | (h, some e) =>
      let w := ofBytesLE e
      let len := w / 2 ^ 40 % 2 ^ 14
      let next (h : Hw) : Hw := h.set (R.CKR_RING_CONS_CONS r) (h.ringCons r + 1)
      if len = 0 ∨ 16320 < len ∨ w / 2 ^ 54 ≠ 0 then next (h.countRing r 1)
      else
        match h.busRead 19 (w % 2 ^ 40) len with
        | (h, none) => h.ringError r
        | (h, some bs) => next ((h.countRing r 0).txfFrame r bs)
  else h

def execTxfEntry (r : Fin 64) (s : State) : Host.Outcome State Fault Refusal := s.effect fun h => h.txfEntry r

/-! ### Dispatch (R317 to R320) -/

/-- The dispatch word of a frame (R318). -/
def Frame.dispatchWord (f : Frame) : Nat :=
  f.len % 2 ^ 14 + 2 ^ 14 * f.src + (if f.fwded then 2 ^ 18 else 0) + (if f.tagged then 2 ^ 19 else 0) + 2 ^ 20 * f.pool +
    2 ^ 24 * f.fwds + 2 ^ 32 * f.user

/-- A thread that can take work (R320): Idle, its engine Open. -/
def Hw.freeThread (h : Hw) (t : Nat) : Bool := h.threadState t == thrIdle && h.engineState (t / 4) == stOpen

/-- The clusters in rotation (R320). -/
def Hw.rotation (h : Hw) : List Nat := (List.range 8).map fun i => (h.fabric.lastCluster + 1 + i) % 8

/-- The thread a frame of domain `d` goes to (R320). -/
def Hw.eligibleThread (h : Hw) (d : Nat) : Option Nat :=
  let mask := h.get (R.LAC_DOM_W0_MASK d)
  if h.flag (R.LAC_DOM_W0_EXPRESS d) then
    ((List.range 8).map (4 * ·)).find? fun t => mask.testBit (t / 4) && h.freeThread t
  else
    (h.rotation.filter fun c => mask.testBit c).findSome? fun c =>
      ((List.range 32).map (32 * c + ·)).find? fun t => h.freeThread t && !expressThread t && !h.timingThread t

/-- The completion store of a domain has a free entry (R322). -/
def Hw.storeRoom (h : Hw) (express : Bool) : Bool :=
  if express then decide (h.get R.LAC_COMP_EXP_USED < 16) else decide (h.get R.LAC_COMP_ORD_USED < 2048)

def Hw.storeUse (h : Hw) (express take : Bool) : Hw :=
  let f := if express then R.LAC_COMP_EXP_USED else R.LAC_COMP_ORD_USED
  h.set f (if take then h.get f + 1 else h.get f - 1)

def Hw.domainExpress (h : Hw) (d : Nat) : Bool := h.flag (R.LAC_DOM_W0_EXPRESS d)
def Hw.frameDomain (h : Hw) (id : Nat) : Nat := (h.frame id).domain.getD 0

/-- A frame in a DRAM pool (R34, R320). -/
def Hw.inDram (h : Hw) (id : Nat) : Bool := h.flag (R.CKR_POOL_CFG_LOC (h.frame id).pool)

/-- A waiting frame can be dispatched now. -/
def Hw.dispatchable (h : Hw) (id : Nat) : Bool :=
  let d := h.frameDomain id
  let x := h.domainExpress d
  h.storeRoom x && ((x && h.inDram id) || (h.eligibleThread d).isSome)

/-- The frame Lacing dispatches next (R320): express domains first, each in arrival order. -/
def Hw.nextDispatch (h : Hw) : Option Nat :=
  let ex := h.fabric.waiting.filter fun id => h.domainExpress (h.frameDomain id)
  let ord := h.fabric.waiting.filter fun id => !h.domainExpress (h.frameDomain id)
  (ex ++ ord).find? fun id => h.dispatchable id

/-- A frame leaves its domain's list and its completion store. -/
def Hw.leaveDomain (h : Hw) (id : Nat) : Hw :=
  let f := h.frame id
  let d := h.frameDomain id
  let h := { h with fabric := { h.fabric with
    domains := kput h.fabric.domains d ((kgetD [] h.fabric.domains d).filter (· != id)) } }
  match f.store with
  | some x => (h.storeUse x false).modFrame id fun f => { f with store := none }
  | none => h

/-- The head of a frame is copied into its thread's slot (R317); the slot's headroom holds free values (R273). -/
def Hw.copyHead (h : Hw) (f : Frame) (t : Nat) : Hw × Bool :=
  match f.bufs with
  | [] => (h, true)
  | b :: _ =>
    match h.busRead 19 (b + 64) (min f.len 128) with
    | (h, none) => (h, false)
    | (h, some bs) => (h.setFreeBytes (headSlot t) 64).busWrite 19 (headSlot t + 64) bs

/-- LACING_DISPATCH (R317 to R320, R322). -/
def Hw.lacingDispatch (h : Hw) : Hw :=
  match h.nextDispatch with
  | none => h
  | some id =>
    let d := h.frameDomain id
    let x := h.domainExpress d
    let h := ({ h with fabric := { h.fabric with waiting := h.fabric.waiting.filter (· != id) } }).waitLess d
    let h := (h.storeUse x true).modFrame id fun f => { f with store := some x }
    if x && h.inDram id then h.modFrame id fun f => { f with disp := .drop 252 }
    else
      match h.eligibleThread d with
      | none => h
      | some t =>
        let f := h.frame id
        match h.copyHead f t with
        | (h, false) => ((h.leaveDomain id).freeFrame id).set R.CKR_STAT_BUS_EV 1
        | (h, true) =>
          let h := { h with fabric := { h.fabric with lastCluster := t / 32 } }
          let h := h.startThread t (4 * h.get (R.LAC_DOM_W0_ENTRY d)) (BitVec.ofNat 64 f.dispatchWord) true
          h.modThread t fun th => { th with frame := some id }

def execLacingDispatch (s : State) : Host.Outcome State Fault Refusal := s.effect fun h => h.lacingDispatch

/-! ### Release in arrival order (R322, R323) -/

/-- The dirty head lines of a frame are written back to its first buffer (R275, R303). -/
def Hw.writeBack (h : Hw) (id : Nat) : Hw × Bool :=
  let f := h.frame id
  match f.bufs with
  | [] => (h, true)
  | b :: _ =>
    let (h, ok) := f.lines.foldl (fun (h, ok) (i, bs) =>
      if ok then h.busWrite 19 (b + 32 * i) bs else (h, ok)) (h, true)
    (h.modFrame id fun f => { f with lines := [] }, ok)

/-- A frame is dropped in its turn (R322): its buffers are freed and the reason counts. -/
def Hw.dropInTurn (h : Hw) (id reason : Nat) : Hw := ((h.leaveDomain id).freeFrame id).countReason reason

/-- LACING_DISPOSE (R322, R323): the front frame of domain `d` has been disposed of, and its turn has come. -/
def Hw.lacingDispose (h : Hw) (d : Nat) : Hw :=
  match kgetD [] h.fabric.domains d with
  | [] => h
  | id :: _ =>
    match (h.frame id).disp with
    | .none => h
    | .drop n => h.dropInTurn id n
    | .release q word =>
      match h.writeBack id with
      | (h, false) => (h.dropInTurn id 251).set R.CKR_STAT_BUS_EV 1
      | (h, true) =>
        let h := (h.leaveDomain id).modFrame id fun f => { f with word := word, domain := none, disp := .none }
        h.offer q id
    | .fwd d' user =>
      if !h.domainRoom d' then h
      else
        match h.writeBack id with
        | (h, false) => (h.dropInTurn id 251).set R.CKR_STAT_BUS_EV 1
        | (h, true) =>
          let h := (h.leaveDomain id).modFrame id fun f =>
            { f with disp := .none, fwds := f.fwds + 1, fwded := true, user := user }
          (h.waitMore d').deliver id (.domain d')

def execLacingDispose (d : Fin 4096) (s : State) : Host.Outcome State Fault Refusal := s.effect fun h => h.lacingDispose d

end Sys2Proof.Machine
end

