-- ==== Sys2Proof/Machine/Fifo.lean ====
section
/-!
DEFINITION. The elastic FIFOs of the clocked islands: their numbers and depths (R74), their occupancy, and the status
register that a chain or a lane has for its two FIFOs (R78).
-/
namespace Sys2Proof.Machine

/-! ### The FIFOs of R74 -/

/-- The receive and the transmit FIFO of chain `c` of slice `x`, and of lane `n`. -/
def fifoConvRx (x c : Nat) : Nat := 8 * x + c
def fifoConvTx (x c : Nat) : Nat := 128 + 8 * x + c
def fifoLaneRx (n : Nat) : Nat := 64 + n
def fifoLaneTx (n : Nat) : Nat := 192 + n

/-- The read and the write FIFO of DRAM channel `c`, and the stamp delivery of port `p` (lanes 0 to 11, slices 12 to
14). -/
def fifoDramRead (c : Nat) : Nat := 256 + c
def fifoDramWrite (c : Nat) : Nat := 258 + c
def fifoStamp (p : Nat) : Nat := 272 + p

/-- The fitted depth of a FIFO in entries. -/
def fifoDepth (k : Nat) : Nat := if 272 ≤ k then 8 else 64

/-- The prefill of a converter transmit FIFO, and of a lane by its rate code (R74, R75). -/
def converterPrefill : Nat := 32
def lanePrefill (rate : Nat) : Nat := match rate with
  | 0 => 6
  | 1 => 8
  | 2 => 12
  | 3 => 20
  | _ => 44

/-! ### Occupancy -/

def Hw.occupancy (h : Hw) (k : Nat) : Nat := kgetD 0 h.fifo k

/-- A FIFO holds `n` entries. -/
def Hw.setFifo (h : Hw) (k n : Nat) : Hw := { h with fifo := if n = 0 then kdel h.fifo k else kput h.fifo k n }

/-- The FIFOs that the status register `k` of a chain (8x + c) or lane (64 + n) reports: its receive and its transmit
FIFO, of which HWM shows the fuller (DESIGN CHOICE, log 44). -/
def Hw.fifoNow (h : Hw) (k : Nat) : Nat := max (h.occupancy k) (h.occupancy (128 + k))

/-- FIFO `k`, whose status register stands at `a`, holds `n` entries; HWM keeps the highest (R78). -/
def Hw.fillFifo (h : Hw) (k a n : Nat) : Hw :=
  let h := h.setFifo k n
  h.set ⟨a, 0, 7⟩ (max n (h.get ⟨a, 0, 7⟩))

/-- An overrun or underrun is recorded (R78). -/
def Hw.fifoEvent (h : Hw) (a : Nat) : Hw := (h.set ⟨a, 8, 1⟩ 1).bump ⟨a, 16, 16⟩

/-- HWM takes the present occupancy (R78). -/
def Hw.clearHwm (h : Hw) (k a : Nat) : Hw := h.set ⟨a, 0, 7⟩ (h.fifoNow k)

/-- A write of a FIFO status register (R78). -/
def Hw.writeFifoStat (h : Hw) (k a : Nat) (v : Word) : Hw :=
  let h := h.writeFields a v
  if v.getLsbD 7 then h.clearHwm k a else h

/-- The lane transmit FIFO of a lane runs empty as its frame ends. -/
def Hw.drainLaneTx (h : Hw) (n : Nat) : Hw := h.setFifo (fifoLaneTx n) 0

/-- The converter transmit FIFOs of the chains `chains` of a slice are prefilled before the island starts (R74), or run
empty as the PPDU ends. -/
def Hw.prefillConverters (h : Hw) (x chains : Nat) : Hw :=
  ((List.range 8).filter (chains.testBit ·)).foldl (fun (h : Hw) c =>
    h.fillFifo (fifoConvTx x c) (R.RFS_FIFO_STAT x c) converterPrefill) h

def Hw.drainConverters (h : Hw) (x : Nat) : Hw :=
  (List.range 8).foldl (fun (h : Hw) c => h.setFifo (fifoConvTx x c) 0) h

end Sys2Proof.Machine
end

