-- ==== Sys2Proof/Machine/Signal.lean ====
section
/-!
DEFINITION. The arithmetic of the radio's data path, apart from State: powers and their logarithms (R118, R149, R167),
the qualifier's metrics (R151), the frequency estimate and what its correction leaves (R159, R160), LLRs and the two
decoders (R163, R164, R166), the header checks of L-SIG and PLCP (R153), the transmit FIR (R130) and the canceller's
step (R142).
-/
namespace Sys2Proof

/-! ### Complex samples -/

def Cx.conj (a : Cx) : Cx := ⟨a.re, -a.im⟩
def Cx.add (a b : Cx) : Cx := ⟨a.re + b.re, a.im + b.im⟩
def Cx.sub (a b : Cx) : Cx := ⟨a.re - b.re, a.im - b.im⟩
def Cx.mul (a b : Cx) : Cx := ⟨a.re * b.re - a.im * b.im, a.re * b.im + a.im * b.re⟩
def Cx.scale (k : Int) (a : Cx) : Cx := ⟨k * a.re, k * a.im⟩
def Cx.sq (a : Cx) : Nat := a.re.natAbs ^ 2 + a.im.natAbs ^ 2
def Cx.sum (l : List Cx) : Cx := l.foldl Cx.add ⟨0, 0⟩

end Sys2Proof

namespace Sys2Proof.Machine

/-- The sum of the squared magnitudes. -/
def sqSum (l : List Cx) : Nat := l.foldl (fun n a => n + a.sq) 0

/-! ### Powers and logarithms -/

/-- The greatest number below 2^`bits` that satisfies the downward-closed `p`, with the bits above found as `acc`. -/
def searchBits (p : Nat → Bool) (bits acc : Nat) : Nat :=
  match bits with
  | 0 => acc
  | b + 1 => searchBits p b (if p (acc + 2 ^ b) then acc + 2 ^ b else acc)

/-- A power rounded toward minus infinity to 0.25 dB and saturated to 12 bits (R118, R149, R167). -/
def quarterDb (p : Int) : Int := clampInt (-2048) 2047 (p / 64)

/-- 40 log10 of `num / den`, rounded toward minus infinity and saturated to 12 bits: a ratio in units of 0.25 dB. -/
def dbQuarter (num den : Nat) : Int :=
  (searchBits (fun k => decide (10 ^ k * den ^ 40 ≤ num ^ 40 * 10 ^ 2048)) 12 0 : Int) - 2048

/-- 2^256 · 10^(2^i / 10240) for i = 0 to 13. -/
def tenRoots : List Nat := [
  115818129385487037821757660067908649346499562551510672206955021397491993572241,
  115844175389751515163181559304904695747939397469974468892642413723138524750387,
  115896284971829510708829119952052698612425234639055750686730953064435905825121,
  116000574467075206583073922068214805298912021721930219706961989131255899474167,
  116209435077322763758902751362902526147618338751899150615103294762070784150384,
  116628285144011120439737778184515183452118142124005030682151448596913994612470,
  117470519663524752674527275629797051981118819607019566556567367304531285970606,
  119173279287990100390496872290636800607958217404824602788482896424653243314578,
  122653201870688238681113447890872772735228151372249731188470297164370127802353,
  129920860986448533778681154743236969263029657252986648980176686187405405998201,
  145773603625595248359336383917398588937306856350046516868812004361045507887469,
  183518093973072204305210813650440934999380162146284923093233610890447183251839,
  290856577831361035837331787797321805991190458999394439677944174677014478033840,
  730598691369905919423015673182163169711588929145076302681851799555378960036569]

/-- 10^(n / 10240) in units of 2^-256, for 0 ≤ n < 2^14. -/
def tenPower (n : Nat) : Nat :=
  ((List.range 14).zip tenRoots).foldl (fun acc (i, r) => if n.testBit i then acc * r / 2 ^ 256 else acc) (2 ^ 256)

/-- The linear power, in units of 2^-256 mW, of a level of `n` units of 2^-10 dB (DESIGN CHOICE, log 47). -/
def linearOf (n : Int) : Nat :=
  let m := tenPower (n % 10240).toNat
  let a := n / 10240
  if 0 ≤ a then m * 10 ^ a.toNat else m / 10 ^ (-a).toNat

/-- The mean of `n` linear powers that add up to `sum`, as a level rounded toward minus infinity to 0.25 dB and saturated
to 12 bits (R167, R170). -/
def meanLevel (sum n : Nat) : Int :=
  (searchBits (fun k => decide (n * linearOf (256 * ((k : Int) - 2048)) ≤ sum)) 12 0 : Int) - 2048

/-- The gain of code `k` in dB (R121). -/
def gainOf (k : Nat) : Int := 2 * (k : Int) - 10

/-- The mean power of samples taken at gain code `k`, referred to the ball, in units of 0.25 dB, rounded and saturated
(R149): a sine at ADC full scale, −4 dBm − G at the ball, has samples of magnitude 2^15 (DESIGN CHOICE, log 47). -/
def ballPower (k : Nat) (r : List Cx) : Int :=
  let s := sqSum r
  if s = 0 then -2048 else clampInt (-2048) 2047 (dbQuarter s (r.length * 2 ^ 30) - 4 * (4 + gainOf k))

/-! ### The metrics of the qualifier (R151) -/

/-- √(num / den) in Q1.15, computed exactly, rounded to nearest with ties to even and saturated at 1 − 2^-15. -/
def rootMetric (num den : Nat) : Nat :=
  let n := num * 2 ^ 30
  let q := searchBits (fun q => decide (q ^ 2 * den ≤ n)) 17 0
  let r := (2 * q + 1) ^ 2 * den
  min 32767 (if 4 * n < r then q else if r < 4 * n then q + 1 else if q % 2 = 0 then q else q + 1)

/-- |c| / p in Q1.15 (R151). -/
def qualMetric (c : Cx) (p : Nat) : Nat := rootMetric c.sq (p ^ 2)

/-- The sums c and p of R151 over the newest 16 samples, at a lag of 16, added over the chains (DESIGN CHOICE, log 47): each chain gives
32 samples of the primary 20 MHz at 20 M samples/s, the oldest first. -/
def lagSums (rs : List (List Cx)) : Cx × Nat :=
  rs.foldl (fun (c, p) r =>
    (c.add (Cx.sum ((r.drop 16).zipWith (fun a b => a.mul b.conj) (r.take 16))), p + sqSum (r.drop 16))) (⟨0, 0⟩, 0)

/-- The metric of R151; none: p is 0, and the manual states no metric. -/
def lagMetric (rs : List (List Cx)) : Option Nat :=
  let (c, p) := lagSums rs
  if p = 0 then none else some (qualMetric c p)

/-- The Barker sequence of 11 chips (IEEE 802.11; PRESUMED, log 48). -/
def barker : List Int := [1, -1, 1, 1, -1, 1, 1, 1, -1, -1, -1]

/-- The normalised Barker correlation over 11 chips (R151), as √(|Σ b r|² / (11 Σ |r|²)) (PRESUMED, log 48). -/
def barkerMetric (chips : List Cx) : Nat :=
  let p := sqSum (chips.take 11)
  if p = 0 then 0 else rootMetric (Cx.sum (barker.zipWith Cx.scale chips)).sq (11 * p)

/-! ### Frequency (R159, R160) -/

/-- The offset Δf in units of 312.5 kHz · 2^-32 from the phase advances of the L-STF over 0.8 µs and of the L-LTF over
3.2 µs, in units of 2^-32 turn: the fine one, made unambiguous by the coarse one. -/
def offsetOf (coarse fine : Int) : Int := fine + 2 ^ 32 * rneDiv (4 * coarse - fine) (2 ^ 32)

/-- The estimate Δf / f_c as signed 16-bit, LSB 2^-29, rounded to even and saturated (R159): Δf as `offsetOf` gives it,
f_c in units of 2^-48 MHz. -/
def freqEstimate (df : Int) (fc : Nat) : Int := clampInt (-32767) 32767 (rneDiv (df * 3125 * 2 ^ 45) (fc * 10000))

/-- The estimate beyond which the tolerance of R159 no longer applies: 0.0045 % in units of 2^-29 (R161). -/
def outOfTolerance (eps : Int) : Bool := decide (45 * 2 ^ 29 < eps.natAbs * 1000000)

/-- The bound of R160 on the timing-rate error that the one-shot correction from `eps` (LSB 2^-29) leaves, in units of
2^-39 · 10^-8. -/
def residualBound (eps : Int) : Nat := 2 * 2 ^ 39 + eps.natAbs * 10 ^ 8

/-- The phase slope of R160 at `fEdge` Hz from the centre, `t` ns after the L-LTF, for a residual error as
`residualBound` gives it: in units of 360° · 2^-39 · 10^-17. -/
def thetaEdge (fEdge res t : Nat) : Nat := fEdge * res * t

/-- The main path holds θ_edge within 6° (R160): pilot tracking is not needed for this reach. -/
def withinSlope (fEdge : Nat) (eps : Int) (t : Nat) : Bool := decide (60 * thetaEdge fEdge (residualBound eps) t ≤ 2 ^ 39 * 10 ^ 17)

/-- The removal of the common phase error (R160): every subcarrier of a symbol is turned back by the phase of the pilots'
correlation with their known values. The result carries the magnitude of that correlation as a factor. -/
def removeCpe (pilots known data : List Cx) : List Cx :=
  let c := Cx.sum (pilots.zipWith (fun p k => p.mul k.conj) known)
  data.map fun d => d.mul c.conj

/-! ### LLRs and LDPC (R163, R164) -/

/-- An LLR of `v` units of 2^-8 as the detector delivers it: LSB 0.5, rounded to nearest with ties to even, held within
±31. -/
def llrOf (v : Int) : Int := clampInt (-31) 31 (rneDiv v 128)

/-- The messages a parity check sends back: for each of its bits, the least magnitude among the others less the offset of
1 LSB, with the sign that makes the parity of all even (positive favours bit 1). -/
def checkMessages (ts : List Int) : List Int :=
  (List.range ts.length).map fun i =>
    let o := ts.eraseIdx i
    let m : Int := ((o.foldl (fun a t => min a t.natAbs) 31) - 1 : Nat)
    if (o.filter (0 < ·)).length % 2 = 1 then m else -m

/-- A parity check: its bit positions, and the message it last sent to each. -/
abbrev Check := List Nat × List Int

/-- The checks of one layer work on the sums `q`: each takes the sums less its own last messages, held within ±31. -/
def layerStep (q : List Int) (l : List Check) : List Int × List Check :=
  let l' := l.map fun (bits, r) =>
    (bits, checkMessages ((bits.zip r).map fun (n, r) => clampInt (-31) 31 ((q[n]?).getD 0 - r)))
  let add (q : List Int) (n : Nat) (d : Int) : List Int := q.set n ((q[n]?).getD 0 + d)
  let q' := (l.zip l').foldl (fun q (a, b) =>
    (a.1.zip (a.2.zip b.2)).foldl (fun q (n, r, r') => add q n (r' - r)) q) q
  (q', l')

/-- One iteration: the layers in turn. -/
def ldpcSweep (q : List Int) (layers : List (List Check)) : List Int × List (List Check) :=
  layers.foldl (fun (q, done) l => let (q, l) := layerStep q l; (q, done ++ [l])) (q, [])

/-- The hard decisions of the sums; for a sum of 0 the manual states none. -/
def hardBits (q : List Int) : List Bool :=
  (List.range q.length).zipWith (fun n s => if s = 0 then Config.hardTie n else decide (0 < s)) q

/-- Every parity check is met. -/
def parityMet (layers : List (List Check)) (hard : List Bool) : Bool :=
  layers.all fun l => l.all fun c => (c.1.filter fun n => (hard[n]?).getD false).length % 2 == 0

/-- At most `k` further iterations (R164): the hard decisions, and whether they meet every check. -/
def ldpcRun (layers : List (List Check)) (q : List Int) (k : Nat) : List Bool × Bool :=
  match k with
  | 0 => (hardBits q, parityMet layers (hardBits q))
  | k + 1 =>
    let (q, layers) := ldpcSweep q layers
    if parityMet layers (hardBits q) then (hardBits q, true) else ldpcRun layers q k

/-- An LDPC codeword is decoded (R164): offset min-sum over at most `limit` iterations, its checks taken in the layers
of the schedule given (DEDUCED, log 49). -/
def ldpcDecode (checks : List (List (List Nat))) (llr : List Int) (limit : Nat) : List Bool × Bool :=
  ldpcRun (checks.map fun l => l.map fun c => (c, c.map fun _ => 0)) llr limit

/-! ### The Viterbi decoder (R166) -/

/-- The parity of the bits of `r` in the mask `g`. -/
def parityOf (g r : Nat) : Bool := (List.range 7).foldl (fun p i => xor p (g.testBit i && r.testBit i)) false

/-- The two coded bits of the encoder register `r` (newest bit in bit 6) of constraint length 7: generators 133 and 171,
octal (IEEE 802.11; PRESUMED, log 48). -/
def codedBits (r : Nat) : Bool × Bool := (parityOf 0o133 r, parityOf 0o171 r)

/-- A survivor: its metric, and the bits decided on its path, newest first. -/
abbrev Survivor := Int × List Bool

def branchMetric (r : Nat) (a b : Int) : Int :=
  let (x, y) := codedBits r
  (if x then a else -a) + (if y then b else -b)

/-- The survivors of states 32 b and above, from the pairs of survivors of states 2i and 2i + 1; `t` is the step. Between
equal metrics the manual states no choice. -/
def viterbiHalf (t : Nat) (bit : Bool) (a b : Int) (i : Nat) (l : List Survivor) : List Survivor :=
  match l with
  | s0 :: s1 :: rest =>
    let r := (if bit then 64 else 0) + 2 * i
    let m0 := s0.1 + branchMetric r a b
    let m1 := s1.1 + branchMetric (r + 1) a b
    let first := if m0 = m1 then Config.viterbiTie t r else decide (m1 < m0)
    (max m0 m1, bit :: (if first then s0.2 else s1.2)) :: viterbiHalf t bit a b (i + 1) rest
  | _ => []

/-- The best survivor. -/
def bestSurvivor (t : Nat) (l : List Survivor) : Survivor :=
  match l with
  | [] => (0, [])
  | s :: rest =>
    rest.foldl (fun m s =>
      (max m.1 s.1, if s.1 = m.1 then (if Config.viterbiTie t 128 then m.2 else s.2) else if m.1 < s.1 then s.2 else m.2)) s

/-- The traceback depth. -/
def tracebackDepth : Nat := 96

/-- The decoder over LLR pairs from step `t`: a bit is decided once the best survivor reaches `tracebackDepth` steps
beyond it, the last ones at the end. -/
def viterbiRun (t : Nat) (l : List Survivor) (llr : List Int) : List Bool :=
  match llr with
  | a :: b :: rest =>
    let l := viterbiHalf t false a b 0 l ++ viterbiHalf t true a b 0 l
    if t < tracebackDepth then viterbiRun (t + 1) l rest
    else
      let out := ((bestSurvivor t l).2[tracebackDepth]?).getD false
      out :: viterbiRun (t + 1) (l.map fun s => (s.1, s.2.take tracebackDepth)) rest
  | _ => (bestSurvivor t l).2.reverse

/-- A BCC field or PSDU decoded from its LLRs, two a bit, punctured ones as 0, the encoder starting from state 0. -/
def viterbi (llr : List Int) : List Bool :=
  viterbiRun 0 ((0, []) :: List.replicate 63 (-(2 ^ 20), [])) llr

/-! ### L-SIG and the PLCP header (R153) -/

/-- The number whose bits, the lowest first, are `l`. -/
def ofBits (l : List Bool) : Nat := l.foldr (fun b n => (if b then 1 else 0) + 2 * n) 0

/-- What L-SIG holds: the data bits a symbol of its RATE (none: no valid code), LENGTH, and whether the reserved bit and
the tail are zero and the parity is even. -/
structure Lsig where
  ndbps : Option Nat
  length : Nat
  reservedZero : Bool
  tailZero : Bool
  parityEven : Bool
deriving DecidableEq, Repr

/-- The data bits a symbol of the RATE codes R1 to R4 (IEEE 802.11; PRESUMED, log 48). -/
def rateBits (l : List Bool) : Option Nat :=
  match ofBits l with
  | 11 => some 24 | 15 => some 36 | 10 => some 48 | 14 => some 72
  | 9 => some 96 | 13 => some 144 | 8 => some 192 | 12 => some 216
  | _ => none

/-- The fields of the 24 bits of L-SIG, in the order sent. -/
def lsigOf (b : List Bool) : Lsig :=
  ⟨rateBits (b.take 4), ofBits ((b.drop 5).take 12), !((b[4]?).getD false), !((b.drop 18).take 6).any id,
    (b.take 18).countP id % 2 == 0⟩

/-- The checks of R153 on a decoded L-SIG and on the one that repeats it. -/
def lsigPasses (f : LsigFormat) (b : List Bool) (rep : Option (List Bool)) : Bool :=
  let s := lsigOf b
  s.parityEven && s.ndbps.isSome && s.reservedZero && decide (1 ≤ s.length) && s.tailZero &&
  (match rep with
   | some r => r == b
   | none => true) &&
  (match f with
   | .legacy => true
   | .he => s.length % 3 != 0
   | .eht => s.length % 3 == 0)

/-- The declared duration in nanoseconds (R161): for HE and EHT from LENGTH, for the others from RATE and LENGTH: 16
service bits, the octets and 6 tail bits in symbols of 4 µs (IEEE 802.11; PRESUMED, log 48). -/
def declaredNs (f : LsigFormat) (s : Lsig) : Nat :=
  match f with
  | .legacy =>
    let n := s.ndbps.getD 24
    20000 + 4000 * ((16 + 8 * s.length + 6 + (n - 1)) / n)
  | _ => 20000 + 4000 * ((s.length + 3 + 2) / 3)

/-- The CRC-16 of the PLCP header over the bits in the order sent (IEEE 802.11; PRESUMED, log 48). -/
def plcpCrc (bits : List Bool) : Nat :=
  65535 - bits.foldl (fun (c : Nat) b =>
    let top := xor (c.testBit 15) b
    let c := 2 * c % 65536
    if top then c ^^^ 0x1021 else c) 65535

/-- The PLCP header's CRC holds: SIGNAL, SERVICE and LENGTH in bits 0 to 31, the CRC from bit 32 up, its highest bit
first. -/
def plcpPasses (hdr : BitVec 48) : Bool :=
  let bits := (List.range 48).map (hdr.toNat.testBit ·)
  ofBits ((bits.drop 32).reverse) == plcpCrc (bits.take 32)

/-- The length of the PSDU that the PLCP header declares, in microseconds. -/
def plcpLength (hdr : BitVec 48) : Nat := hdr.toNat / 2 ^ 16 % 2 ^ 16

/-! ### The transmit FIR (R130) -/

/-- One output before its saturation: Σ t_k x(n − k), the newest sample first, rounded to LSB 2^-15. -/
def firSum (taps hist : List Cx) : Cx :=
  let s := Cx.sum (taps.zipWith Cx.mul hist)
  ⟨rneDiv s.re (2 ^ 14), rneDiv s.im (2 ^ 14)⟩

def sat16 (v : Int) : Int := clampInt (-32768) 32767 v

/-- The output of the filter for samples `xs` after `hist` (newest first): with no taps the samples pass unchanged; in
both cases the delay is 15 samples (of a filter centred on its tap 15). The flag says that a sample saturated. -/
def firRun (taps : Option (List Cx)) (hist : List Cx) (xs : List Cx) : List Cx × Bool :=
  match xs with
  | [] => ([], false)
  | x :: t =>
    let hist := (x :: hist).take 31
    let (out, sat) := firRun taps hist t
    match taps with
    | some ts =>
      let y := firSum ts hist
      let z : Cx := ⟨sat16 y.re, sat16 y.im⟩
      (z :: out, sat || z != y)
    | none => ((hist[15]?).getD ⟨0, 0⟩ :: out, sat)

/-! ### The canceller (R141, R142) -/

/-- The references of a victim chain at one sample: tap k = span · a + j takes aggressor chain a, j + BULK_DELAY samples
back, conjugated. `refs`: per aggressor chain, its transmitted baseband shifted to the victim's baseband and resampled to
its rate, the newest sample first. -/
def cancRefs (span bulk : Nat) (refs : List (List Cx)) : List Cx :=
  (List.range 64).map fun k => ((((refs[k / span]?).getD [])[bulk + k % span]?).getD ⟨0, 0⟩).conj

/-- The canceller's output y = v − Σ c_k x_k in units of 2^-38, from v and x in Q1.15 and coefficients in units of
2^-23. -/
def cancOut (v : Cx) (cs xs : List Cx) : Cx := (Cx.scale (2 ^ 23) v).sub (Cx.sum (cs.zipWith Cx.mul xs))

/-- One step of a coefficient: c + rne(2^-MU y conj(x)), held within the Q1.15 range; y unrounded (DEDUCED, log 50). -/
def lmsStep (mu : Nat) (y c x : Cx) : Cx :=
  let p := y.mul x.conj
  let one (c p : Int) : Int := clampInt (-(2 ^ 23)) (2 ^ 23 - 1) (c + rneDiv p (2 ^ (30 + mu)))
  ⟨one c.re p.re, one c.im p.im⟩

/-- Adaptation over victim samples `vs`, the oldest first; `at' n` gives the references at the n-th. -/
def lmsRun (mu : Nat) (at' : Nat → List Cx) (n : Nat) (cs : List Cx) (vs : List Cx) : List Cx :=
  match vs with
  | [] => cs
  | v :: t =>
    let xs := at' n
    let y := cancOut v cs xs
    lmsRun mu at' (n + 1) (cs.zipWith (lmsStep mu y) xs) t

/-- The top 16 bits of a 24-bit coefficient, rounded to nearest with ties to even, and held within 16 bits (DEDUCED, log 50). -/
def coefTop (c : Int) : Int := sat16 (rneDiv c 256)

end Sys2Proof.Machine
end

