-- ==== Sys2Proof/Machine/Radio.lean ====
section
/-!
DEFINITION. What the slices' commands share: the slice and chain records, the front-end control lines (R113), the end
of a reception or of a transmission (R96, R114, R158), noise-floor restarts (R170), the canceller (R142), the STR
decision (R144), NCO words (R90, R91) and the application of a retune (R92).
-/
namespace Sys2Proof.Machine

/-! ### Slices and chains -/

def Reception.none : Reception :=
  { phase := .idle, d := 0, qualThresh := 0, restartMargin := 0, captureMargin := 0, trackThresh := 0, trackAlways := false,
    evaluations := 0, pRef := 0, candidate := false, lstf := 0, stamp := Stamp.zero, eps := 0, dsss := false, tracked := false,
    rssiCal := [], detector := Option.none, midamble := 0, blank := (0, 0) }

/-- A slice after a main-domain reset that is no wake: powered down, its next Opening calibrates in full (R100). -/
def Slice.initial : Slice :=
  { acqFailed := false, retune := none, held := none, tx := none, rx := Reception.none, cal := none, calWaits := none,
    calWindow := none, needFull := true, ncoRx := 0, ncoTx := 0, ncoAt := 0, matchSettles := 0, femEn := false, trsw := 0,
    lnaen := 0, paen := 0, busyUntil := 0, energy := false, maxIter := 8, maskNext := 0, nfSums := [], nfFrom := 0,
    lastStamp := Stamp.zero, idleFrom := 0, woken := false, spoiled := [], decoded := [] }

/-- A chain at reset: aerial A, gain code 23, the 50 Ω design match in force, coefficients of 0 (R120, R124, R125,
R142). -/
def Chain.initial : Chain :=
  { aerial := 0, diversity := false, kA := 23, frozen := false, tunePending := false, tuneInForce := 0x10000,
    clearWaits := false, coefs := [] }

def Hw.slice (h : Hw) (x : Nat) : Slice := kgetD Slice.initial h.slices x
def Hw.setSlice (h : Hw) (x : Nat) (s : Slice) : Hw := { h with slices := kput h.slices x s }
def Hw.modSlice (h : Hw) (x : Nat) (f : Slice → Slice) : Hw := h.setSlice x (f (h.slice x))
def Hw.chain (h : Hw) (x c : Nat) : Chain := kgetD Chain.initial h.chains (8 * x + c)
def Hw.modChain (h : Hw) (x c : Nat) (f : Chain → Chain) : Hw := { h with chains := kput h.chains (8 * x + c) (f (h.chain x c)) }

/-- The number of chains of a slice (R20, R79). -/
def chainsOf (x : Nat) : Nat := if x = 2 then 8 else 4

/-- The mask of all chains of a slice. -/
def chainMask (x : Nat) : Nat := 2 ^ chainsOf x - 1

/-- `f` done on every chain of slice `x`. -/
def Hw.forChains (h : Hw) (x : Nat) (f : Nat → Hw → Hw) : Hw := (List.range (chainsOf x)).foldl (fun h c => f c h) h

/-- The synthesiser states of R94. -/
def synOff : Nat := 0
def synStart : Nat := 1
def synAcquire : Nat := 2
def synSettle : Nat := 3
def synReady : Nat := 4
def synCal : Nat := 5
def synFault : Nat := 6

def Hw.synth (h : Hw) (x : Nat) : Nat := h.get (R.RFS_SYNTH_STATE x)

/-- A slice receives a PPDU: from the instant D to its end (R149 to R154). -/
def Hw.receiving (h : Hw) (x : Nat) : Bool := (h.slice x).rx.phase != .idle

/-- A slice has a PPDU to transmit, until t1 + TR_LAG. -/
def Hw.transmitting (h : Hw) (x : Nat) : Bool := (h.slice x).tx.isSome

/-- The interval t0 − TR_LEAD to t1 + TR_LAG of a PPDU (R114, R126). -/
def Hw.inSetting (h : Hw) (x : Nat) : Bool :=
  match (h.slice x).tx with
  | some p => decide (p.t0 ≤ h.et + p.trLead)
  | none => false

/-- Samples of a PPDU reach the ball: t0 to t1. -/
def Hw.onAir (h : Hw) (x : Nat) : Bool :=
  match (h.slice x).tx with
  | some p => decide (p.t0 ≤ h.et) && decide (h.et < p.t1)
  | none => false

/-- The medium is idle from now (R169, R216): a new idle block of the noise floor begins too. -/
def Hw.idleBegins (h : Hw) (x : Nat) : Hw := h.modSlice x fun s => { s with nfFrom := h.et }

/-! ### Coexistence ports (R134 to R140) -/

def CoexPort.initial : CoexPort := ⟨false, false, false, false, false, false, false, 0⟩
def Hw.cx (h : Hw) (n : Nat) : CoexPort := kgetD CoexPort.initial h.coex n
def Hw.modCx (h : Hw) (n : Nat) (f : CoexPort → CoexPort) : Hw := { h with coex := kput h.coex n (f (h.cx n)) }

/-- Coexistence port `n` is in `mode` (1 arbiter, 2 client) and its mask includes slice `x` (R134, R140). -/
def Hw.cxCovers (h : Hw) (n mode x : Nat) : Bool :=
  h.get (R.SYS_CX_CTL_MODE n) == mode && (h.get (R.SYS_CX_CTL_SLICE_MASK n)).testBit x

/-- A recognised level of LIVE: 0 REQ, 1 GRANT, 2 PRIO, 3 TXACT (R140). -/
def Hw.setCxLevel (h : Hw) (n b : Nat) (v : Bool) : Hw := h.setFlag ⟨R.SYS_CX_STAT n, b, 1⟩ v

/-- Every client port drives TXACT high while a PAEN of a masked slice is (R134, R135). -/
def Hw.driveTxact (h : Hw) : Hw :=
  (List.range 3).foldl (fun (h : Hw) n =>
    if h.get (R.SYS_CX_CTL_MODE n) = 2 then
      let on := (List.range 3).any fun x => h.cxCovers n 2 x && (h.slice x).paen != 0
      (h.modCx n fun p => { p with txact := on }).setCxLevel n 3 on
    else h) h

/-! ### Front-end control lines -/

/-- The settings Off, Receive-isolated and Receive of R113. -/
def Hw.linesOff (h : Hw) (x : Nat) : Hw :=
  (h.modSlice x fun s => { s with femEn := false, trsw := 0, lnaen := 0, paen := 0 }).driveTxact
def Hw.linesIsolated (h : Hw) (x : Nat) : Hw :=
  (h.modSlice x fun s => { s with femEn := true, trsw := chainMask x, lnaen := 0, paen := 0 }).driveTxact
def Hw.linesReceive (h : Hw) (x : Nat) : Hw :=
  (h.modSlice x fun s => { s with femEn := true, trsw := 0, lnaen := chainMask x, paen := 0 }).driveTxact

/-- The setting of a slice that is not transmitting, from its function and synthesiser state (R113). -/
def Hw.linesAtRest (h : Hw) (x : Nat) : Hw :=
  let st := h.get (R.RFS_FSTAT_STATE x)
  if st = stClosed then h.linesOff x
  else if st = stOpening || h.synth x != synReady then h.linesIsolated x
  else h.linesReceive x

/-! ### Ends of receptions and transmissions -/

/-- The aerial a chain listens on between receptions (R117, R119): a chain in a fixed mode is on its aerial, which is
then CUR (DEDUCED, log 51). -/
def Hw.idleAerial (h : Hw) (x c : Nat) : Hw :=
  let m := h.get (R.RFS_DIV_MODE x c)
  let h := if m = 2 then h else h.set (R.RFS_DIV_CUR x c) m
  h.modChain x c fun ch => { ch with frozen := false, diversity := false, aerial := h.get (R.RFS_DIV_CUR x c) }

/-- Every chain of a slice holds its idle gain and listens on its idle aerial, unfrozen (R122, R123). -/
def Hw.idleGain (h : Hw) (x : Nat) : Hw :=
  h.forChains x fun c h =>
    (h.set (R.RFS_GAIN_G_CUR x c) (min (h.get (R.RFS_GAIN_G_IDLE x c)) (h.get (R.RFS_GAIN_G_CAP x c)))).idleAerial x c

/-- No part of the aerial and gain timeline or of a reception runs. -/
def Hw.stopTimeline (h : Hw) (x : Nat) : Hw :=
  (((((((h.stop (.divSwitch x)).stop (.divDecision x)).stop (.fixedWindow x)).stop (.qualifier x)).stop (.qualEval x)).stop
    (.reception x)).stop (.lltf x))

/-- Slices B and C form an NSTR pair (R144, R192); the other slice of the pair. -/
def Hw.nstrPartner (h : Hw) (x : Nat) : Option Nat :=
  if x = 0 ∨ h.flag (R.RFS_STR_STAT_STR_OK 1) then none else some (if x = 1 then 2 else 1)

/-- The NSTR partner of a slice transmits: energy at the slice is disregarded (R216). -/
def Hw.partnerOnAir (h : Hw) (x : Nat) : Bool :=
  match h.nstrPartner x with
  | some y => h.inSetting y
  | none => false

/-- A reception so far has shown energy only. -/
def RxPhase.energyOnly (p : RxPhase) : Bool := p == .timeline || p == .qualifying

/-- The modem of a slice is idle again; nothing of the reception is delivered (R158). Energy without a preamble during
the partner's own transmission leaves the idle time of the medium as it was (R216). -/
def Hw.dropReception (h : Hw) (x : Nat) : Hw :=
  let s := h.slice x
  let now := if h.receiving x && !(s.rx.phase.energyOnly && h.partnerOnAir x) then h.et else s.idleFrom
  (((h.stopTimeline x).modSlice x fun s => { s with rx := Reception.none, idleFrom := now }).idleGain x).idleBegins x

/-- The 16 samples over which a PPDU ramps to zero, in nanoseconds (R79, R96). -/
def rampNs (x : Nat) : Nat := match x with | 0 => 80 | 1 => 64 | _ => 35

/-- A PPDU of a slice ends with a status for Welt (R77, R96, R128, R136): it ramps to zero over 16 samples and the lags
of R114 follow. One whose transmit setting has not begun is simply not sent; one whose last sample has left the ball is
complete, and ends as it would (DEDUCED, log 45). -/
def Hw.endTransmission (h : Hw) (x : Nat) (st : TxStatus) : Hw :=
  match (h.slice x).tx with
  | none => h
  | some p =>
    if p.t1 ≤ h.et then h
    else
      let h := if p.response then h else { h with txStatus := kput h.txStatus x st }
      let begun := h.inSetting x
      let h := (((h.stop (.trLead x)).stop (.paLead x)).stop (.mismatch x)).stop (.tbStart x)
      if begun then
        let t1 := if h.et < p.t0 then h.et else min p.t1 (h.et + rampNs x)
        let h := h.modSlice x fun s => { s with tx := some { p with t1 := t1 } }
        (h.startAt (.paLag x) (t1 + p.paLag)).startAt (.trLag x) (t1 + p.trLag)
      else ((h.stop (.paLag x)).stop (.trLag x)).modSlice x fun s => { s with tx := none }

/-- A held command fails with a status (R98, R138); its frames return without counting as a retry. -/
def Hw.failHeld (h : Hw) (x : Nat) (st : TxStatus) : Hw :=
  let response := (h.slice x).held.any fun c => c.ppdu.response
  let h := (h.stop (.hold x)).modSlice x fun s => { s with held := none }
  if response then h else { h with txStatus := kput h.txStatus x st }

/-! ### Noise floor -/

/-- Every noise-floor average of a slice restarts and every NF reads invalid (R170). -/
def Hw.restartNoiseFloor (h : Hw) (x : Nat) : Hw :=
  let h := (List.range 16).foldl (fun h s => (h.set (R.PHY_NF_NF x s) 0x800).set (R.PHY_NF_BLOCKS x s) 0) h
  h.modSlice x fun s => { s with nfSums := [] }

/-! ### NCO words -/

/-- The converter rates in MHz: ADC and DAC (R79). -/
def adcMHz (x : Nat) : Nat := match x with | 0 => 3200 | 1 => 4000 | _ => 3720
def dacMHz (x : Nat) : Nat := 2 * adcMHz x

/-- The Nyquist zone of `fc` and its alias, both in kHz (R90). -/
def zoneOf (x fc : Nat) : Nat := fc / (adcMHz x * 500) + 1
def aliasOf (x fc : Nat) : Nat :=
  let n := zoneOf x fc
  if n % 2 = 1 then fc - (n - 1) * (adcMHz x * 500) else n * (adcMHz x * 500) - fc

/-- The NCO words of a channel centre `fc` in kHz, as R90 computes them. -/
def ncoRxWord (x fc : Nat) : Nat := roundDiv (aliasOf x fc * 2 ^ 48) (adcMHz x * 1000)
def ncoTxWord (x fc : Nat) : Nat :=
  roundDiv ((if x = 0 then fc else dacMHz x * 1000 - fc) * 2 ^ 48) (dacMHz x * 1000)

/-- The band edges of a slice in kHz (R79). -/
def bandLo (x : Nat) : Nat := match x with | 0 => 2400000 | 1 => 5150000 | _ => 5925000
def bandHi (x : Nat) : Nat := match x with | 0 => 2483500 | 1 => 5895000 | _ => 7125000

/-- `w` lies between the words of the two band edges, in either order (R91). -/
def betweenWords (a b w : Nat) : Bool := decide (min a b ≤ w) && decide (w ≤ max a b)

/-- The staged words are valid (R91). -/
def ncoValid (x rx tx : Nat) : Bool :=
  betweenWords (ncoRxWord x (bandLo x)) (ncoRxWord x (bandHi x)) rx &&
  betweenWords (ncoTxWord x (bandLo x)) (ncoTxWord x (bandHi x)) tx

def Hw.stagedRx (h : Hw) (x : Nat) : Nat := h.get (R.RFS_NCO_RX_LO_W_RX_LO x) + 2 ^ 32 * h.get (R.RFS_NCO_RX_HI_W_RX_HI x)
def Hw.stagedTx (h : Hw) (x : Nat) : Nat := h.get (R.RFS_NCO_TX_LO_W_TX_LO x) + 2 ^ 32 * h.get (R.RFS_NCO_TX_HI_W_TX_HI x)
def Hw.activeRx (h : Hw) (x : Nat) : Nat :=
  h.get (R.RFS_NCO_RX_ACT_LO_W_RX_LO x) + 2 ^ 32 * h.get (R.RFS_NCO_RX_ACT_HI_W_RX_HI x)

def Hw.activeTx (h : Hw) (x : Nat) : Nat :=
  h.get (R.RFS_NCO_TX_ACT_LO_W_TX_LO x) + 2 ^ 32 * h.get (R.RFS_NCO_TX_ACT_HI_W_TX_HI x)

/-- The accumulators after `n` ADC samples (R88). -/
def ncoRxAfter (acc w n : Nat) : Nat := (acc + n * w) % 2 ^ 48
def ncoTxAfter (acc w n : Nat) : Nat := (acc + n * (2 * w)) % 2 ^ 48

/-- The ADC samples since the accumulators last stood still: the sample clock runs in READY alone (R88, R94). -/
def Hw.ncoSamples (h : Hw) (x : Nat) : Nat :=
  if h.synth x = synReady then (h.et - (h.slice x).ncoAt) * adcMHz x / 1000 else 0

/-- The receive and the transmit accumulator now. -/
def Hw.ncoNow (h : Hw) (x : Nat) : Nat × Nat :=
  let s := h.slice x
  (ncoRxAfter s.ncoRx (h.activeRx x) (h.ncoSamples x), ncoTxAfter s.ncoTx (h.activeTx x) (h.ncoSamples x))

/-- The phases that the mixers take now, truncated to 20 bits: the receive phase and the two transmit phases of the
step (R88). -/
def Hw.ncoPhases (h : Hw) (x : Nat) : Nat × Nat × Nat :=
  let (rx, tx) := h.ncoNow x
  (rx / 2 ^ 28, tx / 2 ^ 28, (tx + h.activeTx x) % 2 ^ 48 / 2 ^ 28)

/-- The accumulators stand as they are now. -/
def Hw.settleNco (h : Hw) (x : Nat) : Hw :=
  let (rx, tx) := h.ncoNow x
  h.modSlice x fun s => { s with ncoRx := rx, ncoTx := tx, ncoAt := h.et }

/-- The synthesiser enters a state; the sample clock, and the accumulators with it, start or stop (R94). -/
def Hw.synthTo (h : Hw) (x st : Nat) : Hw := (h.settleNco x).set (R.RFS_SYNTH_STATE x) st

/-! ### Simultaneous transmit and receive -/

/-- The channel centre of a slice in units of 2^-48 MHz, from the active receive word (R81, R90, R144). -/
def Hw.centre (h : Hw) (x : Nat) : Int :=
  let w : Int := (h.activeRx x : Int) * (adcMHz x : Int)
  match x with
  | 0 => 3200 * 2 ^ 48 - w
  | 1 => 4000 * 2 ^ 48 + w
  | _ => 7440 * 2 ^ 48 - w

/-- Half the operating width of a slice in MHz (R132). -/
def Hw.halfWidth (h : Hw) (x : Nat) : Int := 10 * 2 ^ h.get (R.RFS_FE_CTL_OP_BW x)

/-- SEP in MHz (R144): the least of the gaps between the operating channels of B and C and their mirrored images; a
term whose channel part lies wholly outside its mirrored zone is left out. -/
def Hw.separation (h : Hw) : Int :=
  let m : Int := 2 ^ 48
  let lb := h.centre 1 - h.halfWidth 1 * m
  let ub := h.centre 1 + h.halfWidth 1 * m
  let lc := h.centre 2 - h.halfWidth 2 * m
  let uc := h.centre 2 + h.halfWidth 2 * m
  let d := lc - ub
  let d := if 6000 * m < uc then min d (lb - (12000 * m - uc)) else d
  let d := if lb < 5580 * m then min d (lc - (11160 * m - lb)) else d
  d / m

/-- Whether the canceller is enabled on every working chain of slice `x` (R144). -/
def Hw.cancellersOn (h : Hw) (x : Nat) : Bool :=
  (List.range (chainsOf x)).all fun c =>
    !((h.get (R.RFS_CAL_STAT_CHAIN_OK x)).testBit c) || h.flag (R.RFS_CANC_CTL_EN x c)

/-- STR_OK of slices B and C is set anew (R144, R147). Each of the two status registers has a CHG_EV of its own (DESIGN
CHOICE, log 51). -/
def Hw.updateStr (h : Hw) : Hw :=
  let sep := h.separation
  let f1 := decide (sep < 160)
  let f2 := decide (min (h.get (R.RFS_FE_CTL_ISO 1)) (h.get (R.RFS_FE_CTL_ISO 2)) < 80)
  let f3 := !(h.cancellersOn 1 && h.cancellersOn 2)
  let ok := !f1 && !f2 && !f3
  let one (h : Hw) (x : Nat) : Hw :=
    let h := if h.flag (R.RFS_STR_STAT_STR_OK x) != ok then h.set (R.RFS_STR_STAT_CHG_EV x) 1 else h
    ((((h.setFlag (R.RFS_STR_STAT_STR_OK x) ok).setFlag (R.RFS_STR_STAT_SEP_FAIL x) f1).setFlag
      (R.RFS_STR_STAT_ISO_FAIL x) f2).setFlag (R.RFS_STR_STAT_CANC_FAIL x) f3).setI (R.RFS_STR_STAT_SEP x) sep
  one (one h 1) 2

/-- STR_OK is set anew where the change is one of slice B or C. -/
def Hw.updateStrOf (h : Hw) (x : Nat) : Hw := if x = 0 then h else h.updateStr

/-- The shift that carries the centre of the aggressor into the baseband of victim `x` through the aliasing relations of
R81, in units of 2^-48 MHz: a channel of C mirrors about 6,000 MHz into B, one of B about 5,580 MHz into C (R141). -/
def Hw.leakShift (h : Hw) (x : Nat) : Int :=
  if x = 1 then 12000 * 2 ^ 48 - h.centre 2 - h.centre 1 else 11160 * 2 ^ 48 - h.centre 1 - h.centre 2

/-- A coefficient of one chain's canceller, and its register, which presents the top 16 bits (R142). -/
def Hw.coef (h : Hw) (x c k : Nat) : Cx := kgetD ⟨0, 0⟩ (h.chain x c).coefs k
def Hw.setCoef (h : Hw) (x c k : Nat) (v : Cx) : Hw :=
  (h.modChain x c fun ch => { ch with coefs := kput ch.coefs k v }).setWord (R.RFS_CANC_COEF x c k)
    (BitVec.ofNat 32 (unsignedOf 16 (coefTop v.re) + 2 ^ 16 * unsignedOf 16 (coefTop v.im)))

/-- A write of a coefficient stores its value in the top 16 bits and zeroes the low 8 (R142). -/
def Hw.writeCoef (h : Hw) (x c k : Nat) (v : Word) : Hw :=
  (h.modChain x c fun ch => { ch with coefs := kput ch.coefs k ⟨256 * signedOf 16 (bitsOf v 0 16), 256 * signedOf 16 (bitsOf v 16 16)⟩ }).setWord
    (R.RFS_CANC_COEF x c k) v

/-- The coefficients of one chain's canceller are zero (R142). -/
def Hw.zeroCanceller (h : Hw) (x c : Nat) : Hw :=
  (List.range 64).foldl (fun (h : Hw) k => h.setWord (R.RFS_CANC_COEF x c k) 0)
    (h.modChain x c fun ch => { ch with coefs := [] })

/-- A retune of B or C zeroes the cancellers of both (R142). -/
def Hw.zeroCancellers (h : Hw) : Hw :=
  (h.forChains 1 fun c h => h.zeroCanceller 1 c).forChains 2 fun c h => h.zeroCanceller 2 c

/-! ### Retuning -/

/-- Words are applied (R92): the accumulators are zero, the active words are replaced, PEND clears, and the slice
receives and transmits again 2 µs later; noise floors restart, and B and C lose their cancellers' coefficients. -/
def Hw.applyWords (h : Hw) (x rx tx : Nat) : Hw :=
  let h := h.modSlice x fun s => { s with retune := none, ncoRx := 0, ncoTx := 0, ncoAt := h.et }
  let h := (h.set (R.RFS_NCO_RX_ACT_LO_W_RX_LO x) rx).set (R.RFS_NCO_RX_ACT_HI_W_RX_HI x) (rx / 2 ^ 32)
  let h := (h.set (R.RFS_NCO_TX_ACT_LO_W_TX_LO x) tx).set (R.RFS_NCO_TX_ACT_HI_W_TX_HI x) (tx / 2 ^ 32)
  let h := (h.set (R.RFS_RETUNE_PEND x) 0).start (.retune x) 2000
  let h := h.restartNoiseFloor x
  if x = 0 then h else h.zeroCancellers.updateStr

/-- The pending retune is applied, if there is one. -/
def Hw.applyRetune (h : Hw) (x : Nat) : Hw :=
  match (h.slice x).retune with
  | some (rx, tx) => h.applyWords x rx tx
  | none => h

/-! ### Links (R188), the medium (R216) and the occurrence in progress (R217) -/

/-- A link is available (R188). -/
def Hw.linkAvailable (h : Hw) (x : Nat) : Bool :=
  h.get (R.RFS_FSTAT_STATE x) == stOpen && h.synth x == synReady && (h.slice x).cal.isNone && !h.running (.retune x) &&
  ((List.range (chainsOf x)).any fun c => !h.flag (R.RFS_VSWR_TX_OFF x c)) &&
  !((List.range 3).any fun n => h.cxCovers n 1 x && (h.cx n).grant)

/-- The medium of link `x` is idle (R216): no reception, no energy at the threshold, no transmission of its own, no
declared time left; energy is disregarded while the NSTR partner transmits. -/
def Hw.mediumIdle (h : Hw) (x : Nat) : Bool :=
  let s := h.slice x
  (!h.receiving x || (s.rx.phase.energyOnly && h.partnerOnAir x)) && (!s.energy || h.partnerOnAir x) &&
  !h.transmitting x && decide (s.busyUntil ≤ h.et)

/-- The instant from which the medium has been idle. -/
def Hw.idleSince (h : Hw) (x : Nat) : Nat := max (h.slice x).idleFrom (h.slice x).busyUntil

def LastSlice.initial : LastSlice := ⟨false, none, 0, 0, 0, false, [], none⟩
def Hw.lastOf (h : Hw) (l : Nat) : LastSlice := kgetD LastSlice.initial h.last l
def Hw.modLast (h : Hw) (l : Nat) (f : LastSlice → LastSlice) : Hw := { h with last := kput h.last l (f (h.lastOf l)) }
def Hw.modOcc (h : Hw) (l : Nat) (f : Occurrence → Occurrence) : Hw := h.modLast l fun s => { s with occ := s.occ.map f }

/-- The type of an occurrence's entry (R211), and whether it is a reserved period for stations (R213). -/
def Occurrence.type (o : Occurrence) : Nat := (o.words[0]?).getD 0 / 2 ^ 24 % 8
def Occurrence.reserved (o : Occurrence) : Bool := decide (o.type ≤ 2)

/-- A foreign transmission or a busy medium in the occurrence of link `l` counts once (R217). -/
def Hw.noteForeign (h : Hw) (l : Nat) : Hw :=
  match (h.lastOf l).occ with
  | some o =>
    if o.foreign || !(o.phase == .check || o.phase == .committed || o.phase == .serving) then h
    else (h.modOcc l fun o => { o with foreign := true }).bump (R.LAST_CNT_0_FOREIGN l)
  | none => h

/-- A calibration that runs in a reserved occurrence of link `l` counts once (R217). -/
def Hw.noteOverlap (h : Hw) (l : Nat) : Hw :=
  match (h.lastOf l).occ with
  | some o =>
    if o.overlap || !o.reserved then h
    else (h.modOcc l fun o => { o with overlap := true }).bump (R.LAST_CNT_1_CAL_OVERLAP l)
  | none => h

def WeltLink.initial : WeltLink := ⟨false, 0, false, [], none, none, none⟩
def Hw.weltLink (h : Hw) (l : Nat) : WeltLink := kgetD WeltLink.initial h.welt.links l
def Hw.modWeltLink (h : Hw) (l : Nat) (f : WeltLink → WeltLink) : Hw :=
  { h with welt := { h.welt with links := kput h.welt.links l (f (h.weltLink l)) } }

/-! ### Slices on their way to Open and Closed -/

/-- The synthesiser goes to START without lock (R95, R105): its 60 µs begin. -/
def Hw.synthStart (h : Hw) (x : Nat) : Hw :=
  let h := (h.synthTo x synStart).set (R.RFS_SYNTH_LOCKED x) 0
  (h.modSlice x fun s => { s with acqFailed := false }).start (.synth x) 60000

/-- CAL_STAT.STATE from what runs and what waits (R110). -/
def Hw.calState (h : Hw) (x : Nat) : Hw :=
  let s := h.slice x
  h.set (R.RFS_CAL_STAT_STATE x)
    (if s.cal.isSome then 2 else if s.calWaits.isSome || h.flag (R.RFS_CAL_STAT_REQ_TEMP x) then 1 else 0)

/-- A slice enters Closed (R93, R95, R170): the synthesiser is off, a pending retune is discarded, receptions and
calibrations are gone and the lines are off. A PPDU whose samples have all left the ball was sent. -/
def Hw.sliceClosed (h : Hw) (x : Nat) : Hw :=
  let h := match (h.slice x).tx, kget h.txStatus x with
    | some p, none => if p.t1 ≤ h.et ∧ !p.response then { h with txStatus := kput h.txStatus x .sent } else h
    | _, _ => h
  let h := (h.synthTo x synOff).set (R.RFS_SYNTH_LOCKED x) 0
  let h := (((h.stop (.synth x)).stop (.retune x)).stop (.hold x)).stop (.tbStart x)
  let h := (h.set (R.RFS_RETUNE_PEND x) 0).dropReception x
  let h := ((((h.stop (.trLead x)).stop (.paLead x)).stop (.paLag x)).stop (.trLag x)).stop (.mismatch x)
  let h := h.modSlice x fun s =>
    { s with retune := none, tx := none, held := none, cal := none, calWaits := none, calWindow := none, energy := false }
  (((h.drainConverters x).calState x).restartNoiseFloor x).linesOff x

end Sys2Proof.Machine
end

