-- ==== Sys2Proof/Machine/Exchange.lean ====
section
/-!
DEFINITION. The records of Welt's frame exchanges (R190 to R194, R201): MPDUs by frame, the exchange of each link, its end
and the return of its frames, and the responses of a link.
-/
namespace Sys2Proof.Machine

/-! ### MPDUs -/

def Hw.mpdu (h : Hw) (id : Nat) : Option Mpdu := kget h.welt.mpdus id
def Hw.setMpdu (h : Hw) (id : Nat) (m : Mpdu) : Hw := { h with welt := { h.welt with mpdus := kput h.welt.mpdus id m } }
def Hw.forgetMpdu (h : Hw) (id : Nat) : Hw := { h with welt := { h.welt with mpdus := kdel h.welt.mpdus id } }

/-! ### Exchanges -/

def Hw.exchange (h : Hw) (l : Nat) : Option Exchange := kget h.welt.exchanges l
def Hw.setExchange (h : Hw) (l : Nat) (e : Exchange) : Hw :=
  { h with welt := { h.welt with exchanges := kput h.welt.exchanges l e } }

/-- The padding delay of a station's code, in nanoseconds (R179). -/
def padDelay (c : Nat) : Nat := match c with | 0 => 0 | 1 => 32000 | 2 => 64000 | 3 => 128000 | _ => 256000

/-- The transition delay of a station's code, in nanoseconds (R179). -/
def transDelay (c : Nat) : Nat := match c with | 0 => 0 | 1 => 16000 | 2 => 32000 | 3 => 64000 | 4 => 128000 | _ => 256000

/-- A station operates EMLSR (R201). -/
def Hw.emlsr (h : Hw) (s : Nat) : Bool := h.flag (R.STA_W60_EMLSR s)

/-- The stations of an exchange that operate EMLSR stay bound to its link for TRANS after its end (R201). -/
def Hw.bindEmlsr (h : Hw) (l : Nat) (stas : List Nat) : Hw :=
  stas.foldl (fun (h : Hw) s =>
    if h.emlsr s then
      { h with welt := { h.welt with emlsr := kput h.welt.emlsr s (l, h.et + transDelay (h.get (R.STA_W60_TRANS s))) } }
    else h) h

/-- The exchange of a link is over; one that went on air leaves its EMLSR stations bound (R201). -/
def Hw.endExchange (h : Hw) (l : Nat) : Hw :=
  let h := match h.exchange l with
    | some e => if e.issued then h.bindEmlsr l e.stas else h
    | none => h
  { h with welt := { h.welt with exchanges := kdel h.welt.exchanges l } }

/-- The queue an MPDU's frame goes back to. -/
def Hw.homeQueue (h : Hw) (l : Nat) (e : Exchange) (m : Mpdu) : Nat :=
  match m.sta with
  | some s => 8 * s + m.tid
  | none => if e.kind == .group then h.get (R.WELT_CFG_GRPQ l) else h.get (R.WELT_CFG_MGMTQ l)

/-- The frames of an exchange return to their queues, in their order. -/
def Hw.returnFrames (h : Hw) (l : Nat) (e : Exchange) : Hw :=
  e.frames.reverse.foldl (fun h id =>
    match h.mpdu id with
    | some m => (h.setMpdu id { m with awaits := false }).putBack (h.homeQueue l e m) id
    | none => h) h

/-- The exchange of link `l` is given up before its PPDU started: its frames return without counting as a retry. -/
def Hw.dropExchange (h : Hw) (l : Nat) : Hw :=
  match h.exchange l with
  | some e => (({ h with welt := { h.welt with exchanges := kdel h.welt.exchanges l } } : Hw)).returnFrames l e
  | none => h

/-- What a slice was to send and has not begun, held or accepted, is withdrawn. -/
def Hw.withdrawTx (h : Hw) (x : Nat) : Hw :=
  let h := (h.stop (.hold x)).modSlice x fun s => { s with held := none }
  if h.transmitting x && !h.inSetting x then
    ((((h.stop (.trLead x)).stop (.paLead x)).stop (.paLag x)).stop (.trLag x)).modSlice x fun s => { s with tx := none }
  else h

/-- A reserved exchange of link `l` whose PPDU has not started is dropped with its occurrence (R214, R224). One that has,
completes. -/
def Hw.dropReserved (h : Hw) (l : Nat) : Hw :=
  match h.exchange l with
  | some e => if e.reserved && !e.awaits && !h.inSetting l && (kget h.txStatus l).isNone then (h.withdrawTx l).dropExchange l else h
  | none => h

/-! ### Responses -/

/-- SIFS of a link in nanoseconds (IEEE 802.11 by band; the manual gives its sum with a slot only: PRESUMED, log 48). -/
def sifs (l : Nat) : Nat := if l = 0 then 10000 else 16000

/-- A response that a link has still to send is not sent (R136, R213). -/
def Hw.cancelResponse (h : Hw) (l : Nat) : Hw :=
  h.modWeltLink l fun w => { w with response := w.response.filter fun r => r.issued }

end Sys2Proof.Machine
end

