-- ==== Sys2Proof/Machine/Synth.lean ====
section
/-!
DEFINITION. The sampling slices (R87 to R111): retuning, the sample-clock synthesiser, temperature and calibration.
-/
namespace Sys2Proof.Machine

/-! ### Retuning -/

/-- GO (R92, R93): an invalid staged word sets RANGE_ERR and clears PEND; valid words become pending, and with the
synthesiser not READY they are applied at once, unless a calibration runs. -/
def Hw.retuneGo (h : Hw) (x : Nat) : Hw :=
  let rx := h.stagedRx x
  let tx := h.stagedTx x
  if ncoValid x rx tx then
    let h := (h.set (R.RFS_RETUNE_PEND x) 1).modSlice x fun s => { s with retune := some (rx, tx) }
    if h.synth x = synReady ∨ (h.slice x).cal.isSome then h else h.applyRetune x
  else
    ((h.set (R.RFS_RETUNE_RANGE_ERR x) 1).set (R.RFS_RETUNE_PEND x) 0).modSlice x fun s => { s with retune := none }

/-- RETUNE_GO (R92). -/
def execRetuneGo (x : Fin 3) (s : State) : Host.Outcome State Fault Refusal := s.effect fun h => h.retuneGo x

/-- RETUNE_APPLY (R92): a pending retune is applied once the slice neither receives nor transmits and no calibration
runs. -/
def execRetuneApply (x : Fin 3) (s : State) : Host.Outcome State Fault Refusal :=
  s.effect fun h =>
    if h.receiving x || h.transmitting x || (h.slice x).cal.isSome then h else h.applyRetune x

/-- RETUNE_SETTLE_END (R92): 2 µs after the apply instant the slice receives and transmits again. -/
def execRetuneSettleEnd (x : Fin 3) (s : State) : Host.Outcome State Fault Refusal :=
  s.effect fun h => h.onTimer (.retune x) fun h => if h.transmitting x then h else h.linesAtRest x

/-! ### The synthesiser -/

/-- SYNTH_START_END (R95): the 60 µs of START end in ACQUIRE, whose timeout is 400 µs. -/
def execSynthStartEnd (x : Fin 3) (s : State) : Host.Outcome State Fault Refusal :=
  s.effect fun h =>
    if h.synth x = synStart then
      h.onTimer (.synth x) fun h => (h.synthTo x synAcquire).start (.synth x) 400000
    else h

/-- SYNTH_LOCK (R95): in ACQUIRE the lock has held for 4 µs; SETTLE lasts 40 µs. -/
def execSynthLock (x : Fin 3) (s : State) : Host.Outcome State Fault Refusal :=
  s.effect fun h =>
    if h.synth x = synAcquire then
      ((h.synthTo x synSettle).set (R.RFS_SYNTH_LOCKED x) 1).start (.synth x) 40000
    else h

/-- The distance of the slice temperature from that of its last calibration, in LSBs of 0.25 °C (R101). -/
def Hw.calDistance (h : Hw) (x : Nat) : Nat := (h.getI (R.RFS_TEMP_T x) - h.getI (R.RFS_CAL_STAT_T_CAL x)).natAbs

/-- A calibration begins (R99, R101, R113): a reception is aborted and counted, the converters are held and the front
end is isolated. A full one in service first starts the synthesiser (`starting`). -/
def Hw.beginCalibration (h : Hw) (x : Nat) (full forced starting : Bool) : Hw :=
  let h := if h.receiving x then (h.dropReception x).bump (R.RFS_EVT_CNT1_RX_ABORT_CAL x) else h
  let h := if forced then h.bump (R.RFS_EVT_CNT1_FORCED_CAL x) else h
  let c : Calibration := ⟨full, forced, h.getI (R.RFS_TEMP_T x), starting⟩
  let h := (if starting then h.synthStart x else h.synthTo x synCal).modSlice x fun s => { s with cal := some c }
  ((h.calState x).linesIsolated x).noteOverlap x

/-- SYNTH_ACQ_TIMEOUT (R95): 400 µs without lock; the first time since START the synthesiser starts again, the second
time it is in FAULT with FAULT_EV. An ACQUIRE that follows a loss of lock in READY belongs to the same START (DEDUCED,
log 45), and a calibration that was starting the synthesiser ends in FAULT without a result (DEDUCED, log 46). -/
def execSynthAcqTimeout (x : Fin 3) (s : State) : Host.Outcome State Fault Refusal :=
  s.effect fun h =>
    if h.synth x = synAcquire then
      h.onTimer (.synth x) fun h =>
        let h := h.bump (R.RFS_SYNTH_ACQ_FAIL_CNT x)
        if (h.slice x).acqFailed then
          let h := (h.synthTo x synFault).set (R.RFS_SYNTH_FAULT_EV x) 1
          match (h.slice x).cal with
          | some _ => (h.modSlice x fun s => { s with cal := none, needFull := true }).calState x
          | none => h
        else
          ((h.synthTo x synStart).modSlice x fun s => { s with acqFailed := true }).start (.synth x) 60000
    else h

/-- SYNTH_SETTLE_END (R93, R95, R99, R100): the sample clock is valid. A full calibration that has started the
synthesiser, or that the Opening owes, goes on in CAL; the first Opening after a wake asks for a drift calibration where
the temperature has moved by THRESH. -/
def execSynthSettleEnd (x : Fin 3) (s : State) : Host.Outcome State Fault Refusal :=
  s.effect fun h =>
    if h.synth x = synSettle then
      h.onTimer (.synth x) fun h =>
        match (h.slice x).cal with
        | some c => (h.synthTo x synCal).modSlice x fun s => { s with cal := some { c with starting := false } }
        | none =>
          if (h.slice x).needFull || !h.flag (R.RFS_CAL_STAT_VALID x) then h.beginCalibration x true false false
          else
            let h := h.synthTo x synReady
            let h := if (h.slice x).woken && decide (4 * h.get (R.RFS_CAL_CTL_THRESH x) ≤ h.calDistance x) then
                h.modSlice x fun s => { s with calWaits := some (false, false) }
              else h
            ((h.calState x).linesAtRest x).idleBegins x
    else h

/-- SYNTH_LOCK_LOST (R95, R96): in READY the lock drops for 1 µs: a reception is aborted, a transmission ends with
SYNTH_LOST, and the synthesiser acquires again. -/
def execSynthLockLost (x : Fin 3) (s : State) : Host.Outcome State Fault Refusal :=
  s.effect fun h =>
    if h.synth x = synReady then
      let h := (h.bump (R.RFS_SYNTH_LOCK_LOST_CNT x)).set (R.RFS_SYNTH_LOCKED x) 0
      let h := (h.synthTo x synAcquire).start (.synth x) 400000
      let h := (h.dropReception x).endTransmission x .synthLost
      if h.transmitting x then h else h.linesAtRest x
    else h

/-- Writing RESTART (R95, R100, R105): in FAULT the synthesiser goes to START and a full calibration is owed. -/
def Hw.synthRestart (h : Hw) (x : Nat) : Hw :=
  if h.synth x = synFault then (h.synthStart x).modSlice x fun s => { s with needFull := true } else h

/-- RESTART (R95, R105). -/
def execRestart (x : Fin 3) (s : State) : Host.Outcome State Fault Refusal := s.effect fun h => h.synthRestart x

/-! ### Calibration -/

/-- A calibration of a kind is asked for at the next idle moment (R101, R102): one running of the same kind or above
absorbs it; a full one asked for outweighs a drift one. -/
def Hw.askCalibration (h : Hw) (x : Nat) (full forced : Bool) : Hw :=
  let s := h.slice x
  let absorbed := match s.cal with
    | some c => c.full || !full
    | none => false
  if absorbed then h
  else
    let w := match s.calWaits with
      | some (f, g) => (f || full, g || forced)
      | none => (full, forced)
    (h.modSlice x fun s => { s with calWaits := some w }).calState x

/-- A write of RFS_x_CAL_CTL (R109): THRESH stores at least 2 and FORCE_THRESH at least 4; FORCE_THRESH at or below
THRESH leaves the register unchanged, sets CFG_ERR, and START has no effect. -/
def Hw.writeCalCtl (h : Hw) (x : Nat) (v : Word) : Hw :=
  let t := max 2 (fieldOf v (R.RFS_CAL_CTL_THRESH x))
  let f := max 4 (fieldOf v (R.RFS_CAL_CTL_FORCE_THRESH x))
  if f ≤ t then h.set (R.RFS_CAL_STAT_CFG_ERR x) 1
  else
    let h := h.writeFields (R.RFS_CAL_CTL x) v
    let h := (h.set (R.RFS_CAL_CTL_THRESH x) t).set (R.RFS_CAL_CTL_FORCE_THRESH x) f
    if fieldOf v (R.RFS_CAL_CTL_START x) = 1 then h.askCalibration x (h.flag (R.RFS_CAL_CTL_KIND x)) false else h

/-- CAL_START (R101, R102, R109). -/
def execCalStart (x : Fin 3) (v : Word) (s : State) : Host.Outcome State Fault Refusal := s.effect fun h => h.writeCalCtl x v

/-- TEMP_SAMPLE (R101, R110): the sensor reads `t` (LSB 2^-8 °C), stored rounded toward minus infinity to 0.25 °C and
saturated. A slice with a T_CAL (VALID, and no full calibration owed; log 46) compares it: reaching THRESH sets REQ_TEMP,
and reaching FORCE_THRESH asks for a forced drift calibration, unless the slice is Closed and has no idle moment to
come. -/
def execTempSample (x : Fin 3) (t : Int) (s : State) : Host.Outcome State Fault Refusal :=
  s.effect fun h => h.onTimer (.temp x) fun h =>
    let h := (h.start (.temp x) 1024000).setI (R.RFS_TEMP_T x) (clampInt (-512) 511 (t / 64))
    if h.flag (R.RFS_CAL_STAT_VALID x) && !(h.slice x).needFull then
      let d := h.calDistance x
      let h := if h.flag (R.RFS_CAL_CTL_TEMP_REQ_EN x) && decide (4 * h.get (R.RFS_CAL_CTL_THRESH x) ≤ d) then
          (h.set (R.RFS_CAL_STAT_REQ_TEMP x) 1).calState x else h
      if h.flag (R.RFS_CAL_CTL_FORCE_EN x) && decide (4 * h.get (R.RFS_CAL_CTL_FORCE_THRESH x) ≤ d) &&
          h.get (R.RFS_FSTAT_STATE x) != stClosed then
        h.askCalibration x false true
      else h
    else h

/-- The longest a drift calibration with reband lasts, in nanoseconds (R99). -/
def driftReband (x : Nat) : Nat := match x with | 0 => 400000 | 1 => 440000 | _ => 640000

/-- CALIBRATION_BEGIN (R99, R101, R218): with the synthesiser in READY and no transmission in progress, the calibration
that waits for the idle moment begins; otherwise a drift calibration requested before the window began begins in a Last
window at least as long as a drift with reband, once the link's exchange has ended. -/
def execCalibrationBegin (x : Fin 3) (s : State) : Host.Outcome State Fault Refusal :=
  s.effect fun h =>
    if h.synth x = synReady ∧ !h.transmitting x then
      match (h.slice x).calWaits, (h.slice x).calWindow with
      | some (full, forced), _ =>
        (h.modSlice x fun s => { s with calWaits := none }).beginCalibration x full forced full
      | none, some stop =>
        if h.flag (R.RFS_CAL_STAT_REQ_TEMP x) && decide (h.et + driftReband x ≤ stop) &&
            (kget h.welt.exchanges x).isNone then
          (h.modSlice x fun s => { s with calWindow := none }).beginCalibration x false false false
        else h
      | none, none => h
    else h

/-- CALIBRATION_COMPLETE (R95, R101, R102, R110): the calibration ends with the chains of `fails` failed: T_CAL,
CHAIN_OK and VALID are set, DONE_EV and, for a failed chain, FAIL_EV; with every chain failed the synthesiser is in
FAULT and VALID is 0. A forced one clears REQ_TEMP; another leaves it only if the difference still reaches THRESH. A
pending retune is applied, and a full calibration that waits behind a drift one begins at once. -/
def execCalibrationComplete (x : Fin 3) (fails : BitVec 8) (s : State) : Host.Outcome State Fault Refusal :=
  s.effect fun h =>
    match (h.slice x).cal with
    | none => h
    | some c =>
      if c.starting then h
      else
        let ok := chainMask x &&& ((255 - fails.toNat : Nat))
        let h := h.modSlice x fun s => { s with cal := none, needFull := s.needFull && !c.full }
        let h := ((h.set (R.RFS_CAL_STAT_DONE_EV x) 1).setI (R.RFS_CAL_STAT_T_CAL x) c.temp).set (R.RFS_CAL_STAT_CHAIN_OK x) ok
        let h := if ok = chainMask x then h else h.set (R.RFS_CAL_STAT_FAIL_EV x) 1
        let h := if ok = 0 then
            ((h.set (R.RFS_CAL_STAT_VALID x) 0).synthTo x synFault).set (R.RFS_SYNTH_FAULT_EV x) 1
          else (h.set (R.RFS_CAL_STAT_VALID x) 1).synthTo x synReady
        let h := if c.forced || decide (h.calDistance x < 4 * h.get (R.RFS_CAL_CTL_THRESH x)) then
            h.set (R.RFS_CAL_STAT_REQ_TEMP x) 0 else h
        let h := ((((h.applyRetune x).updateStrOf x).calState x).linesAtRest x).idleBegins x
        match (h.slice x).calWaits with
        | some (true, forced) =>
          if ok = 0 then h else (h.modSlice x fun s => { s with calWaits := none }).beginCalibration x true forced true
        | _ => h

end Sys2Proof.Machine
end

