-- ==== Sys2Proof/Machine/Last.lean ====
section
/-!
DEFINITION. The Last tables (R208 to R232): banks, validation and amendment, the sequencer of a slice, and the opening
of entries. What Welt places in an entry's first PPDU stands in Welt.lean.
-/
namespace Sys2Proof.Machine

/-! ### Instants of network time -/

/-- `us` microseconds and `ns` nanoseconds as network time (units of 2^-32 ns). -/
def ntOfMicros (us : Nat) : Nat := us * 1000 * 2 ^ 32
def ntOfNanos (ns : Nat) : Nat := ns * 2 ^ 32
/-- A network time and a span after it, modulo the turn (R208, R434). -/
def ntAdd (a d : Nat) : Nat := (a + d) % ntTurn

/-! ### Banks and entries -/

def Hw.lastBase (h : Hw) (l b : Nat) : Nat :=
  (h.get (R.LAST_BASE_S_LO_S_LO l b) + 2 ^ 32 * h.get (R.LAST_BASE_S_HI_S_HI l b)) * ntSecond +
    ntOfNanos (h.get (R.LAST_BASE_NS_NS l b))
def Hw.lastCycle (h : Hw) (l b : Nat) : Nat := h.get (R.LAST_CYCLE_CYCLE l b)
def Hw.lastCount (h : Hw) (l b : Nat) : Nat := h.get (R.LAST_COUNT_COUNT l b)
def Hw.lastActive (h : Hw) (l : Nat) : Nat := h.get (R.LAST_STAT_ACTIVE l)
def Hw.lastRun (h : Hw) (l : Nat) : Bool := h.flag (R.LAST_STAT_RUN l)
def Hw.lastPend (h : Hw) (l : Nat) : Bool := h.flag (R.LAST_STAT_PEND l)

/-- The four words of entry `i` of bank `b` (R211). -/
def Hw.lastWords (h : Hw) (l b i : Nat) : List Nat :=
  [(h.word (R.LAST_E0 l b i)).toNat, (h.word (R.LAST_E1 l b i)).toNat, (h.word (R.LAST_E2 l b i)).toNat,
   (h.word (R.LAST_E3 l b i)).toNat]

/-- The fields of an entry (R211). -/
structure LastEntry where
  start : Nat
  type : Nat
  express : Bool
  dur : Nat
  every : Nat
  phase : Nat
  list : Nat
  nusr : Nat
  tids : Nat
  bw : Nat
  mimo : Bool
  again : Bool
  ulLen : Nat
deriving DecidableEq, Repr

def entryOf (w : List Nat) : LastEntry :=
  let w0 := (w[0]?).getD 0
  let w1 := (w[1]?).getD 0
  let w2 := (w[2]?).getD 0
  let w3 := (w[3]?).getD 0
  { start := w0 % 2 ^ 24, type := w0 / 2 ^ 24 % 8, express := w0.testBit 27, dur := w1 % 2 ^ 16,
    every := w1 / 2 ^ 16 % 256, phase := w1 / 2 ^ 24 % 256, list := w2 % 2 ^ 13, nusr := w2 / 2 ^ 13 % 256,
    tids := w2 / 2 ^ 24 % 256, bw := w3 % 8, mimo := w3.testBit 3, again := w3.testBit 4, ulLen := w3 / 256 % 256 }

def Hw.lastEntry (h : Hw) (l b i : Nat) : LastEntry := entryOf (h.lastWords l b i)

/-- An entry occurs in cycle `k` (R211). -/
def LastEntry.occurs (e : LastEntry) (k : Nat) : Bool := decide (e.every ≤ 1) || k % e.every == e.phase

/-- The entry is a reserved period for stations (R213). -/
def LastEntry.reserved (e : LastEntry) : Bool := decide (e.type ≤ 2)

/-- The most stations an entry may name on slice `l` (R220). -/
def LastEntry.limit (e : LastEntry) (l : Nat) : Nat :=
  match e.type with
  | 0 => 64
  | 1 | 2 =>
    if e.mimo then (if e.type = 1 ∧ l = 2 then 8 else 4)
    else match e.bw with
      | 0 => 9
      | 1 => 18
      | 2 => 37
      | 3 => 74
      | _ => 148
  | _ => 255

/-- The widest channel of slice `l` as a width code (R79, R132). -/
def lastWidest (l : Nat) : Nat := match l with | 0 => 1 | 1 => 3 | _ => 4

/-- Whether an entry fails the check of code `c`, 4 to 11 (R219). -/
def Hw.entryFails (h : Hw) (l cycle : Nat) (e : LastEntry) (c : Nat) : Bool :=
  match c with
  | 4 => decide (cycle < e.start + e.dur)
  | 5 => decide (6 ≤ e.type)
  | 6 => decide (2 ≤ e.every) && decide (e.every ≤ e.phase)
  | 7 => decide (8192 < e.list + e.nusr) || (e.reserved && e.nusr == 0)
  | 8 => decide (e.limit l < e.nusr)
  | 9 => decide (lastWidest l < e.bw) || decide (h.get (R.RFS_FE_CTL_OP_BW l) < e.bw)
  | 10 => decide (e.type ≤ 3) && decide (e.dur < 64)
  | 11 => e.express && !((e.type == 1 || (e.type == 0 && e.nusr == 1)) && e.tids.testBit 7)
  | _ => false

/-- Entry `b` after entry `a` breaks the order of START or begins before `a` ends (R219, code 3). -/
def outOfOrder (a b : LastEntry) : Bool := decide (b.start ≤ a.start) || decide (b.start < a.start + a.dur)

/-- The first failing check of a bank, with its entry (R219): none, if every check passes. -/
def Hw.validateBank (h : Hw) (l b : Nat) : Option (Nat × Nat) :=
  let cycle := h.lastCycle l b
  let n := h.lastCount l b
  if cycle = 0 then some (1, 0)
  else if 4096 < n then some (2, 0)
  else
    match (List.range n).find? fun i => decide (0 < i) && outOfOrder (h.lastEntry l b (i - 1)) (h.lastEntry l b i) with
    | some i => some (3, i)
    | none =>
      [4, 5, 6, 7, 8, 9, 10, 11].findSome? fun c =>
        ((List.range n).find? fun i => h.entryFails l cycle (h.lastEntry l b i) c).map fun i => (c, i)

/-! ### Starting, ending and foreseeing cycles -/

/-- The first start of a bank and its cycle number, `now` being a network time (R209). -/
def Hw.firstStart (h : Hw) (l b now : Nat) : Nat × Nat :=
  let base := h.lastBase l b
  let cyc := ntOfMicros (h.lastCycle l b)
  let d := ntDiff now base
  if d ≤ 0 then (base, 0)
  else
    let k := (d.toNat + cyc - 1) / cyc
    (ntAdd base (k * cyc), k)

/-- CYC reads the cycle number (R230). -/
def Hw.setCycleNumber (h : Hw) (l k : Nat) : Hw := (h.set (R.LAST_CYC_LO_K l) k).set (R.LAST_CYC_HI_K l) (k / 2 ^ 32)

/-- The occurrence in progress ends (R210, R214, R224): a reserved PPDU that has not started is not sent, a calibration
window that was given no calibration counts in CAL_UNUSED (R213, R218; DEDUCED, log 19), and the link returns to
contention time. -/
def Hw.endOccurrence (h : Hw) (l : Nat) : Hw :=
  let h := if (h.slice l).calWindow.isSome then h.bump (R.LAST_CNT_2_CAL_UNUSED l) else h
  let h := (h.modLast l fun s => { s with occ := none }).set (R.LAST_STAT_IN_ENTRY l) 0
  (h.modSlice l fun s => { s with calWindow := none }).dropReserved l

/-- The grid of a bank is taken up at its first start from `now` on, cycle `k` (R209, R230). -/
def Hw.takeGrid (h : Hw) (l b now : Nat) : Hw :=
  let (first, k) := h.firstStart l b now
  (h.modLast l fun s => { s with first := some first, start := first, k := k, next := 0, passed := [] }).setCycleNumber l k

/-- Bank `b` is put into force, its first start counted from `now` (R209, R221): SWAP_EV is set. -/
def Hw.startBank (h : Hw) (l b now : Nat) : Hw :=
  let h := (((h.set (R.LAST_STAT_RUN l) 1).set (R.LAST_STAT_ACTIVE l) b).set (R.LAST_STAT_PEND l) 0).set (R.LAST_STAT_SWAP_EV l) 1
  ((h.endOccurrence l).takeGrid l b now).modLast l fun s => { s with stopping := false }

/-- The active bank restarts after a step of network time (R224): its entry ends, STEP_EV is set and STEP_RESTART
counts. -/
def Hw.lastStep (h : Hw) (l : Nat) : Hw :=
  let h := (h.set (R.LAST_STAT_STEP_EV l) 1).bump (R.LAST_CNT_3_STEP_RESTART l)
  let h := h.endOccurrence l
  if h.lastRun l then h.takeGrid l (h.lastActive l) h.nt else h

/-- The next boundary of the active bank (R208, R221, R224): the start of its next cycle, which is its first start
while that is still to come. -/
def Hw.lastBoundary (h : Hw) (l : Nat) : Nat :=
  let s := h.lastOf l
  if s.first.isSome then s.start else ntAdd s.start (ntOfMicros (h.lastCycle l (h.lastActive l)))

/-- The `j`-th cycle from the next boundary on, as the sequencer foresees it (R218, R221): its bank, start and number. -/
def Hw.cycleFromBoundary (h : Hw) (l j : Nat) : Option (Nat × Nat × Nat) :=
  let s := h.lastOf l
  let b := h.lastActive l
  if s.stopping then none
  else if h.lastPend l then
    let (first, k) := h.firstStart l (1 - b) (h.lastBoundary l)
    some (1 - b, ntAdd first (j * ntOfMicros (h.lastCycle l (1 - b))), k + j)
  else
    some (b, ntAdd (h.lastBoundary l) (j * ntOfMicros (h.lastCycle l b)), (if s.first.isSome then s.k else s.k + 1) + j)

/-- The `j`-th cycle from the one in progress: with the first start still to come, from the next boundary. -/
def Hw.cycleAhead (h : Hw) (l j : Nat) : Option (Nat × Nat × Nat) :=
  if !h.lastRun l then none
  else if (h.lastOf l).first.isSome then h.cycleFromBoundary l j
  else
    match j with
    | 0 => some (h.lastActive l, (h.lastOf l).start, (h.lastOf l).k)
    | j + 1 => h.cycleFromBoundary l j

/-- An entry that `p` takes is to start from now on, and its start lies ahead of now by a time that `q` takes; the
occurrence in progress is none of them. `ns`: how far ahead, in nanoseconds, `q` looks. -/
def Hw.entryAhead (h : Hw) (l ns : Nat) (p : LastEntry → Bool) (q : Int → Bool) : Bool :=
  let shortest := max 1 (min (h.lastCycle l 0) (h.lastCycle l 1))
  let cycles := ns / (1000 * shortest) + 2
  (List.range cycles).any fun j =>
    match h.cycleAhead l j with
    | none => false
    | some (b, start, k) =>
      (List.range (h.lastCount l b)).any fun i =>
        let e := h.lastEntry l b i
        let t := ntAdd start (ntOfMicros e.start)
        let d := ntDiff t h.nt
        p e && e.occurs k && decide (0 ≤ d) && q d && !(h.lastOf l).occ.any fun o => o.start == t

/-- What lasts `ns` nanoseconds from now would end after the start of an entry that `p` takes (R192, R218). -/
def Hw.entryWithin (h : Hw) (l ns : Nat) (p : LastEntry → Bool) : Bool := h.entryAhead l ns p fun d => decide (d < ntOfNanos ns)

/-- An entry that `p` takes starts `ns` nanoseconds from now or sooner (R136 to R138). -/
def Hw.entryNear (h : Hw) (l ns : Nat) (p : LastEntry → Bool) : Bool := h.entryAhead l ns p fun d => decide (d ≤ ntOfNanos ns)

/-- The entries that bound a contention exchange (R218): every one, but a CAL entry only while a drift calibration is
asked for. -/
def Hw.boundsContention (h : Hw) (l : Nat) (e : LastEntry) : Bool := e.type != 5 || h.flag (R.RFS_CAL_STAT_REQ_TEMP l)

/-- A link is in a reserved period for stations now (R136, R213). -/
def Hw.inReserved (h : Hw) (l : Nat) : Bool :=
  match (h.lastOf l).occ with
  | some o => o.reserved && o.phase != .skipped
  | none => false

/-- A link starts no PPDU and sends no response: a QUIET entry is in progress (R213). -/
def Hw.inQuiet (h : Hw) (l : Nat) : Bool :=
  match (h.lastOf l).occ with
  | some o => o.phase == .quiet
  | none => false

/-! ### Commands of the schedule -/

/-- Writing ARM (R219, R222): validation of the inactive bank starts, unless a swap is pending. -/
def Hw.lastArm (h : Hw) (l : Nat) : Hw := if h.lastPend l then h else h.modLast l fun s => { s with arming := true }

/-- ARM (R219). -/
def execArm (l : Fin 3) (s : State) : Host.Outcome State Fault Refusal := s.effect fun h => h.lastArm l

/-- LAST_VALIDATION_DONE (R219, R221): a failing check is recorded with VAL_ERR_EV; a bank that passes is pending, and
starts at once where no bank is active. -/
def execLastValidationDone (l : Fin 3) (s : State) : Host.Outcome State Fault Refusal :=
  s.effect fun h =>
    if (h.lastOf l).arming then
      let h := h.modLast l fun s => { s with arming := false }
      let b := 1 - h.lastActive l
      match h.validateBank l b with
      | some (c, i) => ((h.set (R.LAST_VAL_CODE l) c).set (R.LAST_VAL_INDEX l) i).set (R.LAST_STAT_VAL_ERR_EV l) 1
      | none => if h.lastRun l then h.set (R.LAST_STAT_PEND l) 1 else h.startBank l b h.nt
    else h

/-- Writing DISARM (R222): a pending swap is cancelled. -/
def Hw.lastDisarm (h : Hw) (l : Nat) : Hw := h.set (R.LAST_STAT_PEND l) 0

/-- DISARM (R222). -/
def execDisarm (l : Fin 3) (s : State) : Host.Outcome State Fault Refusal := s.effect fun h => h.lastDisarm l

/-- Writing STOP (R222): the active bank runs to its next boundary; a pending swap is discarded. -/
def Hw.lastStop (h : Hw) (l : Nat) : Hw :=
  (h.set (R.LAST_STAT_PEND l) 0).modLast l fun s => { s with stopping := h.lastRun l }

/-- STOP (R222). -/
def execStop (l : Fin 3) (s : State) : Host.Outcome State Fault Refusal := s.effect fun h => h.lastStop l

/-- LAST_BANK_START (R209): the first start of the bank in force arrives, no stop and no swap taking its place. -/
def execLastBankStart (l : Fin 3) (s : State) : Host.Outcome State Fault Refusal :=
  s.effect fun h =>
    match (h.lastOf l).first with
    | some t =>
      if (h.lastOf l).stopping || h.lastPend l then h
      else h.atNt t fun h => (h.modLast l fun s => { s with first := none, next := 0 }).setCycleNumber l (h.lastOf l).k
    | none => h

/-- LAST_CYCLE_BOUNDARY (R221, R222): the next boundary of the active bank arrives: a stop leaves no bank active, a
pending bank starts, and otherwise the next cycle begins. -/
def execLastCycleBoundary (l : Fin 3) (s : State) : Host.Outcome State Fault Refusal :=
  s.effect fun h =>
    let st := h.lastOf l
    if h.lastRun l && (st.first.isNone || st.stopping || h.lastPend l) then
      let next := h.lastBoundary l
      h.atNt next fun h =>
        let h := h.endOccurrence l
        if st.stopping then
          ((h.set (R.LAST_STAT_RUN l) 0).set (R.LAST_STAT_PEND l) 0).modLast l fun s =>
            { s with first := none, stopping := false, passed := [] }
        else if h.lastPend l then h.startBank l (1 - h.lastActive l) next
        else
          (h.modLast l fun s => { s with start := next, k := s.k + 1, next := 0, passed := s.passed.filter fun p => s.k < p.2 }).setCycleNumber
            l (st.k + 1)
    else h

/-! ### Entries -/

/-- The next entry of the cycle in progress that occurs (R210, R211, R223). -/
def Hw.nextEntry (h : Hw) (l : Nat) : Option (Nat × LastEntry) :=
  let s := h.lastOf l
  let b := h.lastActive l
  ((List.range (h.lastCount l b)).find? fun i =>
    decide (s.next ≤ i) && (h.lastEntry l b i).occurs s.k && !s.passed.contains (i, s.k)).map fun i => (i, h.lastEntry l b i)

/-- PIFS of a link in nanoseconds, and OPEN (R216). -/
def Hw.pifs (h : Hw) (l : Nat) : Nat := if l = 0 then (if h.flag (R.LAST_CTL_LONG_SLOT 0) then 30000 else 19000) else 25000
def Hw.openNs (h : Hw) (l : Nat) : Nat := h.pifs l + 10000

/-- An arbiter port that covers the slice holds GRANT high (R137, R188). -/
def Hw.granted (h : Hw) (x : Nat) : Bool := (List.range 3).any fun n => h.cxCovers n 1 x && (h.cx n).grant

/-- The action of an entry at its start (R137, R213, R216, R217): QUIET, in which no response is sent; CAL; a skip where
the link is unavailable, a grant held counting as a foreign transmission; or the clear check. -/
def Hw.openEntry (h : Hw) (l : Nat) (o : Occurrence) (e : LastEntry) : Hw :=
  let put (h : Hw) (p : OccPhase) : Hw := h.modLast l fun s => { s with occ := some { o with phase := p } }
  match e.type with
  | 4 => (put h .quiet).cancelResponse l
  | 5 =>
    let h := put h .open
    if h.flag (R.RFS_CAL_STAT_REQ_TEMP l) && decide (driftReband l ≤ 1000 * e.dur) then
      h.modSlice l fun s => { s with calWindow := some (h.et + 1000 * e.dur) }
    else h.bump (R.LAST_CNT_2_CAL_UNUSED l)
  | _ =>
    let h := put h .check
    let h := if (h.slice l).cal.isSome then h.noteOverlap l else h
    let h := if e.reserved && h.granted l then h.noteForeign l else h
    if !h.linkAvailable l then (h.modOcc l fun o => { o with phase := .skipped }).bump (R.LAST_CNT_0_SKIP_UNAVAIL l)
    else
      let h := match h.nstrPartner l with
        | some y =>
          if e.reserved && h.receiving y then (h.dropReception y).bump (R.WELT_CNT_1_NSTR_COLLIDE y) else h
        | none => h
      if h.mediumIdle l then h else h.noteForeign l

/-- LAST_ENTRY_START (R192, R212, R213, R216, R217): the next occurrence of the cycle starts, and its list is latched. -/
def execLastEntryStart (l : Fin 3) (s : State) : Host.Outcome State Fault Refusal :=
  s.effect fun h =>
    let st := h.lastOf l
    if h.lastRun l && st.first.isNone && st.occ.isNone then
      match h.nextEntry l with
      | none => h
      | some (i, e) =>
        let t := ntAdd st.start (ntOfMicros e.start)
        h.atNt t fun h =>
          let b := h.lastActive l
          let list := (List.range e.nusr).map fun n => (h.word (R.LAST_LIST l b (e.list + n))).toNat
          let o : Occurrence :=
            { entry := i, words := h.lastWords l b i, start := t, startEt := h.et, list := list, phase := .check,
              foreign := false, overlap := false, unfit := 0, position := 0 }
          let h := h.modLast l fun s => { s with next := i + 1 }
          let h := (h.set (R.LAST_STAT_ENTRY l) i).set (R.LAST_STAT_IN_ENTRY l) 1
          h.openEntry l o e
    else h

/-- LAST_ENTRY_END (R210): the occurrence reaches START + DUR. -/
def execLastEntryEnd (l : Fin 3) (s : State) : Host.Outcome State Fault Refusal :=
  s.effect fun h =>
    match (h.lastOf l).occ with
    | some o => h.atNt (ntAdd o.start (ntOfMicros (entryOf o.words).dur)) fun h => h.endOccurrence l
    | none => h

/-! ### Amendment -/

/-- The failing code of an amendment of entry `i` of the active bank (R223): codes 4 to 11 on the entry, then code 3
against its neighbours among the entries in use. -/
def Hw.amendCode (h : Hw) (l i : Nat) (e : LastEntry) : Option Nat :=
  let b := h.lastActive l
  let n := h.lastCount l b
  match [4, 5, 6, 7, 8, 9, 10, 11].find? fun c => h.entryFails l (h.lastCycle l b) e c with
  | some c => some c
  | none =>
    if (decide (0 < i) && decide (i < n) && outOfOrder (h.lastEntry l b (i - 1)) e) ||
        (decide (i + 1 < n) && outOfOrder e (h.lastEntry l b (i + 1))) then some 3
    else none

/-- Where the amended entry `i` next occurs (R223): a START that has passed in the cycle in progress takes effect in the
next cycle, and one still ahead in this cycle, though the entry was passed before. One that falls within the occurrence of
the entry itself, which runs to its end under its old content, takes effect in the next cycle (DEDUCED, log 19). -/
def Hw.amendGrid (h : Hw) (l i : Nat) (e : LastEntry) : Hw :=
  let s := h.lastOf l
  let t := ntAdd s.start (ntOfMicros e.start)
  let own := s.occ.any fun o =>
    o.entry == i && decide (ntDiff t (ntAdd o.start (ntOfMicros (entryOf o.words).dur)) < 0)
  let past := s.first.isNone && (own || decide (0 < ntDiff h.nt t))
  h.modLast l fun s =>
    { s with passed := if past then (i, s.k) :: s.passed else s.passed.filter (· != (i, s.k)),
             next := if past then s.next else min s.next i }

/-- An amendment (R223, R298): the result is 0, the failing code, or 12 where no bank is active. -/
def Hw.amend (h : Hw) (l i : Nat) (w : List Nat) : Hw × Nat :=
  if !h.lastRun l then (h.set (R.LAST_STAT_AMEND_ERR l) 1, 12)
  else
    let e := entryOf w
    match h.amendCode l i e with
    | some c => (((h.set (R.LAST_VAL_CODE l) c).set (R.LAST_VAL_INDEX l) i).set (R.LAST_STAT_AMEND_ERR l) 1, c)
    | none =>
      let b := h.lastActive l
      let put (h : Hw) (a n : Nat) : Hw := h.writeFields a (BitVec.ofNat 32 ((w[n]?).getD 0))
      let h := put (put (put (put h (R.LAST_E0 l b i) 0) (R.LAST_E1 l b i) 1) (R.LAST_E2 l b i) 2) (R.LAST_E3 l b i) 3
      (h.amendGrid l i e, 0)

/-- Writing GO (R223): the words of LAST_x_AMEND_W amend entry `i`. -/
def Hw.lastGo (h : Hw) (l i : Nat) : Hw := (h.amend l i ((List.range 4).map fun w => (h.word (R.LAST_AMEND_W l w)).toNat)).1

/-- GO (R223). -/
def execGo (l : Fin 3) (i : Fin 4096) (s : State) : Host.Outcome State Fault Refusal := s.effect fun h => h.lastGo l i

/-! ### Writes of banks -/

/-- A direct write to bank `b` is discarded (R222): the bank is active, or a swap is pending and it is the other one. -/
def Hw.bankLocked (h : Hw) (l b : Nat) : Bool :=
  if b = h.lastActive l then h.lastRun l else h.lastPend l

/-- A register write to an entry, BASE, CYCLE or COUNT of bank `b` (R222, R231). -/
def Hw.writeBank (h : Hw) (l b a : Nat) (v : Word) : Hw :=
  if h.bankLocked l b || (a == R.LAST_BASE_NS l b && decide (999999999 < fieldOf v (R.LAST_BASE_NS_NS l b))) then
    h.set (R.LAST_STAT_CFG_ERR l) 1
  else h.writeFields a v

/-- A register write to a station-list word of bank `b` (R212, R222): the active bank's list may be written. -/
def Hw.writeLastList (h : Hw) (l b a : Nat) (v : Word) : Hw :=
  if b ≠ h.lastActive l ∧ h.lastPend l then h.set (R.LAST_STAT_CFG_ERR l) 1 else h.writeFields a v

/-- A write of LAST_x_CTL (R230): LONG_SLOT exists on slice A only. -/
def Hw.writeLastCtl (h : Hw) (l : Nat) (v : Word) : Hw :=
  let h := if l = 0 then h.set (R.LAST_CTL_LONG_SLOT 0) (fieldOf v (R.LAST_CTL_LONG_SLOT 0)) else h
  if fieldOf v (R.LAST_CTL_STOP l) = 1 then h.lastStop l else h

/-- A write of LAST_x_SWAP (R219, R222): ARM, then DISARM. -/
def Hw.writeLastSwap (h : Hw) (l : Nat) (v : Word) : Hw :=
  let h := if fieldOf v (R.LAST_SWAP_ARM l) = 1 then h.lastArm l else h
  if fieldOf v (R.LAST_SWAP_DISARM l) = 1 then h.lastDisarm l else h

/-- A write of LAST_x_AMEND_CMD (R223). -/
def Hw.writeAmendCmd (h : Hw) (l : Nat) (v : Word) : Hw :=
  if fieldOf v (R.LAST_AMEND_CMD_GO l) = 1 then h.lastGo l (fieldOf v (R.LAST_AMEND_CMD_INDEX l)) else h

/-- The address LASTW writes in bank `b` (R297). -/
def lastwAddr (l b kind word index : Nat) : Nat :=
  match kind with
  | 0 => R.LAST_E0 l b index + 4 * word
  | 1 => R.LAST_LIST l b index
  | _ => R.LAST_BASE_NS l b + 4 * index

/-- LASTW (R297): status 0, or 1 with CFG_ERR where R222, R231 or a validation in progress discards the write. -/
def Hw.lastw (h : Hw) (l kind word index : Nat) (v : Word) : Hw × Nat :=
  let b := 1 - h.lastActive l
  let a := lastwAddr l b kind word index
  if h.lastPend l || (h.lastOf l).arming || (kind == 2 && index == 0 && decide (999999999 < v.toNat % 2 ^ 30)) then
    (h.set (R.LAST_STAT_CFG_ERR l) 1, 1)
  else (h.writeFields a v, 0)

end Sys2Proof.Machine
end

