-- ==== Sys2Proof/Machine/Cache.lean ====
section
/-!
DEFINITION. The caches of the control cores (R458, R459), as everything beyond them sees them: the lines that the shared
L2 holds. It holds every line of an L1, and the cores' caches are coherent with one another, so one store of lines is
what a core reads and writes; no other master's access reads or changes it. A core's access to cacheable memory is
answered by its line (coreAccess), and the line accesses of cores fill lines and write them back (cacheAnswer). The cbo
instructions, which are no command of the table, are the operations at the end.
-/
namespace Sys2Proof.Machine

/-! ### The lines -/

/-- The boot ROM, the general SRAM and DRAM are cacheable (R27, R458). -/
def cacheable (a : Nat) : Bool :=
  decide (a < 0x20000) || (decide (0x11000000 ≤ a) && decide (a < 0x11800000)) ||
    (decide (0x1000000000 ≤ a) && decide (a < 0x1200000000))

/-- 2 MiB of 64-byte lines in 16 ways (R458): the set of line `k`, and the ways of a set. -/
def cacheSet (k : Nat) : Nat := k % 2048
def cacheWays : Nat := 16

/-- The line that holds the byte at `a`, if the caches hold it. -/
def Hw.line (h : Hw) (a : Nat) : Option CacheLine := kget h.shank.lines (a / 64)
def Hw.setLine (h : Hw) (a : Nat) (x : CacheLine) : Hw :=
  { h with shank := { h.shank with lines := kput h.shank.lines (a / 64) x } }
def Hw.dropLine (h : Hw) (a : Nat) : Hw := { h with shank := { h.shank with lines := kdel h.shank.lines (a / 64) } }

/-- A changed line reaches memory and stays, unchanged from memory (R458, R459). -/
def Hw.cleanLine (h : Hw) (a : Nat) : Hw :=
  match h.line a with
  | some x => if x.dirty then (h.storeBytes (a / 64 * 64) x.bytes).setLine a { x with dirty := false } else h
  | none => h

/-- A line is brought in with what memory holds of it. Where its set is full, some line of the set leaves, written back
if it was changed; which one the manual does not say (R458): a free value (log 4). -/
def Hw.fillLine (h : Hw) (a : Nat) (bs : List Byte) : Hw :=
  let set := h.shank.lines.filter fun x => cacheSet x.1 == cacheSet (a / 64)
  let h := if set.length < cacheWays ∨ (h.line a).isSome then h
    else
      let victim := 64 * ((set.map (·.1))[h.freeNat % set.length]?).getD 0
      ((h.cleanLine victim).dropLine victim).drawn
  h.setLine a ⟨bs, false⟩

/-- The answer to a core's access of a cacheable line (R458, R479): a read fills the line, a write leaves it equal to
memory. -/
def Hw.cacheAnswer (h : Hw) (q : Request) (outcome : Nat) (bs : List Byte) : Hw :=
  if q.master < 8 ∧ outcome = 0 ∧ q.size = 64 ∧ cacheable q.addr then
    match q.data with
    | none => h.fillLine q.addr bs
    | some d => if (h.line q.addr).isSome then h.setLine q.addr ⟨d, false⟩ else h
  else h

/-! ### The cores' own operations (R458, R459) -/

/-- An access of less than a line by a core to cacheable memory is its load or store, and goes to the caches (R458). -/
def coreAccess (m a n : Nat) : Bool := decide (m < 8) && decide (n < 64) && cacheable a

/-- What a core loads from cacheable memory: bytes of the cached line. -/
def Hw.coreLoad (h : Hw) (a n : Nat) : List Byte := (((h.line a).map fun x => x.bytes.drop (a % 64)).getD []).take n

/-- A core's store to cacheable memory changes the line alone; the boot ROM takes none (log 8). -/
def Hw.coreStore (h : Hw) (a : Nat) (bs : List Byte) : Hw :=
  if a < 0x20000 then h
  else match h.line a with
  | some x => h.setLine a ⟨x.bytes.take (a % 64) ++ bs ++ x.bytes.drop (a % 64 + bs.length), true⟩
  | none => h

/-- cbo.clean, cbo.inval and cbo.flush on the block of `a`: complete once the line has reached, or been dropped by, the
L2 and the memory beyond it. -/
def Hw.cboClean (h : Hw) (a : Nat) : Hw := h.cleanLine a
def Hw.cboInval (h : Hw) (a : Nat) : Hw := h.dropLine a
def Hw.cboFlush (h : Hw) (a : Nat) : Hw := (h.cleanLine a).dropLine a

end Sys2Proof.Machine
end

