-- ==== Sys2Proof/Machine/Shank.lean ====
section
/-!
DEFINITION. Shank's arbiters: the presentation of an access to its target (R479 to R481, R487), the grant decision
(R485 to R487) and its bookkeeping, and the answer a master gets. The grant itself, with the access it performs, is in
Grant.
-/
namespace Sys2Proof.Machine

/-- An arbiter after main-domain reset: nothing waits, and no master has been granted. -/
def Arbiter.initial : Arbiter := ⟨[], [], 0, none, none, none⟩

def Hw.arbiter (h : Hw) (t : Nat) : Arbiter := kgetD Arbiter.initial h.shank.arbiters t
def Hw.setArbiter (h : Hw) (t : Nat) (a : Arbiter) : Hw := { h with shank := { h.shank with arbiters := kput h.shank.arbiters t a } }

/-! ### The bytes of a frame, as its thread reaches them (R273 to R275) -/

/-- The address of frame byte `o` as thread `t` reaches it: below 128 in its head slot, from there in the buffers. -/
def packetAddr (t : Nat) (f : Frame) (o : Int) : Nat := if o < 128 then headSlot t + (o + 64).toNat else f.addrOf o

/-- The frame offset that the LDP or STP `w` of a thread forms. -/
def AwlThread.packetOffset (th : AwlThread) (w : Word) : Int := (th.reg (raOf w)).toInt + offM w

/-- The head lines that bytes `o` to `o + n` lie in, as a mask (R275). -/
def headLines (o : Int) (n : Nat) : Nat :=
  (List.range n).foldl (fun m i => if o + i < 128 then Nat.lor m (2 ^ ((o + i + 64).toNat / 32)) else m) 0

/-- The first failure of the bytes of an access that lie beyond the head: its address and its BUS code (R272). -/
def Hw.packetFault (h : Hw) (t : Nat) (f : Frame) (o : Int) (n : Nat) (write : Bool) : Option (Nat × Nat) :=
  (List.range n).findSome? fun i =>
    let a := f.addrOf (o + i)
    if o + i < 128 then none
    else match h.memFault (8 + t / 32) a write with
      | 0 => if h.unwritten a 1 write then some (a, 3) else none
      | k => some (a, k)

/-- STP writes its bytes in network order, and marks the head lines among them (R274, R275). -/
def Hw.packetStore (h : Hw) (t : Nat) (w : Word) (f : Frame) (o : Int) : Hw :=
  let bs := bytesBE (accessSize w) ((h.thread t).reg (rdOf w)).toNat
  let h := bs.zipIdx.foldl (fun (h : Hw) (b, i) =>
    (h.markWritten (packetAddr t f (o + i)) 1).setByte (packetAddr t f (o + i)) b) h
  h.modThread t fun th => { th with dirty := Nat.lor th.dirty (headLines o (accessSize w)) }

/-- The value that LDP reads: its bytes in network order (R274). -/
def Hw.packetLoad (h : Hw) (t : Nat) (w : Word) (f : Frame) (o : Int) : Dword :=
  BitVec.ofNat 64 (ofBytesBE ((List.range (accessSize w)).map fun i => h.byte (packetAddr t f (o + i))))

/-- The access that a thread's LDP or STP waits for has been performed. -/
def Hw.packetDone (h : Hw) (t : Nat) (store : Bool) : Hw :=
  let th := h.thread t
  match th.frame with
  | none => h.answer t ⟨0, none, none, 0⟩
  | some id =>
    let o := th.packetOffset th.insn
    if store then (h.packetStore t th.insn (h.frame id) o).answer t ⟨0, none, none, 0⟩
    else h.answer t ⟨rdOf th.insn, some (h.packetLoad t th.insn (h.frame id) o), none, 0⟩

/-! ### Answers -/

/-- The answer to a request (R31, R244, R481): outcome 0 done, 1 decode error, 2 refusal; a failed read brings zero. An
Awl thread finds its load's value, or the code of BUS (a queue, lock or Last operation gives its own result where it is
granted); any other master finds the answer in its place. -/
def Hw.reply (h : Hw) (q : Request) (outcome : Nat) (bs : List Byte) : Hw :=
  match q.thread with
  | some t =>
    match (h.thread t).on with
    | .access rd _ load => h.answer t ⟨rd, if load then some (BitVec.ofNat 64 (ofBytesLE bs)) else none, none, outcome⟩
    | .unit => h.answer t ⟨0, none, none, outcome⟩
    | .packet store => if outcome = 0 then h.packetDone t store else h.answer t ⟨0, none, none, outcome⟩
    | _ => h
  | none =>
    let h := h.cacheAnswer q outcome bs
    let bs := if outcome = 0 then bs else List.replicate q.size 0
    { h with shank := { h.shank with replies := kput h.shank.replies q.master ⟨q.master, q.addr, outcome, bs⟩ } }

/-- A request that fails is logged and answered (R31, R481). -/
def Hw.replyError (h : Hw) (q : Request) (kind : Nat) : Hw :=
  (h.shankError q.master q.addr kind q.data.isSome).reply q (if kind = 2 then 2 else 1) []

/-! ### Presentation -/

/-- The master an idle target parks its grant on (R487). -/
def Hw.parkMaster (h : Hw) (t : Nat) : Option Nat :=
  if h.flag (R.SHK_ARB_CFG_PARK_FIX t) then some (h.get (R.SHK_ARB_CFG_PARK_ID t)) else (h.arbiter t).lastGrant

/-- A request reaches target `t` (R479, R487): it joins the waiting requests; at an idle target the parked master's
access will pass without a decision, and a request of any other master ends the park. -/
def Hw.presentTo (h : Hw) (t : Nat) (q : Request) : Hw :=
  let a := h.arbiter t
  let parked := a.waiting.isEmpty && h.parkMaster t == some q.master
  let ended := a.waiting.map fun r => { r with parked := r.parked && r.master == q.master }
  h.setArbiter t { a with waiting := ended ++ [{ q with parked := parked }] }

/-- A request reaches the target of its address; an address of no target completes at once with a decode error (R31). -/
def Hw.present (h : Hw) (q : Request) : Hw :=
  match targetOf q.addr with
  | none => h.replyError q 1
  | some t => h.presentTo t q

/-- The thread's queue, lock or Last operation is presented to its unit, target `target` (R270, R480). Address 0: no
register stands for it. -/
def Hw.ask (h : Hw) (t : Nat) (w : Word) (target addr : Nat) (write : Bool) : Hw :=
  (h.suspend t w addr .unit).presentTo target
    ⟨8 + t / 32, some t, expressThread t, addr, 8, if write then some [] else none, false, false⟩

/-- A core's load or store of cacheable memory (R458, R479): a line that the caches hold answers it at once, and one that
they do not is asked of its target, whole; the core's access is then made again (DEDUCED, log 41). -/
def Hw.coreAccess (h : Hw) (m a n : Nat) (data : Option (List Byte)) : Hw :=
  match h.line a, data with
  | none, _ => h.present ⟨m, none, false, a / 64 * 64, 64, none, false, false⟩
  | some _, none => h.reply ⟨m, none, false, a, n, none, false, false⟩ 0 (h.coreLoad a n)
  | some _, some bs => (h.coreStore a bs).reply ⟨m, none, false, a, n, data, false, false⟩ 0 []

/-- SHANK_ACCESS (R479, R487): master `m` presents one access at `addr`; `cont` tells that it continues a transfer of
consecutive blocks, which masters 16 to 22 hint while SHK_HINT_EN lets them. A size that R479 does not give, or an
address not aligned to it, is no Shank access; at a register block an access of another alignment is one, and the
block answers it with a decode error (R17, R31). A core's access of less than a line of cacheable memory goes to the
caches (R458). -/
def execShankAccess (m : Fin 27) (addr : BitVec 40) (size : Nat) (data : Option (List Byte)) (cont : Bool) (s : State) :
    Host.Outcome State Fault Refusal :=
  s.effectIf ([1, 2, 4, 8, 32, 64].contains size && (addr.toNat % size == 0 || isRegister addr.toNat) &&
      (data.all fun bs => bs.length == size)) fun h =>
    if coreAccess m addr.toNat size then h.coreAccess m addr.toNat size data
    else h.present ⟨m, none, false, addr.toNat, size, data,
      decide (16 ≤ m.val) && decide (m.val ≤ 22) && cont && (h.word R.SHK_HINT_EN).toNat.testBit m, false⟩

/-! ### The decision -/

/-- The rule a grant is made under (R485), or the parked grant of R487. -/
inductive GrantRule where
  | parked
  | emergency
  | forced
  | express
  | turn
  | rotation
deriving DecidableEq, Repr

/-- A debug-port request is an emergency while a Full debug session is open (R485, R488). -/
def Hw.emergency (h : Hw) (r : Request) : Bool := r.master == 25 && h.get R.ILT_DBG_STAT_LEVEL == 2

/-- An ordinary request: neither an emergency nor express. -/
def Hw.ordinary (h : Hw) (r : Request) : Bool := !h.emergency r && !r.express

/-- The masters in rotation, starting after the one last granted under rule 5 (R485). -/
def Arbiter.rotation (a : Arbiter) : List Nat :=
  let start := match a.lastRotation with
    | some m => m + 1
    | none => 0
  (List.range 27).map fun i => (start + i) % 27

/-- The wait counter of a master (R486). -/
def Arbiter.waitOf (a : Arbiter) (m : Nat) : Nat := kgetD 0 a.waits m

/-- The first ordinary request of master `m` satisfies this. -/
def Hw.ordinaryOf (h : Hw) (m : Nat) (r : Request) : Bool := h.ordinary r && r.master == m

/-- The decision of R485 and R487: the rule and the first request it finds. -/
def Hw.grantChoice (h : Hw) (t : Nat) : Option (GrantRule × Request) :=
  let a := h.arbiter t
  let of (g : GrantRule) (p : Request → Bool) : Option (GrantRule × Request) := (a.waiting.find? p).map fun r => (g, r)
  let inTurn (ms : List Nat) : Option Nat := ms.find? fun m => a.waiting.any (h.ordinaryOf m)
  let forced := if a.window = 0 then
      inTurn (a.rotation.filter fun m => decide (h.get (R.SHK_ARB_CFG_LIMIT t) ≤ a.waitOf m))
    else none
  match of .parked (·.parked), of .emergency h.emergency with
  | some x, _ => some x
  | none, some x => some x
  | none, none =>
    match forced with
    | some m => of .forced (h.ordinaryOf m)
    | none =>
      match of .express (·.express) with
      | some x => some x
      | none =>
        let held := match a.turn with
          | some (m, _ + 1) => of .turn fun r => h.ordinaryOf m r && r.hint
          | _ => none
        match held with
        | some x => some x
        | none =>
          match inTurn a.rotation with
          | some m => of .rotation (h.ordinaryOf m)
          | none => none

/-- `l` without its first entry equal to `r`. -/
def withoutFirst (l : List Request) (r : Request) : List Request :=
  match l with
  | [] => []
  | x :: t => if x = r then t else x :: withoutFirst t r

/-- What a grant leaves in the arbiter (R485 to R487): the request is gone; the counter of every other master with an
ordinary request waiting rises, held at 255, and the granted master's returns to 0; a forced grant opens the window,
and any other moves it on; a rotation grant of a hinted access begins a turn, and a grant of rules 1 to 3 ends one. -/
def Hw.afterGrant (h : Hw) (t : Nat) (g : GrantRule) (r : Request) : Arbiter :=
  let a := h.arbiter t
  let rest := withoutFirst a.waiting r
  let others := (List.range 27).filter fun m => m != r.master && rest.any (h.ordinaryOf m)
  let waits := others.foldl (fun w m => kput w m (min 255 (a.waitOf m + 1))) a.waits
  { waiting := rest
    waits := if r.express then waits else kput waits r.master 0
    window := if g = .forced then h.get (R.SHK_ARB_CFG_WIN t) else a.window - 1
    lastRotation := if g = .rotation then some r.master else a.lastRotation
    lastGrant := some r.master
    turn := match g, a.turn with
      | .rotation, _ => if r.hint && h.get (R.SHK_ARB_CFG_TURN_MAX t) != 0 then some (r.master, h.get (R.SHK_ARB_CFG_TURN_MAX t)) else none
      | .turn, some (m, n) => some (m, n - 1)
      | .parked, some (m, n) => if m = r.master ∧ r.hint ∧ n ≠ 0 then some (m, n - 1) else none
      | _, _ => none }

end Sys2Proof.Machine
end

