-- ==== Sys2Proof/Machine/AwlOps.lean ====
section
/-!
DEFINITION. The Awl instructions (R249 to R265, R270 to R298): one meaning per row. A row names the array thread that
issues; the word is the one at its PC, and nothing happens unless the thread is the one its engine picks (R236) and the
word names the row's instruction.
-/
namespace Sys2Proof.Machine

/-! ### Operands and results -/

/-- The value of RA. -/
def AwlThread.a (th : AwlThread) (w : Word) : Dword := th.reg (raOf w)

/-- The operand b of an arithmetic instruction: RB, or the sign-extended immediate (R251). -/
def AwlThread.b (th : AwlThread) (w : Word) : Dword := if isImm w then immSigned w else th.reg (rbOf w)

/-- The U of ADDS and SUBS, and b with it: a zero-extended immediate when U = 1 (R250, R251). -/
def satU (w : Word) : Bool := if isImm w then w.getLsbD 17 else uOf w
def AwlThread.bSat (th : AwlThread) (w : Word) : Dword := if isImm w && satU w then immZero w else th.b w

/-- The operand b of the logic instructions (R251): AND zero-extended, OR and XOR placed in halfword X. -/
def AwlThread.bAnd (th : AwlThread) (w : Word) : Dword := if isImm w then immZero w else th.reg (rbOf w)
def AwlThread.bOr (th : AwlThread) (w : Word) : Dword := if isImm w then immZero w <<< (16 * xOf w) else th.reg (rbOf w)

/-- The amount of a shift (R257). -/
def AwlThread.amount (th : AwlThread) (w : Word) : Nat := if isImm w then bitsOf w 0 6 else (th.reg (rbOf w)).toNat

/-- F of the arithmetic group: bit 13 of format R, X[0] of an immediate (R250, R251). -/
def flagsOn (w : Word) : Bool := if isImm w then w.getLsbD 16 else fOf w

/-- F of OR and XOR, whose immediates never set flags (R251, R256). -/
def flagsOnOr (w : Word) : Bool := !isImm w && fOf w

/-- A result is written to RD, and the flags where F asks for them (R240). -/
def AwlThread.put (th : AwlThread) (w : Word) (f : Bool) (x : AwlResult) : AwlThread :=
  let th := th.setReg (rdOf w) x.r
  if f then th.setFlags x.z x.n x.c x.v else th

/-- An instruction that only computes. -/
def Hw.alu (h : Hw) (t : Nat) (k : AwlKind) (f : Word → Bool) (op : AwlThread → Word → AwlResult) : Hw :=
  h.issue t k false none fun w h => h.modThread t fun th => th.put w (f w) (op th w)

/-! ### Arithmetic and logic (R253 to R259) -/

def execAdd (t : Fin 256) (s : State) : Host.Outcome State Fault Refusal :=
  s.effect fun h => h.alu t .add flagsOn fun th w => awlAdd (th.a w) (th.b w)
def execAdds (t : Fin 256) (s : State) : Host.Outcome State Fault Refusal :=
  s.effect fun h => h.alu t .adds flagsOn fun th w => awlAdds (satU w) (th.a w) (th.bSat w)
def execSub (t : Fin 256) (s : State) : Host.Outcome State Fault Refusal :=
  s.effect fun h => h.alu t .sub flagsOn fun th w => awlSub (th.a w) (th.b w)
def execSubs (t : Fin 256) (s : State) : Host.Outcome State Fault Refusal :=
  s.effect fun h => h.alu t .subs flagsOn fun th w => awlSubs (satU w) (th.a w) (th.b w)
def execMul (t : Fin 256) (s : State) : Host.Outcome State Fault Refusal :=
  s.effect fun h => h.alu t .mul flagsOn fun th w => awlMul (th.a w) (th.b w)
def execMulh (t : Fin 256) (s : State) : Host.Outcome State Fault Refusal :=
  s.effect fun h => h.alu t .mulh flagsOn fun th w => awlMulh (uOf w) (th.a w) (th.b w)
def execAnd (t : Fin 256) (s : State) : Host.Outcome State Fault Refusal :=
  s.effect fun h => h.alu t .and flagsOn fun th w => awlLogic (th.a w &&& th.bAnd w)
def execOr (t : Fin 256) (s : State) : Host.Outcome State Fault Refusal :=
  s.effect fun h => h.alu t .or flagsOnOr fun th w => awlLogic (th.a w ||| th.bOr w)
def execXor (t : Fin 256) (s : State) : Host.Outcome State Fault Refusal :=
  s.effect fun h => h.alu t .xor flagsOnOr fun th w => awlLogic (th.a w ^^^ th.bOr w)
def execShl (t : Fin 256) (s : State) : Host.Outcome State Fault Refusal :=
  s.effect fun h => h.alu t .shl flagsOn fun th w => awlShift .shl (th.a w) (th.amount w)
def execShr (t : Fin 256) (s : State) : Host.Outcome State Fault Refusal :=
  s.effect fun h => h.alu t .shr flagsOn fun th w => awlShift .shr (th.a w) (th.amount w)
def execShra (t : Fin 256) (s : State) : Host.Outcome State Fault Refusal :=
  s.effect fun h => h.alu t .shra flagsOn fun th w => awlShift .shra (th.a w) (th.amount w)
def execClz (t : Fin 256) (s : State) : Host.Outcome State Fault Refusal :=
  s.effect fun h => h.alu t .clz flagsOn fun th w => awlClz (th.a w)
def execPopc (t : Fin 256) (s : State) : Host.Outcome State Fault Refusal :=
  s.effect fun h => h.alu t .popc flagsOn fun th w => awlPopc (th.a w)

/-- CMP (R240, R253): a subtraction that writes only the flags. -/
def execCmp (t : Fin 256) (s : State) : Host.Outcome State Fault Refusal :=
  s.effect fun h => h.issue t .cmp false none fun w h => h.modThread t fun th =>
    let x := awlSub (th.a w) (th.b w)
    th.setFlags x.z x.n x.c x.v

/-- BFX (R259). -/
def execBfx (t : Fin 256) (s : State) : Host.Outcome State Fault Refusal :=
  s.effect fun h => h.issue t .bfx false none fun w h => h.modThread t fun th =>
    th.setReg (rdOf w) (awlBfx (th.a w) (posOf w) (lenOf w) (sxOf w))

/-- BFI (R259). -/
def execBfi (t : Fin 256) (s : State) : Host.Outcome State Fault Refusal :=
  s.effect fun h => h.issue t .bfi false none fun w h => h.modThread t fun th =>
    th.setReg (rdOf w) (awlBfi (th.reg (rdOf w)) (th.a w) (posOf w) (lenOf w))

/-! ### Branches, calls and returns (R252, R260) -/

/-- A transfer to an address that the check of R260 has passed. -/
def AwlThread.jump (th : AwlThread) (x : Int) : AwlThread := { th with pc := x.toNat }

/-- B.cond. -/
def execBCond (t : Fin 256) (s : State) : Host.Outcome State Fault Refusal :=
  s.effect fun h =>
    let th := h.thread t
    let w := h.fetched t
    let taken := (awlCond (rdOf w) th.z th.n th.c th.v).getD false
    let target : Int := (th.pc : Int) + 4 * offB w
    h.issue t .bcond taken (some target) fun _ h => if taken then h.modThread t (·.jump target) else h

/-- CALL. -/
def execCall (t : Fin 256) (s : State) : Host.Outcome State Fault Refusal :=
  s.effect fun h =>
    let th := h.thread t
    let target : Int := (th.pc : Int) + 4 * offC (h.fetched t)
    h.issue t .call true (some target) fun _ h => h.modThread t fun th => (th.setReg 15 (BitVec.ofNat 64 th.pc)).jump target

/-- RET. -/
def execRet (t : Fin 256) (s : State) : Host.Outcome State Fault Refusal :=
  s.effect fun h =>
    let target : Int := ((h.thread t).a (h.fetched t)).toNat
    h.issue t .ret true (some target) fun _ h => h.modThread t (·.jump target)

/-! ### Loads and stores (R241 to R244) -/

/-- Where an address of a thread leads (R241, R242): to Shank, to local memory, or to a reserved offset. -/
inductive AwlPlace where
  | shank
  | here (a : Nat)
  | reserved
deriving DecidableEq, Repr

/-- The place of an offset of the own cluster window (R29, R242). -/
def windowPlace (t o : Nat) : AwlPlace :=
  if o < 0x20000 ∨ (0x40000 ≤ o ∧ o < 0xA0000) then .here (clusterBase (t / 32) + o) else .reserved

/-- The place of an address (R241). -/
def placeOf (t a : Nat) : AwlPlace :=
  if 0x20800000 ≤ a ∧ a < 0x20900000 then windowPlace t (a - 0x20800000)
  else if 0x20900000 ≤ a ∧ a < 0x20904000 then .here (clusterBase (t / 32) + 0x80000 + t / 4 % 8 * 0x4000 + (a - 0x20900000))
  else if clusterBase (t / 32) ≤ a ∧ a < clusterBase (t / 32) + 0x100000 then windowPlace t (a - clusterBase (t / 32))
  else .shank

/-- The instruction memory of a cluster window (R29). -/
def inInstructionMemory (a : Nat) : Bool := decide (0x20000000 ≤ a) && decide (a < 0x20800000) && decide (a % 0x100000 < 0x20000)

/-- The address a load, store, LDP or STP forms. -/
def AwlThread.formed (th : AwlThread) (w : Word) : Dword := th.a w + BitVec.ofInt 64 (offM w)

/-- A load or store (R241 to R244): the checks in the order of R262, then the local access, or the access presented to
Shank while the thread waits. -/
def Hw.loadStore (h : Hw) (t : Nat) (w : Word) (store : Bool) : Hw :=
  let th := h.thread t
  let n := accessSize w
  let a := (th.formed w).toNat
  if 2 ^ 40 ≤ a then h.raiseAt t excAddr w a 0 0
  else if a % n ≠ 0 then h.raiseAt t excAlign w a 0 0
  else
    match placeOf t a with
    | .reserved => h.raiseAt t excProt w a 0 0
    | .here p =>
      if store then
        if inInstructionMemory p then h.raiseAt t excProt w a 0 0
        else h.setMemLE p n (th.reg (rdOf w)).toNat
      else h.modThread t fun th => th.setReg (rdOf w) (BitVec.ofNat 64 (h.memLE p n))
    | .shank =>
      (h.suspend t w a (.access (rdOf w) n (!store))).present
        ⟨8 + t / 32, some t, expressThread t, a, n, if store then some (bytesLE n (th.reg (rdOf w)).toNat) else none, false, false⟩

def execLd (t : Fin 256) (s : State) : Host.Outcome State Fault Refusal :=
  s.effect fun h => h.issue t .ld false none fun w h => h.loadStore t w false
def execSt (t : Fin 256) (s : State) : Host.Outcome State Fault Refusal :=
  s.effect fun h => h.issue t .st false none fun w h => h.loadStore t w true

/-! ### LDP and STP (R273 to R275) -/

/-- LDP or STP (R273, R274): within the head slot at once; otherwise the bytes beyond it are asked of the target of their
first, as one access of those that lie in its buffer (those of a further buffer go with it; DESIGN CHOICE, log 8). -/
def Hw.packetAccess (h : Hw) (t : Nat) (w : Word) (store : Bool) : Hw :=
  let th := h.thread t
  let n := accessSize w
  let o := th.packetOffset w
  match th.frame with
  | none => h.raiseAt t excNoFrame w 0 0 0
  | some id =>
    let f := h.frame id
    if o < -64 ∨ (f.len : Int) < o + n then h.raiseAt t excPktRange w 0 0 0
    else if o + n ≤ 128 then
      if store then h.packetStore t w f o else h.modThread t fun th => th.setReg (rdOf w) (h.packetLoad t w f o)
    else
      let skip := (128 - o).toNat
      let a := f.addrOf (o + skip)
      let size := min (n - skip) (256 - (o + skip + 64).toNat % 256)
      let bs := ((bytesBE n (th.reg (rdOf w)).toNat).drop skip).take size
      (h.suspend t w a (.packet store)).present
        ⟨8 + t / 32, some t, expressThread t, a, size, if store then some bs else none, false, false⟩

def execLdp (t : Fin 256) (s : State) : Host.Outcome State Fault Refusal :=
  s.effect fun h => h.issue t .ldp false none fun w h => h.packetAccess t w false
def execStp (t : Fin 256) (s : State) : Host.Outcome State Fault Refusal :=
  s.effect fun h => h.issue t .stp false none fun w h => h.packetAccess t w true

/-! ### CRC and HASH (R276, R277) -/

def execCrc (t : Fin 256) (s : State) : Host.Outcome State Fault Refusal :=
  s.effect fun h => h.issue t .crc false none fun w h =>
    let th := h.thread t
    let n := (th.reg (rbOf w)).toNat
    if n = 0 ∨ 8 < n then h.raiseAt t excArg w 0 0 0
    else h.modThread t fun th =>
      th.setReg (rdOf w) ((awlCrc (crcPoly (uOf w)) ((th.reg (rdOf w)).truncate 32) (th.a w) n).zeroExtend 64)

def execHash (t : Fin 256) (s : State) : Host.Outcome State Fault Refusal :=
  s.effect fun h => h.issue t .hash false none fun w h => h.modThread t fun th =>
    th.setReg (rdOf w) (awlHash (th.a w) (th.reg (rbOf w)))

/-! ### Queues (R278 to R281) -/

/-- The targets of R480 that queue, lock and Last operations go to. -/
def queueUnit : Nat := 45
def lockUnit : Nat := 44
def lastUnit : Nat := 60

/-- A long-latency instruction whose result stands ready. -/
def Hw.ready (h : Hw) (t : Nat) (w : Word) (value : Option Dword) (z : Option Bool) : Hw :=
  h.suspend t w 0 (.done ⟨rdOf w, value, z, 0⟩)

/-- QPUSH to a DMA ring (R279). -/
def Hw.pushRing (h : Hw) (t : Nat) (w : Word) (r : Nat) (v : Dword) : Hw :=
  let st := h.ringState r
  let wait (h : Hw) : Hw :=
    if h.privileged t then h.ready t w (some 1) none
    else (h.suspend t w 0 (.push (rdOf w) r v)).setPushers r (h.pushersOf r ++ [t])
  if st = stClosed then h.ready t w (some 2) none
  else if st ≠ stOpen then wait h
  else if h.ringCount r < h.ringSize r then
    match h.ringAppend r v with
    | (h, true) => h.ready t w (some 0) none
    | (h, false) => h.ready t w (some 2) none
  else wait h

/-- QPUSH (R278, R279, R281). -/
def Hw.qpush (h : Hw) (t : Nat) (w : Word) : Hw :=
  let th := h.thread t
  let q := (th.a w).toNat
  let v := th.reg (rbOf w)
  if q < 64 then
    if h.ringMode q ≠ 0 then h.raiseAt t excQid w 0 0 0 else h.pushRing t w q v
  else if isMailbox q || isWorkQueue q then
    if (h.wordsOf q).length < queueDepth q then (h.pushWord q v).ready t w (some 0) none
    else if h.privileged t then h.ready t w (some 1) none
    else (h.suspend t w 0 (.push (rdOf w) q v)).setPushers q (h.pushersOf q ++ [t])
  else h.raiseAt t excQid w 0 0 0

/-- The queues a thread may pull from (R278). -/
def mayPull (t q : Nat) : Bool := q == mailboxOf t || isWorkQueue q

/-- QPULL (R280, R281). -/
def Hw.qpull (h : Hw) (t : Nat) (w : Word) : Hw :=
  let q := ((h.thread t).a w).toNat
  if !mayPull t q then h.raiseAt t excQid w 0 0 0
  else
    match h.pullWord q with
    | (h, some v) => h.ready t w (some v) (some false)
    | (h, none) =>
      if uOf w || h.privileged t then h.ready t w none (some true)
      else (h.suspend t w 0 (.pull (rdOf w) q)).setPullers q (h.pullersOf q ++ [t])

/-- QPEEK (R280). -/
def Hw.qpeek (h : Hw) (t : Nat) (w : Word) : Hw :=
  let q := ((h.thread t).a w).toNat
  if !mayPull t q then h.raiseAt t excQid w 0 0 0
  else
    match h.wordsOf q with
    | v :: _ => h.ready t w (some v) (some false)
    | [] => h.ready t w none (some true)

/-- The queue, lock and Last operations are long-latency accesses of master 8 + c (R270): the thread waits for the grant
of their unit, where they take effect (unitGrant). -/
def execQpush (t : Fin 256) (s : State) : Host.Outcome State Fault Refusal :=
  s.effect fun h => h.issue t .qpush false none fun w h => h.ask t w queueUnit 0 true
def execQpull (t : Fin 256) (s : State) : Host.Outcome State Fault Refusal :=
  s.effect fun h => h.issue t .qpull false none fun w h => h.ask t w queueUnit 0 true
def execQpeek (t : Fin 256) (s : State) : Host.Outcome State Fault Refusal :=
  s.effect fun h => h.issue t .qpeek false none fun w h => h.ask t w queueUnit 0 false

/-! ### Locks (R283, R284, R491, R492) -/

/-- The lock ID of LOCK and UNLOCK. -/
def AwlThread.lockId (th : AwlThread) (w : Word) : Nat := (th.a w).toNat + immOf w

/-- LOCK. -/
def Hw.lockOp (h : Hw) (t : Nat) (w : Word) : Hw :=
  let th := h.thread t
  let i := th.lockId w
  if 1024 ≤ i then h.raiseAt t excLockId w 0 0 0
  else if th.locks.contains i || decide (8 ≤ th.locks.length) then h.raiseAt t excLockState w 0 0 0
  else if !h.lockHeld i then
    let st : Dword := if h.lockBroken i then 1 else 0
    (h.giveLockThread i t).ready t w (some st) none
  else if h.privileged t then h.ready t w (some 2) none
  else (h.suspend t w 0 (.lock (rdOf w) i)).setLockWaiters i (h.lockWaiters i ++ [t])

/-- UNLOCK. -/
def Hw.unlockOp (h : Hw) (t : Nat) (w : Word) : Hw :=
  let th := h.thread t
  let i := th.lockId w
  if 1024 ≤ i then h.raiseAt t excLockId w 0 0 0
  else if !th.locks.contains i then h.raiseAt t excLockState w 0 0 0
  else (h.releaseLock i).suspend t w 0 (.done ⟨0, none, none, 0⟩)

def execLock (t : Fin 256) (s : State) : Host.Outcome State Fault Refusal :=
  s.effect fun h => h.issue t .lock false none fun w h =>
    let i := (h.thread t).lockId w
    h.ask t w lockUnit (if i < 1024 then R.SHK_LOCK_ACQ i else 0) false
def execUnlock (t : Fin 256) (s : State) : Host.Outcome State Fault Refusal :=
  s.effect fun h => h.issue t .unlock false none fun w h =>
    let i := (h.thread t).lockId w
    h.ask t w lockUnit (if i < 1024 then R.SHK_LOCK_REL i else 0) true

/-! ### Time (R271, R285 to R288) -/

/-- The pair in register `r` and the one after, as seconds and subsecond; none: outside the format of R271. -/
def AwlThread.pair (th : AwlThread) (r : Nat) : Option (Nat × Nat) :=
  let s := (th.reg r).toNat
  let n := (th.reg (r + 1)).toNat
  if s < 2 ^ 48 ∧ n < subSecond then some (s, n) else none

/-- A time written to a pair. -/
def AwlThread.setPair (th : AwlThread) (r sec sub : Nat) : AwlThread :=
  (th.setReg r (BitVec.ofNat 64 sec)).setReg (r + 1) (BitVec.ofNat 64 sub)

def execTnow (t : Fin 256) (s : State) : Host.Outcome State Fault Refusal :=
  s.effect fun h => h.issue t .tnow false none fun w h =>
    let n := stampOf h.nt
    h.modThread t fun th => th.setPair (rdOf w) n.sec n.sub

def execTmono (t : Fin 256) (s : State) : Host.Outcome State Fault Refusal :=
  s.effect fun h => h.issue t .tmono false none fun w h => h.modThread t fun th => th.setReg (rdOf w) (BitVec.ofNat 64 h.et)

def execTadd (t : Fin 256) (s : State) : Host.Outcome State Fault Refusal :=
  s.effect fun h => h.issue t .tadd false none fun w h =>
    match (h.thread t).pair (raOf w) with
    | none => h.raiseAt t excTimeFmt w 0 0 0
    | some (sec, sub) => h.modThread t fun th =>
      let (sr, nr, v) := awlTadd sec sub (th.reg (rbOf w)).toInt
      let th := th.setPair (rdOf w) sr nr
      if fOf w then th.setFlags (nr == 0) ((BitVec.ofNat 64 nr).msb) false v else th

def execTcmp (t : Fin 256) (s : State) : Host.Outcome State Fault Refusal :=
  s.effect fun h => h.issue t .tcmp false none fun w h =>
    let th := h.thread t
    match th.pair (raOf w), th.pair (rbOf w) with
    | some (sa, na), some (sb, nb) =>
      let o := timeOrder sa na sb nb
      h.modThread t fun th => th.setFlags (o == .eq) (o == .lt) (o != .lt) false
    | _, _ => h.raiseAt t excTimeFmt w 0 0 0

def execCfadd (t : Fin 256) (s : State) : Host.Outcome State Fault Refusal :=
  s.effect fun h => h.alu t .cfadd fOf fun th w => awlCfadd (th.a w) (th.reg (rbOf w))

/-- STAMP with U = 0 (R289). -/
def execStampRead (t : Fin 256) (s : State) : Host.Outcome State Fault Refusal :=
  s.effect fun h => h.issue t .stampRead false none fun w h =>
    match (h.thread t).frame with
    | none => h.raiseAt t excNoFrame w 0 0 0
    | some id => h.modThread t fun th => th.setPair (rdOf w) (h.frame id).stamp.sec (h.frame id).stamp.sub

/-- A stamp action word within its layout (R290). -/
def actionValid (a : Nat) : Bool :=
  a % 4 != 3 && decide (a / 2 ^ 2 % 128 ≤ 120) && a / 2 ^ 9 % 128 == 0 && decide (a / 2 ^ 33 % 128 ≤ 126) && a / 2 ^ 40 == 0

/-- STAMP with U = 1 (R289, R290). -/
def execStampMark (t : Fin 256) (s : State) : Host.Outcome State Fault Refusal :=
  s.effect fun h => h.issue t .stampMark false none fun w h =>
    let th := h.thread t
    match th.frame with
    | none => h.raiseAt t excNoFrame w 0 0 0
    | some id =>
      if actionValid (th.a w).toNat then h.modFrame id fun f => { f with action := (th.a w).toNat }
      else h.raiseAt t excDisp w 0 0 0

/-! ### Waiting (R291, R293) -/

/-- WAITEV. -/
def Hw.waitev (h : Hw) (t : Nat) (w : Word) : Hw :=
  let d := ((h.thread t).a w).toNat
  let mask := immOf w
  let p := h.pendingEvents t mask
  if mask = 0 ∧ d = 0 then h.raiseAt t excArg w 0 0 0
  else if h.engineState (t / 4) = stClosing then (h.takeEvents t p).ready t w (some (BitVec.ofNat 64 (p + 2 ^ 63))) none
  else if p ≠ 0 then (h.takeEvents t p).ready t w (some (BitVec.ofNat 64 p)) none
  else h.suspend t w 0 (.event (rdOf w) mask d)

/-- WAITT. -/
def Hw.waitt (h : Hw) (t : Nat) (w : Word) : Hw :=
  let th := h.thread t
  let closing := h.engineState (t / 4) = stClosing
  if w.getLsbD 0 then
    match th.pair (raOf w) with
    | none => h.raiseAt t excTimeFmt w 0 0 0
    | some (sec, sub) =>
      let now := stampOf h.nt
      if closing then h.ready t w (some 3) none
      else match timeOrder sec sub now.sec now.sub with
        | .lt => h.ready t w (some 1) none
        | .eq => h.ready t w (some 0) none
        | .gt => h.suspend t w 0 (.network (rdOf w) ⟨sec, sub⟩)
  else
    let d := (th.a w).toNat
    if closing then h.ready t w (some 3) none
    else if d < h.et then h.ready t w (some 1) none
    else if d = h.et then h.ready t w (some 0) none
    else h.suspend t w 0 (.elapsed (rdOf w) d)

def execWaitev (t : Fin 256) (s : State) : Host.Outcome State Fault Refusal :=
  s.effect fun h => h.issue t .waitev false none fun w h => h.waitev t w
def execWaitt (t : Fin 256) (s : State) : Host.Outcome State Fault Refusal :=
  s.effect fun h => h.issue t .waitt false none fun w h => h.waitt t w

/-! ### Control and signalling (R261) -/

/-- YIELD (R261, R284). -/
def execYield (t : Fin 256) (s : State) : Host.Outcome State Fault Refusal :=
  s.effect fun h => h.issue t .yield false none fun w h =>
    let th := h.thread t
    if th.frame.isSome then h.raiseAt t excUndisposed w 0 0 0
    else if !th.locks.isEmpty then h.raiseAt t excLockState w 0 0 0
    else h.setThreadState t thrIdle

/-- RAISE (R261, R472). -/
def execRaise (t : Fin 256) (s : State) : Host.Outcome State Fault Refusal :=
  s.effect fun h => h.issue t .raise false none fun w h =>
    let v := (h.thread t).a w
    let c := immOf w
    if h.signalAccepted c then (h.signal c v).modThread t fun th => th.setReg (rdOf w) 0
    else if h.privileged t then (h.bump R.BENCH_CNT1_SIG_FULL).modThread t fun th => th.setReg (rdOf w) 1
    else
      let h := (h.bump R.BENCH_CNT1_SIG_FULL).suspend t w 0 (.raise (rdOf w) c v)
      { h with awl := { h.awl with raisers := h.awl.raisers ++ [t.val] } }

def execTrap (t : Fin 256) (s : State) : Host.Outcome State Fault Refusal :=
  s.effect fun h => h.issue t .trap false none fun w h => h.raiseAt t excTrap w 0 (immOf w) 0

def execHalt (t : Fin 256) (s : State) : Host.Outcome State Fault Refusal :=
  s.effect fun h => h.issue t .halt false none fun w h => h.raiseAt t excHalt w 0 0 0

/-! ### Disposing of the frame (R275, R290, R294 to R296) -/

/-- The dirty lines of a thread's head, as Lacing writes them back (R275). -/
def Hw.dirtyLines (h : Hw) (t : Nat) : List (Nat × List Byte) :=
  ((List.range 6).filter fun i => (h.thread t).dirty.testBit i).map fun i => (i, h.bytes (headSlot t + 32 * i) 32)

/-- The thread's frame is disposed of, and the thread holds none. -/
def Hw.dispose (h : Hw) (t id : Nat) (d : Disposition) : Hw :=
  let l := h.dirtyLines t
  (h.modFrame id fun f => { f with disp := d, lines := l }).modThread t fun th => { th with frame := none, dirty := 0 }

/-- The operands of RELEASE are valid for a frame (R290, R294). -/
def releaseValid (f : Frame) (q d : Nat) : Bool :=
  let g := { f with word := d }
  let len := (f.len : Int) - g.adj
  decide (q < 16384) && decide (d < 2 ^ 24) && decide (-64 ≤ g.adj) && decide (g.adj ≤ 64) && decide (1 ≤ len) &&
  (f.action % 4 != 1 ||
    (decide (f.action / 2 ^ 2 % 128 + 8 ≤ 128) && decide (((f.action / 2 ^ 2 % 128 + 8 : Nat) : Int) ≤ len))) &&
  (!f.action.testBit 32 || decide (((f.action / 2 ^ 33 % 128 + 2 : Nat) : Int) ≤ len))

def execRelease (t : Fin 256) (s : State) : Host.Outcome State Fault Refusal :=
  s.effect fun h => h.issue t .release false none fun w h =>
    let th := h.thread t
    match th.frame with
    | none => h.raiseAt t excNoFrame w 0 0 0
    | some id =>
      let q := (th.a w).toNat
      let d := (th.reg (rbOf w)).toNat
      if releaseValid (h.frame id) q d then h.dispose t id (.release q d) else h.raiseAt t excDisp w 0 0 0

def execDrop (t : Fin 256) (s : State) : Host.Outcome State Fault Refusal :=
  s.effect fun h => h.issue t .drop false none fun w h =>
    let th := h.thread t
    match th.frame with
    | none => h.raiseAt t excNoFrame w 0 0 0
    | some id =>
      if (th.a w).toNat ≤ 255 then h.dispose t id (.drop (th.a w).toNat) else h.raiseAt t excDisp w 0 0 0

def execFwd (t : Fin 256) (s : State) : Host.Outcome State Fault Refusal :=
  s.effect fun h => h.issue t .fwd false none fun w h =>
    let th := h.thread t
    match th.frame with
    | none => h.raiseAt t excNoFrame w 0 0 0
    | some id =>
      let d := (th.a w).toNat
      let u := (th.reg (rbOf w)).toNat
      if 4095 < d ∨ 2 ^ 32 ≤ u then h.raiseAt t excDisp w 0 0 0
      else if 7 ≤ (h.frame id).fwds then h.dispose t id (.drop 255)
      else h.dispose t id (.fwd d u)

/-! ### Writing the Last tables (R297, R298) -/

/-- The address word and value of LASTW lie within their ranges (R297). -/
def lastwValid (a v : Nat) : Bool :=
  let kind := a / 4 % 4
  let word := a / 16 % 4
  let index := a / 64 % 8192
  a % 4 != 3 && kind != 3 && (kind == 0 || word == 0) && a / 2 ^ 19 == 0 && decide (v < 2 ^ 32) &&
  (match kind with
    | 0 => decide (index ≤ 4095)
    | 1 => true
    | _ => decide (index ≤ 4))

/-- The register that LASTW writes; 0: its operands name none. -/
def Hw.lastwTarget (h : Hw) (a v : Nat) : Nat :=
  if lastwValid a v then lastwAddr (a % 4) (1 - h.lastActive (a % 4)) (a / 4 % 4) (a / 16 % 4) (a / 64 % 8192) else 0

/-- LASTW (R297). -/
def Hw.lastwOp (h : Hw) (t : Nat) (w : Word) : Hw :=
  let th := h.thread t
  let a := (th.a w).toNat
  let v := (th.reg (rbOf w)).toNat
  if !lastwValid a v then h.raiseAt t excArg w 0 0 0
  else
    let (h, st) := h.lastw (a % 4) (a / 4 % 4) (a / 16 % 4) (a / 64 % 8192) (BitVec.ofNat 32 v)
    h.ready t w (some (BitVec.ofNat 64 st)) none

/-- The operand of LASTAMEND is within its range (R298). -/
def lastamendValid (b : Nat) : Bool := b % 4 != 3 && decide (b < 2 ^ 14)

/-- LASTAMEND (R298). -/
def Hw.lastamendOp (h : Hw) (t : Nat) (w : Word) : Hw :=
  let th := h.thread t
  let b := (th.reg (rbOf w)).toNat
  let lo := (th.reg (raOf w)).toNat
  let hi := (th.reg (raOf w + 1)).toNat
  if !lastamendValid b then h.raiseAt t excArg w 0 0 0
  else
    let (h, c) := h.amend (b % 4) (b / 4) [lo % 2 ^ 32, lo / 2 ^ 32, hi % 2 ^ 32, hi / 2 ^ 32]
    h.ready t w (some (BitVec.ofNat 64 c)) none

def execLastw (t : Fin 256) (s : State) : Host.Outcome State Fault Refusal :=
  s.effect fun h => h.issue t .lastw false none fun w h =>
    h.ask t w lastUnit (h.lastwTarget ((h.thread t).a w).toNat ((h.thread t).reg (rbOf w)).toNat) true
def execLastamend (t : Fin 256) (s : State) : Host.Outcome State Fault Refusal :=
  s.effect fun h => h.issue t .lastamend false none fun w h =>
    let b := ((h.thread t).reg (rbOf w)).toNat
    h.ask t w lastUnit (if lastamendValid b then R.LAST_AMEND_CMD (b % 4) else 0) true

/-! ### Queue, lock and Last operations within their grant (R270) -/

/-- What the instruction `w` of thread `t`, of kind `k`, does at its unit. -/
def Hw.unitEffect (h : Hw) (t : Nat) (w : Word) (k : AwlKind) : Hw :=
  match k with
  | .qpush => h.qpush t w
  | .qpull => h.qpull t w
  | .qpeek => h.qpeek t w
  | .lock => h.lockOp t w
  | .unlock => h.unlockOp t w
  | .lastw => h.lastwOp t w
  | .lastamend => h.lastamendOp t w
  | _ => h

/-- The unit that thread `t` asked is granted: the operation takes effect as of the instruction's issue, and ends with
its result ready, in a further wait, or in an exception (R272, R278 to R284, R297, R298). -/
def Hw.unitGrant (h : Hw) (t : Nat) : Hw :=
  let w := (h.thread t).insn
  match kindOf w with
  | some k => (h.modThread t fun th => { th with pc := th.pc + 4, on := .nothing }).unitEffect t w k
  | none => h

/-- The access table permits a unit's operation; an operation for which no register stands is judged by the default of
its unit's table (R480, R529; DEDUCED, log 8). -/
def Hw.unitPermits (h : Hw) (target m addr : Nat) (write : Bool) : Bool :=
  if addr = 0 then !h.tablesApply || h.defaultPermits target m write else h.permits target m addr write

/-! ### Invalid words (R248) -/

/-- ILLEGAL_INSTRUCTION_WORD: the thread issues a word that names no instruction; the limit of R265 comes first. -/
def execIllegalInstructionWord (t : Fin 256) (s : State) : Host.Outcome State Fault Refusal :=
  s.effect fun h =>
    let w := h.fetched t
    if h.issuer (t.val / 4) = some t.val ∧ kindOf w = none then
      let limit := h.atLimit t
      (h.issued t).exception t (if limit then excLimit else excIllegal) w 0 0 0
    else h

end Sys2Proof.Machine
end

