-- ==== Sys2Proof/Machine/FrontEnd.lean ====
section
/-!
DEFINITION. The front end (R112 to R133, R141 to R148): the transmit setting's four instants, aerial diversity and gain,
the tuner and its mismatch alarm, the mask monitor and the leakage canceller. The coexistence ports are in Coex.lean.
-/
namespace Sys2Proof.Machine

/-! ### Aerial diversity and gain -/

/-- The gain code chosen from the wideband power `wide` measured at code `k` (R122). -/
def Hw.gainFor (h : Hw) (x c k : Nat) (wide : Int) : Nat :=
  let g := 256 * gainOf k + (-128 * (h.get (R.RFS_GAIN_TARGET x c) : Int) - wide)
  (clampInt 0 (min 23 (h.get (R.RFS_GAIN_G_CAP x c))) ((g + 2560) / 512)).toNat

/-- The aerial a chain chooses (R118): the other one only if its power exceeds that of CUR by more than HYST. -/
def chooseAerial (cur : Nat) (hyst : Nat) (pA pB : Int) : Nat :=
  if cur = 0 then (if pA + hyst < pB then 1 else 0) else (if pB + hyst < pA then 0 else 1)

/-- Whether any chain of the slice runs the diversity timeline, and whether any is in a fixed mode. -/
def Hw.anyDiversity (h : Hw) (x : Nat) : Bool := (List.range (chainsOf x)).any fun c => (h.chain x c).diversity
def Hw.anyFixed (h : Hw) (x : Nat) : Bool := (List.range (chainsOf x)).any fun c => !(h.chain x c).diversity

/-- The aerial and gain timeline begins at D, which is now (R117, R119): every chain keeps the mode it has now until the
end of the timeline (DEDUCED, log 51); diversity chains switch to INA, fixed ones stand on their aerial. The first samples
pass to the qualifier when those of a fixed chain do, 1.8 µs from D, or else those of a diversity chain. -/
def Hw.startTimeline (h : Hw) (x : Nat) : Hw :=
  let h := h.stopTimeline x
  let h := h.forChains x fun c h =>
    let div := h.get (R.RFS_DIV_MODE x c) == 2
    h.modChain x c fun ch =>
      { ch with frozen := false, diversity := div, kA := h.get (R.RFS_GAIN_G_CUR x c),
                aerial := if div then 0 else h.get (R.RFS_DIV_MODE x c) }
  let h := if h.anyFixed x then h.start (.fixedWindow x) 1600 else h
  let h := if h.anyDiversity x then (h.start (.divSwitch x) 1700).start (.divDecision x) 3400 else h
  h.start (.qualifier x) (if h.anyFixed x then 1800 else 3600)

/-- DIV_SWITCH_INB (R117): after window A every diversity chain switches to INB; the gain code of window A is kept. -/
def execDivSwitchInb (x : Fin 3) (s : State) : Host.Outcome State Fault Refusal :=
  s.effect fun h => h.onTimer (.divSwitch x) fun h =>
    h.forChains x fun c h =>
      if (h.chain x c).diversity then
        h.modChain x c fun ch => { ch with aerial := 1, kA := h.get (R.RFS_GAIN_G_CUR x c) }
      else h

/-- The power of a window measured at gain code `k`, referred to the ball (R118, R121): the operand is in units of 2^-8 dB
of ADC full scale. -/
def windowPower (k : Nat) (p : Int) : Int := quarterDb (p - 256 * (4 + gainOf k))

/-- One diversity chain decides (R118, R120, R122): its aerial becomes CUR, and its gain follows the wideband power of
that aerial. The result is the chosen aerial's power. -/
def Hw.divDecide (h : Hw) (x c : Nat) (a b : WindowPower) : Hw × Int :=
  let cur := h.get (R.RFS_DIV_CUR x c)
  let pA := windowPower (h.chain x c).kA a.p
  let pB := windowPower (h.get (R.RFS_GAIN_G_CUR x c)) b.p
  let w := chooseAerial cur (h.get (R.RFS_DIV_HYST x c)) pA pB
  let k := if w = 0 then h.gainFor x c (h.chain x c).kA a.wide else h.gainFor x c (h.get (R.RFS_GAIN_G_CUR x c)) b.wide
  let h := h.bump (R.RFS_DIV_CNT_RUNS x c)
  let h := if w = cur then h else h.bump (R.RFS_DIV_CNT_SWITCHES x c)
  let h := ((h.set (R.RFS_DIV_CUR x c) w).set (R.RFS_GAIN_G_CUR x c) k).modChain x c fun ch => { ch with aerial := w }
  (h, if w = 0 then pA else pB)

/-- P_ref is the greatest power that a chain measured on its aerial for the current reception (R155; the manual does not
say how the chains combine: DESIGN CHOICE, log 47). -/
def Hw.notePRef (h : Hw) (x : Nat) (p : Int) : Hw :=
  h.modSlice x fun s => { s with rx := { s.rx with pRef := max s.rx.pRef p } }

/-- DIV_DECISION (R117, R118, R122): every diversity chain decides from the powers of its two windows. -/
def execDivDecision (x : Fin 3) (m : List (WindowPower × WindowPower)) (s : State) : Host.Outcome State Fault Refusal :=
  s.effect fun h => h.onTimer (.divDecision x) fun h =>
    h.forChains x fun c h =>
      match m[c]? with
      | some (a, b) => if (h.chain x c).diversity then let (h, p) := h.divDecide x c a b; h.notePRef x p else h
      | none => h

/-- FIXED_WINDOW_END (R119, R122): 1.6 µs from D every chain in a fixed mode applies its new gain. -/
def execFixedWindowEnd (x : Fin 3) (m : List WindowPower) (s : State) : Host.Outcome State Fault Refusal :=
  s.effect fun h => h.onTimer (.fixedWindow x) fun h =>
    h.forChains x fun c h =>
      match m[c]? with
      | some a =>
        if (h.chain x c).diversity then h
        else
          let k := h.get (R.RFS_GAIN_G_CUR x c)
          (h.set (R.RFS_GAIN_G_CUR x c) (h.gainFor x c k a.wide)).notePRef x (windowPower k a.p)
      | none => h

/-- QUALIFIER_START (R117, R119, R123, R151): samples pass to the qualifier, first those of the fixed chains, 1.8 µs from
D, then those of the diversity chains, 3.6 µs from D; the aerial and gain of their chains are frozen. With the first of
them the qualifier begins, and its first evaluation is due 1.6 µs later. -/
def execQualifierStart (x : Fin 3) (s : State) : Host.Outcome State Fault Refusal :=
  s.effect fun h => h.onTimer (.qualifier x) fun h =>
    let rx := (h.slice x).rx
    let late := decide (rx.d + 3600 ≤ h.et)
    let h := h.forChains x fun c h =>
      if late || !(h.chain x c).diversity then h.modChain x c fun ch => { ch with frozen := true } else h
    let h := if h.anyDiversity x && !late then h.startAt (.qualifier x) (rx.d + 3600) else h
    if rx.phase = .timeline then
      (h.modSlice x fun s => { s with rx := { s.rx with phase := .qualifying, evaluations := 0 } }).start (.qualEval x) 1600
    else h

/-- A chain is within a measurement window of R117 or R119, `e` nanoseconds from D. -/
def inWindow (diversity : Bool) (e : Nat) : Bool :=
  if diversity then (decide (100 ≤ e) && decide (e < 1700)) || (decide (1800 ≤ e) && decide (e < 3400)) else decide (e < 1600)

/-- ADC_CLIP_GAIN_DROP (R123, R145): four full-scale samples in a measurement window lower the code by 9; a clip while
the other slice of the pair transmits counts in CLIP_CNT. Outside a window the gain is not lowered. -/
def execAdcClipGainDrop (x : Fin 3) (c : Fin 8) (s : State) : Host.Outcome State Fault Refusal :=
  s.effectIf (decide (c.val < chainsOf x)) fun h =>
    let other := if x.val = 1 then 2 else 1
    let h := if x.val ≠ 0 ∧ h.onAir other then h.bump (R.RFS_CANC_STAT_CLIP_CNT x c) else h
    let ch := h.chain x c
    if h.receiving x ∧ !ch.frozen ∧ inWindow ch.diversity (h.et - (h.slice x).rx.d) then
      h.set (R.RFS_GAIN_G_CUR x c) (h.get (R.RFS_GAIN_G_CUR x c) - 9)
    else h

/-- A write of RFS_x_c_GAIN (R124): codes above 23 store 23; an idle chain takes its idle gain at once (R122), and a
write of G_IDLE restarts the noise floor (R170). -/
def Hw.writeGain (h : Hw) (x c : Nat) (v : Word) : Hw :=
  let h := h.writeFields (R.RFS_GAIN x c) v
  let h := h.set (R.RFS_GAIN_G_IDLE x c) (min 23 (h.get (R.RFS_GAIN_G_IDLE x c)))
  let h := h.set (R.RFS_GAIN_G_CAP x c) (min 23 (h.get (R.RFS_GAIN_G_CAP x c)))
  let k := min (h.get (R.RFS_GAIN_G_IDLE x c)) (h.get (R.RFS_GAIN_G_CAP x c))
  let h := if h.receiving x || k == h.get (R.RFS_GAIN_G_CUR x c) then h
    else (h.set (R.RFS_GAIN_G_CUR x c) k).idleBegins x
  h.restartNoiseFloor x

/-- A write of RFS_x_c_DIV (R119, R120): a MODE of 0b11 leaves MODE; outside a reception and a transmit setting the chain
goes to its aerial at once, else when that is over. -/
def Hw.writeDiv (h : Hw) (x c : Nat) (v : Word) : Hw :=
  let m := h.get (R.RFS_DIV_MODE x c)
  let h := h.writeFields (R.RFS_DIV x c) v
  let h := if fieldOf v (R.RFS_DIV_MODE x c) = 3 then h.set (R.RFS_DIV_MODE x c) m else h
  if h.receiving x || h.inSetting x then h else h.idleAerial x c

/-- A write of RFS_x_FE_TIME (R115): a lead or lag of the PA beyond that of the switch leaves the register and sets
CFG_ERR. -/
def Hw.writeFeTime (h : Hw) (x : Nat) (v : Word) : Hw :=
  if fieldOf v (R.RFS_FE_TIME_TR_LEAD x) < fieldOf v (R.RFS_FE_TIME_PA_LEAD x) ∨
      fieldOf v (R.RFS_FE_TIME_TR_LAG x) < fieldOf v (R.RFS_FE_TIME_PA_LAG x) then
    h.set (R.RFS_FE_CTL_CFG_ERR x) 1
  else h.writeFields (R.RFS_FE_TIME x) v

/-- The widest operating width code of a slice (R79, R132). -/
def widestOf (x : Nat) : Nat := match x with | 0 => 1 | 1 => 3 | _ => 4

/-- The FIR bank selected (R130); none: FIR_EN = 0, samples pass unchanged. -/
def Hw.firBank (h : Hw) (x : Nat) : Option Nat :=
  if h.flag (R.RFS_FE_CTL_FIR_EN x) then some (h.get (R.RFS_FE_CTL_FIR_BANK x)) else none

/-- The taps of a bank (R130). -/
def Hw.firTaps (h : Hw) (x b : Nat) : List Cx :=
  (List.range 31).map fun k => ⟨h.getI ⟨R.RFS_FIR x b k, 0, 16⟩, h.getI ⟨R.RFS_FIR x b k, 16, 16⟩⟩

/-- A write of RFS_x_FE_CTL (R130, R133, R144, R170): OP_BW above the widest channel leaves the register and sets
CFG_ERR; a change of the filter takes effect at the next PPDU start, OP_BW restarts the noise floor and the STR decision
is made anew. -/
def Hw.writeFeCtl (h : Hw) (x : Nat) (v : Word) : Hw :=
  if widestOf x < fieldOf v (R.RFS_FE_CTL_OP_BW x) then h.set (R.RFS_FE_CTL_CFG_ERR x) 1
  else
    let h := h.writeFields (R.RFS_FE_CTL x) v
    let h := match (h.slice x).tx with
      | some p => if h.et < p.t0 then h.modSlice x fun s => { s with tx := some { p with fir := h.firBank x } } else h
      | none => h
    (h.restartNoiseFloor x).updateStrOf x

/-! ### The tuner and the mismatch detector -/

/-- A write of RFS_x_c_TUNE waits for the first instant outside a PPDU (R126). -/
def Hw.writeTune (h : Hw) (x c : Nat) (v : Word) : Hw :=
  (h.writeFields (R.RFS_TUNE x c) v).modChain x c fun ch => { ch with tunePending := true }

/-- TUNE_APPLY (R126): outside every PPDU's interval the written match takes effect, and settles in 200 ns. -/
def execTuneApply (x : Fin 3) (c : Fin 8) (s : State) : Host.Outcome State Fault Refusal :=
  s.effectIf (decide (c.val < chainsOf x)) fun h =>
    if (h.chain x c).tunePending ∧ !h.inSetting x then
      (h.modChain x c fun ch => { ch with tunePending := false, tuneInForce := h.word (R.RFS_TUNE x c) }).modSlice x
        fun s => { s with matchSettles := h.et + 200 }
    else h

/-- One chain's window is recorded and judged (R127, R128): an alarm while a back-off is in force counts and does
nothing else. The flag says that ACTION stops the PPDU. -/
def Hw.mismatchChain (h : Hw) (x c : Nat) (r : Reflection) : Hw × Bool :=
  let mag := min 255 (rneDiv r.mag 256).toNat
  let h := (((h.set (R.RFS_MISM_MAG x c) mag).set (R.RFS_MISM_PHASE x c) (rneDiv r.angle 256).toNat).set
    (R.RFS_MISM_VALID x c) 1).count (R.RFS_MISM_SEQ x c)
  if h.flag (R.RFS_VSWR_EN x c) && decide (h.get (R.RFS_VSWR_THRESH x c) ≤ mag) then
    let held := h.flag (R.RFS_VSWR_BACKOFF_ACT x c)
    let h := ((h.set (R.RFS_VSWR_ALARM x c) 1).bump (R.RFS_VSWR_ALARM_CNT x c)).modChain x c
      fun ch => { ch with clearWaits := false }
    if held then (h, false)
    else match h.get (R.RFS_VSWR_ACTION x c) with
    | 1 => (h.set (R.RFS_VSWR_BACKOFF_ACT x c) 1, false)
    | 2 => (h.set (R.RFS_VSWR_TX_OFF x c) 1, true)
    | _ => (h, false)
  else (h, false)

/-- MISM_WINDOW_END (R127, R128): a 4 µs window of a PPDU ends; every chain records its reflection coefficient, an
alarm applies its action, and the next window follows if it ends within the PPDU. -/
def execMismWindowEnd (x : Fin 3) (m : List Reflection) (s : State) : Host.Outcome State Fault Refusal :=
  s.effect fun h => h.onTimer (.mismatch x) fun h =>
    match (h.slice x).tx with
    | none => h
    | some p =>
      let (h, stop) := (List.range (chainsOf x)).foldl (fun (h, stop) c =>
        match m[c]? with
        | some r => if p.chains.testBit c then let (h, b) := h.mismatchChain x c r; (h, stop || b) else (h, stop)
        | none => (h, stop)) (h, false)
      if stop then h.endTransmission x .txVswr
      else if h.et + 4000 ≤ p.t1 then h.start (.mismatch x) 4000 else h

/-- Back-off and stop of a chain are no longer in force. -/
def Hw.liftVswr (h : Hw) (x c : Nat) : Hw :=
  ((h.set (R.RFS_VSWR_BACKOFF_ACT x c) 0).set (R.RFS_VSWR_TX_OFF x c) 0).modChain x c fun ch => { ch with clearWaits := false }

/-- Clearing ALARM (R128): back-off and stop end from the next PPDU: at once outside a PPDU, else when it is over. -/
def Hw.clearAlarm (h : Hw) (x c : Nat) : Hw :=
  let h := h.set (R.RFS_VSWR_ALARM x c) 0
  if h.inSetting x then h.modChain x c fun ch => { ch with clearWaits := true } else h.liftVswr x c

/-- The factor, in 2^-5, by which a chain in back-off scales its transmit samples `n` samples after the end of the window
that raised the alarm: 0.5 from the 16th on (R128; between, the manual gives no course: a straight one, DESIGN CHOICE, log 51). -/
def backoffScale (n : Nat) : Nat := 32 - min n 16

/-- VSWR_ALARM_CLEAR (R128). -/
def execVswrAlarmClear (x : Fin 3) (c : Fin 8) (s : State) : Host.Outcome State Fault Refusal :=
  s.effectIf (decide (c.val < chainsOf x)) fun h => h.clearAlarm x c

/-- A write of RFS_x_c_VSWR (R128, R129): an ACTION of 0b11 leaves ACTION; ALARM written 1 clears it. -/
def Hw.writeVswr (h : Hw) (x c : Nat) (v : Word) : Hw :=
  let a := h.get (R.RFS_VSWR_ACTION x c)
  let was := h.flag (R.RFS_VSWR_ALARM x c)
  let h := h.writeFields (R.RFS_VSWR x c) v
  let h := if fieldOf v (R.RFS_VSWR_ACTION x c) = 3 then h.set (R.RFS_VSWR_ACTION x c) a else h
  if was && fieldOf v (R.RFS_VSWR_ALARM x c) == 1 then h.clearAlarm x c else h

/-! ### The canceller -/

/-- The victim of an aggressor, the aggressor's chains' span of taps, and the victim's idleness from `t0` to now
(R141, R146). -/
def victimOf (x : Nat) : Nat := if x = 1 then 2 else 1
def tapSpan (v : Nat) : Nat := if v = 1 then 8 else 16
def Hw.idleSinceT0 (h : Hw) (v t0 : Nat) : Bool :=
  !h.receiving v && !h.transmitting v && decide ((h.slice v).idleFrom ≤ t0)

/-- A victim chain adapts over its samples of an aggressor's transmission (R141, R142). -/
def Hw.adaptChain (h : Hw) (v c : Nat) (leak : Leakage) : Hw :=
  let vs := (leak.victim[c]?).getD []
  let bulk := h.get (R.RFS_CANC_CTL_BULK_DELAY v c)
  let at' (n : Nat) : List Cx := cancRefs (tapSpan v) bulk (leak.refs.map fun r => (r.take (n + 1)).reverse)
  let cs := lmsRun (h.get (R.RFS_CANC_CTL_MU v c)) at' 0 ((List.range 64).map (h.coef v c)) vs
  ((List.range 64).zip cs).foldl (fun (h : Hw) (k, y) => h.setCoef v c k y) h

/-- SUPP and CONV of a victim chain from the powers in channel before and after subtraction (R146); with both 0 the
manual states no ratio: a free value. -/
def Hw.setSupp (h : Hw) (v c pv py : Nat) : Hw :=
  let q := if py = 0 then (if pv = 0 then h.freeNat % 256 else 255) else (clampInt 0 255 (dbQuarter pv py)).toNat
  let h := if py = 0 ∧ pv = 0 then h.drawn else h
  (h.set (R.RFS_CANC_STAT_SUPP v c) q).setFlag (R.RFS_CANC_STAT_CONV v c) (decide (100 ≤ q))

/-- After a PPDU of aggressor `x` that ran from `t0` for `dur` nanoseconds (R142, R146): chains of the other slice of the
pair have adapted, and for a PPDU of at least 16 µs with the victim idle SUPP takes the suppression measured. -/
def Hw.afterAggressor (h : Hw) (x t0 dur : Nat) (leak : Leakage) : Hw :=
  let v := victimOf x
  if x = 0 then h
  else
    h.forChains v fun c h =>
      let h := if h.flag (R.RFS_CANC_CTL_EN v c) && h.flag (R.RFS_CANC_CTL_ADAPT v c) then h.adaptChain v c leak else h
      match leak.powers[c]? with
      | some (pv, py) => if 16000 ≤ dur && h.idleSinceT0 v t0 then h.setSupp v c pv py else h
      | none => h

/-- A write of RFS_x_c_CANC_CTL (R146): MU is held within 8 to 20; RESET zeroes the coefficients; the STR decision is
made anew (R144). On slice A the write is ignored. -/
def Hw.writeCancCtl (h : Hw) (x c : Nat) (v : Word) : Hw :=
  if x = 0 then h
  else
    let h := h.writeFields (R.RFS_CANC_CTL x c) v
    let h := h.set (R.RFS_CANC_CTL_MU x c) (clampNat 8 20 (h.get (R.RFS_CANC_CTL_MU x c)))
    let h := if fieldOf v (R.RFS_CANC_CTL_RESET x c) = 1 then h.zeroCanceller x c else h
    h.updateStr

/-- CANC_RESET (R142, R146). -/
def execCancReset (x : Fin 3) (c : Fin 8) (s : State) : Host.Outcome State Fault Refusal :=
  s.effectIf (decide (c.val < chainsOf x)) fun h => if x.val = 0 then h else h.zeroCanceller x c

/-! ### The transmit setting -/

/-- PA_LEAD (R114, R135): PAEN rises on the transmitting chains, and with it TXACT of a client port; a PPDU of at least
8 µs will be measured for mismatch, the first window ending 8 µs after t0 (R127). -/
def execPaLead (x : Fin 3) (s : State) : Host.Outcome State Fault Refusal :=
  s.effect fun h => h.onTimer (.paLead x) fun h =>
    match (h.slice x).tx with
    | none => h
    | some p =>
      let h := (h.modSlice x fun s => { s with paen := s.paen ||| p.chains }).driveTxact
      if p.t0 + 8000 ≤ p.t1 then h.startAt (.mismatch x) (p.t0 + 8000) else h

/-- PA_LAG (R114, R135): PAEN falls. -/
def execPaLag (x : Fin 3) (s : State) : Host.Outcome State Fault Refusal :=
  s.effect fun h => h.onTimer (.paLag x) fun h => (h.modSlice x fun s => { s with paen := 0 }).driveTxact

/-- The transmit samples of a PPDU's chains pass the FIR (R130); whether one saturated. -/
def Hw.firSaturates (h : Hw) (x : Nat) (p : TxPpdu) (tx : List (List Cx)) : Bool :=
  tx.any fun xs => (firRun (p.fir.map (h.firTaps x)) [] xs).2

/-- TR_LAG (R114): TRSW falls, LNAEN rises and detection resumes; the PPDU is over, and Welt's status is "sent" unless
it came to an early end. `tx`: the samples that the modem gave the FIR on each chain (R130, R133); `leak`: what the other
slice's chains saw of it. -/
def execTrLag (x : Fin 3) (tx : List (List Cx)) (leak : Leakage) (s : State) : Host.Outcome State Fault Refusal :=
  s.effect fun h => h.onTimer (.trLag x) fun h =>
    match (h.slice x).tx with
    | none => h
    | some p =>
      let h := h.modSlice x fun s => { s with tx := none, idleFrom := h.et }
      let h := (((h.linesAtRest x).drainConverters x).idleBegins x).forChains x fun c h => h.idleAerial x c
      let h := if h.firSaturates x p tx then h.bump (R.RFS_MASK_CNT_FIR_SAT_CNT x) else h
      let h := h.forChains x fun c h => if (h.chain x c).clearWaits then h.liftVswr x c else h
      let h := h.afterAggressor x p.t0 (p.t1 - p.t0) leak
      match kget h.txStatus x with
      | some _ => h
      | none => if p.response then h else { h with txStatus := kput h.txStatus x .sent }

/-! ### The mask monitor -/

/-- The complex baseband rate of a slice in MHz (R79). -/
def basebandMHz (x : Nat) : Nat := match x with | 0 => 200 | 1 => 250 | _ => 465

/-- The breakpoints of width `w` up to the end of the table, offset and level (R132). -/
def Hw.maskTable (h : Hw) (x w : Nat) : List (Nat × Int) :=
  ((List.range 8).map fun p => (h.get (R.RFS_MASK_OFFSET x w p), h.getI (R.RFS_MASK_LEVEL x w p))).takeWhile
    fun e => e.1 != 0

/-- Offsets rise strictly up to the end of the table (R132). -/
def maskRises (t : List (Nat × Int)) : Bool :=
  match t with
  | (a, _) :: (b, m) :: r => decide (a < b) && maskRises ((b, m) :: r)
  | _ => true

/-- The margin of a bin, rounded toward minus infinity to 0.25 dB (R131, R133): the bin lies `k` bins from the centre,
`dev` is its power less the reference in units of 2^-8 dB, `f` is `k` times the baseband rate and `w` the channel width
in MHz, so that f/w is the bin's distance in offset units. -/
def maskMargin (t : List (Nat × Int)) (f w : Nat) (dev : Int) : Int :=
  match t with
  | [] => 0
  | [(_, l)] => (64 * l - dev) / 64
  | (a, l) :: (b, m) :: r =>
    if f ≤ a * w then (64 * l - dev) / 64
    else if f ≤ b * w then
      let den : Int := ((b - a) * w : Nat)
      (64 * (l * den + (m - l) * ((f : Int) - (a * w : Nat))) - dev * den) / (64 * den)
    else maskMargin ((b, m) :: r) f w dev

/-- MASK_CHECK (R131 to R133): the monitor checks one chain of a PPDU of at least 16 µs from the averaged power of its
256 bins (LSB 2^-8 dB, bin 128 at the centre): a table that does not rise sets TBL_ERR and is skipped, an empty one is
skipped; otherwise the worst margin, the chain and pass or fail are recorded. The rotation goes over every chain of the
slice and moves on with every PPDU of that length, checked or skipped (DESIGN CHOICE, log 51). -/
def execMaskCheck (x : Fin 3) (bins : List Int) (s : State) : Host.Outcome State Fault Refusal :=
  s.effect fun h =>
    match (h.slice x).tx with
    | none => h
    | some p =>
      let mode := h.get (R.RFS_FE_CTL_MON_MODE x)
      if p.t1 < p.t0 + 16000 ∨ mode = 0 ∨ mode = 3 then h
      else
        let t := h.maskTable x p.width
        let chain := if mode = 2 then h.get (R.RFS_FE_CTL_MON_CHAIN x) else (h.slice x).maskNext
        let h := if mode = 1 then h.modSlice x fun s => { s with maskNext := (s.maskNext + 1) % chainsOf x } else h
        if t.isEmpty then h
        else if !maskRises t then h.set (R.RFS_MASK_STAT_TBL_ERR x) 1
        else
          let w := 20 * 2 ^ p.width
          let bb := basebandMHz x
          let first := match t with | (a, _) :: _ => a | [] => 0
          let at' (i : Nat) : Nat := (((i : Int) - 128).natAbs) * bb
          let idx := (List.range 256).zip bins
          let ref := idx.foldl (fun m (i, b) => if at' i ≤ first * w then max m b else m) (-(2 ^ 40 : Int))
          let worst := idx.foldl (fun m (i, b) => min m (maskMargin t (at' i) w (b - ref))) (2 ^ 40 : Int)
          let h := ((h.setI (R.RFS_MASK_STAT_WORST x) (clampInt (-512) 511 worst)).set (R.RFS_MASK_STAT_LAST_CHAIN x) chain)
          let h := h.setFlag (R.RFS_MASK_STAT_LAST_PASS x) (decide (0 ≤ worst))
          if 0 ≤ worst then h else (h.set (R.RFS_MASK_STAT_FAIL_EV x) 1).bump (R.RFS_MASK_CNT_FAIL_CNT x)

end Sys2Proof.Machine
end

