-- ==== Sys2Proof/Machine/Modem.lean ====
section
/-!
DEFINITION. The modem (R149 to R176): the energy threshold, the autocorrelation qualifier, timing, L-SIG and the later
signal fields, restart and capture, the LDPC pool, RSSI and the noise floor.
-/
namespace Sys2Proof.Machine

/-! ### Gates of a reception -/

/-- The modem measures energy now (R113, R149): Open, READY, no calibration, not in a retune's 2 µs, in the Receive
setting. -/
def Hw.measuring (h : Hw) (x : Nat) : Bool :=
  h.get (R.RFS_FSTAT_STATE x) == stOpen && h.synth x == synReady && (h.slice x).cal.isNone &&
  !h.running (.retune x) && (h.slice x).trsw == 0

/-- The slice recognises an energy crossing now: no reception is in progress (R149). -/
def Hw.detecting (h : Hw) (x : Nat) : Bool := h.measuring x && !h.receiving x

/-- The power of R149 over the newest 0.8 µs, in units of 0.25 dB: that of the chain with the greatest, each referred to
the ball by its gain in use (the manual does not say how the chains combine: DESIGN CHOICE, log 47). -/
def Hw.slicePower (h : Hw) (x : Nat) (rs : List (List Cx)) : Int :=
  (List.range (chainsOf x)).foldl (fun m c =>
    match rs[c]? with
    | some r => max m (ballPower (h.get (R.RFS_GAIN_G_CUR x c)) (r.drop 16))
    | none => m) (-2048)

/-- A reception begins at D, which is now: it keeps the control values in force at D (R174), and the timeline runs. -/
def Hw.beginReception (h : Hw) (x : Nat) : Hw :=
  let rx : Reception :=
    { Reception.none with
      phase := .timeline, d := h.et,
      qualThresh := h.get (R.PHY_DET_CTL_QUAL_THRESH x),
      restartMargin := h.get (R.PHY_RST_CTL_RESTART_MARGIN x),
      captureMargin := h.get (R.PHY_RST_CTL_CAPTURE_MARGIN x),
      trackThresh := h.get (R.PHY_TRK_CTL_TRACK_THRESH x),
      trackAlways := h.flag (R.PHY_TRK_CTL_TRACK_ALWAYS x),
      pRef := -2048,
      rssiCal := (List.range (chainsOf x)).map fun c => h.word (R.PHY_RSSI_CAL x c) }
  (h.modSlice x fun s => { s with rx := rx, maxIter := h.get (R.PHY_DEC_CTL_MAX_ITER x) }).startTimeline x

/-- ENERGY_CROSSING (R149, R216): the power of the primary 20 MHz over the newest 0.8 µs of each chain's samples reaches
ED_THRESH, and D is now; below the threshold the medium shows no energy. -/
def execEnergyCrossing (x : Fin 3) (rs : List (List Cx)) (s : State) : Host.Outcome State Fault Refusal :=
  s.effect fun h =>
    if !h.detecting x then h
    else if 4 * h.getI (R.PHY_DET_CTL_ED_THRESH x) ≤ h.slicePower x rs then
      (h.modSlice x fun s => { s with energy := true }).beginReception x
    else if (h.slice x).energy then
      let since := if h.partnerOnAir x then (h.slice x).idleFrom else h.et
      h.modSlice x fun s => { s with energy := false, idleFrom := since }
    else h

/-- TB_EXPECTED_START (R150): the expected start of a PPDU that Welt solicited, one SIFS after the end of the soliciting
PPDU, is taken as D. -/
def execTbExpectedStart (x : Fin 3) (s : State) : Host.Outcome State Fault Refusal :=
  s.effect fun h => h.onTimer (.tbStart x) fun h => if h.detecting x then h.beginReception x else h

/-- The metrics of the newest samples (R151): of the lag correlation, and on slice A of the Barker correlation of the
newest chips. Where the former is undefined, its value is free. -/
def Hw.metrics (h : Hw) (x : Nat) (rs : List (List Cx)) (chips : List Cx) : Hw × Nat × Nat :=
  let b := if x = 0 then barkerMetric chips else 0
  match lagMetric rs with
  | some m => (h, m, b)
  | none => (h.drawn, h.freeNat % 32768, b)

/-- A pass of the qualifier starts the reception (R151): the search for the L-LTF peak runs for 8.0 µs (R152); a DSSS
reception waits for its header, and the manual gives it no stamp point: free values. -/
def Hw.qualified (h : Hw) (x : Nat) (dsss : Bool) : Hw :=
  if dsss then
    (h.drawn.drawn.modSlice x fun s =>
      { s with rx := { s.rx with phase := .beforeLsig, dsss := true,
                                 stamp := ⟨h.freeNat % 2 ^ 48, h.drawn.freeNat % 2 ^ 48⟩ } })
  else (h.modSlice x fun s => { s with rx := { s.rx with phase := .searching } }).start (.lltf x) 8000

/-- QUAL_EVALUATION (R151): the metric is compared with QUAL_THRESH; a pass starts the reception; the fifth evaluation, at
3.2 µs, that does not pass returns the modem to idle and counts; energy that is not the NSTR partner's is then foreign to
a Last occurrence in progress (R217). -/
def execQualEvaluation (x : Fin 3) (rs : List (List Cx)) (chips : List Cx) (s : State) : Host.Outcome State Fault Refusal :=
  s.effect fun h => h.onTimer (.qualEval x) fun h =>
    let rx := (h.slice x).rx
    if rx.phase ≠ .qualifying then h
    else
      let (h, a, b) := h.metrics x rs chips
      if rx.qualThresh ≤ a then h.qualified x false
      else if rx.qualThresh ≤ b then h.qualified x true
      else if rx.evaluations + 1 < 5 then
        (h.modSlice x fun s => { s with rx := { s.rx with evaluations := rx.evaluations + 1 } }).start (.qualEval x) 400
      else
        let h := if h.partnerOnAir x then h else h.noteForeign x
        (h.dropReception x).bump (R.PHY_CNT_0_QUAL_FAIL x)

/-- A false lock: the reception is abandoned and counted (R153); energy without a valid L-SIG is foreign to a Last
occurrence in progress (R217). -/
def Hw.falseLock (h : Hw) (x : Nat) : Hw := ((h.dropReception x).bump (R.PHY_CNT_0_FALSE_LOCK x)).noteForeign x

/-- The receive latency, ball to FIFO, in nanoseconds (R87). -/
def rxLatency (x : Nat) : Nat := match x with | 0 => 160 | 1 => 140 | _ => 90

/-- LLTF_TIMING_SEARCH (R152, R159, R160, R161): a peak at the FIFO `age` before now (units of 2^-16 ns), within the 8.0 µs
after the pass, fixes the start of the L-STF at the ball, 8.0 µs and the latency of R87 before it, and the estimate from
the phase advances of L-STF and L-LTF (units of 2^-32 turn), by which the main path corrects from then on; a saturated
estimate abandons the reception and counts in OUT_TOL; no peak by the end of the search is a false lock. -/
def execLltfTimingSearch (x : Fin 3) (peak : Option Nat) (coarse fine : Int) (s : State) : Host.Outcome State Fault Refusal :=
  s.effect fun h =>
    if (h.slice x).rx.phase ≠ .searching then h
    else match peak, tget h.timers (.lltf x) with
      | none, _ => h.onTimer (.lltf x) fun h => h.falseLock x
      | some _, none => h
      | some age, some stop =>
        if h.et * 2 ^ 16 < age + (stop - 8000) * 2 ^ 16 || decide (age + stop * 2 ^ 16 < h.et * 2 ^ 16) then h
        else
          let h := h.stop (.lltf x)
          let e := freqEstimate (offsetOf coarse fine) (h.centre x).toNat
          if e.natAbs = 32767 then ((h.dropReception x).bump (R.PHY_CNT_4_OUT_TOL x)).noteForeign x
          else
            let back := age + (8000 + rxLatency x) * 2 ^ 16
            let st := if h.tbLock then stampOf ((h.nt + ntTurn - back * 2 ^ 16 % ntTurn) % ntTurn) else Stamp.zero
            h.modSlice x fun s =>
              { s with rx := { s.rx with phase := .beforeLsig, stamp := st, lstf := h.et - back / 2 ^ 16, eps := e } }

/-! ### RSSI (R167, R168) -/

/-- The level of chain `c` at the ball, in units of 2^-10 dB, from its ADC power and the trim word in force (R167). -/
def Hw.levelOf (h : Hw) (x c : Nat) (trim : Word) (pAdc : Int) : Int :=
  pAdc - (4 + gainOf (h.get (R.RFS_GAIN_G_CUR x c))) * 1024 + signedOf 8 (bitsOf trim 0 8) * 256 +
    signedOf 8 (bitsOf trim 8 8) * (h.getI (R.RFS_TEMP_T x) - 100)

/-- The RSSI of a chain with the trim that the reception keeps since D (R167, R174). -/
def Hw.rssiOf (h : Hw) (x c : Nat) (pAdc : Int) : Int :=
  clampInt (-2048) 2047 (h.levelOf x c (((h.slice x).rx.rssiCal[c]?).getD 0) pAdc / 256)

/-- The levels of the chains with CHAIN_OK set, under trims `trim c`. -/
def Hw.okLevels (h : Hw) (x : Nat) (trim : Nat → Word) (pAdc : List Int) : List Int :=
  (List.range (chainsOf x)).filterMap fun c =>
    match pAdc[c]? with
    | some p => if (h.get (R.RFS_CAL_STAT_CHAIN_OK x)).testBit c then some (h.levelOf x c (trim c) p) else none
    | none => none

/-- The sum of the linear powers of levels. -/
def linearSum (l : List Int) : Nat := l.foldl (fun n a => n + linearOf a) 0

/-- The PPDU RSSI (R167): the mean linear power over the chains with CHAIN_OK set; with none the manual states none. -/
def Hw.ppduRssi (h : Hw) (x : Nat) (pAdc : List Int) : Hw × Int :=
  match h.okLevels x (fun c => ((h.slice x).rx.rssiCal[c]?).getD 0) pAdc with
  | [] => (h.drawn, signedOf 12 h.freeNat)
  | l => (h, meanLevel (linearSum l) l.length)

/-! ### L-SIG and the later signal fields -/

/-- Pilot tracking engages (R161): beyond TRACK_THRESH, beyond the tolerance of R159, for a declared duration over 2 ms,
or always. Its loop has no figures in the manual and no state here (PRESUMED, log 48). -/
def tracks (rx : Reception) (dur : Nat) : Bool :=
  decide (rx.trackThresh < rx.eps.natAbs) || outOfTolerance rx.eps || decide (2000000 < dur) || rx.trackAlways

/-- A header has passed (R153, R161, R167, R175): the RSSI of the PPDU and of its chains, estimate and tracking are
reported, a link that owed protection no longer does (R189), and the reception ends at `stop`. Of a DSSS PPDU the manual
gives no estimate: a free value. -/
def Hw.headerPassed (h : Hw) (x : Nat) (pAdc : List Int) (dur stop : Nat) : Hw :=
  let rx := (h.slice x).rx
  let t := !rx.dsss && tracks rx dur
  let o := !rx.dsss && outOfTolerance rx.eps
  let h := h.modSlice x fun s =>
    { s with rx := { rx with phase := .afterLsig, tracked := t }, lastStamp := rx.stamp, spoiled := [], decoded := [] }
  let h := h.modWeltLink x fun w => { w with protect := false }
  let (h, r) := h.ppduRssi x pAdc
  let h := (h.setI (R.PHY_LAST_RSSI_RSSI x) r).forChains x fun c h =>
    match pAdc[c]? with
    | some p => h.setI (R.PHY_LAST_RSSI_c_RSSI x c) (h.rssiOf x c p)
    | none => h
  let h := if rx.dsss then (h.setI (R.PHY_LAST_CFO_CFO x) (signedOf 16 h.freeNat)).drawn else h.setI (R.PHY_LAST_CFO_CFO x) rx.eps
  let h := (h.setFlag (R.PHY_LAST_CFO_TRACKED x) t).setFlag (R.PHY_LAST_CFO_OUT_TOL x) o
  let h := if t then h.bump (R.PHY_CNT_4_TRACK_ON x) else h
  let h := if o then h.bump (R.PHY_CNT_4_OUT_TOL x) else h
  h.startAt (.reception x) (max h.et stop)

/-- LSIG_DECISION (R153, R154, R161, R163, R166, R175): L-SIG is decoded from its LLRs, or a PLCP header checked; a failed
check is a false lock; a pass fixes the declared end, from the start of the L-STF, or of a DSSS PPDU from the end of its
header. `pAdc`: the mean power of each chain over the L-LTF, in units of 2^-10 dBFS. -/
def execLsigDecision (x : Fin 3) (f : PpduHeader) (pAdc : List Int) (s : State) : Host.Outcome State Fault Refusal :=
  s.effect fun h =>
    let rx := (h.slice x).rx
    if rx.phase ≠ .beforeLsig then h
    else match f, rx.dsss with
      | .ofdm f llr rep, false =>
        let b := viterbi (llr.map llrOf)
        if lsigPasses f b (rep.map fun r => viterbi (r.map llrOf)) then
          let dur := declaredNs f (lsigOf b)
          h.headerPassed x pAdc dur (rx.lstf + dur)
        else h.falseLock x
      | .dsss hdr, true =>
        if plcpPasses hdr then h.headerPassed x pAdc (1000 * plcpLength hdr) (h.et + 1000 * plcpLength hdr) else h.falseLock x
      | _, _ => h

/-- The working receive chains (R162). -/
def Hw.receiveChains (h : Hw) (x : Nat) : Nat :=
  ((List.range (chainsOf x)).filter fun c => (h.get (R.RFS_CAL_STAT_CHAIN_OK x)).testBit c).length

/-- The formats that slice `x` supports (R171, R172); HE alone has STBC and midambles, and midambles are received only
(`receive`). -/
def formatSupported (x : Nat) (receive : Bool) (f : PpduShape) : Bool :=
  let w := f.width.val
  let wide := decide (w ≤ if x = 0 then 1 else 3)
  (!f.punctured || (x != 0 && (f.fmt == .he || f.fmt == .eht))) && (!f.stbc || f.fmt == .he) &&
  (f.midamble == 0 || (receive && f.fmt == .he && (f.midamble == 10 || f.midamble == 20))) &&
  (match f.fmt with
   | .dsss => x == 0 && w == 0
   | .nonHt => wide
   | .htMixed => x != 2 && decide (w ≤ 1) && decide (f.mcs ≤ 31)
   | .vht => x == 1 && decide (w ≤ 3) && decide (f.mcs ≤ 9)
   | .he => wide && decide (f.mcs ≤ 11)
   | .eht => (if x = 2 then decide (w ≤ 4) else wide) && (decide (f.mcs ≤ 13) || f.mcs == 15 || (x == 2 && f.mcs == 14))
   | .dsssOfdm => false
   | .pbcc => false
   | .htGreenfield => false)

/-- The detector of R162: maximum likelihood for at most 2 streams at up to 256-QAM. 256-QAM ends at MCS 9 of VHT, HE and
EHT, and at MCS 7 of each stream of HT (IEEE 802.11; PRESUMED, log 48). -/
def detectorOf (f : SignalField) : Detector :=
  let dense := match f.shape.fmt with
    | .he => decide (9 < f.shape.mcs)
    | .eht => decide (9 < f.shape.mcs) && decide (f.shape.mcs < 14)
    | _ => false
  if f.streams ≤ 2 ∧ !dense then .maxLog else .mmseSic

/-- SIGNAL_FIELD_CHECK (R154, R155, R162, R171, R172): a failed field or an unsupported format counts in SIG_FAIL; more
streams than working chains, or more than 4 users in an RU, in STREAM_REJ; either ends the reception, and the medium is
busy to Welt until the declared end. A field that passes says how the PPDU is detected and where its own training field
lies. -/
def execSignalFieldCheck (x : Fin 3) (f : SignalField) (s : State) : Host.Outcome State Fault Refusal :=
  s.effect fun h =>
    if (h.slice x).rx.phase ≠ .afterLsig then h
    else
      let stop := (tget h.timers (.reception x)).getD h.et
      let busy (h : Hw) : Hw := (h.dropReception x).modSlice x fun s => { s with busyUntil := stop }
      if !f.valid || !formatSupported x true f.shape then (busy h).bump (R.PHY_CNT_3_SIG_FAIL x)
      else if h.receiveChains x < f.streams ∨ 4 < f.users then (busy h).bump (R.PHY_CNT_3_STREAM_REJ x)
      else h.modSlice x fun s =>
        { s with rx := { s.rx with detector := some (detectorOf f), midamble := f.shape.midamble,
                                   blank := (s.rx.lstf + f.stf.1, s.rx.lstf + f.stf.1 + f.stf.2) } }

/-- The data symbol from which the channel estimate at symbol `n` of a PPDU comes: the last midamble, or the training
fields before the data (R162). -/
def estimateFrom (rx : Reception) (n : Nat) : Nat := if rx.midamble = 0 then 0 else n / rx.midamble * rx.midamble

/-- RECEPTION_END (R154): the last sample of the declared duration: the modem is idle, and the PPDU's stamp stays for
its MPDUs. -/
def execReceptionEnd (x : Fin 3) (s : State) : Host.Outcome State Fault Refusal :=
  s.effect fun h => h.onTimer (.reception x) fun h => (h.dropReception x).modSlice x fun s => { s with energy := false }

/-! ### Restart and capture -/

/-- The detector is blanked while the PPDU's own training field is being received (R155). -/
def Hw.blanked (h : Hw) (x : Nat) : Bool :=
  let rx := (h.slice x).rx
  rx.phase == .afterLsig && decide (rx.blank.1 ≤ h.et) && decide (h.et < rx.blank.2)

/-- RESTART_CANDIDATE (R155 to R157): the detector sees 1.6 µs of samples of every chain (32 at 20 M samples/s, the oldest
first) and, on slice A, the newest chips; `full`: the ADC reached full scale. It acts from the qualifier on (DEDUCED, log 45). A
step below 3 dB arms it again; a candidate is decided once. A restart or capture begins a new reception at once, from the
gain codes in use, unfrozen (DEDUCED, log 45). -/
def execRestartCandidate (x : Fin 3) (rs : List (List Cx)) (chips : List Cx) (full : Bool) (s : State) :
    Host.Outcome State Fault Refusal :=
  s.effect fun h =>
    let rx := (h.slice x).rx
    let late := rx.phase == .afterLsig
    if h.blanked x || rx.phase == .idle || rx.phase == .timeline then h
    else
      let margin : Int := 4 * (if late then rx.captureMargin else rx.restartMargin : Nat)
      let step := h.slicePower x rs - rx.pRef
      let step := if full then max step margin else step
      if step < 12 then h.modSlice x fun s => { s with rx := { s.rx with candidate := false } }
      else if rx.candidate then h
      else
        let (h, a, b) := h.metrics x rs chips
        if max a b < rx.qualThresh then h
        else if margin ≤ step then
          (h.bump (if late then R.PHY_CNT_2_CAPTURES x else R.PHY_CNT_1_RESTARTS x)).beginReception x
        else
          (h.bump (if late then R.PHY_CNT_2_CAPTURE_REJ x else R.PHY_CNT_1_RESTART_REJ x)).modSlice x
            fun s => { s with rx := { s.rx with candidate := true } }

/-! ### Decoding -/

/-- Free decoder cores take the oldest codewords of the buffer (R165). -/
def Hw.fillCores (h : Hw) : Hw :=
  (List.range 24).foldl (fun (h : Hw) k =>
    match kget h.ldpc.cores k, h.ldpc.buffer with
    | none, w :: rest => { h with ldpc := (⟨rest, kput h.ldpc.cores k w⟩ : LdpcPool) }
    | _, _ => h) h

/-- LDPC_CODEWORD_IN (R165): a full buffer does not take the codeword, and the MPDUs it touches become FCS failures; above
256 waiting, a higher limit is cut to 8 iterations and counted. -/
def execLdpcCodewordIn (x : Fin 3) (w : LdpcWord) (s : State) : Host.Outcome State Fault Refusal :=
  s.effect fun h =>
    let n := h.ldpc.buffer.length
    let m := (h.slice x).maxIter
    if 512 ≤ n then
      (h.bump (R.PHY_CNT_6_DEC_OVF x)).modSlice x fun s => { s with spoiled := s.spoiled ++ w.mpdus }
    else
      let cut := decide (256 < n) && decide (8 < m)
      let h := if cut then h.bump (R.PHY_CNT_5_ITER_CUT x) else h
      let c : Codeword := ⟨x, if cut then 8 else m, w⟩
      Hw.fillCores { h with ldpc := { h.ldpc with buffer := h.ldpc.buffer ++ [c] } }

/-- LDPC_DECODE_DONE (R163, R164): the codeword in core `k` is decoded; its hard decisions are delivered, and ending with a
failing check counts in LDPC_FAIL of its slice. The core takes the next codeword. -/
def execLdpcDecodeDone (k : Fin 24) (s : State) : Host.Outcome State Fault Refusal :=
  s.effect fun h =>
    match kget h.ldpc.cores k with
    | none => h
    | some w =>
      let (bits, met) := ldpcDecode w.word.checks (w.word.llr.map llrOf) w.limit
      let h := { h with ldpc := { h.ldpc with cores := kdel h.ldpc.cores k } }
      let h := h.modSlice w.slice fun s => { s with decoded := s.decoded ++ [bits] }
      (if met then h else h.bump (R.PHY_CNT_5_LDPC_FAIL w.slice)).fillCores

/-! ### Noise floor -/

/-- One subchannel takes the mean linear power of an idle block: at or above ED_THRESH it is excluded and counted; the
256th accepted block writes the noise floor (R169, R170). -/
def Hw.nfBlock (h : Hw) (x sub p : Nat) : Hw :=
  if 4 * h.getI (R.PHY_DET_CTL_ED_THRESH x) ≤ meanLevel p 1 then h.bump (R.PHY_CNT_6_NF_DISCARD x)
  else
    let sum := kgetD 0 (h.slice x).nfSums sub + p
    let n := h.get (R.PHY_NF_BLOCKS x sub) + 1
    if n < 256 then
      (h.set (R.PHY_NF_BLOCKS x sub) n).modSlice x fun s => { s with nfSums := kput s.nfSums sub sum }
    else
      let h := (h.setI (R.PHY_NF_NF x sub) (meanLevel sum 256)).set (R.PHY_NF_BLOCKS x sub) 0
      let h := h.modSlice x fun s => { s with nfSums := kput s.nfSums sub 0 }
      (h.count (R.PHY_NF_STAT_SEQ x)).set (R.PHY_NF_STAT_UPD_EV x) 1

/-- The conditions of an idle block (R169); the gain code has stood since the block's start. -/
def Hw.idleNow (h : Hw) (x : Nat) : Bool :=
  h.get (R.RFS_FSTAT_STATE x) == stOpen && !h.receiving x && !h.inSetting x && (h.slice x).cal.isNone

/-- NF_BLOCK_END (R169, R170): the idle block that began at `nfFrom` ends 16 µs later, and the next begins. `powers`: for
each 20 MHz subchannel of the operating channel, from the lowest frequency up, the mean power of each chain in units of
2^-10 dBFS; chains without CHAIN_OK are left out, as in R167. -/
def execNfBlockEnd (x : Fin 3) (powers : List (List Int)) (s : State) : Host.Outcome State Fault Refusal :=
  s.effect fun h =>
    if !h.idleNow x then h
    else
      let h := h.advanceTo ((h.slice x).nfFrom + 16000)
      let h := h.modSlice x fun s => { s with nfFrom := s.nfFrom + 16000 }
      (List.range (2 ^ h.get (R.RFS_FE_CTL_OP_BW x))).foldl (fun h sub =>
        match powers[sub]? with
        | some l =>
          match h.okLevels x (fun c => h.word (R.PHY_RSSI_CAL x c)) l with
          | [] => h
          | l => h.nfBlock x sub (linearSum l / l.length)
        | none => h) h

/-! ### Writes of the modem's registers -/

/-- A write of PHY_x_DET_CTL (R149, R174): ED_THRESH is held within −95 to −40 dBm, a negative QUAL_THRESH stores 0. -/
def Hw.writeDetCtl (h : Hw) (x : Nat) (v : Word) : Hw :=
  let e := clampInt (-95) (-40) (signedOf 8 (fieldOf v (R.PHY_DET_CTL_ED_THRESH x)))
  let q := fieldOf v (R.PHY_DET_CTL_QUAL_THRESH x)
  (h.setI (R.PHY_DET_CTL_ED_THRESH x) e).set (R.PHY_DET_CTL_QUAL_THRESH x) (if q < 32768 then q else 0)

/-- A write of PHY_x_RST_CTL (R174): the margins are held within 3 to 20 and 4 to 20 dB. -/
def Hw.writeRstCtl (h : Hw) (x : Nat) (v : Word) : Hw :=
  (h.set (R.PHY_RST_CTL_RESTART_MARGIN x) (clampNat 3 20 (fieldOf v (R.PHY_RST_CTL_RESTART_MARGIN x)))).set
    (R.PHY_RST_CTL_CAPTURE_MARGIN x) (clampNat 4 20 (fieldOf v (R.PHY_RST_CTL_CAPTURE_MARGIN x)))

/-- A write of PHY_x_DEC_CTL (R164): MAX_ITER is held within 2 to 16. -/
def Hw.writeDecCtl (h : Hw) (x : Nat) (v : Word) : Hw :=
  h.set (R.PHY_DEC_CTL_MAX_ITER x) (clampNat 2 16 (fieldOf v (R.PHY_DEC_CTL_MAX_ITER x)))

end Sys2Proof.Machine
end

