-- ==== Sys2Proof/Machine/Egress.lean ====
section
/-!
DEFINITION. What an egress does to a frame at its egress stamp point: one-step insertion into the correction field
(R290, R441, R442) and the entry of a two-step frame in the port's time-stamp queue (R443).
-/
namespace Sys2Proof.Machine

/-! ### The stamp action word (R290) -/

def Frame.act (f : Frame) : Nat := f.action % 4
def Frame.cfOff (f : Frame) : Nat := f.action / 2 ^ 2 % 128
def Frame.tag (f : Frame) : Nat := f.action / 2 ^ 16 % 2 ^ 16
def Frame.ckEn (f : Frame) : Bool := f.action.testBit 32
def Frame.ckOff (f : Frame) : Nat := f.action / 2 ^ 33 % 128

/-- `bs` with the bytes from offset `o` on replaced by `new`. -/
def patchBytes (bs : List Byte) (o : Nat) (new : List Byte) : List Byte :=
  bs.take o ++ new.take (bs.length - o) ++ bs.drop (o + new.length)

/-- The sum of the 16-bit words at even offsets, modulo 65535 (R290). -/
def onesSum (bs : List Byte) : Nat :=
  (bs.zipIdx.foldl (fun a (b, i) => a + b.toNat * (if i % 2 = 0 then 256 else 1)) 0) % 65535

/-- The field at `o` rewritten so that the frame keeps the ones'-complement sum `sum` (R290). -/
def restoreSum (bs : List Byte) (o sum : Nat) : List Byte :=
  let z := patchBytes bs o [0, 0]
  let need := (sum + 65535 - onesSum z) % 65535
  let v := if need = 0 then 0xFFFF else need
  patchBytes bs o (if o % 2 = 0 then bytesBE 2 v else bytesLE 2 v)

/-- The correction field at `o`, 64-bit signed in network order (R288, R290). -/
def cfAt (bs : List Byte) (o : Nat) : Int := signedOf 64 (ofBytesBE ((bs.drop o).take 8))

/-- One-step insertion (R441): the bytes of a frame with ACT = 1 as they leave port `p` with egress stamp `tEg`. -/
def Hw.insertResidence (h : Hw) (p : Nat) (f : Frame) (tEg : Stamp) (bs : List Byte) : Hw × List Byte :=
  if f.act = 1 then
    let (cf, ok) := h.oneStep f.stamp tEg f.src (cfAt bs f.cfOff)
    let h := if ok then h else h.bump (R.TIME_CNT_RES_BAD p)
    let bs' := patchBytes bs f.cfOff (bytesBE 8 (unsignedOf 64 cf))
    (h, if f.ckEn then restoreSum bs' f.ckOff (onesSum bs) else bs')
  else (h, bs)

/-- The entry of a two-step frame (R443). -/
def Hw.twoStep (h : Hw) (p : Nat) (f : Frame) (tEg : Stamp) (valid dropped acked : Bool) (delta : Nat) : Hw :=
  if f.act = 2 then
    h.tsqWrite p ⟨f.tag, valid && !dropped, false, dropped, acked, h.get R.TIME_STAT_STEP_CNT,
      if dropped then Stamp.zero else tEg, if acked then delta else 0⟩
  else h

/-- The transmission at the ball of port `p`. -/
def Hw.atBall (h : Hw) (p : Nat) (frames : List (List Byte)) : Hw := { h with wire := kput h.wire p frames }

end Sys2Proof.Machine
end

