-- ==== Sys2Proof/Machine/Welt.lean ====
section
/-!
DEFINITION. Welt (R177 to R207): station contexts and their commands, keys, agreements, reordering, statistics, wake-up
jobs and the TSF. What goes on air and comes from it stands in WeltAir.lean.
-/
namespace Sys2Proof.Machine

/-! ### TSF (R178) -/

def Hw.tsf (h : Hw) : Nat :=
  (h.ntMicros + h.get R.WELT_TSF_OFS_LO_LO + 2 ^ 32 * h.get R.WELT_TSF_OFS_HI_HI) % 2 ^ 64

/-- A write of WELT_TSF_OFS_LO is held (R178). -/
def Hw.writeTsfLo (h : Hw) (v : Word) : Hw := { h with welt := { h.welt with tsfHeld := v } }

/-- A write of WELT_TSF_OFS_HI applies the held low word and the written high word in one step (R178). -/
def Hw.writeTsfHi (h : Hw) (v : Word) : Hw :=
  (h.set R.WELT_TSF_OFS_LO_LO h.welt.tsfHeld.toNat).set R.WELT_TSF_OFS_HI_HI v.toNat

/-- TSF_OFS_HI_WRITE (R178). -/
def execTsfOfsHiWrite (v : Word) (s : State) : Host.Outcome State Fault Refusal := s.effect fun h => h.writeTsfHi v

/-! ### Station contexts -/

def staFree : Nat := 0
def staOpen : Nat := 1
def staClosing : Nat := 2

def Hw.staState (h : Hw) (s : Nat) : Nat := h.get (R.STA_W0_STATE s)
def Hw.isOpen (h : Hw) (s : Nat) : Bool := h.staState s == staOpen
def Hw.staLinks (h : Hw) (s : Nat) : Nat := h.get (R.STA_W0_LINKS s)
def Hw.staLinkAddr (h : Hw) (s l : Nat) : Nat := h.get (R.STA_LINK_LO_ADDR s l) + 2 ^ 32 * h.get (R.STA_LINK_HI_ADDR s l)
def Hw.mldAddr (h : Hw) (s : Nat) : Nat := h.get (R.STA_MLD_LO_ADDR s) + 2 ^ 32 * h.get (R.STA_MLD_HI_ADDR s)

/-- The addresses of a context: its link addresses of set LINKS bits and, for a multi-link station, its MLD address. -/
def Hw.staAddrs (h : Hw) (s : Nat) : List Nat :=
  (((List.range 3).filter fun l => (h.staLinks s).testBit l).map fun l => h.staLinkAddr s l) ++
    (if h.flag (R.STA_W0_MLD s) then [h.mldAddr s] else [])

/-- The contexts that are not free. -/
def Hw.stations (h : Hw) : List Nat := (List.range 1024).filter fun s => h.staState s != staFree

/-- The station of a transmitter address on link `l` (R181). -/
def Hw.stationOf (h : Hw) (l ta : Nat) : Option Nat :=
  h.stations.find? fun s => (h.staLinks s).testBit l && h.staLinkAddr s l == ta

/-- A counter of R203 is zeroed; where that changes bit 39, the station's bit of WELT_HALF is set. -/
def Hw.zeroSta (h : Hw) (s n : Nat) : Hw :=
  let h := if ((h.word (R.STA_STAT_HI s n)).getLsbD 7) then h.set ⟨R.WELT_HALF (s % 1024 / 32), s % 32, 1⟩ 1 else h
  (h.setWord (R.STA_STAT_LO s n) 0).setWord (R.STA_STAT_HI s n) 0

/-- The bits of TID `t` in a map (R179). -/
def mapOf (m t : Nat) : Nat := m / 2 ^ (3 * t) % 8

/-- The AC of a TID (R186): 0 BK, 1 BE, 2 VI, 3 VO. -/
def acOf (t : Nat) : Nat := match t with | 1 | 2 => 0 | 0 | 3 => 1 | 4 | 5 => 2 | _ => 3

/-- A counter of R203 rises. -/
def Hw.countSta (h : Hw) (s n : Nat) (by' : Nat := 1) : Hw :=
  let s := s % 1024
  h.count40 (R.STA_STAT_LO_CNT s n) (R.STA_STAT_HI_CNT s n) ⟨R.WELT_HALF (s / 32), s % 32, 1⟩ by'

def Hw.rxPn (h : Hw) (s k t : Nat) : Nat := h.get (R.STA_RXPN_LO_PN s k t) + 2 ^ 32 * h.get (R.STA_RXPN_HI_PN s k t)
def Hw.setRxPn (h : Hw) (s k t v : Nat) : Hw := (h.set (R.STA_RXPN_LO_PN s k t) v).set (R.STA_RXPN_HI_PN s k t) (v / 2 ^ 32)
def Hw.txPn (h : Hw) (s k : Nat) : Nat := h.get (R.STA_TXPN_LO_PN s k) + 2 ^ 32 * h.get (R.STA_TXPN_HI_PN s k)
def Hw.setTxPn (h : Hw) (s k v : Nat) : Hw := (h.set (R.STA_TXPN_LO_PN s k) v).set (R.STA_TXPN_HI_PN s k) (v / 2 ^ 32)
def Hw.keyValid (h : Hw) (s k : Nat) : Bool := h.flag (if k = 0 then R.STA_W12_KEY0_V s else R.STA_W12_KEY1_V s)

/-- TX_PNk and every RX_PN_k_t of a station are zeroed. -/
def Hw.zeroPns (h : Hw) (s k : Nat) : Hw := (List.range 9).foldl (fun h t => h.setRxPn s k t 0) (h.setTxPn s k 0)

/-! ### Agreements -/

def baKey (s t : Nat) : Nat := 8 * s + t
def Hw.txBa (h : Hw) (s t : Nat) : Option TxAgreement := kget h.welt.txBa (baKey s t)
def Hw.rxBa (h : Hw) (s t : Nat) : Option RxAgreement := kget h.welt.rxBa (baKey s t)
def Hw.setTxBa (h : Hw) (s t : Nat) (a : TxAgreement) : Hw :=
  { h with welt := { h.welt with txBa := kput h.welt.txBa (baKey s t) a } }
def Hw.setRxBa (h : Hw) (s t : Nat) (a : RxAgreement) : Hw :=
  { h with welt := { h.welt with rxBa := kput h.welt.rxBa (baKey s t) a } }

/-! ### The reorder store (R196) -/

/-- The slots that held MPDUs occupy. -/
def Hw.usedSlots (h : Hw) : List Nat := h.welt.rxBa.flatMap fun p => p.2.held.flatMap fun m => m.slots

/-- The first free slots of the region: none, if fewer than `n` are free. -/
def Hw.findSlots (h : Hw) (n : Nat) : Option (List Nat) :=
  let used := h.usedSlots
  let l := ((List.range (h.get R.WELT_RO_CTL_SLOTS)).filter fun i => !used.contains i).take n
  if l.length = n then some l else none

def Hw.slotAt (h : Hw) (i : Nat) : Nat := 0x11000000 + 256 * (h.get R.WELT_RO_BASE_BASE + i)

/-- The parts of `bs` that fill slots. -/
def slotParts (slots : List Nat) (bs : List Byte) : List (Nat × List Byte) :=
  slots.zipIdx.map fun (s, i) => (s, (bs.drop (256 * i)).take 256)

/-- MSDU bytes are stored in slots by the slice's DMA, and read back from them. -/
def Hw.storeSlots (h : Hw) (l : Nat) (slots : List Nat) (bs : List Byte) : Hw × Bool :=
  (slotParts slots bs).foldl (fun (h, ok) (s, b) =>
    if b.isEmpty then (h, ok) else let (h, o) := h.busWrite (16 + l) (h.slotAt s) b; (h, ok && o)) (h, true)

def Hw.loadSlots (h : Hw) (l : Nat) (slots : List Nat) (n : Nat) : Hw × Option (List Byte) :=
  slots.zipIdx.foldl (fun (h, r) (s, i) =>
    match r with
    | none => (h, none)
    | some bs =>
      let k := min 256 (n - 256 * i)
      if k = 0 then (h, some bs)
      else match h.busRead (16 + l) (h.slotAt s) k with
        | (h, some b) => (h, some (bs ++ b))
        | (h, none) => (h, none)) (h, some [])

/-- `bs` cut into pieces of the given sizes. -/
def cutBytes (sizes : List Nat) (bs : List Byte) : List (List Byte) :=
  match sizes with
  | [] => []
  | n :: r => bs.take n :: cutBytes r (bs.drop n)

/-! ### Delivery (R198, R203, R318) -/

/-- The Welt word of a frame of R318. -/
def weltWord (sta tid : Nat) (unknown mgmt : Bool) : Nat :=
  sta + tid * 2 ^ 10 + (if unknown then 2 ^ 13 else 0) + (if mgmt then 2 ^ 14 else 0)

/-- An MPDU of station `s` is released in sequence (R196, R198): one that fails its decryption or MIC, or whose key is
not valid, counts in RX_SEC_FAIL; one whose PN does not exceed the replay counter counts in RX_DUP; otherwise its MSDUs
go to Clicker with the PPDU's stamp. -/
def Hw.releaseMpdu (h : Hw) (s t : Nat) (m : HeldMpdu) (msdus : List (List Byte)) : Hw :=
  if m.protectedFrame && (!m.sound || !h.keyValid s m.key) then h.countSta s 6
  else if m.protectedFrame && decide (m.pn ≤ h.rxPn s m.key t) then h.countSta s 7
  else
    let h := if m.protectedFrame then h.setRxPn s m.key t m.pn else h
    msdus.foldl (fun h bs =>
      ((h.countSta s 4).countSta s 5 bs.length).stage (12 + m.link) bs true m.stamp (weltWord s t false false)) h

/-- A held MPDU leaves the store and is released. -/
def Hw.releaseHeld (h : Hw) (s t : Nat) (m : HeldMpdu) : Hw :=
  match h.loadSlots m.link m.slots (m.sizes.foldl (· + ·) 0) with
  | (h, some bs) => h.releaseMpdu s t m (cutBytes m.sizes bs)
  | (h, none) => h

/-- The place of a sequence number in a window that begins at `w`. -/
def snOff (sn w : Nat) : Nat := (sn + 4096 - w % 4096) % 4096

/-- The held MPDU of a sequence number. -/
def RxAgreement.find (a : RxAgreement) (sn : Nat) : Option HeldMpdu := a.held.find? fun m => m.sn == sn

/-- Everything held in sequence from WinStart on is released (R196). -/
def Hw.releaseRun (h : Hw) (s t fuel : Nat) : Hw :=
  match fuel with
  | 0 => h
  | fuel + 1 =>
    match h.rxBa s t with
    | none => h
    | some a =>
      match a.find a.winStart with
      | none => h
      | some m =>
        let h := h.releaseHeld s t m
        (h.setRxBa s t { a with winStart := (a.winStart + 1) % 4096, held := a.held.filter fun x => x.sn != m.sn }).releaseRun s t fuel

/-- WinStart moves up to `w`: the held MPDUs it passes are released in order, then what is held in sequence (R196). -/
def Hw.moveWindow (h : Hw) (s t w fuel : Nat) : Hw :=
  match fuel with
  | 0 => h
  | fuel + 1 =>
    match h.rxBa s t with
    | none => h
    | some a =>
      if a.winStart = w % 4096 then h.releaseRun s t 1025
      else
        let h := match a.find a.winStart with
          | some m => h.releaseHeld s t m
          | none => h
        let a' := { a with winStart := (a.winStart + 1) % 4096, held := a.held.filter fun x => x.sn != a.winStart }
        (h.setRxBa s t a').moveWindow s t w fuel

/-- The reorder timeout runs while an MPDU is held (R196, R205). -/
def Hw.watchGap (h : Hw) (s t : Nat) (moved : Bool) : Hw :=
  let k := TimerId.reorder (baKey s t)
  match h.rxBa s t with
  | none => h.stop k
  | some a =>
    if a.held.isEmpty then h.stop k
    else if moved || !h.running k then h.start k (h.get R.WELT_RO_CTL_TIMEOUT * 128000)
    else h

/-- REORDER_TIMEOUT (R196): WinStart advances to the oldest held MPDU, and what is held in sequence is released. -/
def execReorderTimeout (s : Fin 1024) (t : Fin 8) (st : State) : Host.Outcome State Fault Refusal :=
  st.effect fun h => h.onTimer (.reorder (baKey s t)) fun h =>
    match h.rxBa s t with
    | none => h
    | some a =>
      match a.held.foldl (fun b m => match b with
          | none => some m.sn
          | some x => if snOff m.sn a.winStart < snOff x a.winStart then some m.sn else some x) none with
      | none => h
      | some sn => ((h.setRxBa s t { a with winStart := sn }).releaseRun s t 1025).watchGap s t true

/-- Every held MPDU of an agreement is released in sequence order, and the agreement is gone (R182, R183). -/
def Hw.endRxBa (h : Hw) (s t : Nat) : Hw :=
  match h.rxBa s t with
  | none => h
  | some a =>
    let h := (List.range a.bufsz).foldl (fun h i =>
      match a.find ((a.winStart + i) % 4096) with
      | some m => h.releaseHeld s t m
      | none => h) h
    let h := { h with welt := { h.welt with rxBa := kdel h.welt.rxBa (baKey s t) } }
    (h.set ⟨R.STA_W53 s, 8 + t, 1⟩ 0).stop (.reorder (baKey s t))

def Hw.endTxBa (h : Hw) (s t : Nat) : Hw :=
  { (h.set ⟨R.STA_W53 s, t, 1⟩ 0) with welt := { h.welt with txBa := kdel h.welt.txBa (baKey s t) } }

/-! ### Context commands (R182 to R184) -/

/-- Status codes of R182. -/
def ctxOk : Nat := 0
def ctxBadState : Nat := 1
def ctxAddrDup : Nat := 2
def ctxNoResource : Nat := 3
def ctxBadArg : Nat := 4

/-- A bit count of a link mask. -/
def linkCount (m : Nat) : Nat := ((List.range 3).filter fun l => m.testBit l).length

/-- The status of OPEN (R182). -/
def Hw.openStatus (h : Hw) (s : Nat) : Nat :=
  let links := h.staLinks s
  let aid := h.get (R.STA_W0_AID s)
  if h.staState s ≠ staFree then ctxBadState
  else if links = 0 ∨ (!h.flag (R.STA_W0_MLD s) ∧ 1 < linkCount links) ∨ aid = 0 ∨ 2006 < aid ∨
      (h.flag (R.STA_W60_EMLSR s) ∧ (4 < h.get (R.STA_W60_PAD s) ∨ 5 < h.get (R.STA_W60_TRANS s))) then ctxBadArg
  else
    let mine := h.staAddrs s
    let open' := h.stations.filter fun r => h.isOpen r
    if (mine.any fun a => a.testBit 40 || (open'.any fun r => (h.staAddrs r).contains a)) ||
        (open'.any fun r => h.get (R.STA_W0_AID r) == aid) then ctxAddrDup
    else ctxOk

/-- A link mask for every TID. -/
def everyTid (m : Nat) : Nat := (List.range 8).foldl (fun a t => a + m * 2 ^ (3 * t)) 0

/-- OPEN (R181, R182). -/
def Hw.openStation (h : Hw) (s : Nat) : Hw :=
  let links := h.staLinks s
  let h := (h.zeroPns s 0).zeroPns s 1
  let h := (h.setWord (R.STA_W53 s) 0).setWord (R.STA_ACT_LO s) 0 |>.setWord (R.STA_ACT_HI s) 0
  let h := (h.setWord (R.STA_W58 s) 0).setWord (R.STA_W59 s) 0
  let h := (List.range 8).foldl (fun (h : Hw) n => h.zeroSta s n) h
  let h := (h.set (R.STA_W9_DL_MAP s) (everyTid links)).set (R.STA_W10_UL_MAP s) (everyTid links)
  let h := { h with welt := { h.welt with lastSn := h.welt.lastSn.filter fun p => p.1 / 8 != s } }
  h.set (R.STA_W0_STATE s) staOpen

/-- KEY (R182, R198). -/
def Hw.keyStation (h : Hw) (s a : Nat) : Hw :=
  let k := a / 2 ^ 11 % 2
  let h := if k = 0 then (h.set (R.STA_W12_KEY0 s) a).set (R.STA_W12_KEY0_V s) 1
    else (h.set (R.STA_W12_KEY1 s) a).set (R.STA_W12_KEY1_V s) 1
  let h := (h.set (R.STA_W12_CIPHER s) (a / 2 ^ 12)).zeroPns s k
  if a.testBit 16 then h.set (R.STA_W0_TX_KEYID s) k else h

/-- A context command other than CLOSE (R182): its status and its effect. -/
def Hw.ctxRun (h : Hw) (op s a : Nat) : Nat × Hw :=
  let t := a % 8
  let bufsz := a / 2 ^ 3 % 2 ^ 11
  let ssn := a / 2 ^ 14 % 2 ^ 12
  match op with
  | 0 => let st := h.openStatus s; (st, if st = ctxOk then h.openStation s else h)
  | 2 =>
    if !h.isOpen s then (ctxBadState, h)
    else if a / 2 ^ 12 % 16 = 0 ∨ 4 < a / 2 ^ 12 % 16 then (ctxBadArg, h)
    else (ctxOk, h.keyStation s a)
  | 3 =>
    let bad := (List.range 8).any fun t => mapOf a t == 0 || Nat.land (mapOf a t) (h.staLinks s) != mapOf a t
    if !h.isOpen s then (ctxBadState, h)
    else if bad then (ctxBadArg, h)
    else (ctxOk, h.set (if a.testBit 24 then R.STA_W10_UL_MAP s else R.STA_W9_DL_MAP s) a)
  | 4 =>
    if !h.isOpen s || (h.txBa s t).isSome then (ctxBadState, h)
    else if 2048 ≤ h.welt.txBa.length then (ctxNoResource, h)
    else if bufsz = 0 ∨ 1024 < bufsz then (ctxBadArg, h)
    else (ctxOk, (h.set ⟨R.STA_W53 s, t, 1⟩ 1).setTxBa s t ⟨bufsz, ssn, false⟩)
  | 5 => if (h.txBa s t).isNone then (ctxBadState, h) else (ctxOk, h.endTxBa s t)
  | 6 =>
    if !h.isOpen s || (h.rxBa s t).isSome then (ctxBadState, h)
    else if 2048 ≤ h.welt.rxBa.length ∨ h.get R.WELT_RO_CTL_SLOTS = 0 then (ctxNoResource, h)
    else if bufsz = 0 ∨ 1024 < bufsz then (ctxBadArg, h)
    else (ctxOk, (h.set ⟨R.STA_W53 s, 8 + t, 1⟩ 1).setRxBa s t ⟨bufsz, ssn, []⟩)
  | 7 => if (h.rxBa s t).isNone then (ctxBadState, h) else (ctxOk, h.endRxBa s t)
  | _ => (ctxBadArg, h)

/-- A context command completes (R205). -/
def Hw.ctxReport (h : Hw) (s st : Nat) : Hw :=
  (((h.set R.WELT_CTX_RSP_BUSY 0).set R.WELT_CTX_RSP_DONE_EV 1).set R.WELT_CTX_RSP_STATUS st).set R.WELT_CTX_RSP_STA s

/-- A write of WELT_CTX_CMD (R182 to R184): LOST while a command runs; CLOSE makes an open station closing and stays
busy; every other command completes. -/
def Hw.ctxCommand (h : Hw) (op s : Nat) : Hw :=
  if h.flag R.WELT_CTX_RSP_BUSY then h.set R.WELT_CTX_RSP_LOST 1
  else if op = 1 then
    if h.isOpen s then ((h.set (R.STA_W0_STATE s) staClosing).set R.WELT_CTX_RSP_BUSY 1).set R.WELT_CTX_RSP_STA s
    else h.ctxReport s ctxBadState
  else
    let (st, h) := h.ctxRun op s (h.get R.WELT_CTX_ARG_ARG)
    h.ctxReport s st

def Hw.writeCtxCmd (h : Hw) (v : Word) : Hw := h.ctxCommand (fieldOf v R.WELT_CTX_CMD_OP) (fieldOf v R.WELT_CTX_CMD_STA)

/-- OPEN (R181, R182). -/
def execOpen (s : Fin 1024) (st : State) : Host.Outcome State Fault Refusal := st.effect fun h => h.ctxCommand 0 s
/-- CLOSE (R183). -/
def execClose (s : Fin 1024) (st : State) : Host.Outcome State Fault Refusal := st.effect fun h => h.ctxCommand 1 s
/-- KEY (R182). -/
def execKey (s : Fin 1024) (st : State) : Host.Outcome State Fault Refusal := st.effect fun h => h.ctxCommand 2 s
/-- MAP (R182). -/
def execMap (s : Fin 1024) (st : State) : Host.Outcome State Fault Refusal := st.effect fun h => h.ctxCommand 3 s
/-- BA_TX_ADD (R182). -/
def execBaTxAdd (s : Fin 1024) (st : State) : Host.Outcome State Fault Refusal := st.effect fun h => h.ctxCommand 4 s
/-- BA_TX_DEL (R182). -/
def execBaTxDel (s : Fin 1024) (st : State) : Host.Outcome State Fault Refusal := st.effect fun h => h.ctxCommand 5 s
/-- BA_RX_ADD (R182). -/
def execBaRxAdd (s : Fin 1024) (st : State) : Host.Outcome State Fault Refusal := st.effect fun h => h.ctxCommand 6 s
/-- BA_RX_DEL (R182). -/
def execBaRxDel (s : Fin 1024) (st : State) : Host.Outcome State Fault Refusal := st.effect fun h => h.ctxCommand 7 s

/-- A PPDU in flight carries an MPDU of station `s`. -/
def Hw.inFlight (h : Hw) (s : Nat) : Bool :=
  h.welt.exchanges.any fun e => e.2.stas.contains s || e.2.frames.any fun id => (h.mpdu id).any fun m => m.sta == some s

/-- CLOSE_COMPLETE (R183): once no PPDU in flight carries its MPDUs, a closing station's agreements, keys and addresses
go, what was held for it is released, and its context is free. -/
def execCloseComplete (s : Fin 1024) (st : State) : Host.Outcome State Fault Refusal :=
  st.effect fun h =>
    if h.staState s = staClosing ∧ !h.inFlight s then
      let h := (List.range 8).foldl (fun h t => (h.endTxBa s t).endRxBa s t) h
      let h := (h.set (R.STA_W12_KEY0_V s) 0).set (R.STA_W12_KEY1_V s) 0
      let h := { h with welt := { h.welt with mpdus := h.welt.mpdus.filter fun p => p.2.sta != some s.val } }
      (h.set (R.STA_W0_STATE s) staFree).ctxReport s ctxOk
    else h

/-! ### Writes of Welt's registers -/

/-- The words of a context that hold fields firmware writes while it is free (R180): 0 to 8, 11, 55 and 60. -/
def staGuarded (w : Nat) : Bool := decide (w ≤ 8) || w == 11 || w == 55 || w == 60

/-- A write to a word of station context `s` (R180): a guarded word only while the context is free; RES_ONLY of word 9 at
any time; every other word is RO and ignores the write. -/
def Hw.writeSta (h : Hw) (s a : Nat) (v : Word) : Hw :=
  if staGuarded ((a - R.STA_W0 s) / 4) && h.staState s != staFree then h.set R.WELT_STAT_CFG_ERR 1 else h.writeFields a v

/-- A write of WELT_MLD_ADDR or WELT_x_ADDR (R204): discarded while any context is open. -/
def Hw.writeOwnAddr (h : Hw) (a : Nat) (v : Word) : Hw :=
  if h.stations.any fun s => h.isOpen s then h.set R.WELT_STAT_CFG_ERR 1 else h.writeFields a v

/-- A write of WELT_RO_BASE or WELT_RO_CTL (R196, R205). -/
def Hw.writeReorder (h : Hw) (a : Nat) (v : Word) : Hw :=
  let base := if a = R.WELT_RO_BASE then fieldOf v R.WELT_RO_BASE_BASE else h.get R.WELT_RO_BASE_BASE
  let slots := if a = R.WELT_RO_CTL then fieldOf v R.WELT_RO_CTL_SLOTS else h.get R.WELT_RO_CTL_SLOTS
  if !h.welt.rxBa.isEmpty ∨ 32768 < base + slots ∨ 16384 < slots then h.set R.WELT_STAT_CFG_ERR 1
  else
    let h := h.writeFields a v
    h.set R.WELT_RO_CTL_TIMEOUT (max 1 (h.get R.WELT_RO_CTL_TIMEOUT))

/-- A write of a word of key slot `k` (R197): a group slot's transmit PN is zero again. -/
def Hw.writeKey (h : Hw) (k w : Nat) (v : Word) : Hw :=
  let h := h.setWord (R.WELT_KEY k w) v
  if 2048 ≤ k then { h with welt := { h.welt with groupPn := kdel h.welt.groupPn k } } else h

/-- A write of WELT_x_WUR (R200, R207): slice C has none; a subchannel beyond the operating width is refused. -/
def Hw.writeWeltWur (h : Hw) (l : Nat) (v : Word) : Hw :=
  if l = 2 then h
  else if 2 ^ h.get (R.RFS_FE_CTL_OP_BW l) ≤ fieldOf v (R.WELT_WUR_SUBCH l) then h.set R.WELT_STAT_CFG_ERR 1
  else h.writeFields (R.WELT_WUR l) v

/-- A write of WELT_x_EDCA_ac (R207): AIFSN and RETRY store at least 1; ECWMIN above ECWMAX is refused. -/
def Hw.writeEdca (h : Hw) (l ac : Nat) (v : Word) : Hw :=
  if fieldOf v (R.WELT_EDCA_ECWMAX ac l) < fieldOf v (R.WELT_EDCA_ECWMIN ac l) then h.set R.WELT_STAT_CFG_ERR 1
  else
    let h := h.writeFields (R.WELT_EDCA ac l) v
    (h.set (R.WELT_EDCA_AIFSN ac l) (max 1 (h.get (R.WELT_EDCA_AIFSN ac l)))).set (R.WELT_EDCA_RETRY ac l)
      (max 1 (h.get (R.WELT_EDCA_RETRY ac l)))

/-- A write of WELT_WUR_j_TIME (R206). -/
def Hw.writeWurTime (h : Hw) (j : Nat) (v : Word) : Hw :=
  h.set (R.WELT_WUR_TIME_SPACING j) (max 1 (fieldOf v (R.WELT_WUR_TIME_SPACING j)))

/-- A word of the traffic bitmap (R195): bit `b` is AID 32n + b, with a non-empty air queue and PM set on every link set
up. -/
def Hw.timWord (h : Hw) (n : Nat) : Word :=
  h.stations.foldl (fun w s =>
    let aid := h.get (R.STA_W0_AID s)
    let pm := Nat.land (h.get (R.STA_W0_PM s)) (h.staLinks s) == h.staLinks s
    if h.isOpen s && aid / 32 == n && pm && ((List.range 8).any fun t => !(h.queueFrames (8 * s + t)).isEmpty) then
      w ||| BitVec.ofNat 32 (2 ^ (aid % 32))
    else w) 0

/-! ### Wake-up jobs (R199, R206) -/

def wurIdle : Nat := 0
def wurSending : Nat := 1
def wurWoken : Nat := 2
def wurNoResponse : Nat := 3
def wurSent : Nat := 4
def wurRefused : Nat := 5

def Hw.wurEnd (h : Hw) (j st : Nat) : Hw :=
  let h := (h.set (R.WELT_WUR_STAT_STATE j) st).set (R.WELT_WUR_STAT_DONE_EV j) 1
  { (h.stop (.wurSend j)) with welt := { h.welt with jobs := kdel h.welt.jobs j } }

/-- A write of WELT_WUR_j_CMD (R199). -/
def Hw.writeWurCmd (h : Hw) (j : Nat) (v : Word) : Hw :=
  if h.get (R.WELT_WUR_STAT_STATE j) = wurSending then h.set R.WELT_STAT_CFG_ERR 1
  else
    let h := h.writeFields (R.WELT_WUR_CMD j) v
    let h := (h.set (R.WELT_WUR_STAT_SENT j) 0).set (R.WELT_WUR_STAT_SKIPPED j) 0
    let s := h.get (R.WELT_WUR_CMD_STA j)
    if h.flag (R.WELT_WUR_CMD_GROUP j) || (h.isOpen s && h.flag (R.STA_W0_WUR s)) then
      let h := (h.set (R.WELT_WUR_STAT_STATE j) wurSending).start (.wurSend j) 0
      { h with welt := { h.welt with jobs := kput h.welt.jobs j ⟨h.et, 0, false⟩ } }
    else h.wurEnd j wurRefused

/-- WUR_JOB_START (R199). -/
def execWurJobStart (j : Fin 16) (v : Word) (s : State) : Host.Outcome State Fault Refusal := s.effect fun h => h.writeWurCmd j v

/-- WUR_SEND_DUE (R199): a send not started by now is skipped; the next falls due, or the job ends. -/
def execWurSendDue (j : Fin 16) (s : State) : Host.Outcome State Fault Refusal :=
  s.effect fun h => h.onTimer (.wurSend j) fun h =>
    match kget h.welt.jobs j with
    | none => h
    | some b =>
      let h := if b.waiting then h.set (R.WELT_WUR_STAT_SKIPPED j) (h.get (R.WELT_WUR_STAT_SKIPPED j) + 1) else h
      if b.next ≤ h.get (R.WELT_WUR_CMD_REPEAT j) then
        let at' := b.startEt + (b.next + 1) * h.get (R.WELT_WUR_TIME_SPACING j) * 1000000
        { (h.startAt (.wurSend j) at') with
          welt := { h.welt with jobs := kput h.welt.jobs j { b with next := b.next + 1, waiting := true } } }
      else h.wurEnd j (if h.flag (R.WELT_WUR_CMD_GROUP j) then wurSent else wurNoResponse)

/-- WUR_BEACON_DUE (R200): at the next multiple of PERIOD TU of the TSF a WUR Beacon falls due; with the link
unavailable it is skipped. -/
def execWurBeaconDue (l : Fin 3) (s : State) : Host.Outcome State Fault Refusal :=
  s.effect fun h =>
    let p := h.get (R.WELT_WUR_PERIOD l) * 1024
    if p = 0 ∨ l.val = 2 then h
    else
      let wait := p - h.tsf % p
      h.atNt (ntAdd 0 (ntOfMicros (h.ntMicros + wait))) fun h =>
        if h.linkAvailable l then { h with welt := { h.welt with beacons := l.val :: h.welt.beacons.filter (· != l.val) } }
        else h

/-- The first frame with a valid FCS from a station ends its wake-up jobs after their first send (R199). -/
def Hw.wurHeard (h : Hw) (s : Nat) : Hw :=
  (List.range 16).foldl (fun h j =>
    if h.get (R.WELT_WUR_STAT_STATE j) == wurSending && !h.flag (R.WELT_WUR_CMD_GROUP j) &&
        h.get (R.WELT_WUR_CMD_STA j) == s && decide (0 < h.get (R.WELT_WUR_STAT_SENT j)) then h.wurEnd j wurWoken
    else h) h

end Sys2Proof.Machine
end

