-- ==== Sys2Proof/Machine/WeltAir.lean ====
section
/-!
DEFINITION. Welt on air: contention and selection (R187 to R194), what exchanges send and how they end (R190, R191,
R194, R198), the content of Last entries (R213, R225, R226), and received MPDUs (R181, R195 to R198).
-/
namespace Sys2Proof.Machine

/-! ### MPDUs -/

/-- The greatest PN (R198). -/
def pnMax : Nat := 2 ^ 48 - 1

/-- The lifetime of an AC on a link in nanoseconds, and whether a frame has outlived it (R194). -/
def Hw.lifetime (h : Hw) (l ac : Nat) : Nat :=
  1000000 * (match ac with
    | 0 => h.get (R.WELT_LIFE_BK l)
    | 1 => h.get (R.WELT_LIFE_BE l)
    | 2 => h.get (R.WELT_LIFE_VI l)
    | _ => h.get (R.WELT_LIFE_VO l))
def Hw.outlived (h : Hw) (l ac : Nat) (f : Frame) : Bool :=
  decide (0 < h.lifetime l ac) && decide (f.enqAt + h.lifetime l ac < h.et)

/-- A frame of an air queue is dropped after selection (R183, R194, R198, R443): TX_DROP of its station counts, and a
two-step frame leaves an entry marked DROPPED. -/
def Hw.dropAir (h : Hw) (l : Nat) (sta : Option Nat) (id : Nat) : Hw :=
  let h := match sta with
    | some s => h.countSta s 3
    | none => h
  let h := h.twoStep (12 + l) (h.frame id) Stamp.zero false true false 0
  (h.forgetMpdu id).freeFrame id

/-- The sequence number of the oldest MPDU of an agreement still to be acknowledged (R194). -/
def Hw.oldestSn (h : Hw) (s t : Nat) : Option Nat :=
  let next := kgetD 0 h.welt.nextSn (baKey s t)
  (h.welt.mpdus.filter fun p => p.2.sta == some s && p.2.tid == t).foldl (fun b p =>
    match b with
    | none => some p.2.sn
    | some x => if snOff next x < snOff next p.2.sn then some p.2.sn else some x) none

/-- When the oldest MPDU of a window goes, the window moves past it and a BlockAckReq is due (R194). -/
def Hw.slideWindow (h : Hw) (s t : Nat) (bar : Bool) : Hw :=
  match h.txBa s t with
  | none => h
  | some a =>
    h.setTxBa s t { a with winStart := (h.oldestSn s t).getD (kgetD 0 h.welt.nextSn (baKey s t)), barDue := a.barDue || bar }

/-- An MPDU of a station is dropped with its window moved past it. -/
def Hw.dropMpdu (h : Hw) (l id : Nat) (m : Mpdu) : Hw :=
  let oldest := match m.sta with
    | some s => h.oldestSn s m.tid == some m.sn
    | none => false
  let h := h.dropAir l m.sta id
  match m.sta with
  | some s => if oldest then h.slideWindow s m.tid true else h
  | none => h

/-! ### Contention windows (R191, R193) -/

def Hw.edca (h : Hw) (l ac : Nat) : Edca := kgetD ⟨none, 0, false, none⟩ h.welt.edca (4 * l + ac)
def Hw.setEdca (h : Hw) (l ac : Nat) (e : Edca) : Hw := { h with welt := { h.welt with edca := kput h.welt.edca (4 * l + ac) e } }
def Hw.cwMin (h : Hw) (l ac : Nat) : Nat := 2 ^ h.get (R.WELT_EDCA_ECWMIN ac l) - 1
def Hw.cwMax (h : Hw) (l ac : Nat) : Nat := 2 ^ h.get (R.WELT_EDCA_ECWMAX ac l) - 1

/-- A new backoff is drawn with contention window `cw` (R193); the AC's parameters take effect (R207). -/
def Hw.drawBackoff (h : Hw) (l ac : Nat) (cw : Nat) : Hw :=
  (h.setEdca l ac ⟨some cw, (Config.randomWord h.free).toNat % (cw + 1), false, some (h.word (R.WELT_EDCA ac l))⟩).drawn

/-- The parameter word of an AC since its last draw (R207). -/
def Hw.edcaPar (h : Hw) (l ac : Nat) : Word := ((h.edca l ac).par).getD (h.word (R.WELT_EDCA ac l))

/-- The TXOP limit in nanoseconds (0: one exchange) and RETRY of an AC. -/
def Hw.txopLimit (h : Hw) (l ac : Nat) : Nat := 32000 * fieldOf (h.edcaPar l ac) (R.WELT_EDCA_TXOP ac l)
def Hw.retryLimit (h : Hw) (l ac : Nat) : Nat := fieldOf (h.edcaPar l ac) (R.WELT_EDCA_RETRY ac l)

/-- The AC draws with its window unchanged, doubled, or at CWmin again. -/
def Hw.redraw (h : Hw) (l ac : Nat) : Hw := h.drawBackoff l ac (((h.edca l ac).cw).getD (h.cwMin l ac))
def Hw.doubleCw (h : Hw) (l ac : Nat) : Hw :=
  h.drawBackoff l ac (min (2 * (((h.edca l ac).cw).getD (h.cwMin l ac)) + 1) (h.cwMax l ac))
def Hw.resetCw (h : Hw) (l ac : Nat) : Hw := h.drawBackoff l ac (h.cwMin l ac)

/-! ### Pulling frames (R187, R190, R194, R198) -/

/-- A station's TID may be served on a link at all (R187): open, mapped, and awake there. -/
def Hw.linkPermits (h : Hw) (l s t : Nat) : Bool :=
  h.isOpen s && (mapOf (h.get (R.STA_W9_DL_MAP s)) t).testBit l && !(h.get (R.STA_W0_PM s)).testBit l

/-- An EMLSR station is bound to another link, or an exchange there serves it (R201). -/
def Hw.emlsrElsewhere (h : Hw) (l s : Nat) : Bool :=
  h.emlsr s &&
  ((match kget h.welt.emlsr s with
    | some (l', until') => l' != l && decide (h.et < until')
    | none => false) ||
   h.welt.exchanges.any fun e => e.1 != l && e.2.stas.contains s)

/-- The slot of group key `j` of link `l`: GTK 0 and 1, IGTK 2 and 3, BIGTK 4 and 5 (R197). -/
def groupSlot (l j : Nat) : Nat := 2048 + 6 * l + j

/-- Group key `j` of a link under a cipher code: none, where the cipher is off or the slot is not valid (R197, R207). -/
def Hw.groupKey (h : Hw) (l j cipher : Nat) : Option MpduKey :=
  if cipher ≠ 0 ∧ (h.get (R.WELT_GKEY_VALID l)).testBit j then
    some ⟨groupSlot l j, if j < 2 then j + 1 else j + 2, cipher⟩
  else none

/-- The pairwise key a station is sent under (R179, R197). -/
def Hw.pairwiseKey (h : Hw) (s : Nat) : Option MpduKey :=
  let k := h.get (R.STA_W0_TX_KEYID s)
  if h.keyValid s k then
    some ⟨h.get (if k = 0 then R.STA_W12_KEY0 s else R.STA_W12_KEY1 s), k, h.get (R.STA_W12_CIPHER s)⟩
  else none

/-- The next PN of a key is assigned (R190, R198), from TX_PN of station `s` for its pairwise key: none, if it would exceed
its range. -/
def Hw.nextPn (h : Hw) (s : Option Nat) (k : Option MpduKey) : Option (Hw × Nat) :=
  match k, s with
  | none, _ => some (h, 0)
  | some k, some s =>
    let pn := h.txPn s k.id + 1
    if pnMax < pn then none else some (h.setTxPn s k.id pn, pn)
  | some k, none =>
    let pn := kgetD 0 h.welt.groupPn k.slot + 1
    if pnMax < pn then none
    else some ({ h with welt := { h.welt with groupPn := kput h.welt.groupPn k.slot pn } }, pn)

/-- The frame becomes an MPDU of its station (R190, R198): the next sequence number of the TID and, with a valid key,
the next PN; none: the PN would exceed its range. -/
def Hw.newMpdu (h : Hw) (id s t : Nat) : Option Hw :=
  let k := h.pairwiseKey s
  (h.nextPn (some s) k).map fun (h, pn) =>
    let sn := kgetD 0 h.welt.nextSn (baKey s t)
    let h : Hw := { h with welt := { h.welt with nextSn := kput h.welt.nextSn (baKey s t) ((sn + 1) % 4096) } }
    h.setMpdu id ⟨some s, t, sn, pn, k, 0, false, Stamp.zero, false⟩

/-! Frames of the management queue are whole IEEE 802.11 management frames, and the layout of their header, the robust
ones among them and the layout of a beacon are those of IEEE 802.11 (PRESUMED, log 48). -/

/-- The receiver address of a management frame. -/
def mgmtRa (bs : List Byte) : Nat := ofBytesBE ((bs.drop 4).take 6)

/-- A robust management frame: disassociation, deauthentication, or an Action frame of a robust category. -/
def mgmtRobust (bs : List Byte) : Bool :=
  let fc := ((bs[0]?).getD 0).toNat
  fc == 0xA0 || fc == 0xC0 ||
  (fc == 0xD0 && !([4, 7, 11, 15, 20, 21, 22, 30, 36, 127].contains ((bs[24]?).getD 0).toNat))

/-- The station a management frame is addressed to on link `l`, and the key it goes under (R197): the pairwise key of an
individually addressed robust frame, IGTK for a group-addressed one. -/
def Hw.mgmtKey (h : Hw) (l : Nat) (bs : List Byte) : Option Nat × Option MpduKey :=
  if (mgmtRa bs).testBit 40 then
    (none, h.groupKey l (2 + h.get (R.WELT_GKEY_TX_IGTK l)) (h.get (R.WELT_GKEY_MCIPHER l)))
  else
    match h.stationOf l (mgmtRa bs) with
    | some s => (some s, if mgmtRobust bs then h.pairwiseKey s else none)
    | none => (none, none)

/-- The frame becomes an MPDU of its link: a group frame under the GTK in use (`grp`), or a management frame. -/
def Hw.newLinkMpdu (h : Hw) (id l : Nat) (grp : Bool) : Option Hw :=
  let (s, k) := if grp then (none, h.groupKey l (h.get (R.WELT_GKEY_TX_GTK l)) (h.get (R.WELT_GKEY_GCIPHER l)))
    else h.mgmtKey l (h.leavingBytes (h.frame id))
  (h.nextPn s k).map fun (h, pn) =>
    let sn := kgetD 0 h.welt.linkSn l
    let h : Hw := { h with welt := { h.welt with linkSn := kput h.welt.linkSn l ((sn + 1) % 4096) } }
    h.setMpdu id ⟨none, 8, sn, pn, k, 0, false, Stamp.zero, false⟩

/-- A frame fits the window of its agreement (R194): no sequence number beyond BUFSZ from the oldest one
outstanding. -/
def Hw.inWindow (h : Hw) (s t sn : Nat) : Bool :=
  match h.txBa s t with
  | none => true
  | some a =>
    match h.oldestSn s t with
    | none => true
    | some o => decide (snOff sn o < a.bufsz)

/-- The MSDU can be read by the slice's DMA; a failed access loses it. -/
def Hw.airReadable (h : Hw) (l id : Nat) : Hw × Bool :=
  let (h, r) := h.readLeaving (16 + l) (h.frame id)
  (h, r.isSome)

/-- An MPDU, or a frame that is none yet, is dropped after it was pulled. -/
def Hw.dropPulled (h : Hw) (l : Nat) (sta : Option Nat) (id : Nat) : Hw :=
  match h.mpdu id with
  | some m => h.dropMpdu l id m
  | none => h.dropAir l sta id

/-- Up to `n` frames of queue `q` = 8s + t are placed in a PPDU of link `l`, oldest first (R183, R190, R194, R198): one
whose station is not open is dropped with NO_STA; those too old, or without a PN left, are dropped; the window bounds the
rest. -/
def Hw.pull (h : Hw) (l s t n : Nat) (ids : List Nat) : Hw × List Nat :=
  match ids with
  | [] => (h, [])
  | id :: rest =>
    if n = 0 then (h, [])
    else
      let q := 8 * s + t
      let take (h : Hw) : Hw × List Nat :=
        match h.airReadable l id with
        | (h, true) => let (h, r) := (h.takeFrom q id).pull l s t (n - 1) rest; (h, id :: r)
        | (h, false) => ((h.takeFrom q id).dropPulled l (some s) id).pull l s t n rest
      if !h.isOpen s then ((h.takeFrom q id).dropPulled l (some s) id).pull l s t (n - 1) rest
      else if h.outlived l (acOf t) (h.frame id) then
        (((h.takeFrom q id).bump (R.WELT_CNT_2_LIFE_DROP l)).dropPulled l (some s) id).pull l s t n rest
      else
        match h.mpdu id with
        | some m => if h.inWindow s t m.sn then take h else (h, [])
        | none =>
          if !h.inWindow s t (kgetD 0 h.welt.nextSn (baKey s t)) then (h, [])
          else
            match h.newMpdu id s t with
            | some h => take h
            | none => (((h.takeFrom q id).dropAir l (some s) id).set R.WELT_STAT_PN_EV 1).pull l s t n rest

/-- The MPDUs a station's TID adds to a PPDU: up to `fit` under an agreement, else one (R194). -/
def Hw.pullTid (h : Hw) (l s t fit : Nat) : Hw × List Nat :=
  h.pull l s t (if (h.txBa s t).isSome then fit else min 1 fit) (h.queueFrames (8 * s + t))

/-- The BlockAckReqs due ahead of the MPDUs `ids` (R194). -/
def Hw.barsOf (h : Hw) (ids : List Nat) : List (Nat × Nat) :=
  ((ids.filterMap fun id => (h.mpdu id).bind fun m => m.sta.map fun s => (s, m.tid)).filter fun p =>
    (h.txBa p.1 p.2).any (·.barDue)).eraseDups

/-- The BlockAckReqs of an exchange have been sent. -/
def Hw.barsSent (h : Hw) (e : Exchange) : Hw :=
  e.bars.foldl (fun (h : Hw) (p : Nat × Nat) =>
    match h.txBa p.1 p.2 with
    | some a => h.setTxBa p.1 p.2 { a with barDue := false }
    | none => h) h

/-- The oldest sendable frame of a group or management queue becomes the MPDU of an exchange of AC `ac` (R194, R198). -/
def Hw.pullHead (h : Hw) (l q ac : Nat) (grp : Bool) (ids : List Nat) : Hw × List Nat :=
  match ids with
  | [] => (h, [])
  | id :: rest =>
    let h := h.takeFrom q id
    if h.outlived l ac (h.frame id) then
      ((h.bump (R.WELT_CNT_2_LIFE_DROP l)).dropPulled l none id).pullHead l q ac grp rest
    else
      match h.airReadable l id with
      | (h, false) => (h.dropPulled l none id).pullHead l q ac grp rest
      | (h, true) =>
        match (if (h.mpdu id).isSome then some h else h.newLinkMpdu id l grp) with
        | some h => (h, [id])
        | none => ((h.dropAir l none id).set R.WELT_STAT_PN_EV 1).pullHead l q ac grp rest

/-! ### Contention (R188 to R193, R218) -/

/-- The TIDs of an AC, the higher first. -/
def tidsOf (ac : Nat) : List Nat := match ac with | 0 => [2, 1] | 1 => [3, 0] | 2 => [5, 4] | _ => [7, 6]

/-- A station's TID may be served in contention (R187, R193, R201). -/
def Hw.contends (h : Hw) (l s t : Nat) : Bool :=
  h.linkPermits l s t && !(h.get (R.STA_W9_RES_ONLY s)).testBit t && !(h.queueFrames (8 * s + t)).isEmpty &&
  !h.emlsrElsewhere l s

/-- The station an AC serves next (R193): round-robin from the one after the station served last. -/
def Hw.nextStation (h : Hw) (l ac : Nat) : Option (Nat × Nat) :=
  let last := kgetD 1023 h.welt.served (4 * l + ac)
  (List.range 1024).findSome? fun i =>
    let s := (last + 1 + i) % 1024
    if h.isOpen s then ((tidsOf ac).find? fun t => h.contends l s t).map fun t => (s, t) else none

/-- The job whose send waits on link `l` (R199): a group job's, or that of a station that is still open (R183). -/
def Hw.wurWaiting (h : Hw) (l : Nat) : Option Nat :=
  (h.welt.jobs.find? fun p => p.2.waiting &&
    (let s := h.get (R.WELT_WUR_CMD_STA p.1)
     if h.flag (R.WELT_WUR_CMD_GROUP p.1) then l == 0 else h.isOpen s && h.get (R.STA_W55_WUR_LINK s) == l)).map (·.1)

/-- An exchange of stations `stas` with the given frames: it begins with an MU-RTS where one of them operates EMLSR
(R201), and BlockAckReqs that are due go with it (R194). -/
def Hw.newExchange (h : Hw) (k : ExchangeKind) (ac : Nat) (ids stas : List Nat) (responses : Bool) : Exchange :=
  { kind := k, ac := ac, frames := ids, rts := stas.any fun s => h.emlsr s, issued := false, awaits := false,
    reserved := false, responses := responses, stas := stas, bars := h.barsOf ids, users := [], ulNs := 0, width := none }

/-- An exchange of AC `ac` is formed from the first eligible source (R193). A management frame is acknowledged unless it
goes to a group; a link that owes protection begins with an RTS (R189). -/
def Hw.serve (h : Hw) (l ac fit : Nat) : Hw × Option Exchange :=
  let mk (h : Hw) (k : ExchangeKind) (ids stas : List Nat) (resp : Bool) : Exchange :=
    let e := h.newExchange k ac ids stas resp
    { e with rts := e.rts || (h.weltLink l).protect }
  let mgmt := h.get (R.WELT_CFG_MGMTQ l)
  let grp := h.get (R.WELT_CFG_GRPQ l)
  let wur := h.wurWaiting l
  if ac = 3 ∧ !(h.queueFrames mgmt).isEmpty then
    match h.pullHead l mgmt 3 false (h.queueFrames mgmt) with
    | (h, id :: _) =>
      let ra := mgmtRa (h.leavingBytes (h.frame id))
      (h, some (mk h .data [id] (h.stationOf l ra).toList (!ra.testBit 40)))
    | (h, []) => (h, none)
  else if ac = 3 ∧ wur.isSome then (h, wur.map fun j => mk h (.wur j) [] [] false)
  else if ac = 3 ∧ h.welt.beacons.contains l then
    ({ h with welt := { h.welt with beacons := h.welt.beacons.filter (· != l) } }, some (mk h .wurBeacon [] [] false))
  else if ac = 1 ∧ !(h.queueFrames grp).isEmpty then
    match h.pullHead l grp 1 true (h.queueFrames grp) with
    | (h, []) => (h, none)
    | (h, ids) => (h, some (mk h .group ids [] false))
  else
    match h.nextStation l ac with
    | none => (h, none)
    | some (s, t) =>
      let h : Hw := { h with welt := { h.welt with served := kput h.welt.served (4 * l + ac) s } }
      match h.pullTid l s t fit with
      | (h, []) => (h, none)
      | (h, ids) => (h, some (mk h .data ids [s] true))

/-- The nanoseconds left to the end of the occurrence in progress (R214). -/
def Hw.entryLeft (h : Hw) (l : Nat) : Option Nat :=
  (h.lastOf l).occ.map fun o => (ntDiff (ntAdd o.start (ntOfMicros (entryOf o.words).dur)) h.nt).toNat / 2 ^ 32

/-- What lasts `ns` nanoseconds from now fits the contention time (R214, R218): it ends by the end of a BEACON or CAL entry
in progress, by the start of the next entry, and no calibration waits for the window. -/
def Hw.mayContend (h : Hw) (l ns : Nat) : Bool :=
  (match (h.lastOf l).occ with
    | some o => o.phase == .open && decide (ns ≤ (h.entryLeft l).getD 0)
    | none => true) &&
  !((h.slice l).calWindow.any fun stop => decide (h.et + driftReband l ≤ stop)) &&
  !h.entryWithin l ns (fun e => h.boundsContention l e)

/-- EDCA_BACKOFF_ZERO (R187 to R194, R197, R198, R201, R218): an AC wins on link `l`. `fit`: how many MPDUs the PPDU
holds at its rate; `ns`: the length of the exchange, which the TXOP limit bounds. -/
def Hw.acWins (h : Hw) (l ac fit ns : Nat) : Hw :=
  if !h.linkAvailable l || (h.exchange l).isSome || (h.slice l).held.isSome then h
  else
    let h := h.setEdca l ac { h.edca l ac with backoff := 0, par := some (h.edcaPar l ac) }
    if !h.mediumIdle l then (if (h.edca l ac).hold then h.redraw l ac else h)
    else
      let blocked := match h.nstrPartner l with
        | some y => h.receiving y && !h.transmitting y
        | none => false
      let limit := h.txopLimit l ac
      if blocked then
        if (h.edca l ac).hold then h
        else (h.setEdca l ac { h.edca l ac with hold := true }).bump (R.WELT_CNT_1_NSTR_HOLD l)
      else if !h.mayContend l ns || (limit != 0 && decide (limit < ns)) then h
      else
        match h.serve l ac fit with
        | (h, some e) =>
          let h := (h.setEdca l ac { h.edca l ac with hold := false }).setExchange l e
          h.modWeltLink l fun w =>
            { w with txop := match e.kind, e.stas with
                | .data, [s] => if limit = 0 then none else some ⟨ac, s, h.et + limit⟩
                | _, _ => none }
        | (h, none) => h

def execEdcaBackoffZero (l : Fin 3) (ac : Fin 4) (fit ns : Nat) (s : State) : Host.Outcome State Fault Refusal :=
  s.effect fun h => h.acWins l ac fit ns

/-! ### Ends of exchanges (R190, R191, R194) -/

/-- The AC whose RETRY bounds an MPDU. -/
def Mpdu.ac (m : Mpdu) (e : Exchange) : Nat := if m.sta.isSome then acOf m.tid else e.ac

/-- An MPDU after one more retry. -/
def Mpdu.retried (m : Mpdu) : Mpdu := { m with retries := m.retries + 1, awaits := false }

/-- A retry of a known MPDU (R194): at RETRY of its AC it is dropped, else it returns to its queue. -/
def Hw.retryKnown (h : Hw) (l : Nat) (e : Exchange) (id : Nat) (m : Mpdu) : Hw :=
  if h.retryLimit l (m.ac e) ≤ m.retries then (h.bump (R.WELT_CNT_2_RETRY_DROP l)).dropMpdu l id m
  else (h.setMpdu id m).putBack (h.homeQueue l e m) id

/-- One MPDU counts a retry (R194, R203), and a two-step frame leaves its entry (R443). -/
def Hw.retryMpdu (h : Hw) (l : Nat) (e : Exchange) (id : Nat) : Hw :=
  match h.mpdu id with
  | none => h
  | some m =>
    let h := match m.sta with
      | some s => h.countSta s 2
      | none => h
    (h.twoStep (12 + l) (h.frame id) m.stamp m.stampValid false false 0).retryKnown l e id m.retried

/-- The MPDUs of an exchange count a retry each. -/
def Hw.retryFrames (h : Hw) (l : Nat) (e : Exchange) : Hw := e.frames.reverse.foldl (fun h id => h.retryMpdu l e id) h

/-- An exchange ends well (R191, R193): the AC draws at CWmin; in a reserved period nothing contends. -/
def Hw.succeed (h : Hw) (l : Nat) (e : Exchange) : Hw :=
  let h := h.endExchange l
  if e.reserved then h else h.resetCw l e.ac

/-- The failure of an exchange (R189, R191): its MPDUs count a retry where `counted` and its PPDU carried them, which the
PPDU of an RTS does not (R77); otherwise they return as they were; its TXOP is over. -/
def Hw.giveUp (h : Hw) (l : Nat) (e : Exchange) (counted : Bool) : Hw :=
  let h := (h.endExchange l).modWeltLink l fun w => { w with txop := none }
  if counted && !e.rts then h.retryFrames l e else h.returnFrames l e

/-- An MPDU is acknowledged (R194, R203, R443): TX_MSDU and TX_BYTES count, a two-step frame leaves its entry, and the
frame is gone. -/
def Hw.ackMpdu (h : Hw) (l id : Nat) : Hw :=
  match h.mpdu id with
  | none => h
  | some m =>
    let f := h.frame id
    let h := match m.sta with
      | some s => (h.countSta s 0).countSta s 1 f.leaving
      | none => h
    let delta := if h.tbLock then (stampDiff ((h.slice l).lastStamp) m.stamp % 2 ^ 64).toNat else 0
    let h := h.twoStep (12 + l) f m.stamp m.stampValid false true delta
    let h := match f.queue with
      | some q => h.takeFrom q id
      | none => h
    (h.forgetMpdu id).freeFrame id

def Hw.ackAll (h : Hw) (l : Nat) (ids : List Nat) : Hw := ids.foldl (fun h id => h.ackMpdu l id) h

/-- The exchanges no longer carry the given frames. -/
def Hw.withoutFrames (h : Hw) (ids : List Nat) : Hw :=
  { h with welt := { h.welt with exchanges := h.welt.exchanges.map fun (p : Nat × Exchange) =>
    (p.1, { p.2 with frames := p.2.frames.filter fun id => !ids.contains id }) } }

/-- RESPONSE_TIMEOUT (R189, R191, R194, R443): no response: a retry counts, unless only the RTS was sent, and the
contention window doubles. -/
def Hw.responseTimeout (h : Hw) (l : Nat) : Hw :=
  match h.exchange l with
  | none => h
  | some e =>
    if !e.awaits then h
    else
      let h := h.giveUp l e true
      if e.reserved then h else h.doubleCw l e.ac

def execResponseTimeout (l : Fin 3) (s : State) : Host.Outcome State Fault Refusal := s.effect fun h => h.responseTimeout l

/-! ### What a station is heard to send -/

/-- A frame was received from a station on link `l` (R179, R199): its last activity, the RSSI of its last PPDU there, and
the end of its wake-up jobs. -/
def Hw.heardFrom (h : Hw) (l s : Nat) : Hw :=
  let h := (h.set (R.STA_ACT_LO_LAST_ACT s) h.et).set (R.STA_ACT_HI_LAST_ACT s) (h.et / 2 ^ 32)
  let rssi := match l with
    | 0 => R.STA_W58_LAST_RSSI_A s
    | 1 => R.STA_W58_LAST_RSSI_B s
    | _ => R.STA_W59_LAST_RSSI_C s
  (h.set rssi (h.get (R.PHY_LAST_RSSI_RSSI l))).wurHeard s

/-- BLOCKACK_RECEIVED (R191, R194, R443): every MPDU of the agreement that the bitmap from `ssn` on names is
acknowledged, whichever link sent it; those of the exchange of this link that it lacks count a retry; the window moves,
and an exchange with nothing left to await succeeds. -/
def Hw.blockAck (h : Hw) (l s t ssn : Nat) (bitmap : List Bool) : Hw :=
  let h := h.heardFrom l s
  let named (m : Mpdu) : Bool := m.sta == some s && m.tid == t
  let acked := (h.welt.mpdus.filter fun p => named p.2 && (bitmap[snOff p.2.sn ssn]?).getD false &&
    (p.2.awaits || (h.frame p.1).queue.isSome)).map (·.1)
  let h := (h.ackAll l acked).withoutFrames acked
  let h := match h.exchange l with
    | some e =>
      if e.awaits && !e.rts then
        let mine := e.frames.filter fun id => (h.mpdu id).any named
        let h := h.retryFrames l { e with frames := mine }
        let rest := e.frames.filter fun id => !mine.contains id
        if rest.isEmpty then h.succeed l e else h.setExchange l { e with frames := rest }
      else h
    | none => h
  h.slideWindow s t false

def execBlockackReceived (l : Fin 3) (s : Fin 1024) (t : Fin 8) (ssn : BitVec 12) (bitmap : List Bool) (st : State) :
    Host.Outcome State Fault Refusal :=
  st.effect fun h => h.blockAck l s t ssn.toNat bitmap

/-- A wake-up send was made (R199). -/
def Hw.wurMade (h : Hw) (j : Nat) : Hw := h.set (R.WELT_WUR_STAT_SENT j) (h.get (R.WELT_WUR_STAT_SENT j) + 1)

/-- The PPDU of an exchange was sent (R191, R194): Welt awaits the response, or the TB PPDUs of a trigger round, if any are
due; else the exchange ends well and its frames are gone. -/
def Hw.exchangeSent (h : Hw) (l : Nat) (e : Exchange) : Hw :=
  if e.rts || e.responses || e.kind == .trigger then
    (if e.rts then h else h.barsSent e).setExchange l { e with awaits := true }
  else
    let h := match e.kind with
      | .wur j => h.wurMade j
      | _ => h
    let h := e.frames.foldl (fun h id =>
      match h.mpdu id with
      | some m => ((h.twoStep (12 + l) (h.frame id) m.stamp m.stampValid false false 0).forgetMpdu id).freeFrame id
      | none => h) h
    h.succeed l e

/-- TX_STATUS (R190, R191): a PPDU of the link's exchange ended with a status from the slice. An underrun or a mismatch stop
counts a retry and doubles the window; every other status but "sent" returns the MPDUs without a retry, and the AC draws
with its window unchanged. -/
def Hw.txStatusTaken (h : Hw) (l : Nat) : Hw :=
  match kget h.txStatus l with
  | none => h
  | some st =>
    let h : Hw := { h with txStatus := kdel h.txStatus l }
    match h.exchange l with
    | none => h
    | some e =>
      if !e.issued then h
      else
        match st with
        | .sent => h.exchangeSent l e
        | .txUnderrun | .txVswr =>
          let h := h.giveUp l e true
          if e.reserved then h else h.doubleCw l e.ac
        | _ =>
          let h := h.giveUp l e false
          if e.reserved then h else h.redraw l e.ac

def execTxStatus (l : Fin 3) (s : State) : Host.Outcome State Fault Refusal := s.effect fun h => h.txStatusTaken l

/-- A slice enters Closing (R191): the MPDUs that await acknowledgement count a retry, those not yet handed to it do not,
and all become eligible on the other links. -/
def Hw.weltClosing (h : Hw) (l : Nat) : Hw :=
  match h.exchange l with
  | some e => if e.awaits then h.giveUp l e true else if e.issued then h else h.giveUp l e false
  | none => h

/-! ### Links (R188, R189) -/

/-- LINK_UNAVAILABLE (R188). -/
def execLinkUnavailable (l : Fin 3) (s : State) : Host.Outcome State Fault Refusal :=
  s.effect fun h =>
    if (h.weltLink l).available && !h.linkAvailable l then
      (h.modWeltLink l fun w => { w with available := false, since := h.et }).bump (R.WELT_CNT_0_UNAVAIL l)
    else h

/-- LINK_AVAILABLE (R188, R189): after an interval longer than SYNC_THRESH the first contention PPDU needs protection. -/
def execLinkAvailable (l : Fin 3) (s : State) : Host.Outcome State Fault Refusal :=
  s.effect fun h =>
    let w := h.weltLink l
    if !w.available && h.linkAvailable l then
      h.modWeltLink l fun w =>
        { w with available := true, protect := w.protect || decide (w.since + 4000 * h.get (R.WELT_SYNC_SYNC_THRESH l) < h.et) }
    else h

/-! ### The content of Last entries (R213, R214, R216, R225, R226) -/

/-- The TIDs of a listed station that may be served, in order 7 to 0 (R213); class E MPDUs that did not fit the first PPDU
wait for a later occurrence (R226). -/
def Hw.listedWork (h : Hw) (l : Nat) (o : Occurrence) (s : Nat) : List Nat :=
  [7, 6, 5, 4, 3, 2, 1, 0].filter fun t =>
    (entryOf o.words).tids.testBit t && h.linkPermits l s t && !h.emlsrElsewhere l s &&
    !(h.queueFrames (8 * s + t)).isEmpty && !(t == 7 && decide (0 < o.unfit))

/-- The MPDUs listed station `s` adds to a PPDU, at most `fit`. -/
def Hw.pullListed (h : Hw) (l : Nat) (o : Occurrence) (s fit : Nat) : Hw × List Nat :=
  (h.listedWork l o s).foldl (fun (h, ids) t =>
    if fit ≤ ids.length then (h, ids) else let (h, more) := h.pullTid l s t (fit - ids.length); (h, ids ++ more)) (h, [])

/-- A listed station may send in a trigger round (R213). -/
def Hw.triggerable (h : Hw) (l : Nat) (o : Occurrence) (s : Nat) : Bool :=
  h.isOpen s && !h.emlsrElsewhere l s && (List.range 8).any fun t =>
    (entryOf o.words).tids.testBit t && (mapOf (h.get (R.STA_W10_UL_MAP s)) t).testBit l

/-- The streams, less one, that a station is capable of on a link (R179). -/
def Hw.capStreams (h : Hw) (l s : Nat) : Nat :=
  (h.get (match l with
    | 0 => R.STA_W11_CAP_A s
    | 1 => R.STA_W11_CAP_B s
    | _ => R.STA_W11_CAP_C s)) % 8

/-- The user that a list word names (R212): RU 0x1FF lets Welt allocate, and an MCS from 16 on lets it choose from the
station's last RSSI; the manual gives neither choice: a free value, and an open function. -/
def Hw.muUser (h : Hw) (l w : Nat) : Hw × MuUser :=
  let s := w % 1024
  let ru := w / 2 ^ 10 % 512
  let mcs := w / 2 ^ 22 % 32
  let rssi := h.get (match l with
    | 0 => R.STA_W58_LAST_RSSI_A s
    | 1 => R.STA_W58_LAST_RSSI_B s
    | _ => R.STA_W59_LAST_RSSI_C s)
  let u : MuUser := ⟨s, if ru = 0x1FF then h.freeNat % 512 else ru, min (w / 2 ^ 19 % 8) (h.capStreams l s),
    if 16 ≤ mcs then Config.mcsFor rssi % 16 else mcs⟩
  (if ru = 0x1FF then h.drawn else h, u)

/-- An exchange of a Last entry, with the users of its list words (R211 to R213). -/
def Hw.listedExchange (h : Hw) (l : Nat) (o : Occurrence) (k : ExchangeKind) (ids words : List Nat) (resp : Bool) :
    Hw × Exchange :=
  let (h, users) := words.foldl (fun ((h, us) : Hw × List MuUser) w => let (h, u) := h.muUser l w; (h, us ++ [u])) (h, [])
  let e := h.newExchange k 3 ids (users.map (·.sta)) resp
  (h, { e with reserved := true, users := users, width := some (entryOf o.words).bw,
               ulNs := if k == .trigger then 4000 * (entryOf o.words).ulLen else 0 })

/-- What an occurrence sends next (R213): the exchange, the list position reached (past the list: nothing), and the class E
MPDUs of its stations that did not fit. -/
def Hw.planReserved (h : Hw) (l fit : Nat) (o : Occurrence) : Hw × Option Exchange × Nat × Nat :=
  let n := o.list.length
  let left (h : Hw) : Nat :=
    if (entryOf o.words).express then
      (o.list.map fun w => if h.linkPermits l (w % 1024) 7 then (h.queueFrames (8 * (w % 1024) + 7)).length else 0).foldl (· + ·) 0
    else 0
  let some' (r : Hw × Exchange) (pos : Nat) (left : Hw → Nat) : Hw × Option Exchange × Nat × Nat := (r.1, some r.2, pos, left r.1)
  match o.type with
  | 0 =>
    match (List.range n).find? fun i =>
        decide (o.position ≤ i) && !(h.listedWork l o ((o.list[i]?).getD 0 % 1024)).isEmpty with
    | none => (h, none, n, left h)
    | some i =>
      let w := (o.list[i]?).getD 0
      match h.pullListed l o (w % 1024) fit with
      | (h, []) => (h, none, i, left h)
      | (h, ids) => some' (h.listedExchange l o .data ids [w] true) i left
  | 1 =>
    let (h, ids, ws) := o.list.foldl (fun ((h, ids, ws) : Hw × List Nat × List Nat) w =>
      match h.pullListed l o (w % 1024) fit with
      | (h, []) => (h, ids, ws)
      | (h, more) => (h, ids ++ more, ws ++ [w])) (h, [], [])
    if ids.isEmpty then (h, none, n, left h) else some' (h.listedExchange l o .mu ids ws true) 0 left
  | 2 =>
    match o.list.filter fun w => h.triggerable l o (w % 1024) with
    | [] => (h, none, n, 0)
    | ws => some' (h.listedExchange l o .trigger [] ws false) 0 fun _ => 0
  | 3 => if h.get (R.LAST_BCN_LEN_LEN l) = 0 then (h, none, n, 0) else some' (h.listedExchange l o .beacon [] [] false) 0 fun _ => 0
  | _ => (h, none, n, 0)

/-- CLEAR_CHECK_END (R216, R217): the medium has been idle for PIFS, from the occurrence's start or from the instant it
fell idle again; Welt commits the content of the first PPDU, `fit` MPDUs a station at most. -/
def execClearCheckEnd (l : Fin 3) (fit : Nat) (s : State) : Host.Outcome State Fault Refusal :=
  s.effect fun h =>
    match (h.lastOf l).occ with
    | none => h
    | some o =>
      if o.phase ≠ .check then h
      else
        let commit (h : Hw) : Hw :=
          if !h.mediumIdle l || !h.linkAvailable l || (h.exchange l).isSome then h
          else
            let (h, e, pos, unfit) := h.planReserved l fit o
            let h := h.modOcc l fun o => { o with phase := .committed, position := pos, unfit := unfit, startEt := h.et }
            match e with
            | some e => h.setExchange l e
            | none => h
        if o.startEt < h.idleSince l then
          let h := (h.noteForeign l).advanceTo (h.idleSince l + h.pifs l)
          commit h
        else if !h.mediumIdle l then h.noteForeign l
        else h.atNt (ntAdd o.start (ntOfNanos (h.pifs l))) fun h => commit h

/-- FIRST_PPDU_START (R213, R216, R217, R226): the instant of the occurrence's first PPDU, 10 µs after the check; one that
was not ready by then starts late, at the t0 it was given or `delay` nanoseconds late. With nothing to send a reserved
occurrence passes silent and counts in EMPTY. A beacon's entry is contention time from here. -/
def execFirstPpduStart (l : Fin 3) (delay : Nat) (s : State) : Host.Outcome State Fault Refusal :=
  s.effect fun h =>
    match (h.lastOf l).occ with
    | none => h
    | some o =>
      if o.phase ≠ .committed then h
      else
        let due := o.startEt + 10000
        let at' := match (h.slice l).tx with
          | some p => max due p.t0
          | none => if (h.exchange l).isSome && (h.slice l).held.isNone then due + delay else due
        let h := h.advanceTo at'
        let h := if due < at' then h.bump (R.LAST_CNT_1_LATE l) else h
        let h := if 0 < o.unfit then h.bump (R.LAST_CNT_3_CAPACITY l) else h
        let h := if o.reserved && decide (o.list.length ≤ o.position) && o.unfit == 0 then h.bump (R.LAST_CNT_2_EMPTY l) else h
        h.modOcc l fun o => { o with phase := if o.type = 3 then .open else .serving }

/-- The next exchange of an occurrence after its first (R213): RTWT goes on through its list, DL_MU and TRIG_UL repeat
their rounds with REPEAT; an occurrence that passes silent sends nothing. -/
def Hw.planListed (h : Hw) (l fit : Nat) (o : Occurrence) : Hw :=
  if o.phase == .serving && (o.type == 0 || (entryOf o.words).again) && decide (o.position < o.list.length) then
    let (h, e, pos, _) := h.planReserved l fit o
    let h := h.modOcc l fun o => { o with position := pos }
    match e with
    | some e => h.setExchange l e
    | none => h
  else h

/-- The MSDU that a PS-Poll releases (R195): one of the station's highest TID with a frame for the link. -/
def Hw.planPoll (h : Hw) (l : Nat) : Hw :=
  match (h.weltLink l).polls with
  | [] => h
  | s :: rest =>
    if h.emlsrElsewhere l s then h
    else
      let h := h.modWeltLink l fun w => { w with polls := rest }
      match [7, 6, 5, 4, 3, 2, 1, 0].find? fun t =>
          (mapOf (h.get (R.STA_W9_DL_MAP s)) t).testBit l && !(h.queueFrames (8 * s + t)).isEmpty &&
          !(h.get (R.STA_W9_RES_ONLY s)).testBit t with
      | none => h
      | some t =>
        match h.pull l s t 1 (h.queueFrames (8 * s + t)) with
        | (h, []) => h
        | (h, ids) => h.setExchange l (h.newExchange .data (acOf t) ids [s] true)

/-- A TXOP goes on with a further PPDU for its station, `ns` nanoseconds long with its responses, while it lasts (R193). -/
def Hw.planTxop (h : Hw) (l fit ns : Nat) : Hw :=
  match (h.weltLink l).txop with
  | none => h
  | some x =>
    match (tidsOf x.ac).find? fun t => h.contends l x.sta t with
    | some t =>
      if h.et + ns ≤ x.stop then
        match h.pullTid l x.sta t fit with
        | (h, []) => h
        | (h, ids) => h.setExchange l (h.newExchange .data x.ac ids [x.sta] true)
      else h.modWeltLink l fun w => { w with txop := none }
    | none => h.modWeltLink l fun w => { w with txop := none }

/-- What link `l` sends next, where no exchange is formed: the occurrence in progress goes on; in contention time an MSDU
that a PS-Poll released, or the TXOP, goes on. -/
def Hw.planNext (h : Hw) (l fit ns : Nat) : Hw :=
  if (h.exchange l).isSome then h
  else
    match (h.lastOf l).occ with
    | some o => if o.phase == .open && h.mayContend l ns then h.planPoll l else h.planListed l fit o
    | none =>
      if !h.linkAvailable l || !h.mayContend l ns then h
      else
        let h := h.planPoll l
        if (h.exchange l).isSome then h else h.planTxop l fit ns

/-! ### Responses -/

/-- An MPDU is acknowledged one SIFS after its PPDU (R181, R194, R196); no response is sent in a QUIET entry or under an
arbiter's grant (R136, R213), and the flag says whether one is. The first MPDU of a TB PPDU that Welt triggered ends the
round, which a Multi-STA BlockAck answers (R213). -/
def Hw.acknowledge (h : Hw) (l : Nat) (acked : List Acked) : Hw × Bool :=
  if h.inQuiet l || h.granted l then (h, false)
  else
    let due := (h.slice l).idleFrom + sifs l
    let round := (h.exchange l).any fun e => e.kind == .trigger && e.awaits && !e.rts
    let r : Response := match (h.weltLink l).response with
      | some r => if r.due = due ∧ !r.issued then { r with acked := r.acked ++ acked } else ⟨due, round, acked, false⟩
      | none => ⟨due, round, acked, false⟩
    let h := if round then h.endExchange l else h
    (h.modWeltLink l fun w => { w with response := some r }, true)

/-- A frame that Welt acknowledges sets its station's PM bit of the link (R195). -/
def Hw.acknowledgeOf (h : Hw) (l s : Nat) (m : RxMpdu) : Hw :=
  match h.acknowledge l [⟨m.ta.toNat, m.tid, m.sn.toNat⟩] with
  | (h, true) => h.setFlag ⟨R.STA_W0 s, 18 + l, 1⟩ m.pm
  | (h, false) => h

/-! ### Received MPDUs (R181, R195 to R198) -/

/-- What a modem's MPDU becomes in the reorder store. -/
def heldOf (l : Nat) (m : RxMpdu) (stamp : Stamp) (slots : List Nat) : HeldMpdu :=
  ⟨m.sn.toNat, l, if m.key then 1 else 0, m.pn.toNat, m.sound, m.protectedFrame, m.frames.map (·.length), stamp, slots⟩

/-- A data MPDU of a station under a receive agreement (R196), and whether Welt acknowledges it. -/
def Hw.reorder (h : Hw) (l s : Nat) (m : RxMpdu) (a : RxAgreement) : Hw × Bool :=
  let t := m.tid.val
  let sn := m.sn.toNat
  let st := (h.slice l).lastStamp
  let off := snOff sn a.winStart
  if 2048 ≤ off then (h.countSta s 7, true)
  else
    let h := if a.bufsz ≤ off then h.moveWindow s t ((sn + 4096 + 1 - a.bufsz) % 4096) 4097 else h
    match h.rxBa s t with
    | none => (h, true)
    | some a' =>
      if (a'.find sn).isSome ∨ 2048 ≤ snOff sn a'.winStart then (h.countSta s 7, true)
      else if sn = a'.winStart then
        let h := h.releaseMpdu s t (heldOf l m st []) m.frames
        (((h.setRxBa s t { a' with winStart := (sn + 1) % 4096 }).releaseRun s t 1025).watchGap s t true, true)
      else
        let bs := m.frames.flatten
        match h.findSlots (max 1 ((bs.length + 255) / 256)) with
        | none => ((h.bump R.WELT_STAT_RO_FULL).watchGap s t false, false)
        | some slots =>
          match h.storeSlots l slots bs with
          | (h, true) => ((h.setRxBa s t { a' with held := a'.held ++ [heldOf l m st slots] }).watchGap s t false, true)
          | (h, false) => (h, false)

/-- A data MPDU of a station (R196): under an agreement, reordered; otherwise duplicates are caught by the last sequence
number of its TID. It is acknowledged unless it found no room. -/
def Hw.rxData (h : Hw) (l s : Nat) (m : RxMpdu) : Hw :=
  let t := m.tid.val
  match h.rxBa s t with
  | some a =>
    match h.reorder l s m a with
    | (h, true) => h.acknowledgeOf l s m
    | (h, false) => h
  | none =>
    let h := h.acknowledgeOf l s m
    if kget h.welt.lastSn (baKey s t) = some m.sn.toNat then h.countSta s 7
    else
      let h : Hw := { h with welt := { h.welt with lastSn := kput h.welt.lastSn (baKey s t) m.sn.toNat } }
      h.releaseMpdu s t (heldOf l m (h.slice l).lastStamp []) m.frames

/-- A management MPDU goes to Clicker as a frame (R181, R198, R318); a protected one is checked as TID 8. -/
def Hw.rxMgmt (h : Hw) (l : Nat) (sta : Option Nat) (m : RxMpdu) (mgmt : Bool) : Hw :=
  let pass (h : Hw) : Hw :=
    m.frames.foldl (fun h bs =>
      h.stage (12 + l) bs true (h.slice l).lastStamp (weltWord (sta.getD 0x3FF) m.tid sta.isNone mgmt)) h
  match sta with
  | some s =>
    let k := if m.key then 1 else 0
    if !m.protectedFrame then pass h
    else if !m.sound || !h.keyValid s k then h.countSta s 6
    else if m.pn.toNat ≤ h.rxPn s k 8 then h.countSta s 7
    else pass (h.setRxPn s k 8 m.pn.toNat)
  | none => pass h

/-- An acknowledgement ends the exchange of its link (R191, R193); its stations have been heard. -/
def Hw.rxAck (h : Hw) (l : Nat) : Hw :=
  match h.exchange l with
  | some e =>
    if e.awaits && !e.rts && e.kind != .trigger then
      let h := e.stas.foldl (fun (h : Hw) s => h.heardFrom l s) h
      let stas := e.frames.filterMap fun id => (h.mpdu id).bind fun m => m.sta.map fun s => (s, m.tid)
      let h := h.ackAll l e.frames
      let h := stas.foldl (fun h p => h.slideWindow p.1 p.2 false) h
      h.succeed l e
    else h
  | none => h

/-- A CTS lets the PPDU behind it be handed to the slice, and the link's protection is given (R189, R201). -/
def Hw.rxCts (h : Hw) (l : Nat) : Hw :=
  match h.exchange l with
  | some e =>
    if e.awaits && e.rts then
      let h := e.stas.foldl (fun (h : Hw) s => h.heardFrom l s) h
      (h.setExchange l { e with rts := false, awaits := false, issued := false }).modWeltLink l fun w => { w with protect := false }
    else h
  | none => h

/-- A PS-Poll releases one MSDU of the station on its link (R195): at once, or when the link is free. -/
def Hw.rxPsPoll (h : Hw) (l s : Nat) : Hw :=
  let h := h.modWeltLink l fun w => { w with polls := w.polls ++ [s] }
  if (h.exchange l).isSome || (h.lastOf l).occ.isSome then h else h.planPoll l

/-- A BlockAckReq moves the window and is answered with a BlockAck of the agreement (R194, R196): it names what lies
between `ssn` and the window and what is held. -/
def Hw.rxBar (h : Hw) (l s : Nat) (m : RxMpdu) (ssn : Nat) : Hw :=
  match h.rxBa s m.tid with
  | none => h
  | some a =>
    let h := if snOff ssn a.winStart < 2048 then (h.moveWindow s m.tid ssn 4097).watchGap s m.tid true else h
    match h.rxBa s m.tid with
    | none => h
    | some a =>
      (h.acknowledge l (((List.range a.bufsz).filter fun i =>
        decide (i < snOff a.winStart ssn ∧ snOff a.winStart ssn < 2048) || (a.find ((ssn + i) % 4096)).isSome).map fun i =>
          ⟨m.ta.toNat, m.tid, (ssn + i) % 4096⟩)).1

/-- Whether a sender is named by the list of the occurrence in progress (R217). -/
def Hw.senderListed (h : Hw) (l : Nat) (sta : Option Nat) : Bool :=
  match (h.lastOf l).occ with
  | some o => !o.reserved || (match sta with
      | some s => (o.list.map fun w => w % 1024).contains s
      | none => false)
  | none => true

/-- MPDU_RECEIVED (R165, R181, R189, R194 to R199, R201, R217): an MPDU of link `l` reaches Welt; one whose FCS fails, or
that lost a codeword, is nothing. -/
def Hw.mpduReceived (h : Hw) (l : Nat) (m : RxMpdu) : Hw :=
  if !m.fcs || (h.slice l).spoiled.contains m.place then h
  else
    match m.kind with
    | .ack => h.rxAck l
    | .cts => h.rxCts l
    | _ =>
      let sta := h.stationOf l m.ta.toNat
      let h := if h.senderListed l sta then h else h.noteForeign l
      match sta with
      | none =>
        let acked : List Acked := [⟨m.ta.toNat, m.tid, m.sn.toNat⟩]
        match m.kind with
        | .data => (h.acknowledge l acked).1.bump (R.WELT_CNT_0_UNKNOWN_TA l)
        | .mgmt => (h.acknowledge l acked).1.rxMgmt l none m true
        | _ => h.rxMgmt l none m false
      | some s =>
        let h := h.heardFrom l s
        match m.kind with
        | .data => h.rxData l s m
        | .mgmt => (h.acknowledgeOf l s m).rxMgmt l (some s) m true
        | .psPoll => (h.acknowledgeOf l s m).rxPsPoll l s
        | .blockAckReq ssn => h.rxBar l s m ssn.toNat
        | _ => h.rxMgmt l (some s) m false

def execMpduReceived (l : Fin 3) (m : RxMpdu) (s : State) : Host.Outcome State Fault Refusal :=
  s.effect fun h => h.mpduReceived l m

end Sys2Proof.Machine
end

