-- ==== Sys2Proof/Machine/Coex.lean ====
section
/-!
DEFINITION. Coexistence ports (R134 to R140) and transmit commands (R97, R98, R114, R126, R138, R139, R214, R442).
-/
namespace Sys2Proof.Machine

/-! ### Ports -/

/-- The slices of a port's mask. -/
def Hw.cxSlices (h : Hw) (n : Nat) : List Nat := (List.range 3).filter fun x => (h.get (R.SYS_CX_CTL_SLICE_MASK n)).testBit x
def Hw.cxMode (h : Hw) (n : Nat) : Nat := h.get (R.SYS_CX_CTL_MODE n)

/-- A level of LIVE: 0 REQ, 1 GRANT, 2 PRIO, 3 TXACT (R140). -/
def Hw.cxLevel (h : Hw) (n b : Nat) : Bool := (h.get (R.SYS_CX_STAT_LIVE n)).testBit b

/-- The reserved periods let a request of port `n` be granted (R136). -/
def Hw.cxReservedOk (h : Hw) (n : Nat) : Bool :=
  let prio := (h.cx n).prio
  ((prio && h.flag (R.SYS_CX_CTL_PRIO_IN_RES n)) || !(h.cxSlices n).any fun x => h.inReserved x) &&
  (prio || !(h.cxSlices n).any fun x => h.entryNear x (1000 * h.get (R.SYS_CX_TIME_REVOKE_LEAD n)) fun e => e.reserved)

/-- An arbiter port stops the start of new PPDUs: its grant stands, or its request only waits for PPDUs to end (R136),
or the resume gap runs (R137). -/
def Hw.cxStops (h : Hw) (n : Nat) : Bool :=
  let p := h.cx n
  p.grant || (p.waiting && h.cxReservedOk n) || decide (h.et < p.resumeAt)

/-- A slice may start a PPDU (R139): every client port grants, and no arbiter port holds it back. -/
def Hw.cxPermits (h : Hw) (x : Nat) : Bool :=
  (List.range 3).all fun n =>
    (!h.cxCovers n 2 x || h.cxLevel n 1) && (!h.cxCovers n 1 x || !h.cxStops n)

/-- PPDUs of slice `x` ended by a port's decision count at the ports concerned (R140). -/
def Hw.cxDenied (h : Hw) (x : Nat) : Hw :=
  (List.range 3).foldl (fun h n =>
    if (h.cxCovers n 2 x && !h.cxLevel n 1) || (h.cxCovers n 1 x && h.cxStops n) then h.bump (R.SYS_CX_CNT1_DENIED n) else h) h

/-- CX_REQ_RECOGNISED (R136): an arbiter port recognises REQ high and holds the priority sampled with it; after a
revocation it must have been low first (R137). -/
def execCxReqRecognised (n : Fin 3) (prio : Bool) (s : State) : Host.Outcome State Fault Refusal :=
  s.effect fun h =>
    if h.cxMode n = 1 ∧ !h.cxLevel n 0 then
      ((h.setCxLevel n 0 true).setCxLevel n 2 prio).modCx n fun p =>
        { p with prio := prio, waiting := !p.needLow }
    else h

/-- PPDUs in flight of a port's slices end with COEX_ABORT, and count (R136, R138, R140). -/
def Hw.cxAbort (h : Hw) (n : Nat) : Hw :=
  (h.cxSlices n).foldl (fun (h : Hw) x =>
    if h.inSetting x then (h.endTransmission x .coexAbort).bump (R.SYS_CX_CNT1_DENIED n) else h) h

/-- The grant conditions of R136 hold for the waiting request of port `n`: the reserved periods let it be granted, and no
masked slice transmits; a PPDU that has not begun does not start. -/
def Hw.cxReady (h : Hw) (n : Nat) : Bool :=
  let xs := h.cxSlices n
  (xs.all fun x => h.get (R.RFS_FSTAT_STATE x) == stClosed) ||
  (h.cxReservedOk n && (((h.cx n).prio && h.flag (R.SYS_CX_CTL_ABORT_ON_PRIO n)) || xs.all fun x => !h.inSetting x))

/-- CX_GRANT (R136, R137): the grant condition is met; a priority request with ABORT_ON_PRIO ends the PPDUs in flight, the
masked slices send no response any more, and in a reserved period of theirs the grant is a foreign transmission. -/
def execCxGrant (n : Fin 3) (s : State) : Host.Outcome State Fault Refusal :=
  s.effect fun h =>
    if h.cxMode n = 1 ∧ (h.cx n).waiting ∧ h.cxReady n then
      let h := (h.cxSlices n).foldl (fun (h : Hw) x =>
        let h := h.cancelResponse x
        if h.inReserved x then h.noteForeign x else h) (h.cxAbort n)
      let h := ((h.modCx n fun p => { p with grant := true, waiting := false }).setCxLevel n 1 true).bump (R.SYS_CX_CNT0_GRANTS n)
      let m := h.get (R.SYS_CX_TIME_MAX_GRANT n)
      if m = 0 then h else h.start (.cxGrant n) (m * 1000000)
    else h

/-- CX_REQ_FALL (R137): GRANT falls with REQ, and masked slices may transmit RESUME_GAP after it. -/
def execCxReqFall (n : Fin 3) (s : State) : Host.Outcome State Fault Refusal :=
  s.effect fun h =>
    if h.cxMode n = 1 ∧ h.cxLevel n 0 then
      let gap := h.et + 100 * h.get (R.SYS_CX_TIME_RESUME_GAP n)
      let h := ((h.setCxLevel n 0 false).setCxLevel n 1 false).stop (.cxGrant n)
      h.modCx n fun p =>
        { p with grant := false, waiting := false, needLow := false, resumeAt := if p.grant then gap else p.resumeAt }
    else h

/-- A grant is revoked (R137): a new one needs REQ low and then high again. -/
def Hw.cxRevoke (h : Hw) (n : Nat) : Hw :=
  let h := ((h.modCx n fun p => { p with grant := false, needLow := true }).setCxLevel n 1 false).stop (.cxGrant n)
  (h.set (R.SYS_CX_STAT_REVOKE_EV n) 1).bump (R.SYS_CX_CNT0_REVOKES n)

/-- A reserved period of a masked slice ends the grant within `ns` nanoseconds, unless it is exempt (R137). -/
def Hw.cxReservedNear (h : Hw) (n ns : Nat) : Bool :=
  !((h.cx n).prio && h.flag (R.SYS_CX_CTL_PRIO_IN_RES n)) &&
  (h.cxSlices n).any fun x => h.entryNear x ns fun e => e.reserved

/-- CX_REVOKE (R137): REVOKE_LEAD before a reserved period of a masked slice, or at MAX_GRANT, the grant is revoked. -/
def execCxRevoke (n : Fin 3) (s : State) : Host.Outcome State Fault Refusal :=
  s.effect fun h =>
    if !(h.cx n).grant then h
    else if h.cxReservedNear n (1000 * h.get (R.SYS_CX_TIME_REVOKE_LEAD n)) then h.cxRevoke n
    else h.onTimer (.cxGrant n) fun h => h.cxRevoke n

/-- CX_TXACT_VIOLATION (R137, R140): an arbiter port recognises a level of TXACT; high while GRANT is low is a
violation. -/
def execCxTxactViolation (n : Fin 3) (high : Bool) (s : State) : Host.Outcome State Fault Refusal :=
  s.effect fun h =>
    if h.cxMode n = 1 then
      let h := h.setCxLevel n 3 high
      if high && !(h.cx n).grant then (h.set (R.SYS_CX_STAT_VIOL_EV n) 1).bump (R.SYS_CX_CNT1_VIOL n) else h
    else h

/-- The first PPDU of an entry that `p` takes lies at most REQ_LEAD + TR_LEAD ahead of its t0 (R138, R216). -/
def Hw.cxSlotDue (h : Hw) (n x : Nat) (p : LastEntry → Bool) : Bool :=
  let lead := 1000 * h.get (R.SYS_CX_TIME_REQ_LEAD n) + 10 * h.get (R.RFS_FE_TIME_TR_LEAD x)
  (decide (h.openNs x ≤ lead) && h.entryNear x (lead - h.openNs x) p) ||
  (h.lastOf x).occ.any fun o =>
    (o.phase == .committed || (o.phase == .check && decide (o.startEt + h.openNs x ≤ h.et + lead))) && p (entryOf o.words)

/-- A slice has a PPDU planned or decided (R138): accepted, held or formed, or that of a Last entry or beacon whose t0 is
near. With `p` it lies in a reserved period. -/
def Hw.cxPpduDue (h : Hw) (n x : Nat) (res : Bool) : Bool :=
  (match (h.slice x).tx, (h.slice x).held, h.exchange x with
    | some p, _, _ => !res || p.reserved
    | none, some c, _ => !res || c.ppdu.reserved
    | none, none, some e => !res || e.reserved
    | none, none, none => false) ||
  h.cxSlotDue n x fun e => if res then e.reserved else decide (e.type ≤ 3)

/-- CX_CLIENT_REQ_RAISE (R138): REQ rises for a PPDU planned or decided, with PRIO where the PPDU lies in a reserved
period and PRIO_RES = 1. -/
def execCxClientReqRaise (n : Fin 3) (s : State) : Host.Outcome State Fault Refusal :=
  s.effect fun h =>
    if h.cxMode n = 2 ∧ !(h.cx n).req ∧ ((h.cxSlices n).any fun x => h.cxPpduDue n x false) then
      let prio := ((h.cxSlices n).any fun x => h.cxPpduDue n x true) && h.flag (R.SYS_CX_CTL_PRIO_RES n)
      ((h.modCx n fun p => { p with req := true, prioOut := prio }).setCxLevel n 0 true).setCxLevel n 2 prio
    else h

/-- CX_CLIENT_GRANT_RISE (R138). -/
def execCxClientGrantRise (n : Fin 3) (s : State) : Host.Outcome State Fault Refusal :=
  s.effect fun h =>
    if h.cxMode n = 2 ∧ !h.cxLevel n 1 then (h.setCxLevel n 1 true).bump (R.SYS_CX_CNT0_GRANTS n) else h

/-- CX_CLIENT_GRANT_FALL (R138): with STOP_ON_REVOKE a PPDU in flight ends with COEX_ABORT; else it completes. -/
def execCxClientGrantFall (n : Fin 3) (s : State) : Host.Outcome State Fault Refusal :=
  s.effect fun h =>
    if h.cxMode n = 2 ∧ h.cxLevel n 1 then
      let h := h.setCxLevel n 1 false
      if h.flag (R.SYS_CX_CTL_STOP_ON_REVOKE n) then
        h.cxAbort n
      else h
    else h

/-- CX_CLIENT_REQ_FALL (R138): no masked slice transmits or holds a command. -/
def execCxClientReqFall (n : Fin 3) (s : State) : Host.Outcome State Fault Refusal :=
  s.effect fun h =>
    if h.cxMode n = 2 ∧ (h.cx n).req ∧ (h.cxSlices n).all fun x => !h.transmitting x && (h.slice x).held.isNone then
      ((h.modCx n fun p => { p with req := false, prioOut := false }).setCxLevel n 0 false).setCxLevel n 2 false
    else h

/-- A write of SYS_CX_n_CTL (R139, R140): MODE 0b11 leaves MODE; a write of MODE drops what the port drives and resets
its request state. -/
def Hw.writeCxCtl (h : Hw) (n : Nat) (v : Word) : Hw :=
  let m := h.cxMode n
  let h := h.writeFields (R.SYS_CX_CTL n) v
  if fieldOf v (R.SYS_CX_CTL_MODE n) = 3 then h.set (R.SYS_CX_CTL_MODE n) m
  else ((h.modCx n fun _ => CoexPort.initial).set (R.SYS_CX_STAT_LIVE n) 0).stop (.cxGrant n)

/-- CX_MODE_WRITE (R139). -/
def execCxModeWrite (n : Fin 3) (v : Word) (s : State) : Host.Outcome State Fault Refusal := s.effect fun h => h.writeCxCtl n v

/-! ### What a PPDU carries -/

/-- Network time at `t` on elapsed time, as the clocks now run. -/
def Hw.ntAt (h : Hw) (t : Nat) : Nat := (h.advance (t - h.et)).nt

/-- The words of a key slot that a cipher takes: a 128-bit key is the first four (R197). -/
def Hw.keyWords (h : Hw) (k : MpduKey) : List Nat :=
  (List.range (if k.cipher % 2 = 1 then 4 else 8)).map fun w => (h.word (R.WELT_KEY k.slot w)).toNat

/-- An MPDU as its cipher makes it (R197). -/
def Hw.protectMpdu (h : Hw) (k : Option MpduKey) (pn : Nat) (bs : List Byte) : List Byte :=
  match k with
  | some k => Config.wlanProtect k.cipher (h.keyWords k) k.id pn bs
  | none => bs

/-- The frames of the exchange leave with the PPDU that starts at `t0` (R197, R441 to R443): a frame with ACT = 1 is
corrected, each MPDU goes under its key and keeps its egress stamp until its response. -/
def Hw.sendFrames (h : Hw) (x t0 : Nat) (e : Exchange) : Hw :=
  let st := if h.tbLock then stampOf (h.ntAt t0) else Stamp.zero
  let (h, out) := e.frames.foldl (fun ((h, out) : Hw × List (List Byte)) id =>
    let f := h.frame id
    let (h, bs) := h.insertResidence (12 + x) f st (h.leavingBytes f)
    match h.mpdu id with
    | some m =>
      (h.setMpdu id { m with awaits := e.responses, stamp := st, stampValid := h.tbLock }, out ++ [h.protectMpdu m.key m.pn bs])
    | none => (h, out ++ [bs])) (h, [])
  h.atBall (12 + x) out

/-! The layout of a beacon, and of the TIM element in it, is that of IEEE 802.11 (PRESUMED, log 48). -/

/-- The traffic bitmap as bytes (R195). -/
def Hw.timBytes (h : Hw) : List Byte := ((List.range 64).map fun n => bytesLE 4 (h.timWord n).toNat).flatten

/-- The TIM element: the DTIM count and period given, the group-traffic bit, and the part of the bitmap that is not
zero. -/
def Hw.timElement (h : Hw) (x : Nat) (count period : Byte) : List Byte :=
  let all := h.timBytes
  let n1 := (all.takeWhile (· == 0)).length / 2 * 2
  let part := ((all.drop n1).reverse.dropWhile (· == 0)).reverse
  let (n1, part) := if part.isEmpty then (0, [0]) else (n1, part)
  let grp := if (h.queueFrames (h.get (R.WELT_CFG_GRPQ x))).isEmpty then 0 else 1
  [5, BitVec.ofNat 8 (3 + part.length), count, period, BitVec.ofNat 8 (n1 + grp)] ++ part

/-- The elements of a beacon with the TIM in its place: in place of the template's own, of which DTIM count and period
stay; else ahead of the first element of a higher number, with count 0 and period 1. -/
def putTim (tim : Byte → Byte → List Byte) (fuel : Nat) (bs : List Byte) : List Byte :=
  match fuel, bs with
  | fuel + 1, id :: n :: rest =>
    if id = 5 then tim ((rest[0]?).getD 0) ((rest[1]?).getD 1) ++ rest.drop n.toNat
    else if 5 < id.toNat then tim 0 1 ++ bs
    else id :: n :: (rest.take n.toNat ++ putTim tim fuel (rest.drop n.toNat))
  | _, _ => tim 0 1 ++ bs

/-- The beacon of slice `x` (R178, R195, R197, R213, R230): the template with the TSF of `t0` and the TIM, under the BIGTK
in use. -/
def Hw.beaconSent (h : Hw) (x t0 : Nat) : Hw :=
  let bs := h.memBytes (0x11000000 + h.get (R.LAST_BCN_ADDR_ADDR x) / 32 * 32) (h.get (R.LAST_BCN_LEN_LEN x))
  let tsf := bytesLE 8 (({ h with nt := h.ntAt t0 } : Hw).tsf)
  let bs := bs.take 24 ++ tsf ++ (bs.drop 32).take 4 ++ putTim (h.timElement x) bs.length (bs.drop 36)
  let k := h.groupKey x (4 + h.get (R.WELT_GKEY_TX_BIGTK x)) (h.get (R.WELT_GKEY_MCIPHER x))
  match h.nextPn none k with
  | some (h, pn) => h.atBall (12 + x) [h.protectMpdu k pn bs]
  | none => (h.set R.WELT_STAT_PN_EV 1).atBall (12 + x) []

/-- The WUR PPDU of wake-up job `j` on link `x` (R199, R206), and a WUR Beacon (R200). -/
def Hw.wurPpdu (h : Hw) (x j : Nat) : WurPpdu :=
  let s := h.get (R.WELT_WUR_CMD_STA j)
  { subch := h.get (R.WELT_WUR_SUBCH x), beacon := false, short := h.flag (R.WELT_WUR_CMD_SHORT j), hdr := h.flag (R.WELT_WUR_CMD_RATE j),
    id := if h.flag (R.WELT_WUR_CMD_GROUP j) then h.get (R.WELT_WUR_CMD_ID j) else h.get (R.STA_W55_WUR_ID s) }
def Hw.wurBeacon (h : Hw) (x : Nat) : WurPpdu :=
  { subch := h.get (R.WELT_WUR_SUBCH x), id := 0, beacon := true, short := false, hdr := h.flag (R.WELT_WUR_BRATE x) }

/-- A wake-up send has started (R199): it is no longer one that may be skipped. -/
def Hw.wurStarted (h : Hw) (j : Nat) : Hw :=
  match kget h.welt.jobs j with
  | some b => { h with welt := { h.welt with jobs := kput h.welt.jobs j { b with waiting := false } } }
  | none => h

/-- The PPDU of the link's exchange starts: what it carries is at the ball from t0 on, and the expected start of the TB PPDUs
it solicits is given to the modem (R150). An RTS carries none of it. -/
def Hw.exchangeStarts (h : Hw) (x : Nat) (p : TxPpdu) : Hw :=
  match h.exchange x with
  | none => h
  | some e =>
    if p.response || e.rts then h.atBall (12 + x) []
    else
      let h := if e.kind == .trigger || e.kind == .mu then h.startAt (.tbStart x) (p.t1 + sifs x) else h
      match e.kind with
      | .beacon => h.beaconSent x p.t0
      | .wur j => ((h.wurStarted j).modWeltLink x fun w => { w with wur := some (h.wurPpdu x j) }).atBall (12 + x) []
      | .wurBeacon => (h.modWeltLink x fun w => { w with wur := some (h.wurBeacon x) }).atBall (12 + x) []
      | _ => h.sendFrames x p.t0 e

/-! ### Transmit commands -/

/-- A slice can start the transmit setting of a PPDU with first instant `t0` (R97, R126). -/
def Hw.txReady (h : Hw) (x t0 : Nat) : Bool :=
  h.synth x == synReady && (h.slice x).cal.isNone && !h.running (.retune x) &&
  decide ((h.slice x).matchSettles ≤ t0 - 10 * h.get (R.RFS_FE_TIME_TR_LEAD x))

/-- A PPDU from `t0` on, with the responses it solicits, still fits: the entry it is sent in (R214), or contention time
(R218). A response is given its time by the PPDU that solicits it. -/
def Hw.ppduFits (h : Hw) (x t0 : Nat) (p : TxPpdu) : Bool :=
  let ns := t0 - h.et + (p.t1 - p.t0) + p.resp
  if p.response then true
  else if p.reserved then (h.entryLeft x).any fun left => decide (ns ≤ left)
  else h.mayContend x ns

/-- A PPDU is accepted by its slice (R114): its four instants are set, and its exchange's PPDU is handed over. -/
def Hw.beginTx (h : Hw) (x : Nat) (p : TxPpdu) : Hw :=
  let h := h.modSlice x fun s => { s with tx := some p }
  let h : Hw := { h with txStatus := kdel h.txStatus x }
  let h := (h.startAt (.trLead x) (p.t0 - p.trLead)).startAt (.paLead x) (p.t0 - 10 * h.get (R.RFS_FE_TIME_PA_LEAD x))
  (h.startAt (.paLag x) (p.t1 + p.paLag)).startAt (.trLag x) (p.t1 + p.trLag)

/-- A command is held until its deadline (R97). -/
def Hw.holdTx (h : Hw) (x : Nat) (p : TxPpdu) : Hw :=
  (h.modSlice x fun s => { s with tx := none, held := some ⟨p, p.deadline⟩ }).startAt (.hold x) p.deadline

/-- The transmit setting of a PPDU begins (R74, R114): on the chains that transmit TRSW rises, LNAEN falls and the FIFO is
prefilled; no packet is detected any more. -/
def Hw.beginSetting (h : Hw) (x : Nat) (p : TxPpdu) : Hw :=
  let h := if h.receiving x then h.dropReception x else h
  let h := h.modSlice x fun s => { s with femEn := true, trsw := s.trsw ||| p.chains, lnaen := s.lnaen &&& (255 - p.chains) }
  (h.prefillConverters x p.chains).exchangeStarts x p

/-- TR_LEAD (R97, R114, R126, R136, R138, R139, R213): at t0 − TR_LEAD the transmit setting begins, if the slice is ready,
its match has settled, every port permits and no QUIET entry is in progress. Otherwise the command is held; a response is
not sent. -/
def execTrLead (x : Fin 3) (s : State) : Host.Outcome State Fault Refusal :=
  s.effect fun h => h.onTimer (.trLead x) fun h =>
    match (h.slice x).tx with
    | none => h
    | some p =>
      if h.txReady x p.t0 && h.cxPermits x && !h.inQuiet x then h.beginSetting x p
      else
        let h := ((h.stop (.paLead x)).stop (.paLag x)).stop (.trLag x)
        if p.response then h.modSlice x fun s => { s with tx := none } else h.holdTx x p

/-- The first instant a held PPDU can have now. -/
def Hw.heldStart (h : Hw) (x : Nat) (p : TxPpdu) : Nat := max p.t0 (h.et + 10 * h.get (R.RFS_FE_TIME_TR_LEAD x))

/-- A held command proceeds now (R97): its PPDU starts as soon as the transmit setting allows, and HELD_SENT counts. -/
def Hw.sendHeld (h : Hw) (x : Nat) (c : HeldTx) : Hw :=
  let t0 := h.heldStart x c.ppdu
  let h := (h.stop (.hold x)).modSlice x fun s => { s with held := none }
  (h.bump (R.RFS_EVT_CNT0_HELD_SENT x)).beginTx x { c.ppdu with t0 := t0, t1 := t0 + (c.ppdu.t1 - c.ppdu.t0) }

/-- A held command may proceed now (R97, R138, R213, R214, R218). -/
def Hw.heldMayGo (h : Hw) (x : Nat) (c : HeldTx) : Bool :=
  let t0 := h.heldStart x c.ppdu
  h.txReady x t0 && h.cxPermits x && !h.transmitting x && !h.inQuiet x && h.ppduFits x t0 c.ppdu

/-- The chains that can transmit (R102, R128): with CHAIN_OK set and not stopped by a mismatch alarm. -/
def Hw.txChains (h : Hw) (x : Nat) : Nat :=
  ((List.range (chainsOf x)).filter fun c =>
    (h.get (R.RFS_CAL_STAT_CHAIN_OK x)).testBit c && !h.flag (R.RFS_VSWR_TX_OFF x c)).foldl (fun m c => m + 2 ^ c) 0

/-- A PPDU of slice `x` as its command asks for it, with the leads and lags now in force (R115) and its deadline (R97). -/
def Hw.newPpdu (h : Hw) (x t0 len chains width resp : Nat) (reserved response : Bool) (latest : Option Nat) : TxPpdu :=
  let d := h.et + 4000 * h.get (R.RFS_HOLD_HOLD x)
  { t0 := t0, t1 := t0 + len, chains := chains, width := width, reserved := reserved, response := response,
    trLead := 10 * h.get (R.RFS_FE_TIME_TR_LEAD x), paLag := 10 * h.get (R.RFS_FE_TIME_PA_LAG x),
    trLag := 10 * h.get (R.RFS_FE_TIME_TR_LAG x), fir := h.firBank x, resp := resp,
    deadline := match latest with
      | some t => min d (h.et + t)
      | none => d }

/-- A PPDU meets the end rule of an NSTR pair whose other slice transmits (R192): its end `t1`, padded where an aggregate
ends too early, lies in the last 4 µs before the other's; none: it is not started. -/
def Hw.nstrEnd (h : Hw) (x t0 t1 : Nat) (aggregate : Bool) : Option Nat :=
  match (h.nstrPartner x).bind fun y => (h.slice y).tx with
  | none => some t1
  | some q =>
    if t0 < q.t0 ∨ q.t1 ≤ t0 then some t1
    else if q.t1 < t1 then none
    else if q.t1 ≤ t1 + 4000 then some t1
    else if aggregate then some (q.t1 - 4000)
    else none

/-- A contended PPDU would end after the start of a reserved period on the other link of an NSTR pair (R192). -/
def Hw.nstrReserved (h : Hw) (x t1 : Nat) : Bool :=
  match h.nstrPartner x with
  | some y => h.entryWithin y (t1 - h.et) fun e => e.reserved
  | none => false

/-- The frames of closed stations leave the exchange with NO_STA (R183). -/
def Hw.dropClosed (h : Hw) (l : Nat) (e : Exchange) : Hw × Exchange :=
  e.frames.foldl (fun ((h, e) : Hw × Exchange) id =>
    match (h.mpdu id).bind (·.sta) with
    | some s => if h.isOpen s then (h, e) else (h.dropPulled l (some s) id, { e with frames := e.frames.filter (· != id) })
    | none => (h, e)) (h, e)

/-- The first PPDU of an express occurrence does not fit (R226): its class E frames wait for a later occurrence. -/
def Hw.noteUnfit (h : Hw) (x : Nat) : Hw :=
  h.modOcc x fun o => if (entryOf o.words).express then { o with unfit := max 1 o.unfit } else o

/-- The first instant of the first PPDU of a committed occurrence (R216). -/
def Hw.firstInstant (h : Hw) (x : Nat) (e : Exchange) : Option Nat :=
  (h.lastOf x).occ.bind fun o => if o.phase == .committed && e.reserved then some (o.startEt + 10000) else none

/-- The exchange of link `x` is handed to its slice as a PPDU (R97, R128, R188, R191, R192, R201, R211, R213, R214, R218,
R226): its first instant is that of R216 for the first PPDU of an occurrence; an MU-RTS is padded by PAD; it is given up,
its frames returning, where it does not fit, no chain can transmit, or the rule of an NSTR pair forbids it. -/
def Hw.transmitExchange (h : Hw) (x lead len : Nat) (shape : PpduShape) (chains resp : Nat) (latest : Option Nat)
    (e : Exchange) : Hw :=
  let ready := h.et + 10 * h.get (R.RFS_FE_TIME_TR_LEAD x)
  let t0 := max ready ((h.firstInstant x e).getD (h.et + lead))
  let pad := if e.rts then (e.stas.map fun s => if h.emlsr s then padDelay (h.get (R.STA_W60_PAD s)) else 0).foldl max 0 else 0
  let aggregate := !e.frames.isEmpty && !e.rts && (shape.fmt == .vht || shape.fmt == .he || shape.fmt == .eht)
  let resp := if e.kind == .trigger then sifs x + e.ulNs + resp else resp
  let width := e.width.getD shape.width
  let p := h.newPpdu x t0 (len + pad) (Nat.land chains (h.txChains x)) width resp e.reserved false latest
  if h.get (R.RFS_FSTAT_STATE x) ≠ stOpen then
    let h := h.setExchange x { e with issued := true }
    { h with txStatus := kput h.txStatus x .refused }
  else match h.nstrEnd x t0 p.t1 aggregate with
    | none => h.dropExchange x
    | some t1 =>
      let p := { p with t1 := t1 }
      if !h.ppduFits x t0 p then (h.noteUnfit x).dropExchange x
      else if p.chains = 0 ∨ (!e.reserved && h.nstrReserved x t1) then h.dropExchange x
      else
        let h := h.setExchange x { e with issued := true }
        if h.txReady x t0 then h.beginTx x p else h.holdTx x p

/-- A PPDU of a control frame, outside every exchange, is handed to its slice. -/
def Hw.transmitBare (h : Hw) (x lead len : Nat) (shape : PpduShape) (chains resp : Nat) (latest : Option Nat) : Hw :=
  let t0 := h.et + max lead (10 * h.get (R.RFS_FE_TIME_TR_LEAD x))
  let p := h.newPpdu x t0 len (Nat.land chains (h.txChains x)) shape.width resp false false latest
  if h.get (R.RFS_FSTAT_STATE x) ≠ stOpen then { h with txStatus := kput h.txStatus x .refused }
  else if p.chains = 0 ∨ !h.ppduFits x t0 p then h
  else if h.txReady x t0 then h.beginTx x p
  else h.holdTx x p

/-- TRANSMIT_COMMAND (R97, R126, R130, R136, R139, R171, R214, R442): the response that is due goes first, one SIFS after
what it answers, and under a grant or in a QUIET entry not at all; else the exchange formed, or the next to be formed, goes.
A slice holds at most one command (R98), and a format it does not support is not sent. `lead`, `len`: nanoseconds from now
to t0 and the PPDU's length; `resp`: what the responses it solicits take; `fit`: the MPDUs a further round may hold;
`latest`: the latest start time that the command carries. -/
def Hw.transmitCommand (h : Hw) (x lead len : Nat) (shape : PpduShape) (chains resp fit : Nat) (latest : Option Nat) : Hw :=
  if (h.slice x).held.isSome || h.transmitting x || h.inQuiet x || !formatSupported x false shape then h
  else
    match (h.weltLink x).response.filter fun r => !r.issued with
    | some r =>
      let h := h.modWeltLink x fun w => { w with response := if h.granted x then none else some { r with issued := true } }
      let t0 := max r.due (h.et + 10 * h.get (R.RFS_FE_TIME_TR_LEAD x))
      let p := h.newPpdu x t0 len (Nat.land chains (h.txChains x)) shape.width resp false true latest
      if h.granted x ∨ p.chains = 0 ∨ h.get (R.RFS_FSTAT_STATE x) ≠ stOpen then h
      else if h.txReady x t0 then h.beginTx x p
      else h.holdTx x p
    | none =>
      let h := h.planNext x fit (lead + len + resp)
      match h.exchange x with
      | none => h.transmitBare x lead len shape chains resp latest
      | some e =>
        if e.issued || e.awaits then h
        else
          let (h, e') := h.dropClosed x e
          if e'.frames.isEmpty && !e.frames.isEmpty then h.endExchange x
          else h.transmitExchange x lead len shape chains resp latest e'

def execTransmitCommand (x : Fin 3) (lead len : Nat) (shape : PpduShape) (chains : BitVec 8) (resp fit : Nat)
    (latest : Option Nat) (s : State) : Host.Outcome State Fault Refusal :=
  s.effect fun h => h.transmitCommand x lead len shape chains.toNat resp fit latest

/-- HELD_COMMAND_SENT (R97, R138): the slice is ready, its match settled, its ports grant, and its PPDU still fits. -/
def execHeldCommandSent (x : Fin 3) (s : State) : Host.Outcome State Fault Refusal :=
  s.effect fun h =>
    match (h.slice x).held with
    | some c => if h.heldMayGo x c then h.sendHeld x c else h
    | none => h

/-- HOLD_DEADLINE (R97, R98, R138): at the deadline tick a command that may go does; else it fails with SYNTH_NOT_READY
where the slice is not ready, with COEX_DENIED where a port does not permit, and is returned to Welt where it no longer
fits. -/
def execHoldDeadline (x : Fin 3) (s : State) : Host.Outcome State Fault Refusal :=
  s.effect fun h => h.onTimer (.hold x) fun h =>
    match (h.slice x).held with
    | none => h
    | some c =>
      if h.heldMayGo x c then h.sendHeld x c
      else if !h.txReady x (h.heldStart x c.ppdu) then (h.failHeld x .synthNotReady).bump (R.RFS_EVT_CNT0_NOT_READY x)
      else if !h.cxPermits x then (h.cxDenied x).failHeld x .coexDenied
      else h.failHeld x .refused

end Sys2Proof.Machine
end

