-- ==== Sys2Proof/Machine/Dram.lean ====
section
/-!
DEFINITION. The DRAM controller: the address map (R496), accesses (R497, R504, R505), training (R498), refresh (R499 to
R502), neighbour refresh (R503), ECC initialisation (R506), self-refresh (R507) and the registers of R509 and R510.
-/
namespace Sys2Proof.Machine

def DramChannel.initial : DramChannel := ⟨0, [], 1, [], none, false, false⟩
def Hw.channel (h : Hw) (c : Nat) : DramChannel := kgetD DramChannel.initial h.dram.channels c
def Hw.modChannel (h : Hw) (c : Nat) (f : DramChannel → DramChannel) : Hw :=
  { h with dram := { h.dram with channels := kput h.dram.channels c (f (h.channel c)) } }
def Hw.drcState (h : Hw) : Nat := h.get R.DRC_STAT_STATE

/-! ### Refresh debt (R499) -/

/-- D of a channel now. -/
def Hw.debt (h : Hw) (c : Nat) : Nat :=
  let d := h.get (R.DRC_DEBT_D c)
  if h.tbLock && h.drcState == drcReady then min (2 ^ 32 - 1) (d + (h.et - (h.channel c).debtAt)) else d

/-- D of a channel becomes `d`, and accrues from now. -/
def Hw.setDebt (h : Hw) (c d : Nat) : Hw := (h.set (R.DRC_DEBT_D c) d).modChannel c fun k => { k with debtAt := h.et }

/-- The debts counted so far are kept; they accrue from now where they accrue. -/
def Hw.settleDebts (h : Hw) : Hw := [0, 1].foldl (fun h c => h.setDebt c (h.debt c)) h

/-- The state of DRC_STAT changes. -/
def Hw.setDrcState (h : Hw) (st : Nat) : Hw := h.settleDebts.set R.DRC_STAT_STATE st

/-- tREFI_eff of a code. -/
def tRefi (code : Nat) : Nat := 15624 / 2 ^ code
def Hw.refi (h : Hw) (c : Nat) : Nat := tRefi (h.get (R.DRC_REF_STAT_CODE c))
def Hw.owed (h : Hw) (c : Nat) : Nat := h.debt c / h.refi c
def Hw.urgent (h : Hw) (c : Nat) : Bool := decide (8 * h.refi c ≤ h.debt c)

/-- A real-time burst is in progress on a channel (R500). -/
def Hw.bursting (h : Hw) (c : Nat) : Bool := (h.channel c).burst.isSome

/-- One REFab: D falls by the interval in force, and the channel is busy for tRFCab. -/
def Hw.refab (h : Hw) (c : Nat) : Hw := (h.setDebt c (h.debt c - h.refi c)).advance (h.get R.DRC_TIM_TRFC)

/-- REFRESH_DECISION (R500). -/
def Hw.refreshDecision (h : Hw) (c : Nat) : Hw :=
  if h.drcState ≠ drcReady then h
  else if h.urgent c then
    let h := if h.bursting c && !(h.channel c).interrupted then
        (h.bump (R.DRC_CNT0_RT_PREEMPT c)).modChannel c fun k => { k with interrupted := true }
      else h
    h.refab c
  else if 1 ≤ h.owed c ∧ h.bursting c then h
  else if h.get R.DRC_REF_POST ≤ h.owed c ∨ (1 ≤ h.owed c ∧ (h.channel c).waiting.isEmpty) then h.refab c
  else h

def execRefreshDecision (c : Fin 2) (s : State) : Host.Outcome State Fault Refusal := s.effect fun h => h.refreshDecision c

/-- MR4_READ (R501, R502): the channel reads MR4; `log2` is the base-2 logarithm of the multiplier it shows, `hot` that
it lies above the operating temperature. -/
def Hw.mr4Read (h : Hw) (c : Nat) (log2 : Int) (hot : Bool) : Hw :=
  let new := if hot then 4 else (clampInt 0 4 (max (2 + log2) (h.get R.DRC_REF_F_MIN))).toNat
  let h := if hot then h.set R.DRC_STAT_HOT_EV 1 else h
  if new = h.get (R.DRC_REF_STAT_CODE c) then h
  else
    let was := h.urgent c
    let h := (h.set (R.DRC_REF_STAT_CODE c) new).set R.DRC_STAT_RATE_EV 1
    if !was && h.urgent c then h.bump (R.DRC_CNT0_CATCHUP c) else h

def execMr4Read (c : Fin 2) (log2 : Int) (hot : Bool) (s : State) : Host.Outcome State Fault Refusal :=
  s.effect fun h => h.onTimer (.mr4 c) fun h =>
    let h := h.start (.mr4 c) 16000000
    if h.drcState = drcReady then h.mr4Read c log2 hot else h

/-! ### Activations and neighbour refresh (R496, R503) -/

/-- The bank and row of an address. -/
def Hw.dramPlace (h : Hw) (addr : Nat) : Nat × Nat :=
  let k := (addr - 0x1000000000) / 256 / 2
  (k % 16, k / 16 / if h.flag R.DRC_CFG_ECC_EN then 7 else 8)

/-- Rows per bank (R495). -/
def Hw.dramRows (h : Hw) : Nat := 2 ^ (14 + h.get R.DRC_CFG_DENS)

/-- One step of the LFSR: the Galois form of x^32 + x^22 + x^2 + x + 1. -/
def lfsrStep (x : Word) : Word := if x.msb then (x <<< 1) ^^^ 0x00400007 else x <<< 1

/-- An ACT of a row (R503): the LFSR steps, and where it selects the ACT, the row's neighbours join the queue. Those
that find 16 entries queued wait beyond them, and hold the channel's next ACT. -/
def Hw.activate (h : Hw) (c bank row : Nat) : Hw :=
  let x := lfsrStep (h.channel c).lfsr
  let h := h.modChannel c fun k => { k with lfsr := x }
  if h.flag R.DRC_NR_EN && x.toNat % 2 ^ h.get R.DRC_NR_K == 0 then
    let ns := (if row = 0 then [] else [(bank, row - 1)]) ++ if row + 1 < h.dramRows then [(bank, row + 1)] else []
    let h := h.modChannel c fun k => { k with neighbours := k.neighbours ++ ns }
    if 16 < (h.channel c).neighbours.length then h.bump (R.DRC_CNT1_NR_FULL c) else h
  else h

/-- NEIGHBOUR_REFRESH (R503): after urgent refresh, and during a real-time burst only while the queue is full. -/
def Hw.neighbourRefresh (h : Hw) (c : Nat) : Hw :=
  if h.drcState ≠ drcReady || h.urgent c || (h.bursting c && decide ((h.channel c).neighbours.length < 16)) then h
  else
    match (h.channel c).neighbours with
    | [] => h
    | (b, r) :: rest => (h.modChannel c fun k => { k with neighbours := rest }).activate c b r

def execNeighbourRefresh (c : Fin 2) (s : State) : Host.Outcome State Fault Refusal := s.effect fun h => h.neighbourRefresh c

/-! ### Accesses (R497, R504 to R506) -/

/-- The access merges: it covers some word of 8 bytes in part. -/
def merges (a n : Nat) : Bool := a % 8 != 0 || n % 8 != 0

/-- What an access does to memory and what it answers, its words' check bits showing `e`. -/
def Hw.dramPerform (h : Hw) (q : Request) (e : EccFinding) : Hw :=
  let ecc := h.flag R.DRC_CFG_ECC_EN
  match q.data with
  | none =>
    if (ecc && e == .uncorrectable) || h.unwritten q.addr q.size false then (h.dramFinding q.addr true).replyError q 3
    else
      let h := if ecc && e == .corrected then h.dramFinding q.addr false else h
      h.reply q 0 (h.memBytes q.addr q.size)
  | some bs =>
    let m := ecc && merges q.addr q.size
    if (m && e == .uncorrectable) || h.unwritten q.addr q.size true then (h.dramFinding q.addr true).replyError q 3
    else
      let h := if m && e == .corrected then h.dramFinding q.addr false else h
      ((h.markWritten q.addr q.size).storeBytes q.addr bs).reply q 0 []

/-- The access a channel takes next: one of the real-time burst in progress, else the oldest. -/
def DramChannel.nextAccess (k : DramChannel) : Option Request :=
  match k.burst with
  | some m =>
    match k.waiting.find? fun q => q.master == m with
    | some q => some q
    | none => k.waiting.head?
  | none => k.waiting.head?

/-- The data of a write stand in the write FIFO of the channel, as bursts of 32 bytes, before its command is issued
(R74, R76); of a longer write, as much as the FIFO holds. -/
def Hw.dramOffer (h : Hw) (c : Nat) (q : Request) : Hw :=
  if q.data.isSome then h.setFifo (fifoDramWrite c) (min (fifoDepth (fifoDramWrite c)) ((q.addr % 32 + q.size + 31) / 32)) else h

/-- The command of an access may be issued (R76): a read has free space for a burst in the read FIFO, a write finds a
burst in the write FIFO. -/
def Hw.dramMayIssue (h : Hw) (c : Nat) (q : Request) : Bool :=
  if q.data.isSome then 1 ≤ h.occupancy (fifoDramWrite c) else h.occupancy (fifoDramRead c) < fifoDepth (fifoDramRead c)

/-- The bursts of an access have left the FIFO that they pass, within the step of the access (DESIGN CHOICE, log 44). -/
def Hw.dramTaken (h : Hw) (c : Nat) (q : Request) : Hw :=
  h.setFifo (if q.data.isSome then fifoDramWrite c else fifoDramRead c) 0

/-- What goes ahead of the next access of a channel (R500, R503): an urgent refresh; in a real-time burst, a neighbour of a
full queue; else any queued neighbour, and a refresh where POST or more are owed. -/
def Hw.accessHeld (h : Hw) (c : Nat) : Bool :=
  h.urgent c ||
  if h.bursting c then decide (16 ≤ (h.channel c).neighbours.length)
  else !(h.channel c).neighbours.isEmpty || decide (h.get R.DRC_REF_POST ≤ h.owed c)

/-- DRAM_ACCESS (R497): the channel performs its next access, once nothing goes ahead of it (R500, R503) and its island
FIFO does not hold it (R76). -/
def Hw.dramAccess (h : Hw) (c : Nat) (e : EccFinding) : Hw :=
  let k := h.channel c
  match k.nextAccess with
  | none => h
  | some q =>
    if !h.memoryAt q.addr then
      (h.modChannel c fun k => { k with waiting := withoutFirst k.waiting q }).replyError q 1
    else if h.accessHeld c then h
    else if !(h.dramOffer c q).dramMayIssue c q then h.dramOffer c q
    else
      let (b, r) := h.dramPlace q.addr
      let h := (((h.dramOffer c q).activate c b r).dramPerform q e).dramTaken c q
      h.modChannel c fun k =>
        let rest := withoutFirst k.waiting q
        let goes := (h.get R.DRC_RT_RT_MASK).testBit q.master && rest.any fun x => x.master == q.master
        { k with waiting := rest, burst := if goes then some q.master else none, interrupted := false }

def execDramAccess (c : Fin 2) (e : EccFinding) (s : State) : Host.Outcome State Fault Refusal :=
  s.effect fun h => h.dramAccess c e

/-! ### Training, initialisation (R498, R506, R507) -/

def Hw.drcIdle (h : Hw) : Bool := h.drcState == drcUntrained || h.drcState == drcFailed

/-- Training fails (R498, R507). -/
def Hw.trainFails (h : Hw) (step ch : Nat) : Hw :=
  (((h.setDrcState drcFailed).set R.DRC_STAT_FAIL_STEP step).set R.DRC_STAT_FAIL_CH ch).set R.DRC_STAT_TRAIN_EV 1

/-- START (R498): in diagnostic mode training fails at its first step (R558). -/
def Hw.trainStart (h : Hw) : Hw :=
  if !h.drcIdle then h.set R.DRC_STAT_CFG_ERR 1
  else if h.get R.HEEL_PS_STAT_STATE = 7 then h.trainFails 1 3
  else h.setDrcState drcTraining
def execTrainStart (s : State) : Host.Outcome State Fault Refusal := s.effect fun h => h.trainStart

/-- Both channels are READY with D = 0; MR4 is read `wait` later. -/
def Hw.dramReady (h : Hw) (wait : Nat) : Hw :=
  let h := h.setDrcState drcReady
  [0, 1].foldl (fun h c => ((h.setDebt c 0).start (.mr4 c) wait).modChannel c fun k => { k with acknowledged := false }) h

/-- TRAINING_DONE (R498): training ends, `step` of it failing on the channels `ch` (step 0 or no channel: none). After
a wake the channels of a trained DRAM end the repeated steps 4 and 5 (R507). -/
def Hw.trainingDone (h : Hw) (step ch : Nat) : Hw :=
  let fails := step != 0 && ch != 0
  if h.drcState = drcTraining then
    if fails then h.trainFails step ch
    else
      let h := (h.dramReady 16000000).set R.DRC_STAT_TRAIN_EV 1
      { h with dram := { h.dram with initialised := false, written := [] } }
  else if h.drcState = drcSelfRefresh then
    if fails then h.trainFails step ch else h.dramReady 0
  else h

def execTrainingDone (step : Fin 8) (ch : BitVec 2) (s : State) : Host.Outcome State Fault Refusal :=
  s.effect fun h => h.trainingDone step ch.toNat

/-- INIT (R498, R506). -/
def Hw.eccInit (h : Hw) : Hw := if h.drcState = drcReady then h.setDrcState drcEccInit else h.set R.DRC_STAT_CFG_ERR 1
def execInit (s : State) : Host.Outcome State Fault Refusal := s.effect fun h => h.eccInit

/-- INIT_DONE (R506): the window holds zero with valid check bytes. -/
def Hw.initDone (h : Hw) : Hw :=
  if h.drcState = drcEccInit then
    let top := 0x1000000000 + h.dramWindow
    let h := { h with mem := h.mem.filter fun x => !(decide (0x1000000000 ≤ x.1) && decide (x.1 < top))
                      dram := { h.dram with initialised := true, written := [] } }
    (h.setDrcState drcReady).set R.DRC_STAT_TRAIN_EV 1
  else h

def execInitDone (s : State) : Host.Outcome State Fault Refusal := s.effect fun h => h.initDone

/-- The steps of a channel asked for self-refresh (R507); false: it does not acknowledge. -/
def Hw.selfRefresh (h : Hw) (c : Nat) : Hw × Bool :=
  let done (h : Hw) : Hw × Bool := (h.modChannel c fun k => { k with neighbours := [], acknowledged := true }, true)
  if h.drcIdle then done h
  else if h.drcState = drcReady && (h.channel c).waiting.isEmpty then done (h.setDebt c (h.debt c % h.refi c))
  else (h, false)

/-! ### Registers (R509, R510) -/

def Hw.writeDrcCfg (h : Hw) (v : Word) : Hw :=
  if !h.drcIdle then h.set R.DRC_STAT_CFG_ERR 1
  else
    let rate := h.get R.DRC_CFG_RATE
    let h := h.writeFields R.DRC_CFG v
    if fieldOf v R.DRC_CFG_RATE = 3 then h.set R.DRC_CFG_RATE rate else h

/-- A write of a register of the DRC block. -/
def Hw.drcWrite (h : Hw) (a : Nat) (v : Word) : Hw :=
  if a = R.DRC_CFG then h.writeDrcCfg v
  else if a = R.DRC_TRAIN then (if v.getLsbD 0 then h.trainStart else h)
  else
    let h := h.writeFields a v
    if a = R.DRC_TIM then h.set R.DRC_TIM_TRFC (max 50 (h.get R.DRC_TIM_TRFC))
    else if a = R.DRC_REF then
      (h.set R.DRC_REF_F_MIN (min 4 (h.get R.DRC_REF_F_MIN))).set R.DRC_REF_POST (clampNat 1 8 (h.get R.DRC_REF_POST))
    else if a = R.DRC_NR then h.set R.DRC_NR_K (clampNat 6 14 (h.get R.DRC_NR_K))
    else if a = R.DRC_ECC then (if fieldOf v R.DRC_ECC_INIT = 1 then h.eccInit else h)
    else h

/-- The words of the DRC block that follow the debt; none: another register. -/
def Hw.drcRead (h : Hw) (a : Nat) : Option Nat :=
  [0, 1].findSome? fun c =>
    if a = R.DRC_DEBT c then some (h.debt c)
    else if a = R.DRC_REF_STAT c then
      some (h.get (R.DRC_REF_STAT_CODE c) + (if h.urgent c then 8 else 0) + 16 * min 15 (h.owed c))
    else none

end Sys2Proof.Machine
end

