-- ==== Sys2Proof/Machine/Gates.lean ====
section
/-!
DEFINITION. The scheduled gates of the Ethernet ports (R375 to R379, R382) and what they let pass (R380).
-/
namespace Sys2Proof.Machine

def EthPort.initial : EthPort := ⟨none, [], none, [], 0, 0, 1, 0, 0, none, [], none, none, none⟩
def Hw.ethPort (h : Hw) (n : Nat) : EthPort := kgetD EthPort.initial h.eth n
def Hw.modEth (h : Hw) (n : Nat) (f : EthPort → EthPort) : Hw := { h with eth := kput h.eth n (f (h.ethPort n)) }

/-! ### Banks -/

/-- A span of network time in ns, and an instant moved by one. -/
def ntSpan (ns : Nat) : Nat := ns * 2 ^ 32
def ntPlus (a ns : Nat) : Nat := (a + ntSpan ns) % ntTurn

/-- `a` is at or after `b` under the modulo rule (R434). -/
def ntAtLeast (a b : Nat) : Bool := decide (0 ≤ ntDiff a b)

def Hw.gateBase (h : Hw) (n b : Nat) : Nat :=
  ((h.get (R.ETH_BASE_S_LO_S_LO n b) + 2 ^ 32 * h.get (R.ETH_BASE_S_HI_S_HI n b)) * ntSecond +
    ntSpan (h.get (R.ETH_BASE_NS_NS n b))) % ntTurn
def Hw.gateCycle (h : Hw) (n b : Nat) : Nat := h.get (R.ETH_CYCLE_CYCLE n b)
def Hw.gateExt (h : Hw) (n b : Nat) : Nat := h.get (R.ETH_EXT_EXT n b)
def Hw.gateCount (h : Hw) (n b : Nat) : Nat := h.get (R.ETH_COUNT_COUNT n b)
def Hw.gateStates (h : Hw) (n b i : Nat) : Nat := h.get (R.ETH_GE_W0_STATES n b i)
def Hw.gateOp (h : Hw) (n b i : Nat) : Nat := h.get (R.ETH_GE_W0_OP n b i)
def Hw.gateInterval (h : Hw) (n b i : Nat) : Nat := h.get (R.ETH_GE_W1_INTERVAL n b i)

def Hw.gateEn (h : Hw) (n : Nat) : Bool := h.flag (R.ETH_GATE_CTL_GATE_EN n)
def Hw.gateOper (h : Hw) (n : Nat) : Bool := h.flag (R.ETH_GATE_STAT_OPER n)
def Hw.gateActive (h : Hw) (n : Nat) : Nat := h.get (R.ETH_GATE_STAT_ACTIVE n)
def Hw.gatePend (h : Hw) (n : Nat) : Bool := h.flag (R.ETH_GATE_STAT_PEND n)

/-- The first start of a bank at or after `now` (R377). -/
def Hw.gateFirst (h : Hw) (n b now : Nat) : Nat :=
  let base := h.gateBase n b
  let cyc := ntSpan (h.gateCycle n b)
  let d := ntDiff now base
  if d ≤ 0 ∨ cyc = 0 then base else (base + (d.toNat + cyc - 1) / cyc * cyc) % ntTurn

/-! ### Preemption activity and hold (R370, R375) -/

def Hw.preemptionActive (h : Hw) (n : Nat) : Bool := h.flag (R.ETH_PRE_STAT_ACTIVE n)

/-- TC `t` is express (R370). -/
def Hw.expressTc (h : Hw) (n t : Nat) : Bool := t == 7 || (h.get (R.ETH_PRE_CTL_EXPRESS n)).testBit t

/-- A frame of TC `t` is sent as an express frame. -/
def Hw.sentExpress (h : Hw) (n t : Nat) : Bool := !h.preemptionActive n || h.expressTc n t

/-- The gates of a port change; a fair queue whose gate closes leaves the active set (R354). -/
def Hw.setGates (h : Hw) (n v : Nat) : Hw :=
  let h := h.set (R.ETH_GATE_STAT_STATES n) v
  h.dropTags n fun f => !v.testBit f.tc

/-- Preemptable traffic is held (R375), and its fair queues leave the active set (R354). -/
def Hw.hold (h : Hw) (n : Nat) : Hw :=
  let h := h.set (R.ETH_PRE_STAT_HOLD n) 1
  h.dropTags n fun f => !h.sentExpress n f.tc

/-- ACTIVE follows PRE_EN, VERIFY_EN and the verify state; without preemption there is no hold. -/
def Hw.updateActive (h : Hw) (n : Nat) : Hw :=
  let a := h.flag (R.ETH_PRE_CTL_PRE_EN n) && (!h.flag (R.ETH_PRE_CTL_VERIFY_EN n) || h.get (R.ETH_PRE_STAT_VERIFY n) == 3)
  let h := h.setFlag (R.ETH_PRE_STAT_ACTIVE n) a
  if a then h else h.set (R.ETH_PRE_STAT_HOLD n) 0

/-! ### Cycles and entries -/

/-- The cycle of bank `b` that starts at `t` (R378): it ends at the change time where the rule says so. -/
def Hw.gateCycleAt (h : Hw) (n b t : Nat) : GateRun :=
  let nominal := ntPlus t (h.gateCycle n b)
  let (stop, swap) := match (h.ethPort n).cct with
    | some c => if h.gatePend n && h.gateActive n == b && ntAtLeast (ntPlus nominal (h.gateExt n b)) c then (c, true) else (nominal, false)
    | none => (nominal, false)
  ⟨b, t, nominal, stop, swap, 0, ntPlus t (h.gateInterval n b 0)⟩

/-- The cycle in progress checked against the change time (R378, R379). -/
def Hw.gateRecheck (h : Hw) (n : Nat) : Hw :=
  h.modEth n fun p => { p with gateRun := p.gateRun.map fun r =>
    let r' := h.gateCycleAt n r.bank r.start
    { r with nominal := r'.nominal, stop := r'.stop, swap := r'.swap } }

/-- The next entry of a cycle begins before the cycle ends (R375). -/
def Hw.gateMoreEntries (h : Hw) (n : Nat) (r : GateRun) : Bool :=
  decide (r.entry + 1 < h.gateCount n r.bank) && !ntAtLeast r.entryEnd r.nominal && !ntAtLeast r.entryEnd r.stop

/-- The entry after the one in force. -/
def Hw.gateNextEntry (h : Hw) (n : Nat) (r : GateRun) : GateRun :=
  { r with entry := r.entry + 1, entryEnd := ntPlus r.entryEnd (h.gateInterval n r.bank (r.entry + 1)) }

/-- An entry takes effect (R375): states, number, and, while preemption is active, the hold of OP 1 and 2. -/
def Hw.enterGate (h : Hw) (n : Nat) (r : GateRun) : Hw :=
  let h := h.modEth n fun p => { p with gateRun := some r, gateWait := none }
  let h := (h.setGates n (h.gateStates n r.bank r.entry)).set (R.ETH_GATE_STAT_ENTRY n) r.entry
  if h.preemptionActive n then
    match h.gateOp n r.bank r.entry with
    | 1 => h.hold n
    | 2 => h.set (R.ETH_PRE_STAT_HOLD n) 0
    | _ => h
  else h

/-- GATE_ENTRY_CHANGE (R375): the interval of the entry in force ends. -/
def execGateEntryChange (n : Fin 8) (s : State) : Host.Outcome State Fault Refusal :=
  s.effect fun h =>
    match (h.ethPort n).gateRun with
    | none => h
    | some r => if h.gateMoreEntries n r then h.atNt r.entryEnd fun h => h.enterGate n (h.gateNextEntry n r) else h

/-- GATE_CYCLE_START (R378, R382): the next cycle of the operative list starts, or the first of a restarted one. -/
def execGateCycleStart (n : Fin 8) (s : State) : Host.Outcome State Fault Refusal :=
  s.effect fun h =>
    let p := h.ethPort n
    match p.gateRun, p.gateWait with
    | some r, _ => if r.swap then h else h.atNt r.stop fun h => h.enterGate n (h.gateCycleAt n r.bank r.stop)
    | none, some t =>
      let never := match p.cct with
        | some c => h.gatePend n && ntAtLeast t c
        | none => false
      if never then h else h.atNt t fun h => h.enterGate n (h.gateCycleAt n (h.gateActive n) t)
    | none, none => h

/-- GATE_CCT (R378): the prepared bank becomes operative. -/
def execGateCct (n : Fin 8) (s : State) : Host.Outcome State Fault Refusal :=
  s.effect fun h =>
    let p := h.ethPort n
    match p.cct with
    | none => h
    | some c =>
      let due := match p.gateRun with
        | some r => r.swap
        | none => true
      if h.gatePend n && due then
        h.atNt c fun h =>
          let b := 1 - h.gateActive n
          let h := h.modEth n fun p => { p with cct := none }
          let h := (((h.set (R.ETH_GATE_STAT_ACTIVE n) b).set (R.ETH_GATE_STAT_PEND n) 0).set (R.ETH_GATE_STAT_SWAP_EV n) 1).set
            (R.ETH_GATE_STAT_OPER n) 1
          h.enterGate n (h.gateCycleAt n b c)
      else h

/-! ### Control (R376, R377, R379) -/

/-- GATE_EN and INIT_STATES as written take effect at once (R376). -/
def Hw.gateEnWrite (h : Hw) (n en init : Nat) : Hw :=
  let h := (h.set (R.ETH_GATE_CTL_GATE_EN n) en).set (R.ETH_GATE_CTL_INIT_STATES n) init
  if en = 0 then
    let h := h.modEth n fun p => { p with gateRun := none, gateWait := none, cct := none }
    let h := ((h.set (R.ETH_GATE_STAT_OPER n) 0).set (R.ETH_GATE_STAT_PEND n) 0).set (R.ETH_GATE_STAT_VAL_BUSY n) 0
    ((h.setGates n 0xFF).set (R.ETH_GATE_STAT_ENTRY n) 0).set (R.ETH_PRE_STAT_HOLD n) 0
  else if (h.ethPort n).gateRun.isNone then h.setGates n init
  else h

/-- GO (R377). -/
def Hw.gateGo (h : Hw) (n : Nat) : Hw :=
  if !h.gateEn n || h.gatePend n || h.flag (R.ETH_GATE_STAT_VAL_BUSY n) then h.set R.ETH_STAT_CFG_ERR 1
  else h.set (R.ETH_GATE_STAT_VAL_BUSY n) 1

/-- CANCEL (R377, R379). -/
def Hw.gateCancel (h : Hw) (n : Nat) : Hw :=
  let h := h.set (R.ETH_GATE_STAT_VAL_BUSY n) 0
  if h.gatePend n then
    ((h.set (R.ETH_GATE_STAT_PEND n) 0).modEth n fun p => { p with cct := none }).gateRecheck n
  else h

/-- The code of the first failing check of R377; none: every check passes. -/
def Hw.gateCheck (h : Hw) (n b : Nat) : Option Nat :=
  let k := h.gateCount n b
  if h.gateCycle n b = 0 then some 1
  else if k = 0 ∨ 256 < k then some 2
  else if (List.range k).any fun i => h.gateInterval n b i == 0 then some 3
  else if (List.range k).any fun i => h.gateOp n b i == 3 then some 4
  else if 999999999 < h.get (R.ETH_BASE_NS_NS n b) then some 5
  else none

/-- GATE_VALIDATION_DONE (R377, R378). -/
def execGateValidationDone (n : Fin 8) (s : State) : Host.Outcome State Fault Refusal :=
  s.effect fun h =>
    if h.flag (R.ETH_GATE_STAT_VAL_BUSY n) then
      let b := 1 - h.gateActive n
      let h := h.set (R.ETH_GATE_STAT_VAL_BUSY n) 0
      match h.gateCheck n b with
      | some c => (h.set (R.ETH_GATE_STAT_CODE n) c).set (R.ETH_GATE_STAT_VAL_ERR_EV n) 1
      | none =>
        let c := h.gateFirst n b h.nt
        ((h.set (R.ETH_GATE_STAT_PEND n) 1).modEth n fun p => { p with cct := some c }).gateRecheck n
    else h

def execGateEnWrite (n : Fin 8) (en : Bool) (init : BitVec 8) (s : State) : Host.Outcome State Fault Refusal :=
  s.effect fun h => h.gateEnWrite n (if en then 1 else 0) init.toNat
def execGateGo (n : Fin 8) (s : State) : Host.Outcome State Fault Refusal := s.effect fun h => h.gateGo n
def execGateCancel (n : Fin 8) (s : State) : Host.Outcome State Fault Refusal := s.effect fun h => h.gateCancel n

/-- A write of ETH_n_GATE_CTL (R376, R377, R379): the enables first, then CANCEL, then GO. -/
def Hw.writeGateCtl (h : Hw) (n : Nat) (v : Word) : Hw :=
  let h := h.gateEnWrite n (fieldOf v (R.ETH_GATE_CTL_GATE_EN n)) (fieldOf v (R.ETH_GATE_CTL_INIT_STATES n))
  let h := if fieldOf v (R.ETH_GATE_CTL_CANCEL n) = 1 then h.gateCancel n else h
  if fieldOf v (R.ETH_GATE_CTL_GO n) = 1 then h.gateGo n else h

/-- A write of a word of bank `b` (R379). -/
def Hw.writeGateBank (h : Hw) (n b a : Nat) (v : Word) : Hw :=
  let active := b == h.gateActive n
  if (active && h.gateOper n) || (!active && (h.gatePend n || h.flag (R.ETH_GATE_STAT_VAL_BUSY n))) then h.set R.ETH_STAT_CFG_ERR 1
  else h.writeFields a v

/-- Network time has stepped (R382). -/
def Hw.gateStep (h : Hw) (n : Nat) : Hw :=
  if h.gateEn n then
    let h := h.set (R.ETH_GATE_STAT_STEP_EV n) 1
    let h := if h.gateOper n then
        let t := h.gateFirst n (h.gateActive n) h.nt
        (h.modEth n fun p => { p with gateRun := none, gateWait := some t }).setGates n
          (h.get (R.ETH_GATE_CTL_INIT_STATES n))
      else h
    if h.gatePend n then h.modEth n fun p => { p with cct := some (h.gateFirst n (1 - h.gateActive n) h.nt) } else h
  else h

def Hw.gateStepAll (h : Hw) : Hw := (List.range 8).foldl (fun h n => h.gateStep n) h

/-- IN_EXT (R378): the nominal end has passed, and the change time has not. -/
def Hw.gateInExt (h : Hw) (n : Nat) : Bool :=
  match (h.ethPort n).gateRun with
  | some r => r.swap && ntAtLeast h.nt r.nominal && !ntAtLeast h.nt r.stop
  | none => false

/-! ### Admission (R380) -/

/-- The position after `r` in the lists as they are known: the next entry, the next cycle, or the prepared bank. The
flag tells that the change has been passed. -/
def Hw.gateAfter (h : Hw) (n : Nat) (r : GateRun) : GateRun × Nat :=
  if h.gateMoreEntries n r then (h.gateNextEntry n r, r.entryEnd)
  else if r.swap then
    let b := 1 - r.bank
    (⟨b, r.stop, ntPlus r.stop (h.gateCycle n b), ntPlus r.stop (h.gateCycle n b), false, 0, ntPlus r.stop (h.gateInterval n b 0)⟩, r.stop)
  else (h.gateCycleAt n r.bank r.stop, r.stop)

/-- The instant gate `t` next closes, from a position at which it is open. -/
def Hw.gateCloses (h : Hw) (n t : Nat) (r : GateRun) (fuel : Nat) : Option Nat :=
  match fuel with
  | 0 => none
  | fuel + 1 =>
    let (r', at') := h.gateAfter n r
    if (h.gateStates n r'.bank r'.entry).testBit t then h.gateCloses n t r' fuel else some at'

/-- The first position of the lists known while no cycle runs: the restarted list, or the prepared bank. -/
def Hw.gateAhead (h : Hw) (n : Nat) : Option GateRun :=
  let p := h.ethPort n
  let prepared (c : Nat) : GateRun :=
    let b := 1 - h.gateActive n
    ⟨b, c, ntPlus c (h.gateCycle n b), ntPlus c (h.gateCycle n b), false, 0, ntPlus c (h.gateInterval n b 0)⟩
  match p.gateWait, p.cct with
  | some t, some c => if ntAtLeast t c then some (prepared c) else some (h.gateCycleAt n (h.gateActive n) t)
  | some t, none => some (h.gateCycleAt n (h.gateActive n) t)
  | none, some c => some (prepared c)
  | none, none => none

/-- The time in whole ns for which gate `t`, open now, stays open; none: without limit. -/
def Hw.gateOpenFor (h : Hw) (n t : Nat) : Option Nat :=
  let close := match (h.ethPort n).gateRun with
    | some r => h.gateCloses n t r 1600
    | none =>
      match h.gateAhead n with
      | none => none
      | some r => if (h.gateStates n r.bank r.entry).testBit t then h.gateCloses n t r 1600 else some r.start
  close.map fun c => (ntDiff c h.nt).toNat / 2 ^ 32

/-- The entries of one cycle of a bank as gate `t` sees them: open or closed, and for how many ns (R375). -/
def Hw.gateSpans (h : Hw) (n b t i at' fuel : Nat) : List (Bool × Nat) :=
  match fuel with
  | 0 => []
  | fuel + 1 =>
    let cyc := h.gateCycle n b
    let last := decide (h.gateCount n b ≤ i + 1)
    let d := if last then cyc - at' else min (h.gateInterval n b i) (cyc - at')
    let x := ((h.gateStates n b i).testBit t, d)
    if last || decide (cyc ≤ at' + d) then [x] else x :: h.gateSpans n b t (i + 1) (at' + d) fuel

/-- The longest run of open spans, the list taken twice over for the cycle wrap; `run` is the run so far. -/
def longestRun (l : List (Bool × Nat)) (run : Nat) : Nat :=
  match l with
  | [] => run
  | (true, d) :: r => max (run + d) (longestRun r (run + d))
  | (false, _) :: r => max run (longestRun r 0)

/-- The longest interval for which gate `t` stays open in the operative list; none: it never closes, or there is no
list (R380). -/
def Hw.gateLongest (h : Hw) (n t : Nat) : Option Nat :=
  if h.gateOper n then
    let l := h.gateSpans n (h.gateActive n) t 0 0 256
    if l.all (·.1) then none else some (longestRun (l ++ l) 0)
  else none

end Sys2Proof.Machine
end

