-- ==== Sys2Proof/Machine/Ether.lean ====
section
/-!
DEFINITION. The Ethernet ports: reception (R362, R364, R368, R373), transmission (R363, R367, R370, R372 to R374, R380),
pause (R364, R365) and the verification of preemption (R371).
-/
namespace Sys2Proof.Machine

/-- A counter of R386. -/
def Hw.ethCount (h : Hw) (n i : Nat) (k : Nat := 1) : Hw :=
  h.count40 (R.ETH_CNT_LO_CNT n i) (R.ETH_CNT_HI_CNT n i) (R.ETH_PSTAT_HALF_EV n) k

def Hw.ethState (h : Hw) (n : Nat) : Nat := h.get (R.ETH_FSTAT_STATE n)
def Hw.ethLink (h : Hw) (n : Nat) : Bool := h.flag (R.ETH_PSTAT_LINK n)

/-- The data rate of a speed code in units of 100 Mb/s (R361, R389). -/
def rateOf (speed : Nat) : Nat := match speed with | 1 => 10 | 2 => 25 | 3 => 50 | 4 => 100 | 5 => 250 | _ => 10

/-! ### Bytes -/

/-- The FCS of a frame: the CRC of IEEE 802.3 over its bytes, least significant byte first. -/
def fcsOf (bs : List Byte) : List Byte :=
  bytesLE 4 (~~~ (bs.foldl (fun c b => crcByte (crcPoly false) c b.toNat) 0xFFFFFFFF)).toNat

/-- Padding with zero bytes up to 60 (R363). -/
def padded (bs : List Byte) : List Byte := bs ++ List.replicate (60 - bs.length) 0

/-- An EAPOL frame (R366). -/
def isEapol (bs : List Byte) : Bool := field16 bs 12 == 0x888E

/-- A MAC control frame (R362). -/
def isMacControl (bs : List Byte) : Bool := field16 bs 12 == 0x8808

/-! ### Pause (R364, R365) -/

/-- 512 bit times in units of 10 ps. -/
def pauseTick (speed : Nat) : Nat := 512000 / rateOf speed

def Hw.now10ps (h : Hw) : Nat := 100 * h.et

/-- The time of a pause up to `until` is counted in whole units; the part left is kept (R365). -/
def Hw.settlePause (h : Hw) (n till : Nat) : Hw :=
  let p := h.ethPort n
  if p.pauses.isEmpty then h
  else
    let t := p.residue + (till - p.pausedFrom)
    let h := h.modEth n fun p => { p with residue := t % p.pauseUnit, pausedFrom := max till p.pausedFrom }
    if t / p.pauseUnit = 0 then h else h.ethCount n 15 (t / p.pauseUnit)

/-- The instant up to which the pauses of a port have run: now, or the end of the last of them (R365). -/
def Hw.pauseReach (h : Hw) (n : Nat) : Nat := min h.now10ps ((h.ethPort n).pauses.foldl (fun m x => max m x.2) 0)

/-- PAUSED and the expiry timer follow the pauses of a port. -/
def Hw.trackPause (h : Hw) (n : Nat) : Hw :=
  let p := h.ethPort n
  let h := h.setFlag (R.ETH_PSTAT_PAUSED n) (!p.pauses.isEmpty)
  match p.pauses.foldl (fun m x => match m with | none => some x.2 | some d => some (min d x.2)) none with
  | none => h.stop (.pauseEnd n)
  | some d => h.startAt (.pauseEnd n) ((d + 99) / 100)

/-- The TCs of `tcs` are paused for their times from now; time 0 ends a pause (R364). -/
def Hw.pause (h : Hw) (n : Nat) (tcs : List (Nat × Nat)) : Hw :=
  let now := h.now10ps
  let h := h.settlePause n now
  let u := pauseTick (h.get (R.ETH_PSTAT_SPEED n))
  let h := if (h.ethPort n).pauses.isEmpty then h.modEth n fun p => { p with pausedFrom := now, pauseUnit := u } else h
  let m := tcs.foldl (fun m x => if x.2 = 0 then kdel m x.1 else kput m x.1 (now + x.2 * u)) (h.ethPort n).pauses
  let h := h.modEth n fun p => { p with pauses := m }
  (h.trackPause n).dropTags n fun f => (kget m f.tc).isSome

/-- PAUSE_EXPIRE (R365). -/
def execPauseExpire (n : Fin 8) (s : State) : Host.Outcome State Fault Refusal :=
  s.effect fun h => h.onTimer (.pauseEnd n) fun h =>
    let now := h.now10ps
    let p := h.ethPort n
    let ended := p.pauses.filter fun x => decide (x.2 ≤ now)
    let left := p.pauses.filter fun x => !decide (x.2 ≤ now)
    let h := h.settlePause n (if left.isEmpty then ended.foldl (fun m x => max m x.2) p.pausedFrom else now)
    (h.modEth n fun p => { p with pauses := left }).trackPause n

/-- TC `t` of a port is paused. -/
def Hw.tcPaused (h : Hw) (n t : Nat) : Bool :=
  match kget (h.ethPort n).pauses t with
  | some d => decide (h.now10ps < d)
  | none => false

def Hw.ethAddr (h : Hw) (n : Nat) : Nat := h.get (R.ETH_ADDR_LO_ADDR n) + 2 ^ 32 * h.get (R.ETH_ADDR_HI_ADDR n)

/-- The destinations a port honours pause frames at (R364). -/
def Hw.pauseDest (h : Hw) (n dest : Nat) : Bool := dest == 0x0180C2000001 || dest == h.ethAddr n

/-- A valid PAUSE frame. -/
def Hw.pauseFrame (h : Hw) (n dest time : Nat) : Hw :=
  if h.flag (R.ETH_CFG_PAUSE_HONOUR n) && h.pauseDest n dest then h.pause n ((List.range 7).map fun t => (t, time)) else h

/-- A valid PFC frame: the class-enable vector and the eight times. -/
def Hw.pfcFrame (h : Hw) (n dest enable : Nat) (times : List Nat) : Hw :=
  if h.flag (R.ETH_CFG_PFC_HONOUR n) && h.pauseDest n dest then
    h.pause n (((List.range 7).filter fun t => enable.testBit t && (h.get (R.ETH_CFG_PFC_MASK n)).testBit t).map fun t =>
      (t, (times[t]?).getD 0))
  else h

/-- A valid MAC control frame (R364). -/
def Hw.macControl (h : Hw) (n : Nat) (bs : List Byte) : Hw :=
  let h := h.ethCount n 4
  match field16 bs 14 with
  | 0x0001 => h.pauseFrame n (destAddr bs) (field16 bs 16)
  | 0x0101 => h.pfcFrame n (destAddr bs) (field16 bs 16) ((List.range 8).map fun i => field16 bs (18 + 2 * i))
  | _ => h

/-- The lane of port or hop `n` takes new work (R43). -/
def Hw.laneTakes (h : Hw) (n : Nat) : Bool := h.get (R.LANE_FSTAT_STATE n) == stOpen

/-- Whether a frame that arrives now is received, or discarded at its head by a closing port (R362). A lane that is not
Open takes no new frame (R43); it has no counter for one that it discards (DEDUCED, log 52). -/
def Hw.ethArrival (h : Hw) (n : Nat) (f : Hw → Hw) : Hw :=
  if !h.ethLink n || !h.laneTakes n then h
  else if h.ethState n = stOpen then f h
  else if h.ethState n = stClosing then h.ethCount n 5
  else h

/-- PAUSE (R364): a valid PAUSE frame arrives. -/
def execPause (n : Fin 8) (dest : BitVec 48) (time : BitVec 16) (s : State) : Host.Outcome State Fault Refusal :=
  s.effect fun h => h.ethArrival n fun h => (h.ethCount n 4).pauseFrame n dest.toNat time.toNat

/-- PFC (R364): a valid PFC frame arrives. -/
def execPfc (n : Fin 8) (dest : BitVec 48) (enable : BitVec 8) (times : List (BitVec 16)) (s : State) :
    Host.Outcome State Fault Refusal :=
  s.effect fun h => h.ethArrival n fun h => (h.ethCount n 4).pfcFrame n dest.toNat enable.toNat (times.map (·.toNat))

/-! ### MACsec on receive (R366, R368) -/

/-- The SecTAG of a frame with EtherType 0x88E5: its AN, PN and SCI, implicit from the source address where none is
given. -/
def secTag (bs : List Byte) : Option (Nat × Nat × Nat) :=
  if field16 bs 12 = 0x88E5 then
    let tci := byteAt bs 14
    let pn := field16 bs 16 * 65536 + field16 bs 18
    let sci := if tci.testBit 5 then ofBytesBE ((bs.drop 20).take 8) else srcAddr bs * 65536 + 1
    some (tci % 4, pn, sci)
  else none

/-- The receive SC of an SCI, enabled (R366, R369). -/
def Hw.rxSc (h : Hw) (n sci : Nat) : Option Nat :=
  (List.range 8).find? fun c =>
    h.flag (R.ETH_RX_SC_CTL_EN n c) && h.get (R.ETH_RX_SCI_LO_SCI n c) + 2 ^ 32 * h.get (R.ETH_RX_SCI_HI_SCI n c) == sci

def Hw.xpn (h : Hw) (n : Nat) : Bool := h.flag (R.ETH_SEC_CTL_XPN n)

/-- The PN a receive SA expects at least, and the PN of a frame: under XPN the high word is recovered from it. -/
def Hw.saRxPn (h : Hw) (n c a : Nat) : Nat :=
  h.get (R.ETH_RX_PN_LO_PN n c a) + 2 ^ 32 * (if h.xpn n then h.get (R.ETH_RX_PN_HI_PN n c a) else 0)
def Hw.framePn (h : Hw) (n c a low : Nat) : Nat :=
  if h.xpn n then
    let e := h.saRxPn n c a
    let hi := e / 2 ^ 32
    low + 2 ^ 32 * (if low < e % 2 ^ 32 ∧ 2 ^ 31 ≤ e % 2 ^ 32 ∧ low < 2 ^ 31 then hi + 1 else hi)
  else low

/-- validateFrames in force (R389): without RX_EN as Disabled; 0b11 as Strict. -/
def Hw.validate (h : Hw) (n : Nat) : Nat :=
  if h.flag (R.ETH_SEC_CTL_RX_EN n) then min 2 (h.get (R.ETH_SEC_CTL_VALIDATE n)) else 0

/-- The decision of R368: the frame delivered, or none where it is dropped. -/
def Hw.macsecRx (h : Hw) (n : Nat) (bs : List Byte) (clear : Option (List Byte)) : Hw × Option (List Byte) :=
  let v := h.validate n
  let fail (h : Hw) : Hw × Option (List Byte) := if v = 0 then (h, some bs) else (h.ethCount n 7, none)
  match secTag bs with
  | none =>
    match v with
    | 0 => (h, some bs)
    | 1 => (h.ethCount n 8, some bs)
    | _ => if isEapol bs then (h, some bs) else (h.ethCount n 7, none)
  | some (an, low, sci) =>
    match h.rxSc n sci with
    | none => fail h
    | some c =>
      if !h.flag (R.ETH_RX_SA_CTL_IN_USE n c an) then fail h
      else
        match clear with
        | none => fail h
        | some plain =>
          let e := h.saRxPn n c an
          let pn := h.framePn n c an low
          if h.flag (R.ETH_SEC_CTL_REPLAY n) && decide (pn + h.get (R.ETH_REPLAY_WIN_WIN n) < e) then fail h
          else
            let e' := max e (pn + 1)
            let h := (h.set (R.ETH_RX_PN_LO_PN n c an) e').set (R.ETH_RX_PN_HI_PN n c an) (e' / 2 ^ 32)
            (h, some (if v = 0 then bs else plain))

/-! ### Reception (R362) -/

/-- A frame has arrived whole, with the stamp of its stamp point: the cases of R362 in order. A frame of case 2 or 3
reaches Clicker and proves bad there. -/
def Hw.ethReceive (h : Hw) (n : Nat) (f : EthRx) (st : Stamp) : Hw :=
  let len := f.bytes.length + 4
  let max := h.get (R.ETH_CFG_MAXLEN n)
  let bad (h : Hw) (i : Nat) : Hw :=
    let h := h.ethCount n i
    if isMacControl f.bytes then h else h.stage n (f.bytes.take max) false st 0
  if max < len then bad h 3
  else if !f.fcs then bad h 2
  else if len < 64 then bad h 3
  else if isMacControl f.bytes then h.macControl n f.bytes
  else
    match h.macsecRx n f.bytes f.clear with
    | (h, none) => h
    | (h, some bs) => ((h.ethCount n 0).ethCount n 1 (bs.length + 4)).stage n bs true st 0

/-- ETH_FRAME_RECEIVED (R362): the frame crosses the ball at this instant. -/
def execEthFrameReceived (n : Fin 8) (f : EthRx) (s : State) : Host.Outcome State Fault Refusal :=
  s.effect fun h => h.ethArrival n fun h => h.ethReceive n f (h.stampNow true)

/-- The frame in reassembly is lost (R373). -/
def Hw.assemblyError (h : Hw) (n : Nat) : Hw := (h.modEth n fun p => { p with assembly := none }).ethCount n 6

/-- FRAGMENT_RECEIVED (R373): a start opens a reassembly, a continuation in sequence joins it, and the last fragment
completes the frame. -/
def Hw.fragmentReceived (h : Hw) (n : Nat) (g : EthFragment) : Hw :=
  let a := (h.ethPort n).assembly
  if g.start then
    let h := if a.isSome then h.assemblyError n else h
    let st := h.stampNow true
    if g.final then h.ethReceive n ⟨g.bytes, g.check, g.clear⟩ st
    else if !g.check then h.assemblyError n
    else h.modEth n fun p => { p with assembly := some ⟨g.frameCount, 0, g.bytes, st⟩ }
  else
    match a with
    | none => h
    | some x =>
      if x.count ≠ g.frameCount.val ∨ x.next ≠ g.fragCount.val then h.assemblyError n
      else if g.final then
        (h.modEth n fun p => { p with assembly := none }).ethReceive n ⟨x.bytes ++ g.bytes, g.check, g.clear⟩ x.stamp
      else if !g.check then h.assemblyError n
      else h.modEth n fun p => { p with assembly := some { x with next := (x.next + 1) % 4, bytes := x.bytes ++ g.bytes } }

/-- A fragment at the ball of a port: a start is a frame's head and meets R362; a continuation belongs to a frame taken
at its head, and completes while the port closes (R46). A start discarded by a closing port still interrupts the frame in
reassembly. -/
def execFragmentReceived (n : Fin 8) (g : EthFragment) (s : State) : Host.Outcome State Fault Refusal :=
  s.effect fun h =>
    if !h.ethLink n then h
    else if !g.start then h.fragmentReceived n g
    else if h.ethState n = stClosing && (h.ethPort n).assembly.isSome then (h.assemblyError n).ethArrival n id
    else h.ethArrival n fun h => h.fragmentReceived n g

/-! ### Admission and selection (R363, R370, R374, R380) -/

/-- The MACsec overhead of a frame (R367, R380). -/
def Hw.secOverhead (h : Hw) (n : Nat) (f : Frame) : Nat :=
  if !h.flag (R.ETH_SEC_CTL_TX_EN n) || isEapol (h.leavingBytes f) then 0
  else if h.flag (R.ETH_SEC_CTL_INC_SCI n) then 32 else 24

/-- W of R380, and a time for `b` bytes at the port's rate in whole ns. -/
def Hw.wireSize (h : Hw) (n : Nat) (f : Frame) : Nat := max f.leaving 60 + 24 + h.secOverhead n f
def Hw.wireTime (h : Hw) (n b : Nat) : Nat :=
  let r := rateOf (h.get (R.ETH_PSTAT_SPEED n))
  (b * 80 + r - 1) / r

def Hw.addFragBytes (h : Hw) (n : Nat) : Nat := 64 * (1 + h.get (R.ETH_PRE_CTL_ADD_FRAG n))

/-- Gate `t` is open now. -/
def Hw.gateOpen (h : Hw) (n t : Nat) : Bool := (h.get (R.ETH_GATE_STAT_STATES n)).testBit t

/-- A frame that no opening of its gate can hold (R380). -/
def Hw.neverFits (h : Hw) (n : Nat) (f : Frame) : Bool :=
  h.sentExpress n f.tc &&
  match h.gateLongest n f.tc with
  | some d => decide (d < h.wireTime n (h.wireSize n f))
  | none => false

/-- The frame fits its open gate (R380). -/
def Hw.fitsGate (h : Hw) (n : Nat) (f : Frame) : Bool :=
  let express := h.sentExpress n f.tc
  h.gateOpen n f.tc && (express || !h.flag (R.ETH_PRE_STAT_HOLD n)) &&
  match h.gateOpenFor n f.tc with
  | none => true
  | some d =>
    let w := h.wireSize n f
    decide (h.wireTime n (if express then w else min w (h.addFragBytes n + 20)) ≤ d)

/-- What the port admits for R352. A frame that no opening can hold is admitted, and dropped once selected. -/
def Hw.ethAdmits (h : Hw) (n : Nat) (_q : Nat) (f : Frame) : Bool :=
  !h.tcPaused n f.tc && (h.neverFits n f || h.fitsGate n f)

/-- What a request is answered from; `only`: express TCs alone (R374). -/
def Hw.ethAsks (h : Hw) (n : Nat) (only : Bool) (_q : Nat) (f : Frame) : Bool := !only || h.expressTc n f.tc

/-- A selected frame is dropped: its two-step action writes a DROPPED entry (R443). -/
def Hw.dropSelected (h : Hw) (p id : Nat) : Hw := (h.twoStep p (h.frame id) Stamp.zero false true false 0).freeFrame id

/-- A selected frame is the next for the lane's transmit MAC. -/
def Hw.ethBegin (h : Hw) (n : Nat) (x : EthTx) : Hw := h.modEth n fun p => { p with tx := some x }

/-- The words of 64 bits that a frame takes in the lane's transmit FIFO (R74). -/
def Hw.ethWords (h : Hw) (x : EthTx) : Nat := ((h.frame x.frame).leaving + 7) / 8

/-- The MAC starts the frame that waits (R75): its egress stamp point is now (R438), and it takes the SA that TX_AN names
now (R367). -/
def Hw.ethStart (h : Hw) (n : Nat) (x : EthTx) : Hw :=
  h.ethBegin n { x with started := true, stamp := h.stampNow true, stampValid := h.tbLock, an := h.get (R.ETH_SEC_CTL_TX_AN n) }

/-- The suspended frame may go on (R364, R373, R375, R380). -/
def Hw.mayResume (h : Hw) (n : Nat) (x : EthTx) : Bool :=
  let t := (h.frame x.frame).tc
  !h.flag (R.ETH_PRE_STAT_HOLD n) && !h.tcPaused n t && h.gateOpen n t

/-- A frame selected while another was in transmission may begin now: its TC is not paused and it fits its gate
(R364, R380). -/
def Hw.mayBegin (h : Hw) (n : Nat) (x : EthTx) : Bool :=
  let f := h.frame x.frame
  !h.tcPaused n f.tc && h.fitsGate n f

/-- The first of the frames selected behind the one just ended or suspended that may begin does. -/
def Hw.ethNext (h : Hw) (n : Nat) : Hw :=
  let l := (h.ethPort n).next
  match l.find? (h.mayBegin n) with
  | some x => (h.modEth n fun p => { p with next := l.filter (·.frame != x.frame) }).ethBegin n x
  | none => h.modEth n fun p => { p with tx := none }

/-- The port asks its scheduler for a frame; one that no opening of its gate can hold is dropped at selection (R380). -/
def Hw.ethPick (h : Hw) (n : Nat) (only : Bool) (place : Hw → EthTx → Hw) (otherwise : Hw → Hw) : Hw :=
  if h.ethState n ≠ stOpen || !h.laneTakes n then otherwise h
  else
    match h.select (h.ethAdmits n) (h.ethAsks n only) n with
    | (h, none) => otherwise h
    | (h, some (_, id)) =>
      let f := h.frame id
      if h.neverFits n f then (h.ethCount n 12).dropSelected n id
      else place h ⟨id, h.sentExpress n f.tc, false, 0, 0, Stamp.zero, false, 0⟩

/-- EGRESS_REQUEST of an Ethernet port (R352, R363, R374, R380). A closing port asks for no new frame; what it has
selected already it sends (R46). -/
def Hw.ethRequest (h : Hw) (n : Nat) : Hw :=
  let p := h.ethPort n
  if (h.ethState n ≠ stOpen ∧ h.ethState n ≠ stClosing) ∨ !h.ethLink n then h
  else
    match p.tx with
    | none =>
      if p.next.any (h.mayBegin n) then h.ethNext n
      else
        h.ethPick n p.suspended.isSome (fun h x => h.ethBegin n x) fun h =>
          match p.suspended with
          | some x => if h.mayResume n x then (h.modEth n fun p => { p with suspended := none }).ethBegin n x else h
          | none => h
    | some x =>
      if h.preemptionActive n && !x.express && !p.next.any (h.mayBegin n) then
        h.ethPick n true (fun h y => h.modEth n fun p => { p with next := p.next ++ [y] }) id
      else h

/-- PREEMPT (R372, R373, R375): the fragment has carried `carried` bytes since its SMD; at an allowed boundary the frame
is suspended. A port in Closing completes the frame in transmission (R363). -/
def Hw.ethPreempt (h : Hw) (n carried : Nat) : Hw :=
  let p := h.ethPort n
  match p.tx with
  | none => h
  | some x =>
    let f := h.frame x.frame
    let done := x.done + (carried - if x.fragments = 0 then 0 else 1)
    let total := max f.leaving 60 + h.secOverhead n f + 4
    let asked := p.next.any (h.mayBegin n) || h.flag (R.ETH_PRE_STAT_HOLD n) || !h.gateOpen n f.tc
    if h.ethState n == stOpen && x.started && h.preemptionActive n && !x.express && p.suspended.isNone && asked &&
        decide (h.addFragBytes n - 4 ≤ carried) && decide (done + 64 ≤ total) then
      let h := h.modEth n fun p => { p with suspended := some { x with done := done, fragments := x.fragments + 1 } }
      ((h.ethCount n 11).drainLaneTx n).ethNext n
    else h

/-! ### Transmission (R363, R367, R441, R443) -/

def Hw.saTxPn (h : Hw) (n a : Nat) : Nat :=
  h.get (R.ETH_TX_PN_LO_PN n a) + 2 ^ 32 * (if h.xpn n then h.get (R.ETH_TX_PN_HI_PN n a) else 0)

/-- The transmit engine takes the SA's PN (R367); false: the frame is dropped. -/
def Hw.takeTxPn (h : Hw) (n a : Nat) : Hw × Bool :=
  if !h.flag (R.ETH_TX_SA_CTL_IN_USE n a) then (h.ethCount n 13, false)
  else if (h.ethPort n).spent.contains a then ((h.ethCount n 13).set (R.ETH_SEC_CTL_PN_EV n) 1, false)
  else
    let top := if h.xpn n then 2 ^ 64 else 2 ^ 32
    let pn := (h.saTxPn n a + 1) % top
    let h := if pn = 0 then h.modEth n fun p => { p with spent := a :: p.spent } else h
    let h := (h.set (R.ETH_TX_PN_LO_PN n a) pn).set (R.ETH_TX_PN_HI_PN n a) (pn / 2 ^ 32)
    let mark := if h.xpn n then 0xC000000000000000 else 0xC0000000
    (if pn = mark then h.set (R.ETH_SEC_CTL_PN_EV n) 1 else h, true)

/-- The key words of a transmit SA, with salt and short SCI. -/
def Hw.txKey (h : Hw) (n a : Nat) : List Nat :=
  ((List.range 8).map fun w => (h.word (R.ETH_TX_KEY n a w)).toNat) ++
  ((List.range 3).map fun w => (h.word (R.ETH_TX_SALT n a w)).toNat) ++ [(h.word (R.ETH_TX_SSCI n a)).toNat]

/-- A frame as MACsec protects it. -/
def Hw.protectTx (h : Hw) (n a pn : Nat) (bs : List Byte) : List Byte :=
  Config.macsecProtect (h.txKey n a) pn (h.get (R.ETH_TX_SCI_LO_SCI n) + 2 ^ 32 * h.get (R.ETH_TX_SCI_HI_SCI n))
    ((h.word (R.ETH_SEC_CTL n)).toNat % 2 ^ 7) bs

/-- ETH_FRAME_TRANSMIT (R363): the frame in transmission completes. One that the MAC has not started (R75) does not. -/
def Hw.ethTransmit (h : Hw) (n : Nat) : Hw :=
  match (h.ethPort n).tx with
  | none => h
  | some x =>
    if !x.started then h
    else
      let h := h.drainLaneTx n
      let f := h.frame x.frame
      match h.readLeaving 21 f with
      | (h, none) => (h.dropSelected n x.frame).ethNext n
      | (h, some bs) =>
        let a := x.an
        let plain := !h.flag (R.ETH_SEC_CTL_TX_EN n) || isEapol bs
        let pn := h.saTxPn n a
        let extra := h.secOverhead n f
        let (h, ok) := if plain then (h, true) else h.takeTxPn n a
        if !ok then (h.dropSelected n x.frame).ethNext n
        else
          let (h, bs) := h.insertResidence n f x.stamp bs
          let bs := padded bs
          let len := bs.length + extra + 4
          let bs := if plain then bs else h.protectTx n a pn bs
          let h := (h.ethCount n 9).ethCount n 10 len
          let h := h.twoStep n f x.stamp x.stampValid false false 0
          ((h.atBall n [bs ++ fcsOf bs]).freeFrame x.frame).ethNext n

/-- The frames a port holds between selection and the wire. -/
def EthPort.frames (p : EthPort) : List Nat := (p.tx.toList ++ p.next ++ p.suspended.toList).map (·.frame)

/-- The link of a port is lost (R363): frames in transmission are discarded. -/
def Hw.ethLinkLost (h : Hw) (n : Nat) : Hw :=
  let p := h.ethPort n
  let h := p.frames.foldl (fun h id => (h.dropSelected n id).ethCount n 14) h
  (h.drainLaneTx n).modEth n fun p => { p with tx := none, next := [], suspended := none, assembly := none }

/-- A suspended frame is aborted on entry into Closing (R47, R363); the result counts it. -/
def Hw.ethAbortSuspended (h : Hw) (n : Nat) : Hw × Nat :=
  match (h.ethPort n).suspended with
  | some x => ((h.dropSelected n x.frame).modEth n fun p => { p with suspended := none }, 1)
  | none => (h, 0)

/-! ### Verification (R371) -/

/-- A verify mPacket leaves, and its timer runs. -/
def Hw.sendVerify (h : Hw) (n : Nat) : Hw :=
  (h.modEth n fun p => { p with verifySent := p.verifySent + 1 }).start (.verify n) (h.get (R.ETH_PRE_CTL_VERIFY_MS n) * 1000000)

/-- VERIFY_START: verification runs where it is enabled and the link is up. -/
def Hw.verifyStart (h : Hw) (n : Nat) : Hw :=
  let h := (h.stop (.verify n)).modEth n fun p => { p with verifySent := 0 }
  if !h.flag (R.ETH_PRE_CTL_PRE_EN n) || !h.flag (R.ETH_PRE_CTL_VERIFY_EN n) then
    (h.set (R.ETH_PRE_STAT_VERIFY n) 0).updateActive n
  else if h.ethLink n then ((h.set (R.ETH_PRE_STAT_VERIFY n) 2).sendVerify n).updateActive n
  else (h.set (R.ETH_PRE_STAT_VERIFY n) 1).updateActive n

def execVerifyStart (n : Fin 8) (s : State) : Host.Outcome State Fault Refusal := s.effect fun h => h.verifyStart n

/-- VERIFY_TIMER: another verify mPacket, or failure after three. -/
def execVerifyTimer (n : Fin 8) (s : State) : Host.Outcome State Fault Refusal :=
  s.effect fun h => h.onTimer (.verify n) fun h =>
    if (h.ethPort n).verifySent < 3 then h.sendVerify n
    else ((h.set (R.ETH_PRE_STAT_VERIFY n) 4).set (R.ETH_PRE_STAT_FAIL_EV n) 1).updateActive n

/-- RESPOND_RECEIVED. -/
def execRespondReceived (n : Fin 8) (s : State) : Host.Outcome State Fault Refusal :=
  s.effect fun h =>
    if h.get (R.ETH_PRE_STAT_VERIFY n) = 2 then
      ((h.stop (.verify n)).set (R.ETH_PRE_STAT_VERIFY n) 3).updateActive n
    else h

/-- VERIFY_RECEIVED: answered while PRE_EN = 1. -/
def execVerifyReceived (n : Fin 8) (s : State) : Host.Outcome State Fault Refusal :=
  s.effect fun h =>
    if h.flag (R.ETH_PRE_CTL_PRE_EN n) then h.modEth n fun p => { p with responds := p.responds + 1 } else h

/-- A write of ETH_n_PRE_CTL (R370, R371, R389). -/
def Hw.writePreCtl (h : Hw) (n : Nat) (v : Word) : Hw :=
  let h := h.writeFields (R.ETH_PRE_CTL n) v
  let h := h.set (R.ETH_PRE_CTL_VERIFY_MS n) (clampNat 1 128 (h.get (R.ETH_PRE_CTL_VERIFY_MS n)))
  if h.flag (R.ETH_PRE_CTL_PRE_EN n) && h.flag (R.ETH_PRE_CTL_VERIFY_EN n) then h.verifyStart n
  else ((h.stop (.verify n)).set (R.ETH_PRE_STAT_VERIFY n) 0).updateActive n

/-! ### Configuration (R369, R389) -/

/-- A write of ETH_n_CFG: MAXLEN is clamped. -/
def Hw.writeEthCfg (h : Hw) (n : Nat) (v : Word) : Hw :=
  let h := h.writeFields (R.ETH_CFG n) v
  h.set (R.ETH_CFG_MAXLEN n) (clampNat 64 16324 (h.get (R.ETH_CFG_MAXLEN n)))

/-- A write of SEC_CTL (R369): TX_AN and PN_EV at any time, the rest only while the port is Closed. -/
def Hw.writeSecCtl (h : Hw) (n : Nat) (v : Word) : Hw :=
  let a := R.ETH_SEC_CTL n
  if h.ethState n = stClosed then h.writeFields a v
  else
    let old := h.word a
    let h := h.writeFields a ((old &&& 0x3FF) ||| (v &&& 0x1C00))
    if (old ^^^ v) &&& 0x3FF = 0 then h else h.set R.ETH_STAT_CFG_ERR 1

/-- A write of TX_SCI or REPLAY_WIN (R369). -/
def Hw.writeSecClosed (h : Hw) (n a : Nat) (v : Word) : Hw :=
  if h.ethState n = stClosed then h.writeFields a v else h.set R.ETH_STAT_CFG_ERR 1

/-- A write of KEY, SALT or SSCI of an SA (R369): held, and never read back. -/
def Hw.writeSecret (h : Hw) (inUse : RF) (a : Nat) (v : Word) : Hw :=
  if h.flag inUse then h.set R.ETH_STAT_CFG_ERR 1 else h.setWord a v

/-- A write of a PN word (R369): without XPN the high word ignores it; a written PN can be used again (R367). -/
def Hw.writePn (h : Hw) (n : Nat) (tx : Option Nat) (a : Nat) (high : Bool) (v : Word) : Hw :=
  if high && !h.xpn n then h
  else
    let h := h.writeFields a v
    match tx with
    | some sa => h.modEth n fun p => { p with spent := p.spent.filter (· != sa) }
    | none => h

end Sys2Proof.Machine
end

