-- ==== Sys2Proof/Machine/Ring.lean ====
section
/-!
DEFINITION. The cascade hops: headers and CTRL frames (R407 to R409, R417), the lines of a hop (R412, R414), its
neighbour record (R417), and the ring: failure, flood mode and restoration (R418 to R421).
-/
namespace Sys2Proof.Machine

/-- The states of R394. -/
def lnOff : Nat := 0
def lnNeg : Nat := 1
def lnProbe : Nat := 2
def lnTrain : Nat := 3
def lnUp : Nat := 4
def lnBackoff : Nat := 5
def lnParked : Nat := 6
def lnL1 : Nat := 7
def lnL2 : Nat := 8
def lnTest : Nat := 9

def Hw.laneState (h : Hw) (n : Nat) : Nat := h.get (R.LANE_STAT_STATE n)
def Hw.laneRate (h : Hw) (n : Nat) : Nat := h.get (R.LANE_STAT_RATE n)
/-- A time in ms, as a timer counts it. -/
def ms (k : Nat) : Nat := k * 1000000

/-! ### The hop over a lane -/

def Hop.initial : Hop := ⟨[], [], false, false, 0, 0, false, 0, none, none, none⟩
def Hw.hop (h : Hw) (i : Nat) : Hop := kgetD Hop.initial h.uzovi.hops i
def Hw.modHop (h : Hw) (i : Nat) (f : Hop → Hop) : Hw := { h with uzovi := { h.uzovi with hops := kput h.uzovi.hops i (f (h.hop i)) } }
def Hw.hopState (h : Hw) (i : Nat) : Nat := h.get (R.UZL_FSTAT_STATE i)

/-- HELLOs leave an Open hop whose lane is UP every HELLO_MS (R417). -/
def Hw.armHello (h : Hw) (i : Nat) : Hw :=
  if h.hopState i = stOpen ∧ h.laneState (8 + i) = lnUp then h.start (.hello i) (ms (h.get (R.UZL_CFG_HELLO_MS i)))
  else h.stop (.hello i)

/-- The neighbour record becomes invalid (R417). -/
def Hw.clearNeighbour (h : Hw) (i : Nat) : Hw :=
  let h := h.stop (.neighbour i)
  if h.flag (R.UZL_NBR_STAT_VALID i) then (h.set (R.UZL_NBR_STAT_VALID i) 0).set (R.UZL_NBR_STAT_NBR_EV i) 1 else h

/-- A counter of R424. -/
def Hw.uzlCount (h : Hw) (i c : Nat) : Hw := h.count40 (R.UZL_HCNT_LO_CNT i c) (R.UZL_HCNT_HI_CNT i c) R.UZL_STAT_HALF_EV

/-- A hop that can carry frames: Open, its lane UP. -/
def Hw.hopUp (h : Hw) (i : Nat) : Bool := h.hopState i == stOpen && h.laneState (8 + i) == lnUp

/-! ### Headers (R407, R408) -/

/-- One bit of the header check. -/
def hcrcBit (c : Nat) : Nat := if c.testBit 15 then Nat.xor (2 * c % 65536) 0x1021 else 2 * c

/-- The header check over one byte. -/
def hcrcByte (c : Nat) (b : Byte) : Nat :=
  let c := Nat.xor c (256 * b.toNat)
  hcrcBit (hcrcBit (hcrcBit (hcrcBit (hcrcBit (hcrcBit (hcrcBit (hcrcBit c)))))))

/-- The header check of bytes. -/
def hcrc (bs : List Byte) : Nat := bs.foldl hcrcByte 0xFFFF

def hdrDst (b : List Byte) : Nat := field16 b 0 * 65536 + field16 b 2
def hdrSrc (b : List Byte) : Nat := field16 b 4 * 65536 + field16 b 6
def hdrHop (b : List Byte) : Nat := field16 b 8
def hdrVer (b : List Byte) : Nat := byteAt b 10 / 16
def hdrType (b : List Byte) : Nat := byteAt b 10 % 16
def hdrTc (b : List Byte) : Nat := byteAt b 11 / 32
def hdrRing (b : List Byte) : Bool := (byteAt b 11).testBit 4
def hdrInner (b : List Byte) : Nat := field16 b 12

/-- The header with its check recomputed. -/
def sealHeader (b : List Byte) : List Byte := patchBytes b 14 (bytesBE 2 (hcrc (b.take 14)))

/-- A header. -/
def header (dst src hop type tc inner : Nat) : List Byte :=
  sealHeader (bytesBE 4 dst ++ bytesBE 4 src ++ bytesBE 2 hop ++ bytesBE 1 (16 + type) ++ bytesBE 1 (32 * tc) ++
    bytesBE 2 inner ++ [0, 0] ++ List.replicate 8 0)

/-- The IDs of R409. -/
def idNeighbour : Nat := 0xFFFFFFFE
def idBroadcast : Nat := 0xFFFFFFFF
def isUnicastId (id : Nat) : Bool := decide (1 ≤ id) && decide (id ≤ 0xFFFFFEFF)
def isReservedId (id : Nat) : Bool := id == 0 || (decide (0xFFFFFF00 ≤ id) && decide (id ≤ 0xFFFFFFFD))

/-- The checks of R408 but for HCRC; `opcode`: the first two bytes of a CTRL payload. -/
def headerSound (b : List Byte) (opcode : Nat) : Bool :=
  hdrVer b == 1 && decide (hdrType b ≤ 3) && (hdrType b != 3 || (decide (1 ≤ opcode) && decide (opcode ≤ 4))) &&
  byteAt b 11 % 16 == 0 && !isReservedId (hdrDst b) && !isReservedId (hdrSrc b)

/-! ### Lines (R412, R414) -/

/-- The next transit number and the next place in the order of arrival. -/
def Hw.nextTransit (h : Hw) : Hw × Nat × Nat :=
  ({ h with uzovi := { h.uzovi with nextId := h.uzovi.nextId + 1 }, fabric := { h.fabric with nextSeq := h.fabric.nextSeq + 1 } },
   h.uzovi.nextId, h.fabric.nextSeq)

/-- A frame joins its line on a hop. -/
def Hw.enline (h : Hw) (e : Nat) (f : TransitFrame) : Hw :=
  h.modHop e fun p => if f.express then { p with express := p.express ++ [f] } else { p with best := p.best ++ [f] }

/-- The flags of the device's CTRL frames (R417). -/
def Hw.ctrlFlags (h : Hw) : Nat :=
  (if h.flag R.UZL_RING_EN then 1 else 0) + (if h.flag R.UZL_RING_EN && h.flag R.UZL_RING_OWNER then 2 else 0)

/-- A CTRL payload (R417). -/
def Hw.ctrlPayload (h : Hw) (opcode i id1 id2 : Nat) : List Byte :=
  bytesBE 2 opcode ++ bytesBE 1 i ++ bytesBE 1 h.ctrlFlags ++ bytesBE 4 id1 ++ bytesBE 4 id2 ++ List.replicate 4 0

/-- A ring CTRL frame joins the express line of hop `e` (R412, R420). It goes to the neighbour; its hop limit and traffic
class are not given, and hold free values. -/
def Hw.sendRing (h : Hw) (e opcode id1 id2 : Nat) : Hw :=
  let v := h.freeNat
  let (h, id, seq) := h.drawn.nextTransit
  h.enline e ⟨id, header idNeighbour (h.get R.UZL_ID_ID) (v / 8 % 65536) 3 (v % 8) 0, some (h.ctrlPayload opcode e id1 id2),
    false, true, true, seq, 0, Stamp.zero, none, false, false⟩

/-! ### The ring (R418 to R421) -/

/-- The ring hops. -/
def Hw.ringHops (h : Hw) : List Nat := if h.flag R.UZL_RING_EN then [h.get R.UZL_RING_HOP_A, h.get R.UZL_RING_HOP_B] else []
def Hw.isRingHop (h : Hw) (i : Nat) : Bool := h.ringHops.contains i
/-- The other ring hop. -/
def Hw.otherHop (h : Hw) (i : Nat) : Nat := if i = h.get R.UZL_RING_HOP_A then h.get R.UZL_RING_HOP_B else h.get R.UZL_RING_HOP_A
def Hw.isOwner (h : Hw) : Bool := h.flag R.UZL_RING_EN && h.flag R.UZL_RING_OWNER
def Hw.ownerHop (h : Hw) : Nat := if h.flag R.UZL_RING_OWNER_HOP then h.get R.UZL_RING_HOP_B else h.get R.UZL_RING_HOP_A

def Hw.hopBlocked (h : Hw) (i : Nat) : Bool := (h.get R.UZL_STAT_BLOCKED).testBit i
def Hw.blockHop (h : Hw) (i : Nat) : Hw := h.set R.UZL_STAT_BLOCKED (Nat.lor (h.get R.UZL_STAT_BLOCKED) (2 ^ i))
def Hw.unblockHop (h : Hw) (i : Nat) : Hw :=
  if h.hopBlocked i then h.set R.UZL_STAT_BLOCKED (h.get R.UZL_STAT_BLOCKED - 2 ^ i) else h

/-- RING_STATE, with RING_EV at a change. -/
def Hw.setRingState (h : Hw) (v : Nat) : Hw :=
  if h.get R.UZL_STAT_RING_STATE = v then h else (h.set R.UZL_STAT_RING_STATE v).set R.UZL_STAT_RING_EV 1

/-- The device enters flood mode (R420). -/
def Hw.enterFlood (h : Hw) : Hw := (h.set R.UZL_STAT_FLOOD 1).setRingState 1

/-- A hop is down (R418, R420): a ring hop is blocked for failure, and RING_FAIL leaves on the other. -/
def Hw.hopDown (h : Hw) (i : Nat) : Hw :=
  if h.flag (R.UZL_NBR_STAT_DOWN i) then h
  else
    let h := (h.set (R.UZL_NBR_STAT_DOWN i) 1).modHop i fun p => { p with hellos := 0 }
    if h.isRingHop i then
      let h := ((h.blockHop i).modHop i fun p => { p with failed := true }).enterFlood
      (h.stop .wtr).sendRing (h.otherHop i) 2 (h.get R.UZL_ID_ID) (h.get (R.UZL_NBR_ID_ID i))
    else h

/-- HOP_DOWN (R418, R420): the lane of the hop has lost lock for 2 µs. -/
def execHopDown (i : Fin 4) (s : State) : Host.Outcome State Fault Refusal := s.effect fun h => h.hopDown i

/-- A ring CTRL frame received on `i` is forwarded (R420, R421). -/
def Hw.forwardRing (h : Hw) (i opcode id1 id2 : Nat) : Hw :=
  let e := h.otherHop i
  if id1 = h.get R.UZL_ID_ID || (h.hop e).failed then h else h.sendRing e opcode id1 id2

/-- RING_FAIL received on `i` (R420). -/
def Hw.ringFail (h : Hw) (i id1 id2 : Nat) : Hw :=
  if !h.isRingHop i then h
  else
    let h := ((h.stop .wtr).enterFlood).forwardRing i 2 id1 id2
    if h.isOwner && !(h.hop h.ownerHop).failed then h.unblockHop h.ownerHop else h

/-- The owner waits to restore (R421). -/
def Hw.startWtr (h : Hw) : Hw := (h.setRingState 2).start .wtr (ms (100 * h.get R.UZL_RING_WTR))

/-- RING_RESTORE received on `i` (R421). -/
def Hw.ringRestore (h : Hw) (i id1 id2 : Nat) : Hw :=
  if !h.isRingHop i then h
  else
    let h := h.forwardRing i 3 id1 id2
    if h.isOwner then h.startWtr else h

/-- A member leaves flood mode, with every hop blocked for failure unblocked (R421). -/
def Hw.leaveFlood (h : Hw) : Hw :=
  let h := (h.set R.UZL_STAT_FLOOD 0).setRingState 0
  h.ringHops.foldl (fun h i =>
    if (h.hop i).failed then (h.unblockHop i).modHop i fun p => { p with failed := false, hellos := 0 } else h) h

/-- RING_CLEAR received on `i` (R421): the owner does not forward it. -/
def Hw.ringClear (h : Hw) (i id1 : Nat) : Hw :=
  if !h.isRingHop i then h
  else
    let h := if h.isOwner then h else h.sendRing (h.otherHop i) 4 id1 0
    let h := h.leaveFlood
    if h.isOwner then h.blockHop h.ownerHop else h

/-- WTR_EXPIRE (R421): the owner blocks its owner hop and sends RING_CLEAR on both ring hops; RING_STATE is normal. -/
def execWtrExpire (s : State) : Host.Outcome State Fault Refusal :=
  s.effect fun h => h.onTimer .wtr fun h =>
    let id := h.get R.UZL_ID_ID
    let h := h.ringHops.foldl (fun h e => h.sendRing e 4 id 0) (h.leaveFlood)
    h.blockHop h.ownerHop

/-! ### Neighbours (R417) -/

/-- A HELLO received on `i` (R417, R418, R421). -/
def Hw.helloReceived (h : Hw) (i sender nbrHop : Nat) (ring owner : Bool) : Hw :=
  let v := 1 + 2 * (nbrHop % 4) + (if ring then 8 else 0) + (if owner then 16 else 0)
  let old := (h.word (R.UZL_NBR_STAT i)).toNat % 32
  let change := old != v || h.get (R.UZL_NBR_ID_ID i) != sender
  let h := (h.set (R.UZL_NBR_ID_ID i) sender).set ⟨R.UZL_NBR_STAT i, 0, 5⟩ v
  let h := if change then h.set (R.UZL_NBR_STAT_NBR_EV i) 1 else h
  let h := (h.set (R.UZL_NBR_STAT_DOWN i) 0).start (.neighbour i) (ms (3 * h.get (R.UZL_CFG_HELLO_MS i)))
  if (h.hop i).failed then
    let h := h.modHop i fun p => { p with hellos := p.hellos + 1 }
    if (h.hop i).hellos = 3 then
      let id := h.get R.UZL_ID_ID
      let h := h.ringHops.foldl (fun h e => h.sendRing e 3 id 0) h
      if h.isOwner then h.startWtr else h
    else h
  else h

/-- A CTRL frame of a known opcode is delivered on `i`: its sender and its payload (R417). -/
def Hw.ctrlReceived (h : Hw) (i src : Nat) (p : List Byte) : Hw :=
  let fl := byteAt p 3
  let id1 := field16 p 4 * 65536 + field16 p 6
  let id2 := field16 p 8 * 65536 + field16 p 10
  match field16 p 0 with
  | 1 => h.helloReceived i src (byteAt p 2) (fl.testBit 0) (fl.testBit 1)
  | 2 => h.ringFail i id1 id2
  | 3 => h.ringRestore i id1 id2
  | 4 => h.ringClear i id1
  | _ => h

/-- A CTRL frame arrives whole and good on a hop that carries frames, over a lane that takes new work (R43). -/
def Hw.onHop (h : Hw) (i : Nat) (f : Hw → Hw) : Hw := if h.hopUp i && h.laneTakes (8 + i) then f (h.uzlCount i 0) else h

/-- HELLO_RECEIVED (R417). -/
def execHelloReceived (i : Fin 4) (sender : BitVec 32) (nbrHop : Fin 4) (ring owner : Bool) (s : State) :
    Host.Outcome State Fault Refusal :=
  s.effect fun h => h.onHop i fun h => h.helloReceived i sender.toNat nbrHop ring owner

/-- RING_FAIL (R420). -/
def execRingFail (i : Fin 4) (id1 id2 : BitVec 32) (s : State) : Host.Outcome State Fault Refusal :=
  s.effect fun h => h.onHop i fun h => h.ringFail i id1.toNat id2.toNat

/-- RING_RESTORE (R421). -/
def execRingRestore (i : Fin 4) (id1 id2 : BitVec 32) (s : State) : Host.Outcome State Fault Refusal :=
  s.effect fun h => h.onHop i fun h => h.ringRestore i id1.toNat id2.toNat

/-- RING_CLEAR (R421). -/
def execRingClear (i : Fin 4) (id1 : BitVec 32) (s : State) : Host.Outcome State Fault Refusal :=
  s.effect fun h => h.onHop i fun h => h.ringClear i id1.toNat

/-- NEIGHBOUR_TIMEOUT (R417, R418). -/
def execNeighbourTimeout (i : Fin 4) (s : State) : Host.Outcome State Fault Refusal :=
  s.effect fun h => h.onTimer (.neighbour i) fun h => (h.clearNeighbour i).hopDown i

/-- HELLO_DUE (R417): a HELLO waits on an Open hop whose lane is UP, and the next falls due HELLO_MS later. -/
def execHelloDue (i : Fin 4) (s : State) : Host.Outcome State Fault Refusal :=
  s.effect fun h => h.onTimer (.hello i) fun h =>
    if h.hopUp i then (h.modHop i fun p => { p with helloDue := true }).armHello i else h

end Sys2Proof.Machine
end

