-- ==== Sys2Proof/Machine/Transit.lean ====
section
/-!
DEFINITION. Transit frames in a hop's lines and buffers (R410, R414), frames leaving on a hop (R406, R408, R416), and
frames that are cut off on either side (R46, R77).
-/
namespace Sys2Proof.Machine

def expressPayload : Nat := 1518
/-- What a transit frame reserves (R414). -/
def reserveFor (express : Bool) : Nat := if express then 1546 else 16324

/-- Buffer bytes of a line return. -/
def Hw.returnTransit (h : Hw) (e : Nat) (express : Bool) (n : Nat) : Hw :=
  h.modHop e fun p => if express then { p with expressUsed := p.expressUsed - n } else { p with bestUsed := p.bestUsed - n }

/-- The transit frame `id` of hop `e`. -/
def Hw.transitFrame (h : Hw) (e id : Nat) : Option TransitFrame :=
  ((h.hop e).express ++ (h.hop e).best).find? fun f => f.id == id

/-- The transit frame `id` of hop `e` leaves its line. -/
def Hw.unline (h : Hw) (e id : Nat) : Hw :=
  h.modHop e fun p => { p with express := p.express.filter (·.id != id), best := p.best.filter (·.id != id) }

/-- The transit frame `f` of hop `e` replaces the one of its number. -/
def Hw.reline (h : Hw) (e : Nat) (f : TransitFrame) : Hw :=
  let put (l : List TransitFrame) := l.map fun g => if g.id == f.id then f else g
  h.modHop e fun p => { p with express := put p.express, best := put p.best }

/-! ### Leaving (R406, R408, R416) -/

def Hw.hopRate (h : Hw) (i : Nat) : Nat := rateOf (h.laneRate (8 + i) + 1)

/-- The time a frame of `b` bytes with CRC takes on hop `i`, with preamble, SMD and gap, in whole ns. -/
def Hw.hopTime (h : Hw) (i b : Nat) : Nat := ((b + 20) * 80 + h.hopRate i - 1) / h.hopRate i

/-- A frame is on the ball of hop `e`, with its CRC or a stomped one (R408). -/
def Hw.hopEmit (h : Hw) (e : Nat) (hdr payload : List Byte) (stomp : Bool) : Hw :=
  let bs := sealHeader hdr ++ payload
  let crc := fcsOf bs
  h.atBall (8 + e) [bs ++ if stomp then crc.map (~~~ ·) else crc]

/-- A frame of `n` bytes of payload is the next for the lane's transmit MAC of hop `e` (R75). -/
def Hw.hopBegin (h : Hw) (e : Nat) (express : Bool) (n : Nat) : Hw :=
  (h.modHop e fun p => { p with tx := some ⟨express, 28 + n, 0, false, none, 0⟩ }).uzlCount e 4

/-- The MAC of hop `e` starts the frame that waits (R75). -/
def Hw.hopStart (h : Hw) (e : Nat) (x : HopTx) : Hw :=
  h.modHop e fun p => { p with tx := some { x with startAt := some h.et, endAt := h.et + h.hopTime e x.total } }

/-- The end of a frame that leaves cut-through on hop `e` has arrived: it ends once its bytes have left. -/
def Hw.hopTail (h : Hw) (e n : Nat) : Hw :=
  (h.modHop e fun p => { p with tx := p.tx.map fun x =>
    { x with total := 28 + n, endAt := match x.startAt with
      | some t => max h.et (t + h.hopTime e (28 + n))
      | none => 0 } }).uzlCount e 4

/-- The header of a transit frame as it leaves: the residence of a TIME frame is added to CFA (R416). -/
def TransitFrame.leave (f : TransitFrame) (eg : Stamp) : List Byte :=
  if f.time then patchBytes f.header 16 (bytesBE 8 (unsignedOf 64 (cfAdd (cfAt f.header 16) (stampDiff eg f.stamp)))) else f.header

/-- A complete transit or CTRL frame leaves on hop `e`; one that leaves cut-through has begun already. -/
def Hw.hopFinish (h : Hw) (e : Nat) (f : TransitFrame) (hdr : List Byte) : Hw :=
  let p := f.payload.getD []
  let h := ((h.unline e f.id).returnTransit e f.express f.reserved).hopEmit e hdr p f.stomp
  let h := if f.started then h.hopTail e p.length else h.hopBegin e f.express p.length
  if f.ingress.isSome then h.uzlCount e 5 else h

/-! ### Ends (R408, R414) -/

/-- A transit copy's end arrives (R408, R414). -/
def Hw.endTransit (h : Hw) (payload : List Byte) (bad : Bool) (e id : Nat) : Hw :=
  match h.transitFrame e id with
  | none => h
  | some f =>
    let long := f.express && decide (expressPayload < payload.length)
    let p := if long then payload.take expressPayload else payload
    let f' := { f with payload := some p, stomp := bad || long, reserved := min f.reserved (28 + p.length) }
    let h := if long then h.uzlCount e 6 else h
    let h := (h.returnTransit e f.express (f.reserved - f'.reserved)).reline e f'
    if f.started then h.hopFinish e f' f'.header else h

/-! ### Frames cut off (R46, R77, R396) -/

/-- A transit copy that has not begun to leave is discarded, and its buffer returns. -/
def Hw.dropTransit (h : Hw) (e id : Nat) : Hw :=
  match h.transitFrame e id with
  | none => h
  | some f => (h.unline e id).returnTransit e f.express f.reserved

/-- The frame arriving on hop `i` is cut off: it is discarded, its copies with it, but one that already leaves
cut-through ends there with a stomped CRC. -/
def Hw.cutArrival (h : Hw) (i : Nat) : Hw :=
  match (h.hop i).arriving with
  | none => h
  | some x =>
    let h := h.modHop i fun p => { p with arriving := none }
    x.copies.foldl (fun (h : Hw) y =>
      match h.transitFrame y.1 y.2 with
      | some f => if f.started then h.endTransit [] true y.1 y.2 else h.dropTransit y.1 y.2
      | none => h) h

/-- A frame of a hop that its MAC has not started, or whose end is still to arrive. -/
def HopTx.unfinished (x : HopTx) : Bool := x.startAt.isNone || x.total == 0

/-- A frame of hop `e` has not left whole. -/
def Hw.hopSending (h : Hw) (e : Nat) : Bool :=
  match (h.hop e).tx with
  | some x => x.unfinished || decide (h.et < x.endAt)
  | none => false

/-- The frame in transmission on hop `e` ends in error and is not sent again: nothing good stands on the wire, and a
transit frame that was leaving cut-through is gone with its buffer. -/
def Hw.cutTx (h : Hw) (e : Nat) : Hw :=
  let p := h.hop e
  let h := if h.hopSending e then
      (((p.express ++ p.best).filter (·.started)).foldl (fun (h : Hw) f => h.dropTransit e f.id) h).atBall (8 + e) []
    else h
  (h.modHop e fun p => { p with tx := none }).drainLaneTx (8 + e)

end Sys2Proof.Machine
end

