-- ==== Sys2Proof/Machine/Lanes.lean ====
section
/-!
DEFINITION. The serial lanes: bring-up (R392 to R397), quiet states (R398), bit-error testing (R400 to R403) and the
registers of R405.
-/
namespace Sys2Proof.Machine

def Lane.initial : Lane := ⟨none, 0, 0, none⟩
def Hw.lane (h : Hw) (n : Nat) : Lane := kgetD Lane.initial h.lanes n
def Hw.modLane (h : Hw) (n : Nat) (f : Lane → Lane) : Hw := { h with lanes := kput h.lanes n (f (h.lane n)) }

def Hw.setLaneState (h : Hw) (n st rate fec : Nat) : Hw :=
  ((h.set (R.LANE_STAT_STATE n) st).set (R.LANE_STAT_RATE n) rate).set (R.LANE_STAT_FEC n) fec

/-! ### Links -/

/-- The link of the port over a lane comes up (R393), and verification runs again (R371). -/
def Hw.portUp (h : Hw) (n : Nat) : Hw :=
  if n < 8 then
    let h := ((h.set (R.ETH_PSTAT_LINK n) 1).set (R.ETH_PSTAT_SPEED n) (h.laneRate n + 1)).set (R.ETH_PSTAT_FEC n)
      (h.get (R.LANE_STAT_FEC n))
    if h.flag (R.ETH_PRE_CTL_PRE_EN n) then h.verifyStart n else h
  else h.armHello (n - 8)

/-- The port over a lane carries no frame any more; `lost` tells a link loss from a quiet state of the device's own. -/
def Hw.portDown (h : Hw) (n : Nat) (lost : Bool) : Hw :=
  if n < 8 then
    let h := if h.ethLink n then h.ethLinkLost n else h
    ((h.set (R.ETH_PSTAT_LINK n) 0).set (R.ETH_PSTAT_SPEED n) 0).set (R.ETH_PSTAT_FEC n) 0
  else
    let h := h.stop (.hello (n - 8))
    if lost then
      (((h.clearNeighbour (n - 8)).cutArrival (n - 8)).cutTx (n - 8)).hopDown (n - 8)
        |> fun h => h.modHop (n - 8) fun p => { p with suspended := none }
    else h

/-- The frame in transmission on a lane's port, if any, has not left whole. -/
def Hw.portSending (h : Hw) (n : Nat) : Bool :=
  if n < 8 then (h.ethPort n).tx.isSome else h.hopSending (n - 8)

/-- The frames in flight on a lane's port (R46): selected, in transmission, suspended, or in reception. -/
def Hw.portItems (h : Hw) (n : Nat) : Nat :=
  if n < 8 then
    let p := h.ethPort n
    p.frames.length + p.assembly.toList.length
  else
    let p := h.hop (n - 8)
    (if h.portSending n then 1 else 0) + p.suspended.toList.length + p.arriving.toList.length

/-! ### Bring-up (R394 to R397) -/

/-- The lane enters NEG. -/
def Hw.enterNeg (h : Hw) (n : Nat) : Hw :=
  ((h.setLaneState n lnNeg 0 0).set (R.LANE_STAT_LINK n) 0).start (.lane n) (ms (h.get (R.LANE_TIMER_NEG_TO n)))

/-- The quiet state that PWR asks for is acted on in UP, L1 and L2, after the frame in transmission (R398). -/
def Hw.actPwr (h : Hw) (n : Nat) : Hw :=
  let st := h.laneState n
  let quiet (h : Hw) (s : Nat) : Hw := ((h.portDown n false).set (R.LANE_STAT_LINK n) 0).set (R.LANE_STAT_STATE n) s
  match h.get (R.LANE_CTL_PWR n) with
  | 0 =>
    if h.running (.laneExit n) then h
    else if st = lnL1 then h.start (.laneExit n) 2000
    else if st = lnL2 then h.start (.laneExit n) 1500000
    else h
  | 1 => if st = lnUp ∧ !h.portSending n then quiet h lnL1 else h
  | 2 =>
    if st = lnUp ∧ !h.portSending n then quiet h lnL2
    else if st = lnL1 then (h.stop (.laneExit n)).set (R.LANE_STAT_STATE n) lnL2
    else h
  | _ => h

/-- ETH_FRAME_TRANSMIT (R363): the frame in transmission completes; a quiet state that waits for its end follows (R398). -/
def execEthFrameTransmit (n : Fin 8) (s : State) : Host.Outcome State Fault Refusal :=
  s.effect fun h => (h.ethTransmit n).actPwr n

/-- The lane enters UP (R394, R396). -/
def Hw.enterUp (h : Hw) (n rate fec : Nat) : Hw :=
  let h := (h.stop (.lane n)).setLaneState n lnUp rate fec
  let h := ((h.set (R.LANE_STAT_LINK n) 1).set (R.LANE_STAT_UP_EV n) 1).set (R.LANE_STAT_TRY n) 0
  ((h.modLane n fun l => { l with lastTrain := none }).portUp n).actPwr n

/-- An attempt fails (R396); `code`: the code of a TRAIN failure. -/
def Hw.attemptFails (h : Hw) (n : Nat) (code : Option Nat) : Hw :=
  let h := h.bump (R.LANE_CNT_TRAIN_FAIL n)
  let t := h.get (R.LANE_STAT_TRY n) + 1
  let h := h.set (R.LANE_STAT_TRY n) t
  let h := match code with
    | some r => if (h.lane n).lastTrain = some r then h.set (R.LANE_STAT_FAILED n) (Nat.lor (h.get (R.LANE_STAT_FAILED n)) (2 ^ r)) else h
    | none => h
  let h := h.modLane n fun l => { l with lastTrain := code }
  if t < h.get (R.LANE_CTL_TRIES n) then
    (h.setLaneState n lnBackoff 0 0).start (.lane n) (min (ms (10 * 2 ^ (t - 1))) (ms 10000))
  else
    ((h.setLaneState n lnParked 0 0).set (R.LANE_STAT_NO_PARTNER_EV n) 1).start (.lane n) (ms (100 * h.get (R.LANE_CTL_DET_PER n)))

/-- The interval of a lane in state `st` ends. -/
def Hw.onLane (h : Hw) (n st : Nat) (f : Hw → Hw) : Hw :=
  if h.laneState n = st then h.onTimer (.lane n) f else h

/-- NEG_TIMEOUT (R394). -/
def execNegTimeout (n : Fin 12) (s : State) : Host.Outcome State Fault Refusal :=
  s.effect fun h => h.onLane n lnNeg fun h =>
    if n.val < 8 ∧ h.flag (R.LANE_CTL_PROBE_EN n) ∧ 1 ≤ h.get (R.LANE_CTL_RATE_MAX n) then
      (h.setLaneState n lnProbe 1 0).start (.lane n) (ms (h.get (R.LANE_TIMER_PROBE_MS n)))
    else h.attemptFails n none

/-- The rates the lane offers (R395). -/
def Hw.ownRates (h : Hw) (n : Nat) : Nat :=
  (List.range 5).foldl (fun m r =>
    if r ≤ h.get (R.LANE_CTL_RATE_MAX n) ∧ !(h.get (R.LANE_STAT_FAILED n)).testBit r then m + 2 ^ r else m) 0

/-- The agreed rate and FEC (R395). -/
def Hw.agreed (h : Hw) (n : Nat) (p : Option RatePage) : Nat × Nat :=
  match p with
  | none => (0, 0)
  | some p =>
    if p.negId.toNat ≠ h.get (R.LANE_NEG_ID_NEG_ID n) then (0, 0)
    else
      let both := Nat.land (h.ownRates n) p.rates.toNat
      let r := (List.range 5).foldl (fun m r => if both.testBit r then r else m) 0
      let own := if n < 8 then h.get (R.LANE_CTL_FEC_EN n) else 0
      let fec := Nat.land own p.fec.toNat
      (r, if r = 4 then (if fec.testBit 1 then 2 else if fec.testBit 0 then 1 else 0) else 0)

/-- RATE_PAGE_EXCHANGED (R394, R395): the partner has completed the base page, and its rate page, if it sends one, is
`p`. -/
def execRatePageExchanged (n : Fin 12) (p : Option RatePage) (s : State) : Host.Outcome State Fault Refusal :=
  s.effect fun h =>
    if h.laneState n = lnNeg then
      let (r, fec) := h.agreed n p
      if r = 0 then h.enterUp n 0 0
      else (h.setLaneState n lnTrain r fec).start (.lane n) (ms (h.get (R.LANE_TIMER_TRAIN_TO n)))
    else h

/-- PROBE_STEP (R394): the next code, or a failed attempt after the last. -/
def execProbeStep (n : Fin 12) (s : State) : Host.Outcome State Fault Refusal :=
  s.effect fun h => h.onLane n lnProbe fun h =>
    let r := h.laneRate n
    if r < h.get (R.LANE_CTL_RATE_MAX n) then
      (h.setLaneState n lnProbe (r + 1) 0).start (.lane n) (ms (h.get (R.LANE_TIMER_PROBE_MS n)))
    else h.attemptFails n none

/-- PROBE_LOCK (R394). -/
def execProbeLock (n : Fin 12) (s : State) : Host.Outcome State Fault Refusal :=
  s.effect fun h => if h.laneState n = lnProbe then h.enterUp n (h.laneRate n) 0 else h

/-- TRAIN_LOCK_HELD (R394). -/
def execTrainLockHeld (n : Fin 12) (s : State) : Host.Outcome State Fault Refusal :=
  s.effect fun h => if h.laneState n = lnTrain then h.enterUp n (h.laneRate n) (h.get (R.LANE_STAT_FEC n)) else h

/-- TRAIN_TIMEOUT (R394, R396). -/
def execTrainTimeout (n : Fin 12) (s : State) : Host.Outcome State Fault Refusal :=
  s.effect fun h => h.onLane n lnTrain fun h => h.attemptFails n (some (h.laneRate n))

/-- A link loss (R396). -/
def Hw.linkLoss (h : Hw) (n : Nat) : Hw :=
  let h := (h.set (R.LANE_STAT_DOWN_EV n) 1).bump (R.LANE_CNT_LINK_DOWN n)
  (h.portDown n true).enterNeg n

/-- LINK_LOSS (R396). -/
def execLinkLoss (n : Fin 12) (s : State) : Host.Outcome State Fault Refusal :=
  s.effect fun h => if h.laneState n = lnUp then h.linkLoss n else h

/-- BACKOFF_END (R396). -/
def execBackoffEnd (n : Fin 12) (s : State) : Host.Outcome State Fault Refusal :=
  s.effect fun h => h.onLane n lnBackoff fun h => h.enterNeg n

/-- DETECT_SAMPLE (R397): the signal detector is sampled. -/
def execDetectSample (n : Fin 12) (signal : Bool) (s : State) : Host.Outcome State Fault Refusal :=
  s.effect fun h => h.onLane n lnParked fun h =>
    if signal then h.start (.laneExit n) 1500000 else h.start (.lane n) (ms (100 * h.get (R.LANE_CTL_DET_PER n)))

/-- The exit from a quiet state is complete (R397, R398): from PARKED to NEG with TRY cleared; from L1 to UP; from L2 to
UP where the lane is locked, otherwise to NEG as on link loss. -/
def Hw.exitComplete (h : Hw) (n : Nat) (locked : Bool) : Hw :=
  let st := h.laneState n
  if st = lnParked then (h.set (R.LANE_STAT_TRY n) 0).enterNeg n
  else if st = lnL1 ∨ (st = lnL2 ∧ locked) then h.enterUp n (h.laneRate n) (h.get (R.LANE_STAT_FEC n))
  else if st = lnL2 then h.linkLoss n
  else h

/-- L2_EXIT_COMPLETE (R397). -/
def execL2ExitComplete (n : Fin 12) (locked : Bool) (s : State) : Host.Outcome State Fault Refusal :=
  s.effect fun h =>
    if h.laneState n = lnParked ∨ h.laneState n = lnL2 then h.onTimer (.laneExit n) fun h => h.exitComplete n locked else h

/-- QUIET_EXIT_COMPLETE (R398). -/
def execQuietExitComplete (n : Fin 12) (locked : Bool) (s : State) : Host.Outcome State Fault Refusal :=
  s.effect fun h =>
    if h.laneState n = lnL1 ∨ h.laneState n = lnL2 then h.onTimer (.laneExit n) fun h => h.exitComplete n locked else h

/-- RETRY (R397). -/
def Hw.laneRetry (h : Hw) (n : Nat) : Hw :=
  if h.laneState n = lnParked ∨ h.laneState n = lnBackoff then
    ((h.stop (.laneExit n)).set (R.LANE_STAT_TRY n) 0).enterNeg n
  else h

def execLaneRetry (n : Fin 12) (s : State) : Host.Outcome State Fault Refusal := s.effect fun h => h.laneRetry n

/-- PWR as written (R398, R405). -/
def Hw.pwrWrite (h : Hw) (n v : Nat) : Hw := if v = 3 then h else (h.set (R.LANE_CTL_PWR n) v).actPwr n

def execPwrWrite (n : Fin 12) (v : BitVec 2) (s : State) : Host.Outcome State Fault Refusal := s.effect fun h => h.pwrWrite n v.toNat

/-- A lane enters Open (R394, R400): TEST where MODE is set, else NEG. -/
def Hw.laneOpened (h : Hw) (n : Nat) : Hw :=
  if h.get (R.LANE_TEST_MODE n) ≠ 0 then
    ((h.setLaneState n lnTest (h.get (R.LANE_TEST_TEST_RATE n)) 0).set (R.LANE_TEST_LOCK n) 0).modLane n fun l =>
      { l with genAt := h.et, inject := none }
  else h.enterNeg n

/-- A lane is Closed (R394, R396). -/
def Hw.laneClosed (h : Hw) (n : Nat) : Hw :=
  let h := ((h.portDown n true).stop (.lane n)).stop (.laneExit n)
  let h := (h.setLaneState n lnOff 0 0).set (R.LANE_STAT_LINK n) 0
  let h := ((h.set (R.LANE_STAT_FAILED n) 0).set (R.LANE_STAT_TRY n) 0).set (R.LANE_TEST_LOCK n) 0
  h.modLane n fun _ => Lane.initial

/-- A quiescent lane (R399). -/
def Hw.laneQuiescent (h : Hw) (n : Nat) : Bool :=
  h.get (R.LANE_FSTAT_STATE n) == stClosed ||
  (h.get (R.LANE_FSTAT_STATE n) == stOpen && [lnUp, lnBackoff, lnParked, lnL1, lnL2].contains (h.laneState n))

/-! ### Bit-error testing (R400 to R403) -/

/-- The degree and the second tap of a pattern (R401). -/
def prbsTaps (pat : Nat) : Nat × Nat := match pat with | 0 => (7, 6) | 1 => (15, 14) | 2 => (23, 18) | _ => (31, 28)

/-- One step of the generator's register: the bit that leaves it, and the register after (R401). -/
def prbsStep (pat reg : Nat) : Bool × Nat :=
  let (d, t) := prbsTaps pat
  let b := reg.testBit (d - 1) != reg.testBit (t - 1)
  (reg.testBit (d - 1), (2 * reg + (if b then 1 else 0)) % 2 ^ d)

/-- Bit `k` of a pattern, from an all-ones register. -/
def prbsBit (pat reg k : Nat) : Bool :=
  match k with
  | 0 => (prbsStep pat reg).1
  | k + 1 => prbsBit pat (prbsStep pat reg).2 k

/-- Bits on a lane in `ns` nanoseconds at a rate code (R392). -/
def laneBits (rate ns : Nat) : Nat :=
  match rate with
  | 0 => ns * 125 / 100
  | 1 => ns * 3125 / 1000
  | 2 => ns * 515625 / 100000
  | 3 => ns * 1031250 / 100000
  | _ => ns * 2578125 / 100000

/-- Whether generator output bit `k` is inverted (R403). -/
def Hw.injected (h : Hw) (n k : Nat) : Bool :=
  match h.get (R.LANE_TEST_INJ n) with
  | 3 => k % 2 ^ h.get (R.LANE_TEST_RATE_EXP n) == 2 ^ h.get (R.LANE_TEST_RATE_EXP n) - 1
  | _ => match (h.lane n).inject with
    | some (b, len) => decide (b ≤ k) && decide (k < b + len)
    | none => false

/-- Output bit `k` of the generator of a lane in TEST (R401, R403). -/
def Hw.testBit (h : Hw) (n k : Nat) : Bool :=
  let pat := h.get (R.LANE_TEST_PAT n)
  (prbsBit pat (2 ^ (prbsTaps pat).1 - 1) k) != h.injected n k

/-- BIT_CNT as it stands now (R402). -/
def Hw.bitCount (h : Hw) (n : Nat) : Nat := h.get (R.LANE_BIT_LO_BIT_CNT n) + 2 ^ 32 * h.get (R.LANE_BIT_HI_BIT_CNT n)

/-- The bits since lock, or since they were last counted, are counted. -/
def Hw.settleBits (h : Hw) (n : Nat) : Hw :=
  if h.flag (R.LANE_TEST_LOCK n) then
    let k := laneBits (h.laneRate n) (h.et - (h.lane n).lockAt)
    let c := min (h.bitCount n + k) (2 ^ 48 - 1)
    ((h.set (R.LANE_BIT_LO_BIT_CNT n) c).set (R.LANE_BIT_HI_BIT_CNT n) (c / 2 ^ 32)).modLane n fun l => { l with lockAt := h.et }
  else h

/-- The checker runs (R400). -/
def Hw.checking (h : Hw) (n : Nat) : Bool := h.laneState n == lnTest && (h.get (R.LANE_TEST_MODE n)).testBit 1

/-- CHECKER_LOCK (R402). -/
def execCheckerLock (n : Fin 12) (s : State) : Host.Outcome State Fault Refusal :=
  s.effect fun h =>
    if h.checking n ∧ !h.flag (R.LANE_TEST_LOCK n) then
      (h.set (R.LANE_TEST_LOCK n) 1).modLane n fun l => { l with lockAt := h.et }
    else h

/-- The wrong bits of aligned blocks of 1,024 are counted, one block after the other, until one holds 32 or more and LOCK
clears (R402). -/
def Hw.checkBlocks (h : Hw) (n : Nat) (blocks : List Nat) : Hw :=
  match blocks with
  | [] => h
  | w :: rest =>
    let w := min w 1024
    let h := h.bump (R.LANE_ERR_CNT_ERR_CNT n) w
    if 32 ≤ w then ((h.settleBits n).set (R.LANE_TEST_LOCK n) 0).set (R.LANE_TEST_LOCK_LOST_EV n) 1
    else h.checkBlocks n rest

/-- CHECKER_LOCK_LOST (R402): the aligned blocks since the last report held these wrong bits. -/
def execCheckerLockLost (n : Fin 12) (blocks : List Nat) (s : State) : Host.Outcome State Fault Refusal :=
  s.effect fun h => if h.checking n ∧ h.flag (R.LANE_TEST_LOCK n) then h.checkBlocks n blocks else h

/-- INJ_GO (R403): the run begins with the next bit. -/
def Hw.injGo (h : Hw) (n : Nat) : Hw :=
  if h.laneState n = lnTest ∧ (h.get (R.LANE_TEST_MODE n)).testBit 0 then
    let k := laneBits (h.laneRate n) (h.et - (h.lane n).genAt)
    match h.get (R.LANE_TEST_INJ n) with
    | 1 => h.modLane n fun l => { l with inject := some (k, 1) }
    | 2 => h.modLane n fun l => { l with inject := some (k, h.get (R.LANE_TEST_BURST_LEN n)) }
    | _ => h
  else h

def execInjGo (n : Fin 12) (s : State) : Host.Outcome State Fault Refusal := s.effect fun h => h.injGo n

/-- CLR (R402). -/
def Hw.testClr (h : Hw) (n : Nat) : Hw :=
  (((h.set (R.LANE_ERR_CNT_ERR_CNT n) 0).set (R.LANE_BIT_LO_BIT_CNT n) 0).set (R.LANE_BIT_HI_BIT_CNT n) 0).modLane n fun l =>
    { l with lockAt := h.et }

def execTestClr (n : Fin 12) (s : State) : Host.Outcome State Fault Refusal := s.effect fun h => h.testClr n

/-! ### Registers (R400, R405) -/

/-- A write of LANE_n_CTL. -/
def Hw.writeLaneCtl (h : Hw) (n : Nat) (v : Word) : Hw :=
  let pwr := h.get (R.LANE_CTL_PWR n)
  let h := h.writeFields (R.LANE_CTL n) v
  let h := h.set (R.LANE_CTL_RATE_MAX n) (min 4 (h.get (R.LANE_CTL_RATE_MAX n)))
  let h := h.set (R.LANE_CTL_TRIES n) (max 1 (h.get (R.LANE_CTL_TRIES n)))
  let h := h.set (R.LANE_CTL_DET_PER n) (max 1 (h.get (R.LANE_CTL_DET_PER n)))
  let h := (h.set (R.LANE_CTL_PWR n) pwr).pwrWrite n (fieldOf v (R.LANE_CTL_PWR n))
  if fieldOf v (R.LANE_CTL_RETRY n) = 1 then h.laneRetry n else h

/-- A write of LANE_n_TIMER. -/
def Hw.writeLaneTimer (h : Hw) (n : Nat) (v : Word) : Hw :=
  let h := h.writeFields (R.LANE_TIMER n) v
  let h := h.set (R.LANE_TIMER_NEG_TO n) (max 1 (h.get (R.LANE_TIMER_NEG_TO n)))
  let h := h.set (R.LANE_TIMER_TRAIN_TO n) (max 1 (h.get (R.LANE_TIMER_TRAIN_TO n)))
  h.set (R.LANE_TIMER_PROBE_MS n) (max 1 (h.get (R.LANE_TIMER_PROBE_MS n)))

/-- A write of LANE_n_TEST: MODE, PAT and TEST_RATE only while the lane is Closed. -/
def Hw.writeLaneTest (h : Hw) (n : Nat) (v : Word) : Hw :=
  let a := R.LANE_TEST n
  let old := h.word a
  let closed := h.get (R.LANE_FSTAT_STATE n) = stClosed
  let h := h.writeFields a (if closed then v else (old &&& 0x7F) ||| (v &&& ~~~0x7F))
  let h := if ¬ closed ∧ (old ^^^ v) &&& 0x7F ≠ 0 then h.set (R.LANE_STAT_CFG_ERR n) 1 else h
  let h := h.set (R.LANE_TEST_TEST_RATE n) (min 4 (h.get (R.LANE_TEST_TEST_RATE n)))
  let h := h.set (R.LANE_TEST_BURST_LEN n) (max 1 (h.get (R.LANE_TEST_BURST_LEN n)))
  let h := h.set (R.LANE_TEST_RATE_EXP n) (max 4 (h.get (R.LANE_TEST_RATE_EXP n)))
  let h := if fieldOf v (R.LANE_TEST_CLR n) = 1 then h.testClr n else h
  if fieldOf v (R.LANE_TEST_INJ_GO n) = 1 then h.injGo n else h

end Sys2Proof.Machine
end

