-- ==== Sys2Proof/Machine/Uzovi.lean ====
section
/-!
DEFINITION. Uzovi: routes (R411), the decision of a received frame (R408 to R410, R414), sending on a hop (R412, R413,
R416, R420), preemption on hops (R406), the requests of every egress (R352), and the registers of R423.
-/
namespace Sys2Proof.Machine

/-! ### Routes (R411) -/

def Hw.route (h : Hw) (id : Nat) : Option (Nat × Bool) := kget h.uzovi.routes id
def Hw.setRoutes (h : Hw) (m : NMap (Nat × Bool)) : Hw := { h with uzovi := { h.uzovi with routes := m } }

/-- A route command completes with a status (R384, R411). -/
def Hw.uzlRtDone (h : Hw) (status : Nat) : Hw :=
  ((h.set R.UZL_RT_RSP_STATUS status).set R.UZL_RT_RSP_DONE_EV 1).set R.UZL_RT_USED_USED h.uzovi.routes.length

def Hw.uzlRtAdd (h : Hw) : Hw :=
  let id := h.get R.UZL_RT_ARG0_ID
  if !isUnicastId id then h.uzlRtDone 4
  else if (h.route id).isNone && decide (4096 ≤ h.uzovi.routes.length) then h.uzlRtDone 2
  else (h.setRoutes (kput h.uzovi.routes id (h.get R.UZL_RT_ARG1_HOP, h.flag R.UZL_RT_ARG1_RING))).uzlRtDone 0

def Hw.uzlRtDel (h : Hw) : Hw :=
  let id := h.get R.UZL_RT_ARG0_ID
  if !isUnicastId id then h.uzlRtDone 4
  else if (h.route id).isNone then h.uzlRtDone 1
  else (h.setRoutes (kdel h.uzovi.routes id)).uzlRtDone 0

def Hw.uzlRtClear (h : Hw) : Hw := (h.setRoutes []).uzlRtDone 0

/-- UZL_RT_ADD, UZL_RT_DEL and UZL_RT_CLEAR (R411). -/
def execUzlRtAdd (s : State) : Host.Outcome State Fault Refusal := s.effect fun h => h.uzlRtAdd
def execUzlRtDel (s : State) : Host.Outcome State Fault Refusal := s.effect fun h => h.uzlRtDel
def execUzlRtClear (s : State) : Host.Outcome State Fault Refusal := s.effect fun h => h.uzlRtClear

/-- A write of UZL_RT_CMD. -/
def Hw.writeUzlRtCmd (h : Hw) (v : Word) : Hw :=
  match fieldOf v R.UZL_RT_CMD_OP with
  | 0 => h.uzlRtAdd
  | 1 => h.uzlRtDel
  | 2 => h.uzlRtClear
  | _ => h.uzlRtDone 4

/-- The hop a destination is sent on (R410). -/
def Hw.hopFor (h : Hw) (dst : Nat) : Option Nat :=
  match h.route dst with
  | some (e, _) => some e
  | none => if h.flag R.UZL_CTL_DEF_EN then some (h.get R.UZL_CTL_DEF_HOP) else none

/-! ### Transit (R410, R414, R415) -/

/-- The class E frames ahead of one that joins the express line of `e` (R415). -/
def Hw.expressAhead (h : Hw) (e : Nat) : Nat :=
  let p := h.hop e
  (p.express.filter fun f => !f.ctrl).length +
  (((h.queuesOf (8 + e)).filter fun q => h.flag (R.TM_Q_W6_LEVEL q)).map fun q => (h.queueFrames q).length).sum +
  (match p.tx with
    | some x => if x.express && x.total != 0 && (x.startAt.isNone || decide (h.et < x.endAt)) then 1 else 0
    | none => 0)

/-- A transit copy is directed to hop `e` (R410, R412, R414, R415); the result is its number, or none where it is
dropped. -/
def Hw.transitTo (h : Hw) (e : Nat) (f : TransitFrame) : Hw × Option Nat :=
  if h.hopState e = stClosing then (h.uzlCount e 7, none)
  else if !h.hopUp e then (h.uzlCount e 6, none)
  else
    let p := h.hop e
    let fits := if f.express then decide (p.expressUsed + reserveFor true ≤ 8192) else decide (p.bestUsed + reserveFor false ≤ 65536)
    if !fits then
      let h := h.uzlCount e 6
      (if f.express then h.uzlCount e 11 else h, none)
    else
      let h := if f.express && decide (2 ≤ h.expressAhead e) then h.uzlCount e 11 else h
      let (h, id, seq) := h.nextTransit
      let r := reserveFor f.express
      let h := h.modHop e fun p =>
        if f.express then { p with expressUsed := p.expressUsed + r } else { p with bestUsed := p.bestUsed + r }
      (h.enline e { f with id := id, seq := seq, reserved := r }, some id)

/-! ### Sending (R406, R408, R412, R413, R416) -/

/-- A transit frame is still arriving, and may leave cut-through on hop `e` (R410). -/
def Hw.cutsThrough (h : Hw) (e : Nat) (f : TransitFrame) : Bool :=
  match f.ingress with
  | some i => decide (h.hopRate e ≤ h.hopRate i)
  | none => false

/-- The frame may start now on hop `e`: it is whole, or may cut through; a blocked hop sends CTRL frames only (R419). -/
def Hw.lineReady (h : Hw) (e : Nat) (f : TransitFrame) : Bool :=
  (f.payload.isSome || h.cutsThrough e f) && (!h.hopBlocked e || f.ctrl)

/-- The first frame of a line that hop `e` may send. -/
def Hw.lineHead (h : Hw) (e : Nat) (l : List TransitFrame) : Option TransitFrame :=
  match l.find? fun f => !h.hopBlocked e || f.ctrl with
  | some f => if h.lineReady e f then some f else none
  | none => none

/-- A frame of a line is taken to be sent: whole, or cut-through until its end arrives. -/
def Hw.startLine (h : Hw) (e : Nat) (f : TransitFrame) : Hw :=
  let hdr := f.leave (h.stampNow true)
  match f.payload with
  | some _ => h.hopFinish e f hdr
  | none =>
    (h.reline e { f with started := true, time := false, header := hdr }).modHop e fun p =>
      { p with tx := some ⟨f.express, 0, 0, false, none, 0⟩ }

/-- A local frame is selected for hop `e` (R413, R420, R441, R443). -/
def Hw.sendLocal (h : Hw) (e id : Nat) : Hw :=
  let f := h.frame id
  match h.readLeaving 22 f with
  | (h, none) => h.dropSelected (8 + e) id
  | (h, some bs) =>
    let bs := patchBytes bs 4 (bytesBE 4 (h.get R.UZL_ID_ID))
    let bs := patchBytes bs 11 (bytesBE 1 (32 * f.tc + byteAt bs 11 % 32))
    if bs.length < 24 || !headerSound bs (field16 bs 24) then (h.uzlCount e 12).dropSelected (8 + e) id
    else
      let eg := h.stampNow true
      let (h, bs) := h.insertResidence (8 + e) f eg bs
      let flood := h.flag R.UZL_STAT_FLOOD && h.isRingHop e &&
        (match h.route (hdrDst bs) with
          | some (_, r) => r
          | none => false)
      let bs := if flood then patchBytes bs 11 (bytesBE 1 (Nat.lor (byteAt bs 11) 16)) else bs
      let payload := bs.drop 24
      let h := if flood then
          (h.transitTo (h.otherHop e) ⟨0, bs.take 24, some payload, false, f.tc == 7, false, 0, 0, Stamp.zero, none, false, false⟩).1
        else h
      let h := (h.hopEmit e (bs.take 24) payload false).hopBegin e (f.tc == 7) payload.length
      (h.twoStep (8 + e) f eg h.tbLock false false 0).freeFrame id

/-- A HELLO leaves (R417). -/
def Hw.sendHello (h : Hw) (e : Nat) : Hw :=
  let hdr := header idNeighbour (h.get R.UZL_ID_ID) 1 3 0 0
  ((h.modHop e fun p => { p with helloDue := false }).hopEmit e hdr (h.ctrlPayload 1 e 0 0) false).hopBegin e false 16

/-- The strict level alone, and the fair level alone, of the TM egress of a hop. -/
def Hw.onlyStrict (h : Hw) (q : Nat) (_ : Frame) : Bool := h.strictQueue q
def Hw.onlyFair (h : Hw) (q : Nat) (_ : Frame) : Bool := !h.strictQueue q

/-- A local frame of one level is selected and sent, else `f` follows. -/
def Hw.sendLevel (h : Hw) (e : Nat) (only : Nat → Frame → Bool) (f : Hw → Hw) : Hw :=
  match h.select anyQueue only (8 + e) with
  | (h, some (_, id)) => h.sendLocal e id
  | (h, none) => f h

/-- The order of arrival of the earliest strict frame of the TM egress of hop `e`. -/
def Hw.strictSeq (h : Hw) (e : Nat) : Option Nat := (h.pickStrict h.onlyStrict (8 + e)).map fun q => (h.headOf q).enqSeq

/-- Transit best effort and the fair level take turns, starting with whichever did not send last (R412). -/
def Hw.sendBest (h : Hw) (e : Nat) : Hw :=
  let b := h.lineHead e (h.hop e).best
  let mark (h : Hw) (t : Bool) := h.modHop e fun p => { p with transitLast := t }
  let fair (h : Hw) (f : Hw → Hw) := if h.hopBlocked e then f h else
    match h.select anyQueue h.onlyFair (8 + e) with
    | (h, some (_, id)) => mark (h.sendLocal e id) false
    | (h, none) => f h
  let transit (h : Hw) (f : Hw → Hw) := match b with
    | some x => mark (h.startLine e x) true
    | none => f h
  if (h.hop e).transitLast then fair h fun h => transit h id else transit h fun h => fair h id

/-- The suspended frame goes on (R373, R406). -/
def Hw.hopResume (h : Hw) (e : Nat) (x : HopTx) : Hw :=
  h.modHop e fun p => { p with suspended := none, tx := some { x with endAt := h.et + h.hopTime e (x.total - x.done) } }

/-- What follows the express line (R412). -/
def Hw.afterExpress (h : Hw) (e : Nat) : Hw :=
  match (h.hop e).suspended with
  | some x => h.hopResume e x
  | none => if (h.hop e).helloDue then h.sendHello e else h.sendBest e

/-- Whether an express frame can start on hop `e`. -/
def Hw.expressReady (h : Hw) (e : Nat) : Bool :=
  (h.lineHead e (h.hop e).express).isSome || (!h.hopBlocked e && (h.strictSeq e).isSome)

/-- HOP_SEND_SELECT (R412): the hop, done with its last frame, takes the next to be sent. Over a lane that takes no new
work only a suspended frame goes on (R46). -/
def Hw.hopSelect (h : Hw) (e : Nat) : Hw :=
  if !h.hopUp e || ((h.hop e).tx.map (·.unfinished)).getD false then h
  else
    let h := match (h.hop e).tx with
      | some x => (((h.advanceTo x.endAt).drainLaneTx (8 + e)).modHop e fun p => { p with tx := none }).actPwr (8 + e)
      | none => h
    if !h.hopUp e then h
    else if !h.laneTakes (8 + e) then
      match (h.hop e).suspended with
      | some x => h.hopResume e x
      | none => h
    else
      match h.lineHead e (h.hop e).express, (if h.hopBlocked e then none else h.strictSeq e) with
      | some f, some s => if f.seq < s then h.startLine e f else h.sendLevel e h.onlyStrict fun h => h.afterExpress e
      | some f, none => h.startLine e f
      | none, some _ => h.sendLevel e h.onlyStrict fun h => h.afterExpress e
      | none, none => h.afterExpress e

def execHopSendSelect (e : Fin 4) (s : State) : Host.Outcome State Fault Refusal := s.effect fun h => h.hopSelect e

/-- PREEMPT on hop `e` (R372, R406): ADD_FRAG is 0. What is left of a frame whose end is still to arrive is not known, and
such a frame is not preempted. -/
def Hw.hopPreempt (h : Hw) (e carried : Nat) : Hw :=
  let p := h.hop e
  match p.tx with
  | none => h
  | some x =>
    let done := x.done + (carried - if x.fragmented then 1 else 0)
    if h.hopUp e && !x.express && !x.unfinished && decide (h.et < x.endAt) && p.suspended.isNone && h.expressReady e &&
        decide (60 ≤ carried) && decide (done + 64 ≤ x.total) then
      (h.modHop e fun p => { p with suspended := some { x with done := done, fragmented := true }, tx := none }).drainLaneTx (8 + e)
    else h

/-- PREEMPT (R372, R373, R375, R406): on Ethernet port or hop `n` (8 + h), the fragment in transmission has carried
`carried` bytes since its SMD. -/
def execPreempt (n : Fin 12) (carried : Nat) (s : State) : Host.Outcome State Fault Refusal :=
  s.effect fun h => if n.val < 8 then h.ethPreempt n carried else h.hopPreempt (n.val - 8) carried

/-- A ring that stores frames asks for one once the previous frame has been copied and a slot is free (R352, R330); the
frame's entry is taken with it. -/
def Hw.ringRequest (h : Hw) (r : Nat) : Hw :=
  if h.ringState r = stOpen ∧ h.ringMode r = 1 ∧ (h.ringQueue r).isEmpty ∧ h.ringCount r + h.ringReservedOf r < h.ringSize r then
    match h.select anyQueue anyQueue (16 + r) with
    | (h, some (q, id)) => (h.setRingQueue r [(id, q)]).setRingReserved r (h.ringReservedOf r + 1)
    | (h, none) => h
  else h

/-- EGRESS_REQUEST (R352): an egress able to begin a frame asks its scheduler: an Ethernet port, a hop, or a ring that
stores frames for the host. -/
def execEgressRequest (e : Fin 80) (s : State) : Host.Outcome State Fault Refusal :=
  s.effectIf (egressAssigned e) fun h =>
    if e.val < 8 then h.ethRequest e
    else if e.val < 12 then h.hopSelect (e.val - 8)
    else h.ringRequest (e.val - 16)

/-! ### Reception (R408 to R410, R416, R419, R422) -/

/-- A TIME frame's CFA as the receiving hop makes it (R416, R440). -/
def Hw.receiveCfa (h : Hw) (i : Nat) (hdr : List Byte) : List Byte :=
  if hdrType hdr = 2 then
    let cf := cfAdd (cfAdd (cfAt hdr 16) (h.getI (R.UZL_LINK_DELAY_DELAY i))) (h.getI (R.TIME_ASYM_ASYM (8 + i)))
    patchBytes hdr 16 (bytesBE 8 (unsignedOf 64 cf))
  else hdr

/-- The hops a frame received on `i` is copied to, and the hop counter a drop counts on (R410). -/
def Hw.transitHops (h : Hw) (i : Nat) (hdr : List Byte) : List Nat × Option Nat :=
  let dst := hdrDst hdr
  if dst = h.get R.UZL_ID_ID || dst = idNeighbour || (hdrType hdr = 2 && h.flag R.UZL_CTL_TIME_LOCAL) then ([], none)
  else if dst = idBroadcast then
    (if hdrHop hdr = 0 then [] else (List.range 4).filter fun e => e != i && h.hopUp e && !h.hopBlocked e, none)
  else if hdrRing hdr && h.isRingHop i then (if hdrHop hdr = 0 then [] else [h.otherHop i], none)
  else if hdrHop hdr = 0 then ([], some 8)
  else
    match h.hopFor dst with
    | some e => if e = i then ([], some 9) else ([e], none)
    | none => ([], some 9)

/-- Local delivery (R410). -/
def Hw.deliversLocally (h : Hw) (hdr : List Byte) : Bool :=
  let dst := hdrDst hdr
  dst == h.get R.UZL_ID_ID || dst == idNeighbour || (hdrType hdr == 2 && h.flag R.UZL_CTL_TIME_LOCAL) || dst == idBroadcast

/-- A register request (R422). -/
def Hw.isRequest (h : Hw) (i : Nat) (hdr : List Byte) : Bool :=
  hdrDst hdr == h.get R.UZL_ID_ID && hdrType hdr == 1 && hdrInner hdr == 0 && h.flag (R.UZL_CFG_RMGMT i)

/-- UZOVI_HEADER_DECISION (R408, R410, R412, R414, R419): a header has arrived on hop `i`; `opcode` is what a CTRL
payload begins with. -/
def Hw.headerDecision (h : Hw) (i : Nat) (raw : List Byte) (opcode : Nat) : Hw :=
  if h.laneState (8 + i) ≠ lnUp || !h.laneTakes (8 + i) then h
  else
    let h := h.cutArrival i
    if h.hopState i = stClosing then h.uzlCount i 7
    else if h.hopState i ≠ stOpen then h
    else if raw.length ≠ 24 || field16 raw 14 ≠ hcrc (raw.take 14) || !headerSound raw opcode then h.uzlCount i 1
    else if h.hopBlocked i && hdrType raw ≠ 3 then h.uzlCount i 10
    else
      let st := h.stampNow true
      let hdr := h.receiveCfa i raw
      let (hops, drop) := h.transitHops i hdr
      let h := match drop with
        | some c => h.uzlCount i c
        | none => h
      let out := patchBytes hdr 8 (bytesBE 2 (hdrHop hdr - 1))
      let f : TransitFrame :=
        ⟨0, out, none, false, hdrTc hdr == 7, hdrType hdr == 3, 0, 0, st, some i, hdrType hdr == 2, false⟩
      let (h, copies) := hops.foldl (fun (x : Hw × List (Nat × Nat)) e =>
        match x.1.transitTo e f with
        | (h, some id) => (h, x.2 ++ [(e, id)])
        | (h, none) => (h, x.2)) (h, [])
      h.modHop i fun p => { p with
        arriving := some ⟨hdr, h.deliversLocally hdr, h.isRequest i hdr, hdrType hdr == 3, st, copies⟩ }

def execUzoviHeaderDecision (i : Fin 4) (header : List Byte) (opcode : BitVec 16) (s : State) :
    Host.Outcome State Fault Refusal := s.effect fun h => h.headerDecision i header opcode.toNat

/-- A register request joins the waiting ones, or is dropped where 8 wait (R422). -/
def Hw.queueRequest (h : Hw) (src : Nat) (payload : List Byte) : Hw :=
  if 8 ≤ h.uzovi.requests.length then h.count40 (R.UZL_RREQ_LO_CNT 1) (R.UZL_RREQ_HI_CNT 1) R.UZL_STAT_HALF_EV
  else { h with uzovi := { h.uzovi with requests := h.uzovi.requests ++ [⟨src, payload⟩] } }

/-- UZOVI_FRAME_END (R408): the frame whose header was decided last on hop `i` ends with its payload and CRC. -/
def Hw.uzoviFrameEnd (h : Hw) (i : Nat) (payload : List Byte) (crc : CrcFinding) : Hw :=
  match (h.hop i).arriving with
  | none => h
  | some a =>
    let h := h.modHop i fun p => { p with arriving := none }
    let h := h.uzlCount i (match crc with | .correct => 0 | .stomped => 3 | .wrong => 2)
    let good := crc == .correct
    let h := a.copies.foldl (fun h x => h.endTransit payload (!good) x.1 x.2) h
    if !a.deliver then h
    else if a.ctrl then (if good then h.ctrlReceived i (hdrSrc a.header) payload else h)
    else if a.request then (if good then h.queueRequest (hdrSrc a.header) payload else h)
    else h.stage (8 + i) (a.header ++ payload) good a.stamp 0

def execUzoviFrameEnd (i : Fin 4) (payload : List Byte) (crc : CrcFinding) (s : State) : Host.Outcome State Fault Refusal :=
  s.effect fun h => h.uzoviFrameEnd i payload crc

/-! ### Registers (R409, R423) -/

/-- Every hop is Closed. -/
def Hw.hopsClosed (h : Hw) : Bool := (List.range 4).all fun i => h.hopState i == stClosed

/-- A write of UZL_ID. -/
def Hw.writeUzlId (h : Hw) (v : Word) : Hw :=
  if h.hopsClosed then h.set R.UZL_ID_ID v.toNat else h.set R.UZL_STAT_CFG_ERR 1

/-- A write of UZL_RING: in normal state the owner blocks its owner hop (R419). -/
def Hw.writeUzlRing (h : Hw) (v : Word) : Hw :=
  let a := fieldOf v R.UZL_RING_HOP_A
  let b := fieldOf v R.UZL_RING_HOP_B
  if a = b || [a, b, h.get R.UZL_RING_HOP_A, h.get R.UZL_RING_HOP_B].any (fun i => h.hopState i != stClosed) then
    h.set R.UZL_STAT_CFG_ERR 1
  else
    let h := h.writeFields R.UZL_RING v
    let h := h.set R.UZL_RING_WTR (max 1 (h.get R.UZL_RING_WTR))
    let h := (List.range 4).foldl (fun h i => h.modHop i fun p => { p with failed := false, hellos := 0 })
      (((h.set R.UZL_STAT_BLOCKED 0).set R.UZL_STAT_FLOOD 0).setRingState 0)
    let h := h.stop .wtr
    if h.isOwner then h.blockHop h.ownerHop else h

/-- A write of UZL_h_CFG. -/
def Hw.writeUzlCfg (h : Hw) (i : Nat) (v : Word) : Hw :=
  let h := h.writeFields (R.UZL_CFG i) v
  h.set (R.UZL_CFG_HELLO_MS i) (max 1 (h.get (R.UZL_CFG_HELLO_MS i)))

/-- A hop enters Closed (R412, R414, R417): what it sends or receives is cut off, the transit frames of its lines drop,
its neighbour is unknown. -/
def Hw.hopClosed (h : Hw) (i : Nat) : Hw :=
  let h := (h.cutArrival i).cutTx i
  let p := h.hop i
  let h := ((p.express ++ p.best).filter fun f => f.ingress.isSome || !f.ctrl).foldl (fun (h : Hw) _ => h.uzlCount i 7) h
  ((h.stop (.hello i)).clearNeighbour i).modHop i fun _ => { Hop.initial with failed := p.failed }

/-- The suspended fragment of a hop is aborted on entry into Closing (R414, R47); the result counts it. -/
def Hw.hopAbortSuspended (h : Hw) (i : Nat) : Hw × Nat :=
  match (h.hop i).suspended with
  | some _ => (h.modHop i fun p => { p with suspended := none }, 1)
  | none => (h, 0)

end Sys2Proof.Machine
end

