-- ==== Sys2Proof/Machine/NetTime.lean ====
section
/-!
DEFINITION. Network time: its commands and steps (R430 to R433, R437), the servo hold (R446, R447), pulses (R448 to
R450), captures (R451), the time-stamp queues' POP (R445), the lock of the time base (R426, R427), and the registers of
R454 to R456.
-/
namespace Sys2Proof.Machine

/-! ### Pulse outputs -/

def Hw.pulse (h : Hw) (n : Nat) : Pulse := kgetD ⟨none, false⟩ h.time.pulses n
def Hw.setPulse (h : Hw) (n : Nat) (p : Pulse) : Hw := { h with time := { h.time with pulses := kput h.time.pulses n p } }
def Hw.ppsMode (h : Hw) (n : Nat) : Nat := h.get (R.TIME_PPS_CTL_MODE n)
def Hw.ppsElapsed (h : Hw) (n : Nat) : Bool := h.flag (R.TIME_PPS_CTL_SRC n)
def Hw.ppsWord (h : Hw) (n w : Nat) : Nat := h.get (R.TIME_PPS_START_W_START n w)
/-- The nanoseconds of a START on network time. -/
def Hw.ppsNanos (h : Hw) (n : Nat) : Nat := h.ppsWord n 0 % 2 ^ 30

/-- START: in units of 2^-32 ns on network time, in ns on elapsed time. -/
def Hw.ppsStart (h : Hw) (n : Nat) : Nat :=
  if h.ppsElapsed n then h.ppsWord n 0 + 2 ^ 32 * h.ppsWord n 1
  else (h.ppsWord n 2 + 2 ^ 32 * (h.ppsWord n 3 % 2 ^ 16)) * ntSecond + h.ppsNanos n * 2 ^ 32

/-- PERIOD in the units of START. -/
def Hw.ppsPeriod (h : Hw) (n : Nat) : Nat := h.get (R.TIME_PPS_PERIOD_PERIOD n) * if h.ppsElapsed n then 1 else 2 ^ 32

/-- How far the time of output `n` has passed its START. -/
def Hw.ppsPast (h : Hw) (n : Nat) : Int :=
  if h.ppsElapsed n then (h.et : Int) - h.ppsStart n else ntDiff h.nt (h.ppsStart n)

/-- k0 of R448. -/
def Hw.ppsFirst (h : Hw) (n : Nat) : Nat :=
  let d := h.ppsPast n
  let p := h.ppsPeriod n
  if d ≤ 0 then 0 else (d.toNat + p - 1) / p

/-- The output becomes active, and inactive WIDTH later. -/
def Hw.ppsFire (h : Hw) (n : Nat) (next : Option Nat) : Hw :=
  let h := h.setPulse n ⟨next, h.tbLock⟩
  let h := if h.ppsMode n = 1 then h.set (R.TIME_PPS_CTL_FIRED n) 1 else h
  if h.tbLock then h.start (.ppsOff n) (h.get (R.TIME_PPS_WIDTH_WIDTH n)) else h

/-- The checks of arming (R450, R456). -/
def Hw.ppsSound (h : Hw) (n mode : Nat) : Bool :=
  let w := h.get (R.TIME_PPS_WIDTH_WIDTH n)
  let p := h.get (R.TIME_PPS_PERIOD_PERIOD n)
  decide (1 ≤ w) && (mode != 2 || (decide (10 ≤ p) && decide (w < p))) &&
  (h.ppsElapsed n || decide (h.ppsNanos n ≤ 999999999))

/-- The next pulse of an armed output (R448): a one-shot whose START has passed fires at once, late. -/
def Hw.ppsPlan (h : Hw) (n : Nat) : Hw :=
  if h.ppsMode n = 2 then h.setPulse n { h.pulse n with next := some (h.ppsFirst n) }
  else if 0 < h.ppsPast n then (h.ppsFire n none).set (R.TIME_PPS_CTL_LATE n) 1
  else h.setPulse n { h.pulse n with next := some 0 }

/-- The output is at its inactive level. -/
def Hw.ppsIdle (h : Hw) (n : Nat) : Hw := (h.setPulse n { h.pulse n with active := false }).stop (.ppsOff n)

/-- A write of TIME_PPS_n_CTL (R450). -/
def Hw.ppsModeWrite (h : Hw) (n : Nat) (v : Word) : Hw :=
  let old := h.ppsMode n
  let new := if fieldOf v (R.TIME_PPS_CTL_MODE n) = 3 then old else fieldOf v (R.TIME_PPS_CTL_MODE n)
  if old ≠ 0 ∧ new ≠ 0 ∧ new ≠ old then h.set R.TIME_STAT_CFG_ERR 1
  else
    let h := (h.writeFields (R.TIME_PPS_CTL n) v).set (R.TIME_PPS_CTL_MODE n) old
    if new = old then h
    else if new = 0 then ((h.set (R.TIME_PPS_CTL_MODE n) 0).ppsIdle n).setPulse n ⟨none, false⟩
    else if !h.ppsSound n new then h.set R.TIME_STAT_CFG_ERR 1
    else ((h.set (R.TIME_PPS_CTL_MODE n) new).set (R.TIME_PPS_CTL_FIRED n) 0).ppsPlan n

def execPpsModeWrite (n : Fin 8) (v : Word) (s : State) : Host.Outcome State Fault Refusal := s.effect fun h => h.ppsModeWrite n v

/-- A write of START, PERIOD or WIDTH. -/
def Hw.writePps (h : Hw) (n a : Nat) (v : Word) : Hw :=
  if h.ppsMode n = 0 then h.writeFields a v else h.set R.TIME_STAT_CFG_ERR 1

/-- An instant of output `n` arrives on its own time. -/
def Hw.atPps (h : Hw) (n instant : Nat) (f : Hw → Hw) : Hw :=
  if h.ppsElapsed n then f (h.advanceTo instant) else h.atNt (instant % ntTurn) f

/-- PPS_ACTIVE_EDGE (R448). -/
def execPpsActiveEdge (n : Fin 8) (s : State) : Host.Outcome State Fault Refusal :=
  s.effect fun h =>
    match (h.pulse n).next with
    | none => h
    | some k =>
      if !h.tbLock then h
      else h.atPps n (h.ppsStart n + k * h.ppsPeriod n) fun h =>
        h.ppsFire n (if h.ppsMode n = 2 then some (k + 1) else none)

/-- PPS_INACTIVE_EDGE (R448). -/
def execPpsInactiveEdge (n : Fin 8) (s : State) : Host.Outcome State Fault Refusal :=
  s.effect fun h => h.onTimer (.ppsOff n) fun h => h.ppsIdle n

/-- What a step does to an output on network time (R449): a one-shot is decided, a periodic output realigned. -/
def Hw.ppsStep (h : Hw) (n : Nat) : Hw :=
  if h.ppsElapsed n || h.ppsMode n = 0 || (h.ppsMode n = 1 && h.flag (R.TIME_PPS_CTL_FIRED n)) then h else h.ppsPlan n

/-! ### Steps and commands -/

/-- Network time steps to `nt` (R433). -/
def Hw.ntStep (h : Hw) (nt : Nat) : Hw :=
  let h := { h with nt := nt, time := { h.time with stepEt := some h.et } }
  let h := (h.set R.TIME_STAT_STEP_EV 1).count R.TIME_STAT_STEP_CNT
  let h := (List.range 3).foldl (fun h l => h.lastStep l) h
  let h := (List.range 8).foldl (fun h n => h.ppsStep n) h.gateStepAll
  h.waittStep

/-- REM within its range (R431). -/
def satRem (r : Int) : Int := clampInt (-(2 ^ 79)) (2 ^ 79 - 1) r

def Hw.setRem (h : Hw) (r : Int) : Hw := { h with rem := satRem r }

/-- Writes of TIME_RATE and TIME_ADJ_CMD during a hold are discarded (R447). -/
def Hw.unheld (h : Hw) (f : Hw → Hw) : Hw := if h.flag R.TIME_STAT_HOLD then h.bump R.TIME_STAT_HOLD_DISC else f h

/-- A time command applies at the next tick. -/
def Hw.timeCommand (h : Hw) (f : Hw → Hw) : Hw :=
  h.unheld fun h => f (if h.tbLock then h.advance 1 else h)

/-- CARRIED and NT_ERR clear (R452). -/
def Hw.uncarried (h : Hw) : Hw := (h.set R.TIME_STAT_CARRIED 0).set R.TIME_NT_ERR_ERR 0

/-- The time in TIME_ADJ_W0 to W3, and whether it is one (R432). -/
def Hw.adjStamp (h : Hw) : Stamp × Bool :=
  let w (i : Nat) := h.get (R.TIME_ADJ_W_W i)
  let sub := w 0 + 2 ^ 32 * (w 1 % 2 ^ 16)
  (⟨w 2 + 2 ^ 32 * (w 3 % 2 ^ 16), sub⟩,
   decide (w 1 < 2 ^ 16) && decide (w 3 < 2 ^ 16) && decide (sub < 1000000000 * 2 ^ 16))

/-- SET (R432). -/
def Hw.ntSet (h : Hw) : Hw :=
  h.timeCommand fun h =>
    let (t, ok) := h.adjStamp
    if !ok then h.set R.TIME_STAT_CFG_ERR 1
    else
      let h := h.uncarried
      if h.flag R.TIME_STAT_NT_VALID && !h.flag R.TIME_CTL_STEP_EN then h.setRem (stampDiff t (stampOf h.nt) * 2 ^ 16)
      else ((h.set R.TIME_STAT_NT_VALID 1).setRem 0).ntStep (t.sec * ntSecond + t.sub * 2 ^ 16)

/-- STEP (R432). -/
def Hw.ntStepBy (h : Hw) : Hw :=
  h.timeCommand fun h =>
    let i : Int := signedOf 64 (h.get (R.TIME_ADJ_W_W 0) + 2 ^ 32 * h.get (R.TIME_ADJ_W_W 1)) * 2 ^ 16
    let h := h.uncarried
    let valid := h.flag R.TIME_STAT_NT_VALID
    if valid && !h.flag R.TIME_CTL_STEP_EN then h.setRem (h.rem + i)
    else (if valid then h.setRem 0 else h).ntStep (((h.nt : Int) + i) % ntTurn).toNat

def execSet (s : State) : Host.Outcome State Fault Refusal := s.effect fun h => h.ntSet
def execStep (s : State) : Host.Outcome State Fault Refusal := s.effect fun h => h.ntStepBy

/-- A write of TIME_ADJ_CMD. -/
def Hw.writeAdjCmd (h : Hw) (v : Word) : Hw :=
  match fieldOf v R.TIME_ADJ_CMD_OP with
  | 1 => h.ntSet
  | 2 => h.ntStepBy
  | _ => h.unheld id

/-- TRIM_BOUNDARY (R429, R431): time passes to the next boundary, which gives its trim. -/
def execTrimBoundary (s : State) : Host.Outcome State Fault Refusal :=
  s.effect fun h => if h.tbLock then h.advance (512 - h.et % 512) else h

/-- SLEW_ABORT (R431). -/
def Hw.slewAbort (h : Hw) : Hw := h.setRem 0
def execSlewAbort (s : State) : Host.Outcome State Fault Refusal := s.effect fun h => h.slewAbort

/-! ### The lock of the time base -/

/-- The time base is not locked any more (R427). -/
def Hw.tbLost (h : Hw) : Hw :=
  if h.tbLock then
    let h := { h.settleDebts with tbLock := false }
    let h := ((h.set R.TIME_STAT_TB_LOCK 0).set R.TIME_STAT_TB_LOST_EV 1).set R.TIME_STAT_NT_VALID 0
    (List.range 8).foldl (fun h n => h.ppsIdle n) h
  else h

/-- TB_LOCK_LOST (R427). -/
def execTbLockLost (s : State) : Host.Outcome State Fault Refusal := s.effect fun h => h.tbLost

/-- The time base locks (R426, R427, R435): periodic pulses on elapsed time go on with the next one still to come. -/
def Hw.tbLocked (h : Hw) : Hw :=
  if h.tbLock then h
  else
    let h := ({ h with tbLock := true }).set R.TIME_STAT_TB_LOCK 1
    let h := h.modChannel 0 fun k => { k with debtAt := h.et }
    let h := h.modChannel 1 fun k => { k with debtAt := h.et }
    (List.range 8).foldl (fun h n =>
      if h.ppsElapsed n && h.ppsMode n = 2 then h.setPulse n { h.pulse n with next := some (h.ppsFirst n) } else h) h

/-! ### Path steps and holdover -/

/-- A hold ends (R446, R447). -/
def Hw.holdEnd (h : Hw) : Hw :=
  match h.time.holdPort with
  | some p =>
    let h := { h with time := { h.time with holdPort := none } }
    ((h.set (R.TIME_PSTAT_REF_VALID p) 0).set R.TIME_STAT_HOLD 0).stop .servoHold
  | none => h

/-- HOLD_EXPIRE and HOLD_END (R447). -/
def execHoldExpire (s : State) : Host.Outcome State Fault Refusal := s.effect fun h => h.onTimer .servoHold fun h => h.holdEnd
def execHoldEnd (s : State) : Host.Outcome State Fault Refusal := s.effect fun h => h.holdEnd

/-- The length of a hold in ns (R447). -/
def Hw.holdTime (h : Hw) : Nat :=
  let l := h.getI R.TIME_PATH_CFG_LOG_SYNC
  h.get R.TIME_PATH_CFG_HOLD_N * (1000000000 * 2 ^ (l + 7).toNat / 2 ^ 7)

/-- PATH_WRITE (R446): a mean path delay of port `p`. -/
def Hw.pathWrite (h : Hw) (p : Nat) (v : Word) : Hw :=
  let h := h.set (R.TIME_PATH_PATH p) v.toNat
  if h.flag R.TIME_STAT_HOLD ∧ h.time.holdPort = some p then h
  else if !h.flag (R.TIME_PSTAT_REF_VALID p) then (h.set (R.TIME_PATH_REF_REF p) v.toNat).set (R.TIME_PSTAT_REF_VALID p) 1
  else if h.get R.TIME_PATH_CFG_THRESH * 2 ^ 16 < (v.toInt - h.getI (R.TIME_PATH_REF_REF p)).natAbs then
    let h := (h.set (R.TIME_PSTAT_PATH_STEP_EV p) 1).bump (R.TIME_CNT_PSTEP_CNT p)
    if p = h.get R.TIME_SERVO_PORT ∧ h.get R.TIME_PATH_CFG_HOLD_N ≠ 0 ∧ !h.flag R.TIME_STAT_HOLD then
      let h := { h with time := { h.time with holdPort := some p } }
      (h.set R.TIME_STAT_HOLD 1).start .servoHold h.holdTime
    else h
  else h.set (R.TIME_PATH_REF_REF p) v.toNat

def execPathWrite (p : Fin 15) (v : Word) (s : State) : Host.Outcome State Fault Refusal := s.effect fun h => h.pathWrite p v

/-! ### Queues -/

/-- POP of a time-stamp queue (R445). -/
def Hw.tsqPop (h : Hw) (p : Nat) : Hw :=
  let q := (kgetD [] h.time.tsq p).tail
  ({ h with time := { h.time with tsq := kput h.time.tsq p q } }).set (R.TIME_PSTAT_LEVEL p) q.length

def execPop (p : Fin 15) (s : State) : Host.Outcome State Fault Refusal := s.effect fun h => h.tsqPop p

def Hw.caps (h : Hw) (n : Nat) : List CapEntry := kgetD [] h.time.caps n
def Hw.setCaps (h : Hw) (n : Nat) (l : List CapEntry) : Hw :=
  ({ h with time := { h.time with caps := kput h.time.caps n l } }).set (R.TIME_CAP_STAT_LEVEL n) l.length

/-- CAPTURE_EDGE (R451). -/
def execCaptureEdge (n : Fin 4) (rising : Bool) (s : State) : Host.Outcome State Fault Refusal :=
  s.effect fun h =>
    if h.tbLock && (h.get (R.TIME_CAP_CTL_EDGE n)).testBit (if rising then 0 else 1) then
      if (h.caps n).length < 4 then
        h.setCaps n (h.caps n ++ [⟨stampOf h.nt, rising, h.flag R.TIME_STAT_NT_VALID, h.get R.TIME_STAT_STEP_CNT⟩])
      else (h.set (R.TIME_CAP_STAT_OVF_EV n) 1).bump (R.TIME_CAP_STAT_OVF_CNT n)
    else h

/-- CAPTURE_POP (R451). -/
def Hw.capPop (h : Hw) (n : Nat) : Hw := h.setCaps n (h.caps n).tail
def execCapturePop (n : Fin 4) (s : State) : Host.Outcome State Fault Refusal := s.effect fun h => h.capPop n

/-- A write of TIME_CAP_n_CTL: EDGE = 0 empties the queue. -/
def Hw.writeCapCtl (h : Hw) (n : Nat) (v : Word) : Hw :=
  let h := h.writeFields (R.TIME_CAP_CTL n) v
  if h.get (R.TIME_CAP_CTL_EDGE n) = 0 then h.setCaps n [] else h

/-- The words of a capture entry (R451). -/
def CapEntry.word (e : CapEntry) (w : Nat) : Nat :=
  match w with
  | 0 => e.stamp.sub % 2 ^ 32
  | 1 => e.stamp.sub / 2 ^ 32 % 2 ^ 16 + (if e.rising then 2 ^ 16 else 0) + (if e.ntValid then 2 ^ 17 else 0) + e.stepCnt % 256 * 2 ^ 24
  | 2 => e.stamp.sec % 2 ^ 32
  | 3 => e.stamp.sec / 2 ^ 32 % 2 ^ 16
  | _ => 0

/-! ### Registers (R454 to R456) -/

/-- A write of TIME_CTL. -/
def Hw.writeTimeCtl (h : Hw) (v : Word) : Hw :=
  let h := h.writeFields R.TIME_CTL v
  let h := if fieldOf v R.TIME_CTL_SLEW_ABORT = 1 then h.slewAbort else h
  if fieldOf v R.TIME_CTL_HOLD_END = 1 then h.holdEnd else h

/-- A write of TIME_PATH_CFG: LOG_SYNC is clamped. -/
def Hw.writePathCfg (h : Hw) (v : Word) : Hw :=
  let h := h.writeFields R.TIME_PATH_CFG v
  h.setI R.TIME_PATH_CFG_LOG_SYNC (clampInt (-7) 4 (h.getI R.TIME_PATH_CFG_LOG_SYNC))

/-- A write of TIME_SERVO. -/
def Hw.writeServo (h : Hw) (v : Word) : Hw :=
  if fieldOf v R.TIME_SERVO_PORT = 15 then h.set R.TIME_STAT_CFG_ERR 1 else h.writeFields R.TIME_SERVO v

/-- One microsecond of ET_ERR in the unit in which it accumulates. -/
def etErrUnit : Nat := 64000000000

/-- ET_ERR in whole µs, rounded up (R436). -/
def Hw.etErrMicros (h : Hw) : Nat := min ((h.etErr + etErrUnit - 1) / etErrUnit) (2 ^ 32 - 1)

/-- The words of the registers of R454 that follow the clocks and the queues; none: another register. -/
def Hw.timeRead (h : Hw) (a : Nat) : Option Nat :=
  let s := stampOf h.nt
  if a = R.TIME_NT_SUB0 then some (s.sub % 2 ^ 32)
  else if a = R.TIME_NT_SUB1 then some (s.sub / 2 ^ 32)
  else if a = R.TIME_NT_S0 then some (s.sec % 2 ^ 32)
  else if a = R.TIME_NT_S1 then some (s.sec / 2 ^ 32)
  else if a = R.TIME_SLEW_REM_LO then some (unsignedOf 32 (Int.tdiv h.rem (2 ^ 16)))
  else if a = R.TIME_SLEW_REM_HI then some (unsignedOf 64 (Int.tdiv h.rem (2 ^ 16)) / 2 ^ 32)
  else if a = R.TIME_ET_LO then some (h.et % 2 ^ 32)
  else if a = R.TIME_ET_HI then some (h.et / 2 ^ 32 % 2 ^ 32)
  else if a = R.TIME_ET_ERR then some h.etErrMicros
  else if a = R.TIME_STAT then some (setBitsOf (h.word a) 2 1 (if h.rem = 0 then 0 else 1)).toNat
  else if R.TIME_ASYM 0 ≤ a ∧ a < R.TIME_ASYM 15 then
    let p := (a - R.TIME_ASYM 0) / 0x100
    let o := (a - R.TIME_ASYM 0) % 0x100
    if 0x20 ≤ o ∧ o < 0x40 then
      some (match kgetD [] h.time.tsq p with
        | e :: _ => e.word ((o - 0x20) / 4)
        | [] => 0)
    else none
  else if R.TIME_CAP_CTL 0 ≤ a ∧ a < R.TIME_CAP_CTL 4 then
    let n := (a - R.TIME_CAP_CTL 0) / 0x20
    let o := (a - R.TIME_CAP_CTL 0) % 0x20
    if 0x10 ≤ o then
      some (match h.caps n with
        | e :: _ => e.word ((o - 0x10) / 4)
        | [] => 0)
    else none
  else if R.TIME_PPS_CTL 0 ≤ a ∧ a < R.TIME_PPS_CTL 8 then
    let n := (a - R.TIME_PPS_CTL 0) / 0x20
    let w := (a - R.TIME_PPS_CTL 0) % 0x20 / 4
    if (w = 2 ∧ !h.ppsElapsed n) ∨ ((w = 3 ∨ w = 4) ∧ h.ppsElapsed n) then some 0 else none
  else none

/-- A write of a register of the TIME block. -/
def Hw.timeWrite (h : Hw) (a : Nat) (v : Word) : Hw :=
  if a = R.TIME_CTL then h.writeTimeCtl v
  else if a = R.TIME_RATE then h.unheld fun h => h.writeFields a v
  else if a = R.TIME_ADJ_CMD then h.writeAdjCmd v
  else if a = R.TIME_ET_ERR then { h with etErr := v.toNat * etErrUnit }
  else if a = R.TIME_RES then (h.writeFields a v).set R.TIME_RES_MAX (max 1 (fieldOf v R.TIME_RES_MAX))
  else if a = R.TIME_PATH_CFG then h.writePathCfg v
  else if a = R.TIME_SERVO then h.writeServo v
  else if R.TIME_PPS_CTL 0 ≤ a ∧ a < R.TIME_PPS_CTL 8 then
    let n := (a - R.TIME_PPS_CTL 0) / 0x20
    if a = R.TIME_PPS_CTL n then h.ppsModeWrite n v else h.writePps n a v
  else if R.TIME_CAP_CTL 0 ≤ a ∧ a < R.TIME_CAP_CTL 4 then
    let n := (a - R.TIME_CAP_CTL 0) / 0x20
    if a = R.TIME_CAP_CTL n then h.writeCapCtl n v
    else if a = R.TIME_CAP_POP n then (if v.getLsbD 0 then h.capPop n else h)
    else h.writeFields a v
  else if R.TIME_ASYM 0 ≤ a ∧ a < R.TIME_ASYM 15 then
    let p := (a - R.TIME_ASYM 0) / 0x100
    if a = R.TIME_PATH p then h.pathWrite p v
    else if a = R.TIME_TSQ_POP p then (if v.getLsbD 0 then h.tsqPop p else h)
    else h.writeFields a v
  else h.writeFields a v

end Sys2Proof.Machine
end

