-- ==== Sys2Proof/Machine/Reset.lean ====
section
/-!
DEFINITION. The OTP fuses and their shadows (R514 to R516), and the main-domain reset (R566): what it returns to its
reset value and what it keeps.
-/
namespace Sys2Proof.Machine

/-! ### OTP (R514 to R516) -/

/-- The fuses of a word: words 24 to 63 are programmed by Cethar. -/
def Hw.fuse (h : Hw) (w : Nat) : Word := if 24 ≤ w ∧ w < 64 then Config.factoryWord w else kgetD 0 h.iltil.otp w

/-- More bits of a word are programmed: no programmed bit returns to 0. -/
def Hw.burn (h : Hw) (w : Nat) (v : Word) : Hw :=
  { h with iltil := { h.iltil with otp := kput h.iltil.otp w (kgetD 0 h.iltil.otp w ||| v) } }

/-- What a read of a word gives: its shadow; word 112 and the counter read through. -/
def Hw.otpWord (h : Hw) (w : Nat) : Word :=
  if (24 ≤ w ∧ w < 64) ∨ (112 ≤ w ∧ w ≤ 116) then h.fuse w else kgetD 0 h.iltil.shadow w

/-- Copy `c` of lifecycle group `g` reads all ones, and any bit of the group is set (R516). -/
def Hw.copyFull (h : Hw) (g c : Nat) : Bool :=
  h.otpWord (6 * g + 2 * c) == BitVec.allOnes 32 && h.otpWord (6 * g + 2 * c + 1) == BitVec.allOnes 32
def Hw.groupAny (h : Hw) (g : Nat) : Bool := (List.range 6).any fun i => h.otpWord (6 * g + i) != 0

/-- A lifecycle group is complete (R516). -/
def Hw.groupComplete (h : Hw) (g : Nat) : Bool := decide (2 ≤ ((List.range 3).filter (h.copyFull g)).length)

/-- A group with some bit set that is not complete (R516). -/
def Hw.groupTorn (h : Hw) (g : Nat) : Bool := h.groupAny g && !h.groupComplete g

/-- The lifecycle state that the fuses give: Blank, Provisioned, Secured, Returned, Retired (R516). -/
def Hw.lifecycleOf (h : Hw) : Nat :=
  if h.groupComplete 3 then 4 else if h.groupComplete 2 then 3 else if h.groupComplete 1 then 2
  else if h.groupComplete 0 then 1 else 0

/-- Iltil loads the shadows and the lifecycle state (R515, R538, R565). -/
def Hw.loadShadows (h : Hw) : Hw :=
  let h := { h with iltil := { h.iltil with shadow := h.iltil.otp } }
  (h.set R.ILT_LC_STAT_STATE h.lifecycleOf).setFlag R.ILT_LC_STAT_TORN ((List.range 4).any h.groupTorn)

/-- The state in force. -/
def Hw.lifecycle (h : Hw) : Nat := h.get R.ILT_LC_STAT_STATE
def lcBlank : Nat := 0
def lcProvisioned : Nat := 1
def lcSecured : Nat := 2
def lcReturned : Nat := 3
def lcRetired : Nat := 4

/-- The words a lifecycle command programs, in order (R517): RETURN zeroises first. -/
def lifecycleWords (op : Nat) : List Nat :=
  (if op = 3 then (List.range 48).map (64 + ·) ++ (List.range 32).map (117 + ·) else []) ++
    (List.range 6).map (6 * (op - 1) + ·)

/-- A word whose programming is cut off holds any subset of its data (R515, R518). -/
def Hw.burnSome (h : Hw) (w : Nat) (v : Word) : Hw := (h.burn w (v &&& BitVec.ofNat 32 h.freeNat)).drawn

/-- Programming in progress is cut off by a reset or a loss of power (R515, R518). -/
def Hw.cutProgramming (h : Hw) : Hw :=
  let h := match h.iltil.otpJob with
    | some (w, v) => h.burnSome w v
    | none => h
  let h := match h.iltil.lcJob with
    | some op => (lifecycleWords op).foldl (fun (h : Hw) w => h.burnSome w (BitVec.allOnes 32)) h
    | none => h
  { h with iltil := { h.iltil with otpJob := none, lcJob := none } }

/-! ### The main-domain reset (R566) -/

/-- The registers after a main-domain reset: the HEEL block and the RWS bits keep their values. -/
def resetRegs (regs : NMap Word) : NMap Word :=
  regs.filterMap fun x =>
    if x.1 / 0x100000 = 0x401 then some x
    else
      match regRow x.1 with
      | none => none
      | some r =>
        if r.rws = 0 then none
        else some (x.1, (x.2 &&& BitVec.ofNat 32 r.rws) ||| (BitVec.ofNat 32 r.reset &&& ~~~(BitVec.ofNat 32 r.rws)))

/-- The timers of the Heel, which no main-domain reset stops. -/
def heelTimer (t : TimerId) : Bool :=
  match t with
  | .wakeTry _ => true
  | .refWindow => true
  | .offWait => true
  | .watch => true
  | _ => false

/-- The memories that lose their contents with the power of the main domains: shared SRAM and the Awl memories (R246,
R484). -/
def losesContents (a : Nat) : Bool :=
  (decide (0x10000000 ≤ a) && decide (a < 0x11800000)) || (decide (0x20000000 ≤ a) && decide (a < 0x20800000))

/-- Memory without the cells that a loss of contents takes: they read as memory nothing has written. -/
def Hw.loseMemory (h : Hw) (p : Nat → Bool) : Hw := { h with mem := h.mem.filter fun x => !p x.1 }

/-- The units of the main domains as a reset leaves them. -/
def Hw.resetUnits (h : Hw) : Hw :=
  { h with
    regs := resetRegs h.regs
    nt := 0, rem := 0, tbLock := false
    timers := h.timers.filter fun x => heelTimer x.1
    latches := []
    time := ⟨[], [], none, [], [], none⟩
    speed := ⟨none, 0, 0, false, none, [], false⟩
    slices := [], chains := [], ldpc := ⟨[], []⟩, txStatus := []
    fabric := ⟨[], [], 0, 0, [], [], [], 7, [], [], [], []⟩
    traffic := ⟨[], [], [], h.et⟩
    shank := ⟨[], [], [], []⟩
    dram := { h.dram with channels := [] }
    awl := ⟨[], [], [], [], [], []⟩
    bench := ⟨[], [], []⟩
    last := [], coex := []
    welt := ⟨[], [], [], [], [], [], [], [], [], [], [], 0, [], [], []⟩
    wire := [], eth := [], router := ⟨[], []⟩, lanes := [], fifo := []
    uzovi := ⟨[], [], [], 0⟩ }

/-- The main domains go into reset, which will record `cause`; `power` tells that they lose their power with it.
Programming in progress is cut off; the debug session ends (R515, R536, R566). -/
def Hw.mainReset (h : Hw) (cause : Nat) (power : Bool) : Hw :=
  let rec0 := h.word R.SYS_RST_REC
  let h := h.cutProgramming.resetUnits
  let h := if power then h.loseMemory losesContents else h
  -- The record of the last reset stands until the release writes it (R569).
  let h := h.setWord R.SYS_RST_REC rec0
  { h with
    iltil := { h.iltil with wanted := 0 }
    boot := { h.boot with reset := some cause, powerLoss := power || h.boot.powerLoss, waits := true, restored := false,
                          recovery := false, header := [] } }

/-- The Heel's pending slot is emptied and its request, if any, counted in REPLACED (R543, R546). -/
def Hw.dropSlot (h : Hw) : Hw :=
  if h.flag R.HEEL_PS_STAT_PEND then
    ((h.set R.HEEL_PS_STAT_PEND 0).set R.HEEL_PS_STAT_PEND_TGT 0).bump R.HEEL_CNT1_REPLACED
  else h

end Sys2Proof.Machine
end

