-- ==== Sys2Proof/Machine/Iltil.lean ====
section
/-!
DEFINITION. Iltil: lifecycle commands (R517 to R519), OTP programming (R515), image verification and the load of the
access tables (R520 to R522, R530), the security version counter (R523), the random source (R525), the key ladder and
the identity key (R526 to R528), the lock of the tables (R531) and debug sessions (R532 to R536).
-/
namespace Sys2Proof.Machine

/-! ### Words and secrets -/

/-- The bytes of words, the first byte the most significant of the lowest word (R514, R369). -/
def wordsBytes (ws : List Word) : List Byte := ws.flatMap fun w => bytesBE 4 w.toNat

/-- The words of bytes, in the same order. -/
def bytesWord (bs : List Byte) (w : Nat) : Word := BitVec.ofNat 32 (ofBytesBE ((bs.drop (4 * w)).take 4))

def Hw.otpWords (h : Hw) (w n : Nat) : List Word := (List.range n).map fun i => h.otpWord (w + i)
def Hw.otpBytes (h : Hw) (w n : Nat) : List Byte := wordsBytes (h.otpWords w n)

/-- A slot is programmed: its words are neither all 0 nor all 1 (R514). -/
def Hw.slotProgrammed (h : Hw) (w n : Nat) : Bool :=
  (h.otpWords w n).any (· != 0) && (h.otpWords w n).any (· != BitVec.allOnes 32)

/-- Root slot `k` and its revocation bit. -/
def Hw.rootProgrammed (h : Hw) (k : Nat) : Bool := h.slotProgrammed (64 + 12 * k) 12
def Hw.rootRevoked (h : Hw) (k : Nat) : Bool := (h.otpWord 112).getLsbD k

/-- The lowest words of the slots of R514. -/
def otpDeviceSecret : Nat := 26
def otpRmaHash : Nat := 34
def otpObserveHash : Nat := 117
def otpFullHash : Nat := 129
def otpRootSecret : Nat := 141

/-- The security version counter (R523). -/
def Hw.securityVersion (h : Hw) : Nat :=
  ((List.range 128).filter fun i => (h.fuse (113 + i / 32)).getLsbD (i % 32)).length

/-- Iltil takes lifecycle, OTP and debug commands (R540): the power state is Run. -/
def Hw.inRun (h : Hw) : Bool := h.get R.HEEL_PS_STAT_STATE == 0

/-- A Full debug session is open. -/
def Hw.fullSession (h : Hw) : Bool := h.get R.ILT_DBG_STAT_LEVEL == 2

/-- A command that meets its own function busy is discarded (R540). -/
def Hw.discarded (h : Hw) : Hw := h.set R.ILT_ACC_STAT_CFG_ERR 1

/-! ### Debug sessions (R532 to R536) -/

/-- The session closes: the level returns to Closed (R536). -/
def Hw.closeDebug (h : Hw) : Hw :=
  if h.get R.ILT_DBG_STAT_LEVEL = 0 then h
  else
    (((h.set R.ILT_DBG_STAT_LEVEL 0).set R.ILT_DBG_STAT_KEY_USED 0).set R.ILT_DBG_CTL_SLEEP_OK 0).set R.ILT_DBG_STAT_CHG_EV 1

/-- A session opens at a level, with the key that opened it. -/
def Hw.openDebug (h : Hw) (level key : Nat) : Hw :=
  let h := if h.get R.ILT_DBG_STAT_LEVEL = level then h else h.set R.ILT_DBG_STAT_CHG_EV 1
  (h.set R.ILT_DBG_STAT_LEVEL level).set R.ILT_DBG_STAT_KEY_USED key

/-- How a level opens (R533): without authentication, by one of the keys of KEY_USED, or never. -/
inductive DebugAccess where
  | free
  | keys (ks : List Nat)
  | never
deriving DecidableEq, Repr

def debugAccess (state level : Nat) : DebugAccess :=
  match state, level with
  | 0, _ => .free
  | 1, 1 => .free
  | 1, _ => .keys [2]
  | 2, 1 => .keys [1, 2]
  | 2, _ => .keys [2]
  | 3, _ => .keys [3]
  | _, 1 => .free
  | _, _ => .never

/-- The OTP slot of a key of KEY_USED. -/
def debugSlot (key : Nat) : Nat := match key with
  | 1 => otpObserveHash
  | 2 => otpFullHash
  | _ => otpRmaHash

/-- The live challenge is discarded (R534). -/
def Hw.dropChallenge (h : Hw) : Hw := (h.set R.ILT_DBG_STAT_CHAL_VALID 0).stop .challenge

/-- Iltil draws 32 random bits for itself (R525); a stopped source gives none. -/
def Hw.randomBits (h : Hw) : Hw × Word :=
  if h.flag R.ILT_RNG_STAT_FAIL then (h, 0) else (h.drawn, Config.randomWord h.free)

/-- A read of ILT_RNG (R525): fresh bits; of a stopped source, 0 with VALID = 0. -/
def Hw.draw (h : Hw) : Hw × Word :=
  if h.flag R.ILT_RNG_STAT_FAIL then (h.set R.ILT_RNG_STAT_VALID 0, 0)
  else (h.drawn.set R.ILT_RNG_STAT_VALID 1, Config.randomWord h.free)

/-- A challenge for `level` (R534): a nonce of 32 bytes and the device ID; its lifetime is 10 s of elapsed time. -/
def Hw.challenge (h : Hw) (level : Nat) : Hw :=
  if h.flag R.ILT_RNG_STAT_FAIL then h
  else
    let h := (List.range 8).foldl (fun (h : Hw) w => let (h, v) := h.randomBits; h.setWord (R.ILT_DBG_CHAL w) v) h
    let h := (h.setWord (R.ILT_DBG_CHAL 8) (h.otpWord 24)).setWord (R.ILT_DBG_CHAL 9) (h.otpWord 25)
    let h := { h with iltil := { h.iltil with wanted := level } }
    (h.set R.ILT_DBG_STAT_CHAL_VALID 1).start .challenge 10000000000

/-- REQ (R533, R534): the debug port asks for a level. -/
def Hw.debugRequest (h : Hw) (level : Nat) : Hw :=
  if !h.inRun || level = 0 || level = 3 then h
  else
    let h := h.dropChallenge
    if h.flag R.ILT_DBG_STAT_LOCKOUT then h
    else
      match debugAccess h.lifecycle level with
      | .free => h.openDebug level 0
      | .keys ks => if ks.any fun k => h.slotProgrammed (debugSlot k) 12 then h.challenge level else h
      | .never => h

def execReq (level : BitVec 2) (s : State) : Host.Outcome State Fault Refusal := s.effect fun h => h.debugRequest level.toNat

/-- A VERIFY fails (R534). -/
def Hw.verifyFails (h : Hw) : Hw :=
  let h := h.bump R.ILT_DBG_STAT_FAILS
  if h.get R.ILT_DBG_STAT_FAILS = 3 then h.set R.ILT_DBG_STAT_LOCKOUT 1 else h

/-- VERIFY (R534): the debugger's key and its signature over the challenge and the level byte are checked. -/
def Hw.debugVerify (h : Hw) : Hw :=
  if !h.inRun then h
  else if !h.flag R.ILT_DBG_STAT_CHAL_VALID then h.verifyFails
  else
    let h := h.dropChallenge
    let level := h.iltil.wanted
    let key := wordsBytes ((List.range 24).map fun w => h.word (R.ILT_DBG_KEY w))
    let sig := wordsBytes ((List.range 24).map fun w => h.word (R.ILT_DBG_SIG w))
    let chal := wordsBytes ((List.range 10).map fun w => h.word (R.ILT_DBG_CHAL w))
    let hash := Config.sha384 (4#8 :: key)
    let found := match debugAccess h.lifecycle level with
      | .keys ks => ks.find? fun k => h.slotProgrammed (debugSlot k) 12 && hash == h.otpBytes (debugSlot k) 12
      | _ => none
    match found with
    | some k =>
      if Config.ecdsaVerify key sig (Config.sha384 (chal ++ [BitVec.ofNat 8 level])) then h.openDebug level k else h.verifyFails
    | none => h.verifyFails

def execVerify (s : State) : Host.Outcome State Fault Refusal := s.effect fun h => h.debugVerify

/-- CHALLENGE_EXPIRE (R534). -/
def execChallengeExpire (s : State) : Host.Outcome State Fault Refusal :=
  s.effect fun h => h.onTimer .challenge fun h => h.set R.ILT_DBG_STAT_CHAL_VALID 0

/-- DEBUG_CLOSE (R536). -/
def Hw.debugClose (h : Hw) : Hw := if h.inRun then h.closeDebug else h
def execDebugClose (s : State) : Host.Outcome State Fault Refusal := s.effect fun h => h.debugClose

/-- A write of ILT_DBG_CTL by master `m` (R534, R536): only the debug port's write acts. -/
def Hw.writeDbgCtl (h : Hw) (m : Nat) (v : Word) : Hw :=
  if m ≠ 25 ∨ !h.inRun then h
  else
    let h := if fieldOf v R.ILT_DBG_CTL_CLOSE = 1 then h.debugClose else h
    let h := if h.get R.ILT_DBG_STAT_LEVEL = 0 then h else h.set R.ILT_DBG_CTL_SLEEP_OK (fieldOf v R.ILT_DBG_CTL_SLEEP_OK)
    let h := if fieldOf v R.ILT_DBG_CTL_VERIFY = 1 then h.debugVerify else h
    h.debugRequest (fieldOf v R.ILT_DBG_CTL_REQ)

/-! ### Lifecycle (R517 to R519) -/

/-- The confirmation value of a command (R517). -/
def lifecycleKey (op : Nat) : Nat := match op with
  | 1 => 0x50524F56
  | 2 => 0x53454355
  | 3 => 0x5245544E
  | _ => 0x52545244

/-- The states a command leads from (R517). -/
def lifecycleFrom (op state : Nat) : Bool := match op with
  | 1 => state == lcBlank
  | 2 => state == lcProvisioned
  | 3 => state == lcProvisioned || state == lcSecured
  | _ => state != lcRetired

/-- The issuer and the session that a command needs (R517). -/
def Hw.lifecycleAllowed (h : Hw) (m op : Nat) : Bool := match op with
  | 1 => m == 0
  | 2 => m == 0 && h.flag R.ILT_BOOT_STAT_VERIFIED
  | 3 => m == 25 && h.fullSession && h.get R.ILT_DBG_STAT_KEY_USED == 2
  | _ => m == 0 || (m == 25 && h.fullSession)

/-- What a lifecycle command answers at its check (R517, R518). -/
def Hw.lifecycleCheck (h : Hw) (m op : Nat) : Nat :=
  if h.flag R.ILT_LC_STAT_TORN ∧ !(decide (1 ≤ op) && decide (op ≤ 4) && h.groupTorn (op - 1)) then 5
  else if op = 0 ∨ 4 < op then 2
  else if !h.flag R.ILT_LC_STAT_TORN ∧ !lifecycleFrom op h.lifecycle then 1
  else if (h.word R.ILT_LC_ARG).toNat ≠ lifecycleKey op then 2
  else if !h.lifecycleAllowed m op then 3
  else if op = 1 ∧ !(((List.range 4).any h.rootProgrammed) && h.slotProgrammed otpFullHash 12) then 4
  else 0

/-- A lifecycle command of master `m` (R517): one that succeeds sets BUSY. -/
def Hw.lifecycleCommand (h : Hw) (m op : Nat) : Hw :=
  if !h.inRun then h
  else if h.flag R.ILT_LC_STAT_BUSY then h.discarded
  else
    let st := h.lifecycleCheck m op
    let h := h.set R.ILT_LC_STAT_STATUS st
    if st = 0 then { (h.set R.ILT_LC_STAT_BUSY 1) with iltil := { h.iltil with lcJob := some op } } else h

def execProvision (m : Fin 27) (s : State) : Host.Outcome State Fault Refusal := s.effect fun h => h.lifecycleCommand m 1
def execSecure (m : Fin 27) (s : State) : Host.Outcome State Fault Refusal := s.effect fun h => h.lifecycleCommand m 2
def execReturn (m : Fin 27) (s : State) : Host.Outcome State Fault Refusal := s.effect fun h => h.lifecycleCommand m 3
def execRetire (m : Fin 27) (s : State) : Host.Outcome State Fault Refusal := s.effect fun h => h.lifecycleCommand m 4

/-- LIFECYCLE_DONE (R517, R519): the words are programmed, the debug session closes, and the main-domain reset comes,
which discards the request in the Heel's slot. -/
def Hw.lifecycleDone (h : Hw) : Hw :=
  match h.iltil.lcJob with
  | none => h
  | some op =>
    let h := (lifecycleWords op).foldl (fun (h : Hw) w => h.burn w (BitVec.allOnes 32)) h
    let h := { h with iltil := { h.iltil with lcJob := none } }
    (h.closeDebug.dropSlot).mainReset 3 false

def execLifecycleDone (s : State) : Host.Outcome State Fault Refusal := s.effect fun h => h.lifecycleDone

/-! ### OTP programming (R514, R515) -/

/-- Whether firmware may program a word in a state (R514). -/
def otpProgrammable (state w : Nat) : Bool :=
  if (64 ≤ w ∧ w ≤ 111) ∨ (117 ≤ w ∧ w ≤ 148) then state == lcBlank || state == lcProvisioned
  else if w = 112 ∨ (149 ≤ w ∧ w ≤ 511) then state == lcBlank || state == lcProvisioned || state == lcSecured
  else false

/-- An OTP command ends with a status. -/
def Hw.otpEnds (h : Hw) (status : Nat) : Hw :=
  ((h.set R.ILT_OTP_STAT_BUSY 0).set R.ILT_OTP_STAT_STATUS status).set R.ILT_OTP_STAT_DONE_EV 1

/-- PROG (R515). -/
def Hw.otpProgram (h : Hw) : Hw :=
  if !h.inRun then h
  else if h.flag R.ILT_OTP_STAT_BUSY then h.discarded
  else
    let w := h.get R.ILT_OTP_ADDR_ADDR
    let v := h.word R.ILT_OTP_DATA
    let left := (List.range 4).any fun k => h.rootProgrammed k && !(h.fuse 112 ||| v).getLsbD k
    if !otpProgrammable h.lifecycle w then h.otpEnds 1
    else if w = 112 ∧ !left then h.otpEnds 2
    else { (h.set R.ILT_OTP_STAT_BUSY 1) with iltil := { h.iltil with otpJob := some (w, v) } }

def execProg (s : State) : Host.Outcome State Fault Refusal := s.effect fun h => h.otpProgram

/-- OTP_PROG_DONE (R515): `failed` are the bits the read-back shows still 0. -/
def Hw.otpDone (h : Hw) (failed : Word) : Hw :=
  match h.iltil.otpJob with
  | none => h
  | some (w, v) =>
    let h := h.burn w (v &&& ~~~failed)
    let h := { h with iltil := { h.iltil with otpJob := none } }
    h.otpEnds (if h.fuse w &&& v = v then 0 else 3)

def execOtpProgDone (failed : Word) (s : State) : Host.Outcome State Fault Refusal := s.effect fun h => h.otpDone failed

/-! ### Keys (R525 to R528) -/

/-- The key ladder (R526). -/
def ladder (root : List Byte) (label : Nat) (context : List Byte) : List Byte :=
  (Config.hmacSha384 root (bytesBE 4 1 ++ bytesBE 4 label ++ [0] ++ context ++ bytesBE 4 256)).take 32

def Hw.deviceSecret (h : Hw) : List Byte := h.otpBytes otpDeviceSecret 8
def Hw.rootSecret (h : Hw) : List Byte := h.otpBytes otpRootSecret 8

/-- The context of Iltil's own labels. -/
def noContext : List Byte := List.replicate 16 0

/-- The root serves in this state (R527, R533). -/
def Hw.rootServes (h : Hw) (crs : Bool) : Bool :=
  if crs then h.slotProgrammed otpRootSecret 8 && h.lifecycle != lcReturned && h.lifecycle != lcRetired
  else h.slotProgrammed otpDeviceSecret 8 && h.lifecycle != lcRetired

/-- The hardware slot whose first word an address is (R527): of WELT_KEY_k, or KEY_0 of a MACsec SA with its IN_USE. -/
inductive KeySlot where
  | welt (k : Nat)
  | sa (inUse : RF)
deriving DecidableEq, Repr

/-- The offset of an SA in a port's MACsec window (R369), as that of its KEY_0. -/
def isSaOffset (o : Nat) : Bool :=
  (decide (o < 0x100) && o % 0x40 == 0) ||
  (decide (0x400 ≤ o) && decide (o < 0x1400) && (o - 0x400) % 0x40 == 0 &&
    decide (1 ≤ (o - 0x400) % 0x200 / 0x40) && decide ((o - 0x400) % 0x200 / 0x40 ≤ 4))

def keySlotAt (a : Nat) : Option KeySlot :=
  let k := (a - R.WELT_KEY 0 0) / 32
  if R.WELT_KEY 0 0 ≤ a ∧ R.WELT_KEY k 0 = a ∧ (regRow a).any fun r => r.base = R.WELT_KEY 0 0 then some (.welt k)
  else if R.ETH_TX_KEY 0 0 0 ≤ a ∧ a < R.ETH_TX_KEY 8 0 0 ∧ isSaOffset ((a - R.ETH_TX_KEY 0 0 0) % 0x2000) then
    some (.sa ⟨a + 0x38, 0, 1⟩)
  else none

/-- A key command completes. -/
def Hw.keyEnds (h : Hw) (status : Nat) : Hw :=
  (h.set R.ILT_KL_STAT_STATUS status).set R.ILT_KL_STAT_DONE_EV 1

/-- The exported key is cleared (R527). -/
def Hw.clearKeyOut (h : Hw) : Hw := (List.range 8).foldl (fun (h : Hw) w => h.setWord (R.ILT_KL_OUT w) 0) h

/-- The key goes to its slot, as master 24's writes: `n` words of it (R527). -/
def Hw.writeKeySlot (h : Hw) (slot : KeySlot) (dest n : Nat) (key : List Byte) : Hw :=
  (List.range n).foldl (fun (h : Hw) w =>
    match slot with
    | .welt k => h.writeKey k w (bytesWord key w)
    | .sa inUse => h.writeSecret inUse (dest + 4 * w) (bytesWord key w)) h

/-- A slot discards a write of its key (R369). -/
def Hw.slotRefuses (h : Hw) (slot : KeySlot) : Bool := match slot with
  | .welt _ => false
  | .sa inUse => h.flag inUse

/-- A write of ILT_KL_CMD (R527): bit 0 chooses the root, bit 1 the length. -/
def Hw.keyDerive (h : Hw) (v : Word) : Hw :=
  let h := h.clearKeyOut
  let label := (h.word R.ILT_KL_LABEL).toNat
  let exportable := decide (2 ^ 31 ≤ label)
  let crs := fieldOf v R.ILT_KL_CMD_ROOT == 1
  let dest := h.pair R.ILT_KL_DEST_LO R.ILT_KL_DEST_HI
  if label ≤ 0xFF then h.keyEnds 2
  else if exportable ∧ h.fullSession ∧ h.lifecycle = lcSecured then h.keyEnds 5
  else if !h.rootServes crs then h.keyEnds 1
  else
    let context := wordsBytes ((List.range 4).map fun w => h.word (R.ILT_KL_CTX w))
    let key := ladder (if crs then h.rootSecret else h.deviceSecret) label context
    if exportable then
      ((List.range 8).foldl (fun (h : Hw) w => h.setWord (R.ILT_KL_OUT w) (bytesWord key w)) h).keyEnds 0
    else
      match keySlotAt dest with
      | none => h.keyEnds 3
      | some slot =>
        let refused := h.slotRefuses slot
        let h := h.writeKeySlot slot dest (if fieldOf v R.ILT_KL_CMD_LEN = 1 then 4 else 8) key
        h.keyEnds (if refused then 4 else 0)

def execKeyDerive (v : Word) (s : State) : Host.Outcome State Fault Refusal := s.effect fun h => h.keyDerive v

/-- A read of register `a` by master `m` finds its answer, or the refusal of R481, where `f` gives the word and what the
read leaves. -/
def Hw.readBy (h : Hw) (m a : Nat) (f : Hw → Hw × Word) : Hw :=
  let q : Request := ⟨m, none, false, a, 4, none, false, false⟩
  if !h.permits ((targetOf a).getD 0) m a false then h.replyError q 2
  else
    let (h, w) := f h
    h.reply q 0 (bytesLE 4 w.toNat)

/-- KL_OUT_READ (R527): a read of ILT_KL_OUT_7 clears all eight words. -/
def Hw.klOutRead (h : Hw) : Hw × Word := (h.clearKeyOut, h.word (R.ILT_KL_OUT 7))
def execKlOutRead (m : Fin 27) (s : State) : Host.Outcome State Fault Refusal :=
  s.effect fun h => h.readBy m (R.ILT_KL_OUT 7) fun h => h.klOutRead

/-- RNG_READ (R525). -/
def execRngRead (m : Fin 27) (s : State) : Host.Outcome State Fault Refusal :=
  s.effect fun h => h.readBy m R.ILT_RNG fun h => h.draw

/-- RNG_HEALTH_FAIL (R525). -/
def execRngHealthFail (s : State) : Host.Outcome State Fault Refusal :=
  s.effect fun h => (h.set R.ILT_RNG_STAT_FAIL 1).set R.ILT_RNG_STAT_VALID 0

/-- The identity seed (R526, R528). -/
def Hw.identitySeed (h : Hw) : List Byte := ladder h.deviceSecret 2 noContext

/-- SIGN (R528, R535). -/
def Hw.sign (h : Hw) : Hw :=
  let refused := h.lifecycle == lcRetired || (h.lifecycle == lcSecured && h.fullSession)
  let h := (h.setFlag R.ILT_ID_STAT_REFUSED refused).set R.ILT_ID_STAT_DONE_EV 1
  if refused then h
  else
    let digest := wordsBytes ((List.range 12).map fun w => h.word (R.ILT_ID_DIG w))
    let sig := Config.ecdsaSign h.identitySeed digest
    (List.range 24).foldl (fun (h : Hw) w => h.setWord (R.ILT_ID_SIG w) (bytesWord sig w)) h

def execSign (s : State) : Host.Outcome State Fault Refusal := s.effect fun h => h.sign

/-! ### The security version counter (R523) and the lock (R531) -/

/-- A write of ILT_SVN. -/
def Hw.writeSvn (h : Hw) (v : Word) : Hw :=
  let n := fieldOf v R.ILT_SVN_COUNT
  let h := if fieldOf v R.ILT_SVN_REFUSED = 1 then h.set R.ILT_SVN_REFUSED 0 else h
  let top := if h.flag R.ILT_BOOT_STAT_VERIFIED then h.get R.ILT_BOOT_STAT_SVN else 0
  if top < n ∨ 128 < n ∨ h.lifecycle = lcBlank ∨ h.lifecycle = lcRetired then h.set R.ILT_SVN_REFUSED 1
  else if n ≤ h.securityVersion then h
  else (List.range 4).foldl (fun (h : Hw) i => h.burn (113 + i) (BitVec.ofNat 32 (2 ^ (min 32 (n - 32 * i)) - 1))) h

def execSvnWrite (v : Word) (s : State) : Host.Outcome State Fault Refusal := s.effect fun h => h.writeSvn v

/-- A write of ILT_ACC_CTL (R531, R540): once set, LOCK stays. -/
def Hw.writeAccCtl (h : Hw) (v : Word) : Hw :=
  if h.flag R.ILT_ACC_CTL_LOCK then h.set R.ILT_ACC_STAT_CFG_ERR 1
  else if fieldOf v R.ILT_ACC_CTL_LOCK = 1 then h.set R.ILT_ACC_CTL_LOCK 1 else h

def execLockWrite (v : Word) (s : State) : Host.Outcome State Fault Refusal := s.effect fun h => h.writeAccCtl v

/-- A write of a table (R531). -/
def Hw.writeTable (h : Hw) (a : Nat) (v : Word) : Hw :=
  if h.flag R.ILT_ACC_CTL_LOCK then h.set R.ILT_ACC_STAT_CFG_ERR 1 else h.writeFields a v

/-! ### Secure boot (R520 to R522, R530) -/

/-- The fields of an image header (R520). -/
structure ImageHeader where
  bytes : List Byte
deriving DecidableEq, Repr

def ImageHeader.part (i : ImageHeader) (o n : Nat) : List Byte := (i.bytes.drop o).take n
def ImageHeader.num (i : ImageHeader) (o n : Nat) : Nat := ofBytesLE (i.part o n)
def ImageHeader.enc (i : ImageHeader) : Bool := (i.num 6 2).testBit 0
def ImageHeader.rma (i : ImageHeader) : Bool := (i.num 6 2).testBit 1
def ImageHeader.svn (i : ImageHeader) : Nat := i.num 8 4
def ImageHeader.keyIdx (i : ImageHeader) : Nat := i.num 12 4
def ImageHeader.load (i : ImageHeader) : Nat := i.num 16 8
def ImageHeader.entry (i : ImageHeader) : Nat := i.num 24 8
def ImageHeader.length (i : ImageHeader) : Nat := i.num 32 4
def ImageHeader.accOff (i : ImageHeader) : Nat := i.num 36 4
def ImageHeader.magic (i : ImageHeader) : Bool := i.num 0 4 == 0x314E5453

/-- The constant fields hold what R520 gives (code 1). -/
def ImageHeader.constant (i : ImageHeader) : Bool :=
  i.magic && i.num 4 2 == 1 && decide (i.num 6 2 < 4) && (i.part 116 12).all (· == 0) && (i.part 225 31).all (· == 0) &&
  (i.enc || (i.part 88 28).all (· == 0)) && (!i.rma || i.keyIdx == 0)

/-- The image lies in general SRAM (code 2). -/
def ImageHeader.placed (i : ImageHeader) : Bool :=
  i.load % 64 == 0 && i.length % 64 == 0 && decide (64 ≤ i.length) && decide (i.length ≤ 6 * 2 ^ 20) &&
  decide (0x11000000 ≤ i.load) && decide (i.load + i.length ≤ 0x11800000) &&
  decide (i.load ≤ i.entry) && decide (i.entry < i.load + i.length) &&
  (i.accOff == 2 ^ 32 - 1 || (i.accOff % 8 == 0 && decide (i.accOff < i.length)))

/-- A record of the access-table section (R530). -/
structure AccRecord where
  target : Nat
  window : Nat
  base : Nat
  limit : Nat
  rmask : Nat
  wmask : Nat
deriving DecidableEq, Repr

/-- A record of 40 bytes; none: it is malformed. -/
def accRecord (bs : List Byte) : Option AccRecord :=
  let num (o n : Nat) : Nat := ofBytesLE ((bs.drop o).take n)
  let r : AccRecord := ⟨num 0 1, num 1 1, num 8 8, num 16 8, num 24 8, num 32 8⟩
  let window := decide (r.window ≤ 15) && decide (r.base ≤ r.limit) && decide (r.limit < 2 ^ 40) && r.base % 4096 == 0
  if r.target ≤ 66 ∧ num 2 6 = 0 ∧ (r.window = 0xFF ∨ window) then some r else none

/-- The records of a section up to its end; none: it is malformed. -/
def accSection (bs : List Byte) (fuel : Nat) : Option (List AccRecord) :=
  match fuel with
  | 0 => none
  | fuel + 1 =>
    if bs.length < 40 then none
    else if bs.head? = some 0xFF then some []
    else
      match accRecord bs, accSection (bs.drop 40) fuel with
      | some r, some rs => some (r :: rs)
      | _, _ => none

/-- A register pair takes a 64-bit value. -/
def Hw.setPair (h : Hw) (lo hi v : Nat) : Hw := (h.setWord lo (BitVec.ofNat 32 v)).setWord hi (BitVec.ofNat 32 (v / 2 ^ 32))

/-- A record written to its window or default. -/
def Hw.loadRecord (h : Hw) (r : AccRecord) : Hw :=
  let (t, w) := (r.target, r.window)
  if w = 0xFF then
    (h.setPair (R.ILT_ACC_DEF_RMASK_LO t) (R.ILT_ACC_DEF_RMASK_HI t) r.rmask).setPair (R.ILT_ACC_DEF_WMASK_LO t)
      (R.ILT_ACC_DEF_WMASK_HI t) r.wmask
  else
    let h := (h.setPair (R.ILT_ACC_BASE_LO t w) (R.ILT_ACC_BASE_HI t w) r.base).setPair (R.ILT_ACC_LIMIT_LO t w)
      (R.ILT_ACC_LIMIT_HI t w) r.limit
    let h := (h.setPair (R.ILT_ACC_RMASK_LO t w) (R.ILT_ACC_RMASK_HI t w) r.rmask).setPair (R.ILT_ACC_WMASK_LO t w)
      (R.ILT_ACC_WMASK_HI t w) r.wmask
    h.setWord (R.ILT_ACC_EN t) (h.word (R.ILT_ACC_EN t) ||| BitVec.ofNat 32 (2 ^ w))

/-- A table register. -/
def isTable (a : Nat) : Bool := decide (0x40210000 ≤ a) && decide (a < 0x40210000 + 0x400 * 67)

/-- The tables of an image replace every window and default, and are locked (R522). -/
def Hw.loadTables (h : Hw) (rs : List AccRecord) : Hw :=
  let h := { h with regs := h.regs.filter fun x => !isTable x.1 }
  (rs.foldl (fun (h : Hw) r => h.loadRecord r) h).set R.ILT_ACC_CTL_LOCK 1

/-- The public key of a header and what checks 3 to 5 find. -/
def Hw.checkKey (h : Hw) (i : ImageHeader) : Nat :=
  let pub := i.part 128 97
  let hash := if i.rma then h.otpBytes otpRmaHash 12 else h.otpBytes (64 + 12 * i.keyIdx) 12
  if !i.rma ∧ (4 ≤ i.keyIdx ∨ !h.rootProgrammed i.keyIdx ∨ h.rootRevoked i.keyIdx) then 3
  else if Config.sha384 pub ≠ hash then 4
  else if !Config.ecdsaVerify (pub.drop 1) (i.part 256 96) (Config.sha384 (i.part 0 256)) then 5
  else if i.svn < h.securityVersion then 6
  else 0

/-- What the plaintext payload shows: its hash (code 8) and its section (code 9), with the records. -/
def Hw.checkPayload (h : Hw) (i : ImageHeader) (payload : List Byte) : Nat × List AccRecord :=
  if Config.sha384 payload ≠ i.part 40 48 then (8, [])
  else if h.lifecycle = lcBlank then (0, [])
  else if i.accOff = 2 ^ 32 - 1 then (9, [])
  else
    match accSection (payload.drop i.accOff) (i.length / 40 + 1) with
    | some rs => (0, rs)
    | none => (9, [])

/-- The checks of R521 in order: the code, the hardware with the payload decrypted in place, and the records. -/
def Hw.imageChecks (h : Hw) (i : ImageHeader) : Nat × Hw × List AccRecord :=
  if !i.constant then (1, h, [])
  else if !i.placed then (2, h, [])
  else if h.lifecycle = lcRetired then (11, h, [])
  else if i.rma ≠ (h.lifecycle == lcReturned) then (10, h, [])
  else
    match h.checkKey i with
    | 0 =>
      let stored := h.memBytes i.load i.length
      let plain := if i.enc then
          (if h.rootServes true then Config.gcmDecrypt (ladder h.rootSecret 1 noContext) (i.part 88 12) (i.part 100 16) stored
           else none)
        else some stored
      match plain with
      | none => (7, h, [])
      | some p =>
        let h := if i.enc then h.storeBytes i.load p else h
        let (c, rs) := h.checkPayload i p
        (c, h, rs)
    | c => (c, h, [])

/-- Iltil verifies an image whose payload stands at LOAD (R521, R522). -/
def Hw.imageVerify (h : Hw) (header : List Byte) : Hw :=
  let i : ImageHeader := ⟨header⟩
  let (code, h, rs) := h.imageChecks i
  let lenient := h.lifecycle == lcBlank && decide (3 ≤ code) && decide (code ≤ 8)
  let h := (h.set R.ILT_BOOT_STAT_RESULT code).setFlag R.ILT_BOOT_STAT_UNVERIFIED lenient
  if code ≠ 0 then h.set R.ILT_BOOT_STAT_VERIFIED 0
  else
    let h := if h.lifecycle = lcBlank then h else h.loadTables rs
    ((h.set R.ILT_BOOT_STAT_SLOT i.keyIdx).set R.ILT_BOOT_STAT_SVN i.svn).set R.ILT_BOOT_STAT_VERIFIED 1

/-- IMAGE_VERIFY: the ROM asks for it with the header of 352 bytes that it has read. -/
def execImageVerify (header : List Byte) (s : State) : Host.Outcome State Fault Refusal :=
  s.effectIf (header.length == 352) fun h => h.imageVerify header

/-! ### Registers (R539, R540) -/

/-- A write of a register of the ILT block by master `m`. -/
def Hw.iltWrite (h : Hw) (m a : Nat) (v : Word) : Hw :=
  if a = R.ILT_LC_CMD then h.lifecycleCommand m (fieldOf v R.ILT_LC_CMD_OP)
  else if a = R.ILT_SVN then h.writeSvn v
  else if a = R.ILT_OTP_CMD then (if v.getLsbD 0 then h.otpProgram else h)
  else if a = R.ILT_KL_CMD then h.keyDerive v
  else if a = R.ILT_DBG_CTL then h.writeDbgCtl m v
  else if R.ILT_DBG_KEY 0 ≤ a ∧ a < R.ILT_DBG_SIG 24 then (if m = 25 ∧ h.inRun then h.setWord a v else h)
  else if a = R.ILT_ACC_CTL then h.writeAccCtl v
  else if R.ILT_ID_DIG 0 ≤ a ∧ a < R.ILT_ID_DIG 12 then h.setWord a v
  else if a = R.ILT_ID_CMD then (if v.getLsbD 0 then h.sign else h)
  else if isTable a then h.writeTable a v
  else h.writeFields a v

/-- The words of the ILT block that are not stored as they read; none: another register. -/
def Hw.iltRead (h : Hw) (a : Nat) : Option Nat :=
  if a = R.ILT_DEV_ID_LO then some (h.otpWord 24).toNat
  else if a = R.ILT_DEV_ID_HI then some (h.otpWord 25).toNat
  else if a = R.ILT_SVN then some (h.securityVersion + 256 * h.get R.ILT_SVN_REFUSED)
  else if R.ILT_ID_PUB 0 ≤ a ∧ a < R.ILT_ID_PUB 24 then
    some (bytesWord (Config.ecdsaPublic h.identitySeed) ((a - R.ILT_ID_PUB 0) / 4)).toNat
  else if (R.ILT_DBG_KEY 0 ≤ a ∧ a < R.ILT_DBG_SIG 24) ∨ (R.ILT_ID_DIG 0 ≤ a ∧ a < R.ILT_ID_DIG 12) then some 0
  else none

end Sys2Proof.Machine
end

