-- ==== Sys2Proof/Machine/Speed.lean ====
section
/-!
DEFINITION. The speed sentinels and the AVS loop (R55 to R72): sweeps, the loop's decisions, and the transactions of
the AVS bus with their retries and settle times.
-/
namespace Sys2Proof.Machine

/-! ### Sentinel sweeps -/

/-- A sentinel's window ends with `count` completed oscillations: its count saturates at 4,095 and its slack is the
count less 2,048 (R55, R61). -/
def Hw.recordWindow (h : Hw) (n count : Nat) : Hw :=
  let c := min count 4095
  (h.set (R.SYS_SENT_STAT_COUNT n) c).setI (R.SYS_SENT_STAT_SLACK n) ((c : Int) - 2048)

/-- The smallest slack of the sixteen sentinels and the lowest sentinel that reports it (R60). -/
def Hw.minSlack (h : Hw) : Int × Nat :=
  (List.range 16).foldl (fun (m, k) n =>
    let s := h.getI (R.SYS_SENT_STAT_SLACK n)
    if s < m then (s, n) else (m, k)) (h.getI (R.SYS_SENT_STAT_SLACK 0), 0)

/-- The period of the sweeps in nanoseconds (R59). -/
def Hw.sweepPeriod (h : Hw) : Nat := 2 ^ h.get R.SYS_SENT_CTL_PER_EXP * 1000

/-! ### The AVS bus -/

/-- A voltage held within VMIN and VMAX (R63, R64, R71). -/
def Hw.clampVolts (h : Hw) (v : Nat) : Nat := clampNat (h.get R.SYS_AVS_LIM_VMIN) (h.get R.SYS_AVS_LIM_VMAX) v

/-- BUSY follows a transaction or a settle time in progress (R71). -/
def Hw.avsBusy (h : Hw) : Hw := h.setFlag R.SYS_AVS_STAT_BUSY (h.speed.transaction.isSome || h.running .avsSettle)

/-- A transaction begins on the rail selected now (R62, R70); a retry is due 10 µs later unless it is answered. A
request resets the run of ample sweeps (R63). -/
def Hw.avsSend (h : Hw) (k : AvsKind) : Hw :=
  let t := match k with
    | .readTarget => h.speed.target
    | .writeTarget v => v
  let h := { h with speed := { h.speed with transaction := some ⟨k, h.get R.SYS_AVS_LIM_RAIL, 0⟩, target := t, hiRun := 0 } }
  (h.start .avsRetry 10000).avsBusy

/-- The loop's decision from MIN_SLACK `m` (R63, R72): the voltage it wants. -/
def Hw.avsWants (h : Hw) (m : Int) : Nat :=
  let v := h.speed.target
  if m < 0 then h.get R.SYS_AVS_LIM_VMAX
  else if m < 4 * (h.get R.SYS_AVS_MAN_SLACK_LO : Int) then
    min (v + h.get R.SYS_AVS_CTL_STEP_UP) (h.get R.SYS_AVS_LIM_VMAX)
  else if 4 * (h.get R.SYS_AVS_MAN_SLACK_HI : Int) < m ∧ h.get R.SYS_AVS_CTL_HOLD ≤ h.speed.hiRun then
    max (v - h.get R.SYS_AVS_CTL_STEP_DN) (h.get R.SYS_AVS_LIM_VMIN)
  else v

/-- The Heel enters a power state, and the loop is suspended (R67, R551). -/
def Hw.avsSuspended (h : Hw) : Bool := h.get R.HEEL_PS_STAT_STATE == 1

/-- At the end of a sweep the loop counts ample sweeps and, with no request outstanding and no settle time running,
sends the voltage it wants where that differs (R63). An emergency that meets a transaction waits for its end (R67). The
loop stands still while the Heel enters a power state (R551). -/
def Hw.avsDecide (h : Hw) : Hw :=
  if h.get R.SYS_AVS_CTL_MODE = 1 ∧ h.speed.loop ∧ !h.avsSuspended then
    let m := h.getI R.SYS_SPEED_STAT_MIN_SLACK
    let run := if 4 * (h.get R.SYS_AVS_MAN_SLACK_HI : Int) < m then h.speed.hiRun + 1 else 0
    let h := { h with speed := { h.speed with hiRun := run } }
    if h.speed.transaction.isSome then
      if m < 0 then { h with speed := { h.speed with emergencyWaits := true } } else h
    else if h.running .avsSettle then h
    else
      let w := h.avsWants m
      if w = h.speed.target then h else h.avsSend (.writeTarget w)
  else h

/-- The MODE in force starts or stops the loop (R64, R66, R69): off and manual stop it; loop mode, with BUS_FAIL clear
and the loop not running, first reads the rail's target. -/
def Hw.avsModeEffect (h : Hw) : Hw :=
  match h.get R.SYS_AVS_CTL_MODE with
  | 1 => if h.speed.loop || h.flag R.SYS_AVS_STAT_BUS_FAIL then h else h.avsSend .readTarget
  | _ => { h with speed := { h.speed with loop := false, hiRun := 0, emergencyWaits := false } }

/-- A write takes effect (R67, R69, R71): MODE, or SYS_AVS_MAN, whose V, clamped, is sent in manual mode. -/
def Hw.avsWrite (h : Hw) (w : AvsWrite) : Hw :=
  match w with
  | .mode m => (h.set R.SYS_AVS_CTL_MODE m).avsModeEffect
  | .man v =>
    let h := h.writeFields R.SYS_AVS_MAN v
    if h.get R.SYS_AVS_CTL_MODE = 2 then h.avsSend (.writeTarget (h.clampVolts (h.get R.SYS_AVS_MAN_V))) else h

/-- A waiting emergency request is sent (R63, R67), while the loop runs. -/
def Hw.avsEmergency (h : Hw) : Hw :=
  if h.speed.emergencyWaits then
    let h := { h with speed := { h.speed with emergencyWaits := false } }
    let v := h.get R.SYS_AVS_LIM_VMAX
    if h.speed.loop && v != h.speed.target then h.avsSend (.writeTarget v) else h
  else h

/-- A write must wait: for the transaction in progress, or, where it starts the loop, for the end of a suspension. -/
def Hw.avsHolds (h : Hw) (w : AvsWrite) : Bool := h.speed.transaction.isSome || (h.avsSuspended && w == .mode 1)

/-- The writes `ws` take effect in their order, each as soon as it need not wait (R67); after the last, a waiting
emergency request is sent, while the loop is not suspended. -/
def Hw.avsServe (h : Hw) (ws : List AvsWrite) : Hw :=
  match ws with
  | [] =>
    let h := { h with speed := { h.speed with waits := [] } }
    if h.speed.transaction.isSome || h.avsSuspended then h else h.avsEmergency
  | w :: rest => if h.avsHolds w then { h with speed := { h.speed with waits := w :: rest } } else (h.avsWrite w).avsServe rest

/-- A write is taken behind those that wait (R67). -/
def Hw.avsTake (h : Hw) (w : AvsWrite) : Hw := h.avsServe (h.speed.waits ++ [w])

/-! ### The commands -/

/-- SENTINEL_WINDOW_END (R55): the sentinel being measured records its count; the next window of the sweep begins. -/
def execSentinelWindowEnd (count : Nat) (s : State) : Host.Outcome State Fault Refusal :=
  s.effect fun h => h.onTimer .sentWindow fun h =>
    match h.speed.sweepAt with
    | some n =>
      let h := h.recordWindow n count
      let h := { h with speed := { h.speed with sweepAt := some (n + 1) } }
      if n + 1 < 16 then h.start .sentWindow 1024 else h
    | none => h

/-- SWEEP_START (R56, R59): the period expires; a new sweep starts while EN = 1. The periods follow one another whatever
EN reads, and a written PER_EXP times the next one (DESIGN CHOICE, log 43). -/
def execSweepStart (s : State) : Host.Outcome State Fault Refusal :=
  s.effect fun h => h.onTimer .sweep fun h =>
    let h := h.start .sweep h.sweepPeriod
    if h.flag R.SYS_SENT_CTL_EN then
      { h with speed := { h.speed with sweepAt := some 0 } }.start .sentWindow 1024
    else h

/-- SWEEP_COMPLETE (R56, R57, R63): the sixteen results update SYS_SPEED_STAT; a negative slack sets BELOW and counts;
the loop decides. -/
def execSweepComplete (s : State) : Host.Outcome State Fault Refusal :=
  s.effect fun h =>
    match h.speed.sweepAt with
    | some 16 =>
      let h := { h with speed := { h.speed with sweepAt := none } }
      let (m, k) := h.minSlack
      let h := (h.setI R.SYS_SPEED_STAT_MIN_SLACK m).set R.SYS_SPEED_STAT_MIN_ID k
      let h := if m < 0 then (h.set R.SYS_SPEED_STAT_BELOW 1).bump R.SYS_SPEED_STAT_BELOW_CNT else h
      h.avsDecide
    | _ => h

/-- A write of SYS_AVS_CTL (R69): steps, HOLD and SETTLE_US store at least 1, a MODE of 0b11 leaves MODE. -/
def Hw.writeAvsCtl (h : Hw) (v : Word) : Hw :=
  let at1 (h : Hw) (f : RF) := h.set f (max 1 (fieldOf v f))
  let h := at1 (at1 (at1 (at1 h R.SYS_AVS_CTL_STEP_UP) R.SYS_AVS_CTL_STEP_DN) R.SYS_AVS_CTL_HOLD) R.SYS_AVS_CTL_SETTLE_US
  let m := fieldOf v R.SYS_AVS_CTL_MODE
  if m = 3 then h else h.avsTake (.mode m)

/-- AVS_MODE_WRITE (R64, R67, R69). -/
def execAvsModeWrite (v : Word) (s : State) : Host.Outcome State Fault Refusal := s.effect fun h => h.writeAvsCtl v

/-- A write of SYS_AVS_MAN (R67, R69, R71): in manual mode each write sends V, clamped. -/
def Hw.writeAvsMan (h : Hw) (v : Word) : Hw := h.avsTake (.man v)

/-- AVS_MAN_WRITE (R69, R71). -/
def execAvsManWrite (v : Word) (s : State) : Host.Outcome State Fault Refusal := s.effect fun h => h.writeAvsMan v

/-- A write of SYS_AVS_LIM (R70): each voltage is held within 650 to 850; VMIN above VMAX, or RAIL 0b1111, leaves the
register unchanged and sets CFG_ERR. -/
def Hw.writeAvsLim (h : Hw) (v : Word) : Hw :=
  let lo := clampNat 650 850 (fieldOf v R.SYS_AVS_LIM_VMIN)
  let hi := clampNat 650 850 (fieldOf v R.SYS_AVS_LIM_VMAX)
  let rail := fieldOf v R.SYS_AVS_LIM_RAIL
  if hi < lo ∨ rail = 15 then h.set R.SYS_AVS_STAT_CFG_ERR 1
  else ((h.set R.SYS_AVS_LIM_VMIN lo).set R.SYS_AVS_LIM_VMAX hi).set R.SYS_AVS_LIM_RAIL rail

/-- AVS_LIM_WRITE (R70). -/
def execAvsLimWrite (v : Word) (s : State) : Host.Outcome State Fault Refusal := s.effect fun h => h.writeAvsLim v

/-- AVS_RESPONSE (R62 to R64, R67): a response with a good CRC completes the transaction in progress: a read gives the
loop its starting voltage, clamped, and lets it run; a write is the last target accepted and starts the settle time,
which counts from the response (DESIGN CHOICE, log 43). A response with a bad CRC leaves the transaction to its retry. -/
def execAvsResponse (crcGood : Bool) (mv : BitVec 16) (s : State) : Host.Outcome State Fault Refusal :=
  s.effect fun h =>
    match h.speed.transaction with
    | none => h
    | some t =>
      if crcGood then
        let h := h.stop .avsRetry
        let h := { h with speed := { h.speed with transaction := none } }
        let h := match t.kind with
          | .readTarget =>
            { h with speed := { h.speed with target := h.clampVolts mv.toNat, loop := true, hiRun := 0 } }
          | .writeTarget v =>
            (h.set R.SYS_AVS_STAT_V_REQ v).start .avsSettle (h.get R.SYS_AVS_CTL_SETTLE_US * 1000)
        (h.avsServe h.speed.waits).avsBusy
      else h

/-- AVS_RETRY (R66): 10 µs pass without a valid response: the transaction is sent again up to three times; then
BUS_FAIL is set and the loop stops with MODE unchanged. -/
def execAvsRetry (s : State) : Host.Outcome State Fault Refusal :=
  s.effect fun h => h.onTimer .avsRetry fun h =>
    match h.speed.transaction with
    | none => h
    | some t =>
      if t.retries < 3 then
        { h with speed := { h.speed with transaction := some { t with retries := t.retries + 1 } } }.start .avsRetry 10000
      else
        let h := { h with speed := { h.speed with transaction := none, loop := false, hiRun := 0, emergencyWaits := false } }
        let h := h.set R.SYS_AVS_STAT_BUS_FAIL 1
        (h.avsServe h.speed.waits).avsBusy

/-- AVS_SETTLE_END (R63): the settle time ends, and the loop may decide again at the next sweep. -/
def execAvsSettleEnd (s : State) : Host.Outcome State Fault Refusal :=
  s.effect fun h => h.onTimer .avsSettle fun h => h.avsBusy

/-- A write of SYS_SENT_CTL (R59): PER_EXP is held within 5 to 16. -/
def Hw.writeSentCtl (h : Hw) (v : Word) : Hw :=
  (h.set R.SYS_SENT_CTL_EN (fieldOf v R.SYS_SENT_CTL_EN)).set R.SYS_SENT_CTL_PER_EXP
    (clampNat 5 16 (fieldOf v R.SYS_SENT_CTL_PER_EXP))

end Sys2Proof.Machine
end

