-- ==== Sys2Proof/Machine/Heel.lean ====
section
/-!
DEFINITION. The Heel: requests and their checks (R543, R544), entry (R545, R546), the save area (R537, R547 to R549),
waking (R550, R551), the Watch duty cycle and its sources (R552 to R555), brown-out (R556), wake failure (R557, R558),
the log (R560), the Ethernet wake detector (R387) and the lock of the time base (R426).
-/
namespace Sys2Proof.Machine

/-- The states of HEEL_PS_STAT (R562). -/
def psRun : Nat := 0
def psEntering : Nat := 1
def psDoze : Nat := 2
def psWatch : Nat := 3
def psOff : Nat := 4
def psWaking : Nat := 5
def psFailed : Nat := 6
def psDiagnostic : Nat := 7

def Hw.ps (h : Hw) : Nat := h.get R.HEEL_PS_STAT_STATE
def Hw.setPs (h : Hw) (st : Nat) : Hw := h.set R.HEEL_PS_STAT_STATE st
def Hw.modHeel (h : Hw) (f : HeelUnit → HeelUnit) : Hw := { h with heel := f h.heel }

/-- The Heel sleeps: Doze, Watch or Off. -/
def Hw.asleep (h : Hw) : Bool := h.ps == psDoze || h.ps == psWatch || h.ps == psOff

/-! ### The heel budget (R555) -/

/-- The current of the enabled wake receiver, in 0.01 mA. -/
def Hw.wurCurrent (h : Hw) : Nat := if h.flag R.HEEL_WUR_CFG_DIV then 310 else 190

/-- PEAK. -/
def Hw.peak (h : Hw) : Nat :=
  45 + (if h.get R.HEEL_CTL_OSC_SEL = 0 then 15 else 5) +
    [if h.flag R.HEEL_WAKE_EN_WUR then h.wurCurrent else 0, if h.flag R.HEEL_WAKE_EN_TEMP then 25 else 0,
     if h.flag R.HEEL_WAKE_EN_SUPPLY then 35 else 0, if h.flag R.HEEL_WAKE_EN_PIN then 2 else 0].foldl max 0

/-! ### The log (R560) -/

/-- A refusal (stage 0) or an abort (stage 1) is recorded. -/
def Hw.refuse (h : Hw) (refuser target stage detail : Nat) : Hw :=
  let h := h.bump (if stage = 0 then R.HEEL_CNT0_REFUSED else R.HEEL_CNT0_ABORTED)
  let h := (h.set R.HEEL_PS_STAT_REFUSE_EV 1).set R.HEEL_PS_STAT_LAST_REFUSER refuser
  let i := h.get R.HEEL_LOG_HEAD_HEAD
  let w0 := refuser % 16 + 16 * (target % 4) + 64 * (stage % 2) + 256 * (detail % 2 ^ 16)
  let h := (h.setWord (R.HEEL_LOG_W0 i) (BitVec.ofNat 32 w0)).setWord (R.HEEL_LOG_W1 i) (BitVec.ofNat 32 (h.et / 2 ^ 20))
  (h.set R.HEEL_LOG_HEAD_HEAD (i + 1)).set R.HEEL_LOG_HEAD_COUNT (min 16 (h.get R.HEEL_LOG_HEAD_COUNT + 1))

/-! ### The checks of R544 -/

/-- The sources that can wake the device from a target state, as bits of HEEL_WAKE_EN (R541). -/
def targetSources (target : Nat) : Nat := match target with
  | 1 => 0xFF
  | 2 => 0xFE
  | 3 => 0xF0
  | _ => 0

/-- The sources enabled in a target state. -/
def Hw.enabledSources (h : Hw) (target : Nat) : Nat := Nat.land ((h.word R.HEEL_WAKE_EN).toNat % 256) (targetSources target)

/-- The lowest `i` below `n` whose field `f i` satisfies `p`, the registers lying `stride` apart: a register that holds
its reset word is not looked at. -/
def Hw.lowestReg (h : Hw) (f : Nat → RF) (stride n : Nat) (p : Nat → Bool) : Option Nat :=
  (h.regs.filterMap fun x =>
    let i := (x.1 - (f 0).addr) / stride
    if (f i).addr = x.1 ∧ i < n ∧ p (h.get (f i)) = true then some i else none).min?

/-- A function between Closed and Open. -/
def moving (st : Nat) : Bool := st == stOpening || st == stClosing

/-- The bits `i` below `n` that satisfy `p`, as a number. -/
def bitsWhere (n : Nat) (p : Nat → Bool) : Nat := ((List.range n).filter p).foldl (fun m i => m + 2 ^ i) 0

/-- A slice stands in the way of an entry. -/
def Hw.sliceBusy (h : Hw) (x : Nat) : Bool :=
  (h.slice x).cal.isSome || (h.slice x).calWaits.isSome || moving (h.get (R.RFS_FSTAT_STATE x))

/-- A lane, or its port or hop, stands in the way of an entry (R26). -/
def Hw.laneBusy (h : Hw) (n : Nat) : Bool :=
  !h.laneQuiescent n || moving (if n < 8 then h.get (R.ETH_FSTAT_STATE n) else h.get (R.UZL_FSTAT_STATE (n - 8)))

/-- What of the Awl side stands in the way, as DETAIL gives it. -/
def Hw.awlBusy (h : Hw) : Option Nat :=
  let thread := (List.range 256).find? fun t => h.threadState t == thrRun || h.threadState t == thrWait
  match thread, h.lowestReg R.AWL_FSTAT_STATE 0x100 64 moving, h.lowestReg R.CKR_RING_FSTAT_STATE 0x20 64 moving,
      h.lowestReg R.TM_Q_FSTAT_STATE 0x20 16384 moving with
  | some t, _, _, _ => some t
  | none, some e, _, _ => some (2 ^ 14 + e)
  | none, none, some r, _ => some (2 ^ 15 + r)
  | none, none, none, some q => some (2 ^ 15 + 2 ^ 14 + q)
  | none, none, none, none => none

/-- The first condition of R544 that refuses an entry: its code and DETAIL. -/
def Hw.entryRefuser (h : Hw) (target : Nat) : Option (Nat × Nat) :=
  let pend := Nat.land (h.get R.HEEL_WAKE_STAT_PEND) (h.enabledSources target)
  let lock := h.lowestReg R.SHK_LOCK_STAT_HELD 0x10 1024 (· == 1)
  let slices := bitsWhere 3 h.sliceBusy
  let lanes := bitsWhere 12 h.laneBusy
  if h.get R.ILT_DBG_STAT_LEVEL ≠ 0 ∧ !h.flag R.ILT_DBG_CTL_SLEEP_OK then some (1, h.get R.ILT_DBG_STAT_LEVEL)
  else if pend ≠ 0 then some (3, pend)
  else if target = 2 ∧ 300 < h.peak then some (2, h.peak)
  else
    match lock with
    | some i => some (8, i)
    | none =>
      if slices ≠ 0 then some (4, slices)
      else if lanes ≠ 0 then some (5, lanes)
      else h.awlBusy.map fun d => (6, d)

/-! ### The save list (R537, R547 to R549) -/

/-- The registers of the save list with the bits that belong to it, beside those of `saveMask`. -/
def savedRegisters : List (String × Nat) :=
  let whole := 0xFFFFFFFF
  [("SYS_AVS_CTL", whole), ("SYS_AVS_LIM", whole), ("SYS_AVS_MAN", whole), ("RFS_CAL_STAT", 0x3FFFF04),
   ("PHY_DET_CTL", whole), ("PHY_RST_CTL", whole), ("PHY_TRK_CTL", whole), ("PHY_DEC_CTL", whole), ("PHY_RSSI_CAL", whole),
   ("AWL_CLU_CFG", whole), ("CKR_CTL", whole), ("CKR_DEF_W0", whole), ("CKR_DEF_W1", whole), ("CKR_POOL_CFG", whole),
   ("CKR_POOL_FIRST", whole), ("CKR_POOL_COUNT", whole), ("CKR_POOL_LINK_LO", whole), ("CKR_POOL_LINK_HI", whole),
   ("CKR_POOL_LOW", whole), ("CKR_PM_W0", whole), ("CKR_PM_W1", whole), ("CKR_PM_W2", whole)] ++
  [("TM_MTR_CIR", whole), ("TM_MTR_PIR", whole), ("TM_MTR_CBS", whole), ("TM_MTR_PBS", whole), ("TM_SHP_RATE", whole),
   ("TM_SHP_BURST", whole), ("TM_EG_CFG", whole), ("ETH_CFG", whole), ("ETH_ADDR_LO", whole), ("ETH_ADDR_HI", whole),
   ("ETH_PRE_CTL", whole), ("ETH_SEC_CTL", whole), ("ETH_TX_SCI_LO", whole), ("ETH_TX_SCI_HI", whole),
   ("ETH_REPLAY_WIN", whole), ("ETH_WAKE_CTL", whole), ("ETH_WAKE_MASK", whole), ("ETH_WAKE_CRC", whole),
   ("LANE_CTL", whole), ("LANE_TIMER", whole), ("LANE_NEG_ID", whole), ("UZL_CTL", whole), ("UZL_ID", whole),
   ("UZL_RING", whole), ("UZL_CFG", whole), ("UZL_LINK_DELAY", whole)] ++
  [("TIME_RATE", whole), ("TIME_SLEW_MAX", whole), ("TIME_CTL", 0x1), ("TIME_STAT", 0xFF02), ("TIME_RES", whole),
   ("TIME_PATH_CFG", whole), ("TIME_SERVO", whole), ("TIME_ASYM", whole), ("TIME_PPS_CTL", 0xF),
   ("TIME_PPS_START_W", whole), ("TIME_PPS_PERIOD", whole), ("TIME_PPS_WIDTH", whole), ("TIME_CAP_CTL", 0x3),
   ("BENCH_CFG", whole), ("BENCH_TICK", whole), ("BENCH_IRQ", 0x1FFFF), ("SYS_CORE_CTL", whole),
   ("SYS_CORE_ENTRY_LO", whole), ("SYS_CORE_ENTRY_HI", whole), ("SHK_ARB_CFG", whole), ("SHK_HINT_EN", whole),
   ("DRC_CFG", whole), ("DRC_STAT", 0x7), ("DRC_TIM", whole), ("DRC_REF", whole), ("DRC_NR", whole), ("DRC_ECC", 0x1),
   ("DRC_RT", whole), ("ILT_ACC_CTL", whole)]

/-- The bits of the register at `a` that belong to the save list: besides the named registers, the Welt registers
outside the key, context and statistics windows (R185), and the access tables (R531). A group key reads as invalid and no
context command runs after a wake (R185), so those bits are not in it. -/
def saveMask (a : Nat) : Nat :=
  if [0, 1, 2].any (fun l => a == R.WELT_GKEY l) then 0xFFFFFFC0
  else if a = R.WELT_CTX_RSP then 0xFFFFFFFE
  else if (0x40D00000 ≤ a ∧ a < 0x40D10000) ∨ isTable a then 0xFFFFFFFF
  else
    match regRow a with
    | some r => ((savedRegisters.find? fun x => x.1 == r.name).map (·.2)).getD 0
    | none => 0

/-- The save list of the present state: the saved bits of every register that has left its reset word. -/
def Hw.saveList (h : Hw) : List (Nat × Word) :=
  h.regs.filterMap fun x => if saveMask x.1 = 0 then none else some (x.1, x.2 &&& BitVec.ofNat 32 (saveMask x.1))

/-- The registers as the save area holds them. -/
def Hw.fromSaved (h : Hw) : Hw := { h with regs := h.heel.saved.getD [] }

/-- The tag over the save area, the stub and ENTRY_CNT under the latch key (R537). -/
def Hw.saveTag (h : Hw) : List Byte :=
  Config.hmacSha384 (bytesBE 32 h.iltil.latch) (h.memBytes 0x30000000 0x40000 ++ bytesBE 8 h.iltil.entryCnt)

/-- A saved word written straight into its register: the bits that do not belong to the list keep their values. -/
def Hw.restoreWord (h : Hw) (a : Nat) (w : Word) : Hw :=
  let m : Word := BitVec.ofNat 32 (saveMask a)
  h.setWord a ((h.word a &&& ~~~m) ||| (w &&& m))

/-- Network time is carried over the sleep, and pulses are armed again (R452). -/
def Hw.carryTime (h : Hw) : Hw :=
  let d := h.et - h.heel.entryEt
  let ns : Int := d + (d : Int) * h.getI R.TIME_RATE_RATE / 2 ^ 41
  let h := { h with nt := (((h.heel.ntEntry : Int) + ns * 2 ^ 32) % ntTurn).toNat }
  let h := (h.set R.TIME_STAT_CARRIED 1).set R.TIME_NT_ERR_ERR
    (min (2 ^ 32 - 1) (h.get R.TIME_NT_ERR_ERR + 1000 * (h.etErrMicros - h.heel.errEntry)))
  (List.range 8).foldl (fun (h : Hw) n => if h.ppsMode n = 0 then h else h.ppsPlan n) h

/-- What the restored registers bring with them: pools with every buffer free whatever EN (R308, R337), no wake-up job
sending (R185, R199: its station has no context; DEDUCED, log 18), full meters and shapers (R359), ports whose
preemption stands as their restored control words have it (R370, R391), a
DRAM in self-refresh (R507), the Bench tick (R467), the AVS loop (R551). -/
def Hw.afterRestore (h : Hw) : Hw :=
  let h := (List.range 16).foldl (fun (h : Hw) p =>
    h.set (R.CKR_POOL_FREE_FREE p) (h.get (R.CKR_POOL_COUNT_COUNT p))) h
  let h := (List.range 16).foldl (fun (h : Hw) j =>
    if h.get (R.WELT_WUR_STAT_STATE j) = wurSending then h.set (R.WELT_WUR_STAT_STATE j) wurIdle else h) h
  let h := (List.range 8).foldl (fun (h : Hw) n =>
    (if h.flag (R.ETH_PRE_CTL_PRE_EN n) && h.flag (R.ETH_PRE_CTL_VERIFY_EN n) then h.set (R.ETH_PRE_STAT_VERIFY n) 1 else h).updateActive n) h
  let addrs := (h.heel.saved.getD []).map (·.1)
  let h := ((addrs.filter fun a => decide (R.TM_MTR_CIR 0 ≤ a) && decide (a < R.TM_MTR_CIR 4096)).map fun a =>
    (a - R.TM_MTR_CIR 0) / 0x10).foldl (fun (h : Hw) m => h.fillMeter m) h
  let h := ((addrs.filter fun a => decide (R.TM_SHP_RATE 0 ≤ a) && decide (a < R.TM_SHP_RATE 1024)).map fun a =>
    (a - R.TM_SHP_RATE 0) / 0x10).foldl (fun (h : Hw) k =>
      { h with traffic := { h.traffic with
          shapers := kput h.traffic.shapers k ⟨h.get (R.TM_SHP_BURST_BURST k) * 2 ^ 10, h.et⟩ } }) h
  let h := if h.drcState = drcReady then h.set R.DRC_STAT_STATE drcSelfRefresh else h
  let h := if h.flag R.BENCH_TICK_EN then h.start .benchTick (h.get R.BENCH_TICK_PERIOD * 1000) else h
  if h.get R.SYS_AVS_CTL_MODE = 1 then h.avsModeEffect else h

/-- The restore engine writes the list back (R549). -/
def Hw.restore (h : Hw) : Hw :=
  let h := (h.heel.saved.getD []).foldl (fun (h : Hw) x => h.restoreWord x.1 x.2) h
  let h := h.carryTime.afterRestore
  { h with boot := { h.boot with restored := true } }

/-! ### Entry (R543 to R546) -/

/-- Both channels have acknowledged: they are in self-refresh, and Iltil tags the save area (R507, R537, R545). -/
def Hw.acknowledged (h : Hw) : Bool := (h.channel 0).acknowledged && (h.channel 1).acknowledged

def Hw.allAcknowledged (h : Hw) : Hw :=
  let h := h.stop .selfRefresh
  let h := if h.drcState = drcReady then h.setDrcState drcSelfRefresh else h
  if h.heel.target = 3 then h
  else
    let h := { h with iltil := { h.iltil with entryCnt := (h.iltil.entryCnt + 1) % 2 ^ 64 } }
    { h with iltil := { h.iltil with tag := some h.saveTag } }

/-- Channel `c` acknowledges, if it can. -/
def Hw.refreshAcknowledged (h : Hw) (c : Nat) : Hw :=
  if h.ps ≠ psEntering ∨ (h.channel c).acknowledged ∨ h.acknowledged then h
  else
    let (h, done) := h.selfRefresh c
    if done ∧ h.acknowledged then h.allAcknowledged else h

/-- SELF_REFRESH_ACK (R507). -/
def execSelfRefreshAck (c : Fin 2) (s : State) : Host.Outcome State Fault Refusal := s.effect fun h => h.refreshAcknowledged c

/-- An entry that passes its checks starts (R545): STATE, the debug session (R536), the save list, the request for
self-refresh, which a channel with nothing to keep acknowledges at once. -/
def Hw.startEntry (h : Hw) (target : Nat) : Hw :=
  let h := (h.closeDebug.setPs psEntering).modHeel fun u => { u with target := target, wake := none }
  let h := if target = 3 then h
    else
      let list := h.saveList
      let h := h.loseMemory isEngineRegion
      h.modHeel fun u => { u with saved := some list }
  let h := [0, 1].foldl (fun (h : Hw) c => h.modChannel c fun k => { k with acknowledged := false }) h
  let h := h.start .selfRefresh 100000
  if h.drcIdle then (h.refreshAcknowledged 0).refreshAcknowledged 1 else h

/-- A request goes into the pending slot (R543). -/
def Hw.slotRequest (h : Hw) (target : Nat) : Hw := ((h.dropSlot).set R.HEEL_PS_STAT_PEND 1).set R.HEEL_PS_STAT_PEND_TGT target

/-- A write of TARGET (R543, R544, R546, R519). -/
def Hw.powerRequest (h : Hw) (target : Nat) : Hw :=
  if h.ps = psFailed ∨ h.ps = psDiagnostic then h.bump R.HEEL_CNT1_REPLACED
  else if h.ps = psEntering ∨ h.ps = psWaking ∨ (h.ps = psRun ∧ h.flag R.ILT_LC_STAT_BUSY) then h.slotRequest target
  else if h.ps ≠ psRun then h.bump R.HEEL_CNT1_REPLACED
  else if target = 0 then h
  else
    match h.entryRefuser target with
    | some (code, detail) => h.refuse code target 0 detail
    | none => h.startEntry target

def execDozeRequest (s : State) : Host.Outcome State Fault Refusal := s.effect fun h => h.powerRequest 1
def execWatchRequest (s : State) : Host.Outcome State Fault Refusal := s.effect fun h => h.powerRequest 2
def execOffRequest (s : State) : Host.Outcome State Fault Refusal := s.effect fun h => h.powerRequest 3
def execRunRequest (s : State) : Host.Outcome State Fault Refusal := s.effect fun h => h.powerRequest 0

/-- The request in the slot runs as if it had just been written (R543). -/
def Hw.runSlot (h : Hw) : Hw :=
  if h.flag R.HEEL_PS_STAT_PEND then
    let target := h.get R.HEEL_PS_STAT_PEND_TGT
    ((h.set R.HEEL_PS_STAT_PEND 0).set R.HEEL_PS_STAT_PEND_TGT 0).powerRequest target
  else h

/-- SELF_REFRESH_TIMEOUT (R507, R545): the entry is aborted; the channels that have acknowledged leave self-refresh. -/
def Hw.entryAborted (h : Hw) : Hw :=
  if h.ps ≠ psEntering ∨ h.acknowledged then h
  else
    let missing := bitsWhere 2 fun c => !(h.channel c).acknowledged
    let h := [0, 1].foldl (fun (h : Hw) c =>
      if (h.channel c).acknowledged && h.drcState == drcReady then (h.setDebt c 0).start (.mr4 c) 0 else h) h
    let h := [0, 1].foldl (fun (h : Hw) c => h.modChannel c fun k => { k with acknowledged := false }) h
    let h := (h.setPs psRun).refuse 7 h.heel.target 1 missing
    (h.avsServe h.speed.waits).runSlot

def execSelfRefreshTimeout (s : State) : Host.Outcome State Fault Refusal :=
  s.effect fun h => h.onTimer .selfRefresh fun h => h.entryAborted

/-! ### Waking (R550, R557, R558) -/

/-- A timer of the Heel runs out `n` half nanoseconds after `d`. -/
def Hw.startWindow (h : Hw) : Hw := h.startAt .refWindow (h.heel.refStart + (h.heel.windows + 1) * 1953125 / 2)

/-- A wake try starts (R550): the enables rise, and the timeouts of what they enable run. -/
def Hw.startTry (h : Hw) : Hw :=
  let u := h.heel
  let h := h.modHeel fun u =>
    { u with corePg := u.corePg && u.coreEn, railPg := false, refOk := u.refOk && u.refEn, refStart := h.et, windows := 0,
             refEn := true, coreEn := true, railEn := true }
  let h := h.start (.wakeTry 2) 2000000
  let h := if u.coreEn then h else h.start (.wakeTry 1) 2000000
  if u.refEn then h else (h.start (.wakeTry 3) 10000000).startWindow

/-- A wake starts with cause `c` (R546, R550). -/
def Hw.startWake (h : Hw) (c : Nat) : Hw :=
  let from0 := h.ps
  let h := (((h.setPs psWaking).set R.HEEL_WAKE_STAT_CAUSE c).set R.HEEL_WFAIL_TRIES 0).stop .watch
  let h := (h.modHeel fun u => { u with wake := none, slot := 0 }).set R.HEEL_WFAIL_STEP 0
  (h.set R.HEEL_WFAIL_FROM from0).startTry

/-- The wake events' time (R546, R552). -/
def Hw.wakeTime (h : Hw) : Hw :=
  (h.set R.HEEL_WAKE_ET_LO_ET h.et).set R.HEEL_WAKE_ET_HI_ET (h.et / 2 ^ 32)

/-- A wake event of source `i` (bit of HEEL_WAKE_EN) is recognised (R546, R552, R554). -/
def Hw.wakeEvent (h : Hw) (i : Nat) : Hw :=
  let h := h.setWord R.HEEL_WAKE_STAT (h.word R.HEEL_WAKE_STAT ||| BitVec.ofNat 32 (2 ^ i))
  let wakes := (h.enabledSources h.heel.target).testBit i
  let due (h : Hw) : Hw := h.wakeTime.modHeel fun u => { u with wake := some (u.wake.getD (i + 1)), slot := 0 }
  if h.ps = psEntering && wakes then due h
  else if h.asleep && wakes then due (h.set R.HEEL_WAKE_STAT_CAUSE (i + 1))
  else h

/-- WAKE_START (R550): the wake that is due starts. -/
def execWakeStart (s : State) : Host.Outcome State Fault Refusal :=
  s.effectHeel fun h =>
    match h.heel.wake with
    | some c => if h.asleep then h.startWake c else h
    | none => h

/-- The instant at which Watch period `k` starts (R552). -/
def Hw.periodStart (h : Hw) (k : Nat) : Nat := h.heel.entryEt + k * h.get R.HEEL_WATCH_CFG_PERIOD * 1000000

/-- ENTRY_COMPLETE (R545, R546): the main domains go off, the enables of R542 change, and STATE becomes the target. A
wake that is due starts at once and empties the slot; a Run request in the slot wakes with cause 9. -/
def Hw.entryComplete (h : Hw) : Hw :=
  if h.ps ≠ psEntering || !h.acknowledged then h
  else
    let t := h.heel.target
    let h := h.modHeel fun u =>
      { u with ntEntry := h.nt, entryEt := h.et, errEntry := h.etErrMicros, period := 0, slot := 0, powered := false,
               refEn := t == 1, coreEn := t == 1, railEn := false, railPg := false, corePg := u.corePg && t == 1,
               refOk := u.refOk && t == 1 }
    let h := (h.mainReset (if t = 3 then 2 else 7) true).setPs (t + 1)
    let h := if t = 3 then h else h.startAt .watch (h.periodStart 0)
    match h.heel.wake with
    | some c => h.dropSlot.startWake c
    | none =>
      if h.flag R.HEEL_PS_STAT_PEND ∧ h.get R.HEEL_PS_STAT_PEND_TGT = 0 then
        ((h.set R.HEEL_PS_STAT_PEND 0).wakeTime).startWake 9
      else h.dropSlot

def execEntryComplete (s : State) : Host.Outcome State Fault Refusal := s.effectHeel fun h => h.entryComplete

/-- Both supplies and the reference are ready: the main domains are powered (R550). -/
def Hw.wakeReady (h : Hw) : Hw :=
  if h.heel.corePg && h.heel.railPg && h.heel.refOk then h.modHeel fun u => { u with powered := true } else h

/-- POWER_GOOD (R550): CORE_PG or RAIL_PG rises while its regulator is enabled. -/
def execPowerGood (rail : Bool) (s : State) : Host.Outcome State Fault Refusal :=
  s.effectHeel fun h =>
    if h.ps ≠ psWaking then h
    else if rail then
      (if h.heel.railEn then ((h.stop (.wakeTry 2)).modHeel fun u => { u with railPg := true }).wakeReady else h)
    else (if h.heel.coreEn then ((h.stop (.wakeTry 1)).modHeel fun u => { u with corePg := true }).wakeReady else h)

/-- REFERENCE_WINDOW_END (R550): a window of 32 source periods ends with `count` reference cycles. -/
def execReferenceWindowEnd (count : Nat) (s : State) : Host.Outcome State Fault Refusal :=
  s.effectHeel fun h => h.onTimer .refWindow fun h =>
    if h.ps ≠ psWaking then h
    else if 37891 ≤ count ∧ count ≤ 40234 then
      ((h.stop (.wakeTry 3)).modHeel fun u => { u with refOk := true }).wakeReady
    else (h.modHeel fun u => { u with windows := u.windows + 1 }).startWindow

/-- Diagnostic mode (R558): CORE_EN and RAIL_EN power the main domains, whose reset has cause 6. -/
def Hw.diagnostic (h : Hw) : Hw :=
  let h := (h.setPs psDiagnostic).modHeel fun u =>
    { u with refEn := false, coreEn := true, railEn := true, fault := true, powered := true }
  { h with boot := { h.boot with reset := some 6 } }

/-- WAKE_TRY_FAIL (R557): timeout 1 CORE_PG, 2 RAIL_PG or 3 the reference ends the try; the third failure ends in wake
failure, or in diagnostic mode where the reference failed and DIAG_EN is set. -/
def Hw.tryFails (h : Hw) (step : Nat) : Hw :=
  if h.ps ≠ psWaking || h.heel.powered then h
  else
    let h := (((h.stop (.wakeTry 1)).stop (.wakeTry 2)).stop (.wakeTry 3)).stop .refWindow
    let h := h.modHeel fun u =>
      { u with refEn := false, coreEn := false, railEn := false, corePg := false, railPg := false, refOk := false }
    let h := (h.set R.HEEL_WFAIL_STEP step).set R.HEEL_WFAIL_TRIES (h.get R.HEEL_WFAIL_TRIES + 1)
    if h.get R.HEEL_WFAIL_TRIES < 3 then h.start .offWait (h.get R.HEEL_CTL_OFF_WAIT * 1000000)
    else if step = 3 ∧ h.flag R.HEEL_CTL_DIAG_EN then h.dropSlot.diagnostic
    else (h.dropSlot.setPs psFailed).modHeel fun u => { u with fault := true }

def execWakeTryFail (step : Fin 3) (s : State) : Host.Outcome State Fault Refusal :=
  s.effectHeel fun h => h.onTimer (.wakeTry (step + 1)) fun h => h.tryFails (step + 1)

/-- OFF_WAIT_END (R557): the next try starts. -/
def execOffWaitEnd (s : State) : Host.Outcome State Fault Refusal :=
  s.effectHeel fun h => h.onTimer .offWait fun h => if h.ps = psWaking then h.startTry else h

/-- TB_LOCK_ACQUIRED (R426): the time base cannot lock in diagnostic mode (R558). -/
def execTbLockAcquired (s : State) : Host.Outcome State Fault Refusal :=
  s.effect fun h => if h.ps = psDiagnostic then h else h.tbLocked

/-- TAG_CHECK (R537, R549): a sound tag lets the restore engine write the list back; any other forces a cold boot. -/
def execTagCheck (s : State) : Host.Outcome State Fault Refusal :=
  s.effect fun h =>
    if h.ps ≠ psWaking || h.get R.SYS_RST_REC_CAUSE != 7 || h.boot.restored then h
    else if h.iltil.tag = some h.saveTag then h.restore
    else h.mainReset 4 false

/-- WAKE_COMPLETE (R550, R546): core 0 has entered the stub; a request in the slot then runs. -/
def execWakeComplete (s : State) : Host.Outcome State Fault Refusal :=
  s.effect fun h =>
    if h.ps ≠ psWaking || !h.boot.restored || h.boot.waits || h.drcState == drcSelfRefresh then h
    else (((h.setPs psRun).set R.HEEL_PS_STAT_WAKE_EV 1).bump R.HEEL_CNT1_WAKES).runSlot

/-! ### The Watch duty cycle (R552 to R554) -/

/-- WATCH_PERIOD_START (R552). -/
def execWatchPeriodStart (s : State) : Host.Outcome State Fault Refusal :=
  s.effectHeel fun h => h.onTimer .watch fun h =>
    if h.ps = psDoze ∨ h.ps = psWatch then
      let k := h.heel.period
      let h := h.modHeel fun u => { u with period := k + 1, slot := if u.wake.isSome then 0 else 1 }
      h.startAt .watch (h.periodStart (k + 1))
    else h

/-- A source of the period takes its turn (R552): the `order`-th, with its bit of HEEL_WAKE_EN, while no later one has
had its turn; where it does not match, the later ones still come. -/
def Hw.inTurn (h : Hw) (order bit : Nat) (found : Bool) : Hw :=
  if !(h.ps == psDoze || h.ps == psWatch) || h.heel.slot == 0 || decide (order < h.heel.slot) ||
      !((h.word R.HEEL_WAKE_EN).toNat.testBit bit) then h
  else if found then h.wakeEvent bit
  else h.modHeel fun u => { u with slot := if order = 4 then 4 else order + 1 }

/-- What the wake receiver takes matches (R553). -/
def Hw.wurMatches (h : Hw) (w : WurSight) : Bool :=
  match w with
  | .frame wakeUp fcs addr hdr =>
    h.get R.HEEL_WUR_CFG_MODE == 0 && wakeUp && fcs && hdr == h.flag R.HEEL_WUR_CFG_RATE &&
      (addr.toNat == h.get R.HEEL_WUR_ID_WUR_ID ||
        (h.flag R.HEEL_WUR_ID_GROUP_EN && addr.toNat == h.get R.HEEL_WUR_ID_GROUP_ID))
  | .energy dbm us => h.get R.HEEL_WUR_CFG_MODE == 1 && decide (h.getI R.HEEL_WUR_CFG_ED ≤ dbm) && decide (16 ≤ us)

def execWurMatch (w : WurSight) (s : State) : Host.Outcome State Fault Refusal :=
  s.effectHeel fun h => h.inTurn 1 1 (h.wurMatches w)

/-- TEMP_COMPARE (R554): the sensor reads `t` °C. -/
def execTempCompare (t : Int) (s : State) : Host.Outcome State Fault Refusal :=
  s.effectHeel fun h => h.inTurn 2 2 (decide (h.getI R.HEEL_CMP_CFG_T_HI ≤ t) || decide (t ≤ h.getI R.HEEL_CMP_CFG_T_LO))

/-- SUPPLY_COMPARE (R554): VSENSE_IN stands at `mv` mV. -/
def execSupplyCompare (mv : Nat) (s : State) : Host.Outcome State Fault Refusal :=
  s.effectHeel fun h =>
    let th := 5 * h.get R.HEEL_CMP_CFG_V_TH
    h.inTurn 3 3 (if h.flag R.HEEL_CMP_CFG_V_POL then decide (th < mv) else decide (mv < th))

/-- WAKE_PIN (R554): pin `n` stands at a level. In Watch it is sampled in its turn; else it is watched continuously. -/
def execWakePin (n : Fin 4) (high : Bool) (s : State) : Host.Outcome State Fault Refusal :=
  s.effectHeel fun h =>
    let active := high != (h.get R.HEEL_PIN_CFG_POL).testBit n
    if h.ps = psWatch then h.inTurn 4 (4 + n) active
    else if h.ps = psFailed || h.heel.por || !active then h
    else h.wakeEvent (4 + n)

/-! ### The Ethernet wake detector (R387) -/

/-- A pattern selects bytes and matches their CRC. -/
def Hw.patternMatches (h : Hw) (j : Nat) (bs : List Byte) : Bool :=
  let mask := (List.range 4).foldl (fun m i => m + (h.word (R.ETH_WAKE_MASK j i)).toNat * 2 ^ (32 * i)) 0
  let chosen := (List.range 128).filter mask.testBit
  let crc := ~~~ (chosen.foldl (fun c i => crcByte (crcPoly false) c ((bs[i]?).getD 0).toNat) (0xFFFFFFFF : Word))
  !chosen.isEmpty && chosen.all (fun i => decide (i < bs.length)) && crc == h.word (R.ETH_WAKE_CRC j)

/-- Six bytes of 0xFF and sixteen copies of the port address, from frame byte 14 on. -/
def isWakeFrame (addr : Nat) (bs : List Byte) : Bool :=
  let magic := List.replicate 6 (0xFF : Byte) ++ (List.replicate 16 (bytesBE 6 addr)).flatten
  (List.range (bs.length - 14)).any fun i => (bs.drop (14 + i)).take 102 == magic

/-- The cause the detector finds, with the pattern; `h` holds the registers of the save area. -/
def Hw.wakeCause (h : Hw) (w : WakeSight) : Option (Nat × Nat) :=
  let n := h.get R.ETH_WAKE_CTL_PORT
  match w with
  | .frame bs fcs =>
    let addr := h.ethAddr n
    if !fcs || !(destAddr bs == addr || isGroup bs) then none
    else if h.flag R.ETH_WAKE_CTL_FRAME_EN && isWakeFrame addr bs then some (1, 0)
    else
      ((List.range 8).find? fun j => (h.get R.ETH_WAKE_CTL_PAT_EN).testBit j && h.patternMatches j bs).map fun j => (2, j)
  | .linkChange => if h.flag R.ETH_WAKE_CTL_LINK_EN then some (3, 0) else none

/-- WAKE_FRAME_DETECT (R387): in Doze, with the detector armed. -/
def execWakeFrameDetect (w : WakeSight) (s : State) : Host.Outcome State Fault Refusal :=
  s.effectHeel fun h =>
    let hs := h.fromSaved
    if h.ps ≠ psDoze || !hs.flag R.ETH_WAKE_CTL_EN then h
    else
      match hs.wakeCause w with
      | some (c, j) => ((h.set R.ETH_WAKE_STAT_CAUSE c).set R.ETH_WAKE_STAT_PAT j).wakeEvent 0
      | none => h

/-! ### Loss of the Heel (R556) and its registers (R561, R562) -/

/-- The Heel and every domain lose their state (R556): RWS fields and ET return to their reset values, and heel SRAM
becomes undefined. BOR alone is given. -/
def Hw.heelLost (h : Hw) (bor : Nat) : Hw :=
  let h := (h.mainReset 0 true).loseMemory fun a => decide (0x30000000 ≤ a) && decide (a < 0x30040000)
  let n := h.free
  let undef : List Host.Cell := (List.range 0x40000).map fun i => (0x30000000 + i, Config.freeByte (n + i))
  let h := { h with
    mem := (h.mem.filter fun (x : Host.Cell) => decide (x.1 < 0x30000000)) ++ undef ++
      h.mem.filter fun (x : Host.Cell) => decide (0x30000000 ≤ x.1)
    free := n + 0x40000, regs := [], timers := [], et := 0, etFrac := 0, etErr := 0
    iltil := { h.iltil with latch := 0, entryCnt := 0, tag := none }
    heel := ⟨true, 0, none, 0, 0, 0, 0, 0, none, false, false, false, 0, 0, false, false, false, false, false⟩ }
  h.set R.HEEL_BOR_BOR bor

/-- BROWN_OUT (R556): BOR lies on the rail VDD_HEEL_IN and is set. -/
def execBrownOut (s : State) : Host.Outcome State Fault Refusal := s.effectHeel fun h => h.heelLost 1

/-- VDD_HEEL_IN_LOSS (R556): BOR clears too. -/
def execVddHeelInLoss (s : State) : Host.Outcome State Fault Refusal := s.effectHeel fun h => h.heelLost 0

/-- HEEL_POR_RELEASE (R565, R566): ET starts at 0, and 1 ms later the enables rise as for a wake from Off; the reset
that follows has cause 1 where BOR is set, else 0. -/
def execHeelPorRelease (s : State) : Host.Outcome State Fault Refusal :=
  s.effectHeel fun h =>
    if !h.heel.por then h
    else
      let h := (h.modHeel fun u => { u with por := false }).advance 1000000
      let h := { h with boot := { h.boot with reset := some (h.get R.HEEL_BOR_BOR) } }
      ((h.setPs psWaking).set R.HEEL_WFAIL_FROM psOff).startTry

/-- A write of HEEL_CTL (R562), the crystal counting `hz` against the reference: OSC_SEL = 0 switches to the crystal if
it keeps 1 %. -/
def Hw.writeHeelCtl (h : Hw) (v : Word) (hz : Nat) : Hw :=
  let was := h.get R.HEEL_CTL_OSC_SEL
  let h := h.writeFields R.HEEL_CTL v
  let h := h.set R.HEEL_CTL_OFF_WAIT (max 1 (h.get R.HEEL_CTL_OFF_WAIT))
  if fieldOf v R.HEEL_CTL_OSC_SEL = 0 ∧ was = 1 then
    if 32768 * 99 ≤ 100 * hz ∧ 100 * hz ≤ 32768 * 101 then h.set R.HEEL_CTL_XTAL_FAIL 0
    else (h.set R.HEEL_CTL_OSC_SEL 1).set R.HEEL_CTL_XTAL_FAIL 1
  else h

/-- OSC_SEL_WRITE (R562). -/
def execOscSelWrite (v : Word) (hz : Nat) (s : State) : Host.Outcome State Fault Refusal :=
  s.effect fun h => h.writeHeelCtl v hz

/-- A write of HEEL_WATCH_CFG (R552, R562). -/
def Hw.writeWatchCfg (h : Hw) (v : Word) : Hw :=
  let period := clampNat 1 16384 (fieldOf v R.HEEL_WATCH_CFG_PERIOD)
  let listen := clampNat 1 250 (fieldOf v R.HEEL_WATCH_CFG_LISTEN)
  if period * 1000 < listen * 64 + 260 then h.set R.HEEL_PS_STAT_CFG_ERR 1
  else (h.set R.HEEL_WATCH_CFG_PERIOD period).set R.HEEL_WATCH_CFG_LISTEN listen

/-- A write of a register of the HEEL block. A general write of HEEL_CTL finds the crystal at a frequency the manual
does not fix. -/
def Hw.heelWrite (h : Hw) (a : Nat) (v : Word) : Hw :=
  if a = R.HEEL_PS_CMD then h.powerRequest (fieldOf v R.HEEL_PS_CMD_TARGET)
  else if a = R.HEEL_CTL then (h.writeHeelCtl v h.freeNat).drawn
  else if a = R.HEEL_WATCH_CFG then h.writeWatchCfg v
  else if a = R.HEEL_WUR_CFG then
    let h := h.writeFields a v
    (h.set R.HEEL_WUR_CFG_CHAN (clampNat 1 13 (h.get R.HEEL_WUR_CFG_CHAN))).setI R.HEEL_WUR_CFG_ED
      (clampInt (-90) (-40) (h.getI R.HEEL_WUR_CFG_ED))
  else h.writeFields a v

/-- The words of the HEEL block that are not stored as they read; none: another register. -/
def Hw.heelRead (h : Hw) (a : Nat) : Option Nat := if a = R.HEEL_BUDGET then some h.peak else none

end Sys2Proof.Machine
end

