-- ==== Sys2Proof/Machine/FuncCtl.lean ====
section
/-!
DEFINITION. The functions of R43: their control and status registers (R44, R45), the open checks (R93, R347, R409,
R558), opening, closing with its drain (R46), and the events that meet a transition (R47).
-/
namespace Sys2Proof.Machine

/-! ### FCTL and FSTAT (R44, R45) -/

/-- The FCTL register of a function; FSTAT is the next word. -/
def fctl (f : FuncId) : Nat := match f with
  | .slice x => R.RFS_FCTL x
  | .eth n => R.ETH_FCTL n
  | .lane n => R.LANE_FCTL n
  | .hop i => R.UZL_FCTL i
  | .engine e => R.AWL_FCTL e
  | .ring r => R.CKR_RING_FCTL r
  | .queue q => R.TM_Q_FCTL q

def fctlEn (f : FuncId) : RF := ⟨fctl f, 0, 1⟩
def fctlDrainExp (f : FuncId) : RF := ⟨fctl f, 4, 4⟩
def fstatState (f : FuncId) : RF := ⟨fctl f + 4, 0, 2⟩
def fstatPend (f : FuncId) : RF := ⟨fctl f + 4, 2, 1⟩
def fstatClosedEv (f : FuncId) : RF := ⟨fctl f + 4, 3, 1⟩
def fstatTimedOut (f : FuncId) : RF := ⟨fctl f + 4, 4, 1⟩
def fstatAborted (f : FuncId) : RF := ⟨fctl f + 4, 16, 16⟩

def Hw.funcState (h : Hw) (f : FuncId) : Nat := h.get (fstatState f)

/-! ### Opening -/

/-- The open check of a function, with the error its chapter reports. -/
def Hw.openCheck (h : Hw) (f : FuncId) : Hw × Bool :=
  let diagnostic := h.ps == psDiagnostic
  match f with
  | .slice x =>
    if diagnostic then (h, false)
    else if ncoValid x (h.stagedRx x) (h.stagedTx x) then (h, true)
    else (h.set (R.RFS_RETUNE_RANGE_ERR x) 1, false)
  | .eth _ => (h, !diagnostic)
  | .lane _ => (h, !diagnostic)
  | .hop _ =>
    if diagnostic then (h, false)
    else if isUnicastId (h.get R.UZL_ID_ID) then (h, true) else (h.set R.UZL_STAT_CFG_ERR 1, false)
  | .engine _ => (h, true)
  | .ring _ => (h, true)
  | .queue q => if h.queueMayOpen q then (h, true) else (h.set R.TM_STAT_CFG_ERR 1, false)

/-- EN = 1 reaches a Closed function (R44, R93). -/
def Hw.open0 (h : Hw) (f : FuncId) : Hw :=
  match h.openCheck f with
  | (h, false) => h.set (fctlEn f) 0
  | (h, true) =>
    let h := (h.set (fctlEn f) 1).set (fstatState f) stOpening
    match f with
    | .slice x => ((h.retuneGo x).synthStart x).linesAtRest x
    | _ => h

/-- The preparation of a function in Opening has finished: a slice's synthesiser is ready and calibrated (R95, R100). -/
def Hw.prepared (h : Hw) (f : FuncId) : Bool :=
  match f with
  | .slice x =>
    let s := h.slice x
    h.synth x == synReady && s.cal.isNone && s.calWaits.isNone && !s.needFull && h.flag (R.RFS_CAL_STAT_VALID x)
  | _ => true

/-- FUNCTION_OPENED (R43). -/
def Hw.functionOpened (h : Hw) (f : FuncId) : Hw :=
  if h.funcState f ≠ stOpening || !h.prepared f then h
  else
    let h := h.set (fstatState f) stOpen
    match f with
    | .slice x => (((h.modSlice x fun s => { s with woken := false }).restartNoiseFloor x).linesAtRest x).idleBegins x
    | .lane n => h.laneOpened n
    | .hop i => h.armHello i
    | .ring r => h.serveRing r 256
    | _ => h

def execFunctionOpened (f : FuncId) (s : State) : Host.Outcome State Fault Refusal := s.effect fun h => h.functionOpened f

/-! ### Entering Closed (R45 to R47) -/

/-- The reference of a time port becomes invalid as its port enters Closed (R446). -/
def Hw.refInvalid (h : Hw) (p : Nat) : Hw := h.set (R.TIME_PSTAT_REF_VALID p) 0

/-- A thread of a closed engine has an empty mailbox and no event latched (R282, R291). -/
def Hw.threadClosed (h : Hw) (t : Nat) : Hw := (h.emptyMailbox t).modThread t fun th => { th with events := 0 }

/-- What entering Closed does to the function itself. -/
def Hw.enteredClosed (h : Hw) (f : FuncId) : Hw :=
  match f with
  | .slice x => (h.sliceClosed x).refInvalid (12 + x)
  | .eth n =>
    (((h.stop (.verify n)).drainLaneTx n).modEth n fun p =>
      { p with tx := none, next := [], suspended := none, assembly := none }).refInvalid n
  | .lane n => h.laneClosed n
  | .hop i => (h.hopClosed i).refInvalid (8 + i)
  | .engine e => (List.range 4).foldl (fun (h : Hw) k => h.threadClosed (4 * e + k)) h
  | .ring r => h.closePushers r
  | .queue _ => h

/-- A function that was closing enters Closed: CLOSED_EV is set, and PEND leads to Opening again. -/
def Hw.closed (h : Hw) (f : FuncId) : Hw :=
  let h := ((h.stop (.drain f)).set (fstatState f) stClosed).set (fstatClosedEv f) 1
  let h := h.enteredClosed f
  if h.flag (fstatPend f) then (h.set (fstatPend f) 0).open0 f else h

/-! ### Closing (R46) -/

/-- The thread counts as work of its engine (R48, R269). -/
def Hw.threadBusy (h : Hw) (t : Nat) : Bool := h.threadState t == thrRun || h.threadState t == thrWait

/-- No work of a function is in flight. -/
def Hw.drained (h : Hw) (f : FuncId) : Bool :=
  match f with
  | .slice x => !h.transmitting x && !h.receiving x && (h.slice x).cal.isNone
  | .eth n => h.portItems n == 0
  | .lane n => h.portItems n == 0
  | .hop i => h.portItems (8 + i) == 0
  | .engine e => (List.range 4).all fun k => !h.threadBusy (4 * e + k)
  | .ring r => h.ringCount r == 0 && (h.ringQueue r).isEmpty
  | .queue q => (h.queueFrames q).isEmpty

/-- Items aborted at a close are counted (R45). -/
def Hw.aborted (h : Hw) (f : FuncId) (n : Nat) : Hw := h.set (fstatAborted f) (min 0xFFFF (h.get (fstatAborted f) + n))

/-- The work that a close aborts at once: a suspended frame (R47), and the command a slice holds (R98). A pending retune
is discarded (R93), its PEND standing until Closed; a calibration that waits for the idle moment is discarded too, on
which R102 is silent (DESIGN CHOICE, log 45). -/
def Hw.abortAtEntry (h : Hw) (f : FuncId) : Hw × Nat :=
  match f with
  | .slice x =>
    let h := ((h.weltClosing x).modSlice x fun s => { s with calWaits := none, retune := none }).calState x
    match (h.slice x).held with
    | some _ =>
      let h := (h.stop (.hold x)).modSlice x fun s => { s with held := none }
      ({ h with txStatus := kput h.txStatus x .closedAbort }, 1)
    | none => (h, 0)
  | .eth n => h.ethAbortSuspended n
  | .hop i =>
    let (h, k) := h.hopAbortSuspended i
    (h.hopDown i, k)
  | _ => (h, 0)

/-- EN = 0 reaches an Open function: it enters Closing (R46). -/
def Hw.close0 (h : Hw) (f : FuncId) : Hw :=
  let h := ((h.set (fctlEn f) 0).set (fstatState f) stClosing).set (fstatAborted f) 0
  let h := h.start (.drain f) (2 ^ h.get (fctlDrainExp f) * 1000)
  let (h, k) := h.abortAtEntry f
  h.aborted f k

/-- A thread of an engine is aborted (R47): its frame is dropped, its locks are broken, its context is reset. -/
def Hw.abortThread (h : Hw) (t : Nat) : Hw :=
  ((((h.dropHeld t 253).breakLocksOf t).resetContext t).setThreadState t thrIdle)

/-- Every item still unfinished is aborted with CLOSED_ABORT (R46, R47, R102, R327, R333); the number of items. -/
def Hw.abortWork (h : Hw) (f : FuncId) : Hw × Nat :=
  match f with
  | .slice x =>
    let n := (if h.transmitting x then 1 else 0) + (if h.receiving x then 1 else 0) +
      (if (h.slice x).cal.isSome then 1 else 0)
    let h := if (h.slice x).cal.isSome then h.set (R.RFS_CAL_STAT_VALID x) 0 else h
    ((h.endTransmission x .closedAbort).dropReception x, n)
  | .eth n =>
    ((h.ethPort n).frames.foldl (fun (h : Hw) id => h.dropSelected n id) h, h.portItems n)
  | .lane n => (h, h.portItems n)
  | .hop i => (h, h.portItems (8 + i))
  | .engine e =>
    let ts := ((List.range 4).map (4 * e.val + ·)).filter h.threadBusy
    (ts.foldl (fun (h : Hw) t => h.abortThread t) h, ts.length)
  | .ring r =>
    let n := h.ringCount r + (h.ringQueue r).length
    let h := h.dropPending r
    (h.set (R.CKR_RING_CONS_CONS r) (h.ringProd r), n)
  | .queue q => h.flushQueue q

/-- DRAIN_COMPLETE (R46). -/
def Hw.drainComplete (h : Hw) (f : FuncId) : Hw := if h.funcState f = stClosing ∧ h.drained f then h.closed f else h
def execDrainComplete (f : FuncId) (s : State) : Host.Outcome State Fault Refusal := s.effect fun h => h.drainComplete f

/-- DRAIN_TIMEOUT (R46): unfinished work is aborted, and TIMED_OUT tells so. -/
def Hw.drainTimeout (h : Hw) (f : FuncId) : Hw :=
  if h.funcState f ≠ stClosing then h
  else if h.drained f then h.closed f
  else
    let (h, n) := h.abortWork f
    ((h.aborted f n).set (fstatTimedOut f) 1).closed f

def execDrainTimeout (f : FuncId) (s : State) : Host.Outcome State Fault Refusal :=
  s.effect fun h => h.onTimer (.drain f) fun h => h.drainTimeout f

/-! ### Writes of EN (R44, R46, R47) -/

/-- EN = 1 is written (R44, R47). -/
def Hw.enSet (h : Hw) (f : FuncId) : Hw :=
  if h.flag (fctlEn f) then h
  else if h.funcState f = stClosing then (h.set (fctlEn f) 1).set (fstatPend f) 1
  else h.open0 f

/-- EN = 0 is written (R46, R47). -/
def Hw.enClear (h : Hw) (f : FuncId) : Hw :=
  if !h.flag (fctlEn f) then h
  else if h.funcState f = stOpen then h.close0 f
  else
    let h := h.set (fctlEn f) 0
    if h.funcState f = stClosing then h.set (fstatPend f) 0
    else if h.funcState f = stOpening then (h.set (fstatState f) stClosed).enteredClosed f
    else h

/-- A write of an FCTL register: DRAIN_EXP, then EN. -/
def Hw.writeFctl (h : Hw) (f : FuncId) (v : Word) : Hw :=
  let h := h.set (fctlDrainExp f) (fieldOf v (fctlDrainExp f))
  if fieldOf v (fctlEn f) = 1 then h.enSet f else h.enClear f

def execFctlEnSet (f : FuncId) (s : State) : Host.Outcome State Fault Refusal := s.effect fun h => h.enSet f
def execFctlEnClear (f : FuncId) (s : State) : Host.Outcome State Fault Refusal := s.effect fun h => h.enClear f

end Sys2Proof.Machine
end

