-- ==== Sys2Proof/Machine/Islands.lean ====
section
/-!
DEFINITION. The island FIFOs: overrun and underrun (R77), HWM_CLR (R78), and the start of a frame by the lane transmit MAC
(R75).
-/
namespace Sys2Proof.Machine

/-- CONVERTER_RX_OVERRUN (R77, R170): the FIFO has filled; the reception is aborted, the noise floor restarts, and the
FIFO is flushed. -/
def execConverterRxOverrun (x : Fin 3) (c : Fin 8) (s : State) : Host.Outcome State Fault Refusal :=
  s.effectIf (decide (c.val < chainsOf x)) fun h =>
    let a := R.RFS_FIFO_STAT x c
    let k := fifoConvRx x c
    let h := ((h.fillFifo k a (fifoDepth k)).setFifo k 0).fifoEvent a
    (h.dropReception x).restartNoiseFloor x

/-- CONVERTER_TX_UNDERRUN (R77): the PPDU of the slice ends with TX_UNDERRUN. -/
def execConverterTxUnderrun (x : Fin 3) (c : Fin 8) (s : State) : Host.Outcome State Fault Refusal :=
  s.effectIf (decide (c.val < chainsOf x)) fun h =>
    ((h.setFifo (fifoConvTx x c) 0).fifoEvent (R.RFS_FIFO_STAT x c)).endTransmission x .txUnderrun

/-- The frame that is arriving from a source is not whole: it will not prove good. -/
def Hw.spoilStaged (h : Hw) (s : Nat) : Hw :=
  match kgetD [] h.fabric.staged s with
  | [] => h
  | g :: gs =>
    let l := (g :: gs).dropLast ++ ((g :: gs).getLast?.map fun x => { x with good := false }).toList
    { h with fabric := { h.fabric with staged := kput h.fabric.staged s l } }

/-- LANE_RX_OVERRUN (R77): the frame in progress is truncated and discarded. -/
def execLaneRxOverrun (n : Fin 12) (s : State) : Host.Outcome State Fault Refusal :=
  s.effect fun h =>
    let a := R.LANE_FIFO_STAT n
    let k := fifoLaneRx n
    let h := ((h.fillFifo k a (fifoDepth k)).setFifo k 0).fifoEvent a
    if n.val < 8 then
      match (h.ethPort n).assembly with
      | some _ => h.modEth n fun p => { p with assembly := none }
      | none => h.spoilStaged n
    else
      match (h.hop (n - 8)).arriving with
      | some _ => h.cutArrival (n - 8)
      | none => h.spoilStaged n

/-- LANE_TX_UNDERRUN (R77): the frame that the MAC has started ends with an error control block and is not resent. -/
def execLaneTxUnderrun (n : Fin 12) (s : State) : Host.Outcome State Fault Refusal :=
  s.effect fun h =>
    let h := (h.drainLaneTx n).fifoEvent (R.LANE_FIFO_STAT n)
    if n.val < 8 then
      match (h.ethPort n).tx with
      | some x => if x.started then ((h.dropSelected n x.frame).atBall n []).ethNext n else h
      | none => h
    else
      match (h.hop (n - 8)).tx with
      | some x => if x.startAt.isSome && h.hopSending (n - 8) then h.cutTx (n - 8) else h
      | none => h

/-- The FIFO number and the status register of a converter FIFO or a lane FIFO: 8x + c, 64 + n. -/
def fifoRegister (k : Nat) : Option Nat :=
  if k < 24 ∧ k % 8 < chainsOf (k / 8) then some (R.RFS_FIFO_STAT (k / 8) (k % 8))
  else if 64 ≤ k ∧ k < 76 then some (R.LANE_FIFO_STAT (k - 64))
  else none

/-- HWM_CLR (R78). -/
def execHwmClr (k : Fin 76) (s : State) : Host.Outcome State Fault Refusal :=
  s.effectIf (fifoRegister k).isSome fun h =>
    match fifoRegister k with
    | some a => h.clearHwm k a
    | none => h

/-- With `level` words of a frame of `words` in the transmit FIFO of lane `n`, its MAC may start it (R75). -/
def Hw.prefilled (h : Hw) (n words level : Nat) : Bool := decide (min words (lanePrefill (h.laneRate n)) ≤ level)

/-- LANE_TX_FRAME_START (R75): with `level` words of the frame that waits in its FIFO, the MAC starts it once the whole of
it or the prefill is there. The whole of a frame that leaves cut-through is not known yet. -/
def execLaneTxFrameStart (n : Fin 12) (level : Fin 65) (s : State) : Host.Outcome State Fault Refusal :=
  s.effect fun h =>
    let fill (h : Hw) : Hw := h.fillFifo (fifoLaneTx n) (R.LANE_FIFO_STAT n) level
    if n.val < 8 then
      match (h.ethPort n).tx with
      | some x =>
        if x.started then h
        else if (fill h).prefilled n (h.ethWords x) level then (fill h).ethStart n x
        else fill h
      | none => h
    else
      match (h.hop (n - 8)).tx with
      | some x =>
        if x.startAt.isSome then h
        else if (fill h).prefilled n (if x.total = 0 then fifoDepth (fifoLaneTx n) else (x.total + 7) / 8) level then
          (fill h).hopStart (n - 8) x
        else fill h
      | none => h

end Sys2Proof.Machine
end

