-- ==== Sys2Proof/Machine/Router.lean ====
section
/-!
DEFINITION. The router tables of the ETH block: commands and lookups (R383 to R385).
-/
namespace Sys2Proof.Machine

/-- The key in the argument registers, and a key's place with a length (R383, R384). -/
def Hw.rtKey (h : Hw) : Nat := h.get (R.ETH_RT_ARG_ARG 0) + 2 ^ 32 * h.get (R.ETH_RT_ARG_ARG 1)
def Hw.rtValue (h : Hw) : Nat := h.get (R.ETH_RT_ARG_ARG 2)
def Hw.rtLen (h : Hw) : Nat := h.get (R.ETH_RT_ARG_ARG 3) % 128
def lpmPlace (key len : Nat) : Nat := 128 * key + len

/-- Capacities, and the count from which an insert may find no place (R383). -/
def lpmCapacity : Nat := 32768
def emCapacity : Nat := 131072
def emGuaranteed : Nat := 122880

/-- The command's status, and its end (R384). -/
def Hw.rtDone (h : Hw) (status : Nat) : Hw :=
  let h := (h.set R.ETH_RT_RSP_STATUS status).set R.ETH_RT_RSP_DONE_EV 1
  (h.set R.ETH_RT_LPM_USED_USED h.router.lpm.length).set R.ETH_RT_EM_USED_USED h.router.em.length

def Hw.setLpm (h : Hw) (m : NMap Nat) : Hw := { h with router := { h.router with lpm := m } }
def Hw.setEm (h : Hw) (m : NMap Nat) : Hw := { h with router := { h.router with em := m } }

/-- The arguments of a prefix command are bad: LEN above 64, or a key bit below the prefix (R384). -/
def prefixBad (key len : Nat) : Bool := decide (64 < len) || key % 2 ^ (64 - len) != 0

/-- LPM_ADD. -/
def Hw.lpmAdd (h : Hw) : Hw :=
  let k := lpmPlace h.rtKey h.rtLen
  if prefixBad h.rtKey h.rtLen then h.rtDone 4
  else if (kget h.router.lpm k).isNone && decide (lpmCapacity ≤ h.router.lpm.length) then h.rtDone 2
  else (h.setLpm (kput h.router.lpm k h.rtValue)).rtDone 0

/-- LPM_DEL. -/
def Hw.lpmDel (h : Hw) : Hw :=
  let k := lpmPlace h.rtKey h.rtLen
  if prefixBad h.rtKey h.rtLen then h.rtDone 4
  else if (kget h.router.lpm k).isNone then h.rtDone 1
  else (h.setLpm (kdel h.router.lpm k)).rtDone 0

/-- EM_ADD (R383, R384): from 122,880 keys on, whether a new key finds a place is open. -/
def Hw.emAdd (h : Hw) : Hw :=
  let isNew := (kget h.router.em h.rtKey).isNone
  if isNew && decide (emCapacity ≤ h.router.em.length) then h.rtDone 2
  else if isNew && decide (emGuaranteed ≤ h.router.em.length) && (Config.freeWord h.free).getLsbD 0 then (h.rtDone 3).drawn
  else ((h.setEm (kput h.router.em h.rtKey h.rtValue)).rtDone 0).drawn

/-- EM_DEL. -/
def Hw.emDel (h : Hw) : Hw :=
  if (kget h.router.em h.rtKey).isNone then h.rtDone 1 else (h.setEm (kdel h.router.em h.rtKey)).rtDone 0

def Hw.lpmClear (h : Hw) : Hw := (h.setLpm []).rtDone 0
def Hw.emClear (h : Hw) : Hw := (h.setEm []).rtDone 0

/-- A write of ETH_RT_CMD (R384). -/
def Hw.writeRtCmd (h : Hw) (v : Word) : Hw :=
  match fieldOf v R.ETH_RT_CMD_OP with
  | 0 => h.lpmAdd
  | 1 => h.lpmDel
  | 2 => h.emAdd
  | 3 => h.emDel
  | 4 => h.lpmClear
  | 5 => h.emClear
  | _ => h.rtDone 4

def execLpmAdd (s : State) : Host.Outcome State Fault Refusal := s.effect fun h => h.lpmAdd
def execLpmDel (s : State) : Host.Outcome State Fault Refusal := s.effect fun h => h.lpmDel
def execEmAdd (s : State) : Host.Outcome State Fault Refusal := s.effect fun h => h.emAdd
def execEmDel (s : State) : Host.Outcome State Fault Refusal := s.effect fun h => h.emDel
def execLpmClear (s : State) : Host.Outcome State Fault Refusal := s.effect fun h => h.lpmClear
def execEmClear (s : State) : Host.Outcome State Fault Refusal := s.effect fun h => h.emClear

/-! ### Lookups (R385) -/

def Hw.slotKey (h : Hw) (k : Nat) : Nat := h.get (R.ETH_SLOT_KEY_LO_KEY k) + 2 ^ 32 * h.get (R.ETH_SLOT_KEY_HI_KEY k)

/-- A result: VALUE, matched length, HIT. -/
def lookupResult (value len : Nat) : Nat := value + 2 ^ 32 * len + 2 ^ 63

/-- The longest prefix of a key among lengths `len` down to 0. -/
def longestPrefix (m : NMap Nat) (key len : Nat) : Nat :=
  let look (l : Nat) : Option Nat := kget m (lpmPlace (key / 2 ^ (64 - l) * 2 ^ (64 - l)) l)
  match look len with
  | some v => lookupResult v len
  | none =>
    match len with
    | 0 => 0
    | l + 1 => longestPrefix m key l

def Hw.lpmLookup (h : Hw) (key : Nat) : Nat := longestPrefix h.router.lpm key 64

def Hw.emLookup (h : Hw) (key : Nat) : Nat :=
  match kget h.router.em key with
  | some v => lookupResult v 64
  | none => 0

/-- The result of a lookup stands where the slot's reader finds it. -/
def Hw.slotAnswer (h : Hw) (lo hi v : Nat) : Hw := (h.setWord lo (BitVec.ofNat 32 v)).setWord hi (BitVec.ofNat 32 (v / 2 ^ 32))

/-- A read of slot offset +0x08, and of +0x10. -/
def Hw.slotLpm (h : Hw) (k : Nat) : Hw := h.slotAnswer (R.ETH_SLOT_LPM_LO k) (R.ETH_SLOT_LPM_HI k) (h.lpmLookup (h.slotKey k))
def Hw.slotEm (h : Hw) (k : Nat) : Hw := h.slotAnswer (R.ETH_SLOT_EM_LO k) (R.ETH_SLOT_EM_HI k) (h.emLookup (h.slotKey k))

def execLpmLookup (k : Fin 264) (s : State) : Host.Outcome State Fault Refusal := s.effect fun h => h.slotLpm k
def execEmLookup (k : Fin 264) (s : State) : Host.Outcome State Fault Refusal := s.effect fun h => h.slotEm k

end Sys2Proof.Machine
end

