-- ==== Sys2Proof/Machine/Startup.lean ====
section
/-!
DEFINITION. Reset, boot and recovery (R565 to R573): the release of the main-domain reset, the software reset, the boot
ROM's choice of an image, and its recovery over Ethernet port 0.
-/
namespace Sys2Proof.Machine

/-! ### The release of the main-domain reset (R565, R566, R569) -/

/-- A seed of a neighbour-refresh LFSR: random, and never zero (R503). -/
def Hw.seedLfsr (h : Hw) (c : Nat) : Hw :=
  let (h, w) := h.randomBits
  h.modChannel c fun k => { k with lfsr := if w = 0 then 1 else w, debtAt := h.et }

/-- 256 bits from the random source (R537). -/
def Hw.draw256 (h : Hw) : Hw × Nat :=
  (List.range 8).foldl (fun (x : Hw × Nat) _ => let (h, w) := x.1.randomBits; (h, x.2 * 2 ^ 32 + w.toNat)) (h, 0)

/-- A DRAM address. -/
def isDram (a : Nat) : Bool := decide (0x1000000000 ≤ a)

/-- What a cold boot adds: the DRAM goes unrefreshed and its controller restarts UNTRAINED; the latch takes a new key
(R537, R566). -/
def Hw.coldBoot (h : Hw) : Hw :=
  let h := h.loseMemory isDram
  let h := { h with dram := ⟨[], false, []⟩ }
  let (h, key) := h.draw256
  { h with iltil := { h.iltil with latch := key, entryCnt := 0 } }

/-- The RSSI trims of every chain come from OTP at every main-domain reset (R168). -/
def Hw.loadTrims (h : Hw) : Hw :=
  [0, 1, 2].foldl (fun (h : Hw) x => h.forChains x fun c h =>
    h.setWord (R.PHY_RSSI_CAL x c) ((Config.rssiTrim (8 * x + c)).setWidth 32)) h

/-- The main-domain reset is released (R565, R566, R569): causes are recorded; a shared SRAM that lost its power is
cleared (R484); the OTP shadows and the lifecycle state are loaded, and the LFSRs seeded. -/
def Hw.releaseReset (h : Hw) : Hw :=
  match h.boot.reset with
  | none => h
  | some c =>
    if !h.heel.powered then h
    else
      let h := h.set R.SYS_RST_REC_PREV (h.get R.SYS_RST_REC_CAUSE)
      let h := (h.set R.SYS_RST_REC_CAUSE c).setFlag R.SYS_RST_REC_HEEL_LOST (c ≤ 1)
      let h := if c = 7 then h else h.bump R.SYS_RST_REC_COLD_CNT
      let h := if c = 7 ∨ c = 6 then h else h.setPs psRun
      let h := { h with boot := { h.boot with reset := none, powerLoss := false } }
      let h := h.loadShadows.loadTrims
      let h := if c = 7 then h else h.coldBoot
      let h := (h.seedLfsr 0).seedLfsr 1
      let h := { h with traffic := { h.traffic with epoch := h.et } }
      let h := h.start .sweep h.sweepPeriod
      let h := [0, 1, 2].foldl (fun (h : Hw) x => h.start (.temp x) 1024000) h
      if c = 7 then
        [0, 1, 2].foldl (fun (h : Hw) x => h.modSlice x fun s => { s with needFull := false, woken := true }) h
      else h

def execMainResetRelease (s : State) : Host.Outcome State Fault Refusal := s.effectHeel fun h => h.releaseReset

/-- KEY_WRITE (R567, R568): only core 0, or the debug port in a Full session, and only in Run; a lifecycle command in
progress brings its own reset. -/
def Hw.softwareReset (h : Hw) (m key : Nat) : Hw :=
  if key ≠ 0x5253 ∨ !h.inRun ∨ !(m == 0 || (m == 25 && h.fullSession)) then h
  else if h.flag R.ILT_LC_STAT_BUSY then h
  else h.mainReset 5 false

def execKeyWrite (m : Fin 27) (s : State) : Host.Outcome State Fault Refusal :=
  s.effect fun h => h.softwareReset m 0x5253

/-! ### Images (R570 to R572) -/

/-- Core `n` runs from `entry` in machine mode (R460). -/
def Hw.startCore (h : Hw) (n entry : Nat) : Hw :=
  let h := h.set (R.SYS_CORE_STAT_STATE n) 1
  { h with bench := { h.bench with started := kput h.bench.started n entry } }

/-- An image starts at its entry (R572, R573). -/
def Hw.startImage (h : Hw) (copy : Nat) (i : ImageHeader) : Hw :=
  let h := (h.set R.SYS_BOOT_REC_COPY copy).set R.SYS_BOOT_REC_BOOTED 1
  { (h.startCore 0 i.entry) with boot := { h.boot with recovery := false } }

/-- Iltil lets the image that it verified last start (R521). -/
def Hw.mayStart (h : Hw) : Bool := h.flag R.ILT_BOOT_STAT_VERIFIED || h.flag R.ILT_BOOT_STAT_UNVERIFIED

/-- The RES field of a copy. -/
def bootResult (k : Nat) : RF := match k with
  | 0 => R.SYS_BOOT_REC_RES0
  | 1 => R.SYS_BOOT_REC_RES1
  | _ => R.SYS_BOOT_REC_RES2

/-- A try of copy `k` (R572): its payload goes to LOAD, and Iltil verifies it; the result tells whether it started. -/
def Hw.tryCopy (h : Hw) (k : Nat) (f : FlashCopy) : Hw × Bool :=
  let i : ImageHeader := ⟨f.header⟩
  let h := if i.placed then h.storeBytes i.load (f.payload.take i.length) else h
  let h := h.imageVerify f.header
  let h := h.set (bootResult k) (h.get R.ILT_BOOT_STAT_RESULT)
  if h.mayStart then (h.startImage k i, true) else (h, false)

def Hw.tryCopies (h : Hw) (l : List (Nat × FlashCopy)) : Hw × Bool :=
  match l with
  | [] => (h, false)
  | (k, f) :: rest =>
    match h.tryCopy k f with
    | (h, true) => (h, true)
    | (h, false) => h.tryCopies rest

/-- The copies in the order of R572: copies 0 and 1 whose MAGIC is right, the higher SVN first; copy 2 last. -/
def flashOrder (f : Flash) : List (Nat × FlashCopy) :=
  let svn (c : FlashCopy) : Nat := (ImageHeader.mk c.header).svn
  let pair := if svn f.copy0 < svn f.copy1 then [(1, f.copy1), (0, f.copy0)] else [(0, f.copy0), (1, f.copy1)]
  (pair.filter fun x => (ImageHeader.mk x.2.header).magic) ++ [(2, f.copy2)]

/-! ### Recovery (R573) -/

/-- The address of port 0 in recovery. -/
def Hw.recoveryAddr (h : Hw) : Nat := 0x02 * 2 ^ 40 + ((h.otpWord 24).toNat + 2 ^ 32 * (h.otpWord 25).toNat) % 2 ^ 40

/-- A window of recovery at a target: masters 0, 19, 20 and 21. -/
def Hw.recoveryWindow (h : Hw) (t w base limit : Nat) : Hw := h.loadRecord ⟨t, w, base, limit, 0x380001, 0x380001⟩

/-- The perfect-match entry `n` of recovery. -/
def Hw.recoveryEntry (h : Hw) (n addr : Nat) : Hw :=
  let h := (h.set (R.CKR_PM_W0_DA_LO n) addr).set (R.CKR_PM_W1_DA_HI n) (addr / 2 ^ 32)
  let h := (h.set (R.CKR_PM_W1_ETYPE n) 0x88B5).set (R.CKR_PM_W2_PORTS n) 1
  (h.set (R.CKR_PM_W2_EN n) 1).set (R.CKR_PM_W2_ET_EN n) 1

/-- The ROM enters recovery: its windows, its filter entries, port 0 at 1000BASE-X. -/
def Hw.enterRecovery (h : Hw) : Hw :=
  let h := h.set R.SYS_BOOT_REC_RECOV 1
  let h := if h.lifecycle = lcBlank then h
    else (List.range 32).foldl (fun (h : Hw) t =>
      (h.recoveryWindow t 0 0x11000000 0x117FFFFF).recoveryWindow t 1 0x10000000 0x10FFFFFF) h
  let h := (h.set (R.ETH_ADDR_LO_ADDR 0) h.recoveryAddr).set (R.ETH_ADDR_HI_ADDR 0) (h.recoveryAddr / 2 ^ 32)
  let h := (h.recoveryEntry 0 h.recoveryAddr).recoveryEntry 1 (2 ^ 48 - 1)
  let h := (h.set (R.LANE_CTL_RATE_MAX 0) 0).set R.CKR_CTL_MODE 0
  let h := { h with boot := { h.boot with recovery := true, header := List.replicate 512 0 } }
  (h.enSet (.lane 0)).enSet (.eth 0)

/-- CORE0_BOOT (R570 to R572, R549): core 0 enters the ROM. -/
def Hw.core0Boot (h : Hw) (f : Flash) : Hw :=
  let cause := h.get R.SYS_RST_REC_CAUSE
  let entered (h : Hw) : Hw := { h with boot := { h.boot with waits := false } }
  if !h.boot.waits || (cause == 7 && !h.boot.restored) then h
  else if cause = 7 then
    let h := (entered h).startCore 0 0x30030000
    ((List.range 8).drop 1).foldl (fun (h : Hw) n =>
      if h.flag (R.SYS_CORE_CTL_RUN n) then
        h.startCore n (h.pair (R.SYS_CORE_ENTRY_LO n) (R.SYS_CORE_ENTRY_HI n) / 4 * 4)
      else h) h
  else if h.lifecycle = lcRetired then
    let h := ((entered h).setFreeBytes 0x30008000 4).set R.SYS_BOOT_REC_BOOTED 0
    (h.startCore 0 0).set (R.SYS_CORE_STAT_STATE 0) 2
  else
    let h := (entered h).startCore 0 0
    let mode := if f.mode.val = 0 then 0 else if cause = 6 then 1 else f.mode.val
    let h := h.set R.SYS_BOOT_REC_FLASH mode
    match (if mode = 0 then (h, false) else h.tryCopies (flashOrder f)) with
    | (h, true) => h
    | (h, false) => h.enterRecovery

/-- The flash's headers are 352 bytes long (R520). -/
def flashSound (f : Flash) : Bool :=
  f.copy0.header.length == 352 && f.copy1.header.length == 352 && f.copy2.header.length == 352

def execCore0Boot (f : Flash) (s : State) : Host.Outcome State Fault Refusal := s.effectIf (flashSound f) fun h => h.core0Boot f

/-- Recovery runs, and its port carries frames. -/
def Hw.recovering (h : Hw) : Bool := h.boot.recovery && h.ethState 0 == stOpen && h.ethLink 0

/-- A recovery reply leaves port 0 (R573). -/
def Hw.recoveryReply (h : Hw) (dst op status seq offset : Nat) (data : List Byte) : Hw :=
  let bs := padded (bytesBE 6 dst ++ bytesBE 6 h.recoveryAddr ++ bytesBE 2 0x88B5 ++ bytesBE 1 (op + 0x80) ++ bytesBE 1 status ++
    bytesBE 2 seq ++ bytesBE 4 offset ++ bytesBE 2 data.length ++ data)
  h.atBall 0 [bs ++ fcsOf bs]

/-- RECOVERY_HELLO (R573): the device ID, ILT_LC_STAT and SYS_BOOT_REC. -/
def execRecoveryHello (src : BitVec 48) (seq : BitVec 16) (s : State) : Host.Outcome State Fault Refusal :=
  s.effect fun h =>
    if !h.recovering then h
    else
      h.recoveryReply src.toNat 1 0 seq.toNat 0
        (wordsBytes [h.otpWord 24, h.otpWord 25, h.word R.ILT_LC_STAT, h.word R.SYS_BOOT_REC])

/-- Bytes placed in the header buffer from offset `o`. -/
def placeHeader (buf : List Byte) (o : Nat) (bs : List Byte) : List Byte :=
  buf.take o ++ bs ++ buf.drop (o + bs.length)

/-- A recovery WRITE (R573): its status, with the bytes in place. -/
def Hw.recoveryWrite (h : Hw) (offset : Nat) (data : List Byte) : Hw × Nat :=
  let i : ImageHeader := ⟨h.boot.header⟩
  let low := data.take (512 - offset)
  let high := data.drop (512 - offset)
  let at0 := i.load + (max offset 512 - 512)
  if 1024 < data.length then (h, 1)
  else if !high.isEmpty ∧ !(i.magic && decide (0x11000000 ≤ at0) && decide (at0 + high.length ≤ 0x11800000)) then (h, 1)
  else
    let h := { h with boot := { h.boot with header := if low.isEmpty then h.boot.header else placeHeader h.boot.header offset low } }
    (h.storeBytes at0 high, 0)

/-- RECOVERY_WRITE. -/
def execRecoveryWrite (src : BitVec 48) (seq : BitVec 16) (offset : Word) (data : List Byte) (s : State) :
    Host.Outcome State Fault Refusal :=
  s.effect fun h =>
    if !h.recovering then h
    else
      let (h, status) := h.recoveryWrite offset.toNat data
      h.recoveryReply src.toNat 2 status seq.toNat offset.toNat []

/-- RECOVERY_BOOT (R573): Iltil verifies the image; one that may start does. -/
def execRecoveryBoot (src : BitVec 48) (seq : BitVec 16) (s : State) : Host.Outcome State Fault Refusal :=
  s.effect fun h =>
    if !h.recovering then h
    else
      let header := h.boot.header.take 352
      let h := h.imageVerify header
      if h.mayStart then (h.recoveryReply src.toNat 3 0 seq.toNat 0 []).startImage 3 ⟨header⟩
      else h.recoveryReply src.toNat 3 2 seq.toNat 0 [BitVec.ofNat 8 (h.get R.ILT_BOOT_STAT_RESULT)]

end Sys2Proof.Machine
end

