-- ==== Sys2Proof/Machine/RegRead.lean ====
section
/-!
DEFINITION. Reads of registers (R17 to R19): the live word of every register, the reads that act (R385, R491, R525,
R527), and the latches of multi-word quantities.
-/
namespace Sys2Proof.Machine

/-! ### Live words -/

/-- AWL_EXC_SUM (R267): the engines with EXC_EV set in some thread. -/
def Hw.excSum (h : Hw) : Nat :=
  (List.range 64).foldl (fun w e =>
    if (List.range 4).any fun k => h.flag (R.AWL_THR_STAT_EXC_EV e k) then w + 2 ^ e else w) 0

/-- ETH_STAT.PORT_HALF (R390). -/
def Hw.portHalf (h : Hw) : Nat :=
  (List.range 8).foldl (fun w n => if h.flag (R.ETH_PSTAT_HALF_EV n) then w + 2 ^ n else w) 0

/-- The register at `a` is the PN_HI of an SA of some port's MACsec window; its port (R369). -/
def pnHiPort (a : Nat) : Option Nat :=
  let o := (a - R.ETH_TX_KEY 0 0 0) % 0x2000
  let sa := if o < 0x400 then o else (o - 0x400) % 0x200
  if R.ETH_TX_KEY 0 0 0 ≤ a ∧ a < R.ETH_TX_KEY 8 0 0 ∧ o < 0x1400 ∧ (o < 0x400 ∧ sa < 0x100 ∨ 0x400 ≤ o ∧ 0x40 ≤ sa ∧ sa < 0x140) ∧
      sa % 0x40 = 0x34 then
    some ((a - R.ETH_TX_KEY 0 0 0) / 0x2000)
  else none

/-- A stored word with one field derived. -/
def Hw.wordWith (h : Hw) (f : RF) (v : Nat) : Nat := (setBitsOf (h.word f.addr) f.lo f.len v).toNat

/-- The words of the register blocks 0x407 to 0x40D that are not stored as they read; none: another register. -/
def Hw.derivedWord (h : Hw) (a : Nat) : Option Nat :=
  let b := a / 0x100000
  let bit (x : Bool) : Nat := if x then 1 else 0
  if b = 0x407 then
    let n := a % 0x100000 / 0x1000
    if a = R.LANE_BIT_LO n then some ((h.settleBits n).bitCount n % 2 ^ 32)
    else if a = R.LANE_BIT_HI n then some ((h.settleBits n).bitCount n / 2 ^ 32)
    else none
  else if b = 0x409 then
    let n := (a - R.ETH_FCTL 0) / 0x2000
    if a = R.ETH_STAT then some (h.wordWith R.ETH_STAT_PORT_HALF h.portHalf)
    else if R.ETH_FCTL 0 ≤ a ∧ a = R.ETH_GATE_STAT n then some (h.wordWith (R.ETH_GATE_STAT_IN_EXT n) (bit (h.gateInExt n)))
    else if R.ETH_FCTL 0 ≤ a ∧ n < 8 ∧ (a = R.ETH_CNT_LO n 15 ∨ a = R.ETH_CNT_HI n 15) then
      some ((h.settlePause n (h.pauseReach n)).word a).toNat
    else
      -- Without XPN, PN_HI reads zero (R369).
      match pnHiPort a with
      | some n => if h.xpn n then none else some 0
      | none => none
  else if b = 0x40A then
    let k := (a - R.TM_SHP_RATE 0) / 0x10
    if R.TM_SHP_RATE 0 ≤ a ∧ k < 1024 ∧ a = R.TM_SHP_CREDIT k then some (unsignedOf 26 (h.creditNow k / 1024)) else none
  else if b = 0x40C then
    let e := (a - R.AWL_FCTL 0) / 0x100
    let k := (a - R.AWL_THR_STAT e 0) / 0x20
    if a = R.AWL_EXC_SUM_LO then some (h.excSum % 2 ^ 32)
    else if a = R.AWL_EXC_SUM_HI then some (h.excSum / 2 ^ 32)
    else if R.AWL_FCTL 0 ≤ a ∧ R.AWL_THR_STAT e 0 ≤ a ∧ a = R.AWL_THR_STAT e k then
      some (setBitsOf (setBitsOf (h.word a) 3 1 (bit (h.privileged (4 * e + k)))) 4 1 (bit (expressThread (4 * e + k)))).toNat
    else none
  else if b = 0x40D then
    if R.WELT_TIM 0 ≤ a ∧ a < R.WELT_TIM 64 then some (h.timWord ((a - R.WELT_TIM 0) / 4)).toNat else none
  else none

/-- The bits of a register that a read finds: WO bits read zero (R18). -/
def readable (a : Nat) : Word :=
  match regRow a with
  | some r => ~~~(BitVec.ofNat 32 r.wo)
  | none => 0

/-- The live word of the register at `a`. -/
def Hw.liveWord (h : Hw) (a : Nat) : Word :=
  let b := a / 0x100000
  let special := match b with
    | 0x401 => h.heelRead a
    | 0x402 => h.iltRead a
    | 0x404 => h.drcRead a
    | 0x406 => h.timeRead a
    | _ => h.derivedWord a
  (match special with
    | some n => BitVec.ofNat 32 n
    | none => h.word a) &&& readable a

/-! ### Reads that act -/

/-- What a read of the register at `a` by master `m` does, and the live word it finds: an acquisition of a lock (R491), a
draw from the random source (R525), the last key word (R527), a lookup (R385). -/
def Hw.readWord (h : Hw) (m a : Nat) : Hw × Word :=
  let k := (a - R.ETH_SLOT_KEY_LO 0) / 0x20
  if R.SHK_LOCK_STAT 0 ≤ a ∧ a < R.SHK_LOCK_STAT 1024 ∧ a % 16 = 4 then
    let (h, st) := h.lockAcqRead m ((a - R.SHK_LOCK_STAT 0) / 16)
    (h, BitVec.ofNat 32 st)
  else if a = R.ILT_RNG then h.draw
  else if a = R.ILT_KL_OUT 7 then h.klOutRead
  else if R.ETH_SLOT_KEY_LO 0 ≤ a ∧ a < R.ETH_SLOT_KEY_LO 264 then
    if a = R.ETH_SLOT_LPM_LO k ∨ a = R.ETH_SLOT_LPM_HI k then ((h.slotLpm k), (h.slotLpm k).liveWord a)
    else if a = R.ETH_SLOT_EM_LO k ∨ a = R.ETH_SLOT_EM_HI k then ((h.slotEm k), (h.slotEm k).liveWord a)
    else (h, h.liveWord a)
  else (h, h.liveWord a)

/-! ### Latches (R17) -/

/-- The master a requester acts as: masters 0 to 26 are themselves, Awl thread `t` is 64 + t. -/
def masterOf (r : Nat) : Nat := if 64 ≤ r then 8 + (r - 64) / 32 else r

/-- The number of words of the quantity whose lowest word is the register at `a`; 0: none. -/
def quantityWords (a : Nat) : Nat :=
  match regRow a with
  | some r => r.multi
  | none => 0

/-- The latched value a requester's read of `a` returns, if its latch holds one. -/
def Hw.latched (h : Hw) (r a : Nat) : Option Word :=
  match kget h.latches r with
  | some l => if l.base < a ∧ a % 4 = 0 then l.words[(a - l.base) / 4 - 1]? else none
  | none => none

/-- The `n` words above `a` are latched for requester `r`. -/
def Hw.setLatch (h : Hw) (r a n : Nat) : Hw :=
  { h with latches := kput h.latches r ⟨a, (List.range n).map fun i => h.liveWord (a + 4 * (i + 1))⟩ }

/-- A word read by requester `r`: of a higher word of its latched quantity, the latched value. -/
def Hw.readLatched (h : Hw) (r a : Nat) : Hw × Word :=
  match h.latched r a with
  | some w => (h, w)
  | none => h.readWord (masterOf r) a

/-- A 32-bit read of the register at `a` by requester `r`: of the lowest word of a multi-word quantity, it latches the
rest. -/
def Hw.read32 (h : Hw) (r a : Nat) : Hw × Word :=
  match quantityWords a with
  | 0 => h.readLatched r a
  | n =>
    let (h, w) := h.readWord (masterOf r) a
    (h.setLatch r a (n - 1), w)

/-- A 64-bit read of the pair at `a` by requester `r`: of the lowest pair of a quantity of more than two words, it
latches the rest. -/
def Hw.read64 (h : Hw) (r a : Nat) : Hw × Nat :=
  let n := quantityWords a
  if 2 ≤ n then
    let (h, lo) := h.readWord (masterOf r) a
    let (h, hi) := (h, h.liveWord (a + 4))
    (if 2 < n then h.setLatch r (a + 4) (n - 2) else h, lo.toNat + 2 ^ 32 * hi.toNat)
  else
    let (h, lo) := h.readLatched r a
    let (h, hi) := h.readLatched r (a + 4)
    (h, lo.toNat + 2 ^ 32 * hi.toNat)

/-- An access to registers that R17 allows, at registers that exist (R19): 32 bits at 4, 64 bits at 8. -/
def registerAccess (a n : Nat) : Bool :=
  let r := registerAddr a
  isRegister a &&
  ((n == 4 && a % 4 == 0 && (regRow r).isSome) || (n == 8 && a % 8 == 0 && (regRow r).isSome && (regRow (r + 4)).isSome))

/-- A register access that passed its checks: the value read. -/
def Hw.regRead (h : Hw) (r a n : Nat) : Hw × Nat :=
  let a := registerAddr a
  if n = 8 then h.read64 r a
  else
    let (h, w) := h.read32 r a
    (h, w.toNat)

/-- LATCHING_READ (R17): requester `r` (master 0 to 26, or 64 + t for Awl thread t) reads 32 or 64 bits at `addr`. The
answer, or the failure of R31 and R481, is kept where the requester finds it. -/
def execLatchingRead (r : Fin 320) (addr : BitVec 40) (wide : Bool) (s : State) : Host.Outcome State Fault Refusal :=
  s.effectIf (decide (r.val < 27) || decide (64 ≤ r.val)) fun h =>
    let n := if wide then 8 else 4
    let m := masterOf r
    let a := addr.toNat
    let answer (h : Hw) (outcome v : Nat) : Hw :=
      { h with shank := { h.shank with replies := kput h.shank.replies r.val ⟨m, a, outcome, bytesLE n v⟩ } }
    if isRegister a && !h.permits ((targetOf a).getD 0) m a false then answer (h.shankError m a 2 false) 2 0
    else if !registerAccess a n then answer (h.shankError m a 1 false) 1 0
    else
      let (h, v) := h.regRead r a n
      answer h 0 v

end Sys2Proof.Machine
end

