-- ==== Sys2Proof/Machine/Interrupts.lean ====
section
/-!
DEFINITION. The levels of the interrupt sources (R475, R511, R513, R563), each as its own chapter gives it, and the post
of a source to the Bench.
-/
namespace Sys2Proof.Machine

/-- Some instance below `n` has a flag. -/
def Hw.anyFlag (h : Hw) (n : Nat) (f : Nat → RF) : Bool := (List.range n).any fun i => h.flag (f i)

/-- The sources of a slice (R475): RFS function, FIFO, synthesiser, calibration, VSWR, mask, STR, PHY noise floor. -/
def Hw.sliceLevel (h : Hw) (x j : Nat) : Bool :=
  match j with
  | 0 => h.flag (R.RFS_FSTAT_CLOSED_EV x)
  | 1 => h.anyFlag (chainsOf x) (R.RFS_FIFO_STAT_EVT x)
  | 2 => h.flag (R.RFS_SYNTH_FAULT_EV x)
  | 3 => h.flag (R.RFS_CAL_STAT_DONE_EV x)
  | 4 => h.anyFlag (chainsOf x) (R.RFS_VSWR_ALARM x)
  | 5 => h.flag (R.RFS_MASK_STAT_FAIL_EV x)
  | 6 => h.flag (R.RFS_STR_STAT_CHG_EV x)
  | _ => h.flag (R.PHY_NF_STAT_UPD_EV x)

/-- The interrupt of a ring (R332). -/
def Hw.ringLevel (h : Hw) (r : Nat) : Bool :=
  h.flag (R.CKR_RING_CFG_IRQ_EN r) && (if h.ringMode r = 2 then h.ringProd r == h.ringCons r else h.ringProd r != h.ringCons r)

/-- Whether interrupt source `i` is high. Of source 232, ILT lifecycle, the manual does not say when it is: a free
value. -/
def Hw.irqLevel (h : Hw) (i : Nat) : Bool :=
  if 8 ≤ i ∧ i < 32 then h.sliceLevel ((i - 8) / 8) (i % 8)
  else if 36 ≤ i ∧ i < 39 then h.flag (R.LAST_STAT_SWAP_EV (i - 36)) || h.flag (R.LAST_STAT_STEP_EV (i - 36))
  else if 72 ≤ i ∧ i < 84 then
    let n := i - 72
    h.flag (R.LANE_STAT_NO_PARTNER_EV n) || h.flag (R.LANE_STAT_UP_EV n) || h.flag (R.LANE_STAT_DOWN_EV n)
  else if 128 ≤ i ∧ i < 192 then h.ringLevel (i - 128)
  else
    match i with
    | 0 => h.flag R.SYS_SPEED_STAT_BELOW
    | 1 => h.flag R.SYS_AVS_STAT_BUS_FAIL
    | 2 => h.anyFlag 3 R.SYS_CX_STAT_REVOKE_EV
    | 32 => h.flag R.WELT_CTX_RSP_DONE_EV
    | 33 => h.anyFlag 16 R.WELT_WUR_STAT_DONE_EV
    | 34 => h.flag R.WELT_STAT_PN_EV
    | 35 => h.anyFlag 32 R.WELT_HALF_HALF
    | 40 => h.excSum != 0
    | 41 => h.anyFlag 64 R.AWL_FSTAT_CLOSED_EV
    | 42 => h.flag R.TM_STAT_HALF_EV
    | 43 => h.anyFlag 16384 R.TM_Q_FSTAT_CLOSED_EV
    | 48 => h.anyFlag 8 R.ETH_FSTAT_CLOSED_EV
    | 49 => h.anyFlag 8 R.ETH_PSTAT_HALF_EV
    | 50 => h.anyFlag 8 R.ETH_SEC_CTL_PN_EV
    | 51 => h.anyFlag 8 R.ETH_PRE_STAT_FAIL_EV
    | 52 => h.anyFlag 8 R.ETH_GATE_STAT_SWAP_EV || h.anyFlag 8 R.ETH_GATE_STAT_STEP_EV
    | 53 => h.flag R.ETH_RT_RSP_DONE_EV
    | 56 => h.anyFlag 4 R.UZL_FSTAT_CLOSED_EV
    | 57 => h.anyFlag 4 R.UZL_NBR_STAT_NBR_EV
    | 58 => h.flag R.UZL_STAT_RING_EV
    | 59 => h.flag R.UZL_STAT_HALF_EV
    | 60 => h.flag R.UZL_RT_RSP_DONE_EV
    | 64 => h.flag R.TIME_STAT_STEP_EV || h.flag R.TIME_STAT_TB_LOST_EV
    | 65 => h.anyFlag 15 R.TIME_PSTAT_LEVEL
    | 66 => h.anyFlag 15 R.TIME_PSTAT_PATH_STEP_EV
    | 67 => h.anyFlag 8 R.TIME_PPS_CTL_LATE
    | 68 => h.anyFlag 4 R.TIME_CAP_STAT_LEVEL
    | 84 => h.anyFlag 12 R.LANE_FSTAT_CLOSED_EV
    | 85 => h.anyFlag 12 R.LANE_FIFO_STAT_EVT
    | 192 => h.flag R.CKR_STAT_HALF_EV
    | 193 => h.anyFlag 64 R.CKR_RING_FSTAT_CLOSED_EV
    | 194 => h.flag R.LAC_STAT_HALF_EV
    | 224 => h.flag R.HEEL_PS_STAT_REFUSE_EV
    | 225 => h.flag R.HEEL_PS_STAT_WAKE_EV
    | 232 => h.freeNat % 2 == 1
    | 233 =>
      h.flag R.ILT_OTP_STAT_DONE_EV || h.flag R.ILT_KL_STAT_DONE_EV || h.flag R.ILT_ID_STAT_DONE_EV || h.flag R.ILT_RNG_STAT_FAIL
    | 234 => h.flag R.ILT_DBG_STAT_CHG_EV
    | 240 => h.flag R.SHK_STAT_ERR_EV
    | 241 => h.flag R.SHK_STAT_ECC_EV
    | 242 => h.flag R.SHK_STAT_HALF_EV
    | 244 => h.flag R.DRC_STAT_TRAIN_EV
    | 245 => h.flag R.DRC_STAT_CE_EV || h.flag R.DRC_STAT_UE_EV
    | 246 => h.flag R.DRC_STAT_RATE_EV || h.flag R.DRC_STAT_HOT_EV
    | _ => false

/-- INTERRUPT_POST (R475): source `i`, if it is high, enabled and without PEND, posts its event. -/
def Hw.interruptPost (h : Hw) (i : Nat) : Hw :=
  let high := h.irqLevel i
  let h := if i = 232 then h.drawn else h
  if high then h.postInterrupt i else h

def execInterruptPost (i : Fin 256) (s : State) : Host.Outcome State Fault Refusal := s.effect fun h => h.interruptPost i

/-- IRQ_ACK (R463, R475): PEND of the source clears, and a source that is still high posts again at once. -/
def Hw.irqAck (h : Hw) (n : Nat) : Hw :=
  let taken := !h.flag (R.BENCH_RSP_BUSY n)
  let h := h.benchCommand n fun h => h.benchIrqAck n
  if taken then h.interruptPost (bitsOf (h.arg n 0) 0 8) else h

def execIrqAck (n : Fin 8) (s : State) : Host.Outcome State Fault Refusal := s.effect fun h => h.irqAck n

/-- A write of BENCH_CORE_n_CMD (R463): other OP values complete with BAD_ARG. -/
def Hw.writeBenchCmd (h : Hw) (n : Nat) (v : Word) : Hw :=
  let t := fieldOf v (R.BENCH_CMD_THREAD n)
  match fieldOf v (R.BENCH_CMD_OP n) with
  | 0 => h.benchCommand n fun h => h.benchCreate n t
  | 1 => h.benchCommand n fun h => h.benchReady t
  | 2 => h.benchCommand n fun h => h.benchCancel t
  | 3 => h.benchCommand n fun h => h.benchSuspend t
  | 4 => h.benchSelf n fun t h => h.benchDelay n t
  | 5 => h.benchSelf n fun t h => h.benchWait n t
  | 6 => h.benchCommand n fun h => h.benchSetEvent n t
  | 7 => h.benchCommand n fun h => h.benchSetPrio n t
  | 8 => h.benchSelf n fun t h => h.benchYield n t
  | 9 => h.benchSelf n fun t h => h.benchSigPop n t
  | 10 => h.irqAck n
  | 11 => h.benchSelf n fun t h => h.benchExit n t
  | _ => h.benchCommand n fun h => (h, bsBadArg)

end Sys2Proof.Machine
end

