-- ==== Sys2Proof/Machine/RegWrite.lean ====
section
/-!
DEFINITION. Writes of registers (R17 to R19): for each register block, the registers whose writes act or are checked,
and for every other register the write of its fields by their access types.
-/
namespace Sys2Proof.Machine

/-- The number of the instance at `a` in a table that starts at `base` with `stride`. -/
def instanceOf (a base stride : Nat) : Nat := (a - base) / stride

/-- Writes of the SYS block (R59, R69 to R71, R140, R460, R568). -/
def Hw.sysWrite (h : Hw) (m a : Nat) (v : Word) : Hw :=
  let n := instanceOf a (R.SYS_CX_CTL 0) 0x20
  let c := instanceOf a (R.SYS_CORE_CTL 0) 0x10
  if a = R.SYS_SENT_CTL then h.writeSentCtl v
  else if a = R.SYS_AVS_CTL then h.writeAvsCtl v
  else if a = R.SYS_AVS_LIM then h.writeAvsLim v
  else if a = R.SYS_AVS_MAN then h.writeAvsMan v
  else if a = R.SYS_RST_CMD then h.softwareReset m (fieldOf v R.SYS_RST_CMD_KEY)
  else if n < 3 ∧ a = R.SYS_CX_CTL n then h.writeCxCtl n v
  else if c < 8 ∧ a = R.SYS_CORE_CTL c then h.writeRun m c v
  else h.writeFields a v

/-- Writes of the SHK block (R486, R492, R493, R508). -/
def Hw.shkWrite (h : Hw) (m a : Nat) (v : Word) : Hw :=
  let t := instanceOf a (R.SHK_ARB_CFG 0) 4
  let i := instanceOf a (R.SHK_LOCK_STAT 0) 0x10
  if R.SHK_LOCK_STAT 0 ≤ a then
    if a = R.SHK_LOCK_REL i ∧ v.getLsbD 0 then h.lockRelWrite m i
    else if a = R.SHK_LOCK_BRK i ∧ v.getLsbD 0 then h.lockBrkWrite m i
    else h
  else if R.SHK_ARB_CFG 0 ≤ a ∧ t < 67 then
    let h := h.writeFields a v
    (h.set (R.SHK_ARB_CFG_LIMIT t) (max 1 (h.get (R.SHK_ARB_CFG_LIMIT t)))).set (R.SHK_ARB_CFG_WIN t)
      (max 10 (h.get (R.SHK_ARB_CFG_WIN t)))
  else h.writeFields a v

/-- Writes of the BENCH block (R463, R467, R468, R470, R471, R474). -/
def Hw.benchWrite (h : Hw) (a : Nat) (v : Word) : Hw :=
  let n := instanceOf a (R.BENCH_ARG 0 0) 0x40
  if a = R.BENCH_CFG then h.writeBenchCfg v
  else if a = R.BENCH_TICK then h.writeBenchTick v
  else if R.BENCH_ARG 0 0 ≤ a ∧ n < 8 then
    if a = R.BENCH_CMD n then h.writeBenchCmd n v
    else if a = R.BENCH_ACK n then h.ackSwitch n v
    else if a = R.BENCH_PMASK n then h.writePmask n v
    else if a = R.BENCH_QCMD n then h.writeQcmd n v
    else h.writeFields a v
  else h.writeFields a v

/-- Writes of the LANE block (R78, R400, R405). -/
def Hw.laneWrite (h : Hw) (a : Nat) (v : Word) : Hw :=
  let n := instanceOf a (R.LANE_FCTL 0) 0x1000
  if hn : n < 12 then
    if a = R.LANE_FCTL n then h.writeFctl (.lane ⟨n, hn⟩) v
    else if a = R.LANE_CTL n then h.writeLaneCtl n v
    else if a = R.LANE_TIMER n then h.writeLaneTimer n v
    else if a = R.LANE_TEST n then h.writeLaneTest n v
    else if a = R.LANE_FIFO_STAT n then h.writeFifoStat (64 + n) a v
    else h.writeFields a v
  else h

/-- Writes of the UZL block (R409, R411, R419, R423). -/
def Hw.uzlWrite (h : Hw) (a : Nat) (v : Word) : Hw :=
  let i := instanceOf a (R.UZL_FCTL 0) 0x100
  if a = R.UZL_ID then h.writeUzlId v
  else if a = R.UZL_RING then h.writeUzlRing v
  else if a = R.UZL_RT_CMD then h.writeUzlRtCmd v
  else if R.UZL_FCTL 0 ≤ a then
    if hi : i < 4 then
      if a = R.UZL_FCTL i then h.writeFctl (.hop ⟨i, hi⟩) v
      else if a = R.UZL_CFG i then h.writeUzlCfg i v
      else h.writeFields a v
    else h
  else h.writeFields a v

/-- Writes of a port's security records (R367 to R369). -/
def Hw.secWrite (h : Hw) (a : Nat) (v : Word) : Hw :=
  let n := instanceOf a (R.ETH_TX_KEY 0 0 0) 0x2000
  let o := a - R.ETH_TX_KEY n 0 0
  if o < 0x400 then
    let sa := o / 0x40
    if a < R.ETH_TX_PN_LO n sa then h.writeSecret (R.ETH_TX_SA_CTL_IN_USE n sa) a v
    else if a < R.ETH_TX_SA_CTL n sa then h.writePn n (some sa) a (a != R.ETH_TX_PN_LO n sa) v
    else h.writeFields a v
  else
    let c := (o - 0x400) / 0x200
    let r := (o - 0x400) % 0x200
    if r < 0x40 then h.writeFields a v
    else
      let sa := (r - 0x40) / 0x40
      if a < R.ETH_RX_PN_LO n c sa then h.writeSecret (R.ETH_RX_SA_CTL_IN_USE n c sa) a v
      else if a < R.ETH_RX_SA_CTL n c sa then h.writePn n none a (a != R.ETH_RX_PN_LO n c sa) v
      else h.writeFields a v

/-- Writes of the ETH block (R369, R376, R379, R384, R389). -/
def Hw.ethWrite (h : Hw) (a : Nat) (v : Word) : Hw :=
  let n := instanceOf a (R.ETH_FCTL 0) 0x2000
  let o := a - R.ETH_FCTL n
  if a = R.ETH_RT_CMD then h.writeRtCmd v
  else if a < R.ETH_FCTL 0 then h.writeFields a v
  else if hn : n < 8 then
    if a = R.ETH_FCTL n then h.writeFctl (.eth ⟨n, hn⟩) v
    else if a = R.ETH_CFG n then h.writeEthCfg n v
    else if a = R.ETH_PRE_CTL n then h.writePreCtl n v
    else if a = R.ETH_GATE_CTL n then h.writeGateCtl n v
    else if 0x60 ≤ o ∧ o < 0xA0 then h.writeGateBank n ((o - 0x60) / 0x20) a v
    else if a = R.ETH_SEC_CTL n then h.writeSecCtl n v
    else if a = R.ETH_REPLAY_WIN n ∨ a = R.ETH_TX_SCI_LO n ∨ a = R.ETH_TX_SCI_HI n then h.writeSecClosed n a v
    else if 0x1000 ≤ o then h.writeGateBank n ((o - 0x1000) / 0x800) a v
    else h.writeFields a v
  else if R.ETH_TX_KEY 0 0 0 ≤ a ∧ a < R.ETH_TX_KEY 8 0 0 then h.secWrite a v
  else h.writeFields a v

/-- Writes of the TM block (R344 to R350). -/
def Hw.tmWrite (h : Hw) (a : Nat) (v : Word) : Hw :=
  let q := instanceOf a (R.TM_Q_FCTL 0) 0x20
  let k := instanceOf a (R.TM_SHP_RATE 0) 0x10
  let m := instanceOf a (R.TM_MTR_CIR 0) 0x10
  if R.TM_Q_FCTL 0 ≤ a then
    if hq : q < 16384 then
      if a = R.TM_Q_FCTL q then h.writeFctl (.queue ⟨q, hq⟩) v
      else if R.TM_Q_W6 q ≤ a then h.writePlacement a q v
      else h.writeFields a v
    else h
  else if R.TM_MTR_CIR 0 ≤ a ∧ m < 4096 then
    if a = R.TM_MTR_CIR m then h.writeMeterRate m false v
    else if a = R.TM_MTR_PIR m then h.writeMeterRate m true v
    else if a = R.TM_MTR_CBS m then h.writeMeterCbs m v
    else h.writeMeterPbs m v
  else if R.TM_SHP_RATE 0 ≤ a ∧ k < 1024 then
    if a = R.TM_SHP_RATE k then h.writeShaperRate k v
    else if a = R.TM_SHP_BURST k then h.writeShaperBurst k v
    else h
  else h.writeFields a v

/-- Writes of the CKR and LAC registers (R308 to R319, R328, R332, R334). -/
def Hw.ckrWrite (h : Hw) (a : Nat) (v : Word) : Hw :=
  let p := instanceOf a (R.CKR_POOL_CFG 0) 0x20
  let r := instanceOf a (R.CKR_RING_FCTL 0) 0x20
  let i := instanceOf a (R.CKR_FLT_W0 0) 0x20
  let d := instanceOf a (R.LAC_DOM_W0 0) 8
  if R.LAC_DOM_W0 0 ≤ a then (if a = R.LAC_DOM_W1 d then h.writeDomainLimit d v else h.writeFields a v)
  else if R.CKR_FLT_W0 0 ≤ a ∧ i < 256 then h.writeFilter i a v
  else if R.CKR_RING_FCTL 0 ≤ a ∧ r < 64 then
    if hr : r < 64 then
      if a = R.CKR_RING_FCTL r then h.writeFctl (.ring ⟨r, hr⟩) v
      else if a = R.CKR_RING_PROD r then h.writeRingProd r v
      else if a = R.CKR_RING_CONS r then h.writeRingCons r v
      else if a = R.CKR_RING_FSTAT r then h.writeFields a v
      else h.writeRingCfg r a v
    else h
  else if R.CKR_POOL_CFG 0 ≤ a ∧ p < 16 then
    if a = R.CKR_POOL_CFG p then h.writePoolCfg p v
    else if a = R.CKR_POOL_LOW p then (if v.getLsbD 31 then h.lowClr p else h)
    else if a = R.CKR_POOL_FREE p then h
    else h.writePoolRange p a v
  else h.writeFields a v

/-- Writes of the AWL block (R267, R268, R292). -/
def Hw.awlWrite (h : Hw) (a : Nat) (v : Word) : Hw :=
  let e := instanceOf a (R.AWL_FCTL 0) 0x100
  let k := (a - R.AWL_FCTL e - 0x40) / 0x20
  let c := instanceOf a (R.AWL_EVT 0) 4
  if R.AWL_FCTL 0 ≤ a then
    if he : e < 64 then
      if a = R.AWL_FCTL e then h.writeFctl (.engine ⟨e, he⟩) v
      else if a = R.AWL_THR_CMD e k then h.writeThrCmd e k v
      else h.writeFields a v
    else h
  else if R.AWL_EVT 0 ≤ a then h.evtSet c v.toNat
  else h.writeFields a v

/-- Writes of the WELT block (R178 to R184, R196 to R207). -/
def Hw.weltWrite (h : Hw) (a : Nat) (v : Word) : Hw :=
  let s := instanceOf a (R.STA_W0 0) 0x100
  let k := instanceOf a (R.WELT_KEY 0 0) 0x20
  let l := instanceOf a (R.WELT_CFG 0) 0x100
  let j := instanceOf a (R.WELT_WUR_CMD 0) 0x10
  if R.STA_W0 0 ≤ a then (if s < 1024 then h.writeSta s a v else h.writeFields a v)
  else if R.WELT_KEY 0 0 ≤ a then h.writeKey k ((a - R.WELT_KEY k 0) / 4) v
  else if R.WELT_CFG 0 ≤ a ∧ l < 3 then
    if a = R.WELT_WUR l then h.writeWeltWur l v
    else if R.WELT_EDCA 0 l ≤ a ∧ a < R.WELT_EDCA 4 l then h.writeEdca l ((a - R.WELT_EDCA 0 l) / 4) v
    else if a = R.WELT_ADDR_LO l ∨ a = R.WELT_ADDR_HI l then h.writeOwnAddr a v
    else h.writeFields a v
  else if R.WELT_WUR_CMD 0 ≤ a ∧ j < 16 then
    if a = R.WELT_WUR_CMD j then h.writeWurCmd j v
    else if a = R.WELT_WUR_TIME j then h.writeWurTime j v
    else h.writeFields a v
  else if a = R.WELT_CTX_CMD then h.writeCtxCmd v
  else if a = R.WELT_RO_BASE ∨ a = R.WELT_RO_CTL then h.writeReorder a v
  else if a = R.WELT_TSF_OFS_LO then h.writeTsfLo v
  else if a = R.WELT_TSF_OFS_HI then h.writeTsfHi v
  else if a = R.WELT_MLD_ADDR_LO ∨ a = R.WELT_MLD_ADDR_HI then h.writeOwnAddr a v
  else h.writeFields a v

/-- Writes of the LAST block (R219, R222, R223, R230 to R232). -/
def Hw.lastWrite (h : Hw) (a : Nat) (v : Word) : Hw :=
  let l := instanceOf a (R.LAST_CTL 0) 0x40000
  let o := a - R.LAST_CTL l
  if a = R.LAST_CTL l then h.writeLastCtl l v
  else if a = R.LAST_SWAP l then h.writeLastSwap l v
  else if a = R.LAST_AMEND_CMD l then h.writeAmendCmd l v
  else if 0x20 ≤ o ∧ o < 0x60 then h.writeBank l ((o - 0x20) / 0x20) a v
  else if 0x30000 ≤ o then h.writeLastList l ((o - 0x30000) / 0x8000) a v
  else if 0x10000 ≤ o then h.writeBank l ((o - 0x10000) / 0x10000) a v
  else h.writeFields a v

/-- Writes of the RFS block of a slice (R78, R92, R95, R109, R115 to R146). -/
def Hw.rfsWrite (h : Hw) (a : Nat) (v : Word) : Hw :=
  let x := instanceOf a (R.RFS_FCTL 0) 0x100000
  let c := (a - R.RFS_DIV x 0) / 0x1000
  if hx : x < 3 then
    if R.RFS_DIV x 0 ≤ a then
      if a = R.RFS_DIV x c then h.writeDiv x c v
      else if a = R.RFS_GAIN x c then h.writeGain x c v
      else if a = R.RFS_TUNE x c then h.writeTune x c v
      else if a = R.RFS_VSWR x c then h.writeVswr x c v
      else if a = R.RFS_CANC_CTL x c then h.writeCancCtl x c v
      else if a = R.RFS_FIFO_STAT x c then h.writeFifoStat (8 * x + c) a v
      else if R.RFS_CANC_COEF x c 0 ≤ a ∧ a < R.RFS_CANC_COEF x c 64 then
        if x = 0 then h else h.writeCoef x c ((a - R.RFS_CANC_COEF x c 0) / 4) v
      else h.writeFields a v
    else if a = R.RFS_FCTL x then h.writeFctl (.slice ⟨x, hx⟩) v
    else if a = R.RFS_SYNTH x then
      let h := h.writeFields a v
      if fieldOf v (R.RFS_SYNTH_RESTART x) = 1 then h.synthRestart x else h
    else if a = R.RFS_RETUNE x then
      let h := h.writeFields a v
      if fieldOf v (R.RFS_RETUNE_GO x) = 1 then h.retuneGo x else h
    else if a = R.RFS_CAL_CTL x then h.writeCalCtl x v
    else if a = R.RFS_FE_TIME x then h.writeFeTime x v
    else if a = R.RFS_FE_CTL x then h.writeFeCtl x v
    else h.writeFields a v
  else h

/-- Writes of the PHY block of a slice (R164, R174). -/
def Hw.phyWrite (h : Hw) (a : Nat) (v : Word) : Hw :=
  let x := instanceOf a (R.PHY_DET_CTL 0) 0x100000
  if a = R.PHY_DET_CTL x then h.writeDetCtl x v
  else if a = R.PHY_RST_CTL x then h.writeRstCtl x v
  else if a = R.PHY_DEC_CTL x then h.writeDecCtl x v
  else h.writeFields a v

/-- A write by master `m` of the register at `a`. -/
def Hw.writeReg (h : Hw) (m a : Nat) (v : Word) : Hw :=
  match a / 0x100000 with
  | 0x400 => h.sysWrite m a v
  | 0x401 => h.heelWrite a v
  | 0x402 => h.iltWrite m a v
  | 0x403 => h.shkWrite m a v
  | 0x404 => h.drcWrite a v
  | 0x405 => h.benchWrite a v
  | 0x406 => h.timeWrite a v
  | 0x407 => h.laneWrite a v
  | 0x408 => h.uzlWrite a v
  | 0x409 => h.ethWrite a v
  | 0x40A => h.tmWrite a v
  | 0x40B => h.ckrWrite a v
  | 0x40C => h.awlWrite a v
  | 0x40D => h.weltWrite a v
  | 0x40E => h.lastWrite a v
  | b => if b < 0x414 then h.rfsWrite a v else h.phyWrite a v

/-- A register access that passed its checks: 32 bits, or the pair of 64, the low word first. -/
def Hw.regWrite (h : Hw) (m a n v : Nat) : Hw :=
  let a := registerAddr a
  let h := h.writeReg m a (BitVec.ofNat 32 v)
  if n = 8 then h.writeReg m (a + 4) (BitVec.ofNat 32 (v / 2 ^ 32)) else h

/-- REGISTER_WRITE (R18, R31, R481): master `m` writes 32 bits at `addr`. -/
def execRegisterWrite (m : Fin 27) (addr : BitVec 40) (v : Word) (s : State) : Host.Outcome State Fault Refusal :=
  s.effect fun h =>
    let q : Request := ⟨m, none, false, addr.toNat, 4, some (bytesLE 4 v.toNat), false, false⟩
    if isRegister addr.toNat && !h.permits ((targetOf addr.toNat).getD 0) m addr.toNat true then h.replyError q 2
    else if !registerAccess addr.toNat 4 then h.replyError q 1
    else (h.regWrite m addr.toNat 4 v.toNat).reply q 0 []

end Sys2Proof.Machine
end

