-- ==== Sys2Proof/Machine/Grant.lean ====
section
/-!
DEFINITION. The grant of a waiting request with the access its target performs (R31, R481, R484 to R488, R529), and the
register requests of other devices (R422).
-/
namespace Sys2Proof.Machine

/-! ### The access within a grant -/

/-- The requester of an access, as the latches of R17 know it. -/
def Request.requester (q : Request) : Nat :=
  match q.thread with
  | some t => 64 + t
  | none => q.master

/-- A permitted access to a register block. -/
def Hw.registerGrant (h : Hw) (q : Request) : Hw :=
  if !registerAccess q.addr q.size then h.replyError q 1
  else
    match q.data with
    | some bs => (h.regWrite q.master q.addr q.size (ofBytesLE bs)).reply q 0 []
    | none =>
      let (h, v) := h.regRead q.requester q.addr q.size
      h.reply q 0 (bytesLE q.size v)

/-- A permitted access to a memory without check bits. -/
def Hw.memoryGrant (h : Hw) (q : Request) : Hw :=
  match q.data with
  | some bs => (h.storeBytes q.addr bs).reply q 0 []
  | none => h.reply q 0 (h.memBytes q.addr q.size)

/-- A permitted access to shared SRAM, whose words' check bits show `e` where the access reads them (R484): a read, or
a write of less than whole words. -/
def Hw.sramGrant (h : Hw) (q : Request) (e : EccFinding) : Hw :=
  let reads := q.data.isNone || merges q.addr q.size
  match reads, e with
  | true, .uncorrectable =>
    let h := (h.count40 R.SHK_SRAM_UE_LO_CNT R.SHK_SRAM_UE_HI_CNT R.SHK_STAT_HALF_EV).set R.SHK_STAT_ECC_EV 1
    h.replyError q 3
  | true, .corrected => (h.count40 R.SHK_SRAM_CE_LO_CNT R.SHK_SRAM_CE_HI_CNT R.SHK_STAT_HALF_EV).memoryGrant q
  | _, _ => h.memoryGrant q

/-- What the thread of a request waits for. -/
def Hw.waitOf (h : Hw) (q : Request) : WaitOn :=
  match q.thread with
  | some u => (h.thread u).on
  | none => .nothing

/-- A queue, lock or Last operation at its granted unit (R270, R272). -/
def Hw.serveUnit (h : Hw) (t u : Nat) (q : Request) : Hw :=
  if h.unitPermits t q.master q.addr q.data.isSome then h.unitGrant u else h.replyError q 2

/-- The failure that an LDP or STP meets in the buffers of its thread's frame, before anything is written (R272, R274). -/
def Hw.packetFailure (h : Hw) (u : Nat) : Option (Nat × Nat) :=
  let th := h.thread u
  match th.on, th.frame with
  | .packet store, some id => h.packetFault u (h.frame id) (th.packetOffset th.insn) (accessSize th.insn) store
  | _, _ => none

/-- The target checks a granted access to an address and performs it (R481); a DRAM channel takes it up in its own time
(R497). -/
def Hw.serveAccess (h : Hw) (t : Nat) (q : Request) (e : EccFinding) : Hw :=
  if !h.permits t q.master q.addr q.data.isSome then h.replyError q 2
  else if isRegister q.addr then h.registerGrant q
  else if !h.memoryAt q.addr then h.replyError q 1
  else if t < 32 then h.sramGrant q e
  else if t = 40 ∨ t = 41 then h.modChannel (t - 40) fun k => { k with waiting := k.waiting ++ [q] }
  else h.memoryGrant q

/-- What a granted request does: a unit's operation, an access to a frame's buffers, which fails as a whole, or an
access. -/
def Hw.serveGrant (h : Hw) (t : Nat) (q : Request) (e : EccFinding) : Hw :=
  match q.thread with
  | none => h.serveAccess t q e
  | some u =>
    if h.waitOf q = .unit then h.serveUnit t u q
    else
      match h.packetFailure u with
      | some (a, k) => (h.modThread u fun th => { th with addr := a }).replyError { q with addr := a } k
      | none => h.serveAccess t q e

/-- ARBITER_GRANT (R485 to R488): target `t` grants one waiting request and performs its access, whose words' check bits
show `e`. An emergency grant may preempt the one in progress. -/
def Hw.grant (h : Hw) (t : Nat) (preempts : Bool) (e : EccFinding) : Hw :=
  match h.grantChoice t with
  | none => h
  | some (g, q) =>
    let h := h.setArbiter t (h.afterGrant t g q)
    let h := if g = .forced then h.bump (R.SHK_ARB_STAT_FORCED t) else h
    let h := if g = .emergency && preempts then h.bump (R.SHK_ARB_STAT_PREEMPT t) else h
    h.serveGrant t q e

def execArbiterGrant (t : Fin 67) (preempts : Bool) (e : EccFinding) (s : State) : Host.Outcome State Fault Refusal :=
  s.effect fun h => h.grant t preempts e

/-! ### Register requests (R422) -/

/-- The status codes of a response. -/
def rrOk : Nat := 0
def rrDecode : Nat := 1
def rrRefused : Nat := 2
def rrBad : Nat := 3

/-- The access of a register request, by master 22: its status and the value read or written. -/
def Hw.remoteAccess (h : Hw) (addr : Nat) (data : Option Nat) : Hw × Nat × Nat :=
  let write := data.isSome
  let fault := if isRegister addr then
      (if !h.permits ((targetOf addr).getD 0) 22 addr write then 2 else if registerAccess addr 4 then 0 else 1)
    else h.memFault 22 addr write
  if fault = 2 then (h.shankError 22 addr 2 write, rrRefused, data.getD 0)
  else if fault = 1 then (h.shankError 22 addr 1 write, rrDecode, data.getD 0)
  else if isRegister addr then
    match data with
    | some v => (h.regWrite 22 addr 4 v, rrOk, v)
    | none =>
      let (h, v) := h.regRead 22 addr 4
      (h, rrOk, v)
  else
    match data with
    | some v =>
      match h.busWrite 22 addr (bytesLE 4 v) with
      | (h, true) => (h, rrOk, v)
      | (h, false) => (h, rrDecode, v)
    | none =>
      match h.busRead 22 addr 4 with
      | (h, some bs) => (h, rrOk, ofBytesLE bs)
      | (h, none) => (h, rrDecode, 0)

/-- The response leaves towards the request's source, on the hop its ID is sent on. -/
def Hw.respond (h : Hw) (dst : Nat) (payload : List Byte) : Hw :=
  match h.hopFor dst with
  | none => h
  | some e =>
    let hdr := header dst (h.get R.UZL_ID_ID) (h.get R.UZL_CTL_RESP_HOP) 1 0 0
    (h.transitTo e ⟨0, hdr, some payload, false, false, false, 0, 0, Stamp.zero, none, false, false⟩).1

/-- REGISTER_REQUEST (R422): the oldest waiting request runs, and its response is sent. Of a bad request's response the
manual does not give DATA, and of an invalid OP not the response's OP: free values. -/
def Hw.registerRequest (h : Hw) : Hw :=
  match h.uzovi.requests with
  | [] => h
  | q :: rest =>
    let h := { h with uzovi := { h.uzovi with requests := rest } }
    let op := byteAt q.payload 0
    let addr := ofBytesBE ((q.payload.drop 4).take 5)
    let sound := addr % 4 == 0 && ((q.payload.drop 9).take 3).all (· == 0)
    let data := ofBytesBE ((q.payload.drop 12).take 4)
    let (h, status, value) := match op, sound with
      | 1, true => h.remoteAccess addr none
      | 2, true => h.remoteAccess addr (some data)
      | _, _ => (h.drawn, rrBad, h.freeNat % 2 ^ 32)
    let answer := if op = 1 ∨ op = 2 then 0x80 + op else h.freeNat % 256
    let h := if op = 1 ∨ op = 2 then h else h.drawn
    let h := h.count40 (R.UZL_RREQ_LO_CNT 0) (R.UZL_RREQ_HI_CNT 0) R.UZL_STAT_HALF_EV
    h.respond q.src (bytesBE 1 answer ++ bytesBE 1 status ++ (q.payload.drop 2).take 2 ++ bytesBE 5 addr ++ [0, 0, 0] ++ bytesBE 4 value)

def execRegisterRequest (s : State) : Host.Outcome State Fault Refusal := s.effect fun h => h.registerRequest

end Sys2Proof.Machine
end

