-- ==== Sys2Proof/Machine/Dispatch.lean ====
section
/-!
DEFINITION. Dispatch: each command goes to its meaning.
-/
namespace Sys2Proof.Machine

def exec (i : Instr) (s : State) : Host.Outcome State Fault Refusal :=
  match i with
  | .registerWrite m addr v => Sys2Proof.Machine.execRegisterWrite m addr v s
  | .latchingRead r addr wide => Sys2Proof.Machine.execLatchingRead r addr wide s
  | .shankAccess m addr size data cont => Sys2Proof.Machine.execShankAccess m addr size data cont s
  | .arbiterGrant t preempts e => Sys2Proof.Machine.execArbiterGrant t preempts e s
  | .fctlEnSet f => Sys2Proof.Machine.execFctlEnSet f s
  | .fctlEnClear f => Sys2Proof.Machine.execFctlEnClear f s
  | .functionOpened f => Sys2Proof.Machine.execFunctionOpened f s
  | .drainComplete f => Sys2Proof.Machine.execDrainComplete f s
  | .drainTimeout f => Sys2Proof.Machine.execDrainTimeout f s
  | .sentinelWindowEnd count => Sys2Proof.Machine.execSentinelWindowEnd count s
  | .sweepStart => Sys2Proof.Machine.execSweepStart s
  | .sweepComplete => Sys2Proof.Machine.execSweepComplete s
  | .avsModeWrite v => Sys2Proof.Machine.execAvsModeWrite v s
  | .avsManWrite v => Sys2Proof.Machine.execAvsManWrite v s
  | .avsLimWrite v => Sys2Proof.Machine.execAvsLimWrite v s
  | .avsResponse crcGood mv => Sys2Proof.Machine.execAvsResponse crcGood mv s
  | .avsRetry => Sys2Proof.Machine.execAvsRetry s
  | .avsSettleEnd => Sys2Proof.Machine.execAvsSettleEnd s
  | .converterRxOverrun x c => Sys2Proof.Machine.execConverterRxOverrun x c s
  | .converterTxUnderrun x c => Sys2Proof.Machine.execConverterTxUnderrun x c s
  | .laneRxOverrun n => Sys2Proof.Machine.execLaneRxOverrun n s
  | .laneTxUnderrun n => Sys2Proof.Machine.execLaneTxUnderrun n s
  | .hwmClr k => Sys2Proof.Machine.execHwmClr k s
  | .laneTxFrameStart n level => Sys2Proof.Machine.execLaneTxFrameStart n level s
  | .retuneGo x => Sys2Proof.Machine.execRetuneGo x s
  | .retuneApply x => Sys2Proof.Machine.execRetuneApply x s
  | .retuneSettleEnd x => Sys2Proof.Machine.execRetuneSettleEnd x s
  | .synthStartEnd x => Sys2Proof.Machine.execSynthStartEnd x s
  | .synthLock x => Sys2Proof.Machine.execSynthLock x s
  | .synthAcqTimeout x => Sys2Proof.Machine.execSynthAcqTimeout x s
  | .synthSettleEnd x => Sys2Proof.Machine.execSynthSettleEnd x s
  | .synthLockLost x => Sys2Proof.Machine.execSynthLockLost x s
  | .restart x => Sys2Proof.Machine.execRestart x s
  | .transmitCommand x lead len shape chains resp fit latest => Sys2Proof.Machine.execTransmitCommand x lead len shape chains resp fit latest s
  | .heldCommandSent x => Sys2Proof.Machine.execHeldCommandSent x s
  | .holdDeadline x => Sys2Proof.Machine.execHoldDeadline x s
  | .calStart x v => Sys2Proof.Machine.execCalStart x v s
  | .tempSample x t => Sys2Proof.Machine.execTempSample x t s
  | .calibrationBegin x => Sys2Proof.Machine.execCalibrationBegin x s
  | .calibrationComplete x fails => Sys2Proof.Machine.execCalibrationComplete x fails s
  | .trLead x => Sys2Proof.Machine.execTrLead x s
  | .paLead x => Sys2Proof.Machine.execPaLead x s
  | .paLag x => Sys2Proof.Machine.execPaLag x s
  | .trLag x tx leak => Sys2Proof.Machine.execTrLag x tx leak s
  | .energyCrossing x rs => Sys2Proof.Machine.execEnergyCrossing x rs s
  | .tbExpectedStart x => Sys2Proof.Machine.execTbExpectedStart x s
  | .divSwitchInb x => Sys2Proof.Machine.execDivSwitchInb x s
  | .divDecision x m => Sys2Proof.Machine.execDivDecision x m s
  | .fixedWindowEnd x m => Sys2Proof.Machine.execFixedWindowEnd x m s
  | .qualifierStart x => Sys2Proof.Machine.execQualifierStart x s
  | .adcClipGainDrop x c => Sys2Proof.Machine.execAdcClipGainDrop x c s
  | .qualEvaluation x rs chips => Sys2Proof.Machine.execQualEvaluation x rs chips s
  | .lltfTimingSearch x peak coarse fine => Sys2Proof.Machine.execLltfTimingSearch x peak coarse fine s
  | .lsigDecision x f pAdc => Sys2Proof.Machine.execLsigDecision x f pAdc s
  | .signalFieldCheck x f => Sys2Proof.Machine.execSignalFieldCheck x f s
  | .restartCandidate x rs chips full => Sys2Proof.Machine.execRestartCandidate x rs chips full s
  | .receptionEnd x => Sys2Proof.Machine.execReceptionEnd x s
  | .ldpcCodewordIn x w => Sys2Proof.Machine.execLdpcCodewordIn x w s
  | .ldpcDecodeDone k => Sys2Proof.Machine.execLdpcDecodeDone k s
  | .nfBlockEnd x powers => Sys2Proof.Machine.execNfBlockEnd x powers s
  | .tuneApply x c => Sys2Proof.Machine.execTuneApply x c s
  | .mismWindowEnd x m => Sys2Proof.Machine.execMismWindowEnd x m s
  | .vswrAlarmClear x c => Sys2Proof.Machine.execVswrAlarmClear x c s
  | .maskCheck x bins => Sys2Proof.Machine.execMaskCheck x bins s
  | .cxReqRecognised n prio => Sys2Proof.Machine.execCxReqRecognised n prio s
  | .cxGrant n => Sys2Proof.Machine.execCxGrant n s
  | .cxReqFall n => Sys2Proof.Machine.execCxReqFall n s
  | .cxRevoke n => Sys2Proof.Machine.execCxRevoke n s
  | .cxTxactViolation n high => Sys2Proof.Machine.execCxTxactViolation n high s
  | .cxClientReqRaise n => Sys2Proof.Machine.execCxClientReqRaise n s
  | .cxClientGrantRise n => Sys2Proof.Machine.execCxClientGrantRise n s
  | .cxClientGrantFall n => Sys2Proof.Machine.execCxClientGrantFall n s
  | .cxClientReqFall n => Sys2Proof.Machine.execCxClientReqFall n s
  | .cxModeWrite n v => Sys2Proof.Machine.execCxModeWrite n v s
  | .cancReset x c => Sys2Proof.Machine.execCancReset x c s
  | .ctxOpen k => Sys2Proof.Machine.execOpen k s
  | .ctxClose k => Sys2Proof.Machine.execClose k s
  | .ctxCloseComplete k => Sys2Proof.Machine.execCloseComplete k s
  | .ctxKey k => Sys2Proof.Machine.execKey k s
  | .ctxMap k => Sys2Proof.Machine.execMap k s
  | .baTxAdd k => Sys2Proof.Machine.execBaTxAdd k s
  | .baTxDel k => Sys2Proof.Machine.execBaTxDel k s
  | .baRxAdd k => Sys2Proof.Machine.execBaRxAdd k s
  | .baRxDel k => Sys2Proof.Machine.execBaRxDel k s
  | .tsfOfsHiWrite v => Sys2Proof.Machine.execTsfOfsHiWrite v s
  | .mpduReceived l m => Sys2Proof.Machine.execMpduReceived l m s
  | .reorderTimeout k t => Sys2Proof.Machine.execReorderTimeout k t s
  | .blockackReceived l k t ssn bitmap => Sys2Proof.Machine.execBlockackReceived l k t ssn bitmap s
  | .edcaBackoffZero l ac fit ns => Sys2Proof.Machine.execEdcaBackoffZero l ac fit ns s
  | .responseTimeout l => Sys2Proof.Machine.execResponseTimeout l s
  | .txStatus l => Sys2Proof.Machine.execTxStatus l s
  | .linkUnavailable l => Sys2Proof.Machine.execLinkUnavailable l s
  | .linkAvailable l => Sys2Proof.Machine.execLinkAvailable l s
  | .wurJobStart j v => Sys2Proof.Machine.execWurJobStart j v s
  | .wurSendDue j => Sys2Proof.Machine.execWurSendDue j s
  | .wurBeaconDue l => Sys2Proof.Machine.execWurBeaconDue l s
  | .arm l => Sys2Proof.Machine.execArm l s
  | .lastValidationDone l => Sys2Proof.Machine.execLastValidationDone l s
  | .disarm l => Sys2Proof.Machine.execDisarm l s
  | .stop l => Sys2Proof.Machine.execStop l s
  | .lastCycleBoundary l => Sys2Proof.Machine.execLastCycleBoundary l s
  | .lastBankStart l => Sys2Proof.Machine.execLastBankStart l s
  | .lastEntryStart l => Sys2Proof.Machine.execLastEntryStart l s
  | .clearCheckEnd l fit => Sys2Proof.Machine.execClearCheckEnd l fit s
  | .firstPpduStart l delay => Sys2Proof.Machine.execFirstPpduStart l delay s
  | .lastEntryEnd l => Sys2Proof.Machine.execLastEntryEnd l s
  | .go l entry => Sys2Proof.Machine.execGo l entry s
  | .add t => Sys2Proof.Machine.execAdd t s
  | .adds t => Sys2Proof.Machine.execAdds t s
  | .sub t => Sys2Proof.Machine.execSub t s
  | .subs t => Sys2Proof.Machine.execSubs t s
  | .mul t => Sys2Proof.Machine.execMul t s
  | .mulh t => Sys2Proof.Machine.execMulh t s
  | .and t => Sys2Proof.Machine.execAnd t s
  | .or t => Sys2Proof.Machine.execOr t s
  | .xor t => Sys2Proof.Machine.execXor t s
  | .shl t => Sys2Proof.Machine.execShl t s
  | .shr t => Sys2Proof.Machine.execShr t s
  | .shra t => Sys2Proof.Machine.execShra t s
  | .clz t => Sys2Proof.Machine.execClz t s
  | .popc t => Sys2Proof.Machine.execPopc t s
  | .cmp t => Sys2Proof.Machine.execCmp t s
  | .bfx t => Sys2Proof.Machine.execBfx t s
  | .bfi t => Sys2Proof.Machine.execBfi t s
  | .bCond t => Sys2Proof.Machine.execBCond t s
  | .call t => Sys2Proof.Machine.execCall t s
  | .ret t => Sys2Proof.Machine.execRet t s
  | .ld t => Sys2Proof.Machine.execLd t s
  | .st t => Sys2Proof.Machine.execSt t s
  | .longLatencyComplete t => Sys2Proof.Machine.execLongLatencyComplete t s
  | .yield t => Sys2Proof.Machine.execYield t s
  | .raise t => Sys2Proof.Machine.execRaise t s
  | .trap t => Sys2Proof.Machine.execTrap t s
  | .halt t => Sys2Proof.Machine.execHalt t s
  | .ldp t => Sys2Proof.Machine.execLdp t s
  | .stp t => Sys2Proof.Machine.execStp t s
  | .crc t => Sys2Proof.Machine.execCrc t s
  | .hash t => Sys2Proof.Machine.execHash t s
  | .qpush t => Sys2Proof.Machine.execQpush t s
  | .qpull t => Sys2Proof.Machine.execQpull t s
  | .qpeek t => Sys2Proof.Machine.execQpeek t s
  | .lock t => Sys2Proof.Machine.execLock t s
  | .unlock t => Sys2Proof.Machine.execUnlock t s
  | .tnow t => Sys2Proof.Machine.execTnow t s
  | .tmono t => Sys2Proof.Machine.execTmono t s
  | .tadd t => Sys2Proof.Machine.execTadd t s
  | .tcmp t => Sys2Proof.Machine.execTcmp t s
  | .cfadd t => Sys2Proof.Machine.execCfadd t s
  | .stampRead t => Sys2Proof.Machine.execStampRead t s
  | .stampMark t => Sys2Proof.Machine.execStampMark t s
  | .waitev t => Sys2Proof.Machine.execWaitev t s
  | .waitevWake t => Sys2Proof.Machine.execWaitevWake t s
  | .waitt t => Sys2Proof.Machine.execWaitt t s
  | .waittWake t => Sys2Proof.Machine.execWaittWake t s
  | .release t => Sys2Proof.Machine.execRelease t s
  | .drop t => Sys2Proof.Machine.execDrop t s
  | .fwd t => Sys2Proof.Machine.execFwd t s
  | .lastw t => Sys2Proof.Machine.execLastw t s
  | .lastamend t => Sys2Proof.Machine.execLastamend t s
  | .thrRestart e k => Sys2Proof.Machine.execThrRestart e k s
  | .thrStart e k entry => Sys2Proof.Machine.execThrStart e k entry s
  | .evtSet c bits => Sys2Proof.Machine.execEvtSet c bits s
  | .classificationPoint k => Sys2Proof.Machine.execClassificationPoint k s
  | .frameBufferRequest k => Sys2Proof.Machine.execFrameBufferRequest k s
  | .frameComplete k => Sys2Proof.Machine.execFrameComplete k s
  | .poolEnable p => Sys2Proof.Machine.execPoolEnable p s
  | .lowClr p => Sys2Proof.Machine.execLowClr p s
  | .lacingDispatch => Sys2Proof.Machine.execLacingDispatch s
  | .lacingDispose d => Sys2Proof.Machine.execLacingDispose d s
  | .rxfWrite r => Sys2Proof.Machine.execRxfWrite r s
  | .txfEntry r => Sys2Proof.Machine.execTxfEntry r s
  | .ringProdWrite r v => Sys2Proof.Machine.execRingProdWrite r v s
  | .ringConsWrite r v => Sys2Proof.Machine.execRingConsWrite r v s
  | .ringError r => Sys2Proof.Machine.execRingError r s
  | .fill m => Sys2Proof.Machine.execFill m s
  | .egressRequest e => Sys2Proof.Machine.execEgressRequest e s
  | .ethFrameReceived n f => Sys2Proof.Machine.execEthFrameReceived n f s
  | .pause n dest time => Sys2Proof.Machine.execPause n dest time s
  | .pfc n dest enable times => Sys2Proof.Machine.execPfc n dest enable times s
  | .pauseExpire n => Sys2Proof.Machine.execPauseExpire n s
  | .ethFrameTransmit n => Sys2Proof.Machine.execEthFrameTransmit n s
  | .preempt n carried => Sys2Proof.Machine.execPreempt n carried s
  | .fragmentReceived n g => Sys2Proof.Machine.execFragmentReceived n g s
  | .verifyStart n => Sys2Proof.Machine.execVerifyStart n s
  | .verifyTimer n => Sys2Proof.Machine.execVerifyTimer n s
  | .respondReceived n => Sys2Proof.Machine.execRespondReceived n s
  | .verifyReceived n => Sys2Proof.Machine.execVerifyReceived n s
  | .gateEnWrite n en init => Sys2Proof.Machine.execGateEnWrite n en init s
  | .gateGo n => Sys2Proof.Machine.execGateGo n s
  | .gateValidationDone n => Sys2Proof.Machine.execGateValidationDone n s
  | .gateCancel n => Sys2Proof.Machine.execGateCancel n s
  | .gateEntryChange n => Sys2Proof.Machine.execGateEntryChange n s
  | .gateCycleStart n => Sys2Proof.Machine.execGateCycleStart n s
  | .gateCct n => Sys2Proof.Machine.execGateCct n s
  | .lpmAdd => Sys2Proof.Machine.execLpmAdd s
  | .lpmDel => Sys2Proof.Machine.execLpmDel s
  | .emAdd => Sys2Proof.Machine.execEmAdd s
  | .emDel => Sys2Proof.Machine.execEmDel s
  | .lpmClear => Sys2Proof.Machine.execLpmClear s
  | .emClear => Sys2Proof.Machine.execEmClear s
  | .lpmLookup k => Sys2Proof.Machine.execLpmLookup k s
  | .emLookup k => Sys2Proof.Machine.execEmLookup k s
  | .wakeFrameDetect w => Sys2Proof.Machine.execWakeFrameDetect w s
  | .negTimeout n => Sys2Proof.Machine.execNegTimeout n s
  | .ratePageExchanged n p => Sys2Proof.Machine.execRatePageExchanged n p s
  | .probeStep n => Sys2Proof.Machine.execProbeStep n s
  | .probeLock n => Sys2Proof.Machine.execProbeLock n s
  | .trainLockHeld n => Sys2Proof.Machine.execTrainLockHeld n s
  | .trainTimeout n => Sys2Proof.Machine.execTrainTimeout n s
  | .linkLoss n => Sys2Proof.Machine.execLinkLoss n s
  | .backoffEnd n => Sys2Proof.Machine.execBackoffEnd n s
  | .detectSample n signal => Sys2Proof.Machine.execDetectSample n signal s
  | .l2ExitComplete n locked => Sys2Proof.Machine.execL2ExitComplete n locked s
  | .laneRetry n => Sys2Proof.Machine.execLaneRetry n s
  | .pwrWrite n v => Sys2Proof.Machine.execPwrWrite n v s
  | .quietExitComplete n locked => Sys2Proof.Machine.execQuietExitComplete n locked s
  | .checkerLock n => Sys2Proof.Machine.execCheckerLock n s
  | .checkerLockLost n blocks => Sys2Proof.Machine.execCheckerLockLost n blocks s
  | .injGo n => Sys2Proof.Machine.execInjGo n s
  | .testClr n => Sys2Proof.Machine.execTestClr n s
  | .uzoviHeaderDecision index header opcode => Sys2Proof.Machine.execUzoviHeaderDecision index header opcode s
  | .uzoviFrameEnd index payload crc => Sys2Proof.Machine.execUzoviFrameEnd index payload crc s
  | .hopSendSelect e => Sys2Proof.Machine.execHopSendSelect e s
  | .helloDue index => Sys2Proof.Machine.execHelloDue index s
  | .helloReceived index sender nbrHop ring owner => Sys2Proof.Machine.execHelloReceived index sender nbrHop ring owner s
  | .neighbourTimeout index => Sys2Proof.Machine.execNeighbourTimeout index s
  | .hopDown index => Sys2Proof.Machine.execHopDown index s
  | .ringFail index id1 id2 => Sys2Proof.Machine.execRingFail index id1 id2 s
  | .ringRestore index id1 id2 => Sys2Proof.Machine.execRingRestore index id1 id2 s
  | .wtrExpire => Sys2Proof.Machine.execWtrExpire s
  | .ringClear index id1 => Sys2Proof.Machine.execRingClear index id1 s
  | .registerRequest => Sys2Proof.Machine.execRegisterRequest s
  | .uzlRtAdd => Sys2Proof.Machine.execUzlRtAdd s
  | .uzlRtDel => Sys2Proof.Machine.execUzlRtDel s
  | .uzlRtClear => Sys2Proof.Machine.execUzlRtClear s
  | .trimBoundary => Sys2Proof.Machine.execTrimBoundary s
  | .timeSet => Sys2Proof.Machine.execSet s
  | .timeStep => Sys2Proof.Machine.execStep s
  | .slewAbort => Sys2Proof.Machine.execSlewAbort s
  | .tbLockLost => Sys2Proof.Machine.execTbLockLost s
  | .tbLockAcquired => Sys2Proof.Machine.execTbLockAcquired s
  | .pathWrite p v => Sys2Proof.Machine.execPathWrite p v s
  | .holdExpire => Sys2Proof.Machine.execHoldExpire s
  | .holdEnd => Sys2Proof.Machine.execHoldEnd s
  | .pop p => Sys2Proof.Machine.execPop p s
  | .ppsModeWrite n v => Sys2Proof.Machine.execPpsModeWrite n v s
  | .ppsActiveEdge n => Sys2Proof.Machine.execPpsActiveEdge n s
  | .ppsInactiveEdge n => Sys2Proof.Machine.execPpsInactiveEdge n s
  | .captureEdge n rising => Sys2Proof.Machine.execCaptureEdge n rising s
  | .capturePop n => Sys2Proof.Machine.execCapturePop n s
  | .create n t => Sys2Proof.Machine.execCreate n t s
  | .ready n t => Sys2Proof.Machine.execReady n t s
  | .cancel n t => Sys2Proof.Machine.execCancel n t s
  | .suspend n t => Sys2Proof.Machine.execSuspend n t s
  | .delay n => Sys2Proof.Machine.execDelay n s
  | .wait n => Sys2Proof.Machine.execWait n s
  | .setEvent n t => Sys2Proof.Machine.execSetEvent n t s
  | .setPrio n t => Sys2Proof.Machine.execSetPrio n t s
  | .benchYield n => Sys2Proof.Machine.execBenchYield n s
  | .sigPop n => Sys2Proof.Machine.execSigPop n s
  | .irqAck n => Sys2Proof.Machine.execIrqAck n s
  | .exit n => Sys2Proof.Machine.execExit n s
  | .tick => Sys2Proof.Machine.execTick s
  | .delayExpiry t => Sys2Proof.Machine.execDelayExpiry t s
  | .ageing t => Sys2Proof.Machine.execAgeing t s
  | .sliceEnd n => Sys2Proof.Machine.execSliceEnd n s
  | .ack n v => Sys2Proof.Machine.execAck n v s
  | .pmaskWrite n v => Sys2Proof.Machine.execPmaskWrite n v s
  | .push n => Sys2Proof.Machine.execPush n s
  | .pull n => Sys2Proof.Machine.execPull n s
  | .peek n => Sys2Proof.Machine.execPeek n s
  | .interruptPost index => Sys2Proof.Machine.execInterruptPost index s
  | .runWrite m n v => Sys2Proof.Machine.execRunWrite m n v s
  | .lockAcqRead m index => Sys2Proof.Machine.execLockAcqRead m index s
  | .lockRelWrite m index => Sys2Proof.Machine.execLockRelWrite m index s
  | .brk m index => Sys2Proof.Machine.execBrk m index s
  | .dramAccess c e => Sys2Proof.Machine.execDramAccess c e s
  | .refreshDecision c => Sys2Proof.Machine.execRefreshDecision c s
  | .neighbourRefresh c => Sys2Proof.Machine.execNeighbourRefresh c s
  | .mr4Read c log2 hot => Sys2Proof.Machine.execMr4Read c log2 hot s
  | .trainStart => Sys2Proof.Machine.execTrainStart s
  | .trainingDone step ch => Sys2Proof.Machine.execTrainingDone step ch s
  | .init => Sys2Proof.Machine.execInit s
  | .initDone => Sys2Proof.Machine.execInitDone s
  | .selfRefreshAck c => Sys2Proof.Machine.execSelfRefreshAck c s
  | .selfRefreshTimeout => Sys2Proof.Machine.execSelfRefreshTimeout s
  | .lcProvision m => Sys2Proof.Machine.execProvision m s
  | .lcSecure m => Sys2Proof.Machine.execSecure m s
  | .lcReturn m => Sys2Proof.Machine.execReturn m s
  | .lcRetire m => Sys2Proof.Machine.execRetire m s
  | .lifecycleDone => Sys2Proof.Machine.execLifecycleDone s
  | .prog => Sys2Proof.Machine.execProg s
  | .otpProgDone failed => Sys2Proof.Machine.execOtpProgDone failed s
  | .imageVerify header => Sys2Proof.Machine.execImageVerify header s
  | .svnWrite v => Sys2Proof.Machine.execSvnWrite v s
  | .rngRead m => Sys2Proof.Machine.execRngRead m s
  | .rngHealthFail => Sys2Proof.Machine.execRngHealthFail s
  | .keyDerive v => Sys2Proof.Machine.execKeyDerive v s
  | .klOutRead m => Sys2Proof.Machine.execKlOutRead m s
  | .sign => Sys2Proof.Machine.execSign s
  | .req level => Sys2Proof.Machine.execReq level s
  | .verify => Sys2Proof.Machine.execVerify s
  | .challengeExpire => Sys2Proof.Machine.execChallengeExpire s
  | .debugClose => Sys2Proof.Machine.execDebugClose s
  | .lockWrite v => Sys2Proof.Machine.execLockWrite v s
  | .dozeRequest => Sys2Proof.Machine.execDozeRequest s
  | .watchRequest => Sys2Proof.Machine.execWatchRequest s
  | .offRequest => Sys2Proof.Machine.execOffRequest s
  | .runRequest => Sys2Proof.Machine.execRunRequest s
  | .entryComplete => Sys2Proof.Machine.execEntryComplete s
  | .watchPeriodStart => Sys2Proof.Machine.execWatchPeriodStart s
  | .wurMatch w => Sys2Proof.Machine.execWurMatch w s
  | .tempCompare t => Sys2Proof.Machine.execTempCompare t s
  | .supplyCompare mv => Sys2Proof.Machine.execSupplyCompare mv s
  | .wakePin n high => Sys2Proof.Machine.execWakePin n high s
  | .wakeStart => Sys2Proof.Machine.execWakeStart s
  | .powerGood rail => Sys2Proof.Machine.execPowerGood rail s
  | .referenceWindowEnd count => Sys2Proof.Machine.execReferenceWindowEnd count s
  | .tagCheck => Sys2Proof.Machine.execTagCheck s
  | .wakeComplete => Sys2Proof.Machine.execWakeComplete s
  | .wakeTryFail step => Sys2Proof.Machine.execWakeTryFail step s
  | .offWaitEnd => Sys2Proof.Machine.execOffWaitEnd s
  | .brownOut => Sys2Proof.Machine.execBrownOut s
  | .oscSelWrite v hz => Sys2Proof.Machine.execOscSelWrite v hz s
  | .heelPorRelease => Sys2Proof.Machine.execHeelPorRelease s
  | .mainResetRelease => Sys2Proof.Machine.execMainResetRelease s
  | .keyWrite m => Sys2Proof.Machine.execKeyWrite m s
  | .core0Boot f => Sys2Proof.Machine.execCore0Boot f s
  | .recoveryHello src seq => Sys2Proof.Machine.execRecoveryHello src seq s
  | .recoveryWrite src seq offset data => Sys2Proof.Machine.execRecoveryWrite src seq offset data s
  | .recoveryBoot src seq => Sys2Proof.Machine.execRecoveryBoot src seq s
  | .modeWrite v => Sys2Proof.Machine.execModeWrite v s
  | .vddHeelInLoss => Sys2Proof.Machine.execVddHeelInLoss s
  | .illegalInstructionWord t => Sys2Proof.Machine.execIllegalInstructionWord t s

end Sys2Proof.Machine
end

