-- ==== Sys2Proof/WellFormed.lean ====
section
/-!
DEFINITION. Well-formed commands: the operands that name an instance or a shape the manual gives. A command that is not
well formed finds nothing to act on (log 39).
-/
namespace Sys2Proof

/-- Slice `x` has a chain `c`: eight on slice C, four on slices A and B (R84). -/
def chainExists (x c : Nat) : Bool := decide (c < if x = 2 then 8 else 4)

/-- `k` is the number of an island FIFO: converter 8x + c, or lane 64 + n (R74). -/
def fifoExists (k : Nat) : Bool := (decide (k < 24) && chainExists (k / 8) (k % 8)) || decide (64 ≤ k)

/-- An image header of its 352 bytes (R521). -/
def headerWhole (header : List Byte) : Bool := header.length == 352

/-- The addresses of register blocks: the peripheral windows and the heel's alias (R27, R30). -/
def inRegisterSpace (a : Nat) : Bool :=
  (decide (0x40000000 ≤ a) && decide (a < 0x40F00000)) || (decide (0x41000000 ≤ a) && decide (a < 0x41300000)) ||
  (decide (0x41400000 ≤ a) && decide (a < 0x41700000)) || (decide (0x30080000 ≤ a) && decide (a < 0x30090000))

/-- A Shank access of a size the manual gives, with as many bytes as the size (R479). It is aligned to its size, but in a
register block, where R31 gives an access of another alignment its answer. -/
def accessSound (addr size : Nat) (data : Option (List Byte)) : Bool :=
  [1, 2, 4, 8, 32, 64].contains size && (addr % size == 0 || inRegisterSpace addr) && data.all fun bs => bs.length == size

/-- Whether the operands of a command are ones the manual gives. -/
def Instr.wellFormed : Instr → Bool
  | .latchingRead r _ _ => decide (r.val < 27) || decide (64 ≤ r.val)
  | .shankAccess _ addr size data _ => accessSound addr.toNat size data
  | .converterRxOverrun x c => chainExists x c
  | .converterTxUnderrun x c => chainExists x c
  | .hwmClr k => fifoExists k
  | .adcClipGainDrop x c => chainExists x c
  | .tuneApply x c => chainExists x c
  | .vswrAlarmClear x c => chainExists x c
  | .cancReset x c => chainExists x c
  | .egressRequest e => decide (e.val ≤ 11) || decide (16 ≤ e.val)
  | .imageVerify header => headerWhole header
  | .core0Boot f => headerWhole f.copy0.header && headerWhole f.copy1.header && headerWhole f.copy2.header
  | _ => true

end Sys2Proof
end

