-- ==== Sys2Proof/Safety.lean ====
section
/-!
DEFINITION. The terms the claims are stated in: a command gives a next state, the queue as it stood; registers and
memory kept; nothing but some registers changed; the invariant of the machine.
-/
namespace Sys2Proof.Machine

/-- The command `i` completes at `s`: it answers a next state, in which the queue stands as it stood and the hardware
is such as `P` says. -/
def Gives (i : Instr) (s : State) (P : Hw → Prop) : Prop := ∃ h, exec i s = .next ⟨h, s.pending⟩ ∧ P h

/-- Every register reads as before but those at the addresses `as`. -/
def RegsKept (as : List Nat) (h h' : Hw) : Prop := ∀ a, a ∉ as → h'.word a = h.word a

/-- Every byte of memory reads as before. -/
def MemKept (h h' : Hw) : Prop := ∀ a, h'.byte a = h.byte a

/-- Every byte of memory reads as before but the `n` bytes from `a` up. -/
def MemKeptBut (a n : Nat) (h h' : Hw) : Prop := ∀ b, b < a ∨ a + n ≤ b → h'.byte b = h.byte b

/-- Nothing changes but the registers at the addresses `as`: not another register, no byte of memory, no clock, timer,
queue or unit. -/
def OnlyRegs (as : List Nat) (h h' : Hw) : Prop :=
  RegsKept as h h' ∧ MemKept h h' ∧ { h' with regs := h.regs, mem := h.mem } = h

/-- Nothing changes: every register and byte of memory reads as before, and everything else is as it was. -/
def Unchanged (h h' : Hw) : Prop := OnlyRegs [] h h'

/-- Every byte of memory reads as before but those of the ranges `l`, each an address and a number of bytes. -/
def MemKeptOff (l : List (Nat × Nat)) (h h' : Hw) : Prop :=
  ∀ b, (∀ x ∈ l, b < x.1 ∨ x.1 + x.2 ≤ b) → h'.byte b = h.byte b

/-- The `n` bytes from `a` up read zero. -/
def ZeroIn (a n : Nat) (h : Hw) : Prop := ∀ b, a ≤ b → b < a + n → h.byte b = 0

/-! ### The 40-bit counters of the fabric (R336) -/

def Hw.poolCount (h : Hw) (p n : Nat) : Nat := h.get (R.CKR_POOL_CNT_LO_CNT p n) + 2 ^ 32 * h.get (R.CKR_POOL_CNT_HI_CNT p n)
def Hw.sourceCount (h : Hw) (s n : Nat) : Nat := h.get (R.CKR_SRC_CNT_LO_CNT s n) + 2 ^ 32 * h.get (R.CKR_SRC_CNT_HI_CNT s n)
def Hw.ringCounter (h : Hw) (r n : Nat) : Nat := h.get (R.CKR_RING_CNT_LO_CNT r n) + 2 ^ 32 * h.get (R.CKR_RING_CNT_HI_CNT r n)
def Hw.queueCount (h : Hw) (q n : Nat) : Nat := h.get (R.TM_Q_CNT_LO_CNT q n) + 2 ^ 32 * h.get (R.TM_Q_CNT_HI_CNT q n)
def Hw.meterCount (h : Hw) (m n : Nat) : Nat := h.get (R.TM_MTR_CNT_LO_CNT m n) + 2 ^ 32 * h.get (R.TM_MTR_CNT_HI_CNT m n)
def Hw.reasonCount (h : Hw) (n : Nat) : Nat := h.get (R.LAC_DROP_LO_CNT n) + 2 ^ 32 * h.get (R.LAC_DROP_HI_CNT n)
def Hw.ethCounter (h : Hw) (n i : Nat) : Nat := h.get (R.ETH_CNT_LO_CNT n i) + 2 ^ 32 * h.get (R.ETH_CNT_HI_CNT n i)
def Hw.hopCounter (h : Hw) (i n : Nat) : Nat := h.get (R.UZL_HCNT_LO_CNT i n) + 2 ^ 32 * h.get (R.UZL_HCNT_HI_CNT i n)

/-- A 40-bit counter has risen by one, wrapping. -/
def Counted (a b : Nat) : Prop := b = (a + 1) % 2 ^ 40

/-- A destination whose domain, if it is one, exists. -/
def Dest.real (d : Option Dest) : Bool :=
  match d with
  | some (.domain n) => decide (n < 4096)
  | _ => true

/-- The descriptor `id` is free. -/
def Hw.gone (h : Hw) (id : Nat) : Bool := (kget h.fabric.frames id).isNone

/-! ### Awl threads -/

/-- Thread `t` is the one its engine picks, the word `w` at its PC is a valid form of instruction `k`, and the limit
does not stand against it (R236, R248, R265). -/
def Hw.issuesAny (h : Hw) (t : Nat) (k : AwlKind) (w : Word) : Bool :=
  h.issuer (t / 4) == some t && h.fetched t == w && kindOf w == some k && validWord k w && !h.atLimit t

/-- Thread `t` issues `w`, which is not the last word of the instruction memory (R260). -/
def Hw.issues (h : Hw) (t : Nat) (k : AwlKind) (w : Word) : Bool := h.issuesAny t k w && (h.thread t).pc != 0x1FFFC

/-- The four flags of a thread, Z, N, C and V. -/
def AwlThread.flags (th : AwlThread) : Bool × Bool × Bool × Bool := (th.z, th.n, th.c, th.v)

/-- Every thread but `t` is as it was. -/
def OthersKept (t : Nat) (h h' : Hw) : Prop := ∀ u < 256, u ≠ t → h'.thread u = h.thread u

/-- The general registers of thread `t` that `ws` names hold its values (g0 keeps zero), and no other changed; the flags
are `fl`, or unchanged; the PC is `pc`. -/
def Wrote (h h' : Hw) (t : Nat) (ws : List (Nat × Dword)) (fl : Option (Bool × Bool × Bool × Bool)) (pc : Nat) : Prop :=
  (∀ q < 16, (h'.thread t).reg q = if q = 0 then 0 else (kget ws q).getD ((h.thread t).reg q)) ∧
  (h'.thread t).flags = fl.getD (h.thread t).flags ∧ (h'.thread t).pc = pc

/-- Thread `t` has executed an instruction in its issue slot: its registers, flags and PC as `Wrote` says, the
instruction counted, and no other thread, no device register and no byte of memory changed. -/
def Steps (h h' : Hw) (t : Nat) (ws : List (Nat × Dword)) (fl : Option (Bool × Bool × Bool × Bool)) (pc : Nat) : Prop :=
  Wrote h h' t ws fl pc ∧ (h'.thread t).count = (h.thread t).count + 1 ∧ OthersKept t h h' ∧ RegsKept [] h h' ∧ MemKept h h'

/-- Thread `t` has executed an instruction that only computes: register `d` holds `r`. -/
def Computes (h h' : Hw) (t d : Nat) (r : Dword) (fl : Option (Bool × Bool × Bool × Bool)) : Prop :=
  Steps h h' t [(d, r)] fl ((h.thread t).pc + 4)

/-- Thread `t` is in Wait on its long-latency instruction: what it waits for is `on`, its registers, flags and PC are as
they were. -/
def Waits (h h' : Hw) (t : Nat) (on : WaitOn) : Prop :=
  (h'.thread t).on = on ∧ h'.threadState t = 2 ∧ Wrote h h' t [] none (h.thread t).pc

/-- Thread `t` runs again behind its long-latency instruction. -/
def Resumes (h h' : Hw) (t : Nat) (ws : List (Nat × Dword)) (fl : Option (Bool × Bool × Bool × Bool)) : Prop :=
  (h'.thread t).on = .nothing ∧ h'.threadState t = 1 ∧ Wrote h h' t ws fl ((h.thread t).pc + 4)

/-- Thread `t` has raised the exception `code` on the word `w`, no earlier record standing (R262, R263, R268): the
record with its PC, word, address and information; the frame given up; and the thread in Halt after HALT, else Idle or
in Fault as RESUME says; no byte of memory changed. -/
def Excepts (h h' : Hw) (t code : Nat) (w : Word) (addr info : Nat) : Prop :=
  h'.get (R.AWL_THR_STAT_EXC_EV (t / 4) (t % 4)) = 1 ∧ h'.get (R.AWL_THR_STAT_CODE (t / 4) (t % 4)) = code ∧
  h'.word (R.AWL_EXC_PC (t / 4) (t % 4)) = BitVec.ofNat 32 (h.thread t).pc ∧ h'.word (R.AWL_EXC_INSN (t / 4) (t % 4)) = w ∧
  h'.word (R.AWL_EXC_ADDR_LO (t / 4) (t % 4)) = BitVec.ofNat 32 addr ∧
  h'.word (R.AWL_EXC_ADDR_HI (t / 4) (t % 4)) = BitVec.ofNat 32 (addr / 2 ^ 32) ∧
  h'.word (R.AWL_EXC_INFO (t / 4) (t % 4)) = BitVec.ofNat 32 info ∧ (h'.thread t).frame = none ∧
  h'.threadState t = (if code = 10 then 4 else if h.get (R.AWL_CLU_CFG_RESUME (t / 32)) = 1 then 0 else 3) ∧
  MemKept h h'

/-- Thread `t` can record an exception: no record stands and none is held by OVF, and the locks it lists are locks that
exist. -/
def Hw.mayRecord (h : Hw) (t : Nat) : Bool :=
  !h.flag (R.AWL_THR_STAT_EXC_EV (t / 4) (t % 4)) && !h.flag (R.AWL_THR_STAT_OVF (t / 4) (t % 4)) && (h.thread t).locks.all fun i => decide (i < 1024)

/-- Target `g` grants next the operation of its unit that thread `t` waits for with the word `w` of instruction `k`, and
the access table permits it (R270, R480). -/
def Hw.unitGranted (h : Hw) (g t : Nat) (w : Word) (k : AwlKind) : Bool :=
  match h.grantChoice g with
  | some (_, q) => q.thread == some t && (h.thread t).on == .unit && (h.thread t).insn == w && kindOf w == some k &&
      h.unitPermits g q.master q.addr q.data.isSome
  | none => false

/-- The row of an Awl instruction, issued by thread `t`. -/
def awlRow (t : Fin 256) : AwlKind → Instr
  | .add => .add t | .adds => .adds t | .sub => .sub t | .subs => .subs t | .mul => .mul t | .mulh => .mulh t
  | .and => .and t | .or => .or t | .xor => .xor t | .shl => .shl t | .shr => .shr t | .shra => .shra t
  | .clz => .clz t | .popc => .popc t | .cmp => .cmp t | .bfx => .bfx t | .bfi => .bfi t
  | .bcond => .bCond t | .call => .call t | .ret => .ret t | .ld => .ld t | .st => .st t
  | .yield => .yield t | .raise => .raise t | .trap => .trap t | .halt => .halt t
  | .ldp => .ldp t | .stp => .stp t | .crc => .crc t | .hash => .hash t
  | .qpush => .qpush t | .qpull => .qpull t | .qpeek => .qpeek t | .lock => .lock t | .unlock => .unlock t
  | .tnow => .tnow t | .tmono => .tmono t | .tadd => .tadd t | .tcmp => .tcmp t | .cfadd => .cfadd t
  | .stampRead => .stampRead t | .stampMark => .stampMark t | .waitev => .waitev t | .waitt => .waitt t
  | .release => .release t | .drop => .drop t | .fwd => .fwd t | .lastw => .lastw t | .lastamend => .lastamend t

/-! ### Shank -/

/-- Target `t` has granted `r` (R486): it waits no more, no other request has gone, the wait counter of its master is 0
if the grant was no express one, the counter of every other master with an ordinary request still waiting has risen by
one, held at 255, and no other counter has changed. -/
def Granted (h h' : Hw) (t : Nat) (r : Request) : Prop :=
  (h'.arbiter t).waiting = withoutFirst (h.arbiter t).waiting r ∧ (h'.arbiter t).lastGrant = some r.master ∧
  (h'.arbiter t).waitOf r.master = (if r.express then (h.arbiter t).waitOf r.master else 0) ∧
  ∀ m < 27, m ≠ r.master → (h'.arbiter t).waitOf m =
    if (h'.arbiter t).waiting.any (h.ordinaryOf m) then min 255 ((h.arbiter t).waitOf m + 1) else (h.arbiter t).waitOf m

/-- The first request waiting at target `t` that satisfies `p`. -/
def Hw.firstWaiting (h : Hw) (t : Nat) (p : Request → Bool) : Option Request := (h.arbiter t).waiting.find? p

/-- The first master in rotation at target `t` that has an ordinary request waiting and satisfies `p`. -/
def Hw.inRotation (h : Hw) (t : Nat) (p : Nat → Bool) : Option Nat :=
  (h.arbiter t).rotation.find? fun m => p m && (h.arbiter t).waiting.any (h.ordinaryOf m)

/-- The master that a forced grant of target `t` takes now (R485, R486). -/
def Hw.forcedMaster (h : Hw) (t : Nat) : Option Nat :=
  if (h.arbiter t).window = 0 then h.inRotation t fun m => decide (h.get (R.SHK_ARB_CFG_LIMIT t) ≤ (h.arbiter t).waitOf m) else none

/-- The hinted request of the master that holds the turn of target `t`, if it may go on (R487). -/
def Hw.turnRequest (h : Hw) (t : Nat) : Option Request :=
  match (h.arbiter t).turn with
  | some (m, n) => if n = 0 then none else h.firstWaiting t fun r => h.ordinaryOf m r && r.hint
  | none => none

/-- The error is counted, and it is the record of SHK_ERR where none stood (R481). -/
def Logged (h h' : Hw) (master addr kind : Nat) (write : Bool) : Prop :=
  h'.get R.SHK_ERR_CNT_LO_CNT + 2 ^ 32 * h'.get R.SHK_ERR_CNT_HI_CNT =
    (h.get R.SHK_ERR_CNT_LO_CNT + 2 ^ 32 * h.get R.SHK_ERR_CNT_HI_CNT + 1) % 2 ^ 40 ∧
  h'.get R.SHK_STAT_ERR_EV = 1 ∧
  (if h.flag R.SHK_STAT_ERR_EV then
    h'.word R.SHK_ERR_ADDR_LO = h.word R.SHK_ERR_ADDR_LO ∧ h'.word R.SHK_ERR_ADDR_HI = h.word R.SHK_ERR_ADDR_HI ∧
    h'.word R.SHK_ERR_INFO = h.word R.SHK_ERR_INFO
  else
    h'.get R.SHK_ERR_ADDR_LO_ADDR + 2 ^ 32 * h'.get R.SHK_ERR_ADDR_HI_ADDR = addr % 2 ^ 40 ∧
    h'.get R.SHK_ERR_INFO_MASTER = master % 64 ∧ h'.get R.SHK_ERR_INFO_KIND = kind ∧
    h'.get R.SHK_ERR_INFO_WRITE = if write then 1 else 0)

/-- The registers that an error on Shank may change. -/
def shankErrorRegs : List Nat :=
  [R.SHK_STAT, R.SHK_ERR_CNT_LO, R.SHK_ERR_CNT_HI, R.SHK_ERR_ADDR_LO, R.SHK_ERR_ADDR_HI, R.SHK_ERR_INFO]

/-- SYS_CX_n_STAT of the three coexistence ports, whose LIVE.TXACT follows the PAEN of masked slices (R135). -/
def cxStatRegs : List Nat := [R.SYS_CX_STAT 0, R.SYS_CX_STAT 1, R.SYS_CX_STAT 2]

/-- The answer that requester `q` finds: the outcome of its access at `a` and the bytes. -/
def Answered (h : Hw) (q m a outcome : Nat) (bs : List Byte) : Prop := kget h.shank.replies q = some ⟨m, a, outcome, bs⟩

/-- The commands that the Heel takes in every state: the others are commands to the main domains (R541, R566). -/
def toHeel : Instr → Bool
  | .entryComplete | .watchPeriodStart | .wurMatch _ | .tempCompare _ | .supplyCompare _ | .wakePin _ _ | .wakeStart
  | .powerGood _ | .referenceWindowEnd _ | .wakeTryFail _ | .offWaitEnd | .brownOut | .vddHeelInLoss
  | .heelPorRelease | .mainResetRelease | .wakeFrameDetect _ => true
  | _ => false

/-- The invariant of the machine: memory stands in its canonical form. -/
def State.Sound (s : State) : Prop := memWf s.hw.mem = true

end Sys2Proof.Machine
end

