-- ==== Sys2Proof/Certificates/Slice0/Obligations.lean ====
section
/-!
DEFINITION. The statements for the provers. Each names the commands it speaks of; a statement of several commands is a
conjunction with one clause a command. `s` is any state, `h` the hardware after the command.
-/
open Sys2Proof Sys2Proof.Machine

/-- A step is exec of the command in front (log 1). -/
def Obligations.StepRunsFront : Prop :=
  ∀ (c : Instr) (rest : List Instr) (s : State), s.pending = c :: rest → step s = exec c { s with pending := rest }

/-- The state after reset (R17, R19, R320, R437, R484, R493, R565, R566, R569). Memory that nothing has written reading 0 is
the model's choice where R484 does not give it (log 5); the lifecycle of unprogrammed fuses is Blank (R516, log 6). -/
def Obligations.ResetState : Prop :=
  RegsKept (R.SYS_RST_REC :: ((List.range 4).map (R.PHY_RSSI_CAL 0) ++ (List.range 4).map (R.PHY_RSSI_CAL 1) ++ (List.range 8).map (R.PHY_RSSI_CAL 2)))
    { State.reset.hw with regs := [] } State.reset.hw ∧
  (∀ x < 3, ∀ c < 8, chainExists x c = true → State.reset.hw.word (R.PHY_RSSI_CAL x c) = (Config.rssiTrim (8 * x + c)).setWidth 32) ∧
  State.reset.hw.get R.SYS_RST_REC_CAUSE = 0 ∧ State.reset.hw.get R.SYS_RST_REC_HEEL_LOST = 1 ∧ State.reset.hw.get R.SYS_RST_REC_COLD_CNT = 1 ∧
  State.reset.hw.ps = psRun ∧ State.reset.hw.nt = 0 ∧ State.reset.hw.rem = 0 ∧ State.reset.hw.tbLock = false ∧
  State.reset.hw.get R.TIME_STAT_NT_VALID = 0 ∧ (∀ r, kget State.reset.hw.latches r = none) ∧
  (∀ t, (State.reset.hw.arbiter t).waiting = []) ∧ (∀ i < 1024, State.reset.hw.get (R.SHK_LOCK_STAT_HELD i) = 0) ∧
  (∀ a, State.reset.hw.byte a = 0) ∧ State.reset.hw.fabric.lastCluster = 7 ∧ State.reset.hw.lifecycle = lcBlank ∧
  State.reset.hw.boot.waits = true ∧ State.reset.hw.mainUp = true ∧ State.reset.pending = []

/-- The invariant at reset; the form of the list is the model's own (log 5). -/
def Obligations.MemoryCanonicalAtReset : Prop :=
  State.reset.Sound

/-- The invariant of the model, kept by every step. -/
def Obligations.MemoryStaysCanonical : Prop :=
  ∀ s t : State, s.Sound → step s = .next t → t.Sound

/-- No command faults and none is refused. What operands name that the device does not have takes no command (R20, R74, R84,
R479, R521; the model's choice, log 39). Domains that are off or in reset take none (R541, R545, R566; log 7). -/
def Obligations.EveryCommandCompletes : Prop :=
  ∀ (c : Instr) (s : State),
    (Gives c s fun _ => True) ∧
    (c.wellFormed = false → Gives c s fun h => Unchanged s.hw h) ∧
    (s.hw.mainUp = false → toHeel c = false → Gives c s fun h => Unchanged s.hw h)

/-- The sentinels and the AVS loop (R55 to R71), one clause a command and case. That a response leaves a waiting mode,
target or emergency to follow is the model's reading (log 20). -/
def Obligations.SentinelsAndAvsLoop : Prop :=
  ∀ s : State, s.hw.mainUp = true → 
    (∀ (count n d : Nat), tget s.hw.timers .sentWindow = some d → s.hw.speed.sweepAt = some n → n < 16 → Gives (.sentinelWindowEnd count) s fun h =>
        h.get (R.SYS_SENT_STAT_COUNT n) = min count 4095 ∧
        h.getI (R.SYS_SENT_STAT_SLACK n) = (min count 4095 : Int) - 2048 ∧
        h.speed.sweepAt = some (n + 1) ∧ RegsKept [R.SYS_SENT_STAT n] s.hw h ∧ MemKept s.hw h) ∧
    (∀ (d : Nat), tget s.hw.timers .sweep = some d → Gives (.sweepStart) s fun h =>
        tget h.timers .sweep = some (h.et + 2 ^ s.hw.get R.SYS_SENT_CTL_PER_EXP * 1000) ∧
        h.speed.sweepAt = (if s.hw.flag R.SYS_SENT_CTL_EN then some 0 else s.hw.speed.sweepAt) ∧
        (s.hw.flag R.SYS_SENT_CTL_EN = true → tget h.timers .sentWindow = some (h.et + 1024)) ∧
        RegsKept [] s.hw h ∧ MemKept s.hw h) ∧
    (s.hw.speed.sweepAt = some 16 → Gives (.sweepComplete) s fun h =>
        h.get R.SYS_SPEED_STAT_MIN_ID < 16 ∧
        h.getI R.SYS_SPEED_STAT_MIN_SLACK = s.hw.getI (R.SYS_SENT_STAT_SLACK (h.get R.SYS_SPEED_STAT_MIN_ID)) ∧
        (∀ n < 16, h.getI R.SYS_SPEED_STAT_MIN_SLACK ≤ s.hw.getI (R.SYS_SENT_STAT_SLACK n)) ∧
        (∀ n < h.get R.SYS_SPEED_STAT_MIN_ID,
          h.getI R.SYS_SPEED_STAT_MIN_SLACK < s.hw.getI (R.SYS_SENT_STAT_SLACK n)) ∧
        (h.getI R.SYS_SPEED_STAT_MIN_SLACK < 0 → h.get R.SYS_SPEED_STAT_BELOW = 1) ∧
        (0 ≤ h.getI R.SYS_SPEED_STAT_MIN_SLACK → h.get R.SYS_SPEED_STAT_BELOW = s.hw.get R.SYS_SPEED_STAT_BELOW) ∧
        h.speed.sweepAt = none ∧ RegsKept [R.SYS_SPEED_STAT, R.SYS_AVS_STAT] s.hw h ∧ MemKept s.hw h) ∧
    (∀ (v : Word) (t : AvsTransaction), s.hw.speed.transaction = some t → Gives (.avsModeWrite v) s fun h =>
        h.get R.SYS_AVS_CTL_MODE = s.hw.get R.SYS_AVS_CTL_MODE ∧ h.speed.transaction = some t ∧
        h.speed.waits = s.hw.speed.waits ++ (if fieldOf v R.SYS_AVS_CTL_MODE = 3 then [] else [.mode (fieldOf v R.SYS_AVS_CTL_MODE)]) ∧
        RegsKept [R.SYS_AVS_CTL] s.hw h ∧ MemKept s.hw h) ∧
    (∀ (v : Word) (t : AvsTransaction), s.hw.speed.transaction = some t → Gives (.avsManWrite v) s fun h =>
        h.speed.transaction = some t ∧ h.speed.waits = s.hw.speed.waits ++ [.man v] ∧ RegsKept [] s.hw h ∧ MemKept s.hw h) ∧
    (∀ (v : Word), s.hw.speed.transaction = none → s.hw.speed.waits = [] → s.hw.get R.HEEL_PS_STAT_STATE = 0 → Gives (.avsModeWrite v) s fun h =>
        h.get R.SYS_AVS_CTL_STEP_UP = max 1 (fieldOf v R.SYS_AVS_CTL_STEP_UP) ∧
        h.get R.SYS_AVS_CTL_STEP_DN = max 1 (fieldOf v R.SYS_AVS_CTL_STEP_DN) ∧
        h.get R.SYS_AVS_CTL_HOLD = max 1 (fieldOf v R.SYS_AVS_CTL_HOLD) ∧
        h.get R.SYS_AVS_CTL_SETTLE_US = max 1 (fieldOf v R.SYS_AVS_CTL_SETTLE_US) ∧
        h.get R.SYS_AVS_CTL_MODE = (if fieldOf v R.SYS_AVS_CTL_MODE = 3 then s.hw.get R.SYS_AVS_CTL_MODE
          else fieldOf v R.SYS_AVS_CTL_MODE) ∧
        (fieldOf v R.SYS_AVS_CTL_MODE = 1 → s.hw.speed.loop = false →
          s.hw.get R.SYS_AVS_STAT_BUS_FAIL = 0 →
          h.speed.transaction = some ⟨.readTarget, s.hw.get R.SYS_AVS_LIM_RAIL, 0⟩) ∧
        RegsKept [R.SYS_AVS_CTL, R.SYS_AVS_STAT] s.hw h ∧ MemKept s.hw h) ∧
    (∀ (v : Word), s.hw.speed.transaction = none → s.hw.speed.waits = [] → s.hw.get R.HEEL_PS_STAT_STATE = 0 → Gives (.avsManWrite v) s fun h =>
        h.word R.SYS_AVS_MAN = v ∧
        (s.hw.get R.SYS_AVS_CTL_MODE = 2 →
          h.speed.transaction = some ⟨.writeTarget (clampNat (s.hw.get R.SYS_AVS_LIM_VMIN) (s.hw.get R.SYS_AVS_LIM_VMAX)
            (fieldOf v R.SYS_AVS_MAN_V)), s.hw.get R.SYS_AVS_LIM_RAIL, 0⟩ ∧ h.get R.SYS_AVS_STAT_BUSY = 1) ∧
        RegsKept [R.SYS_AVS_MAN, R.SYS_AVS_STAT] s.hw h ∧ MemKept s.hw h) ∧
    (∀ (v : Word) (lo hi : Nat), lo = clampNat 650 850 (fieldOf v R.SYS_AVS_LIM_VMIN) → hi = clampNat 650 850 (fieldOf v R.SYS_AVS_LIM_VMAX) → lo ≤ hi → fieldOf v R.SYS_AVS_LIM_RAIL ≠ 15 → Gives (.avsLimWrite v) s fun h =>
        h.get R.SYS_AVS_LIM_VMIN = lo ∧ h.get R.SYS_AVS_LIM_VMAX = hi ∧
        h.get R.SYS_AVS_LIM_RAIL = fieldOf v R.SYS_AVS_LIM_RAIL ∧ OnlyRegs [R.SYS_AVS_LIM] s.hw h) ∧
    (∀ (v : Word), clampNat 650 850 (fieldOf v R.SYS_AVS_LIM_VMAX) < clampNat 650 850 (fieldOf v R.SYS_AVS_LIM_VMIN) ∨ fieldOf v R.SYS_AVS_LIM_RAIL = 15 → Gives (.avsLimWrite v) s fun h =>
        h.get R.SYS_AVS_STAT_CFG_ERR = 1 ∧ OnlyRegs [R.SYS_AVS_STAT] s.hw h) ∧
    (∀ (mv : BitVec 16) (t : AvsTransaction), s.hw.speed.transaction = some t → Gives (.avsResponse false mv) s fun h =>
        Unchanged s.hw h) ∧
    (∀ (mv : BitVec 16) (rail v n : Nat), s.hw.speed.transaction = some ⟨.writeTarget v, rail, n⟩ → Gives (.avsResponse true mv) s fun h =>
        h.get R.SYS_AVS_STAT_V_REQ = v % 2 ^ 16 ∧
        tget h.timers .avsSettle = some (s.hw.et + s.hw.get R.SYS_AVS_CTL_SETTLE_US * 1000) ∧
        h.get R.SYS_AVS_STAT_BUSY = 1 ∧ RegsKept [R.SYS_AVS_STAT] s.hw h ∧ MemKept s.hw h) ∧
    (∀ (mv : BitVec 16) (rail n : Nat), s.hw.speed.transaction = some ⟨.readTarget, rail, n⟩ → s.hw.speed.waits = [] → s.hw.speed.emergencyWaits = false → Gives (.avsResponse true mv) s fun h =>
        h.speed.target = clampNat (s.hw.get R.SYS_AVS_LIM_VMIN) (s.hw.get R.SYS_AVS_LIM_VMAX) mv.toNat ∧
        h.speed.loop = true ∧ h.speed.transaction = none ∧ RegsKept [R.SYS_AVS_STAT] s.hw h ∧ MemKept s.hw h) ∧
    (∀ (t : AvsTransaction) (d : Nat), tget s.hw.timers .avsRetry = some d → s.hw.speed.transaction = some t → t.retries < 3 → Gives (.avsRetry) s fun h =>
        h.speed.transaction = some { t with retries := t.retries + 1 } ∧
        tget h.timers .avsRetry = some (h.et + 10000) ∧ RegsKept [] s.hw h ∧ MemKept s.hw h) ∧
    (∀ (t : AvsTransaction) (d : Nat), tget s.hw.timers .avsRetry = some d → s.hw.speed.transaction = some t → 3 ≤ t.retries → Gives (.avsRetry) s fun h =>
        h.get R.SYS_AVS_STAT_BUS_FAIL = 1 ∧ h.speed.loop = false ∧
        h.get R.SYS_AVS_CTL_MODE = s.hw.get R.SYS_AVS_CTL_MODE ∧ RegsKept [R.SYS_AVS_STAT] s.hw h ∧ MemKept s.hw h) ∧
    (∀ (d : Nat), tget s.hw.timers .avsSettle = some d → Gives (.avsSettleEnd) s fun h =>
        tget h.timers .avsSettle = none ∧
        h.get R.SYS_AVS_STAT_BUSY = (if s.hw.speed.transaction.isSome then 1 else 0) ∧
        RegsKept [R.SYS_AVS_STAT] s.hw h ∧ MemKept s.hw h)

/-- The state machine of the functions (R43 to R47), for every kind of function. The open check is the model's
`Hw.openCheck`, written from R93, R347 and R409. The island FIFOs (R74 to R78); that one status register shows the fuller of two FIFOs is the model's choice (log 44). -/
def Obligations.FunctionControlAndIslandFifos : Prop :=
  ∀ s : State, s.hw.mainUp = true → 
    (∀ (f : FuncId), s.hw.get (fctlEn f) = 0 → s.hw.funcState f = stClosed → (s.hw.openCheck f).2 = true → Gives (.fctlEnSet f) s fun h =>
        h.get (fctlEn f) = 1 ∧ h.get (fstatState f) = stOpening) ∧
    (∀ (f : FuncId), s.hw.get (fctlEn f) = 0 → s.hw.funcState f = stClosed → (s.hw.openCheck f).2 = false → Gives (.fctlEnSet f) s fun h =>
        h.get (fctlEn f) = 0 ∧ h.get (fstatState f) = stClosed ∧
        RegsKept [fctl f, R.RFS_RETUNE 0, R.RFS_RETUNE 1, R.RFS_RETUNE 2, R.UZL_STAT, R.TM_STAT] s.hw h ∧ MemKept s.hw h) ∧
    (∀ (f : FuncId), s.hw.get (fctlEn f) = 0 → s.hw.funcState f = stClosing → Gives (.fctlEnSet f) s fun h =>
        h.get (fctlEn f) = 1 ∧ h.get (fstatPend f) = 1 ∧ h.get (fstatState f) = stClosing ∧ OnlyRegs [fctl f, fctl f + 4] s.hw h) ∧
    (∀ (f : FuncId), s.hw.get (fctlEn f) = 1 → s.hw.funcState f = stOpen → Gives (.fctlEnClear f) s fun h =>
        h.get (fctlEn f) = 0 ∧ h.get (fstatState f) = stClosing ∧
        tget h.timers (.drain f) = some (s.hw.et + 2 ^ s.hw.get (fctlDrainExp f) * 1000)) ∧
    (∀ (f : FuncId), s.hw.funcState f = stOpening → s.hw.prepared f = true → ∀ r, f = .ring r → s.hw.pushersOf r = [] → Gives (.functionOpened f) s fun h =>
        h.get (fstatState f) = stOpen) ∧
    (∀ (f : FuncId), s.hw.funcState f = stClosing → s.hw.drained f = true → Gives (.drainComplete f) s fun h =>
        h.get (fstatClosedEv f) = 1 ∧ (s.hw.get (fstatPend f) = 0 → h.get (fstatState f) = stClosed)) ∧
    (∀ (f : FuncId) (d : Nat), tget s.hw.timers (.drain f) = some d → s.hw.funcState f = stClosing → Gives (.drainTimeout f) s fun h =>
        h.get (fstatClosedEv f) = 1 ∧ (s.hw.get (fstatPend f) = 0 → h.get (fstatState f) = stClosed) ∧
        (((s.hw.advanceTo d).stop (.drain f)).drained f = false → h.get (fstatTimedOut f) = 1)) ∧
    (∀ (x : Fin 3) (c : Fin 8), chainExists x c = true → Gives (.converterRxOverrun x c) s fun h =>
        h.get (R.RFS_FIFO_STAT_EVT x c) = 1 ∧
        h.get (R.RFS_FIFO_STAT_EVT_CNT x c) = min (s.hw.get (R.RFS_FIFO_STAT_EVT_CNT x c) + 1) 65535 ∧
        h.get (R.RFS_FIFO_STAT_HWM x c) = max 64 (s.hw.get (R.RFS_FIFO_STAT_HWM x c)) ∧
        h.occupancy (fifoConvRx x c) = 0 ∧ (h.slice x).rx.phase = .idle ∧
        (∀ n < 16, h.get (R.PHY_NF_NF x n) = 0x800) ∧ MemKept s.hw h) ∧
    (∀ (x : Fin 3) (c : Fin 8) (p : TxPpdu), chainExists x c = true → (s.hw.slice x).tx = some p → s.hw.et < p.t1 → p.response = false → Gives (.converterTxUnderrun x c) s fun h =>
        h.get (R.RFS_FIFO_STAT_EVT x c) = 1 ∧
        h.get (R.RFS_FIFO_STAT_EVT_CNT x c) = min (s.hw.get (R.RFS_FIFO_STAT_EVT_CNT x c) + 1) 65535 ∧
        kget h.txStatus x = some .txUnderrun ∧ h.occupancy (fifoConvTx x c) = 0 ∧
        (s.hw.inSetting x = false → (h.slice x).tx = none) ∧
        (s.hw.inSetting x = true → (h.slice x).tx =
          some { p with t1 := if s.hw.et < p.t0 then s.hw.et else min p.t1 (s.hw.et + rampNs x) }) ∧
        RegsKept [R.RFS_FIFO_STAT x c] s.hw h ∧ MemKept s.hw h) ∧
    (∀ (n : Fin 12), Gives (.laneRxOverrun n) s fun h =>
        h.get (R.LANE_FIFO_STAT_EVT n) = 1 ∧
        h.get (R.LANE_FIFO_STAT_EVT_CNT n) = min (s.hw.get (R.LANE_FIFO_STAT_EVT_CNT n) + 1) 65535 ∧
        h.get (R.LANE_FIFO_STAT_HWM n) = max 64 (s.hw.get (R.LANE_FIFO_STAT_HWM n)) ∧ h.occupancy (fifoLaneRx n) = 0 ∧
        (n.val < 8 → (h.ethPort n).assembly = none) ∧ (8 ≤ n.val → (h.hop (n.val - 8)).arriving = none)) ∧
    (∀ (n : Fin 12), Gives (.laneTxUnderrun n) s fun h =>
        h.get (R.LANE_FIFO_STAT_EVT n) = 1 ∧
        h.get (R.LANE_FIFO_STAT_EVT_CNT n) = min (s.hw.get (R.LANE_FIFO_STAT_EVT_CNT n) + 1) 65535 ∧ h.occupancy (fifoLaneTx n) = 0 ∧
        (8 ≤ n.val → RegsKept [R.LANE_FIFO_STAT n] s.hw h ∧ MemKept s.hw h)) ∧
    (∀ (n : Fin 12) (x : EthTx), n.val < 8 → (s.hw.ethPort n).tx = some x → x.started = true → Gives (.laneTxUnderrun n) s fun h =>
        kget h.wire n = some [] ∧ h.gone x.frame = true ∧ ((s.hw.ethPort n).next = [] → (h.ethPort n).tx = none)) ∧
    (∀ (n : Fin 12) (x : HopTx) (t : Nat), 8 ≤ n.val → (s.hw.hop (n.val - 8)).tx = some x → x.startAt = some t → s.hw.hopSending (n.val - 8) = true → Gives (.laneTxUnderrun n) s fun h =>
        (h.hop (n.val - 8)).tx = none ∧ kget h.wire n = some []) ∧
    (∀ (x : Fin 3) (c : Fin 8) (k : Fin 76), k.val = 8 * x.val + c.val → chainExists x c = true → s.hw.fifoNow k ≤ 64 → Gives (.hwmClr k) s fun h =>
        h.get (R.RFS_FIFO_STAT_HWM x c) = s.hw.fifoNow k ∧ OnlyRegs [R.RFS_FIFO_STAT x c] s.hw h) ∧
    (∀ (n : Fin 12) (k : Fin 76), k.val = 64 + n.val → s.hw.fifoNow k ≤ 64 → Gives (.hwmClr k) s fun h =>
        h.get (R.LANE_FIFO_STAT_HWM n) = s.hw.fifoNow k ∧ OnlyRegs [R.LANE_FIFO_STAT n] s.hw h) ∧
    (∀ (n : Fin 12) (level : Fin 65) (x : HopTx), 8 ≤ n.val → (s.hw.hop (n.val - 8)).tx = some x → x.startAt = none → Gives (.laneTxFrameStart n level) s fun h =>
        h.get (R.LANE_FIFO_STAT_HWM n) = max level.val (s.hw.get (R.LANE_FIFO_STAT_HWM n)) ∧ h.occupancy (fifoLaneTx n) = level.val ∧
        (h.hop (n.val - 8)).tx = (if min (if x.total = 0 then 64 else (x.total + 7) / 8)
            (match s.hw.laneRate n with | 0 => 6 | 1 => 8 | 2 => 12 | 3 => 20 | _ => 44) ≤ level.val
          then some { x with startAt := some s.hw.et, endAt := s.hw.et + s.hw.hopTime (n.val - 8) x.total } else some x) ∧
        RegsKept [R.LANE_FIFO_STAT n] s.hw h ∧ MemKept s.hw h) ∧
    (∀ (n : Fin 12) (level : Fin 65) (x : EthTx), n.val < 8 → (s.hw.ethPort n).tx = some x → x.started = false → Gives (.laneTxFrameStart n level) s fun h =>
        h.get (R.LANE_FIFO_STAT_HWM n) = max level.val (s.hw.get (R.LANE_FIFO_STAT_HWM n)) ∧ h.occupancy (fifoLaneTx n) = level.val ∧
        (h.ethPort n).tx = (if min (((s.hw.frame x.frame).leaving + 7) / 8)
            (match s.hw.laneRate n with | 0 => 6 | 1 => 8 | 2 => 12 | 3 => 20 | _ => 44) ≤ level.val
          then some { x with started := true, stamp := s.hw.stampNow true, stampValid := s.hw.tbLock, an := s.hw.get (R.ETH_SEC_CTL_TX_AN n) }
          else some x) ∧
        RegsKept [R.LANE_FIFO_STAT n] s.hw h ∧ MemKept s.hw h)

/-- Retuning (R92, R93), the accumulators (R88) and the synthesiser (R94 to R96, R99, R100, R105), one clause a command and
case. Which START a timeout after READY belongs to, and where a calibration that cannot start it ends, are readings of the model (logs 45,
46). -/
def Obligations.SynthesiserStates : Prop :=
  ∀ s : State, s.hw.mainUp = true → 
    (∀ (x : Fin 3), ncoValid x (s.hw.stagedRx x) (s.hw.stagedTx x) = false → Gives (.retuneGo x) s fun h =>
        h.get (R.RFS_RETUNE_RANGE_ERR x) = 1 ∧ h.get (R.RFS_RETUNE_PEND x) = 0 ∧ (h.slice x).retune = none ∧
        RegsKept [R.RFS_RETUNE x] s.hw h ∧ MemKept s.hw h) ∧
    (∀ (x : Fin 3), ncoValid x (s.hw.stagedRx x) (s.hw.stagedTx x) = true → s.hw.synth x = synReady ∨ (s.hw.slice x).cal.isSome = true → Gives (.retuneGo x) s fun h =>
        h.get (R.RFS_RETUNE_PEND x) = 1 ∧ (h.slice x).retune = some (s.hw.stagedRx x, s.hw.stagedTx x) ∧
        RegsKept [R.RFS_RETUNE x] s.hw h ∧ MemKept s.hw h) ∧
    (∀ (x : Fin 3), ncoValid x (s.hw.stagedRx x) (s.hw.stagedTx x) = true → s.hw.synth x ≠ synReady → (s.hw.slice x).cal = none → Gives (.retuneGo x) s fun h =>
        h.get (R.RFS_RETUNE_PEND x) = 0 ∧ h.activeRx x = s.hw.stagedRx x ∧
        tget h.timers (.retune x) = some (s.hw.et + 2000) ∧ MemKept s.hw h) ∧
    (∀ (x : Fin 3) (rx tx : Nat), (s.hw.slice x).retune = some (rx, tx) → rx < 2 ^ 48 → tx < 2 ^ 48 → s.hw.receiving x = false → s.hw.transmitting x = false → (s.hw.slice x).cal = none → Gives (.retuneApply x) s fun h =>
        h.activeRx x = rx ∧ h.activeTx x = tx ∧ h.get (R.RFS_RETUNE_PEND x) = 0 ∧
        (h.slice x).retune = none ∧ (h.slice x).ncoRx = 0 ∧ (h.slice x).ncoTx = 0 ∧ tget h.timers (.retune x) = some (s.hw.et + 2000) ∧
        (∀ n < 16, h.get (R.PHY_NF_NF x n) = 0x800) ∧ MemKept s.hw h) ∧
    (∀ (x : Fin 3) (d : Nat), tget s.hw.timers (.retune x) = some d → Gives (.retuneSettleEnd x) s fun h =>
        tget h.timers (.retune x) = none ∧ RegsKept cxStatRegs s.hw h ∧ MemKept s.hw h ∧
        (s.hw.funcState (.slice x) = stOpen → s.hw.synth x = synReady → s.hw.transmitting x = false →
          (h.slice x).femEn = true ∧ (h.slice x).trsw = 0 ∧ (h.slice x).lnaen = (if x = 2 then 255 else 15) ∧ (h.slice x).paen = 0)) ∧
    (∀ (x : Fin 3) (d : Nat), s.hw.synth x = synStart → tget s.hw.timers (.synth x) = some d → Gives (.synthStartEnd x) s fun h =>
        h.synth x = synAcquire ∧ tget h.timers (.synth x) = some (h.et + 400000) ∧
        RegsKept [R.RFS_SYNTH x] s.hw h ∧ MemKept s.hw h) ∧
    (∀ (x : Fin 3), s.hw.synth x = synAcquire → Gives (.synthLock x) s fun h =>
        h.synth x = synSettle ∧ h.get (R.RFS_SYNTH_LOCKED x) = 1 ∧ tget h.timers (.synth x) = some (s.hw.et + 40000) ∧
        RegsKept [R.RFS_SYNTH x] s.hw h ∧ MemKept s.hw h) ∧
    (∀ (x : Fin 3) (d : Nat), s.hw.synth x = synAcquire → tget s.hw.timers (.synth x) = some d → Gives (.synthAcqTimeout x) s fun h =>
        h.get (R.RFS_SYNTH_ACQ_FAIL_CNT x) = min (s.hw.get (R.RFS_SYNTH_ACQ_FAIL_CNT x) + 1) 255 ∧
        ((s.hw.slice x).acqFailed = true → h.synth x = synFault ∧ h.get (R.RFS_SYNTH_FAULT_EV x) = 1 ∧ (h.slice x).cal = none) ∧
        ((s.hw.slice x).acqFailed = false → h.synth x = synStart ∧ (h.slice x).acqFailed = true ∧
          tget h.timers (.synth x) = some (h.et + 60000)) ∧
        RegsKept [R.RFS_SYNTH x, R.RFS_CAL_STAT x] s.hw h ∧ MemKept s.hw h) ∧
    (∀ (x : Fin 3) (d : Nat) (k : Calibration), s.hw.synth x = synSettle → tget s.hw.timers (.synth x) = some d → (s.hw.slice x).cal = some k → Gives (.synthSettleEnd x) s fun h =>
        h.synth x = synCal ∧ (h.slice x).cal = some { k with starting := false } ∧ RegsKept [R.RFS_SYNTH x] s.hw h ∧ MemKept s.hw h) ∧
    (∀ (x : Fin 3) (d : Nat), s.hw.synth x = synSettle → tget s.hw.timers (.synth x) = some d → (s.hw.slice x).cal = none → (s.hw.slice x).needFull = true ∨ s.hw.get (R.RFS_CAL_STAT_VALID x) = 0 → Gives (.synthSettleEnd x) s fun h =>
        h.synth x = synCal ∧ (h.slice x).cal = some ⟨true, false, s.hw.getI (R.RFS_TEMP_T x), false⟩ ∧
        h.get (R.RFS_CAL_STAT_STATE x) = 2 ∧ (s.hw.receiving x = true → (h.slice x).rx.phase = .idle) ∧ MemKept s.hw h) ∧
    (∀ (x : Fin 3) (d : Nat), s.hw.synth x = synSettle → tget s.hw.timers (.synth x) = some d → (s.hw.slice x).cal = none → (s.hw.slice x).needFull = false → s.hw.get (R.RFS_CAL_STAT_VALID x) = 1 → Gives (.synthSettleEnd x) s fun h =>
        h.synth x = synReady ∧ (h.slice x).calWaits =
          (if (s.hw.slice x).woken = true ∧ 4 * s.hw.get (R.RFS_CAL_CTL_THRESH x) ≤ (s.hw.getI (R.RFS_TEMP_T x) - s.hw.getI (R.RFS_CAL_STAT_T_CAL x)).natAbs
           then some (false, false) else (s.hw.slice x).calWaits) ∧
        RegsKept (R.RFS_SYNTH x :: R.RFS_CAL_STAT x :: cxStatRegs) s.hw h ∧ MemKept s.hw h) ∧
    (∀ (x : Fin 3), s.hw.synth x = synReady → Gives (.synthLockLost x) s fun h =>
        h.synth x = synAcquire ∧ h.get (R.RFS_SYNTH_LOCKED x) = 0 ∧
        h.get (R.RFS_SYNTH_LOCK_LOST_CNT x) = min (s.hw.get (R.RFS_SYNTH_LOCK_LOST_CNT x) + 1) 255 ∧
        tget h.timers (.synth x) = some (s.hw.et + 400000) ∧ (h.slice x).rx.phase = .idle ∧
        (h.slice x).ncoRx = ((s.hw.slice x).ncoRx + (s.hw.et - (s.hw.slice x).ncoAt) * adcMHz x / 1000 * s.hw.activeRx x) % 2 ^ 48 ∧
        MemKept s.hw h) ∧
    (∀ (x : Fin 3) (p : TxPpdu), s.hw.synth x = synReady → (s.hw.slice x).tx = some p → s.hw.et < p.t1 → p.response = false → Gives (.synthLockLost x) s fun h =>
        kget h.txStatus x = some .synthLost) ∧
    (∀ (x : Fin 3), s.hw.synth x = synFault → Gives (.restart x) s fun h =>
        h.synth x = synStart ∧ h.get (R.RFS_SYNTH_LOCKED x) = 0 ∧ (h.slice x).needFull = true ∧ (h.slice x).acqFailed = false ∧
        tget h.timers (.synth x) = some (s.hw.et + 60000) ∧ RegsKept [R.RFS_SYNTH x] s.hw h ∧ MemKept s.hw h) ∧
    (∀ (x : Fin 3), s.hw.synth x ≠ synFault → Gives (.restart x) s fun h =>
        Unchanged s.hw h)

/-- Temperature and calibration (R99 to R102, R109, R110); when a waiting calibration is asked for and dropped at the edges
of service are readings of the model (logs 45, 46). -/
def Obligations.TemperatureAndCalibration : Prop :=
  ∀ s : State, s.hw.mainUp = true → 
    (∀ (x : Fin 3) (v : Word), max 4 (fieldOf v (R.RFS_CAL_CTL_FORCE_THRESH x)) ≤ max 2 (fieldOf v (R.RFS_CAL_CTL_THRESH x)) → Gives (.calStart x v) s fun h =>
        h.get (R.RFS_CAL_STAT_CFG_ERR x) = 1 ∧ OnlyRegs [R.RFS_CAL_STAT x] s.hw h) ∧
    (∀ (x : Fin 3) (v : Word), max 2 (fieldOf v (R.RFS_CAL_CTL_THRESH x)) < max 4 (fieldOf v (R.RFS_CAL_CTL_FORCE_THRESH x)) → Gives (.calStart x v) s fun h =>
        h.get (R.RFS_CAL_CTL_THRESH x) = max 2 (fieldOf v (R.RFS_CAL_CTL_THRESH x)) ∧
        h.get (R.RFS_CAL_CTL_FORCE_THRESH x) = max 4 (fieldOf v (R.RFS_CAL_CTL_FORCE_THRESH x)) ∧
        h.get (R.RFS_CAL_CTL_TEMP_REQ_EN x) = fieldOf v (R.RFS_CAL_CTL_TEMP_REQ_EN x) ∧
        h.get (R.RFS_CAL_CTL_FORCE_EN x) = fieldOf v (R.RFS_CAL_CTL_FORCE_EN x) ∧
        (fieldOf v (R.RFS_CAL_CTL_START x) = 1 → (s.hw.slice x).cal = none → (s.hw.slice x).calWaits = none →
          (h.slice x).calWaits = some (decide (fieldOf v (R.RFS_CAL_CTL_KIND x) = 1), false) ∧ h.get (R.RFS_CAL_STAT_STATE x) = 1) ∧
        RegsKept [R.RFS_CAL_CTL x, R.RFS_CAL_STAT x] s.hw h ∧ MemKept s.hw h) ∧
    (∀ (x : Fin 3) (t : Int) (d : Nat), tget s.hw.timers (.temp x) = some d → Gives (.tempSample x t) s fun h =>
        h.getI (R.RFS_TEMP_T x) = clampInt (-512) 511 (t / 64) ∧ tget h.timers (.temp x) = some (h.et + 1024000) ∧
        (s.hw.get (R.RFS_CAL_STAT_VALID x) = 1 → (s.hw.slice x).needFull = false → s.hw.get (R.RFS_CAL_CTL_TEMP_REQ_EN x) = 1 →
          4 * s.hw.get (R.RFS_CAL_CTL_THRESH x) ≤ (clampInt (-512) 511 (t / 64) - s.hw.getI (R.RFS_CAL_STAT_T_CAL x)).natAbs →
          h.get (R.RFS_CAL_STAT_REQ_TEMP x) = 1) ∧
        RegsKept [R.RFS_TEMP x, R.RFS_CAL_STAT x] s.hw h ∧ MemKept s.hw h) ∧
    (∀ (x : Fin 3) (full forced : Bool), s.hw.synth x = synReady → s.hw.transmitting x = false → (s.hw.slice x).calWaits = some (full, forced) → Gives (.calibrationBegin x) s fun h =>
        h.synth x = (if full then synStart else synCal) ∧ (h.slice x).cal = some ⟨full, forced, s.hw.getI (R.RFS_TEMP_T x), full⟩ ∧
        (h.slice x).calWaits = none ∧ h.get (R.RFS_CAL_STAT_STATE x) = 2 ∧ (s.hw.receiving x = true → (h.slice x).rx.phase = .idle) ∧
        h.get (R.RFS_EVT_CNT1_RX_ABORT_CAL x) = (if s.hw.receiving x then min (s.hw.get (R.RFS_EVT_CNT1_RX_ABORT_CAL x) + 1) 65535
          else s.hw.get (R.RFS_EVT_CNT1_RX_ABORT_CAL x)) ∧
        h.get (R.RFS_EVT_CNT1_FORCED_CAL x) = (if forced then min (s.hw.get (R.RFS_EVT_CNT1_FORCED_CAL x) + 1) 65535
          else s.hw.get (R.RFS_EVT_CNT1_FORCED_CAL x)) ∧ MemKept s.hw h) ∧
    (∀ (x : Fin 3) (fails : BitVec 8) (k : Calibration), (s.hw.slice x).cal = some k → k.starting = false → -512 ≤ k.temp → k.temp ≤ 511 → Gives (.calibrationComplete x fails) s fun h =>
        h.get (R.RFS_CAL_STAT_DONE_EV x) = 1 ∧ h.getI (R.RFS_CAL_STAT_T_CAL x) = k.temp ∧
        (∀ c < 8, (h.get (R.RFS_CAL_STAT_CHAIN_OK x)).testBit c = (chainExists x c && !fails.getLsbD c)) ∧
        ((∃ c < 8, chainExists x c = true ∧ fails.getLsbD c = true) → h.get (R.RFS_CAL_STAT_FAIL_EV x) = 1) ∧
        ((∀ c < 8, chainExists x c = true → fails.getLsbD c = true) →
          h.get (R.RFS_CAL_STAT_VALID x) = 0 ∧ h.synth x = synFault ∧ h.get (R.RFS_SYNTH_FAULT_EV x) = 1 ∧ (h.slice x).cal = none) ∧
        ((∃ c < 8, chainExists x c = true ∧ fails.getLsbD c = false) →
          h.get (R.RFS_CAL_STAT_VALID x) = 1 ∧ ((∀ g : Bool, (s.hw.slice x).calWaits ≠ some (true, g)) → h.synth x = synReady ∧ (h.slice x).cal = none)) ∧
        (k.forced = true → h.get (R.RFS_CAL_STAT_REQ_TEMP x) = 0) ∧ MemKept s.hw h)

/-- The transmit setting (R97, R113, R114, R127, R133, R135, R146, R158): what each of its four instants does. The tuner (R126 to R128), the mask monitor (R131 to R133) and the canceller (R142, R146). -/
def Obligations.TransmitInstantsTunerMaskAndCanceller : Prop :=
  ∀ s : State, s.hw.mainUp = true → 
    (∀ (x : Fin 3) (p : TxPpdu) (d : Nat), tget s.hw.timers (.trLead x) = some d → (s.hw.slice x).tx = some p → ((s.hw.advanceTo d).stop (.trLead x)).txReady x p.t0 = true → ((s.hw.advanceTo d).stop (.trLead x)).cxPermits x = true → ((s.hw.advanceTo d).stop (.trLead x)).inQuiet x = false → Gives (.trLead x) s fun h =>
        (h.slice x).femEn = true ∧ (h.slice x).trsw = (s.hw.slice x).trsw ||| p.chains ∧
        (h.slice x).lnaen = (s.hw.slice x).lnaen &&& (255 - p.chains) ∧ (h.slice x).paen = (s.hw.slice x).paen ∧
        (h.slice x).rx.phase = .idle ∧ (h.slice x).tx = some p ∧
        (s.hw.exchange x = none →
          RegsKept ((List.range 8).flatMap fun c => [R.RFS_GAIN x c, R.RFS_DIV x c, R.RFS_FIFO_STAT x c]) s.hw h ∧ MemKept s.hw h)) ∧
    (∀ (x : Fin 3) (p : TxPpdu) (d : Nat), tget s.hw.timers (.trLead x) = some d → (s.hw.slice x).tx = some p → p.response = false → (((s.hw.advanceTo d).stop (.trLead x)).txReady x p.t0 && ((s.hw.advanceTo d).stop (.trLead x)).cxPermits x && !((s.hw.advanceTo d).stop (.trLead x)).inQuiet x) = false → Gives (.trLead x) s fun h =>
        (h.slice x).tx = none ∧ (h.slice x).held = some ⟨p, p.deadline⟩ ∧ tget h.timers (.hold x) = some p.deadline ∧
        RegsKept [] s.hw h ∧ MemKept s.hw h) ∧
    (∀ (x : Fin 3) (p : TxPpdu) (d : Nat), tget s.hw.timers (.trLead x) = some d → (s.hw.slice x).tx = some p → p.response = true → (((s.hw.advanceTo d).stop (.trLead x)).txReady x p.t0 && ((s.hw.advanceTo d).stop (.trLead x)).cxPermits x && !((s.hw.advanceTo d).stop (.trLead x)).inQuiet x) = false → Gives (.trLead x) s fun h =>
        (h.slice x).tx = none ∧ (h.slice x).held = (s.hw.slice x).held ∧ RegsKept [] s.hw h ∧ MemKept s.hw h) ∧
    (∀ (x : Fin 3) (p : TxPpdu) (d : Nat), tget s.hw.timers (.paLead x) = some d → (s.hw.slice x).tx = some p → Gives (.paLead x) s fun h =>
        (h.slice x).paen = (s.hw.slice x).paen ||| p.chains ∧
        (p.t0 + 8000 ≤ p.t1 → tget h.timers (.mismatch x) = some (p.t0 + 8000)) ∧
        (∀ n < 3, s.hw.cxCovers n 2 x = true → (h.slice x).paen ≠ 0 → (h.cx n).txact = true ∧ h.cxLevel n 3 = true) ∧
        RegsKept cxStatRegs s.hw h ∧ MemKept s.hw h) ∧
    (∀ (x : Fin 3) (d : Nat), tget s.hw.timers (.paLag x) = some d → Gives (.paLag x) s fun h =>
        (h.slice x).paen = 0 ∧ RegsKept cxStatRegs s.hw h ∧ MemKept s.hw h) ∧
    (∀ (x : Fin 3) (tx : List (List Cx)) (leak : Leakage) (p : TxPpdu) (d : Nat), tget s.hw.timers (.trLag x) = some d → (s.hw.slice x).tx = some p → Gives (.trLag x tx leak) s fun h =>
        (h.slice x).tx = none ∧ (h.slice x).paen = 0 ∧ (h.slice x).idleFrom = h.et ∧
        (∀ c < 8, chainExists x c = true → h.occupancy (fifoConvTx x c) = 0) ∧
        h.get (R.RFS_MASK_CNT_FIR_SAT_CNT x) = (if s.hw.firSaturates x p tx then min (s.hw.get (R.RFS_MASK_CNT_FIR_SAT_CNT x) + 1) 65535
          else s.hw.get (R.RFS_MASK_CNT_FIR_SAT_CNT x)) ∧
        kget h.txStatus x = (match kget s.hw.txStatus x with
          | some st => some st
          | none => if p.response then none else some .sent) ∧ MemKept s.hw h) ∧
    (∀ (x : Fin 3) (tx : List (List Cx)) (leak : Leakage) (p : TxPpdu) (c : Fin 8) (v pv py d : Nat), tget s.hw.timers (.trLag x) = some d → (s.hw.slice x).tx = some p → x ≠ 0 → v = 3 - x.val → chainExists v c = true → leak.powers[c.val]? = some (pv, py) → 0 < py → p.t0 + 16000 ≤ p.t1 → s.hw.receiving v = false → s.hw.transmitting v = false → (s.hw.slice v).idleFrom ≤ p.t0 → Gives (.trLag x tx leak) s fun h =>
        h.get (R.RFS_CANC_STAT_SUPP v c) = (clampInt 0 255 (dbQuarter pv py)).toNat ∧
        h.get (R.RFS_CANC_STAT_CONV v c) = if 100 ≤ (clampInt 0 255 (dbQuarter pv py)).toNat then 1 else 0) ∧
    (∀ (x : Fin 3) (c : Fin 8), chainExists x c = true → (s.hw.chain x c).tunePending = true → s.hw.inSetting x = false → Gives (.tuneApply x c) s fun h =>
        (h.chain x c).tunePending = false ∧ (h.chain x c).tuneInForce = s.hw.word (R.RFS_TUNE x c) ∧
        (h.slice x).matchSettles = s.hw.et + 200 ∧ RegsKept [] s.hw h ∧ MemKept s.hw h) ∧
    (∀ (x : Fin 3) (c : Fin 8) (m : List Reflection) (r : Reflection) (p : TxPpdu) (mag d : Nat), tget s.hw.timers (.mismatch x) = some d → (s.hw.slice x).tx = some p → chainExists x c = true → p.chains.testBit c = true → m[c.val]? = some r → mag = min 255 (rneDiv r.mag 256).toNat → Gives (.mismWindowEnd x m) s fun h =>
        h.get (R.RFS_MISM_MAG x c) = mag ∧ h.get (R.RFS_MISM_PHASE x c) = (rneDiv r.angle 256).toNat % 256 ∧
        h.get (R.RFS_MISM_VALID x c) = 1 ∧ h.get (R.RFS_MISM_SEQ x c) = (s.hw.get (R.RFS_MISM_SEQ x c) + 1) % 256 ∧
        (s.hw.get (R.RFS_VSWR_EN x c) = 1 → s.hw.get (R.RFS_VSWR_THRESH x c) ≤ mag →
          h.get (R.RFS_VSWR_ALARM x c) = 1 ∧
          h.get (R.RFS_VSWR_ALARM_CNT x c) = min (s.hw.get (R.RFS_VSWR_ALARM_CNT x c) + 1) 65535 ∧
          (s.hw.get (R.RFS_VSWR_BACKOFF_ACT x c) = 0 → s.hw.get (R.RFS_VSWR_ACTION x c) = 1 → h.get (R.RFS_VSWR_BACKOFF_ACT x c) = 1) ∧
          (s.hw.get (R.RFS_VSWR_BACKOFF_ACT x c) = 0 → s.hw.get (R.RFS_VSWR_ACTION x c) = 2 → h.get (R.RFS_VSWR_TX_OFF x c) = 1)) ∧ MemKept s.hw h) ∧
    (∀ (x : Fin 3) (c : Fin 8), chainExists x c = true → Gives (.vswrAlarmClear x c) s fun h =>
        h.get (R.RFS_VSWR_ALARM x c) = 0 ∧
        (s.hw.inSetting x = false → h.get (R.RFS_VSWR_BACKOFF_ACT x c) = 0 ∧ h.get (R.RFS_VSWR_TX_OFF x c) = 0) ∧
        (s.hw.inSetting x = true → (h.chain x c).clearWaits = true ∧
          h.get (R.RFS_VSWR_BACKOFF_ACT x c) = s.hw.get (R.RFS_VSWR_BACKOFF_ACT x c) ∧
          h.get (R.RFS_VSWR_TX_OFF x c) = s.hw.get (R.RFS_VSWR_TX_OFF x c)) ∧
        RegsKept [R.RFS_VSWR x c] s.hw h ∧ MemKept s.hw h) ∧
    (∀ (x : Fin 3) (bins : List Int) (p : TxPpdu) (mode : Nat), (s.hw.slice x).tx = some p → p.t0 + 16000 ≤ p.t1 → mode = s.hw.get (R.RFS_FE_CTL_MON_MODE x) → mode = 1 ∨ mode = 2 → s.hw.maskTable x p.width ≠ [] → maskRises (s.hw.maskTable x p.width) = true → Gives (.maskCheck x bins) s fun h =>
        h.get (R.RFS_MASK_STAT_LAST_PASS x) = (if 0 ≤ h.getI (R.RFS_MASK_STAT_WORST x) then 1 else 0) ∧
        (h.getI (R.RFS_MASK_STAT_WORST x) < 0 → h.get (R.RFS_MASK_STAT_FAIL_EV x) = 1 ∧
          h.get (R.RFS_MASK_CNT_FAIL_CNT x) = min (s.hw.get (R.RFS_MASK_CNT_FAIL_CNT x) + 1) 65535) ∧
        h.get (R.RFS_MASK_STAT_LAST_CHAIN x) = (if mode = 2 then s.hw.get (R.RFS_FE_CTL_MON_CHAIN x)
          else (s.hw.slice x).maskNext % 8) ∧
        RegsKept [R.RFS_MASK_STAT x, R.RFS_MASK_CNT x] s.hw h ∧ MemKept s.hw h) ∧
    (∀ (x : Fin 3) (bins : List Int) (p : TxPpdu) (mode : Nat), (s.hw.slice x).tx = some p → p.t0 + 16000 ≤ p.t1 → mode = s.hw.get (R.RFS_FE_CTL_MON_MODE x) → mode = 1 ∨ mode = 2 → maskRises (s.hw.maskTable x p.width) = false → Gives (.maskCheck x bins) s fun h =>
        h.get (R.RFS_MASK_STAT_TBL_ERR x) = 1 ∧ RegsKept [R.RFS_MASK_STAT x] s.hw h ∧ MemKept s.hw h) ∧
    (∀ (x : Fin 3) (c : Fin 8), chainExists x c = true → x ≠ 0 → Gives (.cancReset x c) s fun h =>
        (∀ k < 64, h.word (R.RFS_CANC_COEF x c k) = 0 ∧ h.coef x c k = ⟨0, 0⟩) ∧
        RegsKept ((List.range 64).map (R.RFS_CANC_COEF x c)) s.hw h ∧ MemKept s.hw h) ∧
    (∀ (c : Fin 8), c.val < 4 → Gives (.cancReset 0 c) s fun h =>
        Unchanged s.hw h)

/-- Aerial diversity and gain (R117 to R123, R145). -/
def Obligations.AerialDiversityAndGain : Prop :=
  ∀ s : State, s.hw.mainUp = true → 
    (∀ (x : Fin 3) (c : Fin 8) (d : Nat), tget s.hw.timers (.divSwitch x) = some d → chainExists x c = true → Gives (.divSwitchInb x) s fun h =>
        ((s.hw.chain x c).diversity = true → (h.chain x c).aerial = 1 ∧ (h.chain x c).kA = s.hw.get (R.RFS_GAIN_G_CUR x c)) ∧
        ((s.hw.chain x c).diversity = false → h.chain x c = s.hw.chain x c) ∧ RegsKept [] s.hw h ∧ MemKept s.hw h) ∧
    (∀ (x : Fin 3) (c : Fin 8) (m : List (WindowPower × WindowPower)) (a b : WindowPower) (cur kA kB : Nat) (pA pB : Int) (d : Nat), tget s.hw.timers (.divDecision x) = some d → chainExists x c = true → m[c.val]? = some (a, b) → (s.hw.chain x c).diversity = true → cur = s.hw.get (R.RFS_DIV_CUR x c) → kA = (s.hw.chain x c).kA → kB = s.hw.get (R.RFS_GAIN_G_CUR x c) → pA = clampInt (-2048) 2047 ((a.p - 256 * (4 + (2 * (kA : Int) - 10))) / 64) → pB = clampInt (-2048) 2047 ((b.p - 256 * (4 + (2 * (kB : Int) - 10))) / 64) → Gives (.divDecision x m) s fun h =>
        h.get (R.RFS_DIV_CUR x c) = (if cur = 0 then (if pA + s.hw.get (R.RFS_DIV_HYST x c) < pB then 1 else 0)
          else (if pB + s.hw.get (R.RFS_DIV_HYST x c) < pA then 0 else 1)) ∧
        (h.chain x c).aerial = h.get (R.RFS_DIV_CUR x c) ∧
        h.get (R.RFS_GAIN_G_CUR x c) = (if h.get (R.RFS_DIV_CUR x c) = 0 then s.hw.gainFor x c kA a.wide else s.hw.gainFor x c kB b.wide) ∧
        h.get (R.RFS_DIV_CNT_RUNS x c) = min (s.hw.get (R.RFS_DIV_CNT_RUNS x c) + 1) 65535 ∧
        h.get (R.RFS_DIV_CNT_SWITCHES x c) = (if h.get (R.RFS_DIV_CUR x c) = cur then s.hw.get (R.RFS_DIV_CNT_SWITCHES x c)
          else min (s.hw.get (R.RFS_DIV_CNT_SWITCHES x c) + 1) 65535) ∧ MemKept s.hw h) ∧
    (∀ (x : Fin 3) (c : Fin 8) (m : List WindowPower) (a : WindowPower) (d : Nat), tget s.hw.timers (.fixedWindow x) = some d → chainExists x c = true → m[c.val]? = some a → (s.hw.chain x c).diversity = false → Gives (.fixedWindowEnd x m) s fun h =>
        h.get (R.RFS_GAIN_G_CUR x c) = (clampInt 0 (min 23 (s.hw.get (R.RFS_GAIN_G_CAP x c)))
          ((256 * (2 * (s.hw.get (R.RFS_GAIN_G_CUR x c) : Int) - 10) - 128 * (s.hw.get (R.RFS_GAIN_TARGET x c) : Int) - a.wide
            + 2560) / 512)).toNat ∧
        RegsKept ((List.range (if x = 2 then 8 else 4)).map (R.RFS_GAIN x)) s.hw h ∧ MemKept s.hw h) ∧
    (∀ (x : Fin 3) (d : Nat), tget s.hw.timers (.qualifier x) = some d → Gives (.qualifierStart x) s fun h =>
        (∀ c < 8, chainExists x c = true → (s.hw.chain x c).diversity = false ∨ (s.hw.slice x).rx.d + 3600 ≤ h.et → (h.chain x c).frozen = true) ∧
        ((s.hw.slice x).rx.phase = .timeline → (h.slice x).rx.phase = .qualifying ∧ (h.slice x).rx.evaluations = 0 ∧
          tget h.timers (.qualEval x) = some (h.et + 1600)) ∧
        ((s.hw.slice x).rx.phase ≠ .timeline → (h.slice x).rx = (s.hw.slice x).rx) ∧
        (h.et < (s.hw.slice x).rx.d + 3600 → s.hw.anyDiversity x = true → tget h.timers (.qualifier x) = some ((s.hw.slice x).rx.d + 3600)) ∧
        RegsKept [] s.hw h ∧ MemKept s.hw h) ∧
    (∀ (x : Fin 3) (c : Fin 8), chainExists x c = true → Gives (.adcClipGainDrop x c) s fun h =>
        h.get (R.RFS_GAIN_G_CUR x c) = (if (s.hw.slice x).rx.phase ≠ .idle ∧ (s.hw.chain x c).frozen = false ∧
            inWindow (s.hw.chain x c).diversity (s.hw.et - (s.hw.slice x).rx.d) = true
          then s.hw.get (R.RFS_GAIN_G_CUR x c) - 9 else s.hw.get (R.RFS_GAIN_G_CUR x c)) ∧
        h.get (R.RFS_CANC_STAT_CLIP_CNT x c) = (if x ≠ 0 ∧ s.hw.onAir (3 - x.val) = true
          then min (s.hw.get (R.RFS_CANC_STAT_CLIP_CNT x c) + 1) 65535 else s.hw.get (R.RFS_CANC_STAT_CLIP_CNT x c)) ∧
        OnlyRegs [R.RFS_GAIN x c, R.RFS_CANC_STAT x c] s.hw h)

/-- The reception (R149 to R154, R159, R161, R162, R167, R171). The metric, the decoder, the header checks and the estimate
are the functions the model writes from R151, R153, R159 and R166; how the chains combine is its choice (log 47), what it takes from
IEEE 802.11 stands in log 48, and free values in log 4. -/
def Obligations.ReceptionFromEnergyToSignalFields : Prop :=
  ∀ s : State, s.hw.mainUp = true → 
    (∀ (x : Fin 3) (rs : List (List Cx)), s.hw.detecting x = true → 4 * s.hw.getI (R.PHY_DET_CTL_ED_THRESH x) ≤ s.hw.slicePower x rs → Gives (.energyCrossing x rs) s fun h =>
        (h.slice x).rx.phase = .timeline ∧ (h.slice x).rx.d = s.hw.et ∧ (h.slice x).energy = true ∧
        (h.slice x).rx.qualThresh = s.hw.get (R.PHY_DET_CTL_QUAL_THRESH x) ∧
        ((∃ c < 8, chainExists x c = true ∧ s.hw.get (R.RFS_DIV_MODE x c) ≠ 2) →
          tget h.timers (.fixedWindow x) = some (s.hw.et + 1600) ∧ tget h.timers (.qualifier x) = some (s.hw.et + 1800)) ∧
        ((∃ c < 8, chainExists x c = true ∧ s.hw.get (R.RFS_DIV_MODE x c) = 2) →
          tget h.timers (.divSwitch x) = some (s.hw.et + 1700) ∧ tget h.timers (.divDecision x) = some (s.hw.et + 3400)) ∧
        ((∀ c < 8, chainExists x c = true → s.hw.get (R.RFS_DIV_MODE x c) = 2) → tget h.timers (.qualifier x) = some (s.hw.et + 3600)) ∧
        RegsKept [] s.hw h ∧ MemKept s.hw h) ∧
    (∀ (x : Fin 3) (rs : List (List Cx)), s.hw.detecting x = true → s.hw.slicePower x rs < 4 * s.hw.getI (R.PHY_DET_CTL_ED_THRESH x) → Gives (.energyCrossing x rs) s fun h =>
        (h.slice x).rx = (s.hw.slice x).rx ∧ (h.slice x).energy = false ∧
        (h.slice x).idleFrom = (if (s.hw.slice x).energy = true ∧ s.hw.partnerOnAir x = false then s.hw.et else (s.hw.slice x).idleFrom) ∧
        RegsKept [] s.hw h ∧ MemKept s.hw h) ∧
    (∀ (x : Fin 3) (d : Nat), tget s.hw.timers (.tbStart x) = some d → s.hw.detecting x = true → Gives (.tbExpectedStart x) s fun h =>
        (h.slice x).rx.phase = .timeline ∧ (h.slice x).rx.d = h.et ∧ RegsKept [] s.hw h ∧ MemKept s.hw h) ∧
    (∀ (x : Fin 3) (rs : List (List Cx)) (chips : List Cx) (a b d : Nat), tget s.hw.timers (.qualEval x) = some d → (s.hw.slice x).rx.phase = .qualifying → lagMetric rs = some a → b = (if x = 0 then barkerMetric chips else 0) → Gives (.qualEvaluation x rs chips) s fun h =>
        ((s.hw.slice x).rx.qualThresh ≤ a → (h.slice x).rx.phase = .searching ∧ tget h.timers (.lltf x) = some (h.et + 8000)) ∧
        (a < (s.hw.slice x).rx.qualThresh → (s.hw.slice x).rx.qualThresh ≤ b → (h.slice x).rx.phase = .beforeLsig ∧ (h.slice x).rx.dsss = true) ∧
        (a < (s.hw.slice x).rx.qualThresh → b < (s.hw.slice x).rx.qualThresh → (s.hw.slice x).rx.evaluations < 4 →
          (h.slice x).rx.phase = .qualifying ∧ (h.slice x).rx.evaluations = (s.hw.slice x).rx.evaluations + 1 ∧
          tget h.timers (.qualEval x) = some (h.et + 400)) ∧
        (a < (s.hw.slice x).rx.qualThresh → b < (s.hw.slice x).rx.qualThresh → 4 ≤ (s.hw.slice x).rx.evaluations →
          (h.slice x).rx.phase = .idle ∧ h.get (R.PHY_CNT_0_QUAL_FAIL x) = min (s.hw.get (R.PHY_CNT_0_QUAL_FAIL x) + 1) 65535) ∧ MemKept s.hw h) ∧
    (∀ (x : Fin 3) (rs : List (List Cx)) (chips : List Cx) (d : Nat), tget s.hw.timers (.qualEval x) = some d → (s.hw.slice x).rx.phase = .qualifying → x ≠ 0 → lagMetric rs = none → Gives (.qualEvaluation x rs chips) s fun h =>
        h.free = s.hw.free + 1 ∧ ((h.slice x).rx.phase = .searching ∨ (h.slice x).rx.phase = .qualifying ∨
          (h.slice x).rx.phase = .idle) ∧ MemKept s.hw h) ∧
    (∀ (x : Fin 3) (coarse fine : Int) (d : Nat), tget s.hw.timers (.lltf x) = some d → (s.hw.slice x).rx.phase = .searching → Gives (.lltfTimingSearch x none coarse fine) s fun h =>
        (h.slice x).rx.phase = .idle ∧ h.get (R.PHY_CNT_0_FALSE_LOCK x) = min (s.hw.get (R.PHY_CNT_0_FALSE_LOCK x) + 1) 65535 ∧ MemKept s.hw h) ∧
    (∀ (x : Fin 3) (age : Nat) (coarse fine e : Int) (stop : Nat), tget s.hw.timers (.lltf x) = some stop → (s.hw.slice x).rx.phase = .searching → age + (stop - 8000) * 2 ^ 16 ≤ s.hw.et * 2 ^ 16 → s.hw.et * 2 ^ 16 ≤ age + stop * 2 ^ 16 → e = freqEstimate (offsetOf coarse fine) (s.hw.centre x).toNat → Gives (.lltfTimingSearch x (some age) coarse fine) s fun h =>
        (e.natAbs = 32767 → (h.slice x).rx.phase = .idle ∧ h.get (R.PHY_CNT_4_OUT_TOL x) = min (s.hw.get (R.PHY_CNT_4_OUT_TOL x) + 1) 65535) ∧
        (e.natAbs ≠ 32767 → (h.slice x).rx.phase = .beforeLsig ∧ (h.slice x).rx.eps = e ∧
          (h.slice x).rx.lstf = s.hw.et - (age + (8000 + (match x.val with | 0 => 160 | 1 => 140 | _ => 90)) * 2 ^ 16) / 2 ^ 16 ∧
          RegsKept [] s.hw h) ∧ MemKept s.hw h) ∧
    (∀ (x : Fin 3) (f : LsigFormat) (llr : List Int) (rep : Option (List Int)) (pAdc : List Int), (s.hw.slice x).rx.phase = .beforeLsig → (s.hw.slice x).rx.dsss = false → lsigPasses f (viterbi (llr.map llrOf)) (rep.map fun r => viterbi (r.map llrOf)) = false → Gives (.lsigDecision x (.ofdm f llr rep) pAdc) s fun h =>
        (h.slice x).rx.phase = .idle ∧ h.get (R.PHY_CNT_0_FALSE_LOCK x) = min (s.hw.get (R.PHY_CNT_0_FALSE_LOCK x) + 1) 65535 ∧ MemKept s.hw h) ∧
    (∀ (x : Fin 3) (f : LsigFormat) (llr : List Int) (rep : Option (List Int)) (pAdc l : List Int) (dur : Nat), (s.hw.slice x).rx.phase = .beforeLsig → (s.hw.slice x).rx.dsss = false → lsigPasses f (viterbi (llr.map llrOf)) (rep.map fun r => viterbi (r.map llrOf)) = true → dur = declaredNs f (lsigOf (viterbi (llr.map llrOf))) → (s.hw.slice x).rx.eps.natAbs < 32768 → l = s.hw.okLevels x (fun c => ((s.hw.slice x).rx.rssiCal[c]?).getD 0) pAdc → l ≠ [] → Gives (.lsigDecision x (.ofdm f llr rep) pAdc) s fun h =>
        (h.slice x).rx.phase = .afterLsig ∧ h.getI (R.PHY_LAST_RSSI_RSSI x) = meanLevel (linearSum l) l.length ∧
        h.getI (R.PHY_LAST_CFO_CFO x) = (s.hw.slice x).rx.eps ∧
        h.get (R.PHY_LAST_CFO_TRACKED x) = (if (s.hw.slice x).rx.trackThresh < (s.hw.slice x).rx.eps.natAbs ∨
            outOfTolerance (s.hw.slice x).rx.eps = true ∨ 2000000 < dur ∨ (s.hw.slice x).rx.trackAlways = true then 1 else 0) ∧
        h.get (R.PHY_LAST_CFO_OUT_TOL x) = (if outOfTolerance (s.hw.slice x).rx.eps then 1 else 0) ∧ (h.weltLink x).protect = false ∧
        tget h.timers (.reception x) = some (max s.hw.et ((s.hw.slice x).rx.lstf + dur)) ∧ MemKept s.hw h) ∧
    (∀ (x : Fin 3) (hdr : BitVec 48) (pAdc : List Int), (s.hw.slice x).rx.phase = .beforeLsig → (s.hw.slice x).rx.dsss = true → plcpPasses hdr = true → Gives (.lsigDecision x (.dsss hdr) pAdc) s fun h =>
        (h.slice x).rx.phase = .afterLsig ∧ (h.slice x).rx.tracked = false ∧ (h.weltLink x).protect = false ∧
        tget h.timers (.reception x) = some (s.hw.et + 1000 * (hdr.toNat / 2 ^ 16 % 2 ^ 16)) ∧ MemKept s.hw h) ∧
    (∀ (x : Fin 3) (f : SignalField), (s.hw.slice x).rx.phase = .afterLsig → Gives (.signalFieldCheck x f) s fun h =>
        (f.valid = false ∨ formatSupported x true f.shape = false → h.get (R.PHY_CNT_3_SIG_FAIL x) = min (s.hw.get (R.PHY_CNT_3_SIG_FAIL x) + 1) 65535) ∧
        (f.valid = true → formatSupported x true f.shape = true → s.hw.receiveChains x < f.streams ∨ 4 < f.users → h.get (R.PHY_CNT_3_STREAM_REJ x) = min (s.hw.get (R.PHY_CNT_3_STREAM_REJ x) + 1) 65535) ∧
        (f.valid = false ∨ formatSupported x true f.shape = false ∨ s.hw.receiveChains x < f.streams ∨ 4 < f.users →
          (h.slice x).rx.phase = .idle ∧ (h.slice x).busyUntil = (tget s.hw.timers (.reception x)).getD s.hw.et) ∧
        (f.valid = true → formatSupported x true f.shape = true → f.streams ≤ s.hw.receiveChains x → f.users ≤ 4 →
          (h.slice x).rx = { (s.hw.slice x).rx with detector := some (detectorOf f), midamble := f.shape.midamble, blank :=
            ((s.hw.slice x).rx.lstf + f.stf.1, (s.hw.slice x).rx.lstf + f.stf.1 + f.stf.2) } ∧ RegsKept [] s.hw h) ∧ MemKept s.hw h) ∧
    (∀ (x : Fin 3) (d : Nat), tget s.hw.timers (.reception x) = some d → Gives (.receptionEnd x) s fun h =>
        (h.slice x).rx.phase = .idle ∧ (h.slice x).energy = false ∧ tget h.timers (.reception x) = none ∧
        RegsKept ((List.range 8).flatMap fun c => [R.RFS_GAIN x c, R.RFS_DIV x c]) s.hw h ∧ MemKept s.hw h)

/-- Restart (R155 to R157), the LDPC decoders (R163 to R165) and the noise floor (R167, R169, R170). From when the detector acts,
and from which gain codes a restart runs, are readings of the model (log 45); how the chains combine is its choice (log 47), the layers
come with the codeword (log 49). -/
def Obligations.RestartDecodingAndNoiseFloor : Prop :=
  ∀ s : State, s.hw.mainUp = true → 
    (∀ (x : Fin 3) (rs : List (List Cx)) (chips : List Cx) (full late : Bool) (a b : Nat) (margin step : Int), s.hw.blanked x = false → late = ((s.hw.slice x).rx.phase == .afterLsig) → (s.hw.slice x).rx.phase ≠ .idle → (s.hw.slice x).rx.phase ≠ .timeline → (s.hw.slice x).rx.candidate = false → lagMetric rs = some a → b = (if x = 0 then barkerMetric chips else 0) → (s.hw.slice x).rx.qualThresh ≤ max a b → margin = 4 * (if late then (s.hw.slice x).rx.captureMargin else (s.hw.slice x).rx.restartMargin) → step = (if full then max (s.hw.slicePower x rs - (s.hw.slice x).rx.pRef) margin else s.hw.slicePower x rs - (s.hw.slice x).rx.pRef) → 12 ≤ step → Gives (.restartCandidate x rs chips full) s fun h =>
        (margin ≤ step → (h.slice x).rx.phase = .timeline ∧ (h.slice x).rx.d = s.hw.et ∧
          (late = false → h.get (R.PHY_CNT_1_RESTARTS x) = min (s.hw.get (R.PHY_CNT_1_RESTARTS x) + 1) 65535) ∧
          (late = true → h.get (R.PHY_CNT_2_CAPTURES x) = min (s.hw.get (R.PHY_CNT_2_CAPTURES x) + 1) 65535)) ∧
        (step < margin → (h.slice x).rx.candidate = true ∧ (h.slice x).rx.phase = (s.hw.slice x).rx.phase ∧
          (late = false → h.get (R.PHY_CNT_1_RESTART_REJ x) = min (s.hw.get (R.PHY_CNT_1_RESTART_REJ x) + 1) 65535) ∧
          (late = true → h.get (R.PHY_CNT_2_CAPTURE_REJ x) = min (s.hw.get (R.PHY_CNT_2_CAPTURE_REJ x) + 1) 65535)) ∧ MemKept s.hw h) ∧
    (∀ (x : Fin 3) (rs : List (List Cx)) (chips : List Cx), s.hw.blanked x = false → (s.hw.slice x).rx.phase ≠ .idle → (s.hw.slice x).rx.phase ≠ .timeline → s.hw.slicePower x rs - (s.hw.slice x).rx.pRef < 12 → Gives (.restartCandidate x rs chips false) s fun h =>
        (h.slice x).rx = { (s.hw.slice x).rx with candidate := false } ∧ RegsKept [] s.hw h ∧ MemKept s.hw h) ∧
    (∀ (x : Fin 3) (rs : List (List Cx)) (chips : List Cx) (full : Bool), s.hw.blanked x = true → Gives (.restartCandidate x rs chips full) s fun h =>
        Unchanged s.hw h) ∧
    (∀ (x : Fin 3) (w : LdpcWord), 512 ≤ s.hw.ldpc.buffer.length → Gives (.ldpcCodewordIn x w) s fun h =>
        h.get (R.PHY_CNT_6_DEC_OVF x) = min (s.hw.get (R.PHY_CNT_6_DEC_OVF x) + 1) 65535 ∧ (h.slice x).spoiled = (s.hw.slice x).spoiled ++ w.mpdus ∧ h.ldpc = s.hw.ldpc ∧
        RegsKept [R.PHY_CNT_6 x] s.hw h ∧ MemKept s.hw h) ∧
    (∀ (x : Fin 3) (w : LdpcWord) (m : Nat) (cut : Bool), s.hw.ldpc.buffer.length < 512 → m = (s.hw.slice x).maxIter → cut = decide (256 < s.hw.ldpc.buffer.length ∧ 8 < m) → ∀ k < 24, (kget s.hw.ldpc.cores k).isSome = true → Gives (.ldpcCodewordIn x w) s fun h =>
        h.ldpc = ⟨s.hw.ldpc.buffer ++ [⟨x, if cut then 8 else m, w⟩], s.hw.ldpc.cores⟩ ∧ h.get (R.PHY_CNT_5_ITER_CUT x) = (if cut then min (s.hw.get (R.PHY_CNT_5_ITER_CUT x) + 1) 65535 else s.hw.get (R.PHY_CNT_5_ITER_CUT x)) ∧
        RegsKept [R.PHY_CNT_5 x] s.hw h ∧ MemKept s.hw h) ∧
    (∀ (x : Fin 3) (w : LdpcWord) (k : Nat), s.hw.ldpc.buffer = [] → k < 24 → kget s.hw.ldpc.cores k = none → ∀ j < k, (kget s.hw.ldpc.cores j).isSome = true → Gives (.ldpcCodewordIn x w) s fun h =>
        h.ldpc.buffer = [] ∧ kget h.ldpc.cores k = some ⟨x, (s.hw.slice x).maxIter, w⟩ ∧ RegsKept [] s.hw h ∧ MemKept s.hw h) ∧
    (∀ (k : Fin 24) (w : Codeword) (bits : List Bool) (met : Bool), kget s.hw.ldpc.cores k = some w → ldpcDecode w.word.checks (w.word.llr.map llrOf) w.limit = (bits, met) → Gives (.ldpcDecodeDone k) s fun h =>
        (h.slice w.slice).decoded = (s.hw.slice w.slice).decoded ++ [bits] ∧ h.get (R.PHY_CNT_5_LDPC_FAIL w.slice) = (if met = false then min (s.hw.get (R.PHY_CNT_5_LDPC_FAIL w.slice) + 1) 65535 else s.hw.get (R.PHY_CNT_5_LDPC_FAIL w.slice)) ∧
        (s.hw.ldpc.buffer = [] → kget h.ldpc.cores k = none) ∧
        (∀ c rest, s.hw.ldpc.buffer = c :: rest → (∀ j < 24, j ≠ k.val → (kget s.hw.ldpc.cores j).isSome = true) →
          kget h.ldpc.cores k = some c ∧ h.ldpc.buffer = rest) ∧ RegsKept [R.PHY_CNT_5 w.slice] s.hw h ∧ MemKept s.hw h) ∧
    (∀ (x : Fin 3) (powers : List (List Int)) (sub p : Nat) (q l : List Int), s.hw.funcState (.slice x) = stOpen → s.hw.receiving x = false → s.hw.inSetting x = false → (s.hw.slice x).cal = none → s.hw.get (R.RFS_FE_CTL_OP_BW x) ≤ 4 → sub < 2 ^ s.hw.get (R.RFS_FE_CTL_OP_BW x) → powers[sub]? = some q → l = s.hw.okLevels x (fun c => s.hw.word (R.PHY_RSSI_CAL x c)) q → l ≠ [] → p = linearSum l / l.length → Gives (.nfBlockEnd x powers) s fun h =>
        (h.slice x).nfFrom = (s.hw.slice x).nfFrom + 16000 ∧ h.et = max s.hw.et ((s.hw.slice x).nfFrom + 16000) ∧
        (4 * s.hw.getI (R.PHY_DET_CTL_ED_THRESH x) ≤ meanLevel p 1 →
          h.get (R.PHY_NF_BLOCKS x sub) = s.hw.get (R.PHY_NF_BLOCKS x sub) ∧
          (s.hw.get (R.RFS_FE_CTL_OP_BW x) = 0 → h.get (R.PHY_CNT_6_NF_DISCARD x) = min (s.hw.get (R.PHY_CNT_6_NF_DISCARD x) + 1) 65535)) ∧
        (meanLevel p 1 < 4 * s.hw.getI (R.PHY_DET_CTL_ED_THRESH x) →
          (s.hw.get (R.PHY_NF_BLOCKS x sub) < 255 → h.get (R.PHY_NF_BLOCKS x sub) = s.hw.get (R.PHY_NF_BLOCKS x sub) + 1) ∧
          (255 ≤ s.hw.get (R.PHY_NF_BLOCKS x sub) → h.get (R.PHY_NF_BLOCKS x sub) = 0 ∧ h.get (R.PHY_NF_STAT_UPD_EV x) = 1 ∧
            h.getI (R.PHY_NF_NF x sub) = meanLevel (kgetD 0 (s.hw.slice x).nfSums sub + p) 256)) ∧ MemKept s.hw h)

/-- Transmit commands (R97, R98, R114, R126, R138, R139, R214). -/
def Obligations.TransmitCommandsAndHolds : Prop :=
  ∀ s : State, s.hw.mainUp = true → 
    (∀ (x : Fin 3) (lead len : Nat) (shape : PpduShape) (chains : BitVec 8) (resp fit : Nat) (latest : Option Nat), (s.hw.slice x).held = none → s.hw.transmitting x = false → s.hw.inQuiet x = false → formatSupported x false shape = true → ((s.hw.weltLink x).response.filter fun r => !r.issued) = none → (s.hw.planNext x fit (lead + len + resp)).exchange x = none → (s.hw.planNext x fit (lead + len + resp)).funcState (.slice x) ≠ stOpen → Gives (.transmitCommand x lead len shape chains resp fit latest) s fun h =>
        kget h.txStatus x = some .refused ∧ h.slices = (s.hw.planNext x fit (lead + len + resp)).slices ∧ h.timers = (s.hw.planNext x fit (lead + len + resp)).timers) ∧
    (∀ (x : Fin 3) (lead len : Nat) (shape : PpduShape) (chains : BitVec 8) (resp fit : Nat) (latest : Option Nat) (p : TxPpdu), (s.hw.slice x).held = none → s.hw.transmitting x = false → s.hw.inQuiet x = false → formatSupported x false shape = true → ((s.hw.weltLink x).response.filter fun r => !r.issued) = none → (s.hw.planNext x fit (lead + len + resp)).exchange x = none → (s.hw.planNext x fit (lead + len + resp)).funcState (.slice x) = stOpen → p = (s.hw.planNext x fit (lead + len + resp)).newPpdu x ((s.hw.planNext x fit (lead + len + resp)).et + max lead (10 * (s.hw.planNext x fit (lead + len + resp)).get (R.RFS_FE_TIME_TR_LEAD x))) len (Nat.land chains.toNat ((s.hw.planNext x fit (lead + len + resp)).txChains x)) shape.width resp false false latest → p.chains ≠ 0 → (s.hw.planNext x fit (lead + len + resp)).ppduFits x p.t0 p = true → (s.hw.planNext x fit (lead + len + resp)).txReady x p.t0 = true → Gives (.transmitCommand x lead len shape chains resp fit latest) s fun h =>
        (h.slice x).tx = some p ∧ (h.slice x).held = none ∧
        tget h.timers (.trLead x) = some (p.t0 - p.trLead) ∧
        tget h.timers (.paLead x) = some (p.t0 - 10 * (s.hw.planNext x fit (lead + len + resp)).get (R.RFS_FE_TIME_PA_LEAD x)) ∧
        tget h.timers (.paLag x) = some (p.t1 + p.paLag) ∧
        tget h.timers (.trLag x) = some (p.t1 + p.trLag)) ∧
    (∀ (x : Fin 3) (lead len : Nat) (shape : PpduShape) (chains : BitVec 8) (resp fit : Nat) (latest : Option Nat) (p : TxPpdu), (s.hw.slice x).held = none → s.hw.transmitting x = false → s.hw.inQuiet x = false → formatSupported x false shape = true → ((s.hw.weltLink x).response.filter fun r => !r.issued) = none → (s.hw.planNext x fit (lead + len + resp)).exchange x = none → (s.hw.planNext x fit (lead + len + resp)).funcState (.slice x) = stOpen → p = (s.hw.planNext x fit (lead + len + resp)).newPpdu x ((s.hw.planNext x fit (lead + len + resp)).et + max lead (10 * (s.hw.planNext x fit (lead + len + resp)).get (R.RFS_FE_TIME_TR_LEAD x))) len (Nat.land chains.toNat ((s.hw.planNext x fit (lead + len + resp)).txChains x)) shape.width resp false false latest → p.chains ≠ 0 → (s.hw.planNext x fit (lead + len + resp)).ppduFits x p.t0 p = true → (s.hw.planNext x fit (lead + len + resp)).txReady x p.t0 = false → Gives (.transmitCommand x lead len shape chains resp fit latest) s fun h =>
        (h.slice x).held = some ⟨p, p.deadline⟩ ∧ tget h.timers (.hold x) = some p.deadline ∧ (h.slice x).tx = none) ∧
    (∀ (x : Fin 3) (lead len : Nat) (shape : PpduShape) (chains : BitVec 8) (resp fit : Nat) (latest : Option Nat) (e : Exchange) (p : TxPpdu), (s.hw.slice x).held = none → s.hw.transmitting x = false → s.hw.inQuiet x = false → formatSupported x false shape = true → ((s.hw.weltLink x).response.filter fun r => !r.issued) = none → (s.hw.planNext x fit (lead + len + resp)).exchange x = some e → e.issued = false → e.awaits = false → e.frames = [] → e.rts = false → e.kind ≠ .trigger → (s.hw.planNext x fit (lead + len + resp)).nstrEnd x p.t0 p.t1 false = some p.t1 → e.reserved = true ∨ (s.hw.planNext x fit (lead + len + resp)).nstrReserved x p.t1 = false → (s.hw.planNext x fit (lead + len + resp)).funcState (.slice x) = stOpen → p = (s.hw.planNext x fit (lead + len + resp)).newPpdu x (max ((s.hw.planNext x fit (lead + len + resp)).et + 10 * (s.hw.planNext x fit (lead + len + resp)).get (R.RFS_FE_TIME_TR_LEAD x)) (((s.hw.planNext x fit (lead + len + resp)).firstInstant x e).getD ((s.hw.planNext x fit (lead + len + resp)).et + lead))) len (Nat.land chains.toNat ((s.hw.planNext x fit (lead + len + resp)).txChains x)) (e.width.getD shape.width) resp e.reserved false latest → p.chains ≠ 0 → (s.hw.planNext x fit (lead + len + resp)).ppduFits x p.t0 p = true → (s.hw.planNext x fit (lead + len + resp)).txReady x p.t0 = true → Gives (.transmitCommand x lead len shape chains resp fit latest) s fun h =>
        (h.slice x).tx = some p ∧ h.exchange x = some { e with issued := true } ∧ tget h.timers (.trLead x) = some (p.t0 - p.trLead)) ∧
    (∀ (x : Fin 3) (lead len : Nat) (shape : PpduShape) (chains : BitVec 8) (resp fit : Nat) (latest : Option Nat) (r : Response) (p : TxPpdu), (s.hw.slice x).held = none → s.hw.transmitting x = false → s.hw.inQuiet x = false → formatSupported x false shape = true → (s.hw.weltLink x).response = some r → r.issued = false → s.hw.granted x = false → s.hw.get (R.RFS_FSTAT_STATE x) = stOpen → p = s.hw.newPpdu x (max r.due (s.hw.et + 10 * s.hw.get (R.RFS_FE_TIME_TR_LEAD x))) len (Nat.land chains.toNat (s.hw.txChains x)) shape.width resp false true latest → p.chains ≠ 0 → s.hw.txReady x p.t0 = true → Gives (.transmitCommand x lead len shape chains resp fit latest) s fun h =>
        (h.slice x).tx = some p ∧ (h.weltLink x).response = some { r with issued := true } ∧ tget h.timers (.trLead x) = some (p.t0 - p.trLead)) ∧
    (∀ (x : Fin 3) (c : HeldTx), (s.hw.slice x).held = some c → s.hw.heldMayGo x c = true → Gives (.heldCommandSent x) s fun h =>
        (h.slice x).held = none ∧ h.get (R.RFS_EVT_CNT0_HELD_SENT x) = min (s.hw.get (R.RFS_EVT_CNT0_HELD_SENT x) + 1) 65535 ∧
        (h.slice x).tx = some { c.ppdu with t0 := s.hw.heldStart x c.ppdu, t1 := s.hw.heldStart x c.ppdu + (c.ppdu.t1 - c.ppdu.t0) } ∧
        tget h.timers (.trLead x) = some (s.hw.heldStart x c.ppdu - c.ppdu.trLead)) ∧
    (∀ (x : Fin 3) (c : HeldTx) (d : Nat), tget s.hw.timers (.hold x) = some d → (s.hw.slice x).held = some c → ((s.hw.advanceTo d).stop (.hold x)).heldMayGo x c = false → c.ppdu.response = false → Gives (.holdDeadline x) s fun h =>
        (h.slice x).held = none ∧
        (((s.hw.advanceTo d).stop (.hold x)).txReady x (((s.hw.advanceTo d).stop (.hold x)).heldStart x c.ppdu) = false → kget h.txStatus x = some .synthNotReady ∧ h.get (R.RFS_EVT_CNT0_NOT_READY x) = min (s.hw.get (R.RFS_EVT_CNT0_NOT_READY x) + 1) 65535) ∧
        (((s.hw.advanceTo d).stop (.hold x)).txReady x (((s.hw.advanceTo d).stop (.hold x)).heldStart x c.ppdu) = true → ((s.hw.advanceTo d).stop (.hold x)).cxPermits x = false → kget h.txStatus x = some .coexDenied) ∧
        (((s.hw.advanceTo d).stop (.hold x)).txReady x (((s.hw.advanceTo d).stop (.hold x)).heldStart x c.ppdu) = true → ((s.hw.advanceTo d).stop (.hold x)).cxPermits x = true → kget h.txStatus x = some .refused) ∧
        RegsKept [R.RFS_EVT_CNT0 x, R.SYS_CX_CNT1 0, R.SYS_CX_CNT1 1, R.SYS_CX_CNT1 2] s.hw h ∧ MemKept s.hw h)

/-- The coexistence ports (R134 to R140). LIVE: bit 0 REQ, 1 GRANT, 2 PRIO, 3 TXACT. -/
def Obligations.CoexistencePorts : Prop :=
  ∀ s : State, s.hw.mainUp = true → 
    (∀ (n : Fin 3) (prio : Bool), s.hw.get (R.SYS_CX_CTL_MODE n) = 1 → (s.hw.get (R.SYS_CX_STAT_LIVE n)).testBit 0 = false → Gives (.cxReqRecognised n prio) s fun h =>
        (h.get (R.SYS_CX_STAT_LIVE n)).testBit 0 = true ∧ (h.get (R.SYS_CX_STAT_LIVE n)).testBit 2 = prio ∧
        (h.cx n).prio = prio ∧ (h.cx n).waiting = !(s.hw.cx n).needLow ∧ RegsKept [R.SYS_CX_STAT n] s.hw h ∧ MemKept s.hw h) ∧
    (∀ (n : Fin 3), s.hw.get (R.SYS_CX_CTL_MODE n) = 1 → (s.hw.cx n).waiting = true → s.hw.cxReady n = true → Gives (.cxGrant n) s fun h =>
        (h.cx n).grant = true ∧ (h.cx n).waiting = false ∧ (h.get (R.SYS_CX_STAT_LIVE n)).testBit 1 = true ∧
        h.get (R.SYS_CX_CNT0_GRANTS n) = min (s.hw.get (R.SYS_CX_CNT0_GRANTS n) + 1) 65535 ∧
        (0 < s.hw.get (R.SYS_CX_TIME_MAX_GRANT n) →
          tget h.timers (.cxGrant n) = some (s.hw.et + s.hw.get (R.SYS_CX_TIME_MAX_GRANT n) * 1000000)) ∧
        RegsKept [R.SYS_CX_STAT n, R.SYS_CX_CNT0 n, R.SYS_CX_CNT1 n, R.LAST_CNT_0 0, R.LAST_CNT_0 1, R.LAST_CNT_0 2] s.hw h ∧ MemKept s.hw h) ∧
    (∀ (n : Fin 3), s.hw.get (R.SYS_CX_CTL_MODE n) = 1 → (s.hw.get (R.SYS_CX_STAT_LIVE n)).testBit 0 = true → Gives (.cxReqFall n) s fun h =>
        (h.get (R.SYS_CX_STAT_LIVE n)).testBit 0 = false ∧ (h.get (R.SYS_CX_STAT_LIVE n)).testBit 1 = false ∧
        (h.cx n).grant = false ∧ (h.cx n).waiting = false ∧ (h.cx n).needLow = false ∧
        ((s.hw.cx n).grant = true → (h.cx n).resumeAt = s.hw.et + 100 * s.hw.get (R.SYS_CX_TIME_RESUME_GAP n)) ∧
        RegsKept [R.SYS_CX_STAT n] s.hw h ∧ MemKept s.hw h) ∧
    (∀ (n : Fin 3), (s.hw.cx n).grant = true → s.hw.cxReservedNear n (1000 * s.hw.get (R.SYS_CX_TIME_REVOKE_LEAD n)) = true ∨ (tget s.hw.timers (.cxGrant n)).isSome = true → Gives (.cxRevoke n) s fun h =>
        (h.cx n).grant = false ∧ (h.cx n).needLow = true ∧ (h.get (R.SYS_CX_STAT_LIVE n)).testBit 1 = false ∧ h.get (R.SYS_CX_STAT_REVOKE_EV n) = 1 ∧
        h.get (R.SYS_CX_CNT0_REVOKES n) = min (s.hw.get (R.SYS_CX_CNT0_REVOKES n) + 1) 65535 ∧
        tget h.timers (.cxGrant n) = none ∧ RegsKept [R.SYS_CX_STAT n, R.SYS_CX_CNT0 n] s.hw h ∧ MemKept s.hw h) ∧
    (∀ (n : Fin 3), s.hw.get (R.SYS_CX_CTL_MODE n) = 1 → (s.hw.cx n).grant = false → Gives (.cxTxactViolation n true) s fun h =>
        h.get (R.SYS_CX_STAT_VIOL_EV n) = 1 ∧ (h.get (R.SYS_CX_STAT_LIVE n)).testBit 3 = true ∧
        h.get (R.SYS_CX_CNT1_VIOL n) = min (s.hw.get (R.SYS_CX_CNT1_VIOL n) + 1) 65535 ∧ OnlyRegs [R.SYS_CX_STAT n, R.SYS_CX_CNT1 n] s.hw h) ∧
    (∀ (n : Fin 3) (high : Bool), s.hw.get (R.SYS_CX_CTL_MODE n) = 1 → (high && !(s.hw.cx n).grant) = false → Gives (.cxTxactViolation n high) s fun h =>
        (h.get (R.SYS_CX_STAT_LIVE n)).testBit 3 = high ∧ OnlyRegs [R.SYS_CX_STAT n] s.hw h) ∧
    (∀ (n : Fin 3), s.hw.get (R.SYS_CX_CTL_MODE n) = 2 → (s.hw.cx n).req = false → ((s.hw.cxSlices n).any fun x => s.hw.cxPpduDue n x false) = true → Gives (.cxClientReqRaise n) s fun h =>
        (h.cx n).req = true ∧ (h.get (R.SYS_CX_STAT_LIVE n)).testBit 0 = true ∧ (h.get (R.SYS_CX_STAT_LIVE n)).testBit 2 = (((s.hw.cxSlices n).any fun x => s.hw.cxPpduDue n x true) && s.hw.flag (R.SYS_CX_CTL_PRIO_RES n)) ∧
        RegsKept [R.SYS_CX_STAT n] s.hw h ∧ MemKept s.hw h) ∧
    (∀ (n : Fin 3), s.hw.get (R.SYS_CX_CTL_MODE n) = 2 → (s.hw.get (R.SYS_CX_STAT_LIVE n)).testBit 1 = false → Gives (.cxClientGrantRise n) s fun h =>
        (h.get (R.SYS_CX_STAT_LIVE n)).testBit 1 = true ∧
        h.get (R.SYS_CX_CNT0_GRANTS n) = min (s.hw.get (R.SYS_CX_CNT0_GRANTS n) + 1) 65535 ∧ OnlyRegs [R.SYS_CX_STAT n, R.SYS_CX_CNT0 n] s.hw h) ∧
    (∀ (n : Fin 3), s.hw.get (R.SYS_CX_CTL_MODE n) = 2 → (s.hw.get (R.SYS_CX_STAT_LIVE n)).testBit 1 = true → Gives (.cxClientGrantFall n) s fun h =>
        (h.get (R.SYS_CX_STAT_LIVE n)).testBit 1 = false ∧
        (s.hw.get (R.SYS_CX_CTL_STOP_ON_REVOKE n) = 1 → ∀ x < 3, (s.hw.get (R.SYS_CX_CTL_SLICE_MASK n)).testBit x = true →
          (s.hw.inSetting x && (s.hw.slice x).tx.any fun p => !p.response && decide (s.hw.et < p.t1)) = true →
          kget h.txStatus x = some .coexAbort) ∧
        (s.hw.get (R.SYS_CX_CTL_STOP_ON_REVOKE n) = 0 → h.txStatus = s.hw.txStatus) ∧
        RegsKept [R.SYS_CX_STAT n, R.SYS_CX_CNT1 n] s.hw h ∧ MemKept s.hw h) ∧
    (∀ (n : Fin 3), s.hw.get (R.SYS_CX_CTL_MODE n) = 2 → (s.hw.cx n).req = true → ∀ x < 3, (s.hw.get (R.SYS_CX_CTL_SLICE_MASK n)).testBit x = true → s.hw.transmitting x = false ∧ (s.hw.slice x).held = none → Gives (.cxClientReqFall n) s fun h =>
        (h.cx n).req = false ∧ (h.get (R.SYS_CX_STAT_LIVE n)).testBit 0 = false ∧ (h.get (R.SYS_CX_STAT_LIVE n)).testBit 2 = false ∧ RegsKept [R.SYS_CX_STAT n] s.hw h ∧ MemKept s.hw h) ∧
    (∀ (n : Fin 3) (v : Word), Gives (.cxModeWrite n v) s fun h =>
        h.get (R.SYS_CX_CTL_MODE n) = (if fieldOf v (R.SYS_CX_CTL_MODE n) = 3 then s.hw.get (R.SYS_CX_CTL_MODE n)
          else fieldOf v (R.SYS_CX_CTL_MODE n)) ∧
        (fieldOf v (R.SYS_CX_CTL_MODE n) ≠ 3 → h.get (R.SYS_CX_STAT_LIVE n) = 0 ∧ (h.cx n).grant = false ∧ (h.cx n).req = false ∧
          (h.cx n).waiting = false) ∧
        RegsKept [R.SYS_CX_CTL n, R.SYS_CX_STAT n] s.hw h ∧ MemKept s.hw h)

/-- Context commands (R182 to R184). -/
def Obligations.StationContextCommands : Prop :=
  ∀ s : State, s.hw.mainUp = true → 
    (∀ (x : Fin 1024), s.hw.get R.WELT_CTX_RSP_BUSY = 0 → s.hw.openStatus x = 0 → Gives (.ctxOpen x) s fun h =>
        h.get R.WELT_CTX_RSP_BUSY = 0 ∧ h.get R.WELT_CTX_RSP_DONE_EV = 1 ∧
        h.get R.WELT_CTX_RSP_STATUS = 0 ∧ h.get R.WELT_CTX_RSP_STA = x.val ∧ h.get (R.STA_W0_STATE x) = 1 ∧
        (∀ t < 8, mapOf (h.get (R.STA_W9_DL_MAP x)) t = s.hw.get (R.STA_W0_LINKS x) ∧ mapOf (h.get (R.STA_W10_UL_MAP x)) t = s.hw.get (R.STA_W0_LINKS x)) ∧
        (∀ k < 2, h.txPn x k = 0 ∧ ∀ t < 9, h.rxPn x k t = 0) ∧ h.word (R.STA_W53 x) = 0 ∧
        h.word (R.STA_ACT_LO x) = 0 ∧ h.word (R.STA_ACT_HI x) = 0 ∧ h.word (R.STA_W58 x) = 0 ∧ h.word (R.STA_W59 x) = 0 ∧
        (∀ n < 8, h.word (R.STA_STAT_LO x n) = 0 ∧ h.word (R.STA_STAT_HI x n) = 0)) ∧
    (∀ (x : Fin 1024) (a : Nat), s.hw.get R.WELT_CTX_RSP_BUSY = 0 → a = s.hw.get R.WELT_CTX_ARG_ARG → s.hw.openStatus x ≠ 0 → Gives (.ctxOpen x) s fun h =>
        h.get R.WELT_CTX_RSP_BUSY = 0 ∧ h.get R.WELT_CTX_RSP_DONE_EV = 1 ∧
        h.get R.WELT_CTX_RSP_STATUS = s.hw.openStatus x ∧ h.get R.WELT_CTX_RSP_STA = x.val ∧ OnlyRegs [R.WELT_CTX_RSP] s.hw h) ∧
    (∀ (x : Fin 1024), s.hw.get R.WELT_CTX_RSP_BUSY = 0 → s.hw.isOpen x = true → Gives (.ctxClose x) s fun h =>
        h.get R.WELT_CTX_RSP_BUSY = 1 ∧ h.get R.WELT_CTX_RSP_STA = x.val ∧ h.get (R.STA_W0_STATE x) = 2 ∧
        OnlyRegs [R.WELT_CTX_RSP, R.STA_W0 x] s.hw h) ∧
    (∀ (x : Fin 1024) (a : Nat), s.hw.get R.WELT_CTX_RSP_BUSY = 0 → a = s.hw.get R.WELT_CTX_ARG_ARG → s.hw.isOpen x = false → Gives (.ctxClose x) s fun h =>
        h.get R.WELT_CTX_RSP_BUSY = 0 ∧ h.get R.WELT_CTX_RSP_DONE_EV = 1 ∧
        h.get R.WELT_CTX_RSP_STATUS = 1 ∧ h.get R.WELT_CTX_RSP_STA = x.val ∧ OnlyRegs [R.WELT_CTX_RSP] s.hw h) ∧
    (∀ (x : Fin 1024) (a k : Nat), s.hw.get R.WELT_CTX_RSP_BUSY = 0 → a = s.hw.get R.WELT_CTX_ARG_ARG → s.hw.isOpen x = true → k = a / 2 ^ 11 % 2 → 1 ≤ a / 2 ^ 12 % 16 ∧ a / 2 ^ 12 % 16 ≤ 4 → Gives (.ctxKey x) s fun h =>
        h.get R.WELT_CTX_RSP_BUSY = 0 ∧ h.get R.WELT_CTX_RSP_DONE_EV = 1 ∧
        h.get R.WELT_CTX_RSP_STATUS = 0 ∧ h.get R.WELT_CTX_RSP_STA = x.val ∧
        (k = 0 → h.get (R.STA_W12_KEY0 x) = a % 2 ^ 11 ∧ h.get (R.STA_W12_KEY0_V x) = 1) ∧
        (k = 1 → h.get (R.STA_W12_KEY1 x) = a % 2 ^ 11 ∧ h.get (R.STA_W12_KEY1_V x) = 1) ∧
        h.get (R.STA_W12_CIPHER x) = a / 2 ^ 12 % 16 ∧ h.txPn x k = 0 ∧ (∀ t < 9, h.rxPn x k t = 0) ∧
        h.get (R.STA_W0_TX_KEYID x) = (if a.testBit 16 then k else s.hw.get (R.STA_W0_TX_KEYID x)) ∧ MemKept s.hw h) ∧
    (∀ (x : Fin 1024) (a : Nat), s.hw.get R.WELT_CTX_RSP_BUSY = 0 → a = s.hw.get R.WELT_CTX_ARG_ARG → s.hw.isOpen x = false → Gives (.ctxKey x) s fun h =>
        h.get R.WELT_CTX_RSP_BUSY = 0 ∧ h.get R.WELT_CTX_RSP_DONE_EV = 1 ∧
        h.get R.WELT_CTX_RSP_STATUS = 1 ∧ h.get R.WELT_CTX_RSP_STA = x.val ∧ OnlyRegs [R.WELT_CTX_RSP] s.hw h) ∧
    (∀ (x : Fin 1024) (a : Nat), s.hw.get R.WELT_CTX_RSP_BUSY = 0 → a = s.hw.get R.WELT_CTX_ARG_ARG → s.hw.isOpen x = true → (∀ t < 8, mapOf a t ≠ 0 ∧ Nat.land (mapOf a t) (s.hw.staLinks x) = mapOf a t) → Gives (.ctxMap x) s fun h =>
        h.get R.WELT_CTX_RSP_BUSY = 0 ∧ h.get R.WELT_CTX_RSP_DONE_EV = 1 ∧
        h.get R.WELT_CTX_RSP_STATUS = 0 ∧ h.get R.WELT_CTX_RSP_STA = x.val ∧
        h.get (R.STA_W9_DL_MAP x) = (if a.testBit 24 then s.hw.get (R.STA_W9_DL_MAP x) else a % 2 ^ 24) ∧
        h.get (R.STA_W10_UL_MAP x) = (if a.testBit 24 then a % 2 ^ 24 else s.hw.get (R.STA_W10_UL_MAP x)) ∧
        OnlyRegs [R.WELT_CTX_RSP, R.STA_W9 x, R.STA_W10 x] s.hw h) ∧
    (∀ (x : Fin 1024) (a : Nat), s.hw.get R.WELT_CTX_RSP_BUSY = 0 → a = s.hw.get R.WELT_CTX_ARG_ARG → s.hw.isOpen x = false → Gives (.ctxMap x) s fun h =>
        h.get R.WELT_CTX_RSP_BUSY = 0 ∧ h.get R.WELT_CTX_RSP_DONE_EV = 1 ∧
        h.get R.WELT_CTX_RSP_STATUS = 1 ∧ h.get R.WELT_CTX_RSP_STA = x.val ∧ OnlyRegs [R.WELT_CTX_RSP] s.hw h) ∧
    (∀ (x : Fin 1024) (a : Nat), s.hw.get R.WELT_CTX_RSP_BUSY = 0 → a = s.hw.get R.WELT_CTX_ARG_ARG → s.hw.isOpen x = true → s.hw.txBa x (a % 8) = none → s.hw.welt.txBa.length < 2048 → 1 ≤ a / 2 ^ 3 % 2 ^ 11 ∧ a / 2 ^ 3 % 2 ^ 11 ≤ 1024 → Gives (.baTxAdd x) s fun h =>
        h.get R.WELT_CTX_RSP_BUSY = 0 ∧ h.get R.WELT_CTX_RSP_DONE_EV = 1 ∧
        h.get R.WELT_CTX_RSP_STATUS = 0 ∧ h.get R.WELT_CTX_RSP_STA = x.val ∧
        (∃ g ∈ h.txBa x (a % 8), g.bufsz = a / 2 ^ 3 % 2 ^ 11 ∧ g.winStart = a / 2 ^ 14 % 2 ^ 12) ∧
        (h.word (R.STA_W53 x)).toNat.testBit (a % 8) = true ∧ RegsKept [R.WELT_CTX_RSP, R.STA_W53 x] s.hw h ∧ MemKept s.hw h) ∧
    (∀ (x : Fin 1024) (a : Nat), s.hw.get R.WELT_CTX_RSP_BUSY = 0 → a = s.hw.get R.WELT_CTX_ARG_ARG → s.hw.isOpen x = false ∨ (s.hw.txBa x (a % 8)).isSome = true → Gives (.baTxAdd x) s fun h =>
        h.get R.WELT_CTX_RSP_BUSY = 0 ∧ h.get R.WELT_CTX_RSP_DONE_EV = 1 ∧
        h.get R.WELT_CTX_RSP_STATUS = 1 ∧ h.get R.WELT_CTX_RSP_STA = x.val ∧ OnlyRegs [R.WELT_CTX_RSP] s.hw h) ∧
    (∀ (x : Fin 1024) (a : Nat), s.hw.get R.WELT_CTX_RSP_BUSY = 0 → a = s.hw.get R.WELT_CTX_ARG_ARG → (s.hw.txBa x (a % 8)).isSome = true → Gives (.baTxDel x) s fun h =>
        h.get R.WELT_CTX_RSP_BUSY = 0 ∧ h.get R.WELT_CTX_RSP_DONE_EV = 1 ∧
        h.get R.WELT_CTX_RSP_STATUS = 0 ∧ h.get R.WELT_CTX_RSP_STA = x.val ∧ h.txBa x (a % 8) = none ∧
        (h.word (R.STA_W53 x)).toNat.testBit (a % 8) = false ∧ RegsKept [R.WELT_CTX_RSP, R.STA_W53 x] s.hw h ∧ MemKept s.hw h) ∧
    (∀ (x : Fin 1024) (a : Nat), s.hw.get R.WELT_CTX_RSP_BUSY = 0 → a = s.hw.get R.WELT_CTX_ARG_ARG → s.hw.txBa x (a % 8) = none → Gives (.baTxDel x) s fun h =>
        h.get R.WELT_CTX_RSP_BUSY = 0 ∧ h.get R.WELT_CTX_RSP_DONE_EV = 1 ∧
        h.get R.WELT_CTX_RSP_STATUS = 1 ∧ h.get R.WELT_CTX_RSP_STA = x.val ∧ OnlyRegs [R.WELT_CTX_RSP] s.hw h) ∧
    (∀ (x : Fin 1024) (a : Nat), s.hw.get R.WELT_CTX_RSP_BUSY = 0 → a = s.hw.get R.WELT_CTX_ARG_ARG → s.hw.isOpen x = true → s.hw.rxBa x (a % 8) = none → s.hw.welt.rxBa.length < 2048 → 0 < s.hw.get R.WELT_RO_CTL_SLOTS → 1 ≤ a / 2 ^ 3 % 2 ^ 11 ∧ a / 2 ^ 3 % 2 ^ 11 ≤ 1024 → Gives (.baRxAdd x) s fun h =>
        h.get R.WELT_CTX_RSP_BUSY = 0 ∧ h.get R.WELT_CTX_RSP_DONE_EV = 1 ∧
        h.get R.WELT_CTX_RSP_STATUS = 0 ∧ h.get R.WELT_CTX_RSP_STA = x.val ∧
        h.rxBa x (a % 8) = some ⟨a / 2 ^ 3 % 2 ^ 11, a / 2 ^ 14 % 2 ^ 12, []⟩ ∧
        (h.word (R.STA_W53 x)).toNat.testBit (8 + a % 8) = true ∧ RegsKept [R.WELT_CTX_RSP, R.STA_W53 x] s.hw h ∧ MemKept s.hw h) ∧
    (∀ (x : Fin 1024) (a : Nat), s.hw.get R.WELT_CTX_RSP_BUSY = 0 → a = s.hw.get R.WELT_CTX_ARG_ARG → s.hw.isOpen x = false ∨ (s.hw.rxBa x (a % 8)).isSome = true → Gives (.baRxAdd x) s fun h =>
        h.get R.WELT_CTX_RSP_BUSY = 0 ∧ h.get R.WELT_CTX_RSP_DONE_EV = 1 ∧
        h.get R.WELT_CTX_RSP_STATUS = 1 ∧ h.get R.WELT_CTX_RSP_STA = x.val ∧ OnlyRegs [R.WELT_CTX_RSP] s.hw h) ∧
    (∀ (x : Fin 1024) (a : Nat) (g : RxAgreement), s.hw.get R.WELT_CTX_RSP_BUSY = 0 → a = s.hw.get R.WELT_CTX_ARG_ARG → s.hw.rxBa x (a % 8) = some g → g.held = [] → Gives (.baRxDel x) s fun h =>
        h.get R.WELT_CTX_RSP_BUSY = 0 ∧ h.get R.WELT_CTX_RSP_DONE_EV = 1 ∧
        h.get R.WELT_CTX_RSP_STATUS = 0 ∧ h.get R.WELT_CTX_RSP_STA = x.val ∧ h.rxBa x (a % 8) = none ∧
        (h.word (R.STA_W53 x)).toNat.testBit (8 + a % 8) = false ∧ RegsKept [R.WELT_CTX_RSP, R.STA_W53 x] s.hw h ∧ MemKept s.hw h) ∧
    (∀ (x : Fin 1024) (a : Nat), s.hw.get R.WELT_CTX_RSP_BUSY = 0 → a = s.hw.get R.WELT_CTX_ARG_ARG → s.hw.rxBa x (a % 8) = none → Gives (.baRxDel x) s fun h =>
        h.get R.WELT_CTX_RSP_BUSY = 0 ∧ h.get R.WELT_CTX_RSP_DONE_EV = 1 ∧
        h.get R.WELT_CTX_RSP_STATUS = 1 ∧ h.get R.WELT_CTX_RSP_STA = x.val ∧ OnlyRegs [R.WELT_CTX_RSP] s.hw h) ∧
    (∀ (x : Fin 1024) (c : Instr), s.hw.get R.WELT_CTX_RSP_BUSY = 1 → c ∈ ([.ctxOpen x, .ctxClose x, .ctxKey x, .ctxMap x, .baTxAdd x, .baTxDel x, .baRxAdd x, .baRxDel x] : List Instr) → Gives (c) s fun h =>
        h.get R.WELT_CTX_RSP_LOST = 1 ∧ OnlyRegs [R.WELT_CTX_RSP] s.hw h)

/-- CLOSE (R183), the TSF (R178), wake-up jobs (R199, R200, R206). -/
def Obligations.ContextCloseTsfAndWakeUpJobs : Prop :=
  ∀ s : State, s.hw.mainUp = true → 
    (∀ (x : Fin 1024), s.hw.staState x = 2 → s.hw.inFlight x = false → (∀ t < 8, ((s.hw.rxBa x t).all fun g => g.held.isEmpty) = true) → Gives (.ctxCloseComplete x) s fun h =>
        h.get R.WELT_CTX_RSP_BUSY = 0 ∧ h.get R.WELT_CTX_RSP_DONE_EV = 1 ∧
        h.get R.WELT_CTX_RSP_STATUS = 0 ∧ h.get R.WELT_CTX_RSP_STA = x.val ∧ h.get (R.STA_W0_STATE x) = 0 ∧ h.get (R.STA_W12_KEY0_V x) = 0 ∧ h.get (R.STA_W12_KEY1_V x) = 0 ∧
        (∀ t < 8, h.txBa x t = none ∧ h.rxBa x t = none) ∧
        RegsKept [R.WELT_CTX_RSP, R.STA_W0 x, R.STA_W12 x, R.STA_W53 x] s.hw h ∧ MemKept s.hw h) ∧
    (∀ (v : Word), Gives (.tsfOfsHiWrite v) s fun h =>
        h.word R.WELT_TSF_OFS_HI = v ∧ h.word R.WELT_TSF_OFS_LO = s.hw.welt.tsfHeld ∧ OnlyRegs [R.WELT_TSF_OFS_LO, R.WELT_TSF_OFS_HI] s.hw h) ∧
    (∀ (j : Fin 16) (v : Word), s.hw.get (R.WELT_WUR_STAT_STATE j) ≠ 1 → fieldOf v (R.WELT_WUR_CMD_GROUP j) = 1 ∨ (s.hw.isOpen (fieldOf v (R.WELT_WUR_CMD_STA j)) && s.hw.flag (R.STA_W0_WUR (fieldOf v (R.WELT_WUR_CMD_STA j)))) = true → Gives (.wurJobStart j v) s fun h =>
        h.get (R.WELT_WUR_STAT_STATE j) = 1 ∧ h.get (R.WELT_WUR_STAT_SENT j) = 0 ∧ h.get (R.WELT_WUR_STAT_SKIPPED j) = 0 ∧
        h.get (R.WELT_WUR_CMD_STA j) = fieldOf v (R.WELT_WUR_CMD_STA j) ∧ h.get (R.WELT_WUR_CMD_REPEAT j) = fieldOf v (R.WELT_WUR_CMD_REPEAT j) ∧
        kget h.welt.jobs j = some ⟨s.hw.et, 0, false⟩ ∧ tget h.timers (.wurSend j) = some s.hw.et ∧
        RegsKept [R.WELT_WUR_STAT j, R.WELT_WUR_CMD j] s.hw h ∧ MemKept s.hw h) ∧
    (∀ (j : Fin 16) (v : Word), s.hw.get (R.WELT_WUR_STAT_STATE j) ≠ 1 → fieldOf v (R.WELT_WUR_CMD_GROUP j) = 0 → (s.hw.isOpen (fieldOf v (R.WELT_WUR_CMD_STA j)) && s.hw.flag (R.STA_W0_WUR (fieldOf v (R.WELT_WUR_CMD_STA j)))) = false → Gives (.wurJobStart j v) s fun h =>
        h.get (R.WELT_WUR_STAT_STATE j) = 5 ∧ h.get (R.WELT_WUR_STAT_DONE_EV j) = 1 ∧ kget h.welt.jobs j = none ∧
        RegsKept [R.WELT_WUR_STAT j, R.WELT_WUR_CMD j] s.hw h ∧ MemKept s.hw h) ∧
    (∀ (j : Fin 16) (v : Word), s.hw.get (R.WELT_WUR_STAT_STATE j) = 1 → Gives (.wurJobStart j v) s fun h =>
        h.get R.WELT_STAT_CFG_ERR = 1 ∧ OnlyRegs [R.WELT_STAT] s.hw h) ∧
    (∀ (j : Fin 16) (d : Nat) (b : WurJob), tget s.hw.timers (.wurSend j) = some d → kget s.hw.welt.jobs j = some b → b.next ≤ s.hw.get (R.WELT_WUR_CMD_REPEAT j) → Gives (.wurSendDue j) s fun h =>
        kget h.welt.jobs j = some ⟨b.startEt, b.next + 1, true⟩ ∧
        tget h.timers (.wurSend j) = some (b.startEt + (b.next + 1) * s.hw.get (R.WELT_WUR_TIME_SPACING j) * 1000000) ∧
        (b.waiting = false → h.get (R.WELT_WUR_STAT_SKIPPED j) = s.hw.get (R.WELT_WUR_STAT_SKIPPED j)) ∧
        (b.waiting = true → s.hw.get (R.WELT_WUR_STAT_SKIPPED j) < 15 → h.get (R.WELT_WUR_STAT_SKIPPED j) = s.hw.get (R.WELT_WUR_STAT_SKIPPED j) + 1) ∧
        RegsKept [R.WELT_WUR_STAT j] s.hw h ∧ MemKept s.hw h) ∧
    (∀ (j : Fin 16) (d : Nat) (b : WurJob), tget s.hw.timers (.wurSend j) = some d → kget s.hw.welt.jobs j = some b → s.hw.get (R.WELT_WUR_CMD_REPEAT j) < b.next → Gives (.wurSendDue j) s fun h =>
        h.get (R.WELT_WUR_STAT_STATE j) = (if s.hw.get (R.WELT_WUR_CMD_GROUP j) = 1 then 4 else 3) ∧ h.get (R.WELT_WUR_STAT_DONE_EV j) = 1 ∧
        kget h.welt.jobs j = none ∧ tget h.timers (.wurSend j) = none ∧ RegsKept [R.WELT_WUR_STAT j] s.hw h ∧ MemKept s.hw h) ∧
    (∀ (l : Fin 3) (p : Nat), p = s.hw.get (R.WELT_WUR_PERIOD l) * 1024 → 0 < p → l.val < 2 → s.hw.linkAvailable l = false → Gives (.wurBeaconDue l) s fun h =>
        h.welt.beacons = s.hw.welt.beacons ∧ RegsKept [] s.hw h ∧ MemKept s.hw h) ∧
    (∀ (l : Fin 3) (p T : Nat), p = s.hw.get (R.WELT_WUR_PERIOD l) * 1024 → 0 < p → l.val < 2 → T = ntAdd 0 (ntOfMicros (s.hw.ntMicros + (p - s.hw.tsf % p))) → (s.hw.advanceToNt T).ntReached T = true → s.hw.linkAvailable l = true → Gives (.wurBeaconDue l) s fun h =>
        l.val ∈ h.welt.beacons ∧ h.nt = (s.hw.advanceToNt T).nt ∧ h.et = (s.hw.advanceToNt T).et ∧ RegsKept [] s.hw h ∧ MemKept s.hw h)

/-- Reception at Welt (R181, R196, R203). -/
def Obligations.ReceivedMpdusAndReordering : Prop :=
  ∀ s : State, s.hw.mainUp = true → 
    (∀ (l : Fin 3) (m : RxMpdu), m.fcs = false ∨ m.place ∈ (s.hw.slice l).spoiled → Gives (.mpduReceived l m) s fun h =>
        Unchanged s.hw h) ∧
    (∀ (l : Fin 3) (m : RxMpdu), m.fcs = true → m.place ∉ (s.hw.slice l).spoiled → m.kind = .data → s.hw.stationOf l m.ta.toNat = none → (s.hw.lastOf l).occ = none → s.hw.granted l = false → s.hw.exchange l = none → (s.hw.weltLink l).response = none → Gives (.mpduReceived l m) s fun h =>
        h.get (R.WELT_CNT_0_UNKNOWN_TA l) = min (s.hw.get (R.WELT_CNT_0_UNKNOWN_TA l) + 1) 65535 ∧ RegsKept [R.WELT_CNT_0 l] s.hw h ∧ MemKept s.hw h ∧
        (h.weltLink l).response = some ⟨(s.hw.slice l).idleFrom + sifs l, false, [⟨m.ta.toNat, m.tid, m.sn.toNat⟩], false⟩) ∧
    (∀ (l : Fin 3) (m : RxMpdu) (x : Nat), m.fcs = true → m.place ∉ (s.hw.slice l).spoiled → m.kind = .data → m.protectedFrame = false → s.hw.stationOf l m.ta.toNat = some x → s.hw.rxBa x m.tid = none → kget s.hw.welt.lastSn (baKey x m.tid) ≠ some m.sn.toNat → Gives (.mpduReceived l m) s fun h =>
        h.staged (12 + l) = s.hw.staged (12 + l) ++ m.frames.map (fun bs => (⟨bs, true, (s.hw.slice l).lastStamp, weltWord x m.tid false false, none, none, 0⟩ : Staged)) ∧
        kget h.welt.lastSn (baKey x m.tid) = some m.sn.toNat ∧
        h.get (R.STA_ACT_LO_LAST_ACT x) = s.hw.et % 2 ^ 32 ∧ h.get (R.STA_ACT_HI_LAST_ACT x) = s.hw.et / 2 ^ 32 % 2 ^ 32 ∧ MemKept s.hw h) ∧
    (∀ (l : Fin 3) (m : RxMpdu) (x : Nat), m.fcs = true → m.place ∉ (s.hw.slice l).spoiled → m.kind = .data → x < 1024 → s.hw.stationOf l m.ta.toNat = some x → s.hw.rxBa x m.tid = none → kget s.hw.welt.lastSn (baKey x m.tid) = some m.sn.toNat → Gives (.mpduReceived l m) s fun h =>
        h.staged (12 + l) = s.hw.staged (12 + l) ∧ h.get (R.STA_STAT_LO_CNT x 7) + 2 ^ 32 * h.get (R.STA_STAT_HI_CNT x 7) =
          (s.hw.get (R.STA_STAT_LO_CNT x 7) + 2 ^ 32 * s.hw.get (R.STA_STAT_HI_CNT x 7) + 1) % 2 ^ 40 ∧ MemKept s.hw h) ∧
    (∀ (x : Fin 1024) (t : Fin 8) (d : Nat) (g : RxAgreement) (m : HeldMpdu), tget s.hw.timers (.reorder (baKey x t)) = some d → s.hw.rxBa x t = some g → g.held = [m] → m.sn < 4096 → Gives (.reorderTimeout x t) s fun h =>
        h.rxBa x t = some ⟨g.bufsz, (m.sn + 1) % 4096, []⟩ ∧ tget h.timers (.reorder (baKey x t)) = none)

/-- Exchanges, contention and links (R188 to R194). -/
def Obligations.AcknowledgementsRetriesAndBackoff : Prop :=
  ∀ s : State, s.hw.mainUp = true → 
    (∀ (l : Fin 3) (x : Fin 1024) (t : Fin 8) (ssn : BitVec 12) (bitmap : List Bool) (e : Exchange) (f : Nat) (m : Mpdu), s.hw.exchange l = some e → e.frames = [f] → e.awaits = true → e.rts = false → e.reserved = false → s.hw.welt.mpdus = [(f, m)] → m.sta = some x.val → m.tid = t → m.awaits = true → (s.hw.frame f).pool < 16 → (s.hw.frame f).queue.all (· < 12288) = true → bitmap[snOff m.sn ssn.toNat]? = some true → Gives (.blockackReceived l x t ssn bitmap) s fun h =>
        h.exchange l = none ∧ h.mpdu f = none ∧ kget h.fabric.frames f = none ∧
        (h.edca l e.ac).cw = some (s.hw.cwMin l e.ac) ∧ (h.edca l e.ac).hold = false ∧ (h.edca l e.ac).backoff ≤ s.hw.cwMin l e.ac ∧ MemKept s.hw h) ∧
    (∀ (l : Fin 3) (m : RxMpdu) (e : Exchange) (f : Nat) (p : Mpdu), m.fcs = true → m.place ∉ (s.hw.slice l).spoiled → m.kind = .ack → s.hw.exchange l = some e → e.frames = [f] → e.awaits = true → e.rts = false → e.kind ≠ .trigger → e.reserved = false → s.hw.mpdu f = some p → (s.hw.frame f).pool < 16 → (s.hw.frame f).queue.all (· < 12288) = true → Gives (.mpduReceived l m) s fun h =>
        h.exchange l = none ∧ h.mpdu f = none ∧ kget h.fabric.frames f = none ∧
        (h.edca l e.ac).cw = some (s.hw.cwMin l e.ac) ∧ (h.edca l e.ac).hold = false ∧ (h.edca l e.ac).backoff ≤ s.hw.cwMin l e.ac ∧ MemKept s.hw h) ∧
    (∀ (l : Fin 3) (m : RxMpdu) (e : Exchange), m.fcs = true → m.place ∉ (s.hw.slice l).spoiled → m.kind = .cts → s.hw.exchange l = some e → e.awaits = true → e.rts = true → Gives (.mpduReceived l m) s fun h =>
        h.exchange l = some { e with rts := false, awaits := false, issued := false } ∧ (h.weltLink l).protect = false ∧ MemKept s.hw h) ∧
    (∀ (l : Fin 3) (e : Exchange) (f : Nat) (m : Mpdu) (x : Nat), s.hw.exchange l = some e → e.frames = [f] → s.hw.mpdu f = some m → m.sta = some x → x < 1024 → m.tid < 8 → e.reserved = false → e.awaits = true → e.rts = true → Gives (.responseTimeout l) s fun h =>
        h.exchange l = none ∧ h.mpdu f = some { m with awaits := false } ∧ h.queueFrames (8 * x + m.tid) = f :: s.hw.queueFrames (8 * x + m.tid) ∧
        (h.edca l e.ac).cw = some (min (2 * (((s.hw.edca l e.ac).cw).getD (s.hw.cwMin l e.ac)) + 1) (s.hw.cwMax l e.ac)) ∧ (h.edca l e.ac).hold = false ∧ (h.edca l e.ac).backoff ≤ min (2 * (((s.hw.edca l e.ac).cw).getD (s.hw.cwMin l e.ac)) + 1) (s.hw.cwMax l e.ac) ∧ MemKept s.hw h) ∧
    (∀ (l : Fin 3) (e : Exchange) (f : Nat) (m : Mpdu) (x : Nat), s.hw.exchange l = some e → e.frames = [f] → s.hw.mpdu f = some m → m.sta = some x → x < 1024 → m.tid < 8 → e.reserved = false → e.awaits = true → e.rts = false → (s.hw.frame f).act ≠ 2 → m.retries + 1 < s.hw.retryLimit l (acOf m.tid) → Gives (.responseTimeout l) s fun h =>
        h.exchange l = none ∧ h.mpdu f = some m.retried ∧ h.queueFrames (8 * x + m.tid) = f :: s.hw.queueFrames (8 * x + m.tid) ∧
        h.get (R.STA_STAT_LO_CNT x 2) + 2 ^ 32 * h.get (R.STA_STAT_HI_CNT x 2) =
          (s.hw.get (R.STA_STAT_LO_CNT x 2) + 2 ^ 32 * s.hw.get (R.STA_STAT_HI_CNT x 2) + 1) % 2 ^ 40 ∧
        (h.edca l e.ac).cw = some (min (2 * (((s.hw.edca l e.ac).cw).getD (s.hw.cwMin l e.ac)) + 1) (s.hw.cwMax l e.ac)) ∧ (h.edca l e.ac).hold = false ∧ (h.edca l e.ac).backoff ≤ min (2 * (((s.hw.edca l e.ac).cw).getD (s.hw.cwMin l e.ac)) + 1) (s.hw.cwMax l e.ac) ∧ MemKept s.hw h) ∧
    (∀ (l : Fin 3) (e : Exchange), kget s.hw.txStatus l = some .sent → s.hw.exchange l = some e → e.issued = true → e.rts || e.responses → Gives (.txStatus l) s fun h =>
        h.exchange l = some { e with awaits := true } ∧ kget h.txStatus l = none ∧ RegsKept [] s.hw h ∧ MemKept s.hw h) ∧
    (∀ (l : Fin 3) (e : Exchange) (f : Nat) (m : Mpdu) (x : Nat) (st : TxStatus), kget s.hw.txStatus l = some st → st = .txUnderrun ∨ st = .txVswr → s.hw.exchange l = some e → e.frames = [f] → s.hw.mpdu f = some m → m.sta = some x → x < 1024 → m.tid < 8 → e.reserved = false → e.issued = true → e.rts = false → (s.hw.frame f).act ≠ 2 → m.retries + 1 < s.hw.retryLimit l (acOf m.tid) → Gives (.txStatus l) s fun h =>
        h.exchange l = none ∧ h.mpdu f = some m.retried ∧ h.queueFrames (8 * x + m.tid) = f :: s.hw.queueFrames (8 * x + m.tid) ∧
        (h.edca l e.ac).cw = some (min (2 * (((s.hw.edca l e.ac).cw).getD (s.hw.cwMin l e.ac)) + 1) (s.hw.cwMax l e.ac)) ∧ (h.edca l e.ac).hold = false ∧ (h.edca l e.ac).backoff ≤ min (2 * (((s.hw.edca l e.ac).cw).getD (s.hw.cwMin l e.ac)) + 1) (s.hw.cwMax l e.ac) ∧ MemKept s.hw h) ∧
    (∀ (l : Fin 3) (e : Exchange) (f : Nat) (m : Mpdu) (x : Nat) (st : TxStatus), kget s.hw.txStatus l = some st → st ≠ .sent ∧ st ≠ .txUnderrun ∧ st ≠ .txVswr → s.hw.exchange l = some e → e.frames = [f] → s.hw.mpdu f = some m → m.sta = some x → x < 1024 → m.tid < 8 → e.reserved = false → e.issued = true → Gives (.txStatus l) s fun h =>
        h.exchange l = none ∧ h.mpdu f = some { m with awaits := false } ∧ h.queueFrames (8 * x + m.tid) = f :: s.hw.queueFrames (8 * x + m.tid) ∧
        (h.edca l e.ac).cw = some (((s.hw.edca l e.ac).cw).getD (s.hw.cwMin l e.ac)) ∧ (h.edca l e.ac).hold = false ∧ (h.edca l e.ac).backoff ≤ ((s.hw.edca l e.ac).cw).getD (s.hw.cwMin l e.ac) ∧ MemKept s.hw h) ∧
    (∀ (l : Fin 3) (ac : Fin 4) (fit ns : Nat), s.hw.linkAvailable l = false ∨ (s.hw.exchange l).isSome = true ∨ (s.hw.slice l).held.isSome = true → Gives (.edcaBackoffZero l ac fit ns) s fun h =>
        Unchanged s.hw h) ∧
    (∀ (l : Fin 3) (ac : Fin 4) (fit ns y : Nat), s.hw.linkAvailable l = true → s.hw.exchange l = none → (s.hw.slice l).held = none → s.hw.mediumIdle l = true → s.hw.nstrPartner l = some y → (s.hw.receiving y && !s.hw.transmitting y) = true → (s.hw.edca l ac).hold = false → Gives (.edcaBackoffZero l ac fit ns) s fun h =>
        (h.edca l ac).hold = true ∧ (h.edca l ac).backoff = 0 ∧ h.exchange l = none ∧ h.get (R.WELT_CNT_1_NSTR_HOLD l) = min (s.hw.get (R.WELT_CNT_1_NSTR_HOLD l) + 1) 65535 ∧
        RegsKept [R.WELT_CNT_1 l] s.hw h ∧ MemKept s.hw h) ∧
    (∀ (l : Fin 3) (ac : Fin 4) (fit ns f x t : Nat), s.hw.linkAvailable l = true → s.hw.exchange l = none → (s.hw.slice l).held = none → s.hw.mediumIdle l = true → ((s.hw.nstrPartner l).any fun y => s.hw.receiving y && !s.hw.transmitting y) = false → s.hw.mayContend l ns = true → s.hw.txopLimit l ac = 0 ∨ ns ≤ s.hw.txopLimit l ac → s.hw.flag (R.CKR_POOL_CFG_LOC (s.hw.frame f).pool) = false → ac.val ≠ 3 ∧ (ac.val ≠ 1 ∨ s.hw.queueFrames (s.hw.get (R.WELT_CFG_GRPQ l)) = []) → s.hw.nextStation l ac = some (x, t) → t < 8 → x < 1024 → s.hw.queueFrames (8 * x + t) = [f] → s.hw.mpdu f = none → s.hw.outlived l (acOf t) (s.hw.frame f) = false → s.hw.txBa x t = none → s.hw.keyValid x (s.hw.get (R.STA_W0_TX_KEYID x)) = false → s.hw.frameFault (16 + l) (s.hw.frame f) = none → 0 < fit → Gives (.edcaBackoffZero l ac fit ns) s fun h =>
        h.exchange l = some ⟨.data, ac, [f], s.hw.emlsr x || (s.hw.weltLink l).protect, false, false, false, true, [x], [], [], 0, none⟩ ∧
        h.mpdu f = some ⟨some x, t, kgetD 0 s.hw.welt.nextSn (baKey x t), 0, none, 0, false, Stamp.zero, false⟩ ∧
        kgetD 0 h.welt.nextSn (baKey x t) = (kgetD 0 s.hw.welt.nextSn (baKey x t) + 1) % 4096 ∧ h.queueFrames (8 * x + t) = [] ∧ MemKept s.hw h) ∧
    (∀ (l : Fin 3), (s.hw.weltLink l).available = true → s.hw.linkAvailable l = false → Gives (.linkUnavailable l) s fun h =>
        (h.weltLink l).available = false ∧ (h.weltLink l).since = s.hw.et ∧ h.get (R.WELT_CNT_0_UNAVAIL l) = min (s.hw.get (R.WELT_CNT_0_UNAVAIL l) + 1) 65535 ∧ RegsKept [R.WELT_CNT_0 l] s.hw h ∧ MemKept s.hw h) ∧
    (∀ (l : Fin 3), (s.hw.weltLink l).available = false → s.hw.linkAvailable l = true → Gives (.linkAvailable l) s fun h =>
        (h.weltLink l).available = true ∧
        (h.weltLink l).protect = ((s.hw.weltLink l).protect || decide ((s.hw.weltLink l).since + 4000 * s.hw.get (R.WELT_SYNC_SYNC_THRESH l) < s.hw.et)) ∧
        RegsKept [] s.hw h ∧ MemKept s.hw h)

/-- Changing the schedule (R209, R219, R221 to R223). -/
def Obligations.LastBanksAndAmendment : Prop :=
  ∀ s : State, s.hw.mainUp = true → 
    (∀ (l : Fin 3), s.hw.lastPend l = false → Gives (.arm l) s fun h =>
        (h.lastOf l).arming = true ∧ RegsKept [] s.hw h ∧ MemKept s.hw h) ∧
    (∀ (l : Fin 3), s.hw.lastPend l = true → Gives (.arm l) s fun h =>
        Unchanged s.hw h) ∧
    (∀ (l : Fin 3) (c i : Nat), (s.hw.lastOf l).arming = true → s.hw.validateBank l (1 - s.hw.lastActive l) = some (c, i) → Gives (.lastValidationDone l) s fun h =>
        (h.lastOf l).arming = false ∧ h.get (R.LAST_VAL_CODE l) = c ∧ h.get (R.LAST_VAL_INDEX l) = i ∧ h.get (R.LAST_STAT_VAL_ERR_EV l) = 1 ∧
        RegsKept [R.LAST_VAL l, R.LAST_STAT l] s.hw h ∧ MemKept s.hw h) ∧
    (∀ (l : Fin 3), (s.hw.lastOf l).arming = true → s.hw.validateBank l (1 - s.hw.lastActive l) = none → s.hw.lastRun l = true → Gives (.lastValidationDone l) s fun h =>
        (h.lastOf l).arming = false ∧ h.get (R.LAST_STAT_PEND l) = 1 ∧ RegsKept [R.LAST_STAT l] s.hw h ∧ MemKept s.hw h) ∧
    (∀ (l : Fin 3), (s.hw.lastOf l).arming = true → s.hw.validateBank l (1 - s.hw.lastActive l) = none → s.hw.lastRun l = false → s.hw.exchange l = none → (s.hw.slice l).calWindow = none → Gives (.lastValidationDone l) s fun h =>
        h.get (R.LAST_STAT_RUN l) = 1 ∧ h.get (R.LAST_STAT_ACTIVE l) = 1 - s.hw.lastActive l ∧ h.get (R.LAST_STAT_PEND l) = 0 ∧
        h.get (R.LAST_STAT_SWAP_EV l) = 1 ∧ (h.lastOf l).occ = none ∧
        h.get (R.LAST_CYC_LO_K l) + 2 ^ 32 * h.get (R.LAST_CYC_HI_K l) = (h.lastOf l).k % 2 ^ 64 ∧
        (h.lastOf l).first = some (s.hw.firstStart l (1 - s.hw.lastActive l) s.hw.nt).1 ∧ (h.lastOf l).k = (s.hw.firstStart l (1 - s.hw.lastActive l) s.hw.nt).2 ∧
        RegsKept [R.LAST_STAT l, R.LAST_CYC_LO l, R.LAST_CYC_HI l] s.hw h ∧ MemKept s.hw h) ∧
    (∀ (l : Fin 3), Gives (.disarm l) s fun h =>
        h.get (R.LAST_STAT_PEND l) = 0 ∧ OnlyRegs [R.LAST_STAT l] s.hw h) ∧
    (∀ (l : Fin 3), Gives (.stop l) s fun h =>
        h.get (R.LAST_STAT_PEND l) = 0 ∧ (h.lastOf l).stopping = s.hw.lastRun l ∧ RegsKept [R.LAST_STAT l] s.hw h ∧ MemKept s.hw h) ∧
    (∀ (l : Fin 3) (T : Nat), s.hw.lastRun l = true → (s.hw.lastOf l).stopping = true → s.hw.exchange l = none → (s.hw.slice l).calWindow = none → T = s.hw.lastBoundary l → (s.hw.advanceToNt T).ntReached T = true → Gives (.lastCycleBoundary l) s fun h =>
        h.get (R.LAST_STAT_RUN l) = 0 ∧ h.get (R.LAST_STAT_PEND l) = 0 ∧ (h.lastOf l).stopping = false ∧ (h.lastOf l).occ = none ∧
        h.nt = (s.hw.advanceToNt T).nt ∧ RegsKept [R.LAST_STAT l] s.hw h ∧ MemKept s.hw h) ∧
    (∀ (l : Fin 3) (T : Nat), s.hw.lastRun l = true → (s.hw.lastOf l).stopping = false → s.hw.lastPend l = true → s.hw.exchange l = none → (s.hw.slice l).calWindow = none → T = s.hw.lastBoundary l → (s.hw.advanceToNt T).ntReached T = true → Gives (.lastCycleBoundary l) s fun h =>
        h.get (R.LAST_STAT_RUN l) = 1 ∧ h.get (R.LAST_STAT_ACTIVE l) = 1 - s.hw.lastActive l ∧ h.get (R.LAST_STAT_PEND l) = 0 ∧
        h.get (R.LAST_STAT_SWAP_EV l) = 1 ∧ (h.lastOf l).occ = none ∧
        h.get (R.LAST_CYC_LO_K l) + 2 ^ 32 * h.get (R.LAST_CYC_HI_K l) = (h.lastOf l).k % 2 ^ 64 ∧
        (h.lastOf l).first = some (s.hw.firstStart l (1 - s.hw.lastActive l) T).1 ∧ (h.lastOf l).k = (s.hw.firstStart l (1 - s.hw.lastActive l) T).2 ∧
        RegsKept [R.LAST_STAT l, R.LAST_CYC_LO l, R.LAST_CYC_HI l] s.hw h ∧ MemKept s.hw h) ∧
    (∀ (l : Fin 3) (T : Nat), s.hw.lastRun l = true → (s.hw.lastOf l).stopping = false → s.hw.lastPend l = false → (s.hw.lastOf l).first = none → s.hw.exchange l = none → (s.hw.slice l).calWindow = none → T = s.hw.lastBoundary l → (s.hw.advanceToNt T).ntReached T = true → Gives (.lastCycleBoundary l) s fun h =>
        (h.lastOf l).start = T ∧ (h.lastOf l).k = (s.hw.lastOf l).k + 1 ∧ (h.lastOf l).next = 0 ∧ (h.lastOf l).occ = none ∧
        h.get (R.LAST_CYC_LO_K l) + 2 ^ 32 * h.get (R.LAST_CYC_HI_K l) = ((s.hw.lastOf l).k + 1) % 2 ^ 64 ∧
        RegsKept [R.LAST_STAT l, R.LAST_CYC_LO l, R.LAST_CYC_HI l] s.hw h ∧ MemKept s.hw h) ∧
    (∀ (l : Fin 3) (T : Nat), (s.hw.lastOf l).first = some T → (s.hw.lastOf l).stopping = false → s.hw.lastPend l = false → (s.hw.advanceToNt T).ntReached T = true → Gives (.lastBankStart l) s fun h =>
        (h.lastOf l).first = none ∧ (h.lastOf l).next = 0 ∧
        h.get (R.LAST_CYC_LO_K l) + 2 ^ 32 * h.get (R.LAST_CYC_HI_K l) = (s.hw.lastOf l).k % 2 ^ 64 ∧
        RegsKept [R.LAST_CYC_LO l, R.LAST_CYC_HI l] s.hw h ∧ MemKept s.hw h) ∧
    (∀ (l : Fin 3) (i : Fin 4096), s.hw.lastRun l = false → Gives (.go l i) s fun h =>
        h.get (R.LAST_STAT_AMEND_ERR l) = 1 ∧ OnlyRegs [R.LAST_STAT l] s.hw h) ∧
    (∀ (l : Fin 3) (i : Fin 4096) (c : Nat), s.hw.lastRun l = true → s.hw.amendCode l i (entryOf ((List.range 4).map fun w => (s.hw.word (R.LAST_AMEND_W l w)).toNat)) = some c → Gives (.go l i) s fun h =>
        h.get (R.LAST_VAL_CODE l) = c ∧ h.get (R.LAST_VAL_INDEX l) = i.val ∧ h.get (R.LAST_STAT_AMEND_ERR l) = 1 ∧ OnlyRegs [R.LAST_VAL l, R.LAST_STAT l] s.hw h) ∧
    (∀ (l : Fin 3) (i : Fin 4096), s.hw.lastRun l = true → s.hw.amendCode l i (entryOf ((List.range 4).map fun w => (s.hw.word (R.LAST_AMEND_W l w)).toNat)) = none → Gives (.go l i) s fun h =>
        h.lastEntry l (s.hw.lastActive l) i = entryOf ((List.range 4).map fun w => (s.hw.word (R.LAST_AMEND_W l w)).toNat) ∧
        RegsKept [R.LAST_E0 l (s.hw.lastActive l) i, R.LAST_E1 l (s.hw.lastActive l) i, R.LAST_E2 l (s.hw.lastActive l) i,
          R.LAST_E3 l (s.hw.lastActive l) i] s.hw h ∧ MemKept s.hw h)

/-- Slot entries (R210 to R217). -/
def Obligations.LastEntriesOnTheLink : Prop :=
  ∀ s : State, s.hw.mainUp = true → 
    (∀ (l : Fin 3) (i T : Nat) (e : LastEntry), s.hw.lastRun l = true → (s.hw.lastOf l).first = none → (s.hw.lastOf l).occ = none → s.hw.nextEntry l = some (i, e) → e.type = 4 → T = ntAdd (s.hw.lastOf l).start (ntOfMicros e.start) → (s.hw.advanceToNt T).ntReached T = true → Gives (.lastEntryStart l) s fun h =>
        (∃ o ∈ (h.lastOf l).occ, o.phase = .quiet ∧ o.start = T ∧ o.words = s.hw.lastWords l (s.hw.lastActive l) i) ∧
        h.get (R.LAST_STAT_IN_ENTRY l) = 1 ∧ h.get (R.LAST_STAT_ENTRY l) = i % 4096 ∧ RegsKept [R.LAST_STAT l] s.hw h ∧ MemKept s.hw h) ∧
    (∀ (l : Fin 3) (i T : Nat) (e : LastEntry), s.hw.lastRun l = true → (s.hw.lastOf l).first = none → (s.hw.lastOf l).occ = none → s.hw.nextEntry l = some (i, e) → e.type ≠ 4 ∧ e.type ≠ 5 → s.hw.linkAvailable l = false → T = ntAdd (s.hw.lastOf l).start (ntOfMicros e.start) → (s.hw.advanceToNt T).ntReached T = true → Gives (.lastEntryStart l) s fun h =>
        ((h.lastOf l).occ.any fun o => o.phase == .skipped) = true ∧ h.get (R.LAST_CNT_0_SKIP_UNAVAIL l) = min (s.hw.get (R.LAST_CNT_0_SKIP_UNAVAIL l) + 1) 65535 ∧
        h.get (R.LAST_STAT_IN_ENTRY l) = 1 ∧ h.get (R.LAST_STAT_ENTRY l) = i % 4096 ∧ MemKept s.hw h) ∧
    (∀ (l : Fin 3) (i T : Nat) (e : LastEntry), s.hw.lastRun l = true → (s.hw.lastOf l).first = none → (s.hw.lastOf l).occ = none → s.hw.nextEntry l = some (i, e) → e.type ≠ 4 ∧ e.type ≠ 5 → s.hw.linkAvailable l = true → T = ntAdd (s.hw.lastOf l).start (ntOfMicros e.start) → (s.hw.advanceToNt T).ntReached T = true → Gives (.lastEntryStart l) s fun h =>
        (∃ o ∈ (h.lastOf l).occ, o.phase = .check ∧ o.start = T ∧
          o.list = (List.range e.nusr).map fun n => (s.hw.word (R.LAST_LIST l (s.hw.lastActive l) (e.list + n))).toNat) ∧
        h.get (R.LAST_STAT_IN_ENTRY l) = 1 ∧ h.get (R.LAST_STAT_ENTRY l) = i % 4096 ∧ MemKept s.hw h) ∧
    (∀ (l : Fin 3) (fit T : Nat) (o : Occurrence), (s.hw.lastOf l).occ = some o → o.phase = .check → s.hw.idleSince l ≤ o.startEt → s.hw.mediumIdle l = true → s.hw.linkAvailable l = true → s.hw.exchange l = none → T = ntAdd o.start (ntOfNanos (s.hw.pifs l)) → (s.hw.advanceToNt T).ntReached T = true → Gives (.clearCheckEnd l fit) s fun h =>
        ((h.lastOf l).occ.any fun p => p.phase == .committed && p.startEt == (s.hw.advanceToNt T).et) = true ∧ MemKept s.hw h) ∧
    (∀ (l : Fin 3) (fit T : Nat) (o : Occurrence), (s.hw.lastOf l).occ = some o → o.phase = .check → o.type = 3 → 0 < s.hw.get (R.LAST_BCN_LEN_LEN l) → s.hw.idleSince l ≤ o.startEt → s.hw.mediumIdle l = true → s.hw.linkAvailable l = true → s.hw.exchange l = none → T = ntAdd o.start (ntOfNanos (s.hw.pifs l)) → (s.hw.advanceToNt T).ntReached T = true → Gives (.clearCheckEnd l fit) s fun h =>
        h.exchange l = some ⟨.beacon, 3, [], false, false, false, true, false, [], [], [], 0, some (entryOf o.words).bw⟩ ∧ RegsKept [] s.hw h ∧ MemKept s.hw h) ∧
    (∀ (l : Fin 3) (fit : Nat) (o : Occurrence), (s.hw.lastOf l).occ = some o → o.phase = .check → o.foreign = false → s.hw.idleSince l ≤ o.startEt → s.hw.mediumIdle l = false → Gives (.clearCheckEnd l fit) s fun h =>
        h.get (R.LAST_CNT_0_FOREIGN l) = min (s.hw.get (R.LAST_CNT_0_FOREIGN l) + 1) 65535 ∧ (h.lastOf l).occ = some { o with foreign := true } ∧ RegsKept [R.LAST_CNT_0 l] s.hw h ∧ MemKept s.hw h) ∧
    (∀ (l : Fin 3) (fit : Nat) (o : Occurrence), (s.hw.lastOf l).occ = some o → o.phase = .check → o.foreign = false → o.startEt < s.hw.idleSince l → s.hw.mediumIdle l = true → s.hw.linkAvailable l = true → s.hw.exchange l = none → Gives (.clearCheckEnd l fit) s fun h =>
        ((h.lastOf l).occ.any fun p => p.phase == .committed && p.foreign && p.startEt == (s.hw.advanceTo (s.hw.idleSince l + s.hw.pifs l)).et) = true ∧
        h.get (R.LAST_CNT_0_FOREIGN l) = min (s.hw.get (R.LAST_CNT_0_FOREIGN l) + 1) 65535 ∧ MemKept s.hw h) ∧
    (∀ (l : Fin 3) (delay a : Nat) (o : Occurrence), (s.hw.lastOf l).occ = some o → o.phase = .committed → a = (match (s.hw.slice l).tx with | some p => max (o.startEt + 10000) p.t0 | none => if (s.hw.exchange l).isSome && (s.hw.slice l).held.isNone then o.startEt + 10000 + delay else o.startEt + 10000) → Gives (.firstPpduStart l delay) s fun h =>
        ((h.lastOf l).occ.any fun p => p.phase == (if o.type = 3 then OccPhase.open else OccPhase.serving)) = true ∧ h.et = (s.hw.advanceTo a).et ∧
        h.get (R.LAST_CNT_1_LATE l) = (if o.startEt + 10000 < a then min (s.hw.get (R.LAST_CNT_1_LATE l) + 1) 65535 else s.hw.get (R.LAST_CNT_1_LATE l)) ∧
        h.get (R.LAST_CNT_3_CAPACITY l) = (if 0 < o.unfit then min (s.hw.get (R.LAST_CNT_3_CAPACITY l) + 1) 65535 else s.hw.get (R.LAST_CNT_3_CAPACITY l)) ∧
        h.get (R.LAST_CNT_2_EMPTY l) = (if o.reserved = true ∧ o.list.length ≤ o.position ∧ o.unfit = 0 then min (s.hw.get (R.LAST_CNT_2_EMPTY l) + 1) 65535 else s.hw.get (R.LAST_CNT_2_EMPTY l)) ∧
        RegsKept [R.LAST_CNT_1 l, R.LAST_CNT_2 l, R.LAST_CNT_3 l] s.hw h ∧ MemKept s.hw h) ∧
    (∀ (l : Fin 3) (o : Occurrence) (T : Nat), (s.hw.lastOf l).occ = some o → s.hw.exchange l = none → T = ntAdd o.start (ntOfMicros (entryOf o.words).dur) → (s.hw.advanceToNt T).ntReached T = true → Gives (.lastEntryEnd l) s fun h =>
        (h.lastOf l).occ = none ∧ h.get (R.LAST_STAT_IN_ENTRY l) = 0 ∧ (h.slice l).calWindow = none ∧
        h.get (R.LAST_CNT_2_CAL_UNUSED l) = (if (s.hw.slice l).calWindow.isSome = true then min (s.hw.get (R.LAST_CNT_2_CAL_UNUSED l) + 1) 65535 else s.hw.get (R.LAST_CNT_2_CAL_UNUSED l)) ∧ RegsKept [R.LAST_STAT l, R.LAST_CNT_2 l] s.hw h ∧ MemKept s.hw h) ∧
    (∀ (l : Fin 3) (o : Occurrence) (e : Exchange) (T : Nat), (s.hw.lastOf l).occ = some o → s.hw.exchange l = some e → e.reserved = true → e.awaits = false → (s.hw.slice l).tx = none → kget s.hw.txStatus l = none → T = ntAdd o.start (ntOfMicros (entryOf o.words).dur) → (s.hw.advanceToNt T).ntReached T = true → Gives (.lastEntryEnd l) s fun h =>
        (h.lastOf l).occ = none ∧ h.get (R.LAST_STAT_IN_ENTRY l) = 0 ∧ h.exchange l = none ∧ (h.slice l).held = none ∧ MemKept s.hw h)

/-- The arithmetic instructions (R253 to R255), C and V stated by the ranges of the exact results. Logic, shifts, fields (R256, R257, R259) and CRC (R276). -/
def Obligations.AwlArithmeticLogicAndFields : Prop :=
  ∀ s : State, s.hw.mainUp = true → 
    (∀ (t : Fin 256) (w : Word) (a b : Dword), s.hw.issues t .add w = true → a = (s.hw.thread t).a w → b = (s.hw.thread t).b w → Gives (.add t) s fun h =>
        Computes s.hw h t (rdOf w) (a + b)
          (if flagsOn w then some (a + b == 0, (a + b).msb, decide (2 ^ 64 ≤ a.toNat + b.toNat), !inSigned64 (a.toInt + b.toInt)) else none)) ∧
    (∀ (t : Fin 256) (w : Word) (a b : Dword), s.hw.issues t .sub w = true → a = (s.hw.thread t).a w → b = (s.hw.thread t).b w → Gives (.sub t) s fun h =>
        Computes s.hw h t (rdOf w) (a - b)
          (if flagsOn w then some (a - b == 0, (a - b).msb, decide (b.toNat ≤ a.toNat), !inSigned64 (a.toInt - b.toInt)) else none)) ∧
    (∀ (t : Fin 256) (w : Word) (a b : Dword), s.hw.issues t .cmp w = true → a = (s.hw.thread t).a w → b = (s.hw.thread t).b w → Gives (.cmp t) s fun h =>
        Computes s.hw h t (rdOf w) 0
          (some (a - b == 0, (a - b).msb, decide (b.toNat ≤ a.toNat), !inSigned64 (a.toInt - b.toInt)))) ∧
    (∀ (t : Fin 256) (w : Word) (a b : Dword) (x r : Int), s.hw.issues t .adds w = true → a = (s.hw.thread t).a w → b = (s.hw.thread t).bSat w → x = (if satU w then (a.toNat : Int) + b.toNat else a.toInt + b.toInt) → r = (if satU w then min (2 ^ 64 - 1) (max 0 x) else min (2 ^ 63 - 1) (max (-(2 ^ 63)) x)) → Gives (.adds t) s fun h =>
        Computes s.hw h t (rdOf w) (BitVec.ofInt 64 r)
          (if flagsOn w then some (BitVec.ofInt 64 r == 0, (BitVec.ofInt 64 r).msb, false, decide (r ≠ x)) else none)) ∧
    (∀ (t : Fin 256) (w : Word) (a b : Dword) (x r : Int), s.hw.issues t .subs w = true → a = (s.hw.thread t).a w → b = (s.hw.thread t).bSat w → x = (if satU w then (a.toNat : Int) - b.toNat else a.toInt - b.toInt) → r = (if satU w then min (2 ^ 64 - 1) (max 0 x) else min (2 ^ 63 - 1) (max (-(2 ^ 63)) x)) → Gives (.subs t) s fun h =>
        Computes s.hw h t (rdOf w) (BitVec.ofInt 64 r)
          (if flagsOn w then some (BitVec.ofInt 64 r == 0, (BitVec.ofInt 64 r).msb, false, decide (r ≠ x)) else none)) ∧
    (∀ (t : Fin 256) (w : Word) (a b : Dword), s.hw.issues t .mul w = true → a = (s.hw.thread t).a w → b = (s.hw.thread t).b w → Gives (.mul t) s fun h =>
        Computes s.hw h t (rdOf w) (a * b)
          (if flagsOn w then some (a * b == 0, (a * b).msb, decide (2 ^ 64 ≤ a.toNat * b.toNat), !inSigned64 (a.toInt * b.toInt)) else none)) ∧
    (∀ (t : Fin 256) (w : Word) (a b : Dword) (r : Int), s.hw.issues t .mulh w = true → a = (s.hw.thread t).a w → b = (s.hw.thread t).b w → r = (if uOf w then (a.toNat : Int) * b.toNat else a.toInt * b.toInt) / 2 ^ 64 → Gives (.mulh t) s fun h =>
        Computes s.hw h t (rdOf w) (BitVec.ofInt 64 r)
          (if flagsOn w then some (BitVec.ofInt 64 r == 0, (BitVec.ofInt 64 r).msb, false, false) else none)) ∧
    (∀ (t : Fin 256) (w : Word) (a b : Dword), s.hw.issues t .and w = true → a = (s.hw.thread t).a w → b = (if isImm w then BitVec.ofNat 64 (immOf w) else (s.hw.thread t).reg (rbOf w)) → Gives (.and t) s fun h =>
        Computes s.hw h t (rdOf w) (a &&& b)
          (if flagsOn w then some (a &&& b == 0, (a &&& b).msb, false, false) else none)) ∧
    (∀ (t : Fin 256) (w : Word) (a b : Dword), s.hw.issues t .or w = true → a = (s.hw.thread t).a w → b = (if isImm w then BitVec.ofNat 64 (immOf w * 2 ^ (16 * xOf w)) else (s.hw.thread t).reg (rbOf w)) → Gives (.or t) s fun h =>
        Computes s.hw h t (rdOf w) (a ||| b)
          (if !isImm w && fOf w then some (a ||| b == 0, (a ||| b).msb, false, false) else none)) ∧
    (∀ (t : Fin 256) (w : Word) (a b : Dword), s.hw.issues t .xor w = true → a = (s.hw.thread t).a w → b = (if isImm w then BitVec.ofNat 64 (immOf w * 2 ^ (16 * xOf w)) else (s.hw.thread t).reg (rbOf w)) → Gives (.xor t) s fun h =>
        Computes s.hw h t (rdOf w) (a ^^^ b)
          (if !isImm w && fOf w then some (a ^^^ b == 0, (a ^^^ b).msb, false, false) else none)) ∧
    (∀ (t : Fin 256) (w : Word) (a : Dword) (n : Nat), s.hw.issues t .shl w = true → a = (s.hw.thread t).a w → n = (s.hw.thread t).amount w → Gives (.shl t) s fun h =>
        Computes s.hw h t (rdOf w) (a <<< n)
          (if flagsOn w then some (a <<< n == 0, (a <<< n).msb, (decide (0 < n ∧ n ≤ 64) && a.getLsbD (64 - n)), false) else none)) ∧
    (∀ (t : Fin 256) (w : Word) (a : Dword) (n : Nat), s.hw.issues t .shr w = true → a = (s.hw.thread t).a w → n = (s.hw.thread t).amount w → Gives (.shr t) s fun h =>
        Computes s.hw h t (rdOf w) (a >>> n)
          (if flagsOn w then some (a >>> n == 0, (a >>> n).msb, (decide (0 < n ∧ n ≤ 64) && a.getLsbD (n - 1)), false) else none)) ∧
    (∀ (t : Fin 256) (w : Word) (a : Dword) (n : Nat), s.hw.issues t .shra w = true → a = (s.hw.thread t).a w → n = (s.hw.thread t).amount w → Gives (.shra t) s fun h =>
        Computes s.hw h t (rdOf w) (BitVec.ofInt 64 (a.toInt / 2 ^ n))
          (if flagsOn w then some (BitVec.ofInt 64 (a.toInt / 2 ^ n) == 0, (BitVec.ofInt 64 (a.toInt / 2 ^ n)).msb, (decide (0 < n) && (if n ≤ 64 then a.getLsbD (n - 1) else a.msb)), false) else none)) ∧
    (∀ (t : Fin 256) (w : Word) (a : Dword), s.hw.issues t .bfx w = true → a = (s.hw.thread t).a w → Gives (.bfx t) s fun h =>
        Computes s.hw h t (rdOf w) (if sxOf w then ((a >>> posOf w).setWidth (lenOf w)).signExtend 64 else ((a >>> posOf w).setWidth (lenOf w)).setWidth 64) none) ∧
    (∀ (t : Fin 256) (w : Word) (a : Dword) (d : Dword), s.hw.issues t .bfi w = true → a = (s.hw.thread t).a w → d = (s.hw.thread t).reg (rdOf w) → Gives (.bfi t) s fun h =>
        Computes s.hw h t (rdOf w) (BitVec.ofNat 64 (d.toNat - d.toNat / 2 ^ posOf w % 2 ^ lenOf w * 2 ^ posOf w + a.toNat % 2 ^ lenOf w * 2 ^ posOf w)) none) ∧
    (∀ (t : Fin 256) (w : Word) (a : Dword) (n : Nat), s.hw.issues t .crc w = true → a = (s.hw.thread t).a w → n = ((s.hw.thread t).reg (rbOf w)).toNat → 1 ≤ n ∧ n ≤ 8 → Gives (.crc t) s fun h =>
        Computes s.hw h t (rdOf w) ((awlCrc (crcPoly (uOf w)) (((s.hw.thread t).reg (rdOf w)).truncate 32) a n).zeroExtend 64) none)

/-- R258 and R277, whole. -/
def Obligations.CountingBitsAndHashing : Prop :=
  ∀ s : State, s.hw.mainUp = true → 
    (∀ (t : Fin 256) (w : Word) (a : Dword) (r : Dword), s.hw.issues t .clz w = true → a = (s.hw.thread t).a w → r.toNat ≤ 64 ∧ (∀ i < 64, 64 ≤ i + r.toNat → a.getLsbD i = false) ∧ (r.toNat < 64 → a.getLsbD (63 - r.toNat) = true) → Gives (.clz t) s fun h =>
        Computes s.hw h t (rdOf w) r
          (if flagsOn w then some (r == 0, (r).msb, a == 0, false) else none)) ∧
    (∀ (t : Fin 256) (w : Word) (a : Dword) (r : Dword), s.hw.issues t .popc w = true → a = (s.hw.thread t).a w → r.toNat = ((List.range 64).countP fun i => a.getLsbD i) → Gives (.popc t) s fun h =>
        Computes s.hw h t (rdOf w) r
          (if flagsOn w then some (r == 0, (r).msb, false, false) else none)) ∧
    (∀ (t : Fin 256) (w : Word) (a b : Dword) (x : Dword), s.hw.issues t .hash w = true → a = (s.hw.thread t).a w → b = (s.hw.thread t).reg (rbOf w) → x.toNat = (a ^^^ b).toNat * 0x9E3779B97F4A7C15 % 2 ^ 64 → Gives (.hash t) s fun h =>
        Computes s.hw h t (rdOf w) (x ^^^ x >>> 32) none) ∧
    (∀ (t : Fin 256) (w : Word), s.hw.issues t .hash w = true → (s.hw.thread t).a w = 0 → (s.hw.thread t).reg (rbOf w) = 1 → Gives (.hash t) s fun h =>
        Computes s.hw h t (rdOf w) 0x9E3779B9E17D05AC none)

/-- Issue, exceptions and control (R236, R248, R260 to R263, R268, R269). -/
def Obligations.AwlExceptionsAndControl : Prop :=
  ∀ s : State, s.hw.mainUp = true → 
    (∀ (t : Fin 256) (w : Word) (k : AwlKind), ¬ (s.hw.issuer (t / 4) = some t.val ∧ kindOf w = some k) → w = s.hw.fetched t → Gives (awlRow t k) s fun h =>
        Unchanged s.hw h) ∧
    (∀ (t : Fin 256) (w : Word) (k : AwlKind), s.hw.issuer (t / 4) = some t.val → w = s.hw.fetched t → kindOf w = some k → validWord k w = false → s.hw.atLimit t = false → s.hw.mayRecord t = true → Gives (awlRow t k) s fun h =>
        Excepts s.hw h t 1 w 0 0) ∧
    (∀ (t : Fin 256) (w : Word) (k : AwlKind), s.hw.issuer (t / 4) = some t.val → w = s.hw.fetched t → kindOf w = some k → k ≠ .bcond ∧ k ≠ .call ∧ k ≠ .ret → (s.hw.thread t).pc ≠ 0x1FFFC → s.hw.atLimit t = true → s.hw.mayRecord t = true → Gives (awlRow t k) s fun h =>
        Excepts s.hw h t 3 w 0 0) ∧
    (∀ (t : Fin 256) (w : Word) (k : AwlKind), s.hw.issuer (t / 4) = some t.val → w = s.hw.fetched t → kindOf w = some k → validWord k w = true → k ≠ .bcond → continues k false = true → (s.hw.thread t).pc = 0x1FFFC → s.hw.mayRecord t = true → Gives (awlRow t k) s fun h =>
        Excepts s.hw h t 2 w 0x20000 0) ∧
    (∀ (t : Fin 256) (w : Word), s.hw.issuer (t / 4) = some t.val → w = s.hw.fetched t → kindOf w = none → s.hw.atLimit t = false → s.hw.mayRecord t = true → Gives (.illegalInstructionWord t) s fun h =>
        Excepts s.hw h t 1 w 0 0) ∧
    (∀ (t : Fin 256) (w : Word) (x : Int), s.hw.issuesAny t .bcond w = true → awlCond (rdOf w) (s.hw.thread t).z (s.hw.thread t).n (s.hw.thread t).c (s.hw.thread t).v = some true → x = (s.hw.thread t).pc + 4 * offB w → 0 ≤ x ∧ x ≤ 0x1FFFC ∧ x % 4 = 0 → Gives (.bCond t) s fun h =>
        Steps s.hw h t [] none x.toNat) ∧
    (∀ (t : Fin 256) (w : Word), s.hw.issues t .bcond w = true → awlCond (rdOf w) (s.hw.thread t).z (s.hw.thread t).n (s.hw.thread t).c (s.hw.thread t).v = some false → Gives (.bCond t) s fun h =>
        Steps s.hw h t [] none ((s.hw.thread t).pc + 4)) ∧
    (∀ (t : Fin 256) (w : Word) (x : Int), s.hw.issuesAny t .call w = true → x = (s.hw.thread t).pc + 4 * offC w → 0 ≤ x ∧ x ≤ 0x1FFFC ∧ x % 4 = 0 → Gives (.call t) s fun h =>
        Steps s.hw h t [(15, BitVec.ofNat 64 ((s.hw.thread t).pc + 4))] none x.toNat) ∧
    (∀ (t : Fin 256) (w : Word) (x : Int), s.hw.issuesAny t .call w = true → x = (s.hw.thread t).pc + 4 * offC w → ¬ (0 ≤ x ∧ x ≤ 0x1FFFC ∧ x % 4 = 0) → s.hw.mayRecord t = true → Gives (.call t) s fun h =>
        Excepts s.hw h t 2 w (x % 2 ^ 64).toNat 0) ∧
    (∀ (t : Fin 256) (w : Word) (x : Nat), s.hw.issuesAny t .ret w = true → x = ((s.hw.thread t).a w).toNat → x ≤ 0x1FFFC ∧ x % 4 = 0 → Gives (.ret t) s fun h =>
        Steps s.hw h t [] none x) ∧
    (∀ (t : Fin 256) (w : Word), s.hw.issues t .yield w = true → (s.hw.thread t).frame = none → (s.hw.thread t).locks = [] → Gives (.yield t) s fun h =>
        h.threadState t = 0 ∧ Wrote s.hw h t [] none ((s.hw.thread t).pc + 4) ∧ OthersKept t s.hw h ∧
        RegsKept [R.AWL_THR_STAT (t / 4) (t % 4)] s.hw h ∧ MemKept s.hw h) ∧
    (∀ (t : Fin 256) (w : Word), s.hw.issues t .yield w = true → (s.hw.thread t).frame.isSome = true → s.hw.mayRecord t = true → Gives (.yield t) s fun h =>
        Excepts s.hw h t 9 w 0 0) ∧
    (∀ (t : Fin 256) (w : Word), s.hw.issues t .yield w = true → (s.hw.thread t).frame = none → (s.hw.thread t).locks ≠ [] → s.hw.mayRecord t = true → Gives (.yield t) s fun h =>
        Excepts s.hw h t 20 w 0 0) ∧
    (∀ (t : Fin 256) (w : Word), s.hw.issuesAny t .trap w = true → s.hw.mayRecord t = true → Gives (.trap t) s fun h =>
        Excepts s.hw h t 8 w 0 (immOf w)) ∧
    (∀ (t : Fin 256) (w : Word), s.hw.issuesAny t .halt w = true → s.hw.mayRecord t = true → Gives (.halt t) s fun h =>
        Excepts s.hw h t 10 w 0 0) ∧
    (∀ (t : Fin 256) (w : Word), s.hw.issuesAny t .trap w = true → s.hw.flag (R.AWL_THR_STAT_EXC_EV (t / 4) (t % 4)) = true → ((s.hw.thread t).locks.all fun i => decide (i < 1024)) = true → Gives (.trap t) s fun h =>
        h.get (R.AWL_THR_STAT_OVF (t / 4) (t % 4)) = 1 ∧ h.get (R.AWL_THR_STAT_CODE (t / 4) (t % 4)) = s.hw.get (R.AWL_THR_STAT_CODE (t / 4) (t % 4)) ∧
        h.word (R.AWL_EXC_PC (t / 4) (t % 4)) = s.hw.word (R.AWL_EXC_PC (t / 4) (t % 4)) ∧ h.word (R.AWL_EXC_INSN (t / 4) (t % 4)) = s.hw.word (R.AWL_EXC_INSN (t / 4) (t % 4)) ∧ MemKept s.hw h) ∧
    (∀ (e : Fin 64) (k : Fin 4) (n : Nat), n = 4 * e.val + k.val → s.hw.threadState n = 3 ∨ s.hw.threadState n = 4 → s.hw.engineState e ≠ 3 → s.hw.pushersOf (mailboxOf n) = [] → Gives (.thrRestart e k) s fun h =>
        h.threadState n = 0 ∧ h.thread n = AwlThread.initial ∧ h.wordsOf (mailboxOf n) = [] ∧ RegsKept [R.AWL_THR_STAT e k, R.SHK_LOCK_STAT (match (s.hw.thread n).on with | .lock _ i => i | _ => 0)] s.hw h ∧ MemKept s.hw h) ∧
    (∀ (e : Fin 64) (k : Fin 4) (n : Nat), n = 4 * e.val + k.val → s.hw.engineState e = 3 ∨ (s.hw.threadState n ≠ 3 ∧ s.hw.threadState n ≠ 4) → Gives (.thrRestart e k) s fun h =>
        h.get (R.AWL_THR_STAT_CMD_ERR e k) = 1 ∧ OnlyRegs [R.AWL_THR_STAT e k] s.hw h) ∧
    (∀ (e : Fin 64) (k : Fin 4) (entry : BitVec 15) (n : Nat), n = 4 * e.val + k.val → s.hw.threadState n = 0 → s.hw.engineState e = 2 → expressThread n = false → Gives (.thrStart e k entry) s fun h =>
        h.threadState n = 1 ∧ (h.thread n).pc = 4 * entry.toNat ∧ (h.thread n).reg 1 = 0 ∧ (h.thread n).reg 2 = BitVec.ofNat 64 (s.hw.identity n false) ∧
        (∀ q < 16, q ≠ 2 → (h.thread n).reg q = 0) ∧ (h.thread n).flags = (false, false, false, false) ∧ OthersKept n s.hw h ∧
        RegsKept [R.AWL_THR_STAT e k] s.hw h ∧ MemKept s.hw h) ∧
    (∀ (e : Fin 64) (k : Fin 4) (entry : BitVec 15) (n : Nat), n = 4 * e.val + k.val → s.hw.threadState n ≠ 0 ∨ s.hw.engineState e ≠ 2 ∨ expressThread n = true → Gives (.thrStart e k entry) s fun h =>
        h.get (R.AWL_THR_STAT_CMD_ERR e k) = 1 ∧ OnlyRegs [R.AWL_THR_STAT e k] s.hw h) ∧
    (∀ (c : Fin 8) (bits : BitVec 8), Gives (.evtSet c bits) s fun h =>
        (∀ i < 32, h.thread (32 * c + i) = { s.hw.thread (32 * c + i) with events := Nat.lor (s.hw.thread (32 * c + i)).events bits.toNat }) ∧
        (∀ u < 256, u / 32 ≠ c.val → h.thread u = s.hw.thread u) ∧ RegsKept [] s.hw h ∧ MemKept s.hw h)

/-- Memory instructions and their completion (R237, R241 to R244, R274, R275). -/
def Obligations.AwlLoadsStoresAndWaits : Prop :=
  ∀ s : State, s.hw.mainUp = true → 
    (∀ (t : Fin 256) (w : Word) (a p : Nat), s.hw.issues t .ld w = true → a = ((s.hw.thread t).formed w).toNat → a < 2 ^ 40 ∧ a % accessSize w = 0 → placeOf t a = .here p → Gives (.ld t) s fun h =>
        Computes s.hw h t (rdOf w) (BitVec.ofNat 64 (s.hw.memLE p (accessSize w))) none) ∧
    (∀ (t : Fin 256) (w : Word) (a p : Nat), s.hw.issues t .st w = true → a = ((s.hw.thread t).formed w).toNat → a < 2 ^ 40 ∧ a % accessSize w = 0 → placeOf t a = .here p → inInstructionMemory p = false → Gives (.st t) s fun h =>
        h.memLE p (accessSize w) = ((s.hw.thread t).reg (rdOf w)).toNat % 2 ^ (8 * accessSize w) ∧ MemKeptBut p (accessSize w) s.hw h ∧
        Wrote s.hw h t [] none ((s.hw.thread t).pc + 4) ∧ OthersKept t s.hw h ∧ RegsKept [] s.hw h) ∧
    (∀ (t : Fin 256) (w : Word) (a g : Nat), s.hw.issues t .ld w = true → a = ((s.hw.thread t).formed w).toNat → a < 2 ^ 40 ∧ a % accessSize w = 0 → placeOf t a = .shank → targetOf a = some g → Gives (.ld t) s fun h =>
        Waits s.hw h t (.access (rdOf w) (accessSize w) true) ∧ RegsKept [R.AWL_THR_STAT (t / 4) (t % 4)] s.hw h ∧ MemKept s.hw h ∧
        ((h.arbiter g).waiting.getLast?.any fun r => r.master == 8 + t.val / 32 && r.thread == some t.val && r.addr == a && r.size == accessSize w && r.data == none) = true) ∧
    (∀ (t : Fin 256) (w : Word) (a g : Nat), s.hw.issues t .st w = true → a = ((s.hw.thread t).formed w).toNat → a < 2 ^ 40 ∧ a % accessSize w = 0 → placeOf t a = .shank → targetOf a = some g → Gives (.st t) s fun h =>
        Waits s.hw h t (.access (rdOf w) (accessSize w) false) ∧ RegsKept [R.AWL_THR_STAT (t / 4) (t % 4)] s.hw h ∧ MemKept s.hw h ∧
        ((h.arbiter g).waiting.getLast?.any fun r => r.master == 8 + t.val / 32 && r.thread == some t.val && r.addr == a && r.size == accessSize w &&
          r.data == some (bytesLE (accessSize w) ((s.hw.thread t).reg (rdOf w)).toNat)) = true) ∧
    (∀ (t : Fin 256) (w : Word) (a : Nat) (k : AwlKind), k = .ld ∨ k = .st → s.hw.issues t k w = true → a = ((s.hw.thread t).formed w).toNat → 2 ^ 40 ≤ a → s.hw.mayRecord t = true → Gives (awlRow t k) s fun h =>
        Excepts s.hw h t 4 w a 0) ∧
    (∀ (t : Fin 256) (w : Word) (a : Nat) (k : AwlKind), k = .ld ∨ k = .st → s.hw.issues t k w = true → a = ((s.hw.thread t).formed w).toNat → a < 2 ^ 40 ∧ a % accessSize w ≠ 0 → s.hw.mayRecord t = true → Gives (awlRow t k) s fun h =>
        Excepts s.hw h t 5 w a 0) ∧
    (∀ (t : Fin 256) (w : Word) (a : Nat) (k : AwlKind), k = .ld ∨ k = .st → s.hw.issues t k w = true → a = ((s.hw.thread t).formed w).toNat → a < 2 ^ 40 ∧ a % accessSize w = 0 → placeOf t a = .reserved → s.hw.mayRecord t = true → Gives (awlRow t k) s fun h =>
        Excepts s.hw h t 6 w a 0) ∧
    (∀ (t : Fin 256) (w : Word) (a p : Nat), s.hw.issues t .st w = true → a = ((s.hw.thread t).formed w).toNat → a < 2 ^ 40 ∧ a % accessSize w = 0 → placeOf t a = .here p → inInstructionMemory p = true → s.hw.mayRecord t = true → Gives (.st t) s fun h =>
        Excepts s.hw h t 6 w a 0) ∧
    (∀ (t : Fin 256) (w : Word) (k : AwlKind), k = .ldp ∨ k = .stp → s.hw.issues t k w = true → (s.hw.thread t).frame = none → s.hw.mayRecord t = true → Gives (awlRow t k) s fun h =>
        Excepts s.hw h t 16 w 0 0) ∧
    (∀ (t : Fin 256) (w : Word) (k : AwlKind) (f : Nat) (o : Int), k = .ldp ∨ k = .stp → s.hw.issues t k w = true → (s.hw.thread t).frame = some f → o = ((s.hw.thread t).a w).toInt + offM w → o < -64 ∨ ((s.hw.frame f).len : Int) < o + accessSize w → s.hw.mayRecord t = true → Gives (awlRow t k) s fun h =>
        Excepts s.hw h t 17 w 0 0) ∧
    (∀ (t : Fin 256) (w : Word) (f : Nat) (o : Int), s.hw.issues t .ldp w = true → (s.hw.thread t).frame = some f → o = ((s.hw.thread t).a w).toInt + offM w → -64 ≤ o ∧ o + accessSize w ≤ (s.hw.frame f).len ∧ o + accessSize w ≤ 128 → Gives (.ldp t) s fun h =>
        Computes s.hw h t (rdOf w) (BitVec.ofNat 64 (ofBytesBE ((List.range (accessSize w)).map fun i => s.hw.byte (headSlot t + (o + i + 64).toNat)))) none) ∧
    (∀ (t : Fin 256) (w : Word) (f : Nat) (o : Int) (a n g k : Nat), s.hw.issues t .ldp w = true → (s.hw.thread t).frame = some f → o = ((s.hw.thread t).a w).toInt + offM w → -64 ≤ o ∧ o + accessSize w ≤ (s.hw.frame f).len ∧ 128 < o + accessSize w → k = (128 - o).toNat → a = (s.hw.frame f).addrOf (o + k) → n = min (accessSize w - k) (256 - (o + k + 64).toNat % 256) → targetOf a = some g → Gives (.ldp t) s fun h =>
        Waits s.hw h t (.packet false) ∧ RegsKept [R.AWL_THR_STAT (t / 4) (t % 4)] s.hw h ∧ MemKept s.hw h ∧
        ((h.arbiter g).waiting.getLast?.any fun r => r.master == 8 + t.val / 32 && r.thread == some t.val && r.addr == a && r.size == n && r.data == none) = true) ∧
    (∀ (t : Fin 256) (w : Word) (f : Nat) (o : Int) (a n g k : Nat), s.hw.issues t .stp w = true → (s.hw.thread t).frame = some f → o = ((s.hw.thread t).a w).toInt + offM w → -64 ≤ o ∧ o + accessSize w ≤ (s.hw.frame f).len ∧ 128 < o + accessSize w → k = (128 - o).toNat → a = (s.hw.frame f).addrOf (o + k) → n = min (accessSize w - k) (256 - (o + k + 64).toNat % 256) → targetOf a = some g → Gives (.stp t) s fun h =>
        Waits s.hw h t (.packet true) ∧ RegsKept [R.AWL_THR_STAT (t / 4) (t % 4)] s.hw h ∧ MemKept s.hw h ∧
        ((h.arbiter g).waiting.getLast?.any fun r => r.master == 8 + t.val / 32 && r.thread == some t.val && r.addr == a && r.size == n && r.data == some (((bytesBE (accessSize w) ((s.hw.thread t).reg (rdOf w)).toNat).drop k).take n)) = true) ∧
    (∀ (t : Fin 256) (w : Word) (f : Nat) (o : Int), s.hw.issues t .stp w = true → (s.hw.thread t).frame = some f → o = ((s.hw.thread t).a w).toInt + offM w → -64 ≤ o ∧ o + accessSize w ≤ (s.hw.frame f).len ∧ o + accessSize w ≤ 128 → Gives (.stp t) s fun h =>
        h.bytes (headSlot t + (o + 64).toNat) (accessSize w) = bytesBE (accessSize w) ((s.hw.thread t).reg (rdOf w)).toNat ∧
        MemKeptBut (headSlot t + (o + 64).toNat) (accessSize w) s.hw h ∧ (h.thread t).dirty = Nat.lor (s.hw.thread t).dirty (headLines o (accessSize w)) ∧
        Wrote s.hw h t [] none ((s.hw.thread t).pc + 4) ∧ OthersKept t s.hw h ∧ RegsKept [] s.hw h) ∧
    (∀ (t : Fin 32) (u : Fin 256) (r : GrantRule) (q : Request) (f : Nat) (o : Int) (pre : Bool), s.hw.grantChoice t = some (r, q) → q.thread = some u.val → q.data = none → (s.hw.thread u).on = .packet false → (s.hw.thread u).frame = some f → o = (s.hw.thread u).packetOffset (s.hw.thread u).insn → s.hw.packetFault u (s.hw.frame f) o (accessSize (s.hw.thread u).insn) false = none → s.hw.permits t q.master q.addr false = true → isRegister q.addr = false → s.hw.memoryAt q.addr = true → Gives (.arbiterGrant (t.castLE (by decide)) pre .clean) s fun h =>
        (h.thread u).on = .done ⟨rdOf (s.hw.thread u).insn, some (BitVec.ofNat 64 (ofBytesBE ((List.range (accessSize (s.hw.thread u).insn)).map fun i => s.hw.byte (packetAddr u (s.hw.frame f) (o + i))))), none, 0⟩ ∧
        RegsKept [R.SHK_ARB_STAT t] s.hw h ∧ MemKept s.hw h) ∧
    (∀ (t : Fin 32) (u : Fin 256) (r : GrantRule) (q : Request) (f : Nat) (o : Int) (pre : Bool), s.hw.grantChoice t = some (r, q) → q.thread = some u.val → q.data = some (bytesBE (accessSize (s.hw.thread u).insn) ((s.hw.thread u).reg (rdOf (s.hw.thread u).insn)).toNat) → (s.hw.thread u).on = .packet true → (s.hw.thread u).frame = some f → o = (s.hw.thread u).packetOffset (s.hw.thread u).insn → 128 ≤ o → ∀ i < accessSize (s.hw.thread u).insn, (s.hw.frame f).addrOf (o + i) = q.addr + i → s.hw.packetFault u (s.hw.frame f) o (accessSize (s.hw.thread u).insn) true = none → s.hw.permits t q.master q.addr true = true → isRegister q.addr = false → s.hw.memoryAt q.addr = true → Gives (.arbiterGrant (t.castLE (by decide)) pre .clean) s fun h =>
        (h.thread u).on = .done ⟨0, none, none, 0⟩ ∧ h.bytes q.addr (accessSize (s.hw.thread u).insn) = bytesBE (accessSize (s.hw.thread u).insn) ((s.hw.thread u).reg (rdOf (s.hw.thread u).insn)).toNat ∧
        MemKeptBut q.addr (accessSize (s.hw.thread u).insn) s.hw h ∧ RegsKept [R.SHK_ARB_STAT t] s.hw h) ∧
    (∀ (t : Fin 256) (r : Reply), (s.hw.thread t).on = .done r → s.hw.threadState t = 2 → r.bus = 0 → Gives (.longLatencyComplete t) s fun h =>
        Resumes s.hw h t (match r.value with | some v => [(r.rd, v)] | none => []) (r.z.map fun z => (z, false, false, false)) ∧ OthersKept t s.hw h ∧
        RegsKept [R.AWL_THR_STAT (t / 4) (t % 4)] s.hw h ∧ MemKept s.hw h) ∧
    (∀ (t : Fin 256) (r : Reply), (s.hw.thread t).on = .done r → s.hw.threadState t = 2 → r.bus ≠ 0 → s.hw.mayRecord t = true → Gives (.longLatencyComplete t) s fun h =>
        Excepts s.hw h t 7 (s.hw.thread t).insn (s.hw.thread t).addr (2 ^ 16 * r.bus))

/-- Queues, locks and signals of the engines (R261, R278 to R284, R491 to R493). -/
def Obligations.AwlQueuesAndLocks : Prop :=
  ∀ s : State, s.hw.mainUp = true → 
    (∀ (t : Fin 256) (w : Word), s.hw.issues t .qpush w = true → Gives (.qpush t) s fun h =>
        Waits s.hw h t .unit ∧ RegsKept [R.AWL_THR_STAT (t / 4) (t % 4)] s.hw h ∧ MemKept s.hw h ∧
        ((h.arbiter 45).waiting.getLast?.any fun r => r.master == 8 + t.val / 32 && r.thread == some t.val && r.addr == 0 && r.data.isSome == true) = true) ∧
    (∀ (t : Fin 256) (w : Word), s.hw.issues t .qpull w = true → Gives (.qpull t) s fun h =>
        Waits s.hw h t .unit ∧ RegsKept [R.AWL_THR_STAT (t / 4) (t % 4)] s.hw h ∧ MemKept s.hw h ∧
        ((h.arbiter 45).waiting.getLast?.any fun r => r.master == 8 + t.val / 32 && r.thread == some t.val && r.addr == 0 && r.data.isSome == true) = true) ∧
    (∀ (t : Fin 256) (w : Word), s.hw.issues t .qpeek w = true → Gives (.qpeek t) s fun h =>
        Waits s.hw h t .unit ∧ RegsKept [R.AWL_THR_STAT (t / 4) (t % 4)] s.hw h ∧ MemKept s.hw h ∧
        ((h.arbiter 45).waiting.getLast?.any fun r => r.master == 8 + t.val / 32 && r.thread == some t.val && r.addr == 0 && r.data.isSome == false) = true) ∧
    (∀ (t : Fin 256) (w : Word) (i : Nat), s.hw.issues t .lock w = true → i = (s.hw.thread t).lockId w → Gives (.lock t) s fun h =>
        Waits s.hw h t .unit ∧ RegsKept [R.AWL_THR_STAT (t / 4) (t % 4)] s.hw h ∧ MemKept s.hw h ∧
        ((h.arbiter 44).waiting.getLast?.any fun r => r.master == 8 + t.val / 32 && r.thread == some t.val && r.addr == (if i < 1024 then R.SHK_LOCK_ACQ i else 0) && r.data.isSome == false) = true) ∧
    (∀ (t : Fin 256) (w : Word) (i : Nat), s.hw.issues t .unlock w = true → i = (s.hw.thread t).lockId w → Gives (.unlock t) s fun h =>
        Waits s.hw h t .unit ∧ RegsKept [R.AWL_THR_STAT (t / 4) (t % 4)] s.hw h ∧ MemKept s.hw h ∧
        ((h.arbiter 44).waiting.getLast?.any fun r => r.master == 8 + t.val / 32 && r.thread == some t.val && r.addr == (if i < 1024 then R.SHK_LOCK_REL i else 0) && r.data.isSome == true) = true) ∧
    (∀ (t : Fin 256) (g : Fin 67) (q : Request) (r : GrantRule) (pre : Bool) (e : EccFinding), s.hw.grantChoice g = some (r, q) → q.thread = some t.val → (s.hw.thread t).on = .unit → s.hw.unitPermits g q.master q.addr q.data.isSome = false → Gives (.arbiterGrant g pre e) s fun h =>
        (h.thread t).on = .done ⟨0, none, none, 2⟩ ∧ Logged s.hw h q.master q.addr 2 q.data.isSome ∧ MemKept s.hw h) ∧
    (∀ (t : Fin 256) (w : Word) (pre : Bool) (e : EccFinding) (q : Nat), s.hw.unitGranted 45 t w .qpush = true → q = ((s.hw.thread t).a w).toNat → (isMailbox q || isWorkQueue q) = true → (s.hw.wordsOf q).length < queueDepth q → s.hw.pullersOf q = [] → Gives (.arbiterGrant 45 pre e) s fun h =>
        h.wordsOf q = s.hw.wordsOf q ++ [(s.hw.thread t).reg (rbOf w)] ∧ Waits s.hw h t (.done ⟨rdOf w, some 0, none, 0⟩) ∧
        RegsKept [R.SHK_ARB_STAT 45, R.AWL_THR_STAT (t / 4) (t % 4)] s.hw h ∧ MemKept s.hw h) ∧
    (∀ (t : Fin 256) (w : Word) (pre : Bool) (e : EccFinding) (q u rd x : Nat) (rest : List Nat), s.hw.unitGranted 45 t w .qpush = true → q = ((s.hw.thread t).a w).toNat → (isMailbox q || isWorkQueue q) = true → (s.hw.wordsOf q).length < queueDepth q → s.hw.pullersOf q = u :: rest → (s.hw.thread u).on = .pull rd x → u ≠ t → Gives (.arbiterGrant 45 pre e) s fun h =>
        h.wordsOf q = s.hw.wordsOf q ∧ h.pullersOf q = rest ∧ (h.thread u).on = .done ⟨rd, some ((s.hw.thread t).reg (rbOf w)), some false, 0⟩ ∧ Waits s.hw h t (.done ⟨rdOf w, some 0, none, 0⟩) ∧
        RegsKept [R.SHK_ARB_STAT 45, R.AWL_THR_STAT (t / 4) (t % 4)] s.hw h ∧ MemKept s.hw h) ∧
    (∀ (t : Fin 256) (w : Word) (pre : Bool) (e : EccFinding) (q : Nat), s.hw.unitGranted 45 t w .qpush = true → q = ((s.hw.thread t).a w).toNat → (isMailbox q || isWorkQueue q) = true → queueDepth q ≤ (s.hw.wordsOf q).length → s.hw.privileged t = true → Gives (.arbiterGrant 45 pre e) s fun h =>
        h.wordsOf q = s.hw.wordsOf q ∧ Waits s.hw h t (.done ⟨rdOf w, some 1, none, 0⟩) ∧
        RegsKept [R.SHK_ARB_STAT 45, R.AWL_THR_STAT (t / 4) (t % 4)] s.hw h ∧ MemKept s.hw h) ∧
    (∀ (t : Fin 256) (w : Word) (pre : Bool) (e : EccFinding) (q : Nat), s.hw.unitGranted 45 t w .qpush = true → q = ((s.hw.thread t).a w).toNat → (isMailbox q || isWorkQueue q) = true → queueDepth q ≤ (s.hw.wordsOf q).length → s.hw.privileged t = false → Gives (.arbiterGrant 45 pre e) s fun h =>
        h.wordsOf q = s.hw.wordsOf q ∧ h.pushersOf q = s.hw.pushersOf q ++ [t.val] ∧ Waits s.hw h t (.push (rdOf w) q ((s.hw.thread t).reg (rbOf w))) ∧
        RegsKept [R.SHK_ARB_STAT 45, R.AWL_THR_STAT (t / 4) (t % 4)] s.hw h ∧ MemKept s.hw h) ∧
    (∀ (t : Fin 256) (w : Word) (pre : Bool) (e : EccFinding) (q : Nat), s.hw.unitGranted 45 t w .qpush = true → q = ((s.hw.thread t).a w).toNat → q < 64 → s.hw.ringMode q = 0 → s.hw.ringState q = stClosed → Gives (.arbiterGrant 45 pre e) s fun h =>
        Waits s.hw h t (.done ⟨rdOf w, some 2, none, 0⟩) ∧
        RegsKept [R.SHK_ARB_STAT 45, R.AWL_THR_STAT (t / 4) (t % 4)] s.hw h ∧ MemKept s.hw h) ∧
    (∀ (t : Fin 256) (w : Word) (pre : Bool) (e : EccFinding) (q : Nat), s.hw.unitGranted 45 t w .qpush = true → q = ((s.hw.thread t).a w).toNat → 64 ≤ q → (isMailbox q || isWorkQueue q) = false → s.hw.mayRecord t = true → Gives (.arbiterGrant 45 pre e) s fun h =>
        Excepts s.hw h t 18 w 0 0) ∧
    (∀ (t : Fin 256) (w : Word) (pre : Bool) (e : EccFinding) (q : Nat) (v : Dword) (rest : List Dword), s.hw.unitGranted 45 t w .qpull = true → q = ((s.hw.thread t).a w).toNat → mayPull t q = true → s.hw.wordsOf q = v :: rest → s.hw.pushersOf q = [] → Gives (.arbiterGrant 45 pre e) s fun h =>
        h.wordsOf q = rest ∧ Waits s.hw h t (.done ⟨rdOf w, some v, some false, 0⟩) ∧
        RegsKept [R.SHK_ARB_STAT 45, R.AWL_THR_STAT (t / 4) (t % 4)] s.hw h ∧ MemKept s.hw h) ∧
    (∀ (t : Fin 256) (w : Word) (pre : Bool) (e : EccFinding) (q : Nat), s.hw.unitGranted 45 t w .qpull = true → q = ((s.hw.thread t).a w).toNat → mayPull t q = true → s.hw.wordsOf q = [] → (uOf w || s.hw.privileged t) = true → Gives (.arbiterGrant 45 pre e) s fun h =>
        Waits s.hw h t (.done ⟨rdOf w, none, some true, 0⟩) ∧
        RegsKept [R.SHK_ARB_STAT 45, R.AWL_THR_STAT (t / 4) (t % 4)] s.hw h ∧ MemKept s.hw h) ∧
    (∀ (t : Fin 256) (w : Word) (pre : Bool) (e : EccFinding) (q : Nat), s.hw.unitGranted 45 t w .qpull = true → q = ((s.hw.thread t).a w).toNat → mayPull t q = true → s.hw.wordsOf q = [] → (uOf w || s.hw.privileged t) = false → Gives (.arbiterGrant 45 pre e) s fun h =>
        h.pullersOf q = s.hw.pullersOf q ++ [t.val] ∧ Waits s.hw h t (.pull (rdOf w) q) ∧
        RegsKept [R.SHK_ARB_STAT 45, R.AWL_THR_STAT (t / 4) (t % 4)] s.hw h ∧ MemKept s.hw h) ∧
    (∀ (t : Fin 256) (w : Word) (pre : Bool) (e : EccFinding) (q : Nat), s.hw.unitGranted 45 t w .qpeek = true → q = ((s.hw.thread t).a w).toNat → mayPull t q = true → Gives (.arbiterGrant 45 pre e) s fun h =>
        h.wordsOf q = s.hw.wordsOf q ∧ Waits s.hw h t (.done ⟨rdOf w, (s.hw.wordsOf q).head?, some (s.hw.wordsOf q).isEmpty, 0⟩) ∧
        RegsKept [R.SHK_ARB_STAT 45, R.AWL_THR_STAT (t / 4) (t % 4)] s.hw h ∧ MemKept s.hw h) ∧
    (∀ (t : Fin 256) (w : Word) (pre : Bool) (e : EccFinding) (i : Nat), s.hw.unitGranted 44 t w .lock = true → i = (s.hw.thread t).lockId w → i < 1024 → ((s.hw.thread t).locks.contains i || decide (8 ≤ (s.hw.thread t).locks.length)) = false → s.hw.lockHeld i = false → Gives (.arbiterGrant 44 pre e) s fun h =>
        h.get (R.SHK_LOCK_STAT_HELD i) = 1 ∧ h.get (R.SHK_LOCK_STAT_OWNER i) = 8 + t.val / 32 ∧ h.get (R.SHK_LOCK_STAT_THREAD i) = t.val ∧ h.get (R.SHK_LOCK_STAT_BROKEN i) = 0 ∧ i ∈ (h.thread t).locks ∧
        Waits s.hw h t (.done ⟨rdOf w, some (if s.hw.lockBroken i then 1 else 0), none, 0⟩) ∧
        RegsKept [R.SHK_ARB_STAT 44, R.AWL_THR_STAT (t / 4) (t % 4), R.SHK_LOCK_STAT i] s.hw h ∧ MemKept s.hw h) ∧
    (∀ (t : Fin 256) (w : Word) (pre : Bool) (e : EccFinding) (i : Nat), s.hw.unitGranted 44 t w .lock = true → i = (s.hw.thread t).lockId w → i < 1024 → ((s.hw.thread t).locks.contains i || decide (8 ≤ (s.hw.thread t).locks.length)) = false → s.hw.lockHeld i = true → s.hw.privileged t = true → Gives (.arbiterGrant 44 pre e) s fun h =>
        Waits s.hw h t (.done ⟨rdOf w, some 2, none, 0⟩) ∧
        RegsKept [R.SHK_ARB_STAT 44, R.AWL_THR_STAT (t / 4) (t % 4)] s.hw h ∧ MemKept s.hw h) ∧
    (∀ (t : Fin 256) (w : Word) (pre : Bool) (e : EccFinding) (i : Nat), s.hw.unitGranted 44 t w .lock = true → i = (s.hw.thread t).lockId w → i < 1024 → ((s.hw.thread t).locks.contains i || decide (8 ≤ (s.hw.thread t).locks.length)) = false → s.hw.lockHeld i = true → s.hw.privileged t = false → Gives (.arbiterGrant 44 pre e) s fun h =>
        h.lockWaiters i = s.hw.lockWaiters i ++ [t.val] ∧ Waits s.hw h t (.lock (rdOf w) i) ∧
        RegsKept [R.SHK_ARB_STAT 44, R.AWL_THR_STAT (t / 4) (t % 4), R.SHK_LOCK_STAT i] s.hw h ∧ MemKept s.hw h) ∧
    (∀ (t : Fin 256) (w : Word) (pre : Bool) (e : EccFinding), s.hw.unitGranted 44 t w .lock = true → 1024 ≤ (s.hw.thread t).lockId w → s.hw.mayRecord t = true → Gives (.arbiterGrant 44 pre e) s fun h =>
        Excepts s.hw h t 19 w 0 0) ∧
    (∀ (t : Fin 256) (w : Word) (pre : Bool) (e : EccFinding) (i : Nat), s.hw.unitGranted 44 t w .unlock = true → i = (s.hw.thread t).lockId w → i < 1024 → i ∈ (s.hw.thread t).locks → s.hw.lockWaiters i = [] → Gives (.arbiterGrant 44 pre e) s fun h =>
        h.get (R.SHK_LOCK_STAT_HELD i) = 0 ∧ h.get (R.SHK_LOCK_STAT_OWNER i) = 0 ∧ h.get (R.SHK_LOCK_STAT_THREAD i) = 0 ∧ Waits s.hw h t (.done ⟨0, none, none, 0⟩) ∧
        RegsKept [R.SHK_ARB_STAT 44, R.AWL_THR_STAT (t / 4) (t % 4), R.SHK_LOCK_STAT i] s.hw h ∧ MemKept s.hw h) ∧
    (∀ (t : Fin 256) (w : Word) (pre : Bool) (e : EccFinding) (i u rd : Nat) (rest : List Nat), s.hw.unitGranted 44 t w .unlock = true → i = (s.hw.thread t).lockId w → i < 1024 → i ∈ (s.hw.thread t).locks → s.hw.lockWaiters i = u :: rest → (s.hw.thread u).on = .lock rd i → u < 256 ∧ u ≠ t → Gives (.arbiterGrant 44 pre e) s fun h =>
        h.get (R.SHK_LOCK_STAT_HELD i) = 1 ∧ h.get (R.SHK_LOCK_STAT_OWNER i) = 8 + u / 32 ∧ h.get (R.SHK_LOCK_STAT_THREAD i) = u ∧ h.lockWaiters i = rest ∧
        (h.thread u).on = .done ⟨rd, some 0, none, 0⟩ ∧ Waits s.hw h t (.done ⟨0, none, none, 0⟩) ∧
        RegsKept [R.SHK_ARB_STAT 44, R.AWL_THR_STAT (t / 4) (t % 4), R.SHK_LOCK_STAT i] s.hw h ∧ MemKept s.hw h) ∧
    (∀ (t : Fin 256) (w : Word) (pre : Bool) (e : EccFinding) (i : Nat), s.hw.unitGranted 44 t w .unlock = true → i = (s.hw.thread t).lockId w → i < 1024 → i ∉ (s.hw.thread t).locks → s.hw.mayRecord t = true → Gives (.arbiterGrant 44 pre e) s fun h =>
        Excepts s.hw h t 20 w 0 0) ∧
    (∀ (t : Fin 256) (w : Word), s.hw.issues t .raise w = true → s.hw.signalAccepted (immOf w) = true → Gives (.raise t) s fun h =>
        Wrote s.hw h t [(rdOf w, 0)] none ((s.hw.thread t).pc + 4) ∧ OthersKept t s.hw h ∧ MemKept s.hw h ∧
        (s.hw.btState (immOf w % 4096) = 0 → h.get R.BENCH_CNT0_EV_DROP = min (s.hw.get R.BENCH_CNT0_EV_DROP + 1) 65535) ∧
        (s.hw.btState (immOf w % 4096) ≠ 0 ∧ s.hw.btTomb (immOf w % 4096) = false → (h.bt (immOf w % 4096)).signals = (s.hw.bt (immOf w % 4096)).signals ++ [(immOf w, (s.hw.thread t).a w)])) ∧
    (∀ (t : Fin 256) (w : Word), s.hw.issues t .raise w = true → s.hw.signalAccepted (immOf w) = false → s.hw.privileged t = true → Gives (.raise t) s fun h =>
        Wrote s.hw h t [(rdOf w, 1)] none ((s.hw.thread t).pc + 4) ∧ h.get R.BENCH_CNT1_SIG_FULL = min (s.hw.get R.BENCH_CNT1_SIG_FULL + 1) 65535 ∧
        RegsKept [R.BENCH_CNT1] s.hw h ∧ MemKept s.hw h) ∧
    (∀ (t : Fin 256) (w : Word), s.hw.issues t .raise w = true → s.hw.signalAccepted (immOf w) = false → s.hw.privileged t = false → Gives (.raise t) s fun h =>
        Waits s.hw h t (.raise (rdOf w) (immOf w) ((s.hw.thread t).a w)) ∧ h.awl.raisers = s.hw.awl.raisers ++ [t.val] ∧
        h.get R.BENCH_CNT1_SIG_FULL = min (s.hw.get R.BENCH_CNT1_SIG_FULL + 1) 65535 ∧ RegsKept [R.BENCH_CNT1, R.AWL_THR_STAT (t / 4) (t % 4)] s.hw h ∧ MemKept s.hw h)

/-- Time and waiting (R271, R285 to R293). -/
def Obligations.AwlTimeAndWaiting : Prop :=
  ∀ s : State, s.hw.mainUp = true → 
    (∀ (t : Fin 256) (w : Word), s.hw.issues t .tnow w = true → Gives (.tnow t) s fun h =>
        Steps s.hw h t [(rdOf w, BitVec.ofNat 64 (s.hw.nt / (1000000000 * 2 ^ 32))), (rdOf w + 1, BitVec.ofNat 64 (s.hw.nt % (1000000000 * 2 ^ 32) / 2 ^ 16))] none ((s.hw.thread t).pc + 4)) ∧
    (∀ (t : Fin 256) (w : Word), s.hw.issues t .tmono w = true → Gives (.tmono t) s fun h =>
        Computes s.hw h t (rdOf w) (BitVec.ofNat 64 s.hw.et) none) ∧
    (∀ (t : Fin 256) (w : Word) (sec sub : Nat) (b carry : Int), s.hw.issues t .tadd w = true → sec = ((s.hw.thread t).reg (raOf w)).toNat → sub = ((s.hw.thread t).reg (raOf w + 1)).toNat → sec < 2 ^ 48 ∧ sub < (1000000000 * 2 ^ 16) → b = ((s.hw.thread t).reg (rbOf w)).toInt → carry = (sub + b) / (1000000000 * 2 ^ 16) → Gives (.tadd t) s fun h =>
        Steps s.hw h t [(rdOf w, BitVec.ofNat 64 ((sec + carry) % 2 ^ 48).toNat), (rdOf w + 1, BitVec.ofNat 64 (sub + b - carry * (1000000000 * 2 ^ 16)).toNat)]
          (if fOf w then some (decide (sub + b - carry * (1000000000 * 2 ^ 16) = 0), false, false, decide (sec + carry < 0 ∨ 2 ^ 48 ≤ sec + carry)) else none) ((s.hw.thread t).pc + 4)) ∧
    (∀ (t : Fin 256) (w : Word) (sa na sb nb : Nat) (e : Bool), s.hw.issues t .tcmp w = true → sa = ((s.hw.thread t).reg (raOf w)).toNat → na = ((s.hw.thread t).reg (raOf w + 1)).toNat → sa < 2 ^ 48 ∧ na < (1000000000 * 2 ^ 16) → sb = ((s.hw.thread t).reg (rbOf w)).toNat → nb = ((s.hw.thread t).reg (rbOf w + 1)).toNat → sb < 2 ^ 48 ∧ nb < (1000000000 * 2 ^ 16) → e = (if sa = sb then decide (na < nb) else decide (2 ^ 47 ≤ (sa + 2 ^ 48 - sb) % 2 ^ 48)) → Gives (.tcmp t) s fun h =>
        Steps s.hw h t [] (some (decide (sa = sb ∧ na = nb), e, !e, false)) ((s.hw.thread t).pc + 4)) ∧
    (∀ (t : Fin 256) (w : Word), s.hw.issues t .tcmp w = true → (s.hw.thread t).pair (raOf w) = none ∨ (s.hw.thread t).pair (rbOf w) = none → s.hw.mayRecord t = true → Gives (.tcmp t) s fun h =>
        Excepts s.hw h t 21 w 0 0) ∧
    (∀ (t : Fin 256) (w : Word), s.hw.issues t .tadd w = true → (s.hw.thread t).pair (raOf w) = none → s.hw.mayRecord t = true → Gives (.tadd t) s fun h =>
        Excepts s.hw h t 21 w 0 0) ∧
    (∀ (t : Fin 256) (w : Word) (a b r : Dword) (sat : Bool), s.hw.issues t .cfadd w = true → a = (s.hw.thread t).a w → b = (s.hw.thread t).reg (rbOf w) → sat = decide (a.toInt = 2 ^ 63 - 1 ∨ a.toInt + b.toInt < -(2 ^ 63) ∨ 2 ^ 63 - 1 < a.toInt + b.toInt) → r = (if sat then BitVec.ofNat 64 (2 ^ 63 - 1) else a + b) → Gives (.cfadd t) s fun h =>
        Computes s.hw h t (rdOf w) r (if fOf w then some (r == 0, r.msb, false, sat) else none)) ∧
    (∀ (t : Fin 256) (w : Word) (f : Nat), s.hw.issues t .stampRead w = true → (s.hw.thread t).frame = some f → Gives (.stampRead t) s fun h =>
        Steps s.hw h t [(rdOf w, BitVec.ofNat 64 (s.hw.frame f).stamp.sec), (rdOf w + 1, BitVec.ofNat 64 (s.hw.frame f).stamp.sub)] none ((s.hw.thread t).pc + 4)) ∧
    (∀ (t : Fin 256) (w : Word) (f : Nat), s.hw.issues t .stampMark w = true → (s.hw.thread t).frame = some f → actionValid ((s.hw.thread t).a w).toNat = true → Gives (.stampMark t) s fun h =>
        (h.frame f).action = ((s.hw.thread t).a w).toNat ∧ Steps s.hw h t [] none ((s.hw.thread t).pc + 4)) ∧
    (∀ (t : Fin 256) (w : Word) (f : Nat), s.hw.issues t .stampMark w = true → (s.hw.thread t).frame = some f → actionValid ((s.hw.thread t).a w).toNat = false → s.hw.mayRecord t = true → Gives (.stampMark t) s fun h =>
        Excepts s.hw h t 22 w 0 0) ∧
    (∀ (t : Fin 256) (w : Word), s.hw.issues t .stampRead w = true → (s.hw.thread t).frame = none → s.hw.mayRecord t = true → Gives (.stampRead t) s fun h =>
        Excepts s.hw h t 16 w 0 0) ∧
    (∀ (t : Fin 256) (w : Word), s.hw.issues t .waitev w = true → immOf w = 0 → (s.hw.thread t).a w = 0 → s.hw.mayRecord t = true → Gives (.waitev t) s fun h =>
        Excepts s.hw h t 23 w 0 0) ∧
    (∀ (t : Fin 256) (w : Word) (p : Nat), s.hw.issues t .waitev w = true → p = s.hw.pendingEvents t (immOf w) → immOf w ≠ 0 ∨ (s.hw.thread t).a w ≠ 0 → s.hw.engineState (t / 4) = 3 → Gives (.waitev t) s fun h =>
        Waits s.hw h t (.done ⟨rdOf w, some (BitVec.ofNat 64 (p + 2 ^ 63)), none, 0⟩) ∧
        RegsKept [R.AWL_THR_STAT (t / 4) (t % 4)] s.hw h ∧ MemKept s.hw h) ∧
    (∀ (t : Fin 256) (w : Word) (p : Nat), s.hw.issues t .waitev w = true → p = s.hw.pendingEvents t (immOf w) → p ≠ 0 → s.hw.engineState (t / 4) ≠ 3 → Gives (.waitev t) s fun h =>
        Waits s.hw h t (.done ⟨rdOf w, some (BitVec.ofNat 64 p), none, 0⟩) ∧ (h.thread t).events = Nat.xor (s.hw.thread t).events (Nat.land (s.hw.thread t).events (p / 256)) ∧
        RegsKept [R.AWL_THR_STAT (t / 4) (t % 4)] s.hw h ∧ MemKept s.hw h) ∧
    (∀ (t : Fin 256) (w : Word), s.hw.issues t .waitev w = true → s.hw.pendingEvents t (immOf w) = 0 → immOf w ≠ 0 ∨ (s.hw.thread t).a w ≠ 0 → s.hw.engineState (t / 4) ≠ 3 → Gives (.waitev t) s fun h =>
        Waits s.hw h t (.event (rdOf w) (immOf w) ((s.hw.thread t).a w).toNat) ∧
        RegsKept [R.AWL_THR_STAT (t / 4) (t % 4)] s.hw h ∧ MemKept s.hw h) ∧
    (∀ (t : Fin 256) (rd mask d p : Nat), (s.hw.thread t).on = .event rd mask d → p = s.hw.pendingEvents t mask → s.hw.engineState (t / 4) = 3 ∨ p ≠ 0 → Gives (.waitevWake t) s fun h =>
        Resumes s.hw h t [(rd, BitVec.ofNat 64 (p + if s.hw.engineState (t / 4) = 3 then 2 ^ 63 else 0))] none ∧
        (h.thread t).events = Nat.xor (s.hw.thread t).events (Nat.land (s.hw.thread t).events (p / 256)) ∧
        RegsKept [R.AWL_THR_STAT (t / 4) (t % 4)] s.hw h ∧ MemKept s.hw h) ∧
    (∀ (t : Fin 256) (rd mask d : Nat), (s.hw.thread t).on = .event rd mask d → s.hw.pendingEvents t mask = 0 → s.hw.engineState (t / 4) ≠ 3 → d ≠ 0 → Gives (.waitevWake t) s fun h =>
        Resumes s.hw h t [(rd, 0)] none ∧ h.et = (s.hw.advanceTo d).et ∧
        RegsKept [R.AWL_THR_STAT (t / 4) (t % 4)] s.hw h ∧ MemKept s.hw h) ∧
    (∀ (t : Fin 256) (w : Word) (v : Dword), s.hw.issues t .waitt w = true → w.getLsbD 0 = false → s.hw.engineState (t / 4) = 3 ∨ ((s.hw.thread t).a w).toNat ≤ s.hw.et → v = (if s.hw.engineState (t / 4) = 3 then 3 else if ((s.hw.thread t).a w).toNat < s.hw.et then 1 else 0) → Gives (.waitt t) s fun h =>
        Waits s.hw h t (.done ⟨rdOf w, some v, none, 0⟩) ∧
        RegsKept [R.AWL_THR_STAT (t / 4) (t % 4)] s.hw h ∧ MemKept s.hw h) ∧
    (∀ (t : Fin 256) (w : Word), s.hw.issues t .waitt w = true → w.getLsbD 0 = false → s.hw.engineState (t / 4) ≠ 3 → s.hw.et < ((s.hw.thread t).a w).toNat → Gives (.waitt t) s fun h =>
        Waits s.hw h t (.elapsed (rdOf w) ((s.hw.thread t).a w).toNat) ∧
        RegsKept [R.AWL_THR_STAT (t / 4) (t % 4)] s.hw h ∧ MemKept s.hw h) ∧
    (∀ (t : Fin 256) (w : Word) (sec sub : Nat), s.hw.issues t .waitt w = true → w.getLsbD 0 = true → s.hw.engineState (t / 4) ≠ 3 → (s.hw.thread t).pair (raOf w) = some (sec, sub) → timeOrder sec sub (stampOf s.hw.nt).sec (stampOf s.hw.nt).sub = .gt → Gives (.waitt t) s fun h =>
        Waits s.hw h t (.network (rdOf w) ⟨sec, sub⟩) ∧
        RegsKept [R.AWL_THR_STAT (t / 4) (t % 4)] s.hw h ∧ MemKept s.hw h) ∧
    (∀ (t : Fin 256) (w : Word) (sec sub : Nat) (v : Dword), s.hw.issues t .waitt w = true → w.getLsbD 0 = true → (s.hw.thread t).pair (raOf w) = some (sec, sub) → s.hw.engineState (t / 4) = 3 ∨ timeOrder sec sub (stampOf s.hw.nt).sec (stampOf s.hw.nt).sub ≠ .gt → v = (if s.hw.engineState (t / 4) = 3 then 3 else if timeOrder sec sub (stampOf s.hw.nt).sec (stampOf s.hw.nt).sub = .lt then 1 else 0) → Gives (.waitt t) s fun h =>
        Waits s.hw h t (.done ⟨rdOf w, some v, none, 0⟩) ∧
        RegsKept [R.AWL_THR_STAT (t / 4) (t % 4)] s.hw h ∧ MemKept s.hw h) ∧
    (∀ (t : Fin 256) (rd d : Nat), (s.hw.thread t).on = .elapsed rd d → Gives (.waittWake t) s fun h =>
        Resumes s.hw h t [(rd, if s.hw.engineState (t / 4) = 3 then 3 else 0)] none ∧ (s.hw.engineState (t / 4) ≠ 3 → h.et = (s.hw.advanceTo d).et) ∧
        RegsKept [R.AWL_THR_STAT (t / 4) (t % 4)] s.hw h ∧ MemKept s.hw h) ∧
    (∀ (t : Fin 256) (rd : Nat) (d : Stamp), (s.hw.thread t).on = .network rd d → s.hw.engineState (t / 4) = 3 ∨ (s.hw.advanceToNt (d.sec * ntSecond + d.sub * 2 ^ 16)).ntReached (d.sec * ntSecond + d.sub * 2 ^ 16) = true → Gives (.waittWake t) s fun h =>
        Resumes s.hw h t [(rd, if s.hw.engineState (t / 4) = 3 then 3 else 0)] none ∧
        RegsKept [R.AWL_THR_STAT (t / 4) (t % 4)] s.hw h ∧ MemKept s.hw h)

/-- Disposing of the frame (R294 to R296), and LASTW and LASTAMEND (R297, R298). -/
def Obligations.AwlDispositionAndLastWrites : Prop :=
  ∀ s : State, s.hw.mainUp = true → 
    (∀ (t : Fin 256) (w : Word) (f : Nat), s.hw.issues t .release w = true → (s.hw.thread t).frame = some f → releaseValid (s.hw.frame f) ((s.hw.thread t).a w).toNat ((s.hw.thread t).reg (rbOf w)).toNat = true → Gives (.release t) s fun h =>
        (h.frame f).disp = .release ((s.hw.thread t).a w).toNat ((s.hw.thread t).reg (rbOf w)).toNat ∧ (h.thread t).frame = none ∧ (h.thread t).dirty = 0 ∧ Wrote s.hw h t [] none ((s.hw.thread t).pc + 4) ∧ OthersKept t s.hw h ∧
        RegsKept [] s.hw h ∧ MemKept s.hw h) ∧
    (∀ (t : Fin 256) (w : Word) (f : Nat), s.hw.issues t .release w = true → (s.hw.thread t).frame = some f → releaseValid (s.hw.frame f) ((s.hw.thread t).a w).toNat ((s.hw.thread t).reg (rbOf w)).toNat = false → s.hw.mayRecord t = true → Gives (.release t) s fun h =>
        Excepts s.hw h t 22 w 0 0) ∧
    (∀ (t : Fin 256) (w : Word) (f : Nat), s.hw.issues t .drop w = true → (s.hw.thread t).frame = some f → ((s.hw.thread t).a w).toNat ≤ 255 → Gives (.drop t) s fun h =>
        (h.frame f).disp = .drop ((s.hw.thread t).a w).toNat ∧ (h.thread t).frame = none ∧ (h.thread t).dirty = 0 ∧ Wrote s.hw h t [] none ((s.hw.thread t).pc + 4) ∧ OthersKept t s.hw h ∧
        RegsKept [] s.hw h ∧ MemKept s.hw h) ∧
    (∀ (t : Fin 256) (w : Word) (f : Nat), s.hw.issues t .drop w = true → (s.hw.thread t).frame = some f → 255 < ((s.hw.thread t).a w).toNat → s.hw.mayRecord t = true → Gives (.drop t) s fun h =>
        Excepts s.hw h t 22 w 0 0) ∧
    (∀ (t : Fin 256) (w : Word) (f : Nat), s.hw.issues t .fwd w = true → (s.hw.thread t).frame = some f → ((s.hw.thread t).a w).toNat ≤ 4095 ∧ ((s.hw.thread t).reg (rbOf w)).toNat < 2 ^ 32 → Gives (.fwd t) s fun h =>
        (h.frame f).disp = (if 7 ≤ (s.hw.frame f).fwds then .drop 255 else .fwd ((s.hw.thread t).a w).toNat ((s.hw.thread t).reg (rbOf w)).toNat) ∧ (h.thread t).frame = none ∧ (h.thread t).dirty = 0 ∧ Wrote s.hw h t [] none ((s.hw.thread t).pc + 4) ∧ OthersKept t s.hw h ∧
        RegsKept [] s.hw h ∧ MemKept s.hw h) ∧
    (∀ (t : Fin 256) (w : Word) (f : Nat), s.hw.issues t .fwd w = true → (s.hw.thread t).frame = some f → ¬ (((s.hw.thread t).a w).toNat ≤ 4095 ∧ ((s.hw.thread t).reg (rbOf w)).toNat < 2 ^ 32) → s.hw.mayRecord t = true → Gives (.fwd t) s fun h =>
        Excepts s.hw h t 22 w 0 0) ∧
    (∀ (t : Fin 256) (w : Word) (k : AwlKind), k = .release ∨ k = .drop ∨ k = .fwd → s.hw.issues t k w = true → (s.hw.thread t).frame = none → s.hw.mayRecord t = true → Gives (awlRow t k) s fun h =>
        Excepts s.hw h t 16 w 0 0) ∧
    (∀ (t : Fin 256) (w : Word), s.hw.issues t .lastw w = true → Gives (.lastw t) s fun h =>
        Waits s.hw h t .unit ∧ RegsKept [R.AWL_THR_STAT (t / 4) (t % 4)] s.hw h ∧ MemKept s.hw h ∧
        ((h.arbiter 60).waiting.getLast?.any fun r => r.master == 8 + t.val / 32 && r.thread == some t.val && r.addr == (s.hw.lastwTarget ((s.hw.thread t).a w).toNat ((s.hw.thread t).reg (rbOf w)).toNat) && r.data.isSome == true) = true) ∧
    (∀ (t : Fin 256) (w : Word) (b : Nat), s.hw.issues t .lastamend w = true → b = ((s.hw.thread t).reg (rbOf w)).toNat → Gives (.lastamend t) s fun h =>
        Waits s.hw h t .unit ∧ RegsKept [R.AWL_THR_STAT (t / 4) (t % 4)] s.hw h ∧ MemKept s.hw h ∧
        ((h.arbiter 60).waiting.getLast?.any fun r => r.master == 8 + t.val / 32 && r.thread == some t.val && r.addr == (if b % 4 ≠ 3 ∧ b < 2 ^ 14 then R.LAST_AMEND_CMD (b % 4) else 0) && r.data.isSome == true) = true) ∧
    (∀ (t : Fin 256) (w : Word) (pre : Bool) (e : EccFinding) (a v A : Nat), s.hw.unitGranted 60 t w .lastw = true → a = ((s.hw.thread t).a w).toNat → v = ((s.hw.thread t).reg (rbOf w)).toNat → A = (lastwAddr (a % 4) (1 - s.hw.lastActive (a % 4)) (a / 4 % 4) (a / 16 % 4) (a / 64 % 8192)) → lastwValid a v = true → s.hw.lastPend (a % 4) = false → (s.hw.lastOf (a % 4)).arming = false → ¬ (a / 4 % 4 = 2 ∧ a / 64 % 8192 = 0 ∧ 999999999 < v % 2 ^ 30) → Gives (.arbiterGrant 60 pre e) s fun h =>
        h.word A = (s.hw.writeFields A (BitVec.ofNat 32 v)).word A ∧ Waits s.hw h t (.done ⟨rdOf w, some 0, none, 0⟩) ∧
        RegsKept [R.SHK_ARB_STAT 60, A, R.AWL_THR_STAT (t / 4) (t % 4)] s.hw h ∧ MemKept s.hw h) ∧
    (∀ (t : Fin 256) (w : Word) (pre : Bool) (e : EccFinding) (a v A : Nat), s.hw.unitGranted 60 t w .lastw = true → a = ((s.hw.thread t).a w).toNat → v = ((s.hw.thread t).reg (rbOf w)).toNat → A = (lastwAddr (a % 4) (1 - s.hw.lastActive (a % 4)) (a / 4 % 4) (a / 16 % 4) (a / 64 % 8192)) → lastwValid a v = true → (s.hw.lastPend (a % 4) || (s.hw.lastOf (a % 4)).arming) = true → Gives (.arbiterGrant 60 pre e) s fun h =>
        h.get (R.LAST_STAT_CFG_ERR (a % 4)) = 1 ∧ Waits s.hw h t (.done ⟨rdOf w, some 1, none, 0⟩) ∧
        RegsKept [R.SHK_ARB_STAT 60, R.LAST_STAT (a % 4), R.AWL_THR_STAT (t / 4) (t % 4)] s.hw h ∧ MemKept s.hw h) ∧
    (∀ (t : Fin 256) (w : Word) (pre : Bool) (e : EccFinding), s.hw.unitGranted 60 t w .lastw = true → lastwValid ((s.hw.thread t).a w).toNat ((s.hw.thread t).reg (rbOf w)).toNat = false → s.hw.mayRecord t = true → Gives (.arbiterGrant 60 pre e) s fun h =>
        Excepts s.hw h t 23 w 0 0) ∧
    (∀ (t : Fin 256) (w : Word) (pre : Bool) (e : EccFinding) (b : Nat), s.hw.unitGranted 60 t w .lastamend = true → b = ((s.hw.thread t).reg (rbOf w)).toNat → b % 4 ≠ 3 ∧ b < 2 ^ 14 → s.hw.lastRun (b % 4) = false → Gives (.arbiterGrant 60 pre e) s fun h =>
        h.get (R.LAST_STAT_AMEND_ERR (b % 4)) = 1 ∧ Waits s.hw h t (.done ⟨rdOf w, some 12, none, 0⟩) ∧
        RegsKept [R.SHK_ARB_STAT 60, R.LAST_STAT (b % 4), R.AWL_THR_STAT (t / 4) (t % 4)] s.hw h ∧ MemKept s.hw h) ∧
    (∀ (t : Fin 256) (w : Word) (pre : Bool) (e : EccFinding) (b lo hi c : Nat), s.hw.unitGranted 60 t w .lastamend = true → b = ((s.hw.thread t).reg (rbOf w)).toNat → b % 4 ≠ 3 ∧ b < 2 ^ 14 → s.hw.lastRun (b % 4) = true → lo = ((s.hw.thread t).reg (raOf w)).toNat → hi = ((s.hw.thread t).reg (raOf w + 1)).toNat → s.hw.amendCode (b % 4) (b / 4) (entryOf [lo % 2 ^ 32, lo / 2 ^ 32, hi % 2 ^ 32, hi / 2 ^ 32]) = some c → Gives (.arbiterGrant 60 pre e) s fun h =>
        h.get (R.LAST_STAT_AMEND_ERR (b % 4)) = 1 ∧ h.get (R.LAST_VAL_CODE (b % 4)) = c ∧ h.get (R.LAST_VAL_INDEX (b % 4)) = b / 4 ∧ Waits s.hw h t (.done ⟨rdOf w, some (BitVec.ofNat 64 c), none, 0⟩) ∧ MemKept s.hw h) ∧
    (∀ (t : Fin 256) (w : Word) (pre : Bool) (e : EccFinding) (b lo hi : Nat), s.hw.unitGranted 60 t w .lastamend = true → b = ((s.hw.thread t).reg (rbOf w)).toNat → b % 4 ≠ 3 ∧ b < 2 ^ 14 → s.hw.lastRun (b % 4) = true → lo = ((s.hw.thread t).reg (raOf w)).toNat → hi = ((s.hw.thread t).reg (raOf w + 1)).toNat → s.hw.amendCode (b % 4) (b / 4) (entryOf [lo % 2 ^ 32, lo / 2 ^ 32, hi % 2 ^ 32, hi / 2 ^ 32]) = none → Gives (.arbiterGrant 60 pre e) s fun h =>
        h.lastEntry (b % 4) (s.hw.lastActive (b % 4)) (b / 4) = entryOf [lo % 2 ^ 32, lo / 2 ^ 32, hi % 2 ^ 32, hi / 2 ^ 32] ∧ Waits s.hw h t (.done ⟨rdOf w, some 0, none, 0⟩) ∧ MemKept s.hw h)

/-- Bench commands (R463 to R466, R473, R475). States: 0 UNUSED, 1 READY, 2 RUNNING, 3 DELAYED, 4 WAITING, 5 SUSPENDED. -/
def Obligations.BenchThreadCommands : Prop :=
  ∀ s : State, s.hw.mainUp = true → 
    (∀ (n : Fin 8) (t : Fin 4096) (a : Word), s.hw.get (R.BENCH_RSP_BUSY n) = 0 → a = s.hw.arg n 0 → bitsOf a 6 8 ≠ 0 → s.hw.btState t = 0 → Gives (.create n t) s fun h =>
        h.get (R.BENCH_RSP_STATUS n) = 0 ∧ h.get (R.BENCH_THR_W0_PRIO t) = bitsOf a 0 6 ∧ h.btTomb t = false ∧ (s.hw.awl.raisers = [] → h.word (R.BENCH_THR_W1 t) = 0 ∧ (h.bt t).signals = []) ∧
        (h.bt t).aff = bitsOf a 6 8 ∧ (if a.getLsbD 24 then (h.btState t = 1 ∨ h.btState t = 2) else h.btState t = 5) ∧ MemKept s.hw h) ∧
    (∀ (n : Fin 8) (t : Fin 4096), s.hw.get (R.BENCH_RSP_BUSY n) = 0 → bitsOf (s.hw.arg n 0) 6 8 = 0 ∨ s.hw.btState t ≠ 0 → Gives (.create n t) s fun h =>
        h.get (R.BENCH_RSP_STATUS n) = (if bitsOf (s.hw.arg n 0) 6 8 = 0 then 2 else 1) ∧ h.get (R.BENCH_THR_W0_PRIO t) = s.hw.get (R.BENCH_THR_W0_PRIO t) ∧ h.word (R.BENCH_THR_W1 t) = s.hw.word (R.BENCH_THR_W1 t) ∧ MemKept s.hw h) ∧
    (∀ (n : Fin 8) (t : Fin 4096), s.hw.get (R.BENCH_RSP_BUSY n) = 0 → s.hw.btTomb t = false → s.hw.btState t = 3 ∨ s.hw.btState t = 4 ∨ s.hw.btState t = 5 → Gives (.ready n t) s fun h =>
        h.get (R.BENCH_RSP_STATUS n) = 0 ∧ (h.btState t = 1 ∨ h.btState t = 2) ∧ (h.bt t).timed = false ∧ MemKept s.hw h) ∧
    (∀ (n : Fin 8) (t : Fin 4096), s.hw.get (R.BENCH_RSP_BUSY n) = 0 → s.hw.btTomb t = true → Gives (.ready n t) s fun h =>
        h.get (R.BENCH_RSP_STATUS n) = 3 ∧ h.get R.BENCH_CNT0_READY_DISC = min (s.hw.get R.BENCH_CNT0_READY_DISC + 1) 65535 ∧ MemKept s.hw h) ∧
    (∀ (n : Fin 8) (t : Fin 4096), s.hw.get (R.BENCH_RSP_BUSY n) = 0 → s.hw.btTomb t = false → s.hw.btState t ≤ 2 → Gives (.ready n t) s fun h =>
        h.get (R.BENCH_RSP_STATUS n) = (if s.hw.btState t = 0 then 3 else 0) ∧ h.get R.BENCH_CNT0_READY_DISC = s.hw.get R.BENCH_CNT0_READY_DISC ∧ MemKept s.hw h) ∧
    (∀ (n : Fin 8) (t : Fin 4096), s.hw.get (R.BENCH_RSP_BUSY n) = 0 → Gives (.cancel n t) s fun h =>
        h.get (R.BENCH_RSP_STATUS n) = 0 ∧ h.btTomb t = true ∧
        (if s.hw.btState t = 2 then h.btState t = 2 ∧ h.get (R.BENCH_THR_W0_CANCEL_PEND t) = 1 else h.btState t = 0) ∧ MemKept s.hw h) ∧
    (∀ (n : Fin 8) (t : Fin 4096), s.hw.get (R.BENCH_RSP_BUSY n) = 0 → s.hw.btState t ≠ 0 ∧ s.hw.btState t ≠ 2 ∨ s.hw.btState t = 2 ∧ (s.hw.coreOf t).isSome = true ∧ s.hw.get (R.BENCH_THR_W0_CANCEL_PEND t) = 0 → Gives (.suspend n t) s fun h =>
        h.get (R.BENCH_RSP_STATUS n) = 0 ∧ h.btState t = 5 ∧ MemKept s.hw h) ∧
    (∀ (n : Fin 8) (t : Fin 4096), s.hw.get (R.BENCH_RSP_BUSY n) = 0 → s.hw.btState t = 0 → Gives (.suspend n t) s fun h =>
        h.get (R.BENCH_RSP_STATUS n) = 1 ∧ h.btState t = 0 ∧ MemKept s.hw h) ∧
    (∀ (n : Fin 8) (t d : Nat), s.hw.get (R.BENCH_RSP_BUSY n) = 0 → s.hw.curRuns n = true → t = s.hw.cur n → s.hw.get (R.BENCH_THR_W0_CANCEL_PEND t) = 0 → d = bitsOf (s.hw.arg n 0) 0 24 → 0 < d → Gives (.delay n) s fun h =>
        h.get (R.BENCH_RSP_STATUS n) = 0 ∧ h.btState t = 3 ∧ h.get (R.BENCH_THR_W2_WAKE t) = (s.hw.get R.BENCH_TICK_CNT_TICK_CNT + d) % 2 ^ 32 ∧ (h.bt t).timed = true ∧ MemKept s.hw h) ∧
    (∀ (n : Fin 8) (t : Nat) (m e : Word), s.hw.get (R.BENCH_RSP_BUSY n) = 0 → s.hw.curRuns n = true → t = s.hw.cur n → m = s.hw.arg n 0 → e = s.hw.word (R.BENCH_THR_W1 t) → e &&& m ≠ 0 → Gives (.wait n) s fun h =>
        h.get (R.BENCH_RSP_STATUS n) = 0 ∧ h.btState t = 2 ∧ h.word (R.BENCH_RSP_D0 n) = e &&& m ∧ h.word (R.BENCH_THR_W1 t) = e &&& ~~~m ∧ MemKept s.hw h) ∧
    (∀ (n : Fin 8) (t : Nat) (m : Word), s.hw.get (R.BENCH_RSP_BUSY n) = 0 → s.hw.curRuns n = true → t = s.hw.cur n → s.hw.get (R.BENCH_THR_W0_CANCEL_PEND t) = 0 → m = s.hw.arg n 0 → m ≠ 0 → s.hw.word (R.BENCH_THR_W1 t) &&& m = 0 → Gives (.wait n) s fun h =>
        h.get (R.BENCH_RSP_STATUS n) = 0 ∧ h.btState t = 4 ∧ (h.bt t).mask = m ∧ (h.bt t).timed = decide (bitsOf (s.hw.arg n 1) 0 24 ≠ 0) ∧
        (bitsOf (s.hw.arg n 1) 0 24 ≠ 0 → h.get (R.BENCH_THR_W2_WAKE t) = (s.hw.get R.BENCH_TICK_CNT_TICK_CNT + bitsOf (s.hw.arg n 1) 0 24) % 2 ^ 32) ∧ MemKept s.hw h) ∧
    (∀ (n : Fin 8), s.hw.get (R.BENCH_RSP_BUSY n) = 0 → s.hw.curRuns n = true → s.hw.arg n 0 = 0 → Gives (.wait n) s fun h =>
        h.get (R.BENCH_RSP_STATUS n) = 2 ∧ MemKept s.hw h) ∧
    (∀ (n : Fin 8) (t : Nat), s.hw.get (R.BENCH_RSP_BUSY n) = 0 → s.hw.curRuns n = true → t = s.hw.cur n → s.hw.get (R.BENCH_THR_W0_CANCEL_PEND t) = 0 → Gives (.benchYield n) s fun h =>
        h.get (R.BENCH_RSP_STATUS n) = 0 ∧ (h.btState t = 1 ∨ h.btState t = 2) ∧ MemKept s.hw h) ∧
    (∀ (n : Fin 8) (t : Nat), s.hw.get (R.BENCH_RSP_BUSY n) = 0 → s.hw.curRuns n = true → t = s.hw.cur n → s.hw.get (R.BENCH_THR_W0_CANCEL_PEND t) = 0 → Gives (.exit n) s fun h =>
        h.get (R.BENCH_RSP_STATUS n) = 0 ∧ h.btState t = 0 ∧ h.btTomb t = false ∧ MemKept s.hw h) ∧
    (∀ (n : Fin 8) (t : Nat) (c : Instr), s.hw.get (R.BENCH_RSP_BUSY n) = 0 → s.hw.curRuns n = true → t = s.hw.cur n → s.hw.get (R.BENCH_THR_W0_CANCEL_PEND t) = 1 → c = .delay n ∨ c = .benchYield n ∨ c = .exit n → Gives (c) s fun h =>
        h.get (R.BENCH_RSP_STATUS n) = 0 ∧ h.btState t = 0 ∧ h.get (R.BENCH_THR_W0_CANCEL_PEND t) = 0 ∧ h.btTomb t = s.hw.btTomb t ∧ MemKept s.hw h) ∧
    (∀ (n : Fin 8) (t c : Nat) (v : Dword) (rest : List (Nat × Dword)), s.hw.get (R.BENCH_RSP_BUSY n) = 0 → s.hw.curRuns n = true → t = s.hw.cur n → (s.hw.bt t).signals = (c, v) :: rest → s.hw.awl.raisers = [] → Gives (.sigPop n) s fun h =>
        h.get (R.BENCH_RSP_STATUS n) = 0 ∧ h.get (R.BENCH_RSP_CODE n) = c % 2 ^ 16 ∧ h.word (R.BENCH_RSP_D0 n) = v.setWidth 32 ∧ h.word (R.BENCH_RSP_D1 n) = (v >>> 32).setWidth 32 ∧
        (h.bt t).signals = rest ∧ MemKept s.hw h) ∧
    (∀ (n : Fin 8) (t : Nat), s.hw.get (R.BENCH_RSP_BUSY n) = 0 → s.hw.curRuns n = true → t = s.hw.cur n → (s.hw.bt t).signals = [] → Gives (.sigPop n) s fun h =>
        h.get (R.BENCH_RSP_STATUS n) = 4 ∧ MemKept s.hw h) ∧
    (∀ (n : Fin 8) (c : Instr), s.hw.get (R.BENCH_RSP_BUSY n) = 0 → s.hw.curRuns n = false → c ∈ ([.delay n, .wait n, .benchYield n, .sigPop n, .exit n] : List Instr) → Gives (c) s fun h =>
        h.get (R.BENCH_RSP_STATUS n) = 1 ∧ MemKept s.hw h) ∧
    (∀ (n : Fin 8) (t : Fin 4096), s.hw.get (R.BENCH_RSP_BUSY n) = 0 → s.hw.btState t ≠ 0 → s.hw.btState t ≠ 4 ∨ (s.hw.word (R.BENCH_THR_W1 t) ||| s.hw.arg n 0) &&& (s.hw.bt t).mask = 0 → Gives (.setEvent n t) s fun h =>
        h.get (R.BENCH_RSP_STATUS n) = 0 ∧ h.word (R.BENCH_THR_W1 t) = s.hw.word (R.BENCH_THR_W1 t) ||| s.hw.arg n 0 ∧ MemKept s.hw h) ∧
    (∀ (n : Fin 8) (t : Fin 4096) (e w : Word), s.hw.get (R.BENCH_RSP_BUSY n) = 0 → s.hw.btState t = 4 → e = s.hw.word (R.BENCH_THR_W1 t) ||| s.hw.arg n 0 → w = e &&& (s.hw.bt t).mask → w ≠ 0 → Gives (.setEvent n t) s fun h =>
        h.get (R.BENCH_RSP_STATUS n) = 0 ∧ h.word (R.BENCH_THR_W1 t) = e &&& ~~~w ∧ h.word (R.BENCH_THR_W3 t) = w ∧ (h.btState t = 1 ∨ h.btState t = 2) ∧ MemKept s.hw h) ∧
    (∀ (n : Fin 8) (t : Fin 4096) (c : Instr), s.hw.get (R.BENCH_RSP_BUSY n) = 0 → s.hw.btState t = 0 → c = .setEvent n t ∨ c = .setPrio n t → Gives (c) s fun h =>
        h.get (R.BENCH_RSP_STATUS n) = 1 ∧ MemKept s.hw h) ∧
    (∀ (n : Fin 8) (t : Fin 4096), s.hw.get (R.BENCH_RSP_BUSY n) = 0 → s.hw.btState t ≠ 0 → Gives (.setPrio n t) s fun h =>
        h.get (R.BENCH_RSP_STATUS n) = 0 ∧ h.get (R.BENCH_THR_W0_PRIO t) = bitsOf (s.hw.arg n 0) 0 6 ∧ (s.hw.btState t ≠ 1 → h.btEff t = bitsOf (s.hw.arg n 0) 0 6) ∧ MemKept s.hw h) ∧
    (∀ (n : Fin 8) (i : Nat), s.hw.get (R.BENCH_RSP_BUSY n) = 0 → i = bitsOf (s.hw.arg n 0) 0 8 → Gives (.irqAck n) s fun h =>
        h.get (R.BENCH_RSP_STATUS n) = 0 ∧ (i ≠ 232 ∨ s.hw.flag (R.BENCH_IRQ_EN i) = false → h.get (R.BENCH_IRQ_PEND i) = if s.hw.irqLevel i = true ∧ s.hw.flag (R.BENCH_IRQ_EN i) = true then 1 else 0) ∧ MemKept s.hw h) ∧
    (∀ (n : Fin 8) (t : Fin 4096) (c : Instr), s.hw.get (R.BENCH_RSP_BUSY n) = 1 → c ∈ ([.create n t, .ready n t, .cancel n t, .suspend n t, .delay n, .wait n, .setEvent n t, .setPrio n t, .benchYield n, .sigPop n, .irqAck n, .exit n] : List Instr) → Gives (c) s fun h =>
        h.get R.BENCH_STAT_CFG_ERR = 1 ∧ OnlyRegs [R.BENCH_STAT] s.hw h)

/-- Ticks, dispatch, switches and ports (R460, R467 to R475). -/
def Obligations.BenchTicksSwitchesAndPorts : Prop :=
  ∀ s : State, s.hw.mainUp = true → 
    (∀ (d : Nat), tget s.hw.timers .benchTick = some d → Gives (.tick) s fun h =>
        h.get R.BENCH_TICK_CNT_TICK_CNT = (s.hw.get R.BENCH_TICK_CNT_TICK_CNT + 1) % 2 ^ 32 ∧
        tget h.timers .benchTick = some ((s.hw.advanceTo d).et + s.hw.get R.BENCH_TICK_PERIOD * 1000) ∧ MemKept s.hw h) ∧
    (∀ (t : Fin 4096), (s.hw.bt t).timed = true → s.hw.wakeCome t = true → Gives (.delayExpiry t) s fun h =>
        (h.btState t = 1 ∨ h.btState t = 2) ∧ (s.hw.btState t = 4 → h.word (R.BENCH_THR_W3 t) = 0) ∧ (h.bt t).timed = false ∧ MemKept s.hw h) ∧
    (∀ (t : Fin 4096) (e : Nat), s.hw.btState t = 1 → (s.hw.bt t).ageEn = true → e = s.hw.effective (s.hw.get (R.BENCH_THR_W0_PRIO t)) ((s.hw.bt t).stood + 1) true → Gives (.ageing t) s fun h =>
        h.get R.BENCH_CNT1_AGED = (if e < s.hw.btEff t then min (s.hw.get R.BENCH_CNT1_AGED + 1) 65535 else s.hw.get R.BENCH_CNT1_AGED) ∧
        (h.btState t = 1 ∧ h.btEff t = min e (s.hw.btEff t) ∧ (h.bt t).stood = (s.hw.bt t).stood + 1 ∨ h.btState t = 2 ∧ h.btEff t = s.hw.get (R.BENCH_THR_W0_PRIO t)) ∧ MemKept s.hw h) ∧
    (∀ (n : Fin 8) (t : Nat), s.hw.curRuns n = true → t = s.hw.cur n → s.hw.next n = t → s.hw.coreIdle n = false → (s.hw.bt t).slice ≠ 0 → (s.hw.bt t).slice ≤ (s.hw.bt t).ran + 1 → s.hw.flag (R.BENCH_PMASK_PMASK n) = true ∨ ((s.hw.readyList (s.hw.btEff t)).any fun u => s.hw.eligibleCore u n) = false → Gives (.sliceEnd n) s fun h =>
        (h.bt t).ran = 0 ∧ h.btState t = 2 ∧ MemKept s.hw h) ∧
    (∀ (n : Fin 8) (t : Nat), s.hw.curRuns n = true → t = s.hw.cur n → s.hw.get (R.BENCH_THR_W0_CANCEL_PEND t) = 0 → s.hw.next n = t → s.hw.coreIdle n = false → (s.hw.bt t).slice ≠ 0 → (s.hw.bt t).slice ≤ (s.hw.bt t).ran + 1 → s.hw.flag (R.BENCH_PMASK_PMASK n) = false → ((s.hw.readyList (s.hw.btEff t)).any fun u => u ≠ t && s.hw.eligibleCore u n) = true → Gives (.sliceEnd n) s fun h =>
        (h.btState t = 1 ∨ h.btState t = 2) ∧ h.get (R.BENCH_NEXT_CAUSE n) = 2 ∧ MemKept s.hw h) ∧
    (∀ (n : Fin 8) (v : Word), ¬ ((fieldOf v (R.BENCH_ACK_IDLE n) == 1) = s.hw.coreIdle n ∧ (fieldOf v (R.BENCH_ACK_IDLE n) = 1 ∨ fieldOf v (R.BENCH_ACK_THREAD n) = s.hw.next n)) → Gives (.ack n v) s fun h =>
        h.get (R.BENCH_RSP_ACK_STALE n) = 1 ∧ OnlyRegs [R.BENCH_RSP n] s.hw h) ∧
    (∀ (n : Fin 8) (v : Word) (t : Nat), t = fieldOf v (R.BENCH_ACK_THREAD n) → fieldOf v (R.BENCH_ACK_IDLE n) = 0 → s.hw.coreIdle n = false → t = s.hw.next n → ¬ (s.hw.curRuns n = true ∧ s.hw.cur n = t) → Gives (.ack n v) s fun h =>
        h.get (R.BENCH_CUR_THREAD n) = t ∧ h.get (R.BENCH_CUR_IDLE n) = 0 ∧ h.btState t = 2 ∧ h.get (R.BENCH_RSP_ACK_STALE n) = 0 ∧ MemKept s.hw h) ∧
    (∀ (n : Fin 8) (v : Word), fieldOf v (R.BENCH_ACK_IDLE n) = 1 → s.hw.coreIdle n = true → Gives (.ack n v) s fun h =>
        h.get (R.BENCH_CUR_IDLE n) = 1 ∧ h.get (R.BENCH_RSP_ACK_STALE n) = 0 ∧ MemKept s.hw h) ∧
    (∀ (n : Fin 8) (v : Word), Gives (.pmaskWrite n v) s fun h =>
        h.get (R.BENCH_PMASK_PMASK n) = v.toNat % 2 ∧ MemKept s.hw h) ∧
    (∀ (n : Fin 8) (c : Instr), s.hw.get (R.BENCH_QRSP_BUSY n) = 1 → c = .push n ∨ c = .pull n ∨ c = .peek n → Gives (c) s fun h =>
        h.get R.BENCH_STAT_CFG_ERR = 1 ∧ OnlyRegs [R.BENCH_STAT] s.hw h) ∧
    (∀ (n : Fin 8) (q : Nat), s.hw.get (R.BENCH_QRSP_BUSY n) = 0 → q = s.hw.get (R.BENCH_QID_QID n) → (isMailbox q || isWorkQueue q) = true → (s.hw.wordsOf q).length < queueDepth q → s.hw.pullersOf q = [] → Gives (.push n) s fun h =>
        h.wordsOf q = s.hw.wordsOf q ++ [BitVec.ofNat 64 (s.hw.pair (R.BENCH_QDATA_LO n) (R.BENCH_QDATA_HI n))] ∧ h.get (R.BENCH_QRSP_STATUS n) = 0 ∧ RegsKept [R.BENCH_QRSP n] s.hw h ∧ MemKept s.hw h) ∧
    (∀ (n : Fin 8) (q : Nat), s.hw.get (R.BENCH_QRSP_BUSY n) = 0 → q = s.hw.get (R.BENCH_QID_QID n) → (isMailbox q || isWorkQueue q) = false ∨ queueDepth q ≤ (s.hw.wordsOf q).length → Gives (.push n) s fun h =>
        h.get (R.BENCH_QRSP_STATUS n) = (if isMailbox q || isWorkQueue q then 1 else 3) ∧ OnlyRegs [R.BENCH_QRSP n] s.hw h) ∧
    (∀ (n : Fin 8) (q : Nat) (v : Dword) (rest : List Dword), s.hw.get (R.BENCH_QRSP_BUSY n) = 0 → q = s.hw.get (R.BENCH_QID_QID n) → isWorkQueue q = true → s.hw.wordsOf q = v :: rest → s.hw.pushersOf q = [] → Gives (.pull n) s fun h =>
        h.wordsOf q = rest ∧ h.word (R.BENCH_QDATA_LO n) = v.setWidth 32 ∧ h.word (R.BENCH_QDATA_HI n) = (v >>> 32).setWidth 32 ∧ h.get (R.BENCH_QRSP_STATUS n) = 0 ∧
        RegsKept [R.BENCH_QRSP n, R.BENCH_QDATA_LO n, R.BENCH_QDATA_HI n] s.hw h ∧ MemKept s.hw h) ∧
    (∀ (n : Fin 8) (q : Nat) (v : Dword) (rest : List Dword), s.hw.get (R.BENCH_QRSP_BUSY n) = 0 → q = s.hw.get (R.BENCH_QID_QID n) → isWorkQueue q = true → s.hw.wordsOf q = v :: rest → Gives (.peek n) s fun h =>
        h.wordsOf q = s.hw.wordsOf q ∧ h.word (R.BENCH_QDATA_LO n) = v.setWidth 32 ∧ h.word (R.BENCH_QDATA_HI n) = (v >>> 32).setWidth 32 ∧ h.get (R.BENCH_QRSP_STATUS n) = 0 ∧
        OnlyRegs [R.BENCH_QRSP n, R.BENCH_QDATA_LO n, R.BENCH_QDATA_HI n] s.hw h) ∧
    (∀ (n : Fin 8) (q : Nat) (c : Instr), s.hw.get (R.BENCH_QRSP_BUSY n) = 0 → q = s.hw.get (R.BENCH_QID_QID n) → isWorkQueue q = true → s.hw.wordsOf q = [] → c = .pull n ∨ c = .peek n → Gives (c) s fun h =>
        h.get (R.BENCH_QRSP_STATUS n) = 2 ∧ OnlyRegs [R.BENCH_QRSP n] s.hw h) ∧
    (∀ (i : Fin 256) (t : Nat), i.val ≠ 232 → s.hw.irqLevel i = true → s.hw.flag (R.BENCH_IRQ_EN i) = true → s.hw.flag (R.BENCH_IRQ_PEND i) = false → t = s.hw.get (R.BENCH_IRQ_THREAD i) → Gives (.interruptPost i) s fun h =>
        h.get (R.BENCH_IRQ_PEND i) = 1 ∧
        (s.hw.btState t = 0 ∨ s.hw.btTomb t = true → h.get R.BENCH_CNT0_EV_DROP = min (s.hw.get R.BENCH_CNT0_EV_DROP + 1) 65535 ∧ OnlyRegs [R.BENCH_IRQ i, R.BENCH_CNT0] s.hw h) ∧
        (s.hw.btState t ≠ 0 ∧ s.hw.btState t ≠ 4 ∧ s.hw.btTomb t = false → h.word (R.BENCH_THR_W1 t) = s.hw.word (R.BENCH_THR_W1 t) ||| BitVec.ofNat 32 (2 ^ s.hw.get (R.BENCH_IRQ_EVBIT i))) ∧ MemKept s.hw h) ∧
    (∀ (i : Fin 256), i.val ≠ 232 → s.hw.irqLevel i = false ∨ s.hw.flag (R.BENCH_IRQ_EN i) = false ∨ s.hw.flag (R.BENCH_IRQ_PEND i) = true → Gives (.interruptPost i) s fun h =>
        Unchanged s.hw h) ∧
    (∀ (i : Fin 256), i.val = 232 → Gives (.interruptPost i) s fun h =>
        h.flag (R.BENCH_IRQ_PEND i) = (s.hw.flag (R.BENCH_IRQ_PEND i) || (s.hw.flag (R.BENCH_IRQ_EN i) && s.hw.freeNat % 2 == 1)) ∧ MemKept s.hw h) ∧
    (∀ (m : Fin 27) (n : Fin 8) (v : Word), fieldOf v (R.SYS_CORE_CTL_RUN n) = 1 → s.hw.get (R.SYS_CORE_CTL_RUN n) = 0 → Gives (.runWrite m n v) s fun h =>
        h.get (R.SYS_CORE_CTL_RUN n) = 1 ∧ h.get (R.SYS_CORE_STAT_STATE n) = 1 ∧
        kget h.bench.started n = some (s.hw.pair (R.SYS_CORE_ENTRY_LO n) (R.SYS_CORE_ENTRY_HI n) / 4 * 4) ∧ MemKept s.hw h) ∧
    (∀ (m : Fin 27) (n : Fin 8) (v : Word), fieldOf v (R.SYS_CORE_CTL_RUN n) = 0 → s.hw.get (R.SYS_CORE_CTL_RUN n) = 1 → m.val < 8 ∧ m.val ≠ n.val ∨ m.val = 25 ∧ s.hw.get R.ILT_DBG_STAT_LEVEL = 2 → Gives (.runWrite m n v) s fun h =>
        h.get (R.SYS_CORE_CTL_RUN n) = 0 ∧ h.get (R.SYS_CORE_STAT_STATE n) = 0 ∧ h.get (R.BENCH_NEXT_CAUSE n) = 4 ∧ MemKept s.hw h) ∧
    (∀ (m : Fin 27) (n : Fin 8) (v : Word), fieldOf v (R.SYS_CORE_CTL_RUN n) = 0 → ¬ (m.val < 8 ∧ m.val ≠ n.val ∨ m.val = 25 ∧ s.hw.get R.ILT_DBG_STAT_LEVEL = 2) → Gives (.runWrite m n v) s fun h =>
        Unchanged s.hw h)

/-- Hardware locks (R491 to R493). SHANK_ACCESS (R31, R458, R479, R481, R487). That a core's access that misses is made again is the model's reading
(log 41). That an access of no target completes within its own command is the model's
choice (log 8). -/
def Obligations.PresentedRequestsAndLocks : Prop :=
  ∀ s : State, s.hw.mainUp = true → 
    (∀ (m : Fin 27) (i : Fin 1024), m.val < 8 → s.hw.lockHeld i = false → Gives (.lockAcqRead m i) s fun h =>
        h.lockOwnedByMaster i m = true ∧ h.lockBroken i = false ∧
        kget h.shank.replies m = some ⟨m, R.SHK_LOCK_ACQ i, 0, bytesLE 4 (if s.hw.lockBroken i then 1 else 0)⟩ ∧ RegsKept [R.SHK_LOCK_STAT i] s.hw h ∧ MemKept s.hw h) ∧
    (∀ (m : Fin 27) (i : Fin 1024), m.val < 8 → s.hw.lockHeld i = true → Gives (.lockAcqRead m i) s fun h =>
        h.word (R.SHK_LOCK_STAT i) = s.hw.word (R.SHK_LOCK_STAT i) ∧ kget h.shank.replies m = some ⟨m, R.SHK_LOCK_ACQ i, 0, bytesLE 4 3⟩ ∧
        h.get R.SHK_STAT_LOCK_ERR = (if s.hw.get (R.SHK_LOCK_STAT_OWNER i) = m then 1 else s.hw.get R.SHK_STAT_LOCK_ERR) ∧ RegsKept [R.SHK_STAT] s.hw h ∧ MemKept s.hw h) ∧
    (∀ (m : Fin 27) (i : Fin 1024), m.val < 8 → s.hw.lockOwnedByMaster i m = true → s.hw.lockWaiters i = [] → Gives (.lockRelWrite m i) s fun h =>
        h.lockHeld i = false ∧ h.lockBroken i = false ∧ RegsKept [R.SHK_LOCK_STAT i] s.hw h ∧ MemKept s.hw h) ∧
    (∀ (m : Fin 27) (i : Fin 1024) (u rd : Nat) (rest : List Nat), m.val < 8 → s.hw.lockOwnedByMaster i m = true → s.hw.lockWaiters i = u :: rest → u < 256 → (s.hw.thread u).on = .lock rd i → Gives (.lockRelWrite m i) s fun h =>
        h.lockHeld i = true ∧ h.get (R.SHK_LOCK_STAT_OWNER i) = 8 + u / 32 ∧ h.get (R.SHK_LOCK_STAT_THREAD i) = u ∧ h.lockWaiters i = rest ∧
        (h.thread u).on = .done ⟨rd, some 0, none, 0⟩ ∧ RegsKept [R.SHK_LOCK_STAT i] s.hw h ∧ MemKept s.hw h) ∧
    (∀ (m : Fin 27) (i : Fin 1024), m.val < 8 → s.hw.lockOwnedByMaster i m = false → Gives (.lockRelWrite m i) s fun h =>
        h.get R.SHK_STAT_LOCK_ERR = 1 ∧ OnlyRegs [R.SHK_STAT] s.hw h) ∧
    (∀ (m : Fin 27) (i : Fin 1024) (c : Instr), 8 ≤ m.val → c = .lockRelWrite m i ∨ c = .brk m i → Gives (c) s fun h =>
        h.get R.SHK_STAT_CFG_ERR = 1 ∧ OnlyRegs [R.SHK_STAT] s.hw h) ∧
    (∀ (m : Fin 27) (i : Fin 1024), m.val < 8 → s.hw.lockWaiters i = [] → Gives (.brk m i) s fun h =>
        h.lockHeld i = false ∧ h.lockBroken i = true ∧ RegsKept [R.SHK_LOCK_STAT i] s.hw h ∧ MemKept s.hw h) ∧
    (∀ (m : Fin 27) (i : Fin 1024) (u rd : Nat) (rest : List Nat), m.val < 8 → s.hw.lockWaiters i = u :: rest → u < 256 → (s.hw.thread u).on = .lock rd i → Gives (.brk m i) s fun h =>
        h.lockHeld i = true ∧ h.lockBroken i = false ∧ h.get (R.SHK_LOCK_STAT_THREAD i) = u ∧ (h.thread u).on = .done ⟨rd, some 1, none, 0⟩ ∧
        RegsKept [R.SHK_LOCK_STAT i] s.hw h ∧ MemKept s.hw h) ∧
    (∀ (m : Fin 27) (a : BitVec 40) (n : Nat) (d : Option (List Byte)) (cont : Bool) (t : Nat), [1, 2, 4, 8, 32, 64].contains n = true ∧ (a.toNat % n = 0 ∨ isRegister a.toNat = true) → (d.all fun bs => bs.length == n) = true → targetOf a.toNat = some t → coreAccess m a.toNat n = false → Gives (.shankAccess m a n d cont) s fun h =>
        (h.arbiter t).waiting = ((s.hw.arbiter t).waiting.map fun r => { r with parked := r.parked && r.master == m.val }) ++
          [⟨m, none, false, a.toNat, n, d, decide (16 ≤ m.val) && decide (m.val ≤ 22) && cont && (s.hw.word R.SHK_HINT_EN).toNat.testBit m,
            (s.hw.arbiter t).waiting.isEmpty && s.hw.parkMaster t == some m.val⟩] ∧
        (h.arbiter t).waits = (s.hw.arbiter t).waits ∧ (∀ u < 67, u ≠ t → h.arbiter u = s.hw.arbiter u) ∧ RegsKept [] s.hw h ∧ MemKept s.hw h) ∧
    (∀ (m : Fin 27) (a : BitVec 40) (n : Nat) (d : Option (List Byte)) (cont : Bool), [1, 2, 4, 8, 32, 64].contains n = true ∧ a.toNat % n = 0 → (d.all fun bs => bs.length == n) = true → targetOf a.toNat = none → Gives (.shankAccess m a n d cont) s fun h =>
        Logged s.hw h m a.toNat 1 d.isSome ∧ Answered h m m a.toNat 1 (List.replicate n 0) ∧ (∀ u < 67, h.arbiter u = s.hw.arbiter u) ∧ RegsKept shankErrorRegs s.hw h ∧ MemKept s.hw h) ∧
    (∀ (m : Fin 27) (a : BitVec 40) (n : Nat) (d : Option (List Byte)) (cont : Bool) (t : Nat), [1, 2, 4, 8, 32, 64].contains n = true ∧ a.toNat % n = 0 → (d.all fun bs => bs.length == n) = true → coreAccess m a.toNat n = true → s.hw.line a.toNat = none ∧ targetOf (a.toNat / 64 * 64) = some t → Gives (.shankAccess m a n d cont) s fun h =>
        (∃ q, (h.arbiter t).waiting.getLast? = some q ∧ q.master = m.val ∧ q.addr = a.toNat / 64 * 64 ∧ q.size = 64 ∧ q.data = none) ∧
        h.shank.lines = s.hw.shank.lines ∧ RegsKept [] s.hw h ∧ MemKept s.hw h) ∧
    (∀ (m : Fin 27) (a : BitVec 40) (n : Nat) (cont : Bool) (l : CacheLine), [1, 2, 4, 8, 32, 64].contains n = true ∧ a.toNat % n = 0 → coreAccess m a.toNat n = true → s.hw.line a.toNat = some l → Gives (.shankAccess m a n none cont) s fun h =>
        Answered h m m a.toNat 0 ((l.bytes.drop (a.toNat % 64)).take n) ∧ h.shank.lines = s.hw.shank.lines ∧ RegsKept [] s.hw h ∧ MemKept s.hw h) ∧
    (∀ (m : Fin 27) (a : BitVec 40) (n : Nat) (bs : List Byte) (cont : Bool) (l : CacheLine), [1, 2, 4, 8, 32, 64].contains n = true ∧ a.toNat % n = 0 → bs.length = n → coreAccess m a.toNat n = true → s.hw.line a.toNat = some l → 0x20000 ≤ a.toNat → Gives (.shankAccess m a n (some bs) cont) s fun h =>
        Answered h m m a.toNat 0 [] ∧ h.line a.toNat = some ⟨l.bytes.take (a.toNat % 64) ++ bs ++ l.bytes.drop (a.toNat % 64 + n), true⟩ ∧
        RegsKept [] s.hw h ∧ MemKept s.hw h)

/-- Clicker (R302 to R310, R314, R315, R335). Source counters: 0 arrived, 1 filter, 2 refused; pool counters: 0 stored,
1 ungranted, 2 no buffer, 3 over the MTU. -/
def Obligations.ClassificationAndBuffers : Prop :=
  ∀ s : State, s.hw.mainUp = true → 
    (∀ (q : Fin 16), (s.hw.staged q).head?.all (fun g => g.frame.isSome) = true → Gives (.classificationPoint q) s fun h =>
        Unchanged s.hw h) ∧
    (∀ (q : Fin 16) (g : Staged) (rest : List Staged) (v : Verdict), s.hw.staged q = g :: rest → g.frame = none → v = s.hw.classify q g.bytes → v.dest = none → Gives (.classificationPoint q) s fun h =>
        h.staged q = rest ∧ Counted (s.hw.sourceCount q 0) (h.sourceCount q 0) ∧ Counted (s.hw.sourceCount q 1) (h.sourceCount q 1) ∧
        RegsKept [R.CKR_SRC_CNT_LO q 0, R.CKR_SRC_CNT_HI q 0, R.CKR_SRC_CNT_LO q 1, R.CKR_SRC_CNT_HI q 1, R.CKR_STAT] s.hw h ∧ MemKept s.hw h) ∧
    (∀ (q : Fin 16) (g : Staged) (rest : List Staged) (v : Verdict) (d : Dest), s.hw.staged q = g :: rest → g.frame = none → v = s.hw.classify q g.bytes → v.dest = some d → s.hw.destAccepts d = false → Gives (.classificationPoint q) s fun h =>
        h.staged q = rest ∧ Counted (s.hw.sourceCount q 0) (h.sourceCount q 0) ∧ Counted (s.hw.sourceCount q 2) (h.sourceCount q 2) ∧
        RegsKept [R.CKR_SRC_CNT_LO q 0, R.CKR_SRC_CNT_HI q 0, R.CKR_SRC_CNT_LO q 2, R.CKR_SRC_CNT_HI q 2, R.CKR_STAT] s.hw h ∧ MemKept s.hw h) ∧
    (∀ (q : Fin 16) (g : Staged) (rest : List Staged) (v : Verdict) (d : Dest), s.hw.staged q = g :: rest → g.frame = none → v = s.hw.classify q g.bytes → v.dest = some d → s.hw.destAccepts d = true → s.hw.fabric.frames.length < descriptors → s.hw.poolGrants v.pool = false → Gives (.classificationPoint q) s fun h =>
        h.staged q = rest ∧ Counted (s.hw.sourceCount q 0) (h.sourceCount q 0) ∧ Counted (s.hw.poolCount v.pool 1) (h.poolCount v.pool 1) ∧ MemKept s.hw h) ∧
    (∀ (q : Fin 16) (g : Staged) (rest : List Staged) (v : Verdict) (d : Dest), s.hw.staged q = g :: rest → g.frame = none → v = s.hw.classify q g.bytes → v.dest = some d → s.hw.destAccepts d = true → s.hw.fabric.frames.length < descriptors → s.hw.poolGrants v.pool = true → Gives (.classificationPoint q) s fun h =>
        h.staged q = { g with frame := some s.hw.fabric.nextFrame, dest := some d, reserved := s.hw.reservation v.pool } :: rest ∧
        h.frame s.hw.fabric.nextFrame = ⟨q, g.bytes.length, isTagged g.bytes, v.pool, [], 0, false, if 12 ≤ q.val ∧ q.val ≤ 14 then g.weltWord else v.user,
          g.stamp, none, none, .none, none, 0, 0, 0, 0, 0, []⟩ ∧
        h.poolFree v.pool = s.hw.poolFree v.pool - s.hw.reservation v.pool ∧ Counted (s.hw.sourceCount q 0) (h.sourceCount q 0) ∧
        (match d with
          | .domain k => h.domainWait k == s.hw.domainWait k + 1
          | .queue _ _ => h.get R.LAC_STAT_WAITING == s.hw.get R.LAC_STAT_WAITING
          | .ring k => h.ringReservedOf k == s.hw.ringReservedOf k + 1) = true ∧ MemKept s.hw h) ∧
    (∀ (q : Fin 16), (s.hw.staged q).head?.all (fun g => match g.frame with | none => true | some id => decide (buffersFor g.bytes.length ≤ (s.hw.frame id).bufs.length)) = true → Gives (.frameBufferRequest q) s fun h =>
        Unchanged s.hw h) ∧
    (∀ (q : Fin 16) (g : Staged) (rest : List Staged) (id : Nat) (f : Frame), s.hw.staged q = g :: rest → g.frame = some id → f = s.hw.frame id → f.bufs.length < buffersFor g.bytes.length → f.pool < 16 → Dest.real g.dest = true → s.hw.get (R.CKR_POOL_CFG_MTU f.pool) < min (g.bytes.length + 64) (256 * (f.bufs.length + 1)) → s.hw.get (R.CKR_POOL_CFG_MTU f.pool) ≤ 256 * f.bufs.length ∨ g.reserved ≠ 0 ∨ s.hw.poolFree f.pool ≠ 0 → Gives (.frameBufferRequest q) s fun h =>
        h.staged q = rest ∧ h.gone id = true ∧ Counted (s.hw.poolCount f.pool 3) (h.poolCount f.pool 3) ∧ MemKept s.hw h) ∧
    (∀ (q : Fin 16) (g : Staged) (rest : List Staged) (id : Nat) (f : Frame), s.hw.staged q = g :: rest → g.frame = some id → f = s.hw.frame id → f.bufs.length < buffersFor g.bytes.length → f.pool < 16 → Dest.real g.dest = true → 256 * f.bufs.length < s.hw.get (R.CKR_POOL_CFG_MTU f.pool) → g.reserved = 0 → s.hw.poolFree f.pool = 0 → Gives (.frameBufferRequest q) s fun h =>
        h.staged q = rest ∧ h.gone id = true ∧ Counted (s.hw.poolCount f.pool 2) (h.poolCount f.pool 2) ∧ MemKept s.hw h) ∧
    (∀ (q : Fin 16) (g : Staged) (rest : List Staged) (id : Nat) (f : Frame) (a : Nat), s.hw.staged q = g :: rest → g.frame = some id → f = s.hw.frame id → f.bufs.length < buffersFor g.bytes.length → min (g.bytes.length + 64) (256 * (f.bufs.length + 1)) ≤ s.hw.get (R.CKR_POOL_CFG_MTU f.pool) → f.pool < 16 → g.reserved ≠ 0 ∨ s.hw.poolFree f.pool ≠ 0 → a = (s.hw.holdBuffer f.pool).2 → 0x20000 ≤ a → s.hw.flag (R.CKR_POOL_CFG_LOC f.pool) = false ∨ f.bufs = [] → (s.hw.busWrite 19 (a + (bufferPart g.bytes f.bufs.length).1) (bufferPart g.bytes f.bufs.length).2).2 = true → Gives (.frameBufferRequest q) s fun h =>
        h.staged q = { g with reserved := g.reserved - 1 } :: rest ∧ h.frame id = { f with bufs := f.bufs ++ [a] } ∧
        h.bytes (a + (bufferPart g.bytes f.bufs.length).1) (bufferPart g.bytes f.bufs.length).2.length = (bufferPart g.bytes f.bufs.length).2 ∧ MemKeptBut a 256 s.hw h ∧
        h.poolFree f.pool = (if g.reserved = 0 then s.hw.poolFree f.pool - 1 else s.hw.poolFree f.pool) ∧ RegsKept [R.CKR_POOL_FREE f.pool, R.CKR_POOL_LOW f.pool] s.hw h) ∧
    (∀ (q : Fin 16) (g : Staged) (rest : List Staged) (id : Nat) (f : Frame) (a b : Nat), s.hw.staged q = g :: rest → g.frame = some id → f = s.hw.frame id → f.bufs.length < buffersFor g.bytes.length → min (g.bytes.length + 64) (256 * (f.bufs.length + 1)) ≤ s.hw.get (R.CKR_POOL_CFG_MTU f.pool) → f.pool < 16 → g.reserved ≠ 0 ∨ s.hw.poolFree f.pool ≠ 0 → a = (s.hw.holdBuffer f.pool).2 → 0x20000 ≤ a → s.hw.flag (R.CKR_POOL_CFG_LOC f.pool) = true → f.bufs.getLast? = some b → 0x20000 ≤ s.hw.linkAddr f.pool (s.hw.bufferIndex f.pool b) → (s.hw.busWrite 19 (a + (bufferPart g.bytes f.bufs.length).1) (bufferPart g.bytes f.bufs.length).2).2 = true → ((s.hw.busWrite 19 (a + (bufferPart g.bytes f.bufs.length).1) (bufferPart g.bytes f.bufs.length).2).1.busWrite 19 (s.hw.linkAddr f.pool (s.hw.bufferIndex f.pool b)) [0, 0, 0, 0]).2 = true → Gives (.frameBufferRequest q) s fun h =>
        h.frame id = { f with bufs := f.bufs ++ [a] } ∧ h.memLE (s.hw.linkAddr f.pool (s.hw.bufferIndex f.pool b)) 4 = s.hw.bufferIndex f.pool a % 2 ^ 32) ∧
    (∀ (q : Fin 16), (s.hw.staged q).head?.all (fun g => match g.frame with | none => true | some id => decide ((s.hw.frame id).bufs.length < buffersFor g.bytes.length)) = true → Gives (.frameComplete q) s fun h =>
        Unchanged s.hw h) ∧
    (∀ (q : Fin 16) (g : Staged) (rest : List Staged) (id : Nat) (f : Frame), s.hw.staged q = g :: rest → g.frame = some id → f = s.hw.frame id → buffersFor g.bytes.length ≤ f.bufs.length → g.good = false → Gives (.frameComplete q) s fun h =>
        h.staged q = rest ∧ h.gone id = true ∧ MemKept s.hw h) ∧
    (∀ (q : Fin 16) (g : Staged) (rest : List Staged) (id : Nat) (f : Frame) (d : Nat), s.hw.staged q = g :: rest → g.frame = some id → f = s.hw.frame id → buffersFor g.bytes.length ≤ f.bufs.length → g.good = true → f.pool < 16 → s.hw.flag (R.CKR_POOL_CFG_LOC f.pool) = false → g.dest = some (.domain d) → Gives (.frameComplete q) s fun h =>
        h.staged q = rest ∧ h.frame id = { f with domain := some d } ∧ h.fabric.waiting = s.hw.fabric.waiting ++ [id] ∧
        kgetD [] h.fabric.domains d = kgetD [] s.hw.fabric.domains d ++ [id] ∧ h.poolFree f.pool = (s.hw.poolFree f.pool + g.reserved) % 2 ^ 23 ∧ Counted (s.hw.poolCount f.pool 0) (h.poolCount f.pool 0) ∧
        RegsKept [R.CKR_POOL_FREE f.pool, R.CKR_POOL_LOW f.pool, R.CKR_POOL_CNT_LO f.pool 0, R.CKR_POOL_CNT_HI f.pool 0, R.CKR_STAT] s.hw h ∧ MemKept s.hw h) ∧
    (∀ (q : Fin 16) (g : Staged) (rest : List Staged) (id : Nat) (f : Frame) (n word : Nat), s.hw.staged q = g :: rest → g.frame = some id → f = s.hw.frame id → buffersFor g.bytes.length ≤ f.bufs.length → g.good = true → f.pool < 16 → n < 16384 → s.hw.flag (R.CKR_POOL_CFG_LOC f.pool) = false → g.dest = some (.queue n word) → ({ f with word := word }).metered = false → s.hw.strictQueue n = false ∨ ({ f with word := word }).tc = 7 → s.hw.queueAdmits n f.bufs.length = true → Gives (.frameComplete q) s fun h =>
        h.staged q = rest ∧ h.queueFrames n = s.hw.queueFrames n ++ [id] ∧ h.get (R.TM_Q_W4_FRAMES n) = (s.hw.get (R.TM_Q_W4_FRAMES n) + 1) % 2 ^ 16 ∧ (h.frame id).word = word ∧ (h.frame id).queue = some n ∧ Counted (s.hw.queueCount n 0) (h.queueCount n 0) ∧ MemKept s.hw h) ∧
    (∀ (q : Fin 16) (g : Staged) (rest : List Staged) (id : Nat) (f : Frame) (r : Nat), s.hw.staged q = g :: rest → g.frame = some id → f = s.hw.frame id → buffersFor g.bytes.length ≤ f.bufs.length → g.good = true → s.hw.flag (R.CKR_POOL_CFG_LOC f.pool) = false → g.dest = some (.ring r) → Gives (.frameComplete q) s fun h =>
        h.staged q = rest ∧ h.ringQueue r = s.hw.ringQueue r ++ [(id, 0)] ∧ h.frame id = f ∧ MemKept s.hw h) ∧
    (∀ (q : Fin 16) (g : Staged) (rest : List Staged) (id : Nat) (f : Frame) (b : Nat), s.hw.staged q = g :: rest → g.frame = some id → f = s.hw.frame id → buffersFor g.bytes.length ≤ f.bufs.length → g.good = true → s.hw.flag (R.CKR_POOL_CFG_LOC f.pool) = true → f.bufs.getLast? = some b → 0x20000 ≤ s.hw.linkAddr f.pool (s.hw.bufferIndex f.pool b) → (s.hw.busWrite 19 (s.hw.linkAddr f.pool (s.hw.bufferIndex f.pool b)) [255, 255, 255, 255]).2 = true → Gives (.frameComplete q) s fun h =>
        h.staged q = rest ∧ h.memLE (s.hw.linkAddr f.pool (s.hw.bufferIndex f.pool b)) 4 = 0xFFFFFFFF ∧ MemKeptBut (s.hw.linkAddr f.pool (s.hw.bufferIndex f.pool b)) 4 s.hw h) ∧
    (∀ (q : Fin 16), s.hw.flag (R.CKR_POOL_CFG_EN q) = true → Gives (.poolEnable q) s fun h =>
        Unchanged s.hw h) ∧
    (∀ (q : Fin 16), s.hw.flag (R.CKR_POOL_CFG_EN q) = false → Gives (.poolEnable q) s fun h =>
        (if s.hw.poolMayOpen q then h.get (R.CKR_POOL_CFG_EN q) = 1 ∧ OnlyRegs [R.CKR_POOL_CFG q] s.hw h
        else h.get R.CKR_STAT_CFG_ERR = 1 ∧ OnlyRegs [R.CKR_STAT] s.hw h)) ∧
    (∀ (q : Fin 16), Gives (.lowClr q) s fun h =>
        h.get (R.CKR_POOL_LOW_LOW q) = s.hw.get (R.CKR_POOL_FREE_FREE q) ∧ OnlyRegs [R.CKR_POOL_LOW q] s.hw h) ∧
    (∀ (v : Word), Gives (.modeWrite v) s fun h =>
        h.get R.CKR_CTL_MODE = fieldOf v R.CKR_CTL_MODE ∧ h.get R.CKR_CTL_PM_RING = fieldOf v R.CKR_CTL_PM_RING ∧
        h.get R.CKR_CTL_PM_POOL = fieldOf v R.CKR_CTL_PM_POOL ∧ OnlyRegs [R.CKR_CTL] s.hw h)

/-- Lacing (R317 to R323) and meters (R340 to R344). -/
def Obligations.DispatchAndRelease : Prop :=
  ∀ s : State, s.hw.mainUp = true → 
    (s.hw.nextDispatch = none → Gives (.lacingDispatch) s fun h =>
        Unchanged s.hw h) ∧
    (∀ (id d : Nat), s.hw.nextDispatch = some id → d = s.hw.frameDomain id → d < 4096 → s.hw.domainExpress d = true → s.hw.inDram id = true → Gives (.lacingDispatch) s fun h =>
        (h.frame id).disp = .drop 252 ∧ (h.frame id).store = some true ∧ h.fabric.waiting = s.hw.fabric.waiting.filter (· != id) ∧
        h.domainWait d = s.hw.domainWait d - 1 ∧ MemKept s.hw h) ∧
    (∀ (id d t : Nat) (f : Frame), s.hw.nextDispatch = some id → d = s.hw.frameDomain id → d < 4096 → f = s.hw.frame id → ¬ (s.hw.domainExpress d = true ∧ s.hw.inDram id = true) → s.hw.eligibleThread d = some t → (s.hw.copyHead f t).2 = true → Gives (.lacingDispatch) s fun h =>
        h.threadState t = 1 ∧ (h.thread t).pc = 4 * s.hw.get (R.LAC_DOM_W0_ENTRY d) ∧ (h.thread t).reg 1 = BitVec.ofNat 64 f.dispatchWord ∧
        (h.thread t).reg 2 = BitVec.ofNat 64 (s.hw.identity t true) ∧ (h.thread t).frame = some id ∧ (h.frame id).store = some (s.hw.domainExpress d) ∧
        h.fabric.waiting = s.hw.fabric.waiting.filter (· != id) ∧ h.domainWait d = s.hw.domainWait d - 1 ∧ h.fabric.lastCluster = t / 32 ∧
        (∀ b ∈ f.bufs.head?, h.bytes (headSlot t + 64) (min f.len 128) = s.hw.memBytes (b + 64) (min f.len 128)) ∧ MemKeptBut (headSlot t) 192 s.hw h) ∧
    (∀ (d : Fin 4096), (kgetD [] s.hw.fabric.domains d).head?.all (fun id => (s.hw.frame id).disp == .none) = true → Gives (.lacingDispose d) s fun h =>
        Unchanged s.hw h) ∧
    (∀ (d : Fin 4096) (id : Nat) (rest : List Nat) (f : Frame) (n : Nat), kgetD [] s.hw.fabric.domains d = id :: rest → f = s.hw.frame id → f.domain = some d.val → n < 256 → f.disp = .drop n → Gives (.lacingDispose d) s fun h =>
        kgetD [] h.fabric.domains d = (kgetD [] s.hw.fabric.domains d).filter (· != id) ∧ h.gone id = true ∧ Counted (s.hw.reasonCount n) (h.reasonCount n) ∧ MemKept s.hw h) ∧
    (∀ (d : Fin 4096) (id : Nat) (rest : List Nat) (f : Frame) (n word : Nat), kgetD [] s.hw.fabric.domains d = id :: rest → f = s.hw.frame id → f.domain = some d.val → f.disp = .release n word → n < 16384 → f.lines = [] → ({ f with word := word }).metered = false → s.hw.strictQueue n = false ∨ ({ f with word := word }).tc = 7 → s.hw.queueAdmits n f.bufs.length = true → Gives (.lacingDispose d) s fun h =>
        h.queueFrames n = s.hw.queueFrames n ++ [id] ∧ h.get (R.TM_Q_W4_FRAMES n) = (s.hw.get (R.TM_Q_W4_FRAMES n) + 1) % 2 ^ 16 ∧ kgetD [] h.fabric.domains d = (kgetD [] s.hw.fabric.domains d).filter (· != id) ∧ (h.frame id).word = word ∧ (h.frame id).domain = none ∧ (h.frame id).queue = some n ∧
        Counted (s.hw.queueCount n 0) (h.queueCount n 0) ∧ MemKept s.hw h) ∧
    (∀ (d : Fin 4096) (id : Nat) (rest : List Nat) (f : Frame) (n word : Nat), kgetD [] s.hw.fabric.domains d = id :: rest → f = s.hw.frame id → f.domain = some d.val → f.disp = .release n word → n < 16384 → f.lines = [] → ({ f with word := word }).metered = false → s.hw.strictQueue n = true → ({ f with word := word }).tc ≠ 7 → Gives (.lacingDispose d) s fun h =>
        h.gone id = true ∧ Counted (s.hw.queueCount n 1) (h.queueCount n 1) ∧ h.get R.TM_STAT_LEVEL_EV = 1 ∧ MemKept s.hw h) ∧
    (∀ (d : Fin 4096) (id : Nat) (rest : List Nat) (f : Frame) (n word : Nat), kgetD [] s.hw.fabric.domains d = id :: rest → f = s.hw.frame id → f.domain = some d.val → f.disp = .release n word → n < 16384 → f.lines = [] → ({ f with word := word }).metered = false → s.hw.strictQueue n = false → s.hw.queueAdmits n f.bufs.length = false → Gives (.lacingDispose d) s fun h =>
        h.gone id = true ∧ Counted (s.hw.queueCount n 1) (h.queueCount n 1) ∧ MemKept s.hw h) ∧
    (∀ (d : Fin 4096) (id : Nat) (rest : List Nat) (f : Frame) (n word m c : Nat), kgetD [] s.hw.fabric.domains d = id :: rest → f = s.hw.frame id → f.domain = some d.val → f.disp = .release n word → f.lines = [] → ({ f with word := word }).metered = true → m = ({ f with word := word }).meter → c = (colourOf (s.hw.meterNow m) (({ f with word := word }).counted (s.hw.get (R.TM_MTR_CBS_OVH m)) * 2 ^ 10)).1 → c = 1 ∧ s.hw.flag (R.TM_MTR_PBS_YEL_DROP m) = true ∨ c = 2 ∧ s.hw.flag (R.TM_MTR_PBS_RED_DROP m) = true → Gives (.lacingDispose d) s fun h =>
        h.gone id = true ∧ Counted (s.hw.meterCount m c) (h.meterCount m c) ∧ Counted (s.hw.meterCount m 3) (h.meterCount m 3) ∧
        h.meterRec m = (colourOf (s.hw.meterNow m) (({ f with word := word }).counted (s.hw.get (R.TM_MTR_CBS_OVH m)) * 2 ^ 10)).2 ∧ MemKept s.hw h) ∧
    (∀ (d : Fin 4096) (id : Nat) (rest : List Nat) (f : Frame) (k user : Nat), kgetD [] s.hw.fabric.domains d = id :: rest → f = s.hw.frame id → f.domain = some d.val → f.disp = .fwd k user → s.hw.domainRoom k = false → Gives (.lacingDispose d) s fun h =>
        Unchanged s.hw h) ∧
    (∀ (d : Fin 4096) (id : Nat) (rest : List Nat) (f : Frame) (k user : Nat), kgetD [] s.hw.fabric.domains d = id :: rest → f = s.hw.frame id → f.domain = some d.val → f.disp = .fwd k user → k < 4096 → f.lines = [] → s.hw.domainRoom k = true → Gives (.lacingDispose d) s fun h =>
        h.fabric.waiting = s.hw.fabric.waiting ++ [id] ∧
        kgetD [] h.fabric.domains k = (if k = d then (kgetD [] s.hw.fabric.domains d).filter (· != id) else kgetD [] s.hw.fabric.domains k) ++ [id] ∧
        h.frame id = { f with disp := .none, store := none, fwds := f.fwds + 1, fwded := true, user := user, domain := some k } ∧
        h.domainWait k = s.hw.domainWait k + 1 ∧ MemKept s.hw h) ∧
    (∀ (m : Fin 4096), Gives (.fill m) s fun h =>
        h.meterRec m = ⟨s.hw.get (R.TM_MTR_CBS_CBS m) * 2 ^ 10, s.hw.get (R.TM_MTR_PBS_PBS m) * 2 ^ 10, (s.hw.meterRec m).last⟩ ∧ RegsKept [] s.hw h ∧ MemKept s.hw h)

/-- The rings (R328 to R334). Ring counters: 0 good, 1 refused. -/
def Obligations.DmaRings : Prop :=
  ∀ s : State, s.hw.mainUp = true → 
    (∀ (r : Fin 64) (v : Word), s.hw.ringMode r = 2 ∧ s.hw.ringState r = 2 ∧ (v.toNat + 2 ^ 32 - s.hw.ringCons r) % 2 ^ 32 ≤ s.hw.ringSize r → Gives (.ringProdWrite r v) s fun h =>
        h.word (R.CKR_RING_PROD r) = v ∧ OnlyRegs [R.CKR_RING_PROD r] s.hw h) ∧
    (∀ (r : Fin 64) (v : Word), ¬ (s.hw.ringMode r = 2 ∧ s.hw.ringState r = 2 ∧ (v.toNat + 2 ^ 32 - s.hw.ringCons r) % 2 ^ 32 ≤ s.hw.ringSize r) → Gives (.ringProdWrite r v) s fun h =>
        h.get R.CKR_STAT_CFG_ERR = 1 ∧ OnlyRegs [R.CKR_STAT] s.hw h) ∧
    (∀ (r : Fin 64) (v : Word), s.hw.ringMode r ≠ 2 ∧ (s.hw.ringProd r + 2 ^ 32 - v.toNat) % 2 ^ 32 ≤ s.hw.ringSize r → s.hw.pushersOf r = [] → Gives (.ringConsWrite r v) s fun h =>
        h.word (R.CKR_RING_CONS r) = v ∧ OnlyRegs [R.CKR_RING_CONS r] s.hw h) ∧
    (∀ (r : Fin 64) (v : Word), ¬ (s.hw.ringMode r ≠ 2 ∧ (s.hw.ringProd r + 2 ^ 32 - v.toNat) % 2 ^ 32 ≤ s.hw.ringSize r) → Gives (.ringConsWrite r v) s fun h =>
        h.get R.CKR_STAT_CFG_ERR = 1 ∧ OnlyRegs [R.CKR_STAT] s.hw h) ∧
    (∀ (r : Fin 64) (v : Word) (t rd q : Nat) (w : Dword), s.hw.ringMode r = 0 ∧ s.hw.ringState r = 2 ∧ (s.hw.ringProd r + 2 ^ 32 - v.toNat) % 2 ^ 32 < s.hw.ringSize r → s.hw.pushersOf r = [t] → (s.hw.thread t).on = .push rd q w → 0x20000 ≤ s.hw.entryAddr r (s.hw.ringProd r) → (s.hw.busWrite 19 (s.hw.entryAddr r (s.hw.ringProd r)) (bytesLE 8 w.toNat)).2 = true → Gives (.ringConsWrite r v) s fun h =>
        h.word (R.CKR_RING_CONS r) = v ∧ h.ringProd r = (s.hw.ringProd r + 1) % 2 ^ 32 ∧ h.memLE (s.hw.entryAddr r (s.hw.ringProd r)) 8 = w.toNat ∧ h.pushersOf r = [] ∧
        (h.thread t).on = .done ⟨rd, some 0, none, 0⟩ ∧ Counted (s.hw.ringCounter r 0) (h.ringCounter r 0) ∧ MemKeptBut (s.hw.entryAddr r (s.hw.ringProd r)) 8 s.hw h) ∧
    (∀ (r : Fin 64), s.hw.ringQueue r = [] → Gives (.rxfWrite r) s fun h =>
        Unchanged s.hw h) ∧
    (∀ (r : Fin 64) (id n : Nat) (rest : List (Nat × Nat)), s.hw.ringQueue r = (id, n) :: rest → s.hw.ringState r ≤ 1 → Gives (.rxfWrite r) s fun h =>
        h.ringQueue r = rest ∧ h.gone id = true ∧ MemKept s.hw h) ∧
    (∀ (r : Fin 64) (id n : Nat) (rest : List (Nat × Nat)), s.hw.ringQueue r = (id, n) :: rest → 2 ≤ s.hw.ringState r → s.hw.slotSize r < (s.hw.frame id).leaving → Gives (.rxfWrite r) s fun h =>
        h.ringQueue r = rest ∧ h.gone id = true ∧ Counted (s.hw.ringCounter r 1) (h.ringCounter r 1) ∧ MemKept s.hw h) ∧
    (∀ (r : Fin 64) (id n : Nat) (rest : List (Nat × Nat)), s.hw.ringQueue r = (id, n) :: rest → 2 ≤ s.hw.ringState r → (s.hw.frame id).leaving ≤ s.hw.slotSize r → s.hw.ringSize r ≤ s.hw.ringCount r → Gives (.rxfWrite r) s fun h =>
        Unchanged s.hw h) ∧
    (∀ (r : Fin 64) (id n a e : Nat) (rest : List (Nat × Nat)) (f : Frame), s.hw.ringQueue r = (id, n) :: rest → 2 ≤ s.hw.ringState r → f = s.hw.frame id → f.leaving ≤ s.hw.slotSize r → s.hw.ringCount r < s.hw.ringSize r → s.hw.flag (R.CKR_POOL_CFG_LOC f.pool) = false → s.hw.frameFault 19 f = none → a = s.hw.slotAddr r (s.hw.ringProd r) → e = s.hw.entryAddr r (s.hw.ringProd r) → 0x20000 ≤ a ∧ 0x20000 ≤ e → a + f.leaving ≤ e ∨ e + 8 ≤ a → (s.hw.busWrite 19 a (s.hw.leavingBytes f)).2 = true → ((s.hw.busWrite 19 a (s.hw.leavingBytes f)).1.busWrite 19 e [0, 0, 0, 0, 0, 0, 0, 0]).2 = true → Gives (.rxfWrite r) s fun h =>
        h.ringQueue r = rest ∧ h.gone id = true ∧ h.ringProd r = (s.hw.ringProd r + 1) % 2 ^ 32 ∧ Counted (s.hw.ringCounter r 0) (h.ringCounter r 0) ∧
        h.bytes a f.leaving = s.hw.leavingBytes f ∧ h.memLE e 8 = rxfEntry f.leaving f.src n f.stamp ∧ MemKeptOff [(a, f.leaving), (e, 8)] s.hw h) ∧
    (∀ (r : Fin 64), ¬ (s.hw.ringMode r = 2 ∧ (s.hw.ringState r = 2 ∨ s.hw.ringState r = 3) ∧ s.hw.ringCount r ≠ 0) → Gives (.txfEntry r) s fun h =>
        Unchanged s.hw h) ∧
    (∀ (r : Fin 64) (e : List Byte) (w : Nat), s.hw.ringMode r = 2 → s.hw.ringState r = 2 ∨ s.hw.ringState r = 3 → s.hw.ringCount r ≠ 0 → (s.hw.busRead 19 (s.hw.entryAddr r (s.hw.ringCons r)) 8).2 = some e → w = ofBytesLE e → w / 2 ^ 40 % 2 ^ 14 = 0 ∨ 16320 < w / 2 ^ 40 % 2 ^ 14 ∨ w / 2 ^ 54 ≠ 0 → Gives (.txfEntry r) s fun h =>
        h.ringCons r = (s.hw.ringCons r + 1) % 2 ^ 32 ∧ Counted (s.hw.ringCounter r 1) (h.ringCounter r 1) ∧ RegsKept [R.CKR_RING_CONS r, R.CKR_RING_CNT_LO r 1, R.CKR_RING_CNT_HI r 1, R.CKR_STAT] s.hw h ∧ MemKept s.hw h) ∧
    (∀ (r : Fin 64) (e bs : List Byte) (w : Nat), s.hw.ringMode r = 2 → s.hw.ringState r = 2 ∨ s.hw.ringState r = 3 → s.hw.ringCount r ≠ 0 → (s.hw.busRead 19 (s.hw.entryAddr r (s.hw.ringCons r)) 8).2 = some e → w = ofBytesLE e → ¬ (w / 2 ^ 40 % 2 ^ 14 = 0 ∨ 16320 < w / 2 ^ 40 % 2 ^ 14 ∨ w / 2 ^ 54 ≠ 0) → (s.hw.busRead 19 (w % 2 ^ 40) (w / 2 ^ 40 % 2 ^ 14)).2 = some bs → s.hw.flag R.CKR_CTL_MODE = true → (s.hw.classify 15 bs).dest = none → Gives (.txfEntry r) s fun h =>
        h.ringCons r = (s.hw.ringCons r + 1) % 2 ^ 32 ∧ Counted (s.hw.ringCounter r 0) (h.ringCounter r 0) ∧ Counted (s.hw.sourceCount 15 0) (h.sourceCount 15 0) ∧ Counted (s.hw.sourceCount 15 1) (h.sourceCount 15 1) ∧ MemKept s.hw h) ∧
    (∀ (r : Fin 64) (e bs : List Byte) (w p n a : Nat), s.hw.ringMode r = 2 → s.hw.ringState r = 2 ∨ s.hw.ringState r = 3 → s.hw.ringCount r ≠ 0 → (s.hw.busRead 19 (s.hw.entryAddr r (s.hw.ringCons r)) 8).2 = some e → w = ofBytesLE e → ¬ (w / 2 ^ 40 % 2 ^ 14 = 0 ∨ 16320 < w / 2 ^ 40 % 2 ^ 14 ∨ w / 2 ^ 54 ≠ 0) → (s.hw.busRead 19 (w % 2 ^ 40) (w / 2 ^ 40 % 2 ^ 14)).2 = some bs → s.hw.flag R.CKR_CTL_MODE = false → p = s.hw.get R.CKR_CTL_PM_POOL → n = s.hw.get (R.CKR_RING_CFG_TXQ r) → s.hw.fabric.frames.length < descriptors → s.hw.poolGrants p = true → s.hw.flag (R.CKR_POOL_CFG_LOC p) = false → bs.length ≤ 192 ∧ bs.length + 64 ≤ s.hw.get (R.CKR_POOL_CFG_MTU p) → a = (s.hw.holdBuffer p).2 → 0x20000 ≤ a → (s.hw.busWrite 19 (a + 64) bs).2 = true → s.hw.strictQueue n = false → s.hw.queueAdmits n 1 = true → Gives (.txfEntry r) s fun h =>
        h.ringCons r = (s.hw.ringCons r + 1) % 2 ^ 32 ∧ Counted (s.hw.ringCounter r 0) (h.ringCounter r 0) ∧ Counted (s.hw.sourceCount 15 0) (h.sourceCount 15 0) ∧ Counted (s.hw.poolCount p 0) (h.poolCount p 0) ∧ h.queueFrames n = s.hw.queueFrames n ++ [s.hw.fabric.nextFrame] ∧ h.get (R.TM_Q_W4_FRAMES n) = (s.hw.get (R.TM_Q_W4_FRAMES n) + 1) % 2 ^ 16 ∧
        (h.frame s.hw.fabric.nextFrame).src = 15 ∧ (h.frame s.hw.fabric.nextFrame).len = bs.length ∧ (h.frame s.hw.fabric.nextFrame).bufs = [a] ∧
        h.frameBytes (h.frame s.hw.fabric.nextFrame) 0 bs.length = bs ∧ h.poolFree p = s.hw.poolFree p - 1 ∧ MemKeptBut a 256 s.hw h) ∧
    (∀ (r : Fin 64), s.hw.ringMode r ≠ 1 ∨ s.hw.ringQueue r = [] → s.hw.pushersOf r = [] → Gives (.ringError r) s fun h =>
        h.get (R.CKR_RING_CFG_ERR r) = 1 ∧ h.get (R.CKR_RING_FSTAT_CLOSED_EV r) = 1 ∧ h.get (R.CKR_RING_FSTAT_TIMED_OUT r) = s.hw.get (R.CKR_RING_FSTAT_TIMED_OUT r) ∧
        h.get (R.CKR_RING_FSTAT_ABORTED r) = (if s.hw.ringMode r = 2 then min (s.hw.ringCount r) 0xFFFF else 1) ∧
        h.ringCons r = (if s.hw.ringMode r = 2 then s.hw.ringProd r else s.hw.ringCons r) ∧
        h.ringState r = (if s.hw.flag (R.CKR_RING_FSTAT_PEND r) then 1 else 0) ∧ h.get (R.CKR_RING_FSTAT_PEND r) = 0 ∧
        RegsKept [R.CKR_RING_CFG r, R.CKR_RING_FSTAT r, R.CKR_RING_FCTL r, R.CKR_RING_CONS r] s.hw h ∧ MemKept s.hw h) ∧
    (∀ (r : Fin 64) (id n : Nat) (rest : List (Nat × Nat)), s.hw.ringMode r = 1 → s.hw.ringQueue r = (id, n) :: rest → Gives (.ringError r) s fun h =>
        h.gone id = true ∧ h.ringQueue r = rest ∧ h.get (R.CKR_RING_CFG_ERR r) = 1 ∧ h.get (R.CKR_RING_FSTAT_CLOSED_EV r) = 1 ∧ MemKept s.hw h)

/-- Ethernet reception (R362, R364, R365, R368, R373). Counters: 0 good, 1 bytes, 2 FCS, 3 length, 4 MAC control, 5 closing, 6 assembly,
7 MACsec drop, 8 untagged, 15 paused. -/
def Obligations.EthernetReceptionAndPause : Prop :=
  ∀ s : State, s.hw.mainUp = true → 
    (∀ (n : Fin 8) (f : EthRx), s.hw.ethLink n = false ∨ s.hw.laneTakes n = false ∨ s.hw.ethState n ≤ 1 → Gives (.ethFrameReceived n f) s fun h =>
        Unchanged s.hw h) ∧
    (∀ (n : Fin 8) (f : EthRx), s.hw.ethLink n = true → s.hw.laneTakes n = true → s.hw.ethState n = 3 → Gives (.ethFrameReceived n f) s fun h =>
        Counted (s.hw.ethCounter n 5) (h.ethCounter n 5) ∧ OnlyRegs [R.ETH_CNT_LO n 5, R.ETH_CNT_HI n 5, R.ETH_PSTAT n] s.hw h) ∧
    (∀ (n : Fin 8) (f : EthRx) (i : Nat), s.hw.ethLink n = true → s.hw.ethState n = 2 → s.hw.laneTakes n = true → i = (if s.hw.get (R.ETH_CFG_MAXLEN n) < f.bytes.length + 4 then 3 else if f.fcs = false then 2 else 3) → s.hw.get (R.ETH_CFG_MAXLEN n) < f.bytes.length + 4 ∨ f.fcs = false ∨ f.bytes.length + 4 < 64 → Gives (.ethFrameReceived n f) s fun h =>
        Counted (s.hw.ethCounter n i) (h.ethCounter n i) ∧ h.staged n = s.hw.staged n ++ (if isMacControl f.bytes then [] else [⟨f.bytes.take (s.hw.get (R.ETH_CFG_MAXLEN n)), false, s.hw.stampNow true, 0, none, none, 0⟩]) ∧
        RegsKept [R.ETH_CNT_LO n i, R.ETH_CNT_HI n i, R.ETH_PSTAT n] s.hw h ∧ MemKept s.hw h) ∧
    (∀ (n : Fin 8) (f : EthRx), s.hw.ethLink n = true → s.hw.ethState n = 2 → s.hw.laneTakes n = true → f.bytes.length + 4 ≤ s.hw.get (R.ETH_CFG_MAXLEN n) ∧ 64 ≤ f.bytes.length + 4 ∧ f.fcs = true → isMacControl f.bytes = false → secTag f.bytes = none → s.hw.validate n = 0 ∨ s.hw.validate n = 2 ∧ isEapol f.bytes = true → Gives (.ethFrameReceived n f) s fun h =>
        Counted (s.hw.ethCounter n 0) (h.ethCounter n 0) ∧ h.ethCounter n 1 = (s.hw.ethCounter n 1 + (f.bytes.length + 4)) % 2 ^ 40 ∧ h.staged n = s.hw.staged n ++ [⟨f.bytes, true, s.hw.stampNow true, 0, none, none, 0⟩] ∧
        RegsKept [R.ETH_CNT_LO n 0, R.ETH_CNT_HI n 0, R.ETH_CNT_LO n 1, R.ETH_CNT_HI n 1, R.ETH_PSTAT n] s.hw h ∧ MemKept s.hw h) ∧
    (∀ (n : Fin 8) (f : EthRx), s.hw.ethLink n = true → s.hw.ethState n = 2 → s.hw.laneTakes n = true → f.bytes.length + 4 ≤ s.hw.get (R.ETH_CFG_MAXLEN n) ∧ 64 ≤ f.bytes.length + 4 ∧ f.fcs = true → isMacControl f.bytes = false → secTag f.bytes = none → s.hw.validate n = 1 → Gives (.ethFrameReceived n f) s fun h =>
        Counted (s.hw.ethCounter n 0) (h.ethCounter n 0) ∧ Counted (s.hw.ethCounter n 8) (h.ethCounter n 8) ∧ h.staged n = s.hw.staged n ++ [⟨f.bytes, true, s.hw.stampNow true, 0, none, none, 0⟩] ∧ MemKept s.hw h) ∧
    (∀ (n : Fin 8) (f : EthRx), s.hw.ethLink n = true → s.hw.ethState n = 2 → s.hw.laneTakes n = true → f.bytes.length + 4 ≤ s.hw.get (R.ETH_CFG_MAXLEN n) ∧ 64 ≤ f.bytes.length + 4 ∧ f.fcs = true → isMacControl f.bytes = false → secTag f.bytes = none → s.hw.validate n = 2 → isEapol f.bytes = false → Gives (.ethFrameReceived n f) s fun h =>
        Counted (s.hw.ethCounter n 7) (h.ethCounter n 7) ∧ OnlyRegs [R.ETH_CNT_LO n 7, R.ETH_CNT_HI n 7, R.ETH_PSTAT n] s.hw h) ∧
    (∀ (n : Fin 8) (f : EthRx) (an low sci c : Nat), s.hw.ethLink n = true → s.hw.ethState n = 2 → s.hw.laneTakes n = true → f.bytes.length + 4 ≤ s.hw.get (R.ETH_CFG_MAXLEN n) ∧ 64 ≤ f.bytes.length + 4 ∧ f.fcs = true → isMacControl f.bytes = false → secTag f.bytes = some (an, low, sci) → s.hw.rxSc n sci = some c → s.hw.flag (R.ETH_RX_SA_CTL_IN_USE n c an) = true → s.hw.validate n ≠ 0 → f.clear = none → Gives (.ethFrameReceived n f) s fun h =>
        Counted (s.hw.ethCounter n 7) (h.ethCounter n 7) ∧ OnlyRegs [R.ETH_CNT_LO n 7, R.ETH_CNT_HI n 7, R.ETH_PSTAT n] s.hw h) ∧
    (∀ (n : Fin 8) (f : EthRx) (an low sci c : Nat) (bs : List Byte) (e pn : Nat), s.hw.ethLink n = true → s.hw.ethState n = 2 → s.hw.laneTakes n = true → f.bytes.length + 4 ≤ s.hw.get (R.ETH_CFG_MAXLEN n) ∧ 64 ≤ f.bytes.length + 4 ∧ f.fcs = true → isMacControl f.bytes = false → secTag f.bytes = some (an, low, sci) → s.hw.rxSc n sci = some c → s.hw.flag (R.ETH_RX_SA_CTL_IN_USE n c an) = true → s.hw.validate n ≠ 0 → f.clear = some bs → e = s.hw.saRxPn n c an → pn = s.hw.framePn n c an low → s.hw.xpn n = false → s.hw.flag (R.ETH_SEC_CTL_REPLAY n) = false ∨ e ≤ pn + s.hw.get (R.ETH_REPLAY_WIN_WIN n) → Gives (.ethFrameReceived n f) s fun h =>
        Counted (s.hw.ethCounter n 0) (h.ethCounter n 0) ∧ h.staged n = s.hw.staged n ++ [⟨bs, true, s.hw.stampNow true, 0, none, none, 0⟩] ∧ h.get (R.ETH_RX_PN_LO_PN n c an) = max e (pn + 1) % 2 ^ 32 ∧ MemKept s.hw h) ∧
    (∀ (n : Fin 8) (g : EthFragment), s.hw.ethLink n = false ∨ g.start = true ∧ (s.hw.ethState n ≤ 1 ∨ s.hw.ethState n = 2 ∧ s.hw.laneTakes n = false) → Gives (.fragmentReceived n g) s fun h =>
        Unchanged s.hw h) ∧
    (∀ (n : Fin 8) (g : EthFragment), s.hw.ethLink n = true → s.hw.ethState n = 2 → s.hw.laneTakes n = true → g.start = true → (s.hw.ethPort n).assembly = none → g.final = false → g.check = true → Gives (.fragmentReceived n g) s fun h =>
        (h.ethPort n).assembly = some ⟨g.frameCount, 0, g.bytes, s.hw.stampNow true⟩ ∧ RegsKept [] s.hw h ∧ MemKept s.hw h) ∧
    (∀ (n : Fin 8) (g : EthFragment) (x : EthAssembly), s.hw.ethLink n = true → g.start = false → (s.hw.ethPort n).assembly = some x → x.count = g.frameCount.val ∧ x.next = g.fragCount.val → g.final = false → g.check = true → Gives (.fragmentReceived n g) s fun h =>
        (h.ethPort n).assembly = some { x with next := (x.next + 1) % 4, bytes := x.bytes ++ g.bytes } ∧ RegsKept [] s.hw h ∧ MemKept s.hw h) ∧
    (∀ (n : Fin 8) (g : EthFragment) (x : EthAssembly), s.hw.ethLink n = true → g.start = false → (s.hw.ethPort n).assembly = some x → ¬ (x.count = g.frameCount.val ∧ x.next = g.fragCount.val) ∨ g.final = false ∧ g.check = false → Gives (.fragmentReceived n g) s fun h =>
        (h.ethPort n).assembly = none ∧ Counted (s.hw.ethCounter n 6) (h.ethCounter n 6) ∧ RegsKept [R.ETH_CNT_LO n 6, R.ETH_CNT_HI n 6, R.ETH_PSTAT n] s.hw h ∧ MemKept s.hw h) ∧
    (∀ (n : Fin 8) (g : EthFragment) (x : EthAssembly) (f : EthRx), s.hw.ethLink n = true → g.start = false → (s.hw.ethPort n).assembly = some x → x.count = g.frameCount.val ∧ x.next = g.fragCount.val → g.final = true → f = ⟨x.bytes ++ g.bytes, g.check, g.clear⟩ → f.bytes.length + 4 ≤ s.hw.get (R.ETH_CFG_MAXLEN n) ∧ 64 ≤ f.bytes.length + 4 ∧ f.fcs = true → isMacControl f.bytes = false → secTag f.bytes = none → s.hw.validate n = 0 → Gives (.fragmentReceived n g) s fun h =>
        (h.ethPort n).assembly = none ∧ Counted (s.hw.ethCounter n 0) (h.ethCounter n 0) ∧ h.staged n = s.hw.staged n ++ [⟨f.bytes, true, x.stamp, 0, none, none, 0⟩] ∧ MemKept s.hw h) ∧
    (∀ (n : Fin 8) (g : EthFragment), g.start = true → s.hw.ethLink n = true → s.hw.laneTakes n = true → s.hw.ethState n = 3 → Gives (.fragmentReceived n g) s fun h =>
        (h.ethPort n).assembly = none ∧ Counted (s.hw.ethCounter n 5) (h.ethCounter n 5) ∧ h.staged n = s.hw.staged n ∧ MemKept s.hw h) ∧
    (∀ (n : Fin 8) (g : EthFragment), g.start = false → (s.hw.ethPort n).assembly = none → Gives (.fragmentReceived n g) s fun h =>
        Unchanged s.hw h) ∧
    (∀ (n : Fin 8) (dest : BitVec 48) (time : BitVec 16), s.hw.ethLink n = false ∨ s.hw.laneTakes n = false ∨ s.hw.ethState n ≤ 1 → Gives (.pause n dest time) s fun h =>
        Unchanged s.hw h) ∧
    (∀ (n : Fin 8) (dest : BitVec 48) (time : BitVec 16), s.hw.ethLink n = true → s.hw.ethState n = 2 → s.hw.laneTakes n = true → s.hw.flag (R.ETH_CFG_PAUSE_HONOUR n) = false ∨ s.hw.pauseDest n dest.toNat = false → Gives (.pause n dest time) s fun h =>
        Counted (s.hw.ethCounter n 4) (h.ethCounter n 4) ∧ OnlyRegs [R.ETH_CNT_LO n 4, R.ETH_CNT_HI n 4, R.ETH_PSTAT n] s.hw h) ∧
    (∀ (n : Fin 8) (dest : BitVec 48) (time : BitVec 16), s.hw.ethLink n = true → s.hw.ethState n = 2 → s.hw.laneTakes n = true → s.hw.flag (R.ETH_CFG_PAUSE_HONOUR n) = true → s.hw.pauseDest n dest.toNat = true → (s.hw.ethPort n).pauses = [] → time ≠ 0 → Gives (.pause n dest time) s fun h =>
        Counted (s.hw.ethCounter n 4) (h.ethCounter n 4) ∧ (h.ethPort n).pauses = (List.range 7).map (fun t => (t, 100 * s.hw.et + time.toNat * pauseTick (s.hw.get (R.ETH_PSTAT_SPEED n)))) ∧ h.get (R.ETH_PSTAT_PAUSED n) = 1 ∧
        tget h.timers (.pauseEnd n) = some ((100 * s.hw.et + time.toNat * pauseTick (s.hw.get (R.ETH_PSTAT_SPEED n)) + 99) / 100) ∧ RegsKept [R.ETH_CNT_LO n 4, R.ETH_CNT_HI n 4, R.ETH_PSTAT n] s.hw h ∧ MemKept s.hw h) ∧
    (∀ (n : Fin 8) (dest : BitVec 48) (time : BitVec 16), s.hw.ethLink n = true → s.hw.ethState n = 2 → s.hw.laneTakes n = true → s.hw.flag (R.ETH_CFG_PAUSE_HONOUR n) = true → s.hw.pauseDest n dest.toNat = true → time = 0 → (s.hw.ethPort n).pauses.length ≤ 7 → (s.hw.ethPort n).pauses.all (fun x => decide (x.1 < 7)) = true → Gives (.pause n dest time) s fun h =>
        (h.ethPort n).pauses = [] ∧ h.get (R.ETH_PSTAT_PAUSED n) = 0 ∧ tget h.timers (.pauseEnd n) = none ∧ Counted (s.hw.ethCounter n 4) (h.ethCounter n 4) ∧ MemKept s.hw h) ∧
    (∀ (n : Fin 8) (dest : BitVec 48) (en : BitVec 8) (times : List (BitVec 16)), s.hw.ethLink n = false ∨ s.hw.laneTakes n = false ∨ s.hw.ethState n ≤ 1 → Gives (.pfc n dest en times) s fun h =>
        Unchanged s.hw h) ∧
    (∀ (n : Fin 8) (dest : BitVec 48) (en : BitVec 8) (times : List (BitVec 16)), s.hw.ethLink n = true → s.hw.ethState n = 2 → s.hw.laneTakes n = true → s.hw.flag (R.ETH_CFG_PFC_HONOUR n) = false ∨ s.hw.pauseDest n dest.toNat = false → Gives (.pfc n dest en times) s fun h =>
        Counted (s.hw.ethCounter n 4) (h.ethCounter n 4) ∧ OnlyRegs [R.ETH_CNT_LO n 4, R.ETH_CNT_HI n 4, R.ETH_PSTAT n] s.hw h) ∧
    (∀ (n : Fin 8) (dest : BitVec 48) (en : BitVec 8) (times : List (BitVec 16)), s.hw.ethLink n = true → s.hw.ethState n = 2 → s.hw.laneTakes n = true → s.hw.flag (R.ETH_CFG_PFC_HONOUR n) = true → s.hw.pauseDest n dest.toNat = true → (s.hw.ethPort n).pauses = [] → Gives (.pfc n dest en times) s fun h =>
        Counted (s.hw.ethCounter n 4) (h.ethCounter n 4) ∧ (∀ t < 8, kget (h.ethPort n).pauses t = if t < 7 ∧ en.toNat.testBit t = true ∧ (s.hw.get (R.ETH_CFG_PFC_MASK n)).testBit t = true ∧ times.getD t 0 ≠ 0
          then some (100 * s.hw.et + (times.getD t 0).toNat * pauseTick (s.hw.get (R.ETH_PSTAT_SPEED n))) else none) ∧ RegsKept [R.ETH_CNT_LO n 4, R.ETH_CNT_HI n 4, R.ETH_PSTAT n] s.hw h ∧ MemKept s.hw h) ∧
    (∀ (n : Fin 8) (d t e : Nat), tget s.hw.timers (.pauseEnd n) = some d → (s.hw.ethPort n).pauses = [(t, e)] → e ≤ 100 * (s.hw.advanceTo d).et → e ≠ (s.hw.ethPort n).pausedFrom → Gives (.pauseExpire n) s fun h =>
        (h.ethPort n).pauses = [] ∧ h.get (R.ETH_PSTAT_PAUSED n) = 0 ∧
        h.ethCounter n 15 = (s.hw.ethCounter n 15 + ((s.hw.ethPort n).residue + (max (s.hw.ethPort n).pausedFrom e - (s.hw.ethPort n).pausedFrom)) / (s.hw.ethPort n).pauseUnit) % 2 ^ 40 ∧ MemKept s.hw h)

/-- Ethernet transmission (R352, R363, R367, R370 to R374). Counters: 9 sent, 10 bytes, 11 preempted, 12 gate, 13 MACsec. -/
def Obligations.EthernetTransmissionAndPreemption : Prop :=
  ∀ s : State, s.hw.mainUp = true → 
    (∀ (n : Fin 80), n.val < 8 → s.hw.ethState n < 2 ∨ s.hw.ethLink n = false ∨ s.hw.ethState n = 3 ∧ (s.hw.ethPort n).tx = none ∧ (s.hw.ethPort n).next.any (s.hw.mayBegin n) = false ∧ (s.hw.ethPort n).suspended = none → Gives (.egressRequest n) s fun h =>
        Unchanged s.hw h) ∧
    (∀ (n : Fin 80) (y : EthTx), n.val < 8 → s.hw.ethState n = 2 ∨ s.hw.ethState n = 3 → s.hw.ethLink n = true → (s.hw.ethPort n).tx = none → (s.hw.ethPort n).next = [y] → s.hw.mayBegin n y = true → Gives (.egressRequest n) s fun h =>
        (h.ethPort n).tx = some y ∧ (h.ethPort n).next = [] ∧ RegsKept [] s.hw h ∧ MemKept s.hw h) ∧
    (∀ (n : Fin 80) (q id : Nat), n.val < 8 → s.hw.ethState n = 2 ∧ s.hw.ethLink n = true ∧ s.hw.laneTakes n = true → (s.hw.ethPort n).tx = none → (s.hw.ethPort n).next.any (s.hw.mayBegin n) = false → (s.hw.ethPort n).suspended = none → (s.hw.select (s.hw.ethAdmits n) (s.hw.ethAsks n false) n).2 = some (q, id) → s.hw.neverFits n (s.hw.frame id) = false → Gives (.egressRequest n) s fun h =>
        (h.ethPort n).tx = some ⟨id, s.hw.sentExpress n (s.hw.frame id).tc, false, 0, 0, Stamp.zero, false, 0⟩ ∧
        h.queueFrames q = (s.hw.queueFrames q).filter (· != id) ∧ MemKept s.hw h) ∧
    (∀ (n : Fin 80) (q id : Nat), n.val < 8 → s.hw.ethState n = 2 ∧ s.hw.ethLink n = true ∧ s.hw.laneTakes n = true → (s.hw.ethPort n).tx = none → (s.hw.ethPort n).next.any (s.hw.mayBegin n) = false → (s.hw.ethPort n).suspended = none → (s.hw.select (s.hw.ethAdmits n) (s.hw.ethAsks n false) n).2 = some (q, id) → s.hw.neverFits n (s.hw.frame id) = true → Gives (.egressRequest n) s fun h =>
        (h.ethPort n).tx = none ∧ h.gone id = true ∧ Counted (s.hw.ethCounter n 12) (h.ethCounter n 12) ∧ h.queueFrames q = (s.hw.queueFrames q).filter (· != id) ∧ MemKept s.hw h) ∧
    (∀ (n : Fin 80) (x : EthTx), n.val < 8 → s.hw.ethState n = 2 ∧ s.hw.ethLink n = true ∧ s.hw.laneTakes n = true → (s.hw.ethPort n).tx = none → (s.hw.ethPort n).next.any (s.hw.mayBegin n) = false → (s.hw.ethPort n).suspended = some x → (s.hw.select (s.hw.ethAdmits n) (s.hw.ethAsks n true) n).2 = none → s.hw.mayResume n x = true → Gives (.egressRequest n) s fun h =>
        (h.ethPort n).tx = some x ∧ (h.ethPort n).suspended = none ∧ RegsKept [] s.hw h ∧ MemKept s.hw h) ∧
    (∀ (n : Fin 80) (x : EthTx) (q id : Nat), n.val < 8 → s.hw.ethState n = 2 ∧ s.hw.ethLink n = true ∧ s.hw.laneTakes n = true → (s.hw.ethPort n).tx = some x → (s.hw.ethPort n).next.any (s.hw.mayBegin n) = false → s.hw.preemptionActive n = true → x.express = false → (s.hw.select (s.hw.ethAdmits n) (s.hw.ethAsks n true) n).2 = some (q, id) → s.hw.neverFits n (s.hw.frame id) = false → Gives (.egressRequest n) s fun h =>
        (h.ethPort n).next = (s.hw.ethPort n).next ++ [⟨id, s.hw.sentExpress n (s.hw.frame id).tc, false, 0, 0, Stamp.zero, false, 0⟩] ∧ (h.ethPort n).tx = some x ∧ MemKept s.hw h) ∧
    (∀ (n : Fin 80), 16 ≤ n.val → ¬ (s.hw.ringState (n.val - 16) = 2 ∧ s.hw.ringMode (n.val - 16) = 1 ∧ s.hw.ringQueue (n.val - 16) = [] ∧ s.hw.ringCount (n.val - 16) + s.hw.ringReservedOf (n.val - 16) < s.hw.ringSize (n.val - 16)) → Gives (.egressRequest n) s fun h =>
        Unchanged s.hw h) ∧
    (∀ (n : Fin 80) (q id : Nat), 16 ≤ n.val → s.hw.ringState (n.val - 16) = 2 ∧ s.hw.ringMode (n.val - 16) = 1 ∧ s.hw.ringQueue (n.val - 16) = [] ∧ s.hw.ringCount (n.val - 16) + s.hw.ringReservedOf (n.val - 16) < s.hw.ringSize (n.val - 16) → (s.hw.select anyQueue anyQueue n).2 = some (q, id) → Gives (.egressRequest n) s fun h =>
        h.ringQueue (n.val - 16) = [(id, q)] ∧ h.ringReservedOf (n.val - 16) = s.hw.ringReservedOf (n.val - 16) + 1 ∧ h.queueFrames q = (s.hw.queueFrames q).filter (· != id) ∧ MemKept s.hw h) ∧
    (∀ (n : Fin 8), (s.hw.ethPort n).tx.all (fun x => !x.started) = true → Gives (.ethFrameTransmit n) s fun h =>
        Unchanged s.hw h) ∧
    (∀ (n : Fin 8) (x : EthTx) (f : Frame), (s.hw.ethPort n).tx = some x → f = s.hw.frame x.frame → f.src < 16 → s.hw.flag (R.CKR_POOL_CFG_LOC f.pool) = false → x.started = true → s.hw.frameFault 21 f = none → (s.hw.ethPort n).next.all (fun y => y.frame != x.frame) = true → s.hw.flag (R.ETH_SEC_CTL_TX_EN n) = false ∨ isEapol (s.hw.leavingBytes f) = true → f.act ≠ 2 → Gives (.ethFrameTransmit n) s fun h =>
        kget h.wire n = some [padded (s.hw.insertResidence n f x.stamp (s.hw.leavingBytes f)).2 ++ fcsOf (padded (s.hw.insertResidence n f x.stamp (s.hw.leavingBytes f)).2)] ∧
        Counted (s.hw.ethCounter n 9) (h.ethCounter n 9) ∧ h.ethCounter n 10 = (s.hw.ethCounter n 10 + ((padded (s.hw.insertResidence n f x.stamp (s.hw.leavingBytes f)).2).length + 4)) % 2 ^ 40 ∧ h.gone x.frame = true ∧ (h.ethPort n).tx = (s.hw.ethPort n).next.find? (s.hw.mayBegin n) ∧
        MemKept s.hw h) ∧
    (∀ (n : Fin 8) (x : EthTx) (f : Frame), (s.hw.ethPort n).tx = some x → f = s.hw.frame x.frame → f.src < 16 → s.hw.flag (R.CKR_POOL_CFG_LOC f.pool) = false → x.started = true → s.hw.frameFault 21 f = none → (s.hw.ethPort n).next.all (fun y => y.frame != x.frame) = true → s.hw.flag (R.ETH_SEC_CTL_TX_EN n) = false ∨ isEapol (s.hw.leavingBytes f) = true → f.act = 2 → (kgetD [] s.hw.time.tsq n).length < 64 → Gives (.ethFrameTransmit n) s fun h =>
        kgetD [] h.time.tsq n = kgetD [] s.hw.time.tsq n ++ [⟨f.tag, x.stampValid, s.hw.time.gap.contains n, false, false, s.hw.get R.TIME_STAT_STEP_CNT, x.stamp, 0⟩] ∧
        h.get (R.TIME_PSTAT_LEVEL n) = (kgetD [] s.hw.time.tsq n).length + 1 ∧ h.gone x.frame = true ∧ MemKept s.hw h) ∧
    (∀ (n : Fin 8) (x : EthTx) (f : Frame), (s.hw.ethPort n).tx = some x → f = s.hw.frame x.frame → f.src < 16 → s.hw.flag (R.CKR_POOL_CFG_LOC f.pool) = false → x.started = true → (s.hw.frameFault 21 f).isSome = true → (s.hw.ethPort n).next.all (fun y => y.frame != x.frame) = true → Gives (.ethFrameTransmit n) s fun h =>
        h.gone x.frame = true ∧ h.wire = s.hw.wire ∧ h.ethCounter n 9 = s.hw.ethCounter n 9 ∧ (h.ethPort n).tx = (s.hw.ethPort n).next.find? (s.hw.mayBegin n) ∧ MemKept s.hw h) ∧
    (∀ (n : Fin 8) (x : EthTx) (f : Frame), (s.hw.ethPort n).tx = some x → f = s.hw.frame x.frame → f.src < 16 → s.hw.flag (R.CKR_POOL_CFG_LOC f.pool) = false → x.started = true → s.hw.frameFault 21 f = none → (s.hw.ethPort n).next.all (fun y => y.frame != x.frame) = true → ¬ (s.hw.flag (R.ETH_SEC_CTL_TX_EN n) = false ∨ isEapol (s.hw.leavingBytes f) = true) → s.hw.flag (R.ETH_TX_SA_CTL_IN_USE n (x.an)) = false → Gives (.ethFrameTransmit n) s fun h =>
        h.gone x.frame = true ∧ h.wire = s.hw.wire ∧ Counted (s.hw.ethCounter n 13) (h.ethCounter n 13) ∧ (h.ethPort n).tx = (s.hw.ethPort n).next.find? (s.hw.mayBegin n) ∧ MemKept s.hw h) ∧
    (∀ (n : Fin 8) (x : EthTx) (f : Frame), (s.hw.ethPort n).tx = some x → f = s.hw.frame x.frame → f.src < 16 → s.hw.flag (R.CKR_POOL_CFG_LOC f.pool) = false → x.started = true → s.hw.frameFault 21 f = none → (s.hw.ethPort n).next.all (fun y => y.frame != x.frame) = true → ¬ (s.hw.flag (R.ETH_SEC_CTL_TX_EN n) = false ∨ isEapol (s.hw.leavingBytes f) = true) → s.hw.xpn n = false → s.hw.flag (R.ETH_TX_SA_CTL_IN_USE n (x.an)) = true → (s.hw.ethPort n).spent.contains (x.an) = false → Gives (.ethFrameTransmit n) s fun h =>
        kget h.wire n = some [s.hw.protectTx n (x.an) (s.hw.get (R.ETH_TX_PN_LO_PN n (x.an))) (padded (s.hw.insertResidence n f x.stamp (s.hw.leavingBytes f)).2) ++ fcsOf (s.hw.protectTx n (x.an) (s.hw.get (R.ETH_TX_PN_LO_PN n (x.an))) (padded (s.hw.insertResidence n f x.stamp (s.hw.leavingBytes f)).2))] ∧ h.get (R.ETH_TX_PN_LO_PN n (x.an)) = (s.hw.get (R.ETH_TX_PN_LO_PN n (x.an)) + 1) % 2 ^ 32 ∧
        Counted (s.hw.ethCounter n 9) (h.ethCounter n 9) ∧ h.gone x.frame = true ∧ MemKept s.hw h) ∧
    (∀ (n : Fin 12) (k : Nat), n.val < 8 → (s.hw.ethPort n).tx.all (fun x => !decide (s.hw.ethState n = 2 ∧ x.started = true ∧ s.hw.preemptionActive n = true ∧ x.express = false ∧ (s.hw.ethPort n).suspended = none ∧
  ((s.hw.ethPort n).next.any (s.hw.mayBegin n) || s.hw.flag (R.ETH_PRE_STAT_HOLD n) || !s.hw.gateOpen n (s.hw.frame x.frame).tc) = true ∧
  s.hw.addFragBytes n - 4 ≤ k ∧
  x.done + (k - if x.fragments = 0 then 0 else 1) + 64 ≤ max (s.hw.frame x.frame).leaving 60 + s.hw.secOverhead n (s.hw.frame x.frame) + 4)) = true → Gives (.preempt n k) s fun h =>
        Unchanged s.hw h) ∧
    (∀ (n : Fin 12) (k : Nat) (x : EthTx), n.val < 8 → (s.hw.ethPort n).tx = some x → s.hw.ethState n = 2 ∧ x.started = true ∧ s.hw.preemptionActive n = true ∧ x.express = false ∧ (s.hw.ethPort n).suspended = none ∧
  ((s.hw.ethPort n).next.any (s.hw.mayBegin n) || s.hw.flag (R.ETH_PRE_STAT_HOLD n) || !s.hw.gateOpen n (s.hw.frame x.frame).tc) = true ∧
  s.hw.addFragBytes n - 4 ≤ k ∧
  x.done + (k - if x.fragments = 0 then 0 else 1) + 64 ≤ max (s.hw.frame x.frame).leaving 60 + s.hw.secOverhead n (s.hw.frame x.frame) + 4 → Gives (.preempt n k) s fun h =>
        (h.ethPort n).suspended = some { x with done := x.done + (k - if x.fragments = 0 then 0 else 1), fragments := x.fragments + 1 } ∧
        Counted (s.hw.ethCounter n 11) (h.ethCounter n 11) ∧ (h.ethPort n).tx = (s.hw.ethPort n).next.find? (s.hw.mayBegin n) ∧ RegsKept [R.ETH_CNT_LO n 11, R.ETH_CNT_HI n 11, R.ETH_PSTAT n] s.hw h ∧ MemKept s.hw h) ∧
    (∀ (n : Fin 8), s.hw.flag (R.ETH_PRE_CTL_PRE_EN n) = false ∨ s.hw.flag (R.ETH_PRE_CTL_VERIFY_EN n) = false → Gives (.verifyStart n) s fun h =>
        h.get (R.ETH_PRE_STAT_VERIFY n) = 0 ∧ h.get (R.ETH_PRE_STAT_ACTIVE n) = s.hw.get (R.ETH_PRE_CTL_PRE_EN n) ∧ RegsKept [R.ETH_PRE_STAT n] s.hw h ∧ MemKept s.hw h) ∧
    (∀ (n : Fin 8), s.hw.flag (R.ETH_PRE_CTL_PRE_EN n) = true → s.hw.flag (R.ETH_PRE_CTL_VERIFY_EN n) = true → Gives (.verifyStart n) s fun h =>
        h.get (R.ETH_PRE_STAT_VERIFY n) = (if s.hw.ethLink n then 2 else 1) ∧ h.get (R.ETH_PRE_STAT_ACTIVE n) = 0 ∧ (h.ethPort n).verifySent = (if s.hw.ethLink n then 1 else 0) ∧
        tget h.timers (.verify n) = (if s.hw.ethLink n then some (s.hw.et + s.hw.get (R.ETH_PRE_CTL_VERIFY_MS n) * 1000000) else none) ∧
        RegsKept [R.ETH_PRE_STAT n] s.hw h ∧ MemKept s.hw h) ∧
    (∀ (n : Fin 8) (d : Nat), tget s.hw.timers (.verify n) = some d → (s.hw.ethPort n).verifySent < 3 → Gives (.verifyTimer n) s fun h =>
        (h.ethPort n).verifySent = (s.hw.ethPort n).verifySent + 1 ∧ tget h.timers (.verify n) = some ((s.hw.advanceTo d).et + s.hw.get (R.ETH_PRE_CTL_VERIFY_MS n) * 1000000) ∧ RegsKept [] s.hw h ∧ MemKept s.hw h) ∧
    (∀ (n : Fin 8) (d : Nat), tget s.hw.timers (.verify n) = some d → 3 ≤ (s.hw.ethPort n).verifySent → Gives (.verifyTimer n) s fun h =>
        h.get (R.ETH_PRE_STAT_VERIFY n) = 4 ∧ h.get (R.ETH_PRE_STAT_FAIL_EV n) = 1 ∧ tget h.timers (.verify n) = none ∧
        RegsKept [R.ETH_PRE_STAT n] s.hw h ∧ MemKept s.hw h) ∧
    (∀ (n : Fin 8), s.hw.get (R.ETH_PRE_STAT_VERIFY n) = 2 → Gives (.respondReceived n) s fun h =>
        h.get (R.ETH_PRE_STAT_VERIFY n) = 3 ∧ h.get (R.ETH_PRE_STAT_ACTIVE n) = s.hw.get (R.ETH_PRE_CTL_PRE_EN n) ∧ tget h.timers (.verify n) = none ∧ RegsKept [R.ETH_PRE_STAT n] s.hw h ∧ MemKept s.hw h) ∧
    (∀ (n : Fin 8), s.hw.get (R.ETH_PRE_STAT_VERIFY n) ≠ 2 → Gives (.respondReceived n) s fun h =>
        Unchanged s.hw h) ∧
    (∀ (n : Fin 8), Gives (.verifyReceived n) s fun h =>
        (h.ethPort n).responds = (s.hw.ethPort n).responds + (if s.hw.flag (R.ETH_PRE_CTL_PRE_EN n) then 1 else 0) ∧ RegsKept [] s.hw h ∧ MemKept s.hw h)

/-- Scheduled gates (R375 to R379, R382). Router tables (R383 to R385). Statuses: 0 done, 1 not found, 2 full, 3 no place, 4 bad argument. -/
def Obligations.ScheduledGatesAndRouterTables : Prop :=
  ∀ s : State, s.hw.mainUp = true → 
    (∀ (n : Fin 8) (init : BitVec 8), Gives (.gateEnWrite n false init) s fun h =>
        h.get (R.ETH_GATE_CTL_GATE_EN n) = 0 ∧ h.get (R.ETH_GATE_CTL_INIT_STATES n) = init.toNat ∧ h.get (R.ETH_GATE_STAT_OPER n) = 0 ∧ h.get (R.ETH_GATE_STAT_PEND n) = 0 ∧ h.get (R.ETH_GATE_STAT_VAL_BUSY n) = 0 ∧ h.get (R.ETH_GATE_STAT_STATES n) = 255 ∧
        h.get (R.ETH_GATE_STAT_ENTRY n) = 0 ∧ h.get (R.ETH_PRE_STAT_HOLD n) = 0 ∧ (h.ethPort n).gateRun = none ∧ (h.ethPort n).cct = none ∧
        RegsKept [R.ETH_GATE_CTL n, R.ETH_GATE_STAT n, R.ETH_PRE_STAT n] s.hw h ∧ MemKept s.hw h) ∧
    (∀ (n : Fin 8) (init : BitVec 8), Gives (.gateEnWrite n true init) s fun h =>
        h.get (R.ETH_GATE_CTL_GATE_EN n) = 1 ∧ h.get (R.ETH_GATE_CTL_INIT_STATES n) = init.toNat ∧
        h.get (R.ETH_GATE_STAT_STATES n) = (if (s.hw.ethPort n).gateRun = none then init.toNat else s.hw.get (R.ETH_GATE_STAT_STATES n)) ∧ RegsKept [R.ETH_GATE_CTL n, R.ETH_GATE_STAT n] s.hw h ∧ MemKept s.hw h) ∧
    (∀ (n : Fin 8), s.hw.gateEn n = false ∨ s.hw.gatePend n = true ∨ s.hw.flag (R.ETH_GATE_STAT_VAL_BUSY n) = true → Gives (.gateGo n) s fun h =>
        h.get R.ETH_STAT_CFG_ERR = 1 ∧ OnlyRegs [R.ETH_STAT] s.hw h) ∧
    (∀ (n : Fin 8), s.hw.gateEn n = true ∧ s.hw.gatePend n = false ∧ s.hw.flag (R.ETH_GATE_STAT_VAL_BUSY n) = false → Gives (.gateGo n) s fun h =>
        h.get (R.ETH_GATE_STAT_VAL_BUSY n) = 1 ∧ OnlyRegs [R.ETH_GATE_STAT n] s.hw h) ∧
    (∀ (n : Fin 8), s.hw.flag (R.ETH_GATE_STAT_VAL_BUSY n) = false → Gives (.gateValidationDone n) s fun h =>
        Unchanged s.hw h) ∧
    (∀ (n : Fin 8) (c : Nat), s.hw.flag (R.ETH_GATE_STAT_VAL_BUSY n) = true → s.hw.gateCheck n (1 - s.hw.gateActive n) = some c → Gives (.gateValidationDone n) s fun h =>
        h.get (R.ETH_GATE_STAT_VAL_BUSY n) = 0 ∧ h.get (R.ETH_GATE_STAT_CODE n) = c ∧ h.get (R.ETH_GATE_STAT_VAL_ERR_EV n) = 1 ∧ OnlyRegs [R.ETH_GATE_STAT n] s.hw h) ∧
    (∀ (n : Fin 8), s.hw.flag (R.ETH_GATE_STAT_VAL_BUSY n) = true → s.hw.gateCheck n (1 - s.hw.gateActive n) = none → Gives (.gateValidationDone n) s fun h =>
        h.get (R.ETH_GATE_STAT_VAL_BUSY n) = 0 ∧ h.get (R.ETH_GATE_STAT_PEND n) = 1 ∧ (h.ethPort n).cct = some (s.hw.gateFirst n (1 - s.hw.gateActive n) s.hw.nt) ∧ RegsKept [R.ETH_GATE_STAT n] s.hw h ∧ MemKept s.hw h) ∧
    (∀ (n : Fin 8), Gives (.gateCancel n) s fun h =>
        h.get (R.ETH_GATE_STAT_VAL_BUSY n) = 0 ∧ h.get (R.ETH_GATE_STAT_PEND n) = 0 ∧ (h.ethPort n).cct = (if s.hw.gatePend n then none else (s.hw.ethPort n).cct) ∧ RegsKept [R.ETH_GATE_STAT n] s.hw h ∧ MemKept s.hw h) ∧
    (∀ (n : Fin 8), (s.hw.ethPort n).gateRun.all (fun r => !s.hw.gateMoreEntries n r) = true → Gives (.gateEntryChange n) s fun h =>
        Unchanged s.hw h) ∧
    (∀ (n : Fin 8) (r : GateRun) (T : Nat), (s.hw.ethPort n).gateRun = some r → r.bank < 2 → s.hw.gateMoreEntries n r = true → T = r.entryEnd → (s.hw.advanceToNt T).ntReached T = true → Gives (.gateEntryChange n) s fun h =>
        h.get (R.ETH_GATE_STAT_STATES n) = s.hw.gateStates n r.bank (r.entry + 1) ∧ h.get (R.ETH_GATE_STAT_ENTRY n) = (r.entry + 1) % 256 ∧ h.get (R.ETH_PRE_STAT_HOLD n) = (if s.hw.preemptionActive n = true ∧ s.hw.gateOp n r.bank (r.entry + 1) = 1 then 1
          else if s.hw.preemptionActive n = true ∧ s.hw.gateOp n r.bank (r.entry + 1) = 2 then 0 else s.hw.get (R.ETH_PRE_STAT_HOLD n)) ∧
        (h.ethPort n).gateRun = some { r with entry := r.entry + 1, entryEnd := ntPlus T (s.hw.gateInterval n r.bank (r.entry + 1)) } ∧ RegsKept [R.ETH_GATE_STAT n, R.ETH_PRE_STAT n] s.hw h ∧ MemKept s.hw h) ∧
    (∀ (n : Fin 8), (s.hw.ethPort n).gateRun = none ∧ (s.hw.ethPort n).gateWait = none ∨ (s.hw.ethPort n).gateRun.any (fun r => r.swap) = true → Gives (.gateCycleStart n) s fun h =>
        Unchanged s.hw h) ∧
    (∀ (n : Fin 8) (r : GateRun) (T : Nat), (s.hw.ethPort n).gateRun = some r → r.bank < 2 → r.swap = false → T = r.stop → (s.hw.advanceToNt T).ntReached T = true → Gives (.gateCycleStart n) s fun h =>
        h.get (R.ETH_GATE_STAT_STATES n) = s.hw.gateStates n r.bank 0 ∧ h.get (R.ETH_GATE_STAT_ENTRY n) = 0 ∧ h.get (R.ETH_PRE_STAT_HOLD n) = (if s.hw.preemptionActive n = true ∧ s.hw.gateOp n r.bank 0 = 1 then 1
          else if s.hw.preemptionActive n = true ∧ s.hw.gateOp n r.bank 0 = 2 then 0 else s.hw.get (R.ETH_PRE_STAT_HOLD n)) ∧ (h.ethPort n).gateRun = some (s.hw.gateCycleAt n r.bank T) ∧ RegsKept [R.ETH_GATE_STAT n, R.ETH_PRE_STAT n] s.hw h ∧ MemKept s.hw h) ∧
    (∀ (n : Fin 8) (T : Nat), (s.hw.ethPort n).gateRun = none → (s.hw.ethPort n).gateWait = some T → ((s.hw.ethPort n).cct.any fun c => s.hw.gatePend n && ntAtLeast T c) = false → (s.hw.advanceToNt T).ntReached T = true → Gives (.gateCycleStart n) s fun h =>
        h.get (R.ETH_GATE_STAT_STATES n) = s.hw.gateStates n (s.hw.gateActive n) 0 ∧ h.get (R.ETH_GATE_STAT_ENTRY n) = 0 ∧ (h.ethPort n).gateRun = some (s.hw.gateCycleAt n (s.hw.gateActive n) T) ∧ (h.ethPort n).gateWait = none ∧ RegsKept [R.ETH_GATE_STAT n, R.ETH_PRE_STAT n] s.hw h ∧ MemKept s.hw h) ∧
    (∀ (n : Fin 8) (T : Nat), (s.hw.ethPort n).cct = some T → s.hw.gatePend n = true → (s.hw.ethPort n).gateRun.all (fun r => r.swap) = true → (s.hw.advanceToNt T).ntReached T = true → Gives (.gateCct n) s fun h =>
        h.get (R.ETH_GATE_STAT_ACTIVE n) = 1 - s.hw.gateActive n ∧ h.get (R.ETH_GATE_STAT_PEND n) = 0 ∧ h.get (R.ETH_GATE_STAT_SWAP_EV n) = 1 ∧ h.get (R.ETH_GATE_STAT_OPER n) = 1 ∧ h.get (R.ETH_GATE_STAT_STATES n) = s.hw.gateStates n (1 - s.hw.gateActive n) 0 ∧ h.get (R.ETH_GATE_STAT_ENTRY n) = 0 ∧
        (h.ethPort n).cct = none ∧ ((h.ethPort n).gateRun.any fun r => r.bank == 1 - s.hw.gateActive n && r.start == T && !r.swap) = true ∧ RegsKept [R.ETH_GATE_STAT n, R.ETH_PRE_STAT n] s.hw h ∧ MemKept s.hw h) ∧
    (∀ (n : Fin 8), (s.hw.ethPort n).cct = none ∨ s.hw.gatePend n = false ∨ (s.hw.ethPort n).gateRun.any (fun r => !r.swap) = true → Gives (.gateCct n) s fun h =>
        Unchanged s.hw h) ∧
    (Gives (.lpmAdd) s fun h =>
        (prefixBad s.hw.rtKey s.hw.rtLen = true → h.get R.ETH_RT_RSP_STATUS = 4 ∧ h.router.lpm = s.hw.router.lpm ∧ h.router.em = s.hw.router.em) ∧
        (prefixBad s.hw.rtKey s.hw.rtLen = false ∧ kget s.hw.router.lpm (lpmPlace s.hw.rtKey s.hw.rtLen) = none ∧ 32768 ≤ s.hw.router.lpm.length → h.get R.ETH_RT_RSP_STATUS = 2 ∧ h.router.lpm = s.hw.router.lpm ∧ h.router.em = s.hw.router.em) ∧
        (prefixBad s.hw.rtKey s.hw.rtLen = false ∧ ¬ (kget s.hw.router.lpm (lpmPlace s.hw.rtKey s.hw.rtLen) = none ∧ 32768 ≤ s.hw.router.lpm.length) → h.get R.ETH_RT_RSP_STATUS = 0 ∧ h.router.lpm = kput s.hw.router.lpm (lpmPlace s.hw.rtKey s.hw.rtLen) s.hw.rtValue ∧ h.router.em = s.hw.router.em) ∧
        h.get R.ETH_RT_RSP_DONE_EV = 1 ∧ h.get R.ETH_RT_LPM_USED_USED = h.router.lpm.length % 2 ^ 16 ∧ h.get R.ETH_RT_EM_USED_USED = h.router.em.length % 2 ^ 18 ∧ RegsKept [R.ETH_RT_RSP, R.ETH_RT_LPM_USED, R.ETH_RT_EM_USED] s.hw h ∧ MemKept s.hw h) ∧
    (Gives (.lpmDel) s fun h =>
        (prefixBad s.hw.rtKey s.hw.rtLen = true → h.get R.ETH_RT_RSP_STATUS = 4 ∧ h.router.lpm = s.hw.router.lpm ∧ h.router.em = s.hw.router.em) ∧
        (prefixBad s.hw.rtKey s.hw.rtLen = false ∧ kget s.hw.router.lpm (lpmPlace s.hw.rtKey s.hw.rtLen) = none → h.get R.ETH_RT_RSP_STATUS = 1 ∧ h.router.lpm = s.hw.router.lpm ∧ h.router.em = s.hw.router.em) ∧
        (prefixBad s.hw.rtKey s.hw.rtLen = false ∧ kget s.hw.router.lpm (lpmPlace s.hw.rtKey s.hw.rtLen) ≠ none → h.get R.ETH_RT_RSP_STATUS = 0 ∧ h.router.lpm = kdel s.hw.router.lpm (lpmPlace s.hw.rtKey s.hw.rtLen) ∧ h.router.em = s.hw.router.em) ∧
        h.get R.ETH_RT_RSP_DONE_EV = 1 ∧ h.get R.ETH_RT_LPM_USED_USED = h.router.lpm.length % 2 ^ 16 ∧ h.get R.ETH_RT_EM_USED_USED = h.router.em.length % 2 ^ 18 ∧ RegsKept [R.ETH_RT_RSP, R.ETH_RT_LPM_USED, R.ETH_RT_EM_USED] s.hw h ∧ MemKept s.hw h) ∧
    (Gives (.emAdd) s fun h =>
        (kget s.hw.router.em s.hw.rtKey = none ∧ 131072 ≤ s.hw.router.em.length → h.get R.ETH_RT_RSP_STATUS = 2 ∧ h.router.lpm = s.hw.router.lpm ∧ h.router.em = s.hw.router.em) ∧
        (kget s.hw.router.em s.hw.rtKey = none ∧ 122880 ≤ s.hw.router.em.length ∧ s.hw.router.em.length < 131072 → h.get R.ETH_RT_RSP_STATUS = 3 ∧ h.router.lpm = s.hw.router.lpm ∧ h.router.em = s.hw.router.em ∨ h.get R.ETH_RT_RSP_STATUS = 0 ∧ h.router.lpm = s.hw.router.lpm ∧ h.router.em = kput s.hw.router.em s.hw.rtKey s.hw.rtValue) ∧
        (kget s.hw.router.em s.hw.rtKey ≠ none ∨ s.hw.router.em.length < 122880 → h.get R.ETH_RT_RSP_STATUS = 0 ∧ h.router.lpm = s.hw.router.lpm ∧ h.router.em = kput s.hw.router.em s.hw.rtKey s.hw.rtValue) ∧
        h.get R.ETH_RT_RSP_DONE_EV = 1 ∧ h.get R.ETH_RT_LPM_USED_USED = h.router.lpm.length % 2 ^ 16 ∧ h.get R.ETH_RT_EM_USED_USED = h.router.em.length % 2 ^ 18 ∧ RegsKept [R.ETH_RT_RSP, R.ETH_RT_LPM_USED, R.ETH_RT_EM_USED] s.hw h ∧ MemKept s.hw h) ∧
    (Gives (.emDel) s fun h =>
        (kget s.hw.router.em s.hw.rtKey = none → h.get R.ETH_RT_RSP_STATUS = 1 ∧ h.router.lpm = s.hw.router.lpm ∧ h.router.em = s.hw.router.em) ∧
        (kget s.hw.router.em s.hw.rtKey ≠ none → h.get R.ETH_RT_RSP_STATUS = 0 ∧ h.router.lpm = s.hw.router.lpm ∧ h.router.em = kdel s.hw.router.em s.hw.rtKey) ∧ h.get R.ETH_RT_RSP_DONE_EV = 1 ∧ h.get R.ETH_RT_LPM_USED_USED = h.router.lpm.length % 2 ^ 16 ∧ h.get R.ETH_RT_EM_USED_USED = h.router.em.length % 2 ^ 18 ∧ RegsKept [R.ETH_RT_RSP, R.ETH_RT_LPM_USED, R.ETH_RT_EM_USED] s.hw h ∧ MemKept s.hw h) ∧
    (Gives (.lpmClear) s fun h =>
        h.get R.ETH_RT_RSP_STATUS = 0 ∧ h.router.lpm = [] ∧ h.router.em = s.hw.router.em ∧ h.get R.ETH_RT_RSP_DONE_EV = 1 ∧ h.get R.ETH_RT_LPM_USED_USED = h.router.lpm.length % 2 ^ 16 ∧ h.get R.ETH_RT_EM_USED_USED = h.router.em.length % 2 ^ 18 ∧ RegsKept [R.ETH_RT_RSP, R.ETH_RT_LPM_USED, R.ETH_RT_EM_USED] s.hw h ∧ MemKept s.hw h) ∧
    (Gives (.emClear) s fun h =>
        h.get R.ETH_RT_RSP_STATUS = 0 ∧ h.router.lpm = s.hw.router.lpm ∧ h.router.em = [] ∧ h.get R.ETH_RT_RSP_DONE_EV = 1 ∧ h.get R.ETH_RT_LPM_USED_USED = h.router.lpm.length % 2 ^ 16 ∧ h.get R.ETH_RT_EM_USED_USED = h.router.em.length % 2 ^ 18 ∧ RegsKept [R.ETH_RT_RSP, R.ETH_RT_LPM_USED, R.ETH_RT_EM_USED] s.hw h ∧ MemKept s.hw h) ∧
    (∀ (k : Fin 264), Gives (.lpmLookup k) s fun h =>
        h.get (R.ETH_SLOT_LPM_LO_RES k) + 2 ^ 32 * h.get (R.ETH_SLOT_LPM_HI_RES k) =
          (match (List.range 65).reverse.find? fun l => (kget s.hw.router.lpm (lpmPlace (s.hw.slotKey k / 2 ^ (64 - l) * 2 ^ (64 - l)) l)).isSome with
          | some l => (lookupResult ((kget s.hw.router.lpm (lpmPlace (s.hw.slotKey k / 2 ^ (64 - l) * 2 ^ (64 - l)) l)).getD 0) l) % 2 ^ 64
          | none => 0) ∧ OnlyRegs [R.ETH_SLOT_LPM_LO k, R.ETH_SLOT_LPM_HI k] s.hw h) ∧
    (∀ (k : Fin 264), Gives (.emLookup k) s fun h =>
        h.get (R.ETH_SLOT_EM_LO_RES k) + 2 ^ 32 * h.get (R.ETH_SLOT_EM_HI_RES k) =
          (match kget s.hw.router.em (s.hw.slotKey k) with | some v => lookupResult v 64 % 2 ^ 64 | none => 0) ∧ OnlyRegs [R.ETH_SLOT_EM_LO k, R.ETH_SLOT_EM_HI k] s.hw h)

/-- Lane bring-up (R393 to R397). States: 1 NEG, 2 PROBE, 3 TRAIN, 4 UP, 5 BACKOFF, 6 PARKED, 7 L1, 8 L2, 9 TEST. -/
def Obligations.LaneBringUp : Prop :=
  ∀ s : State, s.hw.mainUp = true → 
    (∀ (n : Fin 12) (d : Nat), s.hw.laneState n = 1 → tget s.hw.timers (.lane n) = some d → n.val < 8 ∧ s.hw.flag (R.LANE_CTL_PROBE_EN n) = true ∧ 1 ≤ s.hw.get (R.LANE_CTL_RATE_MAX n) → Gives (.negTimeout n) s fun h =>
        h.laneState n = 2 ∧ h.laneRate n = 1 ∧ tget h.timers (.lane n) = some ((s.hw.advanceTo d).et + ms (s.hw.get (R.LANE_TIMER_PROBE_MS n))) ∧ RegsKept [R.LANE_STAT n] s.hw h ∧ MemKept s.hw h) ∧
    (∀ (n : Fin 12) (d : Nat), s.hw.laneState n = 1 → tget s.hw.timers (.lane n) = some d → ¬ (n.val < 8 ∧ s.hw.flag (R.LANE_CTL_PROBE_EN n) = true ∧ 1 ≤ s.hw.get (R.LANE_CTL_RATE_MAX n)) → Gives (.negTimeout n) s fun h =>
        h.get (R.LANE_CNT_TRAIN_FAIL n) = min (s.hw.get (R.LANE_CNT_TRAIN_FAIL n) + 1) 65535 ∧ h.get (R.LANE_STAT_TRY n) = (s.hw.get (R.LANE_STAT_TRY n) + 1) % 256 ∧
        (if s.hw.get (R.LANE_STAT_TRY n) + 1 < s.hw.get (R.LANE_CTL_TRIES n) then h.laneState n = 5 ∧ tget h.timers (.lane n) = some ((s.hw.advanceTo d).et + min (ms (10 * 2 ^ s.hw.get (R.LANE_STAT_TRY n))) (ms 10000))
        else h.laneState n = 6 ∧ h.get (R.LANE_STAT_NO_PARTNER_EV n) = 1 ∧ tget h.timers (.lane n) = some ((s.hw.advanceTo d).et + ms (100 * s.hw.get (R.LANE_CTL_DET_PER n)))) ∧ RegsKept [R.LANE_STAT n, R.LANE_CNT n] s.hw h ∧ MemKept s.hw h) ∧
    (∀ (n : Fin 12) (d : Nat), s.hw.laneState n = 2 → tget s.hw.timers (.lane n) = some d → s.hw.laneRate n < s.hw.get (R.LANE_CTL_RATE_MAX n) → Gives (.probeStep n) s fun h =>
        h.laneState n = 2 ∧ h.laneRate n = s.hw.laneRate n + 1 ∧ tget h.timers (.lane n) = some ((s.hw.advanceTo d).et + ms (s.hw.get (R.LANE_TIMER_PROBE_MS n))) ∧ RegsKept [R.LANE_STAT n] s.hw h ∧ MemKept s.hw h) ∧
    (∀ (n : Fin 12) (d : Nat), s.hw.laneState n = 2 → tget s.hw.timers (.lane n) = some d → s.hw.get (R.LANE_CTL_RATE_MAX n) ≤ s.hw.laneRate n → Gives (.probeStep n) s fun h =>
        h.get (R.LANE_CNT_TRAIN_FAIL n) = min (s.hw.get (R.LANE_CNT_TRAIN_FAIL n) + 1) 65535 ∧ h.get (R.LANE_STAT_TRY n) = (s.hw.get (R.LANE_STAT_TRY n) + 1) % 256 ∧
        (if s.hw.get (R.LANE_STAT_TRY n) + 1 < s.hw.get (R.LANE_CTL_TRIES n) then h.laneState n = 5 ∧ tget h.timers (.lane n) = some ((s.hw.advanceTo d).et + min (ms (10 * 2 ^ s.hw.get (R.LANE_STAT_TRY n))) (ms 10000))
        else h.laneState n = 6 ∧ h.get (R.LANE_STAT_NO_PARTNER_EV n) = 1 ∧ tget h.timers (.lane n) = some ((s.hw.advanceTo d).et + ms (100 * s.hw.get (R.LANE_CTL_DET_PER n)))) ∧ RegsKept [R.LANE_STAT n, R.LANE_CNT n] s.hw h ∧ MemKept s.hw h) ∧
    (∀ (n : Fin 12) (d : Nat), s.hw.laneState n = 3 → tget s.hw.timers (.lane n) = some d → Gives (.trainTimeout n) s fun h =>
        h.get (R.LANE_CNT_TRAIN_FAIL n) = min (s.hw.get (R.LANE_CNT_TRAIN_FAIL n) + 1) 65535 ∧ h.get (R.LANE_STAT_TRY n) = (s.hw.get (R.LANE_STAT_TRY n) + 1) % 256 ∧
        (if s.hw.get (R.LANE_STAT_TRY n) + 1 < s.hw.get (R.LANE_CTL_TRIES n) then h.laneState n = 5 ∧ tget h.timers (.lane n) = some ((s.hw.advanceTo d).et + min (ms (10 * 2 ^ s.hw.get (R.LANE_STAT_TRY n))) (ms 10000))
        else h.laneState n = 6 ∧ h.get (R.LANE_STAT_NO_PARTNER_EV n) = 1 ∧ tget h.timers (.lane n) = some ((s.hw.advanceTo d).et + ms (100 * s.hw.get (R.LANE_CTL_DET_PER n)))) ∧ RegsKept [R.LANE_STAT n, R.LANE_CNT n] s.hw h ∧ MemKept s.hw h ∧
        h.get (R.LANE_STAT_FAILED n) = (if (s.hw.lane n).lastTrain = some (s.hw.laneRate n) ∧ s.hw.laneRate n < 5 then Nat.lor (s.hw.get (R.LANE_STAT_FAILED n)) (2 ^ s.hw.laneRate n) else s.hw.get (R.LANE_STAT_FAILED n)) ∧ (h.lane n).lastTrain = some (s.hw.laneRate n)) ∧
    (∀ (n : Fin 12) (p : Option RatePage), s.hw.laneState n = 1 → (s.hw.agreed n p).1 = 0 → s.hw.get (R.LANE_CTL_PWR n) = 0 → s.hw.running (.laneExit n) = false → Gives (.ratePageExchanged n p) s fun h =>
        h.laneState n = 4 ∧ h.laneRate n = 0 ∧ h.get (R.LANE_STAT_FEC n) = 0 ∧ h.get (R.LANE_STAT_LINK n) = 1 ∧ h.get (R.LANE_STAT_UP_EV n) = 1 ∧ h.get (R.LANE_STAT_TRY n) = 0 ∧ tget h.timers (.lane n) = none ∧
        (n.val < 8 → h.ethLink n = true ∧ h.get (R.ETH_PSTAT_SPEED n) = (0 + 1) % 8) ∧ MemKept s.hw h) ∧
    (∀ (n : Fin 12) (p : Option RatePage), s.hw.laneState n = 1 → (s.hw.agreed n p).1 ≠ 0 → Gives (.ratePageExchanged n p) s fun h =>
        h.laneState n = 3 ∧ h.laneRate n = (s.hw.agreed n p).1 ∧ h.get (R.LANE_STAT_FEC n) = (s.hw.agreed n p).2 ∧ tget h.timers (.lane n) = some (s.hw.et + ms (s.hw.get (R.LANE_TIMER_TRAIN_TO n))) ∧ RegsKept [R.LANE_STAT n] s.hw h ∧ MemKept s.hw h) ∧
    (∀ (n : Fin 12), s.hw.laneState n = 2 → s.hw.get (R.LANE_CTL_PWR n) = 0 → s.hw.running (.laneExit n) = false → Gives (.probeLock n) s fun h =>
        h.laneState n = 4 ∧ h.laneRate n = s.hw.laneRate n ∧ h.get (R.LANE_STAT_FEC n) = 0 ∧ h.get (R.LANE_STAT_LINK n) = 1 ∧ h.get (R.LANE_STAT_UP_EV n) = 1 ∧ h.get (R.LANE_STAT_TRY n) = 0 ∧ tget h.timers (.lane n) = none ∧
        (n.val < 8 → h.ethLink n = true ∧ h.get (R.ETH_PSTAT_SPEED n) = (s.hw.laneRate n + 1) % 8) ∧ MemKept s.hw h) ∧
    (∀ (n : Fin 12), s.hw.laneState n = 3 → s.hw.get (R.LANE_CTL_PWR n) = 0 → s.hw.running (.laneExit n) = false → Gives (.trainLockHeld n) s fun h =>
        h.laneState n = 4 ∧ h.laneRate n = s.hw.laneRate n ∧ h.get (R.LANE_STAT_FEC n) = s.hw.get (R.LANE_STAT_FEC n) ∧ h.get (R.LANE_STAT_LINK n) = 1 ∧ h.get (R.LANE_STAT_UP_EV n) = 1 ∧ h.get (R.LANE_STAT_TRY n) = 0 ∧ tget h.timers (.lane n) = none ∧
        (n.val < 8 → h.ethLink n = true ∧ h.get (R.ETH_PSTAT_SPEED n) = (s.hw.laneRate n + 1) % 8) ∧ MemKept s.hw h) ∧
    (∀ (n : Fin 12), s.hw.laneState n = 4 → Gives (.linkLoss n) s fun h =>
        h.laneState n = 1 ∧ h.laneRate n = 0 ∧ h.get (R.LANE_STAT_LINK n) = 0 ∧ tget h.timers (.lane n) = some (s.hw.et + ms (s.hw.get (R.LANE_TIMER_NEG_TO n))) ∧ h.get (R.LANE_STAT_DOWN_EV n) = 1 ∧ h.get (R.LANE_CNT_LINK_DOWN n) = min (s.hw.get (R.LANE_CNT_LINK_DOWN n) + 1) 65535 ∧
        (n.val < 8 → h.ethLink n = false ∧ h.get (R.ETH_PSTAT_SPEED n) = 0) ∧ (8 ≤ n.val → h.get (R.UZL_NBR_STAT_DOWN (n.val - 8)) = 1) ∧ MemKept s.hw h) ∧
    (∀ (n : Fin 12) (d : Nat), s.hw.laneState n = 5 → tget s.hw.timers (.lane n) = some d → Gives (.backoffEnd n) s fun h =>
        h.laneState n = 1 ∧ h.laneRate n = 0 ∧ h.get (R.LANE_STAT_LINK n) = 0 ∧ tget h.timers (.lane n) = some ((s.hw.advanceTo d).et + ms (s.hw.get (R.LANE_TIMER_NEG_TO n))) ∧ RegsKept [R.LANE_STAT n] s.hw h ∧ MemKept s.hw h) ∧
    (∀ (n : Fin 12) (d : Nat), s.hw.laneState n = 6 → tget s.hw.timers (.lane n) = some d → Gives (.detectSample n true) s fun h =>
        h.laneState n = 6 ∧ tget h.timers (.laneExit n) = some ((s.hw.advanceTo d).et + 1500000) ∧ RegsKept [] s.hw h ∧ MemKept s.hw h) ∧
    (∀ (n : Fin 12) (d : Nat), s.hw.laneState n = 6 → tget s.hw.timers (.lane n) = some d → Gives (.detectSample n false) s fun h =>
        h.laneState n = 6 ∧ tget h.timers (.lane n) = some ((s.hw.advanceTo d).et + ms (100 * s.hw.get (R.LANE_CTL_DET_PER n))) ∧ RegsKept [] s.hw h ∧ MemKept s.hw h) ∧
    (∀ (n : Fin 12) (locked : Bool) (d : Nat), s.hw.laneState n = 6 → tget s.hw.timers (.laneExit n) = some d → Gives (.l2ExitComplete n locked) s fun h =>
        h.get (R.LANE_STAT_TRY n) = 0 ∧ h.laneState n = 1 ∧ h.laneRate n = 0 ∧ h.get (R.LANE_STAT_LINK n) = 0 ∧ tget h.timers (.lane n) = some ((s.hw.advanceTo d).et + ms (s.hw.get (R.LANE_TIMER_NEG_TO n))) ∧ RegsKept [R.LANE_STAT n] s.hw h ∧ MemKept s.hw h) ∧
    (∀ (n : Fin 12), s.hw.laneState n = 5 ∨ s.hw.laneState n = 6 → Gives (.laneRetry n) s fun h =>
        h.get (R.LANE_STAT_TRY n) = 0 ∧ h.laneState n = 1 ∧ h.laneRate n = 0 ∧ h.get (R.LANE_STAT_LINK n) = 0 ∧ tget h.timers (.lane n) = some (s.hw.et + ms (s.hw.get (R.LANE_TIMER_NEG_TO n))) ∧ RegsKept [R.LANE_STAT n] s.hw h ∧ MemKept s.hw h) ∧
    (∀ (n : Fin 12) (c : Instr), c = .negTimeout n ∧ s.hw.laneState n ≠ 1 ∨ c = .ratePageExchanged n none ∧ s.hw.laneState n ≠ 1 ∨ c = .probeStep n ∧ s.hw.laneState n ≠ 2 ∨ c = .probeLock n ∧ s.hw.laneState n ≠ 2 ∨ c = .trainLockHeld n ∧ s.hw.laneState n ≠ 3 ∨ c = .trainTimeout n ∧ s.hw.laneState n ≠ 3 ∨ c = .linkLoss n ∧ s.hw.laneState n ≠ 4 ∨ c = .backoffEnd n ∧ s.hw.laneState n ≠ 5 ∨ c = .laneRetry n ∧ s.hw.laneState n ≠ 5 ∧ s.hw.laneState n ≠ 6 → Gives (c) s fun h =>
        Unchanged s.hw h)

/-- Quiet states (R398) and bit-error testing (R400, R402, R403). -/
def Obligations.QuietLanesAndBitErrorTests : Prop :=
  ∀ s : State, s.hw.mainUp = true → 
    (∀ (n : Fin 12), Gives (.pwrWrite n 3) s fun h =>
        Unchanged s.hw h) ∧
    (∀ (n : Fin 12) (v : BitVec 2), v = 1 ∨ v = 2 → s.hw.laneState n = 4 → s.hw.portSending n = false → Gives (.pwrWrite n v) s fun h =>
        h.laneState n = 6 + v.toNat ∧ h.get (R.LANE_STAT_LINK n) = 0 ∧ h.get (R.LANE_CTL_PWR n) = v.toNat ∧ MemKept s.hw h) ∧
    (∀ (n : Fin 12), s.hw.laneState n = 7 ∨ s.hw.laneState n = 8 → s.hw.running (.laneExit n) = false → Gives (.pwrWrite n 0) s fun h =>
        h.laneState n = s.hw.laneState n ∧ h.get (R.LANE_CTL_PWR n) = 0 ∧
        tget h.timers (.laneExit n) = some (s.hw.et + if s.hw.laneState n = 7 then 2000 else 1500000) ∧ RegsKept [R.LANE_CTL n] s.hw h ∧ MemKept s.hw h) ∧
    (∀ (n : Fin 12), s.hw.laneState n = 7 → Gives (.pwrWrite n 2) s fun h =>
        h.laneState n = 8 ∧ h.get (R.LANE_CTL_PWR n) = 2 ∧ tget h.timers (.laneExit n) = none ∧ RegsKept [R.LANE_CTL n, R.LANE_STAT n] s.hw h ∧ MemKept s.hw h) ∧
    (∀ (n : Fin 12) (v : BitVec 2), v ≠ 3 → s.hw.laneState n ≠ 4 ∧ s.hw.laneState n ≠ 7 ∧ s.hw.laneState n ≠ 8 → Gives (.pwrWrite n v) s fun h =>
        h.get (R.LANE_CTL_PWR n) = v.toNat ∧ OnlyRegs [R.LANE_CTL n] s.hw h) ∧
    (∀ (n : Fin 8), s.hw.laneState n = 4 → s.hw.get (R.LANE_CTL_PWR n) = 1 → (s.hw.ethPort n).next = [] → (s.hw.ethPort n).tx.any (fun x => x.started) = true → Gives (.ethFrameTransmit n) s fun h =>
        h.laneState n = 7 ∧ h.get (R.LANE_STAT_LINK n) = 0 ∧ h.ethLink n = false) ∧
    (∀ (n : Fin 12) (locked : Bool) (d : Nat), s.hw.laneState n = 7 ∨ s.hw.laneState n = 8 ∧ locked = true → tget s.hw.timers (.laneExit n) = some d → s.hw.get (R.LANE_CTL_PWR n) = 0 → Gives (.quietExitComplete n locked) s fun h =>
        h.laneState n = 4 ∧ h.laneRate n = s.hw.laneRate n ∧ h.get (R.LANE_STAT_FEC n) = s.hw.get (R.LANE_STAT_FEC n) ∧ h.get (R.LANE_STAT_LINK n) = 1 ∧ h.get (R.LANE_STAT_UP_EV n) = 1 ∧ h.get (R.LANE_STAT_TRY n) = 0 ∧ tget h.timers (.lane n) = none ∧
        (n.val < 8 → h.ethLink n = true ∧ h.get (R.ETH_PSTAT_SPEED n) = (s.hw.laneRate n + 1) % 8) ∧ MemKept s.hw h) ∧
    (∀ (n : Fin 12) (d : Nat), s.hw.laneState n = 8 → tget s.hw.timers (.laneExit n) = some d → Gives (.quietExitComplete n false) s fun h =>
        h.laneState n = 1 ∧ h.laneRate n = 0 ∧ h.get (R.LANE_STAT_LINK n) = 0 ∧ tget h.timers (.lane n) = some ((s.hw.advanceTo d).et + ms (s.hw.get (R.LANE_TIMER_NEG_TO n))) ∧ h.get (R.LANE_STAT_DOWN_EV n) = 1 ∧ h.get (R.LANE_CNT_LINK_DOWN n) = min (s.hw.get (R.LANE_CNT_LINK_DOWN n) + 1) 65535 ∧ MemKept s.hw h) ∧
    (∀ (n : Fin 12) (locked : Bool), s.hw.laneState n ≠ 7 ∧ s.hw.laneState n ≠ 8 → Gives (.quietExitComplete n locked) s fun h =>
        Unchanged s.hw h) ∧
    (∀ (n : Fin 12), s.hw.checking n = true → s.hw.flag (R.LANE_TEST_LOCK n) = false → Gives (.checkerLock n) s fun h =>
        h.get (R.LANE_TEST_LOCK n) = 1 ∧ (h.lane n).lockAt = s.hw.et ∧ RegsKept [R.LANE_TEST n] s.hw h ∧ MemKept s.hw h) ∧
    (∀ (n : Fin 12), s.hw.checking n = false ∨ s.hw.flag (R.LANE_TEST_LOCK n) = true → Gives (.checkerLock n) s fun h =>
        Unchanged s.hw h) ∧
    (∀ (n : Fin 12) (blocks : List Nat), s.hw.checking n = true → s.hw.flag (R.LANE_TEST_LOCK n) = true → blocks.all (fun w => decide (w < 32)) = true → Gives (.checkerLockLost n blocks) s fun h =>
        h.get (R.LANE_ERR_CNT_ERR_CNT n) = min (s.hw.get (R.LANE_ERR_CNT_ERR_CNT n) + blocks.sum) (2 ^ 32 - 1) ∧ RegsKept [R.LANE_ERR_CNT n] s.hw h ∧ MemKept s.hw h) ∧
    (∀ (n : Fin 12) (l : List Nat) (w : Nat) (rest : List Nat), s.hw.checking n = true → s.hw.flag (R.LANE_TEST_LOCK n) = true → l.all (fun w => decide (w < 32)) = true → 32 ≤ w ∧ w ≤ 1024 → Gives (.checkerLockLost n (l ++ w :: rest)) s fun h =>
        h.get (R.LANE_TEST_LOCK n) = 0 ∧ h.get (R.LANE_TEST_LOCK_LOST_EV n) = 1 ∧ h.get (R.LANE_ERR_CNT_ERR_CNT n) = min (s.hw.get (R.LANE_ERR_CNT_ERR_CNT n) + l.sum + w) (2 ^ 32 - 1) ∧ h.bitCount n = min (s.hw.bitCount n + laneBits (s.hw.laneRate n) (s.hw.et - (s.hw.lane n).lockAt)) (2 ^ 48 - 1) ∧
        RegsKept [R.LANE_TEST n, R.LANE_ERR_CNT n, R.LANE_BIT_LO n, R.LANE_BIT_HI n] s.hw h ∧ MemKept s.hw h) ∧
    (∀ (n : Fin 12) (blocks : List Nat), s.hw.checking n = false ∨ s.hw.flag (R.LANE_TEST_LOCK n) = false → Gives (.checkerLockLost n blocks) s fun h =>
        Unchanged s.hw h) ∧
    (∀ (n : Fin 12), s.hw.laneState n = 9 → (s.hw.get (R.LANE_TEST_MODE n)).testBit 0 = true → s.hw.get (R.LANE_TEST_INJ n) = 1 ∨ s.hw.get (R.LANE_TEST_INJ n) = 2 → Gives (.injGo n) s fun h =>
        (h.lane n).inject = some (laneBits (s.hw.laneRate n) (s.hw.et - (s.hw.lane n).genAt), if s.hw.get (R.LANE_TEST_INJ n) = 1 then 1 else s.hw.get (R.LANE_TEST_BURST_LEN n)) ∧ RegsKept [] s.hw h ∧ MemKept s.hw h) ∧
    (∀ (n : Fin 12), ¬ (s.hw.laneState n = 9 ∧ (s.hw.get (R.LANE_TEST_MODE n)).testBit 0 = true ∧ (s.hw.get (R.LANE_TEST_INJ n) = 1 ∨ s.hw.get (R.LANE_TEST_INJ n) = 2)) → Gives (.injGo n) s fun h =>
        Unchanged s.hw h) ∧
    (∀ (n : Fin 12), Gives (.testClr n) s fun h =>
        h.get (R.LANE_ERR_CNT_ERR_CNT n) = 0 ∧ h.bitCount n = 0 ∧ (h.lane n).lockAt = s.hw.et ∧ RegsKept [R.LANE_ERR_CNT n, R.LANE_BIT_LO n, R.LANE_BIT_HI n] s.hw h ∧ MemKept s.hw h)

/-- Reception on a hop (R408 to R410, R414, R416, R419, R422). Hop counters: 0 good, 1 header, 2 CRC, 3 stomped, 6 transit drop, 7 closing, 10 blocked. -/
def Obligations.CascadeReception : Prop :=
  ∀ s : State, s.hw.mainUp = true → 
    (∀ (i : Fin 4) (raw : List Byte) (op : BitVec 16), s.hw.laneState (8 + i) ≠ 4 ∨ s.hw.laneTakes (8 + i) = false → Gives (.uzoviHeaderDecision i raw op) s fun h =>
        Unchanged s.hw h) ∧
    (∀ (i : Fin 4) (raw : List Byte) (op : BitVec 16), s.hw.laneState (8 + i) = 4 → s.hw.laneTakes (8 + i) = true → s.hw.hopState i = 3 → (s.hw.hop i).arriving.all (fun a => a.copies.isEmpty) = true → Gives (.uzoviHeaderDecision i raw op) s fun h =>
        (h.hop i).arriving = none ∧ Counted (s.hw.hopCounter i 7) (h.hopCounter i 7) ∧ RegsKept [R.UZL_HCNT_LO i 7, R.UZL_HCNT_HI i 7, R.UZL_STAT] s.hw h ∧ MemKept s.hw h) ∧
    (∀ (i : Fin 4) (raw : List Byte) (op : BitVec 16), s.hw.laneState (8 + i) = 4 → s.hw.laneTakes (8 + i) = true → s.hw.hopState i ≤ 1 → (s.hw.hop i).arriving.all (fun a => a.copies.isEmpty) = true → Gives (.uzoviHeaderDecision i raw op) s fun h =>
        (h.hop i).arriving = none ∧ RegsKept [] s.hw h ∧ MemKept s.hw h) ∧
    (∀ (i : Fin 4) (raw : List Byte) (op : BitVec 16), s.hw.laneState (8 + i) = 4 → s.hw.laneTakes (8 + i) = true → s.hw.hopState i = 2 → (s.hw.hop i).arriving.all (fun a => a.copies.isEmpty) = true → raw.length ≠ 24 ∨ field16 raw 14 ≠ hcrc (raw.take 14) ∨ headerSound raw op.toNat = false → Gives (.uzoviHeaderDecision i raw op) s fun h =>
        (h.hop i).arriving = none ∧ Counted (s.hw.hopCounter i 1) (h.hopCounter i 1) ∧ RegsKept [R.UZL_HCNT_LO i 1, R.UZL_HCNT_HI i 1, R.UZL_STAT] s.hw h ∧ MemKept s.hw h) ∧
    (∀ (i : Fin 4) (raw : List Byte) (op : BitVec 16) (a : HopArrival) (e id : Nat) (f : TransitFrame), s.hw.laneState (8 + i) = 4 → s.hw.laneTakes (8 + i) = true → s.hw.hopState i ≤ 1 → (s.hw.hop i).arriving = some a → a.copies = [(e, id)] → e < 4 → s.hw.transitFrame e id = some f → Gives (.uzoviHeaderDecision i raw op) s fun h =>
        (h.hop i).arriving = none ∧ h.transitFrame e id = none ∧ (f.express = false → (h.hop e).bestUsed = (s.hw.hop e).bestUsed - f.reserved) ∧
        (if f.started then kget h.wire (8 + e) = some [sealHeader (f.header) ++ [] ++ (if true then (fcsOf (sealHeader (f.header) ++ [])).map (~~~ ·) else fcsOf (sealHeader (f.header) ++ []))] else h.wire = s.hw.wire) ∧ MemKept s.hw h) ∧
    (∀ (i : Fin 4) (raw : List Byte) (op : BitVec 16), s.hw.laneState (8 + i) = 4 → s.hw.laneTakes (8 + i) = true → s.hw.hopState i = 2 → (s.hw.hop i).arriving.all (fun a => a.copies.isEmpty) = true → raw.length = 24 ∧ field16 raw 14 = hcrc (raw.take 14) → headerSound raw op.toNat = true → s.hw.hopBlocked i = true → hdrType raw ≠ 3 → Gives (.uzoviHeaderDecision i raw op) s fun h =>
        (h.hop i).arriving = none ∧ Counted (s.hw.hopCounter i 10) (h.hopCounter i 10) ∧ RegsKept [R.UZL_HCNT_LO i 10, R.UZL_HCNT_HI i 10, R.UZL_STAT] s.hw h ∧ MemKept s.hw h) ∧
    (∀ (i : Fin 4) (raw : List Byte) (op : BitVec 16) (hdr : List Byte), s.hw.laneState (8 + i) = 4 → s.hw.laneTakes (8 + i) = true → s.hw.hopState i = 2 → (s.hw.hop i).arriving.all (fun a => a.copies.isEmpty) = true → raw.length = 24 ∧ field16 raw 14 = hcrc (raw.take 14) → headerSound raw op.toNat = true → s.hw.hopBlocked i = false ∨ hdrType raw = 3 → hdr = s.hw.receiveCfa i raw → (s.hw.transitHops i hdr).1 = [] → Gives (.uzoviHeaderDecision i raw op) s fun h =>
        (h.hop i).arriving = some ⟨hdr, s.hw.deliversLocally hdr, s.hw.isRequest i hdr, hdrType hdr == 3, s.hw.stampNow true, []⟩ ∧
        (match (s.hw.transitHops i hdr).2 with | some k => decide (h.hopCounter i k = (s.hw.hopCounter i k + 1) % 2 ^ 40) | none => true) = true ∧ MemKept s.hw h) ∧
    (∀ (i : Fin 4) (raw : List Byte) (op : BitVec 16) (hdr : List Byte) (e : Nat), s.hw.laneState (8 + i) = 4 → s.hw.laneTakes (8 + i) = true → s.hw.hopState i = 2 → (s.hw.hop i).arriving.all (fun a => a.copies.isEmpty) = true → raw.length = 24 ∧ field16 raw 14 = hcrc (raw.take 14) → headerSound raw op.toNat = true → s.hw.hopBlocked i = false ∨ hdrType raw = 3 → hdr = s.hw.receiveCfa i raw → s.hw.transitHops i hdr = ([e], none) → e < 4 → s.hw.hopState e = 2 ∧ s.hw.laneState (8 + e) = 4 → (if hdrTc hdr = 7 then decide ((s.hw.hop e).expressUsed + 1546 ≤ 8192) else decide ((s.hw.hop e).bestUsed + 16324 ≤ 65536)) = true → Gives (.uzoviHeaderDecision i raw op) s fun h =>
        (if hdrTc hdr = 7 then ((h.hop e).express.getLast?.any fun f => f.id == s.hw.uzovi.nextId && f.header == patchBytes hdr 8 (bytesBE 2 (hdrHop hdr - 1)) && f.payload.isNone && f.ingress == some i.val && !f.started) = true ∧ (h.hop e).expressUsed = (s.hw.hop e).expressUsed + 1546
        else ((h.hop e).best.getLast?.any fun f => f.id == s.hw.uzovi.nextId && f.header == patchBytes hdr 8 (bytesBE 2 (hdrHop hdr - 1)) && f.payload.isNone && f.ingress == some i.val && !f.started) = true ∧ (h.hop e).bestUsed = (s.hw.hop e).bestUsed + 16324) ∧
        (h.hop i).arriving = some ⟨hdr, s.hw.deliversLocally hdr, s.hw.isRequest i hdr, hdrType hdr == 3, s.hw.stampNow true, [(e, s.hw.uzovi.nextId)]⟩ ∧ MemKept s.hw h) ∧
    (∀ (i : Fin 4) (raw : List Byte) (op : BitVec 16) (hdr : List Byte) (e : Nat), s.hw.laneState (8 + i) = 4 → s.hw.laneTakes (8 + i) = true → s.hw.hopState i = 2 → (s.hw.hop i).arriving.all (fun a => a.copies.isEmpty) = true → raw.length = 24 ∧ field16 raw 14 = hcrc (raw.take 14) → headerSound raw op.toNat = true → s.hw.hopBlocked i = false ∨ hdrType raw = 3 → hdr = s.hw.receiveCfa i raw → s.hw.transitHops i hdr = ([e], none) → e < 4 → s.hw.hopState e = 3 ∨ s.hw.hopState e ≤ 1 ∨ s.hw.laneState (8 + e) ≠ 4 → Gives (.uzoviHeaderDecision i raw op) s fun h =>
        Counted (s.hw.hopCounter e (if s.hw.hopState e = 3 then 7 else 6)) (h.hopCounter e (if s.hw.hopState e = 3 then 7 else 6)) ∧ (h.hop i).arriving = some ⟨hdr, s.hw.deliversLocally hdr, s.hw.isRequest i hdr, hdrType hdr == 3, s.hw.stampNow true, []⟩ ∧ MemKept s.hw h) ∧
    (∀ (i : Fin 4) (pl : List Byte) (crc : CrcFinding), (s.hw.hop i).arriving = none → Gives (.uzoviFrameEnd i pl crc) s fun h =>
        Unchanged s.hw h) ∧
    (∀ (i : Fin 4) (pl : List Byte) (crc : CrcFinding) (a : HopArrival), (s.hw.hop i).arriving = some a → a.copies = [] → a.deliver = true ∧ a.ctrl = false ∧ (a.request = false ∨ crc ≠ .correct) → Gives (.uzoviFrameEnd i pl crc) s fun h =>
        (h.hop i).arriving = none ∧ Counted (s.hw.hopCounter i (match crc with | .correct => 0 | .stomped => 3 | .wrong => 2)) (h.hopCounter i (match crc with | .correct => 0 | .stomped => 3 | .wrong => 2)) ∧
        h.staged (8 + i) = s.hw.staged (8 + i) ++ (if a.request then [] else [⟨a.header ++ pl, crc == .correct, a.stamp, 0, none, none, 0⟩]) ∧ MemKept s.hw h) ∧
    (∀ (i : Fin 4) (pl : List Byte) (a : HopArrival), (s.hw.hop i).arriving = some a → a.copies = [] → a.deliver = true ∧ a.ctrl = false ∧ a.request = true → Gives (.uzoviFrameEnd i pl .correct) s fun h =>
        Counted (s.hw.hopCounter i 0) (h.hopCounter i 0) ∧ h.uzovi.requests = (if s.hw.uzovi.requests.length < 8 then s.hw.uzovi.requests ++ [⟨hdrSrc a.header, pl⟩] else s.hw.uzovi.requests) ∧ MemKept s.hw h) ∧
    (∀ (i : Fin 4) (pl : List Byte) (crc : CrcFinding) (a : HopArrival) (e id : Nat) (f : TransitFrame), (s.hw.hop i).arriving = some a → a.copies = [(e, id)] → e < 4 → a.deliver = false → s.hw.transitFrame e id = some f → f.express = false ∧ f.started = false → Gives (.uzoviFrameEnd i pl crc) s fun h =>
        h.transitFrame e id = some { f with payload := some pl, stomp := crc != .correct, reserved := min f.reserved (28 + pl.length) } ∧
        (h.hop e).bestUsed = (s.hw.hop e).bestUsed - (f.reserved - (28 + pl.length)) ∧ MemKept s.hw h) ∧
    (∀ (i : Fin 4) (pl : List Byte) (crc : CrcFinding) (a : HopArrival) (e id : Nat) (f : TransitFrame), (s.hw.hop i).arriving = some a → a.copies = [(e, id)] → e < 4 → a.deliver = false → s.hw.transitFrame e id = some f → f.express = false ∧ f.started = true → Gives (.uzoviFrameEnd i pl crc) s fun h =>
        kget h.wire (8 + e) = some [sealHeader (f.header) ++ pl ++ (if (crc != .correct) then (fcsOf (sealHeader (f.header) ++ pl)).map (~~~ ·) else fcsOf (sealHeader (f.header) ++ pl))] ∧ h.transitFrame e id = none ∧
        (h.hop e).tx = (s.hw.hop e).tx.map (fun x => { x with total := 28 + pl.length, endAt := (x.startAt.map fun t => max s.hw.et (t + s.hw.hopTime e (28 + pl.length))).getD 0 }) ∧
        Counted (s.hw.hopCounter e 4) (h.hopCounter e 4) ∧ MemKept s.hw h)

/-- Sending on a hop (R406, R412, R413, R416) and register requests (R422). Hop counters: 4 sent, 5 transit. -/
def Obligations.CascadeSending : Prop :=
  ∀ s : State, s.hw.mainUp = true → 
    (∀ (e : Fin 4) (c : Instr) (n : Fin 80), n.val = 8 + e.val → c = .hopSendSelect e ∨ c = .egressRequest n → s.hw.hopUp e = false ∨ (s.hw.hop e).tx.any (fun x => x.unfinished) = true ∨ s.hw.laneTakes (8 + e) = false ∧ (s.hw.hop e).tx = none ∧ (s.hw.hop e).suspended = none → Gives (c) s fun h =>
        Unchanged s.hw h) ∧
    (∀ (e : Fin 4) (c : Instr) (n : Fin 80) (f : TransitFrame) (pl : List Byte), n.val = 8 + e.val → c = .hopSendSelect e ∨ c = .egressRequest n → s.hw.hopUp e = true → s.hw.laneTakes (8 + e) = true → (s.hw.hop e).tx.all (fun x => !x.unfinished && decide (x.endAt ≤ s.hw.et)) = true → s.hw.get (R.LANE_CTL_PWR (8 + e)) = 0 → s.hw.lineHead e (s.hw.hop e).express = some f → s.hw.hopBlocked e = true ∨ s.hw.strictSeq e = none → f.payload = some pl → f.express = true ∧ f.started = false → Gives (c) s fun h =>
        kget h.wire (8 + e) = some [sealHeader (f.leave (s.hw.stampNow true)) ++ pl ++ (if f.stomp then (fcsOf (sealHeader (f.leave (s.hw.stampNow true)) ++ pl)).map (~~~ ·) else fcsOf (sealHeader (f.leave (s.hw.stampNow true)) ++ pl))] ∧
        (h.hop e).tx = some ⟨true, 28 + pl.length, 0, false, none, 0⟩ ∧ h.transitFrame e f.id = none ∧ (h.hop e).expressUsed = (s.hw.hop e).expressUsed - f.reserved ∧
        Counted (s.hw.hopCounter e 4) (h.hopCounter e 4) ∧ h.hopCounter e 5 = (s.hw.hopCounter e 5 + if f.ingress.isSome then 1 else 0) % 2 ^ 40 ∧ MemKept s.hw h) ∧
    (∀ (e : Fin 4) (c : Instr) (n : Fin 80) (x : HopTx), n.val = 8 + e.val → c = .hopSendSelect e ∨ c = .egressRequest n → s.hw.hopUp e = true → s.hw.laneTakes (8 + e) = true → (s.hw.hop e).tx.all (fun x => !x.unfinished && decide (x.endAt ≤ s.hw.et)) = true → s.hw.get (R.LANE_CTL_PWR (8 + e)) = 0 → s.hw.lineHead e (s.hw.hop e).express = none → s.hw.hopBlocked e = true ∨ s.hw.strictSeq e = none → (s.hw.hop e).suspended = some x → Gives (c) s fun h =>
        (h.hop e).tx = some { x with endAt := s.hw.et + s.hw.hopTime e (x.total - x.done) } ∧ (h.hop e).suspended = none ∧ RegsKept [] s.hw h ∧ MemKept s.hw h) ∧
    (∀ (e : Fin 4) (c : Instr) (n : Fin 80), n.val = 8 + e.val → c = .hopSendSelect e ∨ c = .egressRequest n → s.hw.hopUp e = true → s.hw.laneTakes (8 + e) = true → (s.hw.hop e).tx.all (fun x => !x.unfinished && decide (x.endAt ≤ s.hw.et)) = true → s.hw.get (R.LANE_CTL_PWR (8 + e)) = 0 → s.hw.lineHead e (s.hw.hop e).express = none → s.hw.hopBlocked e = true ∨ s.hw.strictSeq e = none → (s.hw.hop e).suspended = none → (s.hw.hop e).helloDue = true → Gives (c) s fun h =>
        kget h.wire (8 + e) = some [sealHeader (header idNeighbour (s.hw.get R.UZL_ID_ID) 1 3 0 0) ++ s.hw.ctrlPayload 1 e 0 0 ++ (if false then (fcsOf (sealHeader (header idNeighbour (s.hw.get R.UZL_ID_ID) 1 3 0 0) ++ s.hw.ctrlPayload 1 e 0 0)).map (~~~ ·) else fcsOf (sealHeader (header idNeighbour (s.hw.get R.UZL_ID_ID) 1 3 0 0) ++ s.hw.ctrlPayload 1 e 0 0))] ∧ (h.hop e).helloDue = false ∧ (h.hop e).tx = some ⟨false, 28 + 16, 0, false, none, 0⟩ ∧ Counted (s.hw.hopCounter e 4) (h.hopCounter e 4) ∧
        RegsKept [R.UZL_HCNT_LO e 4, R.UZL_HCNT_HI e 4, R.UZL_STAT] s.hw h ∧ MemKept s.hw h) ∧
    (∀ (e : Fin 4) (c : Instr) (n : Fin 80) (q id : Nat) (f : Frame), n.val = 8 + e.val → c = .hopSendSelect e ∨ c = .egressRequest n → s.hw.hopUp e = true → s.hw.laneTakes (8 + e) = true → (s.hw.hop e).tx.all (fun x => !x.unfinished && decide (x.endAt ≤ s.hw.et)) = true → s.hw.get (R.LANE_CTL_PWR (8 + e)) = 0 → s.hw.lineHead e (s.hw.hop e).express = none → s.hw.hopBlocked e = true ∨ s.hw.strictSeq e = none → (s.hw.hop e).suspended = none → (s.hw.hop e).helloDue = false → (s.hw.hop e).transitLast = true → s.hw.hopBlocked e = false → (s.hw.select anyQueue s.hw.onlyFair (8 + e)).2 = some (q, id) → f = s.hw.frame id → s.hw.flag (R.CKR_POOL_CFG_LOC f.pool) = false → s.hw.frameFault 22 f = none → f.act = 0 ∨ f.act = 3 → s.hw.flag R.UZL_STAT_FLOOD = false → 24 ≤ (patchBytes (patchBytes (s.hw.leavingBytes f) 4 (bytesBE 4 (s.hw.get R.UZL_ID_ID))) 11 (bytesBE 1 (32 * f.tc + byteAt (patchBytes (s.hw.leavingBytes f) 4 (bytesBE 4 (s.hw.get R.UZL_ID_ID))) 11 % 32))).length ∧ headerSound (patchBytes (patchBytes (s.hw.leavingBytes f) 4 (bytesBE 4 (s.hw.get R.UZL_ID_ID))) 11 (bytesBE 1 (32 * f.tc + byteAt (patchBytes (s.hw.leavingBytes f) 4 (bytesBE 4 (s.hw.get R.UZL_ID_ID))) 11 % 32))) (field16 (patchBytes (patchBytes (s.hw.leavingBytes f) 4 (bytesBE 4 (s.hw.get R.UZL_ID_ID))) 11 (bytesBE 1 (32 * f.tc + byteAt (patchBytes (s.hw.leavingBytes f) 4 (bytesBE 4 (s.hw.get R.UZL_ID_ID))) 11 % 32))) 24) = true → Gives (c) s fun h =>
        kget h.wire (8 + e) = some [sealHeader ((patchBytes (patchBytes (s.hw.leavingBytes f) 4 (bytesBE 4 (s.hw.get R.UZL_ID_ID))) 11 (bytesBE 1 (32 * f.tc + byteAt (patchBytes (s.hw.leavingBytes f) 4 (bytesBE 4 (s.hw.get R.UZL_ID_ID))) 11 % 32))).take 24) ++ (patchBytes (patchBytes (s.hw.leavingBytes f) 4 (bytesBE 4 (s.hw.get R.UZL_ID_ID))) 11 (bytesBE 1 (32 * f.tc + byteAt (patchBytes (s.hw.leavingBytes f) 4 (bytesBE 4 (s.hw.get R.UZL_ID_ID))) 11 % 32))).drop 24 ++ (if false then (fcsOf (sealHeader ((patchBytes (patchBytes (s.hw.leavingBytes f) 4 (bytesBE 4 (s.hw.get R.UZL_ID_ID))) 11 (bytesBE 1 (32 * f.tc + byteAt (patchBytes (s.hw.leavingBytes f) 4 (bytesBE 4 (s.hw.get R.UZL_ID_ID))) 11 % 32))).take 24) ++ (patchBytes (patchBytes (s.hw.leavingBytes f) 4 (bytesBE 4 (s.hw.get R.UZL_ID_ID))) 11 (bytesBE 1 (32 * f.tc + byteAt (patchBytes (s.hw.leavingBytes f) 4 (bytesBE 4 (s.hw.get R.UZL_ID_ID))) 11 % 32))).drop 24)).map (~~~ ·) else fcsOf (sealHeader ((patchBytes (patchBytes (s.hw.leavingBytes f) 4 (bytesBE 4 (s.hw.get R.UZL_ID_ID))) 11 (bytesBE 1 (32 * f.tc + byteAt (patchBytes (s.hw.leavingBytes f) 4 (bytesBE 4 (s.hw.get R.UZL_ID_ID))) 11 % 32))).take 24) ++ (patchBytes (patchBytes (s.hw.leavingBytes f) 4 (bytesBE 4 (s.hw.get R.UZL_ID_ID))) 11 (bytesBE 1 (32 * f.tc + byteAt (patchBytes (s.hw.leavingBytes f) 4 (bytesBE 4 (s.hw.get R.UZL_ID_ID))) 11 % 32))).drop 24))] ∧
        h.gone id = true ∧ Counted (s.hw.hopCounter e 4) (h.hopCounter e 4) ∧ (h.hop e).transitLast = false ∧ h.queueFrames q = (s.hw.queueFrames q).filter (· != id) ∧ MemKept s.hw h) ∧
    (∀ (n : Fin 12) (k : Nat), 8 ≤ n.val → (s.hw.hop (n.val - 8)).tx = none → Gives (.preempt n k) s fun h =>
        Unchanged s.hw h) ∧
    (∀ (n : Fin 12) (k : Nat) (x : HopTx), 8 ≤ n.val → (s.hw.hop (n.val - 8)).tx = some x → Gives (.preempt n k) s fun h =>
        (if s.hw.hopUp (n.val - 8) = true ∧ x.express = false ∧ x.unfinished = false ∧ s.hw.et < x.endAt ∧ (s.hw.hop (n.val - 8)).suspended = none ∧ s.hw.expressReady (n.val - 8) = true ∧ 60 ≤ k ∧
            x.done + (k - if x.fragmented then 1 else 0) + 64 ≤ x.total then
          (h.hop (n.val - 8)).suspended = some { x with done := x.done + (k - if x.fragmented then 1 else 0), fragmented := true } ∧
          (h.hop (n.val - 8)).tx = none ∧ RegsKept [] s.hw h ∧ MemKept s.hw h
        else Unchanged s.hw h)) ∧
    (s.hw.uzovi.requests = [] → Gives (.registerRequest) s fun h =>
        Unchanged s.hw h) ∧
    (∀ (q : RemoteRequest) (rest : List RemoteRequest) (a : Nat) (bs : List Byte) (e : Fin 4), s.hw.uzovi.requests = q :: rest → a = ofBytesBE ((q.payload.drop 4).take 5) → a % 4 = 0 ∧ ((q.payload.drop 9).take 3).all (· == 0) = true → byteAt q.payload 0 = 1 → isRegister a = false → (s.hw.busRead 22 a 4).2 = some bs → s.hw.hopFor q.src = some e.val → s.hw.hopState e = 2 ∧ s.hw.laneState (8 + e) = 4 → (s.hw.hop e).bestUsed + 16324 ≤ 65536 → Gives (.registerRequest) s fun h =>
        h.uzovi.requests = rest ∧ ((h.hop e).best.getLast?.any fun f => f.header == header q.src (s.hw.get R.UZL_ID_ID) (s.hw.get R.UZL_CTL_RESP_HOP) 1 0 0 &&
          f.payload == some (bytesBE 1 0x81 ++ bytesBE 1 0 ++ (q.payload.drop 2).take 2 ++ bytesBE 5 a ++ [0, 0, 0] ++ bytesBE 4 (ofBytesLE bs))) = true ∧ Counted (s.hw.get (R.UZL_RREQ_LO_CNT 0) + 2 ^ 32 * s.hw.get (R.UZL_RREQ_HI_CNT 0)) (h.get (R.UZL_RREQ_LO_CNT 0) + 2 ^ 32 * h.get (R.UZL_RREQ_HI_CNT 0)) ∧ MemKept s.hw h) ∧
    (∀ (q : RemoteRequest) (rest : List RemoteRequest) (a v : Nat) (e : Fin 4), s.hw.uzovi.requests = q :: rest → a = ofBytesBE ((q.payload.drop 4).take 5) → a % 4 = 0 ∧ ((q.payload.drop 9).take 3).all (· == 0) = true → byteAt q.payload 0 = 2 → v = ofBytesBE ((q.payload.drop 12).take 4) → 0x20000 ≤ a ∧ isRegister a = false → (s.hw.busWrite 22 a (bytesLE 4 v)).2 = true → s.hw.hopFor q.src = some e.val → s.hw.hopState e = 2 ∧ s.hw.laneState (8 + e) = 4 → (s.hw.hop e).bestUsed + 16324 ≤ 65536 → Gives (.registerRequest) s fun h =>
        h.uzovi.requests = rest ∧ h.memLE a 4 = v % 2 ^ 32 ∧ ((h.hop e).best.getLast?.any fun f => f.header == header q.src (s.hw.get R.UZL_ID_ID) (s.hw.get R.UZL_CTL_RESP_HOP) 1 0 0 &&
          f.payload == some (bytesBE 1 0x82 ++ bytesBE 1 0 ++ (q.payload.drop 2).take 2 ++ bytesBE 5 a ++ [0, 0, 0] ++ bytesBE 4 v)) = true ∧ Counted (s.hw.get (R.UZL_RREQ_LO_CNT 0) + 2 ^ 32 * s.hw.get (R.UZL_RREQ_HI_CNT 0)) (h.get (R.UZL_RREQ_LO_CNT 0) + 2 ^ 32 * h.get (R.UZL_RREQ_HI_CNT 0)) ∧ MemKeptBut a 4 s.hw h) ∧
    (∀ (q : RemoteRequest) (rest : List RemoteRequest) (a : Nat) (e : Fin 4), s.hw.uzovi.requests = q :: rest → a = ofBytesBE ((q.payload.drop 4).take 5) → a % 4 = 0 ∧ ((q.payload.drop 9).take 3).all (· == 0) = true → byteAt q.payload 0 = 1 → isRegister a = false → s.hw.memFault 22 a false ≠ 0 → s.hw.hopFor q.src = some e.val → s.hw.hopState e = 2 ∧ s.hw.laneState (8 + e) = 4 → (s.hw.hop e).bestUsed + 16324 ≤ 65536 → Gives (.registerRequest) s fun h =>
        h.uzovi.requests = rest ∧ ((h.hop e).best.getLast?.any fun f => f.header == header q.src (s.hw.get R.UZL_ID_ID) (s.hw.get R.UZL_CTL_RESP_HOP) 1 0 0 &&
          f.payload == some (bytesBE 1 0x81 ++ bytesBE 1 (s.hw.memFault 22 a false) ++ (q.payload.drop 2).take 2 ++ bytesBE 5 a ++ [0, 0, 0] ++ bytesBE 4 0)) = true ∧ Counted (s.hw.get (R.UZL_RREQ_LO_CNT 0) + 2 ^ 32 * s.hw.get (R.UZL_RREQ_HI_CNT 0)) (h.get (R.UZL_RREQ_LO_CNT 0) + 2 ^ 32 * h.get (R.UZL_RREQ_HI_CNT 0)) ∧ MemKept s.hw h) ∧
    (∀ (q : RemoteRequest) (rest : List RemoteRequest), s.hw.uzovi.requests = q :: rest → byteAt q.payload 0 = 0 ∨ 2 < byteAt q.payload 0 ∨ ofBytesBE ((q.payload.drop 4).take 5) % 4 ≠ 0 → Gives (.registerRequest) s fun h =>
        h.uzovi.requests = rest ∧ Counted (s.hw.get (R.UZL_RREQ_LO_CNT 0) + 2 ^ 32 * s.hw.get (R.UZL_RREQ_HI_CNT 0)) (h.get (R.UZL_RREQ_LO_CNT 0) + 2 ^ 32 * h.get (R.UZL_RREQ_HI_CNT 0)) ∧ MemKept s.hw h)

/-- Neighbours and the ring (R417 to R421), routes (R411). -/
def Obligations.CascadeNeighboursRingAndRoutes : Prop :=
  ∀ s : State, s.hw.mainUp = true → 
    (∀ (i : Fin 4) (d : Nat), tget s.hw.timers (.hello i) = some d → s.hw.hopUp i = true → Gives (.helloDue i) s fun h =>
        (h.hop i).helloDue = true ∧ tget h.timers (.hello i) = some ((s.hw.advanceTo d).et + ms (s.hw.get (R.UZL_CFG_HELLO_MS i))) ∧ RegsKept [] s.hw h ∧ MemKept s.hw h) ∧
    (∀ (i : Fin 4) (d : Nat), tget s.hw.timers (.hello i) = some d → s.hw.hopUp i = false → Gives (.helloDue i) s fun h =>
        (h.hop i) = (s.hw.hop i) ∧ tget h.timers (.hello i) = none ∧ RegsKept [] s.hw h ∧ MemKept s.hw h) ∧
    (∀ (i : Fin 4) (sender : BitVec 32) (nbr : Fin 4) (ring owner : Bool) (id1 id2 : BitVec 32) (c : Instr), s.hw.hopUp i = false ∨ s.hw.laneTakes (8 + i) = false → c = .helloReceived i sender nbr ring owner ∨ c = .ringFail i id1 id2 ∨ c = .ringRestore i id1 id2 ∨ c = .ringClear i id1 → Gives (c) s fun h =>
        Unchanged s.hw h) ∧
    (∀ (i : Fin 4) (sender : BitVec 32) (nbr : Fin 4) (ring owner : Bool), s.hw.hopUp i = true → s.hw.laneTakes (8 + i) = true → (s.hw.hop i).failed = false → Gives (.helloReceived i sender nbr ring owner) s fun h =>
        h.get (R.UZL_NBR_ID_ID i) = sender.toNat ∧ (h.word (R.UZL_NBR_STAT i)).toNat % 32 = 1 + 2 * nbr.val + (if ring then 8 else 0) + (if owner then 16 else 0) ∧ h.get (R.UZL_NBR_STAT_DOWN i) = 0 ∧
        h.get (R.UZL_NBR_STAT_NBR_EV i) = (if (s.hw.word (R.UZL_NBR_STAT i)).toNat % 32 = (h.word (R.UZL_NBR_STAT i)).toNat % 32 ∧ s.hw.get (R.UZL_NBR_ID_ID i) = sender.toNat
          then s.hw.get (R.UZL_NBR_STAT_NBR_EV i) else 1) ∧
        tget h.timers (.neighbour i) = some (s.hw.et + ms (3 * s.hw.get (R.UZL_CFG_HELLO_MS i))) ∧ Counted (s.hw.hopCounter i 0) (h.hopCounter i 0) ∧ RegsKept [R.UZL_NBR_ID i, R.UZL_NBR_STAT i, R.UZL_HCNT_LO i 0, R.UZL_HCNT_HI i 0, R.UZL_STAT] s.hw h ∧ MemKept s.hw h) ∧
    (∀ (i : Fin 4) (sender : BitVec 32) (nbr : Fin 4) (ring owner : Bool), s.hw.hopUp i = true → s.hw.laneTakes (8 + i) = true → (s.hw.hop i).failed = true → (s.hw.hop i).hellos = 2 → s.hw.get R.UZL_RING_HOP_A ≠ s.hw.get R.UZL_RING_HOP_B → s.hw.flag R.UZL_RING_EN = true → s.hw.isOwner = false → Gives (.helloReceived i sender nbr ring owner) s fun h =>
        ((h.hop (s.hw.get R.UZL_RING_HOP_A)).express.getLast?.any fun f => f.ctrl && f.express && f.payload == some (s.hw.ctrlPayload 3 (s.hw.get R.UZL_RING_HOP_A) (s.hw.get R.UZL_ID_ID) 0)) = true ∧
        ((h.hop (s.hw.get R.UZL_RING_HOP_B)).express.getLast?.any fun f => f.ctrl && f.express && f.payload == some (s.hw.ctrlPayload 3 (s.hw.get R.UZL_RING_HOP_B) (s.hw.get R.UZL_ID_ID) 0)) = true ∧ (h.hop i).hellos = 3 ∧ (h.word (R.UZL_NBR_STAT i)).toNat % 32 = 1 + 2 * nbr.val + (if ring then 8 else 0) + (if owner then 16 else 0) ∧ MemKept s.hw h) ∧
    (∀ (i : Fin 4) (d : Nat), tget s.hw.timers (.neighbour i) = some d → s.hw.isRingHop i = false → Gives (.neighbourTimeout i) s fun h =>
        h.get (R.UZL_NBR_STAT_VALID i) = 0 ∧ h.get (R.UZL_NBR_STAT_DOWN i) = 1 ∧
        h.get (R.UZL_NBR_STAT_NBR_EV i) = (if s.hw.flag (R.UZL_NBR_STAT_VALID i) then 1 else s.hw.get (R.UZL_NBR_STAT_NBR_EV i)) ∧ tget h.timers (.neighbour i) = none ∧
        RegsKept [R.UZL_NBR_STAT i] s.hw h ∧ MemKept s.hw h) ∧
    (∀ (i : Fin 4), s.hw.flag (R.UZL_NBR_STAT_DOWN i) = true → Gives (.hopDown i) s fun h =>
        Unchanged s.hw h) ∧
    (∀ (i : Fin 4), s.hw.flag (R.UZL_NBR_STAT_DOWN i) = false → s.hw.isRingHop i = false → Gives (.hopDown i) s fun h =>
        h.get (R.UZL_NBR_STAT_DOWN i) = 1 ∧ RegsKept [R.UZL_NBR_STAT i] s.hw h ∧ MemKept s.hw h) ∧
    (∀ (i : Fin 4), s.hw.flag (R.UZL_NBR_STAT_DOWN i) = false → s.hw.isRingHop i = true → s.hw.get R.UZL_RING_HOP_A ≠ s.hw.get R.UZL_RING_HOP_B → Gives (.hopDown i) s fun h =>
        h.get (R.UZL_NBR_STAT_DOWN i) = 1 ∧ h.hopBlocked i = true ∧ (h.hop i).failed = true ∧ h.get R.UZL_STAT_FLOOD = 1 ∧ h.get R.UZL_STAT_RING_STATE = 1 ∧
        tget h.timers .wtr = none ∧ ((h.hop (s.hw.otherHop i)).express.getLast?.any fun f => f.ctrl && f.express && f.payload == some (s.hw.ctrlPayload 2 (s.hw.otherHop i) (s.hw.get R.UZL_ID_ID) (s.hw.get (R.UZL_NBR_ID_ID i)))) = true ∧ RegsKept [R.UZL_NBR_STAT i, R.UZL_STAT] s.hw h ∧ MemKept s.hw h) ∧
    (∀ (i : Fin 4) (id1 id2 : BitVec 32) (c : Instr), s.hw.hopUp i = true → s.hw.laneTakes (8 + i) = true → s.hw.isRingHop i = false → c = .ringFail i id1 id2 ∨ c = .ringRestore i id1 id2 ∨ c = .ringClear i id1 → Gives (c) s fun h =>
        Counted (s.hw.hopCounter i 0) (h.hopCounter i 0) ∧ OnlyRegs [R.UZL_HCNT_LO i 0, R.UZL_HCNT_HI i 0, R.UZL_STAT] s.hw h) ∧
    (∀ (i : Fin 4) (id1 id2 : BitVec 32), s.hw.hopUp i = true → s.hw.laneTakes (8 + i) = true → s.hw.isRingHop i = true → s.hw.get R.UZL_RING_HOP_A ≠ s.hw.get R.UZL_RING_HOP_B → Gives (.ringFail i id1 id2) s fun h =>
        h.get R.UZL_STAT_FLOOD = 1 ∧ h.get R.UZL_STAT_RING_STATE = 1 ∧ tget h.timers .wtr = none ∧ Counted (s.hw.hopCounter i 0) (h.hopCounter i 0) ∧
        (if id1.toNat = s.hw.get R.UZL_ID_ID ∨ (s.hw.hop (s.hw.otherHop i)).failed = true then (h.hop (s.hw.otherHop i)).express = (s.hw.hop (s.hw.otherHop i)).express
        else ((h.hop (s.hw.otherHop i)).express.getLast?.any fun f => f.ctrl && f.express && f.payload == some (s.hw.ctrlPayload 2 (s.hw.otherHop i) id1.toNat id2.toNat)) = true) ∧
        (s.hw.isOwner = true ∧ (s.hw.hop s.hw.ownerHop).failed = false → h.hopBlocked s.hw.ownerHop = false) ∧ MemKept s.hw h) ∧
    (∀ (i : Fin 4) (id1 id2 : BitVec 32), s.hw.hopUp i = true → s.hw.laneTakes (8 + i) = true → s.hw.isRingHop i = true → s.hw.get R.UZL_RING_HOP_A ≠ s.hw.get R.UZL_RING_HOP_B → Gives (.ringRestore i id1 id2) s fun h =>
        (if id1.toNat = s.hw.get R.UZL_ID_ID ∨ (s.hw.hop (s.hw.otherHop i)).failed = true then (h.hop (s.hw.otherHop i)).express = (s.hw.hop (s.hw.otherHop i)).express
        else ((h.hop (s.hw.otherHop i)).express.getLast?.any fun f => f.ctrl && f.express && f.payload == some (s.hw.ctrlPayload 3 (s.hw.otherHop i) id1.toNat id2.toNat)) = true) ∧ Counted (s.hw.hopCounter i 0) (h.hopCounter i 0) ∧
        (s.hw.isOwner = true → h.get R.UZL_STAT_RING_STATE = 2 ∧ tget h.timers .wtr = some (s.hw.et + ms (100 * s.hw.get R.UZL_RING_WTR))) ∧ MemKept s.hw h) ∧
    (∀ (i : Fin 4) (id1 : BitVec 32), s.hw.hopUp i = true → s.hw.laneTakes (8 + i) = true → s.hw.isRingHop i = true → s.hw.get R.UZL_RING_HOP_A ≠ s.hw.get R.UZL_RING_HOP_B → Gives (.ringClear i id1) s fun h =>
        h.get R.UZL_STAT_FLOOD = 0 ∧ h.get R.UZL_STAT_RING_STATE = 0 ∧ (h.hop i).failed = false ∧ (h.hop (s.hw.otherHop i)).failed = false ∧
        (if s.hw.isOwner then h.hopBlocked s.hw.ownerHop = true else ((h.hop (s.hw.otherHop i)).express.getLast?.any fun f => f.ctrl && f.express && f.payload == some (s.hw.ctrlPayload 4 (s.hw.otherHop i) id1.toNat 0)) = true) ∧
        ((s.hw.hop i).failed = true ∧ ¬ (s.hw.isOwner = true ∧ i.val = s.hw.ownerHop) → h.hopBlocked i = false) ∧ MemKept s.hw h) ∧
    (∀ (d : Nat), tget s.hw.timers .wtr = some d → s.hw.get R.UZL_RING_HOP_A ≠ s.hw.get R.UZL_RING_HOP_B → s.hw.flag R.UZL_RING_EN = true → Gives (.wtrExpire) s fun h =>
        h.get R.UZL_STAT_FLOOD = 0 ∧ h.get R.UZL_STAT_RING_STATE = 0 ∧ h.hopBlocked s.hw.ownerHop = true ∧ tget h.timers .wtr = none ∧
        ((h.hop (s.hw.get R.UZL_RING_HOP_A)).express.getLast?.any fun f => f.ctrl && f.express && f.payload == some (s.hw.ctrlPayload 4 (s.hw.get R.UZL_RING_HOP_A) (s.hw.get R.UZL_ID_ID) 0)) = true ∧
        ((h.hop (s.hw.get R.UZL_RING_HOP_B)).express.getLast?.any fun f => f.ctrl && f.express && f.payload == some (s.hw.ctrlPayload 4 (s.hw.get R.UZL_RING_HOP_B) (s.hw.get R.UZL_ID_ID) 0)) = true ∧ RegsKept [R.UZL_STAT] s.hw h ∧ MemKept s.hw h) ∧
    (Gives (.uzlRtAdd) s fun h =>
        (isUnicastId (s.hw.get R.UZL_RT_ARG0_ID) = false → h.get R.UZL_RT_RSP_STATUS = 4 ∧ h.uzovi.routes = s.hw.uzovi.routes) ∧ (isUnicastId (s.hw.get R.UZL_RT_ARG0_ID) = true ∧ s.hw.route (s.hw.get R.UZL_RT_ARG0_ID) = none ∧ 4096 ≤ s.hw.uzovi.routes.length → h.get R.UZL_RT_RSP_STATUS = 2 ∧ h.uzovi.routes = s.hw.uzovi.routes) ∧
        (isUnicastId (s.hw.get R.UZL_RT_ARG0_ID) = true ∧ (s.hw.route (s.hw.get R.UZL_RT_ARG0_ID) ≠ none ∨ s.hw.uzovi.routes.length < 4096) → h.get R.UZL_RT_RSP_STATUS = 0 ∧ h.uzovi.routes = kput s.hw.uzovi.routes (s.hw.get R.UZL_RT_ARG0_ID) (s.hw.get R.UZL_RT_ARG1_HOP, s.hw.flag R.UZL_RT_ARG1_RING)) ∧ h.get R.UZL_RT_RSP_DONE_EV = 1 ∧ h.get R.UZL_RT_USED_USED = h.uzovi.routes.length % 2 ^ 13 ∧ RegsKept [R.UZL_RT_RSP, R.UZL_RT_USED] s.hw h ∧ MemKept s.hw h) ∧
    (Gives (.uzlRtDel) s fun h =>
        (isUnicastId (s.hw.get R.UZL_RT_ARG0_ID) = false → h.get R.UZL_RT_RSP_STATUS = 4 ∧ h.uzovi.routes = s.hw.uzovi.routes) ∧ (isUnicastId (s.hw.get R.UZL_RT_ARG0_ID) = true ∧ s.hw.route (s.hw.get R.UZL_RT_ARG0_ID) = none → h.get R.UZL_RT_RSP_STATUS = 1 ∧ h.uzovi.routes = s.hw.uzovi.routes) ∧
        (isUnicastId (s.hw.get R.UZL_RT_ARG0_ID) = true ∧ s.hw.route (s.hw.get R.UZL_RT_ARG0_ID) ≠ none → h.get R.UZL_RT_RSP_STATUS = 0 ∧ h.uzovi.routes = kdel s.hw.uzovi.routes (s.hw.get R.UZL_RT_ARG0_ID)) ∧ h.get R.UZL_RT_RSP_DONE_EV = 1 ∧ h.get R.UZL_RT_USED_USED = h.uzovi.routes.length % 2 ^ 13 ∧ RegsKept [R.UZL_RT_RSP, R.UZL_RT_USED] s.hw h ∧ MemKept s.hw h) ∧
    (Gives (.uzlRtClear) s fun h =>
        h.get R.UZL_RT_RSP_STATUS = 0 ∧ h.uzovi.routes = [] ∧ h.get R.UZL_RT_RSP_DONE_EV = 1 ∧ h.get R.UZL_RT_USED_USED = h.uzovi.routes.length % 2 ^ 13 ∧ RegsKept [R.UZL_RT_RSP, R.UZL_RT_USED] s.hw h ∧ MemKept s.hw h)

/-- Network time (R427, R429 to R433, R437, R447). Network time counts units of 2^-32 ns modulo 2^48 s; that SET and
STEP wait one tick of a locked time base is R432's "at the first tick after the write". -/
def Obligations.NetworkTimeCommands : Prop :=
  ∀ s : State, s.hw.mainUp = true → 
    (s.hw.tbLock = true → Gives (.trimBoundary) s fun h =>
        h.et = s.hw.et / 512 * 512 + 512 ∧
        h.rem = s.hw.rem - slewOver (s.hw.getI R.TIME_RATE_RATE) s.hw.rem (s.hw.get R.TIME_SLEW_MAX_MAX) 1 ∧
        (h.nt : Int) = ((s.hw.nt : Int) + (512 - s.hw.et % 512 : Nat) * 2 ^ 32 + s.hw.getI R.TIME_RATE_RATE + (s.hw.rem - h.rem)) % ntTurn ∧ RegsKept [] s.hw h ∧ MemKept s.hw h) ∧
    (s.hw.tbLock = false → Gives (.trimBoundary) s fun h =>
        Unchanged s.hw h) ∧
    (∀ (c : Instr), c = .timeSet ∨ c = .timeStep → s.hw.flag R.TIME_STAT_HOLD = true → Gives (c) s fun h =>
        h.get R.TIME_STAT_HOLD_DISC = min (s.hw.get R.TIME_STAT_HOLD_DISC + 1) 65535 ∧ OnlyRegs [R.TIME_STAT] s.hw h) ∧
    (s.hw.flag R.TIME_STAT_HOLD = false → s.hw.adjStamp.2 = false → s.hw.tbLock = true → Gives (.timeSet) s fun h =>
        h.get R.TIME_STAT_CFG_ERR = 1 ∧ h.nt = (s.hw.advance 1).nt ∧ h.rem = (s.hw.advance 1).rem ∧ RegsKept [R.TIME_STAT] s.hw h ∧ MemKept s.hw h) ∧
    (s.hw.flag R.TIME_STAT_HOLD = false → s.hw.adjStamp.2 = true → s.hw.tbLock = true → s.hw.flag R.TIME_STAT_NT_VALID = true ∧ s.hw.flag R.TIME_CTL_STEP_EN = false → Gives (.timeSet) s fun h =>
        h.rem = satRem (stampDiff s.hw.adjStamp.1 (stampOf (s.hw.advance 1).nt) * 2 ^ 16) ∧ h.get R.TIME_STAT_CARRIED = 0 ∧ h.get R.TIME_NT_ERR_ERR = 0 ∧ h.et = s.hw.et + 1 ∧ h.nt = (s.hw.advance 1).nt ∧ RegsKept [R.TIME_STAT, R.TIME_NT_ERR] s.hw h ∧ MemKept s.hw h) ∧
    (s.hw.flag R.TIME_STAT_HOLD = false → s.hw.adjStamp.2 = true → s.hw.tbLock = true → s.hw.flag R.TIME_STAT_NT_VALID = false ∨ s.hw.flag R.TIME_CTL_STEP_EN = true → Gives (.timeSet) s fun h =>
        h.nt = s.hw.adjStamp.1.sec * ntSecond + s.hw.adjStamp.1.sub * 2 ^ 16 ∧ h.rem = 0 ∧ h.get R.TIME_STAT_NT_VALID = 1 ∧
        h.get R.TIME_STAT_CARRIED = 0 ∧ h.get R.TIME_NT_ERR_ERR = 0 ∧ h.get R.TIME_STAT_STEP_EV = 1 ∧ h.get R.TIME_STAT_STEP_CNT = (s.hw.get R.TIME_STAT_STEP_CNT + 1) % 256 ∧ h.et = s.hw.et + 1 ∧ h.time.stepEt = some h.et ∧ MemKept s.hw h) ∧
    (s.hw.flag R.TIME_STAT_HOLD = false → s.hw.tbLock = true → s.hw.flag R.TIME_STAT_NT_VALID = true ∧ s.hw.flag R.TIME_CTL_STEP_EN = false → Gives (.timeStep) s fun h =>
        h.rem = satRem ((s.hw.advance 1).rem + (signedOf 64 (s.hw.get (R.TIME_ADJ_W_W 0) + 2 ^ 32 * s.hw.get (R.TIME_ADJ_W_W 1)) * 2 ^ 16)) ∧ h.get R.TIME_STAT_CARRIED = 0 ∧ h.get R.TIME_NT_ERR_ERR = 0 ∧ h.et = s.hw.et + 1 ∧ h.nt = (s.hw.advance 1).nt ∧ RegsKept [R.TIME_STAT, R.TIME_NT_ERR] s.hw h ∧ MemKept s.hw h) ∧
    (s.hw.flag R.TIME_STAT_HOLD = false → s.hw.tbLock = true → s.hw.flag R.TIME_STAT_NT_VALID = false ∨ s.hw.flag R.TIME_CTL_STEP_EN = true → Gives (.timeStep) s fun h =>
        (h.nt : Int) = (((s.hw.advance 1).nt : Int) + (signedOf 64 (s.hw.get (R.TIME_ADJ_W_W 0) + 2 ^ 32 * s.hw.get (R.TIME_ADJ_W_W 1)) * 2 ^ 16)) % ntTurn ∧ h.get R.TIME_STAT_NT_VALID = s.hw.get R.TIME_STAT_NT_VALID ∧
        h.rem = (if s.hw.flag R.TIME_STAT_NT_VALID = true then 0 else (s.hw.advance 1).rem) ∧ h.get R.TIME_STAT_CARRIED = 0 ∧ h.get R.TIME_NT_ERR_ERR = 0 ∧ h.get R.TIME_STAT_STEP_EV = 1 ∧ h.get R.TIME_STAT_STEP_CNT = (s.hw.get R.TIME_STAT_STEP_CNT + 1) % 256 ∧ h.et = s.hw.et + 1 ∧ h.time.stepEt = some h.et ∧ MemKept s.hw h) ∧
    (Gives (.slewAbort) s fun h =>
        h.rem = 0 ∧ h.nt = s.hw.nt ∧ OnlyRegs [] { s.hw with rem := 0 } h) ∧
    (s.hw.tbLock = true → Gives (.tbLockLost) s fun h =>
        h.tbLock = false ∧ h.get R.TIME_STAT_TB_LOCK = 0 ∧ h.get R.TIME_STAT_TB_LOST_EV = 1 ∧ h.get R.TIME_STAT_NT_VALID = 0 ∧ h.nt = s.hw.nt ∧ h.et = s.hw.et ∧ h.rem = s.hw.rem ∧
        (∀ n < 8, (h.pulse n).active = false ∧ tget h.timers (.ppsOff n) = none) ∧ RegsKept [R.TIME_STAT, R.DRC_DEBT 0, R.DRC_DEBT 1] s.hw h ∧ MemKept s.hw h) ∧
    (s.hw.tbLock = false → s.hw.ps ≠ psDiagnostic → Gives (.tbLockAcquired) s fun h =>
        h.tbLock = true ∧ h.get R.TIME_STAT_TB_LOCK = 1 ∧ h.get R.TIME_STAT_NT_VALID = s.hw.get R.TIME_STAT_NT_VALID ∧ h.nt = s.hw.nt ∧ h.et = s.hw.et ∧ h.rem = s.hw.rem ∧ RegsKept [R.TIME_STAT] s.hw h ∧ MemKept s.hw h) ∧
    (∀ (c : Instr), c = .tbLockLost ∧ s.hw.tbLock = false ∨ c = .tbLockAcquired ∧ (s.hw.tbLock = true ∨ s.hw.ps = psDiagnostic) → Gives (c) s fun h =>
        Unchanged s.hw h)

/-- Path steps and holds (R446, R447), POP of a stamp queue (R445), captures (R451). -/
def Obligations.PathStepsAndHolds : Prop :=
  ∀ s : State, s.hw.mainUp = true → 
    (∀ (p : Fin 15) (v : Word), (s.hw.flag R.TIME_STAT_HOLD = true ∧ s.hw.time.holdPort = some p.val) → Gives (.pathWrite p v) s fun h =>
        h.get (R.TIME_PATH_PATH p) = v.toNat ∧ OnlyRegs [R.TIME_PATH p] s.hw h) ∧
    (∀ (p : Fin 15) (v : Word), ¬ (s.hw.flag R.TIME_STAT_HOLD = true ∧ s.hw.time.holdPort = some p.val) → s.hw.flag (R.TIME_PSTAT_REF_VALID p) = false → Gives (.pathWrite p v) s fun h =>
        h.get (R.TIME_PATH_PATH p) = v.toNat ∧ h.get (R.TIME_PATH_REF_REF p) = v.toNat ∧ h.get (R.TIME_PSTAT_REF_VALID p) = 1 ∧ OnlyRegs [R.TIME_PATH p, R.TIME_PATH_REF p, R.TIME_PSTAT p] s.hw h) ∧
    (∀ (p : Fin 15) (v : Word), ¬ (s.hw.flag R.TIME_STAT_HOLD = true ∧ s.hw.time.holdPort = some p.val) → s.hw.flag (R.TIME_PSTAT_REF_VALID p) = true → s.hw.get R.TIME_PATH_CFG_THRESH * 2 ^ 16 < (v.toInt - s.hw.getI (R.TIME_PATH_REF_REF p)).natAbs → p.val = s.hw.get R.TIME_SERVO_PORT ∧ s.hw.get R.TIME_PATH_CFG_HOLD_N ≠ 0 ∧ s.hw.flag R.TIME_STAT_HOLD = false → Gives (.pathWrite p v) s fun h =>
        h.get (R.TIME_PATH_PATH p) = v.toNat ∧ h.get (R.TIME_PSTAT_PATH_STEP_EV p) = 1 ∧ h.get (R.TIME_CNT_PSTEP_CNT p) = min (s.hw.get (R.TIME_CNT_PSTEP_CNT p) + 1) 65535 ∧ h.get (R.TIME_PATH_REF_REF p) = s.hw.get (R.TIME_PATH_REF_REF p)∧
        h.get R.TIME_STAT_HOLD = 1 ∧ h.time.holdPort = some p.val ∧ tget h.timers .servoHold = some (s.hw.et + s.hw.holdTime) ∧ RegsKept [R.TIME_PATH p, R.TIME_PSTAT p, R.TIME_CNT p, R.TIME_STAT] s.hw h ∧ MemKept s.hw h) ∧
    (∀ (p : Fin 15) (v : Word), ¬ (s.hw.flag R.TIME_STAT_HOLD = true ∧ s.hw.time.holdPort = some p.val) → s.hw.flag (R.TIME_PSTAT_REF_VALID p) = true → s.hw.get R.TIME_PATH_CFG_THRESH * 2 ^ 16 < (v.toInt - s.hw.getI (R.TIME_PATH_REF_REF p)).natAbs → ¬ (p.val = s.hw.get R.TIME_SERVO_PORT ∧ s.hw.get R.TIME_PATH_CFG_HOLD_N ≠ 0 ∧ s.hw.flag R.TIME_STAT_HOLD = false) → Gives (.pathWrite p v) s fun h =>
        h.get (R.TIME_PATH_PATH p) = v.toNat ∧ h.get (R.TIME_PSTAT_PATH_STEP_EV p) = 1 ∧ h.get (R.TIME_CNT_PSTEP_CNT p) = min (s.hw.get (R.TIME_CNT_PSTEP_CNT p) + 1) 65535 ∧ h.get (R.TIME_PATH_REF_REF p) = s.hw.get (R.TIME_PATH_REF_REF p)∧
        OnlyRegs [R.TIME_PATH p, R.TIME_PSTAT p, R.TIME_CNT p] s.hw h) ∧
    (∀ (p : Fin 15) (v : Word), ¬ (s.hw.flag R.TIME_STAT_HOLD = true ∧ s.hw.time.holdPort = some p.val) → s.hw.flag (R.TIME_PSTAT_REF_VALID p) = true → ¬ s.hw.get R.TIME_PATH_CFG_THRESH * 2 ^ 16 < (v.toInt - s.hw.getI (R.TIME_PATH_REF_REF p)).natAbs → Gives (.pathWrite p v) s fun h =>
        h.get (R.TIME_PATH_PATH p) = v.toNat ∧ h.get (R.TIME_PATH_REF_REF p) = v.toNat ∧ OnlyRegs [R.TIME_PATH p, R.TIME_PATH_REF p] s.hw h) ∧
    (∀ (p d : Nat), p < 15 → s.hw.time.holdPort = some p → tget s.hw.timers .servoHold = some d → Gives (.holdExpire) s fun h =>
        h.get R.TIME_STAT_HOLD = 0 ∧ h.get (R.TIME_PSTAT_REF_VALID p) = 0 ∧ h.time.holdPort = none ∧ tget h.timers .servoHold = none ∧ RegsKept [R.TIME_STAT, R.TIME_PSTAT p] s.hw h ∧ MemKept s.hw h) ∧
    (∀ (p : Nat), p < 15 → s.hw.time.holdPort = some p → Gives (.holdEnd) s fun h =>
        h.get R.TIME_STAT_HOLD = 0 ∧ h.get (R.TIME_PSTAT_REF_VALID p) = 0 ∧ h.time.holdPort = none ∧ tget h.timers .servoHold = none ∧ RegsKept [R.TIME_STAT, R.TIME_PSTAT p] s.hw h ∧ MemKept s.hw h) ∧
    (s.hw.time.holdPort = none → Gives (.holdEnd) s fun h =>
        Unchanged s.hw h) ∧
    (∀ (p : Fin 15), Gives (.pop p) s fun h =>
        kgetD [] h.time.tsq p.val = (kgetD [] s.hw.time.tsq p.val).tail ∧ h.get (R.TIME_PSTAT_LEVEL p) = ((kgetD [] s.hw.time.tsq p.val).length - 1) % 128 ∧ RegsKept [R.TIME_PSTAT p] s.hw h ∧ MemKept s.hw h) ∧
    (∀ (n : Fin 4) (rising : Bool), s.hw.tbLock = true → (s.hw.get (R.TIME_CAP_CTL_EDGE n)).testBit (if rising then 0 else 1) = true → (s.hw.caps n).length < 4 → Gives (.captureEdge n rising) s fun h =>
        h.caps n = s.hw.caps n ++ [⟨stampOf s.hw.nt, rising, s.hw.flag R.TIME_STAT_NT_VALID, s.hw.get R.TIME_STAT_STEP_CNT⟩] ∧ h.get (R.TIME_CAP_STAT_LEVEL n) = (s.hw.caps n).length + 1 ∧ RegsKept [R.TIME_CAP_STAT n] s.hw h ∧ MemKept s.hw h) ∧
    (∀ (n : Fin 4) (rising : Bool), s.hw.tbLock = true → (s.hw.get (R.TIME_CAP_CTL_EDGE n)).testBit (if rising then 0 else 1) = true → 4 ≤ (s.hw.caps n).length → Gives (.captureEdge n rising) s fun h =>
        h.get (R.TIME_CAP_STAT_OVF_EV n) = 1 ∧ h.get (R.TIME_CAP_STAT_OVF_CNT n) = min (s.hw.get (R.TIME_CAP_STAT_OVF_CNT n) + 1) 65535 ∧ OnlyRegs [R.TIME_CAP_STAT n] s.hw h) ∧
    (∀ (n : Fin 4) (rising : Bool), s.hw.tbLock = false ∨ (s.hw.get (R.TIME_CAP_CTL_EDGE n)).testBit (if rising then 0 else 1) = false → Gives (.captureEdge n rising) s fun h =>
        Unchanged s.hw h) ∧
    (∀ (n : Fin 4), Gives (.capturePop n) s fun h =>
        h.caps n = (s.hw.caps n).tail ∧ h.get (R.TIME_CAP_STAT_LEVEL n) = ((s.hw.caps n).length - 1) % 8 ∧ RegsKept [R.TIME_CAP_STAT n] s.hw h ∧ MemKept s.hw h)

/-- Pulse outputs (R448, R450, R456). A pulse's `next` is the number of its next instant START + k * PERIOD. -/
def Obligations.PulseOutputs : Prop :=
  ∀ s : State, s.hw.mainUp = true → 
    (∀ (n : Fin 8) (v : Word), s.hw.ppsMode n ≠ 0 → (fieldOf v (R.TIME_PPS_CTL_MODE n)) ≠ 0 ∧ (fieldOf v (R.TIME_PPS_CTL_MODE n)) ≠ 3 ∧ (fieldOf v (R.TIME_PPS_CTL_MODE n)) ≠ s.hw.ppsMode n → Gives (.ppsModeWrite n v) s fun h =>
        h.get R.TIME_STAT_CFG_ERR = 1 ∧ OnlyRegs [R.TIME_STAT] s.hw h) ∧
    (∀ (n : Fin 8) (v : Word), (fieldOf v (R.TIME_PPS_CTL_MODE n)) = 3 ∨ (fieldOf v (R.TIME_PPS_CTL_MODE n)) = s.hw.ppsMode n → Gives (.ppsModeWrite n v) s fun h =>
        h.ppsMode n = s.hw.ppsMode n ∧ h.get (R.TIME_PPS_CTL_FIRED n) = s.hw.get (R.TIME_PPS_CTL_FIRED n) ∧ OnlyRegs [R.TIME_PPS_CTL n] s.hw h) ∧
    (∀ (n : Fin 8) (v : Word), s.hw.ppsMode n ≠ 0 → (fieldOf v (R.TIME_PPS_CTL_MODE n)) = 0 → Gives (.ppsModeWrite n v) s fun h =>
        h.ppsMode n = 0 ∧ h.pulse n = ⟨none, false⟩ ∧ tget h.timers (.ppsOff n) = none ∧ RegsKept [R.TIME_PPS_CTL n] s.hw h ∧ MemKept s.hw h) ∧
    (∀ (n : Fin 8) (v : Word), s.hw.ppsMode n = 0 → (fieldOf v (R.TIME_PPS_CTL_MODE n)) = 1 ∨ (fieldOf v (R.TIME_PPS_CTL_MODE n)) = 2 → (s.hw.writeFields (R.TIME_PPS_CTL n) v).ppsSound n (fieldOf v (R.TIME_PPS_CTL_MODE n)) = false → Gives (.ppsModeWrite n v) s fun h =>
        h.ppsMode n = 0 ∧ h.get R.TIME_STAT_CFG_ERR = 1 ∧ OnlyRegs [R.TIME_PPS_CTL n, R.TIME_STAT] s.hw h) ∧
    (∀ (n : Fin 8) (v : Word), s.hw.ppsMode n = 0 → (fieldOf v (R.TIME_PPS_CTL_MODE n)) = 2 → (s.hw.writeFields (R.TIME_PPS_CTL n) v).ppsSound n 2 = true → Gives (.ppsModeWrite n v) s fun h =>
        h.ppsMode n = 2 ∧ h.get (R.TIME_PPS_CTL_FIRED n) = 0 ∧ (h.pulse n).next = some (h.ppsFirst n) ∧ RegsKept [R.TIME_PPS_CTL n] s.hw h ∧ MemKept s.hw h) ∧
    (∀ (n : Fin 8) (v : Word), s.hw.ppsMode n = 0 → (fieldOf v (R.TIME_PPS_CTL_MODE n)) = 1 → (s.hw.writeFields (R.TIME_PPS_CTL n) v).ppsSound n 1 = true → (s.hw.writeFields (R.TIME_PPS_CTL n) v).ppsPast n ≤ 0 → Gives (.ppsModeWrite n v) s fun h =>
        h.ppsMode n = 1 ∧ h.get (R.TIME_PPS_CTL_FIRED n) = 0 ∧ (h.pulse n).next = some 0 ∧ RegsKept [R.TIME_PPS_CTL n] s.hw h ∧ MemKept s.hw h) ∧
    (∀ (n : Fin 8) (v : Word), s.hw.ppsMode n = 0 → (fieldOf v (R.TIME_PPS_CTL_MODE n)) = 1 → (s.hw.writeFields (R.TIME_PPS_CTL n) v).ppsSound n 1 = true → 0 < (s.hw.writeFields (R.TIME_PPS_CTL n) v).ppsPast n → s.hw.tbLock = true → Gives (.ppsModeWrite n v) s fun h =>
        h.ppsMode n = 1 ∧ h.get (R.TIME_PPS_CTL_FIRED n) = 1 ∧ h.get (R.TIME_PPS_CTL_LATE n) = 1 ∧ h.pulse n = ⟨none, true⟩ ∧
        tget h.timers (.ppsOff n) = some (s.hw.et + s.hw.get (R.TIME_PPS_WIDTH_WIDTH n)) ∧ RegsKept [R.TIME_PPS_CTL n] s.hw h ∧ MemKept s.hw h) ∧
    (∀ (n : Fin 8) (k : Nat), s.hw.ppsMode n = 1 ∨ s.hw.ppsMode n = 2 → (s.hw.pulse n).next = some k → s.hw.tbLock = true → s.hw.ppsElapsed n = true → Gives (.ppsActiveEdge n) s fun h =>
        h.et = max s.hw.et (s.hw.ppsStart n + k * s.hw.ppsPeriod n) ∧ (h.pulse n).active = true ∧ tget h.timers (.ppsOff n) = some (h.et + s.hw.get (R.TIME_PPS_WIDTH_WIDTH n)) ∧
        (h.pulse n).next = (if s.hw.ppsMode n = 2 then some (k + 1) else none) ∧ (s.hw.ppsMode n = 1 → h.get (R.TIME_PPS_CTL_FIRED n) = 1) ∧ RegsKept [R.TIME_PPS_CTL n] s.hw h ∧ MemKept s.hw h) ∧
    (∀ (n : Fin 8) (k T : Nat), s.hw.ppsMode n = 1 ∨ s.hw.ppsMode n = 2 → (s.hw.pulse n).next = some k → s.hw.ppsElapsed n = false → T = (s.hw.ppsStart n + k * s.hw.ppsPeriod n) % ntTurn → s.hw.tbLock = true ∧ (s.hw.advanceToNt T).ntReached T = true → Gives (.ppsActiveEdge n) s fun h =>
        h.nt = (s.hw.advanceToNt T).nt ∧ (h.pulse n).active = true ∧ tget h.timers (.ppsOff n) = some (h.et + s.hw.get (R.TIME_PPS_WIDTH_WIDTH n)) ∧
        (h.pulse n).next = (if s.hw.ppsMode n = 2 then some (k + 1) else none) ∧ (s.hw.ppsMode n = 1 → h.get (R.TIME_PPS_CTL_FIRED n) = 1) ∧ RegsKept [R.TIME_PPS_CTL n] s.hw h ∧ MemKept s.hw h) ∧
    (∀ (n : Fin 8), (s.hw.pulse n).next = none ∨ s.hw.tbLock = false → Gives (.ppsActiveEdge n) s fun h =>
        Unchanged s.hw h) ∧
    (∀ (n : Fin 8) (d : Nat), tget s.hw.timers (.ppsOff n) = some d → Gives (.ppsInactiveEdge n) s fun h =>
        (h.pulse n).active = false ∧ (h.pulse n).next = (s.hw.pulse n).next ∧ h.et = max d (s.hw.advanceTo d).et ∧ tget h.timers (.ppsOff n) = none ∧ RegsKept [] s.hw h ∧ MemKept s.hw h)

/-- The grant decision (R485 to R488). The expression `Granted` says what R486 gives every grant. -/
def Obligations.ArbiterDecision : Prop :=
  ∀ s : State, s.hw.mainUp = true → 
    (∀ (t : Fin 67) (pre : Bool) (e : EccFinding), (s.hw.arbiter t).waiting = [] → Gives (.arbiterGrant t pre e) s fun h =>
        Unchanged s.hw h) ∧
    (∀ (t : Fin 67) (pre : Bool) (e : EccFinding) (r : Request), t.val < 32 ∧ targetOf r.addr = some t.val → s.hw.firstWaiting t (·.parked) = some r → Gives (.arbiterGrant t pre e) s fun h =>
        Granted s.hw h t r ∧ (h.arbiter t).lastRotation = (s.hw.arbiter t).lastRotation ∧ (h.arbiter t).window = (s.hw.arbiter t).window - 1 ∧ h.get (R.SHK_ARB_STAT_FORCED t) = s.hw.get (R.SHK_ARB_STAT_FORCED t)) ∧
    (∀ (t : Fin 67) (pre : Bool) (e : EccFinding) (r : Request), t.val < 32 ∧ targetOf r.addr = some t.val → s.hw.firstWaiting t (·.parked) = none → s.hw.firstWaiting t s.hw.emergency = some r → Gives (.arbiterGrant t pre e) s fun h =>
        Granted s.hw h t r ∧ (h.arbiter t).lastRotation = (s.hw.arbiter t).lastRotation ∧ (h.arbiter t).turn = none ∧ (h.arbiter t).window = (s.hw.arbiter t).window - 1 ∧ h.get (R.SHK_ARB_STAT_PREEMPT t) = (if pre then min (s.hw.get (R.SHK_ARB_STAT_PREEMPT t) + 1) 65535 else s.hw.get (R.SHK_ARB_STAT_PREEMPT t))) ∧
    (∀ (t : Fin 67) (pre : Bool) (e : EccFinding) (r : Request) (m : Nat), t.val < 32 ∧ targetOf r.addr = some t.val → s.hw.firstWaiting t (·.parked) = none → s.hw.firstWaiting t s.hw.emergency = none → s.hw.forcedMaster t = some m → s.hw.firstWaiting t (s.hw.ordinaryOf m) = some r → Gives (.arbiterGrant t pre e) s fun h =>
        Granted s.hw h t r ∧ (h.arbiter t).lastRotation = (s.hw.arbiter t).lastRotation ∧ (h.arbiter t).turn = none ∧ (h.arbiter t).window = s.hw.get (R.SHK_ARB_CFG_WIN t) ∧ h.get (R.SHK_ARB_STAT_FORCED t) = min (s.hw.get (R.SHK_ARB_STAT_FORCED t) + 1) 65535) ∧
    (∀ (t : Fin 67) (pre : Bool) (e : EccFinding) (r : Request), t.val < 32 ∧ targetOf r.addr = some t.val → s.hw.firstWaiting t (·.parked) = none → s.hw.firstWaiting t s.hw.emergency = none → s.hw.forcedMaster t = none → s.hw.firstWaiting t (·.express) = some r → Gives (.arbiterGrant t pre e) s fun h =>
        Granted s.hw h t r ∧ (h.arbiter t).lastRotation = (s.hw.arbiter t).lastRotation ∧ (h.arbiter t).turn = none ∧ (h.arbiter t).window = (s.hw.arbiter t).window - 1) ∧
    (∀ (t : Fin 67) (pre : Bool) (e : EccFinding) (r : Request) (m n : Nat), t.val < 32 ∧ targetOf r.addr = some t.val → s.hw.firstWaiting t (·.parked) = none → s.hw.firstWaiting t s.hw.emergency = none → s.hw.forcedMaster t = none → s.hw.firstWaiting t (·.express) = none → (s.hw.arbiter t).turn = some (m, n + 1) → s.hw.turnRequest t = some r → Gives (.arbiterGrant t pre e) s fun h =>
        Granted s.hw h t r ∧ (h.arbiter t).lastRotation = (s.hw.arbiter t).lastRotation ∧ (h.arbiter t).window = (s.hw.arbiter t).window - 1 ∧ (h.arbiter t).turn = some (m, n)) ∧
    (∀ (t : Fin 67) (pre : Bool) (e : EccFinding) (r : Request) (m : Nat), t.val < 32 ∧ targetOf r.addr = some t.val → s.hw.firstWaiting t (·.parked) = none → s.hw.firstWaiting t s.hw.emergency = none → s.hw.forcedMaster t = none → s.hw.firstWaiting t (·.express) = none → s.hw.turnRequest t = none → s.hw.inRotation t (fun _ => true) = some m → s.hw.firstWaiting t (s.hw.ordinaryOf m) = some r → Gives (.arbiterGrant t pre e) s fun h =>
        Granted s.hw h t r ∧ (h.arbiter t).lastRotation = some r.master ∧ (h.arbiter t).window = (s.hw.arbiter t).window - 1 ∧ (h.arbiter t).turn = (if r.hint = true ∧ s.hw.get (R.SHK_ARB_CFG_TURN_MAX t) ≠ 0 then some (r.master, s.hw.get (R.SHK_ARB_CFG_TURN_MAX t)) else none))

/-- The access within a grant (R31, R481, R483, R484, R497). That an uncorrectable error answers a discarded partial
write with the decode-error response is the model's reading (log 8). -/
def Obligations.GrantedAccesses : Prop :=
  ∀ s : State, s.hw.mainUp = true → 
    (∀ (t : Fin 67) (pre : Bool) (e : EccFinding) (g : GrantRule) (r : Request), s.hw.grantChoice t = some (g, r) → r.thread = none → s.hw.permits t r.master r.addr r.data.isSome = false → Gives (.arbiterGrant t pre e) s fun h =>
        Logged s.hw h r.master r.addr 2 r.data.isSome ∧ Answered h r.master r.master r.addr 2 (List.replicate r.size 0) ∧ RegsKept (R.SHK_ARB_STAT t :: shankErrorRegs) s.hw h ∧ MemKept s.hw h) ∧
    (∀ (t : Fin 67) (pre : Bool) (e : EccFinding) (r : Request) (g : GrantRule), s.hw.grantChoice t = some (g, r) → r.thread = none → t.val < 32 ∧ targetOf r.addr = some t.val ∧ isRegister r.addr = false ∧ s.hw.memoryAt r.addr = true ∧ 0x20000 ≤ r.addr → s.hw.permits t r.master r.addr r.data.isSome = true → r.data = none → e ≠ .uncorrectable → Gives (.arbiterGrant t pre e) s fun h =>
        Answered h r.master r.master r.addr 0 (s.hw.memBytes r.addr r.size) ∧
        (e = .corrected → Counted (s.hw.get R.SHK_SRAM_CE_LO_CNT + 2 ^ 32 * s.hw.get R.SHK_SRAM_CE_HI_CNT) (h.get R.SHK_SRAM_CE_LO_CNT + 2 ^ 32 * h.get R.SHK_SRAM_CE_HI_CNT)) ∧
        (e = .clean → RegsKept [R.SHK_ARB_STAT t] s.hw h) ∧
        (r.master < 8 ∧ r.size = 64 ∧ cacheable r.addr = true → h.line r.addr = some ⟨s.hw.memBytes r.addr r.size, false⟩) ∧
        (r.master < 8 ∧ r.size = 64 ∧ cacheable r.addr = true ∧ cacheWays ≤ (s.hw.shank.lines.filter fun x => cacheSet x.1 == cacheSet (r.addr / 64)).length ∨ MemKept s.hw h)) ∧
    (∀ (t : Fin 67) (pre : Bool) (e : EccFinding) (r : Request) (g : GrantRule), s.hw.grantChoice t = some (g, r) → r.thread = none → t.val < 32 ∧ targetOf r.addr = some t.val ∧ isRegister r.addr = false ∧ s.hw.memoryAt r.addr = true ∧ 0x20000 ≤ r.addr → s.hw.permits t r.master r.addr r.data.isSome = true → r.data.isNone = true ∨ merges r.addr r.size = true → e = .uncorrectable → Gives (.arbiterGrant t pre e) s fun h =>
        Answered h r.master r.master r.addr 1 (List.replicate r.size 0) ∧ Logged s.hw h r.master r.addr 3 r.data.isSome ∧ h.get R.SHK_STAT_ECC_EV = 1 ∧
        Counted (s.hw.get R.SHK_SRAM_UE_LO_CNT + 2 ^ 32 * s.hw.get R.SHK_SRAM_UE_HI_CNT) (h.get R.SHK_SRAM_UE_LO_CNT + 2 ^ 32 * h.get R.SHK_SRAM_UE_HI_CNT) ∧
        RegsKept (R.SHK_ARB_STAT t :: R.SHK_SRAM_UE_LO :: R.SHK_SRAM_UE_HI :: shankErrorRegs) s.hw h ∧ MemKept s.hw h) ∧
    (∀ (t : Fin 67) (pre : Bool) (e : EccFinding) (r : Request) (g : GrantRule), s.hw.grantChoice t = some (g, r) → r.thread = none → t.val < 32 ∧ targetOf r.addr = some t.val ∧ isRegister r.addr = false ∧ s.hw.memoryAt r.addr = true ∧ 0x20000 ≤ r.addr → s.hw.permits t r.master r.addr r.data.isSome = true → r.data.isSome = true → merges r.addr r.size = false ∨ e ≠ .uncorrectable → Gives (.arbiterGrant t pre e) s fun h =>
        Answered h r.master r.master r.addr 0 [] ∧ (∀ i < (r.data.getD []).length, h.byte (r.addr + i) = (r.data.getD []).getD i 0) ∧ MemKeptBut r.addr (r.data.getD []).length s.hw h) ∧
    (∀ (t : Fin 67) (pre : Bool) (e : EccFinding) (r : Request) (g : GrantRule), s.hw.grantChoice t = some (g, r) → r.thread = none → 32 ≤ t.val ∧ t.val < 40 → s.hw.permits t r.master r.addr r.data.isSome = true → isRegister r.addr = false ∧ 0x20000 ≤ r.addr ∧ isEngineRegion r.addr = false → s.hw.memoryAt r.addr = true → r.data = none → Gives (.arbiterGrant t pre e) s fun h =>
        Answered h r.master r.master r.addr 0 ((List.range r.size).map fun i => s.hw.memByte (r.addr + i)) ∧ RegsKept [R.SHK_ARB_STAT t] s.hw h ∧ MemKept s.hw h) ∧
    (∀ (t : Fin 67) (pre : Bool) (e : EccFinding) (r : Request) (g : GrantRule), s.hw.grantChoice t = some (g, r) → r.thread = none → 32 ≤ t.val ∧ t.val < 40 → s.hw.permits t r.master r.addr r.data.isSome = true → isRegister r.addr = false ∧ 0x20000 ≤ r.addr ∧ isEngineRegion r.addr = false → s.hw.memoryAt r.addr = true → r.data.isSome = true → Gives (.arbiterGrant t pre e) s fun h =>
        Answered h r.master r.master r.addr 0 [] ∧ (∀ i < (r.data.getD []).length, h.byte (r.addr + i) = (r.data.getD []).getD i 0) ∧ MemKeptBut r.addr (r.data.getD []).length s.hw h) ∧
    (∀ (t : Fin 67) (pre : Bool) (e : EccFinding) (r : Request) (g : GrantRule), s.hw.grantChoice t = some (g, r) → r.thread = none → 32 ≤ t.val ∧ t.val < 40 → s.hw.permits t r.master r.addr r.data.isSome = true → isRegister r.addr = false ∧ 0x20000 ≤ r.addr ∧ isEngineRegion r.addr = false → s.hw.memoryAt r.addr = false → Gives (.arbiterGrant t pre e) s fun h =>
        Logged s.hw h r.master r.addr 1 r.data.isSome ∧ Answered h r.master r.master r.addr 1 (List.replicate r.size 0) ∧ MemKept s.hw h) ∧
    (∀ (t : Fin 67) (pre : Bool) (e : EccFinding) (r : Request) (g : GrantRule), t.val = 40 ∨ t.val = 41 → s.hw.grantChoice t.val = some (g, r) → r.thread.all (fun u => decide (s.hw.waitOf r ≠ .unit) && (s.hw.packetFailure u).isNone) = true → s.hw.permits t.val r.master r.addr r.data.isSome = true → isRegister r.addr = false → s.hw.memoryAt r.addr = true → Gives (.arbiterGrant t pre e) s fun h =>
        (h.channel (t.val - 40)).waiting = (s.hw.channel (t.val - 40)).waiting ++ [r] ∧ h.shank.replies = s.hw.shank.replies ∧ RegsKept [R.SHK_ARB_STAT t.val] s.hw h ∧ MemKept s.hw h)

/-- Writes of registers by their access types (R17 to R19), each told on registers of one type, and the two ways an access
fails (R31, R481, R529). Reads of registers and their latches (R17, R18), and the two ways an access fails (R31, R481, R529). -/
def Obligations.RegisterAccesses : Prop :=
  ∀ s : State, s.hw.mainUp = true → 
    (∀ (m : Fin 27) (a : BitVec 40) (v : Word), isRegister a.toNat = true → s.hw.permits ((targetOf a.toNat).getD 0) m a.toNat true = false → Gives (.registerWrite m a v) s fun h =>
        Logged s.hw h m a.toNat 2 true ∧ Answered h m m a.toNat 2 [0, 0, 0, 0] ∧ RegsKept shankErrorRegs s.hw h ∧ MemKept s.hw h) ∧
    (∀ (m : Fin 27) (a : BitVec 40) (v : Word), isRegister a.toNat = false ∨ s.hw.permits ((targetOf a.toNat).getD 0) m a.toNat true = true → registerAccess a.toNat 4 = false → Gives (.registerWrite m a v) s fun h =>
        Logged s.hw h m a.toNat 1 true ∧ Answered h m m a.toNat 1 [0, 0, 0, 0] ∧ RegsKept shankErrorRegs s.hw h ∧ MemKept s.hw h) ∧
    (∀ (m : Fin 27) (p : Fin 15) (v : Word), s.hw.permits ((targetOf (R.TIME_ASYM p)).getD 0) m (R.TIME_ASYM p) true = true → Gives (.registerWrite m (BitVec.ofNat 40 (R.TIME_ASYM p)) v) s fun h =>
        Answered h m m (R.TIME_ASYM p) 0 [] ∧ h.get (R.TIME_ASYM_ASYM p) = v.toNat ∧ RegsKept [R.TIME_ASYM p] s.hw h ∧ MemKept s.hw h) ∧
    (∀ (m : Fin 27) (n : Fin 12) (v : Word), s.hw.permits ((targetOf (R.LANE_NEG_ID n)).getD 0) m (R.LANE_NEG_ID n) true = true → Gives (.registerWrite m (BitVec.ofNat 40 (R.LANE_NEG_ID n)) v) s fun h =>
        Answered h m m (R.LANE_NEG_ID n) 0 [] ∧ h.get (R.LANE_NEG_ID_NEG_ID n) = v.toNat % 2 ^ (R.LANE_NEG_ID_NEG_ID n).len ∧ RegsKept [R.LANE_NEG_ID n] s.hw h ∧ MemKept s.hw h) ∧
    (∀ (m : Fin 27) (v : Word), s.hw.permits ((targetOf (R.TIME_STAT)).getD 0) m (R.TIME_STAT) true = true → Gives (.registerWrite m (BitVec.ofNat 40 (R.TIME_STAT)) v) s fun h =>
        Answered h m m (R.TIME_STAT) 0 [] ∧ h.get R.TIME_STAT_STEP_EV = (if v.getLsbD 4 then 0 else s.hw.get R.TIME_STAT_STEP_EV) ∧ h.get R.TIME_STAT_TB_LOST_EV = (if v.getLsbD 5 then 0 else s.hw.get R.TIME_STAT_TB_LOST_EV) ∧
        h.get R.TIME_STAT_CFG_ERR = (if v.getLsbD 7 then 0 else s.hw.get R.TIME_STAT_CFG_ERR) ∧ h.get R.TIME_STAT_TB_LOCK = s.hw.get R.TIME_STAT_TB_LOCK ∧ h.get R.TIME_STAT_NT_VALID = s.hw.get R.TIME_STAT_NT_VALID ∧
        h.get R.TIME_STAT_HOLD_DISC = s.hw.get R.TIME_STAT_HOLD_DISC ∧ RegsKept [R.TIME_STAT] s.hw h ∧ MemKept s.hw h) ∧
    (∀ (m : Fin 27) (p : Fin 15) (v : Word), s.hw.permits ((targetOf (R.TIME_LOST p)).getD 0) m (R.TIME_LOST p) true = true → Gives (.registerWrite m (BitVec.ofNat 40 (R.TIME_LOST p)) v) s fun h =>
        Answered h m m (R.TIME_LOST p) 0 [] ∧ h.word (R.TIME_LOST p) = s.hw.word (R.TIME_LOST p) ∧ RegsKept [R.TIME_LOST p] s.hw h ∧ MemKept s.hw h) ∧
    (∀ (m : Fin 27) (v : Word), s.hw.permits ((targetOf (R.HEEL_CMP_CFG)).getD 0) m (R.HEEL_CMP_CFG) true = true → Gives (.registerWrite m (BitVec.ofNat 40 (R.HEEL_CMP_CFG)) v) s fun h =>
        Answered h m m (R.HEEL_CMP_CFG) 0 [] ∧ h.get R.HEEL_CMP_CFG_T_HI = v.toNat % 2 ^ 8 ∧ h.get R.HEEL_CMP_CFG_T_LO = v.toNat / 2 ^ 8 % 2 ^ 8 ∧ h.get R.HEEL_CMP_CFG_V_TH = v.toNat / 2 ^ 16 % 2 ^ 8 ∧ h.get R.HEEL_CMP_CFG_V_POL = v.toNat / 2 ^ 24 % 2 ∧ RegsKept [R.HEEL_CMP_CFG] s.hw h ∧ MemKept s.hw h) ∧
    (∀ (r : Fin 320) (a : BitVec 40) (wide : Bool), r.val < 27 ∨ 64 ≤ r.val → isRegister a.toNat = true → s.hw.permits ((targetOf a.toNat).getD 0) (masterOf r) a.toNat false = false → Gives (.latchingRead r a wide) s fun h =>
        Logged s.hw h (masterOf r) a.toNat 2 false ∧ Answered h r (masterOf r) a.toNat 2 (bytesLE (if wide then 8 else 4) 0) ∧ h.latches = s.hw.latches ∧ RegsKept shankErrorRegs s.hw h ∧ MemKept s.hw h) ∧
    (∀ (r : Fin 320) (a : BitVec 40) (wide : Bool), r.val < 27 ∨ 64 ≤ r.val → isRegister a.toNat = false ∨ s.hw.permits ((targetOf a.toNat).getD 0) (masterOf r) a.toNat false = true → registerAccess a.toNat (if wide then 8 else 4) = false → Gives (.latchingRead r a wide) s fun h =>
        Logged s.hw h (masterOf r) a.toNat 1 false ∧ Answered h r (masterOf r) a.toNat 1 (bytesLE (if wide then 8 else 4) 0) ∧ h.latches = s.hw.latches ∧ RegsKept shankErrorRegs s.hw h ∧ MemKept s.hw h) ∧
    (∀ (r : Fin 320), r.val < 27 ∨ 64 ≤ r.val → s.hw.permits ((targetOf R.TIME_ET_LO).getD 0) (masterOf r) R.TIME_ET_LO false = true → Gives (.latchingRead r (BitVec.ofNat 40 R.TIME_ET_LO) false) s fun h =>
        Answered h r (masterOf r) R.TIME_ET_LO 0 (bytesLE 4 (s.hw.et % 2 ^ 32)) ∧ kget h.latches r = some ⟨R.TIME_ET_LO, [BitVec.ofNat 32 (s.hw.et / 2 ^ 32)]⟩ ∧ (∀ q < 320, q ≠ r.val → kget h.latches q = kget s.hw.latches q) ∧ RegsKept [] s.hw h ∧ MemKept s.hw h) ∧
    (∀ (r : Fin 320) (w : Word), r.val < 27 ∨ 64 ≤ r.val → s.hw.permits ((targetOf R.TIME_ET_HI).getD 0) (masterOf r) R.TIME_ET_HI false = true → kget s.hw.latches r = some ⟨R.TIME_ET_LO, [w]⟩ → Gives (.latchingRead r (BitVec.ofNat 40 R.TIME_ET_HI) false) s fun h =>
        Answered h r (masterOf r) R.TIME_ET_HI 0 (bytesLE 4 w.toNat) ∧ h.latches = s.hw.latches ∧ RegsKept [] s.hw h ∧ MemKept s.hw h) ∧
    (∀ (r : Fin 320), r.val < 27 ∨ 64 ≤ r.val → s.hw.permits ((targetOf R.TIME_ET_HI).getD 0) (masterOf r) R.TIME_ET_HI false = true → kget s.hw.latches r = none → Gives (.latchingRead r (BitVec.ofNat 40 R.TIME_ET_HI) false) s fun h =>
        Answered h r (masterOf r) R.TIME_ET_HI 0 (bytesLE 4 (s.hw.et / 2 ^ 32 % 2 ^ 32)) ∧ h.latches = s.hw.latches ∧ RegsKept [] s.hw h ∧ MemKept s.hw h) ∧
    (∀ (r : Fin 320), r.val < 27 ∨ 64 ≤ r.val → s.hw.permits ((targetOf R.TIME_ET_LO).getD 0) (masterOf r) R.TIME_ET_LO false = true → Gives (.latchingRead r (BitVec.ofNat 40 R.TIME_ET_LO) true) s fun h =>
        Answered h r (masterOf r) R.TIME_ET_LO 0 (bytesLE 8 (s.hw.et % 2 ^ 64)) ∧ h.latches = s.hw.latches ∧ RegsKept [] s.hw h ∧ MemKept s.hw h) ∧
    (∀ (r : Fin 320), r.val < 27 ∨ 64 ≤ r.val → s.hw.permits ((targetOf R.TIME_NT_SUB0).getD 0) (masterOf r) R.TIME_NT_SUB0 false = true → Gives (.latchingRead r (BitVec.ofNat 40 R.TIME_NT_SUB0) false) s fun h =>
        Answered h r (masterOf r) R.TIME_NT_SUB0 0 (bytesLE 4 ((stampOf s.hw.nt).sub % 2 ^ 32)) ∧
        kget h.latches r = some ⟨R.TIME_NT_SUB0, [BitVec.ofNat 32 ((stampOf s.hw.nt).sub / 2 ^ 32), BitVec.ofNat 32 (stampOf s.hw.nt).sec, BitVec.ofNat 32 ((stampOf s.hw.nt).sec / 2 ^ 32)]⟩ ∧ RegsKept [] s.hw h ∧ MemKept s.hw h) ∧
    (∀ (r : Fin 320), r.val < 27 ∨ 64 ≤ r.val → s.hw.permits ((targetOf R.TIME_NT_SUB0).getD 0) (masterOf r) R.TIME_NT_SUB0 false = true → Gives (.latchingRead r (BitVec.ofNat 40 R.TIME_NT_SUB0) true) s fun h =>
        Answered h r (masterOf r) R.TIME_NT_SUB0 0 (bytesLE 8 (stampOf s.hw.nt).sub) ∧
        kget h.latches r = some ⟨R.TIME_NT_SUB1, [BitVec.ofNat 32 (stampOf s.hw.nt).sec, BitVec.ofNat 32 ((stampOf s.hw.nt).sec / 2 ^ 32)]⟩ ∧ RegsKept [] s.hw h ∧ MemKept s.hw h) ∧
    (∀ (r : Fin 320), r.val < 27 ∨ 64 ≤ r.val → s.hw.permits ((targetOf R.TIME_RATE).getD 0) (masterOf r) R.TIME_RATE false = true → Gives (.latchingRead r (BitVec.ofNat 40 R.TIME_RATE) false) s fun h =>
        Answered h r (masterOf r) R.TIME_RATE 0 (bytesLE 4 (s.hw.get R.TIME_RATE_RATE)) ∧ h.latches = s.hw.latches ∧ RegsKept [] s.hw h ∧ MemKept s.hw h)

/-- Accesses of a DRAM channel (R31, R481, R496, R497, R500, R503 to R506). `merges` tells an access that covers some word of
8 bytes in part, `unwritten` one that would read a word never written under ECC. -/
def Obligations.DramAccesses : Prop :=
  ∀ s : State, s.hw.mainUp = true → 
    (∀ (c : Fin 2) (e : EccFinding), (s.hw.channel c).nextAccess = none → Gives (.dramAccess c e) s fun h =>
        Unchanged s.hw h) ∧
    (∀ (c : Fin 2) (e : EccFinding) (r : Request), (s.hw.channel c).nextAccess = some r → s.hw.memoryAt r.addr = true → s.hw.urgent c = true ∨ (if s.hw.bursting c = true then 16 ≤ (s.hw.channel c).neighbours.length else (s.hw.channel c).neighbours ≠ [] ∨ s.hw.get R.DRC_REF_POST ≤ s.hw.owed c) → Gives (.dramAccess c e) s fun h =>
        Unchanged s.hw h) ∧
    (∀ (c : Fin 2) (e : EccFinding) (r : Request), (s.hw.channel c).nextAccess = some r → r.thread = none → s.hw.memoryAt r.addr = false → Gives (.dramAccess c e) s fun h =>
        Logged s.hw h r.master r.addr 1 r.data.isSome ∧ Answered h r.master r.master r.addr 1 (List.replicate r.size 0) ∧ (h.channel c).waiting = withoutFirst (s.hw.channel c).waiting r ∧ RegsKept shankErrorRegs s.hw h ∧ MemKept s.hw h) ∧
    (∀ (c : Fin 2) (e : EccFinding) (r : Request), (s.hw.channel c).nextAccess = some r → targetOf r.addr = some (40 + c.val) ∧ isRegister r.addr = false → s.hw.memoryAt r.addr = true → s.hw.urgent c = false → if s.hw.bursting c = true then (s.hw.channel c).neighbours.length < 16 else (s.hw.channel c).neighbours = [] ∧ s.hw.owed c < s.hw.get R.DRC_REF_POST → (s.hw.dramOffer c r).dramMayIssue c r = false → Gives (.dramAccess c e) s fun h =>
        (h.channel c) = (s.hw.channel c) ∧ RegsKept [] s.hw h ∧ MemKept s.hw h) ∧
    (∀ (c : Fin 2) (e : EccFinding) (r : Request) (u rd a : Nat), (s.hw.channel c).nextAccess = some r → targetOf r.addr = some (40 + c.val) ∧ isRegister r.addr = false → s.hw.memoryAt r.addr = true → s.hw.urgent c = false → if s.hw.bursting c = true then (s.hw.channel c).neighbours.length < 16 else (s.hw.channel c).neighbours = [] ∧ s.hw.owed c < s.hw.get R.DRC_REF_POST → (s.hw.dramOffer c r).dramMayIssue c r = true → r.thread = some u → (s.hw.thread u).on = .access rd a true → r.data = none → (s.hw.flag R.DRC_CFG_ECC_EN = false ∨ e = .clean) ∧ s.hw.unwritten r.addr r.size false = false → Gives (.dramAccess c e) s fun h =>
        (h.channel c).waiting = withoutFirst (s.hw.channel c).waiting r ∧ (h.channel c).lfsr = lfsrStep (s.hw.channel c).lfsr ∧ (h.thread u).on = .done ⟨rd, some (BitVec.ofNat 64 (ofBytesLE (s.hw.memBytes r.addr r.size))), none, 0⟩ ∧ RegsKept [R.DRC_CNT1 c] s.hw h ∧ MemKept s.hw h) ∧
    (∀ (c : Fin 2) (e : EccFinding) (r : Request), (s.hw.channel c).nextAccess = some r → targetOf r.addr = some (40 + c.val) ∧ isRegister r.addr = false → s.hw.memoryAt r.addr = true → s.hw.urgent c = false → if s.hw.bursting c = true then (s.hw.channel c).neighbours.length < 16 else (s.hw.channel c).neighbours = [] ∧ s.hw.owed c < s.hw.get R.DRC_REF_POST → r.thread = none → (s.hw.dramOffer c r).dramMayIssue c r = true → r.data = none → (s.hw.flag R.DRC_CFG_ECC_EN = false ∨ e = .clean) ∧ s.hw.unwritten r.addr r.size false = false → Gives (.dramAccess c e) s fun h =>
        (h.channel c).waiting = withoutFirst (s.hw.channel c).waiting r ∧ (h.channel c).lfsr = lfsrStep (s.hw.channel c).lfsr ∧ Answered h r.master r.master r.addr 0 (s.hw.memBytes r.addr r.size) ∧ RegsKept [R.DRC_CNT1 c] s.hw h ∧ (r.master < 8 ∧ r.size = 64 ∧ cacheable r.addr = true ∧ cacheWays ≤ (s.hw.shank.lines.filter fun x => cacheSet x.1 == cacheSet (r.addr / 64)).length ∨ MemKept s.hw h)) ∧
    (∀ (c : Fin 2) (e : EccFinding) (r : Request), (s.hw.channel c).nextAccess = some r → targetOf r.addr = some (40 + c.val) ∧ isRegister r.addr = false → s.hw.memoryAt r.addr = true → s.hw.urgent c = false → if s.hw.bursting c = true then (s.hw.channel c).neighbours.length < 16 else (s.hw.channel c).neighbours = [] ∧ s.hw.owed c < s.hw.get R.DRC_REF_POST → r.thread = none → (s.hw.dramOffer c r).dramMayIssue c r = true → r.data = none → s.hw.flag R.DRC_CFG_ECC_EN = true ∧ e = .corrected ∧ s.hw.unwritten r.addr r.size false = false → Gives (.dramAccess c e) s fun h =>
        (h.channel c).waiting = withoutFirst (s.hw.channel c).waiting r ∧ (h.channel c).lfsr = lfsrStep (s.hw.channel c).lfsr ∧ Answered h r.master r.master r.addr 0 (s.hw.memBytes r.addr r.size) ∧ h.get (R.DRC_CNT1_CE_CNT c) = min (s.hw.get (R.DRC_CNT1_CE_CNT c) + 1) 65535 ∧ h.get R.DRC_STAT_CE_EV = 1 ∧ h.get (R.DRC_ERR_LO_ADDR c) + 2 ^ 32 * h.get (R.DRC_ERR_HI_ADDR c) = r.addr % 2 ^ 40 ∧ h.get (R.DRC_ERR_HI_UE c) = 0 ∧ (r.master < 8 ∧ r.size = 64 ∧ cacheable r.addr = true ∧ cacheWays ≤ (s.hw.shank.lines.filter fun x => cacheSet x.1 == cacheSet (r.addr / 64)).length ∨ MemKept s.hw h)) ∧
    (∀ (c : Fin 2) (e : EccFinding) (r : Request), (s.hw.channel c).nextAccess = some r → targetOf r.addr = some (40 + c.val) ∧ isRegister r.addr = false → s.hw.memoryAt r.addr = true → s.hw.urgent c = false → if s.hw.bursting c = true then (s.hw.channel c).neighbours.length < 16 else (s.hw.channel c).neighbours = [] ∧ s.hw.owed c < s.hw.get R.DRC_REF_POST → r.thread = none → (s.hw.dramOffer c r).dramMayIssue c r = true → r.data = none ∨ merges r.addr r.size = true ∧ e = .uncorrectable ∨ s.hw.unwritten r.addr r.size true = true → s.hw.flag R.DRC_CFG_ECC_EN = true ∧ (e = .uncorrectable ∨ s.hw.unwritten r.addr r.size r.data.isSome = true) → Gives (.dramAccess c e) s fun h =>
        (h.channel c).waiting = withoutFirst (s.hw.channel c).waiting r ∧ (h.channel c).lfsr = lfsrStep (s.hw.channel c).lfsr ∧ Logged s.hw h r.master r.addr 3 r.data.isSome ∧ Answered h r.master r.master r.addr 1 (List.replicate r.size 0) ∧ h.get (R.DRC_CNT2_UE_CNT c) = min (s.hw.get (R.DRC_CNT2_UE_CNT c) + 1) 65535 ∧ h.get R.DRC_STAT_UE_EV = 1 ∧ h.get (R.DRC_ERR_LO_ADDR c) + 2 ^ 32 * h.get (R.DRC_ERR_HI_ADDR c) = r.addr % 2 ^ 40 ∧ h.get (R.DRC_ERR_HI_UE c) = 1 ∧
        RegsKept (shankErrorRegs ++ [R.DRC_STAT, R.DRC_ERR_LO c, R.DRC_ERR_HI c, R.DRC_CNT1 c, R.DRC_CNT2 c]) s.hw h ∧ MemKept s.hw h) ∧
    (∀ (c : Fin 2) (e : EccFinding) (r : Request), (s.hw.channel c).nextAccess = some r → targetOf r.addr = some (40 + c.val) ∧ isRegister r.addr = false → s.hw.memoryAt r.addr = true → s.hw.urgent c = false → if s.hw.bursting c = true then (s.hw.channel c).neighbours.length < 16 else (s.hw.channel c).neighbours = [] ∧ s.hw.owed c < s.hw.get R.DRC_REF_POST → r.thread = none → (s.hw.dramOffer c r).dramMayIssue c r = true → r.data.isSome = true → s.hw.flag R.DRC_CFG_ECC_EN = false ∨ (merges r.addr r.size = false ∨ e ≠ .uncorrectable) ∧ s.hw.unwritten r.addr r.size true = false → Gives (.dramAccess c e) s fun h =>
        (h.channel c).waiting = withoutFirst (s.hw.channel c).waiting r ∧ (h.channel c).lfsr = lfsrStep (s.hw.channel c).lfsr ∧ Answered h r.master r.master r.addr 0 [] ∧ (∀ i < (r.data.getD []).length, h.byte (r.addr + i) = (r.data.getD []).getD i 0) ∧ MemKeptBut r.addr (r.data.getD []).length s.hw h)

/-- Refresh (R499 to R502) and neighbour refresh (R503). -/
def Obligations.DramRefresh : Prop :=
  ∀ s : State, s.hw.mainUp = true → 
    (∀ (c : Fin 2), s.hw.drcState = drcReady → s.hw.urgent c = true → Gives (.refreshDecision c) s fun h =>
        h.get (R.DRC_DEBT_D c) = (s.hw.debt c - s.hw.refi c) % 2 ^ 32 ∧ (h.channel c).debtAt = s.hw.et ∧ h.et = (s.hw.advance (s.hw.get R.DRC_TIM_TRFC)).et ∧ (h.channel c).waiting = (s.hw.channel c).waiting ∧ h.get (R.DRC_CNT0_RT_PREEMPT c) = (if s.hw.bursting c = true ∧ (s.hw.channel c).interrupted = false then min (s.hw.get (R.DRC_CNT0_RT_PREEMPT c) + 1) 65535 else s.hw.get (R.DRC_CNT0_RT_PREEMPT c)) ∧ RegsKept [R.DRC_DEBT c, R.DRC_CNT0 c] s.hw h ∧ MemKept s.hw h) ∧
    (∀ (c : Fin 2), s.hw.drcState = drcReady → s.hw.urgent c = false ∧ ¬ (1 ≤ s.hw.owed c ∧ s.hw.bursting c = true) → s.hw.get R.DRC_REF_POST ≤ s.hw.owed c ∨ (1 ≤ s.hw.owed c ∧ (s.hw.channel c).waiting.isEmpty = true) → Gives (.refreshDecision c) s fun h =>
        h.get (R.DRC_DEBT_D c) = (s.hw.debt c - s.hw.refi c) % 2 ^ 32 ∧ (h.channel c).debtAt = s.hw.et ∧ h.et = (s.hw.advance (s.hw.get R.DRC_TIM_TRFC)).et ∧ (h.channel c).waiting = (s.hw.channel c).waiting ∧ RegsKept [R.DRC_DEBT c] s.hw h ∧ MemKept s.hw h) ∧
    (∀ (c : Fin 2), s.hw.drcState ≠ drcReady ∨ s.hw.urgent c = false ∧ ((1 ≤ s.hw.owed c ∧ s.hw.bursting c = true) ∨ ¬ (s.hw.get R.DRC_REF_POST ≤ s.hw.owed c ∨ (1 ≤ s.hw.owed c ∧ (s.hw.channel c).waiting.isEmpty = true))) → Gives (.refreshDecision c) s fun h =>
        Unchanged s.hw h) ∧
    (∀ (c : Fin 2) (n : Nat × Nat) (rest : List (Nat × Nat)), s.hw.drcState = drcReady → s.hw.urgent c = false ∧ ¬ (s.hw.bursting c = true ∧ (s.hw.channel c).neighbours.length < 16) → (s.hw.channel c).neighbours = n :: rest → Gives (.neighbourRefresh c) s fun h =>
        (h.channel c).neighbours = rest ++ (if s.hw.flag R.DRC_NR_EN = true ∧ (lfsrStep (s.hw.channel c).lfsr).toNat % 2 ^ s.hw.get R.DRC_NR_K = 0 then (if n.2 = 0 then [] else [(n.1, n.2 - 1)]) ++ (if n.2 + 1 < s.hw.dramRows then [(n.1, n.2 + 1)] else []) else []) ∧ (h.channel c).lfsr = lfsrStep (s.hw.channel c).lfsr ∧ (h.channel c).waiting = (s.hw.channel c).waiting ∧ RegsKept [R.DRC_CNT1 c] s.hw h ∧ MemKept s.hw h) ∧
    (∀ (c : Fin 2), s.hw.drcState ≠ drcReady ∨ s.hw.urgent c = true ∨ s.hw.bursting c = true ∧ (s.hw.channel c).neighbours.length < 16 ∨ (s.hw.channel c).neighbours = [] → Gives (.neighbourRefresh c) s fun h =>
        Unchanged s.hw h) ∧
    (∀ (c : Fin 2) (l : Int) (d : Nat), tget s.hw.timers (.mr4 c) = some d → s.hw.drcState = drcReady → Gives (.mr4Read c l false) s fun h =>
        (h.get (R.DRC_REF_STAT_CODE c) : Int) = clampInt 0 4 (max (2 + l) (s.hw.get R.DRC_REF_F_MIN)) ∧ tget h.timers (.mr4 c) = some ((s.hw.advanceTo d).et + 16000000) ∧
        (h.get (R.DRC_REF_STAT_CODE c) ≠ s.hw.get (R.DRC_REF_STAT_CODE c) → h.get R.DRC_STAT_RATE_EV = 1 ∧ h.get (R.DRC_CNT0_CATCHUP c) = (if (s.hw.advanceTo d).urgent c = false ∧ h.urgent c = true then min (s.hw.get (R.DRC_CNT0_CATCHUP c) + 1) 65535 else s.hw.get (R.DRC_CNT0_CATCHUP c))) ∧
        RegsKept [R.DRC_STAT, R.DRC_REF_STAT c, R.DRC_CNT0 c] s.hw h ∧ MemKept s.hw h) ∧
    (∀ (c : Fin 2) (l : Int) (d : Nat), tget s.hw.timers (.mr4 c) = some d → s.hw.drcState = drcReady → Gives (.mr4Read c l true) s fun h =>
        h.get (R.DRC_REF_STAT_CODE c) = 4 ∧ h.get R.DRC_STAT_HOT_EV = 1 ∧ tget h.timers (.mr4 c) = some ((s.hw.advanceTo d).et + 16000000) ∧ MemKept s.hw h)

/-- Training (R498), ECC initialisation (R506), self-refresh (R507) and the abort of an entry (R545). -/
def Obligations.DramTrainingAndSelfRefresh : Prop :=
  ∀ s : State, s.hw.mainUp = true → 
    (s.hw.drcState = drcUntrained ∨ s.hw.drcState = drcFailed → s.hw.ps ≠ psDiagnostic → Gives (.trainStart) s fun h =>
        h.drcState = drcTraining ∧ RegsKept [R.DRC_STAT, R.DRC_DEBT 0, R.DRC_DEBT 1] s.hw h ∧ MemKept s.hw h) ∧
    (¬ (s.hw.drcState = drcUntrained ∨ s.hw.drcState = drcFailed) → Gives (.trainStart) s fun h =>
        h.get R.DRC_STAT_CFG_ERR = 1 ∧ OnlyRegs [R.DRC_STAT] s.hw h) ∧
    (∀ (step : Fin 8) (ch : BitVec 2), s.hw.drcState = drcTraining ∨ s.hw.drcState = drcSelfRefresh → step.val ≠ 0 ∧ ch ≠ 0 → Gives (.trainingDone step ch) s fun h =>
        h.drcState = drcFailed ∧ h.get R.DRC_STAT_FAIL_STEP = step.val ∧ h.get R.DRC_STAT_FAIL_CH = ch.toNat ∧ h.get R.DRC_STAT_TRAIN_EV = 1 ∧ RegsKept [R.DRC_STAT, R.DRC_DEBT 0, R.DRC_DEBT 1] s.hw h ∧ MemKept s.hw h) ∧
    (∀ (step : Fin 8) (ch : BitVec 2), s.hw.drcState = drcTraining → step.val = 0 ∨ ch = 0 → Gives (.trainingDone step ch) s fun h =>
        h.get R.DRC_STAT_TRAIN_EV = 1 ∧ h.drcState = drcReady ∧ (∀ c < 2, h.get (R.DRC_DEBT_D c) = 0 ∧ (h.channel c).debtAt = s.hw.et ∧ tget h.timers (.mr4 c) = some (s.hw.et + 16000000)) ∧ RegsKept [R.DRC_STAT, R.DRC_DEBT 0, R.DRC_DEBT 1] s.hw h ∧ MemKept s.hw h) ∧
    (∀ (step : Fin 8) (ch : BitVec 2), s.hw.drcState = drcSelfRefresh → step.val = 0 ∨ ch = 0 → Gives (.trainingDone step ch) s fun h =>
        h.drcState = drcReady ∧ (∀ c < 2, h.get (R.DRC_DEBT_D c) = 0 ∧ (h.channel c).debtAt = s.hw.et ∧ tget h.timers (.mr4 c) = some (s.hw.et + 0)) ∧ RegsKept [R.DRC_STAT, R.DRC_DEBT 0, R.DRC_DEBT 1] s.hw h ∧ MemKept s.hw h) ∧
    (s.hw.drcState = drcReady → Gives (.init) s fun h =>
        h.drcState = drcEccInit ∧ RegsKept [R.DRC_STAT, R.DRC_DEBT 0, R.DRC_DEBT 1] s.hw h ∧ MemKept s.hw h) ∧
    (s.hw.drcState ≠ drcReady → Gives (.init) s fun h =>
        h.get R.DRC_STAT_CFG_ERR = 1 ∧ OnlyRegs [R.DRC_STAT] s.hw h) ∧
    (s.hw.drcState = drcEccInit → Gives (.initDone) s fun h =>
        h.drcState = drcReady ∧ h.get R.DRC_STAT_TRAIN_EV = 1 ∧ h.dram.initialised = true ∧ RegsKept [R.DRC_STAT, R.DRC_DEBT 0, R.DRC_DEBT 1] s.hw h ∧ MemKeptBut 0x1000000000 s.hw.dramWindow s.hw h ∧ ZeroIn 0x1000000000 s.hw.dramWindow h) ∧
    (∀ (c : Instr), c = .initDone ∧ s.hw.drcState ≠ drcEccInit ∨ c = .trainingDone 0 0 ∧ s.hw.drcState ≠ drcTraining ∧ s.hw.drcState ≠ drcSelfRefresh ∨ c = .selfRefreshAck 0 ∧ s.hw.ps ≠ psEntering → Gives (c) s fun h =>
        Unchanged s.hw h) ∧
    (∀ (c : Fin 2), s.hw.ps = psEntering → (s.hw.channel c).acknowledged = false ∧ (s.hw.channel (1 - c.val)).acknowledged = false → s.hw.drcState = drcReady → (s.hw.channel c).waiting = [] → Gives (.selfRefreshAck c) s fun h =>
        (h.channel c).acknowledged = true ∧ (h.channel c).neighbours = [] ∧ h.get (R.DRC_DEBT_D c) = s.hw.debt c % s.hw.refi c ∧ h.owed c = 0 ∧ RegsKept [R.DRC_DEBT c] s.hw h ∧ MemKept s.hw h) ∧
    (∀ (c : Fin 2), s.hw.ps = psEntering → ¬ (s.hw.drcState = drcUntrained ∨ s.hw.drcState = drcFailed) → (s.hw.channel c).waiting ≠ [] ∨ s.hw.drcState ≠ drcReady → Gives (.selfRefreshAck c) s fun h =>
        Unchanged s.hw h) ∧
    (∀ (d : Nat), tget s.hw.timers .selfRefresh = some d → s.hw.ps = psEntering → s.hw.acknowledged = false → s.hw.flag R.HEEL_PS_STAT_PEND = false → Gives (.selfRefreshTimeout) s fun h =>
        h.ps = psRun ∧ h.get R.HEEL_PS_STAT_REFUSE_EV = 1 ∧ h.get R.HEEL_PS_STAT_LAST_REFUSER = 7 ∧ h.get R.HEEL_CNT0_ABORTED = min (s.hw.get R.HEEL_CNT0_ABORTED + 1) 65535 ∧ h.et = (s.hw.advanceTo d).et ∧ MemKept s.hw h)

/-- Lifecycle (R516 to R519), OTP (R514, R515) and the lock of the tables (R531, R540). -/
def Obligations.LifecycleCommandsAndOtp : Prop :=
  ∀ s : State, s.hw.mainUp = true → 
    (∀ (m : Fin 27) (op : Nat) (c : Instr), c = .lcProvision m ∧ op = 1 ∨ c = .lcSecure m ∧ op = 2 ∨ c = .lcReturn m ∧ op = 3 ∨ c = .lcRetire m ∧ op = 4 → s.hw.inRun = false → Gives (c) s fun h =>
        Unchanged s.hw h) ∧
    (∀ (m : Fin 27) (op : Nat) (c : Instr), c = .lcProvision m ∧ op = 1 ∨ c = .lcSecure m ∧ op = 2 ∨ c = .lcReturn m ∧ op = 3 ∨ c = .lcRetire m ∧ op = 4 → s.hw.inRun = true → s.hw.flag R.ILT_LC_STAT_BUSY = true → Gives (c) s fun h =>
        h.get R.ILT_ACC_STAT_CFG_ERR = 1 ∧ OnlyRegs [R.ILT_ACC_STAT] s.hw h) ∧
    (∀ (m : Fin 27) (op : Nat) (c : Instr), c = .lcProvision m ∧ op = 1 ∨ c = .lcSecure m ∧ op = 2 ∨ c = .lcReturn m ∧ op = 3 ∨ c = .lcRetire m ∧ op = 4 → s.hw.inRun = true → s.hw.flag R.ILT_LC_STAT_BUSY = false → s.hw.flag R.ILT_LC_STAT_TORN = false → lifecycleFrom op s.hw.lifecycle = false → Gives (c) s fun h =>
        h.get R.ILT_LC_STAT_STATUS = 1 ∧ OnlyRegs [R.ILT_LC_STAT] s.hw h) ∧
    (∀ (m : Fin 27) (op : Nat) (c : Instr), c = .lcProvision m ∧ op = 1 ∨ c = .lcSecure m ∧ op = 2 ∨ c = .lcReturn m ∧ op = 3 ∨ c = .lcRetire m ∧ op = 4 → s.hw.inRun = true → s.hw.flag R.ILT_LC_STAT_BUSY = false → s.hw.flag R.ILT_LC_STAT_TORN = false → lifecycleFrom op s.hw.lifecycle = true → (s.hw.word R.ILT_LC_ARG).toNat ≠ lifecycleKey op → Gives (c) s fun h =>
        h.get R.ILT_LC_STAT_STATUS = 2 ∧ OnlyRegs [R.ILT_LC_STAT] s.hw h) ∧
    (∀ (m : Fin 27) (op : Nat) (c : Instr), c = .lcProvision m ∧ op = 1 ∨ c = .lcSecure m ∧ op = 2 ∨ c = .lcReturn m ∧ op = 3 ∨ c = .lcRetire m ∧ op = 4 → s.hw.inRun = true → s.hw.flag R.ILT_LC_STAT_BUSY = false → s.hw.flag R.ILT_LC_STAT_TORN = false → lifecycleFrom op s.hw.lifecycle = true → (s.hw.word R.ILT_LC_ARG).toNat = lifecycleKey op → s.hw.lifecycleAllowed m op = false → Gives (c) s fun h =>
        h.get R.ILT_LC_STAT_STATUS = 3 ∧ OnlyRegs [R.ILT_LC_STAT] s.hw h) ∧
    (∀ (m : Fin 27) (op : Nat) (c : Instr), c = .lcProvision m ∧ op = 1 ∨ c = .lcSecure m ∧ op = 2 ∨ c = .lcReturn m ∧ op = 3 ∨ c = .lcRetire m ∧ op = 4 → s.hw.inRun = true → s.hw.flag R.ILT_LC_STAT_BUSY = false → s.hw.flag R.ILT_LC_STAT_TORN = true → s.hw.groupTorn (op - 1) = false → Gives (c) s fun h =>
        h.get R.ILT_LC_STAT_STATUS = 5 ∧ OnlyRegs [R.ILT_LC_STAT] s.hw h) ∧
    (s.hw.inRun = true → s.hw.flag R.ILT_LC_STAT_BUSY = false → s.hw.flag R.ILT_LC_STAT_TORN = false → s.hw.lifecycle = 0 → (s.hw.word R.ILT_LC_ARG).toNat = 0x50524F56 → (List.range 4).any s.hw.rootProgrammed = true ∧ s.hw.slotProgrammed 129 12 = true → Gives (.lcProvision 0) s fun h =>
        h.get R.ILT_LC_STAT_STATUS = 0 ∧ h.get R.ILT_LC_STAT_BUSY = 1 ∧ h.iltil.lcJob = some 1 ∧ h.iltil.otp = s.hw.iltil.otp ∧ RegsKept [R.ILT_LC_STAT] s.hw h ∧ MemKept s.hw h) ∧
    (s.hw.inRun = true → s.hw.flag R.ILT_LC_STAT_BUSY = false → s.hw.flag R.ILT_LC_STAT_TORN = false → s.hw.lifecycle = 0 → (s.hw.word R.ILT_LC_ARG).toNat = 0x50524F56 → ¬ ((List.range 4).any s.hw.rootProgrammed = true ∧ s.hw.slotProgrammed 129 12 = true) → Gives (.lcProvision 0) s fun h =>
        h.get R.ILT_LC_STAT_STATUS = 4 ∧ OnlyRegs [R.ILT_LC_STAT] s.hw h) ∧
    (s.hw.inRun = true → s.hw.flag R.ILT_LC_STAT_BUSY = false → s.hw.flag R.ILT_LC_STAT_TORN = false → s.hw.lifecycle = 1 → (s.hw.word R.ILT_LC_ARG).toNat = 0x53454355 → s.hw.flag R.ILT_BOOT_STAT_VERIFIED = true → Gives (.lcSecure 0) s fun h =>
        h.get R.ILT_LC_STAT_STATUS = 0 ∧ h.get R.ILT_LC_STAT_BUSY = 1 ∧ h.iltil.lcJob = some 2 ∧ h.iltil.otp = s.hw.iltil.otp ∧ RegsKept [R.ILT_LC_STAT] s.hw h ∧ MemKept s.hw h) ∧
    (s.hw.inRun = true → s.hw.flag R.ILT_LC_STAT_BUSY = false → s.hw.flag R.ILT_LC_STAT_TORN = false → s.hw.lifecycle = 1 ∨ s.hw.lifecycle = 2 → (s.hw.word R.ILT_LC_ARG).toNat = 0x5245544E → s.hw.fullSession = true ∧ s.hw.get R.ILT_DBG_STAT_KEY_USED = 2 → Gives (.lcReturn 25) s fun h =>
        h.get R.ILT_LC_STAT_STATUS = 0 ∧ h.get R.ILT_LC_STAT_BUSY = 1 ∧ h.iltil.lcJob = some 3 ∧ h.iltil.otp = s.hw.iltil.otp ∧ RegsKept [R.ILT_LC_STAT] s.hw h ∧ MemKept s.hw h) ∧
    (∀ (m : Fin 27), s.hw.inRun = true → s.hw.flag R.ILT_LC_STAT_BUSY = false → s.hw.flag R.ILT_LC_STAT_TORN = false → s.hw.lifecycle ≠ 4 → (s.hw.word R.ILT_LC_ARG).toNat = 0x52545244 → m.val = 0 ∨ m.val = 25 ∧ s.hw.fullSession = true → Gives (.lcRetire m) s fun h =>
        h.get R.ILT_LC_STAT_STATUS = 0 ∧ h.get R.ILT_LC_STAT_BUSY = 1 ∧ h.iltil.lcJob = some 4 ∧ h.iltil.otp = s.hw.iltil.otp ∧ RegsKept [R.ILT_LC_STAT] s.hw h ∧ MemKept s.hw h) ∧
    (∀ (op : Nat), s.hw.iltil.lcJob = some op → 1 ≤ op ∧ op ≤ 4 → Gives (.lifecycleDone) s fun h =>
        h.boot.reset = some 3 ∧ h.iltil.lcJob = none ∧ (s.hw.iltil.otpJob = none → ∀ w < 512, kgetD 0 h.iltil.otp w = if w ∈ lifecycleWords op then BitVec.allOnes 32 else kgetD 0 s.hw.iltil.otp w) ∧
        h.get R.HEEL_PS_STAT_PEND = 0 ∧ h.mainUp = false ∧ MemKept s.hw h) ∧
    (s.hw.iltil.lcJob = none → Gives (.lifecycleDone) s fun h =>
        Unchanged s.hw h) ∧
    (s.hw.inRun = false → Gives (.prog) s fun h =>
        Unchanged s.hw h) ∧
    (s.hw.inRun = true → s.hw.flag R.ILT_OTP_STAT_BUSY = true → Gives (.prog) s fun h =>
        h.get R.ILT_ACC_STAT_CFG_ERR = 1 ∧ OnlyRegs [R.ILT_ACC_STAT] s.hw h) ∧
    (s.hw.inRun = true → s.hw.flag R.ILT_OTP_STAT_BUSY = false → otpProgrammable s.hw.lifecycle (s.hw.get R.ILT_OTP_ADDR_ADDR) = false → Gives (.prog) s fun h =>
        h.get R.ILT_OTP_STAT_BUSY = 0 ∧ h.get R.ILT_OTP_STAT_DONE_EV = 1 ∧ h.get R.ILT_OTP_STAT_STATUS = 1 ∧ OnlyRegs [R.ILT_OTP_STAT] s.hw h) ∧
    (s.hw.inRun = true → s.hw.flag R.ILT_OTP_STAT_BUSY = false → otpProgrammable s.hw.lifecycle 112 = true ∧ s.hw.get R.ILT_OTP_ADDR_ADDR = 112 → ¬ (∃ k < 4, s.hw.rootProgrammed k = true ∧ (s.hw.fuse 112 ||| s.hw.word R.ILT_OTP_DATA).getLsbD k = false) → Gives (.prog) s fun h =>
        h.get R.ILT_OTP_STAT_BUSY = 0 ∧ h.get R.ILT_OTP_STAT_DONE_EV = 1 ∧ h.get R.ILT_OTP_STAT_STATUS = 2 ∧ OnlyRegs [R.ILT_OTP_STAT] s.hw h) ∧
    (s.hw.inRun = true → s.hw.flag R.ILT_OTP_STAT_BUSY = false → otpProgrammable s.hw.lifecycle (s.hw.get R.ILT_OTP_ADDR_ADDR) = true → s.hw.get R.ILT_OTP_ADDR_ADDR = 112 → (∃ k < 4, s.hw.rootProgrammed k = true ∧ (s.hw.fuse 112 ||| s.hw.word R.ILT_OTP_DATA).getLsbD k = false) → Gives (.prog) s fun h =>
        h.get R.ILT_OTP_STAT_BUSY = 1 ∧ h.iltil.otpJob = some (s.hw.get R.ILT_OTP_ADDR_ADDR, s.hw.word R.ILT_OTP_DATA) ∧ h.iltil.otp = s.hw.iltil.otp ∧ RegsKept [R.ILT_OTP_STAT] s.hw h ∧ MemKept s.hw h) ∧
    (∀ (failed : Word) (w : Nat) (v : Word), s.hw.iltil.otpJob = some (w, v) → 64 ≤ w ∧ w < 512 → Gives (.otpProgDone failed) s fun h =>
        h.get R.ILT_OTP_STAT_BUSY = 0 ∧ h.get R.ILT_OTP_STAT_DONE_EV = 1 ∧ kgetD 0 h.iltil.otp w = kgetD 0 s.hw.iltil.otp w ||| (v &&& ~~~failed) ∧ (∀ u < 512, u ≠ w → kgetD 0 h.iltil.otp u = kgetD 0 s.hw.iltil.otp u) ∧
        h.get R.ILT_OTP_STAT_STATUS = (if h.fuse w &&& v = v then 0 else 3) ∧ h.iltil.otpJob = none ∧ RegsKept [R.ILT_OTP_STAT] s.hw h ∧ MemKept s.hw h) ∧
    (∀ (failed : Word), s.hw.iltil.otpJob = none → Gives (.otpProgDone failed) s fun h =>
        Unchanged s.hw h) ∧
    (∀ (v : Word), s.hw.flag R.ILT_ACC_CTL_LOCK = false → Gives (.lockWrite v) s fun h =>
        h.get R.ILT_ACC_CTL_LOCK = v.toNat % 2 ∧ OnlyRegs [R.ILT_ACC_CTL] s.hw h) ∧
    (∀ (v : Word), s.hw.flag R.ILT_ACC_CTL_LOCK = true → Gives (.lockWrite v) s fun h =>
        h.get R.ILT_ACC_STAT_CFG_ERR = 1 ∧ OnlyRegs [R.ILT_ACC_STAT] s.hw h)

/-- The random source (R525), the key ladder (R526, R527), the identity key (R528, R535) and secure boot (R520 to R522). The
functions of cryptography and the random words are free. -/
def Obligations.RandomSourceKeysAndImages : Prop :=
  ∀ s : State, s.hw.mainUp = true → 
    (∀ (m : Fin 27), s.hw.permits ((targetOf R.ILT_RNG).getD 0) m R.ILT_RNG false = true → s.hw.flag R.ILT_RNG_STAT_FAIL = false → Gives (.rngRead m) s fun h =>
        Answered h m m R.ILT_RNG 0 (bytesLE 4 (Config.randomWord s.hw.free).toNat) ∧ h.get R.ILT_RNG_STAT_VALID = 1 ∧ RegsKept [R.ILT_RNG_STAT] s.hw h ∧ MemKept s.hw h) ∧
    (∀ (m : Fin 27), s.hw.permits ((targetOf R.ILT_RNG).getD 0) m R.ILT_RNG false = true → s.hw.flag R.ILT_RNG_STAT_FAIL = true → Gives (.rngRead m) s fun h =>
        Answered h m m R.ILT_RNG 0 [0, 0, 0, 0] ∧ h.get R.ILT_RNG_STAT_VALID = 0 ∧ RegsKept [R.ILT_RNG_STAT] s.hw h ∧ MemKept s.hw h) ∧
    (Gives (.rngHealthFail) s fun h =>
        h.get R.ILT_RNG_STAT_FAIL = 1 ∧ h.get R.ILT_RNG_STAT_VALID = 0 ∧ OnlyRegs [R.ILT_RNG_STAT] s.hw h) ∧
    (∀ (v : Word), (s.hw.word R.ILT_KL_LABEL).toNat ≤ 255 → Gives (.keyDerive v) s fun h =>
        h.get R.ILT_KL_STAT_STATUS = 2 ∧ h.get R.ILT_KL_STAT_DONE_EV = 1 ∧ (∀ w < 8, h.word (R.ILT_KL_OUT w) = 0) ∧ RegsKept (R.ILT_KL_STAT :: (List.range 8).map R.ILT_KL_OUT) s.hw h ∧ MemKept s.hw h) ∧
    (∀ (v : Word), 255 < (s.hw.word R.ILT_KL_LABEL).toNat → 2 ^ 31 ≤ (s.hw.word R.ILT_KL_LABEL).toNat ∧ s.hw.fullSession = true ∧ s.hw.lifecycle = lcSecured → Gives (.keyDerive v) s fun h =>
        h.get R.ILT_KL_STAT_STATUS = 5 ∧ h.get R.ILT_KL_STAT_DONE_EV = 1 ∧ (∀ w < 8, h.word (R.ILT_KL_OUT w) = 0) ∧ RegsKept (R.ILT_KL_STAT :: (List.range 8).map R.ILT_KL_OUT) s.hw h ∧ MemKept s.hw h) ∧
    (∀ (v : Word), 255 < (s.hw.word R.ILT_KL_LABEL).toNat → ¬ (2 ^ 31 ≤ (s.hw.word R.ILT_KL_LABEL).toNat ∧ s.hw.fullSession = true ∧ s.hw.lifecycle = lcSecured) → s.hw.rootServes (fieldOf v R.ILT_KL_CMD_ROOT == 1) = false → Gives (.keyDerive v) s fun h =>
        h.get R.ILT_KL_STAT_STATUS = 1 ∧ h.get R.ILT_KL_STAT_DONE_EV = 1 ∧ (∀ w < 8, h.word (R.ILT_KL_OUT w) = 0) ∧ RegsKept (R.ILT_KL_STAT :: (List.range 8).map R.ILT_KL_OUT) s.hw h ∧ MemKept s.hw h) ∧
    (∀ (v : Word), 255 < (s.hw.word R.ILT_KL_LABEL).toNat → ¬ (2 ^ 31 ≤ (s.hw.word R.ILT_KL_LABEL).toNat ∧ s.hw.fullSession = true ∧ s.hw.lifecycle = lcSecured) → s.hw.rootServes (fieldOf v R.ILT_KL_CMD_ROOT == 1) = true → 2 ^ 31 ≤ (s.hw.word R.ILT_KL_LABEL).toNat → Gives (.keyDerive v) s fun h =>
        h.get R.ILT_KL_STAT_STATUS = 0 ∧ h.get R.ILT_KL_STAT_DONE_EV = 1 ∧ (∀ w < 8, h.word (R.ILT_KL_OUT w) = bytesWord (ladder (if (fieldOf v R.ILT_KL_CMD_ROOT == 1) then s.hw.rootSecret else s.hw.deviceSecret) (s.hw.word R.ILT_KL_LABEL).toNat (wordsBytes ((List.range 4).map fun w => s.hw.word (R.ILT_KL_CTX w)))) w) ∧ RegsKept (R.ILT_KL_STAT :: (List.range 8).map R.ILT_KL_OUT) s.hw h ∧ MemKept s.hw h) ∧
    (∀ (v : Word), 255 < (s.hw.word R.ILT_KL_LABEL).toNat → ¬ (2 ^ 31 ≤ (s.hw.word R.ILT_KL_LABEL).toNat ∧ s.hw.fullSession = true ∧ s.hw.lifecycle = lcSecured) → s.hw.rootServes (fieldOf v R.ILT_KL_CMD_ROOT == 1) = true → (s.hw.word R.ILT_KL_LABEL).toNat < 2 ^ 31 → keySlotAt (s.hw.pair R.ILT_KL_DEST_LO R.ILT_KL_DEST_HI) = none → Gives (.keyDerive v) s fun h =>
        h.get R.ILT_KL_STAT_STATUS = 3 ∧ h.get R.ILT_KL_STAT_DONE_EV = 1 ∧ (∀ w < 8, h.word (R.ILT_KL_OUT w) = 0) ∧ RegsKept (R.ILT_KL_STAT :: (List.range 8).map R.ILT_KL_OUT) s.hw h ∧ MemKept s.hw h) ∧
    (∀ (v : Word) (k : Nat), 255 < (s.hw.word R.ILT_KL_LABEL).toNat → ¬ (2 ^ 31 ≤ (s.hw.word R.ILT_KL_LABEL).toNat ∧ s.hw.fullSession = true ∧ s.hw.lifecycle = lcSecured) → s.hw.rootServes (fieldOf v R.ILT_KL_CMD_ROOT == 1) = true → (s.hw.word R.ILT_KL_LABEL).toNat < 2 ^ 31 → keySlotAt (s.hw.pair R.ILT_KL_DEST_LO R.ILT_KL_DEST_HI) = some (.welt k) → k < 1024 → Gives (.keyDerive v) s fun h =>
        h.get R.ILT_KL_STAT_STATUS = 0 ∧ h.get R.ILT_KL_STAT_DONE_EV = 1 ∧ (∀ w < 8, h.word (R.ILT_KL_OUT w) = 0) ∧ (∀ w < 8, h.word (R.WELT_KEY k w) = if w < 4 ∨ fieldOf v R.ILT_KL_CMD_LEN = 0 then bytesWord (ladder (if (fieldOf v R.ILT_KL_CMD_ROOT == 1) then s.hw.rootSecret else s.hw.deviceSecret) (s.hw.word R.ILT_KL_LABEL).toNat (wordsBytes ((List.range 4).map fun w => s.hw.word (R.ILT_KL_CTX w)))) w else s.hw.word (R.WELT_KEY k w)) ∧ MemKept s.hw h) ∧
    (∀ (m : Fin 27), s.hw.permits ((targetOf (R.ILT_KL_OUT 7)).getD 0) m (R.ILT_KL_OUT 7) false = true → Gives (.klOutRead m) s fun h =>
        Answered h m m (R.ILT_KL_OUT 7) 0 (bytesLE 4 (s.hw.word (R.ILT_KL_OUT 7)).toNat) ∧ (∀ w < 8, h.word (R.ILT_KL_OUT w) = 0) ∧ RegsKept ((List.range 8).map R.ILT_KL_OUT) s.hw h ∧ MemKept s.hw h) ∧
    (s.hw.lifecycle = lcRetired ∨ s.hw.lifecycle = lcSecured ∧ s.hw.fullSession = true → Gives (.sign) s fun h =>
        h.get R.ILT_ID_STAT_DONE_EV = 1 ∧ h.get R.ILT_ID_STAT_REFUSED = 1 ∧ OnlyRegs [R.ILT_ID_STAT] s.hw h) ∧
    (¬ (s.hw.lifecycle = lcRetired ∨ s.hw.lifecycle = lcSecured ∧ s.hw.fullSession = true) → Gives (.sign) s fun h =>
        h.get R.ILT_ID_STAT_DONE_EV = 1 ∧ h.get R.ILT_ID_STAT_REFUSED = 0 ∧
        (∀ w < 24, h.word (R.ILT_ID_SIG w) = bytesWord (Config.ecdsaSign s.hw.identitySeed (wordsBytes ((List.range 12).map fun i => s.hw.word (R.ILT_ID_DIG i)))) w) ∧
        RegsKept (R.ILT_ID_STAT :: (List.range 24).map R.ILT_ID_SIG) s.hw h ∧ MemKept s.hw h) ∧
    (∀ (hd : List Byte), hd.length = 352 → Gives (.imageVerify hd) s fun h =>
        (let code := (s.hw.imageChecks ⟨hd⟩).1
         h.get R.ILT_BOOT_STAT_RESULT = code ∧ h.get R.ILT_BOOT_STAT_VERIFIED = (if code = 0 then 1 else 0) ∧
         h.get R.ILT_BOOT_STAT_UNVERIFIED = (if s.hw.lifecycle = lcBlank ∧ 3 ≤ code ∧ code ≤ 8 then 1 else 0) ∧
         ((ImageHeader.mk hd).constant = false → code = 1) ∧
         ((ImageHeader.mk hd).constant = true → (ImageHeader.mk hd).placed = false → code = 2) ∧
         ((ImageHeader.mk hd).constant = true → (ImageHeader.mk hd).placed = true → s.hw.lifecycle = lcRetired → code = 11) ∧
         ((ImageHeader.mk hd).constant = true → (ImageHeader.mk hd).placed = true → s.hw.lifecycle ≠ lcRetired →
           (ImageHeader.mk hd).rma ≠ (s.hw.lifecycle == lcReturned) → code = 10)))

/-- R523. With no verified image running, its SVN counts as 0, so every n above 0 is refused (the model's reading, log 36). -/
def Obligations.SecurityVersionCounter : Prop :=
  ∀ s : State, s.hw.mainUp = true → 
    (Gives (.latchingRead 24 (BitVec.ofNat 40 R.ILT_SVN) false) s fun h =>
        kget h.shank.replies 24 = some ⟨24, R.ILT_SVN, 0, bytesLE 4 (((List.range 4).map fun i => (List.range 32).countP fun j => (s.hw.fuse (113 + i)).getLsbD j).sum + 256 * s.hw.get R.ILT_SVN_REFUSED)⟩) ∧
    (∀ (v : Word), ((if s.hw.flag R.ILT_BOOT_STAT_VERIFIED then s.hw.get R.ILT_BOOT_STAT_SVN else 0) < fieldOf v R.ILT_SVN_COUNT ∨ 128 < fieldOf v R.ILT_SVN_COUNT) ∨ s.hw.lifecycle = lcBlank ∨ s.hw.lifecycle = lcRetired → Gives (.svnWrite v) s fun h =>
        h.get R.ILT_SVN_REFUSED = 1 ∧ OnlyRegs [R.ILT_SVN] s.hw h) ∧
    (∀ (v : Word), fieldOf v R.ILT_SVN_COUNT ≤ (if s.hw.flag R.ILT_BOOT_STAT_VERIFIED then s.hw.get R.ILT_BOOT_STAT_SVN else 0) → fieldOf v R.ILT_SVN_COUNT ≤ 128 ∧ s.hw.lifecycle ≠ lcBlank ∧ s.hw.lifecycle ≠ lcRetired → fieldOf v R.ILT_SVN_COUNT ≤ s.hw.securityVersion → Gives (.svnWrite v) s fun h =>
        h.get R.ILT_SVN_REFUSED = (if fieldOf v R.ILT_SVN_REFUSED = 1 then 0 else s.hw.get R.ILT_SVN_REFUSED) ∧ OnlyRegs [R.ILT_SVN] s.hw h) ∧
    (∀ (v : Word), fieldOf v R.ILT_SVN_COUNT ≤ (if s.hw.flag R.ILT_BOOT_STAT_VERIFIED then s.hw.get R.ILT_BOOT_STAT_SVN else 0) → fieldOf v R.ILT_SVN_COUNT ≤ 128 ∧ s.hw.lifecycle ≠ lcBlank ∧ s.hw.lifecycle ≠ lcRetired → s.hw.securityVersion < fieldOf v R.ILT_SVN_COUNT → Gives (.svnWrite v) s fun h =>
        (∀ i < 128, (h.fuse (113 + i / 32)).getLsbD (i % 32) = (decide (i < fieldOf v R.ILT_SVN_COUNT) || (s.hw.fuse (113 + i / 32)).getLsbD (i % 32))) ∧
        (∀ w < 512, w < 113 ∨ 116 < w → h.fuse w = s.hw.fuse w) ∧ h.get R.ILT_SVN_REFUSED = (if fieldOf v R.ILT_SVN_REFUSED = 1 then 0 else s.hw.get R.ILT_SVN_REFUSED) ∧ RegsKept [R.ILT_SVN] s.hw h ∧ MemKept s.hw h)

/-- Debug sessions (R533, R534, R536, R540). A VERIFY without a live challenge counts as failed: the model's reading of R534
(log 36). -/
def Obligations.DebugSessions : Prop :=
  ∀ s : State, s.hw.mainUp = true → 
    (∀ (l : BitVec 2) (c : Instr), c = .req l ∧ (s.hw.inRun = false ∨ l = 0 ∨ l = 3) ∨ c = .verify ∧ s.hw.inRun = false ∨ c = .debugClose ∧ (s.hw.inRun = false ∨ s.hw.get R.ILT_DBG_STAT_LEVEL = 0) → Gives (c) s fun h =>
        Unchanged s.hw h) ∧
    (∀ (l : BitVec 2), s.hw.inRun = true → l = 1 ∨ l = 2 → s.hw.flag R.ILT_DBG_STAT_LOCKOUT = true ∨ debugAccess s.hw.lifecycle l.toNat = .never → Gives (.req l) s fun h =>
        h.get R.ILT_DBG_STAT_CHAL_VALID = 0 ∧ h.get R.ILT_DBG_STAT_LEVEL = s.hw.get R.ILT_DBG_STAT_LEVEL ∧ RegsKept [R.ILT_DBG_STAT] s.hw h ∧ MemKept s.hw h) ∧
    (∀ (l : BitVec 2), s.hw.inRun = true → l = 1 ∨ l = 2 → s.hw.flag R.ILT_DBG_STAT_LOCKOUT = false → debugAccess s.hw.lifecycle l.toNat = .free → Gives (.req l) s fun h =>
        h.get R.ILT_DBG_STAT_LEVEL = l.toNat ∧ h.get R.ILT_DBG_STAT_KEY_USED = 0 ∧ h.get R.ILT_DBG_STAT_CHAL_VALID = 0 ∧ (s.hw.get R.ILT_DBG_STAT_LEVEL ≠ l.toNat → h.get R.ILT_DBG_STAT_CHG_EV = 1) ∧ RegsKept [R.ILT_DBG_STAT] s.hw h ∧ MemKept s.hw h) ∧
    (∀ (l : BitVec 2) (ks : List Nat), s.hw.inRun = true → l = 1 ∨ l = 2 → s.hw.flag R.ILT_DBG_STAT_LOCKOUT = false → debugAccess s.hw.lifecycle l.toNat = .keys ks ∧ (ks.any fun k => s.hw.slotProgrammed (debugSlot k) 12) = true ∧ s.hw.flag R.ILT_RNG_STAT_FAIL = false → Gives (.req l) s fun h =>
        h.get R.ILT_DBG_STAT_CHAL_VALID = 1 ∧ tget h.timers .challenge = some (s.hw.et + 10000000000) ∧ h.iltil.wanted = l.toNat ∧ h.word (R.ILT_DBG_CHAL 8) = s.hw.otpWord 24 ∧ h.word (R.ILT_DBG_CHAL 9) = s.hw.otpWord 25 ∧
        (∀ w < 8, h.word (R.ILT_DBG_CHAL w) = Config.randomWord (s.hw.free + w)) ∧ h.get R.ILT_DBG_STAT_LEVEL = s.hw.get R.ILT_DBG_STAT_LEVEL ∧ RegsKept (R.ILT_DBG_STAT :: (List.range 10).map R.ILT_DBG_CHAL) s.hw h ∧ MemKept s.hw h) ∧
    (∀ (l : BitVec 2) (ks : List Nat), s.hw.inRun = true → l = 1 ∨ l = 2 → s.hw.flag R.ILT_DBG_STAT_LOCKOUT = false → debugAccess s.hw.lifecycle l.toNat = .keys ks ∧ ((ks.any fun k => s.hw.slotProgrammed (debugSlot k) 12) = false ∨ s.hw.flag R.ILT_RNG_STAT_FAIL = true) → Gives (.req l) s fun h =>
        h.get R.ILT_DBG_STAT_CHAL_VALID = 0 ∧ h.get R.ILT_DBG_STAT_LEVEL = s.hw.get R.ILT_DBG_STAT_LEVEL ∧ RegsKept [R.ILT_DBG_STAT] s.hw h ∧ MemKept s.hw h) ∧
    (s.hw.inRun = true → s.hw.flag R.ILT_DBG_STAT_CHAL_VALID = false → Gives (.verify) s fun h =>
        h.get R.ILT_DBG_STAT_FAILS = min (s.hw.get R.ILT_DBG_STAT_FAILS + 1) 3 ∧ (h.get R.ILT_DBG_STAT_FAILS = 3 → h.get R.ILT_DBG_STAT_LOCKOUT = 1) ∧ h.get R.ILT_DBG_STAT_LEVEL = s.hw.get R.ILT_DBG_STAT_LEVEL ∧ OnlyRegs [R.ILT_DBG_STAT] s.hw h) ∧
    (∀ (ks : List Nat), s.hw.inRun = true → s.hw.flag R.ILT_DBG_STAT_CHAL_VALID = true → debugAccess s.hw.lifecycle s.hw.iltil.wanted = .keys ks → s.hw.iltil.wanted < 4 → Gives (.verify) s fun h =>
        (let key := wordsBytes ((List.range 24).map fun w => s.hw.word (R.ILT_DBG_KEY w))
         let sig := wordsBytes ((List.range 24).map fun w => s.hw.word (R.ILT_DBG_SIG w))
         let chal := wordsBytes ((List.range 10).map fun w => s.hw.word (R.ILT_DBG_CHAL w))
         let slot := ks.find? fun k => s.hw.slotProgrammed (debugSlot k) 12 && Config.sha384 (4#8 :: key) == s.hw.otpBytes (debugSlot k) 12
         let good := Config.ecdsaVerify key sig (Config.sha384 (chal ++ [BitVec.ofNat 8 s.hw.iltil.wanted]))
         h.get R.ILT_DBG_STAT_CHAL_VALID = 0 ∧
         (if slot.isSome = true ∧ good = true then h.get R.ILT_DBG_STAT_LEVEL = s.hw.iltil.wanted ∧ h.get R.ILT_DBG_STAT_KEY_USED = slot.getD 0 % 4
          else h.get R.ILT_DBG_STAT_FAILS = min (s.hw.get R.ILT_DBG_STAT_FAILS + 1) 3 ∧ h.get R.ILT_DBG_STAT_LEVEL = s.hw.get R.ILT_DBG_STAT_LEVEL)) ∧
        RegsKept [R.ILT_DBG_STAT] s.hw h ∧ MemKept s.hw h) ∧
    (∀ (d : Nat), tget s.hw.timers .challenge = some d → Gives (.challengeExpire) s fun h =>
        h.get R.ILT_DBG_STAT_CHAL_VALID = 0 ∧ tget h.timers .challenge = none ∧ RegsKept [R.ILT_DBG_STAT] s.hw h ∧ MemKept s.hw h) ∧
    (s.hw.inRun = true → s.hw.get R.ILT_DBG_STAT_LEVEL ≠ 0 → Gives (.debugClose) s fun h =>
        h.get R.ILT_DBG_STAT_LEVEL = 0 ∧ h.get R.ILT_DBG_STAT_KEY_USED = 0 ∧ h.get R.ILT_DBG_CTL_SLEEP_OK = 0 ∧ h.get R.ILT_DBG_STAT_CHG_EV = 1 ∧ OnlyRegs [R.ILT_DBG_STAT, R.ILT_DBG_CTL] s.hw h)

/-- Requests (R543, R544, R546), their records (R560), entry (R541, R545, R547) and the oscillator (R562). -/
def Obligations.PowerRequestsAndEntry : Prop :=
  ∀ s : State, 
    (∀ (c : Instr) (t : Nat), s.hw.mainUp = true → c = .dozeRequest ∧ t = 1 ∨ c = .watchRequest ∧ t = 2 ∨ c = .offRequest ∧ t = 3 ∨ c = .runRequest ∧ t = 0 → s.hw.ps = psFailed ∨ s.hw.ps = psDiagnostic ∨ s.hw.ps = psDoze ∨ s.hw.ps = psWatch ∨ s.hw.ps = psOff → Gives (c) s fun h =>
        h.get R.HEEL_CNT1_REPLACED = min (s.hw.get R.HEEL_CNT1_REPLACED + 1) 65535 ∧ OnlyRegs [R.HEEL_CNT1] s.hw h) ∧
    (∀ (c : Instr) (t : Nat), s.hw.mainUp = true → c = .dozeRequest ∧ t = 1 ∨ c = .watchRequest ∧ t = 2 ∨ c = .offRequest ∧ t = 3 ∨ c = .runRequest ∧ t = 0 → s.hw.ps = psEntering ∨ s.hw.ps = psWaking ∨ s.hw.ps = psRun ∧ s.hw.flag R.ILT_LC_STAT_BUSY = true → Gives (c) s fun h =>
        h.get R.HEEL_PS_STAT_PEND = 1 ∧ h.get R.HEEL_PS_STAT_PEND_TGT = t ∧ h.get R.HEEL_CNT1_REPLACED = (if s.hw.flag R.HEEL_PS_STAT_PEND = true then min (s.hw.get R.HEEL_CNT1_REPLACED + 1) 65535 else s.hw.get R.HEEL_CNT1_REPLACED) ∧ OnlyRegs [R.HEEL_PS_STAT, R.HEEL_CNT1] s.hw h) ∧
    (s.hw.mainUp = true → s.hw.ps = psRun → s.hw.flag R.ILT_LC_STAT_BUSY = false → Gives (.runRequest) s fun h =>
        Unchanged s.hw h) ∧
    (∀ (c : Instr) (t : Nat), s.hw.mainUp = true → c = .dozeRequest ∧ t = 1 ∨ c = .watchRequest ∧ t = 2 ∨ c = .offRequest ∧ t = 3 → s.hw.ps = psRun → s.hw.flag R.ILT_LC_STAT_BUSY = false → s.hw.get R.ILT_DBG_STAT_LEVEL ≠ 0 ∧ s.hw.flag R.ILT_DBG_CTL_SLEEP_OK = false → Gives (c) s fun h =>
        h.ps = psRun ∧ h.get R.HEEL_PS_STAT_REFUSE_EV = 1 ∧ h.get R.HEEL_PS_STAT_LAST_REFUSER = 1 ∧ h.get R.HEEL_CNT0_REFUSED = min (s.hw.get R.HEEL_CNT0_REFUSED + 1) 65535 ∧
        (h.word (R.HEEL_LOG_W0 (s.hw.get R.HEEL_LOG_HEAD_HEAD))).toNat = 1 + 16 * t + 256 * (s.hw.get R.ILT_DBG_STAT_LEVEL % 2 ^ 16) ∧ (h.word (R.HEEL_LOG_W1 (s.hw.get R.HEEL_LOG_HEAD_HEAD))).toNat = s.hw.et / 2 ^ 20 % 2 ^ 32 ∧
        h.get R.HEEL_LOG_HEAD_HEAD = ((s.hw.get R.HEEL_LOG_HEAD_HEAD) + 1) % 16 ∧ h.get R.HEEL_LOG_HEAD_COUNT = min 16 (s.hw.get R.HEEL_LOG_HEAD_COUNT + 1) ∧
        OnlyRegs [R.HEEL_PS_STAT, R.HEEL_CNT0, R.HEEL_LOG_W0 (s.hw.get R.HEEL_LOG_HEAD_HEAD), R.HEEL_LOG_W1 (s.hw.get R.HEEL_LOG_HEAD_HEAD), R.HEEL_LOG_HEAD] s.hw h) ∧
    (∀ (c : Instr) (t : Nat), s.hw.mainUp = true → c = .dozeRequest ∧ t = 1 ∨ c = .watchRequest ∧ t = 2 ∨ c = .offRequest ∧ t = 3 → s.hw.ps = psRun → s.hw.flag R.ILT_LC_STAT_BUSY = false → ¬ (s.hw.get R.ILT_DBG_STAT_LEVEL ≠ 0 ∧ s.hw.flag R.ILT_DBG_CTL_SLEEP_OK = false) → Nat.land (s.hw.get R.HEEL_WAKE_STAT_PEND) (s.hw.enabledSources t) ≠ 0 → Gives (c) s fun h =>
        h.ps = psRun ∧ h.get R.HEEL_PS_STAT_REFUSE_EV = 1 ∧ h.get R.HEEL_PS_STAT_LAST_REFUSER = 3 ∧ h.get R.HEEL_CNT0_REFUSED = min (s.hw.get R.HEEL_CNT0_REFUSED + 1) 65535 ∧
        (h.word (R.HEEL_LOG_W0 (s.hw.get R.HEEL_LOG_HEAD_HEAD))).toNat = 3 + 16 * t + 256 * ((Nat.land (s.hw.get R.HEEL_WAKE_STAT_PEND) (s.hw.enabledSources t)) % 2 ^ 16) ∧ (h.word (R.HEEL_LOG_W1 (s.hw.get R.HEEL_LOG_HEAD_HEAD))).toNat = s.hw.et / 2 ^ 20 % 2 ^ 32 ∧
        h.get R.HEEL_LOG_HEAD_HEAD = ((s.hw.get R.HEEL_LOG_HEAD_HEAD) + 1) % 16 ∧ h.get R.HEEL_LOG_HEAD_COUNT = min 16 (s.hw.get R.HEEL_LOG_HEAD_COUNT + 1) ∧
        OnlyRegs [R.HEEL_PS_STAT, R.HEEL_CNT0, R.HEEL_LOG_W0 (s.hw.get R.HEEL_LOG_HEAD_HEAD), R.HEEL_LOG_W1 (s.hw.get R.HEEL_LOG_HEAD_HEAD), R.HEEL_LOG_HEAD] s.hw h) ∧
    (∀ (c : Instr) (t : Nat), s.hw.mainUp = true → c = .dozeRequest ∧ t = 1 ∨ c = .watchRequest ∧ t = 2 ∨ c = .offRequest ∧ t = 3 → s.hw.ps = psRun → s.hw.flag R.ILT_LC_STAT_BUSY = false → ¬ (s.hw.get R.ILT_DBG_STAT_LEVEL ≠ 0 ∧ s.hw.flag R.ILT_DBG_CTL_SLEEP_OK = false) → Nat.land (s.hw.get R.HEEL_WAKE_STAT_PEND) (s.hw.enabledSources t) = 0 → t = 2 ∧ 300 < s.hw.peak → Gives (c) s fun h =>
        h.ps = psRun ∧ h.get R.HEEL_PS_STAT_REFUSE_EV = 1 ∧ h.get R.HEEL_PS_STAT_LAST_REFUSER = 2 ∧ h.get R.HEEL_CNT0_REFUSED = min (s.hw.get R.HEEL_CNT0_REFUSED + 1) 65535 ∧
        (h.word (R.HEEL_LOG_W0 (s.hw.get R.HEEL_LOG_HEAD_HEAD))).toNat = 2 + 16 * t + 256 * (s.hw.peak % 2 ^ 16) ∧ (h.word (R.HEEL_LOG_W1 (s.hw.get R.HEEL_LOG_HEAD_HEAD))).toNat = s.hw.et / 2 ^ 20 % 2 ^ 32 ∧
        h.get R.HEEL_LOG_HEAD_HEAD = ((s.hw.get R.HEEL_LOG_HEAD_HEAD) + 1) % 16 ∧ h.get R.HEEL_LOG_HEAD_COUNT = min 16 (s.hw.get R.HEEL_LOG_HEAD_COUNT + 1) ∧
        OnlyRegs [R.HEEL_PS_STAT, R.HEEL_CNT0, R.HEEL_LOG_W0 (s.hw.get R.HEEL_LOG_HEAD_HEAD), R.HEEL_LOG_W1 (s.hw.get R.HEEL_LOG_HEAD_HEAD), R.HEEL_LOG_HEAD] s.hw h) ∧
    (∀ (c : Instr) (t : Nat) (code detail : Nat), s.hw.mainUp = true → c = .dozeRequest ∧ t = 1 ∨ c = .watchRequest ∧ t = 2 ∨ c = .offRequest ∧ t = 3 → s.hw.ps = psRun → s.hw.flag R.ILT_LC_STAT_BUSY = false → s.hw.entryRefuser t = some (code, detail) → code < 9 → Gives (c) s fun h =>
        h.ps = psRun ∧ h.get R.HEEL_PS_STAT_REFUSE_EV = 1 ∧ h.get R.HEEL_PS_STAT_LAST_REFUSER = code ∧ h.get R.HEEL_CNT0_REFUSED = min (s.hw.get R.HEEL_CNT0_REFUSED + 1) 65535 ∧
        (h.word (R.HEEL_LOG_W0 (s.hw.get R.HEEL_LOG_HEAD_HEAD))).toNat = code + 16 * t + 256 * (detail % 2 ^ 16) ∧ (h.word (R.HEEL_LOG_W1 (s.hw.get R.HEEL_LOG_HEAD_HEAD))).toNat = s.hw.et / 2 ^ 20 % 2 ^ 32 ∧
        h.get R.HEEL_LOG_HEAD_HEAD = ((s.hw.get R.HEEL_LOG_HEAD_HEAD) + 1) % 16 ∧ h.get R.HEEL_LOG_HEAD_COUNT = min 16 (s.hw.get R.HEEL_LOG_HEAD_COUNT + 1) ∧
        OnlyRegs [R.HEEL_PS_STAT, R.HEEL_CNT0, R.HEEL_LOG_W0 (s.hw.get R.HEEL_LOG_HEAD_HEAD), R.HEEL_LOG_W1 (s.hw.get R.HEEL_LOG_HEAD_HEAD), R.HEEL_LOG_HEAD] s.hw h) ∧
    (∀ (t : Nat), s.hw.mainUp = true → t = 1 → s.hw.ps = psRun → s.hw.flag R.ILT_LC_STAT_BUSY = false → s.hw.entryRefuser t = none → Gives (.dozeRequest) s fun h =>
        h.ps = psEntering ∧ h.heel.target = t ∧ h.heel.wake = none ∧ h.get R.ILT_DBG_STAT_LEVEL = 0 ∧ h.heel.saved = some s.hw.saveList ∧
        (if s.hw.drcIdle = true then h.acknowledged = true ∧ h.iltil.entryCnt = (s.hw.iltil.entryCnt + 1) % 2 ^ 64 ∧ h.iltil.tag = some h.saveTag
        else h.acknowledged = false ∧ tget h.timers .selfRefresh = some (s.hw.et + 100000)) ∧
        RegsKept [R.HEEL_PS_STAT, R.ILT_DBG_STAT, R.ILT_DBG_CTL] s.hw h ∧ MemKeptBut 0x30000000 0x8000 s.hw h) ∧
    (∀ (t : Nat), s.hw.mainUp = true → t = 2 → s.hw.ps = psRun → s.hw.flag R.ILT_LC_STAT_BUSY = false → s.hw.entryRefuser t = none → Gives (.watchRequest) s fun h =>
        h.ps = psEntering ∧ h.heel.target = t ∧ h.heel.wake = none ∧ h.get R.ILT_DBG_STAT_LEVEL = 0 ∧ h.heel.saved = some s.hw.saveList ∧
        (if s.hw.drcIdle = true then h.acknowledged = true ∧ h.iltil.entryCnt = (s.hw.iltil.entryCnt + 1) % 2 ^ 64 ∧ h.iltil.tag = some h.saveTag
        else h.acknowledged = false ∧ tget h.timers .selfRefresh = some (s.hw.et + 100000)) ∧
        RegsKept [R.HEEL_PS_STAT, R.ILT_DBG_STAT, R.ILT_DBG_CTL] s.hw h ∧ MemKeptBut 0x30000000 0x8000 s.hw h) ∧
    (∀ (t : Nat), s.hw.mainUp = true → t = 3 → s.hw.ps = psRun → s.hw.flag R.ILT_LC_STAT_BUSY = false → s.hw.entryRefuser t = none → Gives (.offRequest) s fun h =>
        h.ps = psEntering ∧ h.heel.target = t ∧ h.heel.wake = none ∧ h.get R.ILT_DBG_STAT_LEVEL = 0 ∧ h.heel.saved = s.hw.heel.saved ∧
        (if s.hw.drcIdle = true then h.acknowledged = true
        else h.acknowledged = false ∧ tget h.timers .selfRefresh = some (s.hw.et + 100000)) ∧
        RegsKept [R.HEEL_PS_STAT, R.ILT_DBG_STAT, R.ILT_DBG_CTL] s.hw h ∧ MemKept s.hw h) ∧
    (∀ (v : Word) (hz : Nat), s.hw.mainUp = true → fieldOf v R.HEEL_CTL_OSC_SEL = 0 ∧ s.hw.get R.HEEL_CTL_OSC_SEL = 1 → Gives (.oscSelWrite v hz) s fun h =>
        (if (32768 * 99 ≤ 100 * hz ∧ 100 * hz ≤ 32768 * 101) then h.get R.HEEL_CTL_OSC_SEL = 0 ∧ h.get R.HEEL_CTL_XTAL_FAIL = 0 else h.get R.HEEL_CTL_OSC_SEL = 1 ∧ h.get R.HEEL_CTL_XTAL_FAIL = 1) ∧ h.get R.HEEL_CTL_DIAG_EN = fieldOf v R.HEEL_CTL_DIAG_EN ∧ h.get R.HEEL_CTL_OFF_WAIT = max 1 (fieldOf v R.HEEL_CTL_OFF_WAIT) ∧ OnlyRegs [R.HEEL_CTL] s.hw h) ∧
    (∀ (v : Word) (hz : Nat), s.hw.mainUp = true → ¬ (fieldOf v R.HEEL_CTL_OSC_SEL = 0 ∧ s.hw.get R.HEEL_CTL_OSC_SEL = 1) → Gives (.oscSelWrite v hz) s fun h =>
        h.get R.HEEL_CTL_OSC_SEL = fieldOf v R.HEEL_CTL_OSC_SEL ∧ h.get R.HEEL_CTL_DIAG_EN = fieldOf v R.HEEL_CTL_DIAG_EN ∧ h.get R.HEEL_CTL_OFF_WAIT = max 1 (fieldOf v R.HEEL_CTL_OFF_WAIT) ∧ OnlyRegs [R.HEEL_CTL] s.hw h) ∧
    (∀ (t : Nat), s.hw.ps = psEntering → s.hw.acknowledged = true → s.hw.heel.target = t ∧ 1 ≤ t ∧ t ≤ 3 → s.hw.heel.wake = none → s.hw.flag R.HEEL_PS_STAT_PEND = false → Gives (.entryComplete) s fun h =>
        h.ps = t + 1 ∧ h.get R.HEEL_PS_STAT_PEND = 0 ∧ h.mainUp = false ∧ h.heel.powered = false ∧ h.heel.entryEt = s.hw.et ∧ h.heel.ntEntry = s.hw.nt ∧ h.et = s.hw.et ∧ h.heel.refEn = (t == 1) ∧ h.heel.coreEn = (t == 1) ∧ h.heel.railEn = false ∧
        (t ≠ 3 → tget h.timers .watch = some s.hw.et) ∧ h.boot.reset = some (if t = 3 then 2 else 7) ∧ ZeroIn 0x10000000 0x1800000 h ∧ ZeroIn 0x20000000 0x800000 h ∧ MemKeptOff [(0x10000000, 0x1800000), (0x20000000, 0x800000)] s.hw h) ∧
    (∀ (t k : Nat), s.hw.ps = psEntering → s.hw.acknowledged = true → s.hw.heel.target = t ∧ 1 ≤ t ∧ t ≤ 3 → s.hw.heel.wake = some k ∧ k < 16 → Gives (.entryComplete) s fun h =>
        h.ps = psWaking ∧ h.get R.HEEL_WAKE_STAT_CAUSE = k ∧ h.get R.HEEL_WFAIL_FROM = t + 1 ∧ h.heel.refEn = true ∧ h.heel.coreEn = true ∧ h.heel.railEn = true ∧ tget h.timers (.wakeTry 2) = some (h.et + 2000000) ∧ h.get R.HEEL_PS_STAT_PEND = 0 ∧ h.mainUp = false ∧ h.heel.powered = false ∧ h.heel.entryEt = s.hw.et ∧ h.heel.ntEntry = s.hw.nt ∧ h.et = s.hw.et ∧ ZeroIn 0x10000000 0x1800000 h ∧ ZeroIn 0x20000000 0x800000 h ∧ MemKeptOff [(0x10000000, 0x1800000), (0x20000000, 0x800000)] s.hw h) ∧
    (s.hw.ps ≠ psEntering ∨ s.hw.acknowledged = false → Gives (.entryComplete) s fun h =>
        Unchanged s.hw h)

/-- The Watch duty cycle (R552 to R554), the Ethernet wake detector (R387), wakes (R546, R549, R550) and their failure (R557,
R558). A source that does not match passes the turn on: the model's reading (log 37). -/
def Obligations.WakeSourcesAndWakes : Prop :=
  ∀ s : State, 
    (∀ (d : Nat), tget s.hw.timers .watch = some d → s.hw.ps = psDoze ∨ s.hw.ps = psWatch → Gives (.watchPeriodStart) s fun h =>
        h.heel.period = s.hw.heel.period + 1 ∧ h.heel.slot = (if s.hw.heel.wake.isSome = true then 0 else 1) ∧ tget h.timers .watch = some (s.hw.heel.entryEt + (s.hw.heel.period + 1) * s.hw.get R.HEEL_WATCH_CFG_PERIOD * 1000000) ∧ RegsKept [] s.hw h ∧ MemKept s.hw h) ∧
    (∀ (w : WurSight), (s.hw.ps = psDoze ∨ s.hw.ps = psWatch) ∧ s.hw.heel.slot ≠ 0 ∧ s.hw.heel.slot ≤ 1 ∧ (s.hw.word R.HEEL_WAKE_EN).toNat.testBit 1 = true → (s.hw.enabledSources s.hw.heel.target).testBit (1) = true → s.hw.wurMatches w = true → Gives (.wurMatch w) s fun h =>
        h.get R.HEEL_WAKE_STAT_PEND = Nat.lor (s.hw.get R.HEEL_WAKE_STAT_PEND) (2 ^ (1)) % 256 ∧ h.get R.HEEL_WAKE_STAT_CAUSE = (1 + 1) % 16 ∧ h.heel.wake = some (s.hw.heel.wake.getD (1 + 1)) ∧ h.heel.slot = 0 ∧
        h.get R.HEEL_WAKE_ET_LO_ET + 2 ^ 32 * h.get R.HEEL_WAKE_ET_HI_ET = s.hw.et % 2 ^ 64 ∧ MemKept s.hw h ∧ RegsKept [R.HEEL_WAKE_STAT, R.HEEL_WAKE_ET_LO, R.HEEL_WAKE_ET_HI] s.hw h) ∧
    (∀ (w : WurSight), (s.hw.ps = psDoze ∨ s.hw.ps = psWatch) ∧ s.hw.heel.slot ≠ 0 ∧ s.hw.heel.slot ≤ 1 ∧ (s.hw.word R.HEEL_WAKE_EN).toNat.testBit 1 = true → ¬ s.hw.wurMatches w = true → Gives (.wurMatch w) s fun h =>
        h.heel.slot = 2 ∧ h.heel.wake = s.hw.heel.wake ∧ RegsKept [] s.hw h ∧ MemKept s.hw h) ∧
    (∀ (w : WurSight), ¬ ((s.hw.ps = psDoze ∨ s.hw.ps = psWatch) ∧ s.hw.heel.slot ≠ 0 ∧ s.hw.heel.slot ≤ 1 ∧ (s.hw.word R.HEEL_WAKE_EN).toNat.testBit 1 = true) → Gives (.wurMatch w) s fun h =>
        Unchanged s.hw h) ∧
    (∀ (t : Int), (s.hw.ps = psDoze ∨ s.hw.ps = psWatch) ∧ s.hw.heel.slot ≠ 0 ∧ s.hw.heel.slot ≤ 2 ∧ (s.hw.word R.HEEL_WAKE_EN).toNat.testBit 2 = true → (s.hw.enabledSources s.hw.heel.target).testBit (2) = true → (s.hw.getI R.HEEL_CMP_CFG_T_HI ≤ t ∨ t ≤ s.hw.getI R.HEEL_CMP_CFG_T_LO) → Gives (.tempCompare t) s fun h =>
        h.get R.HEEL_WAKE_STAT_PEND = Nat.lor (s.hw.get R.HEEL_WAKE_STAT_PEND) (2 ^ (2)) % 256 ∧ h.get R.HEEL_WAKE_STAT_CAUSE = (2 + 1) % 16 ∧ h.heel.wake = some (s.hw.heel.wake.getD (2 + 1)) ∧ h.heel.slot = 0 ∧
        h.get R.HEEL_WAKE_ET_LO_ET + 2 ^ 32 * h.get R.HEEL_WAKE_ET_HI_ET = s.hw.et % 2 ^ 64 ∧ MemKept s.hw h ∧ RegsKept [R.HEEL_WAKE_STAT, R.HEEL_WAKE_ET_LO, R.HEEL_WAKE_ET_HI] s.hw h) ∧
    (∀ (t : Int), (s.hw.ps = psDoze ∨ s.hw.ps = psWatch) ∧ s.hw.heel.slot ≠ 0 ∧ s.hw.heel.slot ≤ 2 ∧ (s.hw.word R.HEEL_WAKE_EN).toNat.testBit 2 = true → ¬ (s.hw.getI R.HEEL_CMP_CFG_T_HI ≤ t ∨ t ≤ s.hw.getI R.HEEL_CMP_CFG_T_LO) → Gives (.tempCompare t) s fun h =>
        h.heel.slot = 3 ∧ h.heel.wake = s.hw.heel.wake ∧ RegsKept [] s.hw h ∧ MemKept s.hw h) ∧
    (∀ (t : Int), ¬ ((s.hw.ps = psDoze ∨ s.hw.ps = psWatch) ∧ s.hw.heel.slot ≠ 0 ∧ s.hw.heel.slot ≤ 2 ∧ (s.hw.word R.HEEL_WAKE_EN).toNat.testBit 2 = true) → Gives (.tempCompare t) s fun h =>
        Unchanged s.hw h) ∧
    (∀ (mv : Nat), (s.hw.ps = psDoze ∨ s.hw.ps = psWatch) ∧ s.hw.heel.slot ≠ 0 ∧ s.hw.heel.slot ≤ 3 ∧ (s.hw.word R.HEEL_WAKE_EN).toNat.testBit 3 = true → (s.hw.enabledSources s.hw.heel.target).testBit (3) = true → (if s.hw.flag R.HEEL_CMP_CFG_V_POL = true then 5 * s.hw.get R.HEEL_CMP_CFG_V_TH < mv else mv < 5 * s.hw.get R.HEEL_CMP_CFG_V_TH) → Gives (.supplyCompare mv) s fun h =>
        h.get R.HEEL_WAKE_STAT_PEND = Nat.lor (s.hw.get R.HEEL_WAKE_STAT_PEND) (2 ^ (3)) % 256 ∧ h.get R.HEEL_WAKE_STAT_CAUSE = (3 + 1) % 16 ∧ h.heel.wake = some (s.hw.heel.wake.getD (3 + 1)) ∧ h.heel.slot = 0 ∧
        h.get R.HEEL_WAKE_ET_LO_ET + 2 ^ 32 * h.get R.HEEL_WAKE_ET_HI_ET = s.hw.et % 2 ^ 64 ∧ MemKept s.hw h ∧ RegsKept [R.HEEL_WAKE_STAT, R.HEEL_WAKE_ET_LO, R.HEEL_WAKE_ET_HI] s.hw h) ∧
    (∀ (mv : Nat), (s.hw.ps = psDoze ∨ s.hw.ps = psWatch) ∧ s.hw.heel.slot ≠ 0 ∧ s.hw.heel.slot ≤ 3 ∧ (s.hw.word R.HEEL_WAKE_EN).toNat.testBit 3 = true → ¬ (if s.hw.flag R.HEEL_CMP_CFG_V_POL = true then 5 * s.hw.get R.HEEL_CMP_CFG_V_TH < mv else mv < 5 * s.hw.get R.HEEL_CMP_CFG_V_TH) → Gives (.supplyCompare mv) s fun h =>
        h.heel.slot = 4 ∧ h.heel.wake = s.hw.heel.wake ∧ RegsKept [] s.hw h ∧ MemKept s.hw h) ∧
    (∀ (mv : Nat), ¬ ((s.hw.ps = psDoze ∨ s.hw.ps = psWatch) ∧ s.hw.heel.slot ≠ 0 ∧ s.hw.heel.slot ≤ 3 ∧ (s.hw.word R.HEEL_WAKE_EN).toNat.testBit 3 = true) → Gives (.supplyCompare mv) s fun h =>
        Unchanged s.hw h) ∧
    (∀ (n : Fin 4) (high : Bool), s.hw.ps ≠ psWatch → ¬ (high != (s.hw.get R.HEEL_PIN_CFG_POL).testBit n) = true → Gives (.wakePin n high) s fun h =>
        Unchanged s.hw h) ∧
    (∀ (n : Fin 4) (high : Bool), s.hw.ps = psDoze ∨ s.hw.ps = psOff → s.hw.heel.por = false → (high != (s.hw.get R.HEEL_PIN_CFG_POL).testBit n) = true → (s.hw.enabledSources s.hw.heel.target).testBit (4 + n.val) = true → Gives (.wakePin n high) s fun h =>
        h.get R.HEEL_WAKE_STAT_PEND = Nat.lor (s.hw.get R.HEEL_WAKE_STAT_PEND) (2 ^ (4 + n.val)) % 256 ∧ h.get R.HEEL_WAKE_STAT_CAUSE = (4 + n.val + 1) % 16 ∧ h.heel.wake = some (s.hw.heel.wake.getD (4 + n.val + 1)) ∧ h.heel.slot = 0 ∧
        h.get R.HEEL_WAKE_ET_LO_ET + 2 ^ 32 * h.get R.HEEL_WAKE_ET_HI_ET = s.hw.et % 2 ^ 64 ∧ MemKept s.hw h ∧ RegsKept [R.HEEL_WAKE_STAT, R.HEEL_WAKE_ET_LO, R.HEEL_WAKE_ET_HI] s.hw h) ∧
    (∀ (n : Fin 4) (high : Bool), s.hw.ps = psRun ∨ s.hw.ps = psWaking ∨ s.hw.ps = psDiagnostic → s.hw.heel.por = false → (high != (s.hw.get R.HEEL_PIN_CFG_POL).testBit n) = true → Gives (.wakePin n high) s fun h =>
        h.get R.HEEL_WAKE_STAT_PEND = Nat.lor (s.hw.get R.HEEL_WAKE_STAT_PEND) (2 ^ (4 + n.val)) % 256 ∧ OnlyRegs [R.HEEL_WAKE_STAT] s.hw h) ∧
    (∀ (w : WakeSight) (k j : Nat), s.hw.ps = psDoze → s.hw.fromSaved.flag R.ETH_WAKE_CTL_EN = true → s.hw.fromSaved.wakeCause w = some (k, j) → k < 4 ∧ j < 8 → (s.hw.enabledSources s.hw.heel.target).testBit (0) = true → Gives (.wakeFrameDetect w) s fun h =>
        h.get R.ETH_WAKE_STAT_CAUSE = k ∧ h.get R.ETH_WAKE_STAT_PAT = j ∧ h.get R.HEEL_WAKE_STAT_PEND = Nat.lor (s.hw.get R.HEEL_WAKE_STAT_PEND) (2 ^ (0)) % 256 ∧ h.get R.HEEL_WAKE_STAT_CAUSE = (0 + 1) % 16 ∧ h.heel.wake = some (s.hw.heel.wake.getD (0 + 1)) ∧ h.heel.slot = 0 ∧
        h.get R.HEEL_WAKE_ET_LO_ET + 2 ^ 32 * h.get R.HEEL_WAKE_ET_HI_ET = s.hw.et % 2 ^ 64 ∧ MemKept s.hw h ∧ RegsKept [R.ETH_WAKE_STAT, R.HEEL_WAKE_STAT, R.HEEL_WAKE_ET_LO, R.HEEL_WAKE_ET_HI] s.hw h) ∧
    (∀ (w : WakeSight), s.hw.ps ≠ psDoze ∨ s.hw.fromSaved.flag R.ETH_WAKE_CTL_EN = false ∨ s.hw.fromSaved.wakeCause w = none → Gives (.wakeFrameDetect w) s fun h =>
        Unchanged s.hw h) ∧
    (∀ (k : Nat), s.hw.heel.wake = some k ∧ k < 16 → s.hw.asleep = true → Gives (.wakeStart) s fun h =>
        h.ps = psWaking ∧ h.get R.HEEL_WAKE_STAT_CAUSE = k ∧ h.get R.HEEL_WFAIL_FROM = s.hw.ps ∧ h.get R.HEEL_WFAIL_TRIES = 0 ∧ h.heel.refEn = true ∧ h.heel.coreEn = true ∧ h.heel.railEn = true ∧ tget h.timers (.wakeTry 2) = some (h.et + 2000000) ∧ h.heel.wake = none ∧ h.et = s.hw.et ∧
        (s.hw.heel.coreEn = false → tget h.timers (.wakeTry 1) = some (h.et + 2000000)) ∧ (s.hw.heel.refEn = false → tget h.timers (.wakeTry 3) = some (h.et + 10000000)) ∧ RegsKept [R.HEEL_PS_STAT, R.HEEL_WAKE_STAT, R.HEEL_WFAIL] s.hw h ∧ MemKept s.hw h) ∧
    (s.hw.heel.wake = none ∨ s.hw.asleep = false → Gives (.wakeStart) s fun h =>
        Unchanged s.hw h) ∧
    (∀ (rail : Bool), s.hw.ps = psWaking → (if rail then s.hw.heel.railEn else s.hw.heel.coreEn) = true → Gives (.powerGood rail) s fun h =>
        (if rail then h.heel.railPg else h.heel.corePg) = true ∧ (h.heel.powered = (s.hw.heel.powered || (h.heel.corePg && h.heel.railPg && h.heel.refOk))) ∧ tget h.timers (.wakeTry (if rail then 2 else 1)) = none ∧ RegsKept [] s.hw h ∧ MemKept s.hw h) ∧
    (∀ (rail : Bool), s.hw.ps ≠ psWaking ∨ (if rail then s.hw.heel.railEn else s.hw.heel.coreEn) = false → Gives (.powerGood rail) s fun h =>
        Unchanged s.hw h) ∧
    (∀ (n d : Nat), s.hw.ps = psWaking → tget s.hw.timers .refWindow = some d → 37891 ≤ n ∧ n ≤ 40234 → Gives (.referenceWindowEnd n) s fun h =>
        h.heel.refOk = true ∧ (h.heel.powered = (s.hw.heel.powered || (h.heel.corePg && h.heel.railPg && h.heel.refOk))) ∧ tget h.timers (.wakeTry 3) = none ∧ tget h.timers .refWindow = none ∧ RegsKept [] s.hw h ∧ MemKept s.hw h) ∧
    (∀ (n d : Nat), s.hw.ps = psWaking → tget s.hw.timers .refWindow = some d → n < 37891 ∨ 40234 < n → Gives (.referenceWindowEnd n) s fun h =>
        h.heel.windows = s.hw.heel.windows + 1 ∧ h.heel.refOk = s.hw.heel.refOk ∧ h.heel.powered = s.hw.heel.powered ∧ tget h.timers .refWindow = some (s.hw.heel.refStart + (s.hw.heel.windows + 2) * 1953125 / 2) ∧ RegsKept [] s.hw h ∧ MemKept s.hw h) ∧
    (∀ (k : Fin 3) (d : Nat), s.hw.ps = psWaking → s.hw.heel.powered = false → tget s.hw.timers (.wakeTry (k.val + 1)) = some d → s.hw.get R.HEEL_WFAIL_TRIES < 2 → Gives (.wakeTryFail k) s fun h =>
        h.get R.HEEL_WFAIL_STEP = k.val + 1 ∧ h.get R.HEEL_WFAIL_TRIES = s.hw.get R.HEEL_WFAIL_TRIES + 1 ∧ h.heel.refEn = false ∧ h.heel.coreEn = false ∧ h.heel.railEn = false ∧ h.ps = psWaking ∧ tget h.timers .offWait = some ((s.hw.advanceTo d).et + s.hw.get R.HEEL_CTL_OFF_WAIT * 1000000) ∧ RegsKept [R.HEEL_WFAIL] s.hw h ∧ MemKept s.hw h) ∧
    (∀ (k : Fin 3) (d : Nat), s.hw.ps = psWaking → s.hw.heel.powered = false → tget s.hw.timers (.wakeTry (k.val + 1)) = some d → s.hw.get R.HEEL_WFAIL_TRIES = 2 → Gives (.wakeTryFail k) s fun h =>
        h.get R.HEEL_WFAIL_STEP = k.val + 1 ∧ h.get R.HEEL_WFAIL_TRIES = 3 ∧ h.get R.HEEL_PS_STAT_PEND = 0 ∧ h.heel.fault = true ∧
        (if k.val = 2 ∧ s.hw.flag R.HEEL_CTL_DIAG_EN = true then h.ps = psDiagnostic ∧ h.boot.reset = some 6 ∧ h.heel.coreEn = true ∧ h.heel.railEn = true ∧ h.heel.refEn = false ∧ h.heel.powered = true
        else h.ps = psFailed ∧ h.heel.refEn = false ∧ h.heel.coreEn = false ∧ h.heel.railEn = false) ∧ MemKept s.hw h) ∧
    (∀ (d : Nat), s.hw.ps = psWaking → tget s.hw.timers .offWait = some d → Gives (.offWaitEnd) s fun h =>
        h.ps = psWaking ∧ h.heel.refEn = true ∧ h.heel.coreEn = true ∧ h.heel.railEn = true ∧ tget h.timers (.wakeTry 2) = some (h.et + 2000000) ∧ tget h.timers .offWait = none ∧ RegsKept [] s.hw h ∧ MemKept s.hw h) ∧
    (s.hw.mainUp = true → s.hw.ps ≠ psWaking ∨ s.hw.get R.SYS_RST_REC_CAUSE ≠ 7 ∨ s.hw.boot.restored = true → Gives (.tagCheck) s fun h =>
        Unchanged s.hw h) ∧
    (s.hw.mainUp = true → s.hw.ps = psWaking → s.hw.get R.SYS_RST_REC_CAUSE = 7 ∧ s.hw.boot.restored = false → s.hw.iltil.tag = none → Gives (.tagCheck) s fun h =>
        h.boot.reset = some 4 ∧ h.boot.waits = true ∧ h.boot.restored = false ∧ h.mainUp = false ∧ MemKept s.hw h) ∧
    (s.hw.mainUp = true → s.hw.ps = psWaking → s.hw.get R.SYS_RST_REC_CAUSE = 7 ∧ s.hw.boot.restored = false → s.hw.boot.waits = true → Gives (.tagCheck) s fun h =>
        (s.hw.iltil.tag = some s.hw.saveTag → h.boot.restored = true ∧ h.boot.reset = none) ∧ (s.hw.iltil.tag ≠ some s.hw.saveTag → h.boot.restored = false ∧ h.boot.reset = some 4)) ∧
    (s.hw.mainUp = true → s.hw.ps = psWaking → s.hw.boot.restored = true ∧ s.hw.boot.waits = false → s.hw.drcState ≠ drcSelfRefresh → s.hw.flag R.HEEL_PS_STAT_PEND = false → Gives (.wakeComplete) s fun h =>
        h.ps = psRun ∧ h.get R.HEEL_PS_STAT_WAKE_EV = 1 ∧ h.get R.HEEL_CNT1_WAKES = min (s.hw.get R.HEEL_CNT1_WAKES + 1) 65535 ∧ OnlyRegs [R.HEEL_PS_STAT, R.HEEL_CNT1] s.hw h) ∧
    (s.hw.mainUp = true → s.hw.ps ≠ psWaking ∨ s.hw.boot.restored = false ∨ s.hw.boot.waits = true ∨ s.hw.drcState = drcSelfRefresh → Gives (.wakeComplete) s fun h =>
        Unchanged s.hw h)

/-- R494, in the order of R544. -/
def Obligations.LockHeldRefusesEntry : Prop :=
  ∀ s : State, s.hw.mainUp = true → 
    (∀ (c : Instr) (t : Nat) (i : Nat), c = .dozeRequest ∧ t = 1 ∨ c = .watchRequest ∧ t = 2 ∨ c = .offRequest ∧ t = 3 → s.hw.ps = psRun → s.hw.flag R.ILT_LC_STAT_BUSY = false → i < 1024 ∧ s.hw.get (R.SHK_LOCK_STAT_HELD i) = 1 → Gives (c) s fun h =>
        h.ps = psRun ∧ h.get R.HEEL_PS_STAT_REFUSE_EV = 1 ∧ h.get R.HEEL_CNT0_REFUSED = min (s.hw.get R.HEEL_CNT0_REFUSED + 1) 65535 ∧
        (¬ (s.hw.get R.ILT_DBG_STAT_LEVEL ≠ 0 ∧ s.hw.flag R.ILT_DBG_CTL_SLEEP_OK = false) → Nat.land (s.hw.get R.HEEL_WAKE_STAT_PEND) (s.hw.enabledSources t) = 0 → ¬ (t = 2 ∧ 300 < s.hw.peak) → (∀ j < i, s.hw.get (R.SHK_LOCK_STAT_HELD j) ≠ 1) →
         h.get R.HEEL_PS_STAT_LAST_REFUSER = 8 ∧ (h.word (R.HEEL_LOG_W0 (s.hw.get R.HEEL_LOG_HEAD_HEAD))).toNat = 8 + 16 * t + 256 * i) ∧
        OnlyRegs [R.HEEL_PS_STAT, R.HEEL_CNT0, R.HEEL_LOG_W0 (s.hw.get R.HEEL_LOG_HEAD_HEAD), R.HEEL_LOG_W1 (s.hw.get R.HEEL_LOG_HEAD_HEAD), R.HEEL_LOG_HEAD] s.hw h)

/-- Loss of the Heel (R556), power-on (R565), the main-domain reset (R484, R493, R566 to R568) and its record (R569). A
software reset asked for while a lifecycle command runs is left to that command's own reset (R567). -/
def Obligations.LossResetAndRelease : Prop :=
  ∀ s : State, 
    (Gives (.brownOut) s fun h =>
        h.heel.por = true ∧ h.heel.powered = false ∧ h.mainUp = false ∧ h.et = 0 ∧ h.etErr = 0 ∧ h.get R.HEEL_BOR_BOR = 1 ∧ h.timers = [] ∧ RegsKept ([R.HEEL_BOR, R.SYS_RST_REC] ++ (resetTrims 0 4 ++ resetTrims 1 4 ++ resetTrims 2 8).map Prod.fst) Hw.reset h ∧
        ZeroIn 0x10000000 0x1800000 h ∧ ZeroIn 0x20000000 0x800000 h ∧ h.byte 0x30000000 = Config.freeByte s.hw.free ∧ h.byte 0x3003FFFF = Config.freeByte (s.hw.free + 0x3FFFF) ∧
        MemKeptOff [(0x10000000, 0x1800000), (0x20000000, 0x800000), (0x30000000, 0x40000)] s.hw h ∧ h.iltil.latch = 0 ∧ (s.hw.iltil.otpJob = none → s.hw.iltil.lcJob = none → h.iltil.otp = s.hw.iltil.otp)) ∧
    (Gives (.vddHeelInLoss) s fun h =>
        h.heel.por = true ∧ h.heel.powered = false ∧ h.mainUp = false ∧ h.et = 0 ∧ h.etErr = 0 ∧ h.get R.HEEL_BOR_BOR = 0 ∧ h.timers = [] ∧ RegsKept ([R.HEEL_BOR, R.SYS_RST_REC] ++ (resetTrims 0 4 ++ resetTrims 1 4 ++ resetTrims 2 8).map Prod.fst) Hw.reset h ∧
        ZeroIn 0x10000000 0x1800000 h ∧ ZeroIn 0x20000000 0x800000 h ∧ h.byte 0x30000000 = Config.freeByte s.hw.free ∧ h.byte 0x3003FFFF = Config.freeByte (s.hw.free + 0x3FFFF) ∧
        MemKeptOff [(0x10000000, 0x1800000), (0x20000000, 0x800000), (0x30000000, 0x40000)] s.hw h ∧ h.iltil.latch = 0 ∧ (s.hw.iltil.otpJob = none → s.hw.iltil.lcJob = none → h.iltil.otp = s.hw.iltil.otp)) ∧
    (s.hw.heel.por = true → Gives (.heelPorRelease) s fun h =>
        h.heel.por = false ∧ h.et = (s.hw.advance 1000000).et ∧ h.ps = psWaking ∧ h.get R.HEEL_WFAIL_FROM = psOff ∧ h.boot.reset = some (s.hw.get R.HEEL_BOR_BOR) ∧ h.heel.refEn = true ∧ h.heel.coreEn = true ∧ h.heel.railEn = true ∧ tget h.timers (.wakeTry 2) = some (h.et + 2000000) ∧ RegsKept [R.HEEL_PS_STAT, R.HEEL_WFAIL] s.hw h ∧ MemKept s.hw h) ∧
    (s.hw.heel.por = false → Gives (.heelPorRelease) s fun h =>
        Unchanged s.hw h) ∧
    (∀ (k : Nat), s.hw.boot.reset = some k ∧ k < 8 → s.hw.heel.powered = true → k ≠ 7 → Gives (.mainResetRelease) s fun h =>
        h.mainUp = true ∧ h.get R.SYS_RST_REC_CAUSE = k ∧ h.get R.SYS_RST_REC_PREV = s.hw.get R.SYS_RST_REC_CAUSE ∧ h.get R.SYS_RST_REC_HEEL_LOST = (if k ≤ 1 then 1 else 0) ∧ h.get R.ILT_LC_STAT_STATE = h.lifecycleOf ∧ h.iltil.shadow = h.iltil.otp ∧ h.iltil.otp = s.hw.iltil.otp ∧
        (∀ x < 3, ∀ c < 8, chainExists x c = true → h.word (R.PHY_RSSI_CAL x c) = (Config.rssiTrim (8 * x + c)).setWidth 32) ∧ h.get R.SYS_RST_REC_COLD_CNT = min (s.hw.get R.SYS_RST_REC_COLD_CNT + 1) 65535 ∧ (k ≠ 6 → h.ps = psRun) ∧ (k = 6 → h.ps = s.hw.ps) ∧ ZeroIn 0x1000000000 0x200000000 h ∧ MemKeptBut 0x1000000000 0xF000000000 s.hw h) ∧
    (∀ (k : Nat), s.hw.boot.reset = some k ∧ k < 8 → s.hw.heel.powered = true → k = 7 → Gives (.mainResetRelease) s fun h =>
        h.mainUp = true ∧ h.get R.SYS_RST_REC_CAUSE = k ∧ h.get R.SYS_RST_REC_PREV = s.hw.get R.SYS_RST_REC_CAUSE ∧ h.get R.SYS_RST_REC_HEEL_LOST = (if k ≤ 1 then 1 else 0) ∧ h.get R.ILT_LC_STAT_STATE = h.lifecycleOf ∧ h.iltil.shadow = h.iltil.otp ∧ h.iltil.otp = s.hw.iltil.otp ∧
        (∀ x < 3, ∀ c < 8, chainExists x c = true → h.word (R.PHY_RSSI_CAL x c) = (Config.rssiTrim (8 * x + c)).setWidth 32) ∧ h.get R.SYS_RST_REC_COLD_CNT = s.hw.get R.SYS_RST_REC_COLD_CNT ∧ h.ps = s.hw.ps ∧ MemKept s.hw h) ∧
    (s.hw.boot.reset = none ∨ s.hw.heel.powered = false → Gives (.mainResetRelease) s fun h =>
        Unchanged s.hw h) ∧
    (∀ (m : Fin 27), s.hw.mainUp = true → m.val = 0 ∨ m.val = 25 ∧ s.hw.fullSession = true → s.hw.inRun = true ∧ s.hw.flag R.ILT_LC_STAT_BUSY = false → Gives (.keyWrite m) s fun h =>
        h.boot.reset = some 5 ∧ h.mainUp = false ∧ h.heel.powered = true ∧ (∀ t < 67, (h.arbiter t).waiting = []) ∧ h.shank.lockWaiters = [] ∧ (∀ i < 1024, h.get (R.SHK_LOCK_STAT_HELD i) = 0) ∧
        h.word R.SYS_RST_REC = s.hw.word R.SYS_RST_REC ∧ h.word R.HEEL_CMP_CFG = s.hw.word R.HEEL_CMP_CFG ∧ h.get R.TIME_RATE_RATE = 0 ∧ h.get R.DRC_STAT_STATE = 0 ∧ (∀ n < 8, h.get (R.ETH_FSTAT_STATE n) = 0) ∧ MemKept s.hw h) ∧
    (∀ (m : Fin 27), s.hw.mainUp = true → ¬ (m.val = 0 ∨ m.val = 25 ∧ s.hw.fullSession = true) ∨ s.hw.inRun = false ∨ s.hw.flag R.ILT_LC_STAT_BUSY = true → Gives (.keyWrite m) s fun h =>
        Unchanged s.hw h)

/-- The boot ROM (R570 to R572, with R521, R522 and R549) and recovery (R573). What a reply looks like on the wire is
`Hw.recoveryReply`; its data's byte order is the model's choice (log 38). -/
def Obligations.BootAndRecovery : Prop :=
  ∀ s : State, s.hw.mainUp = true → 
    (∀ (f : Flash), flashSound f = true → s.hw.boot.waits = false ∨ s.hw.get R.SYS_RST_REC_CAUSE = 7 ∧ s.hw.boot.restored = false → Gives (.core0Boot f) s fun h =>
        Unchanged s.hw h) ∧
    (∀ (f : Flash), flashSound f = true → s.hw.boot.waits = true → s.hw.get R.SYS_RST_REC_CAUSE = 7 ∧ s.hw.boot.restored = true → Gives (.core0Boot f) s fun h =>
        h.boot.waits = false ∧ kget h.bench.started 0 = some 0x30030000 ∧ h.get (R.SYS_CORE_STAT_STATE 0) = 1 ∧ MemKept s.hw h) ∧
    (∀ (f : Flash), flashSound f = true → s.hw.boot.waits = true → s.hw.get R.SYS_RST_REC_CAUSE ≠ 7 → s.hw.lifecycle = lcRetired → Gives (.core0Boot f) s fun h =>
        h.boot.waits = false ∧ h.get R.SYS_BOOT_REC_BOOTED = 0 ∧ h.get (R.SYS_CORE_STAT_STATE 0) = 2 ∧ h.boot.recovery = s.hw.boot.recovery ∧ MemKeptBut 0x30008000 4 s.hw h) ∧
    (∀ (f : Flash), flashSound f = true → s.hw.boot.waits = true → s.hw.get R.SYS_RST_REC_CAUSE ≠ 7 → s.hw.lifecycle ≠ lcRetired → f.mode.val = 0 ∨ (ImageHeader.mk f.copy0.header).constant = false ∧ (ImageHeader.mk f.copy1.header).constant = false ∧ (ImageHeader.mk f.copy2.header).constant = false ∧ (ImageHeader.mk f.copy0.header).placed = false ∧ (ImageHeader.mk f.copy1.header).placed = false ∧ (ImageHeader.mk f.copy2.header).placed = false → Gives (.core0Boot f) s fun h =>
        h.boot.waits = false ∧ h.boot.recovery = true ∧ h.get R.SYS_BOOT_REC_RECOV = 1 ∧ h.get R.SYS_BOOT_REC_FLASH = (if f.mode.val = 0 then 0 else if s.hw.get R.SYS_RST_REC_CAUSE = 6 then 1 else f.mode.val) ∧ h.get R.CKR_CTL_MODE = 0 ∧ h.get (R.LANE_CTL_RATE_MAX 0) = 0 ∧ h.get (R.LANE_FCTL_EN 0) = 1 ∧ h.get (R.ETH_FCTL_EN 0) = 1 ∧ kget h.bench.started 0 = some 0 ∧ MemKept s.hw h) ∧
    (∀ (f : Flash), flashSound f = true → s.hw.boot.waits = true → s.hw.get R.SYS_RST_REC_CAUSE ≠ 7 → s.hw.lifecycle = lcBlank → f.mode.val ≠ 0 ∧ (ImageHeader.mk f.copy0.header).constant = true ∧ (ImageHeader.mk f.copy0.header).placed = true ∧ (ImageHeader.mk f.copy0.header).rma = false → (ImageHeader.mk f.copy1.header).svn ≤ (ImageHeader.mk f.copy0.header).svn → (ImageHeader.mk f.copy0.header).enc = false → Gives (.core0Boot f) s fun h =>
        h.boot.waits = false ∧ h.get R.SYS_BOOT_REC_BOOTED = 1 ∧ h.get R.SYS_BOOT_REC_COPY = 0 ∧ h.get R.SYS_BOOT_REC_RES0 = h.get R.ILT_BOOT_STAT_RESULT ∧ kget h.bench.started 0 = some (ImageHeader.mk f.copy0.header).entry ∧ h.get (R.SYS_CORE_STAT_STATE 0) = 1 ∧ MemKeptBut (ImageHeader.mk f.copy0.header).load (ImageHeader.mk f.copy0.header).length s.hw h) ∧
    (∀ (src : BitVec 48) (seq : BitVec 16) (o : Word) (data : List Byte) (c : Instr), s.hw.recovering = false → c = .recoveryHello src seq ∨ c = .recoveryWrite src seq o data ∨ c = .recoveryBoot src seq → Gives (c) s fun h =>
        Unchanged s.hw h) ∧
    (∀ (src : BitVec 48) (seq : BitVec 16), s.hw.recovering = true → Gives (.recoveryHello src seq) s fun h =>
        h.wire = (s.hw.recoveryReply src.toNat 1 0 seq.toNat 0 (wordsBytes [s.hw.otpWord 24, s.hw.otpWord 25, s.hw.word R.ILT_LC_STAT, s.hw.word R.SYS_BOOT_REC])).wire ∧ h.boot.recovery = true ∧ RegsKept [] s.hw h ∧ MemKept s.hw h) ∧
    (∀ (src : BitVec 48) (seq : BitVec 16) (offset : Word) (data : List Byte), s.hw.recovering = true → 1024 < data.length ∨ (data.drop (512 - offset.toNat)) ≠ [] ∧ ¬ ((ImageHeader.mk s.hw.boot.header).magic = true ∧ 0x11000000 ≤ ((ImageHeader.mk s.hw.boot.header).load + (max offset.toNat 512 - 512)) ∧ ((ImageHeader.mk s.hw.boot.header).load + (max offset.toNat 512 - 512)) + (data.drop (512 - offset.toNat)).length ≤ 0x11800000) → Gives (.recoveryWrite src seq offset data) s fun h =>
        h.wire = (s.hw.recoveryReply src.toNat 2 1 seq.toNat offset.toNat []).wire ∧ h.boot.header = s.hw.boot.header ∧ RegsKept [] s.hw h ∧ MemKept s.hw h) ∧
    (∀ (src : BitVec 48) (seq : BitVec 16) (offset : Word) (data : List Byte), s.hw.recovering = true → ¬ (1024 < data.length ∨ (data.drop (512 - offset.toNat)) ≠ [] ∧ ¬ ((ImageHeader.mk s.hw.boot.header).magic = true ∧ 0x11000000 ≤ ((ImageHeader.mk s.hw.boot.header).load + (max offset.toNat 512 - 512)) ∧ ((ImageHeader.mk s.hw.boot.header).load + (max offset.toNat 512 - 512)) + (data.drop (512 - offset.toNat)).length ≤ 0x11800000)) → Gives (.recoveryWrite src seq offset data) s fun h =>
        h.wire = (s.hw.recoveryReply src.toNat 2 0 seq.toNat offset.toNat []).wire ∧ h.boot.header = (if data.take (512 - offset.toNat) = [] then s.hw.boot.header else (placeHeader s.hw.boot.header offset.toNat (data.take (512 - offset.toNat)))) ∧
        (∀ i < (data.drop (512 - offset.toNat)).length, h.byte (((ImageHeader.mk s.hw.boot.header).load + (max offset.toNat 512 - 512)) + i) = (data.drop (512 - offset.toNat)).getD i 0) ∧ RegsKept [] s.hw h ∧ MemKeptBut ((ImageHeader.mk s.hw.boot.header).load + (max offset.toNat 512 - 512)) (data.drop (512 - offset.toNat)).length s.hw h) ∧
    (∀ (src : BitVec 48) (seq : BitVec 16), s.hw.recovering = true → Gives (.recoveryBoot src seq) s fun h =>
        (if h.get R.ILT_BOOT_STAT_VERIFIED = 1 ∨ h.get R.ILT_BOOT_STAT_UNVERIFIED = 1 then h.boot.recovery = false ∧ h.get R.SYS_BOOT_REC_COPY = 3 ∧ h.get R.SYS_BOOT_REC_BOOTED = 1 ∧ kget h.bench.started 0 = some (ImageHeader.mk (s.hw.boot.header.take 352)).entry
        else h.boot.recovery = true ∧ h.boot.header = s.hw.boot.header ∧ h.get R.SYS_BOOT_REC_BOOTED = s.hw.get R.SYS_BOOT_REC_BOOTED) ∧ h.get R.ILT_BOOT_STAT_RESULT = (s.hw.imageChecks ⟨s.hw.boot.header.take 352⟩).1)
end

