-- ==== Sys2Proof/Laws/Tables.lean ====
section
/-!
SUPPORT. What the sparse tables, memory in canonical form and the timers answer after an update.
-/
namespace Sys2Proof.Machine

@[simp] theorem kget_kput_self (m : NMap α) (k : Nat) (v : α) : kget (kput m k v) k = some v := by
  induction m with
  | nil => simp [kput, kget]
  | cons p t ih =>
    obtain ⟨k', v'⟩ := p
    by_cases h1 : k < k'
    · simp [kput, h1, kget]
    · by_cases h2 : k = k'
      · subst h2; simp [kput, kget]
      · simpa [kput, h1, h2, kget] using ih

theorem kget_kput_ne (m : NMap α) {k j : Nat} (v : α) (h : j ≠ k) : kget (kput m k v) j = kget m j := by
  induction m with
  | nil => simp [kput, kget, h]
  | cons p t ih =>
    obtain ⟨k', v'⟩ := p
    by_cases h1 : k < k'
    · simp [kput, h1, kget, h]
    · by_cases h2 : k = k'
      · subst h2; simp [kput, kget, h]
      · simp [kput, h1, h2, kget, ih]

theorem kget_kput (m : NMap α) (k j : Nat) (v : α) : kget (kput m k v) j = if j = k then some v else kget m j := by
  split
  · next h => subst h; simp
  · next h => exact kget_kput_ne m v h

theorem kget_kdel (m : NMap α) (k j : Nat) : kget (kdel m k) j = if j = k then none else kget m j := by
  induction m with
  | nil => simp [kdel, kget]
  | cons p t ih =>
    obtain ⟨k', v'⟩ := p
    by_cases h1 : k = k'
    · subst h1
      by_cases h2 : j = k
      · simp_all [kdel]
      · simp_all [kdel, kget]
    · by_cases h2 : j = k'
      · subst h2; simp_all [kdel, kget, Ne.symm h1]
      · simp_all [kdel, kget]

@[simp] theorem kget_kdel_self (m : NMap α) (k : Nat) : kget (kdel m k) k = none := by simp [kget_kdel]

theorem kget_kdel_ne (m : NMap α) {k j : Nat} (h : j ≠ k) : kget (kdel m k) j = kget m j := by simp [kget_kdel, h]

@[simp] theorem kgetD_kput_self (d : α) (m : NMap α) (k : Nat) (v : α) : kgetD d (kput m k v) k = v := by simp [kgetD]

theorem kgetD_kput_ne (d : α) (m : NMap α) {k j : Nat} (v : α) (h : j ≠ k) :
    kgetD d (kput m k v) j = kgetD d m j := by simp [kgetD, kget_kput_ne _ _ h]

@[simp] theorem kgetD_kdel_self (d : α) (m : NMap α) (k : Nat) : kgetD d (kdel m k) k = d := by simp [kgetD]

theorem kgetD_kdel_ne (d : α) (m : NMap α) {k j : Nat} (h : j ≠ k) :
    kgetD d (kdel m k) j = kgetD d m j := by simp [kgetD, kget_kdel_ne _ h]

/-! ### Memory -/

theorem kget_memPut (m : List Host.Cell) (a j : Nat) (b : Byte) :
    (kget (memPut m a b) j).getD 0 = if j = a then b else (kget m j).getD 0 := by
  unfold memPut
  split
  · next hb => rw [kget_kdel]; split <;> simp_all
  · rw [kget_kput]; split <;> simp

theorem kget_memCanon (m : List Host.Cell) (a : Nat) : (kget (memCanon m) a).getD 0 = (kget m a).getD 0 := by
  induction m with
  | nil => rfl
  | cons c t ih =>
    obtain ⟨k, b⟩ := c
    show (kget (memPut (memCanon t) k b) a).getD 0 = _
    rw [kget_memPut, ih]
    by_cases h : a = k <;> simp [kget, h]

theorem memWf_tail {c : Host.Cell} {t : List Host.Cell} (h : memWf (c :: t) = true) : memWf t = true := by
  obtain ⟨k, b⟩ := c
  cases t with
  | nil => rfl
  | cons d t => obtain ⟨k', b'⟩ := d; simp only [memWf, Bool.and_eq_true] at h; exact h.2

theorem memWf_head {k : Nat} {b : Byte} {t : List Host.Cell} (h : memWf ((k, b) :: t) = true) : b ≠ 0 := by
  cases t with
  | nil => simpa [memWf] using h
  | cons d t => obtain ⟨k', b'⟩ := d; simp only [memWf, Bool.and_eq_true] at h; simpa using h.1.1

/-- A cell in front of a canonical memory whose first address lies above it. -/
theorem memWf_cons {k : Nat} {b : Byte} {t : List Host.Cell} (hb : b ≠ 0) (ht : memWf t = true)
    (hk : ∀ k' b', t.head? = some (k', b') → k < k') : memWf ((k, b) :: t) = true := by
  cases t with
  | nil => simpa [memWf] using hb
  | cons d t => obtain ⟨k', b'⟩ := d; simp [memWf, ht, hk k' b' rfl]; exact hb

theorem memWf_lt {k : Nat} {b : Byte} {t : List Host.Cell} (h : memWf ((k, b) :: t) = true) :
    ∀ k' b', t.head? = some (k', b') → k < k' := by
  intro k' b' hd
  cases t with
  | nil => simp at hd
  | cons d t =>
    simp only [List.head?_cons, Option.some.injEq] at hd
    subst hd
    simp only [memWf, Bool.and_eq_true, decide_eq_true_eq] at h
    exact h.1.2

theorem memWf_kput (m : List Host.Cell) (a : Nat) (b : Byte) (hb : b ≠ 0) (h : memWf m = true) :
    memWf (kput m a b) = true ∧
      ∀ k' b', (kput m a b).head? = some (k', b') → k' = a ∨ m.head?.map Prod.fst = some k' := by
  induction m with
  | nil => exact ⟨by simp only [kput, memWf, bne_iff_ne]; exact hb, by simp [kput]⟩
  | cons c t ih =>
    obtain ⟨k, v⟩ := c
    obtain ⟨ih1, ih2⟩ := ih (memWf_tail h)
    simp only [kput]
    split
    · next hlt =>
      refine ⟨memWf_cons hb h ?_, by simp⟩
      intro k' b' hd; simp at hd; omega
    · split
      · next hne heq =>
        subst heq
        exact ⟨memWf_cons hb (memWf_tail h) (memWf_lt h), by simp⟩
      · next hge hne =>
        refine ⟨memWf_cons (memWf_head h) ih1 ?_, by simp⟩
        intro k' b' hd
        rcases ih2 k' b' hd with rfl | h2
        · omega
        · obtain ⟨⟨k2, b2⟩, h3, rfl⟩ := Option.map_eq_some_iff.mp h2
          exact memWf_lt h k2 b2 h3

theorem kdel_above (m : List Host.Cell) (a : Nat) (h : memWf m = true)
    (ha : ∀ k' b', m.head? = some (k', b') → a < k') : kdel m a = m := by
  induction m with
  | nil => rfl
  | cons c t ih =>
    obtain ⟨k, v⟩ := c
    have h1 : a < k := ha k v rfl
    rw [kdel, if_neg (by omega), ih (memWf_tail h) fun k' b' hd => by have := memWf_lt h k' b' hd; omega]

theorem memWf_kdel (m : List Host.Cell) (a : Nat) (h : memWf m = true) : memWf (kdel m a) = true := by
  induction m with
  | nil => rfl
  | cons c t ih =>
    obtain ⟨k, v⟩ := c
    by_cases hk : a = k
    · subst hk
      rw [kdel, if_pos rfl, kdel_above t a (memWf_tail h) (memWf_lt h)]
      exact memWf_tail h
    · rw [kdel, if_neg hk]
      refine memWf_cons (memWf_head h) (ih (memWf_tail h)) ?_
      intro k' b' hd
      cases t with
      | nil => simp [kdel] at hd
      | cons d t =>
        obtain ⟨k2, b2⟩ := d
        have h2 : k < k2 := memWf_lt h k2 b2 rfl
        by_cases hk2 : a = k2
        · subst hk2
          rw [kdel, if_pos rfl, kdel_above t a (memWf_tail (memWf_tail h)) (memWf_lt (memWf_tail h))] at hd
          have := memWf_lt (memWf_tail h) k' b' hd
          omega
        · simp only [kdel, if_neg hk2, List.head?_cons, Option.some.injEq, Prod.mk.injEq] at hd
          omega

/-- Every store keeps the canonical form. -/
theorem memWf_memPut (m : List Host.Cell) (a : Nat) (b : Byte) (h : memWf m = true) : memWf (memPut m a b) = true := by
  unfold memPut
  split
  · exact memWf_kdel m a h
  · next hb => exact (memWf_kput m a b hb h).1

/-- The canonical form of any list of cells is canonical. -/
theorem memWf_memCanon (m : List Host.Cell) : memWf (memCanon m) = true := by
  induction m with
  | nil => rfl
  | cons c t ih => exact memWf_memPut _ _ _ ih

theorem memWf_setByte (h : Hw) (a : Nat) (b : Byte) (hw : memWf h.mem = true) : memWf (h.setByte a b).mem = true :=
  memWf_memPut _ _ _ hw

theorem memWf_setBytes (h : Hw) (a : Nat) (bs : List Byte) (hw : memWf h.mem = true) :
    memWf (h.setBytes a bs).mem = true := by
  induction bs generalizing h a with
  | nil => exact hw
  | cons b t ih => exact ih _ _ (memWf_setByte h a b hw)

theorem memWf_setFreeBytes (h : Hw) (a n : Nat) (hw : memWf h.mem = true) : memWf (h.setFreeBytes a n).mem = true :=
  memWf_setBytes h a _ hw

theorem byte_setByte (h : Hw) (a j : Nat) (b : Byte) : (h.setByte a b).byte j = if j = a then b else h.byte j :=
  kget_memPut h.mem a j b

/-- A byte outside the bytes stored reads as before. -/
theorem byte_setBytes_outside (h : Hw) (a j : Nat) (bs : List Byte) (hj : j < a ∨ a + bs.length ≤ j) :
    (h.setBytes a bs).byte j = h.byte j := by
  induction bs generalizing h a with
  | nil => rfl
  | cons b t ih =>
    simp only [List.length_cons] at hj
    rw [Hw.setBytes, ih _ _ (by omega), byte_setByte, if_neg (by omega)]

/-- A byte inside the bytes stored reads as stored. -/
theorem byte_setBytes_inside (h : Hw) (a i : Nat) (bs : List Byte) (hi : i < bs.length) :
    (h.setBytes a bs).byte (a + i) = bs[i] := by
  induction bs generalizing h a i with
  | nil => simp at hi
  | cons b t ih =>
    cases i with
    | zero => rw [Hw.setBytes, byte_setBytes_outside _ _ _ _ (by omega), byte_setByte]; simp
    | succ i =>
      have := ih (h.setByte a b) (a + 1) i (by simpa using hi)
      simpa [Hw.setBytes, Nat.add_assoc, Nat.add_comm 1 i] using this

/-! ### Timers -/

theorem tget_tdel (m : List (TimerId × Nat)) (t u : TimerId) : tget (tdel m t) u = if u = t then none else tget m u := by
  induction m with
  | nil => simp [tdel, tget]
  | cons p r ih =>
    obtain ⟨t', d⟩ := p
    by_cases h1 : t = t'
    · subst h1
      by_cases h2 : u = t <;> simp_all [tdel, tget]
    · by_cases h2 : u = t'
      · subst h2; simp_all [tdel, tget, Ne.symm h1]
      · simp_all [tdel, tget]

theorem tget_startAt (h : Hw) (t u : TimerId) (d : Nat) :
    tget (h.startAt t d).timers u = if u = t then some d else tget h.timers u := by
  by_cases hu : u = t
  · subst hu; simp [Hw.startAt, tget]
  · simp [Hw.startAt, tget, hu, tget_tdel]

theorem tget_start (h : Hw) (t u : TimerId) (n : Nat) :
    tget (h.start t n).timers u = if u = t then some (h.et + n) else tget h.timers u := tget_startAt h t u _

theorem tget_stop (h : Hw) (t u : TimerId) :
    tget (h.stop t).timers u = if u = t then none else tget h.timers u := tget_tdel h.timers t u

end Sys2Proof.Machine
end

