-- ==== Sys2Proof/Laws/Effect.lean ====
section
/-!
SUPPORT. What the door of every command does, once for all commands: it answers a next state with the queue as it
stood, memory in canonical form and every byte as the effect left it.
-/
namespace Sys2Proof.Machine

/-- The hardware with its memory in canonical form. -/
def Hw.canon (h : Hw) : Hw := { h with mem := memCanon h.mem }

@[simp] theorem Hw.canon_byte (h : Hw) (a : Nat) : h.canon.byte a = h.byte a := kget_memCanon h.mem a
@[simp] theorem Hw.canon_word (h : Hw) (a : Nat) : h.canon.word a = h.word a := rfl
@[simp] theorem Hw.canon_get (h : Hw) (f : RF) : h.canon.get f = h.get f := rfl
@[simp] theorem Hw.canon_flag (h : Hw) (f : RF) : h.canon.flag f = h.flag f := rfl
@[simp] theorem Hw.canon_memWf (h : Hw) : memWf h.canon.mem = true := memWf_memCanon h.mem

theorem State.effectHeel_eq (s : State) (f : Hw → Hw) : s.effectHeel f = .next ⟨(f s.hw).canon, s.pending⟩ := rfl

theorem State.effect_eq (s : State) (f : Hw → Hw) (h : s.hw.mainUp = true) :
    s.effect f = .next ⟨(f s.hw).canon, s.pending⟩ := by simp [State.effect, State.effectHeel_eq, h]

theorem State.effect_down (s : State) (f : Hw → Hw) (h : s.hw.mainUp = false) :
    s.effect f = .next ⟨s.hw.canon, s.pending⟩ := by simp [State.effect, State.effectHeel_eq, h]

theorem State.effectIf_eq (s : State) (ok : Bool) (f : Hw → Hw) (h : s.hw.mainUp = true) (hk : ok = true) :
    s.effectIf ok f = .next ⟨(f s.hw).canon, s.pending⟩ := by simp [State.effectIf, hk, State.effect_eq s f h]

theorem State.effectIf_absent (s : State) (ok : Bool) (f : Hw → Hw) (hk : ok = false) :
    s.effectIf ok f = .next ⟨s.hw.canon, s.pending⟩ := by
  cases h : s.hw.mainUp <;> simp [State.effectIf, hk, State.effect_eq, State.effect_down, h]

/-- What every answer of the door to the Heel says. -/
theorem State.effectHeel_next {s t : State} {f : Hw → Hw} (h : s.effectHeel f = .next t) :
    t.pending = s.pending ∧ memWf t.hw.mem = true ∧ t.hw = (f s.hw).canon := by
  rw [State.effectHeel_eq, Host.Outcome.next.injEq] at h
  subst h
  exact ⟨rfl, memWf_memCanon _, rfl⟩

/-- What every answer of the door to the main domains says. -/
theorem State.effect_next {s t : State} {f : Hw → Hw} (h : s.effect f = .next t) :
    t.pending = s.pending ∧ memWf t.hw.mem = true ∧ t.hw = (if s.hw.mainUp then f s.hw else s.hw).canon :=
  State.effectHeel_next h

/-- What every answer of a door with a condition on the operands says. -/
theorem State.effectIf_next {s t : State} {ok : Bool} {f : Hw → Hw} (h : s.effectIf ok f = .next t) :
    t.pending = s.pending ∧ memWf t.hw.mem = true ∧ t.hw = (if s.hw.mainUp && ok then f s.hw else s.hw).canon := by
  obtain ⟨hp, hm, hh⟩ := State.effect_next h
  refine ⟨hp, hm, ?_⟩
  rw [hh]
  cases s.hw.mainUp <;> cases ok <;> rfl

end Sys2Proof.Machine
end

