-- ==== Sys2Proof/Laws/Registers.lean ====
section
/-!
SUPPORT. What a register or a register field reads as after a field is written: the field itself, another field of the
same register, a register elsewhere.
-/
namespace Sys2Proof.Machine

/-- The field lies within its 32-bit register. -/
def fits (f : RF) : Prop := f.lo + f.len ≤ 32

/-- The two fields share no bit. -/
def apart (f g : RF) : Prop := f.addr ≠ g.addr ∨ f.lo + f.len ≤ g.lo ∨ g.lo + g.len ≤ f.lo

theorem getLsbD_setBitsOf (w : Word) (lo len v i : Nat) :
    (setBitsOf w lo len v).getLsbD i =
      if i < 32 ∧ lo ≤ i ∧ i < lo + len then v.testBit (i - lo) else w.getLsbD i := by
  unfold setBitsOf
  simp only [BitVec.getLsbD_or, BitVec.getLsbD_and, BitVec.getLsbD_not, BitVec.getLsbD_shiftLeft,
    BitVec.getLsbD_setWidth, BitVec.getLsbD_allOnes, BitVec.getLsbD_ofNat]
  by_cases h1 : i < 32
  · by_cases h2 : lo ≤ i
    · by_cases h3 : i < lo + len
      · have h4 : i - lo < len := by omega
        have h5 : i - lo < 32 := by omega
        have h6 : ¬ i < lo := by omega
        simp [h1, h2, h3, h4, h5, h6]
      · have h4 : ¬ i - lo < len := by omega
        simp [h1, h3, h4]
    · have h6 : i < lo := by omega
      simp [h1, h2, h6]
  · simp [h1, BitVec.getLsbD_of_ge w i (by omega)]

theorem testBit_bitsOf (w : Word) (lo len i : Nat) :
    (bitsOf w lo len).testBit i = (decide (i < len) && w.getLsbD (lo + i)) := by
  unfold bitsOf
  rw [← BitVec.getLsbD, BitVec.getLsbD_extractLsb']

theorem bitsOf_setBitsOf_self (w : Word) (lo len v : Nat) (h : lo + len ≤ 32) :
    bitsOf (setBitsOf w lo len v) lo len = v % 2 ^ len := by
  apply Nat.eq_of_testBit_eq
  intro i
  rw [testBit_bitsOf, getLsbD_setBitsOf, Nat.testBit_mod_two_pow]
  by_cases hi : i < len
  · have h2 : lo + i < 32 := by omega
    simp [hi, h2]
  · simp [hi]

theorem bitsOf_setBitsOf_apart (w : Word) (lo len v lo' len' : Nat) (h : lo + len ≤ lo' ∨ lo' + len' ≤ lo) :
    bitsOf (setBitsOf w lo len v) lo' len' = bitsOf w lo' len' := by
  apply Nat.eq_of_testBit_eq
  intro i
  rw [testBit_bitsOf, testBit_bitsOf, getLsbD_setBitsOf]
  by_cases hi : i < len'
  · have h2 : ¬ (lo' + i < 32 ∧ lo ≤ lo' + i ∧ lo' + i < lo + len) := by omega
    simp [h2]
  · simp [hi]

/-! ### Words -/

@[simp] theorem Hw.word_setWord_self (h : Hw) (a : Nat) (w : Word) : (h.setWord a w).word a = w := by
  simp [Hw.word, Hw.setWord]

theorem Hw.word_setWord_ne (h : Hw) {a b : Nat} (w : Word) (hb : b ≠ a) : (h.setWord a w).word b = h.word b := by
  simp [Hw.word, Hw.setWord, kget_kput_ne _ _ hb]

theorem Hw.word_set_ne (h : Hw) (f : RF) (v : Nat) {b : Nat} (hb : b ≠ f.addr) : (h.set f v).word b = h.word b :=
  Hw.word_setWord_ne h _ hb

theorem Hw.word_set_self (h : Hw) (f : RF) (v : Nat) :
    (h.set f v).word f.addr = setBitsOf (h.word f.addr) f.lo f.len v := Hw.word_setWord_self h _ _

theorem Hw.word_setFlag_ne (h : Hw) (f : RF) (v : Bool) {b : Nat} (hb : b ≠ f.addr) :
    (h.setFlag f v).word b = h.word b := Hw.word_set_ne h f _ hb

theorem Hw.word_setI_ne (h : Hw) (f : RF) (v : Int) {b : Nat} (hb : b ≠ f.addr) : (h.setI f v).word b = h.word b :=
  Hw.word_set_ne h f _ hb

theorem Hw.word_bump_ne (h : Hw) (f : RF) (n : Nat) {b : Nat} (hb : b ≠ f.addr) : (h.bump f n).word b = h.word b :=
  Hw.word_set_ne h f _ hb

theorem Hw.word_count_ne (h : Hw) (f : RF) (n : Nat) {b : Nat} (hb : b ≠ f.addr) : (h.count f n).word b = h.word b :=
  Hw.word_set_ne h f _ hb

/-- A register written by firmware leaves every other register. -/
theorem Hw.word_writeFields_ne (h : Hw) (a : Nat) (v : Word) {b : Nat} (hb : b ≠ a) :
    (h.writeFields a v).word b = h.word b := by
  unfold Hw.writeFields
  split
  · rfl
  · exact Hw.word_setWord_ne h _ hb

/-! ### Fields -/

theorem Hw.get_setWord_ne (h : Hw) (a : Nat) (w : Word) (g : RF) (hg : g.addr ≠ a) : (h.setWord a w).get g = h.get g := by
  simp [Hw.get, Hw.word_setWord_ne h w hg]

/-- A field that was set reads as the low bits of the value. -/
theorem Hw.get_set_self (h : Hw) (f : RF) (v : Nat) (hf : fits f) : (h.set f v).get f = v % 2 ^ f.len := by
  simp only [Hw.get, Hw.word_set_self]
  exact bitsOf_setBitsOf_self _ _ _ _ hf

/-- A field that was set to a value that it holds reads as the value. -/
theorem Hw.get_set_lt (h : Hw) (f : RF) (v : Nat) (hf : fits f) (hv : v < 2 ^ f.len) : (h.set f v).get f = v := by
  rw [Hw.get_set_self h f v hf, Nat.mod_eq_of_lt hv]

/-- A field that shares no bit with the one set reads as before. -/
theorem Hw.get_set_apart (h : Hw) (f g : RF) (v : Nat) (hfg : apart f g) : (h.set f v).get g = h.get g := by
  by_cases ha : g.addr = f.addr
  · rcases hfg with h1 | h1
    · exact absurd ha.symm h1
    · simp only [Hw.get, ha, Hw.word_set_self]
      exact bitsOf_setBitsOf_apart _ _ _ _ _ _ h1
  · simp [Hw.get, Hw.word_set_ne h f v ha]

theorem Hw.get_setFlag_self (h : Hw) (f : RF) (b : Bool) (hf : fits f) (hl : 0 < f.len) :
    (h.setFlag f b).get f = if b then 1 else 0 :=
  Hw.get_set_lt h f _ hf (by have := Nat.one_lt_two_pow (n := f.len) (by omega); split <;> omega)

theorem Hw.get_setFlag_apart (h : Hw) (f g : RF) (b : Bool) (hfg : apart f g) : (h.setFlag f b).get g = h.get g :=
  Hw.get_set_apart h f g _ hfg

theorem Hw.get_setI_self (h : Hw) (f : RF) (v : Int) (hf : fits f) : (h.setI f v).get f = (v % 2 ^ f.len).toNat := by
  rw [Hw.setI, Hw.get_set_lt _ _ _ hf]
  · rfl
  · unfold unsignedOf
    have h1 : (0 : Int) < 2 ^ f.len := by positivity
    have h2 := Int.emod_lt_of_pos v h1
    have h3 := Int.emod_nonneg v (ne_of_gt h1)
    zify
    rw [Int.toNat_of_nonneg h3]
    simpa using h2

theorem Hw.get_setI_apart (h : Hw) (f g : RF) (v : Int) (hfg : apart f g) : (h.setI f v).get g = h.get g :=
  Hw.get_set_apart h f g _ hfg

/-- A saturating counter. -/
theorem Hw.get_bump_self (h : Hw) (f : RF) (n : Nat) (hf : fits f) :
    (h.bump f n).get f = min (h.get f + n) (2 ^ f.len - 1) :=
  Hw.get_set_lt h f _ hf (by have := Nat.two_pow_pos f.len; omega)

theorem Hw.get_bump_apart (h : Hw) (f g : RF) (n : Nat) (hfg : apart f g) : (h.bump f n).get g = h.get g :=
  Hw.get_set_apart h f g _ hfg

/-- A wrapping counter. -/
theorem Hw.get_count_self (h : Hw) (f : RF) (n : Nat) (hf : fits f) :
    (h.count f n).get f = (h.get f + n) % 2 ^ f.len := Hw.get_set_self h f _ hf

theorem Hw.get_count_apart (h : Hw) (f g : RF) (n : Nat) (hfg : apart f g) : (h.count f n).get g = h.get g :=
  Hw.get_set_apart h f g _ hfg

/-- A field reads below its range. -/
theorem Hw.get_lt (h : Hw) (f : RF) : h.get f < 2 ^ f.len := BitVec.isLt _

/-- A field depends on its register alone. -/
theorem Hw.get_congr {h h' : Hw} {f : RF} (hw : h'.word f.addr = h.word f.addr) : h'.get f = h.get f := by
  simp [Hw.get, hw]

/-- What an access by firmware leaves of a field with no writable bit. -/
theorem Hw.get_writeFields_ne (h : Hw) (a : Nat) (v : Word) (g : RF) (hg : g.addr ≠ a) :
    (h.writeFields a v).get g = h.get g := Hw.get_congr (Hw.word_writeFields_ne h a v hg)

end Sys2Proof.Machine
end

