-- ==== Sys2Proof/Laws/State.lean ====
section
/-!
SUPPORT. The fields of the hardware after each of the named updates, one lemma per field per update: a register
update leaves every field but the registers, a timer update every field but the timers, a store every field but memory.
-/
namespace Sys2Proof.Machine
variable (h : Hw)

/-! ### setWord -/

@[simp] theorem Hw.setWord_mem (a : Nat) (w : Word) : (h.setWord a w).mem = h.mem := rfl
@[simp] theorem Hw.setWord_et (a : Nat) (w : Word) : (h.setWord a w).et = h.et := rfl
@[simp] theorem Hw.setWord_etFrac (a : Nat) (w : Word) : (h.setWord a w).etFrac = h.etFrac := rfl
@[simp] theorem Hw.setWord_nt (a : Nat) (w : Word) : (h.setWord a w).nt = h.nt := rfl
@[simp] theorem Hw.setWord_rem (a : Nat) (w : Word) : (h.setWord a w).rem = h.rem := rfl
@[simp] theorem Hw.setWord_tbLock (a : Nat) (w : Word) : (h.setWord a w).tbLock = h.tbLock := rfl
@[simp] theorem Hw.setWord_etErr (a : Nat) (w : Word) : (h.setWord a w).etErr = h.etErr := rfl
@[simp] theorem Hw.setWord_timers (a : Nat) (w : Word) : (h.setWord a w).timers = h.timers := rfl
@[simp] theorem Hw.setWord_latches (a : Nat) (w : Word) : (h.setWord a w).latches = h.latches := rfl
@[simp] theorem Hw.setWord_free (a : Nat) (w : Word) : (h.setWord a w).free = h.free := rfl
@[simp] theorem Hw.setWord_time (a : Nat) (w : Word) : (h.setWord a w).time = h.time := rfl
@[simp] theorem Hw.setWord_speed (a : Nat) (w : Word) : (h.setWord a w).speed = h.speed := rfl
@[simp] theorem Hw.setWord_slices (a : Nat) (w : Word) : (h.setWord a w).slices = h.slices := rfl
@[simp] theorem Hw.setWord_chains (a : Nat) (w : Word) : (h.setWord a w).chains = h.chains := rfl
@[simp] theorem Hw.setWord_ldpc (a : Nat) (w : Word) : (h.setWord a w).ldpc = h.ldpc := rfl
@[simp] theorem Hw.setWord_txStatus (a : Nat) (w : Word) : (h.setWord a w).txStatus = h.txStatus := rfl
@[simp] theorem Hw.setWord_fabric (a : Nat) (w : Word) : (h.setWord a w).fabric = h.fabric := rfl
@[simp] theorem Hw.setWord_traffic (a : Nat) (w : Word) : (h.setWord a w).traffic = h.traffic := rfl
@[simp] theorem Hw.setWord_shank (a : Nat) (w : Word) : (h.setWord a w).shank = h.shank := rfl
@[simp] theorem Hw.setWord_dram (a : Nat) (w : Word) : (h.setWord a w).dram = h.dram := rfl
@[simp] theorem Hw.setWord_awl (a : Nat) (w : Word) : (h.setWord a w).awl = h.awl := rfl
@[simp] theorem Hw.setWord_bench (a : Nat) (w : Word) : (h.setWord a w).bench = h.bench := rfl
@[simp] theorem Hw.setWord_last (a : Nat) (w : Word) : (h.setWord a w).last = h.last := rfl
@[simp] theorem Hw.setWord_coex (a : Nat) (w : Word) : (h.setWord a w).coex = h.coex := rfl
@[simp] theorem Hw.setWord_welt (a : Nat) (w : Word) : (h.setWord a w).welt = h.welt := rfl
@[simp] theorem Hw.setWord_wire (a : Nat) (w : Word) : (h.setWord a w).wire = h.wire := rfl
@[simp] theorem Hw.setWord_eth (a : Nat) (w : Word) : (h.setWord a w).eth = h.eth := rfl
@[simp] theorem Hw.setWord_router (a : Nat) (w : Word) : (h.setWord a w).router = h.router := rfl
@[simp] theorem Hw.setWord_lanes (a : Nat) (w : Word) : (h.setWord a w).lanes = h.lanes := rfl
@[simp] theorem Hw.setWord_uzovi (a : Nat) (w : Word) : (h.setWord a w).uzovi = h.uzovi := rfl
@[simp] theorem Hw.setWord_iltil (a : Nat) (w : Word) : (h.setWord a w).iltil = h.iltil := rfl
@[simp] theorem Hw.setWord_heel (a : Nat) (w : Word) : (h.setWord a w).heel = h.heel := rfl
@[simp] theorem Hw.setWord_boot (a : Nat) (w : Word) : (h.setWord a w).boot = h.boot := rfl
@[simp] theorem Hw.setWord_fifo (a : Nat) (w : Word) : (h.setWord a w).fifo = h.fifo := rfl
@[simp] theorem Hw.setWord_mainUp (a : Nat) (w : Word) : (h.setWord a w).mainUp = h.mainUp := rfl
@[simp] theorem Hw.setWord_byte (a : Nat) (w : Word) (r : Nat) : (h.setWord a w).byte r = h.byte r := rfl

/-! ### set -/

@[simp] theorem Hw.set_mem (f : RF) (v : Nat) : (h.set f v).mem = h.mem := rfl
@[simp] theorem Hw.set_et (f : RF) (v : Nat) : (h.set f v).et = h.et := rfl
@[simp] theorem Hw.set_etFrac (f : RF) (v : Nat) : (h.set f v).etFrac = h.etFrac := rfl
@[simp] theorem Hw.set_nt (f : RF) (v : Nat) : (h.set f v).nt = h.nt := rfl
@[simp] theorem Hw.set_rem (f : RF) (v : Nat) : (h.set f v).rem = h.rem := rfl
@[simp] theorem Hw.set_tbLock (f : RF) (v : Nat) : (h.set f v).tbLock = h.tbLock := rfl
@[simp] theorem Hw.set_etErr (f : RF) (v : Nat) : (h.set f v).etErr = h.etErr := rfl
@[simp] theorem Hw.set_timers (f : RF) (v : Nat) : (h.set f v).timers = h.timers := rfl
@[simp] theorem Hw.set_latches (f : RF) (v : Nat) : (h.set f v).latches = h.latches := rfl
@[simp] theorem Hw.set_free (f : RF) (v : Nat) : (h.set f v).free = h.free := rfl
@[simp] theorem Hw.set_time (f : RF) (v : Nat) : (h.set f v).time = h.time := rfl
@[simp] theorem Hw.set_speed (f : RF) (v : Nat) : (h.set f v).speed = h.speed := rfl
@[simp] theorem Hw.set_slices (f : RF) (v : Nat) : (h.set f v).slices = h.slices := rfl
@[simp] theorem Hw.set_chains (f : RF) (v : Nat) : (h.set f v).chains = h.chains := rfl
@[simp] theorem Hw.set_ldpc (f : RF) (v : Nat) : (h.set f v).ldpc = h.ldpc := rfl
@[simp] theorem Hw.set_txStatus (f : RF) (v : Nat) : (h.set f v).txStatus = h.txStatus := rfl
@[simp] theorem Hw.set_fabric (f : RF) (v : Nat) : (h.set f v).fabric = h.fabric := rfl
@[simp] theorem Hw.set_traffic (f : RF) (v : Nat) : (h.set f v).traffic = h.traffic := rfl
@[simp] theorem Hw.set_shank (f : RF) (v : Nat) : (h.set f v).shank = h.shank := rfl
@[simp] theorem Hw.set_dram (f : RF) (v : Nat) : (h.set f v).dram = h.dram := rfl
@[simp] theorem Hw.set_awl (f : RF) (v : Nat) : (h.set f v).awl = h.awl := rfl
@[simp] theorem Hw.set_bench (f : RF) (v : Nat) : (h.set f v).bench = h.bench := rfl
@[simp] theorem Hw.set_last (f : RF) (v : Nat) : (h.set f v).last = h.last := rfl
@[simp] theorem Hw.set_coex (f : RF) (v : Nat) : (h.set f v).coex = h.coex := rfl
@[simp] theorem Hw.set_welt (f : RF) (v : Nat) : (h.set f v).welt = h.welt := rfl
@[simp] theorem Hw.set_wire (f : RF) (v : Nat) : (h.set f v).wire = h.wire := rfl
@[simp] theorem Hw.set_eth (f : RF) (v : Nat) : (h.set f v).eth = h.eth := rfl
@[simp] theorem Hw.set_router (f : RF) (v : Nat) : (h.set f v).router = h.router := rfl
@[simp] theorem Hw.set_lanes (f : RF) (v : Nat) : (h.set f v).lanes = h.lanes := rfl
@[simp] theorem Hw.set_uzovi (f : RF) (v : Nat) : (h.set f v).uzovi = h.uzovi := rfl
@[simp] theorem Hw.set_iltil (f : RF) (v : Nat) : (h.set f v).iltil = h.iltil := rfl
@[simp] theorem Hw.set_heel (f : RF) (v : Nat) : (h.set f v).heel = h.heel := rfl
@[simp] theorem Hw.set_boot (f : RF) (v : Nat) : (h.set f v).boot = h.boot := rfl
@[simp] theorem Hw.set_fifo (f : RF) (v : Nat) : (h.set f v).fifo = h.fifo := rfl
@[simp] theorem Hw.set_mainUp (f : RF) (v : Nat) : (h.set f v).mainUp = h.mainUp := rfl
@[simp] theorem Hw.set_byte (f : RF) (v : Nat) (r : Nat) : (h.set f v).byte r = h.byte r := rfl

/-! ### setFlag -/

@[simp] theorem Hw.setFlag_mem (f : RF) (b : Bool) : (h.setFlag f b).mem = h.mem := rfl
@[simp] theorem Hw.setFlag_et (f : RF) (b : Bool) : (h.setFlag f b).et = h.et := rfl
@[simp] theorem Hw.setFlag_etFrac (f : RF) (b : Bool) : (h.setFlag f b).etFrac = h.etFrac := rfl
@[simp] theorem Hw.setFlag_nt (f : RF) (b : Bool) : (h.setFlag f b).nt = h.nt := rfl
@[simp] theorem Hw.setFlag_rem (f : RF) (b : Bool) : (h.setFlag f b).rem = h.rem := rfl
@[simp] theorem Hw.setFlag_tbLock (f : RF) (b : Bool) : (h.setFlag f b).tbLock = h.tbLock := rfl
@[simp] theorem Hw.setFlag_etErr (f : RF) (b : Bool) : (h.setFlag f b).etErr = h.etErr := rfl
@[simp] theorem Hw.setFlag_timers (f : RF) (b : Bool) : (h.setFlag f b).timers = h.timers := rfl
@[simp] theorem Hw.setFlag_latches (f : RF) (b : Bool) : (h.setFlag f b).latches = h.latches := rfl
@[simp] theorem Hw.setFlag_free (f : RF) (b : Bool) : (h.setFlag f b).free = h.free := rfl
@[simp] theorem Hw.setFlag_time (f : RF) (b : Bool) : (h.setFlag f b).time = h.time := rfl
@[simp] theorem Hw.setFlag_speed (f : RF) (b : Bool) : (h.setFlag f b).speed = h.speed := rfl
@[simp] theorem Hw.setFlag_slices (f : RF) (b : Bool) : (h.setFlag f b).slices = h.slices := rfl
@[simp] theorem Hw.setFlag_chains (f : RF) (b : Bool) : (h.setFlag f b).chains = h.chains := rfl
@[simp] theorem Hw.setFlag_ldpc (f : RF) (b : Bool) : (h.setFlag f b).ldpc = h.ldpc := rfl
@[simp] theorem Hw.setFlag_txStatus (f : RF) (b : Bool) : (h.setFlag f b).txStatus = h.txStatus := rfl
@[simp] theorem Hw.setFlag_fabric (f : RF) (b : Bool) : (h.setFlag f b).fabric = h.fabric := rfl
@[simp] theorem Hw.setFlag_traffic (f : RF) (b : Bool) : (h.setFlag f b).traffic = h.traffic := rfl
@[simp] theorem Hw.setFlag_shank (f : RF) (b : Bool) : (h.setFlag f b).shank = h.shank := rfl
@[simp] theorem Hw.setFlag_dram (f : RF) (b : Bool) : (h.setFlag f b).dram = h.dram := rfl
@[simp] theorem Hw.setFlag_awl (f : RF) (b : Bool) : (h.setFlag f b).awl = h.awl := rfl
@[simp] theorem Hw.setFlag_bench (f : RF) (b : Bool) : (h.setFlag f b).bench = h.bench := rfl
@[simp] theorem Hw.setFlag_last (f : RF) (b : Bool) : (h.setFlag f b).last = h.last := rfl
@[simp] theorem Hw.setFlag_coex (f : RF) (b : Bool) : (h.setFlag f b).coex = h.coex := rfl
@[simp] theorem Hw.setFlag_welt (f : RF) (b : Bool) : (h.setFlag f b).welt = h.welt := rfl
@[simp] theorem Hw.setFlag_wire (f : RF) (b : Bool) : (h.setFlag f b).wire = h.wire := rfl
@[simp] theorem Hw.setFlag_eth (f : RF) (b : Bool) : (h.setFlag f b).eth = h.eth := rfl
@[simp] theorem Hw.setFlag_router (f : RF) (b : Bool) : (h.setFlag f b).router = h.router := rfl
@[simp] theorem Hw.setFlag_lanes (f : RF) (b : Bool) : (h.setFlag f b).lanes = h.lanes := rfl
@[simp] theorem Hw.setFlag_uzovi (f : RF) (b : Bool) : (h.setFlag f b).uzovi = h.uzovi := rfl
@[simp] theorem Hw.setFlag_iltil (f : RF) (b : Bool) : (h.setFlag f b).iltil = h.iltil := rfl
@[simp] theorem Hw.setFlag_heel (f : RF) (b : Bool) : (h.setFlag f b).heel = h.heel := rfl
@[simp] theorem Hw.setFlag_boot (f : RF) (b : Bool) : (h.setFlag f b).boot = h.boot := rfl
@[simp] theorem Hw.setFlag_fifo (f : RF) (b : Bool) : (h.setFlag f b).fifo = h.fifo := rfl
@[simp] theorem Hw.setFlag_mainUp (f : RF) (b : Bool) : (h.setFlag f b).mainUp = h.mainUp := rfl
@[simp] theorem Hw.setFlag_byte (f : RF) (b : Bool) (r : Nat) : (h.setFlag f b).byte r = h.byte r := rfl

/-! ### setI -/

@[simp] theorem Hw.setI_mem (f : RF) (v : Int) : (h.setI f v).mem = h.mem := rfl
@[simp] theorem Hw.setI_et (f : RF) (v : Int) : (h.setI f v).et = h.et := rfl
@[simp] theorem Hw.setI_etFrac (f : RF) (v : Int) : (h.setI f v).etFrac = h.etFrac := rfl
@[simp] theorem Hw.setI_nt (f : RF) (v : Int) : (h.setI f v).nt = h.nt := rfl
@[simp] theorem Hw.setI_rem (f : RF) (v : Int) : (h.setI f v).rem = h.rem := rfl
@[simp] theorem Hw.setI_tbLock (f : RF) (v : Int) : (h.setI f v).tbLock = h.tbLock := rfl
@[simp] theorem Hw.setI_etErr (f : RF) (v : Int) : (h.setI f v).etErr = h.etErr := rfl
@[simp] theorem Hw.setI_timers (f : RF) (v : Int) : (h.setI f v).timers = h.timers := rfl
@[simp] theorem Hw.setI_latches (f : RF) (v : Int) : (h.setI f v).latches = h.latches := rfl
@[simp] theorem Hw.setI_free (f : RF) (v : Int) : (h.setI f v).free = h.free := rfl
@[simp] theorem Hw.setI_time (f : RF) (v : Int) : (h.setI f v).time = h.time := rfl
@[simp] theorem Hw.setI_speed (f : RF) (v : Int) : (h.setI f v).speed = h.speed := rfl
@[simp] theorem Hw.setI_slices (f : RF) (v : Int) : (h.setI f v).slices = h.slices := rfl
@[simp] theorem Hw.setI_chains (f : RF) (v : Int) : (h.setI f v).chains = h.chains := rfl
@[simp] theorem Hw.setI_ldpc (f : RF) (v : Int) : (h.setI f v).ldpc = h.ldpc := rfl
@[simp] theorem Hw.setI_txStatus (f : RF) (v : Int) : (h.setI f v).txStatus = h.txStatus := rfl
@[simp] theorem Hw.setI_fabric (f : RF) (v : Int) : (h.setI f v).fabric = h.fabric := rfl
@[simp] theorem Hw.setI_traffic (f : RF) (v : Int) : (h.setI f v).traffic = h.traffic := rfl
@[simp] theorem Hw.setI_shank (f : RF) (v : Int) : (h.setI f v).shank = h.shank := rfl
@[simp] theorem Hw.setI_dram (f : RF) (v : Int) : (h.setI f v).dram = h.dram := rfl
@[simp] theorem Hw.setI_awl (f : RF) (v : Int) : (h.setI f v).awl = h.awl := rfl
@[simp] theorem Hw.setI_bench (f : RF) (v : Int) : (h.setI f v).bench = h.bench := rfl
@[simp] theorem Hw.setI_last (f : RF) (v : Int) : (h.setI f v).last = h.last := rfl
@[simp] theorem Hw.setI_coex (f : RF) (v : Int) : (h.setI f v).coex = h.coex := rfl
@[simp] theorem Hw.setI_welt (f : RF) (v : Int) : (h.setI f v).welt = h.welt := rfl
@[simp] theorem Hw.setI_wire (f : RF) (v : Int) : (h.setI f v).wire = h.wire := rfl
@[simp] theorem Hw.setI_eth (f : RF) (v : Int) : (h.setI f v).eth = h.eth := rfl
@[simp] theorem Hw.setI_router (f : RF) (v : Int) : (h.setI f v).router = h.router := rfl
@[simp] theorem Hw.setI_lanes (f : RF) (v : Int) : (h.setI f v).lanes = h.lanes := rfl
@[simp] theorem Hw.setI_uzovi (f : RF) (v : Int) : (h.setI f v).uzovi = h.uzovi := rfl
@[simp] theorem Hw.setI_iltil (f : RF) (v : Int) : (h.setI f v).iltil = h.iltil := rfl
@[simp] theorem Hw.setI_heel (f : RF) (v : Int) : (h.setI f v).heel = h.heel := rfl
@[simp] theorem Hw.setI_boot (f : RF) (v : Int) : (h.setI f v).boot = h.boot := rfl
@[simp] theorem Hw.setI_fifo (f : RF) (v : Int) : (h.setI f v).fifo = h.fifo := rfl
@[simp] theorem Hw.setI_mainUp (f : RF) (v : Int) : (h.setI f v).mainUp = h.mainUp := rfl
@[simp] theorem Hw.setI_byte (f : RF) (v : Int) (r : Nat) : (h.setI f v).byte r = h.byte r := rfl

/-! ### bump -/

@[simp] theorem Hw.bump_mem (f : RF) (n : Nat) : (h.bump f n).mem = h.mem := rfl
@[simp] theorem Hw.bump_et (f : RF) (n : Nat) : (h.bump f n).et = h.et := rfl
@[simp] theorem Hw.bump_etFrac (f : RF) (n : Nat) : (h.bump f n).etFrac = h.etFrac := rfl
@[simp] theorem Hw.bump_nt (f : RF) (n : Nat) : (h.bump f n).nt = h.nt := rfl
@[simp] theorem Hw.bump_rem (f : RF) (n : Nat) : (h.bump f n).rem = h.rem := rfl
@[simp] theorem Hw.bump_tbLock (f : RF) (n : Nat) : (h.bump f n).tbLock = h.tbLock := rfl
@[simp] theorem Hw.bump_etErr (f : RF) (n : Nat) : (h.bump f n).etErr = h.etErr := rfl
@[simp] theorem Hw.bump_timers (f : RF) (n : Nat) : (h.bump f n).timers = h.timers := rfl
@[simp] theorem Hw.bump_latches (f : RF) (n : Nat) : (h.bump f n).latches = h.latches := rfl
@[simp] theorem Hw.bump_free (f : RF) (n : Nat) : (h.bump f n).free = h.free := rfl
@[simp] theorem Hw.bump_time (f : RF) (n : Nat) : (h.bump f n).time = h.time := rfl
@[simp] theorem Hw.bump_speed (f : RF) (n : Nat) : (h.bump f n).speed = h.speed := rfl
@[simp] theorem Hw.bump_slices (f : RF) (n : Nat) : (h.bump f n).slices = h.slices := rfl
@[simp] theorem Hw.bump_chains (f : RF) (n : Nat) : (h.bump f n).chains = h.chains := rfl
@[simp] theorem Hw.bump_ldpc (f : RF) (n : Nat) : (h.bump f n).ldpc = h.ldpc := rfl
@[simp] theorem Hw.bump_txStatus (f : RF) (n : Nat) : (h.bump f n).txStatus = h.txStatus := rfl
@[simp] theorem Hw.bump_fabric (f : RF) (n : Nat) : (h.bump f n).fabric = h.fabric := rfl
@[simp] theorem Hw.bump_traffic (f : RF) (n : Nat) : (h.bump f n).traffic = h.traffic := rfl
@[simp] theorem Hw.bump_shank (f : RF) (n : Nat) : (h.bump f n).shank = h.shank := rfl
@[simp] theorem Hw.bump_dram (f : RF) (n : Nat) : (h.bump f n).dram = h.dram := rfl
@[simp] theorem Hw.bump_awl (f : RF) (n : Nat) : (h.bump f n).awl = h.awl := rfl
@[simp] theorem Hw.bump_bench (f : RF) (n : Nat) : (h.bump f n).bench = h.bench := rfl
@[simp] theorem Hw.bump_last (f : RF) (n : Nat) : (h.bump f n).last = h.last := rfl
@[simp] theorem Hw.bump_coex (f : RF) (n : Nat) : (h.bump f n).coex = h.coex := rfl
@[simp] theorem Hw.bump_welt (f : RF) (n : Nat) : (h.bump f n).welt = h.welt := rfl
@[simp] theorem Hw.bump_wire (f : RF) (n : Nat) : (h.bump f n).wire = h.wire := rfl
@[simp] theorem Hw.bump_eth (f : RF) (n : Nat) : (h.bump f n).eth = h.eth := rfl
@[simp] theorem Hw.bump_router (f : RF) (n : Nat) : (h.bump f n).router = h.router := rfl
@[simp] theorem Hw.bump_lanes (f : RF) (n : Nat) : (h.bump f n).lanes = h.lanes := rfl
@[simp] theorem Hw.bump_uzovi (f : RF) (n : Nat) : (h.bump f n).uzovi = h.uzovi := rfl
@[simp] theorem Hw.bump_iltil (f : RF) (n : Nat) : (h.bump f n).iltil = h.iltil := rfl
@[simp] theorem Hw.bump_heel (f : RF) (n : Nat) : (h.bump f n).heel = h.heel := rfl
@[simp] theorem Hw.bump_boot (f : RF) (n : Nat) : (h.bump f n).boot = h.boot := rfl
@[simp] theorem Hw.bump_fifo (f : RF) (n : Nat) : (h.bump f n).fifo = h.fifo := rfl
@[simp] theorem Hw.bump_mainUp (f : RF) (n : Nat) : (h.bump f n).mainUp = h.mainUp := rfl
@[simp] theorem Hw.bump_byte (f : RF) (n : Nat) (r : Nat) : (h.bump f n).byte r = h.byte r := rfl

/-! ### count -/

@[simp] theorem Hw.count_mem (f : RF) (n : Nat) : (h.count f n).mem = h.mem := rfl
@[simp] theorem Hw.count_et (f : RF) (n : Nat) : (h.count f n).et = h.et := rfl
@[simp] theorem Hw.count_etFrac (f : RF) (n : Nat) : (h.count f n).etFrac = h.etFrac := rfl
@[simp] theorem Hw.count_nt (f : RF) (n : Nat) : (h.count f n).nt = h.nt := rfl
@[simp] theorem Hw.count_rem (f : RF) (n : Nat) : (h.count f n).rem = h.rem := rfl
@[simp] theorem Hw.count_tbLock (f : RF) (n : Nat) : (h.count f n).tbLock = h.tbLock := rfl
@[simp] theorem Hw.count_etErr (f : RF) (n : Nat) : (h.count f n).etErr = h.etErr := rfl
@[simp] theorem Hw.count_timers (f : RF) (n : Nat) : (h.count f n).timers = h.timers := rfl
@[simp] theorem Hw.count_latches (f : RF) (n : Nat) : (h.count f n).latches = h.latches := rfl
@[simp] theorem Hw.count_free (f : RF) (n : Nat) : (h.count f n).free = h.free := rfl
@[simp] theorem Hw.count_time (f : RF) (n : Nat) : (h.count f n).time = h.time := rfl
@[simp] theorem Hw.count_speed (f : RF) (n : Nat) : (h.count f n).speed = h.speed := rfl
@[simp] theorem Hw.count_slices (f : RF) (n : Nat) : (h.count f n).slices = h.slices := rfl
@[simp] theorem Hw.count_chains (f : RF) (n : Nat) : (h.count f n).chains = h.chains := rfl
@[simp] theorem Hw.count_ldpc (f : RF) (n : Nat) : (h.count f n).ldpc = h.ldpc := rfl
@[simp] theorem Hw.count_txStatus (f : RF) (n : Nat) : (h.count f n).txStatus = h.txStatus := rfl
@[simp] theorem Hw.count_fabric (f : RF) (n : Nat) : (h.count f n).fabric = h.fabric := rfl
@[simp] theorem Hw.count_traffic (f : RF) (n : Nat) : (h.count f n).traffic = h.traffic := rfl
@[simp] theorem Hw.count_shank (f : RF) (n : Nat) : (h.count f n).shank = h.shank := rfl
@[simp] theorem Hw.count_dram (f : RF) (n : Nat) : (h.count f n).dram = h.dram := rfl
@[simp] theorem Hw.count_awl (f : RF) (n : Nat) : (h.count f n).awl = h.awl := rfl
@[simp] theorem Hw.count_bench (f : RF) (n : Nat) : (h.count f n).bench = h.bench := rfl
@[simp] theorem Hw.count_last (f : RF) (n : Nat) : (h.count f n).last = h.last := rfl
@[simp] theorem Hw.count_coex (f : RF) (n : Nat) : (h.count f n).coex = h.coex := rfl
@[simp] theorem Hw.count_welt (f : RF) (n : Nat) : (h.count f n).welt = h.welt := rfl
@[simp] theorem Hw.count_wire (f : RF) (n : Nat) : (h.count f n).wire = h.wire := rfl
@[simp] theorem Hw.count_eth (f : RF) (n : Nat) : (h.count f n).eth = h.eth := rfl
@[simp] theorem Hw.count_router (f : RF) (n : Nat) : (h.count f n).router = h.router := rfl
@[simp] theorem Hw.count_lanes (f : RF) (n : Nat) : (h.count f n).lanes = h.lanes := rfl
@[simp] theorem Hw.count_uzovi (f : RF) (n : Nat) : (h.count f n).uzovi = h.uzovi := rfl
@[simp] theorem Hw.count_iltil (f : RF) (n : Nat) : (h.count f n).iltil = h.iltil := rfl
@[simp] theorem Hw.count_heel (f : RF) (n : Nat) : (h.count f n).heel = h.heel := rfl
@[simp] theorem Hw.count_boot (f : RF) (n : Nat) : (h.count f n).boot = h.boot := rfl
@[simp] theorem Hw.count_fifo (f : RF) (n : Nat) : (h.count f n).fifo = h.fifo := rfl
@[simp] theorem Hw.count_mainUp (f : RF) (n : Nat) : (h.count f n).mainUp = h.mainUp := rfl
@[simp] theorem Hw.count_byte (f : RF) (n : Nat) (r : Nat) : (h.count f n).byte r = h.byte r := rfl

/-! ### startAt -/

@[simp] theorem Hw.startAt_regs (t : TimerId) (d : Nat) : (h.startAt t d).regs = h.regs := rfl
@[simp] theorem Hw.startAt_mem (t : TimerId) (d : Nat) : (h.startAt t d).mem = h.mem := rfl
@[simp] theorem Hw.startAt_et (t : TimerId) (d : Nat) : (h.startAt t d).et = h.et := rfl
@[simp] theorem Hw.startAt_etFrac (t : TimerId) (d : Nat) : (h.startAt t d).etFrac = h.etFrac := rfl
@[simp] theorem Hw.startAt_nt (t : TimerId) (d : Nat) : (h.startAt t d).nt = h.nt := rfl
@[simp] theorem Hw.startAt_rem (t : TimerId) (d : Nat) : (h.startAt t d).rem = h.rem := rfl
@[simp] theorem Hw.startAt_tbLock (t : TimerId) (d : Nat) : (h.startAt t d).tbLock = h.tbLock := rfl
@[simp] theorem Hw.startAt_etErr (t : TimerId) (d : Nat) : (h.startAt t d).etErr = h.etErr := rfl
@[simp] theorem Hw.startAt_latches (t : TimerId) (d : Nat) : (h.startAt t d).latches = h.latches := rfl
@[simp] theorem Hw.startAt_free (t : TimerId) (d : Nat) : (h.startAt t d).free = h.free := rfl
@[simp] theorem Hw.startAt_time (t : TimerId) (d : Nat) : (h.startAt t d).time = h.time := rfl
@[simp] theorem Hw.startAt_speed (t : TimerId) (d : Nat) : (h.startAt t d).speed = h.speed := rfl
@[simp] theorem Hw.startAt_slices (t : TimerId) (d : Nat) : (h.startAt t d).slices = h.slices := rfl
@[simp] theorem Hw.startAt_chains (t : TimerId) (d : Nat) : (h.startAt t d).chains = h.chains := rfl
@[simp] theorem Hw.startAt_ldpc (t : TimerId) (d : Nat) : (h.startAt t d).ldpc = h.ldpc := rfl
@[simp] theorem Hw.startAt_txStatus (t : TimerId) (d : Nat) : (h.startAt t d).txStatus = h.txStatus := rfl
@[simp] theorem Hw.startAt_fabric (t : TimerId) (d : Nat) : (h.startAt t d).fabric = h.fabric := rfl
@[simp] theorem Hw.startAt_traffic (t : TimerId) (d : Nat) : (h.startAt t d).traffic = h.traffic := rfl
@[simp] theorem Hw.startAt_shank (t : TimerId) (d : Nat) : (h.startAt t d).shank = h.shank := rfl
@[simp] theorem Hw.startAt_dram (t : TimerId) (d : Nat) : (h.startAt t d).dram = h.dram := rfl
@[simp] theorem Hw.startAt_awl (t : TimerId) (d : Nat) : (h.startAt t d).awl = h.awl := rfl
@[simp] theorem Hw.startAt_bench (t : TimerId) (d : Nat) : (h.startAt t d).bench = h.bench := rfl
@[simp] theorem Hw.startAt_last (t : TimerId) (d : Nat) : (h.startAt t d).last = h.last := rfl
@[simp] theorem Hw.startAt_coex (t : TimerId) (d : Nat) : (h.startAt t d).coex = h.coex := rfl
@[simp] theorem Hw.startAt_welt (t : TimerId) (d : Nat) : (h.startAt t d).welt = h.welt := rfl
@[simp] theorem Hw.startAt_wire (t : TimerId) (d : Nat) : (h.startAt t d).wire = h.wire := rfl
@[simp] theorem Hw.startAt_eth (t : TimerId) (d : Nat) : (h.startAt t d).eth = h.eth := rfl
@[simp] theorem Hw.startAt_router (t : TimerId) (d : Nat) : (h.startAt t d).router = h.router := rfl
@[simp] theorem Hw.startAt_lanes (t : TimerId) (d : Nat) : (h.startAt t d).lanes = h.lanes := rfl
@[simp] theorem Hw.startAt_uzovi (t : TimerId) (d : Nat) : (h.startAt t d).uzovi = h.uzovi := rfl
@[simp] theorem Hw.startAt_iltil (t : TimerId) (d : Nat) : (h.startAt t d).iltil = h.iltil := rfl
@[simp] theorem Hw.startAt_heel (t : TimerId) (d : Nat) : (h.startAt t d).heel = h.heel := rfl
@[simp] theorem Hw.startAt_boot (t : TimerId) (d : Nat) : (h.startAt t d).boot = h.boot := rfl
@[simp] theorem Hw.startAt_fifo (t : TimerId) (d : Nat) : (h.startAt t d).fifo = h.fifo := rfl
@[simp] theorem Hw.startAt_mainUp (t : TimerId) (d : Nat) : (h.startAt t d).mainUp = h.mainUp := rfl
@[simp] theorem Hw.startAt_word (t : TimerId) (d : Nat) (r : Nat) : (h.startAt t d).word r = h.word r := rfl
@[simp] theorem Hw.startAt_get (t : TimerId) (d : Nat) (g : RF) : (h.startAt t d).get g = h.get g := rfl
@[simp] theorem Hw.startAt_byte (t : TimerId) (d : Nat) (r : Nat) : (h.startAt t d).byte r = h.byte r := rfl

/-! ### start -/

@[simp] theorem Hw.start_regs (t : TimerId) (n : Nat) : (h.start t n).regs = h.regs := rfl
@[simp] theorem Hw.start_mem (t : TimerId) (n : Nat) : (h.start t n).mem = h.mem := rfl
@[simp] theorem Hw.start_et (t : TimerId) (n : Nat) : (h.start t n).et = h.et := rfl
@[simp] theorem Hw.start_etFrac (t : TimerId) (n : Nat) : (h.start t n).etFrac = h.etFrac := rfl
@[simp] theorem Hw.start_nt (t : TimerId) (n : Nat) : (h.start t n).nt = h.nt := rfl
@[simp] theorem Hw.start_rem (t : TimerId) (n : Nat) : (h.start t n).rem = h.rem := rfl
@[simp] theorem Hw.start_tbLock (t : TimerId) (n : Nat) : (h.start t n).tbLock = h.tbLock := rfl
@[simp] theorem Hw.start_etErr (t : TimerId) (n : Nat) : (h.start t n).etErr = h.etErr := rfl
@[simp] theorem Hw.start_latches (t : TimerId) (n : Nat) : (h.start t n).latches = h.latches := rfl
@[simp] theorem Hw.start_free (t : TimerId) (n : Nat) : (h.start t n).free = h.free := rfl
@[simp] theorem Hw.start_time (t : TimerId) (n : Nat) : (h.start t n).time = h.time := rfl
@[simp] theorem Hw.start_speed (t : TimerId) (n : Nat) : (h.start t n).speed = h.speed := rfl
@[simp] theorem Hw.start_slices (t : TimerId) (n : Nat) : (h.start t n).slices = h.slices := rfl
@[simp] theorem Hw.start_chains (t : TimerId) (n : Nat) : (h.start t n).chains = h.chains := rfl
@[simp] theorem Hw.start_ldpc (t : TimerId) (n : Nat) : (h.start t n).ldpc = h.ldpc := rfl
@[simp] theorem Hw.start_txStatus (t : TimerId) (n : Nat) : (h.start t n).txStatus = h.txStatus := rfl
@[simp] theorem Hw.start_fabric (t : TimerId) (n : Nat) : (h.start t n).fabric = h.fabric := rfl
@[simp] theorem Hw.start_traffic (t : TimerId) (n : Nat) : (h.start t n).traffic = h.traffic := rfl
@[simp] theorem Hw.start_shank (t : TimerId) (n : Nat) : (h.start t n).shank = h.shank := rfl
@[simp] theorem Hw.start_dram (t : TimerId) (n : Nat) : (h.start t n).dram = h.dram := rfl
@[simp] theorem Hw.start_awl (t : TimerId) (n : Nat) : (h.start t n).awl = h.awl := rfl
@[simp] theorem Hw.start_bench (t : TimerId) (n : Nat) : (h.start t n).bench = h.bench := rfl
@[simp] theorem Hw.start_last (t : TimerId) (n : Nat) : (h.start t n).last = h.last := rfl
@[simp] theorem Hw.start_coex (t : TimerId) (n : Nat) : (h.start t n).coex = h.coex := rfl
@[simp] theorem Hw.start_welt (t : TimerId) (n : Nat) : (h.start t n).welt = h.welt := rfl
@[simp] theorem Hw.start_wire (t : TimerId) (n : Nat) : (h.start t n).wire = h.wire := rfl
@[simp] theorem Hw.start_eth (t : TimerId) (n : Nat) : (h.start t n).eth = h.eth := rfl
@[simp] theorem Hw.start_router (t : TimerId) (n : Nat) : (h.start t n).router = h.router := rfl
@[simp] theorem Hw.start_lanes (t : TimerId) (n : Nat) : (h.start t n).lanes = h.lanes := rfl
@[simp] theorem Hw.start_uzovi (t : TimerId) (n : Nat) : (h.start t n).uzovi = h.uzovi := rfl
@[simp] theorem Hw.start_iltil (t : TimerId) (n : Nat) : (h.start t n).iltil = h.iltil := rfl
@[simp] theorem Hw.start_heel (t : TimerId) (n : Nat) : (h.start t n).heel = h.heel := rfl
@[simp] theorem Hw.start_boot (t : TimerId) (n : Nat) : (h.start t n).boot = h.boot := rfl
@[simp] theorem Hw.start_fifo (t : TimerId) (n : Nat) : (h.start t n).fifo = h.fifo := rfl
@[simp] theorem Hw.start_mainUp (t : TimerId) (n : Nat) : (h.start t n).mainUp = h.mainUp := rfl
@[simp] theorem Hw.start_word (t : TimerId) (n : Nat) (r : Nat) : (h.start t n).word r = h.word r := rfl
@[simp] theorem Hw.start_get (t : TimerId) (n : Nat) (g : RF) : (h.start t n).get g = h.get g := rfl
@[simp] theorem Hw.start_byte (t : TimerId) (n : Nat) (r : Nat) : (h.start t n).byte r = h.byte r := rfl

/-! ### stop -/

@[simp] theorem Hw.stop_regs (t : TimerId) : (h.stop t).regs = h.regs := rfl
@[simp] theorem Hw.stop_mem (t : TimerId) : (h.stop t).mem = h.mem := rfl
@[simp] theorem Hw.stop_et (t : TimerId) : (h.stop t).et = h.et := rfl
@[simp] theorem Hw.stop_etFrac (t : TimerId) : (h.stop t).etFrac = h.etFrac := rfl
@[simp] theorem Hw.stop_nt (t : TimerId) : (h.stop t).nt = h.nt := rfl
@[simp] theorem Hw.stop_rem (t : TimerId) : (h.stop t).rem = h.rem := rfl
@[simp] theorem Hw.stop_tbLock (t : TimerId) : (h.stop t).tbLock = h.tbLock := rfl
@[simp] theorem Hw.stop_etErr (t : TimerId) : (h.stop t).etErr = h.etErr := rfl
@[simp] theorem Hw.stop_latches (t : TimerId) : (h.stop t).latches = h.latches := rfl
@[simp] theorem Hw.stop_free (t : TimerId) : (h.stop t).free = h.free := rfl
@[simp] theorem Hw.stop_time (t : TimerId) : (h.stop t).time = h.time := rfl
@[simp] theorem Hw.stop_speed (t : TimerId) : (h.stop t).speed = h.speed := rfl
@[simp] theorem Hw.stop_slices (t : TimerId) : (h.stop t).slices = h.slices := rfl
@[simp] theorem Hw.stop_chains (t : TimerId) : (h.stop t).chains = h.chains := rfl
@[simp] theorem Hw.stop_ldpc (t : TimerId) : (h.stop t).ldpc = h.ldpc := rfl
@[simp] theorem Hw.stop_txStatus (t : TimerId) : (h.stop t).txStatus = h.txStatus := rfl
@[simp] theorem Hw.stop_fabric (t : TimerId) : (h.stop t).fabric = h.fabric := rfl
@[simp] theorem Hw.stop_traffic (t : TimerId) : (h.stop t).traffic = h.traffic := rfl
@[simp] theorem Hw.stop_shank (t : TimerId) : (h.stop t).shank = h.shank := rfl
@[simp] theorem Hw.stop_dram (t : TimerId) : (h.stop t).dram = h.dram := rfl
@[simp] theorem Hw.stop_awl (t : TimerId) : (h.stop t).awl = h.awl := rfl
@[simp] theorem Hw.stop_bench (t : TimerId) : (h.stop t).bench = h.bench := rfl
@[simp] theorem Hw.stop_last (t : TimerId) : (h.stop t).last = h.last := rfl
@[simp] theorem Hw.stop_coex (t : TimerId) : (h.stop t).coex = h.coex := rfl
@[simp] theorem Hw.stop_welt (t : TimerId) : (h.stop t).welt = h.welt := rfl
@[simp] theorem Hw.stop_wire (t : TimerId) : (h.stop t).wire = h.wire := rfl
@[simp] theorem Hw.stop_eth (t : TimerId) : (h.stop t).eth = h.eth := rfl
@[simp] theorem Hw.stop_router (t : TimerId) : (h.stop t).router = h.router := rfl
@[simp] theorem Hw.stop_lanes (t : TimerId) : (h.stop t).lanes = h.lanes := rfl
@[simp] theorem Hw.stop_uzovi (t : TimerId) : (h.stop t).uzovi = h.uzovi := rfl
@[simp] theorem Hw.stop_iltil (t : TimerId) : (h.stop t).iltil = h.iltil := rfl
@[simp] theorem Hw.stop_heel (t : TimerId) : (h.stop t).heel = h.heel := rfl
@[simp] theorem Hw.stop_boot (t : TimerId) : (h.stop t).boot = h.boot := rfl
@[simp] theorem Hw.stop_fifo (t : TimerId) : (h.stop t).fifo = h.fifo := rfl
@[simp] theorem Hw.stop_mainUp (t : TimerId) : (h.stop t).mainUp = h.mainUp := rfl
@[simp] theorem Hw.stop_word (t : TimerId) (r : Nat) : (h.stop t).word r = h.word r := rfl
@[simp] theorem Hw.stop_get (t : TimerId) (g : RF) : (h.stop t).get g = h.get g := rfl
@[simp] theorem Hw.stop_byte (t : TimerId) (r : Nat) : (h.stop t).byte r = h.byte r := rfl

/-! ### setByte -/

@[simp] theorem Hw.setByte_regs (a : Nat) (b : Byte) : (h.setByte a b).regs = h.regs := rfl
@[simp] theorem Hw.setByte_et (a : Nat) (b : Byte) : (h.setByte a b).et = h.et := rfl
@[simp] theorem Hw.setByte_etFrac (a : Nat) (b : Byte) : (h.setByte a b).etFrac = h.etFrac := rfl
@[simp] theorem Hw.setByte_nt (a : Nat) (b : Byte) : (h.setByte a b).nt = h.nt := rfl
@[simp] theorem Hw.setByte_rem (a : Nat) (b : Byte) : (h.setByte a b).rem = h.rem := rfl
@[simp] theorem Hw.setByte_tbLock (a : Nat) (b : Byte) : (h.setByte a b).tbLock = h.tbLock := rfl
@[simp] theorem Hw.setByte_etErr (a : Nat) (b : Byte) : (h.setByte a b).etErr = h.etErr := rfl
@[simp] theorem Hw.setByte_timers (a : Nat) (b : Byte) : (h.setByte a b).timers = h.timers := rfl
@[simp] theorem Hw.setByte_latches (a : Nat) (b : Byte) : (h.setByte a b).latches = h.latches := rfl
@[simp] theorem Hw.setByte_free (a : Nat) (b : Byte) : (h.setByte a b).free = h.free := rfl
@[simp] theorem Hw.setByte_time (a : Nat) (b : Byte) : (h.setByte a b).time = h.time := rfl
@[simp] theorem Hw.setByte_speed (a : Nat) (b : Byte) : (h.setByte a b).speed = h.speed := rfl
@[simp] theorem Hw.setByte_slices (a : Nat) (b : Byte) : (h.setByte a b).slices = h.slices := rfl
@[simp] theorem Hw.setByte_chains (a : Nat) (b : Byte) : (h.setByte a b).chains = h.chains := rfl
@[simp] theorem Hw.setByte_ldpc (a : Nat) (b : Byte) : (h.setByte a b).ldpc = h.ldpc := rfl
@[simp] theorem Hw.setByte_txStatus (a : Nat) (b : Byte) : (h.setByte a b).txStatus = h.txStatus := rfl
@[simp] theorem Hw.setByte_fabric (a : Nat) (b : Byte) : (h.setByte a b).fabric = h.fabric := rfl
@[simp] theorem Hw.setByte_traffic (a : Nat) (b : Byte) : (h.setByte a b).traffic = h.traffic := rfl
@[simp] theorem Hw.setByte_shank (a : Nat) (b : Byte) : (h.setByte a b).shank = h.shank := rfl
@[simp] theorem Hw.setByte_dram (a : Nat) (b : Byte) : (h.setByte a b).dram = h.dram := rfl
@[simp] theorem Hw.setByte_awl (a : Nat) (b : Byte) : (h.setByte a b).awl = h.awl := rfl
@[simp] theorem Hw.setByte_bench (a : Nat) (b : Byte) : (h.setByte a b).bench = h.bench := rfl
@[simp] theorem Hw.setByte_last (a : Nat) (b : Byte) : (h.setByte a b).last = h.last := rfl
@[simp] theorem Hw.setByte_coex (a : Nat) (b : Byte) : (h.setByte a b).coex = h.coex := rfl
@[simp] theorem Hw.setByte_welt (a : Nat) (b : Byte) : (h.setByte a b).welt = h.welt := rfl
@[simp] theorem Hw.setByte_wire (a : Nat) (b : Byte) : (h.setByte a b).wire = h.wire := rfl
@[simp] theorem Hw.setByte_eth (a : Nat) (b : Byte) : (h.setByte a b).eth = h.eth := rfl
@[simp] theorem Hw.setByte_router (a : Nat) (b : Byte) : (h.setByte a b).router = h.router := rfl
@[simp] theorem Hw.setByte_lanes (a : Nat) (b : Byte) : (h.setByte a b).lanes = h.lanes := rfl
@[simp] theorem Hw.setByte_uzovi (a : Nat) (b : Byte) : (h.setByte a b).uzovi = h.uzovi := rfl
@[simp] theorem Hw.setByte_iltil (a : Nat) (b : Byte) : (h.setByte a b).iltil = h.iltil := rfl
@[simp] theorem Hw.setByte_heel (a : Nat) (b : Byte) : (h.setByte a b).heel = h.heel := rfl
@[simp] theorem Hw.setByte_boot (a : Nat) (b : Byte) : (h.setByte a b).boot = h.boot := rfl
@[simp] theorem Hw.setByte_fifo (a : Nat) (b : Byte) : (h.setByte a b).fifo = h.fifo := rfl
@[simp] theorem Hw.setByte_mainUp (a : Nat) (b : Byte) : (h.setByte a b).mainUp = h.mainUp := rfl
@[simp] theorem Hw.setByte_word (a : Nat) (b : Byte) (r : Nat) : (h.setByte a b).word r = h.word r := rfl
@[simp] theorem Hw.setByte_get (a : Nat) (b : Byte) (g : RF) : (h.setByte a b).get g = h.get g := rfl

/-! ### drawn -/

@[simp] theorem Hw.drawn_regs : h.drawn.regs = h.regs := rfl
@[simp] theorem Hw.drawn_mem : h.drawn.mem = h.mem := rfl
@[simp] theorem Hw.drawn_et : h.drawn.et = h.et := rfl
@[simp] theorem Hw.drawn_etFrac : h.drawn.etFrac = h.etFrac := rfl
@[simp] theorem Hw.drawn_nt : h.drawn.nt = h.nt := rfl
@[simp] theorem Hw.drawn_rem : h.drawn.rem = h.rem := rfl
@[simp] theorem Hw.drawn_tbLock : h.drawn.tbLock = h.tbLock := rfl
@[simp] theorem Hw.drawn_etErr : h.drawn.etErr = h.etErr := rfl
@[simp] theorem Hw.drawn_timers : h.drawn.timers = h.timers := rfl
@[simp] theorem Hw.drawn_latches : h.drawn.latches = h.latches := rfl
@[simp] theorem Hw.drawn_time : h.drawn.time = h.time := rfl
@[simp] theorem Hw.drawn_speed : h.drawn.speed = h.speed := rfl
@[simp] theorem Hw.drawn_slices : h.drawn.slices = h.slices := rfl
@[simp] theorem Hw.drawn_chains : h.drawn.chains = h.chains := rfl
@[simp] theorem Hw.drawn_ldpc : h.drawn.ldpc = h.ldpc := rfl
@[simp] theorem Hw.drawn_txStatus : h.drawn.txStatus = h.txStatus := rfl
@[simp] theorem Hw.drawn_fabric : h.drawn.fabric = h.fabric := rfl
@[simp] theorem Hw.drawn_traffic : h.drawn.traffic = h.traffic := rfl
@[simp] theorem Hw.drawn_shank : h.drawn.shank = h.shank := rfl
@[simp] theorem Hw.drawn_dram : h.drawn.dram = h.dram := rfl
@[simp] theorem Hw.drawn_awl : h.drawn.awl = h.awl := rfl
@[simp] theorem Hw.drawn_bench : h.drawn.bench = h.bench := rfl
@[simp] theorem Hw.drawn_last : h.drawn.last = h.last := rfl
@[simp] theorem Hw.drawn_coex : h.drawn.coex = h.coex := rfl
@[simp] theorem Hw.drawn_welt : h.drawn.welt = h.welt := rfl
@[simp] theorem Hw.drawn_wire : h.drawn.wire = h.wire := rfl
@[simp] theorem Hw.drawn_eth : h.drawn.eth = h.eth := rfl
@[simp] theorem Hw.drawn_router : h.drawn.router = h.router := rfl
@[simp] theorem Hw.drawn_lanes : h.drawn.lanes = h.lanes := rfl
@[simp] theorem Hw.drawn_uzovi : h.drawn.uzovi = h.uzovi := rfl
@[simp] theorem Hw.drawn_iltil : h.drawn.iltil = h.iltil := rfl
@[simp] theorem Hw.drawn_heel : h.drawn.heel = h.heel := rfl
@[simp] theorem Hw.drawn_boot : h.drawn.boot = h.boot := rfl
@[simp] theorem Hw.drawn_fifo : h.drawn.fifo = h.fifo := rfl
@[simp] theorem Hw.drawn_mainUp : h.drawn.mainUp = h.mainUp := rfl
@[simp] theorem Hw.drawn_word (r : Nat) : h.drawn.word r = h.word r := rfl
@[simp] theorem Hw.drawn_get (g : RF) : h.drawn.get g = h.get g := rfl
@[simp] theorem Hw.drawn_byte (r : Nat) : h.drawn.byte r = h.byte r := rfl

/-! ### canon -/

@[simp] theorem Hw.canon_regs : h.canon.regs = h.regs := rfl
@[simp] theorem Hw.canon_et : h.canon.et = h.et := rfl
@[simp] theorem Hw.canon_etFrac : h.canon.etFrac = h.etFrac := rfl
@[simp] theorem Hw.canon_nt : h.canon.nt = h.nt := rfl
@[simp] theorem Hw.canon_rem : h.canon.rem = h.rem := rfl
@[simp] theorem Hw.canon_tbLock : h.canon.tbLock = h.tbLock := rfl
@[simp] theorem Hw.canon_etErr : h.canon.etErr = h.etErr := rfl
@[simp] theorem Hw.canon_timers : h.canon.timers = h.timers := rfl
@[simp] theorem Hw.canon_latches : h.canon.latches = h.latches := rfl
@[simp] theorem Hw.canon_free : h.canon.free = h.free := rfl
@[simp] theorem Hw.canon_time : h.canon.time = h.time := rfl
@[simp] theorem Hw.canon_speed : h.canon.speed = h.speed := rfl
@[simp] theorem Hw.canon_slices : h.canon.slices = h.slices := rfl
@[simp] theorem Hw.canon_chains : h.canon.chains = h.chains := rfl
@[simp] theorem Hw.canon_ldpc : h.canon.ldpc = h.ldpc := rfl
@[simp] theorem Hw.canon_txStatus : h.canon.txStatus = h.txStatus := rfl
@[simp] theorem Hw.canon_fabric : h.canon.fabric = h.fabric := rfl
@[simp] theorem Hw.canon_traffic : h.canon.traffic = h.traffic := rfl
@[simp] theorem Hw.canon_shank : h.canon.shank = h.shank := rfl
@[simp] theorem Hw.canon_dram : h.canon.dram = h.dram := rfl
@[simp] theorem Hw.canon_awl : h.canon.awl = h.awl := rfl
@[simp] theorem Hw.canon_bench : h.canon.bench = h.bench := rfl
@[simp] theorem Hw.canon_last : h.canon.last = h.last := rfl
@[simp] theorem Hw.canon_coex : h.canon.coex = h.coex := rfl
@[simp] theorem Hw.canon_welt : h.canon.welt = h.welt := rfl
@[simp] theorem Hw.canon_wire : h.canon.wire = h.wire := rfl
@[simp] theorem Hw.canon_eth : h.canon.eth = h.eth := rfl
@[simp] theorem Hw.canon_router : h.canon.router = h.router := rfl
@[simp] theorem Hw.canon_lanes : h.canon.lanes = h.lanes := rfl
@[simp] theorem Hw.canon_uzovi : h.canon.uzovi = h.uzovi := rfl
@[simp] theorem Hw.canon_iltil : h.canon.iltil = h.iltil := rfl
@[simp] theorem Hw.canon_heel : h.canon.heel = h.heel := rfl
@[simp] theorem Hw.canon_boot : h.canon.boot = h.boot := rfl
@[simp] theorem Hw.canon_fifo : h.canon.fifo = h.fifo := rfl
@[simp] theorem Hw.canon_mainUp : h.canon.mainUp = h.mainUp := rfl

end Sys2Proof.Machine
end

