-- ==== Sys2Proof/Laws/Clock.lean ====
section
/-!
SUPPORT. The passing of time: it moves the clocks alone, so that registers, memory, timers and every unit stand as they
stood; and the arrival of a timed instant, once for every command that waits for one.
-/
namespace Sys2Proof.Machine
variable (h : Hw)

@[simp] theorem Hw.advance_regs (n : Nat) : (h.advance n).regs = h.regs := by unfold Hw.advance; split <;> rfl
@[simp] theorem Hw.advance_mem (n : Nat) : (h.advance n).mem = h.mem := by unfold Hw.advance; split <;> rfl
@[simp] theorem Hw.advance_tbLock (n : Nat) : (h.advance n).tbLock = h.tbLock := by unfold Hw.advance; split <;> rfl
@[simp] theorem Hw.advance_timers (n : Nat) : (h.advance n).timers = h.timers := by unfold Hw.advance; split <;> rfl
@[simp] theorem Hw.advance_latches (n : Nat) : (h.advance n).latches = h.latches := by unfold Hw.advance; split <;> rfl
@[simp] theorem Hw.advance_free (n : Nat) : (h.advance n).free = h.free := by unfold Hw.advance; split <;> rfl
@[simp] theorem Hw.advance_time (n : Nat) : (h.advance n).time = h.time := by unfold Hw.advance; split <;> rfl
@[simp] theorem Hw.advance_speed (n : Nat) : (h.advance n).speed = h.speed := by unfold Hw.advance; split <;> rfl
@[simp] theorem Hw.advance_slices (n : Nat) : (h.advance n).slices = h.slices := by unfold Hw.advance; split <;> rfl
@[simp] theorem Hw.advance_chains (n : Nat) : (h.advance n).chains = h.chains := by unfold Hw.advance; split <;> rfl
@[simp] theorem Hw.advance_ldpc (n : Nat) : (h.advance n).ldpc = h.ldpc := by unfold Hw.advance; split <;> rfl
@[simp] theorem Hw.advance_txStatus (n : Nat) : (h.advance n).txStatus = h.txStatus := by unfold Hw.advance; split <;> rfl
@[simp] theorem Hw.advance_fabric (n : Nat) : (h.advance n).fabric = h.fabric := by unfold Hw.advance; split <;> rfl
@[simp] theorem Hw.advance_traffic (n : Nat) : (h.advance n).traffic = h.traffic := by unfold Hw.advance; split <;> rfl
@[simp] theorem Hw.advance_shank (n : Nat) : (h.advance n).shank = h.shank := by unfold Hw.advance; split <;> rfl
@[simp] theorem Hw.advance_dram (n : Nat) : (h.advance n).dram = h.dram := by unfold Hw.advance; split <;> rfl
@[simp] theorem Hw.advance_awl (n : Nat) : (h.advance n).awl = h.awl := by unfold Hw.advance; split <;> rfl
@[simp] theorem Hw.advance_bench (n : Nat) : (h.advance n).bench = h.bench := by unfold Hw.advance; split <;> rfl
@[simp] theorem Hw.advance_last (n : Nat) : (h.advance n).last = h.last := by unfold Hw.advance; split <;> rfl
@[simp] theorem Hw.advance_coex (n : Nat) : (h.advance n).coex = h.coex := by unfold Hw.advance; split <;> rfl
@[simp] theorem Hw.advance_welt (n : Nat) : (h.advance n).welt = h.welt := by unfold Hw.advance; split <;> rfl
@[simp] theorem Hw.advance_wire (n : Nat) : (h.advance n).wire = h.wire := by unfold Hw.advance; split <;> rfl
@[simp] theorem Hw.advance_eth (n : Nat) : (h.advance n).eth = h.eth := by unfold Hw.advance; split <;> rfl
@[simp] theorem Hw.advance_router (n : Nat) : (h.advance n).router = h.router := by unfold Hw.advance; split <;> rfl
@[simp] theorem Hw.advance_lanes (n : Nat) : (h.advance n).lanes = h.lanes := by unfold Hw.advance; split <;> rfl
@[simp] theorem Hw.advance_uzovi (n : Nat) : (h.advance n).uzovi = h.uzovi := by unfold Hw.advance; split <;> rfl
@[simp] theorem Hw.advance_iltil (n : Nat) : (h.advance n).iltil = h.iltil := by unfold Hw.advance; split <;> rfl
@[simp] theorem Hw.advance_heel (n : Nat) : (h.advance n).heel = h.heel := by unfold Hw.advance; split <;> rfl
@[simp] theorem Hw.advance_boot (n : Nat) : (h.advance n).boot = h.boot := by unfold Hw.advance; split <;> rfl
@[simp] theorem Hw.advance_fifo (n : Nat) : (h.advance n).fifo = h.fifo := by unfold Hw.advance; split <;> rfl
@[simp] theorem Hw.advance_word (n : Nat) (a : Nat) : (h.advance n).word a = h.word a := by simp [Hw.word]
@[simp] theorem Hw.advance_byte (n : Nat) (a : Nat) : (h.advance n).byte a = h.byte a := by simp [Hw.byte]
@[simp] theorem Hw.advance_get (n : Nat) (f : RF) : (h.advance n).get f = h.get f := by simp [Hw.get]
@[simp] theorem Hw.advance_flag (n : Nat) (f : RF) : (h.advance n).flag f = h.flag f := by simp [Hw.flag]
@[simp] theorem Hw.advance_getI (n : Nat) (f : RF) : (h.advance n).getI f = h.getI f := by simp [Hw.getI]
@[simp] theorem Hw.advance_mainUp (n : Nat) : (h.advance n).mainUp = h.mainUp := by simp [Hw.mainUp]

@[simp] theorem Hw.advanceTo_regs (d : Nat) : (h.advanceTo d).regs = h.regs := by unfold Hw.advanceTo; split <;> simp
@[simp] theorem Hw.advanceTo_mem (d : Nat) : (h.advanceTo d).mem = h.mem := by unfold Hw.advanceTo; split <;> simp
@[simp] theorem Hw.advanceTo_tbLock (d : Nat) : (h.advanceTo d).tbLock = h.tbLock := by unfold Hw.advanceTo; split <;> simp
@[simp] theorem Hw.advanceTo_timers (d : Nat) : (h.advanceTo d).timers = h.timers := by unfold Hw.advanceTo; split <;> simp
@[simp] theorem Hw.advanceTo_latches (d : Nat) : (h.advanceTo d).latches = h.latches := by unfold Hw.advanceTo; split <;> simp
@[simp] theorem Hw.advanceTo_free (d : Nat) : (h.advanceTo d).free = h.free := by unfold Hw.advanceTo; split <;> simp
@[simp] theorem Hw.advanceTo_time (d : Nat) : (h.advanceTo d).time = h.time := by unfold Hw.advanceTo; split <;> simp
@[simp] theorem Hw.advanceTo_speed (d : Nat) : (h.advanceTo d).speed = h.speed := by unfold Hw.advanceTo; split <;> simp
@[simp] theorem Hw.advanceTo_slices (d : Nat) : (h.advanceTo d).slices = h.slices := by unfold Hw.advanceTo; split <;> simp
@[simp] theorem Hw.advanceTo_chains (d : Nat) : (h.advanceTo d).chains = h.chains := by unfold Hw.advanceTo; split <;> simp
@[simp] theorem Hw.advanceTo_ldpc (d : Nat) : (h.advanceTo d).ldpc = h.ldpc := by unfold Hw.advanceTo; split <;> simp
@[simp] theorem Hw.advanceTo_txStatus (d : Nat) : (h.advanceTo d).txStatus = h.txStatus := by unfold Hw.advanceTo; split <;> simp
@[simp] theorem Hw.advanceTo_fabric (d : Nat) : (h.advanceTo d).fabric = h.fabric := by unfold Hw.advanceTo; split <;> simp
@[simp] theorem Hw.advanceTo_traffic (d : Nat) : (h.advanceTo d).traffic = h.traffic := by unfold Hw.advanceTo; split <;> simp
@[simp] theorem Hw.advanceTo_shank (d : Nat) : (h.advanceTo d).shank = h.shank := by unfold Hw.advanceTo; split <;> simp
@[simp] theorem Hw.advanceTo_dram (d : Nat) : (h.advanceTo d).dram = h.dram := by unfold Hw.advanceTo; split <;> simp
@[simp] theorem Hw.advanceTo_awl (d : Nat) : (h.advanceTo d).awl = h.awl := by unfold Hw.advanceTo; split <;> simp
@[simp] theorem Hw.advanceTo_bench (d : Nat) : (h.advanceTo d).bench = h.bench := by unfold Hw.advanceTo; split <;> simp
@[simp] theorem Hw.advanceTo_last (d : Nat) : (h.advanceTo d).last = h.last := by unfold Hw.advanceTo; split <;> simp
@[simp] theorem Hw.advanceTo_coex (d : Nat) : (h.advanceTo d).coex = h.coex := by unfold Hw.advanceTo; split <;> simp
@[simp] theorem Hw.advanceTo_welt (d : Nat) : (h.advanceTo d).welt = h.welt := by unfold Hw.advanceTo; split <;> simp
@[simp] theorem Hw.advanceTo_wire (d : Nat) : (h.advanceTo d).wire = h.wire := by unfold Hw.advanceTo; split <;> simp
@[simp] theorem Hw.advanceTo_eth (d : Nat) : (h.advanceTo d).eth = h.eth := by unfold Hw.advanceTo; split <;> simp
@[simp] theorem Hw.advanceTo_router (d : Nat) : (h.advanceTo d).router = h.router := by unfold Hw.advanceTo; split <;> simp
@[simp] theorem Hw.advanceTo_lanes (d : Nat) : (h.advanceTo d).lanes = h.lanes := by unfold Hw.advanceTo; split <;> simp
@[simp] theorem Hw.advanceTo_uzovi (d : Nat) : (h.advanceTo d).uzovi = h.uzovi := by unfold Hw.advanceTo; split <;> simp
@[simp] theorem Hw.advanceTo_iltil (d : Nat) : (h.advanceTo d).iltil = h.iltil := by unfold Hw.advanceTo; split <;> simp
@[simp] theorem Hw.advanceTo_heel (d : Nat) : (h.advanceTo d).heel = h.heel := by unfold Hw.advanceTo; split <;> simp
@[simp] theorem Hw.advanceTo_boot (d : Nat) : (h.advanceTo d).boot = h.boot := by unfold Hw.advanceTo; split <;> simp
@[simp] theorem Hw.advanceTo_fifo (d : Nat) : (h.advanceTo d).fifo = h.fifo := by unfold Hw.advanceTo; split <;> simp
@[simp] theorem Hw.advanceTo_word (d : Nat) (a : Nat) : (h.advanceTo d).word a = h.word a := by simp [Hw.word]
@[simp] theorem Hw.advanceTo_byte (d : Nat) (a : Nat) : (h.advanceTo d).byte a = h.byte a := by simp [Hw.byte]
@[simp] theorem Hw.advanceTo_get (d : Nat) (f : RF) : (h.advanceTo d).get f = h.get f := by simp [Hw.get]
@[simp] theorem Hw.advanceTo_flag (d : Nat) (f : RF) : (h.advanceTo d).flag f = h.flag f := by simp [Hw.flag]
@[simp] theorem Hw.advanceTo_getI (d : Nat) (f : RF) : (h.advanceTo d).getI f = h.getI f := by simp [Hw.getI]
@[simp] theorem Hw.advanceTo_mainUp (d : Nat) : (h.advanceTo d).mainUp = h.mainUp := by simp [Hw.mainUp]

/-- The arrival of a running timer. -/
theorem Hw.onTimer_eq (t : TimerId) (f : Hw → Hw) {d : Nat} (ht : tget h.timers t = some d) :
    h.onTimer t f = f ((h.advanceTo d).stop t) := by simp [Hw.onTimer, ht]

/-- A timer that does not run does not arrive. -/
theorem Hw.onTimer_none (t : TimerId) (f : Hw → Hw) (ht : tget h.timers t = none) : h.onTimer t f = h := by
  simp [Hw.onTimer, ht]

/-- Elapsed time never runs back, and time passes to the deadline at least while the time base is locked. -/
theorem Hw.advanceTo_et (d : Nat) (hl : h.tbLock = true) : (h.advanceTo d).et = max h.et d := by
  unfold Hw.advanceTo
  split
  · simp only [Hw.advance, hl, if_true]; omega
  · omega

end Sys2Proof.Machine
end

