-- ==== Sys2Proof/Tests/Slice0.lean ====
section
/-!
SUPPORT. The model's own tests: refusals of ill-formed commands, small steps taken from the manual's rules, and for
each statement with hypotheses a state and operands that meet them.
-/
namespace Sys2Proof.Tests
open Sys2Proof.Machine

set_option Elab.async false
set_option linter.unusedVariables false

/-- A small state: the reset state with some fields changed. -/
def wit (f : Hw → Hw) : State := ⟨f Hw.reset, []⟩

/-- A PPDU from `t0` to `t1` on the chains of a mask: 20 MHz, contended, leads and lags of 2, 0.5 and 1 µs. -/
def ppdu (t0 t1 chains : Nat) : TxPpdu := ⟨t0, t1, chains, 0, false, false, 2000, 500, 1000, none, t1, 0⟩

/-- An Awl thread (5) in Run with the word `w` at its PC 0, its context changed by `f`. -/
def awl (w : Word) (f : AwlThread → AwlThread) (h : Hw) : Hw :=
  ((h.setMemLE 0x20000000 4 w.toNat).setThreadState 5 1).modThread 5 f

/-- What a command's hardware satisfies, as a check that can be evaluated. -/
def after (i : Instr) (s : State) (p : Hw → Bool) : Bool :=
  match exec i s with
  | .next t => p t.hw
  | _ => false

/-- The command names something that the device does not have: it is ill-formed, and changes nothing. -/
def TurnedAway (i : Instr) : Prop := i.wellFormed = false ∧ exec i State.reset = .next State.reset

/-! ### Ill-formed commands: one for each check of WellFormed, turned away -/

theorem test_chain_four_of_slice_a_is_no_chain : TurnedAway (.tuneApply 0 4) := ⟨rfl, rfl⟩
theorem test_receive_overrun_of_no_chain : TurnedAway (.converterRxOverrun 1 7) := ⟨rfl, rfl⟩
theorem test_transmit_underrun_of_no_chain : TurnedAway (.converterTxUnderrun 1 7) := ⟨rfl, rfl⟩
theorem test_clip_of_no_chain : TurnedAway (.adcClipGainDrop 0 5) := ⟨rfl, rfl⟩
theorem test_alarm_of_no_chain : TurnedAway (.vswrAlarmClear 0 5) := ⟨rfl, rfl⟩
theorem test_canceller_of_no_chain : TurnedAway (.cancReset 1 4) := ⟨rfl, rfl⟩
theorem test_no_island_fifo : TurnedAway (.hwmClr 30) := ⟨rfl, rfl⟩
theorem test_no_egress : TurnedAway (.egressRequest 12) := ⟨rfl, rfl⟩
theorem test_no_requester : TurnedAway (.latchingRead 27 0x40600040 false) := ⟨rfl, rfl⟩
theorem test_no_access_size : TurnedAway (.shankAccess 0 0x10000000 3 none false) := ⟨rfl, rfl⟩
theorem test_short_image_header : TurnedAway (.imageVerify [1, 2, 3]) := ⟨rfl, rfl⟩
theorem test_short_flash_header : TurnedAway (.core0Boot ⟨1, ⟨[], []⟩, ⟨[], []⟩, ⟨[], []⟩⟩) := ⟨rfl, rfl⟩
theorem test_chain_seven_of_slice_c : Instr.wellFormed (.tuneApply 2 7) = true := by decide

/-! ### Single steps, their expected results taken from the manual -/

/-- R277: with a = 0 and b = 1, RD = 0x9E37_79B9_E17D_05AC. -/
theorem test_hash_of_one : after (.hash 5) (wit (awl 0x68C48001 fun th => { th with g := [(2, 1)] })) (fun h =>
    (h.thread 5).reg 3 == 0x9E3779B9E17D05AC) = true := by decide +kernel

/-- R429: at 7 s + 999,999,999.25 ns the next tick, with no trim due, leaves 8 s + 0.25 ns. -/
theorem test_second_carries : (({ Hw.reset with tbLock := true, et := 1, nt := 8 * ntSecond - 3 * 2 ^ 30 } : Hw).advance 1).nt
    = 8 * ntSecond + 2 ^ 30 := by decide +kernel

/-- R431: at +10 ppm, with SLEW_MAX at reset and REM = -1 ms, a boundary trims by -197,912,093. -/
theorem test_slew_of_one_boundary : (21990233 : Int) + slewOver 21990233 (-1000000 * 2 ^ 32) 0x0D1B7176 1 = -197912093 := by
  decide +kernel

/-- R446: a reference of 125.25 ns and a value of 611.50 ns step by 486.25 ns, more than THRESH = 100 ns. -/
theorem test_path_step : after (.pathWrite 4 (BitVec.ofNat 32 (1223 * 2 ^ 15)))
    (wit fun h => (((h.set (R.TIME_PSTAT_REF_VALID 4) 1).set (R.TIME_PATH_REF_REF 4) (501 * 2 ^ 14)).set R.TIME_PATH_CFG_THRESH
      100)) (fun h => h.get (R.TIME_PSTAT_PATH_STEP_EV 4) == 1 && h.get (R.TIME_PATH_REF_REF 4) == 501 * 2 ^ 14) = true := by
  decide +kernel

/-- R447: a hold of 16 x 2^-3 s is 2 s. -/
theorem test_hold_time : ((Hw.reset.set R.TIME_PATH_CFG_HOLD_N 16).setI R.TIME_PATH_CFG_LOG_SYNC (-3)).holdTime = 2000000000 := by
  decide +kernel

/-- R496: address 0x10_0001_2345 with ECC off lies in channel 1, bank 1, row 1. -/
theorem test_dram_place : dramChannel 0x1000012345 = 1 ∧ Hw.reset.dramPlace 0x1000012345 = (1, 1) := by decide +kernel

/-- R501: at D = 28,000 and CODE 3 the channel is urgent, and the first REFab leaves 26,047. -/
theorem test_catch_up_refresh : after (.refreshDecision 0)
    (wit fun h => ((h.set R.DRC_STAT_STATE 2).set (R.DRC_DEBT_D 0) 28000).set (R.DRC_REF_STAT_CODE 0) 3)
    (fun h => h.get (R.DRC_DEBT_D 0) == 26047) = true := by decide +kernel

/-- R490, grant 4: the counter of master 10 stands at LIMIT = 3, so it is granted under the forced rule, ahead of the
class E request, and the window of 16 begins. -/
theorem test_forced_grant : after (.arbiterGrant 20 false .clean)
    (wit fun h => ((h.set (R.SHK_ARB_CFG_LIMIT 20) 3).set (R.SHK_ARB_CFG_WIN 20) 16).setArbiter 20
      ⟨[⟨21, none, false, 0x11000000, 64, none, true, false⟩, ⟨10, none, false, 0x11000000, 8, none, false, false⟩,
        ⟨8, some 0, true, 0x11000000, 8, none, false, false⟩], [(10, 3)], 0, some 21, some 21, some (21, 2)⟩)
    (fun h => (h.arbiter 20).waitOf 10 == 0 && (h.arbiter 20).window == 16 && (h.arbiter 20).turn == none &&
      (h.arbiter 20).lastGrant == some 10) = true := by decide +kernel

/-- R450: a periodic output whose WIDTH is not below its PERIOD is not armed. -/
theorem test_pulse_too_wide : after (.ppsModeWrite 3 2)
    (wit fun h => (h.set (R.TIME_PPS_PERIOD_PERIOD 3) 100).set (R.TIME_PPS_WIDTH_WIDTH 3) 100)
    (fun h => h.ppsMode 3 == 0 && h.get R.TIME_STAT_CFG_ERR == 1) = true := by decide +kernel

/-- R516: two copies of the SECURE group reading all ones make the state Secured. -/
theorem test_secured_of_two_copies : ({ Hw.reset with iltil := { Hw.reset.iltil with shadow :=
    [(6, BitVec.allOnes 32), (7, BitVec.allOnes 32), (10, BitVec.allOnes 32), (11, BitVec.allOnes 32)] } } : Hw).lifecycleOf = 2 := by
  decide +kernel

/-- R555: crystal off, the wake receiver on DIV alone among the sources: PEAK = 45 + 5 + 310 in 0.01 mA. -/
theorem test_peak : (Hw.reset.set R.HEEL_WUR_CFG_DIV 1).peak = 360 := by decide +kernel

/-! ### A state and operands for every statement with hypotheses -/

theorem witness_StepRunsFront : ∃ (c : Instr) (rest : List Instr) (s : State), s.pending = c :: rest :=
  ⟨.holdEnd, [.slewAbort], { wit (fun h => h) with pending := [.holdEnd, .slewAbort] }, rfl⟩

theorem witness_MemoryStaysCanonical : ∃ s t : State, s.Sound ∧ step s = .next t :=
  ⟨wit (fun h => h), _, by unfold State.Sound; decide, rfl⟩

theorem witness_EveryCommandCompletes :
    (∃ c : Instr, c.wellFormed = false) ∧ (∃ s : State, s.hw.mainUp = false ∧ toHeel .holdEnd = false) :=
  ⟨⟨.hwmClr ⟨30, by decide⟩, by decide⟩, ⟨wit (fun h => h.modHeel fun u => { u with powered := false }), by decide⟩⟩

theorem witness_SentinelsAndAvsLoop :
    (∃ (s : State) (count n d : Nat), s.hw.mainUp = true ∧ tget s.hw.timers .sentWindow = some d ∧ s.hw.speed.sweepAt = some n ∧ n < 16) ∧
    (∃ (s : State) (d : Nat), s.hw.mainUp = true ∧ tget s.hw.timers .sweep = some d) ∧
    (∃ (s : State), s.hw.mainUp = true ∧ s.hw.speed.sweepAt = some 16) ∧
    (∃ (s : State) (v : Word) (t : AvsTransaction), s.hw.mainUp = true ∧ s.hw.speed.transaction = some t) ∧
    (∃ (s : State) (v : Word) (t : AvsTransaction), s.hw.mainUp = true ∧ s.hw.speed.transaction = some t) ∧
    (∃ (s : State) (v : Word), s.hw.mainUp = true ∧ s.hw.speed.transaction = none ∧ s.hw.speed.waits = [] ∧ s.hw.get R.HEEL_PS_STAT_STATE = 0) ∧
    (∃ (s : State) (v : Word), s.hw.mainUp = true ∧ s.hw.speed.transaction = none ∧ s.hw.speed.waits = [] ∧ s.hw.get R.HEEL_PS_STAT_STATE = 0) ∧
    (∃ (s : State) (v : Word) (lo hi : Nat), s.hw.mainUp = true ∧ lo = clampNat 650 850 (fieldOf v R.SYS_AVS_LIM_VMIN) ∧ hi = clampNat 650 850 (fieldOf v R.SYS_AVS_LIM_VMAX) ∧ lo ≤ hi ∧ fieldOf v R.SYS_AVS_LIM_RAIL ≠ 15) ∧
    (∃ (s : State) (v : Word), s.hw.mainUp = true ∧ (clampNat 650 850 (fieldOf v R.SYS_AVS_LIM_VMAX) < clampNat 650 850 (fieldOf v R.SYS_AVS_LIM_VMIN) ∨ fieldOf v R.SYS_AVS_LIM_RAIL = 15)) ∧
    (∃ (s : State) (mv : BitVec 16) (t : AvsTransaction), s.hw.mainUp = true ∧ s.hw.speed.transaction = some t) ∧
    (∃ (s : State) (mv : BitVec 16) (rail v n : Nat), s.hw.mainUp = true ∧ s.hw.speed.transaction = some ⟨.writeTarget v, rail, n⟩) ∧
    (∃ (s : State) (mv : BitVec 16) (rail n : Nat), s.hw.mainUp = true ∧ s.hw.speed.transaction = some ⟨.readTarget, rail, n⟩ ∧ s.hw.speed.waits = [] ∧ s.hw.speed.emergencyWaits = false) ∧
    (∃ (s : State) (t : AvsTransaction) (d : Nat), s.hw.mainUp = true ∧ tget s.hw.timers .avsRetry = some d ∧ s.hw.speed.transaction = some t ∧ t.retries < 3) ∧
    (∃ (s : State) (t : AvsTransaction) (d : Nat), s.hw.mainUp = true ∧ tget s.hw.timers .avsRetry = some d ∧ s.hw.speed.transaction = some t ∧ 3 ≤ t.retries) ∧
    (∃ (s : State) (d : Nat), s.hw.mainUp = true ∧ tget s.hw.timers .avsSettle = some d) :=
  ⟨⟨wit (fun h => { h with timers := [(.sentWindow, 5000)], speed := { h.speed with sweepAt := some 15 } }), 4096, 15, 5000, by decide +kernel⟩,
   ⟨wit (fun h => h), (resetEt + 1024000), by decide +kernel⟩,
   ⟨wit (fun h => { h with speed := { h.speed with sweepAt := some 16 } }), by decide +kernel⟩,
   ⟨wit (fun h => { h with speed := { h.speed with transaction := some ⟨.writeTarget 700, 0, 0⟩ } }), 0x1, (⟨.writeTarget 700, 0, 0⟩), by decide +kernel⟩,
   ⟨wit (fun h => { h with speed := { h.speed with transaction := some ⟨.writeTarget 700, 0, 0⟩ } }), 700, (⟨.writeTarget 700, 0, 0⟩), by decide +kernel⟩,
   ⟨wit (fun h => h), 0x1, by decide +kernel⟩,
   ⟨wit (fun h => h.set R.SYS_AVS_CTL_MODE 2), 700, by decide +kernel⟩,
   ⟨wit (fun h => h), 0, 650, 650, by decide +kernel⟩,
   ⟨wit (fun h => h), 0xF00000, by decide +kernel⟩,
   ⟨wit (fun h => { h with speed := { h.speed with transaction := some ⟨.writeTarget 700, 0, 0⟩ } }), 700, (⟨.writeTarget 700, 0, 0⟩), by decide +kernel⟩,
   ⟨wit (fun h => { h with speed := { h.speed with transaction := some ⟨.writeTarget 700, 0, 0⟩ } }), 700, 0, 700, 0, by decide +kernel⟩,
   ⟨wit (fun h => { h with speed := { h.speed with transaction := some ⟨.readTarget, 0, 0⟩ } }), 700, 0, 0, by decide +kernel⟩,
   ⟨wit (fun h => { h with timers := [(.avsRetry, 1)], speed := { h.speed with transaction := some ⟨.readTarget, 0, 2⟩ } }), (⟨.readTarget, 0, 2⟩), 1, by decide +kernel⟩,
   ⟨wit (fun h => { h with timers := [(.avsRetry, 1)], speed := { h.speed with transaction := some ⟨.readTarget, 0, 3⟩ } }), (⟨.readTarget, 0, 3⟩), 1, by decide +kernel⟩,
   ⟨wit (fun h => h.startAt .avsSettle 1), 1, by decide +kernel⟩⟩

theorem witness_FunctionControlAndIslandFifos :
    (∃ (s : State) (f : FuncId), s.hw.mainUp = true ∧ s.hw.get (fctlEn f) = 0 ∧ s.hw.funcState f = stClosed ∧ (s.hw.openCheck f).2 = true) ∧
    (∃ (s : State) (f : FuncId), s.hw.mainUp = true ∧ s.hw.get (fctlEn f) = 0 ∧ s.hw.funcState f = stClosed ∧ (s.hw.openCheck f).2 = false) ∧
    (∃ (s : State) (f : FuncId), s.hw.mainUp = true ∧ s.hw.get (fctlEn f) = 0 ∧ s.hw.funcState f = stClosing) ∧
    (∃ (s : State) (f : FuncId), s.hw.mainUp = true ∧ s.hw.get (fctlEn f) = 1 ∧ s.hw.funcState f = stOpen) ∧
    (∃ (s : State) (f : FuncId), s.hw.mainUp = true ∧ s.hw.funcState f = stOpening ∧ s.hw.prepared f = true ∧ (∀ r, f = .ring r → s.hw.pushersOf r = [])) ∧
    (∃ (s : State) (f : FuncId), s.hw.mainUp = true ∧ s.hw.funcState f = stClosing ∧ s.hw.drained f = true) ∧
    (∃ (s : State) (f : FuncId) (d : Nat), s.hw.mainUp = true ∧ tget s.hw.timers (.drain f) = some d ∧ s.hw.funcState f = stClosing) ∧
    (∃ (s : State) (x : Fin 3) (c : Fin 8), s.hw.mainUp = true ∧ chainExists x c = true) ∧
    (∃ (s : State) (x : Fin 3) (c : Fin 8) (p : TxPpdu), s.hw.mainUp = true ∧ chainExists x c = true ∧ (s.hw.slice x).tx = some p ∧ s.hw.et < p.t1 ∧ p.response = false) ∧
    (∃ (s : State) (n : Fin 12), s.hw.mainUp = true) ∧
    (∃ (s : State) (n : Fin 12), s.hw.mainUp = true) ∧
    (∃ (s : State) (n : Fin 12) (x : EthTx), s.hw.mainUp = true ∧ n.val < 8 ∧ (s.hw.ethPort n).tx = some x ∧ x.started = true) ∧
    (∃ (s : State) (n : Fin 12) (x : HopTx) (t : Nat), s.hw.mainUp = true ∧ 8 ≤ n.val ∧ (s.hw.hop (n.val - 8)).tx = some x ∧ x.startAt = some t ∧ s.hw.hopSending (n.val - 8) = true) ∧
    (∃ (s : State) (x : Fin 3) (c : Fin 8) (k : Fin 76), s.hw.mainUp = true ∧ k.val = 8 * x.val + c.val ∧ chainExists x c = true ∧ s.hw.fifoNow k ≤ 64) ∧
    (∃ (s : State) (n : Fin 12) (k : Fin 76), s.hw.mainUp = true ∧ k.val = 64 + n.val ∧ s.hw.fifoNow k ≤ 64) ∧
    (∃ (s : State) (n : Fin 12) (level : Fin 65) (x : HopTx), s.hw.mainUp = true ∧ 8 ≤ n.val ∧ (s.hw.hop (n.val - 8)).tx = some x ∧ x.startAt = none) ∧
    (∃ (s : State) (n : Fin 12) (level : Fin 65) (x : EthTx), s.hw.mainUp = true ∧ n.val < 8 ∧ (s.hw.ethPort n).tx = some x ∧ x.started = false) :=
  ⟨⟨wit (fun h => h), (.queue 5), by decide +kernel⟩,
   ⟨wit (fun h => h.set (R.TM_Q_W6_EGRESS 9000) 13), (.queue 9000), by decide +kernel⟩,
   ⟨wit (fun h => h.set (fstatState (.engine 63)) stClosing), (.engine 63), by decide +kernel⟩,
   ⟨wit (fun h => (h.set (fctlEn (.ring 3)) 1).set (fstatState (.ring 3)) stOpen), (.ring 3), by decide +kernel⟩,
   ⟨wit (fun h => h.set (fstatState (.lane 11)) stOpening), (.lane 11), by decide +kernel⟩,
   ⟨wit (fun h => h.set (fstatState (.eth 7)) stClosing), (.eth 7), by decide +kernel⟩,
   ⟨wit (fun h => (h.set (fstatState (.slice 2)) stClosing).startAt (.drain (.slice 2)) 9000000), (.slice 2), 9000000, by decide +kernel⟩,
   ⟨wit (fun h => h), 2, 7, by decide +kernel⟩,
   ⟨wit (fun h => h.modSlice 0 fun y => { y with tx := some (ppdu 0 9000000 1) }), 0, 3, (ppdu 0 9000000 1), by decide +kernel⟩,
   ⟨wit (fun h => h), 8, by decide +kernel⟩,
   ⟨wit (fun h => h), 11, by decide +kernel⟩,
   ⟨wit (fun h => h.modEth 7 fun p => { p with tx := some ⟨3, true, true, 0, 0, Stamp.zero, false, 0⟩ }), 7, (⟨3, true, true, 0, 0, Stamp.zero, false, 0⟩), by decide +kernel⟩,
   ⟨wit (fun h => h.modHop 3 fun p => { p with tx := some ⟨true, 72, 0, false, some 5, 9000000⟩ }), 11, (⟨true, 72, 0, false, some 5, 9000000⟩), 5, by decide +kernel⟩,
   ⟨wit (fun h => h), 1, 3, 11, by decide +kernel⟩,
   ⟨wit (fun h => h), 11, 75, by decide +kernel⟩,
   ⟨wit (fun h => h.modHop 3 fun p => { p with tx := some ⟨true, 72, 0, false, none, 0⟩ }), 11, 9, (⟨true, 72, 0, false, none, 0⟩), by decide +kernel⟩,
   ⟨wit (fun h => h.modEth 7 fun p => { p with tx := some ⟨3, true, false, 0, 0, Stamp.zero, false, 0⟩ }), 7, 9, (⟨3, true, false, 0, 0, Stamp.zero, false, 0⟩), by decide +kernel⟩⟩

theorem witness_SynthesiserStates :
    (∃ (s : State) (x : Fin 3), s.hw.mainUp = true ∧ ncoValid x (s.hw.stagedRx x) (s.hw.stagedTx x) = false) ∧
    (∃ (s : State) (x : Fin 3), s.hw.mainUp = true ∧ ncoValid x (s.hw.stagedRx x) (s.hw.stagedTx x) = true ∧ (s.hw.synth x = synReady ∨ (s.hw.slice x).cal.isSome = true)) ∧
    (∃ (s : State) (x : Fin 3), s.hw.mainUp = true ∧ ncoValid x (s.hw.stagedRx x) (s.hw.stagedTx x) = true ∧ s.hw.synth x ≠ synReady ∧ (s.hw.slice x).cal = none) ∧
    (∃ (s : State) (x : Fin 3) (rx tx : Nat), s.hw.mainUp = true ∧ (s.hw.slice x).retune = some (rx, tx) ∧ rx < 2 ^ 48 ∧ tx < 2 ^ 48 ∧ s.hw.receiving x = false ∧ s.hw.transmitting x = false ∧ (s.hw.slice x).cal = none) ∧
    (∃ (s : State) (x : Fin 3) (d : Nat), s.hw.mainUp = true ∧ tget s.hw.timers (.retune x) = some d) ∧
    (∃ (s : State) (x : Fin 3) (d : Nat), s.hw.mainUp = true ∧ s.hw.synth x = synStart ∧ tget s.hw.timers (.synth x) = some d) ∧
    (∃ (s : State) (x : Fin 3), s.hw.mainUp = true ∧ s.hw.synth x = synAcquire) ∧
    (∃ (s : State) (x : Fin 3) (d : Nat), s.hw.mainUp = true ∧ s.hw.synth x = synAcquire ∧ tget s.hw.timers (.synth x) = some d) ∧
    (∃ (s : State) (x : Fin 3) (d : Nat) (k : Calibration), s.hw.mainUp = true ∧ s.hw.synth x = synSettle ∧ tget s.hw.timers (.synth x) = some d ∧ (s.hw.slice x).cal = some k) ∧
    (∃ (s : State) (x : Fin 3) (d : Nat), s.hw.mainUp = true ∧ s.hw.synth x = synSettle ∧ tget s.hw.timers (.synth x) = some d ∧ (s.hw.slice x).cal = none ∧ ((s.hw.slice x).needFull = true ∨ s.hw.get (R.RFS_CAL_STAT_VALID x) = 0)) ∧
    (∃ (s : State) (x : Fin 3) (d : Nat), s.hw.mainUp = true ∧ s.hw.synth x = synSettle ∧ tget s.hw.timers (.synth x) = some d ∧ (s.hw.slice x).cal = none ∧ (s.hw.slice x).needFull = false ∧ s.hw.get (R.RFS_CAL_STAT_VALID x) = 1) ∧
    (∃ (s : State) (x : Fin 3), s.hw.mainUp = true ∧ s.hw.synth x = synReady) ∧
    (∃ (s : State) (x : Fin 3) (p : TxPpdu), s.hw.mainUp = true ∧ s.hw.synth x = synReady ∧ (s.hw.slice x).tx = some p ∧ s.hw.et < p.t1 ∧ p.response = false) ∧
    (∃ (s : State) (x : Fin 3), s.hw.mainUp = true ∧ s.hw.synth x = synFault) ∧
    (∃ (s : State) (x : Fin 3), s.hw.mainUp = true ∧ s.hw.synth x ≠ synFault) :=
  ⟨⟨wit (fun h => h.set (R.RFS_NCO_RX_HI_W_RX_HI 0) 0), 0, by decide +kernel⟩,
   ⟨wit (fun h => (((((h.set (R.RFS_SYNTH_STATE 0) 4).set (R.RFS_NCO_RX_HI_W_RX_HI 0) (ncoRxWord 0 2440000 / 2 ^ 32)).set (R.RFS_NCO_RX_LO_W_RX_LO 0) (ncoRxWord 0 2440000)).set (R.RFS_NCO_TX_HI_W_TX_HI 0) (ncoTxWord 0 2440000 / 2 ^ 32)).set (R.RFS_NCO_TX_LO_W_TX_LO 0) (ncoTxWord 0 2440000))), 0, by decide +kernel⟩,
   ⟨wit (fun h => (((((h.set (R.RFS_SYNTH_STATE 2) 0).set (R.RFS_NCO_RX_HI_W_RX_HI 2) (ncoRxWord 2 6440000 / 2 ^ 32)).set (R.RFS_NCO_RX_LO_W_RX_LO 2) (ncoRxWord 2 6440000)).set (R.RFS_NCO_TX_HI_W_TX_HI 2) (ncoTxWord 2 6440000 / 2 ^ 32)).set (R.RFS_NCO_TX_LO_W_TX_LO 2) (ncoTxWord 2 6440000))), 2, by decide +kernel⟩,
   ⟨wit (fun h => h.modSlice 1 fun y => { y with retune := some (2 ^ 48 - 1, 5) }), 1, (2 ^ 48 - 1), 5, by decide +kernel⟩,
   ⟨wit (fun h => ((h.set (fstatState (.slice 2)) 2).set (R.RFS_SYNTH_STATE 2) 4).startAt (.retune 2) 7), 2, 7, by decide +kernel⟩,
   ⟨wit (fun h => (h.set (R.RFS_SYNTH_STATE 2) 1).startAt (.synth 2) 7), 2, 7, by decide +kernel⟩,
   ⟨wit (fun h => h.set (R.RFS_SYNTH_STATE 2) 2), 2, by decide +kernel⟩,
   ⟨wit (fun h => ((h.set (R.RFS_SYNTH_STATE 1) 2).startAt (.synth 1) 7)), 1, 7, by decide +kernel⟩,
   ⟨wit (fun h => ((h.set (R.RFS_SYNTH_STATE 1) 3).startAt (.synth 1) 7).modSlice 1 fun y => { y with cal := some ⟨true, false, 3, true⟩ }), 1, 7, (⟨true, false, 3, true⟩), by decide +kernel⟩,
   ⟨wit (fun h => ((h.set (R.RFS_SYNTH_STATE 1) 3).startAt (.synth 1) 7)), 1, 7, by decide +kernel⟩,
   ⟨wit (fun h => ((h.set (R.RFS_SYNTH_STATE 1) 3).set (R.RFS_CAL_STAT_VALID 1) 1).startAt (.synth 1) 7 |>.modSlice 1 fun y => { y with needFull := false, woken := true }), 1, 7, by decide +kernel⟩,
   ⟨wit (fun h => (h.set (R.RFS_SYNTH_STATE 1) 4).modSlice 1 fun y => { y with tx := some (ppdu 0 9000000 1), ncoRx := 5 }), 1, by decide +kernel⟩,
   ⟨wit (fun h => (h.set (R.RFS_SYNTH_STATE 1) 4).modSlice 1 fun y => { y with tx := some (ppdu 0 9000000 1) }), 1, (ppdu 0 9000000 1), by decide +kernel⟩,
   ⟨wit (fun h => (h.set (R.RFS_SYNTH_STATE 1) 6).set (R.RFS_SYNTH_LOCKED 1) 1), 1, by decide +kernel⟩,
   ⟨wit (fun h => h), 1, by decide +kernel⟩⟩

theorem witness_TemperatureAndCalibration :
    (∃ (s : State) (x : Fin 3) (v : Word), s.hw.mainUp = true ∧ max 4 (fieldOf v (R.RFS_CAL_CTL_FORCE_THRESH x)) ≤ max 2 (fieldOf v (R.RFS_CAL_CTL_THRESH x))) ∧
    (∃ (s : State) (x : Fin 3) (v : Word), s.hw.mainUp = true ∧ max 2 (fieldOf v (R.RFS_CAL_CTL_THRESH x)) < max 4 (fieldOf v (R.RFS_CAL_CTL_FORCE_THRESH x))) ∧
    (∃ (s : State) (x : Fin 3) (t : Int) (d : Nat), s.hw.mainUp = true ∧ tget s.hw.timers (.temp x) = some d) ∧
    (∃ (s : State) (x : Fin 3) (full forced : Bool), s.hw.mainUp = true ∧ s.hw.synth x = synReady ∧ s.hw.transmitting x = false ∧ (s.hw.slice x).calWaits = some (full, forced)) ∧
    (∃ (s : State) (x : Fin 3) (fails : BitVec 8) (k : Calibration), s.hw.mainUp = true ∧ (s.hw.slice x).cal = some k ∧ k.starting = false ∧ -512 ≤ k.temp ∧ k.temp ≤ 511) :=
  ⟨⟨wit (fun h => h), 1, 0x1051, by decide +kernel⟩,
   ⟨wit (fun h => h), 1, 0x1003, by decide +kernel⟩,
   ⟨wit (fun h => h), 1, -65, (resetEt + 1024000), by decide +kernel⟩,
   ⟨wit (fun h => (h.set (R.RFS_SYNTH_STATE 1) 4).modSlice 1 fun y => { y with calWaits := some (true, true) }), 1, true, true, by decide +kernel⟩,
   ⟨wit (fun h => (h.set (R.RFS_SYNTH_STATE 1) 5).modSlice 1 fun y => { y with cal := some ⟨true, false, -512, false⟩ }), 1, 0x3, (⟨true, false, -512, false⟩), by decide +kernel⟩⟩

theorem witness_TransmitInstantsTunerMaskAndCanceller :
    (∃ (s : State) (x : Fin 3) (p : TxPpdu) (d : Nat), s.hw.mainUp = true ∧ tget s.hw.timers (.trLead x) = some d ∧ (s.hw.slice x).tx = some p ∧ ((s.hw.advanceTo d).stop (.trLead x)).txReady x p.t0 = true ∧ ((s.hw.advanceTo d).stop (.trLead x)).cxPermits x = true ∧ ((s.hw.advanceTo d).stop (.trLead x)).inQuiet x = false) ∧
    (∃ (s : State) (x : Fin 3) (p : TxPpdu) (d : Nat), s.hw.mainUp = true ∧ tget s.hw.timers (.trLead x) = some d ∧ (s.hw.slice x).tx = some p ∧ p.response = false ∧ (((s.hw.advanceTo d).stop (.trLead x)).txReady x p.t0 && ((s.hw.advanceTo d).stop (.trLead x)).cxPermits x && !((s.hw.advanceTo d).stop (.trLead x)).inQuiet x) = false) ∧
    (∃ (s : State) (x : Fin 3) (p : TxPpdu) (d : Nat), s.hw.mainUp = true ∧ tget s.hw.timers (.trLead x) = some d ∧ (s.hw.slice x).tx = some p ∧ p.response = true ∧ (((s.hw.advanceTo d).stop (.trLead x)).txReady x p.t0 && ((s.hw.advanceTo d).stop (.trLead x)).cxPermits x && !((s.hw.advanceTo d).stop (.trLead x)).inQuiet x) = false) ∧
    (∃ (s : State) (x : Fin 3) (p : TxPpdu) (d : Nat), s.hw.mainUp = true ∧ tget s.hw.timers (.paLead x) = some d ∧ (s.hw.slice x).tx = some p) ∧
    (∃ (s : State) (x : Fin 3) (d : Nat), s.hw.mainUp = true ∧ tget s.hw.timers (.paLag x) = some d) ∧
    (∃ (s : State) (x : Fin 3) (tx : List (List Cx)) (leak : Leakage) (p : TxPpdu) (d : Nat), s.hw.mainUp = true ∧ tget s.hw.timers (.trLag x) = some d ∧ (s.hw.slice x).tx = some p) ∧
    (∃ (s : State) (x : Fin 3) (tx : List (List Cx)) (leak : Leakage) (p : TxPpdu) (c : Fin 8) (v pv py d : Nat), s.hw.mainUp = true ∧ tget s.hw.timers (.trLag x) = some d ∧ (s.hw.slice x).tx = some p ∧ x ≠ 0 ∧ v = 3 - x.val ∧ chainExists v c = true ∧ leak.powers[c.val]? = some (pv, py) ∧ 0 < py ∧ p.t0 + 16000 ≤ p.t1 ∧ s.hw.receiving v = false ∧ s.hw.transmitting v = false ∧ (s.hw.slice v).idleFrom ≤ p.t0) ∧
    (∃ (s : State) (x : Fin 3) (c : Fin 8), s.hw.mainUp = true ∧ chainExists x c = true ∧ (s.hw.chain x c).tunePending = true ∧ s.hw.inSetting x = false) ∧
    (∃ (s : State) (x : Fin 3) (c : Fin 8) (m : List Reflection) (r : Reflection) (p : TxPpdu) (mag d : Nat), s.hw.mainUp = true ∧ tget s.hw.timers (.mismatch x) = some d ∧ (s.hw.slice x).tx = some p ∧ chainExists x c = true ∧ p.chains.testBit c = true ∧ m[c.val]? = some r ∧ mag = min 255 (rneDiv r.mag 256).toNat) ∧
    (∃ (s : State) (x : Fin 3) (c : Fin 8), s.hw.mainUp = true ∧ chainExists x c = true) ∧
    (∃ (s : State) (x : Fin 3) (bins : List Int) (p : TxPpdu) (mode : Nat), s.hw.mainUp = true ∧ (s.hw.slice x).tx = some p ∧ p.t0 + 16000 ≤ p.t1 ∧ mode = s.hw.get (R.RFS_FE_CTL_MON_MODE x) ∧ (mode = 1 ∨ mode = 2) ∧ s.hw.maskTable x p.width ≠ [] ∧ maskRises (s.hw.maskTable x p.width) = true) ∧
    (∃ (s : State) (x : Fin 3) (bins : List Int) (p : TxPpdu) (mode : Nat), s.hw.mainUp = true ∧ (s.hw.slice x).tx = some p ∧ p.t0 + 16000 ≤ p.t1 ∧ mode = s.hw.get (R.RFS_FE_CTL_MON_MODE x) ∧ (mode = 1 ∨ mode = 2) ∧ maskRises (s.hw.maskTable x p.width) = false) ∧
    (∃ (s : State) (x : Fin 3) (c : Fin 8), s.hw.mainUp = true ∧ chainExists x c = true ∧ x ≠ 0) ∧
    (∃ (s : State) (c : Fin 8), s.hw.mainUp = true ∧ c.val < 4) :=
  ⟨⟨wit (fun h => (h.modSlice 2 fun y => { y with tx := some (ppdu 5000 30000 5), lnaen := 255, rx := { y.rx with phase := .beforeLsig } }).startAt (.trLead 2) 4000 |>.set (R.RFS_SYNTH_STATE 2) 4), 2, (ppdu 5000 30000 5), 4000, by decide +kernel⟩,
   ⟨wit (fun h => (h.modSlice 2 fun y => { y with tx := some (ppdu 5000 30000 5) }).startAt (.trLead 2) 4000), 2, (ppdu 5000 30000 5), 4000, by decide +kernel⟩,
   ⟨wit (fun h => (h.modSlice 2 fun y => { y with tx := some { ppdu 5000 30000 5 with response := true } }).startAt (.trLead 2) 4000), 2, ({ ppdu 5000 30000 5 with response := true }), 4000, by decide +kernel⟩,
   ⟨wit (fun h => (h.modSlice 2 fun y => { y with tx := some (ppdu 5000 30000 5) }).startAt (.paLead 2) 4000), 2, (ppdu 5000 30000 5), 4000, by decide +kernel⟩,
   ⟨wit (fun h => (h.modSlice 2 fun y => { y with tx := some (ppdu 5000 30000 5), paen := 5 }).startAt (.paLag 2) 4000), 2, 4000, by decide +kernel⟩,
   ⟨wit (fun h => (h.modSlice 1 fun y => { y with tx := some (ppdu 5000 30000 5), paen := 5 }).startAt (.trLag 1) 4000), 1, ([[⟨5, 5⟩]]), (⟨[], [], []⟩), (ppdu 5000 30000 5), 4000, by decide +kernel⟩,
   ⟨wit (fun h => (h.modSlice 1 fun y => { y with tx := some (ppdu 5000 30000 5), paen := 5 }).startAt (.trLag 1) 4000), 1, [], (⟨[], [], [(5000, 3)]⟩), (ppdu 5000 30000 5), 0, 2, 5000, 3, 4000, by decide +kernel⟩,
   ⟨wit (fun h => h.modChain 2 7 fun y => { y with tunePending := true }), 2, 7, by decide +kernel⟩,
   ⟨wit (fun h => (((h.modSlice 2 fun y => { y with tx := some (ppdu 5000 90000 5) }).startAt (.mismatch 2) 9).set (R.RFS_VSWR_EN 2 2) 1).set (R.RFS_VSWR_ACTION 2 2) 2), 2, 2, ([⟨0, 0⟩, ⟨0, 0⟩, ⟨65535, 65535⟩]), (⟨65535, 65535⟩), (ppdu 5000 90000 5), 255, 9, by decide +kernel⟩,
   ⟨wit (fun h => h.set (R.RFS_VSWR_TX_OFF 2 7) 1), 2, 7, by decide +kernel⟩,
   ⟨wit (fun h => ((((h.modSlice 2 fun y => { y with tx := some (ppdu 5000 90000 5) }).set (R.RFS_FE_CTL_MON_MODE 2) 1).set (R.RFS_MASK_OFFSET 2 0 0) 5).set (R.RFS_MASK_OFFSET 2 0 1) 500).set (R.RFS_MASK_OFFSET 2 0 2) 0), 2, ([0, 5]), (ppdu 5000 90000 5), 1, by decide +kernel⟩,
   ⟨wit (fun h => ((((h.modSlice 2 fun y => { y with tx := some (ppdu 5000 90000 5) }).set (R.RFS_FE_CTL_MON_MODE 2) 1).set (R.RFS_MASK_OFFSET 2 0 0) 5).set (R.RFS_MASK_OFFSET 2 0 1) 5)), 2, ([0, 5]), (ppdu 5000 90000 5), 1, by decide +kernel⟩,
   ⟨wit (fun h => h.setWord (R.RFS_CANC_COEF 2 7 63) 5), 2, 7, by decide +kernel⟩,
   ⟨wit (fun h => h), 3, by decide +kernel⟩⟩

theorem witness_AerialDiversityAndGain :
    (∃ (s : State) (x : Fin 3) (c : Fin 8) (d : Nat), s.hw.mainUp = true ∧ tget s.hw.timers (.divSwitch x) = some d ∧ chainExists x c = true) ∧
    (∃ (s : State) (x : Fin 3) (c : Fin 8) (m : List (WindowPower × WindowPower)) (a b : WindowPower) (cur kA kB : Nat) (pA pB : Int) (d : Nat), s.hw.mainUp = true ∧ tget s.hw.timers (.divDecision x) = some d ∧ chainExists x c = true ∧ m[c.val]? = some (a, b) ∧ (s.hw.chain x c).diversity = true ∧ cur = s.hw.get (R.RFS_DIV_CUR x c) ∧ kA = (s.hw.chain x c).kA ∧ kB = s.hw.get (R.RFS_GAIN_G_CUR x c) ∧ pA = clampInt (-2048) 2047 ((a.p - 256 * (4 + (2 * (kA : Int) - 10))) / 64) ∧ pB = clampInt (-2048) 2047 ((b.p - 256 * (4 + (2 * (kB : Int) - 10))) / 64)) ∧
    (∃ (s : State) (x : Fin 3) (c : Fin 8) (m : List WindowPower) (a : WindowPower) (d : Nat), s.hw.mainUp = true ∧ tget s.hw.timers (.fixedWindow x) = some d ∧ chainExists x c = true ∧ m[c.val]? = some a ∧ (s.hw.chain x c).diversity = false) ∧
    (∃ (s : State) (x : Fin 3) (d : Nat), s.hw.mainUp = true ∧ tget s.hw.timers (.qualifier x) = some d) ∧
    (∃ (s : State) (x : Fin 3) (c : Fin 8), s.hw.mainUp = true ∧ chainExists x c = true) :=
  ⟨⟨wit (fun h => (h.modChain 2 7 fun y => { y with diversity := true }).startAt (.divSwitch 2) 9), 2, 7, 9, by decide +kernel⟩,
   ⟨wit (fun h => (h.modChain 1 0 fun y => { y with diversity := true }).startAt (.divDecision 1) 9), 1, 0, ([(⟨-20000, -9000⟩, ⟨-15000, -9000⟩)]), (⟨-20000, -9000⟩), (⟨-15000, -9000⟩), 0, 23, 23, -473, -395, 9, by decide +kernel⟩,
   ⟨wit (fun h => (h.set (R.RFS_DIV_MODE 0 3) 1).startAt (.fixedWindow 0) 9), 0, 3, ([⟨0, 0⟩, ⟨0, 0⟩, ⟨0, 0⟩, ⟨-20000, -9000⟩]), (⟨-20000, -9000⟩), 9, by decide +kernel⟩,
   ⟨wit (fun h => (h.modSlice 2 fun y => { y with rx := { y.rx with phase := .timeline } }).startAt (.qualifier 2) 9), 2, 9, by decide +kernel⟩,
   ⟨wit (fun h => h.modSlice 1 fun y => { y with rx := { y.rx with phase := .timeline, d := resetEt } }), 1, 3, by decide +kernel⟩⟩

theorem witness_ReceptionFromEnergyToSignalFields :
    (∃ (s : State) (x : Fin 3) (rs : List (List Cx)), s.hw.mainUp = true ∧ s.hw.detecting x = true ∧ 4 * s.hw.getI (R.PHY_DET_CTL_ED_THRESH x) ≤ s.hw.slicePower x rs) ∧
    (∃ (s : State) (x : Fin 3) (rs : List (List Cx)), s.hw.mainUp = true ∧ s.hw.detecting x = true ∧ s.hw.slicePower x rs < 4 * s.hw.getI (R.PHY_DET_CTL_ED_THRESH x)) ∧
    (∃ (s : State) (x : Fin 3) (d : Nat), s.hw.mainUp = true ∧ tget s.hw.timers (.tbStart x) = some d ∧ s.hw.detecting x = true) ∧
    (∃ (s : State) (x : Fin 3) (rs : List (List Cx)) (chips : List Cx) (a b d : Nat), s.hw.mainUp = true ∧ tget s.hw.timers (.qualEval x) = some d ∧ (s.hw.slice x).rx.phase = .qualifying ∧ lagMetric rs = some a ∧ b = (if x = 0 then barkerMetric chips else 0)) ∧
    (∃ (s : State) (x : Fin 3) (rs : List (List Cx)) (chips : List Cx) (d : Nat), s.hw.mainUp = true ∧ tget s.hw.timers (.qualEval x) = some d ∧ (s.hw.slice x).rx.phase = .qualifying ∧ x ≠ 0 ∧ lagMetric rs = none) ∧
    (∃ (s : State) (x : Fin 3) (coarse fine : Int) (d : Nat), s.hw.mainUp = true ∧ tget s.hw.timers (.lltf x) = some d ∧ (s.hw.slice x).rx.phase = .searching) ∧
    (∃ (s : State) (x : Fin 3) (age : Nat) (coarse fine e : Int) (stop : Nat), s.hw.mainUp = true ∧ tget s.hw.timers (.lltf x) = some stop ∧ (s.hw.slice x).rx.phase = .searching ∧ age + (stop - 8000) * 2 ^ 16 ≤ s.hw.et * 2 ^ 16 ∧ s.hw.et * 2 ^ 16 ≤ age + stop * 2 ^ 16 ∧ e = freqEstimate (offsetOf coarse fine) (s.hw.centre x).toNat) ∧
    (∃ (s : State) (x : Fin 3) (f : LsigFormat) (llr : List Int) (rep : Option (List Int)) (pAdc : List Int), s.hw.mainUp = true ∧ (s.hw.slice x).rx.phase = .beforeLsig ∧ (s.hw.slice x).rx.dsss = false ∧ lsigPasses f (viterbi (llr.map llrOf)) (rep.map fun r => viterbi (r.map llrOf)) = false) ∧
    (∃ (s : State) (x : Fin 3) (f : LsigFormat) (llr : List Int) (rep : Option (List Int)) (pAdc l : List Int) (dur : Nat), s.hw.mainUp = true ∧ (s.hw.slice x).rx.phase = .beforeLsig ∧ (s.hw.slice x).rx.dsss = false ∧ lsigPasses f (viterbi (llr.map llrOf)) (rep.map fun r => viterbi (r.map llrOf)) = true ∧ dur = declaredNs f (lsigOf (viterbi (llr.map llrOf))) ∧ (s.hw.slice x).rx.eps.natAbs < 32768 ∧ l = s.hw.okLevels x (fun c => ((s.hw.slice x).rx.rssiCal[c]?).getD 0) pAdc ∧ l ≠ []) ∧
    (∃ (s : State) (x : Fin 3) (hdr : BitVec 48) (pAdc : List Int), s.hw.mainUp = true ∧ (s.hw.slice x).rx.phase = .beforeLsig ∧ (s.hw.slice x).rx.dsss = true ∧ plcpPasses hdr = true) ∧
    (∃ (s : State) (x : Fin 3) (f : SignalField), s.hw.mainUp = true ∧ (s.hw.slice x).rx.phase = .afterLsig) ∧
    (∃ (s : State) (x : Fin 3) (d : Nat), s.hw.mainUp = true ∧ tget s.hw.timers (.reception x) = some d) :=
  ⟨⟨wit (fun h => (h.set (fstatState (.slice 2)) 2).set (R.RFS_SYNTH_STATE 2) 4), 2, ([(List.replicate 16 ⟨20000, 0⟩ ++ List.replicate 16 ⟨20000, 0⟩)]), by decide +kernel⟩,
   ⟨wit (fun h => (h.set (fstatState (.slice 2)) 2).set (R.RFS_SYNTH_STATE 2) 4), 2, ([(List.replicate 16 ⟨1, 0⟩ ++ List.replicate 16 ⟨1, 0⟩)]), by decide +kernel⟩,
   ⟨wit (fun h => ((h.set (fstatState (.slice 2)) 2).set (R.RFS_SYNTH_STATE 2) 4).startAt (.tbStart 2) 2200100), 2, 2200100, by decide +kernel⟩,
   ⟨wit (fun h => (h.modSlice 1 fun y => { y with rx := { y.rx with phase := .qualifying, qualThresh := 16384, evaluations := 4 } }).startAt (.qualEval 1) 9), 1, ([(List.replicate 16 ⟨1000, 0⟩ ++ List.replicate 16 ⟨1000, 0⟩)]), [], 32767, 0, 9, by decide +kernel⟩,
   ⟨wit (fun h => (h.modSlice 1 fun y => { y with rx := { y.rx with phase := .qualifying, qualThresh := 16384, evaluations := 4 } }).startAt (.qualEval 1) 9), 1, [], [], 9, by decide +kernel⟩,
   ⟨wit (fun h => (h.modSlice 1 fun y => { y with rx := { y.rx with phase := .searching } }).startAt (.lltf 1) 9), 1, 0, 0, 9, by decide +kernel⟩,
   ⟨wit (fun h => (h.modSlice 1 fun y => { y with rx := { y.rx with phase := .searching } }).startAt (.lltf 1) 2205000), 1, 65536, 0, 0, 0, 2205000, by decide +kernel⟩,
   ⟨wit (fun h => h.modSlice 1 fun y => { y with rx := { y.rx with phase := .beforeLsig } }), 1, .he, (((List.range 48).map fun i => if (0xd3ec039185d7 : Nat).testBit i then 1280 else -1280)), none, [], by decide +kernel⟩,
   ⟨wit (fun h => ((h.modSlice 1 fun y => { y with rx := { y.rx with phase := .beforeLsig, eps := -4881, lstf := 2190000 } }).set (R.RFS_CAL_STAT_CHAIN_OK 1) 15)), 1, .legacy, (((List.range 48).map fun i => if (0xd3ec039185d7 : Nat).testBit i then 1280 else -1280)), none, [-40000], [-80960], 28000, by decide +kernel⟩,
   ⟨wit (fun h => h.modSlice 0 fun y => { y with rx := { y.rx with phase := .beforeLsig, dsss := true } }), 0, 0x41240064040a, [], by decide +kernel⟩,
   ⟨wit (fun h => (h.modSlice 1 fun y => { y with rx := { y.rx with phase := .afterLsig } }).startAt (.reception 1) 9), 1, (⟨true, ⟨.he, 1, 3, false, false, 10⟩, 2, 1, (5, 9)⟩), by decide +kernel⟩,
   ⟨wit (fun h => (h.modSlice 1 fun y => { y with rx := { y.rx with phase := .afterLsig } }).startAt (.reception 1) 9), 1, 9, by decide +kernel⟩⟩

theorem witness_RestartDecodingAndNoiseFloor :
    (∃ (s : State) (x : Fin 3) (rs : List (List Cx)) (chips : List Cx) (full late : Bool) (a b : Nat) (margin step : Int), s.hw.mainUp = true ∧ s.hw.blanked x = false ∧ late = ((s.hw.slice x).rx.phase == .afterLsig) ∧ (s.hw.slice x).rx.phase ≠ .idle ∧ (s.hw.slice x).rx.phase ≠ .timeline ∧ (s.hw.slice x).rx.candidate = false ∧ lagMetric rs = some a ∧ b = (if x = 0 then barkerMetric chips else 0) ∧ (s.hw.slice x).rx.qualThresh ≤ max a b ∧ margin = 4 * (if late then (s.hw.slice x).rx.captureMargin else (s.hw.slice x).rx.restartMargin) ∧ step = (if full then max (s.hw.slicePower x rs - (s.hw.slice x).rx.pRef) margin else s.hw.slicePower x rs - (s.hw.slice x).rx.pRef) ∧ 12 ≤ step) ∧
    (∃ (s : State) (x : Fin 3) (rs : List (List Cx)) (chips : List Cx), s.hw.mainUp = true ∧ s.hw.blanked x = false ∧ (s.hw.slice x).rx.phase ≠ .idle ∧ (s.hw.slice x).rx.phase ≠ .timeline ∧ s.hw.slicePower x rs - (s.hw.slice x).rx.pRef < 12) ∧
    (∃ (s : State) (x : Fin 3) (rs : List (List Cx)) (chips : List Cx) (full : Bool), s.hw.mainUp = true ∧ s.hw.blanked x = true) ∧
    (∃ (s : State) (x : Fin 3) (w : LdpcWord), s.hw.mainUp = true ∧ 512 ≤ s.hw.ldpc.buffer.length) ∧
    (∃ (s : State) (x : Fin 3) (w : LdpcWord) (m : Nat) (cut : Bool), s.hw.mainUp = true ∧ s.hw.ldpc.buffer.length < 512 ∧ m = (s.hw.slice x).maxIter ∧ cut = decide (256 < s.hw.ldpc.buffer.length ∧ 8 < m) ∧ (∀ k < 24, (kget s.hw.ldpc.cores k).isSome = true)) ∧
    (∃ (s : State) (x : Fin 3) (w : LdpcWord) (k : Nat), s.hw.mainUp = true ∧ s.hw.ldpc.buffer = [] ∧ k < 24 ∧ kget s.hw.ldpc.cores k = none ∧ (∀ j < k, (kget s.hw.ldpc.cores j).isSome = true)) ∧
    (∃ (s : State) (k : Fin 24) (w : Codeword) (bits : List Bool) (met : Bool), s.hw.mainUp = true ∧ kget s.hw.ldpc.cores k = some w ∧ ldpcDecode w.word.checks (w.word.llr.map llrOf) w.limit = (bits, met)) ∧
    (∃ (s : State) (x : Fin 3) (powers : List (List Int)) (sub p : Nat) (q l : List Int), s.hw.mainUp = true ∧ s.hw.funcState (.slice x) = stOpen ∧ s.hw.receiving x = false ∧ s.hw.inSetting x = false ∧ (s.hw.slice x).cal = none ∧ s.hw.get (R.RFS_FE_CTL_OP_BW x) ≤ 4 ∧ sub < 2 ^ s.hw.get (R.RFS_FE_CTL_OP_BW x) ∧ powers[sub]? = some q ∧ l = s.hw.okLevels x (fun c => s.hw.word (R.PHY_RSSI_CAL x c)) q ∧ l ≠ [] ∧ p = linearSum l / l.length) :=
  ⟨⟨wit (fun h => h.modSlice 1 fun y => { y with rx := { y.rx with phase := .afterLsig, pRef := -400, captureMargin := 10, qualThresh := 16384 } }), 1, ([(List.replicate 16 ⟨1000, 0⟩ ++ List.replicate 16 ⟨1000, 0⟩)]), [], false, true, 32767, 0, 40, 118, by decide +kernel⟩,
   ⟨wit (fun h => h.modSlice 1 fun y => { y with rx := { y.rx with phase := .qualifying, candidate := true } }), 1, [], [], by decide +kernel⟩,
   ⟨wit (fun h => h.modSlice 1 fun y => { y with rx := { y.rx with phase := .afterLsig, blank := (5, 9000000) } }), 1, [], [], false, by decide +kernel⟩,
   ⟨wit (fun h => { h with ldpc := ⟨List.replicate 512 ⟨0, 8, ⟨[], [], []⟩⟩, []⟩ }), 1, (⟨[], [], [3]⟩), by decide +kernel⟩,
   ⟨wit (fun h => { (h.modSlice 2 fun y => { y with maxIter := 9 }) with ldpc := ⟨List.replicate 257 ⟨0, 8, ⟨[], [], []⟩⟩, (List.range 24).map fun k => (k, ⟨0, 8, ⟨[], [], []⟩⟩)⟩ }), 2, (⟨[], [], [3]⟩), 9, true, by decide +kernel⟩,
   ⟨wit (fun h => h), 2, (⟨[], [], [3]⟩), 0, by decide +kernel⟩,
   ⟨wit (fun h => { h with ldpc := ⟨[], [(5, ⟨2, 8, ⟨[-640, -640], [[[0, 1]]], []⟩⟩)]⟩ }), 5, (⟨2, 8, ⟨[-640, -640], [[[0, 1]]], []⟩⟩), ([false, false]), true, by decide +kernel⟩,
   ⟨wit (fun h => ((((h.set (fstatState (.slice 2)) 2).set (R.RFS_FE_CTL_OP_BW 2) 4).set (R.RFS_CAL_STAT_CHAIN_OK 2) 1).setWord (R.PHY_RSSI_CAL 2 0) 0)), 2, ((List.replicate 16 [-50000])), 15, (linearSum [-90960] / 1), [-50000], [-90960], by decide +kernel⟩⟩

theorem witness_TransmitCommandsAndHolds :
    (∃ (s : State) (x : Fin 3) (lead len : Nat) (shape : PpduShape) (chains : BitVec 8) (resp fit : Nat) (latest : Option Nat), s.hw.mainUp = true ∧ (s.hw.slice x).held = none ∧ s.hw.transmitting x = false ∧ s.hw.inQuiet x = false ∧ formatSupported x false shape = true ∧ ((s.hw.weltLink x).response.filter fun r => !r.issued) = none ∧ (s.hw.planNext x fit (lead + len + resp)).exchange x = none ∧ (s.hw.planNext x fit (lead + len + resp)).funcState (.slice x) ≠ stOpen) ∧
    (∃ (s : State) (x : Fin 3) (lead len : Nat) (shape : PpduShape) (chains : BitVec 8) (resp fit : Nat) (latest : Option Nat) (p : TxPpdu), s.hw.mainUp = true ∧ (s.hw.slice x).held = none ∧ s.hw.transmitting x = false ∧ s.hw.inQuiet x = false ∧ formatSupported x false shape = true ∧ ((s.hw.weltLink x).response.filter fun r => !r.issued) = none ∧ (s.hw.planNext x fit (lead + len + resp)).exchange x = none ∧ (s.hw.planNext x fit (lead + len + resp)).funcState (.slice x) = stOpen ∧ p = (s.hw.planNext x fit (lead + len + resp)).newPpdu x ((s.hw.planNext x fit (lead + len + resp)).et + max lead (10 * (s.hw.planNext x fit (lead + len + resp)).get (R.RFS_FE_TIME_TR_LEAD x))) len (Nat.land chains.toNat ((s.hw.planNext x fit (lead + len + resp)).txChains x)) shape.width resp false false latest ∧ p.chains ≠ 0 ∧ (s.hw.planNext x fit (lead + len + resp)).ppduFits x p.t0 p = true ∧ (s.hw.planNext x fit (lead + len + resp)).txReady x p.t0 = true) ∧
    (∃ (s : State) (x : Fin 3) (lead len : Nat) (shape : PpduShape) (chains : BitVec 8) (resp fit : Nat) (latest : Option Nat) (p : TxPpdu), s.hw.mainUp = true ∧ (s.hw.slice x).held = none ∧ s.hw.transmitting x = false ∧ s.hw.inQuiet x = false ∧ formatSupported x false shape = true ∧ ((s.hw.weltLink x).response.filter fun r => !r.issued) = none ∧ (s.hw.planNext x fit (lead + len + resp)).exchange x = none ∧ (s.hw.planNext x fit (lead + len + resp)).funcState (.slice x) = stOpen ∧ p = (s.hw.planNext x fit (lead + len + resp)).newPpdu x ((s.hw.planNext x fit (lead + len + resp)).et + max lead (10 * (s.hw.planNext x fit (lead + len + resp)).get (R.RFS_FE_TIME_TR_LEAD x))) len (Nat.land chains.toNat ((s.hw.planNext x fit (lead + len + resp)).txChains x)) shape.width resp false false latest ∧ p.chains ≠ 0 ∧ (s.hw.planNext x fit (lead + len + resp)).ppduFits x p.t0 p = true ∧ (s.hw.planNext x fit (lead + len + resp)).txReady x p.t0 = false) ∧
    (∃ (s : State) (x : Fin 3) (lead len : Nat) (shape : PpduShape) (chains : BitVec 8) (resp fit : Nat) (latest : Option Nat) (e : Exchange) (p : TxPpdu), s.hw.mainUp = true ∧ (s.hw.slice x).held = none ∧ s.hw.transmitting x = false ∧ s.hw.inQuiet x = false ∧ formatSupported x false shape = true ∧ ((s.hw.weltLink x).response.filter fun r => !r.issued) = none ∧ (s.hw.planNext x fit (lead + len + resp)).exchange x = some e ∧ e.issued = false ∧ e.awaits = false ∧ e.frames = [] ∧ e.rts = false ∧ e.kind ≠ .trigger ∧ (s.hw.planNext x fit (lead + len + resp)).nstrEnd x p.t0 p.t1 false = some p.t1 ∧ (e.reserved = true ∨ (s.hw.planNext x fit (lead + len + resp)).nstrReserved x p.t1 = false) ∧ (s.hw.planNext x fit (lead + len + resp)).funcState (.slice x) = stOpen ∧ p = (s.hw.planNext x fit (lead + len + resp)).newPpdu x (max ((s.hw.planNext x fit (lead + len + resp)).et + 10 * (s.hw.planNext x fit (lead + len + resp)).get (R.RFS_FE_TIME_TR_LEAD x)) (((s.hw.planNext x fit (lead + len + resp)).firstInstant x e).getD ((s.hw.planNext x fit (lead + len + resp)).et + lead))) len (Nat.land chains.toNat ((s.hw.planNext x fit (lead + len + resp)).txChains x)) (e.width.getD shape.width) resp e.reserved false latest ∧ p.chains ≠ 0 ∧ (s.hw.planNext x fit (lead + len + resp)).ppduFits x p.t0 p = true ∧ (s.hw.planNext x fit (lead + len + resp)).txReady x p.t0 = true) ∧
    (∃ (s : State) (x : Fin 3) (lead len : Nat) (shape : PpduShape) (chains : BitVec 8) (resp fit : Nat) (latest : Option Nat) (r : Response) (p : TxPpdu), s.hw.mainUp = true ∧ (s.hw.slice x).held = none ∧ s.hw.transmitting x = false ∧ s.hw.inQuiet x = false ∧ formatSupported x false shape = true ∧ (s.hw.weltLink x).response = some r ∧ r.issued = false ∧ s.hw.granted x = false ∧ s.hw.get (R.RFS_FSTAT_STATE x) = stOpen ∧ p = s.hw.newPpdu x (max r.due (s.hw.et + 10 * s.hw.get (R.RFS_FE_TIME_TR_LEAD x))) len (Nat.land chains.toNat (s.hw.txChains x)) shape.width resp false true latest ∧ p.chains ≠ 0 ∧ s.hw.txReady x p.t0 = true) ∧
    (∃ (s : State) (x : Fin 3) (c : HeldTx), s.hw.mainUp = true ∧ (s.hw.slice x).held = some c ∧ s.hw.heldMayGo x c = true) ∧
    (∃ (s : State) (x : Fin 3) (c : HeldTx) (d : Nat), s.hw.mainUp = true ∧ tget s.hw.timers (.hold x) = some d ∧ (s.hw.slice x).held = some c ∧ ((s.hw.advanceTo d).stop (.hold x)).heldMayGo x c = false ∧ c.ppdu.response = false) :=
  ⟨⟨wit (fun h => h), 1, 0, 100, (⟨.he, 0, 5, false, false, 0⟩), 0, 1, 0, none, by decide +kernel⟩,
   ⟨wit (fun h => (((h.set (fstatState (.slice 1)) 2).set (R.RFS_SYNTH_STATE 1) 4).set (R.RFS_CAL_STAT_CHAIN_OK 1) 15)), 1, 5000, 100, (⟨.he, 0, 5, false, false, 0⟩), 0xF3, 1, 0, none, (⟨2205000, 2205100, 3, 0, false, false, 400, 100, 200, none, 2400000, 1⟩), by decide +kernel⟩,
   ⟨wit (fun h => (h.set (fstatState (.slice 1)) 2).set (R.RFS_CAL_STAT_CHAIN_OK 1) 15), 1, 5000, 100, (⟨.he, 0, 5, false, false, 0⟩), 0xF3, 1, 0, (some 77), (⟨2205000, 2205100, 3, 0, false, false, 400, 100, 200, none, 2200077, 1⟩), by decide +kernel⟩,
   ⟨wit (fun h => (((h.set (fstatState (.slice 1)) 2).set (R.RFS_SYNTH_STATE 1) 4).set (R.RFS_CAL_STAT_CHAIN_OK 1) 15).setExchange 1 ⟨.beacon, 0, [], false, false, false, false, false, [], [], [], 0, none⟩), 1, 5000, 100, (⟨.he, 0, 5, false, false, 0⟩), 0xF3, 1, 0, none, (⟨.beacon, 0, [], false, false, false, false, false, [], [], [], 0, none⟩), (⟨2205000, 2205100, 3, 0, false, false, 400, 100, 200, none, 2400000, 1⟩), by decide +kernel⟩,
   ⟨wit (fun h => (((h.set (fstatState (.slice 1)) 2).set (R.RFS_SYNTH_STATE 1) 4).set (R.RFS_CAL_STAT_CHAIN_OK 1) 15).modWeltLink 1 fun w => { w with response := some ⟨2205000, false, [], false⟩ }), 1, 5000, 100, (⟨.he, 0, 5, false, false, 0⟩), 0xF3, 1, 0, none, (⟨2205000, false, [], false⟩), (⟨2205000, 2205100, 3, 0, false, true, 400, 100, 200, none, 2400000, 1⟩), by decide +kernel⟩,
   ⟨wit (fun h => (((h.set (fstatState (.slice 1)) 2).set (R.RFS_SYNTH_STATE 1) 4).set (R.RFS_CAL_STAT_CHAIN_OK 1) 15).modSlice 1 fun y => { y with held := some ⟨(ppdu 2200100 2230000 5), 2300000⟩ }), 1, (⟨(ppdu 2200100 2230000 5), 2300000⟩), by decide +kernel⟩,
   ⟨wit (fun h => (h.modSlice 1 fun y => { y with held := some ⟨(ppdu 2200100 2230000 5), 2200000⟩ }).startAt (.hold 1) 2200000), 1, (⟨(ppdu 2200100 2230000 5), 2200000⟩), 2200000, by decide +kernel⟩⟩

theorem witness_CoexistencePorts :
    (∃ (s : State) (n : Fin 3) (prio : Bool), s.hw.mainUp = true ∧ s.hw.get (R.SYS_CX_CTL_MODE n) = 1 ∧ (s.hw.get (R.SYS_CX_STAT_LIVE n)).testBit 0 = false) ∧
    (∃ (s : State) (n : Fin 3), s.hw.mainUp = true ∧ s.hw.get (R.SYS_CX_CTL_MODE n) = 1 ∧ (s.hw.cx n).waiting = true ∧ s.hw.cxReady n = true) ∧
    (∃ (s : State) (n : Fin 3), s.hw.mainUp = true ∧ s.hw.get (R.SYS_CX_CTL_MODE n) = 1 ∧ (s.hw.get (R.SYS_CX_STAT_LIVE n)).testBit 0 = true) ∧
    (∃ (s : State) (n : Fin 3), s.hw.mainUp = true ∧ (s.hw.cx n).grant = true ∧ (s.hw.cxReservedNear n (1000 * s.hw.get (R.SYS_CX_TIME_REVOKE_LEAD n)) = true ∨ (tget s.hw.timers (.cxGrant n)).isSome = true)) ∧
    (∃ (s : State) (n : Fin 3), s.hw.mainUp = true ∧ s.hw.get (R.SYS_CX_CTL_MODE n) = 1 ∧ (s.hw.cx n).grant = false) ∧
    (∃ (s : State) (n : Fin 3) (high : Bool), s.hw.mainUp = true ∧ s.hw.get (R.SYS_CX_CTL_MODE n) = 1 ∧ (high && !(s.hw.cx n).grant) = false) ∧
    (∃ (s : State) (n : Fin 3), s.hw.mainUp = true ∧ s.hw.get (R.SYS_CX_CTL_MODE n) = 2 ∧ (s.hw.cx n).req = false ∧ ((s.hw.cxSlices n).any fun x => s.hw.cxPpduDue n x false) = true) ∧
    (∃ (s : State) (n : Fin 3), s.hw.mainUp = true ∧ s.hw.get (R.SYS_CX_CTL_MODE n) = 2 ∧ (s.hw.get (R.SYS_CX_STAT_LIVE n)).testBit 1 = false) ∧
    (∃ (s : State) (n : Fin 3), s.hw.mainUp = true ∧ s.hw.get (R.SYS_CX_CTL_MODE n) = 2 ∧ (s.hw.get (R.SYS_CX_STAT_LIVE n)).testBit 1 = true) ∧
    (∃ (s : State) (n : Fin 3), s.hw.mainUp = true ∧ s.hw.get (R.SYS_CX_CTL_MODE n) = 2 ∧ (s.hw.cx n).req = true ∧ (∀ x < 3, (s.hw.get (R.SYS_CX_CTL_SLICE_MASK n)).testBit x = true → s.hw.transmitting x = false ∧ (s.hw.slice x).held = none)) ∧
    (∃ (s : State) (n : Fin 3) (v : Word), s.hw.mainUp = true) :=
  ⟨⟨wit (fun h => h.set (R.SYS_CX_CTL_MODE 2) 1), 2, true, by decide +kernel⟩,
   ⟨wit (fun h => (h.modCx 2 fun y => { y with waiting := true }).set (R.SYS_CX_CTL_MODE 2) 1), 2, by decide +kernel⟩,
   ⟨wit (fun h => ((h.modCx 2 fun y => { y with grant := true }).set (R.SYS_CX_CTL_MODE 2) 1).set (R.SYS_CX_STAT_LIVE 2) 15), 2, by decide +kernel⟩,
   ⟨wit (fun h => (((h.modCx 2 fun y => { y with grant := true }).set (R.SYS_CX_CTL_MODE 2) 1).set (R.SYS_CX_STAT_LIVE 2) 15).startAt (.cxGrant 2) 9), 2, by decide +kernel⟩,
   ⟨wit (fun h => h.set (R.SYS_CX_CTL_MODE 2) 1), 2, by decide +kernel⟩,
   ⟨wit (fun h => (h.set (R.SYS_CX_CTL_MODE 2) 1).set (R.SYS_CX_STAT_LIVE 2) 15), 2, false, by decide +kernel⟩,
   ⟨wit (fun h => ((h.modSlice 1 fun y => { y with tx := some (ppdu 2200100 2230000 5) }).set (R.SYS_CX_CTL_MODE 2) 2).set (R.SYS_CX_CTL_SLICE_MASK 2) 7), 2, by decide +kernel⟩,
   ⟨wit (fun h => h.set (R.SYS_CX_CTL_MODE 2) 2), 2, by decide +kernel⟩,
   ⟨wit (fun h => ((((h.modSlice 1 fun y => { y with tx := some (ppdu 2200100 2230000 5) }).set (R.SYS_CX_CTL_MODE 0) 2).set (R.SYS_CX_STAT_LIVE 0) 15).set (R.SYS_CX_CTL_SLICE_MASK 0) 7).set (R.SYS_CX_CTL_STOP_ON_REVOKE 0) 1), 0, by decide +kernel⟩,
   ⟨wit (fun h => (h.modCx 2 fun y => { y with req := true }).set (R.SYS_CX_CTL_MODE 2) 2), 2, by decide +kernel⟩,
   ⟨wit (fun h => (h.modCx 2 fun y => { y with req := true }).set (R.SYS_CX_CTL_MODE 2) 2), 2, 0x3, by decide +kernel⟩⟩

theorem witness_StationContextCommands :
    (∃ (s : State) (x : Fin 1024), s.hw.mainUp = true ∧ s.hw.get R.WELT_CTX_RSP_BUSY = 0 ∧ s.hw.openStatus x = 0) ∧
    (∃ (s : State) (x : Fin 1024) (a : Nat), s.hw.mainUp = true ∧ s.hw.get R.WELT_CTX_RSP_BUSY = 0 ∧ a = s.hw.get R.WELT_CTX_ARG_ARG ∧ s.hw.openStatus x ≠ 0) ∧
    (∃ (s : State) (x : Fin 1024), s.hw.mainUp = true ∧ s.hw.get R.WELT_CTX_RSP_BUSY = 0 ∧ s.hw.isOpen x = true) ∧
    (∃ (s : State) (x : Fin 1024) (a : Nat), s.hw.mainUp = true ∧ s.hw.get R.WELT_CTX_RSP_BUSY = 0 ∧ a = s.hw.get R.WELT_CTX_ARG_ARG ∧ s.hw.isOpen x = false) ∧
    (∃ (s : State) (x : Fin 1024) (a k : Nat), s.hw.mainUp = true ∧ s.hw.get R.WELT_CTX_RSP_BUSY = 0 ∧ a = s.hw.get R.WELT_CTX_ARG_ARG ∧ s.hw.isOpen x = true ∧ k = a / 2 ^ 11 % 2 ∧ 1 ≤ a / 2 ^ 12 % 16 ∧ a / 2 ^ 12 % 16 ≤ 4) ∧
    (∃ (s : State) (x : Fin 1024) (a : Nat), s.hw.mainUp = true ∧ s.hw.get R.WELT_CTX_RSP_BUSY = 0 ∧ a = s.hw.get R.WELT_CTX_ARG_ARG ∧ s.hw.isOpen x = false) ∧
    (∃ (s : State) (x : Fin 1024) (a : Nat), s.hw.mainUp = true ∧ s.hw.get R.WELT_CTX_RSP_BUSY = 0 ∧ a = s.hw.get R.WELT_CTX_ARG_ARG ∧ s.hw.isOpen x = true ∧ ((∀ t < 8, mapOf a t ≠ 0 ∧ Nat.land (mapOf a t) (s.hw.staLinks x) = mapOf a t))) ∧
    (∃ (s : State) (x : Fin 1024) (a : Nat), s.hw.mainUp = true ∧ s.hw.get R.WELT_CTX_RSP_BUSY = 0 ∧ a = s.hw.get R.WELT_CTX_ARG_ARG ∧ s.hw.isOpen x = false) ∧
    (∃ (s : State) (x : Fin 1024) (a : Nat), s.hw.mainUp = true ∧ s.hw.get R.WELT_CTX_RSP_BUSY = 0 ∧ a = s.hw.get R.WELT_CTX_ARG_ARG ∧ s.hw.isOpen x = true ∧ s.hw.txBa x (a % 8) = none ∧ s.hw.welt.txBa.length < 2048 ∧ 1 ≤ a / 2 ^ 3 % 2 ^ 11 ∧ a / 2 ^ 3 % 2 ^ 11 ≤ 1024) ∧
    (∃ (s : State) (x : Fin 1024) (a : Nat), s.hw.mainUp = true ∧ s.hw.get R.WELT_CTX_RSP_BUSY = 0 ∧ a = s.hw.get R.WELT_CTX_ARG_ARG ∧ (s.hw.isOpen x = false ∨ (s.hw.txBa x (a % 8)).isSome = true)) ∧
    (∃ (s : State) (x : Fin 1024) (a : Nat), s.hw.mainUp = true ∧ s.hw.get R.WELT_CTX_RSP_BUSY = 0 ∧ a = s.hw.get R.WELT_CTX_ARG_ARG ∧ (s.hw.txBa x (a % 8)).isSome = true) ∧
    (∃ (s : State) (x : Fin 1024) (a : Nat), s.hw.mainUp = true ∧ s.hw.get R.WELT_CTX_RSP_BUSY = 0 ∧ a = s.hw.get R.WELT_CTX_ARG_ARG ∧ s.hw.txBa x (a % 8) = none) ∧
    (∃ (s : State) (x : Fin 1024) (a : Nat), s.hw.mainUp = true ∧ s.hw.get R.WELT_CTX_RSP_BUSY = 0 ∧ a = s.hw.get R.WELT_CTX_ARG_ARG ∧ s.hw.isOpen x = true ∧ s.hw.rxBa x (a % 8) = none ∧ s.hw.welt.rxBa.length < 2048 ∧ 0 < s.hw.get R.WELT_RO_CTL_SLOTS ∧ 1 ≤ a / 2 ^ 3 % 2 ^ 11 ∧ a / 2 ^ 3 % 2 ^ 11 ≤ 1024) ∧
    (∃ (s : State) (x : Fin 1024) (a : Nat), s.hw.mainUp = true ∧ s.hw.get R.WELT_CTX_RSP_BUSY = 0 ∧ a = s.hw.get R.WELT_CTX_ARG_ARG ∧ (s.hw.isOpen x = false ∨ (s.hw.rxBa x (a % 8)).isSome = true)) ∧
    (∃ (s : State) (x : Fin 1024) (a : Nat) (g : RxAgreement), s.hw.mainUp = true ∧ s.hw.get R.WELT_CTX_RSP_BUSY = 0 ∧ a = s.hw.get R.WELT_CTX_ARG_ARG ∧ s.hw.rxBa x (a % 8) = some g ∧ g.held = []) ∧
    (∃ (s : State) (x : Fin 1024) (a : Nat), s.hw.mainUp = true ∧ s.hw.get R.WELT_CTX_RSP_BUSY = 0 ∧ a = s.hw.get R.WELT_CTX_ARG_ARG ∧ s.hw.rxBa x (a % 8) = none) ∧
    (∃ (s : State) (x : Fin 1024) (c : Instr), s.hw.mainUp = true ∧ s.hw.get R.WELT_CTX_RSP_BUSY = 1 ∧ c ∈ ([.ctxOpen x, .ctxClose x, .ctxKey x, .ctxMap x, .baTxAdd x, .baTxDel x, .baRxAdd x, .baRxDel x] : List Instr)) :=
  ⟨⟨wit (fun h => ((h.set (R.STA_W0_LINKS 5) 3).set (R.STA_W0_MLD 5) 1).set (R.STA_W0_AID 5) 9), 5, by decide +kernel⟩,
   ⟨wit (fun h => h), 5, 0, by decide +kernel⟩,
   ⟨wit (fun h => (h.set (R.STA_W0_LINKS 5) 3).set (R.STA_W0_STATE 5) 1), 5, by decide +kernel⟩,
   ⟨wit (fun h => h), 5, 0, by decide +kernel⟩,
   ⟨wit (fun h => (((h.set (R.STA_W0_LINKS 5) 3).set (R.STA_W0_STATE 5) 1).set R.WELT_CTX_ARG_ARG 0x12805).set (R.STA_TXPN_LO_PN 5 1) 99), 5, 0x12805, 1, by decide +kernel⟩,
   ⟨wit (fun h => h), 5, 0, by decide +kernel⟩,
   ⟨wit (fun h => ((h.set (R.STA_W0_LINKS 5) 3).set (R.STA_W0_STATE 5) 1).set R.WELT_CTX_ARG_ARG 0x1249252), 5, 0x1249252, by decide +kernel⟩,
   ⟨wit (fun h => h), 5, 0, by decide +kernel⟩,
   ⟨wit (fun h => ((h.set (R.STA_W0_LINKS 5) 3).set (R.STA_W0_STATE 5) 1).set R.WELT_CTX_ARG_ARG 0x14202), 5, 0x14202, by decide +kernel⟩,
   ⟨wit (fun h => h), 5, 0, by decide +kernel⟩,
   ⟨wit (fun h => (((h.set (R.STA_W0_LINKS 5) 3).set (R.STA_W0_STATE 5) 1).set R.WELT_CTX_ARG_ARG 2).setTxBa 5 2 ⟨64, 7, false⟩), 5, 2, by decide +kernel⟩,
   ⟨wit (fun h => h), 5, 0, by decide +kernel⟩,
   ⟨wit (fun h => (((h.set (R.STA_W0_LINKS 5) 3).set (R.STA_W0_STATE 5) 1).set R.WELT_CTX_ARG_ARG 0x14202).set R.WELT_RO_CTL_SLOTS 64), 5, 0x14202, by decide +kernel⟩,
   ⟨wit (fun h => h), 5, 0, by decide +kernel⟩,
   ⟨wit (fun h => (((h.set (R.STA_W0_LINKS 5) 3).set (R.STA_W0_STATE 5) 1).set R.WELT_CTX_ARG_ARG 2).setRxBa 5 2 ⟨64, 7, []⟩), 5, 2, (⟨64, 7, []⟩), by decide +kernel⟩,
   ⟨wit (fun h => h), 5, 0, by decide +kernel⟩,
   ⟨wit (fun h => h.set R.WELT_CTX_RSP_BUSY 1), 5, (.ctxKey 5), by decide +kernel⟩⟩

theorem witness_ContextCloseTsfAndWakeUpJobs :
    (∃ (s : State) (x : Fin 1024), s.hw.mainUp = true ∧ s.hw.staState x = 2 ∧ s.hw.inFlight x = false ∧ ((∀ t < 8, ((s.hw.rxBa x t).all fun g => g.held.isEmpty) = true))) ∧
    (∃ (s : State) (v : Word), s.hw.mainUp = true) ∧
    (∃ (s : State) (j : Fin 16) (v : Word), s.hw.mainUp = true ∧ s.hw.get (R.WELT_WUR_STAT_STATE j) ≠ 1 ∧ (fieldOf v (R.WELT_WUR_CMD_GROUP j) = 1 ∨ (s.hw.isOpen (fieldOf v (R.WELT_WUR_CMD_STA j)) && s.hw.flag (R.STA_W0_WUR (fieldOf v (R.WELT_WUR_CMD_STA j)))) = true)) ∧
    (∃ (s : State) (j : Fin 16) (v : Word), s.hw.mainUp = true ∧ s.hw.get (R.WELT_WUR_STAT_STATE j) ≠ 1 ∧ fieldOf v (R.WELT_WUR_CMD_GROUP j) = 0 ∧ (s.hw.isOpen (fieldOf v (R.WELT_WUR_CMD_STA j)) && s.hw.flag (R.STA_W0_WUR (fieldOf v (R.WELT_WUR_CMD_STA j)))) = false) ∧
    (∃ (s : State) (j : Fin 16) (v : Word), s.hw.mainUp = true ∧ s.hw.get (R.WELT_WUR_STAT_STATE j) = 1) ∧
    (∃ (s : State) (j : Fin 16) (d : Nat) (b : WurJob), s.hw.mainUp = true ∧ tget s.hw.timers (.wurSend j) = some d ∧ kget s.hw.welt.jobs j = some b ∧ b.next ≤ s.hw.get (R.WELT_WUR_CMD_REPEAT j)) ∧
    (∃ (s : State) (j : Fin 16) (d : Nat) (b : WurJob), s.hw.mainUp = true ∧ tget s.hw.timers (.wurSend j) = some d ∧ kget s.hw.welt.jobs j = some b ∧ s.hw.get (R.WELT_WUR_CMD_REPEAT j) < b.next) ∧
    (∃ (s : State) (l : Fin 3) (p : Nat), s.hw.mainUp = true ∧ p = s.hw.get (R.WELT_WUR_PERIOD l) * 1024 ∧ 0 < p ∧ l.val < 2 ∧ s.hw.linkAvailable l = false) ∧
    (∃ (s : State) (l : Fin 3) (p T : Nat), s.hw.mainUp = true ∧ p = s.hw.get (R.WELT_WUR_PERIOD l) * 1024 ∧ 0 < p ∧ l.val < 2 ∧ T = ntAdd 0 (ntOfMicros (s.hw.ntMicros + (p - s.hw.tsf % p))) ∧ (s.hw.advanceToNt T).ntReached T = true ∧ s.hw.linkAvailable l = true) :=
  ⟨⟨wit (fun h => (h.set (R.STA_W0_STATE 5) 2).setRxBa 5 2 ⟨64, 7, []⟩), 5, by decide +kernel⟩,
   ⟨wit (fun h => { h with welt := { h.welt with tsfHeld := 0xABCD1234 } }), 0xFFF00000, by decide +kernel⟩,
   ⟨wit (fun h => (h.set (R.STA_W0_STATE 5) 1).set (R.STA_W0_WUR 5) 1), 3, 0x5, by decide +kernel⟩,
   ⟨wit (fun h => h), 3, 0x5, by decide +kernel⟩,
   ⟨wit (fun h => h.set (R.WELT_WUR_STAT_STATE 3) 1), 3, 0x5, by decide +kernel⟩,
   ⟨wit (fun h => { (h.set (R.WELT_WUR_CMD_REPEAT 3) 2).startAt (.wurSend 3) 2200500 with welt := { h.welt with jobs := [(3, ⟨2200000, 1, true⟩)] } }), 3, 2200500, (⟨2200000, 1, true⟩), by decide +kernel⟩,
   ⟨wit (fun h => { (h.set (R.WELT_WUR_CMD_REPEAT 3) 2).startAt (.wurSend 3) 2200500 with welt := { h.welt with jobs := [(3, ⟨2200000, 3, true⟩)] } }), 3, 2200500, (⟨2200000, 3, true⟩), by decide +kernel⟩,
   ⟨wit (fun h => h.set (R.WELT_WUR_PERIOD 1) 2), 1, 2048, by decide +kernel⟩,
   ⟨wit (fun h => { (((h.set (R.WELT_WUR_PERIOD 1) 2).set (fstatState (.slice 1)) 2).set (R.RFS_SYNTH_STATE 1) 4) with tbLock := true }), 1, 2048, (ntOfMicros 2048), by decide +kernel⟩⟩

theorem witness_ReceivedMpdusAndReordering :
    (∃ (s : State) (l : Fin 3) (m : RxMpdu), s.hw.mainUp = true ∧ (m.fcs = false ∨ m.place ∈ (s.hw.slice l).spoiled)) ∧
    (∃ (s : State) (l : Fin 3) (m : RxMpdu), s.hw.mainUp = true ∧ m.fcs = true ∧ m.place ∉ (s.hw.slice l).spoiled ∧ m.kind = .data ∧ s.hw.stationOf l m.ta.toNat = none ∧ (s.hw.lastOf l).occ = none ∧ s.hw.granted l = false ∧ s.hw.exchange l = none ∧ (s.hw.weltLink l).response = none) ∧
    (∃ (s : State) (l : Fin 3) (m : RxMpdu) (x : Nat), s.hw.mainUp = true ∧ m.fcs = true ∧ m.place ∉ (s.hw.slice l).spoiled ∧ m.kind = .data ∧ m.protectedFrame = false ∧ s.hw.stationOf l m.ta.toNat = some x ∧ s.hw.rxBa x m.tid = none ∧ kget s.hw.welt.lastSn (baKey x m.tid) ≠ some m.sn.toNat) ∧
    (∃ (s : State) (l : Fin 3) (m : RxMpdu) (x : Nat), s.hw.mainUp = true ∧ m.fcs = true ∧ m.place ∉ (s.hw.slice l).spoiled ∧ m.kind = .data ∧ x < 1024 ∧ s.hw.stationOf l m.ta.toNat = some x ∧ s.hw.rxBa x m.tid = none ∧ kget s.hw.welt.lastSn (baKey x m.tid) = some m.sn.toNat) ∧
    (∃ (s : State) (x : Fin 1024) (t : Fin 8) (d : Nat) (g : RxAgreement) (m : HeldMpdu), s.hw.mainUp = true ∧ tget s.hw.timers (.reorder (baKey x t)) = some d ∧ s.hw.rxBa x t = some g ∧ g.held = [m] ∧ m.sn < 4096) :=
  ⟨⟨wit (fun h => h), 1, (⟨.data, 77, false, 2, 9, 0, false, false, true, false, 0, [[1, 2, 3]]⟩), by decide +kernel⟩,
   ⟨wit (fun h => h), 1, (⟨.data, 77, true, 2, 9, 0, false, false, true, false, 0, [[1, 2, 3]]⟩), by decide +kernel⟩,
   ⟨wit (fun h => (((h.set (R.STA_W0_LINKS 5) 3).set (R.STA_W0_STATE 5) 1).set (R.STA_LINK_LO_ADDR 5 1) 77)), 1, (⟨.data, 77, true, 2, 9, 0, false, false, true, false, 0, [[1, 2, 3]]⟩), 5, by decide +kernel⟩,
   ⟨wit (fun h => { (((h.set (R.STA_W0_LINKS 5) 3).set (R.STA_W0_STATE 5) 1).set (R.STA_LINK_LO_ADDR 5 1) 77) with welt := { h.welt with lastSn := [(42, 9)] } }), 1, (⟨.data, 77, true, 2, 9, 0, false, false, true, false, 0, [[1, 2, 3]]⟩), 5, by decide +kernel⟩,
   ⟨wit (fun h => (h.setRxBa 5 2 ⟨64, 7, [⟨9, 1, 0, 0, true, false, [3], Stamp.zero, [0]⟩]⟩).startAt (.reorder 42) 2200000), 5, 2, 2200000, (⟨64, 7, [⟨9, 1, 0, 0, true, false, [3], Stamp.zero, [0]⟩]⟩), (⟨9, 1, 0, 0, true, false, [3], Stamp.zero, [0]⟩), by decide +kernel⟩⟩

theorem witness_AcknowledgementsRetriesAndBackoff :
    (∃ (s : State) (l : Fin 3) (x : Fin 1024) (t : Fin 8) (ssn : BitVec 12) (bitmap : List Bool) (e : Exchange) (f : Nat) (m : Mpdu), s.hw.mainUp = true ∧ s.hw.exchange l = some e ∧ e.frames = [f] ∧ e.awaits = true ∧ e.rts = false ∧ e.reserved = false ∧ s.hw.welt.mpdus = [(f, m)] ∧ m.sta = some x.val ∧ m.tid = t ∧ m.awaits = true ∧ (s.hw.frame f).pool < 16 ∧ (s.hw.frame f).queue.all (· < 12288) = true ∧ bitmap[snOff m.sn ssn.toNat]? = some true) ∧
    (∃ (s : State) (l : Fin 3) (m : RxMpdu) (e : Exchange) (f : Nat) (p : Mpdu), s.hw.mainUp = true ∧ m.fcs = true ∧ m.place ∉ (s.hw.slice l).spoiled ∧ m.kind = .ack ∧ s.hw.exchange l = some e ∧ e.frames = [f] ∧ e.awaits = true ∧ e.rts = false ∧ e.kind ≠ .trigger ∧ e.reserved = false ∧ s.hw.mpdu f = some p ∧ (s.hw.frame f).pool < 16 ∧ (s.hw.frame f).queue.all (· < 12288) = true) ∧
    (∃ (s : State) (l : Fin 3) (m : RxMpdu) (e : Exchange), s.hw.mainUp = true ∧ m.fcs = true ∧ m.place ∉ (s.hw.slice l).spoiled ∧ m.kind = .cts ∧ s.hw.exchange l = some e ∧ e.awaits = true ∧ e.rts = true) ∧
    (∃ (s : State) (l : Fin 3) (e : Exchange) (f : Nat) (m : Mpdu) (x : Nat), s.hw.mainUp = true ∧ s.hw.exchange l = some e ∧ e.frames = [f] ∧ s.hw.mpdu f = some m ∧ m.sta = some x ∧ x < 1024 ∧ m.tid < 8 ∧ e.reserved = false ∧ e.awaits = true ∧ e.rts = true) ∧
    (∃ (s : State) (l : Fin 3) (e : Exchange) (f : Nat) (m : Mpdu) (x : Nat), s.hw.mainUp = true ∧ s.hw.exchange l = some e ∧ e.frames = [f] ∧ s.hw.mpdu f = some m ∧ m.sta = some x ∧ x < 1024 ∧ m.tid < 8 ∧ e.reserved = false ∧ e.awaits = true ∧ e.rts = false ∧ (s.hw.frame f).act ≠ 2 ∧ m.retries + 1 < s.hw.retryLimit l (acOf m.tid)) ∧
    (∃ (s : State) (l : Fin 3) (e : Exchange), s.hw.mainUp = true ∧ kget s.hw.txStatus l = some .sent ∧ s.hw.exchange l = some e ∧ e.issued = true ∧ e.rts || e.responses) ∧
    (∃ (s : State) (l : Fin 3) (e : Exchange) (f : Nat) (m : Mpdu) (x : Nat) (st : TxStatus), s.hw.mainUp = true ∧ kget s.hw.txStatus l = some st ∧ (st = .txUnderrun ∨ st = .txVswr) ∧ s.hw.exchange l = some e ∧ e.frames = [f] ∧ s.hw.mpdu f = some m ∧ m.sta = some x ∧ x < 1024 ∧ m.tid < 8 ∧ e.reserved = false ∧ e.issued = true ∧ e.rts = false ∧ (s.hw.frame f).act ≠ 2 ∧ m.retries + 1 < s.hw.retryLimit l (acOf m.tid)) ∧
    (∃ (s : State) (l : Fin 3) (e : Exchange) (f : Nat) (m : Mpdu) (x : Nat) (st : TxStatus), s.hw.mainUp = true ∧ kget s.hw.txStatus l = some st ∧ st ≠ .sent ∧ st ≠ .txUnderrun ∧ st ≠ .txVswr ∧ s.hw.exchange l = some e ∧ e.frames = [f] ∧ s.hw.mpdu f = some m ∧ m.sta = some x ∧ x < 1024 ∧ m.tid < 8 ∧ e.reserved = false ∧ e.issued = true) ∧
    (∃ (s : State) (l : Fin 3) (ac : Fin 4) (fit ns : Nat), s.hw.mainUp = true ∧ (s.hw.linkAvailable l = false ∨ (s.hw.exchange l).isSome = true ∨ (s.hw.slice l).held.isSome = true)) ∧
    (∃ (s : State) (l : Fin 3) (ac : Fin 4) (fit ns y : Nat), s.hw.mainUp = true ∧ s.hw.linkAvailable l = true ∧ s.hw.exchange l = none ∧ (s.hw.slice l).held = none ∧ s.hw.mediumIdle l = true ∧ s.hw.nstrPartner l = some y ∧ (s.hw.receiving y && !s.hw.transmitting y) = true ∧ (s.hw.edca l ac).hold = false) ∧
    (∃ (s : State) (l : Fin 3) (ac : Fin 4) (fit ns f x t : Nat), s.hw.mainUp = true ∧ s.hw.linkAvailable l = true ∧ s.hw.exchange l = none ∧ (s.hw.slice l).held = none ∧ s.hw.mediumIdle l = true ∧ ((s.hw.nstrPartner l).any fun y => s.hw.receiving y && !s.hw.transmitting y) = false ∧ s.hw.mayContend l ns = true ∧ (s.hw.txopLimit l ac = 0 ∨ ns ≤ s.hw.txopLimit l ac) ∧ s.hw.flag (R.CKR_POOL_CFG_LOC (s.hw.frame f).pool) = false ∧ (ac.val ≠ 3 ∧ (ac.val ≠ 1 ∨ s.hw.queueFrames (s.hw.get (R.WELT_CFG_GRPQ l)) = [])) ∧ s.hw.nextStation l ac = some (x, t) ∧ t < 8 ∧ x < 1024 ∧ s.hw.queueFrames (8 * x + t) = [f] ∧ s.hw.mpdu f = none ∧ s.hw.outlived l (acOf t) (s.hw.frame f) = false ∧ s.hw.txBa x t = none ∧ s.hw.keyValid x (s.hw.get (R.STA_W0_TX_KEYID x)) = false ∧ s.hw.frameFault (16 + l) (s.hw.frame f) = none ∧ 0 < fit) ∧
    (∃ (s : State) (l : Fin 3), s.hw.mainUp = true ∧ (s.hw.weltLink l).available = true ∧ s.hw.linkAvailable l = false) ∧
    (∃ (s : State) (l : Fin 3), s.hw.mainUp = true ∧ (s.hw.weltLink l).available = false ∧ s.hw.linkAvailable l = true) :=
  ⟨⟨wit (fun h => ((h).setExchange 1 ⟨.data, 0, [3], false, true, true, false, true, [5], [], [], 0, none⟩).setMpdu 3 ⟨some 5, 2, 7, 0, none, 0, true, Stamp.zero, false⟩), 1, 5, 2, 6, ([false, true]), (⟨.data, 0, [3], false, true, true, false, true, [5], [], [], 0, none⟩), 3, (⟨some 5, 2, 7, 0, none, 0, true, Stamp.zero, false⟩), by decide +kernel⟩,
   ⟨wit (fun h => ((h).setExchange 1 ⟨.data, 0, [3], false, true, true, false, true, [5], [], [], 0, none⟩).setMpdu 3 ⟨some 5, 2, 7, 0, none, 0, true, Stamp.zero, false⟩), 1, (⟨.ack, 77, true, 2, 9, 0, false, false, true, false, 0, [[1, 2, 3]]⟩), (⟨.data, 0, [3], false, true, true, false, true, [5], [], [], 0, none⟩), 3, (⟨some 5, 2, 7, 0, none, 0, true, Stamp.zero, false⟩), by decide +kernel⟩,
   ⟨wit (fun h => ((h).setExchange 1 ⟨.data, 0, [3], true, true, true, false, true, [5], [], [], 0, none⟩).setMpdu 3 ⟨some 5, 2, 7, 0, none, 0, true, Stamp.zero, false⟩), 1, (⟨.cts, 77, true, 2, 9, 0, false, false, true, false, 0, [[1, 2, 3]]⟩), (⟨.data, 0, [3], true, true, true, false, true, [5], [], [], 0, none⟩), by decide +kernel⟩,
   ⟨wit (fun h => ((h).setExchange 1 ⟨.data, 0, [3], true, true, true, false, true, [5], [], [], 0, none⟩).setMpdu 3 ⟨some 5, 2, 7, 0, none, 0, true, Stamp.zero, false⟩), 1, (⟨.data, 0, [3], true, true, true, false, true, [5], [], [], 0, none⟩), 3, (⟨some 5, 2, 7, 0, none, 0, true, Stamp.zero, false⟩), 5, by decide +kernel⟩,
   ⟨wit (fun h => ((h.set (R.WELT_EDCA_RETRY 0 1) 4).setExchange 1 ⟨.data, 0, [3], false, true, true, false, true, [5], [], [], 0, none⟩).setMpdu 3 ⟨some 5, 2, 7, 0, none, 0, true, Stamp.zero, false⟩), 1, (⟨.data, 0, [3], false, true, true, false, true, [5], [], [], 0, none⟩), 3, (⟨some 5, 2, 7, 0, none, 0, true, Stamp.zero, false⟩), 5, by decide +kernel⟩,
   ⟨wit (fun h => { h.setExchange 1 ⟨.data, 0, [3], false, true, false, false, true, [5], [], [], 0, none⟩ with txStatus := [(1, .sent)] }), 1, (⟨.data, 0, [3], false, true, false, false, true, [5], [], [], 0, none⟩), by decide +kernel⟩,
   ⟨wit (fun h => { ((h.set (R.WELT_EDCA_RETRY 0 1) 4).setExchange 1 ⟨.data, 0, [3], false, true, false, false, true, [5], [], [], 0, none⟩).setMpdu 3 ⟨some 5, 2, 7, 0, none, 0, true, Stamp.zero, false⟩ with txStatus := [(1, .txVswr)] }), 1, (⟨.data, 0, [3], false, true, false, false, true, [5], [], [], 0, none⟩), 3, (⟨some 5, 2, 7, 0, none, 0, true, Stamp.zero, false⟩), 5, .txVswr, by decide +kernel⟩,
   ⟨wit (fun h => { (h.setExchange 1 ⟨.data, 0, [3], false, true, false, false, true, [5], [], [], 0, none⟩).setMpdu 3 ⟨some 5, 2, 7, 0, none, 0, true, Stamp.zero, false⟩ with txStatus := [(1, .coexAbort)] }), 1, (⟨.data, 0, [3], false, true, false, false, true, [5], [], [], 0, none⟩), 3, (⟨some 5, 2, 7, 0, none, 0, true, Stamp.zero, false⟩), 5, .coexAbort, by decide +kernel⟩,
   ⟨wit (fun h => h), 1, 0, 4, 1000, by decide +kernel⟩,
   ⟨wit (fun h => (((h.set (fstatState (.slice 1)) 2).set (R.RFS_SYNTH_STATE 1) 4).modSlice 2 fun y => { y with rx := { y.rx with phase := .timeline } })), 1, 0, 4, 1000, 2, by decide +kernel⟩,
   ⟨wit (fun h => ((((((h.set (fstatState (.slice 1)) 2).set (R.RFS_SYNTH_STATE 1) 4).set (R.STA_W0_LINKS 5) 3).set (R.STA_W0_STATE 5) 1).set (R.STA_W9_DL_MAP 5) 0xFFFFFF).setQueue 42 [3])), 1, 0, 4, 1000, 3, 5, 2, by decide +kernel⟩,
   ⟨wit (fun h => h.modWeltLink 1 fun y => { y with available := true }), 1, by decide +kernel⟩,
   ⟨wit (fun h => ((h.set (fstatState (.slice 1)) 2).set (R.RFS_SYNTH_STATE 1) 4)), 1, by decide +kernel⟩⟩

theorem witness_LastBanksAndAmendment :
    (∃ (s : State) (l : Fin 3), s.hw.mainUp = true ∧ s.hw.lastPend l = false) ∧
    (∃ (s : State) (l : Fin 3), s.hw.mainUp = true ∧ s.hw.lastPend l = true) ∧
    (∃ (s : State) (l : Fin 3) (c i : Nat), s.hw.mainUp = true ∧ (s.hw.lastOf l).arming = true ∧ s.hw.validateBank l (1 - s.hw.lastActive l) = some (c, i)) ∧
    (∃ (s : State) (l : Fin 3), s.hw.mainUp = true ∧ (s.hw.lastOf l).arming = true ∧ s.hw.validateBank l (1 - s.hw.lastActive l) = none ∧ s.hw.lastRun l = true) ∧
    (∃ (s : State) (l : Fin 3), s.hw.mainUp = true ∧ (s.hw.lastOf l).arming = true ∧ s.hw.validateBank l (1 - s.hw.lastActive l) = none ∧ s.hw.lastRun l = false ∧ s.hw.exchange l = none ∧ (s.hw.slice l).calWindow = none) ∧
    (∃ (s : State) (l : Fin 3), s.hw.mainUp = true) ∧
    (∃ (s : State) (l : Fin 3), s.hw.mainUp = true) ∧
    (∃ (s : State) (l : Fin 3) (T : Nat), s.hw.mainUp = true ∧ s.hw.lastRun l = true ∧ (s.hw.lastOf l).stopping = true ∧ s.hw.exchange l = none ∧ (s.hw.slice l).calWindow = none ∧ T = s.hw.lastBoundary l ∧ (s.hw.advanceToNt T).ntReached T = true) ∧
    (∃ (s : State) (l : Fin 3) (T : Nat), s.hw.mainUp = true ∧ s.hw.lastRun l = true ∧ (s.hw.lastOf l).stopping = false ∧ s.hw.lastPend l = true ∧ s.hw.exchange l = none ∧ (s.hw.slice l).calWindow = none ∧ T = s.hw.lastBoundary l ∧ (s.hw.advanceToNt T).ntReached T = true) ∧
    (∃ (s : State) (l : Fin 3) (T : Nat), s.hw.mainUp = true ∧ s.hw.lastRun l = true ∧ (s.hw.lastOf l).stopping = false ∧ s.hw.lastPend l = false ∧ (s.hw.lastOf l).first = none ∧ s.hw.exchange l = none ∧ (s.hw.slice l).calWindow = none ∧ T = s.hw.lastBoundary l ∧ (s.hw.advanceToNt T).ntReached T = true) ∧
    (∃ (s : State) (l : Fin 3) (T : Nat), s.hw.mainUp = true ∧ (s.hw.lastOf l).first = some T ∧ (s.hw.lastOf l).stopping = false ∧ s.hw.lastPend l = false ∧ (s.hw.advanceToNt T).ntReached T = true) ∧
    (∃ (s : State) (l : Fin 3) (i : Fin 4096), s.hw.mainUp = true ∧ s.hw.lastRun l = false) ∧
    (∃ (s : State) (l : Fin 3) (i : Fin 4096) (c : Nat), s.hw.mainUp = true ∧ s.hw.lastRun l = true ∧ s.hw.amendCode l i (entryOf ((List.range 4).map fun w => (s.hw.word (R.LAST_AMEND_W l w)).toNat)) = some c) ∧
    (∃ (s : State) (l : Fin 3) (i : Fin 4096), s.hw.mainUp = true ∧ s.hw.lastRun l = true ∧ s.hw.amendCode l i (entryOf ((List.range 4).map fun w => (s.hw.word (R.LAST_AMEND_W l w)).toNat)) = none) :=
  ⟨⟨wit (fun h => h), 1, by decide +kernel⟩,
   ⟨wit (fun h => h.set (R.LAST_STAT_PEND 1) 1), 1, by decide +kernel⟩,
   ⟨wit (fun h => (h).modLast 1 fun y => { y with arming := true }), 1, 1, 0, by decide +kernel⟩,
   ⟨wit (fun h => ((h.set (R.LAST_STAT_RUN 1) 1).set (R.LAST_CYCLE_CYCLE 1 1) 500).modLast 1 fun y => { y with arming := true }), 1, by decide +kernel⟩,
   ⟨wit (fun h => (h.set (R.LAST_CYCLE_CYCLE 1 1) 500).modLast 1 fun y => { y with arming := true }), 1, by decide +kernel⟩,
   ⟨wit (fun h => h.set (R.LAST_STAT_PEND 1) 1), 1, by decide +kernel⟩,
   ⟨wit (fun h => h.set (R.LAST_STAT_RUN 1) 1), 1, by decide +kernel⟩,
   ⟨wit (fun h => ({ h.set (R.LAST_STAT_RUN 1) 1 with tbLock := true }).modLast 1 fun y => { y with stopping := true, start := 9 * 2 ^ 32 }), 1, (9 * 2 ^ 32), by decide +kernel⟩,
   ⟨wit (fun h => ({ (h.set (R.LAST_STAT_RUN 1) 1).set (R.LAST_STAT_PEND 1) 1 with tbLock := true }).modLast 1 fun y => { y with start := 9 * 2 ^ 32 }), 1, (9 * 2 ^ 32), by decide +kernel⟩,
   ⟨wit (fun h => ({ h.set (R.LAST_STAT_RUN 1) 1 with tbLock := true }).modLast 1 fun y => { y with start := 9 * 2 ^ 32 }), 1, (9 * 2 ^ 32), by decide +kernel⟩,
   ⟨wit (fun h => ({ h with tbLock := true }).modLast 1 fun y => { y with first := some (7 * 2 ^ 32) }), 1, (7 * 2 ^ 32), by decide +kernel⟩,
   ⟨wit (fun h => h), 1, 4095, by decide +kernel⟩,
   ⟨wit (fun h => (h.set (R.LAST_STAT_RUN 1) 1).setWord (R.LAST_AMEND_W 1 1) 100), 1, 4095, 4, by decide +kernel⟩,
   ⟨wit (fun h => (((h.set (R.LAST_STAT_RUN 1) 1).set (R.LAST_CYCLE_CYCLE 1 0) 500).setWord (R.LAST_AMEND_W 1 0) 0x04000000).setWord (R.LAST_AMEND_W 1 1) 100), 1, 4095, by decide +kernel⟩⟩

theorem witness_LastEntriesOnTheLink :
    (∃ (s : State) (l : Fin 3) (i T : Nat) (e : LastEntry), s.hw.mainUp = true ∧ s.hw.lastRun l = true ∧ (s.hw.lastOf l).first = none ∧ (s.hw.lastOf l).occ = none ∧ s.hw.nextEntry l = some (i, e) ∧ e.type = 4 ∧ T = ntAdd (s.hw.lastOf l).start (ntOfMicros e.start) ∧ (s.hw.advanceToNt T).ntReached T = true) ∧
    (∃ (s : State) (l : Fin 3) (i T : Nat) (e : LastEntry), s.hw.mainUp = true ∧ s.hw.lastRun l = true ∧ (s.hw.lastOf l).first = none ∧ (s.hw.lastOf l).occ = none ∧ s.hw.nextEntry l = some (i, e) ∧ e.type ≠ 4 ∧ e.type ≠ 5 ∧ s.hw.linkAvailable l = false ∧ T = ntAdd (s.hw.lastOf l).start (ntOfMicros e.start) ∧ (s.hw.advanceToNt T).ntReached T = true) ∧
    (∃ (s : State) (l : Fin 3) (i T : Nat) (e : LastEntry), s.hw.mainUp = true ∧ s.hw.lastRun l = true ∧ (s.hw.lastOf l).first = none ∧ (s.hw.lastOf l).occ = none ∧ s.hw.nextEntry l = some (i, e) ∧ e.type ≠ 4 ∧ e.type ≠ 5 ∧ s.hw.linkAvailable l = true ∧ T = ntAdd (s.hw.lastOf l).start (ntOfMicros e.start) ∧ (s.hw.advanceToNt T).ntReached T = true) ∧
    (∃ (s : State) (l : Fin 3) (fit T : Nat) (o : Occurrence), s.hw.mainUp = true ∧ (s.hw.lastOf l).occ = some o ∧ o.phase = .check ∧ s.hw.idleSince l ≤ o.startEt ∧ s.hw.mediumIdle l = true ∧ s.hw.linkAvailable l = true ∧ s.hw.exchange l = none ∧ T = ntAdd o.start (ntOfNanos (s.hw.pifs l)) ∧ (s.hw.advanceToNt T).ntReached T = true) ∧
    (∃ (s : State) (l : Fin 3) (fit T : Nat) (o : Occurrence), s.hw.mainUp = true ∧ (s.hw.lastOf l).occ = some o ∧ o.phase = .check ∧ o.type = 3 ∧ 0 < s.hw.get (R.LAST_BCN_LEN_LEN l) ∧ s.hw.idleSince l ≤ o.startEt ∧ s.hw.mediumIdle l = true ∧ s.hw.linkAvailable l = true ∧ s.hw.exchange l = none ∧ T = ntAdd o.start (ntOfNanos (s.hw.pifs l)) ∧ (s.hw.advanceToNt T).ntReached T = true) ∧
    (∃ (s : State) (l : Fin 3) (fit : Nat) (o : Occurrence), s.hw.mainUp = true ∧ (s.hw.lastOf l).occ = some o ∧ o.phase = .check ∧ o.foreign = false ∧ s.hw.idleSince l ≤ o.startEt ∧ s.hw.mediumIdle l = false) ∧
    (∃ (s : State) (l : Fin 3) (fit : Nat) (o : Occurrence), s.hw.mainUp = true ∧ (s.hw.lastOf l).occ = some o ∧ o.phase = .check ∧ o.foreign = false ∧ o.startEt < s.hw.idleSince l ∧ s.hw.mediumIdle l = true ∧ s.hw.linkAvailable l = true ∧ s.hw.exchange l = none) ∧
    (∃ (s : State) (l : Fin 3) (delay a : Nat) (o : Occurrence), s.hw.mainUp = true ∧ (s.hw.lastOf l).occ = some o ∧ o.phase = .committed ∧ a = (match (s.hw.slice l).tx with | some p => max (o.startEt + 10000) p.t0 | none => if (s.hw.exchange l).isSome && (s.hw.slice l).held.isNone then o.startEt + 10000 + delay else o.startEt + 10000)) ∧
    (∃ (s : State) (l : Fin 3) (o : Occurrence) (T : Nat), s.hw.mainUp = true ∧ (s.hw.lastOf l).occ = some o ∧ s.hw.exchange l = none ∧ T = ntAdd o.start (ntOfMicros (entryOf o.words).dur) ∧ (s.hw.advanceToNt T).ntReached T = true) ∧
    (∃ (s : State) (l : Fin 3) (o : Occurrence) (e : Exchange) (T : Nat), s.hw.mainUp = true ∧ (s.hw.lastOf l).occ = some o ∧ s.hw.exchange l = some e ∧ e.reserved = true ∧ e.awaits = false ∧ (s.hw.slice l).tx = none ∧ kget s.hw.txStatus l = none ∧ T = ntAdd o.start (ntOfMicros (entryOf o.words).dur) ∧ (s.hw.advanceToNt T).ntReached T = true) :=
  ⟨⟨wit (fun h => { (((h.set (R.LAST_STAT_RUN 1) 1).set (R.LAST_COUNT_COUNT 1 0) 1).setWord (R.LAST_E0 1 0 0) 0x04000005).setWord (R.LAST_E1 1 0 0) 100 with tbLock := true }), 1, 0, (5000 * 2 ^ 32), (⟨5, 4, false, 100, 0, 0, 0, 0, 0, 0, false, false, 0⟩), by decide +kernel⟩,
   ⟨wit (fun h => { (((h.set (R.LAST_STAT_RUN 1) 1).set (R.LAST_COUNT_COUNT 1 0) 1).setWord (R.LAST_E0 1 0 0) 0x02000005).setWord (R.LAST_E1 1 0 0) 100 with tbLock := true }), 1, 0, (5000 * 2 ^ 32), (⟨5, 2, false, 100, 0, 0, 0, 0, 0, 0, false, false, 0⟩), by decide +kernel⟩,
   ⟨wit (fun h => { (((((h.set (fstatState (.slice 1)) 2).set (R.RFS_SYNTH_STATE 1) 4).set (R.LAST_STAT_RUN 1) 1).set (R.LAST_COUNT_COUNT 1 0) 1).setWord (R.LAST_E0 1 0 0) 0x02000005).setWord (R.LAST_E1 1 0 0) 100 with tbLock := true }), 1, 0, (5000 * 2 ^ 32), (⟨5, 2, false, 100, 0, 0, 0, 0, 0, 0, false, false, 0⟩), by decide +kernel⟩,
   ⟨wit (fun h => ({ ((h.set (fstatState (.slice 1)) 2).set (R.RFS_SYNTH_STATE 1) 4) with tbLock := true }).modLast 1 fun y => { y with occ := some ⟨0, [0x02000000, 100, 0, 0], 0, 2200000, [], .check, false, false, 0, 0⟩ }), 1, 4, (25000 * 2 ^ 32), (⟨0, [0x02000000, 100, 0, 0], 0, 2200000, [], .check, false, false, 0, 0⟩), by decide +kernel⟩,
   ⟨wit (fun h => ({ ((h.set (fstatState (.slice 1)) 2).set (R.RFS_SYNTH_STATE 1) 4).set (R.LAST_BCN_LEN_LEN 1) 200 with tbLock := true }).modLast 1 fun y => { y with occ := some ⟨0, [0x03000000, 100, 0, 0], 0, 2200000, [], .check, false, false, 0, 0⟩ }), 1, 4, (25000 * 2 ^ 32), (⟨0, [0x03000000, 100, 0, 0], 0, 2200000, [], .check, false, false, 0, 0⟩), by decide +kernel⟩,
   ⟨wit (fun h => ((h.modSlice 1 fun y => { y with energy := true })).modLast 1 fun y => { y with occ := some ⟨0, [0x02000000, 100, 0, 0], 0, 2200000, [], .check, false, false, 0, 0⟩ }), 1, 4, (⟨0, [0x02000000, 100, 0, 0], 0, 2200000, [], .check, false, false, 0, 0⟩), by decide +kernel⟩,
   ⟨wit (fun h => ({ (((h.set (fstatState (.slice 1)) 2).set (R.RFS_SYNTH_STATE 1) 4).modSlice 1 fun y => { y with idleFrom := 2195000 }) with tbLock := true }).modLast 1 fun y => { y with occ := some ⟨0, [0x02000000, 100, 0, 0], 0, 2190000, [], .check, false, false, 0, 0⟩ }), 1, 4, (⟨0, [0x02000000, 100, 0, 0], 0, 2190000, [], .check, false, false, 0, 0⟩), by decide +kernel⟩,
   ⟨wit (fun h => (h).modLast 1 fun y => { y with occ := some ⟨0, [0x02000000, 100, 0, 0], 0, 2200000, [], .committed, false, false, 2, 0⟩ }), 1, 4, 2210000, (⟨0, [0x02000000, 100, 0, 0], 0, 2200000, [], .committed, false, false, 2, 0⟩), by decide +kernel⟩,
   ⟨wit (fun h => ({ h.set (R.LAST_STAT_IN_ENTRY 1) 1 with tbLock := true }).modLast 1 fun y => { y with occ := some ⟨0, [0x02000000, 100, 0, 0], 0, 2200000, [], .check, false, false, 0, 0⟩ }), 1, (⟨0, [0x02000000, 100, 0, 0], 0, 2200000, [], .check, false, false, 0, 0⟩), (100000 * 2 ^ 32), by decide +kernel⟩,
   ⟨wit (fun h => ({ h.setExchange 1 ⟨.beacon, 3, [], false, false, false, true, false, [], [], [], 0, none⟩ with tbLock := true }).modLast 1 fun y => { y with occ := some ⟨0, [0x02000000, 100, 0, 0], 0, 2200000, [], .check, false, false, 0, 0⟩ }), 1, (⟨0, [0x02000000, 100, 0, 0], 0, 2200000, [], .check, false, false, 0, 0⟩), (⟨.beacon, 3, [], false, false, false, true, false, [], [], [], 0, none⟩), (100000 * 2 ^ 32), by decide +kernel⟩⟩

theorem witness_AwlArithmeticLogicAndFields :
    (∃ (s : State) (t : Fin 256) (w : Word) (a b : Dword), s.hw.mainUp = true ∧ s.hw.issues t .add w = true ∧ a = (s.hw.thread t).a w ∧ b = (s.hw.thread t).b w) ∧
    (∃ (s : State) (t : Fin 256) (w : Word) (a b : Dword), s.hw.mainUp = true ∧ s.hw.issues t .sub w = true ∧ a = (s.hw.thread t).a w ∧ b = (s.hw.thread t).b w) ∧
    (∃ (s : State) (t : Fin 256) (w : Word) (a b : Dword), s.hw.mainUp = true ∧ s.hw.issues t .cmp w = true ∧ a = (s.hw.thread t).a w ∧ b = (s.hw.thread t).b w) ∧
    (∃ (s : State) (t : Fin 256) (w : Word) (a b : Dword) (x r : Int), s.hw.mainUp = true ∧ s.hw.issues t .adds w = true ∧ a = (s.hw.thread t).a w ∧ b = (s.hw.thread t).bSat w ∧ x = (if satU w then (a.toNat : Int) + b.toNat else a.toInt + b.toInt) ∧ r = (if satU w then min (2 ^ 64 - 1) (max 0 x) else min (2 ^ 63 - 1) (max (-(2 ^ 63)) x))) ∧
    (∃ (s : State) (t : Fin 256) (w : Word) (a b : Dword) (x r : Int), s.hw.mainUp = true ∧ s.hw.issues t .subs w = true ∧ a = (s.hw.thread t).a w ∧ b = (s.hw.thread t).bSat w ∧ x = (if satU w then (a.toNat : Int) - b.toNat else a.toInt - b.toInt) ∧ r = (if satU w then min (2 ^ 64 - 1) (max 0 x) else min (2 ^ 63 - 1) (max (-(2 ^ 63)) x))) ∧
    (∃ (s : State) (t : Fin 256) (w : Word) (a b : Dword), s.hw.mainUp = true ∧ s.hw.issues t .mul w = true ∧ a = (s.hw.thread t).a w ∧ b = (s.hw.thread t).b w) ∧
    (∃ (s : State) (t : Fin 256) (w : Word) (a b : Dword) (r : Int), s.hw.mainUp = true ∧ s.hw.issues t .mulh w = true ∧ a = (s.hw.thread t).a w ∧ b = (s.hw.thread t).b w ∧ r = (if uOf w then (a.toNat : Int) * b.toNat else a.toInt * b.toInt) / 2 ^ 64) ∧
    (∃ (s : State) (t : Fin 256) (w : Word) (a b : Dword), s.hw.mainUp = true ∧ s.hw.issues t .and w = true ∧ a = (s.hw.thread t).a w ∧ b = (if isImm w then BitVec.ofNat 64 (immOf w) else (s.hw.thread t).reg (rbOf w))) ∧
    (∃ (s : State) (t : Fin 256) (w : Word) (a b : Dword), s.hw.mainUp = true ∧ s.hw.issues t .or w = true ∧ a = (s.hw.thread t).a w ∧ b = (if isImm w then BitVec.ofNat 64 (immOf w * 2 ^ (16 * xOf w)) else (s.hw.thread t).reg (rbOf w))) ∧
    (∃ (s : State) (t : Fin 256) (w : Word) (a b : Dword), s.hw.mainUp = true ∧ s.hw.issues t .xor w = true ∧ a = (s.hw.thread t).a w ∧ b = (if isImm w then BitVec.ofNat 64 (immOf w * 2 ^ (16 * xOf w)) else (s.hw.thread t).reg (rbOf w))) ∧
    (∃ (s : State) (t : Fin 256) (w : Word) (a : Dword) (n : Nat), s.hw.mainUp = true ∧ s.hw.issues t .shl w = true ∧ a = (s.hw.thread t).a w ∧ n = (s.hw.thread t).amount w) ∧
    (∃ (s : State) (t : Fin 256) (w : Word) (a : Dword) (n : Nat), s.hw.mainUp = true ∧ s.hw.issues t .shr w = true ∧ a = (s.hw.thread t).a w ∧ n = (s.hw.thread t).amount w) ∧
    (∃ (s : State) (t : Fin 256) (w : Word) (a : Dword) (n : Nat), s.hw.mainUp = true ∧ s.hw.issues t .shra w = true ∧ a = (s.hw.thread t).a w ∧ n = (s.hw.thread t).amount w) ∧
    (∃ (s : State) (t : Fin 256) (w : Word) (a : Dword), s.hw.mainUp = true ∧ s.hw.issues t .bfx w = true ∧ a = (s.hw.thread t).a w) ∧
    (∃ (s : State) (t : Fin 256) (w : Word) (a : Dword) (d : Dword), s.hw.mainUp = true ∧ s.hw.issues t .bfi w = true ∧ a = (s.hw.thread t).a w ∧ d = (s.hw.thread t).reg (rdOf w)) ∧
    (∃ (s : State) (t : Fin 256) (w : Word) (a : Dword) (n : Nat), s.hw.mainUp = true ∧ s.hw.issues t .crc w = true ∧ a = (s.hw.thread t).a w ∧ n = ((s.hw.thread t).reg (rbOf w)).toNat ∧ 1 ≤ n ∧ n ≤ 8) :=
  ⟨⟨wit (awl 0x4c4a000 (fun th => { th with g := [(1, 0x8000000000000001), (2, 0x7fffffffffffffff)] })), 5, 0x4c4a000, 0x8000000000000001, 0x7fffffffffffffff, by decide +kernel⟩,
   ⟨wit (awl 0x4c4a002 (fun th => { th with g := [(1, 0x8000000000000001), (2, 0x7fffffffffffffff)] })), 5, 0x4c4a002, 0x8000000000000001, 0x7fffffffffffffff, by decide +kernel⟩,
   ⟨wit (awl 0x404800e (fun th => { th with g := [(1, 0x8000000000000001), (2, 0x7fffffffffffffff)] })), 5, 0x404800e, 0x8000000000000001, 0x7fffffffffffffff, by decide +kernel⟩,
   ⟨wit (awl 0x4c4a001 (fun th => { th with g := [(1, 0x8000000000000001), (2, 0x7fffffffffffffff)] })), 5, 0x4c4a001, 0x8000000000000001, 0x7fffffffffffffff, 0, 0, by decide +kernel⟩,
   ⟨wit (awl 0x4c4a043 (fun th => { th with g := [(1, 0x8000000000000001), (2, 0x7fffffffffffffff)] })), 5, 0x4c4a043, 0x8000000000000001, 0x7fffffffffffffff, 2, 2, by decide +kernel⟩,
   ⟨wit (awl 0x4c4a004 (fun th => { th with g := [(1, 0x8000000000000001), (2, 0x7fffffffffffffff)] })), 5, 0x4c4a004, 0x8000000000000001, 0x7fffffffffffffff, by decide +kernel⟩,
   ⟨wit (awl 0x4c4a005 (fun th => { th with g := [(1, 0x8000000000000001), (2, 0x7fffffffffffffff)] })), 5, 0x4c4a005, 0x8000000000000001, 0x7fffffffffffffff, -4611686018427387904, by decide +kernel⟩,
   ⟨wit (awl 0x4c4a006 (fun th => { th with g := [(1, 0x8000000000000001), (2, 0x7fffffffffffffff)] })), 5, 0x4c4a006, 0x8000000000000001, 0x7fffffffffffffff, by decide +kernel⟩,
   ⟨wit (awl 0x4c4a007 (fun th => { th with g := [(1, 0x8000000000000001), (2, 0x7fffffffffffffff)] })), 5, 0x4c4a007, 0x8000000000000001, 0x7fffffffffffffff, by decide +kernel⟩,
   ⟨wit (awl 0x1cc71234 (fun th => { th with g := [(1, 0x8000000000000001), (2, 0x7fffffffffffffff)] })), 5, 0x1cc71234, 0x8000000000000001, 0x1234000000000000, by decide +kernel⟩,
   ⟨wit (awl 0x20c50007 (fun th => { th with g := [(1, 0x8000000000000001), (2, 0x7fffffffffffffff)] })), 5, 0x20c50007, 0x8000000000000001, 7, by decide +kernel⟩,
   ⟨wit (awl 0x20c50047 (fun th => { th with g := [(1, 0x8000000000000001), (2, 0x7fffffffffffffff)] })), 5, 0x20c50047, 0x8000000000000001, 7, by decide +kernel⟩,
   ⟨wit (awl 0x20c50087 (fun th => { th with g := [(1, 0x8000000000000001), (2, 0x7fffffffffffffff)] })), 5, 0x20c50087, 0x8000000000000001, 7, by decide +kernel⟩,
   ⟨wit (awl 0x28c7c0e0 (fun th => { th with g := [(1, 0x8000000000000001), (2, 0x7fffffffffffffff)] })), 5, 0x28c7c0e0, 0x8000000000000001, by decide +kernel⟩,
   ⟨wit (awl 0x288441d0 (fun th => { th with g := [(1, 0x8000000000000001), (2, 0x7fffffffffffffff)] })), 5, 0x288441d0, 0x8000000000000001, 0x7fffffffffffffff, by decide +kernel⟩,
   ⟨wit (awl 0x68c50040 (fun th => { th with g := [(1, 0x8000000000000001), (4, 8)] })), 5, 0x68c50040, 0x8000000000000001, 8, by decide +kernel⟩⟩

theorem witness_CountingBitsAndHashing :
    (∃ (s : State) (t : Fin 256) (w : Word) (a : Dword) (r : Dword), s.hw.mainUp = true ∧ s.hw.issues t .clz w = true ∧ a = (s.hw.thread t).a w ∧ (r.toNat ≤ 64 ∧ (∀ i < 64, 64 ≤ i + r.toNat → a.getLsbD i = false) ∧ (r.toNat < 64 → a.getLsbD (63 - r.toNat) = true))) ∧
    (∃ (s : State) (t : Fin 256) (w : Word) (a : Dword) (r : Dword), s.hw.mainUp = true ∧ s.hw.issues t .popc w = true ∧ a = (s.hw.thread t).a w ∧ r.toNat = ((List.range 64).countP fun i => a.getLsbD i)) ∧
    (∃ (s : State) (t : Fin 256) (w : Word) (a b : Dword) (x : Dword), s.hw.mainUp = true ∧ s.hw.issues t .hash w = true ∧ a = (s.hw.thread t).a w ∧ b = (s.hw.thread t).reg (rbOf w) ∧ x.toNat = (a ^^^ b).toNat * 0x9E3779B97F4A7C15 % 2 ^ 64) ∧
    (∃ (s : State) (t : Fin 256) (w : Word), s.hw.mainUp = true ∧ s.hw.issues t .hash w = true ∧ (s.hw.thread t).a w = 0 ∧ (s.hw.thread t).reg (rbOf w) = 1) :=
  ⟨⟨wit (awl 0x4c4200c (fun th => { th with g := [(1, 0x8000000000000001), (2, 0x7fffffffffffffff)] })), 5, 0x4c4200c, 0x8000000000000001, 0, by decide +kernel⟩,
   ⟨wit (awl 0x4c4200d (fun th => { th with g := [(1, 0x8000000000000001), (2, 0x7fffffffffffffff)] })), 5, 0x4c4200d, 0x8000000000000001, 2, by decide +kernel⟩,
   ⟨wit (awl 0x68c48001 (fun th => { th with g := [(1, 0x8000000000000001), (2, 0x7fffffffffffffff)] })), 5, 0x68c48001, 0x8000000000000001, 0x7fffffffffffffff, 0xC3910C8D016B07D6, by decide +kernel⟩,
   ⟨wit (awl 0x68c48001 (fun th => { th with g := [(1, 0), (2, 1)] })), 5, 0x68c48001, by decide +kernel⟩⟩

theorem witness_AwlExceptionsAndControl :
    (∃ (s : State) (t : Fin 256) (w : Word) (k : AwlKind), s.hw.mainUp = true ∧ ¬ (s.hw.issuer (t / 4) = some t.val ∧ kindOf w = some k) ∧ w = s.hw.fetched t) ∧
    (∃ (s : State) (t : Fin 256) (w : Word) (k : AwlKind), s.hw.mainUp = true ∧ s.hw.issuer (t / 4) = some t.val ∧ w = s.hw.fetched t ∧ kindOf w = some k ∧ validWord k w = false ∧ s.hw.atLimit t = false ∧ s.hw.mayRecord t = true) ∧
    (∃ (s : State) (t : Fin 256) (w : Word) (k : AwlKind), s.hw.mainUp = true ∧ s.hw.issuer (t / 4) = some t.val ∧ w = s.hw.fetched t ∧ kindOf w = some k ∧ k ≠ .bcond ∧ k ≠ .call ∧ k ≠ .ret ∧ (s.hw.thread t).pc ≠ 0x1FFFC ∧ s.hw.atLimit t = true ∧ s.hw.mayRecord t = true) ∧
    (∃ (s : State) (t : Fin 256) (w : Word) (k : AwlKind), s.hw.mainUp = true ∧ s.hw.issuer (t / 4) = some t.val ∧ w = s.hw.fetched t ∧ kindOf w = some k ∧ validWord k w = true ∧ k ≠ .bcond ∧ continues k false = true ∧ (s.hw.thread t).pc = 0x1FFFC ∧ s.hw.mayRecord t = true) ∧
    (∃ (s : State) (t : Fin 256) (w : Word), s.hw.mainUp = true ∧ s.hw.issuer (t / 4) = some t.val ∧ w = s.hw.fetched t ∧ kindOf w = none ∧ s.hw.atLimit t = false ∧ s.hw.mayRecord t = true) ∧
    (∃ (s : State) (t : Fin 256) (w : Word) (x : Int), s.hw.mainUp = true ∧ s.hw.issuesAny t .bcond w = true ∧ awlCond (rdOf w) (s.hw.thread t).z (s.hw.thread t).n (s.hw.thread t).c (s.hw.thread t).v = some true ∧ x = (s.hw.thread t).pc + 4 * offB w ∧ 0 ≤ x ∧ x ≤ 0x1FFFC ∧ x % 4 = 0) ∧
    (∃ (s : State) (t : Fin 256) (w : Word), s.hw.mainUp = true ∧ s.hw.issues t .bcond w = true ∧ awlCond (rdOf w) (s.hw.thread t).z (s.hw.thread t).n (s.hw.thread t).c (s.hw.thread t).v = some false) ∧
    (∃ (s : State) (t : Fin 256) (w : Word) (x : Int), s.hw.mainUp = true ∧ s.hw.issuesAny t .call w = true ∧ x = (s.hw.thread t).pc + 4 * offC w ∧ 0 ≤ x ∧ x ≤ 0x1FFFC ∧ x % 4 = 0) ∧
    (∃ (s : State) (t : Fin 256) (w : Word) (x : Int), s.hw.mainUp = true ∧ s.hw.issuesAny t .call w = true ∧ x = (s.hw.thread t).pc + 4 * offC w ∧ ¬ (0 ≤ x ∧ x ≤ 0x1FFFC ∧ x % 4 = 0) ∧ s.hw.mayRecord t = true) ∧
    (∃ (s : State) (t : Fin 256) (w : Word) (x : Nat), s.hw.mainUp = true ∧ s.hw.issuesAny t .ret w = true ∧ x = ((s.hw.thread t).a w).toNat ∧ x ≤ 0x1FFFC ∧ x % 4 = 0) ∧
    (∃ (s : State) (t : Fin 256) (w : Word), s.hw.mainUp = true ∧ s.hw.issues t .yield w = true ∧ (s.hw.thread t).frame = none ∧ (s.hw.thread t).locks = []) ∧
    (∃ (s : State) (t : Fin 256) (w : Word), s.hw.mainUp = true ∧ s.hw.issues t .yield w = true ∧ (s.hw.thread t).frame.isSome = true ∧ s.hw.mayRecord t = true) ∧
    (∃ (s : State) (t : Fin 256) (w : Word), s.hw.mainUp = true ∧ s.hw.issues t .yield w = true ∧ (s.hw.thread t).frame = none ∧ (s.hw.thread t).locks ≠ [] ∧ s.hw.mayRecord t = true) ∧
    (∃ (s : State) (t : Fin 256) (w : Word), s.hw.mainUp = true ∧ s.hw.issuesAny t .trap w = true ∧ s.hw.mayRecord t = true) ∧
    (∃ (s : State) (t : Fin 256) (w : Word), s.hw.mainUp = true ∧ s.hw.issuesAny t .halt w = true ∧ s.hw.mayRecord t = true) ∧
    (∃ (s : State) (t : Fin 256) (w : Word), s.hw.mainUp = true ∧ s.hw.issuesAny t .trap w = true ∧ s.hw.flag (R.AWL_THR_STAT_EXC_EV (t / 4) (t % 4)) = true ∧ ((s.hw.thread t).locks.all fun i => decide (i < 1024)) = true) ∧
    (∃ (s : State) (e : Fin 64) (k : Fin 4) (n : Nat), s.hw.mainUp = true ∧ n = 4 * e.val + k.val ∧ (s.hw.threadState n = 3 ∨ s.hw.threadState n = 4) ∧ s.hw.engineState e ≠ 3 ∧ s.hw.pushersOf (mailboxOf n) = []) ∧
    (∃ (s : State) (e : Fin 64) (k : Fin 4) (n : Nat), s.hw.mainUp = true ∧ n = 4 * e.val + k.val ∧ (s.hw.engineState e = 3 ∨ (s.hw.threadState n ≠ 3 ∧ s.hw.threadState n ≠ 4))) ∧
    (∃ (s : State) (e : Fin 64) (k : Fin 4) (entry : BitVec 15) (n : Nat), s.hw.mainUp = true ∧ n = 4 * e.val + k.val ∧ s.hw.threadState n = 0 ∧ s.hw.engineState e = 2 ∧ expressThread n = false) ∧
    (∃ (s : State) (e : Fin 64) (k : Fin 4) (entry : BitVec 15) (n : Nat), s.hw.mainUp = true ∧ n = 4 * e.val + k.val ∧ (s.hw.threadState n ≠ 0 ∨ s.hw.engineState e ≠ 2 ∨ expressThread n = true)) ∧
    (∃ (s : State) (c : Fin 8) (bits : BitVec 8), s.hw.mainUp = true) :=
  ⟨⟨wit (fun h => (awl 0x4c4a000 (fun th => { th with g := [(1, 0x20040010), (2, 0x1122334455667788)] }) h)), 5, 0x4c4a000, .or, by decide +kernel⟩,
   ⟨wit (fun h => (awl 0x4c4a040 (fun th => { th with g := [(1, 0x20040010), (2, 0x1122334455667788)] }) h)), 5, 0x4c4a040, .add, by decide +kernel⟩,
   ⟨wit (fun h => ((awl 0x4c4a000 (fun th => { th with g := [(1, 0x20040010), (2, 0x1122334455667788)], count := 7 }) h)).set (R.AWL_CLU_CFG_LIMIT 0) 7), 5, 0x4c4a000, .add, by decide +kernel⟩,
   ⟨wit (fun h => ((awl 0x4c4a000 (fun th => { th with g := [(1, 0x20040010), (2, 0x1122334455667788)], pc := 0x1FFFC }) h)).setMemLE 0x2001FFFC 4 0x4c4a000), 5, 0x4c4a000, .add, by decide +kernel⟩,
   ⟨wit (fun h => (awl 0xFC000000 (fun th => { th with g := [(1, 0x20040010), (2, 0x1122334455667788)] }) h)), 5, 0xFC000000, by decide +kernel⟩,
   ⟨wit (fun h => (awl 0x43800010 (fun th => { th with g := [(1, 0x20040010), (2, 0x1122334455667788)] }) h)), 5, 0x43800010, 64, by decide +kernel⟩,
   ⟨wit (fun h => (awl 0x40000010 (fun th => { th with g := [(1, 0x20040010), (2, 0x1122334455667788)] }) h)), 5, 0x40000010, by decide +kernel⟩,
   ⟨wit (fun h => (awl 0x44000020 (fun th => { th with g := [(1, 0x20040010), (2, 0x1122334455667788)] }) h)), 5, 0x44000020, 128, by decide +kernel⟩,
   ⟨wit (fun h => (awl 0x47ffffff (fun th => { th with g := [(1, 0x20040010), (2, 0x1122334455667788)] }) h)), 5, 0x47ffffff, -4, by decide +kernel⟩,
   ⟨wit (fun h => (awl 0x483c0000 (fun th => { th with g := [(15, 0x40)] }) h)), 5, 0x483c0000, 64, by decide +kernel⟩,
   ⟨wit (fun h => (awl 0xf0000000 (fun th => { th with g := [(1, 0x20040010), (2, 0x1122334455667788)] }) h)), 5, 0xf0000000, by decide +kernel⟩,
   ⟨wit (fun h => (awl 0xf0000000 (fun th => { th with g := [(1, 0x20040010), (2, 0x1122334455667788)], frame := some 3 }) h)), 5, 0xf0000000, by decide +kernel⟩,
   ⟨wit (fun h => (awl 0xf0000000 (fun th => { th with g := [(1, 0x20040010), (2, 0x1122334455667788)], locks := [3] }) h)), 5, 0xf0000000, by decide +kernel⟩,
   ⟨wit (fun h => (awl 0xf0020055 (fun th => { th with g := [(1, 0x20040010), (2, 0x1122334455667788)] }) h)), 5, 0xf0020055, by decide +kernel⟩,
   ⟨wit (fun h => (awl 0xf0030000 (fun th => { th with g := [(1, 0x20040010), (2, 0x1122334455667788)] }) h)), 5, 0xf0030000, by decide +kernel⟩,
   ⟨wit (fun h => ((awl 0xf0020055 (fun th => { th with g := [(1, 0x20040010), (2, 0x1122334455667788)] }) h)).set (R.AWL_THR_STAT_EXC_EV 1 1) 1), 5, 0xf0020055, by decide +kernel⟩,
   ⟨wit (fun h => (h.setThreadState 7 3).modThread 7 fun th => { th with pc := 8 }), 1, 3, 7, by decide +kernel⟩,
   ⟨wit (fun h => h), 1, 3, 7, by decide +kernel⟩,
   ⟨wit (fun h => h.set (fstatState (.engine 1)) 2), 1, 3, 0x77, 7, by decide +kernel⟩,
   ⟨wit (fun h => h), 1, 3, 0x77, 7, by decide +kernel⟩,
   ⟨wit (fun h => h.modThread 100 fun th => { th with events := 3 }), 3, 0x84, by decide +kernel⟩⟩

theorem witness_AwlLoadsStoresAndWaits :
    (∃ (s : State) (t : Fin 256) (w : Word) (a p : Nat), s.hw.mainUp = true ∧ s.hw.issues t .ld w = true ∧ a = ((s.hw.thread t).formed w).toNat ∧ a < 2 ^ 40 ∧ a % accessSize w = 0 ∧ placeOf t a = .here p) ∧
    (∃ (s : State) (t : Fin 256) (w : Word) (a p : Nat), s.hw.mainUp = true ∧ s.hw.issues t .st w = true ∧ a = ((s.hw.thread t).formed w).toNat ∧ a < 2 ^ 40 ∧ a % accessSize w = 0 ∧ placeOf t a = .here p ∧ inInstructionMemory p = false) ∧
    (∃ (s : State) (t : Fin 256) (w : Word) (a g : Nat), s.hw.mainUp = true ∧ s.hw.issues t .ld w = true ∧ a = ((s.hw.thread t).formed w).toNat ∧ a < 2 ^ 40 ∧ a % accessSize w = 0 ∧ placeOf t a = .shank ∧ targetOf a = some g) ∧
    (∃ (s : State) (t : Fin 256) (w : Word) (a g : Nat), s.hw.mainUp = true ∧ s.hw.issues t .st w = true ∧ a = ((s.hw.thread t).formed w).toNat ∧ a < 2 ^ 40 ∧ a % accessSize w = 0 ∧ placeOf t a = .shank ∧ targetOf a = some g) ∧
    (∃ (s : State) (t : Fin 256) (w : Word) (a : Nat) (k : AwlKind), s.hw.mainUp = true ∧ (k = .ld ∨ k = .st) ∧ s.hw.issues t k w = true ∧ a = ((s.hw.thread t).formed w).toNat ∧ 2 ^ 40 ≤ a ∧ s.hw.mayRecord t = true) ∧
    (∃ (s : State) (t : Fin 256) (w : Word) (a : Nat) (k : AwlKind), s.hw.mainUp = true ∧ (k = .ld ∨ k = .st) ∧ s.hw.issues t k w = true ∧ a = ((s.hw.thread t).formed w).toNat ∧ a < 2 ^ 40 ∧ a % accessSize w ≠ 0 ∧ s.hw.mayRecord t = true) ∧
    (∃ (s : State) (t : Fin 256) (w : Word) (a : Nat) (k : AwlKind), s.hw.mainUp = true ∧ (k = .ld ∨ k = .st) ∧ s.hw.issues t k w = true ∧ a = ((s.hw.thread t).formed w).toNat ∧ a < 2 ^ 40 ∧ a % accessSize w = 0 ∧ placeOf t a = .reserved ∧ s.hw.mayRecord t = true) ∧
    (∃ (s : State) (t : Fin 256) (w : Word) (a p : Nat), s.hw.mainUp = true ∧ s.hw.issues t .st w = true ∧ a = ((s.hw.thread t).formed w).toNat ∧ a < 2 ^ 40 ∧ a % accessSize w = 0 ∧ placeOf t a = .here p ∧ inInstructionMemory p = true ∧ s.hw.mayRecord t = true) ∧
    (∃ (s : State) (t : Fin 256) (w : Word) (k : AwlKind), s.hw.mainUp = true ∧ (k = .ldp ∨ k = .stp) ∧ s.hw.issues t k w = true ∧ (s.hw.thread t).frame = none ∧ s.hw.mayRecord t = true) ∧
    (∃ (s : State) (t : Fin 256) (w : Word) (k : AwlKind) (f : Nat) (o : Int), s.hw.mainUp = true ∧ (k = .ldp ∨ k = .stp) ∧ s.hw.issues t k w = true ∧ (s.hw.thread t).frame = some f ∧ o = ((s.hw.thread t).a w).toInt + offM w ∧ (o < -64 ∨ ((s.hw.frame f).len : Int) < o + accessSize w) ∧ s.hw.mayRecord t = true) ∧
    (∃ (s : State) (t : Fin 256) (w : Word) (f : Nat) (o : Int), s.hw.mainUp = true ∧ s.hw.issues t .ldp w = true ∧ (s.hw.thread t).frame = some f ∧ o = ((s.hw.thread t).a w).toInt + offM w ∧ -64 ≤ o ∧ o + accessSize w ≤ (s.hw.frame f).len ∧ o + accessSize w ≤ 128) ∧
    (∃ (s : State) (t : Fin 256) (w : Word) (f : Nat) (o : Int) (a n g k : Nat), s.hw.mainUp = true ∧ s.hw.issues t .ldp w = true ∧ (s.hw.thread t).frame = some f ∧ o = ((s.hw.thread t).a w).toInt + offM w ∧ -64 ≤ o ∧ o + accessSize w ≤ (s.hw.frame f).len ∧ 128 < o + accessSize w ∧ k = (128 - o).toNat ∧ a = (s.hw.frame f).addrOf (o + k) ∧ n = min (accessSize w - k) (256 - (o + k + 64).toNat % 256) ∧ targetOf a = some g) ∧
    (∃ (s : State) (t : Fin 256) (w : Word) (f : Nat) (o : Int) (a n g k : Nat), s.hw.mainUp = true ∧ s.hw.issues t .stp w = true ∧ (s.hw.thread t).frame = some f ∧ o = ((s.hw.thread t).a w).toInt + offM w ∧ -64 ≤ o ∧ o + accessSize w ≤ (s.hw.frame f).len ∧ 128 < o + accessSize w ∧ k = (128 - o).toNat ∧ a = (s.hw.frame f).addrOf (o + k) ∧ n = min (accessSize w - k) (256 - (o + k + 64).toNat % 256) ∧ targetOf a = some g) ∧
    (∃ (s : State) (t : Fin 256) (w : Word) (f : Nat) (o : Int), s.hw.mainUp = true ∧ s.hw.issues t .stp w = true ∧ (s.hw.thread t).frame = some f ∧ o = ((s.hw.thread t).a w).toInt + offM w ∧ -64 ≤ o ∧ o + accessSize w ≤ (s.hw.frame f).len ∧ o + accessSize w ≤ 128) ∧
    (∃ (s : State) (t : Fin 32) (u : Fin 256) (r : GrantRule) (q : Request) (f : Nat) (o : Int) (pre : Bool), s.hw.mainUp = true ∧ s.hw.grantChoice t = some (r, q) ∧ q.thread = some u.val ∧ q.data = none ∧ (s.hw.thread u).on = .packet false ∧ (s.hw.thread u).frame = some f ∧ o = (s.hw.thread u).packetOffset (s.hw.thread u).insn ∧ s.hw.packetFault u (s.hw.frame f) o (accessSize (s.hw.thread u).insn) false = none ∧ s.hw.permits t q.master q.addr false = true ∧ isRegister q.addr = false ∧ s.hw.memoryAt q.addr = true) ∧
    (∃ (s : State) (t : Fin 32) (u : Fin 256) (r : GrantRule) (q : Request) (f : Nat) (o : Int) (pre : Bool), s.hw.mainUp = true ∧ s.hw.grantChoice t = some (r, q) ∧ q.thread = some u.val ∧ q.data = some (bytesBE (accessSize (s.hw.thread u).insn) ((s.hw.thread u).reg (rdOf (s.hw.thread u).insn)).toNat) ∧ (s.hw.thread u).on = .packet true ∧ (s.hw.thread u).frame = some f ∧ o = (s.hw.thread u).packetOffset (s.hw.thread u).insn ∧ 128 ≤ o ∧ (∀ i < accessSize (s.hw.thread u).insn, (s.hw.frame f).addrOf (o + i) = q.addr + i) ∧ s.hw.packetFault u (s.hw.frame f) o (accessSize (s.hw.thread u).insn) true = none ∧ s.hw.permits t q.master q.addr true = true ∧ isRegister q.addr = false ∧ s.hw.memoryAt q.addr = true) ∧
    (∃ (s : State) (t : Fin 256) (r : Reply), s.hw.mainUp = true ∧ (s.hw.thread t).on = .done r ∧ s.hw.threadState t = 2 ∧ r.bus = 0) ∧
    (∃ (s : State) (t : Fin 256) (r : Reply), s.hw.mainUp = true ∧ (s.hw.thread t).on = .done r ∧ s.hw.threadState t = 2 ∧ r.bus ≠ 0 ∧ s.hw.mayRecord t = true) :=
  ⟨⟨wit (fun h => (awl 0x50c70008 (fun th => { th with g := [(1, 0x20040010), (2, 0x1122334455667788)] }) h)), 5, 0x50c70008, 0x20040018, 0x20040018, by decide +kernel⟩,
   ⟨wit (fun h => (awl 0x54870008 (fun th => { th with g := [(1, 0x20040010), (2, 0x1122334455667788)] }) h)), 5, 0x54870008, 0x20040018, 0x20040018, by decide +kernel⟩,
   ⟨wit (fun h => (awl 0x50d30008 (fun th => { th with g := [(4, 0x10000010)] }) h)), 5, 0x50d30008, 0x10000018, 0, by decide +kernel⟩,
   ⟨wit (fun h => (awl 0x54930008 (fun th => { th with g := [(4, 0x10000010), (2, 5)] }) h)), 5, 0x54930008, 0x10000018, 0, by decide +kernel⟩,
   ⟨wit (fun h => (awl 0x50d30008 (fun th => { th with g := [(4, 0x10000000010)] }) h)), 5, 0x50d30008, 0x10000000018, .ld, by decide +kernel⟩,
   ⟨wit (fun h => (awl 0x50d30008 (fun th => { th with g := [(4, 0x10000011)] }) h)), 5, 0x50d30008, 0x10000019, .ld, by decide +kernel⟩,
   ⟨wit (fun h => (awl 0x50d30008 (fun th => { th with g := [(4, 0x20020000)] }) h)), 5, 0x50d30008, 0x20020008, .ld, by decide +kernel⟩,
   ⟨wit (fun h => (awl 0x54930008 (fun th => { th with g := [(4, 0x20000000)] }) h)), 5, 0x54930008, 0x20000008, 0x20000008, by decide +kernel⟩,
   ⟨wit (fun h => (awl 0x60c1000c (fun th => { th with g := [(1, 0x20040010), (2, 0x1122334455667788)] }) h)), 5, 0x60c1000c, .ldp, by decide +kernel⟩,
   ⟨wit (fun h => (awl 0x60c1000c (fun th => { th with g := [(1, 0x20040010), (2, 0x1122334455667788)], frame := some 3 }) h)), 5, 0x60c1000c, .ldp, 3, 12, by decide +kernel⟩,
   ⟨wit (fun h => ((awl 0x60c1000c (fun th => { th with g := [(1, 0x20040010), (2, 0x1122334455667788)], frame := some 3 }) h)).setFrame 3 { Frame.empty with len := 60 }), 5, 0x60c1000c, 3, 12, by decide +kernel⟩,
   ⟨wit (fun h => ((awl 0x60c1008c (fun th => { th with g := [(1, 0x20040010), (2, 0x1122334455667788)], frame := some 3 }) h)).setFrame 3 { Frame.empty with len := 200, bufs := [0x10000000] }), 5, 0x60c1008c, 3, 140, 0x100000cc, 2, 3, 0, by decide +kernel⟩,
   ⟨wit (fun h => ((awl 0x64c1008c (fun th => { th with g := [(1, 0x20040010), (2, 0x1122334455667788)], frame := some 3 }) h)).setFrame 3 { Frame.empty with len := 200, bufs := [0x10000000] }), 5, 0x64c1008c, 3, 140, 0x100000cc, 2, 3, 0, by decide +kernel⟩,
   ⟨wit (fun h => ((awl 0x6482001e (fun th => { th with g := [(1, 0x20040010), (2, 0x1122334455667788)], frame := some 3 }) h)).setFrame 3 { Frame.empty with len := 60 }), 5, 0x6482001e, 3, 30, by decide +kernel⟩,
   ⟨wit (fun h => (((awl 0x60c1008c (fun th => { th with g := [(2, 0x1122334455667788)], frame := some 3, on := .packet false, insn := 0x60c1008c }) h).setFrame 3 { Frame.empty with len := 200, bufs := [0x10000000] }).setThreadState 5 2).presentTo 3 ⟨8, some 5, false, 0x100000CC, 2, none, false, false⟩), 3, 5, .rotation, (⟨8, some 5, false, 0x100000CC, 2, none, false, false⟩), 3, 140, true, by decide +kernel⟩,
   ⟨wit (fun h => (((awl 0x6481008c (fun th => { th with g := [(2, 0x1122334455667788)], frame := some 3, on := .packet true, insn := 0x6481008c }) h).setFrame 3 { Frame.empty with len := 200, bufs := [0x10000000] }).setThreadState 5 2).presentTo 3 ⟨8, some 5, false, 0x100000CC, 2, some [0x77, 0x88], false, false⟩), 3, 5, .rotation, (⟨8, some 5, false, 0x100000CC, 2, some [0x77, 0x88], false, false⟩), 3, 140, true, by decide +kernel⟩,
   ⟨wit (fun h => (h.modThread 5 fun th => { th with on := .done ⟨3, some 9, some true, 0⟩ }).setThreadState 5 2), 5, (⟨3, some 9, some true, 0⟩), by decide +kernel⟩,
   ⟨wit (fun h => (h.modThread 5 fun th => { th with on := .done ⟨3, some 9, some true, 2⟩ }).setThreadState 5 2), 5, (⟨3, some 9, some true, 2⟩), by decide +kernel⟩⟩

theorem witness_AwlQueuesAndLocks :
    (∃ (s : State) (t : Fin 256) (w : Word), s.hw.mainUp = true ∧ s.hw.issues t .qpush w = true) ∧
    (∃ (s : State) (t : Fin 256) (w : Word), s.hw.mainUp = true ∧ s.hw.issues t .qpull w = true) ∧
    (∃ (s : State) (t : Fin 256) (w : Word), s.hw.mainUp = true ∧ s.hw.issues t .qpeek w = true) ∧
    (∃ (s : State) (t : Fin 256) (w : Word) (i : Nat), s.hw.mainUp = true ∧ s.hw.issues t .lock w = true ∧ i = (s.hw.thread t).lockId w) ∧
    (∃ (s : State) (t : Fin 256) (w : Word) (i : Nat), s.hw.mainUp = true ∧ s.hw.issues t .unlock w = true ∧ i = (s.hw.thread t).lockId w) ∧
    (∃ (s : State) (t : Fin 256) (g : Fin 67) (q : Request) (r : GrantRule) (pre : Bool) (e : EccFinding), s.hw.mainUp = true ∧ s.hw.grantChoice g = some (r, q) ∧ q.thread = some t.val ∧ (s.hw.thread t).on = .unit ∧ s.hw.unitPermits g q.master q.addr q.data.isSome = false) ∧
    (∃ (s : State) (t : Fin 256) (w : Word) (pre : Bool) (e : EccFinding) (q : Nat), s.hw.mainUp = true ∧ s.hw.unitGranted 45 t w .qpush = true ∧ q = ((s.hw.thread t).a w).toNat ∧ (isMailbox q || isWorkQueue q) = true ∧ (s.hw.wordsOf q).length < queueDepth q ∧ s.hw.pullersOf q = []) ∧
    (∃ (s : State) (t : Fin 256) (w : Word) (pre : Bool) (e : EccFinding) (q u rd x : Nat) (rest : List Nat), s.hw.mainUp = true ∧ s.hw.unitGranted 45 t w .qpush = true ∧ q = ((s.hw.thread t).a w).toNat ∧ (isMailbox q || isWorkQueue q) = true ∧ (s.hw.wordsOf q).length < queueDepth q ∧ s.hw.pullersOf q = u :: rest ∧ (s.hw.thread u).on = .pull rd x ∧ u ≠ t) ∧
    (∃ (s : State) (t : Fin 256) (w : Word) (pre : Bool) (e : EccFinding) (q : Nat), s.hw.mainUp = true ∧ s.hw.unitGranted 45 t w .qpush = true ∧ q = ((s.hw.thread t).a w).toNat ∧ (isMailbox q || isWorkQueue q) = true ∧ queueDepth q ≤ (s.hw.wordsOf q).length ∧ s.hw.privileged t = true) ∧
    (∃ (s : State) (t : Fin 256) (w : Word) (pre : Bool) (e : EccFinding) (q : Nat), s.hw.mainUp = true ∧ s.hw.unitGranted 45 t w .qpush = true ∧ q = ((s.hw.thread t).a w).toNat ∧ (isMailbox q || isWorkQueue q) = true ∧ queueDepth q ≤ (s.hw.wordsOf q).length ∧ s.hw.privileged t = false) ∧
    (∃ (s : State) (t : Fin 256) (w : Word) (pre : Bool) (e : EccFinding) (q : Nat), s.hw.mainUp = true ∧ s.hw.unitGranted 45 t w .qpush = true ∧ q = ((s.hw.thread t).a w).toNat ∧ q < 64 ∧ s.hw.ringMode q = 0 ∧ s.hw.ringState q = stClosed) ∧
    (∃ (s : State) (t : Fin 256) (w : Word) (pre : Bool) (e : EccFinding) (q : Nat), s.hw.mainUp = true ∧ s.hw.unitGranted 45 t w .qpush = true ∧ q = ((s.hw.thread t).a w).toNat ∧ 64 ≤ q ∧ (isMailbox q || isWorkQueue q) = false ∧ s.hw.mayRecord t = true) ∧
    (∃ (s : State) (t : Fin 256) (w : Word) (pre : Bool) (e : EccFinding) (q : Nat) (v : Dword) (rest : List Dword), s.hw.mainUp = true ∧ s.hw.unitGranted 45 t w .qpull = true ∧ q = ((s.hw.thread t).a w).toNat ∧ mayPull t q = true ∧ s.hw.wordsOf q = v :: rest ∧ s.hw.pushersOf q = []) ∧
    (∃ (s : State) (t : Fin 256) (w : Word) (pre : Bool) (e : EccFinding) (q : Nat), s.hw.mainUp = true ∧ s.hw.unitGranted 45 t w .qpull = true ∧ q = ((s.hw.thread t).a w).toNat ∧ mayPull t q = true ∧ s.hw.wordsOf q = [] ∧ (uOf w || s.hw.privileged t) = true) ∧
    (∃ (s : State) (t : Fin 256) (w : Word) (pre : Bool) (e : EccFinding) (q : Nat), s.hw.mainUp = true ∧ s.hw.unitGranted 45 t w .qpull = true ∧ q = ((s.hw.thread t).a w).toNat ∧ mayPull t q = true ∧ s.hw.wordsOf q = [] ∧ (uOf w || s.hw.privileged t) = false) ∧
    (∃ (s : State) (t : Fin 256) (w : Word) (pre : Bool) (e : EccFinding) (q : Nat), s.hw.mainUp = true ∧ s.hw.unitGranted 45 t w .qpeek = true ∧ q = ((s.hw.thread t).a w).toNat ∧ mayPull t q = true) ∧
    (∃ (s : State) (t : Fin 256) (w : Word) (pre : Bool) (e : EccFinding) (i : Nat), s.hw.mainUp = true ∧ s.hw.unitGranted 44 t w .lock = true ∧ i = (s.hw.thread t).lockId w ∧ i < 1024 ∧ ((s.hw.thread t).locks.contains i || decide (8 ≤ (s.hw.thread t).locks.length)) = false ∧ s.hw.lockHeld i = false) ∧
    (∃ (s : State) (t : Fin 256) (w : Word) (pre : Bool) (e : EccFinding) (i : Nat), s.hw.mainUp = true ∧ s.hw.unitGranted 44 t w .lock = true ∧ i = (s.hw.thread t).lockId w ∧ i < 1024 ∧ ((s.hw.thread t).locks.contains i || decide (8 ≤ (s.hw.thread t).locks.length)) = false ∧ s.hw.lockHeld i = true ∧ s.hw.privileged t = true) ∧
    (∃ (s : State) (t : Fin 256) (w : Word) (pre : Bool) (e : EccFinding) (i : Nat), s.hw.mainUp = true ∧ s.hw.unitGranted 44 t w .lock = true ∧ i = (s.hw.thread t).lockId w ∧ i < 1024 ∧ ((s.hw.thread t).locks.contains i || decide (8 ≤ (s.hw.thread t).locks.length)) = false ∧ s.hw.lockHeld i = true ∧ s.hw.privileged t = false) ∧
    (∃ (s : State) (t : Fin 256) (w : Word) (pre : Bool) (e : EccFinding), s.hw.mainUp = true ∧ s.hw.unitGranted 44 t w .lock = true ∧ 1024 ≤ (s.hw.thread t).lockId w ∧ s.hw.mayRecord t = true) ∧
    (∃ (s : State) (t : Fin 256) (w : Word) (pre : Bool) (e : EccFinding) (i : Nat), s.hw.mainUp = true ∧ s.hw.unitGranted 44 t w .unlock = true ∧ i = (s.hw.thread t).lockId w ∧ i < 1024 ∧ i ∈ (s.hw.thread t).locks ∧ s.hw.lockWaiters i = []) ∧
    (∃ (s : State) (t : Fin 256) (w : Word) (pre : Bool) (e : EccFinding) (i u rd : Nat) (rest : List Nat), s.hw.mainUp = true ∧ s.hw.unitGranted 44 t w .unlock = true ∧ i = (s.hw.thread t).lockId w ∧ i < 1024 ∧ i ∈ (s.hw.thread t).locks ∧ s.hw.lockWaiters i = u :: rest ∧ (s.hw.thread u).on = .lock rd i ∧ u < 256 ∧ u ≠ t) ∧
    (∃ (s : State) (t : Fin 256) (w : Word) (pre : Bool) (e : EccFinding) (i : Nat), s.hw.mainUp = true ∧ s.hw.unitGranted 44 t w .unlock = true ∧ i = (s.hw.thread t).lockId w ∧ i < 1024 ∧ i ∉ (s.hw.thread t).locks ∧ s.hw.mayRecord t = true) ∧
    (∃ (s : State) (t : Fin 256) (w : Word), s.hw.mainUp = true ∧ s.hw.issues t .raise w = true ∧ s.hw.signalAccepted (immOf w) = true) ∧
    (∃ (s : State) (t : Fin 256) (w : Word), s.hw.mainUp = true ∧ s.hw.issues t .raise w = true ∧ s.hw.signalAccepted (immOf w) = false ∧ s.hw.privileged t = true) ∧
    (∃ (s : State) (t : Fin 256) (w : Word), s.hw.mainUp = true ∧ s.hw.issues t .raise w = true ∧ s.hw.signalAccepted (immOf w) = false ∧ s.hw.privileged t = false) :=
  ⟨⟨wit (fun h => (awl 0x6cc48000 (fun th => { th with g := [(1, 0x205), (2, 77)] }) h)), 5, 0x6cc48000, by decide +kernel⟩,
   ⟨wit (fun h => (awl 0x6cc40001 (fun th => { th with g := [(1, 0x205)] }) h)), 5, 0x6cc40001, by decide +kernel⟩,
   ⟨wit (fun h => (awl 0x6cc40002 (fun th => { th with g := [(1, 0x205)] }) h)), 5, 0x6cc40002, by decide +kernel⟩,
   ⟨wit (fun h => (awl 0x70c00009 (fun th => { th with g := [] }) h)), 5, 0x70c00009, 9, by decide +kernel⟩,
   ⟨wit (fun h => (awl 0x70010009 (fun th => { th with g := [] }) h)), 5, 0x70010009, 9, by decide +kernel⟩,
   ⟨wit (fun h => (((((h.set R.ILT_LC_STAT_STATE 1).setWord (R.ILT_ACC_DEF_WMASK_LO 45) 0).setWord (R.ILT_ACC_DEF_WMASK_HI 45) 0).setThreadState 5 2).ask 5 0 45 0 true)), 5, 45, (⟨8, some 5, false, 0, 8, some [], false, false⟩), .rotation, true, .clean, by decide +kernel⟩,
   ⟨wit (fun h => ((awl 0x6cc48000 (fun th => { th with g := [(1, 0x205), (2, 77)] }) h)).ask 5 0x6cc48000 45 0 true), 5, 0x6cc48000, true, .clean, 0x205, by decide +kernel⟩,
   ⟨wit (fun h => ((((awl 0x6cc48000 (fun th => { th with g := [(1, 0x205), (2, 77)] }) h)).setPullers 0x205 [9]).modThread 9 fun th => { th with on := .pull 4 0x205 }).ask 5 0x6cc48000 45 0 true), 5, 0x6cc48000, true, .clean, 0x205, 9, 4, 0x205, [], by decide +kernel⟩,
   ⟨wit (fun h => ((((awl 0x6cc48000 (fun th => { th with g := [(1, 0x205), (2, 77)] }) h)).set R.WELT_CTL_TIMING_MASK 2).setWords 0x205 (List.replicate 256 1)).ask 5 0x6cc48000 45 0 true), 5, 0x6cc48000, true, .clean, 0x205, by decide +kernel⟩,
   ⟨wit (fun h => (((awl 0x6cc48000 (fun th => { th with g := [(1, 0x205), (2, 77)] }) h)).setWords 0x205 (List.replicate 256 1)).ask 5 0x6cc48000 45 0 true), 5, 0x6cc48000, true, .clean, 0x205, by decide +kernel⟩,
   ⟨wit (fun h => ((awl 0x6cc48000 (fun th => { th with g := [(1, 0x5), (2, 77)] }) h)).ask 5 0x6cc48000 45 0 true), 5, 0x6cc48000, true, .clean, 5, by decide +kernel⟩,
   ⟨wit (fun h => ((awl 0x6cc48000 (fun th => { th with g := [(1, 0x90), (2, 77)] }) h)).ask 5 0x6cc48000 45 0 true), 5, 0x6cc48000, true, .clean, 0x90, by decide +kernel⟩,
   ⟨wit (fun h => (((awl 0x6cc40001 (fun th => { th with g := [(1, 0x205), (2, 77)] }) h)).setWords 0x205 [8, 9]).ask 5 0x6cc40001 45 0 true), 5, 0x6cc40001, true, .clean, 0x205, 8, [9], by decide +kernel⟩,
   ⟨wit (fun h => ((awl 0x6cc40041 (fun th => { th with g := [(1, 0x205), (2, 77)] }) h)).ask 5 0x6cc40041 45 0 true), 5, 0x6cc40041, true, .clean, 0x205, by decide +kernel⟩,
   ⟨wit (fun h => ((awl 0x6cc40001 (fun th => { th with g := [(1, 0x205), (2, 77)] }) h)).ask 5 0x6cc40001 45 0 true), 5, 0x6cc40001, true, .clean, 0x205, by decide +kernel⟩,
   ⟨wit (fun h => (((awl 0x6cc40002 (fun th => { th with g := [(1, 0x205), (2, 77)] }) h)).setWords 0x205 [8, 9]).ask 5 0x6cc40002 45 0 true), 5, 0x6cc40002, true, .clean, 0x205, by decide +kernel⟩,
   ⟨wit (fun h => ((awl 0x70c00009 (fun th => { th with g := [] }) h)).ask 5 0x70c00009 44 0 true), 5, 0x70c00009, true, .clean, 9, by decide +kernel⟩,
   ⟨wit (fun h => ((((awl 0x70c00009 (fun th => { th with g := [] }) h)).set R.WELT_CTL_TIMING_MASK 2).giveLock 9 3 0).ask 5 0x70c00009 44 0 true), 5, 0x70c00009, true, .clean, 9, by decide +kernel⟩,
   ⟨wit (fun h => (((awl 0x70c00009 (fun th => { th with g := [] }) h)).giveLock 9 3 0).ask 5 0x70c00009 44 0 true), 5, 0x70c00009, true, .clean, 9, by decide +kernel⟩,
   ⟨wit (fun h => ((awl 0x70c00400 (fun th => { th with g := [] }) h)).ask 5 0x70c00400 44 0 true), 5, 0x70c00400, true, .clean, by decide +kernel⟩,
   ⟨wit (fun h => (((awl 0x70010009 (fun th => { th with g := [] }) h)).giveLockThread 9 5).ask 5 0x70010009 44 0 true), 5, 0x70010009, true, .clean, 9, by decide +kernel⟩,
   ⟨wit (fun h => (((((awl 0x70010009 (fun th => { th with g := [] }) h)).giveLockThread 9 5).setLockWaiters 9 [7]).modThread 7 fun th => { th with on := .lock 4 9 }).ask 5 0x70010009 44 0 true), 5, 0x70010009, true, .clean, 9, 7, 4, [], by decide +kernel⟩,
   ⟨wit (fun h => ((awl 0x70010009 (fun th => { th with g := [] }) h)).ask 5 0x70010009 44 0 true), 5, 0x70010009, true, .clean, 9, by decide +kernel⟩,
   ⟨wit (fun h => ((awl 0xf0c51007 (fun th => { th with g := [(1, 55)] }) h)).setBtState 7 5), 5, 0xf0c51007, by decide +kernel⟩,
   ⟨wit (fun h => (((awl 0xf0c51007 (fun th => { th with g := [(1, 55)] }) h)).set R.WELT_CTL_TIMING_MASK 2).modBt 7 fun x => { x with signals := List.replicate 64 (7, 1) }), 5, 0xf0c51007, by decide +kernel⟩,
   ⟨wit (fun h => ((awl 0xf0c51007 (fun th => { th with g := [(1, 55)] }) h)).modBt 7 fun x => { x with signals := List.replicate 64 (7, 1) }), 5, 0xf0c51007, by decide +kernel⟩⟩

theorem witness_AwlTimeAndWaiting :
    (∃ (s : State) (t : Fin 256) (w : Word), s.hw.mainUp = true ∧ s.hw.issues t .tnow w = true) ∧
    (∃ (s : State) (t : Fin 256) (w : Word), s.hw.mainUp = true ∧ s.hw.issues t .tmono w = true) ∧
    (∃ (s : State) (t : Fin 256) (w : Word) (sec sub : Nat) (b carry : Int), s.hw.mainUp = true ∧ s.hw.issues t .tadd w = true ∧ sec = ((s.hw.thread t).reg (raOf w)).toNat ∧ sub = ((s.hw.thread t).reg (raOf w + 1)).toNat ∧ sec < 2 ^ 48 ∧ sub < (1000000000 * 2 ^ 16) ∧ b = ((s.hw.thread t).reg (rbOf w)).toInt ∧ carry = (sub + b) / (1000000000 * 2 ^ 16)) ∧
    (∃ (s : State) (t : Fin 256) (w : Word) (sa na sb nb : Nat) (e : Bool), s.hw.mainUp = true ∧ s.hw.issues t .tcmp w = true ∧ sa = ((s.hw.thread t).reg (raOf w)).toNat ∧ na = ((s.hw.thread t).reg (raOf w + 1)).toNat ∧ sa < 2 ^ 48 ∧ na < (1000000000 * 2 ^ 16) ∧ sb = ((s.hw.thread t).reg (rbOf w)).toNat ∧ nb = ((s.hw.thread t).reg (rbOf w + 1)).toNat ∧ sb < 2 ^ 48 ∧ nb < (1000000000 * 2 ^ 16) ∧ e = (if sa = sb then decide (na < nb) else decide (2 ^ 47 ≤ (sa + 2 ^ 48 - sb) % 2 ^ 48))) ∧
    (∃ (s : State) (t : Fin 256) (w : Word), s.hw.mainUp = true ∧ s.hw.issues t .tcmp w = true ∧ ((s.hw.thread t).pair (raOf w) = none ∨ (s.hw.thread t).pair (rbOf w) = none) ∧ s.hw.mayRecord t = true) ∧
    (∃ (s : State) (t : Fin 256) (w : Word), s.hw.mainUp = true ∧ s.hw.issues t .tadd w = true ∧ (s.hw.thread t).pair (raOf w) = none ∧ s.hw.mayRecord t = true) ∧
    (∃ (s : State) (t : Fin 256) (w : Word) (a b r : Dword) (sat : Bool), s.hw.mainUp = true ∧ s.hw.issues t .cfadd w = true ∧ a = (s.hw.thread t).a w ∧ b = (s.hw.thread t).reg (rbOf w) ∧ (sat = decide (a.toInt = 2 ^ 63 - 1 ∨ a.toInt + b.toInt < -(2 ^ 63) ∨ 2 ^ 63 - 1 < a.toInt + b.toInt)) ∧ r = (if sat then BitVec.ofNat 64 (2 ^ 63 - 1) else a + b)) ∧
    (∃ (s : State) (t : Fin 256) (w : Word) (f : Nat), s.hw.mainUp = true ∧ s.hw.issues t .stampRead w = true ∧ (s.hw.thread t).frame = some f) ∧
    (∃ (s : State) (t : Fin 256) (w : Word) (f : Nat), s.hw.mainUp = true ∧ s.hw.issues t .stampMark w = true ∧ (s.hw.thread t).frame = some f ∧ actionValid ((s.hw.thread t).a w).toNat = true) ∧
    (∃ (s : State) (t : Fin 256) (w : Word) (f : Nat), s.hw.mainUp = true ∧ s.hw.issues t .stampMark w = true ∧ (s.hw.thread t).frame = some f ∧ actionValid ((s.hw.thread t).a w).toNat = false ∧ s.hw.mayRecord t = true) ∧
    (∃ (s : State) (t : Fin 256) (w : Word), s.hw.mainUp = true ∧ s.hw.issues t .stampRead w = true ∧ (s.hw.thread t).frame = none ∧ s.hw.mayRecord t = true) ∧
    (∃ (s : State) (t : Fin 256) (w : Word), s.hw.mainUp = true ∧ s.hw.issues t .waitev w = true ∧ immOf w = 0 ∧ (s.hw.thread t).a w = 0 ∧ s.hw.mayRecord t = true) ∧
    (∃ (s : State) (t : Fin 256) (w : Word) (p : Nat), s.hw.mainUp = true ∧ s.hw.issues t .waitev w = true ∧ p = s.hw.pendingEvents t (immOf w) ∧ (immOf w ≠ 0 ∨ (s.hw.thread t).a w ≠ 0) ∧ s.hw.engineState (t / 4) = 3) ∧
    (∃ (s : State) (t : Fin 256) (w : Word) (p : Nat), s.hw.mainUp = true ∧ s.hw.issues t .waitev w = true ∧ p = s.hw.pendingEvents t (immOf w) ∧ p ≠ 0 ∧ s.hw.engineState (t / 4) ≠ 3) ∧
    (∃ (s : State) (t : Fin 256) (w : Word), s.hw.mainUp = true ∧ s.hw.issues t .waitev w = true ∧ s.hw.pendingEvents t (immOf w) = 0 ∧ (immOf w ≠ 0 ∨ (s.hw.thread t).a w ≠ 0) ∧ s.hw.engineState (t / 4) ≠ 3) ∧
    (∃ (s : State) (t : Fin 256) (rd mask d p : Nat), s.hw.mainUp = true ∧ (s.hw.thread t).on = .event rd mask d ∧ p = s.hw.pendingEvents t mask ∧ (s.hw.engineState (t / 4) = 3 ∨ p ≠ 0)) ∧
    (∃ (s : State) (t : Fin 256) (rd mask d : Nat), s.hw.mainUp = true ∧ (s.hw.thread t).on = .event rd mask d ∧ s.hw.pendingEvents t mask = 0 ∧ s.hw.engineState (t / 4) ≠ 3 ∧ d ≠ 0) ∧
    (∃ (s : State) (t : Fin 256) (w : Word) (v : Dword), s.hw.mainUp = true ∧ s.hw.issues t .waitt w = true ∧ w.getLsbD 0 = false ∧ (s.hw.engineState (t / 4) = 3 ∨ ((s.hw.thread t).a w).toNat ≤ s.hw.et) ∧ v = (if s.hw.engineState (t / 4) = 3 then 3 else if ((s.hw.thread t).a w).toNat < s.hw.et then 1 else 0)) ∧
    (∃ (s : State) (t : Fin 256) (w : Word), s.hw.mainUp = true ∧ s.hw.issues t .waitt w = true ∧ w.getLsbD 0 = false ∧ s.hw.engineState (t / 4) ≠ 3 ∧ s.hw.et < ((s.hw.thread t).a w).toNat) ∧
    (∃ (s : State) (t : Fin 256) (w : Word) (sec sub : Nat), s.hw.mainUp = true ∧ s.hw.issues t .waitt w = true ∧ w.getLsbD 0 = true ∧ s.hw.engineState (t / 4) ≠ 3 ∧ (s.hw.thread t).pair (raOf w) = some (sec, sub) ∧ timeOrder sec sub (stampOf s.hw.nt).sec (stampOf s.hw.nt).sub = .gt) ∧
    (∃ (s : State) (t : Fin 256) (w : Word) (sec sub : Nat) (v : Dword), s.hw.mainUp = true ∧ s.hw.issues t .waitt w = true ∧ w.getLsbD 0 = true ∧ (s.hw.thread t).pair (raOf w) = some (sec, sub) ∧ (s.hw.engineState (t / 4) = 3 ∨ timeOrder sec sub (stampOf s.hw.nt).sec (stampOf s.hw.nt).sub ≠ .gt) ∧ v = (if s.hw.engineState (t / 4) = 3 then 3 else if timeOrder sec sub (stampOf s.hw.nt).sec (stampOf s.hw.nt).sub = .lt then 1 else 0)) ∧
    (∃ (s : State) (t : Fin 256) (rd d : Nat), s.hw.mainUp = true ∧ (s.hw.thread t).on = .elapsed rd d) ∧
    (∃ (s : State) (t : Fin 256) (rd : Nat) (d : Stamp), s.hw.mainUp = true ∧ (s.hw.thread t).on = .network rd d ∧ (s.hw.engineState (t / 4) = 3 ∨ (s.hw.advanceToNt (d.sec * ntSecond + d.sub * 2 ^ 16)).ntReached (d.sec * ntSecond + d.sub * 2 ^ 16) = true)) :=
  ⟨⟨wit (fun h => { (awl 0x75000000 (fun th => { th with g := [] }) h) with nt := 5000000000000000000000 }), 5, 0x75000000, by decide +kernel⟩,
   ⟨wit (fun h => (awl 0x75000001 (fun th => { th with g := [] }) h)), 5, 0x75000001, by decide +kernel⟩,
   ⟨wit (fun h => (awl 0x7518a002 (fun th => { th with g := [(6, 1700000000), (7, 65535986925568), (2, 22953984)] }) h)), 5, 0x7518a002, 1700000000, 65535986925568, 22953984, 1, by decide +kernel⟩,
   ⟨wit (fun h => (awl 0x74118003 (fun th => { th with g := [(4, 5), (5, 0), (6, 281474976710654), (7, 0)] }) h)), 5, 0x74118003, 5, 0, 281474976710654, 0, false, by decide +kernel⟩,
   ⟨wit (fun h => (awl 0x74118003 (fun th => { th with g := [(4, 5), (5, 0), (6, 281474976710656), (7, 0)] }) h)), 5, 0x74118003, by decide +kernel⟩,
   ⟨wit (fun h => (awl 0x7518a002 (fun th => { th with g := [(6, 281474976710656), (7, 0)] }) h)), 5, 0x7518a002, by decide +kernel⟩,
   ⟨wit (fun h => (awl 0x74c4a004 (fun th => { th with g := [(1, 0x7FFFFFFFFFFF0000), (2, 0x20000)] }) h)), 5, 0x74c4a004, 0x7FFFFFFFFFFF0000, 0x20000, 0x7FFFFFFFFFFFFFFF, true, by decide +kernel⟩,
   ⟨wit (fun h => ((awl 0x75000005 (fun th => { th with g := [], frame := some 3 }) h)).setFrame 3 { Frame.empty with stamp := ⟨7, 9⟩ }), 5, 0x75000005, 3, by decide +kernel⟩,
   ⟨wit (fun h => ((awl 0x74040045 (fun th => { th with g := [(1, 0x59)], frame := some 3 }) h)).setFrame 3 { Frame.empty with len := 60 }), 5, 0x74040045, 3, by decide +kernel⟩,
   ⟨wit (fun h => ((awl 0x74040045 (fun th => { th with g := [(1, 0x5B)], frame := some 3 }) h)).setFrame 3 { Frame.empty with len := 60 }), 5, 0x74040045, 3, by decide +kernel⟩,
   ⟨wit (fun h => (awl 0x75000005 (fun th => { th with g := [] }) h)), 5, 0x75000005, by decide +kernel⟩,
   ⟨wit (fun h => (awl 0x78c40000 (fun th => { th with g := [] }) h)), 5, 0x78c40000, by decide +kernel⟩,
   ⟨wit (fun h => ((awl 0x78c40401 (fun th => { th with g := [] }) h)).set (fstatState (.engine 1)) 3), 5, 0x78c40401, 0, by decide +kernel⟩,
   ⟨wit (fun h => (awl 0x78c40401 (fun th => { th with g := [], events := 6 }) h)), 5, 0x78c40401, 1024, by decide +kernel⟩,
   ⟨wit (fun h => (awl 0x78c40401 (fun th => { th with g := [], events := 2 }) h)), 5, 0x78c40401, by decide +kernel⟩,
   ⟨wit (fun h => (h.modThread 5 fun th => { th with on := .event 3 0x401 0, events := 4 }).setThreadState 5 2), 5, 3, 0x401, 0, 1024, by decide +kernel⟩,
   ⟨wit (fun h => (h.modThread 5 fun th => { th with on := .event 3 0x401 3000000 }).setThreadState 5 2), 5, 3, 0x401, 3000000, by decide +kernel⟩,
   ⟨wit (fun h => (awl 0x78c50000 (fun th => { th with g := [(1, 100)] }) h)), 5, 0x78c50000, 1, by decide +kernel⟩,
   ⟨wit (fun h => (awl 0x78c50000 (fun th => { th with g := [(1, 5000000)] }) h)), 5, 0x78c50000, by decide +kernel⟩,
   ⟨wit (fun h => (awl 0x78d10001 (fun th => { th with g := [(4, 5), (5, 0)] }) h)), 5, 0x78d10001, 5, 0, by decide +kernel⟩,
   ⟨wit (fun h => { (awl 0x78d10001 (fun th => { th with g := [(4, 5), (5, 0)] }) h) with nt := 6000000000 * 2 ^ 32 }), 5, 0x78d10001, 5, 0, 1, by decide +kernel⟩,
   ⟨wit (fun h => (h.modThread 5 fun th => { th with on := .elapsed 3 3000000 }).setThreadState 5 2), 5, 3, 3000000, by decide +kernel⟩,
   ⟨wit (fun h => { (h.modThread 5 fun th => { th with on := .network 3 ⟨0, 100 * 2 ^ 16⟩ }).setThreadState 5 2 with tbLock := true }), 5, 3, (⟨0, 100 * 2 ^ 16⟩), by decide +kernel⟩⟩

theorem witness_AwlDispositionAndLastWrites :
    (∃ (s : State) (t : Fin 256) (w : Word) (f : Nat), s.hw.mainUp = true ∧ s.hw.issues t .release w = true ∧ (s.hw.thread t).frame = some f ∧ releaseValid (s.hw.frame f) ((s.hw.thread t).a w).toNat ((s.hw.thread t).reg (rbOf w)).toNat = true) ∧
    (∃ (s : State) (t : Fin 256) (w : Word) (f : Nat), s.hw.mainUp = true ∧ s.hw.issues t .release w = true ∧ (s.hw.thread t).frame = some f ∧ releaseValid (s.hw.frame f) ((s.hw.thread t).a w).toNat ((s.hw.thread t).reg (rbOf w)).toNat = false ∧ s.hw.mayRecord t = true) ∧
    (∃ (s : State) (t : Fin 256) (w : Word) (f : Nat), s.hw.mainUp = true ∧ s.hw.issues t .drop w = true ∧ (s.hw.thread t).frame = some f ∧ ((s.hw.thread t).a w).toNat ≤ 255) ∧
    (∃ (s : State) (t : Fin 256) (w : Word) (f : Nat), s.hw.mainUp = true ∧ s.hw.issues t .drop w = true ∧ (s.hw.thread t).frame = some f ∧ 255 < ((s.hw.thread t).a w).toNat ∧ s.hw.mayRecord t = true) ∧
    (∃ (s : State) (t : Fin 256) (w : Word) (f : Nat), s.hw.mainUp = true ∧ s.hw.issues t .fwd w = true ∧ (s.hw.thread t).frame = some f ∧ ((s.hw.thread t).a w).toNat ≤ 4095 ∧ ((s.hw.thread t).reg (rbOf w)).toNat < 2 ^ 32) ∧
    (∃ (s : State) (t : Fin 256) (w : Word) (f : Nat), s.hw.mainUp = true ∧ s.hw.issues t .fwd w = true ∧ (s.hw.thread t).frame = some f ∧ ¬ (((s.hw.thread t).a w).toNat ≤ 4095 ∧ ((s.hw.thread t).reg (rbOf w)).toNat < 2 ^ 32) ∧ s.hw.mayRecord t = true) ∧
    (∃ (s : State) (t : Fin 256) (w : Word) (k : AwlKind), s.hw.mainUp = true ∧ (k = .release ∨ k = .drop ∨ k = .fwd) ∧ s.hw.issues t k w = true ∧ (s.hw.thread t).frame = none ∧ s.hw.mayRecord t = true) ∧
    (∃ (s : State) (t : Fin 256) (w : Word), s.hw.mainUp = true ∧ s.hw.issues t .lastw w = true) ∧
    (∃ (s : State) (t : Fin 256) (w : Word) (b : Nat), s.hw.mainUp = true ∧ s.hw.issues t .lastamend w = true ∧ b = ((s.hw.thread t).reg (rbOf w)).toNat) ∧
    (∃ (s : State) (t : Fin 256) (w : Word) (pre : Bool) (e : EccFinding) (a v A : Nat), s.hw.mainUp = true ∧ s.hw.unitGranted 60 t w .lastw = true ∧ a = ((s.hw.thread t).a w).toNat ∧ v = ((s.hw.thread t).reg (rbOf w)).toNat ∧ A = (lastwAddr (a % 4) (1 - s.hw.lastActive (a % 4)) (a / 4 % 4) (a / 16 % 4) (a / 64 % 8192)) ∧ lastwValid a v = true ∧ s.hw.lastPend (a % 4) = false ∧ (s.hw.lastOf (a % 4)).arming = false ∧ ¬ (a / 4 % 4 = 2 ∧ a / 64 % 8192 = 0 ∧ 999999999 < v % 2 ^ 30)) ∧
    (∃ (s : State) (t : Fin 256) (w : Word) (pre : Bool) (e : EccFinding) (a v A : Nat), s.hw.mainUp = true ∧ s.hw.unitGranted 60 t w .lastw = true ∧ a = ((s.hw.thread t).a w).toNat ∧ v = ((s.hw.thread t).reg (rbOf w)).toNat ∧ A = (lastwAddr (a % 4) (1 - s.hw.lastActive (a % 4)) (a / 4 % 4) (a / 16 % 4) (a / 64 % 8192)) ∧ lastwValid a v = true ∧ (s.hw.lastPend (a % 4) || (s.hw.lastOf (a % 4)).arming) = true) ∧
    (∃ (s : State) (t : Fin 256) (w : Word) (pre : Bool) (e : EccFinding), s.hw.mainUp = true ∧ s.hw.unitGranted 60 t w .lastw = true ∧ lastwValid ((s.hw.thread t).a w).toNat ((s.hw.thread t).reg (rbOf w)).toNat = false ∧ s.hw.mayRecord t = true) ∧
    (∃ (s : State) (t : Fin 256) (w : Word) (pre : Bool) (e : EccFinding) (b : Nat), s.hw.mainUp = true ∧ s.hw.unitGranted 60 t w .lastamend = true ∧ b = ((s.hw.thread t).reg (rbOf w)).toNat ∧ b % 4 ≠ 3 ∧ b < 2 ^ 14 ∧ s.hw.lastRun (b % 4) = false) ∧
    (∃ (s : State) (t : Fin 256) (w : Word) (pre : Bool) (e : EccFinding) (b lo hi c : Nat), s.hw.mainUp = true ∧ s.hw.unitGranted 60 t w .lastamend = true ∧ b = ((s.hw.thread t).reg (rbOf w)).toNat ∧ b % 4 ≠ 3 ∧ b < 2 ^ 14 ∧ s.hw.lastRun (b % 4) = true ∧ lo = ((s.hw.thread t).reg (raOf w)).toNat ∧ hi = ((s.hw.thread t).reg (raOf w + 1)).toNat ∧ s.hw.amendCode (b % 4) (b / 4) (entryOf [lo % 2 ^ 32, lo / 2 ^ 32, hi % 2 ^ 32, hi / 2 ^ 32]) = some c) ∧
    (∃ (s : State) (t : Fin 256) (w : Word) (pre : Bool) (e : EccFinding) (b lo hi : Nat), s.hw.mainUp = true ∧ s.hw.unitGranted 60 t w .lastamend = true ∧ b = ((s.hw.thread t).reg (rbOf w)).toNat ∧ b % 4 ≠ 3 ∧ b < 2 ^ 14 ∧ s.hw.lastRun (b % 4) = true ∧ lo = ((s.hw.thread t).reg (raOf w)).toNat ∧ hi = ((s.hw.thread t).reg (raOf w + 1)).toNat ∧ s.hw.amendCode (b % 4) (b / 4) (entryOf [lo % 2 ^ 32, lo / 2 ^ 32, hi % 2 ^ 32, hi / 2 ^ 32]) = none) :=
  ⟨⟨wit (fun h => ((awl 0x7c048000 (fun th => { th with g := [(1, 9000), (2, 0xE000)], frame := some 3 }) h)).setFrame 3 { Frame.empty with len := 60 }), 5, 0x7c048000, 3, by decide +kernel⟩,
   ⟨wit (fun h => ((awl 0x7c048000 (fun th => { th with g := [(1, 0x4000)], frame := some 3 }) h)).setFrame 3 { Frame.empty with len := 60 }), 5, 0x7c048000, 3, by decide +kernel⟩,
   ⟨wit (fun h => ((awl 0x7c040001 (fun th => { th with g := [(1, 200)], frame := some 3 }) h)).setFrame 3 { Frame.empty with len := 60 }), 5, 0x7c040001, 3, by decide +kernel⟩,
   ⟨wit (fun h => ((awl 0x7c040001 (fun th => { th with g := [(1, 256)], frame := some 3 }) h)).setFrame 3 { Frame.empty with len := 60 }), 5, 0x7c040001, 3, by decide +kernel⟩,
   ⟨wit (fun h => ((awl 0x7c048002 (fun th => { th with g := [(1, 4095), (2, 9)], frame := some 3 }) h)).setFrame 3 { Frame.empty with len := 60 }), 5, 0x7c048002, 3, by decide +kernel⟩,
   ⟨wit (fun h => ((awl 0x7c048002 (fun th => { th with g := [(1, 4096), (2, 9)], frame := some 3 }) h)).setFrame 3 { Frame.empty with len := 60 }), 5, 0x7c048002, 3, by decide +kernel⟩,
   ⟨wit (fun h => (awl 0x7c040001 (fun th => { th with g := [] }) h)), 5, 0x7c040001, .drop, by decide +kernel⟩,
   ⟨wit (fun h => (awl 0x80c48000 (fun th => { th with g := [(1, 0x61), (2, 0x1234)] }) h)), 5, 0x80c48000, by decide +kernel⟩,
   ⟨wit (fun h => (awl 0x80d04001 (fun th => { th with g := [(1, 0x1D), (4, 5), (5, 6)] }) h)), 5, 0x80d04001, 0x1D, by decide +kernel⟩,
   ⟨wit (fun h => ((awl 0x80c48000 (fun th => { th with g := [(1, 0x61), (2, 0x1234)] }) h)).ask 5 0x80c48000 60 0 true), 5, 0x80c48000, true, .clean, 0x61, 0x1234, (lastwAddr 1 1 0 2 1), by decide +kernel⟩,
   ⟨wit (fun h => (((awl 0x80c48000 (fun th => { th with g := [(1, 0x61), (2, 0x1234)] }) h)).set (R.LAST_STAT_PEND 1) 1).ask 5 0x80c48000 60 0 true), 5, 0x80c48000, true, .clean, 0x61, 0x1234, (lastwAddr 1 1 0 2 1), by decide +kernel⟩,
   ⟨wit (fun h => ((awl 0x80c48000 (fun th => { th with g := [(1, 0x63), (2, 0x1234)] }) h)).ask 5 0x80c48000 60 0 true), 5, 0x80c48000, true, .clean, by decide +kernel⟩,
   ⟨wit (fun h => ((awl 0x80d04001 (fun th => { th with g := [(1, 0x1D), (4, 5), (5, 6)] }) h)).ask 5 0x80d04001 60 0 true), 5, 0x80d04001, true, .clean, 0x1D, by decide +kernel⟩,
   ⟨wit (fun h => (((awl 0x80d04001 (fun th => { th with g := [(1, 0x1D), (4, 0x6400000000), (5, 6)] }) h)).set (R.LAST_STAT_RUN 1) 1).ask 5 0x80d04001 60 0 true), 5, 0x80d04001, true, .clean, 0x1D, 0x6400000000, 6, 4, by decide +kernel⟩,
   ⟨wit (fun h => ((((awl 0x80d04001 (fun th => { th with g := [(1, 0x1D), (4, 0x6404000000), (5, 6)] }) h)).set (R.LAST_STAT_RUN 1) 1).set (R.LAST_CYCLE_CYCLE 1 0) 500).ask 5 0x80d04001 60 0 true), 5, 0x80d04001, true, .clean, 0x1D, 0x6404000000, 6, by decide +kernel⟩⟩

theorem witness_BenchThreadCommands :
    (∃ (s : State) (n : Fin 8) (t : Fin 4096) (a : Word), s.hw.mainUp = true ∧ s.hw.get (R.BENCH_RSP_BUSY n) = 0 ∧ a = s.hw.arg n 0 ∧ bitsOf a 6 8 ≠ 0 ∧ s.hw.btState t = 0) ∧
    (∃ (s : State) (n : Fin 8) (t : Fin 4096), s.hw.mainUp = true ∧ s.hw.get (R.BENCH_RSP_BUSY n) = 0 ∧ (bitsOf (s.hw.arg n 0) 6 8 = 0 ∨ s.hw.btState t ≠ 0)) ∧
    (∃ (s : State) (n : Fin 8) (t : Fin 4096), s.hw.mainUp = true ∧ s.hw.get (R.BENCH_RSP_BUSY n) = 0 ∧ s.hw.btTomb t = false ∧ (s.hw.btState t = 3 ∨ s.hw.btState t = 4 ∨ s.hw.btState t = 5)) ∧
    (∃ (s : State) (n : Fin 8) (t : Fin 4096), s.hw.mainUp = true ∧ s.hw.get (R.BENCH_RSP_BUSY n) = 0 ∧ s.hw.btTomb t = true) ∧
    (∃ (s : State) (n : Fin 8) (t : Fin 4096), s.hw.mainUp = true ∧ s.hw.get (R.BENCH_RSP_BUSY n) = 0 ∧ s.hw.btTomb t = false ∧ s.hw.btState t ≤ 2) ∧
    (∃ (s : State) (n : Fin 8) (t : Fin 4096), s.hw.mainUp = true ∧ s.hw.get (R.BENCH_RSP_BUSY n) = 0) ∧
    (∃ (s : State) (n : Fin 8) (t : Fin 4096), s.hw.mainUp = true ∧ s.hw.get (R.BENCH_RSP_BUSY n) = 0 ∧ (s.hw.btState t ≠ 0 ∧ s.hw.btState t ≠ 2 ∨ s.hw.btState t = 2 ∧ (s.hw.coreOf t).isSome = true ∧ s.hw.get (R.BENCH_THR_W0_CANCEL_PEND t) = 0)) ∧
    (∃ (s : State) (n : Fin 8) (t : Fin 4096), s.hw.mainUp = true ∧ s.hw.get (R.BENCH_RSP_BUSY n) = 0 ∧ s.hw.btState t = 0) ∧
    (∃ (s : State) (n : Fin 8) (t d : Nat), s.hw.mainUp = true ∧ s.hw.get (R.BENCH_RSP_BUSY n) = 0 ∧ s.hw.curRuns n = true ∧ t = s.hw.cur n ∧ s.hw.get (R.BENCH_THR_W0_CANCEL_PEND t) = 0 ∧ d = bitsOf (s.hw.arg n 0) 0 24 ∧ 0 < d) ∧
    (∃ (s : State) (n : Fin 8) (t : Nat) (m e : Word), s.hw.mainUp = true ∧ s.hw.get (R.BENCH_RSP_BUSY n) = 0 ∧ s.hw.curRuns n = true ∧ t = s.hw.cur n ∧ m = s.hw.arg n 0 ∧ e = s.hw.word (R.BENCH_THR_W1 t) ∧ e &&& m ≠ 0) ∧
    (∃ (s : State) (n : Fin 8) (t : Nat) (m : Word), s.hw.mainUp = true ∧ s.hw.get (R.BENCH_RSP_BUSY n) = 0 ∧ s.hw.curRuns n = true ∧ t = s.hw.cur n ∧ s.hw.get (R.BENCH_THR_W0_CANCEL_PEND t) = 0 ∧ m = s.hw.arg n 0 ∧ m ≠ 0 ∧ s.hw.word (R.BENCH_THR_W1 t) &&& m = 0) ∧
    (∃ (s : State) (n : Fin 8), s.hw.mainUp = true ∧ s.hw.get (R.BENCH_RSP_BUSY n) = 0 ∧ s.hw.curRuns n = true ∧ s.hw.arg n 0 = 0) ∧
    (∃ (s : State) (n : Fin 8) (t : Nat), s.hw.mainUp = true ∧ s.hw.get (R.BENCH_RSP_BUSY n) = 0 ∧ s.hw.curRuns n = true ∧ t = s.hw.cur n ∧ s.hw.get (R.BENCH_THR_W0_CANCEL_PEND t) = 0) ∧
    (∃ (s : State) (n : Fin 8) (t : Nat), s.hw.mainUp = true ∧ s.hw.get (R.BENCH_RSP_BUSY n) = 0 ∧ s.hw.curRuns n = true ∧ t = s.hw.cur n ∧ s.hw.get (R.BENCH_THR_W0_CANCEL_PEND t) = 0) ∧
    (∃ (s : State) (n : Fin 8) (t : Nat) (c : Instr), s.hw.mainUp = true ∧ s.hw.get (R.BENCH_RSP_BUSY n) = 0 ∧ s.hw.curRuns n = true ∧ t = s.hw.cur n ∧ s.hw.get (R.BENCH_THR_W0_CANCEL_PEND t) = 1 ∧ (c = .delay n ∨ c = .benchYield n ∨ c = .exit n)) ∧
    (∃ (s : State) (n : Fin 8) (t c : Nat) (v : Dword) (rest : List (Nat × Dword)), s.hw.mainUp = true ∧ s.hw.get (R.BENCH_RSP_BUSY n) = 0 ∧ s.hw.curRuns n = true ∧ t = s.hw.cur n ∧ (s.hw.bt t).signals = (c, v) :: rest ∧ s.hw.awl.raisers = []) ∧
    (∃ (s : State) (n : Fin 8) (t : Nat), s.hw.mainUp = true ∧ s.hw.get (R.BENCH_RSP_BUSY n) = 0 ∧ s.hw.curRuns n = true ∧ t = s.hw.cur n ∧ (s.hw.bt t).signals = []) ∧
    (∃ (s : State) (n : Fin 8) (c : Instr), s.hw.mainUp = true ∧ s.hw.get (R.BENCH_RSP_BUSY n) = 0 ∧ s.hw.curRuns n = false ∧ c ∈ ([.delay n, .wait n, .benchYield n, .sigPop n, .exit n] : List Instr)) ∧
    (∃ (s : State) (n : Fin 8) (t : Fin 4096), s.hw.mainUp = true ∧ s.hw.get (R.BENCH_RSP_BUSY n) = 0 ∧ s.hw.btState t ≠ 0 ∧ (s.hw.btState t ≠ 4 ∨ (s.hw.word (R.BENCH_THR_W1 t) ||| s.hw.arg n 0) &&& (s.hw.bt t).mask = 0)) ∧
    (∃ (s : State) (n : Fin 8) (t : Fin 4096) (e w : Word), s.hw.mainUp = true ∧ s.hw.get (R.BENCH_RSP_BUSY n) = 0 ∧ s.hw.btState t = 4 ∧ e = s.hw.word (R.BENCH_THR_W1 t) ||| s.hw.arg n 0 ∧ w = e &&& (s.hw.bt t).mask ∧ w ≠ 0) ∧
    (∃ (s : State) (n : Fin 8) (t : Fin 4096) (c : Instr), s.hw.mainUp = true ∧ s.hw.get (R.BENCH_RSP_BUSY n) = 0 ∧ s.hw.btState t = 0 ∧ (c = .setEvent n t ∨ c = .setPrio n t)) ∧
    (∃ (s : State) (n : Fin 8) (t : Fin 4096), s.hw.mainUp = true ∧ s.hw.get (R.BENCH_RSP_BUSY n) = 0 ∧ s.hw.btState t ≠ 0) ∧
    (∃ (s : State) (n : Fin 8) (i : Nat), s.hw.mainUp = true ∧ s.hw.get (R.BENCH_RSP_BUSY n) = 0 ∧ i = bitsOf (s.hw.arg n 0) 0 8) ∧
    (∃ (s : State) (n : Fin 8) (t : Fin 4096) (c : Instr), s.hw.mainUp = true ∧ s.hw.get (R.BENCH_RSP_BUSY n) = 1 ∧ c ∈ ([.create n t, .ready n t, .cancel n t, .suspend n t, .delay n, .wait n, .setEvent n t, .setPrio n t, .benchYield n, .sigPop n, .irqAck n, .exit n] : List Instr)) :=
  ⟨⟨wit (fun h => h.setWord (R.BENCH_ARG 2 0) 0x01003FC5), 2, 7, 0x01003FC5, by decide +kernel⟩,
   ⟨wit (fun h => h), 2, 7, by decide +kernel⟩,
   ⟨wit (fun h => h.setBtState 7 4), 2, 7, by decide +kernel⟩,
   ⟨wit (fun h => h.set (R.BENCH_THR_W0_TOMB 7) 1), 2, 7, by decide +kernel⟩,
   ⟨wit (fun h => h), 2, 7, by decide +kernel⟩,
   ⟨wit (fun h => h.setBtState 7 1), 2, 7, by decide +kernel⟩,
   ⟨wit (fun h => (((h).setBtState 7 2).set (R.BENCH_CUR_THREAD 2) 7).set (R.BENCH_CUR_IDLE 2) 0), 3, 7, by decide +kernel⟩,
   ⟨wit (fun h => h), 3, 7, by decide +kernel⟩,
   ⟨wit (fun h => ((((h.setWord (R.BENCH_ARG 2 0) 9)).setBtState 7 2).set (R.BENCH_CUR_THREAD 2) 7).set (R.BENCH_CUR_IDLE 2) 0), 2, 7, 9, by decide +kernel⟩,
   ⟨wit (fun h => (((((h.setWord (R.BENCH_ARG 2 0) 9).setWord (R.BENCH_THR_W1 7) 3)).setBtState 7 2).set (R.BENCH_CUR_THREAD 2) 7).set (R.BENCH_CUR_IDLE 2) 0), 2, 7, 9, 3, by decide +kernel⟩,
   ⟨wit (fun h => (((((h.setWord (R.BENCH_ARG 2 0) 9).setWord (R.BENCH_ARG 2 1) 5)).setBtState 7 2).set (R.BENCH_CUR_THREAD 2) 7).set (R.BENCH_CUR_IDLE 2) 0), 2, 7, 9, by decide +kernel⟩,
   ⟨wit (fun h => (((h).setBtState 7 2).set (R.BENCH_CUR_THREAD 2) 7).set (R.BENCH_CUR_IDLE 2) 0), 2, by decide +kernel⟩,
   ⟨wit (fun h => (((h).setBtState 7 2).set (R.BENCH_CUR_THREAD 2) 7).set (R.BENCH_CUR_IDLE 2) 0), 2, 7, by decide +kernel⟩,
   ⟨wit (fun h => (((h).setBtState 7 2).set (R.BENCH_CUR_THREAD 2) 7).set (R.BENCH_CUR_IDLE 2) 0), 2, 7, by decide +kernel⟩,
   ⟨wit (fun h => ((((h.set (R.BENCH_THR_W0_CANCEL_PEND 7) 1)).setBtState 7 2).set (R.BENCH_CUR_THREAD 2) 7).set (R.BENCH_CUR_IDLE 2) 0), 2, 7, (.exit 2), by decide +kernel⟩,
   ⟨wit (fun h => ((((h.modBt 7 fun x => { x with signals := [(5, 9)] })).setBtState 7 2).set (R.BENCH_CUR_THREAD 2) 7).set (R.BENCH_CUR_IDLE 2) 0), 2, 7, 5, 9, [], by decide +kernel⟩,
   ⟨wit (fun h => (((h).setBtState 7 2).set (R.BENCH_CUR_THREAD 2) 7).set (R.BENCH_CUR_IDLE 2) 0), 2, 7, by decide +kernel⟩,
   ⟨wit (fun h => h), 2, (.wait 2), by decide +kernel⟩,
   ⟨wit (fun h => (h.setBtState 7 5).setWord (R.BENCH_ARG 2 0) 9), 2, 7, by decide +kernel⟩,
   ⟨wit (fun h => ((h.setBtState 7 4).setWord (R.BENCH_ARG 2 0) 9).modBt 7 fun x => { x with mask := 1 }), 2, 7, 9, 1, by decide +kernel⟩,
   ⟨wit (fun h => h), 2, 7, (.setPrio 2 7), by decide +kernel⟩,
   ⟨wit (fun h => (h.setBtState 7 5).setWord (R.BENCH_ARG 2 0) 9), 2, 7, by decide +kernel⟩,
   ⟨wit (fun h => (h.setWord (R.BENCH_ARG 2 0) 9).set (R.BENCH_IRQ_PEND 9) 1), 2, 9, by decide +kernel⟩,
   ⟨wit (fun h => h.set (R.BENCH_RSP_BUSY 2) 1), 2, 7, (.irqAck 2), by decide +kernel⟩⟩

theorem witness_BenchTicksSwitchesAndPorts :
    (∃ (s : State) (d : Nat), s.hw.mainUp = true ∧ tget s.hw.timers .benchTick = some d) ∧
    (∃ (s : State) (t : Fin 4096), s.hw.mainUp = true ∧ (s.hw.bt t).timed = true ∧ s.hw.wakeCome t = true) ∧
    (∃ (s : State) (t : Fin 4096) (e : Nat), s.hw.mainUp = true ∧ s.hw.btState t = 1 ∧ (s.hw.bt t).ageEn = true ∧ e = s.hw.effective (s.hw.get (R.BENCH_THR_W0_PRIO t)) ((s.hw.bt t).stood + 1) true) ∧
    (∃ (s : State) (n : Fin 8) (t : Nat), s.hw.mainUp = true ∧ s.hw.curRuns n = true ∧ t = s.hw.cur n ∧ s.hw.next n = t ∧ s.hw.coreIdle n = false ∧ (s.hw.bt t).slice ≠ 0 ∧ (s.hw.bt t).slice ≤ (s.hw.bt t).ran + 1 ∧ (s.hw.flag (R.BENCH_PMASK_PMASK n) = true ∨ ((s.hw.readyList (s.hw.btEff t)).any fun u => s.hw.eligibleCore u n) = false)) ∧
    (∃ (s : State) (n : Fin 8) (t : Nat), s.hw.mainUp = true ∧ s.hw.curRuns n = true ∧ t = s.hw.cur n ∧ s.hw.get (R.BENCH_THR_W0_CANCEL_PEND t) = 0 ∧ s.hw.next n = t ∧ s.hw.coreIdle n = false ∧ (s.hw.bt t).slice ≠ 0 ∧ (s.hw.bt t).slice ≤ (s.hw.bt t).ran + 1 ∧ s.hw.flag (R.BENCH_PMASK_PMASK n) = false ∧ ((s.hw.readyList (s.hw.btEff t)).any fun u => u ≠ t && s.hw.eligibleCore u n) = true) ∧
    (∃ (s : State) (n : Fin 8) (v : Word), s.hw.mainUp = true ∧ (¬ ((fieldOf v (R.BENCH_ACK_IDLE n) == 1) = s.hw.coreIdle n ∧ (fieldOf v (R.BENCH_ACK_IDLE n) = 1 ∨ fieldOf v (R.BENCH_ACK_THREAD n) = s.hw.next n)))) ∧
    (∃ (s : State) (n : Fin 8) (v : Word) (t : Nat), s.hw.mainUp = true ∧ t = fieldOf v (R.BENCH_ACK_THREAD n) ∧ fieldOf v (R.BENCH_ACK_IDLE n) = 0 ∧ s.hw.coreIdle n = false ∧ t = s.hw.next n ∧ ¬ (s.hw.curRuns n = true ∧ s.hw.cur n = t)) ∧
    (∃ (s : State) (n : Fin 8) (v : Word), s.hw.mainUp = true ∧ fieldOf v (R.BENCH_ACK_IDLE n) = 1 ∧ s.hw.coreIdle n = true) ∧
    (∃ (s : State) (n : Fin 8) (v : Word), s.hw.mainUp = true) ∧
    (∃ (s : State) (n : Fin 8) (c : Instr), s.hw.mainUp = true ∧ s.hw.get (R.BENCH_QRSP_BUSY n) = 1 ∧ (c = .push n ∨ c = .pull n ∨ c = .peek n)) ∧
    (∃ (s : State) (n : Fin 8) (q : Nat), s.hw.mainUp = true ∧ s.hw.get (R.BENCH_QRSP_BUSY n) = 0 ∧ q = s.hw.get (R.BENCH_QID_QID n) ∧ (isMailbox q || isWorkQueue q) = true ∧ (s.hw.wordsOf q).length < queueDepth q ∧ s.hw.pullersOf q = []) ∧
    (∃ (s : State) (n : Fin 8) (q : Nat), s.hw.mainUp = true ∧ s.hw.get (R.BENCH_QRSP_BUSY n) = 0 ∧ q = s.hw.get (R.BENCH_QID_QID n) ∧ ((isMailbox q || isWorkQueue q) = false ∨ queueDepth q ≤ (s.hw.wordsOf q).length)) ∧
    (∃ (s : State) (n : Fin 8) (q : Nat) (v : Dword) (rest : List Dword), s.hw.mainUp = true ∧ s.hw.get (R.BENCH_QRSP_BUSY n) = 0 ∧ q = s.hw.get (R.BENCH_QID_QID n) ∧ isWorkQueue q = true ∧ s.hw.wordsOf q = v :: rest ∧ s.hw.pushersOf q = []) ∧
    (∃ (s : State) (n : Fin 8) (q : Nat) (v : Dword) (rest : List Dword), s.hw.mainUp = true ∧ s.hw.get (R.BENCH_QRSP_BUSY n) = 0 ∧ q = s.hw.get (R.BENCH_QID_QID n) ∧ isWorkQueue q = true ∧ s.hw.wordsOf q = v :: rest) ∧
    (∃ (s : State) (n : Fin 8) (q : Nat) (c : Instr), s.hw.mainUp = true ∧ s.hw.get (R.BENCH_QRSP_BUSY n) = 0 ∧ q = s.hw.get (R.BENCH_QID_QID n) ∧ isWorkQueue q = true ∧ s.hw.wordsOf q = [] ∧ (c = .pull n ∨ c = .peek n)) ∧
    (∃ (s : State) (i : Fin 256) (t : Nat), s.hw.mainUp = true ∧ i.val ≠ 232 ∧ s.hw.irqLevel i = true ∧ s.hw.flag (R.BENCH_IRQ_EN i) = true ∧ s.hw.flag (R.BENCH_IRQ_PEND i) = false ∧ t = s.hw.get (R.BENCH_IRQ_THREAD i)) ∧
    (∃ (s : State) (i : Fin 256), s.hw.mainUp = true ∧ i.val ≠ 232 ∧ (s.hw.irqLevel i = false ∨ s.hw.flag (R.BENCH_IRQ_EN i) = false ∨ s.hw.flag (R.BENCH_IRQ_PEND i) = true)) ∧
    (∃ (s : State) (i : Fin 256), s.hw.mainUp = true ∧ i.val = 232) ∧
    (∃ (s : State) (m : Fin 27) (n : Fin 8) (v : Word), s.hw.mainUp = true ∧ fieldOf v (R.SYS_CORE_CTL_RUN n) = 1 ∧ s.hw.get (R.SYS_CORE_CTL_RUN n) = 0) ∧
    (∃ (s : State) (m : Fin 27) (n : Fin 8) (v : Word), s.hw.mainUp = true ∧ fieldOf v (R.SYS_CORE_CTL_RUN n) = 0 ∧ s.hw.get (R.SYS_CORE_CTL_RUN n) = 1 ∧ (m.val < 8 ∧ m.val ≠ n.val ∨ m.val = 25 ∧ s.hw.get R.ILT_DBG_STAT_LEVEL = 2)) ∧
    (∃ (s : State) (m : Fin 27) (n : Fin 8) (v : Word), s.hw.mainUp = true ∧ fieldOf v (R.SYS_CORE_CTL_RUN n) = 0 ∧ (¬ (m.val < 8 ∧ m.val ≠ n.val ∨ m.val = 25 ∧ s.hw.get R.ILT_DBG_STAT_LEVEL = 2))) :=
  ⟨⟨wit (fun h => h.startAt .benchTick 3000000), 3000000, by decide +kernel⟩,
   ⟨wit (fun h => (h.setBtState 7 4).modBt 7 fun x => { x with timed := true }), 7, by decide +kernel⟩,
   ⟨wit (fun h => ((((h.setBtState 7 1).set (R.BENCH_THR_W0_PRIO 7) 40).set (R.BENCH_THR_W0_EFF 7) 40).set R.BENCH_CFG_AGE_TICKS 10).modBt 7 fun x => { x with ageEn := true, stood := 9 }), 7, 39, by decide +kernel⟩,
   ⟨wit (fun h => (((((h.modBt 7 fun x => { x with slice := 2, ran := 1 })).setBtState 7 2).set (R.BENCH_CUR_THREAD 2) 7).set (R.BENCH_CUR_IDLE 2) 0).setNext 2 7 0), 2, 7, by decide +kernel⟩,
   ⟨wit (fun h => ((((((((h.modBt 7 fun x => { x with slice := 2, ran := 1 })).setBtState 7 2).set (R.BENCH_CUR_THREAD 2) 7).set (R.BENCH_CUR_IDLE 2) 0).setNext 2 7 0).set (R.SYS_CORE_STAT_STATE 2) 1).modBt 9 fun x => { x with aff := 4 }).setReadyList 0 [9] |>.setBtState 9 1), 2, 7, by decide +kernel⟩,
   ⟨wit (fun h => h.setNext 2 7 0), 2, 8, by decide +kernel⟩,
   ⟨wit (fun h => (h.setNext 2 7 0).setBtState 7 1), 2, 7, 7, by decide +kernel⟩,
   ⟨wit (fun h => ((((h.setNextIdle 2 0)).setBtState 7 2).set (R.BENCH_CUR_THREAD 2) 7).set (R.BENCH_CUR_IDLE 2) 0), 2, 0x1000, by decide +kernel⟩,
   ⟨wit (fun h => h), 2, 1, by decide +kernel⟩,
   ⟨wit (fun h => h.set (R.BENCH_QRSP_BUSY 2) 1), 2, (.pull 2), by decide +kernel⟩,
   ⟨wit (fun h => (h.set (R.BENCH_QID_QID 2) 0x203).setWord (R.BENCH_QDATA_LO 2) 77), 2, 0x203, by decide +kernel⟩,
   ⟨wit (fun h => h), 2, 0, by decide +kernel⟩,
   ⟨wit (fun h => (h.set (R.BENCH_QID_QID 2) 0x203).setWords 0x203 [8, 9]), 2, 0x203, 8, [9], by decide +kernel⟩,
   ⟨wit (fun h => (h.set (R.BENCH_QID_QID 2) 0x203).setWords 0x203 [8, 9]), 2, 0x203, 8, [9], by decide +kernel⟩,
   ⟨wit (fun h => h.set (R.BENCH_QID_QID 2) 0x203), 2, 0x203, (.pull 2), by decide +kernel⟩,
   ⟨wit (fun h => (h.set (R.BENCH_IRQ_EN 224) 1).set R.HEEL_PS_STAT_REFUSE_EV 1), 224, 0, by decide +kernel⟩,
   ⟨wit (fun h => h), 9, by decide +kernel⟩,
   ⟨wit (fun h => h), 232, by decide +kernel⟩,
   ⟨wit (fun h => h), 0, 2, 1, by decide +kernel⟩,
   ⟨wit (fun h => h), 1, 0, 0, by decide +kernel⟩,
   ⟨wit (fun h => h), 0, 0, 0, by decide +kernel⟩⟩

theorem witness_PresentedRequestsAndLocks :
    (∃ (s : State) (m : Fin 27) (i : Fin 1024), s.hw.mainUp = true ∧ m.val < 8 ∧ s.hw.lockHeld i = false) ∧
    (∃ (s : State) (m : Fin 27) (i : Fin 1024), s.hw.mainUp = true ∧ m.val < 8 ∧ s.hw.lockHeld i = true) ∧
    (∃ (s : State) (m : Fin 27) (i : Fin 1024), s.hw.mainUp = true ∧ m.val < 8 ∧ s.hw.lockOwnedByMaster i m = true ∧ s.hw.lockWaiters i = []) ∧
    (∃ (s : State) (m : Fin 27) (i : Fin 1024) (u rd : Nat) (rest : List Nat), s.hw.mainUp = true ∧ m.val < 8 ∧ s.hw.lockOwnedByMaster i m = true ∧ s.hw.lockWaiters i = u :: rest ∧ u < 256 ∧ (s.hw.thread u).on = .lock rd i) ∧
    (∃ (s : State) (m : Fin 27) (i : Fin 1024), s.hw.mainUp = true ∧ m.val < 8 ∧ s.hw.lockOwnedByMaster i m = false) ∧
    (∃ (s : State) (m : Fin 27) (i : Fin 1024) (c : Instr), s.hw.mainUp = true ∧ 8 ≤ m.val ∧ (c = .lockRelWrite m i ∨ c = .brk m i)) ∧
    (∃ (s : State) (m : Fin 27) (i : Fin 1024), s.hw.mainUp = true ∧ m.val < 8 ∧ s.hw.lockWaiters i = []) ∧
    (∃ (s : State) (m : Fin 27) (i : Fin 1024) (u rd : Nat) (rest : List Nat), s.hw.mainUp = true ∧ m.val < 8 ∧ s.hw.lockWaiters i = u :: rest ∧ u < 256 ∧ (s.hw.thread u).on = .lock rd i) ∧
    (∃ (s : State) (m : Fin 27) (a : BitVec 40) (n : Nat) (d : Option (List Byte)) (cont : Bool) (t : Nat), s.hw.mainUp = true ∧ ([1, 2, 4, 8, 32, 64].contains n = true ∧ (a.toNat % n = 0 ∨ isRegister a.toNat = true)) ∧ (d.all fun bs => bs.length == n) = true ∧ targetOf a.toNat = some t ∧ coreAccess m a.toNat n = false) ∧
    (∃ (s : State) (m : Fin 27) (a : BitVec 40) (n : Nat) (d : Option (List Byte)) (cont : Bool), s.hw.mainUp = true ∧ [1, 2, 4, 8, 32, 64].contains n = true ∧ a.toNat % n = 0 ∧ (d.all fun bs => bs.length == n) = true ∧ targetOf a.toNat = none) ∧
    (∃ (s : State) (m : Fin 27) (a : BitVec 40) (n : Nat) (d : Option (List Byte)) (cont : Bool) (t : Nat), s.hw.mainUp = true ∧ [1, 2, 4, 8, 32, 64].contains n = true ∧ a.toNat % n = 0 ∧ (d.all fun bs => bs.length == n) = true ∧ coreAccess m a.toNat n = true ∧ s.hw.line a.toNat = none ∧ targetOf (a.toNat / 64 * 64) = some t) ∧
    (∃ (s : State) (m : Fin 27) (a : BitVec 40) (n : Nat) (cont : Bool) (l : CacheLine), s.hw.mainUp = true ∧ [1, 2, 4, 8, 32, 64].contains n = true ∧ a.toNat % n = 0 ∧ coreAccess m a.toNat n = true ∧ s.hw.line a.toNat = some l) ∧
    (∃ (s : State) (m : Fin 27) (a : BitVec 40) (n : Nat) (bs : List Byte) (cont : Bool) (l : CacheLine), s.hw.mainUp = true ∧ [1, 2, 4, 8, 32, 64].contains n = true ∧ a.toNat % n = 0 ∧ bs.length = n ∧ coreAccess m a.toNat n = true ∧ s.hw.line a.toNat = some l ∧ 0x20000 ≤ a.toNat) :=
  ⟨⟨wit (fun h => h.set (R.SHK_LOCK_STAT_BROKEN 9) 1), 3, 9, by decide +kernel⟩,
   ⟨wit (fun h => h.giveLock 9 3 0), 3, 9, by decide +kernel⟩,
   ⟨wit (fun h => h.giveLock 9 3 0), 3, 9, by decide +kernel⟩,
   ⟨wit (fun h => ((h.giveLock 9 3 0).setLockWaiters 9 [40]).modThread 40 fun th => { th with on := .lock 4 9 }), 3, 9, 40, 4, [], by decide +kernel⟩,
   ⟨wit (fun h => h), 3, 9, by decide +kernel⟩,
   ⟨wit (fun h => h), 25, 9, (.brk 25 9), by decide +kernel⟩,
   ⟨wit (fun h => h.giveLock 9 3 0), 4, 9, by decide +kernel⟩,
   ⟨wit (fun h => ((h.giveLock 9 3 0).setLockWaiters 9 [40]).modThread 40 fun th => { th with on := .lock 4 9 }), 3, 9, 40, 4, [], by decide +kernel⟩,
   ⟨wit (fun h => (h.set R.SHK_HINT_EN_EN 0x7F0000).setArbiter 0 ⟨[⟨17, none, false, 0x10000000, 8, none, false, true⟩], [], 0, none, some 17, none⟩), 21, 0x10000040, 64, none, true, 1, by decide +kernel⟩,
   ⟨wit (fun h => h), 21, 0x13000040, 64, none, true, by decide +kernel⟩,
   ⟨wit (fun h => h), 3, 0x1000000048, 4, ((some [1,2,3,4])), false, 40, by decide +kernel⟩,
   ⟨wit (fun h => h.setLine 0x11000040 ⟨(List.range 64).map (BitVec.ofNat 8), true⟩), 7, 0x11000078, 8, false, (⟨(List.range 64).map (BitVec.ofNat 8), true⟩), by decide +kernel⟩,
   ⟨wit (fun h => h.setLine 0x1000000000 ⟨List.replicate 64 7, false⟩), 1, 0x100000003E, 2, ([1, 2]), false, (⟨List.replicate 64 7, false⟩), by decide +kernel⟩⟩

theorem witness_ClassificationAndBuffers :
    (∃ (s : State) (q : Fin 16), s.hw.mainUp = true ∧ (s.hw.staged q).head?.all (fun g => g.frame.isSome) = true) ∧
    (∃ (s : State) (q : Fin 16) (g : Staged) (rest : List Staged) (v : Verdict), s.hw.mainUp = true ∧ s.hw.staged q = g :: rest ∧ g.frame = none ∧ v = s.hw.classify q g.bytes ∧ v.dest = none) ∧
    (∃ (s : State) (q : Fin 16) (g : Staged) (rest : List Staged) (v : Verdict) (d : Dest), s.hw.mainUp = true ∧ s.hw.staged q = g :: rest ∧ g.frame = none ∧ v = s.hw.classify q g.bytes ∧ v.dest = some d ∧ s.hw.destAccepts d = false) ∧
    (∃ (s : State) (q : Fin 16) (g : Staged) (rest : List Staged) (v : Verdict) (d : Dest), s.hw.mainUp = true ∧ s.hw.staged q = g :: rest ∧ g.frame = none ∧ v = s.hw.classify q g.bytes ∧ v.dest = some d ∧ s.hw.destAccepts d = true ∧ s.hw.fabric.frames.length < descriptors ∧ s.hw.poolGrants v.pool = false) ∧
    (∃ (s : State) (q : Fin 16) (g : Staged) (rest : List Staged) (v : Verdict) (d : Dest), s.hw.mainUp = true ∧ s.hw.staged q = g :: rest ∧ g.frame = none ∧ v = s.hw.classify q g.bytes ∧ v.dest = some d ∧ s.hw.destAccepts d = true ∧ s.hw.fabric.frames.length < descriptors ∧ s.hw.poolGrants v.pool = true) ∧
    (∃ (s : State) (q : Fin 16), s.hw.mainUp = true ∧ (s.hw.staged q).head?.all (fun g => match g.frame with | none => true | some id => decide (buffersFor g.bytes.length ≤ (s.hw.frame id).bufs.length)) = true) ∧
    (∃ (s : State) (q : Fin 16) (g : Staged) (rest : List Staged) (id : Nat) (f : Frame), s.hw.mainUp = true ∧ s.hw.staged q = g :: rest ∧ g.frame = some id ∧ f = s.hw.frame id ∧ f.bufs.length < buffersFor g.bytes.length ∧ f.pool < 16 ∧ Dest.real g.dest = true ∧ s.hw.get (R.CKR_POOL_CFG_MTU f.pool) < min (g.bytes.length + 64) (256 * (f.bufs.length + 1)) ∧ (s.hw.get (R.CKR_POOL_CFG_MTU f.pool) ≤ 256 * f.bufs.length ∨ g.reserved ≠ 0 ∨ s.hw.poolFree f.pool ≠ 0)) ∧
    (∃ (s : State) (q : Fin 16) (g : Staged) (rest : List Staged) (id : Nat) (f : Frame), s.hw.mainUp = true ∧ s.hw.staged q = g :: rest ∧ g.frame = some id ∧ f = s.hw.frame id ∧ f.bufs.length < buffersFor g.bytes.length ∧ f.pool < 16 ∧ Dest.real g.dest = true ∧ 256 * f.bufs.length < s.hw.get (R.CKR_POOL_CFG_MTU f.pool) ∧ g.reserved = 0 ∧ s.hw.poolFree f.pool = 0) ∧
    (∃ (s : State) (q : Fin 16) (g : Staged) (rest : List Staged) (id : Nat) (f : Frame) (a : Nat), s.hw.mainUp = true ∧ s.hw.staged q = g :: rest ∧ g.frame = some id ∧ f = s.hw.frame id ∧ f.bufs.length < buffersFor g.bytes.length ∧ min (g.bytes.length + 64) (256 * (f.bufs.length + 1)) ≤ s.hw.get (R.CKR_POOL_CFG_MTU f.pool) ∧ f.pool < 16 ∧ (g.reserved ≠ 0 ∨ s.hw.poolFree f.pool ≠ 0) ∧ a = (s.hw.holdBuffer f.pool).2 ∧ 0x20000 ≤ a ∧ (s.hw.flag (R.CKR_POOL_CFG_LOC f.pool) = false ∨ f.bufs = []) ∧ (s.hw.busWrite 19 (a + (bufferPart g.bytes f.bufs.length).1) (bufferPart g.bytes f.bufs.length).2).2 = true) ∧
    (∃ (s : State) (q : Fin 16) (g : Staged) (rest : List Staged) (id : Nat) (f : Frame) (a b : Nat), s.hw.mainUp = true ∧ s.hw.staged q = g :: rest ∧ g.frame = some id ∧ f = s.hw.frame id ∧ f.bufs.length < buffersFor g.bytes.length ∧ min (g.bytes.length + 64) (256 * (f.bufs.length + 1)) ≤ s.hw.get (R.CKR_POOL_CFG_MTU f.pool) ∧ f.pool < 16 ∧ (g.reserved ≠ 0 ∨ s.hw.poolFree f.pool ≠ 0) ∧ a = (s.hw.holdBuffer f.pool).2 ∧ 0x20000 ≤ a ∧ s.hw.flag (R.CKR_POOL_CFG_LOC f.pool) = true ∧ f.bufs.getLast? = some b ∧ 0x20000 ≤ s.hw.linkAddr f.pool (s.hw.bufferIndex f.pool b) ∧ (s.hw.busWrite 19 (a + (bufferPart g.bytes f.bufs.length).1) (bufferPart g.bytes f.bufs.length).2).2 = true ∧ ((s.hw.busWrite 19 (a + (bufferPart g.bytes f.bufs.length).1) (bufferPart g.bytes f.bufs.length).2).1.busWrite 19 (s.hw.linkAddr f.pool (s.hw.bufferIndex f.pool b)) [0, 0, 0, 0]).2 = true) ∧
    (∃ (s : State) (q : Fin 16), s.hw.mainUp = true ∧ (s.hw.staged q).head?.all (fun g => match g.frame with | none => true | some id => decide ((s.hw.frame id).bufs.length < buffersFor g.bytes.length)) = true) ∧
    (∃ (s : State) (q : Fin 16) (g : Staged) (rest : List Staged) (id : Nat) (f : Frame), s.hw.mainUp = true ∧ s.hw.staged q = g :: rest ∧ g.frame = some id ∧ f = s.hw.frame id ∧ buffersFor g.bytes.length ≤ f.bufs.length ∧ g.good = false) ∧
    (∃ (s : State) (q : Fin 16) (g : Staged) (rest : List Staged) (id : Nat) (f : Frame) (d : Nat), s.hw.mainUp = true ∧ s.hw.staged q = g :: rest ∧ g.frame = some id ∧ f = s.hw.frame id ∧ buffersFor g.bytes.length ≤ f.bufs.length ∧ g.good = true ∧ f.pool < 16 ∧ s.hw.flag (R.CKR_POOL_CFG_LOC f.pool) = false ∧ g.dest = some (.domain d)) ∧
    (∃ (s : State) (q : Fin 16) (g : Staged) (rest : List Staged) (id : Nat) (f : Frame) (n word : Nat), s.hw.mainUp = true ∧ s.hw.staged q = g :: rest ∧ g.frame = some id ∧ f = s.hw.frame id ∧ buffersFor g.bytes.length ≤ f.bufs.length ∧ g.good = true ∧ f.pool < 16 ∧ n < 16384 ∧ s.hw.flag (R.CKR_POOL_CFG_LOC f.pool) = false ∧ g.dest = some (.queue n word) ∧ ({ f with word := word }).metered = false ∧ (s.hw.strictQueue n = false ∨ ({ f with word := word }).tc = 7) ∧ s.hw.queueAdmits n f.bufs.length = true) ∧
    (∃ (s : State) (q : Fin 16) (g : Staged) (rest : List Staged) (id : Nat) (f : Frame) (r : Nat), s.hw.mainUp = true ∧ s.hw.staged q = g :: rest ∧ g.frame = some id ∧ f = s.hw.frame id ∧ buffersFor g.bytes.length ≤ f.bufs.length ∧ g.good = true ∧ s.hw.flag (R.CKR_POOL_CFG_LOC f.pool) = false ∧ g.dest = some (.ring r)) ∧
    (∃ (s : State) (q : Fin 16) (g : Staged) (rest : List Staged) (id : Nat) (f : Frame) (b : Nat), s.hw.mainUp = true ∧ s.hw.staged q = g :: rest ∧ g.frame = some id ∧ f = s.hw.frame id ∧ buffersFor g.bytes.length ≤ f.bufs.length ∧ g.good = true ∧ s.hw.flag (R.CKR_POOL_CFG_LOC f.pool) = true ∧ f.bufs.getLast? = some b ∧ 0x20000 ≤ s.hw.linkAddr f.pool (s.hw.bufferIndex f.pool b) ∧ (s.hw.busWrite 19 (s.hw.linkAddr f.pool (s.hw.bufferIndex f.pool b)) [255, 255, 255, 255]).2 = true) ∧
    (∃ (s : State) (q : Fin 16), s.hw.mainUp = true ∧ s.hw.flag (R.CKR_POOL_CFG_EN q) = true) ∧
    (∃ (s : State) (q : Fin 16), s.hw.mainUp = true ∧ s.hw.flag (R.CKR_POOL_CFG_EN q) = false) ∧
    (∃ (s : State) (q : Fin 16), s.hw.mainUp = true) ∧
    (∃ (s : State) (v : Word), s.hw.mainUp = true) :=
  ⟨⟨wit (fun h => h), 2, by decide +kernel⟩,
   ⟨wit (fun h => (h).setStaged 2 [⟨[1, 2, 3, 4, 5, 6, 7, 8, 9, 10, 11, 12, 13, 14, 15], true, ⟨0, 0⟩, 0, none, none, 0⟩]), 2, (⟨[1, 2, 3, 4, 5, 6, 7, 8, 9, 10, 11, 12, 13, 14, 15], true, ⟨0, 0⟩, 0, none, none, 0⟩), [], (⟨0, none, 0⟩), by decide +kernel⟩,
   ⟨wit (fun h => (((h.set R.CKR_CTL_MODE 1).set (R.CKR_DEF_W0_KIND 2) 1).set (R.CKR_DEF_W0_DEST 2) 9).setStaged 2 [⟨[1, 2, 3, 4, 5, 6, 7, 8, 9, 10, 11, 12, 13, 14, 15], true, ⟨0, 0⟩, 0, none, none, 0⟩]), 2, (⟨[1, 2, 3, 4, 5, 6, 7, 8, 9, 10, 11, 12, 13, 14, 15], true, ⟨0, 0⟩, 0, none, none, 0⟩), [], (⟨0, some (.queue 9 0), 0⟩), (.queue 9 0), by decide +kernel⟩,
   ⟨wit (fun h => (((((h.set R.CKR_CTL_MODE 1).set (R.CKR_DEF_W0_KIND 2) 1).set (R.CKR_DEF_W0_DEST 2) 9).set (R.CKR_DEF_W0_POOL 2) 1).set (fstatState (.queue 9)) 2).setStaged 2 [⟨[1, 2, 3, 4, 5, 6, 7, 8, 9, 10, 11, 12, 13, 14, 15], true, ⟨0, 0⟩, 0, none, none, 0⟩]), 2, (⟨[1, 2, 3, 4, 5, 6, 7, 8, 9, 10, 11, 12, 13, 14, 15], true, ⟨0, 0⟩, 0, none, none, 0⟩), [], (⟨1, some (.queue 9 0), 0⟩), (.queue 9 0), by decide +kernel⟩,
   ⟨wit (fun h => ((((((((h.set (R.CKR_POOL_CFG_EN 1) 1).set (R.CKR_POOL_FREE_FREE 1) 9).set (R.CKR_POOL_CFG_MTU 1) 1600).set R.CKR_CTL_MODE 1).set (R.CKR_DEF_W0_KIND 2) 1).set (R.CKR_DEF_W0_DEST 2) 9).set (R.CKR_DEF_W0_POOL 2) 1).set (fstatState (.queue 9)) 2).setStaged 2 [⟨[1, 2, 3, 4, 5, 6, 7, 8, 9, 10, 11, 12, 13, 14, 15], true, ⟨0, 0⟩, 0, none, none, 0⟩]), 2, (⟨[1, 2, 3, 4, 5, 6, 7, 8, 9, 10, 11, 12, 13, 14, 15], true, ⟨0, 0⟩, 0, none, none, 0⟩), [], (⟨1, some (.queue 9 0), 0⟩), (.queue 9 0), by decide +kernel⟩,
   ⟨wit (fun h => h), 2, by decide +kernel⟩,
   ⟨wit (fun h => (((h.set (R.CKR_POOL_CFG_MTU 1) 65).set (R.CKR_POOL_FREE_FREE 1) 9).setStaged 2 [⟨[1, 2, 3, 4, 5, 6, 7, 8, 9, 10, 11, 12, 13, 14, 15], true, ⟨0, 0⟩, 0, some 3, some (.domain 9), 0⟩]).setFrame 3 ⟨2, 15, false, 1, [], 0, false, 0, ⟨0, 0⟩, none, none, .none, none, 0, 0, 0, 0, 0, []⟩), 2, (⟨[1, 2, 3, 4, 5, 6, 7, 8, 9, 10, 11, 12, 13, 14, 15], true, ⟨0, 0⟩, 0, some 3, some (.domain 9), 0⟩), [], 3, (⟨2, 15, false, 1, [], 0, false, 0, ⟨0, 0⟩, none, none, .none, none, 0, 0, 0, 0, 0, []⟩), by decide +kernel⟩,
   ⟨wit (fun h => ((h.set (R.CKR_POOL_CFG_MTU 1) 1600).setStaged 2 [⟨[1, 2, 3, 4, 5, 6, 7, 8, 9, 10, 11, 12, 13, 14, 15], true, ⟨0, 0⟩, 0, some 3, none, 0⟩]).setFrame 3 ⟨2, 15, false, 1, [], 0, false, 0, ⟨0, 0⟩, none, none, .none, none, 0, 0, 0, 0, 0, []⟩), 2, (⟨[1, 2, 3, 4, 5, 6, 7, 8, 9, 10, 11, 12, 13, 14, 15], true, ⟨0, 0⟩, 0, some 3, none, 0⟩), [], 3, (⟨2, 15, false, 1, [], 0, false, 0, ⟨0, 0⟩, none, none, .none, none, 0, 0, 0, 0, 0, []⟩), by decide +kernel⟩,
   ⟨wit (fun h => ((((h.set (R.CKR_POOL_CFG_EN 1) 1).set (R.CKR_POOL_FREE_FREE 1) 9).set (R.CKR_POOL_CFG_MTU 1) 1600).setStaged 2 [⟨[1, 2, 3, 4, 5, 6, 7, 8, 9, 10, 11, 12, 13, 14, 15], true, ⟨0, 0⟩, 0, some 3, none, 0⟩]).setFrame 3 ⟨2, 15, false, 1, [], 0, false, 0, ⟨0, 0⟩, none, none, .none, none, 0, 0, 0, 0, 0, []⟩), 2, (⟨[1, 2, 3, 4, 5, 6, 7, 8, 9, 10, 11, 12, 13, 14, 15], true, ⟨0, 0⟩, 0, some 3, none, 0⟩), [], 3, (⟨2, 15, false, 1, [], 0, false, 0, ⟨0, 0⟩, none, none, .none, none, 0, 0, 0, 0, 0, []⟩), 0x10000000, by decide +kernel⟩,
   ⟨wit (fun h => (((((((h.set (R.CKR_POOL_CFG_EN 1) 1).set (R.CKR_POOL_FREE_FREE 1) 9).set (R.CKR_POOL_CFG_MTU 1) 1600).set (R.CKR_POOL_CFG_LOC 1) 1).setWord (R.CKR_POOL_LINK_LO 1) 0x10005000).set R.DRC_STAT_STATE 2).setStaged 2 [⟨(List.replicate 300 7), true, ⟨0, 0⟩, 0, some 3, none, 2⟩]).setFrame 3 ⟨2, 15, false, 1, [0x1000000300], 0, false, 0, ⟨0, 0⟩, none, none, .none, none, 0, 0, 0, 0, 0, []⟩), 2, (⟨(List.replicate 300 7), true, ⟨0, 0⟩, 0, some 3, none, 2⟩), [], 3, (⟨2, 15, false, 1, [0x1000000300], 0, false, 0, ⟨0, 0⟩, none, none, .none, none, 0, 0, 0, 0, 0, []⟩), 0x1000000000, 0x1000000300, by decide +kernel⟩,
   ⟨wit (fun h => h), 2, by decide +kernel⟩,
   ⟨wit (fun h => ((h).setStaged 2 [⟨[1, 2, 3, 4, 5, 6, 7, 8, 9, 10, 11, 12, 13, 14, 15], false, ⟨0, 0⟩, 0, some 3, none, 0⟩]).setFrame 3 ⟨2, 15, false, 1, [0x10000000], 0, false, 0, ⟨0, 0⟩, none, none, .none, none, 0, 0, 0, 0, 0, []⟩), 2, (⟨[1, 2, 3, 4, 5, 6, 7, 8, 9, 10, 11, 12, 13, 14, 15], false, ⟨0, 0⟩, 0, some 3, none, 0⟩), [], 3, (⟨2, 15, false, 1, [0x10000000], 0, false, 0, ⟨0, 0⟩, none, none, .none, none, 0, 0, 0, 0, 0, []⟩), by decide +kernel⟩,
   ⟨wit (fun h => ((h).setStaged 2 [⟨[1, 2, 3, 4, 5, 6, 7, 8, 9, 10, 11, 12, 13, 14, 15], true, ⟨0, 0⟩, 0, some 3, some (.domain 9), 2⟩]).setFrame 3 ⟨2, 15, false, 1, [0x10000000], 0, false, 0, ⟨0, 0⟩, none, none, .none, none, 0, 0, 0, 0, 0, []⟩), 2, (⟨[1, 2, 3, 4, 5, 6, 7, 8, 9, 10, 11, 12, 13, 14, 15], true, ⟨0, 0⟩, 0, some 3, some (.domain 9), 2⟩), [], 3, (⟨2, 15, false, 1, [0x10000000], 0, false, 0, ⟨0, 0⟩, none, none, .none, none, 0, 0, 0, 0, 0, []⟩), 9, by decide +kernel⟩,
   ⟨wit (fun h => ((((h.set (fstatState (.queue 9)) 2).set (R.TM_Q_W2_MAX_FRAMES 9) 4).set (R.TM_Q_W3_MAX_BUFS 9) 4).setStaged 2 [⟨[1, 2, 3, 4, 5, 6, 7, 8, 9, 10, 11, 12, 13, 14, 15], true, ⟨0, 0⟩, 0, some 3, some (.queue 9 5), 2⟩]).setFrame 3 ⟨2, 15, false, 1, [0x10000000], 0, false, 0, ⟨0, 0⟩, none, none, .none, none, 0, 0, 0, 0, 0, []⟩), 2, (⟨[1, 2, 3, 4, 5, 6, 7, 8, 9, 10, 11, 12, 13, 14, 15], true, ⟨0, 0⟩, 0, some 3, some (.queue 9 5), 2⟩), [], 3, (⟨2, 15, false, 1, [0x10000000], 0, false, 0, ⟨0, 0⟩, none, none, .none, none, 0, 0, 0, 0, 0, []⟩), 9, 5, by decide +kernel⟩,
   ⟨wit (fun h => ((h).setStaged 2 [⟨[1, 2, 3, 4, 5, 6, 7, 8, 9, 10, 11, 12, 13, 14, 15], true, ⟨0, 0⟩, 0, some 3, some (.ring 9), 2⟩]).setFrame 3 ⟨2, 15, false, 1, [0x10000000], 0, false, 0, ⟨0, 0⟩, none, none, .none, none, 0, 0, 0, 0, 0, []⟩), 2, (⟨[1, 2, 3, 4, 5, 6, 7, 8, 9, 10, 11, 12, 13, 14, 15], true, ⟨0, 0⟩, 0, some 3, some (.ring 9), 2⟩), [], 3, (⟨2, 15, false, 1, [0x10000000], 0, false, 0, ⟨0, 0⟩, none, none, .none, none, 0, 0, 0, 0, 0, []⟩), 9, by decide +kernel⟩,
   ⟨wit (fun h => (((((((h.set (R.CKR_POOL_CFG_EN 1) 1).set (R.CKR_POOL_FREE_FREE 1) 9).set (R.CKR_POOL_CFG_MTU 1) 1600).set (R.CKR_POOL_CFG_LOC 1) 1).setWord (R.CKR_POOL_LINK_LO 1) 0x10005000)).setStaged 2 [⟨[1, 2, 3, 4, 5, 6, 7, 8, 9, 10, 11, 12, 13, 14, 15], true, ⟨0, 0⟩, 0, some 3, some (.ring 9), 2⟩]).setFrame 3 ⟨2, 15, false, 1, [0x1000000300], 0, false, 0, ⟨0, 0⟩, none, none, .none, none, 0, 0, 0, 0, 0, []⟩), 2, (⟨[1, 2, 3, 4, 5, 6, 7, 8, 9, 10, 11, 12, 13, 14, 15], true, ⟨0, 0⟩, 0, some 3, some (.ring 9), 2⟩), [], 3, (⟨2, 15, false, 1, [0x1000000300], 0, false, 0, ⟨0, 0⟩, none, none, .none, none, 0, 0, 0, 0, 0, []⟩), 0x1000000300, by decide +kernel⟩,
   ⟨wit (fun h => h.set (R.CKR_POOL_CFG_EN 2) 1), 2, by decide +kernel⟩,
   ⟨wit (fun h => h.set (R.CKR_POOL_COUNT_COUNT 2) 10), 2, by decide +kernel⟩,
   ⟨wit (fun h => h.set (R.CKR_POOL_FREE_FREE 2) 77), 2, by decide +kernel⟩,
   ⟨wit (fun h => h), 0xFFFFFFFF, by decide +kernel⟩⟩

theorem witness_DispatchAndRelease :
    (∃ (s : State), s.hw.mainUp = true ∧ s.hw.nextDispatch = none) ∧
    (∃ (s : State) (id d : Nat), s.hw.mainUp = true ∧ s.hw.nextDispatch = some id ∧ d = s.hw.frameDomain id ∧ d < 4096 ∧ s.hw.domainExpress d = true ∧ s.hw.inDram id = true) ∧
    (∃ (s : State) (id d t : Nat) (f : Frame), s.hw.mainUp = true ∧ s.hw.nextDispatch = some id ∧ d = s.hw.frameDomain id ∧ d < 4096 ∧ f = s.hw.frame id ∧ ¬ (s.hw.domainExpress d = true ∧ s.hw.inDram id = true) ∧ s.hw.eligibleThread d = some t ∧ (s.hw.copyHead f t).2 = true) ∧
    (∃ (s : State) (d : Fin 4096), s.hw.mainUp = true ∧ (kgetD [] s.hw.fabric.domains d).head?.all (fun id => (s.hw.frame id).disp == .none) = true) ∧
    (∃ (s : State) (d : Fin 4096) (id : Nat) (rest : List Nat) (f : Frame) (n : Nat), s.hw.mainUp = true ∧ kgetD [] s.hw.fabric.domains d = id :: rest ∧ f = s.hw.frame id ∧ f.domain = some d.val ∧ n < 256 ∧ f.disp = .drop n) ∧
    (∃ (s : State) (d : Fin 4096) (id : Nat) (rest : List Nat) (f : Frame) (n word : Nat), s.hw.mainUp = true ∧ kgetD [] s.hw.fabric.domains d = id :: rest ∧ f = s.hw.frame id ∧ f.domain = some d.val ∧ f.disp = .release n word ∧ n < 16384 ∧ f.lines = [] ∧ ({ f with word := word }).metered = false ∧ (s.hw.strictQueue n = false ∨ ({ f with word := word }).tc = 7) ∧ s.hw.queueAdmits n f.bufs.length = true) ∧
    (∃ (s : State) (d : Fin 4096) (id : Nat) (rest : List Nat) (f : Frame) (n word : Nat), s.hw.mainUp = true ∧ kgetD [] s.hw.fabric.domains d = id :: rest ∧ f = s.hw.frame id ∧ f.domain = some d.val ∧ f.disp = .release n word ∧ n < 16384 ∧ f.lines = [] ∧ ({ f with word := word }).metered = false ∧ s.hw.strictQueue n = true ∧ ({ f with word := word }).tc ≠ 7) ∧
    (∃ (s : State) (d : Fin 4096) (id : Nat) (rest : List Nat) (f : Frame) (n word : Nat), s.hw.mainUp = true ∧ kgetD [] s.hw.fabric.domains d = id :: rest ∧ f = s.hw.frame id ∧ f.domain = some d.val ∧ f.disp = .release n word ∧ n < 16384 ∧ f.lines = [] ∧ ({ f with word := word }).metered = false ∧ s.hw.strictQueue n = false ∧ s.hw.queueAdmits n f.bufs.length = false) ∧
    (∃ (s : State) (d : Fin 4096) (id : Nat) (rest : List Nat) (f : Frame) (n word m c : Nat), s.hw.mainUp = true ∧ kgetD [] s.hw.fabric.domains d = id :: rest ∧ f = s.hw.frame id ∧ f.domain = some d.val ∧ f.disp = .release n word ∧ f.lines = [] ∧ ({ f with word := word }).metered = true ∧ m = ({ f with word := word }).meter ∧ c = (colourOf (s.hw.meterNow m) (({ f with word := word }).counted (s.hw.get (R.TM_MTR_CBS_OVH m)) * 2 ^ 10)).1 ∧ (c = 1 ∧ s.hw.flag (R.TM_MTR_PBS_YEL_DROP m) = true ∨ c = 2 ∧ s.hw.flag (R.TM_MTR_PBS_RED_DROP m) = true)) ∧
    (∃ (s : State) (d : Fin 4096) (id : Nat) (rest : List Nat) (f : Frame) (k user : Nat), s.hw.mainUp = true ∧ kgetD [] s.hw.fabric.domains d = id :: rest ∧ f = s.hw.frame id ∧ f.domain = some d.val ∧ f.disp = .fwd k user ∧ s.hw.domainRoom k = false) ∧
    (∃ (s : State) (d : Fin 4096) (id : Nat) (rest : List Nat) (f : Frame) (k user : Nat), s.hw.mainUp = true ∧ kgetD [] s.hw.fabric.domains d = id :: rest ∧ f = s.hw.frame id ∧ f.domain = some d.val ∧ f.disp = .fwd k user ∧ k < 4096 ∧ f.lines = [] ∧ s.hw.domainRoom k = true) ∧
    (∃ (s : State) (m : Fin 4096), s.hw.mainUp = true) :=
  ⟨⟨wit (fun h => h), by decide +kernel⟩,
   ⟨wit (fun h => let h := ((h.set (R.LAC_DOM_W0_EXPRESS 7) 1).set (R.CKR_POOL_CFG_LOC 1) 1).setFrame 3 (⟨2, 15, false, 1, [], 0, false, 0, ⟨0, 0⟩, some 7, some false, .none, none, 0, 0, 0, 0, 0, []⟩); { h with fabric := { h.fabric with waiting := [3] } }), 3, 7, by decide +kernel⟩,
   ⟨wit (fun h => let h := (((h.set (fstatState (.engine 17)) 2).set (R.LAC_DOM_W0_MASK 7) 4).set (R.LAC_DOM_W0_ENTRY 7) 9).setFrame 3 (⟨2, 15, false, 1, [0x10000400], 0, false, 0, ⟨0, 0⟩, some 7, some false, .none, none, 0, 0, 0, 0, 0, []⟩); { h with fabric := { h.fabric with waiting := [3] } }), 3, 7, 68, (⟨2, 15, false, 1, [0x10000400], 0, false, 0, ⟨0, 0⟩, some 7, some false, .none, none, 0, 0, 0, 0, 0, []⟩), by decide +kernel⟩,
   ⟨wit (fun h => h), 7, by decide +kernel⟩,
   ⟨wit (fun h => (let h := h; { h with fabric := { h.fabric with domains := [(7, [3])] } }).setFrame 3 (⟨2, 15, false, 1, [], 0, false, 0, ⟨0, 0⟩, some 7, some false, .drop 200, none, 0, 0, 0, 0, 0, []⟩)), 7, 3, [], (⟨2, 15, false, 1, [], 0, false, 0, ⟨0, 0⟩, some 7, some false, .drop 200, none, 0, 0, 0, 0, 0, []⟩), 200, by decide +kernel⟩,
   ⟨wit (fun h => (let h := ((h.set (fstatState (.queue 9)) 2).set (R.TM_Q_W2_MAX_FRAMES 9) 4).set (R.TM_Q_W3_MAX_BUFS 9) 4; { h with fabric := { h.fabric with domains := [(7, [3])] } }).setFrame 3 (⟨2, 15, false, 1, [], 0, false, 0, ⟨0, 0⟩, some 7, some false, (.release 9 5), none, 0, 0, 0, 0, 0, []⟩)), 7, 3, [], (⟨2, 15, false, 1, [], 0, false, 0, ⟨0, 0⟩, some 7, some false, (.release 9 5), none, 0, 0, 0, 0, 0, []⟩), 9, 5, by decide +kernel⟩,
   ⟨wit (fun h => (let h := h.set (R.TM_Q_W6_LEVEL 8200) 1; { h with fabric := { h.fabric with domains := [(7, [3])] } }).setFrame 3 (⟨2, 15, false, 1, [], 0, false, 0, ⟨0, 0⟩, some 7, some false, (.release 8200 5), none, 0, 0, 0, 0, 0, []⟩)), 7, 3, [], (⟨2, 15, false, 1, [], 0, false, 0, ⟨0, 0⟩, some 7, some false, (.release 8200 5), none, 0, 0, 0, 0, 0, []⟩), 8200, 5, by decide +kernel⟩,
   ⟨wit (fun h => (let h := h; { h with fabric := { h.fabric with domains := [(7, [3])] } }).setFrame 3 (⟨2, 15, false, 1, [], 0, false, 0, ⟨0, 0⟩, some 7, some false, (.release 9 5), none, 0, 0, 0, 0, 0, []⟩)), 7, 3, [], (⟨2, 15, false, 1, [], 0, false, 0, ⟨0, 0⟩, some 7, some false, (.release 9 5), none, 0, 0, 0, 0, 0, []⟩), 9, 5, by decide +kernel⟩,
   ⟨wit (fun h => (let h := h.set (R.TM_MTR_PBS_RED_DROP 5) 1; { h with fabric := { h.fabric with domains := [(7, [3])] } }).setFrame 3 (⟨2, 15, false, 1, [], 0, false, 0, ⟨0, 0⟩, some 7, some false, (.release 9 0x1005), none, 0, 0, 0, 0, 0, []⟩)), 7, 3, [], (⟨2, 15, false, 1, [], 0, false, 0, ⟨0, 0⟩, some 7, some false, (.release 9 0x1005), none, 0, 0, 0, 0, 0, []⟩), 9, 0x1005, 5, 2, by decide +kernel⟩,
   ⟨wit (fun h => (let h := h.set R.LAC_STAT_WAITING 4096; { h with fabric := { h.fabric with domains := [(7, [3])] } }).setFrame 3 (⟨2, 15, false, 1, [], 0, false, 0, ⟨0, 0⟩, some 7, some false, (.fwd 8 77), none, 0, 0, 0, 0, 0, []⟩)), 7, 3, [], (⟨2, 15, false, 1, [], 0, false, 0, ⟨0, 0⟩, some 7, some false, (.fwd 8 77), none, 0, 0, 0, 0, 0, []⟩), 8, 77, by decide +kernel⟩,
   ⟨wit (fun h => (let h := h.set (R.LAC_DOM_W1_LIMIT 8) 4; { h with fabric := { h.fabric with domains := [(7, [3])] } }).setFrame 3 (⟨2, 15, false, 1, [], 0, false, 0, ⟨0, 0⟩, some 7, some false, (.fwd 8 77), none, 0, 0, 0, 0, 0, []⟩)), 7, 3, [], (⟨2, 15, false, 1, [], 0, false, 0, ⟨0, 0⟩, some 7, some false, (.fwd 8 77), none, 0, 0, 0, 0, 0, []⟩), 8, 77, by decide +kernel⟩,
   ⟨wit (fun h => h.set (R.TM_MTR_CBS_CBS 5) 100), 5, by decide +kernel⟩⟩

theorem witness_DmaRings :
    (∃ (s : State) (r : Fin 64) (v : Word), s.hw.mainUp = true ∧ s.hw.ringMode r = 2 ∧ s.hw.ringState r = 2 ∧ (v.toNat + 2 ^ 32 - s.hw.ringCons r) % 2 ^ 32 ≤ s.hw.ringSize r) ∧
    (∃ (s : State) (r : Fin 64) (v : Word), s.hw.mainUp = true ∧ ¬ (s.hw.ringMode r = 2 ∧ s.hw.ringState r = 2 ∧ (v.toNat + 2 ^ 32 - s.hw.ringCons r) % 2 ^ 32 ≤ s.hw.ringSize r)) ∧
    (∃ (s : State) (r : Fin 64) (v : Word), s.hw.mainUp = true ∧ s.hw.ringMode r ≠ 2 ∧ (s.hw.ringProd r + 2 ^ 32 - v.toNat) % 2 ^ 32 ≤ s.hw.ringSize r ∧ s.hw.pushersOf r = []) ∧
    (∃ (s : State) (r : Fin 64) (v : Word), s.hw.mainUp = true ∧ ¬ (s.hw.ringMode r ≠ 2 ∧ (s.hw.ringProd r + 2 ^ 32 - v.toNat) % 2 ^ 32 ≤ s.hw.ringSize r)) ∧
    (∃ (s : State) (r : Fin 64) (v : Word) (t rd q : Nat) (w : Dword), s.hw.mainUp = true ∧ s.hw.ringMode r = 0 ∧ s.hw.ringState r = 2 ∧ (s.hw.ringProd r + 2 ^ 32 - v.toNat) % 2 ^ 32 < s.hw.ringSize r ∧ s.hw.pushersOf r = [t] ∧ (s.hw.thread t).on = .push rd q w ∧ 0x20000 ≤ s.hw.entryAddr r (s.hw.ringProd r) ∧ (s.hw.busWrite 19 (s.hw.entryAddr r (s.hw.ringProd r)) (bytesLE 8 w.toNat)).2 = true) ∧
    (∃ (s : State) (r : Fin 64), s.hw.mainUp = true ∧ s.hw.ringQueue r = []) ∧
    (∃ (s : State) (r : Fin 64) (id n : Nat) (rest : List (Nat × Nat)), s.hw.mainUp = true ∧ s.hw.ringQueue r = (id, n) :: rest ∧ s.hw.ringState r ≤ 1) ∧
    (∃ (s : State) (r : Fin 64) (id n : Nat) (rest : List (Nat × Nat)), s.hw.mainUp = true ∧ s.hw.ringQueue r = (id, n) :: rest ∧ 2 ≤ s.hw.ringState r ∧ s.hw.slotSize r < (s.hw.frame id).leaving) ∧
    (∃ (s : State) (r : Fin 64) (id n : Nat) (rest : List (Nat × Nat)), s.hw.mainUp = true ∧ s.hw.ringQueue r = (id, n) :: rest ∧ 2 ≤ s.hw.ringState r ∧ (s.hw.frame id).leaving ≤ s.hw.slotSize r ∧ s.hw.ringSize r ≤ s.hw.ringCount r) ∧
    (∃ (s : State) (r : Fin 64) (id n a e : Nat) (rest : List (Nat × Nat)) (f : Frame), s.hw.mainUp = true ∧ s.hw.ringQueue r = (id, n) :: rest ∧ 2 ≤ s.hw.ringState r ∧ f = s.hw.frame id ∧ f.leaving ≤ s.hw.slotSize r ∧ s.hw.ringCount r < s.hw.ringSize r ∧ s.hw.flag (R.CKR_POOL_CFG_LOC f.pool) = false ∧ s.hw.frameFault 19 f = none ∧ a = s.hw.slotAddr r (s.hw.ringProd r) ∧ e = s.hw.entryAddr r (s.hw.ringProd r) ∧ 0x20000 ≤ a ∧ 0x20000 ≤ e ∧ (a + f.leaving ≤ e ∨ e + 8 ≤ a) ∧ (s.hw.busWrite 19 a (s.hw.leavingBytes f)).2 = true ∧ ((s.hw.busWrite 19 a (s.hw.leavingBytes f)).1.busWrite 19 e [0, 0, 0, 0, 0, 0, 0, 0]).2 = true) ∧
    (∃ (s : State) (r : Fin 64), s.hw.mainUp = true ∧ (¬ (s.hw.ringMode r = 2 ∧ (s.hw.ringState r = 2 ∨ s.hw.ringState r = 3) ∧ s.hw.ringCount r ≠ 0))) ∧
    (∃ (s : State) (r : Fin 64) (e : List Byte) (w : Nat), s.hw.mainUp = true ∧ s.hw.ringMode r = 2 ∧ (s.hw.ringState r = 2 ∨ s.hw.ringState r = 3) ∧ s.hw.ringCount r ≠ 0 ∧ (s.hw.busRead 19 (s.hw.entryAddr r (s.hw.ringCons r)) 8).2 = some e ∧ w = ofBytesLE e ∧ (w / 2 ^ 40 % 2 ^ 14 = 0 ∨ 16320 < w / 2 ^ 40 % 2 ^ 14 ∨ w / 2 ^ 54 ≠ 0)) ∧
    (∃ (s : State) (r : Fin 64) (e bs : List Byte) (w : Nat), s.hw.mainUp = true ∧ s.hw.ringMode r = 2 ∧ (s.hw.ringState r = 2 ∨ s.hw.ringState r = 3) ∧ s.hw.ringCount r ≠ 0 ∧ (s.hw.busRead 19 (s.hw.entryAddr r (s.hw.ringCons r)) 8).2 = some e ∧ w = ofBytesLE e ∧ (¬ (w / 2 ^ 40 % 2 ^ 14 = 0 ∨ 16320 < w / 2 ^ 40 % 2 ^ 14 ∨ w / 2 ^ 54 ≠ 0)) ∧ (s.hw.busRead 19 (w % 2 ^ 40) (w / 2 ^ 40 % 2 ^ 14)).2 = some bs ∧ s.hw.flag R.CKR_CTL_MODE = true ∧ (s.hw.classify 15 bs).dest = none) ∧
    (∃ (s : State) (r : Fin 64) (e bs : List Byte) (w p n a : Nat), s.hw.mainUp = true ∧ s.hw.ringMode r = 2 ∧ (s.hw.ringState r = 2 ∨ s.hw.ringState r = 3) ∧ s.hw.ringCount r ≠ 0 ∧ (s.hw.busRead 19 (s.hw.entryAddr r (s.hw.ringCons r)) 8).2 = some e ∧ w = ofBytesLE e ∧ (¬ (w / 2 ^ 40 % 2 ^ 14 = 0 ∨ 16320 < w / 2 ^ 40 % 2 ^ 14 ∨ w / 2 ^ 54 ≠ 0)) ∧ (s.hw.busRead 19 (w % 2 ^ 40) (w / 2 ^ 40 % 2 ^ 14)).2 = some bs ∧ s.hw.flag R.CKR_CTL_MODE = false ∧ p = s.hw.get R.CKR_CTL_PM_POOL ∧ n = s.hw.get (R.CKR_RING_CFG_TXQ r) ∧ s.hw.fabric.frames.length < descriptors ∧ s.hw.poolGrants p = true ∧ s.hw.flag (R.CKR_POOL_CFG_LOC p) = false ∧ bs.length ≤ 192 ∧ bs.length + 64 ≤ s.hw.get (R.CKR_POOL_CFG_MTU p) ∧ a = (s.hw.holdBuffer p).2 ∧ 0x20000 ≤ a ∧ (s.hw.busWrite 19 (a + 64) bs).2 = true ∧ s.hw.strictQueue n = false ∧ s.hw.queueAdmits n 1 = true) ∧
    (∃ (s : State) (r : Fin 64), s.hw.mainUp = true ∧ (s.hw.ringMode r ≠ 1 ∨ s.hw.ringQueue r = []) ∧ s.hw.pushersOf r = []) ∧
    (∃ (s : State) (r : Fin 64) (id n : Nat) (rest : List (Nat × Nat)), s.hw.mainUp = true ∧ s.hw.ringMode r = 1 ∧ s.hw.ringQueue r = (id, n) :: rest) :=
  ⟨⟨wit (fun h => (((h.set (R.CKR_RING_CFG_MODE 5) 2).set (R.CKR_RING_FSTAT_STATE 5) 2).setWord (R.CKR_RING_PROD 5) 1).setWord (R.CKR_RING_BASE_LO 5) 0x10001000), 5, 16, by decide +kernel⟩,
   ⟨wit (fun h => (((h.set (R.CKR_RING_CFG_MODE 5) 2).set (R.CKR_RING_FSTAT_STATE 5) 2).setWord (R.CKR_RING_PROD 5) 1).setWord (R.CKR_RING_BASE_LO 5) 0x10001000), 5, 17, by decide +kernel⟩,
   ⟨wit (fun h => ((h.set (R.CKR_RING_FSTAT_STATE 5) 2).setWord (R.CKR_RING_PROD 5) 16).setWord (R.CKR_RING_BASE_LO 5) 0x10001000), 5, 0, by decide +kernel⟩,
   ⟨wit (fun h => ((h.set (R.CKR_RING_FSTAT_STATE 5) 2).setWord (R.CKR_RING_PROD 5) 16).setWord (R.CKR_RING_BASE_LO 5) 0x10001000), 5, 17, by decide +kernel⟩,
   ⟨wit (fun h => ((((h.set (R.CKR_RING_FSTAT_STATE 5) 2).setWord (R.CKR_RING_PROD 5) 16).setWord (R.CKR_RING_BASE_LO 5) 0x10001000).setPushers 5 [40]).modThread 40 fun th => { th with on := .push 4 5 77 }), 5, 1, 40, 4, 5, 77, by decide +kernel⟩,
   ⟨wit (fun h => h), 5, by decide +kernel⟩,
   ⟨wit (fun h => (h.setRingQueue 5 [(3, 0)]).setFrame 3 (⟨2, 15, false, 1, [0x10000000], 0, false, 0, ⟨0, 0⟩, none, none, .none, none, 0, 0, 0, 0, 0, []⟩)), 5, 3, 0, [], by decide +kernel⟩,
   ⟨wit (fun h => (((h.set (R.CKR_RING_FSTAT_STATE 5) 2).set (R.CKR_RING_CFG_SLOT_EXP 5) 0).setRingQueue 5 [(3, 0)]).setFrame 3 (⟨2, 500, false, 1, [0x10000000], 0, false, 0, ⟨0, 0⟩, none, none, .none, none, 0, 0, 0, 0, 0, []⟩)), 5, 3, 0, [], by decide +kernel⟩,
   ⟨wit (fun h => (((h.set (R.CKR_RING_FSTAT_STATE 5) 2).setWord (R.CKR_RING_PROD 5) 16).setRingQueue 5 [(3, 0)]).setFrame 3 (⟨2, 15, false, 1, [0x10000000], 0, false, 0, ⟨0, 0⟩, none, none, .none, none, 0, 0, 0, 0, 0, []⟩)), 5, 3, 0, [], by decide +kernel⟩,
   ⟨wit (fun h => ((((h.set (R.CKR_RING_FSTAT_STATE 5) 2).setWord (R.CKR_RING_BASE_LO 5) 0x10001000).setWord (R.CKR_RING_DATA_LO 5) 0x10002000).setRingQueue 5 [(3, 0)]).setFrame 3 (⟨2, 15, false, 1, [0x10000000], 0, false, 0, ⟨0, 0⟩, none, none, .none, none, 0, 0, 0, 0, 0, []⟩)), 5, 3, 0, 0x10002000, 0x10001000, [], (⟨2, 15, false, 1, [0x10000000], 0, false, 0, ⟨0, 0⟩, none, none, .none, none, 0, 0, 0, 0, 0, []⟩), by decide +kernel⟩,
   ⟨wit (fun h => h), 5, by decide +kernel⟩,
   ⟨wit (fun h => (((h.set (R.CKR_RING_CFG_MODE 5) 2).set (R.CKR_RING_FSTAT_STATE 5) 2).setWord (R.CKR_RING_PROD 5) 1).setWord (R.CKR_RING_BASE_LO 5) 0x10001000), 5, ([0, 0, 0, 0, 0, 0, 0, 0]), 0, by decide +kernel⟩,
   ⟨wit (fun h => (((((h.set (R.CKR_RING_CFG_MODE 5) 2).set (R.CKR_RING_FSTAT_STATE 5) 2).setWord (R.CKR_RING_PROD 5) 1).setWord (R.CKR_RING_BASE_LO 5) 0x10001000).set R.CKR_CTL_MODE 1).set (R.CKR_DEF_W0_KIND 15) 3 |>.setMemLE 0x10001000 8 0x020010003000), 5, ([0, 0x30, 0, 0x10, 0, 2, 0, 0]), ([0, 0]), 0x020010003000, by decide +kernel⟩,
   ⟨wit (fun h => (((((((((((((h.set (R.CKR_RING_CFG_MODE 5) 2).set (R.CKR_RING_FSTAT_STATE 5) 2).setWord (R.CKR_RING_PROD 5) 1).setWord (R.CKR_RING_BASE_LO 5) 0x10001000).set R.CKR_CTL_PM_POOL 1).set (R.CKR_RING_CFG_TXQ 5) 9).set (R.CKR_POOL_CFG_EN 1) 1).set (R.CKR_POOL_FREE_FREE 1) 9).set (R.CKR_POOL_CFG_MTU 1) 1600).set (fstatState (.queue 9)) 2).set (R.TM_Q_W2_MAX_FRAMES 9) 4).set (R.TM_Q_W3_MAX_BUFS 9) 4).setMemLE 0x10001000 8 0x020010003000)), 5, ([0, 0x30, 0, 0x10, 0, 2, 0, 0]), ([0, 0]), 0x020010003000, 1, 9, 0x10000000, by decide +kernel⟩,
   ⟨wit (fun h => (((h.set (R.CKR_RING_CFG_MODE 5) 2).set (R.CKR_RING_FSTAT_STATE 5) 2).setWord (R.CKR_RING_PROD 5) 1).setWord (R.CKR_RING_BASE_LO 5) 0x10001000), 5, by decide +kernel⟩,
   ⟨wit (fun h => ((h.set (R.CKR_RING_CFG_MODE 5) 1).setRingQueue 5 [(3, 0)]).setFrame 3 (⟨2, 15, false, 1, [0x10000000], 0, false, 0, ⟨0, 0⟩, none, none, .none, none, 0, 0, 0, 0, 0, []⟩)), 5, 3, 0, [], by decide +kernel⟩⟩

theorem witness_EthernetReceptionAndPause :
    (∃ (s : State) (n : Fin 8) (f : EthRx), s.hw.mainUp = true ∧ (s.hw.ethLink n = false ∨ s.hw.laneTakes n = false ∨ s.hw.ethState n ≤ 1)) ∧
    (∃ (s : State) (n : Fin 8) (f : EthRx), s.hw.mainUp = true ∧ s.hw.ethLink n = true ∧ s.hw.laneTakes n = true ∧ s.hw.ethState n = 3) ∧
    (∃ (s : State) (n : Fin 8) (f : EthRx) (i : Nat), s.hw.mainUp = true ∧ s.hw.ethLink n = true ∧ s.hw.ethState n = 2 ∧ s.hw.laneTakes n = true ∧ i = (if s.hw.get (R.ETH_CFG_MAXLEN n) < f.bytes.length + 4 then 3 else if f.fcs = false then 2 else 3) ∧ (s.hw.get (R.ETH_CFG_MAXLEN n) < f.bytes.length + 4 ∨ f.fcs = false ∨ f.bytes.length + 4 < 64)) ∧
    (∃ (s : State) (n : Fin 8) (f : EthRx), s.hw.mainUp = true ∧ s.hw.ethLink n = true ∧ s.hw.ethState n = 2 ∧ s.hw.laneTakes n = true ∧ f.bytes.length + 4 ≤ s.hw.get (R.ETH_CFG_MAXLEN n) ∧ 64 ≤ f.bytes.length + 4 ∧ f.fcs = true ∧ isMacControl f.bytes = false ∧ secTag f.bytes = none ∧ (s.hw.validate n = 0 ∨ s.hw.validate n = 2 ∧ isEapol f.bytes = true)) ∧
    (∃ (s : State) (n : Fin 8) (f : EthRx), s.hw.mainUp = true ∧ s.hw.ethLink n = true ∧ s.hw.ethState n = 2 ∧ s.hw.laneTakes n = true ∧ f.bytes.length + 4 ≤ s.hw.get (R.ETH_CFG_MAXLEN n) ∧ 64 ≤ f.bytes.length + 4 ∧ f.fcs = true ∧ isMacControl f.bytes = false ∧ secTag f.bytes = none ∧ s.hw.validate n = 1) ∧
    (∃ (s : State) (n : Fin 8) (f : EthRx), s.hw.mainUp = true ∧ s.hw.ethLink n = true ∧ s.hw.ethState n = 2 ∧ s.hw.laneTakes n = true ∧ f.bytes.length + 4 ≤ s.hw.get (R.ETH_CFG_MAXLEN n) ∧ 64 ≤ f.bytes.length + 4 ∧ f.fcs = true ∧ isMacControl f.bytes = false ∧ secTag f.bytes = none ∧ s.hw.validate n = 2 ∧ isEapol f.bytes = false) ∧
    (∃ (s : State) (n : Fin 8) (f : EthRx) (an low sci c : Nat), s.hw.mainUp = true ∧ s.hw.ethLink n = true ∧ s.hw.ethState n = 2 ∧ s.hw.laneTakes n = true ∧ f.bytes.length + 4 ≤ s.hw.get (R.ETH_CFG_MAXLEN n) ∧ 64 ≤ f.bytes.length + 4 ∧ f.fcs = true ∧ isMacControl f.bytes = false ∧ secTag f.bytes = some (an, low, sci) ∧ s.hw.rxSc n sci = some c ∧ s.hw.flag (R.ETH_RX_SA_CTL_IN_USE n c an) = true ∧ s.hw.validate n ≠ 0 ∧ f.clear = none) ∧
    (∃ (s : State) (n : Fin 8) (f : EthRx) (an low sci c : Nat) (bs : List Byte) (e pn : Nat), s.hw.mainUp = true ∧ s.hw.ethLink n = true ∧ s.hw.ethState n = 2 ∧ s.hw.laneTakes n = true ∧ f.bytes.length + 4 ≤ s.hw.get (R.ETH_CFG_MAXLEN n) ∧ 64 ≤ f.bytes.length + 4 ∧ f.fcs = true ∧ isMacControl f.bytes = false ∧ secTag f.bytes = some (an, low, sci) ∧ s.hw.rxSc n sci = some c ∧ s.hw.flag (R.ETH_RX_SA_CTL_IN_USE n c an) = true ∧ s.hw.validate n ≠ 0 ∧ f.clear = some bs ∧ e = s.hw.saRxPn n c an ∧ pn = s.hw.framePn n c an low ∧ s.hw.xpn n = false ∧ (s.hw.flag (R.ETH_SEC_CTL_REPLAY n) = false ∨ e ≤ pn + s.hw.get (R.ETH_REPLAY_WIN_WIN n))) ∧
    (∃ (s : State) (n : Fin 8) (g : EthFragment), s.hw.mainUp = true ∧ (s.hw.ethLink n = false ∨ g.start = true ∧ (s.hw.ethState n ≤ 1 ∨ s.hw.ethState n = 2 ∧ s.hw.laneTakes n = false))) ∧
    (∃ (s : State) (n : Fin 8) (g : EthFragment), s.hw.mainUp = true ∧ s.hw.ethLink n = true ∧ s.hw.ethState n = 2 ∧ s.hw.laneTakes n = true ∧ g.start = true ∧ (s.hw.ethPort n).assembly = none ∧ g.final = false ∧ g.check = true) ∧
    (∃ (s : State) (n : Fin 8) (g : EthFragment) (x : EthAssembly), s.hw.mainUp = true ∧ s.hw.ethLink n = true ∧ g.start = false ∧ (s.hw.ethPort n).assembly = some x ∧ x.count = g.frameCount.val ∧ x.next = g.fragCount.val ∧ g.final = false ∧ g.check = true) ∧
    (∃ (s : State) (n : Fin 8) (g : EthFragment) (x : EthAssembly), s.hw.mainUp = true ∧ s.hw.ethLink n = true ∧ g.start = false ∧ (s.hw.ethPort n).assembly = some x ∧ (¬ (x.count = g.frameCount.val ∧ x.next = g.fragCount.val) ∨ g.final = false ∧ g.check = false)) ∧
    (∃ (s : State) (n : Fin 8) (g : EthFragment) (x : EthAssembly) (f : EthRx), s.hw.mainUp = true ∧ s.hw.ethLink n = true ∧ g.start = false ∧ (s.hw.ethPort n).assembly = some x ∧ x.count = g.frameCount.val ∧ x.next = g.fragCount.val ∧ g.final = true ∧ f = ⟨x.bytes ++ g.bytes, g.check, g.clear⟩ ∧ f.bytes.length + 4 ≤ s.hw.get (R.ETH_CFG_MAXLEN n) ∧ 64 ≤ f.bytes.length + 4 ∧ f.fcs = true ∧ isMacControl f.bytes = false ∧ secTag f.bytes = none ∧ s.hw.validate n = 0) ∧
    (∃ (s : State) (n : Fin 8) (g : EthFragment), s.hw.mainUp = true ∧ g.start = true ∧ s.hw.ethLink n = true ∧ s.hw.laneTakes n = true ∧ s.hw.ethState n = 3) ∧
    (∃ (s : State) (n : Fin 8) (g : EthFragment), s.hw.mainUp = true ∧ g.start = false ∧ (s.hw.ethPort n).assembly = none) ∧
    (∃ (s : State) (n : Fin 8) (dest : BitVec 48) (time : BitVec 16), s.hw.mainUp = true ∧ (s.hw.ethLink n = false ∨ s.hw.laneTakes n = false ∨ s.hw.ethState n ≤ 1)) ∧
    (∃ (s : State) (n : Fin 8) (dest : BitVec 48) (time : BitVec 16), s.hw.mainUp = true ∧ s.hw.ethLink n = true ∧ s.hw.ethState n = 2 ∧ s.hw.laneTakes n = true ∧ (s.hw.flag (R.ETH_CFG_PAUSE_HONOUR n) = false ∨ s.hw.pauseDest n dest.toNat = false)) ∧
    (∃ (s : State) (n : Fin 8) (dest : BitVec 48) (time : BitVec 16), s.hw.mainUp = true ∧ s.hw.ethLink n = true ∧ s.hw.ethState n = 2 ∧ s.hw.laneTakes n = true ∧ s.hw.flag (R.ETH_CFG_PAUSE_HONOUR n) = true ∧ s.hw.pauseDest n dest.toNat = true ∧ (s.hw.ethPort n).pauses = [] ∧ time ≠ 0) ∧
    (∃ (s : State) (n : Fin 8) (dest : BitVec 48) (time : BitVec 16), s.hw.mainUp = true ∧ s.hw.ethLink n = true ∧ s.hw.ethState n = 2 ∧ s.hw.laneTakes n = true ∧ s.hw.flag (R.ETH_CFG_PAUSE_HONOUR n) = true ∧ s.hw.pauseDest n dest.toNat = true ∧ time = 0 ∧ (s.hw.ethPort n).pauses.length ≤ 7 ∧ (s.hw.ethPort n).pauses.all (fun x => decide (x.1 < 7)) = true) ∧
    (∃ (s : State) (n : Fin 8) (dest : BitVec 48) (en : BitVec 8) (times : List (BitVec 16)), s.hw.mainUp = true ∧ (s.hw.ethLink n = false ∨ s.hw.laneTakes n = false ∨ s.hw.ethState n ≤ 1)) ∧
    (∃ (s : State) (n : Fin 8) (dest : BitVec 48) (en : BitVec 8) (times : List (BitVec 16)), s.hw.mainUp = true ∧ s.hw.ethLink n = true ∧ s.hw.ethState n = 2 ∧ s.hw.laneTakes n = true ∧ (s.hw.flag (R.ETH_CFG_PFC_HONOUR n) = false ∨ s.hw.pauseDest n dest.toNat = false)) ∧
    (∃ (s : State) (n : Fin 8) (dest : BitVec 48) (en : BitVec 8) (times : List (BitVec 16)), s.hw.mainUp = true ∧ s.hw.ethLink n = true ∧ s.hw.ethState n = 2 ∧ s.hw.laneTakes n = true ∧ s.hw.flag (R.ETH_CFG_PFC_HONOUR n) = true ∧ s.hw.pauseDest n dest.toNat = true ∧ (s.hw.ethPort n).pauses = []) ∧
    (∃ (s : State) (n : Fin 8) (d t e : Nat), s.hw.mainUp = true ∧ tget s.hw.timers (.pauseEnd n) = some d ∧ (s.hw.ethPort n).pauses = [(t, e)] ∧ e ≤ 100 * (s.hw.advanceTo d).et ∧ e ≠ (s.hw.ethPort n).pausedFrom) :=
  ⟨⟨wit (fun h => h), 3, (⟨List.replicate 60 9, true, none⟩), by decide +kernel⟩,
   ⟨wit (fun h => ((h.set (R.ETH_PSTAT_LINK 3) 1).set (R.LANE_FSTAT_STATE 3) 2).set (R.ETH_FSTAT_STATE 3) 3), 3, (⟨List.replicate 60 9, true, none⟩), by decide +kernel⟩,
   ⟨wit (fun h => ((h.set (R.ETH_PSTAT_LINK 3) 1).set (R.LANE_FSTAT_STATE 3) 2).set (R.ETH_FSTAT_STATE 3) 2), 3, (⟨List.replicate 60 9, false, none⟩), 2, by decide +kernel⟩,
   ⟨wit (fun h => ((h.set (R.ETH_PSTAT_LINK 3) 1).set (R.LANE_FSTAT_STATE 3) 2).set (R.ETH_FSTAT_STATE 3) 2), 3, (⟨List.replicate 60 9, true, none⟩), by decide +kernel⟩,
   ⟨wit (fun h => ((((h.set (R.ETH_PSTAT_LINK 3) 1).set (R.LANE_FSTAT_STATE 3) 2).set (R.ETH_FSTAT_STATE 3) 2).set (R.ETH_SEC_CTL_RX_EN 3) 1).set (R.ETH_SEC_CTL_VALIDATE 3) 1), 3, (⟨List.replicate 60 9, true, none⟩), by decide +kernel⟩,
   ⟨wit (fun h => ((((h.set (R.ETH_PSTAT_LINK 3) 1).set (R.LANE_FSTAT_STATE 3) 2).set (R.ETH_FSTAT_STATE 3) 2).set (R.ETH_SEC_CTL_RX_EN 3) 1).set (R.ETH_SEC_CTL_VALIDATE 3) 2), 3, (⟨List.replicate 60 9, true, none⟩), by decide +kernel⟩,
   ⟨wit (fun h => (((((h.modEth 3 id |>.set (R.ETH_RX_SC_CTL_EN 3 2) 1 |>.set (R.ETH_RX_SCI_LO_SCI 3 2) 0x07070707 |>.set (R.ETH_RX_SCI_HI_SCI 3 2) 0x07070707 |>.set (R.ETH_RX_SA_CTL_IN_USE 3 2 1) 1).set (R.ETH_PSTAT_LINK 3) 1).set (R.LANE_FSTAT_STATE 3) 2).set (R.ETH_FSTAT_STATE 3) 2).set (R.ETH_SEC_CTL_RX_EN 3) 1).set (R.ETH_SEC_CTL_VALIDATE 3) 2), 3, (⟨(List.replicate 12 9 ++ [0x88, 0xE5, 0x21, 0, 0, 0, 0, 5] ++ List.replicate 50 7), true, none⟩), 1, 5, 0x0707070707070707, 2, by decide +kernel⟩,
   ⟨wit (fun h => (((((h.modEth 3 id |>.set (R.ETH_RX_SC_CTL_EN 3 2) 1 |>.set (R.ETH_RX_SCI_LO_SCI 3 2) 0x07070707 |>.set (R.ETH_RX_SCI_HI_SCI 3 2) 0x07070707 |>.set (R.ETH_RX_SA_CTL_IN_USE 3 2 1) 1).set (R.ETH_PSTAT_LINK 3) 1).set (R.LANE_FSTAT_STATE 3) 2).set (R.ETH_FSTAT_STATE 3) 2).set (R.ETH_SEC_CTL_RX_EN 3) 1).set (R.ETH_SEC_CTL_VALIDATE 3) 2), 3, (⟨(List.replicate 12 9 ++ [0x88, 0xE5, 0x21, 0, 0, 0, 0, 5] ++ List.replicate 50 7), true, some [1, 2, 3]⟩), 1, 5, 0x0707070707070707, 2, ([1, 2, 3]), 0, 5, by decide +kernel⟩,
   ⟨wit (fun h => h), 3, (⟨true, 2, 0, [1, 2], false, true, none⟩), by decide +kernel⟩,
   ⟨wit (fun h => ((h.set (R.ETH_PSTAT_LINK 3) 1).set (R.LANE_FSTAT_STATE 3) 2).set (R.ETH_FSTAT_STATE 3) 2), 3, (⟨true, 2, 0, [1, 2], false, true, none⟩), by decide +kernel⟩,
   ⟨wit (fun h => (((h.set (R.ETH_PSTAT_LINK 3) 1).set (R.LANE_FSTAT_STATE 3) 2).set (R.ETH_FSTAT_STATE 3) 3).modEth 3 fun p => { p with assembly := some ⟨2, 1, [1, 2], ⟨5, 6⟩⟩ }), 3, (⟨false, 2, 1, [3], false, true, none⟩), (⟨2, 1, [1, 2], ⟨5, 6⟩⟩), by decide +kernel⟩,
   ⟨wit (fun h => (((h.set (R.ETH_PSTAT_LINK 3) 1).set (R.LANE_FSTAT_STATE 3) 2).set (R.ETH_FSTAT_STATE 3) 3).modEth 3 fun p => { p with assembly := some ⟨2, 1, [1, 2], ⟨5, 6⟩⟩ }), 3, (⟨false, 2, 2, [3], false, true, none⟩), (⟨2, 1, [1, 2], ⟨5, 6⟩⟩), by decide +kernel⟩,
   ⟨wit (fun h => (((h.set (R.ETH_PSTAT_LINK 3) 1).set (R.LANE_FSTAT_STATE 3) 2).set (R.ETH_FSTAT_STATE 3) 3).modEth 3 fun p => { p with assembly := some ⟨2, 1, List.replicate 40 1, ⟨5, 6⟩⟩ }), 3, (⟨false, 2, 1, List.replicate 20 3, true, true, none⟩), (⟨2, 1, List.replicate 40 1, ⟨5, 6⟩⟩), (⟨List.replicate 40 1 ++ List.replicate 20 3, true, none⟩), by decide +kernel⟩,
   ⟨wit (fun h => (((h.set (R.ETH_PSTAT_LINK 3) 1).set (R.LANE_FSTAT_STATE 3) 2).set (R.ETH_FSTAT_STATE 3) 3).modEth 3 fun p => { p with assembly := some ⟨2, 1, [1, 2], ⟨5, 6⟩⟩ }), 3, (⟨true, 2, 0, [1, 2], false, true, none⟩), by decide +kernel⟩,
   ⟨wit (fun h => ((h.set (R.ETH_PSTAT_LINK 3) 1).set (R.LANE_FSTAT_STATE 3) 2).set (R.ETH_FSTAT_STATE 3) 2), 3, (⟨false, 2, 1, [3], false, true, none⟩), by decide +kernel⟩,
   ⟨wit (fun h => h), 3, 1, 2, by decide +kernel⟩,
   ⟨wit (fun h => ((h.set (R.ETH_PSTAT_LINK 3) 1).set (R.LANE_FSTAT_STATE 3) 2).set (R.ETH_FSTAT_STATE 3) 2), 3, 1, 2, by decide +kernel⟩,
   ⟨wit (fun h => (((h.set (R.ETH_CFG_PAUSE_HONOUR 3) 1).set (R.ETH_PSTAT_LINK 3) 1).set (R.LANE_FSTAT_STATE 3) 2).set (R.ETH_FSTAT_STATE 3) 2), 3, 0x0180C2000001, 2, by decide +kernel⟩,
   ⟨wit (fun h => ((((h.set (R.ETH_CFG_PAUSE_HONOUR 3) 1).set (R.ETH_PSTAT_LINK 3) 1).set (R.LANE_FSTAT_STATE 3) 2).set (R.ETH_FSTAT_STATE 3) 2).modEth 3 fun p => { p with pauses := [(2, 900000000)], pauseUnit := 51200 }), 3, 0x0180C2000001, 0, by decide +kernel⟩,
   ⟨wit (fun h => h), 3, 1, 2, [], by decide +kernel⟩,
   ⟨wit (fun h => ((h.set (R.ETH_PSTAT_LINK 3) 1).set (R.LANE_FSTAT_STATE 3) 2).set (R.ETH_FSTAT_STATE 3) 2), 3, 1, 2, [], by decide +kernel⟩,
   ⟨wit (fun h => ((((h.set (R.ETH_CFG_PFC_HONOUR 3) 1).set (R.ETH_CFG_PFC_MASK 3) 255).set (R.ETH_PSTAT_LINK 3) 1).set (R.LANE_FSTAT_STATE 3) 2).set (R.ETH_FSTAT_STATE 3) 2), 3, 0x0180C2000001, 0xA5, ([7, 7, 0, 0, 0, 3, 3, 3]), by decide +kernel⟩,
   ⟨wit (fun h => (h.startAt (.pauseEnd 3) 2300000).modEth 3 fun p => { p with pauses := [(2, 229999950)], pausedFrom := 220000000, pauseUnit := 51200, residue := 70 }), 3, 2300000, 2, 229999950, by decide +kernel⟩⟩

theorem witness_EthernetTransmissionAndPreemption :
    (∃ (s : State) (n : Fin 80), s.hw.mainUp = true ∧ n.val < 8 ∧ (s.hw.ethState n < 2 ∨ s.hw.ethLink n = false ∨ s.hw.ethState n = 3 ∧ (s.hw.ethPort n).tx = none ∧ (s.hw.ethPort n).next.any (s.hw.mayBegin n) = false ∧ (s.hw.ethPort n).suspended = none)) ∧
    (∃ (s : State) (n : Fin 80) (y : EthTx), s.hw.mainUp = true ∧ n.val < 8 ∧ (s.hw.ethState n = 2 ∨ s.hw.ethState n = 3) ∧ s.hw.ethLink n = true ∧ (s.hw.ethPort n).tx = none ∧ (s.hw.ethPort n).next = [y] ∧ s.hw.mayBegin n y = true) ∧
    (∃ (s : State) (n : Fin 80) (q id : Nat), s.hw.mainUp = true ∧ n.val < 8 ∧ s.hw.ethState n = 2 ∧ s.hw.ethLink n = true ∧ s.hw.laneTakes n = true ∧ (s.hw.ethPort n).tx = none ∧ (s.hw.ethPort n).next.any (s.hw.mayBegin n) = false ∧ (s.hw.ethPort n).suspended = none ∧ (s.hw.select (s.hw.ethAdmits n) (s.hw.ethAsks n false) n).2 = some (q, id) ∧ s.hw.neverFits n (s.hw.frame id) = false) ∧
    (∃ (s : State) (n : Fin 80) (q id : Nat), s.hw.mainUp = true ∧ n.val < 8 ∧ s.hw.ethState n = 2 ∧ s.hw.ethLink n = true ∧ s.hw.laneTakes n = true ∧ (s.hw.ethPort n).tx = none ∧ (s.hw.ethPort n).next.any (s.hw.mayBegin n) = false ∧ (s.hw.ethPort n).suspended = none ∧ (s.hw.select (s.hw.ethAdmits n) (s.hw.ethAsks n false) n).2 = some (q, id) ∧ s.hw.neverFits n (s.hw.frame id) = true) ∧
    (∃ (s : State) (n : Fin 80) (x : EthTx), s.hw.mainUp = true ∧ n.val < 8 ∧ s.hw.ethState n = 2 ∧ s.hw.ethLink n = true ∧ s.hw.laneTakes n = true ∧ (s.hw.ethPort n).tx = none ∧ (s.hw.ethPort n).next.any (s.hw.mayBegin n) = false ∧ (s.hw.ethPort n).suspended = some x ∧ (s.hw.select (s.hw.ethAdmits n) (s.hw.ethAsks n true) n).2 = none ∧ s.hw.mayResume n x = true) ∧
    (∃ (s : State) (n : Fin 80) (x : EthTx) (q id : Nat), s.hw.mainUp = true ∧ n.val < 8 ∧ s.hw.ethState n = 2 ∧ s.hw.ethLink n = true ∧ s.hw.laneTakes n = true ∧ (s.hw.ethPort n).tx = some x ∧ (s.hw.ethPort n).next.any (s.hw.mayBegin n) = false ∧ s.hw.preemptionActive n = true ∧ x.express = false ∧ (s.hw.select (s.hw.ethAdmits n) (s.hw.ethAsks n true) n).2 = some (q, id) ∧ s.hw.neverFits n (s.hw.frame id) = false) ∧
    (∃ (s : State) (n : Fin 80), s.hw.mainUp = true ∧ 16 ≤ n.val ∧ ¬ (s.hw.ringState (n.val - 16) = 2 ∧ s.hw.ringMode (n.val - 16) = 1 ∧ s.hw.ringQueue (n.val - 16) = [] ∧ s.hw.ringCount (n.val - 16) + s.hw.ringReservedOf (n.val - 16) < s.hw.ringSize (n.val - 16))) ∧
    (∃ (s : State) (n : Fin 80) (q id : Nat), s.hw.mainUp = true ∧ 16 ≤ n.val ∧ s.hw.ringState (n.val - 16) = 2 ∧ s.hw.ringMode (n.val - 16) = 1 ∧ s.hw.ringQueue (n.val - 16) = [] ∧ s.hw.ringCount (n.val - 16) + s.hw.ringReservedOf (n.val - 16) < s.hw.ringSize (n.val - 16) ∧ (s.hw.select anyQueue anyQueue n).2 = some (q, id)) ∧
    (∃ (s : State) (n : Fin 8), s.hw.mainUp = true ∧ (s.hw.ethPort n).tx.all (fun x => !x.started) = true) ∧
    (∃ (s : State) (n : Fin 8) (x : EthTx) (f : Frame), s.hw.mainUp = true ∧ (s.hw.ethPort n).tx = some x ∧ f = s.hw.frame x.frame ∧ f.src < 16 ∧ s.hw.flag (R.CKR_POOL_CFG_LOC f.pool) = false ∧ x.started = true ∧ s.hw.frameFault 21 f = none ∧ (s.hw.ethPort n).next.all (fun y => y.frame != x.frame) = true ∧ (s.hw.flag (R.ETH_SEC_CTL_TX_EN n) = false ∨ isEapol (s.hw.leavingBytes f) = true) ∧ f.act ≠ 2) ∧
    (∃ (s : State) (n : Fin 8) (x : EthTx) (f : Frame), s.hw.mainUp = true ∧ (s.hw.ethPort n).tx = some x ∧ f = s.hw.frame x.frame ∧ f.src < 16 ∧ s.hw.flag (R.CKR_POOL_CFG_LOC f.pool) = false ∧ x.started = true ∧ s.hw.frameFault 21 f = none ∧ (s.hw.ethPort n).next.all (fun y => y.frame != x.frame) = true ∧ (s.hw.flag (R.ETH_SEC_CTL_TX_EN n) = false ∨ isEapol (s.hw.leavingBytes f) = true) ∧ f.act = 2 ∧ (kgetD [] s.hw.time.tsq n).length < 64) ∧
    (∃ (s : State) (n : Fin 8) (x : EthTx) (f : Frame), s.hw.mainUp = true ∧ (s.hw.ethPort n).tx = some x ∧ f = s.hw.frame x.frame ∧ f.src < 16 ∧ s.hw.flag (R.CKR_POOL_CFG_LOC f.pool) = false ∧ x.started = true ∧ (s.hw.frameFault 21 f).isSome = true ∧ (s.hw.ethPort n).next.all (fun y => y.frame != x.frame) = true) ∧
    (∃ (s : State) (n : Fin 8) (x : EthTx) (f : Frame), s.hw.mainUp = true ∧ (s.hw.ethPort n).tx = some x ∧ f = s.hw.frame x.frame ∧ f.src < 16 ∧ s.hw.flag (R.CKR_POOL_CFG_LOC f.pool) = false ∧ x.started = true ∧ s.hw.frameFault 21 f = none ∧ (s.hw.ethPort n).next.all (fun y => y.frame != x.frame) = true ∧ (¬ (s.hw.flag (R.ETH_SEC_CTL_TX_EN n) = false ∨ isEapol (s.hw.leavingBytes f) = true)) ∧ s.hw.flag (R.ETH_TX_SA_CTL_IN_USE n (x.an)) = false) ∧
    (∃ (s : State) (n : Fin 8) (x : EthTx) (f : Frame), s.hw.mainUp = true ∧ (s.hw.ethPort n).tx = some x ∧ f = s.hw.frame x.frame ∧ f.src < 16 ∧ s.hw.flag (R.CKR_POOL_CFG_LOC f.pool) = false ∧ x.started = true ∧ s.hw.frameFault 21 f = none ∧ (s.hw.ethPort n).next.all (fun y => y.frame != x.frame) = true ∧ (¬ (s.hw.flag (R.ETH_SEC_CTL_TX_EN n) = false ∨ isEapol (s.hw.leavingBytes f) = true)) ∧ s.hw.xpn n = false ∧ s.hw.flag (R.ETH_TX_SA_CTL_IN_USE n (x.an)) = true ∧ (s.hw.ethPort n).spent.contains (x.an) = false) ∧
    (∃ (s : State) (n : Fin 12) (k : Nat), s.hw.mainUp = true ∧ n.val < 8 ∧ (s.hw.ethPort n).tx.all (fun x => !decide (s.hw.ethState n = 2 ∧ x.started = true ∧ s.hw.preemptionActive n = true ∧ x.express = false ∧ (s.hw.ethPort n).suspended = none ∧
  ((s.hw.ethPort n).next.any (s.hw.mayBegin n) || s.hw.flag (R.ETH_PRE_STAT_HOLD n) || !s.hw.gateOpen n (s.hw.frame x.frame).tc) = true ∧
  s.hw.addFragBytes n - 4 ≤ k ∧
  x.done + (k - if x.fragments = 0 then 0 else 1) + 64 ≤ max (s.hw.frame x.frame).leaving 60 + s.hw.secOverhead n (s.hw.frame x.frame) + 4)) = true) ∧
    (∃ (s : State) (n : Fin 12) (k : Nat) (x : EthTx), s.hw.mainUp = true ∧ n.val < 8 ∧ (s.hw.ethPort n).tx = some x ∧ s.hw.ethState n = 2 ∧ x.started = true ∧ s.hw.preemptionActive n = true ∧ x.express = false ∧ (s.hw.ethPort n).suspended = none ∧
  ((s.hw.ethPort n).next.any (s.hw.mayBegin n) || s.hw.flag (R.ETH_PRE_STAT_HOLD n) || !s.hw.gateOpen n (s.hw.frame x.frame).tc) = true ∧
  s.hw.addFragBytes n - 4 ≤ k ∧
  x.done + (k - if x.fragments = 0 then 0 else 1) + 64 ≤ max (s.hw.frame x.frame).leaving 60 + s.hw.secOverhead n (s.hw.frame x.frame) + 4) ∧
    (∃ (s : State) (n : Fin 8), s.hw.mainUp = true ∧ (s.hw.flag (R.ETH_PRE_CTL_PRE_EN n) = false ∨ s.hw.flag (R.ETH_PRE_CTL_VERIFY_EN n) = false)) ∧
    (∃ (s : State) (n : Fin 8), s.hw.mainUp = true ∧ s.hw.flag (R.ETH_PRE_CTL_PRE_EN n) = true ∧ s.hw.flag (R.ETH_PRE_CTL_VERIFY_EN n) = true) ∧
    (∃ (s : State) (n : Fin 8) (d : Nat), s.hw.mainUp = true ∧ tget s.hw.timers (.verify n) = some d ∧ (s.hw.ethPort n).verifySent < 3) ∧
    (∃ (s : State) (n : Fin 8) (d : Nat), s.hw.mainUp = true ∧ tget s.hw.timers (.verify n) = some d ∧ 3 ≤ (s.hw.ethPort n).verifySent) ∧
    (∃ (s : State) (n : Fin 8), s.hw.mainUp = true ∧ s.hw.get (R.ETH_PRE_STAT_VERIFY n) = 2) ∧
    (∃ (s : State) (n : Fin 8), s.hw.mainUp = true ∧ s.hw.get (R.ETH_PRE_STAT_VERIFY n) ≠ 2) ∧
    (∃ (s : State) (n : Fin 8), s.hw.mainUp = true) :=
  ⟨⟨wit (fun h => h), 3, by decide +kernel⟩,
   ⟨wit (fun h => ((((h.set (R.ETH_PSTAT_LINK 3) 1).set (R.LANE_FSTAT_STATE 3) 2).set (R.ETH_FSTAT_STATE 3) 3).set (R.ETH_GATE_STAT_STATES 3) 255).modEth 3 fun p => { p with next := [⟨6, true, false, 0, 0, ⟨0, 0⟩, false, 0⟩] }), 3, (⟨6, true, false, 0, 0, ⟨0, 0⟩, false, 0⟩), by decide +kernel⟩,
   ⟨wit (fun h => ((((((h.set (R.ETH_PSTAT_LINK 3) 1).set (R.LANE_FSTAT_STATE 3) 2).set (R.ETH_FSTAT_STATE 3) 2).set (R.TM_Q_FSTAT_STATE 8200) 2).set (R.TM_Q_W6_EGRESS 8200) 3).set (R.TM_Q_W7_WEIGHT 8200) 1).setFrame 5 ⟨2, 15, false, 1, [0x10000000], 0, false, 0, ⟨0, 0⟩, none, none, .none, some 8200, 0x6000, 0, 0, 1, 0, []⟩ |>.setQueue 8200 [5] |>.set (R.ETH_GATE_STAT_STATES 3) 255), 3, 8200, 5, by decide +kernel⟩,
   ⟨wit (fun h => (((((((((h.set (R.ETH_PSTAT_LINK 3) 1).set (R.LANE_FSTAT_STATE 3) 2).set (R.ETH_FSTAT_STATE 3) 2).set (R.ETH_GATE_STAT_OPER 3) 1).set (R.ETH_COUNT_COUNT 3 0) 2).set (R.ETH_GE_W0_STATES 3 0 1) 255).set (R.TM_Q_FSTAT_STATE 8200) 2).set (R.TM_Q_W6_EGRESS 8200) 3).set (R.TM_Q_W7_WEIGHT 8200) 1).setFrame 5 ⟨2, 15, false, 1, [0x10000000], 0, false, 0, ⟨0, 0⟩, none, none, .none, some 8200, 0x6000, 0, 0, 1, 0, []⟩ |>.setQueue 8200 [5] |>.set (R.ETH_GATE_STAT_STATES 3) 255), 3, 8200, 5, by decide +kernel⟩,
   ⟨wit (fun h => ((((h.set (R.ETH_PSTAT_LINK 3) 1).set (R.LANE_FSTAT_STATE 3) 2).set (R.ETH_FSTAT_STATE 3) 2).set (R.ETH_GATE_STAT_STATES 3) 255).modEth 3 fun p => { p with suspended := some ⟨5, false, true, 60, 1, ⟨0, 0⟩, true, 0⟩ }), 3, (⟨5, false, true, 60, 1, ⟨0, 0⟩, true, 0⟩), by decide +kernel⟩,
   ⟨wit (fun h => ((((((((h.set (R.ETH_PSTAT_LINK 3) 1).set (R.LANE_FSTAT_STATE 3) 2).set (R.ETH_FSTAT_STATE 3) 2).set (R.ETH_PRE_STAT_ACTIVE 3) 1 |>.set (R.ETH_PRE_CTL_EXPRESS 3) 127).set (R.TM_Q_FSTAT_STATE 8200) 2).set (R.TM_Q_W6_EGRESS 8200) 3).set (R.TM_Q_W7_WEIGHT 8200) 1).setFrame 5 ⟨2, 15, false, 1, [0x10000000], 0, false, 0, ⟨0, 0⟩, none, none, .none, some 8200, 0x6000, 0, 0, 1, 0, []⟩ |>.setQueue 8200 [5] |>.set (R.ETH_GATE_STAT_STATES 3) 255).modEth 3 fun p => { p with tx := some ⟨6, false, true, 0, 0, ⟨0, 0⟩, true, 0⟩ }), 3, (⟨6, false, true, 0, 0, ⟨0, 0⟩, true, 0⟩), 8200, 5, by decide +kernel⟩,
   ⟨wit (fun h => h), 20, by decide +kernel⟩,
   ⟨wit (fun h => ((((((h.set (R.CKR_RING_CFG_MODE 4) 1).set (R.CKR_RING_FSTAT_STATE 4) 2).set (R.TM_Q_FSTAT_STATE 8200) 2).set (R.TM_Q_W6_EGRESS 8200) 20).set (R.TM_Q_W7_WEIGHT 8200) 1).setFrame 5 ⟨2, 15, false, 1, [0x10000000], 0, false, 0, ⟨0, 0⟩, none, none, .none, some 8200, 0x6000, 0, 0, 1, 0, []⟩ |>.setQueue 8200 [5] |>.set (R.ETH_GATE_STAT_STATES 3) 255)), 20, 8200, 5, by decide +kernel⟩,
   ⟨wit (fun h => h), 3, by decide +kernel⟩,
   ⟨wit (fun h => ((h).setFrame 5 (⟨2, 15, false, 1, [0x10000000], 0, false, 0, ⟨1, 0⟩, none, none, .none, none, 0, 0, 0, 1, 0, []⟩)).modEth 3 fun p => { p with tx := some ⟨5, true, true, 0, 0, ⟨1, 0⟩, true, 0⟩ }), 3, (⟨5, true, true, 0, 0, ⟨1, 0⟩, true, 0⟩), (⟨2, 15, false, 1, [0x10000000], 0, false, 0, ⟨1, 0⟩, none, none, .none, none, 0, 0, 0, 1, 0, []⟩), by decide +kernel⟩,
   ⟨wit (fun h => ((h).setFrame 5 (⟨2, 15, false, 1, [0x10000000], 0, false, 0, ⟨1, 0⟩, none, none, .none, none, 0, 0x50002, 0, 1, 0, []⟩)).modEth 3 fun p => { p with tx := some ⟨5, true, true, 0, 0, ⟨1, 0⟩, true, 0⟩ }), 3, (⟨5, true, true, 0, 0, ⟨1, 0⟩, true, 0⟩), (⟨2, 15, false, 1, [0x10000000], 0, false, 0, ⟨1, 0⟩, none, none, .none, none, 0, 0x50002, 0, 1, 0, []⟩), by decide +kernel⟩,
   ⟨wit (fun h => ((h).setFrame 5 (⟨2, 15, false, 1, [0x18000000], 0, false, 0, ⟨1, 0⟩, none, none, .none, none, 0, 0, 0, 1, 0, []⟩)).modEth 3 fun p => { p with tx := some ⟨5, true, true, 0, 0, ⟨1, 0⟩, true, 0⟩ }), 3, (⟨5, true, true, 0, 0, ⟨1, 0⟩, true, 0⟩), (⟨2, 15, false, 1, [0x18000000], 0, false, 0, ⟨1, 0⟩, none, none, .none, none, 0, 0, 0, 1, 0, []⟩), by decide +kernel⟩,
   ⟨wit (fun h => ((h.set (R.ETH_SEC_CTL_TX_EN 3) 1).setFrame 5 (⟨2, 15, false, 1, [0x10000000], 0, false, 0, ⟨1, 0⟩, none, none, .none, none, 0, 0, 0, 1, 0, []⟩)).modEth 3 fun p => { p with tx := some ⟨5, true, true, 0, 0, ⟨1, 0⟩, true, 0⟩ }), 3, (⟨5, true, true, 0, 0, ⟨1, 0⟩, true, 0⟩), (⟨2, 15, false, 1, [0x10000000], 0, false, 0, ⟨1, 0⟩, none, none, .none, none, 0, 0, 0, 1, 0, []⟩), by decide +kernel⟩,
   ⟨wit (fun h => (((h.set (R.ETH_SEC_CTL_TX_EN 3) 1).set (R.ETH_TX_SA_CTL_IN_USE 3 0) 1).setFrame 5 (⟨2, 15, false, 1, [0x10000000], 0, false, 0, ⟨1, 0⟩, none, none, .none, none, 0, 0, 0, 1, 0, []⟩)).modEth 3 fun p => { p with tx := some ⟨5, true, true, 0, 0, ⟨1, 0⟩, true, 0⟩ }), 3, (⟨5, true, true, 0, 0, ⟨1, 0⟩, true, 0⟩), (⟨2, 15, false, 1, [0x10000000], 0, false, 0, ⟨1, 0⟩, none, none, .none, none, 0, 0, 0, 1, 0, []⟩), by decide +kernel⟩,
   ⟨wit (fun h => h), 3, 60, by decide +kernel⟩,
   ⟨wit (fun h => (((((h.set (R.ETH_PRE_CTL_EXPRESS 3) 127).set (R.ETH_FSTAT_STATE 3) 2).set (R.ETH_PRE_STAT_ACTIVE 3) 1).set (R.ETH_GATE_STAT_STATES 3) 255).setFrame 5 (⟨2, 200, false, 1, [0x10000000], 0, false, 0, ⟨1, 0⟩, none, none, .none, none, 0, 0, 0, 1, 0, []⟩)).modEth 3 fun p => { p with tx := some ⟨5, false, true, 0, 0, ⟨1, 0⟩, true, 0⟩, next := [⟨6, true, false, 0, 0, ⟨0, 0⟩, false, 0⟩] }), 3, 60, (⟨5, false, true, 0, 0, ⟨1, 0⟩, true, 0⟩), by decide +kernel⟩,
   ⟨wit (fun h => (h.set (R.ETH_PRE_CTL_PRE_EN 3) 1).set (R.ETH_PRE_CTL_VERIFY_EN 3) 0), 3, by decide +kernel⟩,
   ⟨wit (fun h => ((((h.set (R.ETH_PSTAT_LINK 3) 1).set (R.LANE_FSTAT_STATE 3) 2).set (R.ETH_FSTAT_STATE 3) 2).set (R.ETH_PRE_CTL_PRE_EN 3) 1).set (R.ETH_PRE_CTL_VERIFY_EN 3) 1), 3, by decide +kernel⟩,
   ⟨wit (fun h => h.startAt (.verify 3) 9000000), 3, 9000000, by decide +kernel⟩,
   ⟨wit (fun h => (h.startAt (.verify 3) 9000000).modEth 3 fun p => { p with verifySent := 3 }), 3, 9000000, by decide +kernel⟩,
   ⟨wit (fun h => (h.set (R.ETH_PRE_STAT_VERIFY 3) 2).set (R.ETH_PRE_CTL_PRE_EN 3) 1), 3, by decide +kernel⟩,
   ⟨wit (fun h => h), 3, by decide +kernel⟩,
   ⟨wit (fun h => h.set (R.ETH_PRE_CTL_PRE_EN 3) 1), 3, by decide +kernel⟩⟩

theorem witness_ScheduledGatesAndRouterTables :
    (∃ (s : State) (n : Fin 8) (init : BitVec 8), s.hw.mainUp = true) ∧
    (∃ (s : State) (n : Fin 8) (init : BitVec 8), s.hw.mainUp = true) ∧
    (∃ (s : State) (n : Fin 8), s.hw.mainUp = true ∧ (s.hw.gateEn n = false ∨ s.hw.gatePend n = true ∨ s.hw.flag (R.ETH_GATE_STAT_VAL_BUSY n) = true)) ∧
    (∃ (s : State) (n : Fin 8), s.hw.mainUp = true ∧ s.hw.gateEn n = true ∧ s.hw.gatePend n = false ∧ s.hw.flag (R.ETH_GATE_STAT_VAL_BUSY n) = false) ∧
    (∃ (s : State) (n : Fin 8), s.hw.mainUp = true ∧ s.hw.flag (R.ETH_GATE_STAT_VAL_BUSY n) = false) ∧
    (∃ (s : State) (n : Fin 8) (c : Nat), s.hw.mainUp = true ∧ s.hw.flag (R.ETH_GATE_STAT_VAL_BUSY n) = true ∧ s.hw.gateCheck n (1 - s.hw.gateActive n) = some c) ∧
    (∃ (s : State) (n : Fin 8), s.hw.mainUp = true ∧ s.hw.flag (R.ETH_GATE_STAT_VAL_BUSY n) = true ∧ s.hw.gateCheck n (1 - s.hw.gateActive n) = none) ∧
    (∃ (s : State) (n : Fin 8), s.hw.mainUp = true) ∧
    (∃ (s : State) (n : Fin 8), s.hw.mainUp = true ∧ (s.hw.ethPort n).gateRun.all (fun r => !s.hw.gateMoreEntries n r) = true) ∧
    (∃ (s : State) (n : Fin 8) (r : GateRun) (T : Nat), s.hw.mainUp = true ∧ (s.hw.ethPort n).gateRun = some r ∧ r.bank < 2 ∧ s.hw.gateMoreEntries n r = true ∧ T = r.entryEnd ∧ (s.hw.advanceToNt T).ntReached T = true) ∧
    (∃ (s : State) (n : Fin 8), s.hw.mainUp = true ∧ ((s.hw.ethPort n).gateRun = none ∧ (s.hw.ethPort n).gateWait = none ∨ (s.hw.ethPort n).gateRun.any (fun r => r.swap) = true)) ∧
    (∃ (s : State) (n : Fin 8) (r : GateRun) (T : Nat), s.hw.mainUp = true ∧ (s.hw.ethPort n).gateRun = some r ∧ r.bank < 2 ∧ r.swap = false ∧ T = r.stop ∧ (s.hw.advanceToNt T).ntReached T = true) ∧
    (∃ (s : State) (n : Fin 8) (T : Nat), s.hw.mainUp = true ∧ (s.hw.ethPort n).gateRun = none ∧ (s.hw.ethPort n).gateWait = some T ∧ ((s.hw.ethPort n).cct.any fun c => s.hw.gatePend n && ntAtLeast T c) = false ∧ (s.hw.advanceToNt T).ntReached T = true) ∧
    (∃ (s : State) (n : Fin 8) (T : Nat), s.hw.mainUp = true ∧ (s.hw.ethPort n).cct = some T ∧ s.hw.gatePend n = true ∧ (s.hw.ethPort n).gateRun.all (fun r => r.swap) = true ∧ (s.hw.advanceToNt T).ntReached T = true) ∧
    (∃ (s : State) (n : Fin 8), s.hw.mainUp = true ∧ ((s.hw.ethPort n).cct = none ∨ s.hw.gatePend n = false ∨ (s.hw.ethPort n).gateRun.any (fun r => !r.swap) = true)) ∧
    (∃ (s : State), s.hw.mainUp = true) ∧
    (∃ (s : State), s.hw.mainUp = true) ∧
    (∃ (s : State), s.hw.mainUp = true) ∧
    (∃ (s : State), s.hw.mainUp = true) ∧
    (∃ (s : State), s.hw.mainUp = true) ∧
    (∃ (s : State), s.hw.mainUp = true) ∧
    (∃ (s : State) (k : Fin 264), s.hw.mainUp = true) ∧
    (∃ (s : State) (k : Fin 264), s.hw.mainUp = true) :=
  ⟨⟨wit (fun h => h.set (R.ETH_GATE_STAT_OPER 3) 1), 3, 0x55, by decide +kernel⟩,
   ⟨wit (fun h => h), 3, 0x55, by decide +kernel⟩,
   ⟨wit (fun h => h), 3, by decide +kernel⟩,
   ⟨wit (fun h => h.set (R.ETH_GATE_CTL_GATE_EN 3) 1), 3, by decide +kernel⟩,
   ⟨wit (fun h => h), 3, by decide +kernel⟩,
   ⟨wit (fun h => h.set (R.ETH_GATE_STAT_VAL_BUSY 3) 1), 3, 1, by decide +kernel⟩,
   ⟨wit (fun h => (((h.set (R.ETH_GATE_STAT_VAL_BUSY 3) 1).set (R.ETH_CYCLE_CYCLE 3 1) 500).set (R.ETH_COUNT_COUNT 3 1) 1).set (R.ETH_GE_W1_INTERVAL 3 1 0) 400), 3, by decide +kernel⟩,
   ⟨wit (fun h => h.set (R.ETH_GATE_STAT_PEND 3) 1), 3, by decide +kernel⟩,
   ⟨wit (fun h => h), 3, by decide +kernel⟩,
   ⟨wit (fun h => let h := (((h.set (R.ETH_COUNT_COUNT 3 0) 2).set (R.ETH_GE_W0_STATES 3 0 1) 0x83).set (R.ETH_GE_W0_OP 3 0 1) 1 |>.set (R.ETH_PRE_STAT_ACTIVE 3) 1).modEth 3 fun p => { p with gateRun := some ⟨0, 0, 2000 * 2 ^ 32, 2000 * 2 ^ 32, false, 0, 700 * 2 ^ 32⟩ }; { h with tbLock := true }), 3, (⟨0, 0, 2000 * 2 ^ 32, 2000 * 2 ^ 32, false, 0, 700 * 2 ^ 32⟩), (700 * 2 ^ 32), by decide +kernel⟩,
   ⟨wit (fun h => h), 3, by decide +kernel⟩,
   ⟨wit (fun h => let h := (h.set (R.ETH_GE_W0_STATES 3 0 0) 0x83).modEth 3 fun p => { p with gateRun := some ⟨0, 0, 2000 * 2 ^ 32, 2000 * 2 ^ 32, false, 0, 700 * 2 ^ 32⟩ }; { h with tbLock := true }), 3, (⟨0, 0, 2000 * 2 ^ 32, 2000 * 2 ^ 32, false, 0, 700 * 2 ^ 32⟩), (2000 * 2 ^ 32), by decide +kernel⟩,
   ⟨wit (fun h => let h := (h).modEth 3 fun p => { p with gateWait := some (2000 * 2 ^ 32) }; { h with tbLock := true }), 3, (2000 * 2 ^ 32), by decide +kernel⟩,
   ⟨wit (fun h => let h := ((h.set (R.ETH_GATE_STAT_PEND 3) 1).set (R.ETH_GE_W0_STATES 3 1 0) 0x83).modEth 3 fun p => { p with cct := some (2000 * 2 ^ 32) }; { h with tbLock := true }), 3, (2000 * 2 ^ 32), by decide +kernel⟩,
   ⟨wit (fun h => h), 3, by decide +kernel⟩,
   ⟨wit (fun h => ((h.setWord (R.ETH_RT_ARG 1) 0x0A000000).setWord (R.ETH_RT_ARG 2) 7).setWord (R.ETH_RT_ARG 3) 8), by decide +kernel⟩,
   ⟨wit (fun h => (h.setLpm [(5, 6), (8, 7)]).setWord (R.ETH_RT_ARG 3) 8), by decide +kernel⟩,
   ⟨wit (fun h => ((h.setWord (R.ETH_RT_ARG 1) 0x0A000000).setWord (R.ETH_RT_ARG 2) 7)), by decide +kernel⟩,
   ⟨wit (fun h => (h.setEm [(5, 6), (8, 7)]).setWord (R.ETH_RT_ARG 0) 8), by decide +kernel⟩,
   ⟨wit (fun h => h.setLpm [(5, 6)]), by decide +kernel⟩,
   ⟨wit (fun h => h.setEm [(5, 6)]), by decide +kernel⟩,
   ⟨wit (fun h => (h.setLpm [(1, 5), (0x0A00000000000008, 7)]).setWord (R.ETH_SLOT_KEY_HI 9) 0x0A010203), 9, by decide +kernel⟩,
   ⟨wit (fun h => (h.setEm [(5, 6), (8, 7)]).setWord (R.ETH_SLOT_KEY_LO 9) 8), 9, by decide +kernel⟩⟩

theorem witness_LaneBringUp :
    (∃ (s : State) (n : Fin 12) (d : Nat), s.hw.mainUp = true ∧ s.hw.laneState n = 1 ∧ tget s.hw.timers (.lane n) = some d ∧ n.val < 8 ∧ s.hw.flag (R.LANE_CTL_PROBE_EN n) = true ∧ 1 ≤ s.hw.get (R.LANE_CTL_RATE_MAX n)) ∧
    (∃ (s : State) (n : Fin 12) (d : Nat), s.hw.mainUp = true ∧ s.hw.laneState n = 1 ∧ tget s.hw.timers (.lane n) = some d ∧ ¬ (n.val < 8 ∧ s.hw.flag (R.LANE_CTL_PROBE_EN n) = true ∧ 1 ≤ s.hw.get (R.LANE_CTL_RATE_MAX n))) ∧
    (∃ (s : State) (n : Fin 12) (d : Nat), s.hw.mainUp = true ∧ s.hw.laneState n = 2 ∧ tget s.hw.timers (.lane n) = some d ∧ s.hw.laneRate n < s.hw.get (R.LANE_CTL_RATE_MAX n)) ∧
    (∃ (s : State) (n : Fin 12) (d : Nat), s.hw.mainUp = true ∧ s.hw.laneState n = 2 ∧ tget s.hw.timers (.lane n) = some d ∧ s.hw.get (R.LANE_CTL_RATE_MAX n) ≤ s.hw.laneRate n) ∧
    (∃ (s : State) (n : Fin 12) (d : Nat), s.hw.mainUp = true ∧ s.hw.laneState n = 3 ∧ tget s.hw.timers (.lane n) = some d) ∧
    (∃ (s : State) (n : Fin 12) (p : Option RatePage), s.hw.mainUp = true ∧ s.hw.laneState n = 1 ∧ (s.hw.agreed n p).1 = 0 ∧ s.hw.get (R.LANE_CTL_PWR n) = 0 ∧ s.hw.running (.laneExit n) = false) ∧
    (∃ (s : State) (n : Fin 12) (p : Option RatePage), s.hw.mainUp = true ∧ s.hw.laneState n = 1 ∧ (s.hw.agreed n p).1 ≠ 0) ∧
    (∃ (s : State) (n : Fin 12), s.hw.mainUp = true ∧ s.hw.laneState n = 2 ∧ s.hw.get (R.LANE_CTL_PWR n) = 0 ∧ s.hw.running (.laneExit n) = false) ∧
    (∃ (s : State) (n : Fin 12), s.hw.mainUp = true ∧ s.hw.laneState n = 3 ∧ s.hw.get (R.LANE_CTL_PWR n) = 0 ∧ s.hw.running (.laneExit n) = false) ∧
    (∃ (s : State) (n : Fin 12), s.hw.mainUp = true ∧ s.hw.laneState n = 4) ∧
    (∃ (s : State) (n : Fin 12) (d : Nat), s.hw.mainUp = true ∧ s.hw.laneState n = 5 ∧ tget s.hw.timers (.lane n) = some d) ∧
    (∃ (s : State) (n : Fin 12) (d : Nat), s.hw.mainUp = true ∧ s.hw.laneState n = 6 ∧ tget s.hw.timers (.lane n) = some d) ∧
    (∃ (s : State) (n : Fin 12) (d : Nat), s.hw.mainUp = true ∧ s.hw.laneState n = 6 ∧ tget s.hw.timers (.lane n) = some d) ∧
    (∃ (s : State) (n : Fin 12) (locked : Bool) (d : Nat), s.hw.mainUp = true ∧ s.hw.laneState n = 6 ∧ tget s.hw.timers (.laneExit n) = some d) ∧
    (∃ (s : State) (n : Fin 12), s.hw.mainUp = true ∧ (s.hw.laneState n = 5 ∨ s.hw.laneState n = 6)) ∧
    (∃ (s : State) (n : Fin 12) (c : Instr), s.hw.mainUp = true ∧ (c = .negTimeout n ∧ s.hw.laneState n ≠ 1 ∨ c = .ratePageExchanged n none ∧ s.hw.laneState n ≠ 1 ∨ c = .probeStep n ∧ s.hw.laneState n ≠ 2 ∨ c = .probeLock n ∧ s.hw.laneState n ≠ 2 ∨ c = .trainLockHeld n ∧ s.hw.laneState n ≠ 3 ∨ c = .trainTimeout n ∧ s.hw.laneState n ≠ 3 ∨ c = .linkLoss n ∧ s.hw.laneState n ≠ 4 ∨ c = .backoffEnd n ∧ s.hw.laneState n ≠ 5 ∨ c = .laneRetry n ∧ s.hw.laneState n ≠ 5 ∧ s.hw.laneState n ≠ 6)) :=
  ⟨⟨wit (fun h => ((h.set (R.LANE_STAT_STATE 3) 1).set (R.LANE_CTL_PROBE_EN 3) 1 |>.set (R.LANE_CTL_RATE_MAX 3) 4).startAt (.lane 3) 9000000), 3, 9000000, by decide +kernel⟩,
   ⟨wit (fun h => ((h.set (R.LANE_STAT_STATE 9) 1)).startAt (.lane 9) 9000000), 9, 9000000, by decide +kernel⟩,
   ⟨wit (fun h => ((h.set (R.LANE_STAT_STATE 3) 2).set (R.LANE_CTL_RATE_MAX 3) 4).startAt (.lane 3) 9000000), 3, 9000000, by decide +kernel⟩,
   ⟨wit (fun h => ((h.set (R.LANE_STAT_STATE 3) 2).set (R.LANE_STAT_RATE 3) 5).startAt (.lane 3) 9000000), 3, 9000000, by decide +kernel⟩,
   ⟨wit (fun h => ((h.set (R.LANE_STAT_STATE 3) 3).set (R.LANE_STAT_RATE 3) 2).startAt (.lane 3) 9000000), 3, 9000000, by decide +kernel⟩,
   ⟨wit (fun h => ((h.set (R.LANE_STAT_STATE 3) 1)).startAt (.lane 3) 9000000), 3, none, by decide +kernel⟩,
   ⟨wit (fun h => ((h.set (R.LANE_STAT_STATE 3) 1).set (R.LANE_CTL_RATE_MAX 3) 4 |>.set (R.LANE_CTL_FEC_EN 3) 3 |>.set (R.LANE_NEG_ID_NEG_ID 3) 7).startAt (.lane 3) 9000000), 3, ((some ⟨0x1F, 3, 7⟩)), by decide +kernel⟩,
   ⟨wit (fun h => ((h.set (R.LANE_STAT_STATE 3) 2).set (R.LANE_STAT_RATE 3) 2).startAt (.lane 3) 9000000), 3, by decide +kernel⟩,
   ⟨wit (fun h => ((h.set (R.LANE_STAT_STATE 3) 3).set (R.LANE_STAT_RATE 3) 4 |>.set (R.LANE_STAT_FEC 3) 2).startAt (.lane 3) 9000000), 3, by decide +kernel⟩,
   ⟨wit (fun h => ((h.set (R.LANE_STAT_STATE 3) 4).set (R.ETH_PSTAT_LINK 3) 1).startAt (.lane 3) 9000000), 3, by decide +kernel⟩,
   ⟨wit (fun h => ((h.set (R.LANE_STAT_STATE 3) 5)).startAt (.lane 3) 9000000), 3, 9000000, by decide +kernel⟩,
   ⟨wit (fun h => ((h.set (R.LANE_STAT_STATE 3) 6)).startAt (.lane 3) 9000000), 3, 9000000, by decide +kernel⟩,
   ⟨wit (fun h => ((h.set (R.LANE_STAT_STATE 3) 6)).startAt (.lane 3) 9000000), 3, 9000000, by decide +kernel⟩,
   ⟨wit (fun h => (h.set (R.LANE_STAT_STATE 3) 6).startAt (.laneExit 3) 9000000), 3, true, 9000000, by decide +kernel⟩,
   ⟨wit (fun h => ((h.set (R.LANE_STAT_STATE 3) 6)).startAt (.lane 3) 9000000), 3, by decide +kernel⟩,
   ⟨wit (fun h => h), 3, (.linkLoss 3), by decide +kernel⟩⟩

theorem witness_QuietLanesAndBitErrorTests :
    (∃ (s : State) (n : Fin 12), s.hw.mainUp = true) ∧
    (∃ (s : State) (n : Fin 12) (v : BitVec 2), s.hw.mainUp = true ∧ (v = 1 ∨ v = 2) ∧ s.hw.laneState n = 4 ∧ s.hw.portSending n = false) ∧
    (∃ (s : State) (n : Fin 12), s.hw.mainUp = true ∧ (s.hw.laneState n = 7 ∨ s.hw.laneState n = 8) ∧ s.hw.running (.laneExit n) = false) ∧
    (∃ (s : State) (n : Fin 12), s.hw.mainUp = true ∧ s.hw.laneState n = 7) ∧
    (∃ (s : State) (n : Fin 12) (v : BitVec 2), s.hw.mainUp = true ∧ v ≠ 3 ∧ s.hw.laneState n ≠ 4 ∧ s.hw.laneState n ≠ 7 ∧ s.hw.laneState n ≠ 8) ∧
    (∃ (s : State) (n : Fin 8), s.hw.mainUp = true ∧ s.hw.laneState n = 4 ∧ s.hw.get (R.LANE_CTL_PWR n) = 1 ∧ (s.hw.ethPort n).next = [] ∧ (s.hw.ethPort n).tx.any (fun x => x.started) = true) ∧
    (∃ (s : State) (n : Fin 12) (locked : Bool) (d : Nat), s.hw.mainUp = true ∧ (s.hw.laneState n = 7 ∨ s.hw.laneState n = 8 ∧ locked = true) ∧ tget s.hw.timers (.laneExit n) = some d ∧ s.hw.get (R.LANE_CTL_PWR n) = 0) ∧
    (∃ (s : State) (n : Fin 12) (d : Nat), s.hw.mainUp = true ∧ s.hw.laneState n = 8 ∧ tget s.hw.timers (.laneExit n) = some d) ∧
    (∃ (s : State) (n : Fin 12) (locked : Bool), s.hw.mainUp = true ∧ s.hw.laneState n ≠ 7 ∧ s.hw.laneState n ≠ 8) ∧
    (∃ (s : State) (n : Fin 12), s.hw.mainUp = true ∧ s.hw.checking n = true ∧ s.hw.flag (R.LANE_TEST_LOCK n) = false) ∧
    (∃ (s : State) (n : Fin 12), s.hw.mainUp = true ∧ (s.hw.checking n = false ∨ s.hw.flag (R.LANE_TEST_LOCK n) = true)) ∧
    (∃ (s : State) (n : Fin 12) (blocks : List Nat), s.hw.mainUp = true ∧ s.hw.checking n = true ∧ s.hw.flag (R.LANE_TEST_LOCK n) = true ∧ blocks.all (fun w => decide (w < 32)) = true) ∧
    (∃ (s : State) (n : Fin 12) (l : List Nat) (w : Nat) (rest : List Nat), s.hw.mainUp = true ∧ s.hw.checking n = true ∧ s.hw.flag (R.LANE_TEST_LOCK n) = true ∧ l.all (fun w => decide (w < 32)) = true ∧ 32 ≤ w ∧ w ≤ 1024) ∧
    (∃ (s : State) (n : Fin 12) (blocks : List Nat), s.hw.mainUp = true ∧ (s.hw.checking n = false ∨ s.hw.flag (R.LANE_TEST_LOCK n) = false)) ∧
    (∃ (s : State) (n : Fin 12), s.hw.mainUp = true ∧ s.hw.laneState n = 9 ∧ (s.hw.get (R.LANE_TEST_MODE n)).testBit 0 = true ∧ (s.hw.get (R.LANE_TEST_INJ n) = 1 ∨ s.hw.get (R.LANE_TEST_INJ n) = 2)) ∧
    (∃ (s : State) (n : Fin 12), s.hw.mainUp = true ∧ (¬ (s.hw.laneState n = 9 ∧ (s.hw.get (R.LANE_TEST_MODE n)).testBit 0 = true ∧ (s.hw.get (R.LANE_TEST_INJ n) = 1 ∨ s.hw.get (R.LANE_TEST_INJ n) = 2)))) ∧
    (∃ (s : State) (n : Fin 12), s.hw.mainUp = true) :=
  ⟨⟨wit (fun h => h), 3, by decide +kernel⟩,
   ⟨wit (fun h => ((h.set (R.LANE_STAT_STATE 3) 4)).startAt (.lane 3) 9000000), 3, 2, by decide +kernel⟩,
   ⟨wit (fun h => ((h.set (R.LANE_STAT_STATE 3) 8)).startAt (.lane 3) 9000000), 3, by decide +kernel⟩,
   ⟨wit (fun h => ((h.set (R.LANE_STAT_STATE 3) 7)).startAt (.lane 3) 9000000), 3, by decide +kernel⟩,
   ⟨wit (fun h => ((h.set (R.LANE_STAT_STATE 3) 1)).startAt (.lane 3) 9000000), 3, 1, by decide +kernel⟩,
   ⟨wit (fun h => (((h.set (R.LANE_STAT_STATE 3) 4).set (R.LANE_CTL_PWR 3) 1).startAt (.lane 3) 9000000).modEth 3 fun p => { p with tx := some ⟨5, true, true, 0, 0, ⟨1, 0⟩, true, 0⟩ }), 3, by decide +kernel⟩,
   ⟨wit (fun h => (h.set (R.LANE_STAT_STATE 3) 7).startAt (.laneExit 3) 9000000), 3, false, 9000000, by decide +kernel⟩,
   ⟨wit (fun h => (h.set (R.LANE_STAT_STATE 3) 8).startAt (.laneExit 3) 9000000), 3, 9000000, by decide +kernel⟩,
   ⟨wit (fun h => h), 3, true, by decide +kernel⟩,
   ⟨wit (fun h => ((h.set (R.LANE_STAT_STATE 3) 9).set (R.LANE_TEST_MODE 3) 3)), 3, by decide +kernel⟩,
   ⟨wit (fun h => h), 3, by decide +kernel⟩,
   ⟨wit (fun h => ((h.set (R.LANE_STAT_STATE 3) 9).set (R.LANE_TEST_MODE 3) 3).set (R.LANE_TEST_LOCK 3) 1), 3, ([0, 7, 31]), by decide +kernel⟩,
   ⟨wit (fun h => ((h.set (R.LANE_STAT_STATE 3) 9).set (R.LANE_TEST_MODE 3) 3).set (R.LANE_TEST_LOCK 3) 1), 3, ([5, 31]), 32, ([9, 99]), by decide +kernel⟩,
   ⟨wit (fun h => h), 3, ([1, 40]), by decide +kernel⟩,
   ⟨wit (fun h => ((h.set (R.LANE_STAT_STATE 3) 9).set (R.LANE_TEST_MODE 3) 3).set (R.LANE_TEST_INJ 3) 2), 3, by decide +kernel⟩,
   ⟨wit (fun h => h), 3, by decide +kernel⟩,
   ⟨wit (fun h => h), 3, by decide +kernel⟩⟩

theorem witness_CascadeReception :
    (∃ (s : State) (i : Fin 4) (raw : List Byte) (op : BitVec 16), s.hw.mainUp = true ∧ (s.hw.laneState (8 + i) ≠ 4 ∨ s.hw.laneTakes (8 + i) = false)) ∧
    (∃ (s : State) (i : Fin 4) (raw : List Byte) (op : BitVec 16), s.hw.mainUp = true ∧ s.hw.laneState (8 + i) = 4 ∧ s.hw.laneTakes (8 + i) = true ∧ s.hw.hopState i = 3 ∧ (s.hw.hop i).arriving.all (fun a => a.copies.isEmpty) = true) ∧
    (∃ (s : State) (i : Fin 4) (raw : List Byte) (op : BitVec 16), s.hw.mainUp = true ∧ s.hw.laneState (8 + i) = 4 ∧ s.hw.laneTakes (8 + i) = true ∧ s.hw.hopState i ≤ 1 ∧ (s.hw.hop i).arriving.all (fun a => a.copies.isEmpty) = true) ∧
    (∃ (s : State) (i : Fin 4) (raw : List Byte) (op : BitVec 16), s.hw.mainUp = true ∧ s.hw.laneState (8 + i) = 4 ∧ s.hw.laneTakes (8 + i) = true ∧ s.hw.hopState i = 2 ∧ (s.hw.hop i).arriving.all (fun a => a.copies.isEmpty) = true ∧ (raw.length ≠ 24 ∨ field16 raw 14 ≠ hcrc (raw.take 14) ∨ headerSound raw op.toNat = false)) ∧
    (∃ (s : State) (i : Fin 4) (raw : List Byte) (op : BitVec 16) (a : HopArrival) (e id : Nat) (f : TransitFrame), s.hw.mainUp = true ∧ s.hw.laneState (8 + i) = 4 ∧ s.hw.laneTakes (8 + i) = true ∧ s.hw.hopState i ≤ 1 ∧ (s.hw.hop i).arriving = some a ∧ a.copies = [(e, id)] ∧ e < 4 ∧ s.hw.transitFrame e id = some f) ∧
    (∃ (s : State) (i : Fin 4) (raw : List Byte) (op : BitVec 16), s.hw.mainUp = true ∧ s.hw.laneState (8 + i) = 4 ∧ s.hw.laneTakes (8 + i) = true ∧ s.hw.hopState i = 2 ∧ (s.hw.hop i).arriving.all (fun a => a.copies.isEmpty) = true ∧ raw.length = 24 ∧ field16 raw 14 = hcrc (raw.take 14) ∧ headerSound raw op.toNat = true ∧ s.hw.hopBlocked i = true ∧ hdrType raw ≠ 3) ∧
    (∃ (s : State) (i : Fin 4) (raw : List Byte) (op : BitVec 16) (hdr : List Byte), s.hw.mainUp = true ∧ s.hw.laneState (8 + i) = 4 ∧ s.hw.laneTakes (8 + i) = true ∧ s.hw.hopState i = 2 ∧ (s.hw.hop i).arriving.all (fun a => a.copies.isEmpty) = true ∧ raw.length = 24 ∧ field16 raw 14 = hcrc (raw.take 14) ∧ headerSound raw op.toNat = true ∧ (s.hw.hopBlocked i = false ∨ hdrType raw = 3) ∧ hdr = s.hw.receiveCfa i raw ∧ (s.hw.transitHops i hdr).1 = []) ∧
    (∃ (s : State) (i : Fin 4) (raw : List Byte) (op : BitVec 16) (hdr : List Byte) (e : Nat), s.hw.mainUp = true ∧ s.hw.laneState (8 + i) = 4 ∧ s.hw.laneTakes (8 + i) = true ∧ s.hw.hopState i = 2 ∧ (s.hw.hop i).arriving.all (fun a => a.copies.isEmpty) = true ∧ raw.length = 24 ∧ field16 raw 14 = hcrc (raw.take 14) ∧ headerSound raw op.toNat = true ∧ (s.hw.hopBlocked i = false ∨ hdrType raw = 3) ∧ hdr = s.hw.receiveCfa i raw ∧ s.hw.transitHops i hdr = ([e], none) ∧ e < 4 ∧ s.hw.hopState e = 2 ∧ s.hw.laneState (8 + e) = 4 ∧ (if hdrTc hdr = 7 then decide ((s.hw.hop e).expressUsed + 1546 ≤ 8192) else decide ((s.hw.hop e).bestUsed + 16324 ≤ 65536)) = true) ∧
    (∃ (s : State) (i : Fin 4) (raw : List Byte) (op : BitVec 16) (hdr : List Byte) (e : Nat), s.hw.mainUp = true ∧ s.hw.laneState (8 + i) = 4 ∧ s.hw.laneTakes (8 + i) = true ∧ s.hw.hopState i = 2 ∧ (s.hw.hop i).arriving.all (fun a => a.copies.isEmpty) = true ∧ raw.length = 24 ∧ field16 raw 14 = hcrc (raw.take 14) ∧ headerSound raw op.toNat = true ∧ (s.hw.hopBlocked i = false ∨ hdrType raw = 3) ∧ hdr = s.hw.receiveCfa i raw ∧ s.hw.transitHops i hdr = ([e], none) ∧ e < 4 ∧ (s.hw.hopState e = 3 ∨ s.hw.hopState e ≤ 1 ∨ s.hw.laneState (8 + e) ≠ 4)) ∧
    (∃ (s : State) (i : Fin 4) (pl : List Byte) (crc : CrcFinding), s.hw.mainUp = true ∧ (s.hw.hop i).arriving = none) ∧
    (∃ (s : State) (i : Fin 4) (pl : List Byte) (crc : CrcFinding) (a : HopArrival), s.hw.mainUp = true ∧ (s.hw.hop i).arriving = some a ∧ a.copies = [] ∧ (a.deliver = true ∧ a.ctrl = false ∧ (a.request = false ∨ crc ≠ .correct))) ∧
    (∃ (s : State) (i : Fin 4) (pl : List Byte) (a : HopArrival), s.hw.mainUp = true ∧ (s.hw.hop i).arriving = some a ∧ a.copies = [] ∧ a.deliver = true ∧ a.ctrl = false ∧ a.request = true) ∧
    (∃ (s : State) (i : Fin 4) (pl : List Byte) (crc : CrcFinding) (a : HopArrival) (e id : Nat) (f : TransitFrame), s.hw.mainUp = true ∧ (s.hw.hop i).arriving = some a ∧ a.copies = [(e, id)] ∧ e < 4 ∧ a.deliver = false ∧ s.hw.transitFrame e id = some f ∧ f.express = false ∧ f.started = false) ∧
    (∃ (s : State) (i : Fin 4) (pl : List Byte) (crc : CrcFinding) (a : HopArrival) (e id : Nat) (f : TransitFrame), s.hw.mainUp = true ∧ (s.hw.hop i).arriving = some a ∧ a.copies = [(e, id)] ∧ e < 4 ∧ a.deliver = false ∧ s.hw.transitFrame e id = some f ∧ f.express = false ∧ f.started = true) :=
  ⟨⟨wit (fun h => h), 1, [], 0, by decide +kernel⟩,
   ⟨wit (fun h => ((((h).set (R.LANE_FSTAT_STATE 9) 2).set (R.UZL_FSTAT_STATE 1) 3).set (R.LANE_STAT_STATE 9) 4)), 1, [], 0, by decide +kernel⟩,
   ⟨wit (fun h => ((((h).set (R.LANE_FSTAT_STATE 9) 2).set (R.UZL_FSTAT_STATE 1) 1).set (R.LANE_STAT_STATE 9) 4)), 1, [], 0, by decide +kernel⟩,
   ⟨wit (fun h => ((((h).set (R.LANE_FSTAT_STATE 9) 2).set (R.UZL_FSTAT_STATE 1) 2).set (R.LANE_STAT_STATE 9) 4)), 1, ((List.replicate 24 0)), 0, by decide +kernel⟩,
   ⟨wit (fun h => (((((((h).set (R.LANE_FSTAT_STATE 9) 2).set (R.UZL_FSTAT_STATE 1) 1).set (R.LANE_STAT_STATE 9) 4))).modHop 2 fun p => { p with best := [⟨5, header 7 9 5 0 0 0, some [1, 2, 3], false, false, false, 8, 31, ⟨0, 0⟩, some 0, false, false⟩], bestUsed := 900 }).modHop 1 fun p => { p with arriving := some ⟨header 7 9 5 0 0 0, false, false, false, ⟨3, 4⟩, [(2, 5)]⟩ }), 1, [], 0, (⟨header 7 9 5 0 0 0, false, false, false, ⟨3, 4⟩, [(2, 5)]⟩), 2, 5, (⟨5, header 7 9 5 0 0 0, some [1, 2, 3], false, false, false, 8, 31, ⟨0, 0⟩, some 0, false, false⟩), by decide +kernel⟩,
   ⟨wit (fun h => (((((h).set (R.LANE_FSTAT_STATE 9) 2).set (R.UZL_FSTAT_STATE 1) 2).set (R.LANE_STAT_STATE 9) 4)).blockHop 1), 1, ((header 7 9 5 0 0 0)), 0, by decide +kernel⟩,
   ⟨wit (fun h => ((((h).set (R.LANE_FSTAT_STATE 9) 2).set (R.UZL_FSTAT_STATE 1) 2).set (R.LANE_STAT_STATE 9) 4)), 1, ((header 7 9 5 0 0 0)), 0, ((header 7 9 5 0 0 0)), by decide +kernel⟩,
   ⟨wit (fun h => (((((((((h).set (R.LANE_FSTAT_STATE 10) 2).set (R.UZL_FSTAT_STATE 2) 2).set (R.LANE_STAT_STATE 10) 4)).set (R.LANE_FSTAT_STATE 9) 2).set (R.UZL_FSTAT_STATE 1) 2).set (R.LANE_STAT_STATE 9) 4)).setRoutes [(7, (2, false))]), 1, ((header 7 9 5 0 7 0)), 0, ((header 7 9 5 0 7 0)), 2, by decide +kernel⟩,
   ⟨wit (fun h => (((((h).set (R.LANE_FSTAT_STATE 9) 2).set (R.UZL_FSTAT_STATE 1) 2).set (R.LANE_STAT_STATE 9) 4)).setRoutes [(7, (2, false))]), 1, ((header 7 9 5 0 7 0)), 0, ((header 7 9 5 0 7 0)), 2, by decide +kernel⟩,
   ⟨wit (fun h => h), 1, [1], .correct, by decide +kernel⟩,
   ⟨wit (fun h => (h).modHop 1 fun p => { p with arriving := some ⟨header 7 9 5 0 0 0, true, false, false, ⟨3, 4⟩, []⟩ }), 1, ([1, 2]), .correct, (⟨header 7 9 5 0 0 0, true, false, false, ⟨3, 4⟩, []⟩), by decide +kernel⟩,
   ⟨wit (fun h => (h).modHop 1 fun p => { p with arriving := some ⟨header 7 9 5 0 0 0, true, true, false, ⟨3, 4⟩, []⟩ }), 1, ([1, 2]), (⟨header 7 9 5 0 0 0, true, true, false, ⟨3, 4⟩, []⟩), by decide +kernel⟩,
   ⟨wit (fun h => ((h).modHop 2 fun p => { p with best := [⟨5, header 7 9 5 0 0 0, some [1, 2, 3], false, false, false, 8, 31, ⟨0, 0⟩, some 0, false, false⟩], bestUsed := 900 }).modHop 1 fun p => { p with arriving := some ⟨header 7 9 5 0 0 0, false, false, false, ⟨3, 4⟩, [(2, 5)]⟩ }), 1, ([1, 2]), .wrong, (⟨header 7 9 5 0 0 0, false, false, false, ⟨3, 4⟩, [(2, 5)]⟩), 2, 5, (⟨5, header 7 9 5 0 0 0, some [1, 2, 3], false, false, false, 8, 31, ⟨0, 0⟩, some 0, false, false⟩), by decide +kernel⟩,
   ⟨wit (fun h => ((h).modHop 2 fun p => { p with best := [⟨5, header 7 9 5 0 0 0, none, false, false, false, 8, 31, ⟨0, 0⟩, some 0, false, true⟩], bestUsed := 900, tx := some ⟨false, 0, 0, false, some 0, 0⟩ }).modHop 1 fun p => { p with arriving := some ⟨header 7 9 5 0 0 0, false, false, false, ⟨3, 4⟩, [(2, 5)]⟩ }), 1, ([1, 2]), .wrong, (⟨header 7 9 5 0 0 0, false, false, false, ⟨3, 4⟩, [(2, 5)]⟩), 2, 5, (⟨5, header 7 9 5 0 0 0, none, false, false, false, 8, 31, ⟨0, 0⟩, some 0, false, true⟩), by decide +kernel⟩⟩

theorem witness_CascadeSending :
    (∃ (s : State) (e : Fin 4) (c : Instr) (n : Fin 80), s.hw.mainUp = true ∧ n.val = 8 + e.val ∧ (c = .hopSendSelect e ∨ c = .egressRequest n) ∧ (s.hw.hopUp e = false ∨ (s.hw.hop e).tx.any (fun x => x.unfinished) = true ∨ s.hw.laneTakes (8 + e) = false ∧ (s.hw.hop e).tx = none ∧ (s.hw.hop e).suspended = none)) ∧
    (∃ (s : State) (e : Fin 4) (c : Instr) (n : Fin 80) (f : TransitFrame) (pl : List Byte), s.hw.mainUp = true ∧ n.val = 8 + e.val ∧ (c = .hopSendSelect e ∨ c = .egressRequest n) ∧ s.hw.hopUp e = true ∧ s.hw.laneTakes (8 + e) = true ∧ (s.hw.hop e).tx.all (fun x => !x.unfinished && decide (x.endAt ≤ s.hw.et)) = true ∧ s.hw.get (R.LANE_CTL_PWR (8 + e)) = 0 ∧ s.hw.lineHead e (s.hw.hop e).express = some f ∧ (s.hw.hopBlocked e = true ∨ s.hw.strictSeq e = none) ∧ f.payload = some pl ∧ f.express = true ∧ f.started = false) ∧
    (∃ (s : State) (e : Fin 4) (c : Instr) (n : Fin 80) (x : HopTx), s.hw.mainUp = true ∧ n.val = 8 + e.val ∧ (c = .hopSendSelect e ∨ c = .egressRequest n) ∧ s.hw.hopUp e = true ∧ s.hw.laneTakes (8 + e) = true ∧ (s.hw.hop e).tx.all (fun x => !x.unfinished && decide (x.endAt ≤ s.hw.et)) = true ∧ s.hw.get (R.LANE_CTL_PWR (8 + e)) = 0 ∧ s.hw.lineHead e (s.hw.hop e).express = none ∧ (s.hw.hopBlocked e = true ∨ s.hw.strictSeq e = none) ∧ (s.hw.hop e).suspended = some x) ∧
    (∃ (s : State) (e : Fin 4) (c : Instr) (n : Fin 80), s.hw.mainUp = true ∧ n.val = 8 + e.val ∧ (c = .hopSendSelect e ∨ c = .egressRequest n) ∧ s.hw.hopUp e = true ∧ s.hw.laneTakes (8 + e) = true ∧ (s.hw.hop e).tx.all (fun x => !x.unfinished && decide (x.endAt ≤ s.hw.et)) = true ∧ s.hw.get (R.LANE_CTL_PWR (8 + e)) = 0 ∧ s.hw.lineHead e (s.hw.hop e).express = none ∧ (s.hw.hopBlocked e = true ∨ s.hw.strictSeq e = none) ∧ (s.hw.hop e).suspended = none ∧ (s.hw.hop e).helloDue = true) ∧
    (∃ (s : State) (e : Fin 4) (c : Instr) (n : Fin 80) (q id : Nat) (f : Frame), s.hw.mainUp = true ∧ n.val = 8 + e.val ∧ (c = .hopSendSelect e ∨ c = .egressRequest n) ∧ s.hw.hopUp e = true ∧ s.hw.laneTakes (8 + e) = true ∧ (s.hw.hop e).tx.all (fun x => !x.unfinished && decide (x.endAt ≤ s.hw.et)) = true ∧ s.hw.get (R.LANE_CTL_PWR (8 + e)) = 0 ∧ s.hw.lineHead e (s.hw.hop e).express = none ∧ (s.hw.hopBlocked e = true ∨ s.hw.strictSeq e = none) ∧ (s.hw.hop e).suspended = none ∧ (s.hw.hop e).helloDue = false ∧ (s.hw.hop e).transitLast = true ∧ s.hw.hopBlocked e = false ∧ (s.hw.select anyQueue s.hw.onlyFair (8 + e)).2 = some (q, id) ∧ f = s.hw.frame id ∧ s.hw.flag (R.CKR_POOL_CFG_LOC f.pool) = false ∧ s.hw.frameFault 22 f = none ∧ (f.act = 0 ∨ f.act = 3) ∧ s.hw.flag R.UZL_STAT_FLOOD = false ∧ 24 ≤ (patchBytes (patchBytes (s.hw.leavingBytes f) 4 (bytesBE 4 (s.hw.get R.UZL_ID_ID))) 11 (bytesBE 1 (32 * f.tc + byteAt (patchBytes (s.hw.leavingBytes f) 4 (bytesBE 4 (s.hw.get R.UZL_ID_ID))) 11 % 32))).length ∧ headerSound (patchBytes (patchBytes (s.hw.leavingBytes f) 4 (bytesBE 4 (s.hw.get R.UZL_ID_ID))) 11 (bytesBE 1 (32 * f.tc + byteAt (patchBytes (s.hw.leavingBytes f) 4 (bytesBE 4 (s.hw.get R.UZL_ID_ID))) 11 % 32))) (field16 (patchBytes (patchBytes (s.hw.leavingBytes f) 4 (bytesBE 4 (s.hw.get R.UZL_ID_ID))) 11 (bytesBE 1 (32 * f.tc + byteAt (patchBytes (s.hw.leavingBytes f) 4 (bytesBE 4 (s.hw.get R.UZL_ID_ID))) 11 % 32))) 24) = true) ∧
    (∃ (s : State) (n : Fin 12) (k : Nat), s.hw.mainUp = true ∧ 8 ≤ n.val ∧ (s.hw.hop (n.val - 8)).tx = none) ∧
    (∃ (s : State) (n : Fin 12) (k : Nat) (x : HopTx), s.hw.mainUp = true ∧ 8 ≤ n.val ∧ (s.hw.hop (n.val - 8)).tx = some x) ∧
    (∃ (s : State), s.hw.mainUp = true ∧ s.hw.uzovi.requests = []) ∧
    (∃ (s : State) (q : RemoteRequest) (rest : List RemoteRequest) (a : Nat) (bs : List Byte) (e : Fin 4), s.hw.mainUp = true ∧ s.hw.uzovi.requests = q :: rest ∧ a = ofBytesBE ((q.payload.drop 4).take 5) ∧ a % 4 = 0 ∧ ((q.payload.drop 9).take 3).all (· == 0) = true ∧ byteAt q.payload 0 = 1 ∧ isRegister a = false ∧ (s.hw.busRead 22 a 4).2 = some bs ∧ s.hw.hopFor q.src = some e.val ∧ s.hw.hopState e = 2 ∧ s.hw.laneState (8 + e) = 4 ∧ (s.hw.hop e).bestUsed + 16324 ≤ 65536) ∧
    (∃ (s : State) (q : RemoteRequest) (rest : List RemoteRequest) (a v : Nat) (e : Fin 4), s.hw.mainUp = true ∧ s.hw.uzovi.requests = q :: rest ∧ a = ofBytesBE ((q.payload.drop 4).take 5) ∧ a % 4 = 0 ∧ ((q.payload.drop 9).take 3).all (· == 0) = true ∧ byteAt q.payload 0 = 2 ∧ v = ofBytesBE ((q.payload.drop 12).take 4) ∧ 0x20000 ≤ a ∧ isRegister a = false ∧ (s.hw.busWrite 22 a (bytesLE 4 v)).2 = true ∧ s.hw.hopFor q.src = some e.val ∧ s.hw.hopState e = 2 ∧ s.hw.laneState (8 + e) = 4 ∧ (s.hw.hop e).bestUsed + 16324 ≤ 65536) ∧
    (∃ (s : State) (q : RemoteRequest) (rest : List RemoteRequest) (a : Nat) (e : Fin 4), s.hw.mainUp = true ∧ s.hw.uzovi.requests = q :: rest ∧ a = ofBytesBE ((q.payload.drop 4).take 5) ∧ a % 4 = 0 ∧ ((q.payload.drop 9).take 3).all (· == 0) = true ∧ byteAt q.payload 0 = 1 ∧ isRegister a = false ∧ s.hw.memFault 22 a false ≠ 0 ∧ s.hw.hopFor q.src = some e.val ∧ s.hw.hopState e = 2 ∧ s.hw.laneState (8 + e) = 4 ∧ (s.hw.hop e).bestUsed + 16324 ≤ 65536) ∧
    (∃ (s : State) (q : RemoteRequest) (rest : List RemoteRequest), s.hw.mainUp = true ∧ s.hw.uzovi.requests = q :: rest ∧ (byteAt q.payload 0 = 0 ∨ 2 < byteAt q.payload 0 ∨ ofBytesBE ((q.payload.drop 4).take 5) % 4 ≠ 0)) :=
  ⟨⟨wit (fun h => h), 1, (.egressRequest 9), 9, by decide +kernel⟩,
   ⟨wit (fun h => (((((h).set (R.LANE_FSTAT_STATE 9) 2).set (R.UZL_FSTAT_STATE 1) 2).set (R.LANE_STAT_STATE 9) 4)).modHop 1 fun p => { p with express := [⟨5, header 7 9 5 0 7 0, some [1, 2, 3], false, true, false, 8, 31, ⟨0, 0⟩, some 0, false, false⟩] }), 1, (.egressRequest 9), 9, (⟨5, header 7 9 5 0 7 0, some [1, 2, 3], false, true, false, 8, 31, ⟨0, 0⟩, some 0, false, false⟩), ([1, 2, 3]), by decide +kernel⟩,
   ⟨wit (fun h => (((((h).set (R.LANE_FSTAT_STATE 9) 2).set (R.UZL_FSTAT_STATE 1) 2).set (R.LANE_STAT_STATE 9) 4)).modHop 1 fun p => { p with suspended := some ⟨false, 500, 100, true, some 0, 0⟩ }), 1, (.egressRequest 9), 9, (⟨false, 500, 100, true, some 0, 0⟩), by decide +kernel⟩,
   ⟨wit (fun h => (((((h).set (R.LANE_FSTAT_STATE 9) 2).set (R.UZL_FSTAT_STATE 1) 2).set (R.LANE_STAT_STATE 9) 4)).modHop 1 fun p => { p with helloDue := true }), 1, (.egressRequest 9), 9, by decide +kernel⟩,
   ⟨wit (fun h => ((((((((((h).set (R.LANE_FSTAT_STATE 9) 2).set (R.UZL_FSTAT_STATE 1) 2).set (R.LANE_STAT_STATE 9) 4)).set R.UZL_ID_ID 0x55).set (R.TM_Q_FSTAT_STATE 8200) 2).set (R.TM_Q_W6_EGRESS 8200) 9).set (R.TM_Q_W7_WEIGHT 8200) 1).setFrame 5 ⟨2, 40, false, 1, [0x10000000], 0, false, 0, ⟨0, 0⟩, none, none, .none, some 8200, 0, 0, 0, 1, 0, []⟩ |>.setQueue 8200 [5] |>.setBytes 0x10000040 (header 7 9 5 0 0 0 ++ List.replicate 16 3)).modHop 1 fun p => { p with transitLast := true }), 1, (.egressRequest 9), 9, 8200, 5, (⟨2, 40, false, 1, [0x10000000], 0, false, 0, ⟨0, 0⟩, none, none, .none, some 8200, 0, 0, 0, 1, 0, []⟩), by decide +kernel⟩,
   ⟨wit (fun h => h), 9, 60, by decide +kernel⟩,
   ⟨wit (fun h => (((((h).set (R.LANE_FSTAT_STATE 9) 2).set (R.UZL_FSTAT_STATE 1) 2).set (R.LANE_STAT_STATE 9) 4)).modHop 1 fun p => { p with tx := some ⟨false, 500, 0, false, some 0, 9000000⟩, express := [⟨5, header 7 9 5 0 7 0, some [1, 2, 3], false, true, false, 8, 31, ⟨0, 0⟩, some 0, false, false⟩] }), 9, 100, (⟨false, 500, 0, false, some 0, 9000000⟩), by decide +kernel⟩,
   ⟨wit (fun h => h), by decide +kernel⟩,
   ⟨wit (fun h => let h := ((((h).set (R.LANE_FSTAT_STATE 9) 2).set (R.UZL_FSTAT_STATE 1) 2).set (R.LANE_STAT_STATE 9) 4); { h with uzovi := { h.uzovi with requests := [⟨9, bytesBE 1 1 ++ [0, 0xAB, 0xCD] ++ bytesBE 5 0x10000000 ++ [0, 0, 0] ++ bytesBE 4 0x11223344⟩], routes := [(9, (1, false))] } }), (⟨9, bytesBE 1 1 ++ [0, 0xAB, 0xCD] ++ bytesBE 5 0x10000000 ++ [0, 0, 0] ++ bytesBE 4 0x11223344⟩), [], 0x10000000, ([0, 0, 0, 0]), 1, by decide +kernel⟩,
   ⟨wit (fun h => let h := ((((h).set (R.LANE_FSTAT_STATE 9) 2).set (R.UZL_FSTAT_STATE 1) 2).set (R.LANE_STAT_STATE 9) 4); { h with uzovi := { h.uzovi with requests := [⟨9, bytesBE 1 2 ++ [0, 0xAB, 0xCD] ++ bytesBE 5 0x10000000 ++ [0, 0, 0] ++ bytesBE 4 0x11223344⟩], routes := [(9, (1, false))] } }), (⟨9, bytesBE 1 2 ++ [0, 0xAB, 0xCD] ++ bytesBE 5 0x10000000 ++ [0, 0, 0] ++ bytesBE 4 0x11223344⟩), [], 0x10000000, 0x11223344, 1, by decide +kernel⟩,
   ⟨wit (fun h => let h := ((((h).set (R.LANE_FSTAT_STATE 9) 2).set (R.UZL_FSTAT_STATE 1) 2).set (R.LANE_STAT_STATE 9) 4); { h with uzovi := { h.uzovi with requests := [⟨9, bytesBE 1 1 ++ [0, 0xAB, 0xCD] ++ bytesBE 5 0x18000000 ++ [0, 0, 0] ++ bytesBE 4 0x11223344⟩], routes := [(9, (1, false))] } }), (⟨9, bytesBE 1 1 ++ [0, 0xAB, 0xCD] ++ bytesBE 5 0x18000000 ++ [0, 0, 0] ++ bytesBE 4 0x11223344⟩), [], 0x18000000, 1, by decide +kernel⟩,
   ⟨wit (fun h => let h := ((((h).set (R.LANE_FSTAT_STATE 9) 2).set (R.UZL_FSTAT_STATE 1) 2).set (R.LANE_STAT_STATE 9) 4); { h with uzovi := { h.uzovi with requests := [⟨9, bytesBE 1 7 ++ [0, 0xAB, 0xCD] ++ bytesBE 5 0x18000000 ++ [0, 0, 0] ++ bytesBE 4 0x11223344⟩], routes := [(9, (1, false))] } }), (⟨9, bytesBE 1 7 ++ [0, 0xAB, 0xCD] ++ bytesBE 5 0x18000000 ++ [0, 0, 0] ++ bytesBE 4 0x11223344⟩), [], by decide +kernel⟩⟩

theorem witness_CascadeNeighboursRingAndRoutes :
    (∃ (s : State) (i : Fin 4) (d : Nat), s.hw.mainUp = true ∧ tget s.hw.timers (.hello i) = some d ∧ s.hw.hopUp i = true) ∧
    (∃ (s : State) (i : Fin 4) (d : Nat), s.hw.mainUp = true ∧ tget s.hw.timers (.hello i) = some d ∧ s.hw.hopUp i = false) ∧
    (∃ (s : State) (i : Fin 4) (sender : BitVec 32) (nbr : Fin 4) (ring owner : Bool) (id1 id2 : BitVec 32) (c : Instr), s.hw.mainUp = true ∧ (s.hw.hopUp i = false ∨ s.hw.laneTakes (8 + i) = false) ∧ (c = .helloReceived i sender nbr ring owner ∨ c = .ringFail i id1 id2 ∨ c = .ringRestore i id1 id2 ∨ c = .ringClear i id1)) ∧
    (∃ (s : State) (i : Fin 4) (sender : BitVec 32) (nbr : Fin 4) (ring owner : Bool), s.hw.mainUp = true ∧ s.hw.hopUp i = true ∧ s.hw.laneTakes (8 + i) = true ∧ (s.hw.hop i).failed = false) ∧
    (∃ (s : State) (i : Fin 4) (sender : BitVec 32) (nbr : Fin 4) (ring owner : Bool), s.hw.mainUp = true ∧ s.hw.hopUp i = true ∧ s.hw.laneTakes (8 + i) = true ∧ (s.hw.hop i).failed = true ∧ (s.hw.hop i).hellos = 2 ∧ s.hw.get R.UZL_RING_HOP_A ≠ s.hw.get R.UZL_RING_HOP_B ∧ s.hw.flag R.UZL_RING_EN = true ∧ s.hw.isOwner = false) ∧
    (∃ (s : State) (i : Fin 4) (d : Nat), s.hw.mainUp = true ∧ tget s.hw.timers (.neighbour i) = some d ∧ s.hw.isRingHop i = false) ∧
    (∃ (s : State) (i : Fin 4), s.hw.mainUp = true ∧ s.hw.flag (R.UZL_NBR_STAT_DOWN i) = true) ∧
    (∃ (s : State) (i : Fin 4), s.hw.mainUp = true ∧ s.hw.flag (R.UZL_NBR_STAT_DOWN i) = false ∧ s.hw.isRingHop i = false) ∧
    (∃ (s : State) (i : Fin 4), s.hw.mainUp = true ∧ s.hw.flag (R.UZL_NBR_STAT_DOWN i) = false ∧ s.hw.isRingHop i = true ∧ s.hw.get R.UZL_RING_HOP_A ≠ s.hw.get R.UZL_RING_HOP_B) ∧
    (∃ (s : State) (i : Fin 4) (id1 id2 : BitVec 32) (c : Instr), s.hw.mainUp = true ∧ s.hw.hopUp i = true ∧ s.hw.laneTakes (8 + i) = true ∧ s.hw.isRingHop i = false ∧ (c = .ringFail i id1 id2 ∨ c = .ringRestore i id1 id2 ∨ c = .ringClear i id1)) ∧
    (∃ (s : State) (i : Fin 4) (id1 id2 : BitVec 32), s.hw.mainUp = true ∧ s.hw.hopUp i = true ∧ s.hw.laneTakes (8 + i) = true ∧ s.hw.isRingHop i = true ∧ s.hw.get R.UZL_RING_HOP_A ≠ s.hw.get R.UZL_RING_HOP_B) ∧
    (∃ (s : State) (i : Fin 4) (id1 id2 : BitVec 32), s.hw.mainUp = true ∧ s.hw.hopUp i = true ∧ s.hw.laneTakes (8 + i) = true ∧ s.hw.isRingHop i = true ∧ s.hw.get R.UZL_RING_HOP_A ≠ s.hw.get R.UZL_RING_HOP_B) ∧
    (∃ (s : State) (i : Fin 4) (id1 : BitVec 32), s.hw.mainUp = true ∧ s.hw.hopUp i = true ∧ s.hw.laneTakes (8 + i) = true ∧ s.hw.isRingHop i = true ∧ s.hw.get R.UZL_RING_HOP_A ≠ s.hw.get R.UZL_RING_HOP_B) ∧
    (∃ (s : State) (d : Nat), s.hw.mainUp = true ∧ tget s.hw.timers .wtr = some d ∧ s.hw.get R.UZL_RING_HOP_A ≠ s.hw.get R.UZL_RING_HOP_B ∧ s.hw.flag R.UZL_RING_EN = true) ∧
    (∃ (s : State), s.hw.mainUp = true) ∧
    (∃ (s : State), s.hw.mainUp = true) ∧
    (∃ (s : State), s.hw.mainUp = true) :=
  ⟨⟨wit (fun h => (((((h).set (R.LANE_FSTAT_STATE 9) 2).set (R.UZL_FSTAT_STATE 1) 2).set (R.LANE_STAT_STATE 9) 4)).startAt (.hello 1) 9000000), 1, 9000000, by decide +kernel⟩,
   ⟨wit (fun h => h.startAt (.hello 1) 9000000), 1, 9000000, by decide +kernel⟩,
   ⟨wit (fun h => h), 1, 5, 2, true, false, 1, 2, (.ringClear 1 1), by decide +kernel⟩,
   ⟨wit (fun h => ((((h).set (R.LANE_FSTAT_STATE 9) 2).set (R.UZL_FSTAT_STATE 1) 2).set (R.LANE_STAT_STATE 9) 4)), 1, 0x1234, 2, true, false, by decide +kernel⟩,
   ⟨wit (fun h => (((((((((((((h).set (R.LANE_FSTAT_STATE 10) 2).set (R.UZL_FSTAT_STATE 2) 2).set (R.LANE_STAT_STATE 10) 4)).set (R.LANE_FSTAT_STATE 9) 2).set (R.UZL_FSTAT_STATE 1) 2).set (R.LANE_STAT_STATE 9) 4)).set R.UZL_RING_EN 1).set R.UZL_RING_HOP_A 1).set R.UZL_RING_HOP_B 2)).modHop 1 fun p => { p with failed := true, hellos := 2 }), 1, 0x1234, 2, true, false, by decide +kernel⟩,
   ⟨wit (fun h => (h.startAt (.neighbour 1) 9000000).set (R.UZL_NBR_STAT_VALID 1) 1), 1, 9000000, by decide +kernel⟩,
   ⟨wit (fun h => h.set (R.UZL_NBR_STAT_DOWN 1) 1), 1, by decide +kernel⟩,
   ⟨wit (fun h => h.set (R.UZL_NBR_STAT_DOWN 1) 0), 1, by decide +kernel⟩,
   ⟨wit (fun h => (((((((((((((h).set (R.LANE_FSTAT_STATE 10) 2).set (R.UZL_FSTAT_STATE 2) 2).set (R.LANE_STAT_STATE 10) 4)).set (R.LANE_FSTAT_STATE 9) 2).set (R.UZL_FSTAT_STATE 1) 2).set (R.LANE_STAT_STATE 9) 4)).set R.UZL_RING_EN 1).set R.UZL_RING_HOP_A 1).set R.UZL_RING_HOP_B 2)).set (R.UZL_NBR_STAT_DOWN 2) 0), 2, by decide +kernel⟩,
   ⟨wit (fun h => ((((h).set (R.LANE_FSTAT_STATE 9) 2).set (R.UZL_FSTAT_STATE 1) 2).set (R.LANE_STAT_STATE 9) 4)), 1, 1, 2, (.ringClear 1 1), by decide +kernel⟩,
   ⟨wit (fun h => (((((((((((((h).set (R.LANE_FSTAT_STATE 10) 2).set (R.UZL_FSTAT_STATE 2) 2).set (R.LANE_STAT_STATE 10) 4)).set (R.LANE_FSTAT_STATE 9) 2).set (R.UZL_FSTAT_STATE 1) 2).set (R.LANE_STAT_STATE 9) 4)).set R.UZL_RING_EN 1).set R.UZL_RING_HOP_A 1).set R.UZL_RING_HOP_B 2)).set R.UZL_RING_OWNER 1 |>.blockHop 1), 2, 5, 6, by decide +kernel⟩,
   ⟨wit (fun h => (((((((((((((h).set (R.LANE_FSTAT_STATE 10) 2).set (R.UZL_FSTAT_STATE 2) 2).set (R.LANE_STAT_STATE 10) 4)).set (R.LANE_FSTAT_STATE 9) 2).set (R.UZL_FSTAT_STATE 1) 2).set (R.LANE_STAT_STATE 9) 4)).set R.UZL_RING_EN 1).set R.UZL_RING_HOP_A 1).set R.UZL_RING_HOP_B 2)).set R.UZL_RING_OWNER 1), 2, 5, 6, by decide +kernel⟩,
   ⟨wit (fun h => ((((((((((((((h).set (R.LANE_FSTAT_STATE 10) 2).set (R.UZL_FSTAT_STATE 2) 2).set (R.LANE_STAT_STATE 10) 4)).set (R.LANE_FSTAT_STATE 9) 2).set (R.UZL_FSTAT_STATE 1) 2).set (R.LANE_STAT_STATE 9) 4)).set R.UZL_RING_EN 1).set R.UZL_RING_HOP_A 1).set R.UZL_RING_HOP_B 2)).set R.UZL_STAT_FLOOD 1).blockHop 2 |>.modHop 2 fun p => { p with failed := true }), 2, 5, by decide +kernel⟩,
   ⟨wit (fun h => (((((((((((((h).set (R.LANE_FSTAT_STATE 10) 2).set (R.UZL_FSTAT_STATE 2) 2).set (R.LANE_STAT_STATE 10) 4)).set (R.LANE_FSTAT_STATE 9) 2).set (R.UZL_FSTAT_STATE 1) 2).set (R.LANE_STAT_STATE 9) 4)).set R.UZL_RING_EN 1).set R.UZL_RING_HOP_A 1).set R.UZL_RING_HOP_B 2)).startAt .wtr 9000000), 9000000, by decide +kernel⟩,
   ⟨wit (fun h => (h.setWord R.UZL_RT_ARG0 7).setWord R.UZL_RT_ARG1 6), by decide +kernel⟩,
   ⟨wit (fun h => (h.setWord R.UZL_RT_ARG0 7).setRoutes [(7, (2, true)), (9, (1, true))]), by decide +kernel⟩,
   ⟨wit (fun h => h.setRoutes [(7, (2, true)), (9, (1, true))]), by decide +kernel⟩⟩

theorem witness_NetworkTimeCommands :
    (∃ (s : State), s.hw.mainUp = true ∧ s.hw.tbLock = true) ∧
    (∃ (s : State), s.hw.mainUp = true ∧ s.hw.tbLock = false) ∧
    (∃ (s : State) (c : Instr), s.hw.mainUp = true ∧ (c = .timeSet ∨ c = .timeStep) ∧ s.hw.flag R.TIME_STAT_HOLD = true) ∧
    (∃ (s : State), s.hw.mainUp = true ∧ s.hw.flag R.TIME_STAT_HOLD = false ∧ s.hw.adjStamp.2 = false ∧ s.hw.tbLock = true) ∧
    (∃ (s : State), s.hw.mainUp = true ∧ s.hw.flag R.TIME_STAT_HOLD = false ∧ s.hw.adjStamp.2 = true ∧ s.hw.tbLock = true ∧ s.hw.flag R.TIME_STAT_NT_VALID = true ∧ s.hw.flag R.TIME_CTL_STEP_EN = false) ∧
    (∃ (s : State), s.hw.mainUp = true ∧ s.hw.flag R.TIME_STAT_HOLD = false ∧ s.hw.adjStamp.2 = true ∧ s.hw.tbLock = true ∧ (s.hw.flag R.TIME_STAT_NT_VALID = false ∨ s.hw.flag R.TIME_CTL_STEP_EN = true)) ∧
    (∃ (s : State), s.hw.mainUp = true ∧ s.hw.flag R.TIME_STAT_HOLD = false ∧ s.hw.tbLock = true ∧ s.hw.flag R.TIME_STAT_NT_VALID = true ∧ s.hw.flag R.TIME_CTL_STEP_EN = false) ∧
    (∃ (s : State), s.hw.mainUp = true ∧ s.hw.flag R.TIME_STAT_HOLD = false ∧ s.hw.tbLock = true ∧ (s.hw.flag R.TIME_STAT_NT_VALID = false ∨ s.hw.flag R.TIME_CTL_STEP_EN = true)) ∧
    (∃ (s : State), s.hw.mainUp = true) ∧
    (∃ (s : State), s.hw.mainUp = true ∧ s.hw.tbLock = true) ∧
    (∃ (s : State), s.hw.mainUp = true ∧ s.hw.tbLock = false ∧ s.hw.ps ≠ psDiagnostic) ∧
    (∃ (s : State) (c : Instr), s.hw.mainUp = true ∧ (c = .tbLockLost ∧ s.hw.tbLock = false ∨ c = .tbLockAcquired ∧ (s.hw.tbLock = true ∨ s.hw.ps = psDiagnostic))) :=
  ⟨⟨wit (fun h => ({ h with tbLock := true, et := 1000, nt := 5 * ntSecond + 7, rem := -5000000 }).set R.TIME_RATE_RATE 21990233), by decide +kernel⟩,
   ⟨wit (fun h => h), by decide +kernel⟩,
   ⟨wit (fun h => h.set R.TIME_STAT_HOLD 1), .timeSet, by decide +kernel⟩,
   ⟨wit (fun h => ({ h with tbLock := true, et := 1000, nt := 5 * ntSecond + 7 }).set (R.TIME_ADJ_W_W 1) 0x10000), by decide +kernel⟩,
   ⟨wit (fun h => (({ h with tbLock := true, et := 1000, nt := 5 * ntSecond + 7 }).set (R.TIME_ADJ_W_W 2) 9).set R.TIME_STAT_NT_VALID 1), by decide +kernel⟩,
   ⟨wit (fun h => ({ h with tbLock := true, et := 1000, nt := 5 * ntSecond + 7 }).set (R.TIME_ADJ_W_W 2) 9), by decide +kernel⟩,
   ⟨wit (fun h => (({ h with tbLock := true, et := 1000, nt := 5 * ntSecond + 7 }).set (R.TIME_ADJ_W_W 1) 0xFFFFFFFF).set R.TIME_STAT_NT_VALID 1), by decide +kernel⟩,
   ⟨wit (fun h => ({ h with tbLock := true, et := 1000, nt := 5 * ntSecond + 7 }).set (R.TIME_ADJ_W_W 1) 0xFFFFFFFF), by decide +kernel⟩,
   ⟨wit (fun h => { h with rem := 5 }), by decide +kernel⟩,
   ⟨wit (fun h => (({ h with tbLock := true, et := 1000, nt := 5 * ntSecond + 7 }).setPulse 3 ⟨none, true⟩).startAt (.ppsOff 3) 9000000), by decide +kernel⟩,
   ⟨wit (fun h => h), by decide +kernel⟩,
   ⟨wit (fun h => h), .tbLockLost, by decide +kernel⟩⟩

theorem witness_PathStepsAndHolds :
    (∃ (s : State) (p : Fin 15) (v : Word), s.hw.mainUp = true ∧ (s.hw.flag R.TIME_STAT_HOLD = true ∧ s.hw.time.holdPort = some p.val)) ∧
    (∃ (s : State) (p : Fin 15) (v : Word), s.hw.mainUp = true ∧ ¬ (s.hw.flag R.TIME_STAT_HOLD = true ∧ s.hw.time.holdPort = some p.val) ∧ s.hw.flag (R.TIME_PSTAT_REF_VALID p) = false) ∧
    (∃ (s : State) (p : Fin 15) (v : Word), s.hw.mainUp = true ∧ ¬ (s.hw.flag R.TIME_STAT_HOLD = true ∧ s.hw.time.holdPort = some p.val) ∧ s.hw.flag (R.TIME_PSTAT_REF_VALID p) = true ∧ s.hw.get R.TIME_PATH_CFG_THRESH * 2 ^ 16 < (v.toInt - s.hw.getI (R.TIME_PATH_REF_REF p)).natAbs ∧ p.val = s.hw.get R.TIME_SERVO_PORT ∧ s.hw.get R.TIME_PATH_CFG_HOLD_N ≠ 0 ∧ s.hw.flag R.TIME_STAT_HOLD = false) ∧
    (∃ (s : State) (p : Fin 15) (v : Word), s.hw.mainUp = true ∧ ¬ (s.hw.flag R.TIME_STAT_HOLD = true ∧ s.hw.time.holdPort = some p.val) ∧ s.hw.flag (R.TIME_PSTAT_REF_VALID p) = true ∧ s.hw.get R.TIME_PATH_CFG_THRESH * 2 ^ 16 < (v.toInt - s.hw.getI (R.TIME_PATH_REF_REF p)).natAbs ∧ ¬ (p.val = s.hw.get R.TIME_SERVO_PORT ∧ s.hw.get R.TIME_PATH_CFG_HOLD_N ≠ 0 ∧ s.hw.flag R.TIME_STAT_HOLD = false)) ∧
    (∃ (s : State) (p : Fin 15) (v : Word), s.hw.mainUp = true ∧ ¬ (s.hw.flag R.TIME_STAT_HOLD = true ∧ s.hw.time.holdPort = some p.val) ∧ s.hw.flag (R.TIME_PSTAT_REF_VALID p) = true ∧ ¬ s.hw.get R.TIME_PATH_CFG_THRESH * 2 ^ 16 < (v.toInt - s.hw.getI (R.TIME_PATH_REF_REF p)).natAbs) ∧
    (∃ (s : State) (p d : Nat), s.hw.mainUp = true ∧ p < 15 ∧ s.hw.time.holdPort = some p ∧ tget s.hw.timers .servoHold = some d) ∧
    (∃ (s : State) (p : Nat), s.hw.mainUp = true ∧ p < 15 ∧ s.hw.time.holdPort = some p) ∧
    (∃ (s : State), s.hw.mainUp = true ∧ s.hw.time.holdPort = none) ∧
    (∃ (s : State) (p : Fin 15), s.hw.mainUp = true) ∧
    (∃ (s : State) (n : Fin 4) (rising : Bool), s.hw.mainUp = true ∧ s.hw.tbLock = true ∧ (s.hw.get (R.TIME_CAP_CTL_EDGE n)).testBit (if rising then 0 else 1) = true ∧ (s.hw.caps n).length < 4) ∧
    (∃ (s : State) (n : Fin 4) (rising : Bool), s.hw.mainUp = true ∧ s.hw.tbLock = true ∧ (s.hw.get (R.TIME_CAP_CTL_EDGE n)).testBit (if rising then 0 else 1) = true ∧ 4 ≤ (s.hw.caps n).length) ∧
    (∃ (s : State) (n : Fin 4) (rising : Bool), s.hw.mainUp = true ∧ (s.hw.tbLock = false ∨ (s.hw.get (R.TIME_CAP_CTL_EDGE n)).testBit (if rising then 0 else 1) = false)) ∧
    (∃ (s : State) (n : Fin 4), s.hw.mainUp = true) :=
  ⟨⟨wit (fun h => ({ h.set R.TIME_STAT_HOLD 1 with time := { h.time with holdPort := some 4 } }).startAt .servoHold 9000000), 4, 7, by decide +kernel⟩,
   ⟨wit (fun h => h), 4, 0xFFFFFFFF, by decide +kernel⟩,
   ⟨wit (fun h => ((h.set (R.TIME_PSTAT_REF_VALID 4) 1).set R.TIME_SERVO_PORT 4).set R.TIME_PATH_CFG_HOLD_N 16), 4, 0x00FFFFFF, by decide +kernel⟩,
   ⟨wit (fun h => (h.set (R.TIME_PSTAT_REF_VALID 5) 1).set R.TIME_SERVO_PORT 4), 5, 0x00FFFFFF, by decide +kernel⟩,
   ⟨wit (fun h => h.set (R.TIME_PSTAT_REF_VALID 5) 1), 5, 3, by decide +kernel⟩,
   ⟨wit (fun h => ({ h.set R.TIME_STAT_HOLD 1 with time := { h.time with holdPort := some 4 } }).startAt .servoHold 9000000), 4, 9000000, by decide +kernel⟩,
   ⟨wit (fun h => ({ h.set R.TIME_STAT_HOLD 1 with time := { h.time with holdPort := some 4 } }).startAt .servoHold 9000000), 4, by decide +kernel⟩,
   ⟨wit (fun h => h), by decide +kernel⟩,
   ⟨wit (fun h => h), 4, by decide +kernel⟩,
   ⟨wit (fun h => ({ h with tbLock := true, et := 1000, nt := 5 * ntSecond + 7 }).set (R.TIME_CAP_CTL_EDGE 2) 2), 2, false, by decide +kernel⟩,
   ⟨wit (fun h => (({ h with tbLock := true, et := 1000, nt := 5 * ntSecond + 7 }).set (R.TIME_CAP_CTL_EDGE 2) 3).setCaps 2 (List.replicate 4 ⟨⟨1, 2⟩, true, false, 0⟩)), 2, false, by decide +kernel⟩,
   ⟨wit (fun h => ({ h with tbLock := true, et := 1000, nt := 5 * ntSecond + 7 }).set (R.TIME_CAP_CTL_EDGE 2) 1), 2, false, by decide +kernel⟩,
   ⟨wit (fun h => h), 2, by decide +kernel⟩⟩

theorem witness_PulseOutputs :
    (∃ (s : State) (n : Fin 8) (v : Word), s.hw.mainUp = true ∧ s.hw.ppsMode n ≠ 0 ∧ (fieldOf v (R.TIME_PPS_CTL_MODE n)) ≠ 0 ∧ (fieldOf v (R.TIME_PPS_CTL_MODE n)) ≠ 3 ∧ (fieldOf v (R.TIME_PPS_CTL_MODE n)) ≠ s.hw.ppsMode n) ∧
    (∃ (s : State) (n : Fin 8) (v : Word), s.hw.mainUp = true ∧ ((fieldOf v (R.TIME_PPS_CTL_MODE n)) = 3 ∨ (fieldOf v (R.TIME_PPS_CTL_MODE n)) = s.hw.ppsMode n)) ∧
    (∃ (s : State) (n : Fin 8) (v : Word), s.hw.mainUp = true ∧ s.hw.ppsMode n ≠ 0 ∧ (fieldOf v (R.TIME_PPS_CTL_MODE n)) = 0) ∧
    (∃ (s : State) (n : Fin 8) (v : Word), s.hw.mainUp = true ∧ s.hw.ppsMode n = 0 ∧ ((fieldOf v (R.TIME_PPS_CTL_MODE n)) = 1 ∨ (fieldOf v (R.TIME_PPS_CTL_MODE n)) = 2) ∧ (s.hw.writeFields (R.TIME_PPS_CTL n) v).ppsSound n (fieldOf v (R.TIME_PPS_CTL_MODE n)) = false) ∧
    (∃ (s : State) (n : Fin 8) (v : Word), s.hw.mainUp = true ∧ s.hw.ppsMode n = 0 ∧ (fieldOf v (R.TIME_PPS_CTL_MODE n)) = 2 ∧ (s.hw.writeFields (R.TIME_PPS_CTL n) v).ppsSound n 2 = true) ∧
    (∃ (s : State) (n : Fin 8) (v : Word), s.hw.mainUp = true ∧ s.hw.ppsMode n = 0 ∧ (fieldOf v (R.TIME_PPS_CTL_MODE n)) = 1 ∧ (s.hw.writeFields (R.TIME_PPS_CTL n) v).ppsSound n 1 = true ∧ (s.hw.writeFields (R.TIME_PPS_CTL n) v).ppsPast n ≤ 0) ∧
    (∃ (s : State) (n : Fin 8) (v : Word), s.hw.mainUp = true ∧ s.hw.ppsMode n = 0 ∧ (fieldOf v (R.TIME_PPS_CTL_MODE n)) = 1 ∧ (s.hw.writeFields (R.TIME_PPS_CTL n) v).ppsSound n 1 = true ∧ 0 < (s.hw.writeFields (R.TIME_PPS_CTL n) v).ppsPast n ∧ s.hw.tbLock = true) ∧
    (∃ (s : State) (n : Fin 8) (k : Nat), s.hw.mainUp = true ∧ (s.hw.ppsMode n = 1 ∨ s.hw.ppsMode n = 2) ∧ (s.hw.pulse n).next = some k ∧ s.hw.tbLock = true ∧ s.hw.ppsElapsed n = true) ∧
    (∃ (s : State) (n : Fin 8) (k T : Nat), s.hw.mainUp = true ∧ (s.hw.ppsMode n = 1 ∨ s.hw.ppsMode n = 2) ∧ (s.hw.pulse n).next = some k ∧ s.hw.ppsElapsed n = false ∧ T = (s.hw.ppsStart n + k * s.hw.ppsPeriod n) % ntTurn ∧ s.hw.tbLock = true ∧ (s.hw.advanceToNt T).ntReached T = true) ∧
    (∃ (s : State) (n : Fin 8), s.hw.mainUp = true ∧ ((s.hw.pulse n).next = none ∨ s.hw.tbLock = false)) ∧
    (∃ (s : State) (n : Fin 8) (d : Nat), s.hw.mainUp = true ∧ tget s.hw.timers (.ppsOff n) = some d) :=
  ⟨⟨wit (fun h => h.set (R.TIME_PPS_CTL_MODE 3) 1 |>.set (R.TIME_PPS_CTL_SRC 3) 1 |>.set (R.TIME_PPS_START_W_START 3 0) 4000000 |>.set (R.TIME_PPS_PERIOD_PERIOD 3) 100 |>.set (R.TIME_PPS_WIDTH_WIDTH 3) 20), 3, 2, by decide +kernel⟩,
   ⟨wit (fun h => h.set (R.TIME_PPS_CTL_MODE 3) 1 |>.set (R.TIME_PPS_CTL_SRC 3) 1 |>.set (R.TIME_PPS_START_W_START 3 0) 4000000 |>.set (R.TIME_PPS_PERIOD_PERIOD 3) 100 |>.set (R.TIME_PPS_WIDTH_WIDTH 3) 20), 3, 3, by decide +kernel⟩,
   ⟨wit (fun h => h.set (R.TIME_PPS_CTL_MODE 3) 1 |>.set (R.TIME_PPS_CTL_SRC 3) 1 |>.set (R.TIME_PPS_START_W_START 3 0) 4000000 |>.set (R.TIME_PPS_PERIOD_PERIOD 3) 100 |>.set (R.TIME_PPS_WIDTH_WIDTH 3) 20), 3, 0, by decide +kernel⟩,
   ⟨wit (fun h => h.set (R.TIME_PPS_CTL_MODE 3) 0 |>.set (R.TIME_PPS_CTL_SRC 3) 1 |>.set (R.TIME_PPS_START_W_START 3 0) 4000000 |>.set (R.TIME_PPS_PERIOD_PERIOD 3) 100 |>.set (R.TIME_PPS_WIDTH_WIDTH 3) 20 |>.set (R.TIME_PPS_WIDTH_WIDTH 3) 100), 3, 2, by decide +kernel⟩,
   ⟨wit (fun h => h.set (R.TIME_PPS_CTL_MODE 3) 0 |>.set (R.TIME_PPS_CTL_SRC 3) 1 |>.set (R.TIME_PPS_START_W_START 3 0) 4000000 |>.set (R.TIME_PPS_PERIOD_PERIOD 3) 100 |>.set (R.TIME_PPS_WIDTH_WIDTH 3) 20), 3, 6, by decide +kernel⟩,
   ⟨wit (fun h => h.set (R.TIME_PPS_CTL_MODE 3) 0 |>.set (R.TIME_PPS_CTL_SRC 3) 1 |>.set (R.TIME_PPS_START_W_START 3 0) 4000000 |>.set (R.TIME_PPS_PERIOD_PERIOD 3) 100 |>.set (R.TIME_PPS_WIDTH_WIDTH 3) 20), 3, 5, by decide +kernel⟩,
   ⟨wit (fun h => { (h.set (R.TIME_PPS_CTL_MODE 3) 0 |>.set (R.TIME_PPS_CTL_SRC 3) 1 |>.set (R.TIME_PPS_START_W_START 3 0) 4000000 |>.set (R.TIME_PPS_PERIOD_PERIOD 3) 100 |>.set (R.TIME_PPS_WIDTH_WIDTH 3) 20) with tbLock := true, et := 5000000 }), 3, 5, by decide +kernel⟩,
   ⟨wit (fun h => ({ (h.set (R.TIME_PPS_CTL_MODE 3) 1 |>.set (R.TIME_PPS_CTL_SRC 3) 1 |>.set (R.TIME_PPS_START_W_START 3 0) 4000000 |>.set (R.TIME_PPS_PERIOD_PERIOD 3) 100 |>.set (R.TIME_PPS_WIDTH_WIDTH 3) 20) with tbLock := true }).setPulse 3 ⟨some 0, false⟩), 3, 0, by decide +kernel⟩,
   ⟨wit (fun h => ({ (h.set (R.TIME_PPS_CTL_MODE 3) 1 |>.set (R.TIME_PPS_CTL_SRC 3) 1 |>.set (R.TIME_PPS_START_W_START 3 0) 4000000 |>.set (R.TIME_PPS_PERIOD_PERIOD 3) 100 |>.set (R.TIME_PPS_WIDTH_WIDTH 3) 20 |>.set (R.TIME_PPS_CTL_SRC 3) 0) with tbLock := true }).setPulse 3 ⟨some 0, false⟩), 3, 0, ((4000000 * 2 ^ 32)), by decide +kernel⟩,
   ⟨wit (fun h => h), 3, by decide +kernel⟩,
   ⟨wit (fun h => h.startAt (.ppsOff 3) 9000000), 3, 9000000, by decide +kernel⟩⟩

theorem witness_ArbiterDecision :
    (∃ (s : State) (t : Fin 67) (pre : Bool) (e : EccFinding), s.hw.mainUp = true ∧ (s.hw.arbiter t).waiting = []) ∧
    (∃ (s : State) (t : Fin 67) (pre : Bool) (e : EccFinding) (r : Request), s.hw.mainUp = true ∧ t.val < 32 ∧ targetOf r.addr = some t.val ∧ s.hw.firstWaiting t (·.parked) = some r) ∧
    (∃ (s : State) (t : Fin 67) (pre : Bool) (e : EccFinding) (r : Request), s.hw.mainUp = true ∧ t.val < 32 ∧ targetOf r.addr = some t.val ∧ s.hw.firstWaiting t (·.parked) = none ∧ s.hw.firstWaiting t s.hw.emergency = some r) ∧
    (∃ (s : State) (t : Fin 67) (pre : Bool) (e : EccFinding) (r : Request) (m : Nat), s.hw.mainUp = true ∧ t.val < 32 ∧ targetOf r.addr = some t.val ∧ s.hw.firstWaiting t (·.parked) = none ∧ s.hw.firstWaiting t s.hw.emergency = none ∧ s.hw.forcedMaster t = some m ∧ s.hw.firstWaiting t (s.hw.ordinaryOf m) = some r) ∧
    (∃ (s : State) (t : Fin 67) (pre : Bool) (e : EccFinding) (r : Request), s.hw.mainUp = true ∧ t.val < 32 ∧ targetOf r.addr = some t.val ∧ s.hw.firstWaiting t (·.parked) = none ∧ s.hw.firstWaiting t s.hw.emergency = none ∧ s.hw.forcedMaster t = none ∧ s.hw.firstWaiting t (·.express) = some r) ∧
    (∃ (s : State) (t : Fin 67) (pre : Bool) (e : EccFinding) (r : Request) (m n : Nat), s.hw.mainUp = true ∧ t.val < 32 ∧ targetOf r.addr = some t.val ∧ s.hw.firstWaiting t (·.parked) = none ∧ s.hw.firstWaiting t s.hw.emergency = none ∧ s.hw.forcedMaster t = none ∧ s.hw.firstWaiting t (·.express) = none ∧ (s.hw.arbiter t).turn = some (m, n + 1) ∧ s.hw.turnRequest t = some r) ∧
    (∃ (s : State) (t : Fin 67) (pre : Bool) (e : EccFinding) (r : Request) (m : Nat), s.hw.mainUp = true ∧ t.val < 32 ∧ targetOf r.addr = some t.val ∧ s.hw.firstWaiting t (·.parked) = none ∧ s.hw.firstWaiting t s.hw.emergency = none ∧ s.hw.forcedMaster t = none ∧ s.hw.firstWaiting t (·.express) = none ∧ s.hw.turnRequest t = none ∧ s.hw.inRotation t (fun _ => true) = some m ∧ s.hw.firstWaiting t (s.hw.ordinaryOf m) = some r) :=
  ⟨⟨wit (fun h => h), 66, true, .clean, by decide +kernel⟩,
   ⟨wit (fun h => (h).setArbiter 0 ⟨[⟨20, none, false, 0x10000000, 8, none, false, true⟩], [], 0, none, some 20, none⟩), 0, false, .clean, (⟨20, none, false, 0x10000000, 8, none, false, true⟩), by decide +kernel⟩,
   ⟨wit (fun h => (h.set R.ILT_DBG_STAT_LEVEL 2).setArbiter 0 ⟨[⟨3, none, false, 0x10000000, 8, none, false, false⟩, ⟨25, none, false, 0x10000000, 8, none, false, false⟩], [(3, 200)], 0, none, none, some (17, 3)⟩), 0, true, .clean, (⟨25, none, false, 0x10000000, 8, none, false, false⟩), by decide +kernel⟩,
   ⟨wit (fun h => (h.set (R.SHK_ARB_CFG_LIMIT 0) 3).setArbiter 0 ⟨[⟨21, none, false, 0x10000000, 8, none, true, false⟩, ⟨10, none, false, 0x10000000, 8, none, false, false⟩, ⟨8, some 3, true, 0x10000000, 8, none, false, false⟩], [(10, 3)], 0, some 21, none, some (21, 2)⟩), 0, false, .clean, (⟨10, none, false, 0x10000000, 8, none, false, false⟩), 10, by decide +kernel⟩,
   ⟨wit (fun h => (h).setArbiter 0 ⟨[⟨21, none, false, 0x10000000, 8, none, true, false⟩, ⟨8, some 3, true, 0x10000000, 8, none, false, false⟩, ⟨9, some 35, true, 0x10000000, 8, none, false, false⟩], [], 16, none, none, some (21, 2)⟩), 0, false, .clean, (⟨8, some 3, true, 0x10000000, 8, none, false, false⟩), by decide +kernel⟩,
   ⟨wit (fun h => (h).setArbiter 0 ⟨[⟨3, none, false, 0x10000000, 8, none, false, false⟩, ⟨21, none, false, 0x10000000, 8, none, true, false⟩], [], 0, none, none, some (21, 4)⟩), 0, false, .clean, (⟨21, none, false, 0x10000000, 8, none, true, false⟩), 21, 3, by decide +kernel⟩,
   ⟨wit (fun h => (h.set (R.SHK_ARB_CFG_TURN_MAX 0) 4).setArbiter 0 ⟨[⟨3, none, false, 0x10000000, 8, none, false, false⟩, ⟨21, none, false, 0x10000000, 8, none, true, false⟩], [], 0, some 3, none, none⟩), 0, false, .clean, (⟨21, none, false, 0x10000000, 8, none, true, false⟩), 21, by decide +kernel⟩⟩

theorem witness_GrantedAccesses :
    (∃ (s : State) (t : Fin 67) (pre : Bool) (e : EccFinding) (g : GrantRule) (r : Request), s.hw.mainUp = true ∧ s.hw.grantChoice t = some (g, r) ∧ r.thread = none ∧ s.hw.permits t r.master r.addr r.data.isSome = false) ∧
    (∃ (s : State) (t : Fin 67) (pre : Bool) (e : EccFinding) (r : Request) (g : GrantRule), s.hw.mainUp = true ∧ s.hw.grantChoice t = some (g, r) ∧ r.thread = none ∧ t.val < 32 ∧ targetOf r.addr = some t.val ∧ isRegister r.addr = false ∧ s.hw.memoryAt r.addr = true ∧ 0x20000 ≤ r.addr ∧ s.hw.permits t r.master r.addr r.data.isSome = true ∧ r.data = none ∧ e ≠ .uncorrectable) ∧
    (∃ (s : State) (t : Fin 67) (pre : Bool) (e : EccFinding) (r : Request) (g : GrantRule), s.hw.mainUp = true ∧ s.hw.grantChoice t = some (g, r) ∧ r.thread = none ∧ t.val < 32 ∧ targetOf r.addr = some t.val ∧ isRegister r.addr = false ∧ s.hw.memoryAt r.addr = true ∧ 0x20000 ≤ r.addr ∧ s.hw.permits t r.master r.addr r.data.isSome = true ∧ (r.data.isNone = true ∨ merges r.addr r.size = true) ∧ e = .uncorrectable) ∧
    (∃ (s : State) (t : Fin 67) (pre : Bool) (e : EccFinding) (r : Request) (g : GrantRule), s.hw.mainUp = true ∧ s.hw.grantChoice t = some (g, r) ∧ r.thread = none ∧ t.val < 32 ∧ targetOf r.addr = some t.val ∧ isRegister r.addr = false ∧ s.hw.memoryAt r.addr = true ∧ 0x20000 ≤ r.addr ∧ s.hw.permits t r.master r.addr r.data.isSome = true ∧ r.data.isSome = true ∧ (merges r.addr r.size = false ∨ e ≠ .uncorrectable)) ∧
    (∃ (s : State) (t : Fin 67) (pre : Bool) (e : EccFinding) (r : Request) (g : GrantRule), s.hw.mainUp = true ∧ s.hw.grantChoice t = some (g, r) ∧ r.thread = none ∧ 32 ≤ t.val ∧ t.val < 40 ∧ s.hw.permits t r.master r.addr r.data.isSome = true ∧ isRegister r.addr = false ∧ 0x20000 ≤ r.addr ∧ isEngineRegion r.addr = false ∧ s.hw.memoryAt r.addr = true ∧ r.data = none) ∧
    (∃ (s : State) (t : Fin 67) (pre : Bool) (e : EccFinding) (r : Request) (g : GrantRule), s.hw.mainUp = true ∧ s.hw.grantChoice t = some (g, r) ∧ r.thread = none ∧ 32 ≤ t.val ∧ t.val < 40 ∧ s.hw.permits t r.master r.addr r.data.isSome = true ∧ isRegister r.addr = false ∧ 0x20000 ≤ r.addr ∧ isEngineRegion r.addr = false ∧ s.hw.memoryAt r.addr = true ∧ r.data.isSome = true) ∧
    (∃ (s : State) (t : Fin 67) (pre : Bool) (e : EccFinding) (r : Request) (g : GrantRule), s.hw.mainUp = true ∧ s.hw.grantChoice t = some (g, r) ∧ r.thread = none ∧ 32 ≤ t.val ∧ t.val < 40 ∧ s.hw.permits t r.master r.addr r.data.isSome = true ∧ isRegister r.addr = false ∧ 0x20000 ≤ r.addr ∧ isEngineRegion r.addr = false ∧ s.hw.memoryAt r.addr = false) ∧
    (∃ (s : State) (t : Fin 67) (pre : Bool) (e : EccFinding) (r : Request) (g : GrantRule), s.hw.mainUp = true ∧ (t.val = 40 ∨ t.val = 41) ∧ s.hw.grantChoice t.val = some (g, r) ∧ r.thread.all (fun u => decide (s.hw.waitOf r ≠ .unit) && (s.hw.packetFailure u).isNone) = true ∧ s.hw.permits t.val r.master r.addr r.data.isSome = true ∧ isRegister r.addr = false ∧ s.hw.memoryAt r.addr = true) :=
  ⟨⟨wit (fun h => (h).setArbiter 43 ⟨[⟨3, none, false, 0x30000000, 8, (some [1,2,3,4,5,6,7,8]), false, false⟩], [], 0, none, none, none⟩), 43, false, .clean, .rotation, (⟨3, none, false, 0x30000000, 8, (some [1,2,3,4,5,6,7,8]), false, false⟩), by decide +kernel⟩,
   ⟨wit (fun h => (h.setBytes 0x10000000 [1,2,3,4,5,6,7,8]).setArbiter 0 ⟨[⟨3, none, false, 0x10000000, 8, none, false, false⟩], [], 0, none, none, none⟩), 0, false, .corrected, (⟨3, none, false, 0x10000000, 8, none, false, false⟩), .rotation, by decide +kernel⟩,
   ⟨wit (fun h => (h).setArbiter 0 ⟨[⟨3, none, false, 0x10000000, 2, (some [1,2]), false, false⟩], [], 0, none, none, none⟩), 0, false, .uncorrectable, (⟨3, none, false, 0x10000000, 2, (some [1,2]), false, false⟩), .rotation, by decide +kernel⟩,
   ⟨wit (fun h => (h).setArbiter 0 ⟨[⟨3, none, false, 0x10000000, 8, (some [1,2,3,4,5,6,7,8]), false, false⟩], [], 0, none, none, none⟩), 0, false, .uncorrectable, (⟨3, none, false, 0x10000000, 8, (some [1,2,3,4,5,6,7,8]), false, false⟩), .rotation, by decide +kernel⟩,
   ⟨wit (fun h => (h).setArbiter 33 ⟨[⟨3, none, false, 0x20100000, 2, none, false, false⟩], [], 0, none, none, none⟩), 33, false, .clean, (⟨3, none, false, 0x20100000, 2, none, false, false⟩), .rotation, by decide +kernel⟩,
   ⟨wit (fun h => (h).setArbiter 33 ⟨[⟨3, none, false, 0x20100000, 2, (some [1,2]), false, false⟩], [], 0, none, none, none⟩), 33, false, .clean, (⟨3, none, false, 0x20100000, 2, (some [1,2]), false, false⟩), .rotation, by decide +kernel⟩,
   ⟨wit (fun h => (h).setArbiter 33 ⟨[⟨3, none, false, 0x20130000, 2, none, false, false⟩], [], 0, none, none, none⟩), 33, false, .clean, (⟨3, none, false, 0x20130000, 2, none, false, false⟩), .rotation, by decide +kernel⟩,
   ⟨wit (fun h => (h.set R.DRC_STAT_STATE 2).setArbiter 41 ⟨[⟨3, none, false, 0x1000000100, 8, none, false, false⟩], [], 0, none, none, none⟩), 41, false, .clean, (⟨3, none, false, 0x1000000100, 8, none, false, false⟩), .rotation, by decide +kernel⟩⟩

theorem witness_RegisterAccesses :
    (∃ (s : State) (m : Fin 27) (a : BitVec 40) (v : Word), s.hw.mainUp = true ∧ isRegister a.toNat = true ∧ s.hw.permits ((targetOf a.toNat).getD 0) m a.toNat true = false) ∧
    (∃ (s : State) (m : Fin 27) (a : BitVec 40) (v : Word), s.hw.mainUp = true ∧ (isRegister a.toNat = false ∨ s.hw.permits ((targetOf a.toNat).getD 0) m a.toNat true = true) ∧ registerAccess a.toNat 4 = false) ∧
    (∃ (s : State) (m : Fin 27) (p : Fin 15) (v : Word), s.hw.mainUp = true ∧ s.hw.permits ((targetOf (R.TIME_ASYM p)).getD 0) m (R.TIME_ASYM p) true = true) ∧
    (∃ (s : State) (m : Fin 27) (n : Fin 12) (v : Word), s.hw.mainUp = true ∧ s.hw.permits ((targetOf (R.LANE_NEG_ID n)).getD 0) m (R.LANE_NEG_ID n) true = true) ∧
    (∃ (s : State) (m : Fin 27) (v : Word), s.hw.mainUp = true ∧ s.hw.permits ((targetOf (R.TIME_STAT)).getD 0) m (R.TIME_STAT) true = true) ∧
    (∃ (s : State) (m : Fin 27) (p : Fin 15) (v : Word), s.hw.mainUp = true ∧ s.hw.permits ((targetOf (R.TIME_LOST p)).getD 0) m (R.TIME_LOST p) true = true) ∧
    (∃ (s : State) (m : Fin 27) (v : Word), s.hw.mainUp = true ∧ s.hw.permits ((targetOf (R.HEEL_CMP_CFG)).getD 0) m (R.HEEL_CMP_CFG) true = true) ∧
    (∃ (s : State) (r : Fin 320) (a : BitVec 40) (wide : Bool), s.hw.mainUp = true ∧ (r.val < 27 ∨ 64 ≤ r.val) ∧ isRegister a.toNat = true ∧ s.hw.permits ((targetOf a.toNat).getD 0) (masterOf r) a.toNat false = false) ∧
    (∃ (s : State) (r : Fin 320) (a : BitVec 40) (wide : Bool), s.hw.mainUp = true ∧ (r.val < 27 ∨ 64 ≤ r.val) ∧ (isRegister a.toNat = false ∨ s.hw.permits ((targetOf a.toNat).getD 0) (masterOf r) a.toNat false = true) ∧ registerAccess a.toNat (if wide then 8 else 4) = false) ∧
    (∃ (s : State) (r : Fin 320), s.hw.mainUp = true ∧ (r.val < 27 ∨ 64 ≤ r.val) ∧ s.hw.permits ((targetOf R.TIME_ET_LO).getD 0) (masterOf r) R.TIME_ET_LO false = true) ∧
    (∃ (s : State) (r : Fin 320) (w : Word), s.hw.mainUp = true ∧ (r.val < 27 ∨ 64 ≤ r.val) ∧ s.hw.permits ((targetOf R.TIME_ET_HI).getD 0) (masterOf r) R.TIME_ET_HI false = true ∧ kget s.hw.latches r = some ⟨R.TIME_ET_LO, [w]⟩) ∧
    (∃ (s : State) (r : Fin 320), s.hw.mainUp = true ∧ (r.val < 27 ∨ 64 ≤ r.val) ∧ s.hw.permits ((targetOf R.TIME_ET_HI).getD 0) (masterOf r) R.TIME_ET_HI false = true ∧ kget s.hw.latches r = none) ∧
    (∃ (s : State) (r : Fin 320), s.hw.mainUp = true ∧ (r.val < 27 ∨ 64 ≤ r.val) ∧ s.hw.permits ((targetOf R.TIME_ET_LO).getD 0) (masterOf r) R.TIME_ET_LO false = true) ∧
    (∃ (s : State) (r : Fin 320), s.hw.mainUp = true ∧ (r.val < 27 ∨ 64 ≤ r.val) ∧ s.hw.permits ((targetOf R.TIME_NT_SUB0).getD 0) (masterOf r) R.TIME_NT_SUB0 false = true) ∧
    (∃ (s : State) (r : Fin 320), s.hw.mainUp = true ∧ (r.val < 27 ∨ 64 ≤ r.val) ∧ s.hw.permits ((targetOf R.TIME_NT_SUB0).getD 0) (masterOf r) R.TIME_NT_SUB0 false = true) ∧
    (∃ (s : State) (r : Fin 320), s.hw.mainUp = true ∧ (r.val < 27 ∨ 64 ≤ r.val) ∧ s.hw.permits ((targetOf R.TIME_RATE).getD 0) (masterOf r) R.TIME_RATE false = true) :=
  ⟨⟨wit (fun h => h), 25, 0x40600008, 1, by decide +kernel⟩,
   ⟨wit (fun h => h), 26, 0x40600009, 1, by decide +kernel⟩,
   ⟨wit (fun h => h), 24, 3, 0x80000001, by decide +kernel⟩,
   ⟨wit (fun h => h), 24, 11, 0x80000001, by decide +kernel⟩,
   ⟨wit (fun h => ((h.set R.TIME_STAT_STEP_EV 1).set R.TIME_STAT_TB_LOST_EV 1).set R.TIME_STAT_TB_LOCK 1), 24, 0xFFFFFF5F, by decide +kernel⟩,
   ⟨wit (fun h => h), 24, 3, 0xFFFFFFFF, by decide +kernel⟩,
   ⟨wit (fun h => h), 24, 0x12345678, by decide +kernel⟩,
   ⟨wit (fun h => h), 25, 0x40600040, true, by decide +kernel⟩,
   ⟨wit (fun h => h), 24, 0x40600044, true, by decide +kernel⟩,
   ⟨wit (fun h => { h with et := 0x123456789A }), 24, by decide +kernel⟩,
   ⟨wit (fun h => { h with latches := [(24, ⟨R.TIME_ET_LO, [7]⟩)] }), 24, 7, by decide +kernel⟩,
   ⟨wit (fun h => { h with et := 0x123456789A }), 24, by decide +kernel⟩,
   ⟨wit (fun h => { h with et := 0x123456789A }), 24, by decide +kernel⟩,
   ⟨wit (fun h => { h with nt := 5 * ntSecond * 2 ^ 33 + 999999 * 2 ^ 32 }), 24, by decide +kernel⟩,
   ⟨wit (fun h => { h with nt := 5 * ntSecond * 2 ^ 33 + 999999 * 2 ^ 32 }), 24, by decide +kernel⟩,
   ⟨wit (fun h => h.set R.TIME_RATE_RATE 0x80000005), 24, by decide +kernel⟩⟩

theorem witness_DramAccesses :
    (∃ (s : State) (c : Fin 2) (e : EccFinding), s.hw.mainUp = true ∧ (s.hw.channel c).nextAccess = none) ∧
    (∃ (s : State) (c : Fin 2) (e : EccFinding) (r : Request), s.hw.mainUp = true ∧ (s.hw.channel c).nextAccess = some r ∧ s.hw.memoryAt r.addr = true ∧ (s.hw.urgent c = true ∨ (if s.hw.bursting c = true then 16 ≤ (s.hw.channel c).neighbours.length else (s.hw.channel c).neighbours ≠ [] ∨ s.hw.get R.DRC_REF_POST ≤ s.hw.owed c))) ∧
    (∃ (s : State) (c : Fin 2) (e : EccFinding) (r : Request), s.hw.mainUp = true ∧ (s.hw.channel c).nextAccess = some r ∧ r.thread = none ∧ s.hw.memoryAt r.addr = false) ∧
    (∃ (s : State) (c : Fin 2) (e : EccFinding) (r : Request), s.hw.mainUp = true ∧ (s.hw.channel c).nextAccess = some r ∧ targetOf r.addr = some (40 + c.val) ∧ isRegister r.addr = false ∧ s.hw.memoryAt r.addr = true ∧ s.hw.urgent c = false ∧ if s.hw.bursting c = true then (s.hw.channel c).neighbours.length < 16 else (s.hw.channel c).neighbours = [] ∧ s.hw.owed c < s.hw.get R.DRC_REF_POST ∧ (s.hw.dramOffer c r).dramMayIssue c r = false) ∧
    (∃ (s : State) (c : Fin 2) (e : EccFinding) (r : Request) (u rd a : Nat), s.hw.mainUp = true ∧ (s.hw.channel c).nextAccess = some r ∧ targetOf r.addr = some (40 + c.val) ∧ isRegister r.addr = false ∧ s.hw.memoryAt r.addr = true ∧ s.hw.urgent c = false ∧ if s.hw.bursting c = true then (s.hw.channel c).neighbours.length < 16 else (s.hw.channel c).neighbours = [] ∧ s.hw.owed c < s.hw.get R.DRC_REF_POST ∧ (s.hw.dramOffer c r).dramMayIssue c r = true ∧ r.thread = some u ∧ (s.hw.thread u).on = .access rd a true ∧ r.data = none ∧ ((s.hw.flag R.DRC_CFG_ECC_EN = false ∨ e = .clean) ∧ s.hw.unwritten r.addr r.size false = false)) ∧
    (∃ (s : State) (c : Fin 2) (e : EccFinding) (r : Request), s.hw.mainUp = true ∧ (s.hw.channel c).nextAccess = some r ∧ targetOf r.addr = some (40 + c.val) ∧ isRegister r.addr = false ∧ s.hw.memoryAt r.addr = true ∧ s.hw.urgent c = false ∧ if s.hw.bursting c = true then (s.hw.channel c).neighbours.length < 16 else (s.hw.channel c).neighbours = [] ∧ s.hw.owed c < s.hw.get R.DRC_REF_POST ∧ r.thread = none ∧ (s.hw.dramOffer c r).dramMayIssue c r = true ∧ r.data = none ∧ ((s.hw.flag R.DRC_CFG_ECC_EN = false ∨ e = .clean) ∧ s.hw.unwritten r.addr r.size false = false)) ∧
    (∃ (s : State) (c : Fin 2) (e : EccFinding) (r : Request), s.hw.mainUp = true ∧ (s.hw.channel c).nextAccess = some r ∧ targetOf r.addr = some (40 + c.val) ∧ isRegister r.addr = false ∧ s.hw.memoryAt r.addr = true ∧ s.hw.urgent c = false ∧ if s.hw.bursting c = true then (s.hw.channel c).neighbours.length < 16 else (s.hw.channel c).neighbours = [] ∧ s.hw.owed c < s.hw.get R.DRC_REF_POST ∧ r.thread = none ∧ (s.hw.dramOffer c r).dramMayIssue c r = true ∧ r.data = none ∧ s.hw.flag R.DRC_CFG_ECC_EN = true ∧ e = .corrected ∧ s.hw.unwritten r.addr r.size false = false) ∧
    (∃ (s : State) (c : Fin 2) (e : EccFinding) (r : Request), s.hw.mainUp = true ∧ (s.hw.channel c).nextAccess = some r ∧ targetOf r.addr = some (40 + c.val) ∧ isRegister r.addr = false ∧ s.hw.memoryAt r.addr = true ∧ s.hw.urgent c = false ∧ if s.hw.bursting c = true then (s.hw.channel c).neighbours.length < 16 else (s.hw.channel c).neighbours = [] ∧ s.hw.owed c < s.hw.get R.DRC_REF_POST ∧ r.thread = none ∧ (s.hw.dramOffer c r).dramMayIssue c r = true ∧ (r.data = none ∨ merges r.addr r.size = true ∧ e = .uncorrectable ∨ s.hw.unwritten r.addr r.size true = true) ∧ (s.hw.flag R.DRC_CFG_ECC_EN = true ∧ (e = .uncorrectable ∨ s.hw.unwritten r.addr r.size r.data.isSome = true))) ∧
    (∃ (s : State) (c : Fin 2) (e : EccFinding) (r : Request), s.hw.mainUp = true ∧ (s.hw.channel c).nextAccess = some r ∧ targetOf r.addr = some (40 + c.val) ∧ isRegister r.addr = false ∧ s.hw.memoryAt r.addr = true ∧ s.hw.urgent c = false ∧ if s.hw.bursting c = true then (s.hw.channel c).neighbours.length < 16 else (s.hw.channel c).neighbours = [] ∧ s.hw.owed c < s.hw.get R.DRC_REF_POST ∧ r.thread = none ∧ (s.hw.dramOffer c r).dramMayIssue c r = true ∧ r.data.isSome = true ∧ (s.hw.flag R.DRC_CFG_ECC_EN = false ∨ (merges r.addr r.size = false ∨ e ≠ .uncorrectable) ∧ s.hw.unwritten r.addr r.size true = false)) :=
  ⟨⟨wit (fun h => h), 1, .clean, by decide +kernel⟩,
   ⟨wit (fun h => (((h.set R.DRC_STAT_STATE 2)).set (R.DRC_DEBT_D 1) 40000).modChannel 1 fun _ => ⟨0, [⟨3, none, false, 0x1000000100, 64, none, false, false⟩], 1, [], none, false, false⟩), 1, .clean, (⟨3, none, false, 0x1000000100, 64, none, false, false⟩), by decide +kernel⟩,
   ⟨wit (fun h => (((h.set R.DRC_STAT_STATE 2)).set (R.DRC_DEBT_D 1) 0).modChannel 1 fun _ => ⟨0, [⟨3, none, false, 0x1100000100, 64, none, false, false⟩], 1, [], none, false, false⟩), 1, .clean, (⟨3, none, false, 0x1100000100, 64, none, false, false⟩), by decide +kernel⟩,
   ⟨wit (fun h => ((((h.set R.DRC_STAT_STATE 2)).set (R.DRC_DEBT_D 1) 0).modChannel 1 fun _ => ⟨0, [⟨3, none, false, 0x1000000100, 64, none, false, false⟩], 1, [], none, false, false⟩).setFifo (fifoDramRead 1) 64), 1, .clean, (⟨3, none, false, 0x1000000100, 64, none, false, false⟩), by decide +kernel⟩,
   ⟨wit (fun h => ((((h.set R.DRC_STAT_STATE 2).setBytes 0x1000000100 [1,2,3]).set (R.DRC_DEBT_D 1) 0).modChannel 1 fun _ => ⟨0, [⟨8, some 5, false, 0x1000000100, 8, none, false, false⟩], 1, [], none, false, false⟩).modThread 5 fun th => { th with on := .access 3 0x1000000100 true }), 1, .clean, (⟨8, some 5, false, 0x1000000100, 8, none, false, false⟩), 5, 3, 0x1000000100, by decide +kernel⟩,
   ⟨wit (fun h => (((h.set R.DRC_STAT_STATE 2).setBytes 0x1000000100 [1,2,3]).set (R.DRC_DEBT_D 1) 0).modChannel 1 fun _ => ⟨0, [⟨4, none, false, 0x1000000100, 64, none, false, false⟩, ⟨3, none, false, 0x1000000100, 64, none, false, false⟩], 1, [], some 3, false, false⟩), 1, .uncorrectable, (⟨3, none, false, 0x1000000100, 64, none, false, false⟩), by decide +kernel⟩,
   ⟨wit (fun h => { ((((h.set R.DRC_STAT_STATE 2).set R.DRC_CFG_ECC_EN 1).set (R.DRC_DEBT_D 1) 0).modChannel 1 fun _ => ⟨0, [⟨3, none, false, 0x1000000100, 64, none, false, false⟩], 1, [], none, false, false⟩) with dram := { ((((h.set R.DRC_STAT_STATE 2).set R.DRC_CFG_ECC_EN 1).set (R.DRC_DEBT_D 1) 0).modChannel 1 fun _ => ⟨0, [⟨3, none, false, 0x1000000100, 64, none, false, false⟩], 1, [], none, false, false⟩).dram with initialised := true } }), 1, .corrected, (⟨3, none, false, 0x1000000100, 64, none, false, false⟩), by decide +kernel⟩,
   ⟨wit (fun h => (((h.set R.DRC_STAT_STATE 2).set R.DRC_CFG_ECC_EN 1).set (R.DRC_DEBT_D 1) 0).modChannel 1 fun _ => ⟨0, [⟨3, none, false, 0x1000000100, 64, none, false, false⟩], 1, [], none, false, false⟩), 1, .clean, (⟨3, none, false, 0x1000000100, 64, none, false, false⟩), by decide +kernel⟩,
   ⟨wit (fun h => (((h.set R.DRC_STAT_STATE 2)).set (R.DRC_DEBT_D 1) 0).modChannel 1 fun _ => ⟨0, [⟨3, none, false, 0x1000000100, 2, (some [1,2]), false, false⟩], 1, [], none, false, false⟩), 1, .clean, (⟨3, none, false, 0x1000000100, 2, (some [1,2]), false, false⟩), by decide +kernel⟩⟩

theorem witness_DramRefresh :
    (∃ (s : State) (c : Fin 2), s.hw.mainUp = true ∧ s.hw.drcState = drcReady ∧ s.hw.urgent c = true) ∧
    (∃ (s : State) (c : Fin 2), s.hw.mainUp = true ∧ s.hw.drcState = drcReady ∧ s.hw.urgent c = false ∧ ¬ (1 ≤ s.hw.owed c ∧ s.hw.bursting c = true) ∧ (s.hw.get R.DRC_REF_POST ≤ s.hw.owed c ∨ (1 ≤ s.hw.owed c ∧ (s.hw.channel c).waiting.isEmpty = true))) ∧
    (∃ (s : State) (c : Fin 2), s.hw.mainUp = true ∧ (s.hw.drcState ≠ drcReady ∨ s.hw.urgent c = false ∧ ((1 ≤ s.hw.owed c ∧ s.hw.bursting c = true) ∨ ¬ (s.hw.get R.DRC_REF_POST ≤ s.hw.owed c ∨ (1 ≤ s.hw.owed c ∧ (s.hw.channel c).waiting.isEmpty = true))))) ∧
    (∃ (s : State) (c : Fin 2) (n : Nat × Nat) (rest : List (Nat × Nat)), s.hw.mainUp = true ∧ s.hw.drcState = drcReady ∧ s.hw.urgent c = false ∧ ¬ (s.hw.bursting c = true ∧ (s.hw.channel c).neighbours.length < 16) ∧ (s.hw.channel c).neighbours = n :: rest) ∧
    (∃ (s : State) (c : Fin 2), s.hw.mainUp = true ∧ (s.hw.drcState ≠ drcReady ∨ s.hw.urgent c = true ∨ s.hw.bursting c = true ∧ (s.hw.channel c).neighbours.length < 16 ∨ (s.hw.channel c).neighbours = [])) ∧
    (∃ (s : State) (c : Fin 2) (l : Int) (d : Nat), s.hw.mainUp = true ∧ tget s.hw.timers (.mr4 c) = some d ∧ s.hw.drcState = drcReady) ∧
    (∃ (s : State) (c : Fin 2) (l : Int) (d : Nat), s.hw.mainUp = true ∧ tget s.hw.timers (.mr4 c) = some d ∧ s.hw.drcState = drcReady) :=
  ⟨⟨wit (fun h => (((h.set R.DRC_STAT_STATE 2)).set (R.DRC_DEBT_D 1) 40000).modChannel 1 fun _ => ⟨0, [⟨3, none, false, 0x1000000100, 64, none, false, false⟩], 1, [], some 3, false, false⟩), 1, by decide +kernel⟩,
   ⟨wit (fun h => (((h.set R.DRC_STAT_STATE 2)).set (R.DRC_DEBT_D 1) 16000).modChannel 1 fun _ => ⟨0, [], 1, [], none, false, false⟩), 1, by decide +kernel⟩,
   ⟨wit (fun h => (((h.set R.DRC_STAT_STATE 2)).set (R.DRC_DEBT_D 1) 31000).modChannel 1 fun _ => ⟨0, [⟨3, none, false, 0x1000000100, 64, none, false, false⟩], 1, [], some 3, false, false⟩), 1, by decide +kernel⟩,
   ⟨wit (fun h => (((h.set R.DRC_STAT_STATE 2)).set (R.DRC_DEBT_D 1) 0).modChannel 1 fun _ => ⟨0, [], 1, [(3, 7), (4, 9)], none, false, false⟩), 1, ((3, 7)), ([(4, 9)]), by decide +kernel⟩,
   ⟨wit (fun h => (((h.set R.DRC_STAT_STATE 2)).set (R.DRC_DEBT_D 1) 0).modChannel 1 fun _ => ⟨0, [], 1, [(3, 7)], some 3, false, false⟩), 1, by decide +kernel⟩,
   ⟨wit (fun h => ((((h.set R.DRC_STAT_STATE 2)).set (R.DRC_DEBT_D 1) 28000).modChannel 1 fun _ => ⟨0, [], 1, [], none, false, false⟩).startAt (.mr4 1) 9000000), 1, 1, 9000000, by decide +kernel⟩,
   ⟨wit (fun h => ((((h.set R.DRC_STAT_STATE 2)).set (R.DRC_DEBT_D 1) 28000).modChannel 1 fun _ => ⟨0, [], 1, [], none, false, false⟩).startAt (.mr4 1) 9000000), 1, 1, 9000000, by decide +kernel⟩⟩

theorem witness_DramTrainingAndSelfRefresh :
    (∃ (s : State), s.hw.mainUp = true ∧ (s.hw.drcState = drcUntrained ∨ s.hw.drcState = drcFailed) ∧ s.hw.ps ≠ psDiagnostic) ∧
    (∃ (s : State), s.hw.mainUp = true ∧ (¬ (s.hw.drcState = drcUntrained ∨ s.hw.drcState = drcFailed))) ∧
    (∃ (s : State) (step : Fin 8) (ch : BitVec 2), s.hw.mainUp = true ∧ (s.hw.drcState = drcTraining ∨ s.hw.drcState = drcSelfRefresh) ∧ step.val ≠ 0 ∧ ch ≠ 0) ∧
    (∃ (s : State) (step : Fin 8) (ch : BitVec 2), s.hw.mainUp = true ∧ s.hw.drcState = drcTraining ∧ (step.val = 0 ∨ ch = 0)) ∧
    (∃ (s : State) (step : Fin 8) (ch : BitVec 2), s.hw.mainUp = true ∧ s.hw.drcState = drcSelfRefresh ∧ (step.val = 0 ∨ ch = 0)) ∧
    (∃ (s : State), s.hw.mainUp = true ∧ s.hw.drcState = drcReady) ∧
    (∃ (s : State), s.hw.mainUp = true ∧ s.hw.drcState ≠ drcReady) ∧
    (∃ (s : State), s.hw.mainUp = true ∧ s.hw.drcState = drcEccInit) ∧
    (∃ (s : State) (c : Instr), s.hw.mainUp = true ∧ (c = .initDone ∧ s.hw.drcState ≠ drcEccInit ∨ c = .trainingDone 0 0 ∧ s.hw.drcState ≠ drcTraining ∧ s.hw.drcState ≠ drcSelfRefresh ∨ c = .selfRefreshAck 0 ∧ s.hw.ps ≠ psEntering)) ∧
    (∃ (s : State) (c : Fin 2), s.hw.mainUp = true ∧ s.hw.ps = psEntering ∧ (s.hw.channel c).acknowledged = false ∧ (s.hw.channel (1 - c.val)).acknowledged = false ∧ s.hw.drcState = drcReady ∧ (s.hw.channel c).waiting = []) ∧
    (∃ (s : State) (c : Fin 2), s.hw.mainUp = true ∧ s.hw.ps = psEntering ∧ (¬ (s.hw.drcState = drcUntrained ∨ s.hw.drcState = drcFailed)) ∧ ((s.hw.channel c).waiting ≠ [] ∨ s.hw.drcState ≠ drcReady)) ∧
    (∃ (s : State) (d : Nat), s.hw.mainUp = true ∧ tget s.hw.timers .selfRefresh = some d ∧ s.hw.ps = psEntering ∧ s.hw.acknowledged = false ∧ s.hw.flag R.HEEL_PS_STAT_PEND = false) :=
  ⟨⟨wit (fun h => h), by decide +kernel⟩,
   ⟨wit (fun h => h.set R.DRC_STAT_STATE 2), by decide +kernel⟩,
   ⟨wit (fun h => h.set R.DRC_STAT_STATE 1), 7, 2, by decide +kernel⟩,
   ⟨wit (fun h => h.set R.DRC_STAT_STATE 1), 0, 0, by decide +kernel⟩,
   ⟨wit (fun h => h.set R.DRC_STAT_STATE 4), 0, 0, by decide +kernel⟩,
   ⟨wit (fun h => h.set R.DRC_STAT_STATE 2), by decide +kernel⟩,
   ⟨wit (fun h => h), by decide +kernel⟩,
   ⟨wit (fun h => (h.set R.DRC_STAT_STATE 3).setBytes 0x1000000010 [1, 2]), by decide +kernel⟩,
   ⟨wit (fun h => h), .initDone, by decide +kernel⟩,
   ⟨wit (fun h => ((((h.set R.DRC_STAT_STATE 2)).set (R.DRC_DEBT_D 1) 28000).modChannel 1 fun _ => ⟨0, [], 1, [(1,2)], none, false, false⟩).set R.HEEL_PS_STAT_STATE 1), 1, by decide +kernel⟩,
   ⟨wit (fun h => ((((h.set R.DRC_STAT_STATE 2)).set (R.DRC_DEBT_D 1) 28000).modChannel 1 fun _ => ⟨0, [⟨3, none, false, 0x1000000100, 64, none, false, false⟩], 1, [(1,2)], none, false, false⟩).set R.HEEL_PS_STAT_STATE 1), 1, by decide +kernel⟩,
   ⟨wit (fun h => (h.set R.HEEL_PS_STAT_STATE 1).startAt .selfRefresh 9000000), 9000000, by decide +kernel⟩⟩

theorem witness_LifecycleCommandsAndOtp :
    (∃ (s : State) (m : Fin 27) (op : Nat) (c : Instr), s.hw.mainUp = true ∧ (c = .lcProvision m ∧ op = 1 ∨ c = .lcSecure m ∧ op = 2 ∨ c = .lcReturn m ∧ op = 3 ∨ c = .lcRetire m ∧ op = 4) ∧ s.hw.inRun = false) ∧
    (∃ (s : State) (m : Fin 27) (op : Nat) (c : Instr), s.hw.mainUp = true ∧ (c = .lcProvision m ∧ op = 1 ∨ c = .lcSecure m ∧ op = 2 ∨ c = .lcReturn m ∧ op = 3 ∨ c = .lcRetire m ∧ op = 4) ∧ s.hw.inRun = true ∧ s.hw.flag R.ILT_LC_STAT_BUSY = true) ∧
    (∃ (s : State) (m : Fin 27) (op : Nat) (c : Instr), s.hw.mainUp = true ∧ (c = .lcProvision m ∧ op = 1 ∨ c = .lcSecure m ∧ op = 2 ∨ c = .lcReturn m ∧ op = 3 ∨ c = .lcRetire m ∧ op = 4) ∧ s.hw.inRun = true ∧ s.hw.flag R.ILT_LC_STAT_BUSY = false ∧ s.hw.flag R.ILT_LC_STAT_TORN = false ∧ lifecycleFrom op s.hw.lifecycle = false) ∧
    (∃ (s : State) (m : Fin 27) (op : Nat) (c : Instr), s.hw.mainUp = true ∧ (c = .lcProvision m ∧ op = 1 ∨ c = .lcSecure m ∧ op = 2 ∨ c = .lcReturn m ∧ op = 3 ∨ c = .lcRetire m ∧ op = 4) ∧ s.hw.inRun = true ∧ s.hw.flag R.ILT_LC_STAT_BUSY = false ∧ s.hw.flag R.ILT_LC_STAT_TORN = false ∧ lifecycleFrom op s.hw.lifecycle = true ∧ (s.hw.word R.ILT_LC_ARG).toNat ≠ lifecycleKey op) ∧
    (∃ (s : State) (m : Fin 27) (op : Nat) (c : Instr), s.hw.mainUp = true ∧ (c = .lcProvision m ∧ op = 1 ∨ c = .lcSecure m ∧ op = 2 ∨ c = .lcReturn m ∧ op = 3 ∨ c = .lcRetire m ∧ op = 4) ∧ s.hw.inRun = true ∧ s.hw.flag R.ILT_LC_STAT_BUSY = false ∧ s.hw.flag R.ILT_LC_STAT_TORN = false ∧ lifecycleFrom op s.hw.lifecycle = true ∧ (s.hw.word R.ILT_LC_ARG).toNat = lifecycleKey op ∧ s.hw.lifecycleAllowed m op = false) ∧
    (∃ (s : State) (m : Fin 27) (op : Nat) (c : Instr), s.hw.mainUp = true ∧ (c = .lcProvision m ∧ op = 1 ∨ c = .lcSecure m ∧ op = 2 ∨ c = .lcReturn m ∧ op = 3 ∨ c = .lcRetire m ∧ op = 4) ∧ s.hw.inRun = true ∧ s.hw.flag R.ILT_LC_STAT_BUSY = false ∧ s.hw.flag R.ILT_LC_STAT_TORN = true ∧ s.hw.groupTorn (op - 1) = false) ∧
    (∃ (s : State), s.hw.mainUp = true ∧ s.hw.inRun = true ∧ s.hw.flag R.ILT_LC_STAT_BUSY = false ∧ s.hw.flag R.ILT_LC_STAT_TORN = false ∧ s.hw.lifecycle = 0 ∧ (s.hw.word R.ILT_LC_ARG).toNat = 0x50524F56 ∧ (List.range 4).any s.hw.rootProgrammed = true ∧ s.hw.slotProgrammed 129 12 = true) ∧
    (∃ (s : State), s.hw.mainUp = true ∧ s.hw.inRun = true ∧ s.hw.flag R.ILT_LC_STAT_BUSY = false ∧ s.hw.flag R.ILT_LC_STAT_TORN = false ∧ s.hw.lifecycle = 0 ∧ (s.hw.word R.ILT_LC_ARG).toNat = 0x50524F56 ∧ ¬ ((List.range 4).any s.hw.rootProgrammed = true ∧ s.hw.slotProgrammed 129 12 = true)) ∧
    (∃ (s : State), s.hw.mainUp = true ∧ s.hw.inRun = true ∧ s.hw.flag R.ILT_LC_STAT_BUSY = false ∧ s.hw.flag R.ILT_LC_STAT_TORN = false ∧ s.hw.lifecycle = 1 ∧ (s.hw.word R.ILT_LC_ARG).toNat = 0x53454355 ∧ s.hw.flag R.ILT_BOOT_STAT_VERIFIED = true) ∧
    (∃ (s : State), s.hw.mainUp = true ∧ s.hw.inRun = true ∧ s.hw.flag R.ILT_LC_STAT_BUSY = false ∧ s.hw.flag R.ILT_LC_STAT_TORN = false ∧ (s.hw.lifecycle = 1 ∨ s.hw.lifecycle = 2) ∧ (s.hw.word R.ILT_LC_ARG).toNat = 0x5245544E ∧ s.hw.fullSession = true ∧ s.hw.get R.ILT_DBG_STAT_KEY_USED = 2) ∧
    (∃ (s : State) (m : Fin 27), s.hw.mainUp = true ∧ s.hw.inRun = true ∧ s.hw.flag R.ILT_LC_STAT_BUSY = false ∧ s.hw.flag R.ILT_LC_STAT_TORN = false ∧ s.hw.lifecycle ≠ 4 ∧ (s.hw.word R.ILT_LC_ARG).toNat = 0x52545244 ∧ (m.val = 0 ∨ m.val = 25 ∧ s.hw.fullSession = true)) ∧
    (∃ (s : State) (op : Nat), s.hw.mainUp = true ∧ s.hw.iltil.lcJob = some op ∧ 1 ≤ op ∧ op ≤ 4) ∧
    (∃ (s : State), s.hw.mainUp = true ∧ s.hw.iltil.lcJob = none) ∧
    (∃ (s : State), s.hw.mainUp = true ∧ s.hw.inRun = false) ∧
    (∃ (s : State), s.hw.mainUp = true ∧ s.hw.inRun = true ∧ s.hw.flag R.ILT_OTP_STAT_BUSY = true) ∧
    (∃ (s : State), s.hw.mainUp = true ∧ s.hw.inRun = true ∧ s.hw.flag R.ILT_OTP_STAT_BUSY = false ∧ otpProgrammable s.hw.lifecycle (s.hw.get R.ILT_OTP_ADDR_ADDR) = false) ∧
    (∃ (s : State), s.hw.mainUp = true ∧ s.hw.inRun = true ∧ s.hw.flag R.ILT_OTP_STAT_BUSY = false ∧ otpProgrammable s.hw.lifecycle 112 = true ∧ s.hw.get R.ILT_OTP_ADDR_ADDR = 112 ∧ (¬ (∃ k < 4, s.hw.rootProgrammed k = true ∧ (s.hw.fuse 112 ||| s.hw.word R.ILT_OTP_DATA).getLsbD k = false))) ∧
    (∃ (s : State), s.hw.mainUp = true ∧ s.hw.inRun = true ∧ s.hw.flag R.ILT_OTP_STAT_BUSY = false ∧ otpProgrammable s.hw.lifecycle (s.hw.get R.ILT_OTP_ADDR_ADDR) = true ∧ (s.hw.get R.ILT_OTP_ADDR_ADDR = 112 → (∃ k < 4, s.hw.rootProgrammed k = true ∧ (s.hw.fuse 112 ||| s.hw.word R.ILT_OTP_DATA).getLsbD k = false))) ∧
    (∃ (s : State) (failed : Word) (w : Nat) (v : Word), s.hw.mainUp = true ∧ s.hw.iltil.otpJob = some (w, v) ∧ 64 ≤ w ∧ w < 512) ∧
    (∃ (s : State) (failed : Word), s.hw.mainUp = true ∧ s.hw.iltil.otpJob = none) ∧
    (∃ (s : State) (v : Word), s.hw.mainUp = true ∧ s.hw.flag R.ILT_ACC_CTL_LOCK = false) ∧
    (∃ (s : State) (v : Word), s.hw.mainUp = true ∧ s.hw.flag R.ILT_ACC_CTL_LOCK = true) :=
  ⟨⟨wit (fun h => h.set R.HEEL_PS_STAT_STATE 1), 0, 1, ((.lcProvision 0)), by decide +kernel⟩,
   ⟨wit (fun h => h.set R.ILT_LC_STAT_BUSY 1), 0, 4, ((.lcRetire 0)), by decide +kernel⟩,
   ⟨wit (fun h => h), 0, 2, ((.lcSecure 0)), by decide +kernel⟩,
   ⟨wit (fun h => h), 0, 1, ((.lcProvision 0)), by decide +kernel⟩,
   ⟨wit (fun h => h.setWord R.ILT_LC_ARG 0x50524F56), 1, 1, ((.lcProvision 1)), by decide +kernel⟩,
   ⟨wit (fun h => h.set R.ILT_LC_STAT_TORN 1), 1, 1, ((.lcProvision 1)), by decide +kernel⟩,
   ⟨wit (fun h => { (h.setWord R.ILT_LC_ARG 0x50524F56) with iltil := { h.iltil with otp := [(64, 5), (112, 0), (129, 7)], shadow := [(64, 5), (112, 0), (129, 7)] } }), by decide +kernel⟩,
   ⟨wit (fun h => h.setWord R.ILT_LC_ARG 0x50524F56), by decide +kernel⟩,
   ⟨wit (fun h => ((h.setWord R.ILT_LC_ARG 0x53454355).set R.ILT_LC_STAT_STATE 1).set R.ILT_BOOT_STAT_VERIFIED 1), by decide +kernel⟩,
   ⟨wit (fun h => (((h.setWord R.ILT_LC_ARG 0x5245544E).set R.ILT_LC_STAT_STATE 2).set R.ILT_DBG_STAT_LEVEL 2).set R.ILT_DBG_STAT_KEY_USED 2), by decide +kernel⟩,
   ⟨wit (fun h => h.setWord R.ILT_LC_ARG 0x52545244), 0, by decide +kernel⟩,
   ⟨wit (fun h => { h with iltil := { h.iltil with lcJob := some 3, otp := [(63, 9), (64, 3)] } }), 3, by decide +kernel⟩,
   ⟨wit (fun h => h), by decide +kernel⟩,
   ⟨wit (fun h => h.set R.HEEL_PS_STAT_STATE 1), by decide +kernel⟩,
   ⟨wit (fun h => h.set R.ILT_OTP_STAT_BUSY 1), by decide +kernel⟩,
   ⟨wit (fun h => h.set R.ILT_OTP_ADDR_ADDR 24), by decide +kernel⟩,
   ⟨wit (fun h => { (h.set R.ILT_OTP_ADDR_ADDR 112 |>.setWord R.ILT_OTP_DATA 1) with iltil := { h.iltil with otp := [(64, 5)], shadow := [(64, 5)] } }), by decide +kernel⟩,
   ⟨wit (fun h => h.set R.ILT_OTP_ADDR_ADDR 150), by decide +kernel⟩,
   ⟨wit (fun h => { h with iltil := { h.iltil with otpJob := some (150, 7), otp := [(150, 8)] } }), 4, 150, 7, by decide +kernel⟩,
   ⟨wit (fun h => h), 0, by decide +kernel⟩,
   ⟨wit (fun h => h), 1, by decide +kernel⟩,
   ⟨wit (fun h => h.set R.ILT_ACC_CTL_LOCK 1), 0, by decide +kernel⟩⟩

theorem witness_RandomSourceKeysAndImages :
    (∃ (s : State) (m : Fin 27), s.hw.mainUp = true ∧ s.hw.permits ((targetOf R.ILT_RNG).getD 0) m R.ILT_RNG false = true ∧ s.hw.flag R.ILT_RNG_STAT_FAIL = false) ∧
    (∃ (s : State) (m : Fin 27), s.hw.mainUp = true ∧ s.hw.permits ((targetOf R.ILT_RNG).getD 0) m R.ILT_RNG false = true ∧ s.hw.flag R.ILT_RNG_STAT_FAIL = true) ∧
    (∃ (s : State), s.hw.mainUp = true) ∧
    (∃ (s : State) (v : Word), s.hw.mainUp = true ∧ (s.hw.word R.ILT_KL_LABEL).toNat ≤ 255) ∧
    (∃ (s : State) (v : Word), s.hw.mainUp = true ∧ 255 < (s.hw.word R.ILT_KL_LABEL).toNat ∧ 2 ^ 31 ≤ (s.hw.word R.ILT_KL_LABEL).toNat ∧ s.hw.fullSession = true ∧ s.hw.lifecycle = lcSecured) ∧
    (∃ (s : State) (v : Word), s.hw.mainUp = true ∧ 255 < (s.hw.word R.ILT_KL_LABEL).toNat ∧ ¬ (2 ^ 31 ≤ (s.hw.word R.ILT_KL_LABEL).toNat ∧ s.hw.fullSession = true ∧ s.hw.lifecycle = lcSecured) ∧ s.hw.rootServes (fieldOf v R.ILT_KL_CMD_ROOT == 1) = false) ∧
    (∃ (s : State) (v : Word), s.hw.mainUp = true ∧ 255 < (s.hw.word R.ILT_KL_LABEL).toNat ∧ ¬ (2 ^ 31 ≤ (s.hw.word R.ILT_KL_LABEL).toNat ∧ s.hw.fullSession = true ∧ s.hw.lifecycle = lcSecured) ∧ s.hw.rootServes (fieldOf v R.ILT_KL_CMD_ROOT == 1) = true ∧ 2 ^ 31 ≤ (s.hw.word R.ILT_KL_LABEL).toNat) ∧
    (∃ (s : State) (v : Word), s.hw.mainUp = true ∧ 255 < (s.hw.word R.ILT_KL_LABEL).toNat ∧ ¬ (2 ^ 31 ≤ (s.hw.word R.ILT_KL_LABEL).toNat ∧ s.hw.fullSession = true ∧ s.hw.lifecycle = lcSecured) ∧ s.hw.rootServes (fieldOf v R.ILT_KL_CMD_ROOT == 1) = true ∧ (s.hw.word R.ILT_KL_LABEL).toNat < 2 ^ 31 ∧ keySlotAt (s.hw.pair R.ILT_KL_DEST_LO R.ILT_KL_DEST_HI) = none) ∧
    (∃ (s : State) (v : Word) (k : Nat), s.hw.mainUp = true ∧ 255 < (s.hw.word R.ILT_KL_LABEL).toNat ∧ ¬ (2 ^ 31 ≤ (s.hw.word R.ILT_KL_LABEL).toNat ∧ s.hw.fullSession = true ∧ s.hw.lifecycle = lcSecured) ∧ s.hw.rootServes (fieldOf v R.ILT_KL_CMD_ROOT == 1) = true ∧ (s.hw.word R.ILT_KL_LABEL).toNat < 2 ^ 31 ∧ keySlotAt (s.hw.pair R.ILT_KL_DEST_LO R.ILT_KL_DEST_HI) = some (.welt k) ∧ k < 1024) ∧
    (∃ (s : State) (m : Fin 27), s.hw.mainUp = true ∧ s.hw.permits ((targetOf (R.ILT_KL_OUT 7)).getD 0) m (R.ILT_KL_OUT 7) false = true) ∧
    (∃ (s : State), s.hw.mainUp = true ∧ (s.hw.lifecycle = lcRetired ∨ s.hw.lifecycle = lcSecured ∧ s.hw.fullSession = true)) ∧
    (∃ (s : State), s.hw.mainUp = true ∧ (¬ (s.hw.lifecycle = lcRetired ∨ s.hw.lifecycle = lcSecured ∧ s.hw.fullSession = true))) ∧
    (∃ (s : State) (hd : List Byte), s.hw.mainUp = true ∧ hd.length = 352) :=
  ⟨⟨wit (fun h => h), 24, by decide +kernel⟩,
   ⟨wit (fun h => h.set R.ILT_RNG_STAT_FAIL 1), 24, by decide +kernel⟩,
   ⟨wit (fun h => h), by decide +kernel⟩,
   ⟨wit (fun h => h), 0, by decide +kernel⟩,
   ⟨wit (fun h => ((h.setWord R.ILT_KL_LABEL 0x80000000).set R.ILT_DBG_STAT_LEVEL 2).set R.ILT_LC_STAT_STATE 2), 0, by decide +kernel⟩,
   ⟨wit (fun h => h.setWord R.ILT_KL_LABEL 0x100), 1, by decide +kernel⟩,
   ⟨wit (fun h => ({ h with iltil := { h.iltil with otp := kput (kput h.iltil.otp 141 1) 142 0, shadow := kput h.iltil.shadow 141 1 } }).setWord R.ILT_KL_LABEL 0x80000000), 1, by decide +kernel⟩,
   ⟨wit (fun h => ({ h with iltil := { h.iltil with otp := kput (kput h.iltil.otp 141 1) 142 0, shadow := kput h.iltil.shadow 141 1 } }).setWord R.ILT_KL_LABEL 0x100), 1, by decide +kernel⟩,
   ⟨wit (fun h => (({ h with iltil := { h.iltil with otp := kput (kput h.iltil.otp 141 1) 142 0, shadow := kput h.iltil.shadow 141 1 } }).setWord R.ILT_KL_LABEL 0x100).setWord R.ILT_KL_DEST_LO (BitVec.ofNat 32 (R.WELT_KEY 3 0))), 3, 3, by decide +kernel⟩,
   ⟨wit (fun h => h.setWord (R.ILT_KL_OUT 7) 5), 24, by decide +kernel⟩,
   ⟨wit (fun h => h.set R.ILT_LC_STAT_STATE 4), by decide +kernel⟩,
   ⟨wit (fun h => h), by decide +kernel⟩,
   ⟨wit (fun h => h), ((List.replicate 352 0)), by decide +kernel⟩⟩

theorem witness_SecurityVersionCounter :
    (∃ (s : State), s.hw.mainUp = true) ∧
    (∃ (s : State) (v : Word), s.hw.mainUp = true ∧ (((if s.hw.flag R.ILT_BOOT_STAT_VERIFIED then s.hw.get R.ILT_BOOT_STAT_SVN else 0) < fieldOf v R.ILT_SVN_COUNT ∨ 128 < fieldOf v R.ILT_SVN_COUNT) ∨ s.hw.lifecycle = lcBlank ∨ s.hw.lifecycle = lcRetired)) ∧
    (∃ (s : State) (v : Word), s.hw.mainUp = true ∧ fieldOf v R.ILT_SVN_COUNT ≤ (if s.hw.flag R.ILT_BOOT_STAT_VERIFIED then s.hw.get R.ILT_BOOT_STAT_SVN else 0) ∧ fieldOf v R.ILT_SVN_COUNT ≤ 128 ∧ s.hw.lifecycle ≠ lcBlank ∧ s.hw.lifecycle ≠ lcRetired ∧ fieldOf v R.ILT_SVN_COUNT ≤ s.hw.securityVersion) ∧
    (∃ (s : State) (v : Word), s.hw.mainUp = true ∧ fieldOf v R.ILT_SVN_COUNT ≤ (if s.hw.flag R.ILT_BOOT_STAT_VERIFIED then s.hw.get R.ILT_BOOT_STAT_SVN else 0) ∧ fieldOf v R.ILT_SVN_COUNT ≤ 128 ∧ s.hw.lifecycle ≠ lcBlank ∧ s.hw.lifecycle ≠ lcRetired ∧ s.hw.securityVersion < fieldOf v R.ILT_SVN_COUNT) :=
  ⟨⟨wit (fun h => { (h) with iltil := { h.iltil with otp := [(113, 7), (114, 1)], shadow := [(113, 7), (114, 1)] } }), by decide +kernel⟩,
   ⟨wit (fun h => h), 0, by decide +kernel⟩,
   ⟨wit (fun h => h.set R.ILT_LC_STAT_STATE 2), 0, by decide +kernel⟩,
   ⟨wit (fun h => (({ (h) with iltil := { h.iltil with otp := [(113, 7), (116, 0)], shadow := [(113, 7), (116, 0)] } }).set R.ILT_LC_STAT_STATE 2).set R.ILT_BOOT_STAT_VERIFIED 1 |>.set R.ILT_BOOT_STAT_SVN 70), 66, by decide +kernel⟩⟩

theorem witness_DebugSessions :
    (∃ (s : State) (l : BitVec 2) (c : Instr), s.hw.mainUp = true ∧ (c = .req l ∧ (s.hw.inRun = false ∨ l = 0 ∨ l = 3) ∨ c = .verify ∧ s.hw.inRun = false ∨ c = .debugClose ∧ (s.hw.inRun = false ∨ s.hw.get R.ILT_DBG_STAT_LEVEL = 0))) ∧
    (∃ (s : State) (l : BitVec 2), s.hw.mainUp = true ∧ s.hw.inRun = true ∧ (l = 1 ∨ l = 2) ∧ (s.hw.flag R.ILT_DBG_STAT_LOCKOUT = true ∨ debugAccess s.hw.lifecycle l.toNat = .never)) ∧
    (∃ (s : State) (l : BitVec 2), s.hw.mainUp = true ∧ s.hw.inRun = true ∧ (l = 1 ∨ l = 2) ∧ s.hw.flag R.ILT_DBG_STAT_LOCKOUT = false ∧ debugAccess s.hw.lifecycle l.toNat = .free) ∧
    (∃ (s : State) (l : BitVec 2) (ks : List Nat), s.hw.mainUp = true ∧ s.hw.inRun = true ∧ (l = 1 ∨ l = 2) ∧ s.hw.flag R.ILT_DBG_STAT_LOCKOUT = false ∧ debugAccess s.hw.lifecycle l.toNat = .keys ks ∧ (ks.any fun k => s.hw.slotProgrammed (debugSlot k) 12) = true ∧ s.hw.flag R.ILT_RNG_STAT_FAIL = false) ∧
    (∃ (s : State) (l : BitVec 2) (ks : List Nat), s.hw.mainUp = true ∧ s.hw.inRun = true ∧ (l = 1 ∨ l = 2) ∧ s.hw.flag R.ILT_DBG_STAT_LOCKOUT = false ∧ (debugAccess s.hw.lifecycle l.toNat = .keys ks ∧ ((ks.any fun k => s.hw.slotProgrammed (debugSlot k) 12) = false ∨ s.hw.flag R.ILT_RNG_STAT_FAIL = true))) ∧
    (∃ (s : State), s.hw.mainUp = true ∧ s.hw.inRun = true ∧ s.hw.flag R.ILT_DBG_STAT_CHAL_VALID = false) ∧
    (∃ (s : State) (ks : List Nat), s.hw.mainUp = true ∧ s.hw.inRun = true ∧ s.hw.flag R.ILT_DBG_STAT_CHAL_VALID = true ∧ debugAccess s.hw.lifecycle s.hw.iltil.wanted = .keys ks ∧ s.hw.iltil.wanted < 4) ∧
    (∃ (s : State) (d : Nat), s.hw.mainUp = true ∧ tget s.hw.timers .challenge = some d) ∧
    (∃ (s : State), s.hw.mainUp = true ∧ s.hw.inRun = true ∧ s.hw.get R.ILT_DBG_STAT_LEVEL ≠ 0) :=
  ⟨⟨wit (fun h => h), 3, ((.req 3)), by decide +kernel⟩,
   ⟨wit (fun h => h.set R.ILT_DBG_STAT_LOCKOUT 1), 2, by decide +kernel⟩,
   ⟨wit (fun h => h), 2, by decide +kernel⟩,
   ⟨wit (fun h => ({ (h) with iltil := { h.iltil with otp := [(129, 5)], shadow := [(129, 5)] } }).set R.ILT_LC_STAT_STATE 2), 2, [2], by decide +kernel⟩,
   ⟨wit (fun h => h.set R.ILT_LC_STAT_STATE 1), 2, [2], by decide +kernel⟩,
   ⟨wit (fun h => h.set R.ILT_DBG_STAT_FAILS 2), by decide +kernel⟩,
   ⟨wit (fun h => { ({ (h) with iltil := { h.iltil with otp := [(129, 5)], shadow := [(129, 5)] } }).set R.ILT_LC_STAT_STATE 2 |>.set R.ILT_DBG_STAT_CHAL_VALID 1 with iltil := { h.iltil with wanted := 2, otp := [(129, 5)], shadow := [(129, 5)] } }), [2], by decide +kernel⟩,
   ⟨wit (fun h => (h.set R.ILT_DBG_STAT_CHAL_VALID 1).startAt .challenge 9000000), 9000000, by decide +kernel⟩,
   ⟨wit (fun h => h.set R.ILT_DBG_STAT_LEVEL 2), by decide +kernel⟩⟩

theorem witness_PowerRequestsAndEntry :
    (∃ (s : State) (c : Instr) (t : Nat), s.hw.mainUp = true ∧ (c = .dozeRequest ∧ t = 1 ∨ c = .watchRequest ∧ t = 2 ∨ c = .offRequest ∧ t = 3 ∨ c = .runRequest ∧ t = 0) ∧ (s.hw.ps = psFailed ∨ s.hw.ps = psDiagnostic ∨ s.hw.ps = psDoze ∨ s.hw.ps = psWatch ∨ s.hw.ps = psOff)) ∧
    (∃ (s : State) (c : Instr) (t : Nat), s.hw.mainUp = true ∧ (c = .dozeRequest ∧ t = 1 ∨ c = .watchRequest ∧ t = 2 ∨ c = .offRequest ∧ t = 3 ∨ c = .runRequest ∧ t = 0) ∧ (s.hw.ps = psEntering ∨ s.hw.ps = psWaking ∨ s.hw.ps = psRun ∧ s.hw.flag R.ILT_LC_STAT_BUSY = true)) ∧
    (∃ (s : State), s.hw.mainUp = true ∧ s.hw.ps = psRun ∧ s.hw.flag R.ILT_LC_STAT_BUSY = false) ∧
    (∃ (s : State) (c : Instr) (t : Nat), s.hw.mainUp = true ∧ (c = .dozeRequest ∧ t = 1 ∨ c = .watchRequest ∧ t = 2 ∨ c = .offRequest ∧ t = 3) ∧ s.hw.ps = psRun ∧ s.hw.flag R.ILT_LC_STAT_BUSY = false ∧ s.hw.get R.ILT_DBG_STAT_LEVEL ≠ 0 ∧ s.hw.flag R.ILT_DBG_CTL_SLEEP_OK = false) ∧
    (∃ (s : State) (c : Instr) (t : Nat), s.hw.mainUp = true ∧ (c = .dozeRequest ∧ t = 1 ∨ c = .watchRequest ∧ t = 2 ∨ c = .offRequest ∧ t = 3) ∧ s.hw.ps = psRun ∧ s.hw.flag R.ILT_LC_STAT_BUSY = false ∧ ¬ (s.hw.get R.ILT_DBG_STAT_LEVEL ≠ 0 ∧ s.hw.flag R.ILT_DBG_CTL_SLEEP_OK = false) ∧ Nat.land (s.hw.get R.HEEL_WAKE_STAT_PEND) (s.hw.enabledSources t) ≠ 0) ∧
    (∃ (s : State) (c : Instr) (t : Nat), s.hw.mainUp = true ∧ (c = .dozeRequest ∧ t = 1 ∨ c = .watchRequest ∧ t = 2 ∨ c = .offRequest ∧ t = 3) ∧ s.hw.ps = psRun ∧ s.hw.flag R.ILT_LC_STAT_BUSY = false ∧ ¬ (s.hw.get R.ILT_DBG_STAT_LEVEL ≠ 0 ∧ s.hw.flag R.ILT_DBG_CTL_SLEEP_OK = false) ∧ Nat.land (s.hw.get R.HEEL_WAKE_STAT_PEND) (s.hw.enabledSources t) = 0 ∧ t = 2 ∧ 300 < s.hw.peak) ∧
    (∃ (s : State) (c : Instr) (t : Nat) (code detail : Nat), s.hw.mainUp = true ∧ (c = .dozeRequest ∧ t = 1 ∨ c = .watchRequest ∧ t = 2 ∨ c = .offRequest ∧ t = 3) ∧ s.hw.ps = psRun ∧ s.hw.flag R.ILT_LC_STAT_BUSY = false ∧ s.hw.entryRefuser t = some (code, detail) ∧ code < 9) ∧
    (∃ (s : State) (t : Nat), s.hw.mainUp = true ∧ t = 1 ∧ s.hw.ps = psRun ∧ s.hw.flag R.ILT_LC_STAT_BUSY = false ∧ s.hw.entryRefuser t = none) ∧
    (∃ (s : State) (t : Nat), s.hw.mainUp = true ∧ t = 2 ∧ s.hw.ps = psRun ∧ s.hw.flag R.ILT_LC_STAT_BUSY = false ∧ s.hw.entryRefuser t = none) ∧
    (∃ (s : State) (t : Nat), s.hw.mainUp = true ∧ t = 3 ∧ s.hw.ps = psRun ∧ s.hw.flag R.ILT_LC_STAT_BUSY = false ∧ s.hw.entryRefuser t = none) ∧
    (∃ (s : State) (v : Word) (hz : Nat), s.hw.mainUp = true ∧ fieldOf v R.HEEL_CTL_OSC_SEL = 0 ∧ s.hw.get R.HEEL_CTL_OSC_SEL = 1) ∧
    (∃ (s : State) (v : Word) (hz : Nat), s.hw.mainUp = true ∧ ¬ (fieldOf v R.HEEL_CTL_OSC_SEL = 0 ∧ s.hw.get R.HEEL_CTL_OSC_SEL = 1)) ∧
    (∃ (s : State) (t : Nat), s.hw.ps = psEntering ∧ s.hw.acknowledged = true ∧ s.hw.heel.target = t ∧ 1 ≤ t ∧ t ≤ 3 ∧ s.hw.heel.wake = none ∧ s.hw.flag R.HEEL_PS_STAT_PEND = false) ∧
    (∃ (s : State) (t k : Nat), s.hw.ps = psEntering ∧ s.hw.acknowledged = true ∧ s.hw.heel.target = t ∧ 1 ≤ t ∧ t ≤ 3 ∧ s.hw.heel.wake = some k ∧ k < 16) ∧
    (∃ (s : State), (s.hw.ps ≠ psEntering ∨ s.hw.acknowledged = false)) :=
  ⟨⟨wit (fun h => h.set R.HEEL_PS_STAT_STATE 7), (.dozeRequest), 1, by decide +kernel⟩,
   ⟨wit (fun h => h.set R.HEEL_PS_STAT_STATE 1), (.watchRequest), 2, by decide +kernel⟩,
   ⟨wit (fun h => h), by decide +kernel⟩,
   ⟨wit (fun h => h.set R.ILT_DBG_STAT_LEVEL 2), (.dozeRequest), 1, by decide +kernel⟩,
   ⟨wit (fun h => (h.set R.HEEL_WAKE_STAT_PEND 255).set R.HEEL_WAKE_EN_PIN 2), (.offRequest), 3, by decide +kernel⟩,
   ⟨wit (fun h => h.set R.HEEL_WUR_CFG_DIV 1), (.watchRequest), 2, by decide +kernel⟩,
   ⟨wit (fun h => h.setThreadState 5 1), (.offRequest), 3, 6, 5, by decide +kernel⟩,
   ⟨wit (fun h => (h.set R.DRC_STAT_STATE 2).set R.TIME_RATE_RATE 5), 1, by decide +kernel⟩,
   ⟨wit (fun h => (h.set R.DRC_STAT_STATE 2).set R.TIME_RATE_RATE 5), 2, by decide +kernel⟩,
   ⟨wit (fun h => (h.set R.DRC_STAT_STATE 2).set R.TIME_RATE_RATE 5), 3, by decide +kernel⟩,
   ⟨wit (fun h => h), 0x1000, 32768, by decide +kernel⟩,
   ⟨wit (fun h => h), 0x1001, 32768, by decide +kernel⟩,
   ⟨wit (fun h => ((h.set R.HEEL_PS_STAT_STATE 1|>.setBytes 0x10000005 [3] |>.setBytes 0x30000005 [4]).modChannel 0 fun k => { k with acknowledged := true }).modChannel 1 (fun k => { k with acknowledged := true }) |>.modHeel fun u => { u with target := 2 }), 2, by decide +kernel⟩,
   ⟨wit (fun h => ((h.set R.HEEL_PS_STAT_STATE 1|>.set R.HEEL_PS_STAT_PEND 1).modChannel 0 fun k => { k with acknowledged := true }).modChannel 1 (fun k => { k with acknowledged := true }) |>.modHeel fun u => { u with target := 2, wake := some 6 }), 2, 6, by decide +kernel⟩,
   ⟨wit (fun h => h), by decide +kernel⟩⟩

theorem witness_WakeSourcesAndWakes :
    (∃ (s : State) (d : Nat), tget s.hw.timers .watch = some d ∧ (s.hw.ps = psDoze ∨ s.hw.ps = psWatch)) ∧
    (∃ (s : State) (w : WurSight), ((s.hw.ps = psDoze ∨ s.hw.ps = psWatch) ∧ s.hw.heel.slot ≠ 0 ∧ s.hw.heel.slot ≤ 1 ∧ (s.hw.word R.HEEL_WAKE_EN).toNat.testBit 1 = true) ∧ (s.hw.enabledSources s.hw.heel.target).testBit (1) = true ∧ s.hw.wurMatches w = true) ∧
    (∃ (s : State) (w : WurSight), ((s.hw.ps = psDoze ∨ s.hw.ps = psWatch) ∧ s.hw.heel.slot ≠ 0 ∧ s.hw.heel.slot ≤ 1 ∧ (s.hw.word R.HEEL_WAKE_EN).toNat.testBit 1 = true) ∧ ¬ s.hw.wurMatches w = true) ∧
    (∃ (s : State) (w : WurSight), (¬ ((s.hw.ps = psDoze ∨ s.hw.ps = psWatch) ∧ s.hw.heel.slot ≠ 0 ∧ s.hw.heel.slot ≤ 1 ∧ (s.hw.word R.HEEL_WAKE_EN).toNat.testBit 1 = true))) ∧
    (∃ (s : State) (t : Int), ((s.hw.ps = psDoze ∨ s.hw.ps = psWatch) ∧ s.hw.heel.slot ≠ 0 ∧ s.hw.heel.slot ≤ 2 ∧ (s.hw.word R.HEEL_WAKE_EN).toNat.testBit 2 = true) ∧ (s.hw.enabledSources s.hw.heel.target).testBit (2) = true ∧ ((s.hw.getI R.HEEL_CMP_CFG_T_HI ≤ t ∨ t ≤ s.hw.getI R.HEEL_CMP_CFG_T_LO))) ∧
    (∃ (s : State) (t : Int), ((s.hw.ps = psDoze ∨ s.hw.ps = psWatch) ∧ s.hw.heel.slot ≠ 0 ∧ s.hw.heel.slot ≤ 2 ∧ (s.hw.word R.HEEL_WAKE_EN).toNat.testBit 2 = true) ∧ (¬ (s.hw.getI R.HEEL_CMP_CFG_T_HI ≤ t ∨ t ≤ s.hw.getI R.HEEL_CMP_CFG_T_LO))) ∧
    (∃ (s : State) (t : Int), (¬ ((s.hw.ps = psDoze ∨ s.hw.ps = psWatch) ∧ s.hw.heel.slot ≠ 0 ∧ s.hw.heel.slot ≤ 2 ∧ (s.hw.word R.HEEL_WAKE_EN).toNat.testBit 2 = true))) ∧
    (∃ (s : State) (mv : Nat), ((s.hw.ps = psDoze ∨ s.hw.ps = psWatch) ∧ s.hw.heel.slot ≠ 0 ∧ s.hw.heel.slot ≤ 3 ∧ (s.hw.word R.HEEL_WAKE_EN).toNat.testBit 3 = true) ∧ (s.hw.enabledSources s.hw.heel.target).testBit (3) = true ∧ (if s.hw.flag R.HEEL_CMP_CFG_V_POL = true then 5 * s.hw.get R.HEEL_CMP_CFG_V_TH < mv else mv < 5 * s.hw.get R.HEEL_CMP_CFG_V_TH)) ∧
    (∃ (s : State) (mv : Nat), ((s.hw.ps = psDoze ∨ s.hw.ps = psWatch) ∧ s.hw.heel.slot ≠ 0 ∧ s.hw.heel.slot ≤ 3 ∧ (s.hw.word R.HEEL_WAKE_EN).toNat.testBit 3 = true) ∧ ¬ (if s.hw.flag R.HEEL_CMP_CFG_V_POL = true then 5 * s.hw.get R.HEEL_CMP_CFG_V_TH < mv else mv < 5 * s.hw.get R.HEEL_CMP_CFG_V_TH)) ∧
    (∃ (s : State) (mv : Nat), (¬ ((s.hw.ps = psDoze ∨ s.hw.ps = psWatch) ∧ s.hw.heel.slot ≠ 0 ∧ s.hw.heel.slot ≤ 3 ∧ (s.hw.word R.HEEL_WAKE_EN).toNat.testBit 3 = true))) ∧
    (∃ (s : State) (n : Fin 4) (high : Bool), s.hw.ps ≠ psWatch ∧ ¬ (high != (s.hw.get R.HEEL_PIN_CFG_POL).testBit n) = true) ∧
    (∃ (s : State) (n : Fin 4) (high : Bool), (s.hw.ps = psDoze ∨ s.hw.ps = psOff) ∧ s.hw.heel.por = false ∧ (high != (s.hw.get R.HEEL_PIN_CFG_POL).testBit n) = true ∧ (s.hw.enabledSources s.hw.heel.target).testBit (4 + n.val) = true) ∧
    (∃ (s : State) (n : Fin 4) (high : Bool), (s.hw.ps = psRun ∨ s.hw.ps = psWaking ∨ s.hw.ps = psDiagnostic) ∧ s.hw.heel.por = false ∧ (high != (s.hw.get R.HEEL_PIN_CFG_POL).testBit n) = true) ∧
    (∃ (s : State) (w : WakeSight) (k j : Nat), s.hw.ps = psDoze ∧ s.hw.fromSaved.flag R.ETH_WAKE_CTL_EN = true ∧ s.hw.fromSaved.wakeCause w = some (k, j) ∧ k < 4 ∧ j < 8 ∧ (s.hw.enabledSources s.hw.heel.target).testBit (0) = true) ∧
    (∃ (s : State) (w : WakeSight), (s.hw.ps ≠ psDoze ∨ s.hw.fromSaved.flag R.ETH_WAKE_CTL_EN = false ∨ s.hw.fromSaved.wakeCause w = none)) ∧
    (∃ (s : State) (k : Nat), s.hw.heel.wake = some k ∧ k < 16 ∧ s.hw.asleep = true) ∧
    (∃ (s : State), (s.hw.heel.wake = none ∨ s.hw.asleep = false)) ∧
    (∃ (s : State) (rail : Bool), s.hw.ps = psWaking ∧ (if rail then s.hw.heel.railEn else s.hw.heel.coreEn) = true) ∧
    (∃ (s : State) (rail : Bool), (s.hw.ps ≠ psWaking ∨ (if rail then s.hw.heel.railEn else s.hw.heel.coreEn) = false)) ∧
    (∃ (s : State) (n d : Nat), s.hw.ps = psWaking ∧ tget s.hw.timers .refWindow = some d ∧ 37891 ≤ n ∧ n ≤ 40234) ∧
    (∃ (s : State) (n d : Nat), s.hw.ps = psWaking ∧ tget s.hw.timers .refWindow = some d ∧ (n < 37891 ∨ 40234 < n)) ∧
    (∃ (s : State) (k : Fin 3) (d : Nat), s.hw.ps = psWaking ∧ s.hw.heel.powered = false ∧ tget s.hw.timers (.wakeTry (k.val + 1)) = some d ∧ s.hw.get R.HEEL_WFAIL_TRIES < 2) ∧
    (∃ (s : State) (k : Fin 3) (d : Nat), s.hw.ps = psWaking ∧ s.hw.heel.powered = false ∧ tget s.hw.timers (.wakeTry (k.val + 1)) = some d ∧ s.hw.get R.HEEL_WFAIL_TRIES = 2) ∧
    (∃ (s : State) (d : Nat), s.hw.ps = psWaking ∧ tget s.hw.timers .offWait = some d) ∧
    (∃ (s : State), s.hw.mainUp = true ∧ (s.hw.ps ≠ psWaking ∨ s.hw.get R.SYS_RST_REC_CAUSE ≠ 7 ∨ s.hw.boot.restored = true)) ∧
    (∃ (s : State), s.hw.mainUp = true ∧ s.hw.ps = psWaking ∧ s.hw.get R.SYS_RST_REC_CAUSE = 7 ∧ s.hw.boot.restored = false ∧ s.hw.iltil.tag = none) ∧
    (∃ (s : State), s.hw.mainUp = true ∧ s.hw.ps = psWaking ∧ s.hw.get R.SYS_RST_REC_CAUSE = 7 ∧ s.hw.boot.restored = false ∧ s.hw.boot.waits = true) ∧
    (∃ (s : State), s.hw.mainUp = true ∧ s.hw.ps = psWaking ∧ s.hw.boot.restored = true ∧ s.hw.boot.waits = false ∧ s.hw.drcState ≠ drcSelfRefresh ∧ s.hw.flag R.HEEL_PS_STAT_PEND = false) ∧
    (∃ (s : State), s.hw.mainUp = true ∧ (s.hw.ps ≠ psWaking ∨ s.hw.boot.restored = false ∨ s.hw.boot.waits = true ∨ s.hw.drcState = drcSelfRefresh)) :=
  ⟨⟨wit (fun h => (h.set R.HEEL_PS_STAT_STATE 3).startAt .watch 9000000), 9000000, by decide +kernel⟩,
   ⟨wit (fun h => ((h.set R.HEEL_PS_STAT_STATE 3)).modHeel fun u => { u with slot := 1, target := 2 }), ((.frame true true 0 false)), by decide +kernel⟩,
   ⟨wit (fun h => ((h.set R.HEEL_PS_STAT_STATE 3)).modHeel fun u => { u with slot := 1, target := 2 }), ((.energy (-30) 20)), by decide +kernel⟩,
   ⟨wit (fun h => h), ((.energy (-30) 20)), by decide +kernel⟩,
   ⟨wit (fun h => ((h.set R.HEEL_PS_STAT_STATE 3) |>.set R.HEEL_CMP_CFG_T_LO 0xF0 |>.set R.HEEL_CMP_CFG_T_HI 80).modHeel fun u => { u with slot := 1, target := 2 }), (-127), by decide +kernel⟩,
   ⟨wit (fun h => ((h.set R.HEEL_PS_STAT_STATE 3) |>.set R.HEEL_CMP_CFG_T_LO 0xF0 |>.set R.HEEL_CMP_CFG_T_HI 80).modHeel fun u => { u with slot := 1, target := 2 }), 20, by decide +kernel⟩,
   ⟨wit (fun h => h), 20, by decide +kernel⟩,
   ⟨wit (fun h => ((h.set R.HEEL_PS_STAT_STATE 3) |>.set R.HEEL_WAKE_EN_SUPPLY 1 |>.set R.HEEL_CMP_CFG_V_TH 100).modHeel fun u => { u with slot := 1, target := 2 }), 3, by decide +kernel⟩,
   ⟨wit (fun h => ((h.set R.HEEL_PS_STAT_STATE 3) |>.set R.HEEL_WAKE_EN_SUPPLY 1 |>.set R.HEEL_CMP_CFG_V_TH 100).modHeel fun u => { u with slot := 1, target := 2 }), 3000, by decide +kernel⟩,
   ⟨wit (fun h => h), 3000, by decide +kernel⟩,
   ⟨wit (fun h => h), 1, false, by decide +kernel⟩,
   ⟨wit (fun h => ((h.set R.HEEL_PS_STAT_STATE 4) |>.set R.HEEL_WAKE_EN_PIN 2).modHeel fun u => { u with slot := 0, target := 3 }), 1, true, by decide +kernel⟩,
   ⟨wit (fun h => h), 1, true, by decide +kernel⟩,
   ⟨wit (fun h => ((h.set R.HEEL_PS_STAT_STATE 2).set R.HEEL_WAKE_EN_ETH 1).modHeel fun u => { u with target := 1, saved := some ((({ h with regs := [] }).set R.ETH_WAKE_CTL_EN 1).set R.ETH_WAKE_CTL_LINK_EN 1).regs }), .linkChange, 3, 0, by decide +kernel⟩,
   ⟨wit (fun h => h), .linkChange, by decide +kernel⟩,
   ⟨wit (fun h => (h.set R.HEEL_PS_STAT_STATE 3).modHeel fun u => { u with wake := some 5, refEn := false, coreEn := false }), 5, by decide +kernel⟩,
   ⟨wit (fun h => h), by decide +kernel⟩,
   ⟨wit (fun h => (h.set R.HEEL_PS_STAT_STATE 5).modHeel fun u => { u with powered := false, railPg := false }), true, by decide +kernel⟩,
   ⟨wit (fun h => h), true, by decide +kernel⟩,
   ⟨wit (fun h => ((h.set R.HEEL_PS_STAT_STATE 5).startAt .refWindow 9000000).modHeel fun u => { u with powered := false, refOk := false }), 40234, 9000000, by decide +kernel⟩,
   ⟨wit (fun h => ((h.set R.HEEL_PS_STAT_STATE 5).startAt .refWindow 9000000).modHeel fun u => { u with powered := false, refOk := false }), 37890, 9000000, by decide +kernel⟩,
   ⟨wit (fun h => ((h.set R.HEEL_PS_STAT_STATE 5).startAt (.wakeTry 2) 9000000).modHeel fun u => { u with powered := false }), 1, 9000000, by decide +kernel⟩,
   ⟨wit (fun h => (((h.set R.HEEL_PS_STAT_STATE 5).set R.HEEL_WFAIL_TRIES 2).startAt (.wakeTry 2) 9000000).modHeel fun u => { u with powered := false }), 1, 9000000, by decide +kernel⟩,
   ⟨wit (fun h => (h.set R.HEEL_PS_STAT_STATE 5).startAt .offWait 9000000), 9000000, by decide +kernel⟩,
   ⟨wit (fun h => h), by decide +kernel⟩,
   ⟨wit (fun h => (h.set R.HEEL_PS_STAT_STATE 5).set R.SYS_RST_REC_CAUSE 7), by decide +kernel⟩,
   ⟨wit (fun h => (h.set R.HEEL_PS_STAT_STATE 5).set R.SYS_RST_REC_CAUSE 7), by decide +kernel⟩,
   ⟨wit (fun h => { h.set R.HEEL_PS_STAT_STATE 5 with boot := { h.boot with restored := true, waits := false } }), by decide +kernel⟩,
   ⟨wit (fun h => h), by decide +kernel⟩⟩

theorem witness_LockHeldRefusesEntry : ∃ (s : State) (c : Instr) (t : Nat) (i : Nat), s.hw.mainUp = true ∧ (c = .dozeRequest ∧ t = 1 ∨ c = .watchRequest ∧ t = 2 ∨ c = .offRequest ∧ t = 3) ∧ s.hw.ps = psRun ∧ s.hw.flag R.ILT_LC_STAT_BUSY = false ∧ i < 1024 ∧ s.hw.get (R.SHK_LOCK_STAT_HELD i) = 1 :=
  ⟨wit (fun h => h.set (R.SHK_LOCK_STAT_HELD 7) 1), (.dozeRequest), 1, 7, by decide +kernel⟩

theorem witness_LossResetAndRelease :
    (∃ (s : State), True) ∧
    (∃ (s : State), True) ∧
    (∃ (s : State), s.hw.heel.por = true) ∧
    (∃ (s : State), s.hw.heel.por = false) ∧
    (∃ (s : State) (k : Nat), s.hw.boot.reset = some k ∧ k < 8 ∧ s.hw.heel.powered = true ∧ k ≠ 7) ∧
    (∃ (s : State) (k : Nat), s.hw.boot.reset = some k ∧ k < 8 ∧ s.hw.heel.powered = true ∧ k = 7) ∧
    (∃ (s : State), (s.hw.boot.reset = none ∨ s.hw.heel.powered = false)) ∧
    (∃ (s : State) (m : Fin 27), s.hw.mainUp = true ∧ (m.val = 0 ∨ m.val = 25 ∧ s.hw.fullSession = true) ∧ s.hw.inRun = true ∧ s.hw.flag R.ILT_LC_STAT_BUSY = false) ∧
    (∃ (s : State) (m : Fin 27), s.hw.mainUp = true ∧ (¬ (m.val = 0 ∨ m.val = 25 ∧ s.hw.fullSession = true) ∨ s.hw.inRun = false ∨ s.hw.flag R.ILT_LC_STAT_BUSY = true)) :=
  ⟨⟨wit (fun h => h.setBytes 0x10000007 [1] |>.setBytes 0x1000000000 [2]), by decide +kernel⟩,
   ⟨wit (fun h => h.setBytes 0x10000007 [1] |>.setBytes 0x1000000000 [2]), by decide +kernel⟩,
   ⟨wit (fun h => h.modHeel fun u => { u with por := true }), by decide +kernel⟩,
   ⟨wit (fun h => h), by decide +kernel⟩,
   ⟨wit (fun h => ({ h with boot := { h.boot with reset := some 3 } }).setBytes 0x1000000005 [3] |>.setBytes 0x30000000 [4]), 3, by decide +kernel⟩,
   ⟨wit (fun h => ({ h with boot := { h.boot with reset := some 7 } }).setBytes 0x1000000005 [3]), 7, by decide +kernel⟩,
   ⟨wit (fun h => h), by decide +kernel⟩,
   ⟨wit (fun h => ((h.set R.TIME_RATE_RATE 5).set (R.SHK_LOCK_STAT_HELD 3) 1).set R.HEEL_CMP_CFG_T_HI 3), 0, by decide +kernel⟩,
   ⟨wit (fun h => h), 1, by decide +kernel⟩⟩

theorem witness_BootAndRecovery :
    (∃ (s : State) (f : Flash), s.hw.mainUp = true ∧ flashSound f = true ∧ (s.hw.boot.waits = false ∨ s.hw.get R.SYS_RST_REC_CAUSE = 7 ∧ s.hw.boot.restored = false)) ∧
    (∃ (s : State) (f : Flash), s.hw.mainUp = true ∧ flashSound f = true ∧ s.hw.boot.waits = true ∧ s.hw.get R.SYS_RST_REC_CAUSE = 7 ∧ s.hw.boot.restored = true) ∧
    (∃ (s : State) (f : Flash), s.hw.mainUp = true ∧ flashSound f = true ∧ s.hw.boot.waits = true ∧ s.hw.get R.SYS_RST_REC_CAUSE ≠ 7 ∧ s.hw.lifecycle = lcRetired) ∧
    (∃ (s : State) (f : Flash), s.hw.mainUp = true ∧ flashSound f = true ∧ s.hw.boot.waits = true ∧ s.hw.get R.SYS_RST_REC_CAUSE ≠ 7 ∧ s.hw.lifecycle ≠ lcRetired ∧ (f.mode.val = 0 ∨ (ImageHeader.mk f.copy0.header).constant = false ∧ (ImageHeader.mk f.copy1.header).constant = false ∧ (ImageHeader.mk f.copy2.header).constant = false ∧ (ImageHeader.mk f.copy0.header).placed = false ∧ (ImageHeader.mk f.copy1.header).placed = false ∧ (ImageHeader.mk f.copy2.header).placed = false)) ∧
    (∃ (s : State) (f : Flash), s.hw.mainUp = true ∧ flashSound f = true ∧ s.hw.boot.waits = true ∧ s.hw.get R.SYS_RST_REC_CAUSE ≠ 7 ∧ s.hw.lifecycle = lcBlank ∧ f.mode.val ≠ 0 ∧ (ImageHeader.mk f.copy0.header).constant = true ∧ (ImageHeader.mk f.copy0.header).placed = true ∧ (ImageHeader.mk f.copy0.header).rma = false ∧ (ImageHeader.mk f.copy1.header).svn ≤ (ImageHeader.mk f.copy0.header).svn ∧ (ImageHeader.mk f.copy0.header).enc = false) ∧
    (∃ (s : State) (src : BitVec 48) (seq : BitVec 16) (o : Word) (data : List Byte) (c : Instr), s.hw.mainUp = true ∧ s.hw.recovering = false ∧ (c = .recoveryHello src seq ∨ c = .recoveryWrite src seq o data ∨ c = .recoveryBoot src seq)) ∧
    (∃ (s : State) (src : BitVec 48) (seq : BitVec 16), s.hw.mainUp = true ∧ s.hw.recovering = true) ∧
    (∃ (s : State) (src : BitVec 48) (seq : BitVec 16) (offset : Word) (data : List Byte), s.hw.mainUp = true ∧ s.hw.recovering = true ∧ (1024 < data.length ∨ (data.drop (512 - offset.toNat)) ≠ [] ∧ ¬ ((ImageHeader.mk s.hw.boot.header).magic = true ∧ 0x11000000 ≤ ((ImageHeader.mk s.hw.boot.header).load + (max offset.toNat 512 - 512)) ∧ ((ImageHeader.mk s.hw.boot.header).load + (max offset.toNat 512 - 512)) + (data.drop (512 - offset.toNat)).length ≤ 0x11800000))) ∧
    (∃ (s : State) (src : BitVec 48) (seq : BitVec 16) (offset : Word) (data : List Byte), s.hw.mainUp = true ∧ s.hw.recovering = true ∧ (¬ (1024 < data.length ∨ (data.drop (512 - offset.toNat)) ≠ [] ∧ ¬ ((ImageHeader.mk s.hw.boot.header).magic = true ∧ 0x11000000 ≤ ((ImageHeader.mk s.hw.boot.header).load + (max offset.toNat 512 - 512)) ∧ ((ImageHeader.mk s.hw.boot.header).load + (max offset.toNat 512 - 512)) + (data.drop (512 - offset.toNat)).length ≤ 0x11800000)))) ∧
    (∃ (s : State) (src : BitVec 48) (seq : BitVec 16), s.hw.mainUp = true ∧ s.hw.recovering = true) :=
  ⟨⟨wit (fun h => { h with boot := { h.boot with waits := false } }), (⟨0, ⟨(List.replicate 352 0), []⟩, ⟨(List.replicate 352 0), []⟩, ⟨(List.replicate 352 0), []⟩⟩), by decide +kernel⟩,
   ⟨wit (fun h => { h.set R.SYS_RST_REC_CAUSE 7 with boot := { h.boot with restored := true } }), (⟨0, ⟨(List.replicate 352 0), []⟩, ⟨(List.replicate 352 0), []⟩, ⟨(List.replicate 352 0), []⟩⟩), by decide +kernel⟩,
   ⟨wit (fun h => h.set R.ILT_LC_STAT_STATE 4), (⟨1, ⟨(List.replicate 352 0), []⟩, ⟨(List.replicate 352 0), []⟩, ⟨(List.replicate 352 0), []⟩⟩), by decide +kernel⟩,
   ⟨wit (fun h => h), (⟨0, ⟨(List.replicate 352 0), []⟩, ⟨(List.replicate 352 0), []⟩, ⟨(List.replicate 352 0), []⟩⟩), by decide +kernel⟩,
   ⟨wit (fun h => h), (⟨2, ⟨([0x53, 0x54, 0x4E, 0x31, 1, 0, 0, 0] ++ List.replicate 8 0 ++ [0,0,0,0x11,0,0,0,0, 0,0,0,0x11,0,0,0,0, 64,0,0,0, 0xFF,0xFF,0xFF,0xFF] ++ List.replicate 312 0), []⟩, ⟨(List.replicate 352 0), []⟩, ⟨(List.replicate 352 0), []⟩⟩), by decide +kernel⟩,
   ⟨wit (fun h => h), 1, 2, 0, [], ((.recoveryHello 1 2)), by decide +kernel⟩,
   ⟨wit (fun h => { ((h.set (R.ETH_FSTAT_STATE 0) 2).set (R.ETH_PSTAT_LINK 0) 1) with boot := { h.boot with recovery := true, header := [] } }), 1, 2, by decide +kernel⟩,
   ⟨wit (fun h => { ((h.set (R.ETH_FSTAT_STATE 0) 2).set (R.ETH_PSTAT_LINK 0) 1) with boot := { h.boot with recovery := true, header := List.replicate 512 0 } }), 1, 2, 600, ([1, 2]), by decide +kernel⟩,
   ⟨wit (fun h => { ((h.set (R.ETH_FSTAT_STATE 0) 2).set (R.ETH_PSTAT_LINK 0) 1) with boot := { h.boot with recovery := true, header := List.replicate 512 0 } }), 1, 2, 4, ([1, 2]), by decide +kernel⟩,
   ⟨wit (fun h => { ((h.set (R.ETH_FSTAT_STATE 0) 2).set (R.ETH_PSTAT_LINK 0) 1) with boot := { h.boot with recovery := true, header := List.replicate 512 0 } }), 1, 2, by decide +kernel⟩⟩

end Sys2Proof.Tests
end

section
/-!
SUPPORT. Every command leaves by one of the two doors of the machine, and what that says of all commands at once: each
completes, and one that names nothing the device has, or that meets main domains off or in reset, changes nothing.
-/
namespace Sys2Proof.Machine

/-! ### The checks of the operands are those of a well-formed command -/

theorem lt_chainsOf_eq (x c : Nat) : decide (c < chainsOf x) = chainExists x c := rfl

theorem fifoRegister_isSome (k : Fin 76) : (fifoRegister k).isSome = fifoExists k := by
  have hk : k.val < 76 := k.isLt -- so that 64 ≤ k alone makes it a lane
  unfold fifoRegister fifoExists
  split
  · next h => simp [h, ← lt_chainsOf_eq]
  · next h => split <;> simp_all [← lt_chainsOf_eq]

theorem egressAssigned_eq (e : Fin 80) : egressAssigned e = (decide (e.val ≤ 11) || decide (16 ≤ e.val)) := by
  have he : e.val ≤ 79 := Nat.le_of_lt_succ e.isLt
  simp [egressAssigned, he]

/-! ### The doors -/

/-- A command whose operands are all instances of the device needs no check of them. -/
theorem State.effect_eq_effectIf_true (s : State) (f : Hw → Hw) : s.effect f = s.effectIf true f := rfl

/-- A command of the Heel has no operand to check and takes effect in every state; every other one takes effect only
on operands that the manual gives and while the main domains are up. -/
theorem exec_leaves_by_door (c : Instr) (s : State) :
    (toHeel c = true ∧ c.wellFormed = true ∧ ∃ f, exec c s = s.effectHeel f) ∨
    (toHeel c = false ∧ ∃ f, exec c s = s.effectIf c.wellFormed f) := by
  cases c <;> dsimp only [exec]
  case entryComplete | watchPeriodStart | wurMatch | tempCompare | supplyCompare | wakePin | wakeStart | powerGood
      | referenceWindowEnd | wakeTryFail | offWaitEnd | brownOut | vddHeelInLoss | heelPorRelease | mainResetRelease
      | wakeFrameDetect => exact .inl ⟨rfl, rfl, _, rfl⟩
  -- the check of these is the one of `wellFormed`, under the model's own names of its parts
  case converterRxOverrun | converterTxUnderrun | adcClipGainDrop | tuneApply | vswrAlarmClear | cancReset
      | shankAccess | latchingRead | imageVerify | core0Boot => exact .inr ⟨rfl, _, rfl⟩
  case hwmClr k => exact .inr ⟨rfl, _, congrArg (s.effectIf · _) (fifoRegister_isSome k)⟩
  case egressRequest e => exact .inr ⟨rfl, _, congrArg (s.effectIf · _) (egressAssigned_eq e)⟩
  -- the others have no operand to check
  all_goals exact .inr ⟨rfl, _, s.effect_eq_effectIf_true _⟩

/-! ### What every command keeps to -/

theorem unchanged_canon (h : Hw) : Unchanged h h.canon := ⟨fun _ _ => rfl, h.canon_byte, rfl⟩

/-- The door with a check of the operands turns every command away while the main domains are off or in reset. -/
theorem State.effectIf_down (s : State) (ok : Bool) (f : Hw → Hw) (h : s.hw.mainUp = false) :
    s.effectIf ok f = .next ⟨s.hw.canon, s.pending⟩ := s.effect_down _ h

theorem State.effectIf_completes (s : State) (ok : Bool) (f : Hw → Hw) : ∃ h, s.effectIf ok f = .next ⟨h, s.pending⟩ :=
  ⟨_, s.effectHeel_eq _⟩

/-- A command that answers the hardware it found leaves it unchanged. -/
theorem gives_unchanged {c : Instr} {s : State} (h : exec c s = .next ⟨s.hw.canon, s.pending⟩) :
    Gives c s fun h => Unchanged s.hw h := ⟨_, h, unchanged_canon s.hw⟩

theorem exec_completes (c : Instr) (s : State) : Gives c s fun _ => True := by
  obtain ⟨-, -, f, hf⟩ | ⟨-, f, hf⟩ := exec_leaves_by_door c s
  · exact ⟨_, hf.trans (s.effectHeel_eq f), trivial⟩
  · obtain ⟨h, hh⟩ := s.effectIf_completes c.wellFormed f
    exact ⟨h, hf.trans hh, trivial⟩

theorem exec_illFormed (c : Instr) (s : State) (hc : c.wellFormed = false) : Gives c s fun h => Unchanged s.hw h := by
  obtain ⟨-, hw, -⟩ | ⟨-, f, hf⟩ := exec_leaves_by_door c s
  · exact absurd hw (by simp [hc])
  · exact gives_unchanged (hf.trans (s.effectIf_absent _ f hc))

theorem exec_mainDown (c : Instr) (s : State) (hs : s.hw.mainUp = false) (hc : toHeel c = false) :
    Gives c s fun h => Unchanged s.hw h := by
  obtain ⟨hh, -⟩ | ⟨-, f, hf⟩ := exec_leaves_by_door c s
  · exact absurd hh (by simp [hc])
  · exact gives_unchanged (hf.trans (s.effectIf_down _ f hs))

/-- Settles O5: the doors of exec_leaves_by_door complete, and turn away what they check for. -/
theorem everyCommandCompletes : Obligations.EveryCommandCompletes := fun c s =>
  ⟨exec_completes c s, exec_illFormed c s, exec_mainDown c s⟩

end Sys2Proof.Machine
end

section
/-!
SUPPORT. The state after the release of the main-domain reset of a power-on: the registers listed in it, and the reset
word of every other.
-/
namespace Sys2Proof.Machine

/-! ### Sparse tables by their keys -/

theorem kget_eq_none_of_notMem {α : Type} (m : NMap α) (k : Nat) (h : k ∉ m.map Prod.fst) : kget m k = none := by
  induction m with
  | nil => rfl
  | cons p t ih =>
    obtain ⟨k', v⟩ := p
    simp only [List.map_cons, List.mem_cons, not_or] at h
    rw [kget, if_neg h.1, ih h.2]

theorem kget_eq_some_of_mem {α : Type} (m : NMap α) {k : Nat} {v : α} (hm : (m.map Prod.fst).Nodup) (h : (k, v) ∈ m) :
    kget m k = some v := by
  induction m with
  | nil => cases h
  | cons p t ih =>
    obtain ⟨k', v'⟩ := p
    obtain ⟨hk', ht⟩ := List.nodup_cons.mp hm
    rcases List.mem_cons.mp h with heq | hmem
    · cases heq; rw [kget, if_pos rfl]
    · have hne : k ≠ k' := fun hkk => hk' (List.mem_map.mpr ⟨(k, v), hmem, hkk⟩)
      rw [kget, if_neg hne, ih ht hmem]

/-! ### The register table -/

/-- Where every row that covers `a` resets to 0, so does the row found for `a`. -/
theorem findRow_reset (rows : List RegRow) (a : Nat)
    (h : ∀ r ∈ rows, r.base ≤ a → inDims r.dims (a - r.base) = true → r.reset = 0) :
    ∀ r, findRow rows a = some r → r.reset = 0 := by
  induction rows with
  | nil => intro r hr; cases hr
  | cons q t ih =>
    intro r hr
    rw [findRow] at hr
    split at hr
    · next hq =>
      cases hr
      simp only [Bool.and_eq_true, decide_eq_true_eq] at hq
      exact h q List.mem_cons_self hq.1 hq.2
    · exact ih (fun r hr => h r (List.mem_cons_of_mem q hr)) r hr

/-- Of the rows of Shank's registers, those that do not reset to 0 lie below the locks. -/
theorem regRows403_reset {a : Nat} (ha : R.SHK_LOCK_STAT 0 ≤ a) :
    ∀ r ∈ regRows 0x403, r.base ≤ a → inDims r.dims (a - r.base) = true → r.reset = 0 := by
  simp only [R.SHK_LOCK_STAT] at ha
  simp only [regRows, regRows403_0, List.mem_cons, List.not_mem_nil, or_false, forall_eq_or_imp, inDims, beq_iff_eq,
    implies_true, OfNat.ofNat_ne_zero, imp_false, Bool.and_eq_true, decide_eq_true_eq, not_and, forall_eq, and_self,
    and_true, true_and]
  omega

/-- A lock register holds 0 at reset (R493). -/
theorem resetWord_lockStat {i : Nat} (hi : i < 1024) : resetWord (R.SHK_LOCK_STAT i) = 0 := by
  have hpage : R.SHK_LOCK_STAT i / 0x100000 = 0x403 := by simp only [R.SHK_LOCK_STAT]; omega
  have hrow := findRow_reset _ (R.SHK_LOCK_STAT i) (regRows403_reset (by simp only [R.SHK_LOCK_STAT]; omega))
  rw [resetWord, regRow, hpage]
  split
  · next r hr => rw [hrow r hr]; rfl
  · rfl

/-! ### The registers of the reset state -/

/-- The registers that do not hold their reset word at reset: SYS_RST_REC and the RSSI trims (R168, R569). -/
def resetListed : List Nat :=
  R.SYS_RST_REC :: ((List.range 4).map (R.PHY_RSSI_CAL 0) ++ (List.range 4).map (R.PHY_RSSI_CAL 1) ++
    (List.range 8).map (R.PHY_RSSI_CAL 2))

theorem reset_regs_keys : Hw.reset.regs.map Prod.fst = resetListed := rfl

theorem reset_regs_nodup : (Hw.reset.regs.map Prod.fst).Nodup := by rw [reset_regs_keys]; decide

theorem reset_word_of_mem {a : Nat} {w : Word} (h : (a, w) ∈ Hw.reset.regs) : Hw.reset.word a = w := by
  rw [Hw.word, kget_eq_some_of_mem _ reset_regs_nodup h]

theorem reset_word_of_notMem {a : Nat} (h : a ∉ resetListed) : Hw.reset.word a = resetWord a := by
  rw [Hw.word, kget_eq_none_of_notMem _ a (by rwa [reset_regs_keys])]

/-- Every trim of an existing chain is what OTP gives. -/
theorem reset_rssiCal {x c : Nat} (hx : x < 3) (hc : chainExists x c = true) :
    Hw.reset.word (R.PHY_RSSI_CAL x c) = (Config.rssiTrim (8 * x + c)).setWidth 32 := by
  have hmem {n : Nat} (h : c < n) :
      (R.PHY_RSSI_CAL x c, (Config.rssiTrim (8 * x + c)).setWidth 32) ∈ resetTrims x n :=
    List.mem_map.mpr ⟨c, List.mem_range.mpr h, rfl⟩
  have hlt : c < if x = 2 then 8 else 4 := of_decide_eq_true hc
  apply reset_word_of_mem
  refine List.mem_cons_of_mem _ ?_
  interval_cases x
  · exact List.mem_append_left _ (List.mem_append_left _ (hmem hlt))
  · exact List.mem_append_left _ (List.mem_append_right _ (hmem hlt))
  · exact List.mem_append_right _ (hmem hlt)

/-- No register listed at reset lies among the locks. -/
theorem resetListed_off_locks : ∀ a ∈ resetListed, a < R.SHK_LOCK_STAT 0 ∨ R.SHK_LOCK_STAT 1024 ≤ a := by decide

/-- A field of a register that is not listed reads as its reset word says. -/
theorem reset_get_of_notMem {f : RF} (h : f.addr ∉ resetListed) :
    Hw.reset.get f = bitsOf (resetWord f.addr) f.lo f.len := by rw [Hw.get, reset_word_of_notMem h]

/-- No lock is held at reset. -/
theorem reset_lockHeld {i : Nat} (hi : i < 1024) : Hw.reset.get (R.SHK_LOCK_STAT_HELD i) = 0 := by
  have hout : R.SHK_LOCK_STAT i ∉ resetListed := fun hmem => by
    have hoff := resetListed_off_locks _ hmem
    simp only [R.SHK_LOCK_STAT] at hoff
    omega
  rw [reset_get_of_notMem hout, R.SHK_LOCK_STAT_HELD, resetWord_lockStat hi]
  rfl

/-- What SYS_RST_REC records of the power-on: cause 0, HEEL_LOST and one cold boot (R569). -/
theorem reset_get_rstRec {f : RF} (h : f.addr = R.SYS_RST_REC) :
    Hw.reset.get f = bitsOf (0x00010100 : Word) f.lo f.len := by
  have hw : Hw.reset.word R.SYS_RST_REC = 0x00010100 := reset_word_of_mem List.mem_cons_self
  rw [Hw.get, h, hw]

/-- Settles O2: what is listed at reset reads as listed, everything else as its reset word says. -/
theorem resetState : Obligations.ResetState := by
  have hregs : RegsKept resetListed { Hw.reset with regs := [] } Hw.reset := fun a ha => reset_word_of_notMem ha
  have hcause : Hw.reset.get R.SYS_RST_REC_CAUSE = 0 := reset_get_rstRec rfl
  have hlost : Hw.reset.get R.SYS_RST_REC_HEEL_LOST = 1 := reset_get_rstRec rfl
  have hcold : Hw.reset.get R.SYS_RST_REC_COLD_CNT = 1 := reset_get_rstRec rfl
  have hps : Hw.reset.ps = psRun := reset_get_of_notMem (by decide)
  have hvalid : Hw.reset.get R.TIME_STAT_NT_VALID = 0 := reset_get_of_notMem (by decide)
  have hlife : Hw.reset.lifecycle = lcBlank := reset_get_of_notMem (by decide)
  exact ⟨hregs, fun x hx c _ hc => reset_rssiCal hx hc, hcause, hlost, hcold, hps, rfl, rfl, rfl, hvalid, fun _ => rfl,
    fun _ => rfl, fun _ hi => reset_lockHeld hi, fun _ => rfl, rfl, hlife, rfl, rfl, rfl⟩

end Sys2Proof.Machine
end

section
/-!
SUPPORT. The invariant of the machine: the reset state meets it, and every step answers a state that does.
-/
namespace Sys2Proof.Machine

/-- Whatever a command stored, the door by which its effect leaves puts memory into its canonical form. -/
theorem exec_sound {c : Instr} {s t : State} (h : exec c s = .next t) : t.Sound := by
  obtain ⟨-, -, f, hf⟩ | ⟨-, f, hf⟩ := exec_leaves_by_door c s
  · exact (State.effectHeel_next (hf.symm.trans h)).2.1
  · exact (State.effectIf_next (hf.symm.trans h)).2.1

/-- The nanosecond of an empty queue passes by the same door. -/
theorem idle_sound {s t : State} (h : s.idle = .next t) : t.Sound := (State.effectHeel_next h).2.1

/-- A step is the command in front, or the passing of time where none waits. -/
theorem step_sound {s t : State} (h : step s = .next t) : t.Sound := by
  unfold step at h
  split at h
  · exact idle_sound h
  · exact exec_sound h

/-- Settles O3: at reset nothing has been written. -/
theorem memoryCanonicalAtReset : Obligations.MemoryCanonicalAtReset := rfl

/-- Settles O4: a step answers canonical memory, whatever memory it found. -/
theorem memoryStaysCanonical : Obligations.MemoryStaysCanonical := fun _ _ _ h => step_sound h

end Sys2Proof.Machine
end

section
/-!
SUPPORT. Updates that change registers alone, the 40-bit counters of R336, and the errors that Shank logs (R481).
-/
namespace Sys2Proof.Machine

/-! ### Changes of registers alone -/

theorem RegsKept.trans {as : List Nat} {h h' h'' : Hw} (h1 : RegsKept as h h') (h2 : RegsKept as h' h'') :
    RegsKept as h h'' := fun a ha => (h2 a ha).trans (h1 a ha)

theorem RegsKept.canon {as : List Nat} {h h' : Hw} (hr : RegsKept as h h') : RegsKept as h h'.canon := hr

theorem MemKept.canon {h h' : Hw} (hm : MemKept h h') : MemKept h h'.canon := fun a => (h'.canon_byte a).trans (hm a)

theorem OnlyRegs.mono {as bs : List Nat} {h h' : Hw} (ho : OnlyRegs as h h') (hs : as ⊆ bs) : OnlyRegs bs h h' := by
  obtain ⟨hregs, hmem, hrest⟩ := ho
  exact ⟨fun a ha => hregs a fun hin => ha (hs hin), hmem, hrest⟩

theorem OnlyRegs.trans {as : List Nat} {h h' h'' : Hw} (h1 : OnlyRegs as h h') (h2 : OnlyRegs as h' h'') :
    OnlyRegs as h h'' := by
  obtain ⟨hregs, hmem, hrest⟩ := h1
  obtain ⟨hregs', hmem', hrest'⟩ := h2
  refine ⟨hregs.trans hregs', fun a => (hmem' a).trans (hmem a), ?_⟩
  have hback : { h'' with regs := h.regs, mem := h.mem } =
      { ({ h'' with regs := h'.regs, mem := h'.mem } : Hw) with regs := h.regs, mem := h.mem } := rfl
  rw [hback, hrest', hrest]

theorem OnlyRegs.canon {as : List Nat} {h h' : Hw} (ho : OnlyRegs as h h') : OnlyRegs as h h'.canon := by
  obtain ⟨hregs, hmem, hrest⟩ := ho
  exact ⟨hregs, hmem.canon, hrest⟩

theorem OnlyRegs.shank_eq {as : List Nat} {h h' : Hw} (ho : OnlyRegs as h h') : h'.shank = h.shank := by
  obtain ⟨-, -, hrest⟩ := ho
  exact congrArg (·.shank) hrest

theorem onlyRegs_set {as : List Nat} (h : Hw) {f : RF} (v : Nat) (hf : f.addr ∈ as) : OnlyRegs as h (h.set f v) :=
  ⟨fun _ ha => Hw.word_set_ne h f v fun hb => ha (hb ▸ hf), fun _ => rfl, rfl⟩

theorem onlyRegs_setAt (h : Hw) {a : Nat} (f : RF) (v : Nat) (hf : f.addr = a) : OnlyRegs [a] h (h.set f v) :=
  onlyRegs_set h v (by simp [hf])

/-- Fields whose bits stand in order share none, at whatever address they are. -/
theorem apart_of_bits {f g : RF} (h : (decide (f.lo + f.len ≤ g.lo) || decide (g.lo + g.len ≤ f.lo)) = true) :
    apart f g := .inr (by simpa using h)

theorem fits_of_bits {f : RF} (h : decide (f.lo + f.len ≤ 32) = true) : fits f := by simpa [fits] using h

/-! ### The 40-bit counters -/

/-- `lo` and `hi` hold a 40-bit counter, and `half` is a field apart from both. -/
structure Counter40 (lo hi half : RF) : Prop where
  fitsLo : fits lo
  lenLo : lo.len = 32
  fitsHi : fits hi
  lenHi : hi.len = 8
  loHi : apart lo hi
  hiLo : apart hi lo
  halfLo : apart half lo
  halfHi : apart half hi

/-- A counter that rises sets its two registers, and HALF_EV or not. -/
theorem Hw.count40_cases (h : Hw) (lo hi half : RF) (n : Nat) : ∃ v, v = (h.get lo + 2 ^ 32 * h.get hi + n) % 2 ^ 40 ∧
    (h.count40 lo hi half n = (h.set lo v).set hi (v / 2 ^ 32) ∨
      h.count40 lo hi half n = ((h.set lo v).set hi (v / 2 ^ 32)).set half 1) := by
  refine ⟨_, rfl, ?_⟩
  simp only [Hw.count40]
  split
  · exact .inr rfl
  · exact .inl rfl

theorem Hw.count40_onlyRegs (h : Hw) (lo hi half : RF) (n : Nat) :
    OnlyRegs [lo.addr, hi.addr, half.addr] h (h.count40 lo hi half n) := by
  obtain ⟨v, -, hv⟩ := h.count40_cases lo hi half n
  have hset : OnlyRegs [lo.addr, hi.addr, half.addr] h ((h.set lo v).set hi (v / 2 ^ 32)) :=
    (onlyRegs_set _ _ (by simp)).trans (onlyRegs_set _ _ (by simp))
  rcases hv with hv | hv <;> rw [hv]
  · exact hset
  · exact hset.trans (onlyRegs_set _ _ (by simp))

theorem Hw.get_count40_apart (h : Hw) {lo hi half g : RF} (n : Nat) (hlo : apart lo g) (hhi : apart hi g)
    (hhalf : apart half g) : (h.count40 lo hi half n).get g = h.get g := by
  obtain ⟨v, -, hv | hv⟩ := h.count40_cases lo hi half n <;>
    simp only [hv, Hw.get_set_apart _ _ _ _ hlo, Hw.get_set_apart _ _ _ _ hhi, Hw.get_set_apart _ _ _ _ hhalf]

/-- The counter has risen by `n`, modulo 2^40. -/
theorem Hw.count40_value (h : Hw) {lo hi half : RF} (n : Nat) (hc : Counter40 lo hi half) :
    (h.count40 lo hi half n).get lo + 2 ^ 32 * (h.count40 lo hi half n).get hi =
      (h.get lo + 2 ^ 32 * h.get hi + n) % 2 ^ 40 := by
  obtain ⟨v, hval, hv⟩ := h.count40_cases lo hi half n
  have hsum : ((h.set lo v).set hi (v / 2 ^ 32)).get lo + 2 ^ 32 * ((h.set lo v).set hi (v / 2 ^ 32)).get hi = v := by
    rw [Hw.get_set_self _ hi _ hc.fitsHi, Hw.get_set_apart _ _ _ _ hc.hiLo, Hw.get_set_self _ lo _ hc.fitsLo,
      hc.lenLo, hc.lenHi]
    omega
  rcases hv with hv | hv <;> rw [hv, ← hval]
  · exact hsum
  · rw [Hw.get_set_apart _ _ _ _ hc.halfLo, Hw.get_set_apart _ _ _ _ hc.halfHi, hsum]

/-! ### The error log -/

theorem shankErrCounter : Counter40 R.SHK_ERR_CNT_LO_CNT R.SHK_ERR_CNT_HI_CNT R.SHK_STAT_HALF_EV where
  fitsLo := by unfold fits; decide
  lenLo := rfl
  fitsHi := by unfold fits; decide
  lenHi := rfl
  loHi := by unfold apart; decide
  hiLo := by unfold apart; decide
  halfLo := by unfold apart; decide
  halfHi := by unfold apart; decide

/-- A counted error leaves what SHK_ERR records, and whether it does. -/
theorem Hw.shankCount_onlyRegs (h : Hw) :
    OnlyRegs [R.SHK_ERR_CNT_LO, R.SHK_ERR_CNT_HI, R.SHK_STAT] h
      (h.count40 R.SHK_ERR_CNT_LO_CNT R.SHK_ERR_CNT_HI_CNT R.SHK_STAT_HALF_EV) :=
  h.count40_onlyRegs R.SHK_ERR_CNT_LO_CNT R.SHK_ERR_CNT_HI_CNT R.SHK_STAT_HALF_EV 1

theorem Hw.shankError_onlyRegs (h : Hw) (m a k : Nat) (w : Bool) : OnlyRegs shankErrorRegs h (h.shankError m a k w) := by
  have hcount := h.shankCount_onlyRegs.mono (bs := shankErrorRegs) (by decide)
  simp only [Hw.shankError]
  split
  · exact hcount
  · have hset (h : Hw) {f : RF} (v : Nat) (hf : f.addr ∈ shankErrorRegs) := onlyRegs_set h v hf
    exact hcount.trans <| (hset _ _ (by decide)).trans <| (hset _ _ (by decide)).trans <| (hset _ _ (by decide)).trans <|
      (hset _ _ (by decide)).trans <| (hset _ _ (by decide)).trans (hset _ _ (by decide))

/-- A flag that is set reads 1. -/
theorem Hw.get_of_flag {h : Hw} {f : RF} (hl : f.len = 1) (hf : h.flag f = true) : h.get f = 1 := by
  have hlt := h.get_lt f
  rw [hl] at hlt
  simp only [Hw.flag, bne_iff_ne] at hf
  omega

/-- An error is counted and, where no record stands, recorded. -/
theorem Hw.shankError_logged (h : Hw) (m a k : Nat) (w : Bool) (hk : k < 4) : Logged h (h.shankError m a k w) m a k w := by
  let c := h.count40 R.SHK_ERR_CNT_LO_CNT R.SHK_ERR_CNT_HI_CNT R.SHK_STAT_HALF_EV
  have hval : c.get R.SHK_ERR_CNT_LO_CNT + 2 ^ 32 * c.get R.SHK_ERR_CNT_HI_CNT = _ := h.count40_value 1 shankErrCounter
  have hev : c.get R.SHK_STAT_ERR_EV = h.get R.SHK_STAT_ERR_EV :=
    h.get_count40_apart 1 (by unfold apart; decide) (by unfold apart; decide) (by unfold apart; decide)
  have hflag : c.flag R.SHK_STAT_ERR_EV = h.flag R.SHK_STAT_ERR_EV := by simp only [Hw.flag, hev]
  obtain ⟨hword, -, -⟩ := h.shankCount_onlyRegs
  unfold Logged
  simp only [Hw.shankError]
  by_cases hf : h.flag R.SHK_STAT_ERR_EV = true
  · rw [if_pos (hflag.trans hf), if_pos hf]
    exact ⟨hval, hev.trans (Hw.get_of_flag rfl hf), hword _ (by decide), hword _ (by decide), hword _ (by decide)⟩
  · rw [if_neg (fun hc => hf (hflag.symm.trans hc)), if_neg hf]
    simp (disch := (unfold apart; decide)) only [Hw.setFlag, Hw.get_set_apart]
    simp (disch := (unfold fits; decide)) only [Hw.get_set_self]
    refine ⟨hval, rfl, ?_, rfl, Nat.mod_eq_of_lt hk, ?_⟩
    · show a % 2 ^ 32 + 2 ^ 32 * (a / 2 ^ 32 % 2 ^ 8) = a % 2 ^ 40
      omega
    · cases w <;> rfl

end Sys2Proof.Machine
end

section
/-!
SUPPORT. What the master of a Shank access finds (R31, R458, R481), the lines of the core caches, and the presentation
of an access to its target (R479, R487).
-/
namespace Sys2Proof.Machine

/-! ### Answers -/

/-- A master other than an Awl thread finds the answer in its place; a core's line access goes through the caches. -/
theorem Hw.reply_of_master (h : Hw) (q : Request) (outcome : Nat) (bs : List Byte) (hq : q.thread = none) :
    h.reply q outcome bs = (h.cacheAnswer q outcome bs).busAnswer
      ⟨q.master, q.addr, outcome, if outcome = 0 then bs else List.replicate q.size 0⟩ := by
  simp only [Hw.reply, hq]
  rfl

/-- Only a whole line that was read or written goes through the caches. -/
theorem Hw.cacheAnswer_of_ne (h : Hw) (q : Request) (outcome : Nat) (bs : List Byte) (hq : outcome ≠ 0 ∨ q.size ≠ 64) :
    h.cacheAnswer q outcome bs = h := by
  rcases hq with hq | hq <;> simp [Hw.cacheAnswer, hq]

/-- An access of less than a line that its target performed. -/
theorem Hw.reply_done (h : Hw) (q : Request) (bs : List Byte) (hq : q.thread = none) (hs : q.size ≠ 64) :
    h.reply q 0 bs = h.busAnswer ⟨q.master, q.addr, 0, bs⟩ := by
  rw [h.reply_of_master q _ _ hq, h.cacheAnswer_of_ne q _ _ (.inr hs)]
  rfl

/-- An access that failed for another reason than the access tables. -/
theorem Hw.replyError_of_master (h : Hw) (q : Request) (kind : Nat) (hq : q.thread = none) (hk : kind ≠ 2) :
    h.replyError q kind = (h.shankError q.master q.addr kind q.data.isSome).busAnswer
      ⟨q.master, q.addr, 1, List.replicate q.size 0⟩ := by
  rw [Hw.replyError, if_neg hk, Hw.reply_of_master _ q _ _ hq, Hw.cacheAnswer_of_ne _ q _ _ (.inl Nat.one_ne_zero)]
  rfl

/-- The answer that was placed last is the one that the master finds. -/
theorem Hw.answered_busAnswer (h : Hw) (q a outcome : Nat) (bs : List Byte) :
    Answered (h.busAnswer ⟨q, a, outcome, bs⟩) q q a outcome bs := kget_kput_self _ _ _

theorem MemKept.busAnswer {h h' : Hw} (hm : MemKept h h') (r : BusReply) : MemKept h (h'.busAnswer r) := hm

theorem RegsKept.busAnswer {as : List Nat} {h h' : Hw} (hr : RegsKept as h h') (r : BusReply) :
    RegsKept as h (h'.busAnswer r) := hr

/-! ### The lines of the core caches -/

/-- A core's read of a cacheable line brings it in. -/
theorem Hw.cacheAnswer_lineRead (h : Hw) (q : Request) (bs : List Byte) (hd : q.data = none)
    (hl : q.master < 8 ∧ q.size = 64 ∧ cacheable q.addr = true) : h.cacheAnswer q 0 bs = h.fillLine q.addr bs := by
  simp [Hw.cacheAnswer, hl, hd]

/-- From a full set the line that the free value picks leaves, written back where it was changed. -/
theorem Hw.byte_fillLine_full (h : Hw) (a b : Nat) (bs : List Byte) {set : NMap CacheLine} {victim : Nat}
    (hset : (h.shank.lines.filter fun x => cacheSet x.1 == cacheSet (a / 64)) = set) (hfull : cacheWays ≤ set.length)
    (hout : h.line a = none) (hv : (set.map (·.1))[h.freeNat % set.length]?.getD 0 = victim) :
    (h.fillLine a bs).byte b = (h.cleanLine (64 * victim)).byte b := by
  have hfit : ¬ (set.length < cacheWays ∨ (h.line a).isSome) := by simp [hout, hfull]
  simp only [Hw.fillLine, hset, if_neg hfit, hv]
  rfl

/-- The first byte of a changed line that is written back. -/
theorem Hw.byte_cleanLine_first (h : Hw) (a : Nat) {x : CacheLine} {b : Byte} {bs : List Byte} (hx : h.line a = some x)
    (hd : x.dirty = true) (hb : x.bytes = b :: bs) (ha : 0x20000 ≤ a) : (h.cleanLine a).byte (a / 64 * 64) = b := by
  have hrom : ¬ a / 64 * 64 < 0x20000 := by omega
  have hin := byte_setBytes_inside h (a / 64 * 64) 0 x.bytes (by simp [hb])
  simp only [Nat.add_zero, hb, List.getElem_cons_zero] at hin
  simp only [Hw.cleanLine, hx, hd, if_true, Hw.storeBytes, if_neg hrom, hb]
  exact hin

/-- Every cacheable address has a target. -/
theorem targetOf_of_cacheable {a : Nat} (ha : cacheable a = true) : targetOf a ≠ none := by
  simp only [cacheable, Bool.or_eq_true, Bool.and_eq_true, decide_eq_true_eq] at ha
  obtain (hrom | ⟨hlo, hhi⟩) | ⟨hlo, hhi⟩ := ha
  · simp [targetOf, hrom]
  · have hsram : ¬ a < 0x20000 ∧ 0x10000000 ≤ a ∧ a < 0x11800000 := by omega
    simp [targetOf, hsram]
  · have hreg : isRegister a = false := by
      simp only [isRegister, Bool.or_eq_false_iff, Bool.and_eq_false_iff, decide_eq_false_iff_not]
      omega
    have hrest : ¬ a < 0x20000 ∧ ¬ a < 0x11800000 ∧ ¬ a < 0x20800000 ∧ ¬ a < 0x30040000 := by omega
    simp [targetOf, hreg, hrest, hlo, hhi]

theorem coreAccess_target {m a n : Nat} (hc : coreAccess m a n = true) : targetOf a ≠ none := by
  simp only [coreAccess, Bool.and_eq_true] at hc
  exact targetOf_of_cacheable hc.2

theorem coreAccess_size {m a n : Nat} (hc : coreAccess m a n = true) : n ≠ 64 := by
  simp only [coreAccess, Bool.and_eq_true, decide_eq_true_eq] at hc
  omega

/-! ### Presentation -/

theorem Hw.arbiter_setArbiter (h : Hw) (t u : Nat) (a : Arbiter) :
    (h.setArbiter t a).arbiter u = if u = t then a else h.arbiter u := by
  by_cases hu : u = t
  · subst hu; simp [Hw.arbiter, Hw.setArbiter]
  · simp [Hw.arbiter, Hw.setArbiter, kgetD_kput_ne _ _ _ hu, hu]

/-- The request is the last to wait; it is parked where the target was idle and parked on its master, and it ends the park
of every other master's. -/
theorem Hw.waiting_presentTo (h : Hw) (t : Nat) (q : Request) : ((h.presentTo t q).arbiter t).waiting =
    ((h.arbiter t).waiting.map fun r => { r with parked := r.parked && r.master == q.master }) ++
      [{ q with parked := (h.arbiter t).waiting.isEmpty && h.parkMaster t == some q.master }] := by
  rw [Hw.presentTo, Hw.arbiter_setArbiter, if_pos rfl]

theorem Hw.waits_presentTo (h : Hw) (t : Nat) (q : Request) : ((h.presentTo t q).arbiter t).waits = (h.arbiter t).waits := by
  rw [Hw.presentTo, Hw.arbiter_setArbiter, if_pos rfl]

theorem Hw.arbiter_presentTo_ne (h : Hw) {t u : Nat} (q : Request) (hu : u ≠ t) :
    (h.presentTo t q).arbiter u = h.arbiter u := by
  rw [Hw.presentTo, Hw.arbiter_setArbiter, if_neg hu]

theorem Hw.presentTo_regsKept (h : Hw) (t : Nat) (q : Request) : RegsKept [] h (h.presentTo t q) := fun _ _ => rfl
theorem Hw.presentTo_memKept (h : Hw) (t : Nat) (q : Request) : MemKept h (h.presentTo t q) := fun _ => rfl
theorem Hw.presentTo_lines (h : Hw) (t : Nat) (q : Request) : (h.presentTo t q).shank.lines = h.shank.lines := rfl

theorem Hw.present_of_target (h : Hw) {q : Request} {t : Nat} (ht : targetOf q.addr = some t) :
    h.present q = h.presentTo t q := by simp only [Hw.present, ht]

theorem Hw.present_of_noTarget (h : Hw) {q : Request} (ht : targetOf q.addr = none) :
    h.present q = h.replyError q 1 := by simp only [Hw.present, ht]

/-! ### A core's access of less than a line -/

theorem Hw.coreAccess_miss (h : Hw) {m a n t : Nat} (d : Option (List Byte)) (hl : h.line a = none)
    (ht : targetOf (a / 64 * 64) = some t) :
    h.coreAccess m a n d = h.presentTo t ⟨m, none, false, a / 64 * 64, 64, none, false, false⟩ := by
  simp only [Hw.coreAccess, hl]
  exact h.present_of_target ht

theorem Hw.coreAccess_load (h : Hw) {m a n : Nat} {l : CacheLine} (hl : h.line a = some l) (hn : n ≠ 64) :
    h.coreAccess m a n none = h.busAnswer ⟨m, a, 0, (l.bytes.drop (a % 64)).take n⟩ := by
  simp only [Hw.coreAccess, Hw.coreLoad, hl]
  exact h.reply_done _ _ rfl hn

theorem Hw.coreAccess_store (h : Hw) {m a n : Nat} {l : CacheLine} {bs : List Byte} (hl : h.line a = some l) (hn : n ≠ 64)
    (ha : 0x20000 ≤ a) : h.coreAccess m a n (some bs) =
      (h.setLine a ⟨l.bytes.take (a % 64) ++ bs ++ l.bytes.drop (a % 64 + bs.length), true⟩).busAnswer
        ⟨m, a, 0, []⟩ := by
  have hrom : ¬ a < 0x20000 := by omega
  simp only [Hw.coreAccess, Hw.coreStore, hl, if_neg hrom]
  exact Hw.reply_done _ _ _ rfl hn

theorem Hw.line_setLine_self (h : Hw) (a : Nat) (x : CacheLine) : (h.setLine a x).line a = some x := kget_kput_self _ _ _

theorem Hw.setLine_regsKept (h : Hw) (a : Nat) (x : CacheLine) : RegsKept [] h (h.setLine a x) := fun _ _ => rfl
theorem Hw.setLine_memKept (h : Hw) (a : Nat) (x : CacheLine) : MemKept h (h.setLine a x) := fun _ => rfl

end Sys2Proof.Machine
end

section
/-!
SUPPORT. The hardware locks (R491 to R493): a lock given to an owner, and what a lock that loses its owner passes to.
-/
namespace Sys2Proof.Machine

/-! ### A thread after an update of a thread -/

theorem Hw.thread_setThread (h : Hw) (t u : Nat) (th : AwlThread) :
    (h.setThread t th).thread u = if u = t then th else h.thread u := by
  by_cases hu : u = t
  · subst hu; simp [Hw.thread, Hw.setThread]
  · simp [Hw.thread, Hw.setThread, kgetD_kput_ne _ _ _ hu, hu]

theorem Hw.thread_answer_self (h : Hw) (t : Nat) (r : Reply) : ((h.answer t r).thread t).on = .done r := by
  rw [Hw.answer, Hw.modThread, Hw.thread_setThread, if_pos rfl]

section
variable (h : Hw) (t : Nat) (f : AwlThread → AwlThread)

@[simp] theorem Hw.modThread_word (a : Nat) : (h.modThread t f).word a = h.word a := rfl
@[simp] theorem Hw.modThread_byte (a : Nat) : (h.modThread t f).byte a = h.byte a := rfl
@[simp] theorem Hw.modThread_get (g : RF) : (h.modThread t f).get g = h.get g := rfl
@[simp] theorem Hw.modThread_lockHeld (i : Nat) : (h.modThread t f).lockHeld i = h.lockHeld i := rfl
@[simp] theorem Hw.modThread_lockBroken (i : Nat) : (h.modThread t f).lockBroken i = h.lockBroken i := rfl
@[simp] theorem Hw.modThread_lockWaiters (i : Nat) : (h.modThread t f).lockWaiters i = h.lockWaiters i := rfl

end

/-! ### The threads that wait for a lock -/

theorem Hw.setLockWaiters_regsKept (h : Hw) (i : Nat) (l : List Nat) :
    RegsKept [R.SHK_LOCK_STAT i] h (h.setLockWaiters i l) := fun _ ha =>
  Hw.word_set_ne _ _ _ fun hb => ha (by simp [hb, R.SHK_LOCK_STAT_WAITERS])

theorem Hw.setLockWaiters_byte (h : Hw) (i : Nat) (l : List Nat) (a : Nat) : (h.setLockWaiters i l).byte a = h.byte a := rfl

theorem Hw.setLockWaiters_lockWaiters (h : Hw) (i : Nat) (l : List Nat) : (h.setLockWaiters i l).lockWaiters i = l :=
  kgetD_kput_self _ _ _ _

/-! ### A lock with an owner -/

theorem Hw.giveLock_onlyRegs (h : Hw) (i m t : Nat) : OnlyRegs [R.SHK_LOCK_STAT i] h (h.giveLock i m t) :=
  (onlyRegs_setAt _ _ _ (by rfl)).trans <| (onlyRegs_setAt _ _ _ (by rfl)).trans <| (onlyRegs_setAt _ _ _ (by rfl)).trans
    (onlyRegs_setAt _ _ _ (by rfl))

theorem Hw.lockHeld_giveLock (h : Hw) (i m t : Nat) : (h.giveLock i m t).lockHeld i = true := by
  simp (disch := exact apart_of_bits rfl) only [Hw.lockHeld, Hw.flag, Hw.giveLock, Hw.get_set_apart]
  rw [Hw.get_set_self _ _ _ (fits_of_bits rfl)]
  rfl

theorem Hw.lockBroken_giveLock (h : Hw) (i m t : Nat) : (h.giveLock i m t).lockBroken i = false := by
  simp (disch := exact apart_of_bits rfl) only [Hw.lockBroken, Hw.flag, Hw.giveLock, Hw.get_set_apart]
  rw [Hw.get_set_self _ _ _ (fits_of_bits rfl)]
  rfl

theorem Hw.lockOwner_giveLock (h : Hw) (i t : Nat) {m : Nat} (hm : m < 64) :
    (h.giveLock i m t).get (R.SHK_LOCK_STAT_OWNER i) = m := by
  rw [Hw.giveLock, Hw.get_set_apart _ _ _ _ (apart_of_bits rfl), Hw.get_set_lt _ _ _ (fits_of_bits rfl) hm]

theorem Hw.lockThread_giveLock (h : Hw) (i m : Nat) {t : Nat} (ht : t < 256) :
    (h.giveLock i m t).get (R.SHK_LOCK_STAT_THREAD i) = t := Hw.get_set_lt _ _ _ (fits_of_bits rfl) ht

@[simp] theorem Hw.giveLock_shank (h : Hw) (i m t : Nat) : (h.giveLock i m t).shank = h.shank := by simp [Hw.giveLock]

theorem Hw.giveLock_lockWaiters (h : Hw) (i m t j : Nat) : (h.giveLock i m t).lockWaiters j = h.lockWaiters j := by
  rw [Hw.lockWaiters, Hw.giveLock_shank, Hw.lockWaiters]

theorem Hw.lockOwnedByMaster_giveLock (h : Hw) (i t : Nat) {m : Nat} (hm : m < 64) :
    (h.giveLock i m t).lockOwnedByMaster i m = true := by
  simp [Hw.lockOwnedByMaster, Hw.lockHeld_giveLock, Hw.lockOwner_giveLock h i t hm]

/-! ### A lock that loses its owner -/

/-- In `h'` lock `i` is free, with BROKEN as `b` says; no other register and no byte of memory has changed since `h`. -/
structure LockFree (h h' : Hw) (i : Nat) (b : Bool) : Prop where
  held : h'.lockHeld i = false
  broken : h'.lockBroken i = b
  regs : RegsKept [R.SHK_LOCK_STAT i] h h'
  mem : MemKept h h'

/-- In `h'` thread `u`, which waited for lock `i` and writes `rd`, holds it and finds the status `st`; `rest` still wait,
and no other register and no byte of memory has changed since `h`. -/
structure LockTaken (h h' : Hw) (i u rd : Nat) (st : Dword) (rest : List Nat) : Prop where
  held : h'.lockHeld i = true
  broken : h'.lockBroken i = false
  owner : h'.get (R.SHK_LOCK_STAT_OWNER i) = 8 + u / 32
  thread : h'.get (R.SHK_LOCK_STAT_THREAD i) = u
  waiters : h'.lockWaiters i = rest
  status : (h'.thread u).on = .done ⟨rd, some st, none, 0⟩
  regs : RegsKept [R.SHK_LOCK_STAT i] h h'
  mem : MemKept h h'

/-- With no thread waiting the lock is free. -/
theorem Hw.passLock_free (h : Hw) {i : Nat} (b : Bool) (hw : h.lockWaiters i = []) : LockFree h (h.passLock i b) i b := by
  have honly : OnlyRegs [R.SHK_LOCK_STAT i] h (h.passLock i b) := by
    simp only [Hw.passLock, hw]
    exact (onlyRegs_setAt _ _ _ (by rfl)).trans <| (onlyRegs_setAt _ _ _ (by rfl)).trans <|
      (onlyRegs_setAt _ _ _ (by rfl)).trans (onlyRegs_setAt _ _ _ (by rfl))
  obtain ⟨hregs, hmem, -⟩ := honly
  refine ⟨?_, ?_, hregs, hmem⟩
  · simp (disch := exact apart_of_bits rfl) only [Hw.passLock, hw, Hw.lockHeld, Hw.flag, Hw.setFlag, Hw.get_set_apart]
    rw [Hw.get_set_self _ _ _ (fits_of_bits rfl)]
    rfl
  · simp (disch := exact apart_of_bits rfl) only [Hw.passLock, hw, Hw.lockBroken, Hw.flag, Hw.setFlag, Hw.get_set_apart]
    rw [Hw.get_set_self _ _ _ (fits_of_bits rfl)]
    cases b <;> rfl

/-- The longest-waiting thread takes it. -/
theorem Hw.passLock_taken (h : Hw) {i u rd : Nat} {rest : List Nat} (b : Bool) (hw : h.lockWaiters i = u :: rest)
    (hu : u < 256) (hon : (h.thread u).on = .lock rd i) :
    LockTaken h (h.passLock i b) i u rd (if b then 1 else 0) rest := by
  generalize hr : (⟨rd, some (if b then 1 else 0), none, 0⟩ : Reply) = r
  have hpass : h.passLock i b = ((h.setLockWaiters i rest).giveLockThread i u).answer u r := by
    simp only [Hw.passLock, hw, hon, hr]
  rw [hpass, Hw.giveLockThread, Hw.answer]
  generalize hg : h.setLockWaiters i rest = w
  obtain ⟨hregs, hmem, -⟩ := w.giveLock_onlyRegs i (8 + u / 32) u
  generalize hgl : w.giveLock i (8 + u / 32) u = g
  exact {
    held := by rw [Hw.modThread_lockHeld, Hw.modThread_lockHeld, ← hgl, Hw.lockHeld_giveLock]
    broken := by rw [Hw.modThread_lockBroken, Hw.modThread_lockBroken, ← hgl, Hw.lockBroken_giveLock]
    owner := by rw [Hw.modThread_get, Hw.modThread_get, ← hgl, Hw.lockOwner_giveLock _ _ _ (by omega)]
    thread := by rw [Hw.modThread_get, Hw.modThread_get, ← hgl, Hw.lockThread_giveLock _ _ _ hu]
    waiters := by
      rw [Hw.modThread_lockWaiters, Hw.modThread_lockWaiters, ← hgl, Hw.giveLock_lockWaiters, ← hg,
        Hw.setLockWaiters_lockWaiters]
    status := hr ▸ Hw.thread_answer_self _ u r
    regs := by
      intro a ha
      rw [Hw.modThread_word, Hw.modThread_word, ← hgl, hregs a ha, ← hg, h.setLockWaiters_regsKept i rest a ha]
    mem := by
      intro a
      rw [Hw.modThread_byte, Hw.modThread_byte, ← hgl, hmem a, ← hg, Hw.setLockWaiters_byte] }

/-! ### The list of the thread that held a lock -/

@[simp] theorem Hw.forgetLock_regs (h : Hw) (i : Nat) : (h.forgetLock i).regs = h.regs := by
  simp only [Hw.forgetLock]; split <;> rfl

@[simp] theorem Hw.forgetLock_mem (h : Hw) (i : Nat) : (h.forgetLock i).mem = h.mem := by
  simp only [Hw.forgetLock]; split <;> rfl

@[simp] theorem Hw.forgetLock_shank (h : Hw) (i : Nat) : (h.forgetLock i).shank = h.shank := by
  simp only [Hw.forgetLock]; split <;> rfl

@[simp] theorem Hw.forgetLock_on (h : Hw) (i u : Nat) : ((h.forgetLock i).thread u).on = (h.thread u).on := by
  simp only [Hw.forgetLock]
  split
  · simp only [Hw.modThread, Hw.thread_setThread]
    split
    · next hu => rw [hu]
    · rfl
  · rfl

@[simp] theorem Hw.forgetLock_lockWaiters (h : Hw) (i j : Nat) : (h.forgetLock i).lockWaiters j = h.lockWaiters j := by
  simp [Hw.lockWaiters]

theorem Hw.forgetLock_regsKept (h : Hw) (i : Nat) (as : List Nat) : RegsKept as h (h.forgetLock i) :=
  fun a _ => by simp [Hw.word]

theorem Hw.forgetLock_memKept (h : Hw) (i : Nat) : MemKept h (h.forgetLock i) := fun a => by simp [Hw.byte]

/-- Released (`b` false) or broken (`b` true) with no thread waiting. -/
theorem Hw.loseLock_free (h : Hw) {i : Nat} (b : Bool) (hw : h.lockWaiters i = []) :
    LockFree h ((h.forgetLock i).passLock i b) i b := by
  have hfree := (h.forgetLock i).passLock_free b ((h.forgetLock_lockWaiters i i).trans hw)
  exact { hfree with
    regs := (h.forgetLock_regsKept i _).trans hfree.regs
    mem := fun a => (hfree.mem a).trans (h.forgetLock_memKept i a) }

/-- Released or broken with a thread waiting. -/
theorem Hw.loseLock_taken (h : Hw) {i u rd : Nat} {rest : List Nat} (b : Bool) (hw : h.lockWaiters i = u :: rest)
    (hu : u < 256) (hon : (h.thread u).on = .lock rd i) :
    LockTaken h ((h.forgetLock i).passLock i b) i u rd (if b then 1 else 0) rest := by
  have htaken := (h.forgetLock i).passLock_taken b ((h.forgetLock_lockWaiters i i).trans hw) hu
    ((h.forgetLock_on i u).trans hon)
  exact { htaken with
    regs := (h.forgetLock_regsKept i _).trans htaken.regs
    mem := fun a => (htaken.mem a).trans (h.forgetLock_memKept i a) }

end Sys2Proof.Machine
end

section
/-!
SUPPORT. The accesses of control cores and other masters to hardware locks, and the presentation of accesses at Shank.
-/
namespace Sys2Proof.Machine

/-! ### Accesses to a lock -/

theorem LockFree.canon {h h' : Hw} {i : Nat} {b : Bool} (hf : LockFree h h' i b) : LockFree h h'.canon i b :=
  { hf with mem := hf.mem.canon }

theorem LockTaken.canon {h h' : Hw} {i u rd : Nat} {st : Dword} {rest : List Nat} (ht : LockTaken h h' i u rd st rest) :
    LockTaken h h'.canon i u rd st rest := { ht with mem := ht.mem.canon }

theorem exec_lockAcqRead (m : Fin 27) (i : Fin 1024) {s : State} (hu : s.hw.mainUp = true) :
    exec (.lockAcqRead m i) s = .next ⟨((s.hw.lockAcqRead m i).1.busAnswer
      ⟨m, R.SHK_LOCK_ACQ i, 0, bytesLE 4 (s.hw.lockAcqRead m i).2⟩).canon, s.pending⟩ :=
  s.effect_eq (fun h => (h.lockAcqRead m i).1.busAnswer ⟨m, R.SHK_LOCK_ACQ i, 0, bytesLE 4 (h.lockAcqRead m i).2⟩) hu

theorem exec_lockRelWrite (m : Fin 27) (i : Fin 1024) {s : State} (hu : s.hw.mainUp = true) :
    exec (.lockRelWrite m i) s = .next ⟨(s.hw.lockRelWrite m i).canon, s.pending⟩ :=
  s.effect_eq (fun h => h.lockRelWrite m i) hu

theorem exec_brk (m : Fin 27) (i : Fin 1024) {s : State} (hu : s.hw.mainUp = true) :
    exec (.brk m i) s = .next ⟨(s.hw.lockBrkWrite m i).canon, s.pending⟩ :=
  s.effect_eq (fun h => h.lockBrkWrite m i) hu

theorem Hw.lockAcqRead_free (h : Hw) {m i : Nat} (hm : m < 8) (hl : h.lockHeld i = false) :
    h.lockAcqRead m i = (h.giveLock i m 0, if h.lockBroken i then 1 else 0) := by
  simp [Hw.lockAcqRead, Nat.not_le.mpr hm, hl]

theorem Hw.lockAcqRead_held (h : Hw) {m i : Nat} (hm : m < 8) (hl : h.lockHeld i = true) :
    h.lockAcqRead m i = (if h.get (R.SHK_LOCK_STAT_OWNER i) = m then h.set R.SHK_STAT_LOCK_ERR 1 else h, 3) := by
  simp [Hw.lockAcqRead, Nat.not_le.mpr hm, hl]

theorem Hw.lockRelWrite_owner (h : Hw) {m i : Nat} (hm : m < 8) (ho : h.lockOwnedByMaster i m = true) :
    h.lockRelWrite m i = (h.forgetLock i).passLock i false := by
  simp [Hw.lockRelWrite, Nat.not_le.mpr hm, ho, Hw.releaseLock]

theorem Hw.lockRelWrite_other (h : Hw) {m i : Nat} (hm : m < 8) (ho : h.lockOwnedByMaster i m = false) :
    h.lockRelWrite m i = h.set R.SHK_STAT_LOCK_ERR 1 := by
  simp [Hw.lockRelWrite, Nat.not_le.mpr hm, ho]

theorem Hw.lockRelWrite_noCore (h : Hw) {m : Nat} (i : Nat) (hm : 8 ≤ m) :
    h.lockRelWrite m i = h.set R.SHK_STAT_CFG_ERR 1 := by simp [Hw.lockRelWrite, hm]

theorem Hw.lockBrkWrite_core (h : Hw) {m : Nat} (i : Nat) (hm : m < 8) :
    h.lockBrkWrite m i = (h.forgetLock i).passLock i true := by
  simp [Hw.lockBrkWrite, Nat.not_le.mpr hm, Hw.breakLock]

theorem Hw.lockBrkWrite_noCore (h : Hw) {m : Nat} (i : Nat) (hm : 8 ≤ m) :
    h.lockBrkWrite m i = h.set R.SHK_STAT_CFG_ERR 1 := by simp [Hw.lockBrkWrite, hm]

/-- A flag of SHK_STAT is set, and nothing else changes. -/
theorem Hw.setStat_only (h : Hw) {f : RF} (ha : f.addr = R.SHK_STAT) (hf : fits f) (hl : f.len = 1) :
    (h.set f 1).canon.get f = 1 ∧ OnlyRegs [R.SHK_STAT] h (h.set f 1).canon :=
  ⟨h.get_set_lt f 1 hf (by simp [hl]), (onlyRegs_setAt h f 1 ha).canon⟩

/-- A core that finds the lock free holds it, and reads whether it was broken. -/
theorem gives_lockAcqRead_free {m : Fin 27} {i : Fin 1024} {s : State} (hu : s.hw.mainUp = true) (hm : m.val < 8)
    (hl : s.hw.lockHeld i = false) : Gives (.lockAcqRead m i) s fun h =>
      h.lockOwnedByMaster i m = true ∧ h.lockBroken i = false ∧
      kget h.shank.replies m = some ⟨m, R.SHK_LOCK_ACQ i, 0, bytesLE 4 (if s.hw.lockBroken i then 1 else 0)⟩ ∧
      RegsKept [R.SHK_LOCK_STAT i] s.hw h ∧ MemKept s.hw h := by
  refine ⟨_, exec_lockAcqRead m i hu, ?_⟩
  have howned := s.hw.lockOwnedByMaster_giveLock i 0 (m := m) (by omega)
  have hbroken := s.hw.lockBroken_giveLock i m 0
  obtain ⟨hregs, hmem, -⟩ := s.hw.giveLock_onlyRegs i m 0
  rw [s.hw.lockAcqRead_free hm hl]
  generalize s.hw.giveLock i m 0 = g at *
  exact ⟨howned, hbroken, kget_kput_self _ _ _, (hregs.busAnswer _).canon, (hmem.busAnswer _).canon⟩

/-- A core that finds the lock held leaves it, and its own lock is an error. -/
theorem gives_lockAcqRead_held {m : Fin 27} {i : Fin 1024} {s : State} (hu : s.hw.mainUp = true) (hm : m.val < 8)
    (hl : s.hw.lockHeld i = true) : Gives (.lockAcqRead m i) s fun h =>
      h.word (R.SHK_LOCK_STAT i) = s.hw.word (R.SHK_LOCK_STAT i) ∧
      kget h.shank.replies m = some ⟨m, R.SHK_LOCK_ACQ i, 0, bytesLE 4 3⟩ ∧
      h.get R.SHK_STAT_LOCK_ERR = (if s.hw.get (R.SHK_LOCK_STAT_OWNER i) = m then 1 else s.hw.get R.SHK_STAT_LOCK_ERR) ∧
      RegsKept [R.SHK_STAT] s.hw h ∧ MemKept s.hw h := by
  refine ⟨_, exec_lockAcqRead m i hu, ?_⟩
  rw [s.hw.lockAcqRead_held hm hl]
  generalize hg : (if s.hw.get (R.SHK_LOCK_STAT_OWNER i) = m then s.hw.set R.SHK_STAT_LOCK_ERR 1 else s.hw) = g
  have honly : g.get R.SHK_STAT_LOCK_ERR =
      (if s.hw.get (R.SHK_LOCK_STAT_OWNER i) = m then 1 else s.hw.get R.SHK_STAT_LOCK_ERR) ∧
      OnlyRegs [R.SHK_STAT] s.hw g := by
    subst hg
    split
    · exact ⟨s.hw.get_set_lt _ _ (fits_of_bits rfl) (by decide), onlyRegs_setAt _ _ _ rfl⟩
    · exact ⟨rfl, fun _ _ => rfl, fun _ => rfl, rfl⟩
  obtain ⟨hget, hregs, hmem, -⟩ := honly
  have hstat : R.SHK_LOCK_STAT i ∉ [R.SHK_STAT] := by simp [R.SHK_LOCK_STAT, R.SHK_STAT]; omega
  exact ⟨hregs _ hstat, kget_kput_self _ _ _, hget, (hregs.busAnswer _).canon, (hmem.busAnswer _).canon⟩

/-! ### SHANK_ACCESS -/

/-- An access of a size that R479 gives, aligned or to a register block: it is a core's load or store, or is presented. -/
theorem exec_shankAccess (m : Fin 27) (a : BitVec 40) (n : Nat) (d : Option (List Byte)) (cont : Bool) {s : State}
    (hu : s.hw.mainUp = true) (hn : [1, 2, 4, 8, 32, 64].contains n = true)
    (ha : a.toNat % n = 0 ∨ isRegister a.toNat = true)
    (hd : (d.all fun bs => bs.length == n) = true) :
    exec (.shankAccess m a n d cont) s = .next ⟨(if coreAccess m a.toNat n then s.hw.coreAccess m a.toNat n d
      else s.hw.present ⟨m, none, false, a.toNat, n, d, decide (16 ≤ m.val) && decide (m.val ≤ 22) && cont &&
        (s.hw.word R.SHK_HINT_EN).toNat.testBit m, false⟩).canon, s.pending⟩ := by
  have hok : ([1, 2, 4, 8, 32, 64].contains n && (a.toNat % n == 0 || isRegister a.toNat) &&
      d.all fun bs => bs.length == n) = true := by
    rw [hn, hd]
    rcases ha with ha | ha <;> simp [ha]
  exact s.effectIf_eq _ (fun h => if coreAccess m a.toNat n then h.coreAccess m a.toNat n d
    else h.present ⟨m, none, false, a.toNat, n, d, decide (16 ≤ m.val) && decide (m.val ≤ 22) && cont &&
      (h.word R.SHK_HINT_EN).toNat.testBit m, false⟩) hu hok

/-- An access that reaches its target waits there last. -/
theorem gives_shankAccess_presented {m : Fin 27} {a : BitVec 40} {n : Nat} {d : Option (List Byte)} {cont : Bool} {t : Nat}
    {s : State} (hu : s.hw.mainUp = true)
    (hn : [1, 2, 4, 8, 32, 64].contains n = true ∧ (a.toNat % n = 0 ∨ isRegister a.toNat = true))
    (hd : (d.all fun bs => bs.length == n) = true) (ht : targetOf a.toNat = some t) (hc : coreAccess m a.toNat n = false) :
    Gives (.shankAccess m a n d cont) s fun h =>
      (h.arbiter t).waiting = ((s.hw.arbiter t).waiting.map fun r => { r with parked := r.parked && r.master == m.val }) ++
        [⟨m, none, false, a.toNat, n, d,
          decide (16 ≤ m.val) && decide (m.val ≤ 22) && cont && (s.hw.word R.SHK_HINT_EN).toNat.testBit m,
          (s.hw.arbiter t).waiting.isEmpty && s.hw.parkMaster t == some m.val⟩] ∧
      (h.arbiter t).waits = (s.hw.arbiter t).waits ∧ (∀ u < 67, u ≠ t → h.arbiter u = s.hw.arbiter u) ∧
      RegsKept [] s.hw h ∧ MemKept s.hw h := by
  obtain ⟨hn, ha⟩ := hn
  refine ⟨_, exec_shankAccess m a n d cont hu hn ha hd, ?_⟩
  rw [hc, if_neg Bool.false_ne_true, Hw.present_of_target _ ht]
  generalize hq : (⟨m, none, false, a.toNat, n, d, _, false⟩ : Request) = q
  have hwaiting := s.hw.waiting_presentTo t q
  have hwaits := s.hw.waits_presentTo t q
  have hother (u : Nat) (hut : u ≠ t) := s.hw.arbiter_presentTo_ne q hut
  have hregs := s.hw.presentTo_regsKept t q
  have hmem := s.hw.presentTo_memKept t q
  generalize s.hw.presentTo t q = g at *
  subst hq
  exact ⟨hwaiting, hwaits, fun u _ => hother u, hregs.canon, hmem.canon⟩

/-- An access of no target is a decode error at once. -/
theorem gives_shankAccess_noTarget {m : Fin 27} {a : BitVec 40} {n : Nat} {d : Option (List Byte)} {cont : Bool} {s : State}
    (hu : s.hw.mainUp = true) (hn : [1, 2, 4, 8, 32, 64].contains n = true ∧ a.toNat % n = 0)
    (hd : (d.all fun bs => bs.length == n) = true) (ht : targetOf a.toNat = none) :
    Gives (.shankAccess m a n d cont) s fun h =>
      Logged s.hw h m a.toNat 1 d.isSome ∧ Answered h m m a.toNat 1 (List.replicate n 0) ∧
      (∀ u < 67, h.arbiter u = s.hw.arbiter u) ∧ RegsKept shankErrorRegs s.hw h ∧ MemKept s.hw h := by
  obtain ⟨hn, ha⟩ := hn
  have hc : coreAccess m a.toNat n = false := by
    by_contra hne
    exact coreAccess_target (by simpa using hne) ht
  refine ⟨_, exec_shankAccess m a n d cont hu hn (.inl ha) hd, ?_⟩
  rw [hc, if_neg Bool.false_ne_true, Hw.present_of_noTarget _ ht, Hw.replyError_of_master _ _ _ rfl (by decide)]
  have hlog := s.hw.shankError_logged m a.toNat 1 d.isSome (by decide)
  have honly := s.hw.shankError_onlyRegs m a.toNat 1 d.isSome
  generalize s.hw.shankError m a.toNat 1 d.isSome = g at *
  have harb (u : Nat) : g.arbiter u = s.hw.arbiter u := by rw [Hw.arbiter, honly.shank_eq, Hw.arbiter]
  obtain ⟨hregs, hmem, -⟩ := honly
  exact ⟨hlog, g.answered_busAnswer _ _ _ _, fun u _ => harb u, (hregs.busAnswer _).canon, (hmem.busAnswer _).canon⟩

/-- A line that the caches lack is asked for whole. -/
theorem gives_shankAccess_miss {m : Fin 27} {a : BitVec 40} {n : Nat} {d : Option (List Byte)} {cont : Bool} {t : Nat}
    {s : State} (hu : s.hw.mainUp = true) (hn : [1, 2, 4, 8, 32, 64].contains n = true ∧ a.toNat % n = 0)
    (hd : (d.all fun bs => bs.length == n) = true) (hc : coreAccess m a.toNat n = true)
    (hl : s.hw.line a.toNat = none ∧ targetOf (a.toNat / 64 * 64) = some t) :
    Gives (.shankAccess m a n d cont) s fun h =>
      (∃ q, (h.arbiter t).waiting.getLast? = some q ∧ q.master = m.val ∧ q.addr = a.toNat / 64 * 64 ∧
        q.size = 64 ∧ q.data = none) ∧
      h.shank.lines = s.hw.shank.lines ∧ RegsKept [] s.hw h ∧ MemKept s.hw h := by
  obtain ⟨hn, ha⟩ := hn
  obtain ⟨hl, ht⟩ := hl
  refine ⟨_, exec_shankAccess m a n d cont hu hn (.inl ha) hd, ?_⟩
  rw [if_pos hc, Hw.coreAccess_miss _ d hl ht]
  generalize hq : (⟨m, none, false, a.toNat / 64 * 64, 64, none, false, false⟩ : Request) = q
  have hwaiting := s.hw.waiting_presentTo t q
  have hlines := s.hw.presentTo_lines t q
  have hregs := s.hw.presentTo_regsKept t q
  have hmem := s.hw.presentTo_memKept t q
  generalize s.hw.presentTo t q = g at *
  subst hq
  have hlast := (congrArg List.getLast? hwaiting).trans List.getLast?_concat
  exact ⟨⟨_, hlast, rfl, rfl, rfl, rfl⟩, hlines, hregs.canon, hmem.canon⟩

/-- A line that the caches hold answers a load. -/
theorem gives_shankAccess_load {m : Fin 27} {a : BitVec 40} {n : Nat} {cont : Bool} {l : CacheLine}
    {s : State} (hu : s.hw.mainUp = true) (hn : [1, 2, 4, 8, 32, 64].contains n = true ∧ a.toNat % n = 0)
    (hc : coreAccess m a.toNat n = true) (hl : s.hw.line a.toNat = some l) :
    Gives (.shankAccess m a n none cont) s fun h =>
      Answered h m m a.toNat 0 ((l.bytes.drop (a.toNat % 64)).take n) ∧ h.shank.lines = s.hw.shank.lines ∧
      RegsKept [] s.hw h ∧ MemKept s.hw h := by
  obtain ⟨hn, ha⟩ := hn
  refine ⟨_, exec_shankAccess m a n none cont hu hn (.inl ha) rfl, ?_⟩
  rw [if_pos hc, Hw.coreAccess_load _ hl (coreAccess_size hc)]
  exact ⟨s.hw.answered_busAnswer _ _ _ _, rfl, fun _ _ => rfl, (MemKept.busAnswer (fun _ => rfl) _).canon⟩

/-- A line that the caches hold takes a store outside the boot ROM. -/
theorem gives_shankAccess_store {m : Fin 27} {a : BitVec 40} {n : Nat} {bs : List Byte} {cont : Bool} {l : CacheLine}
    {s : State} (hu : s.hw.mainUp = true) (hn : [1, 2, 4, 8, 32, 64].contains n = true ∧ a.toNat % n = 0)
    (hb : bs.length = n) (hc : coreAccess m a.toNat n = true) (hl : s.hw.line a.toNat = some l) (hr : 0x20000 ≤ a.toNat) :
    Gives (.shankAccess m a n (some bs) cont) s fun h =>
      Answered h m m a.toNat 0 [] ∧
      h.line a.toNat = some ⟨l.bytes.take (a.toNat % 64) ++ bs ++ l.bytes.drop (a.toNat % 64 + n), true⟩ ∧
      RegsKept [] s.hw h ∧ MemKept s.hw h := by
  obtain ⟨hn, ha⟩ := hn
  refine ⟨_, exec_shankAccess m a n (some bs) cont hu hn (.inl ha) (by simp [hb]), ?_⟩
  rw [if_pos hc, Hw.coreAccess_store _ hl (coreAccess_size hc) hr, hb]
  generalize hx : (⟨_, true⟩ : CacheLine) = x
  have hline := s.hw.line_setLine_self a.toNat x
  have hregs := s.hw.setLine_regsKept a.toNat x
  have hmem := s.hw.setLine_memKept a.toNat x
  generalize s.hw.setLine a.toNat x = g at *
  exact ⟨g.answered_busAnswer _ _ _ _, hline, (hregs.busAnswer _).canon, (hmem.busAnswer _).canon⟩

/-- Settles O31, command by command. -/
theorem presentedRequestsAndLocks : Obligations.PresentedRequestsAndLocks := by
  intro s hu
  refine ⟨fun m i => gives_lockAcqRead_free hu, fun m i => gives_lockAcqRead_held hu, ?_, ?_, ?_, ?_, ?_, ?_,
    fun m a n d cont t => gives_shankAccess_presented hu, fun m a n d cont => gives_shankAccess_noTarget hu,
    fun m a n d cont t => gives_shankAccess_miss hu, fun m a n cont l => gives_shankAccess_load hu,
    fun m a n bs cont l => gives_shankAccess_store hu⟩
  · intro m i hm ho hw
    refine ⟨_, exec_lockRelWrite m i hu, ?_⟩
    rw [Hw.lockRelWrite_owner _ hm ho]
    obtain ⟨hheld, hbroken, hregs, hmem⟩ := (s.hw.loseLock_free false hw).canon
    exact ⟨hheld, hbroken, hregs, hmem⟩
  · intro m i u rd rest hm ho hw hu256 hon
    refine ⟨_, exec_lockRelWrite m i hu, ?_⟩
    rw [Hw.lockRelWrite_owner _ hm ho]
    obtain ⟨hheld, -, howner, hthread, hwait, hstatus, hregs, hmem⟩ := (s.hw.loseLock_taken false hw hu256 hon).canon
    exact ⟨hheld, howner, hthread, hwait, hstatus, hregs, hmem⟩
  · intro m i hm ho
    refine ⟨_, exec_lockRelWrite m i hu, ?_⟩
    rw [Hw.lockRelWrite_other _ hm ho]
    exact s.hw.setStat_only rfl (fits_of_bits rfl) rfl
  · intro m i c hm hc
    rcases hc with rfl | rfl
    · refine ⟨_, exec_lockRelWrite m i hu, ?_⟩
      rw [Hw.lockRelWrite_noCore _ _ hm]
      exact s.hw.setStat_only rfl (fits_of_bits rfl) rfl
    · refine ⟨_, exec_brk m i hu, ?_⟩
      rw [Hw.lockBrkWrite_noCore _ _ hm]
      exact s.hw.setStat_only rfl (fits_of_bits rfl) rfl
  · intro m i hm hw
    refine ⟨_, exec_brk m i hu, ?_⟩
    rw [Hw.lockBrkWrite_core _ _ hm]
    obtain ⟨hheld, hbroken, hregs, hmem⟩ := (s.hw.loseLock_free true hw).canon
    exact ⟨hheld, hbroken, hregs, hmem⟩
  · intro m i u rd rest hm hw hu256 hon
    refine ⟨_, exec_brk m i hu, ?_⟩
    rw [Hw.lockBrkWrite_core _ _ hm]
    obtain ⟨hheld, hbroken, -, hthread, -, hstatus, hregs, hmem⟩ := (s.hw.loseLock_taken true hw hu256 hon).canon
    exact ⟨hheld, hbroken, hthread, hstatus, hregs, hmem⟩

end Sys2Proof.Machine
end

section
/-!
SUPPORT. A grant and the access of a master other than an Awl thread that it performs; and a state in which such an
access changes memory that it does not address: the fill of a cache line (R458) by a request that waits at a cluster port
though its address is in general SRAM.
-/
namespace Sys2Proof.Machine

/-! ### The grant of a request that no thread waits for -/

theorem Hw.grant_of_rotation (h : Hw) (t : Nat) (pre : Bool) (e : EccFinding) {q : Request}
    (hc : h.grantChoice t = some (.rotation, q)) :
    h.grant t pre e = (h.setArbiter t (h.afterGrant t .rotation q)).serveGrant t q e := by simp [Hw.grant, hc]

theorem Hw.serveGrant_of_master (h : Hw) (t : Nat) (q : Request) (e : EccFinding) (hq : q.thread = none) :
    h.serveGrant t q e = h.serveAccess t q e := by simp [Hw.serveGrant, hq]

/-- A permitted access at a cluster port where memory stands has no check bits. -/
theorem Hw.serveAccess_cluster (h : Hw) (t : Nat) (q : Request) (e : EccFinding) (ht : 32 ≤ t ∧ t < 40)
    (hp : h.permits t q.master q.addr q.data.isSome = true) (hr : isRegister q.addr = false)
    (hm : h.memoryAt q.addr = true) : h.serveAccess t q e = h.memoryGrant q := by
  have hbank : ¬ t < 32 := by omega
  have hdram : ¬ (t = 40 ∨ t = 41) := by omega
  simp [Hw.serveAccess, hp, hr, hm, hbank, hdram]

theorem Hw.byte_memoryGrant_lineRead (h : Hw) (q : Request) (b : Nat) (hq : q.thread = none) (hd : q.data = none)
    (hl : q.master < 8 ∧ q.size = 64 ∧ cacheable q.addr = true) :
    (h.memoryGrant q).byte b = (h.fillLine q.addr (h.memBytes q.addr q.size)).byte b := by
  simp only [Hw.memoryGrant, hd, h.reply_of_master q _ _ hq, h.cacheAnswer_lineRead q _ hd hl]
  rfl

/-! ### A request at a target that is not its address's -/

/-- Core 3 reads a line of general SRAM. -/
def strayRead : Request := ⟨3, none, false, 0x11000000, 64, none, false, false⟩

/-- Sixteen changed lines of general SRAM in the cache set of `strayRead`. -/
def changedLines : NMap CacheLine := (List.range 16).map fun i => (0x440800 + 2048 * i, ⟨List.replicate 64 7, true⟩)

/-- `strayRead` waits at cluster port 33, which is not the target of its address, and its cache set is full. -/
def strayState : State :=
  ⟨{ Hw.reset with shank := ⟨[(33, ⟨[strayRead], [], 0, none, none, none⟩)], [], [], changedLines⟩ }, []⟩

theorem strayState_grantChoice : strayState.hw.grantChoice 33 = some (.rotation, strayRead) := by decide +kernel

theorem strayState_permits : strayState.hw.permits 33 3 0x11000000 false = true := by decide +kernel

theorem changedLines_oneSet :
    (changedLines.filter fun x => cacheSet x.1 == cacheSet (strayRead.addr / 64)) = changedLines := by
  decide +kernel

theorem changedLines_stray : kget changedLines (strayRead.addr / 64) = none := by decide +kernel

/-- Whichever line of `changedLines` leaves, it differs from memory. -/
theorem changedLines_get : ∀ n < 16,
    kget changedLines ((changedLines.map (·.1))[n]?.getD 0) = some ⟨List.replicate 64 7, true⟩ ∧
      0x440800 ≤ (changedLines.map (·.1))[n]?.getD 0 := by
  decide +kernel

/-- The access of `strayRead` writes a line of another address back to memory, which held zeros there. -/
theorem strayState_writesBack (a : Arbiter) :
    ∃ b, ((strayState.hw.setArbiter 33 a).memoryGrant strayRead).byte b ≠ strayState.hw.byte b := by
  let h := strayState.hw.setArbiter 33 a
  obtain ⟨hline, hkey⟩ := changedLines_get (h.freeNat % 16) (Nat.mod_lt _ (by decide))
  generalize hk : (changedLines.map (·.1))[h.freeNat % 16]?.getD 0 = k at hline hkey
  have hvictim : h.line (64 * k) = some ⟨List.replicate 64 7, true⟩ := by
    rw [← hline]; exact congrArg (kget changedLines) (by omega)
  have hback : (h.memoryGrant strayRead).byte (64 * k / 64 * 64) = 7 := by
    rw [Hw.byte_memoryGrant_lineRead _ _ _ rfl rfl (by decide),
      Hw.byte_fillLine_full h _ _ _ changedLines_oneSet (by decide) changedLines_stray hk]
    exact h.byte_cleanLine_first _ hvictim rfl rfl (by omega)
  refine ⟨64 * k / 64 * 64, fun hkept => ?_⟩
  have hzero : (7 : Byte) = 0 := hback.symm.trans hkept
  exact absurd hzero (by decide)

/-- The grant performs it. -/
theorem strayState_grant (pre : Bool) (e : EccFinding) : strayState.hw.grant 33 pre e =
    (strayState.hw.setArbiter 33 (strayState.hw.afterGrant 33 .rotation strayRead)).memoryGrant strayRead := by
  rw [Hw.grant_of_rotation _ _ _ _ strayState_grantChoice, Hw.serveGrant_of_master _ _ _ _ rfl]
  exact Hw.serveAccess_cluster _ _ _ _ (by decide) strayState_permits (by decide) (by decide)

/-- Refutes O47: its clause of a read at a cluster port says that memory is kept, and does not say that the port is the
target of the address (the address of a cluster port is not cacheable). In `strayState` a core's read of general SRAM
waits at a cluster port, and filling its line in a full cache set writes another line back (R458). -/
theorem not_grantedAccesses : ¬ Obligations.GrantedAccesses := by
  intro hall
  obtain ⟨-, -, -, -, hread, -⟩ := hall strayState rfl
  obtain ⟨h, hexec, -, -, hkept⟩ := hread 33 false .clean strayRead .rotation strayState_grantChoice rfl (by decide)
    strayState_permits (by decide) (by decide) rfl
  have hh : h = (strayState.hw.grant 33 false .clean).canon := by
    cases (strayState.effect_eq (fun h => h.grant 33 false .clean) rfl).symm.trans hexec
    rfl
  obtain ⟨b, hb⟩ := strayState_writesBack (strayState.hw.afterGrant 33 .rotation strayRead)
  exact hb (by rw [← strayState_grant false .clean, ← Hw.canon_byte, ← hh, hkept])

end Sys2Proof.Machine
end

section
/-!
SUPPORT. One step at a queue that holds a command.
-/
namespace Sys2Proof.Machine

/-- The branch of `step` that a waiting command chooses: it leaves the queue before its effect begins (log 1). -/
theorem step_of_pending_cons {c : Instr} {rest : List Instr} {s : State} (hfront : s.pending = c :: rest) :
    step s = exec c { s with pending := rest } := by
  simp only [step, hfront]

/-- Settles O1: the queue of the statement is not empty, so the step is that of its front command. -/
theorem stepRunsFront : Obligations.StepRunsFront := fun _ _ _ hfront => step_of_pending_cons hfront

end Sys2Proof.Machine
end

section
/-!
SUPPORT. The transmit filter of a PPDU whose bank is none of the device's two (R130).
-/
namespace Sys2Proof.Machine

/-- A PPDU on chain 0 whose bank number carries the address of its first tap to RFS_0_0_DIV. -/
def strayBankPpdu : TxPpdu :=
  { t0 := 0, t1 := 1000, chains := 1, width := 0, reserved := false, response := false, trLead := 0, paLag := 0,
    trLag := 0, fir := some 0x1F0, deadline := 0, resp := 0 }

theorem strayBank_firstTap : R.RFS_FIR 0 0x1F0 0 = R.RFS_DIV 0 0 := rfl

/-- The PPDU is over at its TR_LAG. CUR of chain 0 of slice A reads 1 and its MODE 0, so that the chain goes back to
aerial A, and CUR to 0, as the transmit setting ends. -/
def strayBankState : State :=
  ⟨{ Hw.reset with
      regs := [(R.RFS_DIV 0 0, 0x100)], slices := [(0, { Slice.initial with tx := some strayBankPpdu })],
      timers := [(.trLag 0, 0)] }, []⟩

/-- One sample, which the tap 0x100 carries beyond 16 bits and the tap 0 does not. -/
def largeSample : List (List Cx) := [[⟨2 ^ 30, 0⟩]]

/-- Nothing leaked to another slice. -/
def noLeakage : Leakage := ⟨[], [], []⟩

theorem strayBankState_firSaturates : strayBankState.hw.firSaturates 0 strayBankPpdu largeSample = true := by
  decide +kernel

/-- FIR_SAT_CNT of slice A in the state that a command answers. -/
def firSatCount : Host.Outcome State Fault Refusal → Nat
  | .next s => s.hw.get (R.RFS_MASK_CNT_FIR_SAT_CNT 0)
  | .fault _ | .refused _ => 0

/-- TR_LAG judges the samples by the taps as they read once CUR has fallen. -/
theorem strayBankState_firSatCount : firSatCount (exec (.trLag 0 largeSample noLeakage) strayBankState) = 0 := by
  decide +kernel

/-- Refutes O10: its clause of TR_LAG counts a PPDU in FIR_SAT_CNT if the taps of the state before the command saturate
it, for every bank that the PPDU may carry. The taps of bank 0x1F0, which no FIR_BANK can hold, begin at RFS_0_0_DIV, and
TR_LAG itself changes that register (R117) before the samples pass the filter: `strayBankState` has a PPDU that saturates
before and not after, and nothing is counted. -/
theorem not_transmitInstantsTunerMaskAndCanceller : ¬ Obligations.TransmitInstantsTunerMaskAndCanceller := by
  intro hall
  obtain ⟨-, -, -, -, -, htrLag, -⟩ := hall strayBankState rfl
  obtain ⟨h, hexec, -, -, -, -, hcount, -⟩ := htrLag 0 largeSample noLeakage strayBankPpdu 0 rfl rfl
  have hzero : h.get (R.RFS_MASK_CNT_FIR_SAT_CNT 0) = 0 := by
    have hrun := strayBankState_firSatCount
    rwa [hexec] at hrun
  have hone : h.get (R.RFS_MASK_CNT_FIR_SAT_CNT 0) = 1 :=
    hcount.trans <| (if_pos strayBankState_firSaturates).trans (by decide +kernel)
  exact absurd (hzero.symm.trans hone) (by decide)

end Sys2Proof.Machine
end

section
/-!
SUPPORT. A command whose effect is known; the kept registers and memory of a chain of updates; fields of a slice's own
control registers.
-/
namespace Sys2Proof.Machine

/-! ### Commands -/

section
variable {c : Instr} {s : State} {e : Host.Outcome State Fault Refusal} {f : Hw → Hw}

/-- A command to the main domains, which runs as `e`, gives what its effect on the hardware says. -/
theorem gives_of_effect {P : Hw → Prop} (hc : exec c s = e) (he : e = s.effect f) (hup : s.hw.mainUp = true)
    (hP : P (f s.hw).canon) : Gives c s P := ⟨_, hc.trans (he.trans (s.effect_eq f hup)), hP⟩

/-- The same, where the hardware after the effect is known. -/
theorem gives_of_effect_eq {P : Hw → Prop} {h : Hw} (hc : exec c s = e) (he : e = s.effect f) (hup : s.hw.mainUp = true)
    (hf : f s.hw = h) (hP : P h.canon) : Gives c s P := gives_of_effect hc he hup (hf ▸ hP)

/-- A command that finds nothing to do changes nothing. -/
theorem gives_unchanged_of_effect (hc : exec c s = e) (he : e = s.effect f) (hup : s.hw.mainUp = true)
    (hf : f s.hw = s.hw) : Gives c s fun h => Unchanged s.hw h :=
  gives_unchanged (hc.trans (he.trans ((s.effect_eq f hup).trans (by rw [hf]))))

end

/-! ### Kept registers and memory -/

theorem MemKept.of_mem {h h' : Hw} (hm : h'.mem = h.mem) : MemKept h h' := fun a => by simp only [Hw.byte, hm]

theorem RegsKept.refl (as : List Nat) (h : Hw) : RegsKept as h h := fun _ _ => rfl

theorem RegsKept.mono {as bs : List Nat} {h h' : Hw} (hk : RegsKept as h h') (hs : as ⊆ bs) : RegsKept bs h h' :=
  fun a ha => hk a fun hin => ha (hs hin)

theorem RegsKept.set {as : List Nat} {h h' : Hw} (hk : RegsKept as h h') (f : RF) (v : Nat) (hf : f.addr ∈ as) :
    RegsKept as h (h'.set f v) := hk.trans fun _ ha => Hw.word_set_ne h' f v fun hb => ha (hb ▸ hf)

theorem RegsKept.bump {as : List Nat} {h h' : Hw} (hk : RegsKept as h h') (f : RF) (n : Nat) (hf : f.addr ∈ as) :
    RegsKept as h (h'.bump f n) := hk.set f _ hf

theorem RegsKept.modSlice {as : List Nat} {h h' : Hw} (hk : RegsKept as h h') (x : Nat) (f : Slice → Slice) :
    RegsKept as h (h'.modSlice x f) := fun a ha => (rfl : (h'.modSlice x f).word a = h'.word a).trans (hk a ha)

theorem RegsKept.start {as : List Nat} {h h' : Hw} (hk : RegsKept as h h') (t : TimerId) (n : Nat) :
    RegsKept as h (h'.start t n) := fun a ha => (h'.start_word t n a).trans (hk a ha)

theorem RegsKept.get {as : List Nat} {h h' : Hw} (hk : RegsKept as h h') {f : RF} (hf : f.addr ∉ as) :
    h'.get f = h.get f := Hw.get_congr (hk f.addr hf)

/-! ### The arrival of an instant -/

/-- The instant `d` of timer `t`: the clock stands at it, and the timer no longer runs. -/
def Hw.arrive (h : Hw) (d : Nat) (t : TimerId) : Hw := (h.advanceTo d).stop t

section
variable (h : Hw) (d : Nat) (t : TimerId)

theorem Hw.onTimer_arrive {h : Hw} {d : Nat} {t : TimerId} (ht : tget h.timers t = some d) (f : Hw → Hw) :
    h.onTimer t f = f (h.arrive d t) := h.onTimer_eq t f ht

@[simp] theorem Hw.arrive_mem : (h.arrive d t).mem = h.mem := h.advanceTo_mem d
@[simp] theorem Hw.arrive_slice (y : Nat) : (h.arrive d t).slice y = h.slice y := congrArg (kgetD _ · y) (h.advanceTo_slices d)
@[simp] theorem Hw.arrive_get (g : RF) : (h.arrive d t).get g = h.get g := h.advanceTo_get d g
@[simp] theorem Hw.arrive_getI (g : RF) : (h.arrive d t).getI g = h.getI g := h.advanceTo_getI d g

theorem Hw.arrive_regs (as : List Nat) : RegsKept as h (h.arrive d t) := fun a _ => h.advanceTo_word d a

theorem Hw.arrive_timer : tget (h.arrive d t).timers t = none := by rw [Hw.arrive, tget_stop, if_pos rfl]

end

end Sys2Proof.Machine
end

section
/-!
SUPPORT. Fields that share no bit, and the fields of a slice's control block.
-/
namespace Sys2Proof.Machine

/-- Fields of two registers of one slice: their registers' offsets differ, or their bits do. -/
theorem apart_of_offsets {f g : RF} {a b s : Nat} (hf : f.addr = a + s) (hg : g.addr = b + s)
    (h : (a != b || decide (f.lo + f.len ≤ g.lo) || decide (g.lo + g.len ≤ f.lo)) = true) : apart f g := by
  by_cases hab : a = b
  · exact apart_of_bits (by simpa [hab] using h)
  · exact .inl (by omega)

/-- A field set to a value of its range. -/
theorem Hw.get_set_const (h : Hw) {f : RF} {v : Nat}
    (hv : (decide (f.lo + f.len ≤ 32) && decide (v < 2 ^ f.len)) = true) : (h.set f v).get f = v := by
  simp only [Bool.and_eq_true, decide_eq_true_eq] at hv
  exact Hw.get_set_lt h f v hv.1 hv.2

/-- The field lies in the control block of a slice, and not in its STR_STAT, which is set from both slices of the pair. -/
def sliceField (f : RF) : Prop :=
  0x41000000 ≤ f.addr ∧ f.addr < 0x41300000 ∧ f.addr % 0x100000 < 0x800 ∧ f.addr % 0x100000 ≠ 0x68

theorem sliceField_of_offset {f : RF} {a : Nat} {x : Fin 3} (hf : f.addr = a + 0x100000 * x)
    (h : (decide (0x41000000 ≤ a) && decide (a < 0x41000800) && a != 0x41000068) = true) : sliceField f := by
  simp only [Bool.and_eq_true, decide_eq_true_eq, bne_iff_ne] at h
  unfold sliceField
  omega

end Sys2Proof.Machine
end

section
/-!
SUPPORT. The record of a slice after each of the named updates, one lemma per reader per update.
-/
namespace Sys2Proof.Machine
variable (h : Hw)

/-! ### The record of a slice after an update of something else -/

@[simp] theorem Hw.set_slice (f : RF) (v y : Nat) : (h.set f v).slice y = h.slice y := rfl
@[simp] theorem Hw.bump_slice (f : RF) (n y : Nat) : (h.bump f n).slice y = h.slice y := rfl
@[simp] theorem Hw.start_slice (t : TimerId) (n y : Nat) : (h.start t n).slice y = h.slice y := rfl
@[simp] theorem Hw.stop_slice (t : TimerId) (y : Nat) : (h.stop t).slice y = h.slice y := rfl
@[simp] theorem Hw.canon_slice (y : Nat) : h.canon.slice y = h.slice y := rfl

/-! ### modSlice -/

@[simp] theorem Hw.modSlice_mem (x : Nat) (f : Slice → Slice) : (h.modSlice x f).mem = h.mem := rfl
@[simp] theorem Hw.modSlice_et (x : Nat) (f : Slice → Slice) : (h.modSlice x f).et = h.et := rfl
@[simp] theorem Hw.modSlice_timers (x : Nat) (f : Slice → Slice) : (h.modSlice x f).timers = h.timers := rfl
@[simp] theorem Hw.modSlice_get (x : Nat) (f : Slice → Slice) (g : RF) : (h.modSlice x f).get g = h.get g := rfl
@[simp] theorem Hw.modSlice_slice (x : Nat) (f : Slice → Slice) : (h.modSlice x f).slice x = f (h.slice x) :=
  kgetD_kput_self _ _ _ _

/-! ### Updates of registers, chains and ports alone -/

/-- Nothing has changed but registers, chains and coexistence ports. -/
def RestKept (h h' : Hw) : Prop := { h' with regs := h.regs, chains := h.chains, coex := h.coex } = h

theorem RestKept.refl : RestKept h h := rfl

variable {h} {h' h'' : Hw}

theorem RestKept.trans (h1 : RestKept h h') (h2 : RestKept h' h'') : RestKept h h'' := by
  have hback : ({ h'' with regs := h.regs, chains := h.chains, coex := h.coex } : Hw) =
    { ({ h'' with regs := h'.regs, chains := h'.chains, coex := h'.coex } : Hw) with
      regs := h.regs, chains := h.chains, coex := h.coex } := rfl
  rw [RestKept, hback, h2, h1]

theorem RestKept.proj {β : Type} (π : Hw → β) (hr : RestKept h h') :
    π { h' with regs := h.regs, chains := h.chains, coex := h.coex } = π h := by
  unfold RestKept at hr
  rw [hr]

theorem RestKept.mem (hr : RestKept h h') : h'.mem = h.mem := hr.proj Hw.mem
theorem RestKept.et (hr : RestKept h h') : h'.et = h.et := hr.proj Hw.et
theorem RestKept.timers (hr : RestKept h h') : h'.timers = h.timers := hr.proj Hw.timers
theorem RestKept.slices (hr : RestKept h h') : h'.slices = h.slices := hr.proj Hw.slices
theorem RestKept.txStatus (hr : RestKept h h') : h'.txStatus = h.txStatus := hr.proj Hw.txStatus
theorem RestKept.slice (hr : RestKept h h') (y : Nat) : h'.slice y = h.slice y := by simp only [Hw.slice, hr.slices]

theorem RestKept.foldl {α : Type} {f : Hw → α → Hw} (l : List α) (hf : ∀ h a, RestKept h (f h a)) :
    RestKept h (l.foldl f h) := List.foldlRecOn l f (RestKept.refl h) fun _ hr a _ => hr.trans (hf _ a)

theorem RegsKept.foldl {α : Type} {as : List Nat} {f : Hw → α → Hw} (l : List α)
    (hf : ∀ h, ∀ a ∈ l, RegsKept as h (f h a)) : RegsKept as h (l.foldl f h) :=
  List.foldlRecOn l f (RegsKept.refl as h) fun _ hr a ha => hr.trans (hf _ a ha)

end Sys2Proof.Machine
end

section
/-!
SUPPORT. What the operations that the slices' commands share change, and what they leave: the control lines, the
reception, the noise floor, the cancellers, the STR decision, a Last occurrence.
-/
namespace Sys2Proof.Machine
variable (h : Hw) (x : Nat)

/-! ### TXACT and the control lines (R113, R135) -/

theorem cxStat_mem {n : Nat} (hn : n < 3) : R.SYS_CX_STAT n ∈ cxStatRegs := by interval_cases n <;> simp [cxStatRegs]

theorem sliceField.off_cxStat {g : RF} (hg : sliceField g) : g.addr ∉ cxStatRegs := by
  unfold sliceField at hg
  simp only [cxStatRegs, R.SYS_CX_STAT, List.mem_cons, List.not_mem_nil, or_false]
  omega

theorem Hw.driveTxact_rest : RestKept h h.driveTxact :=
  RestKept.foldl _ fun h n => by dsimp only; split <;> rfl

theorem Hw.driveTxact_regs : RegsKept cxStatRegs h h.driveTxact := by
  refine RegsKept.foldl _ fun h n hn => ?_
  dsimp only
  split
  · exact RegsKept.set (h' := h.modCx n _) (fun _ _ => rfl) _ _ (cxStat_mem (List.mem_range.mp hn))
  · exact RegsKept.refl _ h

/-- The control lines of a slice take their levels, PAEN low among them. -/
def Hw.setLines (fem : Bool) (trsw lnaen : Nat) : Hw :=
  (h.modSlice x fun s => { s with femEn := fem, trsw := trsw, lnaen := lnaen, paen := 0 }).driveTxact

/-- The levels of FEM_EN, TRSW and LNAEN of a slice at rest (R113). -/
def Hw.restLines : Bool × Nat × Nat :=
  if h.get (R.RFS_FSTAT_STATE x) = stClosed then (false, 0, 0)
  else if h.get (R.RFS_FSTAT_STATE x) = stOpening || h.synth x != synReady then (true, chainMask x, 0)
  else (true, 0, chainMask x)

theorem Hw.linesAtRest_eq :
    h.linesAtRest x = h.setLines x (h.restLines x).1 (h.restLines x).2.1 (h.restLines x).2.2 := by
  unfold Hw.linesAtRest Hw.restLines
  dsimp only
  split
  · rfl
  · split <;> rfl

theorem Hw.restLines_open {h : Hw} {x : Nat} (hst : h.get (R.RFS_FSTAT_STATE x) = stOpen) (hs : h.synth x = synReady) :
    h.restLines x = (true, 0, chainMask x) := by
  simp [Hw.restLines, hst, hs, stOpen, stClosed, stOpening]

section
variable (fem : Bool) (trsw lnaen : Nat)

theorem Hw.setLines_rest : RestKept (h.modSlice x fun s => { s with femEn := fem, trsw := trsw, lnaen := lnaen, paen := 0 })
    (h.setLines x fem trsw lnaen) := Hw.driveTxact_rest _

@[simp] theorem Hw.setLines_mem : (h.setLines x fem trsw lnaen).mem = h.mem := (h.setLines_rest x fem trsw lnaen).mem
@[simp] theorem Hw.setLines_timers : (h.setLines x fem trsw lnaen).timers = h.timers :=
  (h.setLines_rest x fem trsw lnaen).timers
@[simp] theorem Hw.setLines_txStatus : (h.setLines x fem trsw lnaen).txStatus = h.txStatus :=
  (h.setLines_rest x fem trsw lnaen).txStatus
@[simp] theorem Hw.setLines_slice : (h.setLines x fem trsw lnaen).slice x =
    { h.slice x with femEn := fem, trsw := trsw, lnaen := lnaen, paen := 0 } := by
  rw [(h.setLines_rest x fem trsw lnaen).slice, Hw.modSlice_slice]

theorem Hw.setLines_regs : RegsKept cxStatRegs h (h.setLines x fem trsw lnaen) := Hw.driveTxact_regs (h.modSlice x _)

theorem Hw.setLines_get {g : RF} (hg : sliceField g) : (h.setLines x fem trsw lnaen).get g = h.get g :=
  (h.setLines_regs x fem trsw lnaen).get hg.off_cxStat

end

/-! ### The end of a reception (R122, R158) -/

/-- The gain and diversity registers of a slice's chains. -/
def idleRegs : List Nat := (List.range 8).flatMap fun c => [R.RFS_GAIN x c, R.RFS_DIV x c]

theorem gain_mem_idleRegs {c : Nat} (hc : c < 8) : R.RFS_GAIN x c ∈ idleRegs x :=
  List.mem_flatMap.mpr ⟨c, List.mem_range.mpr hc, .head _⟩

theorem div_mem_idleRegs {c : Nat} (hc : c < 8) : R.RFS_DIV x c ∈ idleRegs x :=
  List.mem_flatMap.mpr ⟨c, List.mem_range.mpr hc, .tail _ (.head _)⟩

theorem sliceField.off_idleRegs {g : RF} (hg : sliceField g) : g.addr ∉ idleRegs x := by
  unfold sliceField at hg
  simp only [idleRegs, R.RFS_GAIN, R.RFS_DIV, List.mem_flatMap, List.mem_range, List.mem_cons, List.not_mem_nil, or_false]
  rintro ⟨c, hc, hcase⟩
  omega

theorem chainsOf_le : chainsOf x ≤ 8 := by unfold chainsOf; split <;> omega

theorem Hw.idleAerial_rest (c : Nat) : RestKept h (h.idleAerial x c) := by
  unfold Hw.idleAerial
  dsimp only
  split <;> rfl

theorem Hw.idleAerial_regs {c : Nat} (hc : c < 8) : RegsKept (idleRegs x) h (h.idleAerial x c) := by
  unfold Hw.idleAerial
  dsimp only
  split
  · exact fun _ _ => rfl
  · exact (RegsKept.refl _ h).set _ _ (div_mem_idleRegs x hc)

theorem Hw.idleGain_rest : RestKept h (h.idleGain x) :=
  RestKept.foldl _ fun h c => RestKept.trans (h' := h.set _ _) rfl (Hw.idleAerial_rest _ x c)

theorem Hw.idleGain_regs : RegsKept (idleRegs x) h (h.idleGain x) := by
  refine RegsKept.foldl _ fun h c hc => ?_
  have hc8 : c < 8 := lt_of_lt_of_le (List.mem_range.mp hc) (chainsOf_le x)
  exact ((RegsKept.refl _ h).set _ _ (gain_mem_idleRegs x hc8)).trans (Hw.idleAerial_regs _ x hc8)

@[simp] theorem Hw.idleGain_mem : (h.idleGain x).mem = h.mem := (h.idleGain_rest x).mem
@[simp] theorem Hw.idleGain_et : (h.idleGain x).et = h.et := (h.idleGain_rest x).et
@[simp] theorem Hw.idleGain_timers : (h.idleGain x).timers = h.timers := (h.idleGain_rest x).timers
@[simp] theorem Hw.idleGain_slice (y : Nat) : (h.idleGain x).slice y = h.slice y := (h.idleGain_rest x).slice y

@[simp] theorem Hw.stopTimeline_mem : (h.stopTimeline x).mem = h.mem := by simp [Hw.stopTimeline]
@[simp] theorem Hw.stopTimeline_et : (h.stopTimeline x).et = h.et := by simp [Hw.stopTimeline]
@[simp] theorem Hw.stopTimeline_slice (y : Nat) : (h.stopTimeline x).slice y = h.slice y := by simp [Hw.stopTimeline]
@[simp] theorem Hw.stopTimeline_get (g : RF) : (h.stopTimeline x).get g = h.get g := by simp [Hw.stopTimeline]

@[simp] theorem Hw.dropReception_mem : (h.dropReception x).mem = h.mem := by simp [Hw.dropReception, Hw.idleBegins]
@[simp] theorem Hw.dropReception_et : (h.dropReception x).et = h.et := by simp [Hw.dropReception, Hw.idleBegins]
@[simp] theorem Hw.dropReception_timers : (h.dropReception x).timers = (h.stopTimeline x).timers := by
  simp [Hw.dropReception, Hw.idleBegins]

theorem Hw.dropReception_get {g : RF} (hg : sliceField g) : (h.dropReception x).get g = h.get g := by
  simp only [Hw.dropReception, Hw.idleBegins, Hw.modSlice_get, (Hw.idleGain_regs _ x).get (hg.off_idleRegs x),
    Hw.stopTimeline_get]

@[simp] theorem Hw.dropReception_slice : (h.dropReception x).slice x =
    { h.slice x with
      rx := Reception.none
      idleFrom := if h.receiving x && !((h.slice x).rx.phase.energyOnly && h.partnerOnAir x) then h.et
        else (h.slice x).idleFrom
      nfFrom := h.et } := by
  simp [Hw.dropReception, Hw.idleBegins]

/-! ### Noise floor, cancellers and the STR decision (R142, R144, R170) -/

/-- The noise-floor registers of a slice. -/
def noiseRegs : List Nat := (List.range 16).map (R.PHY_NF x)

/-- The coefficient registers of slices B and C. -/
def coefRegs : List Nat :=
  [1, 2].flatMap fun v => (List.range 8).flatMap fun c => (List.range 64).map (R.RFS_CANC_COEF v c)

def strRegs : List Nat := [R.RFS_STR_STAT 1, R.RFS_STR_STAT 2]

theorem sliceField.off_noiseRegs {g : RF} (hg : sliceField g) : g.addr ∉ noiseRegs x := by
  unfold sliceField at hg
  simp only [noiseRegs, R.PHY_NF, List.mem_map, List.mem_range]
  rintro ⟨n, hn, hcase⟩
  omega

theorem sliceField.off_coefRegs {g : RF} (hg : sliceField g) : g.addr ∉ coefRegs := by
  unfold sliceField at hg
  simp only [coefRegs, R.RFS_CANC_COEF, List.mem_flatMap, List.mem_map, List.mem_range, List.mem_cons, List.not_mem_nil,
    or_false]
  rintro ⟨v, hv, c, hc, k, hk, hcase⟩
  omega

theorem sliceField.off_strRegs {g : RF} (hg : sliceField g) : g.addr ∉ strRegs := by
  unfold sliceField at hg
  simp only [strRegs, R.RFS_STR_STAT, List.mem_cons, List.not_mem_nil, or_false]
  omega

theorem noiseField_off_coefRegs (n : Nat) : (R.PHY_NF_NF x n).addr ∉ coefRegs := by
  simp only [coefRegs, R.RFS_CANC_COEF, R.PHY_NF_NF, R.PHY_NF, List.mem_flatMap, List.mem_map, List.mem_range,
    List.mem_cons, List.not_mem_nil, or_false]
  rintro ⟨v, hv, c, hc, k, hk, hcase⟩
  omega

theorem noiseField_off_strRegs (n : Nat) : (R.PHY_NF_NF x n).addr ∉ strRegs := by
  simp only [strRegs, R.RFS_STR_STAT, R.PHY_NF_NF, R.PHY_NF, List.mem_cons, List.not_mem_nil, or_false]
  omega

/-- The registers of every noise-floor average read invalid. -/
def Hw.invalidNoise : Hw :=
  (List.range 16).foldl (fun h n => (h.set (R.PHY_NF_NF x n) 0x800).set (R.PHY_NF_BLOCKS x n) 0) h

theorem Hw.invalidNoise_rest : RestKept h (h.invalidNoise x) := RestKept.foldl _ fun _ _ => rfl

theorem Hw.invalidNoise_regs : RegsKept (noiseRegs x) h (h.invalidNoise x) :=
  RegsKept.foldl _ fun h n hn =>
    have hmem : R.PHY_NF x n ∈ noiseRegs x := List.mem_map_of_mem hn
    ((RegsKept.refl _ h).set _ _ hmem).set _ _ hmem

theorem Hw.zeroCanceller_rest (c : Nat) : RestKept h (h.zeroCanceller x c) :=
  RestKept.trans (h' := h.modChain x c _) rfl (RestKept.foldl _ fun _ _ => rfl)

theorem Hw.zeroCanceller_regs {c : Nat} (hx : x = 1 ∨ x = 2) (hc : c < 8) : RegsKept coefRegs h (h.zeroCanceller x c) := by
  refine RegsKept.foldl (h := h.modChain x c _) _ fun h k hk a ha => Hw.word_setWord_ne h _ fun hak => ha ?_
  simp only [coefRegs, List.mem_flatMap, List.mem_map, List.mem_range, List.mem_cons, List.not_mem_nil, or_false]
  exact ⟨x, hx, c, hc, k, List.mem_range.mp hk, hak.symm⟩

theorem Hw.zeroCancellers_rest : RestKept h h.zeroCancellers :=
  (RestKept.foldl _ fun h => h.zeroCanceller_rest 1).trans (RestKept.foldl _ fun h => h.zeroCanceller_rest 2)

theorem Hw.zeroCancellers_regs : RegsKept coefRegs h h.zeroCancellers :=
  have hone (h : Hw) (v c : Nat) (hv : v = 1 ∨ v = 2) (hc : c ∈ List.range (chainsOf v)) :
      RegsKept coefRegs h (h.zeroCanceller v c) :=
    h.zeroCanceller_regs v hv (lt_of_lt_of_le (List.mem_range.mp hc) (chainsOf_le v))
  (RegsKept.foldl _ fun h c hc => hone h 1 c (.inl rfl) hc).trans (RegsKept.foldl _ fun h c hc => hone h 2 c (.inr rfl) hc)

/-- The fields of STR_STAT of one slice of the pair, from the decision and its reasons. -/
def Hw.setStr (ok f1 f2 f3 : Bool) (sep : Int) : Hw :=
  let h := if h.flag (R.RFS_STR_STAT_STR_OK x) != ok then h.set (R.RFS_STR_STAT_CHG_EV x) 1 else h
  ((((h.setFlag (R.RFS_STR_STAT_STR_OK x) ok).setFlag (R.RFS_STR_STAT_SEP_FAIL x) f1).setFlag
    (R.RFS_STR_STAT_ISO_FAIL x) f2).setFlag (R.RFS_STR_STAT_CANC_FAIL x) f3).setI (R.RFS_STR_STAT_SEP x) sep

theorem Hw.updateStr_eq : ∃ ok f1 f2 f3 sep, h.updateStr = (h.setStr 1 ok f1 f2 f3 sep).setStr 2 ok f1 f2 f3 sep :=
  ⟨_, _, _, _, _, rfl⟩

theorem Hw.setStr_rest (ok f1 f2 f3 : Bool) (sep : Int) : RestKept h (h.setStr x ok f1 f2 f3 sep) := by
  unfold Hw.setStr
  dsimp only
  split <;> rfl

theorem Hw.setStr_regs (hx : R.RFS_STR_STAT x ∈ strRegs) (ok f1 f2 f3 : Bool) (sep : Int) :
    RegsKept strRegs h (h.setStr x ok f1 f2 f3 sep) := by
  have hset (k : Hw) (hk : RegsKept strRegs h k) : RegsKept strRegs h
      (((((k.setFlag (R.RFS_STR_STAT_STR_OK x) ok).setFlag (R.RFS_STR_STAT_SEP_FAIL x) f1).setFlag
        (R.RFS_STR_STAT_ISO_FAIL x) f2).setFlag (R.RFS_STR_STAT_CANC_FAIL x) f3).setI (R.RFS_STR_STAT_SEP x) sep) :=
    ((((hk.set _ _ hx).set _ _ hx).set _ _ hx).set _ _ hx).set _ _ hx
  unfold Hw.setStr
  dsimp only
  split
  · exact hset _ ((RegsKept.refl _ h).set _ _ hx)
  · exact hset _ (RegsKept.refl _ h)

theorem Hw.updateStr_rest : RestKept h h.updateStr := by
  obtain ⟨ok, f1, f2, f3, sep, heq⟩ := h.updateStr_eq
  rw [heq]
  exact (h.setStr_rest 1 ok f1 f2 f3 sep).trans (Hw.setStr_rest _ 2 ok f1 f2 f3 sep)

theorem Hw.updateStr_regs : RegsKept strRegs h h.updateStr := by
  obtain ⟨ok, f1, f2, f3, sep, heq⟩ := h.updateStr_eq
  rw [heq]
  exact (h.setStr_regs 1 (by simp [strRegs]) ok f1 f2 f3 sep).trans (Hw.setStr_regs _ 2 (by simp [strRegs]) ok f1 f2 f3 sep)

/-! ### An occurrence of Last (R217) -/

theorem Hw.noteOverlap_cases : h.noteOverlap x = h ∨
    h.noteOverlap x = (h.modOcc x fun o => { o with overlap := true }).bump (R.LAST_CNT_1_CAL_OVERLAP x) := by
  unfold Hw.noteOverlap
  split
  · split
    · exact .inl rfl
    · exact .inr rfl
  · exact .inl rfl

@[simp] theorem Hw.noteOverlap_mem : (h.noteOverlap x).mem = h.mem := by
  rcases h.noteOverlap_cases x with e | e <;> rw [e]
  rfl

@[simp] theorem Hw.noteOverlap_slice (y : Nat) : (h.noteOverlap x).slice y = h.slice y := by
  rcases h.noteOverlap_cases x with e | e <;> rw [e]
  rfl

theorem Hw.noteOverlap_get {g : RF} (hx : x < 3) (hg : sliceField g) : (h.noteOverlap x).get g = h.get g := by
  have hne : g.addr ≠ R.LAST_CNT_1 x := by
    unfold sliceField at hg
    simp only [R.LAST_CNT_1]
    omega
  rcases h.noteOverlap_cases x with e | e <;> rw [e]
  exact Hw.get_congr (Hw.word_bump_ne (h.modOcc x _) (R.LAST_CNT_1_CAL_OVERLAP x) 1 hne)

end Sys2Proof.Machine
end

section
/-!
SUPPORT. The synthesiser, calibrations, retunes and the early end of a transmission: what each leaves and what it sets.
-/
namespace Sys2Proof.Machine
variable (h : Hw) (x : Nat)

/-! ### The synthesiser (R88, R94, R95) -/

theorem Hw.settleNco_eq : h.settleNco x =
    h.modSlice x fun s => { s with ncoRx := (h.ncoNow x).1, ncoTx := (h.ncoNow x).2, ncoAt := h.et } := rfl

@[simp] theorem Hw.synthTo_mem (st : Nat) : (h.synthTo x st).mem = h.mem := rfl
@[simp] theorem Hw.synthTo_et (st : Nat) : (h.synthTo x st).et = h.et := rfl
@[simp] theorem Hw.synthTo_slice (st : Nat) : (h.synthTo x st).slice x =
    { h.slice x with ncoRx := (h.ncoNow x).1, ncoTx := (h.ncoNow x).2, ncoAt := h.et } :=
  (Hw.set_slice _ _ _ _).trans (by rw [Hw.settleNco_eq, Hw.modSlice_slice])

theorem Hw.synthTo_get_apart (st : Nat) {g : RF} (hg : apart (R.RFS_SYNTH_STATE x) g) :
    (h.synthTo x st).get g = h.get g := Hw.get_set_apart (h.settleNco x) _ _ _ hg

theorem Hw.synthTo_state {st : Nat} (hst : st < 8) : (h.synthTo x st).get (R.RFS_SYNTH_STATE x) = st :=
  Hw.get_set_lt (h.settleNco x) _ _ (fits_of_bits rfl) hst

theorem Hw.synthTo_regs (st : Nat) : RegsKept [R.RFS_SYNTH x] h (h.synthTo x st) :=
  ((RegsKept.refl _ h).modSlice x _).set _ _ (.head _)

theorem Hw.synthStart_eq : h.synthStart x = (((h.synthTo x synStart).set (R.RFS_SYNTH_LOCKED x) 0).modSlice x
    fun s => { s with acqFailed := false }).start (.synth x) 60000 := rfl

@[simp] theorem Hw.synthStart_mem : (h.synthStart x).mem = h.mem := rfl
@[simp] theorem Hw.synthStart_slice : (h.synthStart x).slice x =
    { h.slice x with ncoRx := (h.ncoNow x).1, ncoTx := (h.ncoNow x).2, ncoAt := h.et, acqFailed := false } := by
  rw [Hw.synthStart_eq, Hw.start_slice, Hw.modSlice_slice, Hw.set_slice, Hw.synthTo_slice]

theorem Hw.synthStart_state : (h.synthStart x).get (R.RFS_SYNTH_STATE x) = synStart :=
  (Hw.get_set_apart (h.synthTo x synStart) (R.RFS_SYNTH_LOCKED x) _ 0 (apart_of_bits rfl)).trans
    (h.synthTo_state x (by decide))

theorem Hw.synthStart_locked : (h.synthStart x).get (R.RFS_SYNTH_LOCKED x) = 0 :=
  Hw.get_set_const (h.synthTo x synStart) rfl

theorem Hw.synthStart_regs : RegsKept [R.RFS_SYNTH x] h (h.synthStart x) :=
  (((h.synthTo_regs x synStart).set _ 0 (.head _)).modSlice x _).start _ _

/-! ### CAL_STAT.STATE (R110) -/

@[simp] theorem Hw.calState_mem : (h.calState x).mem = h.mem := rfl
@[simp] theorem Hw.calState_et : (h.calState x).et = h.et := rfl
@[simp] theorem Hw.calState_timers : (h.calState x).timers = h.timers := rfl
@[simp] theorem Hw.calState_slice (y : Nat) : (h.calState x).slice y = h.slice y := rfl

theorem Hw.calState_regs : RegsKept [R.RFS_CAL_STAT x] h (h.calState x) := (RegsKept.refl _ h).set _ _ (.head _)

theorem Hw.calState_get_apart {g : RF} (hg : apart (R.RFS_CAL_STAT_STATE x) g) : (h.calState x).get g = h.get g :=
  Hw.get_set_apart h _ _ _ hg

theorem Hw.calState_of_running {h : Hw} {x : Nat} (hc : (h.slice x).cal.isSome = true) :
    (h.calState x).get (R.RFS_CAL_STAT_STATE x) = 2 := by
  simp only [Hw.calState, hc, if_true]
  exact Hw.get_set_const h rfl

theorem Hw.calState_of_waiting {h : Hw} {x : Nat} (hc : (h.slice x).cal = none) (hw : (h.slice x).calWaits.isSome = true) :
    (h.calState x).get (R.RFS_CAL_STAT_STATE x) = 1 := by
  simp only [Hw.calState, hc, hw]
  exact Hw.get_set_const h rfl

/-! ### The beginning of a calibration (R99, R101, R113) -/

/-- A reception in progress as a calibration begins is over, and counted. -/
def Hw.abortForCal : Hw := if h.receiving x then (h.dropReception x).bump (R.RFS_EVT_CNT1_RX_ABORT_CAL x) else h

/-- A forced calibration is counted. -/
def Hw.countForced (forced : Bool) : Hw := if forced then h.bump (R.RFS_EVT_CNT1_FORCED_CAL x) else h

/-- The calibration `c` runs from here: from the start of the synthesiser, or in CAL. -/
def Hw.runCalibration (c : Calibration) : Hw :=
  (if c.starting then h.synthStart x else h.synthTo x synCal).modSlice x fun s => { s with cal := some c }

theorem Hw.beginCalibration_eq (full forced starting : Bool) : h.beginCalibration x full forced starting =
    let k := (h.abortForCal x).countForced x forced
    ((((k.runCalibration x ⟨full, forced, k.getI (R.RFS_TEMP_T x), starting⟩).calState x).setLines x true (chainMask x)
      0).noteOverlap x) := rfl

@[simp] theorem Hw.abortForCal_mem : (h.abortForCal x).mem = h.mem := by unfold Hw.abortForCal; split <;> simp
@[simp] theorem Hw.countForced_mem (forced : Bool) : (h.countForced x forced).mem = h.mem := by
  unfold Hw.countForced; split <;> rfl
@[simp] theorem Hw.runCalibration_mem (c : Calibration) : (h.runCalibration x c).mem = h.mem := by
  unfold Hw.runCalibration; split <;> rfl

theorem Hw.abortForCal_cal : ((h.abortForCal x).slice x).calWaits = (h.slice x).calWaits := by
  unfold Hw.abortForCal; split <;> simp

theorem Hw.abortForCal_rx : ((h.abortForCal x).slice x).rx.phase = .idle := by
  unfold Hw.abortForCal
  split
  · simp [Reception.none]
  · next hr => simpa [Hw.receiving] using hr

@[simp] theorem Hw.countForced_slice (forced : Bool) (y : Nat) : (h.countForced x forced).slice y = h.slice y := by
  unfold Hw.countForced; split <;> rfl

@[simp] theorem Hw.runCalibration_cal (c : Calibration) : ((h.runCalibration x c).slice x).cal = some c := by
  unfold Hw.runCalibration; split <;> simp
@[simp] theorem Hw.runCalibration_rx (c : Calibration) : ((h.runCalibration x c).slice x).rx = (h.slice x).rx := by
  unfold Hw.runCalibration; split <;> simp
@[simp] theorem Hw.runCalibration_calWaits (c : Calibration) :
    ((h.runCalibration x c).slice x).calWaits = (h.slice x).calWaits := by
  unfold Hw.runCalibration; split <;> simp

theorem Hw.runCalibration_regs (c : Calibration) : RegsKept [R.RFS_SYNTH x] h (h.runCalibration x c) := by
  unfold Hw.runCalibration
  split
  · exact (h.synthStart_regs x).modSlice x _
  · exact (h.synthTo_regs x synCal).modSlice x _

theorem Hw.runCalibration_state (c : Calibration) :
    (h.runCalibration x c).get (R.RFS_SYNTH_STATE x) = if c.starting then synStart else synCal := by
  unfold Hw.runCalibration
  rw [Hw.modSlice_get]
  split
  · exact h.synthStart_state x
  · exact h.synthTo_state x (by decide)

theorem Hw.countForced_get_apart (forced : Bool) {g : RF} (hg : apart (R.RFS_EVT_CNT1_FORCED_CAL x) g) :
    (h.countForced x forced).get g = h.get g := by
  unfold Hw.countForced
  split
  · exact Hw.get_bump_apart h _ _ _ hg
  · rfl

theorem Hw.abortForCal_get_apart {g : RF} (hs : sliceField g) (hg : apart (R.RFS_EVT_CNT1_RX_ABORT_CAL x) g) :
    (h.abortForCal x).get g = h.get g := by
  unfold Hw.abortForCal
  split
  · rw [Hw.get_bump_apart _ _ _ _ hg, Hw.dropReception_get _ _ hs]
  · rfl

section
variable (full forced starting : Bool)

@[simp] theorem Hw.beginCalibration_mem : (h.beginCalibration x full forced starting).mem = h.mem := by
  simp [Hw.beginCalibration_eq]

theorem Hw.beginCalibration_rx : ((h.beginCalibration x full forced starting).slice x).rx.phase = .idle := by
  simp [Hw.beginCalibration_eq, h.abortForCal_rx x]

theorem Hw.beginCalibration_calWaits :
    ((h.beginCalibration x full forced starting).slice x).calWaits = (h.slice x).calWaits := by
  simp [Hw.beginCalibration_eq, h.abortForCal_cal x]

end

variable (x : Fin 3) (full forced starting : Bool)

/-- The temperature that a calibration starts from is that of the state it begins in. -/
theorem Hw.beginCalibration_cal : ((h.beginCalibration x full forced starting).slice x).cal =
    some ⟨full, forced, h.getI (R.RFS_TEMP_T x), starting⟩ := by
  have htemp : ((h.abortForCal x).countForced x forced).getI (R.RFS_TEMP_T x) = h.getI (R.RFS_TEMP_T x) := by
    rw [Hw.getI, Hw.countForced_get_apart _ _ _ (apart_of_offsets rfl rfl rfl),
      Hw.abortForCal_get_apart _ _ (sliceField_of_offset rfl rfl) (apart_of_offsets rfl rfl rfl), Hw.getI]
  simp [Hw.beginCalibration_eq, htemp]

/-- Past the synthesiser, the lines and the occurrence leave the slice's fields but CAL_STAT.STATE. -/
theorem Hw.beginCalibration_get {g : RF} (hs : sliceField g) (hg : apart (R.RFS_CAL_STAT_STATE x) g) :
    ∃ c, c.starting = starting ∧ (h.beginCalibration x full forced starting).get g =
      (((h.abortForCal x).countForced x forced).runCalibration x c).get g :=
  ⟨_, rfl, by rw [Hw.beginCalibration_eq, Hw.noteOverlap_get _ _ x.isLt hs, Hw.setLines_get _ _ _ _ _ hs,
    Hw.calState_get_apart _ _ hg]⟩

theorem Hw.beginCalibration_state : (h.beginCalibration x full forced starting).get (R.RFS_SYNTH_STATE x) =
    if starting then synStart else synCal := by
  obtain ⟨c, hc, hget⟩ := h.beginCalibration_get x full forced starting (g := R.RFS_SYNTH_STATE x)
    (sliceField_of_offset rfl rfl) (apart_of_offsets rfl rfl rfl)
  rw [hget, Hw.runCalibration_state, hc]

theorem Hw.beginCalibration_calStat : (h.beginCalibration x full forced starting).get (R.RFS_CAL_STAT_STATE x) = 2 := by
  have hs : sliceField (R.RFS_CAL_STAT_STATE x) := sliceField_of_offset rfl rfl
  rw [Hw.beginCalibration_eq, Hw.noteOverlap_get _ _ x.isLt hs, Hw.setLines_get _ _ _ _ _ hs]
  exact Hw.calState_of_running (by simp)

/-- The fields of the other registers are as they were. -/
theorem Hw.beginCalibration_get_apart {g : RF} (hs : sliceField g) (hstate : apart (R.RFS_CAL_STAT_STATE x) g)
    (hsynth : g.addr ≠ R.RFS_SYNTH x) (hcnt : g.addr ≠ R.RFS_EVT_CNT1 x) :
    (h.beginCalibration x full forced starting).get g = h.get g := by
  obtain ⟨c, -, hget⟩ := h.beginCalibration_get x full forced starting hs hstate
  rw [hget, (Hw.runCalibration_regs _ x c).get (by simpa using hsynth),
    Hw.countForced_get_apart _ _ _ (.inl (Ne.symm hcnt)), Hw.abortForCal_get_apart _ _ hs (.inl (Ne.symm hcnt))]

end Sys2Proof.Machine
end

section
/-!
SUPPORT. A retune as it is applied (R92), and the early end of a transmission (R96).
-/
namespace Sys2Proof.Machine
variable (h : Hw) (x : Nat)

/-! ### The words of a retune -/

/-- The registers that hold a slice's active words and PEND. -/
def retuneRegs : List Nat :=
  [R.RFS_NCO_RX_ACT_LO x, R.RFS_NCO_RX_ACT_HI x, R.RFS_NCO_TX_ACT_LO x, R.RFS_NCO_TX_ACT_HI x, R.RFS_RETUNE x]

/-- The words are active, PEND is 0 and the accumulators are zero. -/
def Hw.putWords (rx tx : Nat) : Hw :=
  let h := h.modSlice x fun s => { s with retune := none, ncoRx := 0, ncoTx := 0, ncoAt := h.et }
  let h := (h.set (R.RFS_NCO_RX_ACT_LO_W_RX_LO x) rx).set (R.RFS_NCO_RX_ACT_HI_W_RX_HI x) (rx / 2 ^ 32)
  let h := (h.set (R.RFS_NCO_TX_ACT_LO_W_TX_LO x) tx).set (R.RFS_NCO_TX_ACT_HI_W_TX_HI x) (tx / 2 ^ 32)
  h.set (R.RFS_RETUNE_PEND x) 0

/-- What a retune of B or C means for the pair. -/
def Hw.retunePair : Hw := if x = 0 then h else h.zeroCancellers.updateStr

theorem Hw.applyWords_eq (rx tx : Nat) : h.applyWords x rx tx =
    ((((h.putWords x rx tx).start (.retune x) 2000).invalidNoise x).modSlice x
      fun s => { s with nfSums := [] }).retunePair x := rfl

theorem Hw.retunePair_rest : RestKept h (h.retunePair x) := by
  unfold Hw.retunePair
  split
  · exact RestKept.refl h
  · exact h.zeroCancellers_rest.trans (Hw.updateStr_rest _)

theorem Hw.retunePair_get {g : RF} (hc : g.addr ∉ coefRegs) (hs : g.addr ∉ strRegs) :
    (h.retunePair x).get g = h.get g := by
  unfold Hw.retunePair
  split
  · rfl
  · rw [(Hw.updateStr_regs _).get hs, h.zeroCancellers_regs.get hc]

section
variable (rx tx : Nat)

@[simp] theorem Hw.putWords_mem : (h.putWords x rx tx).mem = h.mem := rfl
@[simp] theorem Hw.putWords_et : (h.putWords x rx tx).et = h.et := rfl
@[simp] theorem Hw.putWords_slice : (h.putWords x rx tx).slice x =
    { h.slice x with retune := none, ncoRx := 0, ncoTx := 0, ncoAt := h.et } :=
  Hw.modSlice_slice h x fun s => { s with retune := none, ncoRx := 0, ncoTx := 0, ncoAt := h.et }

theorem Hw.putWords_regs : RegsKept (retuneRegs x) h (h.putWords x rx tx) := by
  have hmem (f : RF) (hf : f.addr ∈ retuneRegs x) {k : Hw} (hk : RegsKept (retuneRegs x) h k) (v : Nat) :
      RegsKept (retuneRegs x) h (k.set f v) := hk.set f v hf
  refine hmem _ (by simp [retuneRegs, R.RFS_RETUNE_PEND]) ?_ 0
  refine hmem _ (by simp [retuneRegs, R.RFS_NCO_TX_ACT_HI_W_TX_HI]) ?_ _
  refine hmem _ (by simp [retuneRegs, R.RFS_NCO_TX_ACT_LO_W_TX_LO]) ?_ tx
  refine hmem _ (by simp [retuneRegs, R.RFS_NCO_RX_ACT_HI_W_RX_HI]) ?_ _
  refine hmem _ (by simp [retuneRegs, R.RFS_NCO_RX_ACT_LO_W_RX_LO]) ?_ rx
  exact (RegsKept.refl _ h).modSlice x _

/-- A word of 48 bits set in its two halves. -/
theorem Hw.get_halves (k : Hw) {lo hi : RF} {v : Nat} (hv : v < 2 ^ 48) (hlo : fits lo) (hl : lo.len = 32) (hhi : fits hi)
    (hh : hi.len = 16) (hap : apart hi lo) : ((k.set lo v).set hi (v / 2 ^ 32)).get lo +
      2 ^ 32 * ((k.set lo v).set hi (v / 2 ^ 32)).get hi = v := by
  rw [Hw.get_set_self _ hi _ hhi, Hw.get_set_apart _ _ _ _ hap, Hw.get_set_self _ lo _ hlo, hl, hh]
  omega

theorem Hw.putWords_activeRx (hrx : rx < 2 ^ 48) : (h.putWords x rx tx).activeRx x = rx := by
  refine Eq.trans ?_ (Hw.get_halves (h.modSlice x fun s => { s with retune := none, ncoRx := 0, ncoTx := 0, ncoAt := h.et })
    (lo := R.RFS_NCO_RX_ACT_LO_W_RX_LO x) (hi := R.RFS_NCO_RX_ACT_HI_W_RX_HI x) hrx (fits_of_bits rfl) rfl
    (fits_of_bits rfl) rfl (apart_of_offsets rfl rfl rfl))
  simp (disch := with_unfolding_all exact apart_of_offsets rfl rfl rfl) only [Hw.activeRx, Hw.putWords,
    Hw.get_set_apart]

theorem Hw.putWords_activeTx (htx : tx < 2 ^ 48) : (h.putWords x rx tx).activeTx x = tx := by
  refine Eq.trans ?_ (Hw.get_halves
    (((h.modSlice x fun s => { s with retune := none, ncoRx := 0, ncoTx := 0, ncoAt := h.et }).set
      (R.RFS_NCO_RX_ACT_LO_W_RX_LO x) rx).set (R.RFS_NCO_RX_ACT_HI_W_RX_HI x) (rx / 2 ^ 32))
    (lo := R.RFS_NCO_TX_ACT_LO_W_TX_LO x) (hi := R.RFS_NCO_TX_ACT_HI_W_TX_HI x) htx (fits_of_bits rfl) rfl
    (fits_of_bits rfl) rfl (apart_of_offsets rfl rfl rfl))
  simp (disch := with_unfolding_all exact apart_of_offsets rfl rfl rfl) only [Hw.activeTx, Hw.putWords,
    Hw.get_set_apart]

theorem Hw.putWords_pend : (h.putWords x rx tx).get (R.RFS_RETUNE_PEND x) = 0 :=
  Hw.get_set_const _ rfl

end

theorem Hw.noise_fold_get {m n : Nat} (hn : n < m) : ((List.range m).foldl (fun (h : Hw) n =>
    (h.set (R.PHY_NF_NF x n) 0x800).set (R.PHY_NF_BLOCKS x n) 0) h).get (R.PHY_NF_NF x n) = 0x800 := by
  induction m with
  | zero => omega
  | succ m ih =>
    rw [List.range_succ, List.foldl_append, List.foldl_cons, List.foldl_nil]
    by_cases hm : n = m
    · subst hm
      rw [Hw.get_set_apart _ _ _ _ (apart_of_bits rfl), Hw.get_set_const _ rfl]
    · have hne : R.PHY_NF x m ≠ R.PHY_NF x n := by simp only [R.PHY_NF]; omega
      rw [Hw.get_set_apart _ _ _ _ (.inl hne), Hw.get_set_apart _ _ _ _ (.inl hne), ih (by omega)]

theorem Hw.invalidNoise_get {n : Nat} (hn : n < 16) : (h.invalidNoise x).get (R.PHY_NF_NF x n) = 0x800 :=
  h.noise_fold_get x hn

/-! ### A retune applied -/

section
variable (rx tx : Nat)

@[simp] theorem Hw.applyWords_mem : (h.applyWords x rx tx).mem = h.mem := by
  rw [Hw.applyWords_eq, (Hw.retunePair_rest _ x).mem, Hw.modSlice_mem, (Hw.invalidNoise_rest _ x).mem, Hw.start_mem,
    Hw.putWords_mem]

theorem Hw.applyWords_timer : tget (h.applyWords x rx tx).timers (.retune x) = some (h.et + 2000) := by
  rw [Hw.applyWords_eq, (Hw.retunePair_rest _ x).timers, Hw.modSlice_timers, (Hw.invalidNoise_rest _ x).timers, tget_start,
    if_pos rfl, Hw.putWords_et]

theorem Hw.applyWords_slice : (h.applyWords x rx tx).slice x =
    { h.slice x with retune := none, ncoRx := 0, ncoTx := 0, ncoAt := h.et, nfSums := [] } := by
  rw [Hw.applyWords_eq, (Hw.retunePair_rest _ x).slice, Hw.modSlice_slice, (Hw.invalidNoise_rest _ x).slice, Hw.start_slice,
    Hw.putWords_slice]

theorem Hw.applyWords_get {g : RF} (hs : sliceField g) : (h.applyWords x rx tx).get g = (h.putWords x rx tx).get g := by
  rw [Hw.applyWords_eq, Hw.retunePair_get _ _ hs.off_coefRegs hs.off_strRegs, Hw.modSlice_get,
    (Hw.invalidNoise_regs _ x).get (hs.off_noiseRegs x), Hw.start_get]

theorem Hw.applyWords_noise {n : Nat} (hn : n < 16) : (h.applyWords x rx tx).get (R.PHY_NF_NF x n) = 0x800 := by
  rw [Hw.applyWords_eq, Hw.retunePair_get _ _ (noiseField_off_coefRegs x n) (noiseField_off_strRegs x n), Hw.modSlice_get,
    Hw.invalidNoise_get _ x hn]

end

section
variable (x : Fin 3) (rx tx : Nat)

theorem Hw.applyWords_activeRx (hrx : rx < 2 ^ 48) : (h.applyWords x rx tx).activeRx x = rx := by
  rw [Hw.activeRx, Hw.applyWords_get _ _ _ _ (sliceField_of_offset rfl rfl),
    Hw.applyWords_get _ _ _ _ (sliceField_of_offset rfl rfl)]
  exact h.putWords_activeRx x rx tx hrx

theorem Hw.applyWords_activeTx (htx : tx < 2 ^ 48) : (h.applyWords x rx tx).activeTx x = tx := by
  rw [Hw.activeTx, Hw.applyWords_get _ _ _ _ (sliceField_of_offset rfl rfl),
    Hw.applyWords_get _ _ _ _ (sliceField_of_offset rfl rfl)]
  exact h.putWords_activeTx x rx tx htx

theorem Hw.applyWords_pend : (h.applyWords x rx tx).get (R.RFS_RETUNE_PEND x) = 0 := by
  rw [Hw.applyWords_get _ _ _ _ (sliceField_of_offset rfl rfl), Hw.putWords_pend]

end

/-- A retune that waits is applied, or nothing is. -/
theorem Hw.applyRetune_cases : h.applyRetune x = h ∨ ∃ rx tx, h.applyRetune x = h.applyWords x rx tx := by
  unfold Hw.applyRetune
  split
  · exact .inr ⟨_, _, rfl⟩
  · exact .inl rfl

theorem Hw.applyRetune_of_pending {h : Hw} {x rx tx : Nat} (hr : (h.slice x).retune = some (rx, tx)) :
    h.applyRetune x = h.applyWords x rx tx := by simp [Hw.applyRetune, hr]

@[simp] theorem Hw.applyRetune_mem : (h.applyRetune x).mem = h.mem := by
  obtain e | ⟨rx, tx, e⟩ := h.applyRetune_cases x <;> simp [e]

theorem Hw.applyRetune_get {g : RF} (hs : sliceField g) (hr : g.addr ∉ retuneRegs x) : (h.applyRetune x).get g = h.get g := by
  obtain e | ⟨rx, tx, e⟩ := h.applyRetune_cases x
  · rw [e]
  · rw [e, Hw.applyWords_get _ _ _ _ hs, (h.putWords_regs x rx tx).get hr]

theorem Hw.applyRetune_cal : ((h.applyRetune x).slice x).cal = (h.slice x).cal := by
  obtain e | ⟨rx, tx, e⟩ := h.applyRetune_cases x <;> simp [e, Hw.applyWords_slice]

theorem Hw.applyRetune_calWaits : ((h.applyRetune x).slice x).calWaits = (h.slice x).calWaits := by
  obtain e | ⟨rx, tx, e⟩ := h.applyRetune_cases x <;> simp [e, Hw.applyWords_slice]

/-! ### The early end of a transmission (R96) -/

/-- Welt is told how a PPDU of its own ends; a response has no status. -/
def Hw.tellStatus (p : TxPpdu) (st : TxStatus) : Hw :=
  if p.response then h else { h with txStatus := kput h.txStatus x st }

/-- The instants of a PPDU that come before its last sample do not arrive. -/
def Hw.stopLeads : Hw := (((h.stop (.trLead x)).stop (.paLead x)).stop (.mismatch x)).stop (.tbStart x)

/-- A PPDU whose setting has begun ramps to zero and has its lags. -/
def Hw.rampOut (p : TxPpdu) (t1 : Nat) : Hw :=
  ((h.modSlice x fun s => { s with tx := some { p with t1 := t1 } }).startAt (.paLag x) (t1 + p.paLag)).startAt (.trLag x)
    (t1 + p.trLag)

/-- One whose setting has not begun is not sent. -/
def Hw.notSent : Hw := ((h.stop (.paLag x)).stop (.trLag x)).modSlice x fun s => { s with tx := none }

theorem Hw.endTransmission_of_tx {h : Hw} {x : Nat} {p : TxPpdu} (hp : (h.slice x).tx = some p) (ht : h.et < p.t1)
    (st : TxStatus) : h.endTransmission x st = ((h.tellStatus x p st).stopLeads x).notSent x ∨
      ∃ t1, h.endTransmission x st = ((h.tellStatus x p st).stopLeads x).rampOut x p t1 := by
  have heq : h.endTransmission x st =
      let k := (h.tellStatus x p st).stopLeads x
      if (h.tellStatus x p st).inSetting x then k.rampOut x p (if k.et < p.t0 then k.et else min p.t1 (k.et + rampNs x))
      else k.notSent x := by
    unfold Hw.endTransmission
    rw [hp]
    exact if_neg (Nat.not_le.mpr ht)
  rw [heq]
  dsimp only
  split
  · exact .inr ⟨_, rfl⟩
  · exact .inl rfl

/-- Without a PPDU, or once its last sample has left the ball, nothing is left to end. -/
theorem Hw.endTransmission_cases (st : TxStatus) : h.endTransmission x st = h ∨
    ∃ p, (h.slice x).tx = some p ∧ h.et < p.t1 := by
  cases hp : (h.slice x).tx with
  | none => exact .inl (by simp only [Hw.endTransmission, hp])
  | some p =>
    by_cases ht : p.t1 ≤ h.et
    · exact .inl (by simp only [Hw.endTransmission, hp, if_pos ht])
    · exact .inr ⟨p, rfl, Nat.not_le.mp ht⟩

/-- What an operation changes that ends a PPDU of slice `x` and tells Welt: that slice's PPDU, the instants of its
setting and the slice's status, and nothing else of the registers, the memory, the clock or the slice. -/
structure EndsTx (x : Nat) (h h' : Hw) : Prop where
  mem : h'.mem = h.mem
  et : h'.et = h.et
  get : ∀ g, h'.get g = h.get g
  slice : ∃ t, h'.slice x = { h.slice x with tx := t }
  synth : tget h'.timers (.synth x) = tget h.timers (.synth x)

variable {h x} {h' h'' : Hw}

theorem EndsTx.refl : EndsTx x h h := ⟨rfl, rfl, fun _ => rfl, ⟨_, rfl⟩, rfl⟩

theorem EndsTx.trans (h1 : EndsTx x h h') (h2 : EndsTx x h' h'') : EndsTx x h h'' where
  mem := h2.mem.trans h1.mem
  et := h2.et.trans h1.et
  get g := (h2.get g).trans (h1.get g)
  slice := by
    obtain ⟨t, ht⟩ := h1.slice
    obtain ⟨u, hu⟩ := h2.slice
    exact ⟨u, by rw [hu, ht]⟩
  synth := h2.synth.trans h1.synth

variable (h x)

theorem Hw.tellStatus_endsTx (p : TxPpdu) (st : TxStatus) : EndsTx x h (h.tellStatus x p st) := by
  unfold Hw.tellStatus
  split
  · exact .refl
  · exact ⟨rfl, rfl, fun _ => rfl, ⟨_, rfl⟩, rfl⟩

theorem Hw.stop_endsTx {t : TimerId} (ht : TimerId.synth x ≠ t) : EndsTx x h (h.stop t) :=
  ⟨rfl, rfl, fun _ => rfl, ⟨_, rfl⟩, by rw [tget_stop, if_neg ht]⟩

theorem Hw.startAt_endsTx {t : TimerId} (d : Nat) (ht : TimerId.synth x ≠ t) : EndsTx x h (h.startAt t d) :=
  ⟨rfl, rfl, fun _ => rfl, ⟨_, rfl⟩, by rw [tget_startAt, if_neg ht]⟩

theorem Hw.modTx_endsTx (t : Option TxPpdu) : EndsTx x h (h.modSlice x fun s => { s with tx := t }) :=
  ⟨rfl, rfl, fun _ => rfl, ⟨t, h.modSlice_slice x _⟩, rfl⟩

theorem Hw.stopLeads_endsTx : EndsTx x h (h.stopLeads x) :=
  (((h.stop_endsTx x (by simp)).trans (Hw.stop_endsTx _ x (by simp))).trans (Hw.stop_endsTx _ x (by simp))).trans
    (Hw.stop_endsTx _ x (by simp))

theorem Hw.rampOut_endsTx (p : TxPpdu) (t1 : Nat) : EndsTx x h (h.rampOut x p t1) :=
  ((h.modTx_endsTx x (some { p with t1 := t1 })).trans (Hw.startAt_endsTx _ x _ (by simp))).trans
    (Hw.startAt_endsTx _ x _ (by simp))

theorem Hw.notSent_endsTx : EndsTx x h (h.notSent x) :=
  ((h.stop_endsTx x (by simp)).trans (Hw.stop_endsTx _ x (by simp))).trans (Hw.modTx_endsTx _ x none)

theorem Hw.endTransmission_endsTx (st : TxStatus) : EndsTx x h (h.endTransmission x st) := by
  have hbegin (p : TxPpdu) : EndsTx x h ((h.tellStatus x p st).stopLeads x) :=
    (h.tellStatus_endsTx x p st).trans (Hw.stopLeads_endsTx _ x)
  obtain e | ⟨p, hp, ht⟩ := h.endTransmission_cases x st
  · rw [e]
    exact .refl
  · obtain e | ⟨t1, e⟩ := Hw.endTransmission_of_tx hp ht st <;> rw [e]
    · exact (hbegin p).trans (Hw.notSent_endsTx _ x)
    · exact (hbegin p).trans (Hw.rampOut_endsTx _ x p t1)

@[simp] theorem Hw.stopLeads_txStatus : (h.stopLeads x).txStatus = h.txStatus := by simp [Hw.stopLeads]
@[simp] theorem Hw.notSent_txStatus : (h.notSent x).txStatus = h.txStatus := rfl
@[simp] theorem Hw.rampOut_txStatus (p : TxPpdu) (t1 : Nat) : (h.rampOut x p t1).txStatus = h.txStatus := rfl

theorem Hw.endTransmission_txStatus {p : TxPpdu} (hp : (h.slice x).tx = some p) (ht : h.et < p.t1)
    (hr : p.response = false) (st : TxStatus) : kget (h.endTransmission x st).txStatus x = some st := by
  have htold : kget (h.tellStatus x p st).txStatus x = some st := by simp [Hw.tellStatus, hr]
  obtain e | ⟨t1, e⟩ := Hw.endTransmission_of_tx hp ht st <;> simp [e, htold]

end Sys2Proof.Machine
end

section
/-!
SUPPORT. The retunes and the synthesiser of a slice, command by command (R92 to R96, R105).
-/
namespace Sys2Proof.Machine
variable {s : State} {x : Fin 3}

/-! ### RETUNE_GO, RETUNE_APPLY and RETUNE_SETTLE_END (R92, R93) -/

theorem gives_retuneGo_invalid (hup : s.hw.mainUp = true) (hv : ncoValid x (s.hw.stagedRx x) (s.hw.stagedTx x) = false) :
    Gives (.retuneGo x) s fun h =>
      h.get (R.RFS_RETUNE_RANGE_ERR x) = 1 ∧ h.get (R.RFS_RETUNE_PEND x) = 0 ∧ (h.slice x).retune = none ∧
        RegsKept [R.RFS_RETUNE x] s.hw h ∧ MemKept s.hw h := by
  have heq : s.hw.retuneGo x = ((s.hw.set (R.RFS_RETUNE_RANGE_ERR x) 1).set (R.RFS_RETUNE_PEND x) 0).modSlice x
      fun s => { s with retune := none } := by simp [Hw.retuneGo, hv]
  refine gives_of_effect_eq (e := execRetuneGo x s) rfl rfl hup heq ⟨?_, ?_, ?_, ?_, (MemKept.of_mem rfl).canon⟩
  · rw [Hw.canon_get, Hw.modSlice_get, Hw.get_set_apart _ _ _ _ (apart_of_bits rfl), Hw.get_set_const _ rfl]
  · rw [Hw.canon_get, Hw.modSlice_get, Hw.get_set_const _ rfl]
  · rw [Hw.canon_slice, Hw.modSlice_slice]
  · exact ((((RegsKept.refl _ s.hw).set (R.RFS_RETUNE_RANGE_ERR x) 1 (.head _)).set (R.RFS_RETUNE_PEND x) 0
      (.head _)).modSlice x _).canon

/-- The hardware with the staged words of slice `x` pending. -/
def Hw.pend (h : Hw) (x : Nat) : Hw :=
  (h.set (R.RFS_RETUNE_PEND x) 1).modSlice x fun s => { s with retune := some (h.stagedRx x, h.stagedTx x) }

@[simp] theorem Hw.pend_slice (h : Hw) (x : Nat) :
    (h.pend x).slice x = { h.slice x with retune := some (h.stagedRx x, h.stagedTx x) } := Hw.modSlice_slice _ _ _

theorem Hw.retuneGo_valid {h : Hw} (hv : ncoValid x (h.stagedRx x) (h.stagedTx x) = true) : h.retuneGo x =
    if h.synth x = synReady ∨ (h.slice x).cal.isSome = true then h.pend x else (h.pend x).applyRetune x := by
  have hsynth : (h.pend x).synth x = h.synth x := Hw.get_set_apart h _ _ 1 (apart_of_offsets rfl rfl rfl)
  have hcal : ((h.pend x).slice x).cal = (h.slice x).cal := by rw [Hw.pend_slice]
  rw [← hsynth, ← hcal]
  unfold Hw.retuneGo
  exact if_pos hv

theorem gives_retuneGo_waits (hup : s.hw.mainUp = true) (hv : ncoValid x (s.hw.stagedRx x) (s.hw.stagedTx x) = true)
    (hw : s.hw.synth x = synReady ∨ (s.hw.slice x).cal.isSome = true) : Gives (.retuneGo x) s fun h =>
      h.get (R.RFS_RETUNE_PEND x) = 1 ∧ (h.slice x).retune = some (s.hw.stagedRx x, s.hw.stagedTx x) ∧
        RegsKept [R.RFS_RETUNE x] s.hw h ∧ MemKept s.hw h := by
  refine gives_of_effect_eq (e := execRetuneGo x s) rfl rfl hup ((Hw.retuneGo_valid hv).trans (if_pos hw))
    ⟨?_, ?_, ?_, (MemKept.of_mem rfl).canon⟩
  · rw [Hw.canon_get, Hw.pend, Hw.modSlice_get, Hw.get_set_const _ rfl]
  · rw [Hw.canon_slice, Hw.pend_slice]
  · exact (((RegsKept.refl _ s.hw).set (R.RFS_RETUNE_PEND x) 1 (.head _)).modSlice x _).canon

/-- Staged words fit the active ones. -/
theorem Hw.staged_lt (h : Hw) (x : Nat) : h.stagedRx x < 2 ^ 48 ∧ h.stagedTx x < 2 ^ 48 := by
  have hrl : h.get (R.RFS_NCO_RX_LO_W_RX_LO x) < 2 ^ 32 := h.get_lt _
  have hrh : h.get (R.RFS_NCO_RX_HI_W_RX_HI x) < 2 ^ 16 := h.get_lt _
  have htl : h.get (R.RFS_NCO_TX_LO_W_TX_LO x) < 2 ^ 32 := h.get_lt _
  have hth : h.get (R.RFS_NCO_TX_HI_W_TX_HI x) < 2 ^ 16 := h.get_lt _
  simp only [Hw.stagedRx, Hw.stagedTx]
  omega

theorem gives_retuneGo_applies (hup : s.hw.mainUp = true) (hv : ncoValid x (s.hw.stagedRx x) (s.hw.stagedTx x) = true)
    (hs : s.hw.synth x ≠ synReady) (hc : (s.hw.slice x).cal = none) : Gives (.retuneGo x) s fun h =>
      h.get (R.RFS_RETUNE_PEND x) = 0 ∧ h.activeRx x = s.hw.stagedRx x ∧
        tget h.timers (.retune x) = some (s.hw.et + 2000) ∧ MemKept s.hw h := by
  have hnot : ¬ (s.hw.synth x = synReady ∨ (s.hw.slice x).cal.isSome = true) := by simp [hs, hc]
  have heq : s.hw.retuneGo x = (s.hw.pend x).applyWords x (s.hw.stagedRx x) (s.hw.stagedTx x) := by
    rw [Hw.retuneGo_valid hv, if_neg hnot, Hw.applyRetune_of_pending (by rw [Hw.pend_slice])]
  refine gives_of_effect_eq (e := execRetuneGo x s) rfl rfl hup heq ⟨?_, ?_, ?_, MemKept.canon (.of_mem ?_)⟩
  · exact Hw.applyWords_pend _ x _ _
  · exact Hw.applyWords_activeRx _ x _ _ (s.hw.staged_lt x).1
  · exact Hw.applyWords_timer _ x _ _
  · rw [Hw.applyWords_mem]
    rfl

theorem gives_retuneApply (hup : s.hw.mainUp = true) {rx tx : Nat} (hr : (s.hw.slice x).retune = some (rx, tx))
    (hrx : rx < 2 ^ 48) (htx : tx < 2 ^ 48) (hrec : s.hw.receiving x = false) (ht : s.hw.transmitting x = false)
    (hc : (s.hw.slice x).cal = none) : Gives (.retuneApply x) s fun h =>
      h.activeRx x = rx ∧ h.activeTx x = tx ∧ h.get (R.RFS_RETUNE_PEND x) = 0 ∧
        (h.slice x).retune = none ∧ (h.slice x).ncoRx = 0 ∧ (h.slice x).ncoTx = 0 ∧
        tget h.timers (.retune x) = some (s.hw.et + 2000) ∧ (∀ n < 16, h.get (R.PHY_NF_NF x n) = 0x800) ∧
        MemKept s.hw h := by
  have hnot : ¬ (s.hw.receiving x || s.hw.transmitting x || (s.hw.slice x).cal.isSome) = true := by simp [hrec, ht, hc]
  refine gives_of_effect_eq (e := execRetuneApply x s) (h := s.hw.applyWords x rx tx) rfl rfl hup ?_
    ⟨?_, ?_, ?_, ?_, ?_, ?_, ?_, ?_, MemKept.canon (.of_mem ?_)⟩
  · exact (if_neg hnot).trans (Hw.applyRetune_of_pending hr)
  · exact Hw.applyWords_activeRx _ x rx tx hrx
  · exact Hw.applyWords_activeTx _ x rx tx htx
  · exact Hw.applyWords_pend _ x rx tx
  · rw [Hw.canon_slice, Hw.applyWords_slice]
  · rw [Hw.canon_slice, Hw.applyWords_slice]
  · rw [Hw.canon_slice, Hw.applyWords_slice]
  · exact Hw.applyWords_timer _ x rx tx
  · exact fun n hn => Hw.applyWords_noise _ x rx tx hn
  · exact Hw.applyWords_mem _ x rx tx

/-- The lines go to rest unless a PPDU is in transmission. -/
def Hw.linesUnlessTx (h : Hw) (x : Nat) : Hw := if h.transmitting x then h else h.linesAtRest x

section
variable (h : Hw) (x : Nat)

/-- What is not a control line, TXACT or its port stands. -/
theorem Hw.linesUnlessTx_cases : h.linesUnlessTx x = h ∨ ∃ fem trsw lnaen, h.linesUnlessTx x = h.setLines x fem trsw lnaen := by
  unfold Hw.linesUnlessTx
  split
  · exact .inl rfl
  · exact .inr ⟨_, _, _, h.linesAtRest_eq x⟩

@[simp] theorem Hw.linesUnlessTx_mem : (h.linesUnlessTx x).mem = h.mem := by
  obtain e | ⟨fem, trsw, lnaen, e⟩ := h.linesUnlessTx_cases x <;> simp [e]
@[simp] theorem Hw.linesUnlessTx_timers : (h.linesUnlessTx x).timers = h.timers := by
  obtain e | ⟨fem, trsw, lnaen, e⟩ := h.linesUnlessTx_cases x <;> simp [e]
@[simp] theorem Hw.linesUnlessTx_txStatus : (h.linesUnlessTx x).txStatus = h.txStatus := by
  obtain e | ⟨fem, trsw, lnaen, e⟩ := h.linesUnlessTx_cases x <;> simp [e]
theorem Hw.linesUnlessTx_rx : ((h.linesUnlessTx x).slice x).rx = (h.slice x).rx := by
  obtain e | ⟨fem, trsw, lnaen, e⟩ := h.linesUnlessTx_cases x <;> simp [e]
theorem Hw.linesUnlessTx_ncoRx : ((h.linesUnlessTx x).slice x).ncoRx = (h.slice x).ncoRx := by
  obtain e | ⟨fem, trsw, lnaen, e⟩ := h.linesUnlessTx_cases x <;> simp [e]
theorem Hw.linesUnlessTx_regs : RegsKept cxStatRegs h (h.linesUnlessTx x) := by
  obtain e | ⟨fem, trsw, lnaen, e⟩ := h.linesUnlessTx_cases x <;> rw [e]
  · exact RegsKept.refl _ h
  · exact h.setLines_regs x fem trsw lnaen

end

theorem Hw.funcState_slice (h : Hw) (x : Fin 3) : h.funcState (.slice x) = h.get (R.RFS_FSTAT_STATE x) := by
  have haddr : fstatState (.slice x) = R.RFS_FSTAT_STATE x := by
    simp only [fstatState, fctl, R.RFS_FCTL, R.RFS_FSTAT_STATE, R.RFS_FSTAT, RF.mk.injEq, and_true]
    omega
  rw [Hw.funcState, haddr]

theorem gives_retuneSettleEnd (hup : s.hw.mainUp = true) {d : Nat} (ht : tget s.hw.timers (.retune x) = some d) :
    Gives (.retuneSettleEnd x) s fun h =>
      tget h.timers (.retune x) = none ∧ RegsKept cxStatRegs s.hw h ∧ MemKept s.hw h ∧
        (s.hw.funcState (.slice x) = stOpen → s.hw.synth x = synReady → s.hw.transmitting x = false →
          (h.slice x).femEn = true ∧ (h.slice x).trsw = 0 ∧ (h.slice x).lnaen = (if x = 2 then 255 else 15) ∧
          (h.slice x).paen = 0) := by
  refine gives_of_effect_eq (e := execRetuneSettleEnd x s) (h := (s.hw.arrive d (.retune x)).linesUnlessTx x) rfl rfl hup ?_
    ⟨?_, ?_, MemKept.canon (.of_mem ?_), fun hst hs htx => ?_⟩
  · exact Hw.onTimer_arrive ht _
  · rw [Hw.canon_timers, Hw.linesUnlessTx_timers, Hw.arrive_timer]
  · exact ((s.hw.arrive_regs d _ _).trans (Hw.linesUnlessTx_regs _ x)).canon
  · rw [Hw.linesUnlessTx_mem, Hw.arrive_mem]
  · have hstill : ¬ (s.hw.arrive d (.retune x)).transmitting x = true := by simpa [Hw.transmitting] using htx
    have hrest : (s.hw.arrive d (.retune x)).restLines x = (true, 0, chainMask x) :=
      Hw.restLines_open ((Hw.arrive_get s.hw d _ _).trans (s.hw.funcState_slice x ▸ hst))
        ((Hw.arrive_get s.hw d _ _).trans hs)
    have hmask : chainMask x = if x = 2 then 255 else 15 := by fin_cases x <;> rfl
    rw [Hw.canon_slice, Hw.linesUnlessTx, if_neg hstill, Hw.linesAtRest_eq, hrest, Hw.setLines_slice]
    exact ⟨rfl, rfl, hmask, rfl⟩

/-! ### SYNTH_START_END, SYNTH_LOCK and SYNTH_ACQ_TIMEOUT (R94, R95) -/

theorem gives_synthStartEnd (hup : s.hw.mainUp = true) {d : Nat} (hs : s.hw.synth x = synStart)
    (ht : tget s.hw.timers (.synth x) = some d) : Gives (.synthStartEnd x) s fun h =>
      h.synth x = synAcquire ∧ tget h.timers (.synth x) = some (h.et + 400000) ∧
        RegsKept [R.RFS_SYNTH x] s.hw h ∧ MemKept s.hw h := by
  refine gives_of_effect_eq (e := execSynthStartEnd x s)
    (h := ((s.hw.arrive d (.synth x)).synthTo x synAcquire).start (.synth x) 400000) rfl rfl hup ?_ ⟨?_, ?_, ?_, MemKept.canon (.of_mem ?_)⟩
  · exact (if_pos hs).trans (Hw.onTimer_arrive ht _)
  · rw [Hw.synth, Hw.canon_get, Hw.start_get, Hw.synthTo_state _ x (by decide)]
  · rw [Hw.canon_timers, Hw.canon_et, tget_start, if_pos rfl, Hw.start_et]
  · exact (((s.hw.arrive_regs d _ _).trans (Hw.synthTo_regs _ x _)).start _ _).canon
  · rw [Hw.start_mem, Hw.synthTo_mem, Hw.arrive_mem]

theorem gives_synthLock (hup : s.hw.mainUp = true) (hs : s.hw.synth x = synAcquire) : Gives (.synthLock x) s fun h =>
    h.synth x = synSettle ∧ h.get (R.RFS_SYNTH_LOCKED x) = 1 ∧ tget h.timers (.synth x) = some (s.hw.et + 40000) ∧
      RegsKept [R.RFS_SYNTH x] s.hw h ∧ MemKept s.hw h := by
  refine gives_of_effect_eq (e := execSynthLock x s)
    (h := ((s.hw.synthTo x synSettle).set (R.RFS_SYNTH_LOCKED x) 1).start (.synth x) 40000) rfl rfl hup ?_ ⟨?_, ?_, ?_, ?_, MemKept.canon (.of_mem ?_)⟩
  · exact if_pos hs
  · rw [Hw.synth, Hw.canon_get, Hw.start_get, Hw.get_set_apart _ _ _ _ (apart_of_bits rfl), Hw.synthTo_state _ x (by decide)]
  · rw [Hw.canon_get, Hw.start_get, Hw.get_set_const _ rfl]
  · rw [Hw.canon_timers, tget_start, if_pos rfl, Hw.set_et, Hw.synthTo_et]
  · exact (((s.hw.synthTo_regs x _).set _ 1 (.head _)).start _ _).canon
  · rw [Hw.start_mem, Hw.set_mem, Hw.synthTo_mem]

/-- The second ACQUIRE of a START without lock: the synthesiser is in FAULT. -/
def Hw.acqFault (h : Hw) (x : Nat) : Hw := (h.synthTo x synFault).set (R.RFS_SYNTH_FAULT_EV x) 1

/-- A calibration in progress ends without a result, and a full one is owed. -/
def Hw.loseCalibration (h : Hw) (x : Nat) : Hw :=
  match (h.slice x).cal with
  | some _ => (h.modSlice x fun s => { s with cal := none, needFull := true }).calState x
  | none => h

theorem Hw.loseCalibration_mem (h : Hw) (x : Nat) : (h.loseCalibration x).mem = h.mem := by
  unfold Hw.loseCalibration
  split <;> rfl

theorem Hw.loseCalibration_cal (h : Hw) (x : Nat) : ((h.loseCalibration x).slice x).cal = none := by
  unfold Hw.loseCalibration
  split
  · rw [Hw.calState_slice, Hw.modSlice_slice]
  · assumption

theorem Hw.loseCalibration_regs (h : Hw) (x : Nat) : RegsKept [R.RFS_CAL_STAT x] h (h.loseCalibration x) := by
  unfold Hw.loseCalibration
  split
  · exact ((RegsKept.refl _ h).modSlice x _).trans (Hw.calState_regs _ x)
  · exact RegsKept.refl _ h

theorem Hw.acqFault_regs (h : Hw) (x : Nat) : RegsKept [R.RFS_SYNTH x] h (h.acqFault x) :=
  (h.synthTo_regs x synFault).set (R.RFS_SYNTH_FAULT_EV x) 1 (.head _)

/-- The 400 µs of ACQUIRE have passed: counted. -/
def Hw.acqFailure (h : Hw) (x d : Nat) : Hw := (h.arrive d (.synth x)).bump (R.RFS_SYNTH_ACQ_FAIL_CNT x)

theorem Hw.acqFailure_count (h : Hw) (x d : Nat) :
    (h.acqFailure x d).get (R.RFS_SYNTH_ACQ_FAIL_CNT x) = min (h.get (R.RFS_SYNTH_ACQ_FAIL_CNT x) + 1) 255 := by
  rw [Hw.acqFailure, Hw.get_bump_self _ _ _ (fits_of_bits rfl), Hw.arrive_get]
  rfl

@[simp] theorem Hw.acqFailure_slice (h : Hw) (x d y : Nat) : (h.acqFailure x d).slice y = h.slice y :=
  (Hw.bump_slice _ _ _ _).trans (h.arrive_slice d _ y)

theorem Hw.acqFailure_mem (h : Hw) (x d : Nat) : (h.acqFailure x d).mem = h.mem :=
  (Hw.set_mem _ _ _).trans (h.arrive_mem d _)

theorem Hw.acqFailure_regs (h : Hw) (x d : Nat) : RegsKept [R.RFS_SYNTH x] h (h.acqFailure x d) :=
  (h.arrive_regs d _ _).bump (R.RFS_SYNTH_ACQ_FAIL_CNT x) 1 (.head _)

theorem gives_synthAcqTimeout_second (hup : s.hw.mainUp = true) {d : Nat} (hs : s.hw.synth x = synAcquire)
    (ht : tget s.hw.timers (.synth x) = some d) (hf : (s.hw.slice x).acqFailed = true) : Gives (.synthAcqTimeout x) s fun h =>
      h.get (R.RFS_SYNTH_ACQ_FAIL_CNT x) = min (s.hw.get (R.RFS_SYNTH_ACQ_FAIL_CNT x) + 1) 255 ∧
        (h.synth x = synFault ∧ h.get (R.RFS_SYNTH_FAULT_EV x) = 1 ∧ (h.slice x).cal = none) ∧
        RegsKept [R.RFS_SYNTH x, R.RFS_CAL_STAT x] s.hw h ∧ MemKept s.hw h := by
  have hf' : ((s.hw.acqFailure x d).slice x).acqFailed = true := by rw [Hw.acqFailure_slice]; exact hf
  have hlost {g : RF} (hg : g.addr ∉ [R.RFS_CAL_STAT x]) :=
    (Hw.loseCalibration_regs ((s.hw.acqFailure x d).acqFault x) x).get hg
  refine gives_of_effect_eq (e := execSynthAcqTimeout x s) (h := ((s.hw.acqFailure x d).acqFault x).loseCalibration x)
    rfl rfl hup ?_ ⟨?_, ⟨?_, ?_, ?_⟩, ?_, MemKept.canon (.of_mem ?_)⟩
  · exact (if_pos hs).trans ((Hw.onTimer_arrive ht _).trans (if_pos hf'))
  · rw [Hw.canon_get, hlost (by simp [R.RFS_SYNTH_ACQ_FAIL_CNT, R.RFS_SYNTH, R.RFS_CAL_STAT]), Hw.acqFault,
      Hw.get_set_apart _ _ _ _ (apart_of_bits rfl), Hw.synthTo_get_apart _ x _ (apart_of_bits rfl), Hw.acqFailure_count]
  · rw [Hw.synth, Hw.canon_get, hlost (by simp [R.RFS_SYNTH_STATE, R.RFS_SYNTH, R.RFS_CAL_STAT]), Hw.acqFault,
      Hw.get_set_apart _ _ _ _ (apart_of_bits rfl), Hw.synthTo_state _ x (by decide)]
  · rw [Hw.canon_get, hlost (by simp [R.RFS_SYNTH_FAULT_EV, R.RFS_SYNTH, R.RFS_CAL_STAT]), Hw.acqFault,
      Hw.get_set_const _ rfl]
  · rw [Hw.canon_slice, Hw.loseCalibration_cal]
  · have hfault := (s.hw.acqFailure_regs x d).trans (Hw.acqFault_regs _ x)
    exact ((hfault.mono (by simp)).trans ((Hw.loseCalibration_regs _ x).mono (by simp))).canon
  · rw [Hw.loseCalibration_mem, Hw.acqFault, Hw.set_mem, Hw.synthTo_mem, Hw.acqFailure_mem]

theorem gives_synthAcqTimeout_first (hup : s.hw.mainUp = true) {d : Nat} (hs : s.hw.synth x = synAcquire)
    (ht : tget s.hw.timers (.synth x) = some d) (hf : (s.hw.slice x).acqFailed = false) : Gives (.synthAcqTimeout x) s fun h =>
      h.get (R.RFS_SYNTH_ACQ_FAIL_CNT x) = min (s.hw.get (R.RFS_SYNTH_ACQ_FAIL_CNT x) + 1) 255 ∧
        (h.synth x = synStart ∧ (h.slice x).acqFailed = true ∧ tget h.timers (.synth x) = some (h.et + 60000)) ∧
        RegsKept [R.RFS_SYNTH x, R.RFS_CAL_STAT x] s.hw h ∧ MemKept s.hw h := by
  have hf' : ¬ ((s.hw.acqFailure x d).slice x).acqFailed = true := by rw [Hw.acqFailure_slice]; simp [hf]
  refine gives_of_effect_eq (e := execSynthAcqTimeout x s) (h := (((s.hw.acqFailure x d).synthTo x synStart).modSlice x
    fun s => { s with acqFailed := true }).start (.synth x) 60000) rfl rfl hup ?_ ⟨?_, ⟨?_, ?_, ?_⟩, ?_, MemKept.canon (.of_mem ?_)⟩
  · exact (if_pos hs).trans ((Hw.onTimer_arrive ht _).trans (if_neg hf'))
  · rw [Hw.canon_get, Hw.start_get, Hw.modSlice_get, Hw.synthTo_get_apart _ x _ (apart_of_bits rfl), Hw.acqFailure_count]
  · rw [Hw.synth, Hw.canon_get, Hw.start_get, Hw.modSlice_get, Hw.synthTo_state _ x (by decide)]
  · rw [Hw.canon_slice, Hw.start_slice, Hw.modSlice_slice]
  · rw [Hw.canon_timers, Hw.canon_et, tget_start, if_pos rfl, Hw.start_et]
  · exact ((((s.hw.acqFailure_regs x d).trans (Hw.synthTo_regs _ x _)).modSlice x _).start _ _ |>.mono (by simp)).canon
  · rw [Hw.start_mem, Hw.modSlice_mem, Hw.synthTo_mem, Hw.acqFailure_mem]

theorem gives_synthAcqTimeout (hup : s.hw.mainUp = true) {d : Nat} (hs : s.hw.synth x = synAcquire)
    (ht : tget s.hw.timers (.synth x) = some d) : Gives (.synthAcqTimeout x) s fun h =>
      h.get (R.RFS_SYNTH_ACQ_FAIL_CNT x) = min (s.hw.get (R.RFS_SYNTH_ACQ_FAIL_CNT x) + 1) 255 ∧
        ((s.hw.slice x).acqFailed = true → h.synth x = synFault ∧ h.get (R.RFS_SYNTH_FAULT_EV x) = 1 ∧
          (h.slice x).cal = none) ∧
        ((s.hw.slice x).acqFailed = false → h.synth x = synStart ∧ (h.slice x).acqFailed = true ∧
          tget h.timers (.synth x) = some (h.et + 60000)) ∧
        RegsKept [R.RFS_SYNTH x, R.RFS_CAL_STAT x] s.hw h ∧ MemKept s.hw h := by
  cases hf : (s.hw.slice x).acqFailed with
  | true =>
    obtain ⟨s', hexec, hcount, hfault, hregs, hmem⟩ := gives_synthAcqTimeout_second hup hs ht hf
    exact ⟨s', hexec, hcount, fun _ => hfault, nofun, hregs, hmem⟩
  | false =>
    obtain ⟨s', hexec, hcount, hagain, hregs, hmem⟩ := gives_synthAcqTimeout_first hup hs ht hf
    exact ⟨s', hexec, hcount, nofun, fun _ => hagain, hregs, hmem⟩

/-! ### SYNTH_SETTLE_END (R93, R95, R99, R100) -/

theorem gives_synthSettleEnd_goesOn (hup : s.hw.mainUp = true) {d : Nat} {k : Calibration} (hs : s.hw.synth x = synSettle)
    (ht : tget s.hw.timers (.synth x) = some d) (hk : (s.hw.slice x).cal = some k) : Gives (.synthSettleEnd x) s fun h =>
      h.synth x = synCal ∧ (h.slice x).cal = some { k with starting := false } ∧ RegsKept [R.RFS_SYNTH x] s.hw h ∧
        MemKept s.hw h := by
  have hk' : ((s.hw.arrive d (.synth x)).slice x).cal = some k := by rw [Hw.arrive_slice]; exact hk
  refine gives_of_effect_eq (e := execSynthSettleEnd x s) (h := ((s.hw.arrive d (.synth x)).synthTo x synCal).modSlice x
    fun s => { s with cal := some { k with starting := false } }) rfl rfl hup ?_ ⟨?_, ?_, ?_, MemKept.canon (.of_mem ?_)⟩
  · refine (if_pos hs).trans ((Hw.onTimer_arrive ht _).trans ?_)
    simp only [hk']
  · rw [Hw.synth, Hw.canon_get, Hw.modSlice_get, Hw.synthTo_state _ x (by decide)]
  · rw [Hw.canon_slice, Hw.modSlice_slice]
  · exact (((s.hw.arrive_regs d _ _).trans (Hw.synthTo_regs _ x _)).modSlice x _).canon
  · rw [Hw.modSlice_mem, Hw.synthTo_mem, Hw.arrive_mem]

theorem gives_synthSettleEnd_calibrates (hup : s.hw.mainUp = true) {d : Nat} (hs : s.hw.synth x = synSettle)
    (ht : tget s.hw.timers (.synth x) = some d) (hc : (s.hw.slice x).cal = none)
    (ho : (s.hw.slice x).needFull = true ∨ s.hw.get (R.RFS_CAL_STAT_VALID x) = 0) : Gives (.synthSettleEnd x) s fun h =>
      h.synth x = synCal ∧ (h.slice x).cal = some ⟨true, false, s.hw.getI (R.RFS_TEMP_T x), false⟩ ∧
        h.get (R.RFS_CAL_STAT_STATE x) = 2 ∧ (s.hw.receiving x = true → (h.slice x).rx.phase = .idle) ∧ MemKept s.hw h := by
  let a := s.hw.arrive d (.synth x)
  have hc' : (a.slice x).cal = none := by rw [Hw.arrive_slice]; exact hc
  have ho' : ((a.slice x).needFull || !a.flag (R.RFS_CAL_STAT_VALID x)) = true := by
    simpa [a, Hw.flag] using ho
  refine gives_of_effect_eq (e := execSynthSettleEnd x s) (h := a.beginCalibration x true false false) rfl rfl hup ?_
    ⟨?_, ?_, ?_, fun _ => ?_, MemKept.canon (.of_mem ?_)⟩
  · refine (if_pos hs).trans ((Hw.onTimer_arrive ht _).trans ?_)
    simp only [hc', a]
    exact if_pos ho'
  · rw [Hw.synth, Hw.canon_get, Hw.beginCalibration_state, if_neg (by decide)]
  · rw [Hw.canon_slice, Hw.beginCalibration_cal, Hw.arrive_getI]
  · rw [Hw.canon_get, Hw.beginCalibration_calStat]
  · rw [Hw.canon_slice, Hw.beginCalibration_rx]
  · rw [Hw.beginCalibration_mem, Hw.arrive_mem]

/-- The first Opening after a wake asks for a drift calibration where the temperature has moved by THRESH. -/
def Hw.askAfterWake (h : Hw) (x : Nat) : Hw :=
  if (h.slice x).woken && decide (4 * h.get (R.RFS_CAL_CTL_THRESH x) ≤ h.calDistance x) then
    h.modSlice x fun s => { s with calWaits := some (false, false) }
  else h

section
variable (h : Hw) (x : Nat)

theorem Hw.askAfterWake_mem : (h.askAfterWake x).mem = h.mem := by
  unfold Hw.askAfterWake
  split <;> rfl

theorem Hw.askAfterWake_get (g : RF) : (h.askAfterWake x).get g = h.get g := by
  unfold Hw.askAfterWake
  split <;> rfl

theorem Hw.askAfterWake_regs (as : List Nat) : RegsKept as h (h.askAfterWake x) := by
  unfold Hw.askAfterWake
  split
  · exact (RegsKept.refl as h).modSlice x _
  · exact RegsKept.refl as h

theorem Hw.askAfterWake_calWaits : ((h.askAfterWake x).slice x).calWaits =
    if (h.slice x).woken = true ∧ 4 * h.get (R.RFS_CAL_CTL_THRESH x) ≤ h.calDistance x then some (false, false)
    else (h.slice x).calWaits := by
  simp only [Hw.askAfterWake, Bool.and_eq_true, decide_eq_true_eq]
  split
  · rw [Hw.modSlice_slice]
  · rfl

end

theorem gives_synthSettleEnd_ready (hup : s.hw.mainUp = true) {d : Nat} (hs : s.hw.synth x = synSettle)
    (ht : tget s.hw.timers (.synth x) = some d) (hc : (s.hw.slice x).cal = none)
    (hn : (s.hw.slice x).needFull = false) (hv : s.hw.get (R.RFS_CAL_STAT_VALID x) = 1) : Gives (.synthSettleEnd x) s fun h =>
      h.synth x = synReady ∧ (h.slice x).calWaits =
          (if (s.hw.slice x).woken = true ∧ 4 * s.hw.get (R.RFS_CAL_CTL_THRESH x) ≤
              (s.hw.getI (R.RFS_TEMP_T x) - s.hw.getI (R.RFS_CAL_STAT_T_CAL x)).natAbs
            then some (false, false) else (s.hw.slice x).calWaits) ∧
        RegsKept (R.RFS_SYNTH x :: R.RFS_CAL_STAT x :: cxStatRegs) s.hw h ∧ MemKept s.hw h := by
  have hc' : ((s.hw.arrive d (.synth x)).slice x).cal = none := by rw [Hw.arrive_slice]; exact hc
  have hn' : ¬ (((s.hw.arrive d (.synth x)).slice x).needFull ||
      !(s.hw.arrive d (.synth x)).flag (R.RFS_CAL_STAT_VALID x)) = true := by
    simp [Hw.flag, hn, hv]
  let k := (s.hw.arrive d (.synth x)).synthTo x synReady
  have hk {g : RF} (hg : apart (R.RFS_SYNTH_STATE x) g) : k.get g = s.hw.get g :=
    (Hw.synthTo_get_apart _ x _ hg).trans (Hw.arrive_get _ _ _ _)
  refine gives_of_effect_eq (e := execSynthSettleEnd x s) (h := (((k.askAfterWake x).calState x).linesAtRest x).idleBegins x)
    rfl rfl hup ?_ ⟨?_, ?_, ?_, MemKept.canon (.of_mem ?_)⟩
  · refine (if_pos hs).trans ((Hw.onTimer_arrive ht _).trans ?_)
    simp only [hc']
    exact if_neg hn'
  · rw [Hw.synth, Hw.canon_get, Hw.idleBegins, Hw.modSlice_get, Hw.linesAtRest_eq,
      Hw.setLines_get _ _ _ _ _ (sliceField_of_offset rfl rfl), Hw.calState_get_apart _ _ (apart_of_offsets rfl rfl rfl),
      Hw.askAfterWake_get, Hw.synthTo_state _ x (by decide)]
  · have hdist : k.calDistance x = (s.hw.getI (R.RFS_TEMP_T x) - s.hw.getI (R.RFS_CAL_STAT_T_CAL x)).natAbs := by
      rw [Hw.calDistance, Hw.getI, Hw.getI, hk (apart_of_offsets rfl rfl rfl), hk (apart_of_offsets rfl rfl rfl)]
      rfl
    rw [Hw.canon_slice, Hw.idleBegins, Hw.modSlice_slice, Hw.linesAtRest_eq, Hw.setLines_slice, Hw.calState_slice,
      Hw.askAfterWake_calWaits, hk (apart_of_offsets rfl rfl rfl), hdist, Hw.synthTo_slice, Hw.arrive_slice]
  · have hsynth : RegsKept [R.RFS_SYNTH x] s.hw (k.askAfterWake x) :=
      ((s.hw.arrive_regs d _ _).trans (Hw.synthTo_regs _ x _)).trans (Hw.askAfterWake_regs _ x _)
    have hcal := (hsynth.mono (bs := [R.RFS_SYNTH x, R.RFS_CAL_STAT x]) (by simp)).trans ((Hw.calState_regs _ x).mono (by simp))
    rw [Hw.linesAtRest_eq]
    exact (((hcal.mono (by simp)).trans ((Hw.setLines_regs _ x _ _ _).mono fun a ha => by simp [ha])).modSlice x _).canon
  · rw [Hw.idleBegins, Hw.modSlice_mem, Hw.linesAtRest_eq, Hw.setLines_mem, Hw.calState_mem, Hw.askAfterWake_mem,
      Hw.synthTo_mem, Hw.arrive_mem]

/-! ### SYNTH_LOCK_LOST (R95, R96) -/

/-- The lock is lost: counted, and the synthesiser acquires again. -/
def Hw.loseLock (h : Hw) (x : Nat) : Hw :=
  (((h.bump (R.RFS_SYNTH_LOCK_LOST_CNT x)).set (R.RFS_SYNTH_LOCKED x) 0).synthTo x synAcquire).start (.synth x) 400000

section
variable (h : Hw) (x : Nat)

theorem Hw.loseLock_mem : (h.loseLock x).mem = h.mem := by
  rw [Hw.loseLock, Hw.start_mem, Hw.synthTo_mem, Hw.set_mem, Hw.bump, Hw.set_mem]

theorem Hw.loseLock_et : (h.loseLock x).et = h.et := by
  rw [Hw.loseLock, Hw.start_et, Hw.synthTo_et, Hw.set_et, Hw.bump, Hw.set_et]

theorem Hw.loseLock_state : (h.loseLock x).get (R.RFS_SYNTH_STATE x) = synAcquire := by
  rw [Hw.loseLock, Hw.start_get, Hw.synthTo_state _ x (by decide)]

theorem Hw.loseLock_locked : (h.loseLock x).get (R.RFS_SYNTH_LOCKED x) = 0 := by
  rw [Hw.loseLock, Hw.start_get, Hw.synthTo_get_apart _ x _ (apart_of_bits rfl), Hw.get_set_const _ rfl]

theorem Hw.loseLock_count :
    (h.loseLock x).get (R.RFS_SYNTH_LOCK_LOST_CNT x) = min (h.get (R.RFS_SYNTH_LOCK_LOST_CNT x) + 1) 255 := by
  rw [Hw.loseLock, Hw.start_get, Hw.synthTo_get_apart _ x _ (apart_of_bits rfl), Hw.get_set_apart _ _ _ _ (apart_of_bits rfl),
    Hw.get_bump_self _ _ _ (fits_of_bits rfl)]
  rfl

theorem Hw.loseLock_timer : tget (h.loseLock x).timers (.synth x) = some (h.et + 400000) := by
  rw [Hw.loseLock, tget_start, if_pos rfl, Hw.synthTo_et, Hw.set_et, Hw.bump, Hw.set_et]

theorem Hw.loseLock_tx : ((h.loseLock x).slice x).tx = (h.slice x).tx := by
  rw [Hw.loseLock, Hw.start_slice, Hw.synthTo_slice, Hw.set_slice, Hw.bump_slice]

end

/-- The receive accumulator stands after the samples taken with the clock valid. -/
theorem Hw.loseLock_ncoRx (h : Hw) (x : Fin 3) (hs : h.synth x = synReady) : ((h.loseLock x).slice x).ncoRx =
    ((h.slice x).ncoRx + (h.et - (h.slice x).ncoAt) * adcMHz x / 1000 * h.activeRx x) % 2 ^ 48 := by
  let k := (h.bump (R.RFS_SYNTH_LOCK_LOST_CNT x)).set (R.RFS_SYNTH_LOCKED x) 0
  have hk {g : RF} (hc : apart (R.RFS_SYNTH_LOCK_LOST_CNT x) g) (hl : apart (R.RFS_SYNTH_LOCKED x) g) :
      k.get g = h.get g := (Hw.get_set_apart _ _ _ _ hl).trans (Hw.get_bump_apart _ _ _ _ hc)
  have hsamples : k.ncoSamples x = (h.et - (h.slice x).ncoAt) * adcMHz x / 1000 :=
    if_pos ((hk (apart_of_bits rfl) (apart_of_bits rfl)).trans hs)
  have hactive : k.activeRx x = h.activeRx x := by
    rw [Hw.activeRx, hk (apart_of_offsets rfl rfl rfl) (apart_of_offsets rfl rfl rfl),
      hk (apart_of_offsets rfl rfl rfl) (apart_of_offsets rfl rfl rfl), Hw.activeRx]
  rw [Hw.loseLock, Hw.start_slice, Hw.synthTo_slice]
  simp only [Hw.ncoNow, ncoRxAfter]
  rw [hsamples, hactive, Hw.set_slice, Hw.bump_slice]

theorem Hw.dropReception_synthTimer (h : Hw) (x : Nat) :
    tget (h.dropReception x).timers (.synth x) = tget h.timers (.synth x) := by
  rw [Hw.dropReception_timers]
  simp [Hw.stopTimeline, tget_stop]

/-- A lock lost in READY: the reception is over and the PPDU ends with SYNTH_LOST. -/
def Hw.lockLost (h : Hw) (x : Nat) : Hw := ((h.loseLock x).dropReception x).endTransmission x .synthLost

section
variable (h : Hw) (x : Nat)

theorem Hw.lockLost_endsTx : EndsTx x ((h.loseLock x).dropReception x) (h.lockLost x) := Hw.endTransmission_endsTx _ x _

theorem Hw.lockLost_get {g : RF} (hg : sliceField g) : (h.lockLost x).get g = (h.loseLock x).get g :=
  ((h.lockLost_endsTx x).get g).trans (Hw.dropReception_get _ x hg)

theorem Hw.lockLost_mem : (h.lockLost x).mem = h.mem :=
  (h.lockLost_endsTx x).mem.trans ((Hw.dropReception_mem _ x).trans (h.loseLock_mem x))

theorem Hw.lockLost_timer : tget (h.lockLost x).timers (.synth x) = some (h.et + 400000) :=
  (h.lockLost_endsTx x).synth.trans ((Hw.dropReception_synthTimer _ x).trans (h.loseLock_timer x))

theorem Hw.lockLost_rx : ((h.lockLost x).slice x).rx.phase = .idle := by
  obtain ⟨t, ht⟩ := (h.lockLost_endsTx x).slice
  rw [ht, Hw.dropReception_slice]
  rfl

theorem Hw.lockLost_ncoRx : ((h.lockLost x).slice x).ncoRx = ((h.loseLock x).slice x).ncoRx := by
  obtain ⟨t, ht⟩ := (h.lockLost_endsTx x).slice
  rw [ht, Hw.dropReception_slice]

theorem Hw.lockLost_txStatus {p : TxPpdu} (hp : (h.slice x).tx = some p) (ht : h.et < p.t1) (hr : p.response = false) :
    kget (h.lockLost x).txStatus x = some .synthLost := by
  refine Hw.endTransmission_txStatus _ x ?_ ?_ hr _
  · rw [Hw.dropReception_slice]
    exact (h.loseLock_tx x).trans hp
  · rw [Hw.dropReception_et, Hw.loseLock_et]
    exact ht

end

theorem gives_synthLockLost (hup : s.hw.mainUp = true) (hs : s.hw.synth x = synReady) : Gives (.synthLockLost x) s fun h =>
    h.synth x = synAcquire ∧ h.get (R.RFS_SYNTH_LOCKED x) = 0 ∧
      h.get (R.RFS_SYNTH_LOCK_LOST_CNT x) = min (s.hw.get (R.RFS_SYNTH_LOCK_LOST_CNT x) + 1) 255 ∧
      tget h.timers (.synth x) = some (s.hw.et + 400000) ∧ (h.slice x).rx.phase = .idle ∧
      (h.slice x).ncoRx =
        ((s.hw.slice x).ncoRx + (s.hw.et - (s.hw.slice x).ncoAt) * adcMHz x / 1000 * s.hw.activeRx x) % 2 ^ 48 ∧
      MemKept s.hw h := by
  have hget {g : RF} (hg : sliceField g) : ((s.hw.lockLost x).linesUnlessTx x).get g = (s.hw.loseLock x).get g :=
    ((Hw.linesUnlessTx_regs _ x).get hg.off_cxStat).trans (Hw.lockLost_get _ x hg)
  refine gives_of_effect_eq (e := execSynthLockLost x s) (h := (s.hw.lockLost x).linesUnlessTx x) rfl rfl hup (if_pos hs)
    ⟨?_, ?_, ?_, ?_, ?_, ?_, MemKept.canon (.of_mem ?_)⟩
  · rw [Hw.synth, Hw.canon_get, hget (sliceField_of_offset rfl rfl), Hw.loseLock_state]
  · rw [Hw.canon_get, hget (sliceField_of_offset rfl rfl), Hw.loseLock_locked]
  · rw [Hw.canon_get, hget (sliceField_of_offset rfl rfl), Hw.loseLock_count]
  · rw [Hw.canon_timers, Hw.linesUnlessTx_timers, Hw.lockLost_timer]
  · rw [Hw.canon_slice, Hw.linesUnlessTx_rx, Hw.lockLost_rx]
  · rw [Hw.canon_slice, Hw.linesUnlessTx_ncoRx, Hw.lockLost_ncoRx, Hw.loseLock_ncoRx _ _ hs]
  · rw [Hw.linesUnlessTx_mem, Hw.lockLost_mem]

theorem gives_synthLockLost_status (hup : s.hw.mainUp = true) {p : TxPpdu} (hs : s.hw.synth x = synReady)
    (hp : (s.hw.slice x).tx = some p) (ht : s.hw.et < p.t1) (hr : p.response = false) :
    Gives (.synthLockLost x) s fun h => kget h.txStatus x = some .synthLost := by
  refine gives_of_effect_eq (e := execSynthLockLost x s) (h := (s.hw.lockLost x).linesUnlessTx x) rfl rfl hup (if_pos hs) ?_
  rw [Hw.canon_txStatus, Hw.linesUnlessTx_txStatus, Hw.lockLost_txStatus _ x hp ht hr]

/-! ### RESTART (R95, R105) -/

theorem gives_restart (hup : s.hw.mainUp = true) (hs : s.hw.synth x = synFault) : Gives (.restart x) s fun h =>
    h.synth x = synStart ∧ h.get (R.RFS_SYNTH_LOCKED x) = 0 ∧ (h.slice x).needFull = true ∧
      (h.slice x).acqFailed = false ∧ tget h.timers (.synth x) = some (s.hw.et + 60000) ∧
      RegsKept [R.RFS_SYNTH x] s.hw h ∧ MemKept s.hw h := by
  refine gives_of_effect_eq (e := execRestart x s) (h := (s.hw.synthStart x).modSlice x fun s => { s with needFull := true })
    rfl rfl hup (if_pos hs) ⟨?_, ?_, ?_, ?_, ?_, ?_, MemKept.canon (.of_mem ?_)⟩
  · rw [Hw.synth, Hw.canon_get, Hw.modSlice_get, Hw.synthStart_state]
  · rw [Hw.canon_get, Hw.modSlice_get, Hw.synthStart_locked]
  · rw [Hw.canon_slice, Hw.modSlice_slice]
  · rw [Hw.canon_slice, Hw.modSlice_slice, Hw.synthStart_slice]
  · rw [Hw.canon_timers, Hw.modSlice_timers, Hw.synthStart_eq, tget_start, if_pos rfl, Hw.modSlice_et, Hw.set_et,
      Hw.synthTo_et]
  · exact ((s.hw.synthStart_regs x).modSlice x _).canon
  · rw [Hw.modSlice_mem, Hw.synthStart_mem]

theorem gives_restart_unchanged (hup : s.hw.mainUp = true) (hs : s.hw.synth x ≠ synFault) :
    Gives (.restart x) s fun h => Unchanged s.hw h :=
  gives_unchanged_of_effect (e := execRestart x s) rfl rfl hup (if_neg hs)

/-- Settles O8: each command's effect is known, and the rules of the retune, the synthesiser, the calibration and the lines
say what it leaves. -/
theorem synthesiserStates : Obligations.SynthesiserStates := by
  intro s hup
  exact ⟨fun x => gives_retuneGo_invalid hup, fun x => gives_retuneGo_waits hup, fun x => gives_retuneGo_applies hup,
    fun x rx tx hr hrx htx hrec ht => gives_retuneApply hup hr hrx htx hrec ht, fun x d => gives_retuneSettleEnd hup,
    fun x d => gives_synthStartEnd hup, fun x => gives_synthLock hup, fun x d => gives_synthAcqTimeout hup,
    fun x d k => gives_synthSettleEnd_goesOn hup, fun x d => gives_synthSettleEnd_calibrates hup,
    fun x d => gives_synthSettleEnd_ready hup, fun x => gives_synthLockLost hup,
    fun x p => gives_synthLockLost_status hup, fun x => gives_restart hup, fun x => gives_restart_unchanged hup⟩

end Sys2Proof.Machine
end

section
/-!
SUPPORT. The temperature samples and the calibrations of a slice, command by command (R99 to R102, R109, R110).
-/
namespace Sys2Proof.Machine

/-! ### Signed fields and registers written by firmware -/

theorem signedOf_unsignedOf {n : Nat} {v : Int} (hlo : -2 ^ n ≤ v) (hhi : v < 2 ^ n) :
    signedOf (n + 1) (unsignedOf (n + 1) v) = v := by
  have hpos : (0 : Int) < 2 ^ n := by positivity
  have hpow : (2 : Int) ^ (n + 1) = 2 * 2 ^ n := pow_succ' 2 n
  simp only [signedOf, unsignedOf, Nat.add_sub_cancel]
  by_cases hv : 0 ≤ v
  · have hmod : v % 2 ^ (n + 1) = v := Int.emod_eq_of_lt hv (by omega)
    rw [hmod, Nat.mod_eq_of_lt (by zify [hv]; omega), if_pos (by zify [hv]; omega)]
    omega
  · have hmod : v % 2 ^ (n + 1) = v + 2 ^ (n + 1) := by
      rw [← Int.add_emod_right, Int.emod_eq_of_lt (by omega) (by omega)]
    have hnn : 0 ≤ v + 2 ^ (n + 1) := by omega
    rw [hmod, Nat.mod_eq_of_lt (by zify [hnn]; omega), if_neg (by zify [hnn]; omega)]
    omega

/-- A signed field set to a value of its range. -/
theorem Hw.getI_setI_self (h : Hw) {f : RF} {n : Nat} {v : Int} (hf : fits f) (hl : f.len = n + 1) (hlo : -2 ^ n ≤ v)
    (hhi : v < 2 ^ n) : (h.setI f v).getI f = v := by
  have hget : (h.setI f v).get f = unsignedOf f.len v := Hw.get_setI_self h f v hf
  rw [Hw.getI, hget, hl, signedOf_unsignedOf hlo hhi]

theorem Hw.getI_congr {h h' : Hw} {f : RF} (hg : h'.get f = h.get f) : h'.getI f = h.getI f := by rw [Hw.getI, hg, Hw.getI]

/-- A field all of whose bits firmware may write takes what is written. -/
theorem Hw.get_writeFields (h : Hw) {f : RF} {r : RegRow} (v : Word) (hr : regRow f.addr = some r)
    (hrw : ∀ i < f.len, (BitVec.ofNat 32 (r.rw ||| r.rws)).getLsbD (f.lo + i) = true) :
    (h.writeFields f.addr v).get f = fieldOf v f := by
  refine Nat.eq_of_testBit_eq fun i => ?_
  simp only [Hw.writeFields, hr, Hw.get, Hw.word_setWord_self, fieldOf, testBit_bitsOf]
  generalize BitVec.ofNat 32 (r.rw ||| r.rws) = rw at hrw
  by_cases hi : i < f.len
  · simp [hi, hrw i hi]
  · simp [hi]

/-! ### CAL_START (R101, R102, R109) -/

theorem regRow_calCtl (x : Fin 3) :
    regRow (R.RFS_CAL_CTL x) = some ⟨0x41000040, [(0x3, 0x100000)], 0x1FDF6, 0, 0x1, 0, 0x14084, 0, "RFS_CAL_CTL"⟩ := by
  fin_cases x <;> rfl

section
variable (h : Hw) (x : Nat) (full forced : Bool)

/-- A calibration asked for is absorbed, or waits. -/
theorem Hw.askCalibration_cases : h.askCalibration x full forced = h ∨
    ∃ w, h.askCalibration x full forced = (h.modSlice x fun s => { s with calWaits := some w }).calState x := by
  unfold Hw.askCalibration
  dsimp only
  split_ifs
  · exact .inl rfl
  · exact .inr ⟨_, rfl⟩

theorem Hw.askCalibration_mem : (h.askCalibration x full forced).mem = h.mem := by
  obtain e | ⟨w, e⟩ := h.askCalibration_cases x full forced <;> simp [e]

theorem Hw.askCalibration_et : (h.askCalibration x full forced).et = h.et := by
  obtain e | ⟨w, e⟩ := h.askCalibration_cases x full forced <;> simp [e]

theorem Hw.askCalibration_timers : (h.askCalibration x full forced).timers = h.timers := by
  obtain e | ⟨w, e⟩ := h.askCalibration_cases x full forced <;> simp [e]

theorem Hw.askCalibration_regs : RegsKept [R.RFS_CAL_STAT x] h (h.askCalibration x full forced) := by
  obtain e | ⟨w, e⟩ := h.askCalibration_cases x full forced <;> rw [e]
  · exact RegsKept.refl _ h
  · exact ((RegsKept.refl _ h).modSlice x _).trans (Hw.calState_regs _ x)

theorem Hw.askCalibration_get {g : RF} (hg : apart (R.RFS_CAL_STAT_STATE x) g) :
    (h.askCalibration x full forced).get g = h.get g := by
  obtain e | ⟨w, e⟩ := h.askCalibration_cases x full forced <;> rw [e]
  rw [Hw.calState_get_apart _ _ hg, Hw.modSlice_get]

variable {h x}

theorem Hw.askCalibration_of_none (hc : (h.slice x).cal = none) (hw : (h.slice x).calWaits = none) :
    h.askCalibration x full forced = (h.modSlice x fun s => { s with calWaits := some (full, forced) }).calState x := by
  simp [Hw.askCalibration, hc, hw]

end

/-- RFS_x_CAL_CTL as `v` writes it, THRESH and FORCE_THRESH at their least values or above. -/
def Hw.storeCalCtl (h : Hw) (x : Nat) (v : Word) : Hw :=
  ((h.writeFields (R.RFS_CAL_CTL x) v).set (R.RFS_CAL_CTL_THRESH x) (max 2 (fieldOf v (R.RFS_CAL_CTL_THRESH x)))).set
    (R.RFS_CAL_CTL_FORCE_THRESH x) (max 4 (fieldOf v (R.RFS_CAL_CTL_FORCE_THRESH x)))

theorem fieldOf_lt (v : Word) (f : RF) : fieldOf v f < 2 ^ f.len := (v.extractLsb' f.lo f.len).isLt

section
variable (h : Hw) (x : Fin 3) (v : Word)

theorem Hw.storeCalCtl_force : (h.storeCalCtl x v).get (R.RFS_CAL_CTL_FORCE_THRESH x) =
    max 4 (fieldOf v (R.RFS_CAL_CTL_FORCE_THRESH x)) :=
  Hw.get_set_lt _ _ _ (fits_of_bits rfl) (max_lt (show 4 < 2 ^ 6 by decide) (fieldOf_lt v _))

theorem Hw.storeCalCtl_thresh : (h.storeCalCtl x v).get (R.RFS_CAL_CTL_THRESH x) =
    max 2 (fieldOf v (R.RFS_CAL_CTL_THRESH x)) := by
  rw [Hw.storeCalCtl, Hw.get_set_apart _ _ _ _ (apart_of_bits rfl)]
  exact Hw.get_set_lt _ _ _ (fits_of_bits rfl) (max_lt (show 2 < 2 ^ 5 by decide) (fieldOf_lt v _))

/-- The other fields, of one bit each, take what is written. -/
theorem Hw.storeCalCtl_get {g : RF} (lo : Nat) (ha : g.addr = R.RFS_CAL_CTL x) (ht : apart (R.RFS_CAL_CTL_THRESH x) g)
    (hf : apart (R.RFS_CAL_CTL_FORCE_THRESH x) g)
    (hlo : g.lo = lo) (hl : g.len = 1) (hrw : (0x1FDF6#32).getLsbD lo = true) :
    (h.storeCalCtl x v).get g = fieldOf v g := by
  rw [Hw.storeCalCtl, Hw.get_set_apart _ _ _ _ hf, Hw.get_set_apart _ _ _ _ ht, ← ha]
  refine Hw.get_writeFields h v (ha ▸ regRow_calCtl x) fun i hi => ?_
  obtain rfl : i = 0 := by omega
  rw [Nat.add_zero, hlo]
  exact hrw

theorem Hw.writeFields_mem (h : Hw) (a : Nat) (v : Word) : (h.writeFields a v).mem = h.mem := by
  unfold Hw.writeFields
  split <;> rfl

theorem Hw.writeFields_slice (h : Hw) (a : Nat) (v : Word) (y : Nat) : (h.writeFields a v).slice y = h.slice y := by
  unfold Hw.writeFields
  split <;> rfl

theorem Hw.storeCalCtl_mem : (h.storeCalCtl x v).mem = h.mem := h.writeFields_mem _ v

theorem Hw.storeCalCtl_slice (y : Nat) : (h.storeCalCtl x v).slice y = h.slice y := h.writeFields_slice _ v y

theorem Hw.storeCalCtl_regs : RegsKept [R.RFS_CAL_CTL x] h (h.storeCalCtl x v) :=
  have hput : RegsKept [R.RFS_CAL_CTL x] h (h.writeFields (R.RFS_CAL_CTL x) v) :=
    fun _ ha => h.word_writeFields_ne _ v (by simpa using ha)
  (hput.set (R.RFS_CAL_CTL_THRESH x) _ (.head _)).set (R.RFS_CAL_CTL_FORCE_THRESH x) _ (.head _)

end

variable {s : State} {x : Fin 3}

theorem gives_calStart_rejected (hup : s.hw.mainUp = true) {v : Word}
    (hv : max 4 (fieldOf v (R.RFS_CAL_CTL_FORCE_THRESH x)) ≤ max 2 (fieldOf v (R.RFS_CAL_CTL_THRESH x))) :
    Gives (.calStart x v) s fun h => h.get (R.RFS_CAL_STAT_CFG_ERR x) = 1 ∧ OnlyRegs [R.RFS_CAL_STAT x] s.hw h := by
  refine gives_of_effect_eq (e := execCalStart x v s) (h := s.hw.set (R.RFS_CAL_STAT_CFG_ERR x) 1) rfl rfl hup (if_pos hv)
    ⟨?_, (onlyRegs_setAt s.hw (R.RFS_CAL_STAT_CFG_ERR x) 1 rfl).canon⟩
  rw [Hw.canon_get, Hw.get_set_const _ rfl]

/-- Where START is written, a calibration of KIND is asked for. -/
def Hw.startCal (h : Hw) (x : Nat) (v : Word) : Hw :=
  if fieldOf v (R.RFS_CAL_CTL_START x) = 1 then h.askCalibration x (h.flag (R.RFS_CAL_CTL_KIND x)) false else h

section
variable (h : Hw) (x : Nat) (v : Word)

theorem Hw.startCal_mem : (h.startCal x v).mem = h.mem := by
  unfold Hw.startCal
  split
  · exact h.askCalibration_mem x _ _
  · rfl

theorem Hw.startCal_regs : RegsKept [R.RFS_CAL_STAT x] h (h.startCal x v) := by
  unfold Hw.startCal
  split
  · exact h.askCalibration_regs x _ _
  · exact RegsKept.refl _ h

end

theorem gives_calStart_stored (hup : s.hw.mainUp = true) {v : Word}
    (hv : max 2 (fieldOf v (R.RFS_CAL_CTL_THRESH x)) < max 4 (fieldOf v (R.RFS_CAL_CTL_FORCE_THRESH x))) :
    Gives (.calStart x v) s fun h =>
      h.get (R.RFS_CAL_CTL_THRESH x) = max 2 (fieldOf v (R.RFS_CAL_CTL_THRESH x)) ∧
        h.get (R.RFS_CAL_CTL_FORCE_THRESH x) = max 4 (fieldOf v (R.RFS_CAL_CTL_FORCE_THRESH x)) ∧
        h.get (R.RFS_CAL_CTL_TEMP_REQ_EN x) = fieldOf v (R.RFS_CAL_CTL_TEMP_REQ_EN x) ∧
        h.get (R.RFS_CAL_CTL_FORCE_EN x) = fieldOf v (R.RFS_CAL_CTL_FORCE_EN x) ∧
        (fieldOf v (R.RFS_CAL_CTL_START x) = 1 → (s.hw.slice x).cal = none → (s.hw.slice x).calWaits = none →
          (h.slice x).calWaits = some (decide (fieldOf v (R.RFS_CAL_CTL_KIND x) = 1), false) ∧
            h.get (R.RFS_CAL_STAT_STATE x) = 1) ∧
        RegsKept [R.RFS_CAL_CTL x, R.RFS_CAL_STAT x] s.hw h ∧ MemKept s.hw h := by
  have hget {g : RF} (hg : g.addr = R.RFS_CAL_CTL x) :
      ((s.hw.storeCalCtl x v).startCal x v).get g = (s.hw.storeCalCtl x v).get g :=
    (Hw.startCal_regs _ x v).get (by simp [hg, R.RFS_CAL_CTL, R.RFS_CAL_STAT])
  refine gives_of_effect_eq (e := execCalStart x v s) (h := (s.hw.storeCalCtl x v).startCal x v) rfl rfl hup
    (if_neg (Nat.not_le.mpr hv)) ⟨?_, ?_, ?_, ?_, fun hs hc hw => ?_, ?_, MemKept.canon (.of_mem ?_)⟩
  · rw [Hw.canon_get, hget rfl, Hw.storeCalCtl_thresh]
  · rw [Hw.canon_get, hget rfl, Hw.storeCalCtl_force]
  · rw [Hw.canon_get, hget rfl, Hw.storeCalCtl_get _ _ _ 2 rfl (apart_of_bits rfl) (apart_of_bits rfl) rfl rfl (by decide)]
  · rw [Hw.canon_get, hget rfl, Hw.storeCalCtl_get _ _ _ 16 rfl (apart_of_bits rfl) (apart_of_bits rfl) rfl rfl (by decide)]
  · have hkind : (s.hw.storeCalCtl x v).flag (R.RFS_CAL_CTL_KIND x) = decide (fieldOf v (R.RFS_CAL_CTL_KIND x) = 1) := by
      have hlt : fieldOf v (R.RFS_CAL_CTL_KIND x) < 2 := fieldOf_lt v _
      rw [Hw.flag, Hw.storeCalCtl_get _ _ _ 1 rfl (apart_of_bits rfl) (apart_of_bits rfl) rfl rfl (by decide)]
      interval_cases fieldOf v (R.RFS_CAL_CTL_KIND x) <;> rfl
    have hc' : ((s.hw.storeCalCtl x v).slice x).cal = none := by rw [Hw.storeCalCtl_slice]; exact hc
    have hw' : ((s.hw.storeCalCtl x v).slice x).calWaits = none := by rw [Hw.storeCalCtl_slice]; exact hw
    rw [Hw.canon_slice, Hw.canon_get, Hw.startCal, if_pos hs, Hw.askCalibration_of_none _ _ hc' hw', hkind]
    refine ⟨by rw [Hw.calState_slice, Hw.modSlice_slice], Hw.calState_of_waiting ?_ ?_⟩
    · rw [Hw.modSlice_slice]; exact hc'
    · rw [Hw.modSlice_slice]; rfl
  · exact (((s.hw.storeCalCtl_regs x v).mono (by simp)).trans ((Hw.startCal_regs _ x v).mono (by simp))).canon
  · rw [Hw.startCal_mem, Hw.storeCalCtl_mem]

/-! ### TEMP_SAMPLE (R101, R110) -/

/-- An update of a slice's CAL_STAT and of the calibration that waits: the memory, the clock, the timers and the other
registers are kept. -/
structure AsksCal (x : Nat) (h h' : Hw) : Prop where
  mem : h'.mem = h.mem
  et : h'.et = h.et
  timers : h'.timers = h.timers
  regs : RegsKept [R.RFS_CAL_STAT x] h h'

section
variable {h h' h'' : Hw} {x : Nat}

theorem AsksCal.refl : AsksCal x h h := ⟨rfl, rfl, rfl, RegsKept.refl _ h⟩

theorem AsksCal.trans (h1 : AsksCal x h h') (h2 : AsksCal x h' h'') : AsksCal x h h'' :=
  ⟨h2.mem.trans h1.mem, h2.et.trans h1.et, h2.timers.trans h1.timers, h1.regs.trans h2.regs⟩

theorem Hw.askCalibration_asksCal (h : Hw) (full forced : Bool) : AsksCal x h (h.askCalibration x full forced) :=
  ⟨h.askCalibration_mem x _ _, h.askCalibration_et x _ _, h.askCalibration_timers x _ _, h.askCalibration_regs x _ _⟩

end

/-- The sensor's reading as T holds it; the next sample is 1,024 µs later. -/
def Hw.takeTemp (h : Hw) (x : Nat) (t : Int) : Hw :=
  (h.start (.temp x) 1024000).setI (R.RFS_TEMP_T x) (clampInt (-512) 511 (t / 64))

/-- REQ_TEMP at the distance THRESH. -/
def Hw.requestByTemp (h : Hw) (x : Nat) : Hw :=
  if h.flag (R.RFS_CAL_CTL_TEMP_REQ_EN x) && decide (4 * h.get (R.RFS_CAL_CTL_THRESH x) ≤ h.calDistance x) then
    (h.set (R.RFS_CAL_STAT_REQ_TEMP x) 1).calState x
  else h

/-- A forced drift calibration at the distance FORCE_THRESH, unless the slice is Closed. -/
def Hw.forceByTemp (h : Hw) (x d : Nat) : Hw :=
  if h.flag (R.RFS_CAL_CTL_FORCE_EN x) && decide (4 * h.get (R.RFS_CAL_CTL_FORCE_THRESH x) ≤ d) &&
      h.get (R.RFS_FSTAT_STATE x) != stClosed then
    h.askCalibration x false true
  else h

/-- A slice with a T_CAL compares its temperature with it. -/
def Hw.compareTemp (h : Hw) (x : Nat) : Hw :=
  if h.flag (R.RFS_CAL_STAT_VALID x) && !(h.slice x).needFull then
    (h.requestByTemp x).forceByTemp x (h.calDistance x)
  else h

section
variable (h : Hw) (x : Nat)

theorem Hw.requestByTemp_asksCal : AsksCal x h (h.requestByTemp x) := by
  unfold Hw.requestByTemp
  split
  · exact ⟨rfl, rfl, rfl, ((RegsKept.refl _ h).set (R.RFS_CAL_STAT_REQ_TEMP x) 1 (.head _)).trans (Hw.calState_regs _ x)⟩
  · exact .refl

theorem Hw.forceByTemp_asksCal (d : Nat) : AsksCal x h (h.forceByTemp x d) := by
  unfold Hw.forceByTemp
  split
  · exact h.askCalibration_asksCal _ _
  · exact .refl

theorem Hw.compareTemp_asksCal : AsksCal x h (h.compareTemp x) := by
  unfold Hw.compareTemp
  split
  · exact (h.requestByTemp_asksCal x).trans (Hw.forceByTemp_asksCal _ x _)
  · exact .refl

theorem Hw.forceByTemp_request (d : Nat) :
    (h.forceByTemp x d).get (R.RFS_CAL_STAT_REQ_TEMP x) = h.get (R.RFS_CAL_STAT_REQ_TEMP x) := by
  unfold Hw.forceByTemp
  split
  · exact h.askCalibration_get x _ _ (apart_of_bits rfl)
  · rfl

variable {h x}

theorem Hw.requestByTemp_request (hen : h.get (R.RFS_CAL_CTL_TEMP_REQ_EN x) = 1)
    (hd : 4 * h.get (R.RFS_CAL_CTL_THRESH x) ≤ h.calDistance x) :
    (h.requestByTemp x).get (R.RFS_CAL_STAT_REQ_TEMP x) = 1 := by
  have hask : (h.flag (R.RFS_CAL_CTL_TEMP_REQ_EN x) &&
      decide (4 * h.get (R.RFS_CAL_CTL_THRESH x) ≤ h.calDistance x)) = true := by simp [Hw.flag, hen, hd]
  rw [Hw.requestByTemp, if_pos hask, Hw.calState_get_apart _ _ (apart_of_bits rfl), Hw.get_set_const _ rfl]

theorem Hw.compareTemp_request (hv : h.get (R.RFS_CAL_STAT_VALID x) = 1) (hn : (h.slice x).needFull = false)
    (hen : h.get (R.RFS_CAL_CTL_TEMP_REQ_EN x) = 1) (hd : 4 * h.get (R.RFS_CAL_CTL_THRESH x) ≤ h.calDistance x) :
    (h.compareTemp x).get (R.RFS_CAL_STAT_REQ_TEMP x) = 1 := by
  have hask : (h.flag (R.RFS_CAL_STAT_VALID x) && !(h.slice x).needFull) = true := by simp [Hw.flag, hv, hn]
  rw [Hw.compareTemp, if_pos hask, Hw.forceByTemp_request, Hw.requestByTemp_request hen hd]

end

theorem Hw.takeTemp_temp (h : Hw) (x : Nat) (t : Int) :
    (h.takeTemp x t).getI (R.RFS_TEMP_T x) = clampInt (-512) 511 (t / 64) := by
  have hlo : -512 ≤ clampInt (-512) 511 (t / 64) := le_max_left _ _
  have hhi : clampInt (-512) 511 (t / 64) ≤ 511 := max_le (by decide) (min_le_left _ _)
  exact Hw.getI_setI_self (n := 9) _ (fits_of_bits rfl) rfl (by omega) (by omega)

theorem Hw.takeTemp_mem (h : Hw) (x : Nat) (t : Int) : (h.takeTemp x t).mem = h.mem :=
  (Hw.setI_mem _ _ _).trans (h.start_mem _ _)

theorem Hw.takeTemp_regs (h : Hw) (x : Nat) (t : Int) : RegsKept [R.RFS_TEMP x] h (h.takeTemp x t) :=
  ((RegsKept.refl _ h).start _ _).set (R.RFS_TEMP_T x) _ (.head _)

theorem Hw.takeTemp_timer (h : Hw) (x : Nat) (t : Int) :
    tget (h.takeTemp x t).timers (.temp x) = some (h.et + 1024000) := by
  rw [Hw.takeTemp, Hw.setI_timers, tget_start, if_pos rfl]

theorem gives_tempSample (hup : s.hw.mainUp = true) {t : Int} {d : Nat} (ht : tget s.hw.timers (.temp x) = some d) :
    Gives (.tempSample x t) s fun h =>
      h.getI (R.RFS_TEMP_T x) = clampInt (-512) 511 (t / 64) ∧ tget h.timers (.temp x) = some (h.et + 1024000) ∧
        (s.hw.get (R.RFS_CAL_STAT_VALID x) = 1 → (s.hw.slice x).needFull = false →
          s.hw.get (R.RFS_CAL_CTL_TEMP_REQ_EN x) = 1 →
          4 * s.hw.get (R.RFS_CAL_CTL_THRESH x) ≤
            (clampInt (-512) 511 (t / 64) - s.hw.getI (R.RFS_CAL_STAT_T_CAL x)).natAbs →
          h.get (R.RFS_CAL_STAT_REQ_TEMP x) = 1) ∧
        RegsKept [R.RFS_TEMP x, R.RFS_CAL_STAT x] s.hw h ∧ MemKept s.hw h := by
  let k := (s.hw.arrive d (.temp x)).takeTemp x t
  have hregs : RegsKept [R.RFS_TEMP x] s.hw k := (s.hw.arrive_regs d _ _).trans (Hw.takeTemp_regs _ x t)
  have hasks := k.compareTemp_asksCal x
  refine gives_of_effect_eq (e := execTempSample x t s) (h := k.compareTemp x) rfl rfl hup (Hw.onTimer_arrive ht _)
    ⟨?_, ?_, fun hv hn hen hd => ?_, ?_, MemKept.canon (.of_mem ?_)⟩
  · rw [Hw.getI, Hw.canon_get, hasks.regs.get (by simp [R.RFS_TEMP_T, R.RFS_TEMP, R.RFS_CAL_STAT])]
    exact Hw.takeTemp_temp _ x t
  · rw [Hw.canon_timers, Hw.canon_et, hasks.timers, hasks.et, Hw.takeTemp_timer]
    rfl
  · have hk {a : Nat} {g : RF} (hg : g.addr = a + 0x100000 * x) (ha : (a != 0x41000048) = true) : k.get g = s.hw.get g :=
      hregs.get (by simp only [R.RFS_TEMP, List.mem_singleton, bne_iff_ne] at ha ⊢; omega)
    have hslice : k.slice x = s.hw.slice x := s.hw.arrive_slice d (.temp x) x
    rw [Hw.canon_get]
    refine Hw.compareTemp_request ((hk rfl rfl).trans hv) (by rw [hslice]; exact hn) ((hk rfl rfl).trans hen) ?_
    rw [Hw.calDistance, Hw.takeTemp_temp, Hw.getI_congr (hk rfl rfl), hk rfl rfl]
    exact hd
  · exact ((hregs.mono (by simp)).trans (hasks.regs.mono (by simp))).canon
  · rw [hasks.mem, Hw.takeTemp_mem, Hw.arrive_mem]

/-! ### CALIBRATION_BEGIN (R99, R101) -/

section
variable (h : Hw) (x : Fin 3) (full forced starting : Bool)

theorem Hw.beginCalibration_aborted : (h.beginCalibration x full forced starting).get (R.RFS_EVT_CNT1_RX_ABORT_CAL x) =
    if h.receiving x then min (h.get (R.RFS_EVT_CNT1_RX_ABORT_CAL x) + 1) 65535
    else h.get (R.RFS_EVT_CNT1_RX_ABORT_CAL x) := by
  obtain ⟨c, -, hget⟩ := h.beginCalibration_get x full forced starting (g := R.RFS_EVT_CNT1_RX_ABORT_CAL x)
    (sliceField_of_offset rfl rfl) (apart_of_offsets rfl rfl rfl)
  rw [hget, (Hw.runCalibration_regs _ x c).get (by simp [R.RFS_EVT_CNT1_RX_ABORT_CAL, R.RFS_EVT_CNT1, R.RFS_SYNTH]),
    Hw.countForced_get_apart _ _ _ (apart_of_bits rfl), Hw.abortForCal]
  split
  · rw [Hw.get_bump_self _ _ _ (fits_of_bits rfl), Hw.dropReception_get _ _ (sliceField_of_offset rfl rfl)]
    rfl
  · rfl

theorem Hw.beginCalibration_forced : (h.beginCalibration x full forced starting).get (R.RFS_EVT_CNT1_FORCED_CAL x) =
    if forced then min (h.get (R.RFS_EVT_CNT1_FORCED_CAL x) + 1) 65535 else h.get (R.RFS_EVT_CNT1_FORCED_CAL x) := by
  have habort : (h.abortForCal x).get (R.RFS_EVT_CNT1_FORCED_CAL x) = h.get (R.RFS_EVT_CNT1_FORCED_CAL x) :=
    h.abortForCal_get_apart x (sliceField_of_offset rfl rfl) (apart_of_bits rfl)
  obtain ⟨c, -, hget⟩ := h.beginCalibration_get x full forced starting (g := R.RFS_EVT_CNT1_FORCED_CAL x)
    (sliceField_of_offset rfl rfl) (apart_of_offsets rfl rfl rfl)
  rw [hget, (Hw.runCalibration_regs _ x c).get (by simp [R.RFS_EVT_CNT1_FORCED_CAL, R.RFS_EVT_CNT1, R.RFS_SYNTH]),
    Hw.countForced]
  split
  · rw [Hw.get_bump_self _ _ _ (fits_of_bits rfl), habort]
    rfl
  · exact habort

end

theorem gives_calibrationBegin (hup : s.hw.mainUp = true) {full forced : Bool} (hs : s.hw.synth x = synReady)
    (ht : s.hw.transmitting x = false) (hw : (s.hw.slice x).calWaits = some (full, forced)) :
    Gives (.calibrationBegin x) s fun h =>
      h.synth x = (if full then synStart else synCal) ∧
        (h.slice x).cal = some ⟨full, forced, s.hw.getI (R.RFS_TEMP_T x), full⟩ ∧ (h.slice x).calWaits = none ∧
        h.get (R.RFS_CAL_STAT_STATE x) = 2 ∧ (s.hw.receiving x = true → (h.slice x).rx.phase = .idle) ∧
        h.get (R.RFS_EVT_CNT1_RX_ABORT_CAL x) =
          (if s.hw.receiving x then min (s.hw.get (R.RFS_EVT_CNT1_RX_ABORT_CAL x) + 1) 65535
            else s.hw.get (R.RFS_EVT_CNT1_RX_ABORT_CAL x)) ∧
        h.get (R.RFS_EVT_CNT1_FORCED_CAL x) =
          (if forced then min (s.hw.get (R.RFS_EVT_CNT1_FORCED_CAL x) + 1) 65535
            else s.hw.get (R.RFS_EVT_CNT1_FORCED_CAL x)) ∧
        MemKept s.hw h := by
  let k := s.hw.modSlice x fun s => { s with calWaits := none }
  have hrec : k.receiving x = s.hw.receiving x := by simp [k, Hw.receiving]
  refine gives_of_effect_eq (e := execCalibrationBegin x s) (h := k.beginCalibration x full forced full) rfl rfl hup ?_
    ⟨?_, ?_, ?_, ?_, fun _ => ?_, ?_, ?_, MemKept.canon (.of_mem ?_)⟩
  · refine (if_pos ⟨hs, by rw [ht]; rfl⟩).trans ?_
    simp only [hw]
    rfl
  · rw [Hw.synth, Hw.canon_get, Hw.beginCalibration_state]
  · rw [Hw.canon_slice, Hw.beginCalibration_cal]
    rfl
  · rw [Hw.canon_slice, Hw.beginCalibration_calWaits, Hw.modSlice_slice]
  · rw [Hw.canon_get, Hw.beginCalibration_calStat]
  · rw [Hw.canon_slice, Hw.beginCalibration_rx]
  · rw [Hw.canon_get, Hw.beginCalibration_aborted, hrec, Hw.modSlice_get]
  · rw [Hw.canon_get, Hw.beginCalibration_forced, Hw.modSlice_get]
  · rw [Hw.beginCalibration_mem, Hw.modSlice_mem]

/-! ### CALIBRATION_COMPLETE (R95, R101, R102, R110) -/

/-- The chains of a slice that a calibration finds in order. -/
def okChains (x : Nat) (fails : BitVec 8) : Nat := chainMask x &&& (255 - fails.toNat)

theorem testBit_okChains (x : Nat) (fails : BitVec 8) (c : Nat) :
    (okChains x fails).testBit c = (decide (c < chainsOf x) && decide (c < 8) && !fails.getLsbD c) := by
  have hmask : (chainMask x).testBit c = decide (c < chainsOf x) := Nat.testBit_two_pow_sub_one _ _
  have hok : (255 - fails.toNat).testBit c = (decide (c < 8) && !fails.getLsbD c) := by
    rw [show 255 - fails.toNat = 2 ^ 8 - (fails.toNat + 1) by omega, Nat.testBit_two_pow_sub_succ fails.isLt]
    rfl
  rw [okChains, Nat.testBit_and, hmask, hok, Bool.and_assoc]

theorem okChains_lt (x : Nat) (fails : BitVec 8) : okChains x fails < 256 :=
  lt_of_le_of_lt Nat.and_le_right (by omega)

theorem testBit_okChains_of_lt (x : Fin 3) (fails : BitVec 8) {c : Nat} (hc : c < 8) :
    (okChains x fails).testBit c = (chainExists x c && !fails.getLsbD c) := by
  rw [testBit_okChains, decide_eq_true hc, Bool.and_true]
  rfl

/-- With a chain failed, the chains in order are not all of them. -/
theorem okChains_ne_of_failed {x : Fin 3} {fails : BitVec 8} {c : Nat} (hc : c < 8) (he : chainExists x c = true)
    (hf : fails.getLsbD c = true) : okChains x fails ≠ chainMask x := fun heq => by
  have hbit : (chainMask x).testBit c = decide (c < chainsOf x) := Nat.testBit_two_pow_sub_one _ _
  rw [← heq, testBit_okChains_of_lt x fails hc, he, hf] at hbit
  simp only [chainExists, chainsOf, decide_eq_true_eq] at he hbit
  simp [he] at hbit

theorem okChains_eq_zero {x : Fin 3} {fails : BitVec 8}
    (hf : ∀ c < 8, chainExists x c = true → fails.getLsbD c = true) : okChains x fails = 0 := by
  refine Nat.eq_of_testBit_eq fun c => ?_
  rw [Nat.zero_testBit]
  by_cases hc : c < 8
  · rw [testBit_okChains_of_lt x fails hc]
    cases he : chainExists x c
    · rfl
    · simp [hf c hc he]
  · simp [testBit_okChains, hc]

theorem okChains_ne_zero {x : Fin 3} {fails : BitVec 8} {c : Nat} (hc : c < 8) (he : chainExists x c = true)
    (hf : fails.getLsbD c = false) : okChains x fails ≠ 0 := fun heq => by
  have hbit := testBit_okChains_of_lt x fails hc
  simp [heq, he, hf] at hbit

/-- The calibration `k` no longer runs. -/
def Hw.endCal (h : Hw) (x : Nat) (k : Calibration) : Hw :=
  h.modSlice x fun s => { s with cal := none, needFull := s.needFull && !k.full }

/-- T_CAL, CHAIN_OK and the events of a calibration that ended with the chains `ok` in order. -/
def Hw.noteResult (h : Hw) (x ok : Nat) (k : Calibration) : Hw :=
  let h := ((h.set (R.RFS_CAL_STAT_DONE_EV x) 1).setI (R.RFS_CAL_STAT_T_CAL x) k.temp).set (R.RFS_CAL_STAT_CHAIN_OK x) ok
  if ok = chainMask x then h else h.set (R.RFS_CAL_STAT_FAIL_EV x) 1

/-- With no chain in order the synthesiser is in FAULT, else in READY. -/
def Hw.noteVerdict (h : Hw) (x ok : Nat) : Hw :=
  if ok = 0 then ((h.set (R.RFS_CAL_STAT_VALID x) 0).synthTo x synFault).set (R.RFS_SYNTH_FAULT_EV x) 1
  else (h.set (R.RFS_CAL_STAT_VALID x) 1).synthTo x synReady

/-- A forced calibration clears REQ_TEMP, and so does one that brings the difference under THRESH. -/
def Hw.clearRequest (h : Hw) (x : Nat) (k : Calibration) : Hw :=
  if k.forced || decide (h.calDistance x < 4 * h.get (R.RFS_CAL_CTL_THRESH x)) then h.set (R.RFS_CAL_STAT_REQ_TEMP x) 0 else h

/-- What follows the result: the retune that waits, the pair's verdict, STATE, the lines and the idle moment. -/
def Hw.afterCal (h : Hw) (x : Nat) : Hw := ((((h.applyRetune x).updateStrOf x).calState x).linesAtRest x).idleBegins x

/-- A full calibration that waits behind one that ended with a chain in order begins. -/
def Hw.nextCal (h : Hw) (x ok : Nat) : Hw :=
  match (h.slice x).calWaits with
  | some (true, forced) =>
    if ok = 0 then h else (h.modSlice x fun s => { s with calWaits := none }).beginCalibration x true forced true
  | _ => h

/-- The hardware as the calibration `k` has ended with its result. -/
def Hw.completeCal (h : Hw) (x ok : Nat) (k : Calibration) : Hw :=
  (((h.endCal x k).noteResult x ok k).noteVerdict x ok).clearRequest x k

section
variable (h : Hw) (x : Nat)

theorem Hw.updateStrOf_rest : RestKept h (h.updateStrOf x) := by
  unfold Hw.updateStrOf
  split
  · exact RestKept.refl h
  · exact h.updateStr_rest

theorem Hw.updateStrOf_get {g : RF} (hg : sliceField g) : (h.updateStrOf x).get g = h.get g := by
  unfold Hw.updateStrOf
  split
  · rfl
  · exact h.updateStr_regs.get hg.off_strRegs

theorem Hw.afterCal_get {g : RF} (hs : sliceField g) (hr : g.addr ∉ retuneRegs x) (hg : apart (R.RFS_CAL_STAT_STATE x) g) :
    (h.afterCal x).get g = h.get g := by
  rw [Hw.afterCal, Hw.idleBegins, Hw.modSlice_get, Hw.linesAtRest_eq, Hw.setLines_get _ _ _ _ _ hs,
    Hw.calState_get_apart _ _ hg, Hw.updateStrOf_get _ _ hs, Hw.applyRetune_get _ _ hs hr]

theorem Hw.afterCal_mem : (h.afterCal x).mem = h.mem := by
  rw [Hw.afterCal, Hw.idleBegins, Hw.modSlice_mem, Hw.linesAtRest_eq, Hw.setLines_mem, Hw.calState_mem,
    (Hw.updateStrOf_rest _ x).mem, Hw.applyRetune_mem]

theorem Hw.afterCal_cal : ((h.afterCal x).slice x).cal = (h.slice x).cal := by
  rw [Hw.afterCal, Hw.idleBegins, Hw.modSlice_slice, Hw.linesAtRest_eq, Hw.setLines_slice, Hw.calState_slice,
    (Hw.updateStrOf_rest _ x).slice, Hw.applyRetune_cal]

theorem Hw.afterCal_calWaits : ((h.afterCal x).slice x).calWaits = (h.slice x).calWaits := by
  rw [Hw.afterCal, Hw.idleBegins, Hw.modSlice_slice, Hw.linesAtRest_eq, Hw.setLines_slice, Hw.calState_slice,
    (Hw.updateStrOf_rest _ x).slice, Hw.applyRetune_calWaits]

/-- With no full calibration waiting, or none to begin, nothing begins. -/
theorem Hw.nextCal_of_none {ok : Nat} (hw : ok = 0 ∨ ∀ g : Bool, (h.slice x).calWaits ≠ some (true, g)) :
    h.nextCal x ok = h := by
  unfold Hw.nextCal
  split
  · next g hg => exact if_pos (hw.resolve_right fun hn => hn g hg)
  · rfl

theorem Hw.nextCal_mem (ok : Nat) : (h.nextCal x ok).mem = h.mem := by
  unfold Hw.nextCal
  split
  · split <;> simp
  · rfl

end

section
variable (h : Hw) (x : Fin 3) (ok : Nat) (k : Calibration)

/-- The results of CAL_STAT stand as the next calibration begins. -/
theorem Hw.nextCal_get {g : RF} (hs : sliceField g) (hstate : apart (R.RFS_CAL_STAT_STATE x) g)
    (hsynth : g.addr ≠ R.RFS_SYNTH x) (hcnt : g.addr ≠ R.RFS_EVT_CNT1 x) : (h.nextCal x ok).get g = h.get g := by
  unfold Hw.nextCal
  split
  · split
    · rfl
    · rw [Hw.beginCalibration_get_apart _ _ _ _ _ hs hstate hsynth hcnt, Hw.modSlice_get]
  · rfl

theorem Hw.noteResult_mem : (h.noteResult x ok k).mem = h.mem := by
  unfold Hw.noteResult
  dsimp only
  split <;> rfl

theorem Hw.noteVerdict_mem : (h.noteVerdict x ok).mem = h.mem := by
  unfold Hw.noteVerdict
  split <;> rfl

theorem Hw.clearRequest_mem : (h.clearRequest x k).mem = h.mem := by
  unfold Hw.clearRequest
  split <;> rfl

theorem Hw.completeCal_mem : (h.completeCal x ok k).mem = h.mem := by
  rw [Hw.completeCal, Hw.clearRequest_mem, Hw.noteVerdict_mem, Hw.noteResult_mem]
  rfl

theorem Hw.noteResult_slice : (h.noteResult x ok k).slice x = h.slice x := by
  unfold Hw.noteResult
  dsimp only
  split <;> rfl

theorem Hw.clearRequest_slice : (h.clearRequest x k).slice x = h.slice x := by
  unfold Hw.clearRequest
  split <;> rfl

theorem Hw.noteVerdict_cal : ((h.noteVerdict x ok).slice x).cal = (h.slice x).cal := by
  unfold Hw.noteVerdict
  split
  · rw [Hw.set_slice, Hw.synthTo_slice, Hw.set_slice]
  · rw [Hw.synthTo_slice, Hw.set_slice]

theorem Hw.noteVerdict_calWaits : ((h.noteVerdict x ok).slice x).calWaits = (h.slice x).calWaits := by
  unfold Hw.noteVerdict
  split
  · rw [Hw.set_slice, Hw.synthTo_slice, Hw.set_slice]
  · rw [Hw.synthTo_slice, Hw.set_slice]

theorem Hw.completeCal_cal : ((h.completeCal x ok k).slice x).cal = none := by
  rw [Hw.completeCal, Hw.clearRequest_slice, Hw.noteVerdict_cal, Hw.noteResult_slice, Hw.endCal, Hw.modSlice_slice]

theorem Hw.completeCal_calWaits : ((h.completeCal x ok k).slice x).calWaits = (h.slice x).calWaits := by
  rw [Hw.completeCal, Hw.clearRequest_slice, Hw.noteVerdict_calWaits, Hw.noteResult_slice, Hw.endCal, Hw.modSlice_slice]

theorem Hw.clearRequest_get {g : RF} (hg : apart (R.RFS_CAL_STAT_REQ_TEMP x) g) : (h.clearRequest x k).get g = h.get g := by
  unfold Hw.clearRequest
  split
  · exact Hw.get_set_apart _ _ _ _ hg
  · rfl

theorem Hw.clearRequest_of_forced {k : Calibration} (hk : k.forced = true) :
    (h.clearRequest x k).get (R.RFS_CAL_STAT_REQ_TEMP x) = 0 := by
  have hclear : (k.forced || decide (h.calDistance x < 4 * h.get (R.RFS_CAL_CTL_THRESH x))) = true := by simp [hk]
  rw [Hw.clearRequest, if_pos hclear, Hw.get_set_const _ rfl]

theorem Hw.noteVerdict_get {g : RF} (hv : apart (R.RFS_CAL_STAT_VALID x) g) (hg : g.addr ≠ R.RFS_SYNTH x) :
    (h.noteVerdict x ok).get g = h.get g := by
  unfold Hw.noteVerdict
  split
  · rw [Hw.get_set_apart _ _ _ _ (.inl (Ne.symm hg)), Hw.synthTo_get_apart _ _ _ (.inl (Ne.symm hg)),
      Hw.get_set_apart _ _ _ _ hv]
  · rw [Hw.synthTo_get_apart _ _ _ (.inl (Ne.symm hg)), Hw.get_set_apart _ _ _ _ hv]

variable {ok} in
theorem Hw.noteVerdict_of_none (hok : ok = 0) : (h.noteVerdict x ok).get (R.RFS_CAL_STAT_VALID x) = 0 ∧
    (h.noteVerdict x ok).get (R.RFS_SYNTH_STATE x) = synFault ∧
    (h.noteVerdict x ok).get (R.RFS_SYNTH_FAULT_EV x) = 1 := by
  rw [Hw.noteVerdict, if_pos hok]
  refine ⟨?_, ?_, Hw.get_set_const _ rfl⟩
  · rw [Hw.get_set_apart _ _ _ _ (apart_of_offsets rfl rfl rfl), Hw.synthTo_get_apart _ _ _ (apart_of_offsets rfl rfl rfl),
      Hw.get_set_const _ rfl]
  · rw [Hw.get_set_apart _ _ _ _ (apart_of_bits rfl), Hw.synthTo_state _ _ (by decide)]

variable {ok} in
theorem Hw.noteVerdict_of_some (hok : ok ≠ 0) : (h.noteVerdict x ok).get (R.RFS_CAL_STAT_VALID x) = 1 ∧
    (h.noteVerdict x ok).get (R.RFS_SYNTH_STATE x) = synReady := by
  rw [Hw.noteVerdict, if_neg hok]
  refine ⟨?_, Hw.synthTo_state _ _ (by decide)⟩
  rw [Hw.synthTo_get_apart _ _ _ (apart_of_offsets rfl rfl rfl), Hw.get_set_const _ rfl]

theorem Hw.noteResult_get {g : RF} (hg : apart (R.RFS_CAL_STAT_FAIL_EV x) g) : (h.noteResult x ok k).get g =
    (((h.set (R.RFS_CAL_STAT_DONE_EV x) 1).setI (R.RFS_CAL_STAT_T_CAL x) k.temp).set (R.RFS_CAL_STAT_CHAIN_OK x) ok).get g := by
  unfold Hw.noteResult
  dsimp only
  split
  · rfl
  · exact Hw.get_set_apart _ _ _ _ hg

theorem Hw.noteResult_done : (h.noteResult x ok k).get (R.RFS_CAL_STAT_DONE_EV x) = 1 := by
  rw [Hw.noteResult_get _ _ _ _ (apart_of_bits rfl), Hw.get_set_apart _ _ _ _ (apart_of_bits rfl),
    Hw.get_setI_apart _ _ _ _ (apart_of_bits rfl), Hw.get_set_const _ rfl]

variable {ok k} in
theorem Hw.noteResult_tCal (hlo : -512 ≤ k.temp) (hhi : k.temp ≤ 511) :
    (h.noteResult x ok k).getI (R.RFS_CAL_STAT_T_CAL x) = k.temp := by
  rw [Hw.getI_congr ((Hw.noteResult_get _ _ _ _ (apart_of_bits rfl)).trans
    (Hw.get_set_apart _ _ _ _ (apart_of_bits rfl)))]
  exact Hw.getI_setI_self (n := 9) _ (fits_of_bits rfl) rfl (by omega) (by omega)

variable {ok k} in
theorem Hw.noteResult_chainOk (hok : ok < 256) : (h.noteResult x ok k).get (R.RFS_CAL_STAT_CHAIN_OK x) = ok := by
  rw [Hw.noteResult_get _ _ _ _ (apart_of_bits rfl)]
  exact Hw.get_set_lt _ _ _ (fits_of_bits rfl) hok

variable {ok k} in
theorem Hw.noteResult_failed (hok : ok ≠ chainMask x) : (h.noteResult x ok k).get (R.RFS_CAL_STAT_FAIL_EV x) = 1 := by
  unfold Hw.noteResult
  rw [if_neg hok, Hw.get_set_const _ rfl]

end

theorem calStat_not_mem_retuneRegs (x : Fin 3) : R.RFS_CAL_STAT x ∉ retuneRegs x := by
  intro hm
  simp only [retuneRegs, List.mem_cons, List.not_mem_nil, or_false] at hm
  unfold R.RFS_CAL_STAT R.RFS_NCO_RX_ACT_LO R.RFS_NCO_RX_ACT_HI R.RFS_NCO_TX_ACT_LO R.RFS_NCO_TX_ACT_HI R.RFS_RETUNE at hm
  omega

theorem synth_not_mem_retuneRegs (x : Fin 3) : R.RFS_SYNTH x ∉ retuneRegs x := by
  intro hm
  simp only [retuneRegs, List.mem_cons, List.not_mem_nil, or_false] at hm
  unfold R.RFS_SYNTH R.RFS_NCO_RX_ACT_LO R.RFS_NCO_RX_ACT_HI R.RFS_NCO_TX_ACT_LO R.RFS_NCO_TX_ACT_HI R.RFS_RETUNE at hm
  omega

theorem gives_calibrationComplete (hup : s.hw.mainUp = true) {fails : BitVec 8} {k : Calibration}
    (hk : (s.hw.slice x).cal = some k) (hstart : k.starting = false) (hlo : -512 ≤ k.temp) (hhi : k.temp ≤ 511) :
    Gives (.calibrationComplete x fails) s fun h =>
      h.get (R.RFS_CAL_STAT_DONE_EV x) = 1 ∧ h.getI (R.RFS_CAL_STAT_T_CAL x) = k.temp ∧
        (∀ c < 8, (h.get (R.RFS_CAL_STAT_CHAIN_OK x)).testBit c = (chainExists x c && !fails.getLsbD c)) ∧
        ((∃ c < 8, chainExists x c = true ∧ fails.getLsbD c = true) → h.get (R.RFS_CAL_STAT_FAIL_EV x) = 1) ∧
        ((∀ c < 8, chainExists x c = true → fails.getLsbD c = true) →
          h.get (R.RFS_CAL_STAT_VALID x) = 0 ∧ h.synth x = synFault ∧ h.get (R.RFS_SYNTH_FAULT_EV x) = 1 ∧
            (h.slice x).cal = none) ∧
        ((∃ c < 8, chainExists x c = true ∧ fails.getLsbD c = false) →
          h.get (R.RFS_CAL_STAT_VALID x) = 1 ∧
            ((∀ g : Bool, (s.hw.slice x).calWaits ≠ some (true, g)) → h.synth x = synReady ∧ (h.slice x).cal = none)) ∧
        (k.forced = true → h.get (R.RFS_CAL_STAT_REQ_TEMP x) = 0) ∧ MemKept s.hw h := by
  let ok := okChains x fails
  let r := (s.hw.endCal x k).noteResult x ok k
  let a := (s.hw.completeCal x ok k).afterCal x
  have hstat {g : RF} (ha : g.addr = R.RFS_CAL_STAT x) (hg : apart (R.RFS_CAL_STAT_STATE x) g) :
      (a.nextCal x ok).get g = (s.hw.completeCal x ok k).get g := by
    have hs : sliceField g := sliceField_of_offset ha rfl
    have hsynth : g.addr ≠ R.RFS_SYNTH x := by simp [ha, R.RFS_CAL_STAT, R.RFS_SYNTH]
    have hcnt : g.addr ≠ R.RFS_EVT_CNT1 x := by simp [ha, R.RFS_CAL_STAT, R.RFS_EVT_CNT1]
    rw [Hw.nextCal_get _ _ _ hs hg hsynth hcnt, Hw.afterCal_get _ _ hs (ha ▸ calStat_not_mem_retuneRegs x) hg]
  have hres {g : RF} (ha : g.addr = R.RFS_CAL_STAT x) (hg : apart (R.RFS_CAL_STAT_STATE x) g)
      (hr : apart (R.RFS_CAL_STAT_REQ_TEMP x) g) (hv : apart (R.RFS_CAL_STAT_VALID x) g) :
      (a.nextCal x ok).get g = r.get g := by
    have hsynth : g.addr ≠ R.RFS_SYNTH x := by simp [ha, R.RFS_CAL_STAT, R.RFS_SYNTH]
    rw [hstat ha hg, Hw.completeCal, Hw.clearRequest_get _ _ _ hr, Hw.noteVerdict_get _ _ _ hv hsynth]
  have hvalid : (a.nextCal x ok).get (R.RFS_CAL_STAT_VALID x) = (r.noteVerdict x ok).get (R.RFS_CAL_STAT_VALID x) := by
    rw [hstat rfl (apart_of_bits rfl), Hw.completeCal, Hw.clearRequest_get _ _ _ (apart_of_bits rfl)]
  have hsyn {g : RF} (ha : g.addr = R.RFS_SYNTH x) : a.get g = (r.noteVerdict x ok).get g := by
    rw [Hw.afterCal_get _ _ (sliceField_of_offset ha rfl) (ha ▸ synth_not_mem_retuneRegs x) (apart_of_offsets rfl ha rfl),
      Hw.completeCal, Hw.clearRequest_get _ _ _ (apart_of_offsets rfl ha rfl)]
  have hcal : (a.slice x).cal = none := by rw [Hw.afterCal_cal, Hw.completeCal_cal]
  have hwaits : (a.slice x).calWaits = (s.hw.slice x).calWaits := by rw [Hw.afterCal_calWaits, Hw.completeCal_calWaits]
  refine gives_of_effect_eq (e := execCalibrationComplete x fails s) (h := a.nextCal x ok) rfl rfl hup ?_
    ⟨?_, ?_, fun c hc => ?_, ?_, fun hf => ?_, ?_, fun hf => ?_, MemKept.canon (.of_mem ?_)⟩
  · simp only [hk, hstart]
    rfl
  · rw [Hw.canon_get, hres rfl (apart_of_bits rfl) (apart_of_bits rfl) (apart_of_bits rfl), Hw.noteResult_done]
  · rw [Hw.getI, Hw.canon_get, hres rfl (apart_of_bits rfl) (apart_of_bits rfl) (apart_of_bits rfl)]
    exact Hw.noteResult_tCal _ x hlo hhi
  · rw [Hw.canon_get, hres rfl (apart_of_bits rfl) (apart_of_bits rfl) (apart_of_bits rfl),
      Hw.noteResult_chainOk _ _ (okChains_lt _ _), testBit_okChains_of_lt _ _ hc]
  · rintro ⟨c, hc, he, hf⟩
    rw [Hw.canon_get, hres rfl (apart_of_bits rfl) (apart_of_bits rfl) (apart_of_bits rfl),
      Hw.noteResult_failed _ _ (okChains_ne_of_failed hc he hf)]
  · have hok : ok = 0 := okChains_eq_zero hf
    obtain ⟨hv, hstate, hev⟩ := Hw.noteVerdict_of_none r x hok
    rw [Hw.canon_get, Hw.synth, Hw.canon_get, Hw.canon_get, Hw.canon_slice, hvalid, Hw.nextCal_of_none _ _ (.inl hok),
      hsyn rfl, hsyn rfl]
    exact ⟨hv, hstate, hev, hcal⟩
  · rintro ⟨c, hc, he, hf⟩
    obtain ⟨hv, hstate⟩ := Hw.noteVerdict_of_some r x (okChains_ne_zero hc he hf)
    refine ⟨hvalid.trans hv, fun hn => ?_⟩
    rw [Hw.synth, Hw.canon_get, Hw.canon_slice, Hw.nextCal_of_none _ _ (.inr (hwaits ▸ hn)), hsyn rfl]
    exact ⟨hstate, hcal⟩
  · rw [Hw.canon_get, hstat rfl (apart_of_bits rfl), Hw.completeCal, Hw.clearRequest_of_forced _ _ hf]
  · rw [Hw.nextCal_mem, Hw.afterCal_mem, Hw.completeCal_mem]

/-- Settles O9: each command's effect is known, and the rules of the registers written, the synthesiser and the retune that
waits say what it leaves of the calibration's own. -/
theorem temperatureAndCalibration : Obligations.TemperatureAndCalibration := by
  intro s hup
  exact ⟨fun x v => gives_calStart_rejected hup, fun x v => gives_calStart_stored hup, fun x t d => gives_tempSample hup,
    fun x full forced => gives_calibrationBegin hup, fun x fails k => gives_calibrationComplete hup⟩

end Sys2Proof.Machine
end

section
/-!
SUPPORT. Planning and forming an exchange leaves the slices as they are (R171, R214): the frames, the queues, Welt's own
records, the registers and Shank's error change, and no more.
-/
namespace Sys2Proof.Machine
variable (h : Hw)

/-! ### Frames, buffers, queues and the bus -/

@[simp] theorem Hw.count40_slices (lo hi half : RF) (n : Nat) : (h.count40 lo hi half n).slices = h.slices := by
  unfold Hw.count40
  dsimp only
  split <;> simp

@[simp] theorem Hw.shankError_slices (m a k : Nat) (w : Bool) : (h.shankError m a k w).slices = h.slices := by
  unfold Hw.shankError
  dsimp only
  split <;> simp

@[simp] theorem Hw.dramFinding_slices (a : Nat) (u : Bool) : (h.dramFinding a u).slices = h.slices := by
  unfold Hw.dramFinding
  dsimp only
  split <;> simp

@[simp] theorem Hw.busRead_slices (m a n : Nat) : (h.busRead m a n).1.slices = h.slices := by
  unfold Hw.busRead
  split
  · simp
  · split <;> simp

@[simp] theorem Hw.followLinks_slices (p a n : Nat) : (h.followLinks p a n).1.slices = h.slices := by
  fun_induction Hw.followLinks h p a n with
  | case1 | case2 => rfl
  | case3 h a n k heq | case4 h a n k w heq k' l heq' ih | case5 h a n k w heq k' heq' ih =>
    have hread := h.busRead_slices 19 (h.linkAddr p (h.bufferIndex p a)) 4
    simp_all

@[simp] theorem Hw.chainOf_slices (f : Frame) : (h.chainOf f).1.slices = h.slices := by
  unfold Hw.chainOf
  split <;> simp

@[simp] theorem Hw.readLeaving_slices (m : Nat) (f : Frame) : (h.readLeaving m f).1.slices = h.slices := by
  have hchain := h.chainOf_slices f
  unfold Hw.readLeaving
  split
  · simp_all
  · dsimp only
    split
    · split <;> simp_all
    · simp_all

@[simp] theorem Hw.airReadable_slices (l id : Nat) : (h.airReadable l id).1.slices = h.slices :=
  h.readLeaving_slices _ _

@[simp] theorem Hw.setFree_slices (p n : Nat) : (h.setFree p n).slices = h.slices := by
  unfold Hw.setFree
  dsimp only
  split <;> simp

@[simp] theorem Hw.returnBuffers_slices (p : Nat) (bufs : List Nat) : (h.returnBuffers p bufs).slices = h.slices := by
  simp [Hw.returnBuffers]

@[simp] theorem Hw.freeFrame_slices (id : Nat) : (h.freeFrame id).slices = h.slices := by simp [Hw.freeFrame]

@[simp] theorem Hw.strictBytes_slices (q : Nat) : (h.strictBytes q).slices = h.slices := by
  unfold Hw.strictBytes
  split <;> simp

@[simp] theorem Hw.takeFrom_slices (q id : Nat) : (h.takeFrom q id).slices = h.slices := by
  simp [Hw.takeFrom, Hw.modFrame, Hw.setFrame, Hw.setQueue]

/-! ### MPDUs -/

@[simp] theorem Hw.tsqWrite_slices (p : Nat) (e : TsqEntry) : (h.tsqWrite p e).slices = h.slices := by
  unfold Hw.tsqWrite
  dsimp only
  split <;> simp

@[simp] theorem Hw.twoStep_slices (p : Nat) (f : Frame) (t : Stamp) (v d a : Bool) (n : Nat) :
    (h.twoStep p f t v d a n).slices = h.slices := by
  unfold Hw.twoStep
  split <;> simp

@[simp] theorem Hw.countSta_slices (s n k : Nat) : (h.countSta s n k).slices = h.slices := by simp [Hw.countSta]

@[simp] theorem Hw.dropAir_slices (l : Nat) (sta : Option Nat) (id : Nat) : (h.dropAir l sta id).slices = h.slices := by
  cases sta <;> simp [Hw.dropAir, Hw.forgetMpdu]

@[simp] theorem Hw.slideWindow_slices (s t : Nat) (b : Bool) : (h.slideWindow s t b).slices = h.slices := by
  unfold Hw.slideWindow
  split <;> rfl

@[simp] theorem Hw.dropMpdu_slices (l id : Nat) (m : Mpdu) : (h.dropMpdu l id m).slices = h.slices := by
  unfold Hw.dropMpdu
  cases m.sta with
  | none => simp
  | some s => dsimp only; split <;> simp

@[simp] theorem Hw.dropPulled_slices (l : Nat) (sta : Option Nat) (id : Nat) :
    (h.dropPulled l sta id).slices = h.slices := by
  unfold Hw.dropPulled
  split <;> simp

theorem Hw.nextPn_slices {s : Option Nat} {k : Option MpduKey} {r : Hw × Nat} (hr : h.nextPn s k = some r) :
    r.1.slices = h.slices := by
  cases k with
  | none => cases hr; rfl
  | some k =>
    cases s with
    | none =>
      simp only [Hw.nextPn, Option.ite_none_left_eq_some] at hr
      cases hr.2
      rfl
    | some s =>
      simp only [Hw.nextPn, Option.ite_none_left_eq_some] at hr
      cases hr.2
      rfl

theorem Hw.newMpdu_slices {h' : Hw} {id s t : Nat} (hm : h.newMpdu id s t = some h') : h'.slices = h.slices := by
  simp only [Hw.newMpdu, Option.map_eq_some_iff] at hm
  obtain ⟨r, hr, rfl⟩ := hm
  exact h.nextPn_slices hr

/-! ### Pulling and forming -/

theorem Hw.setExchange_slices (l : Nat) (e : Exchange) : (h.setExchange l e).slices = h.slices := rfl

@[simp] theorem Hw.pull_slices (l s t n : Nat) (ids : List Nat) : (h.pull l s t n ids).1.slices = h.slices := by
  induction ids generalizing h n with
  | nil => rfl
  | cons id rest ih =>
    unfold Hw.pull
    split
    · rfl
    · extract_lets q take
      have htake (k : Hw) : (take k).1.slices = k.slices := by
        have hread := k.airReadable_slices l id
        simp only [take]
        split <;> simp_all
      split
      · simp [ih]
      · split
        · simp [ih]
        · split
          · split
            · exact htake h
            · rfl
          · split
            · rfl
            · split
              · next k hk => exact (htake k).trans (h.newMpdu_slices hk)
              · simp [ih]

@[simp] theorem Hw.pullTid_slices (l s t fit : Nat) : (h.pullTid l s t fit).1.slices = h.slices := h.pull_slices _ _ _ _ _

@[simp] theorem Hw.pullListed_slices (l : Nat) (o : Occurrence) (s fit : Nat) :
    (h.pullListed l o s fit).1.slices = h.slices := by
  refine List.foldlRecOn (motive := fun r : Hw × List Nat => r.1.slices = h.slices) _ _ rfl fun r hr t _ => ?_
  dsimp only
  split
  · exact hr
  · exact (r.1.pullTid_slices l s t _).trans hr

@[simp] theorem Hw.muUser_slices (l w : Nat) : (h.muUser l w).1.slices = h.slices := by
  unfold Hw.muUser
  dsimp only
  split <;> rfl

@[simp] theorem Hw.listedExchange_slices (l : Nat) (o : Occurrence) (k : ExchangeKind) (ids words : List Nat) (resp : Bool) :
    (h.listedExchange l o k ids words resp).1.slices = h.slices :=
  List.foldlRecOn (motive := fun r : Hw × List MuUser => r.1.slices = h.slices) words _ rfl
    fun r hr w _ => (r.1.muUser_slices l w).trans hr

/-- A pull in the pattern of a match. -/
theorem Hw.slices_of_pull {k : Hw} {l s t n : Nat} {ids r : List Nat} (hp : h.pull l s t n ids = (k, r)) :
    k.slices = h.slices := (congrArg (·.1.slices) hp).symm.trans (h.pull_slices l s t n ids)

theorem Hw.slices_of_pullListed {k : Hw} {l s fit : Nat} {o : Occurrence} {r : List Nat}
    (hp : h.pullListed l o s fit = (k, r)) : k.slices = h.slices :=
  (congrArg (·.1.slices) hp).symm.trans (h.pullListed_slices l o s fit)

theorem Hw.planReserved_slices (l fit : Nat) (o : Occurrence) : (h.planReserved l fit o).1.slices = h.slices := by
  unfold Hw.planReserved
  extract_lets n left some'
  split
  · split
    · rfl
    · extract_lets w
      split
      · next hp => exact h.slices_of_pullListed hp
      · next k ids _ hp => exact (Hw.listedExchange_slices k l o .data ids [w] true).trans (h.slices_of_pullListed hp)
  · split
    next k ids ws hf =>
    have hfold : k.slices = h.slices := by
      refine (congrArg (·.1.slices) hf).symm.trans ?_
      refine List.foldlRecOn (motive := fun r : Hw × List Nat × List Nat => r.1.slices = h.slices) _ _ rfl fun r hr w _ => ?_
      dsimp only
      split
      · next hp => exact (r.1.slices_of_pullListed hp).trans hr
      · next hp => exact (r.1.slices_of_pullListed hp).trans hr
    split
    · exact hfold
    · exact (k.listedExchange_slices l o .mu ids ws true).trans hfold
  · split
    · rfl
    · exact h.listedExchange_slices l o .trigger [] (o.list.filter fun w => h.triggerable l o (w % 1024)) false
  · split
    · rfl
    · exact h.listedExchange_slices l o .beacon [] [] false
  · rfl

theorem Hw.planListed_slices (l fit : Nat) (o : Occurrence) : (h.planListed l fit o).slices = h.slices := by
  have hplan := h.planReserved_slices l fit o
  unfold Hw.planListed
  split
  · dsimp only
    split <;> exact hplan
  · rfl

theorem Hw.planPoll_slices (l : Nat) : (h.planPoll l).slices = h.slices := by
  unfold Hw.planPoll
  split
  · rfl
  · split
    · rfl
    · extract_lets k
      split
      · rfl
      · split
        · next hp => exact k.slices_of_pull hp
        · next hp => exact (Hw.setExchange_slices _ _ _).trans (k.slices_of_pull hp)

theorem Hw.planTxop_slices (l fit ns : Nat) : (h.planTxop l fit ns).slices = h.slices := by
  unfold Hw.planTxop
  split
  · rfl
  · split
    · split
      · split
        · next hp => exact h.slices_of_pull hp
        · next hp => exact (Hw.setExchange_slices _ _ _).trans (h.slices_of_pull hp)
      · rfl
    · rfl

/-- What link `l` sends next is planned without a change of the slices. -/
theorem Hw.planNext_slices (l fit ns : Nat) : (h.planNext l fit ns).slices = h.slices := by
  unfold Hw.planNext
  split
  · rfl
  · split
    · split
      · exact h.planPoll_slices l
      · exact h.planListed_slices l fit _
    · split
      · rfl
      · dsimp only
        split
        · exact h.planPoll_slices l
        · exact (Hw.planTxop_slices _ l fit ns).trans (h.planPoll_slices l)

end Sys2Proof.Machine
end

section
/-!
SUPPORT. Transmit commands, held commands and their deadline, case by case (R97, R98, R114, R138, R139, R214).
-/
namespace Sys2Proof.Machine

/-! ### A PPDU accepted, and one held -/

section
variable (h : Hw) (x : Nat) (p : TxPpdu)

theorem Hw.beginTx_slice : (h.beginTx x p).slice x = { h.slice x with tx := some p } :=
  h.modSlice_slice x fun s => { s with tx := some p }

theorem Hw.beginTx_welt : (h.beginTx x p).welt = h.welt := rfl

theorem Hw.beginTx_get (g : RF) : (h.beginTx x p).get g = h.get g := by
  rw [Hw.beginTx, Hw.startAt_get, Hw.startAt_get, Hw.startAt_get, Hw.startAt_get]
  rfl

theorem Hw.beginTx_trLead : tget (h.beginTx x p).timers (.trLead x) = some (p.t0 - p.trLead) := by
  simp [Hw.beginTx, tget_startAt]

theorem Hw.beginTx_paLead :
    tget (h.beginTx x p).timers (.paLead x) = some (p.t0 - 10 * h.get (R.RFS_FE_TIME_PA_LEAD x)) := by
  simp [Hw.beginTx, tget_startAt]
  rfl

theorem Hw.beginTx_paLag : tget (h.beginTx x p).timers (.paLag x) = some (p.t1 + p.paLag) := by
  simp [Hw.beginTx, tget_startAt]

theorem Hw.beginTx_trLag : tget (h.beginTx x p).timers (.trLag x) = some (p.t1 + p.trLag) := by
  simp [Hw.beginTx, tget_startAt]

theorem Hw.holdTx_slice : (h.holdTx x p).slice x = { h.slice x with tx := none, held := some ⟨p, p.deadline⟩ } :=
  h.modSlice_slice x fun s => { s with tx := none, held := some ⟨p, p.deadline⟩ }

theorem Hw.holdTx_timer : tget (h.holdTx x p).timers (.hold x) = some p.deadline := by
  rw [Hw.holdTx, tget_startAt, if_pos rfl]

end

/-! ### TRANSMIT_COMMAND (R97, R98, R138, R171, R214) -/

section
variable {h : Hw} {x lead len resp fit : Nat} {shape : PpduShape} {chains : Nat} {latest : Option Nat}

/-- A slice takes a transmit command when it holds none, transmits nothing, is in no quiet interval and supports the
format. -/
def Hw.takesCommand (h : Hw) (x : Nat) (shape : PpduShape) : Prop :=
  (h.slice x).held = none ∧ h.transmitting x = false ∧ h.inQuiet x = false ∧ formatSupported x false shape = true

theorem Hw.takesCommand.not_refuses (ht : h.takesCommand x shape) :
    ¬ ((h.slice x).held.isSome || h.transmitting x || h.inQuiet x || !formatSupported x false shape) = true := by
  obtain ⟨hheld, htx, hquiet, hformat⟩ := ht
  simp [hheld, htx, hquiet, hformat]

/-- With no response due, what is planned next is transmitted: a formed exchange, or the PPDU given. -/
theorem Hw.transmitCommand_bare (ht : h.takesCommand x shape)
    (hr : ((h.weltLink x).response.filter fun r => !r.issued) = none)
    (he : (h.planNext x fit (lead + len + resp)).exchange x = none) :
    h.transmitCommand x lead len shape chains resp fit latest =
      (h.planNext x fit (lead + len + resp)).transmitBare x lead len shape chains resp latest := by
  rw [Hw.transmitCommand, if_neg ht.not_refuses]
  simp only [hr, he]

theorem Hw.dropClosed_of_no_frames {e : Exchange} (hf : e.frames = []) : h.dropClosed x e = (h, e) := by
  rw [Hw.dropClosed, hf, List.foldl_nil]

theorem Hw.transmitCommand_formed {e : Exchange} (ht : h.takesCommand x shape)
    (hr : ((h.weltLink x).response.filter fun r => !r.issued) = none)
    (he : (h.planNext x fit (lead + len + resp)).exchange x = some e) (hi : e.issued = false) (ha : e.awaits = false)
    (hf : e.frames = []) : h.transmitCommand x lead len shape chains resp fit latest =
      (h.planNext x fit (lead + len + resp)).transmitExchange x lead len shape chains resp latest e := by
  rw [Hw.transmitCommand, if_neg ht.not_refuses]
  simp only [hr, he, hi, ha, Hw.dropClosed_of_no_frames hf, hf]
  rfl

/-- The response `r` is issued. -/
def Hw.issueResponse (h : Hw) (x : Nat) (r : Response) : Hw :=
  h.modWeltLink x fun w => { w with response := some { r with issued := true } }

theorem Hw.transmitCommand_response {r : Response} {p : TxPpdu} (ht : h.takesCommand x shape)
    (hr : (h.weltLink x).response = some r) (hi : r.issued = false) (hg : h.granted x = false)
    (ho : h.get (R.RFS_FSTAT_STATE x) = stOpen)
    (hp : p = h.newPpdu x (max r.due (h.et + 10 * h.get (R.RFS_FE_TIME_TR_LEAD x))) len (Nat.land chains (h.txChains x))
      shape.width resp false true latest) (hc : p.chains ≠ 0) (hready : h.txReady x p.t0 = true) :
    h.transmitCommand x lead len shape chains resp fit latest = (h.issueResponse x r).beginTx x p := by
  have hdue : ((h.weltLink x).response.filter fun r => !r.issued) = some r := by simp [hr, hi]
  subst hp
  rw [Hw.transmitCommand, if_neg ht.not_refuses]
  simp only [hdue, hg]
  refine (if_neg ?_).trans (if_pos hready)
  rintro (h1 | h1 | h1)
  · exact absurd (hg.symm.trans h1) (by decide)
  · exact hc h1
  · exact h1 ho

/-! ### A PPDU of a command, and a formed exchange -/

theorem Hw.transmitBare_of_not_open (ho : h.get (R.RFS_FSTAT_STATE x) ≠ stOpen) :
    h.transmitBare x lead len shape chains resp latest = { h with txStatus := kput h.txStatus x .refused } := if_pos ho

theorem Hw.transmitBare_of_fits {p : TxPpdu} (ho : h.get (R.RFS_FSTAT_STATE x) = stOpen)
    (hp : p = h.newPpdu x (h.et + max lead (10 * h.get (R.RFS_FE_TIME_TR_LEAD x))) len (Nat.land chains (h.txChains x))
      shape.width resp false false latest) (hc : p.chains ≠ 0) (hfit : h.ppduFits x p.t0 p = true) :
    h.transmitBare x lead len shape chains resp latest =
      if h.txReady x p.t0 then h.beginTx x p else h.holdTx x p := by
  subst hp
  refine (if_neg (not_not.mpr ho)).trans (if_neg ?_)
  rintro (h1 | h1)
  · exact hc h1
  · exact absurd (hfit.symm.trans ((Bool.not_eq_true' _).mp h1)) (by decide)

theorem Hw.transmitExchange_of_ready {e : Exchange} {p : TxPpdu} (hrts : e.rts = false) (hf : e.frames = [])
    (hk : e.kind ≠ .trigger) (ho : h.get (R.RFS_FSTAT_STATE x) = stOpen)
    (hp : p = h.newPpdu x (max (h.et + 10 * h.get (R.RFS_FE_TIME_TR_LEAD x)) ((h.firstInstant x e).getD (h.et + lead))) len
      (Nat.land chains (h.txChains x)) (e.width.getD shape.width) resp e.reserved false latest) (hc : p.chains ≠ 0)
    (hend : h.nstrEnd x p.t0 p.t1 false = some p.t1) (hres : e.reserved = true ∨ h.nstrReserved x p.t1 = false)
    (hfit : h.ppduFits x p.t0 p = true) (hready : h.txReady x p.t0 = true) :
    h.transmitExchange x lead len shape chains resp latest e = (h.setExchange x { e with issued := true }).beginTx x p := by
  have hkind : (e.kind == .trigger) = false := by cases hek : e.kind <;> simp_all
  subst hp
  rw [Hw.transmitExchange]
  simp only [hrts, hf, hkind, Bool.false_eq_true, if_false, List.isEmpty_nil, Bool.not_true, Bool.false_and, Nat.add_zero]
  rw [if_neg (not_not.mpr ho)]
  change h.nstrEnd x (max _ _) _ false = some _ at hend
  simp only [hend]
  refine (if_neg ?_).trans ((if_neg ?_).trans (if_pos hready))
  · exact fun h1 => absurd (hfit.symm.trans ((Bool.not_eq_true' _).mp h1)) (by decide)
  · rintro (h1 | h1)
    · exact hc h1
    · obtain ⟨h2, h3⟩ := (Bool.and_eq_true _ _).mp h1
      exact hres.elim (fun h4 => by simp [h4] at h2) fun h4 => absurd (h4.symm.trans h3) (by decide)

end

/-! ### Held commands and their deadline (R97, R98, R138, R139) -/

section
variable (h : Hw) (x : Nat)

/-- The slice holds no command. -/
def Hw.dropCommand : Hw := (h.stop (.hold x)).modSlice x fun s => { s with held := none }

theorem Hw.dropCommand_held : ((h.dropCommand x).slice x).held = none := by rw [Hw.dropCommand, Hw.modSlice_slice]

theorem Hw.sendHeld_eq (c : HeldTx) : h.sendHeld x c = ((h.dropCommand x).bump (R.RFS_EVT_CNT0_HELD_SENT x)).beginTx x
    { c.ppdu with t0 := h.heldStart x c.ppdu, t1 := h.heldStart x c.ppdu + (c.ppdu.t1 - c.ppdu.t0) } := rfl

variable {h x}

/-- Welt is told the status of a held command of its own. -/
theorem Hw.failHeld_of_command {c : HeldTx} (hc : (h.slice x).held = some c) (hr : c.ppdu.response = false) (st : TxStatus) :
    h.failHeld x st = { h.dropCommand x with txStatus := kput h.txStatus x st } := by
  simp only [Hw.failHeld, hc, Option.any_some, hr]
  rfl

variable (h x)

theorem Hw.failHeld_cases (st : TxStatus) :
    h.failHeld x st = h.dropCommand x ∨ h.failHeld x st = { h.dropCommand x with txStatus := kput h.txStatus x st } := by
  unfold Hw.failHeld
  dsimp only
  split
  · exact .inl rfl
  · exact .inr rfl

theorem Hw.failHeld_held (st : TxStatus) : ((h.failHeld x st).slice x).held = none := by
  obtain e | e := h.failHeld_cases x st <;> rw [e] <;> exact h.dropCommand_held x

theorem Hw.failHeld_get (st : TxStatus) (g : RF) : (h.failHeld x st).get g = h.get g := by
  obtain e | e := h.failHeld_cases x st <;> rw [e] <;> rfl

theorem Hw.failHeld_regs (as : List Nat) (st : TxStatus) : RegsKept as h (h.failHeld x st) := by
  obtain e | e := h.failHeld_cases x st <;> rw [e] <;> exact RegsKept.refl as h

theorem Hw.failHeld_mem (st : TxStatus) : (h.failHeld x st).mem = h.mem := by
  obtain e | e := h.failHeld_cases x st <;> rw [e] <;> rfl

/-! A port that does not permit counts the command denied. -/

theorem Hw.cxDenied_rest : RestKept h (h.cxDenied x) :=
  RestKept.foldl _ fun h n => by split <;> rfl

theorem Hw.cxDenied_regs : RegsKept [R.SYS_CX_CNT1 0, R.SYS_CX_CNT1 1, R.SYS_CX_CNT1 2] h (h.cxDenied x) := by
  refine RegsKept.foldl _ fun h n hn => ?_
  have hmem : R.SYS_CX_CNT1 n ∈ [R.SYS_CX_CNT1 0, R.SYS_CX_CNT1 1, R.SYS_CX_CNT1 2] := by
    have hlt : n < 3 := List.mem_range.mp hn
    interval_cases n <;> simp
  split
  · exact (RegsKept.refl _ h).bump (R.SYS_CX_CNT1_DENIED n) 1 hmem
  · exact RegsKept.refl _ h

/-- The deadline of a command that may not go. -/
def Hw.missDeadline (c : HeldTx) : Hw :=
  if !h.txReady x (h.heldStart x c.ppdu) then (h.failHeld x .synthNotReady).bump (R.RFS_EVT_CNT0_NOT_READY x)
  else if !h.cxPermits x then (h.cxDenied x).failHeld x .coexDenied
  else h.failHeld x .refused

/-- The registers in which a missed deadline is counted. -/
def missRegs (x : Nat) : List Nat := [R.RFS_EVT_CNT0 x, R.SYS_CX_CNT1 0, R.SYS_CX_CNT1 1, R.SYS_CX_CNT1 2]

variable (c : HeldTx)

theorem Hw.missDeadline_held : ((h.missDeadline x c).slice x).held = none := by
  unfold Hw.missDeadline
  split_ifs
  · rw [Hw.bump_slice, Hw.failHeld_held]
  · exact Hw.failHeld_held _ x _
  · exact Hw.failHeld_held _ x _

theorem Hw.missDeadline_mem : (h.missDeadline x c).mem = h.mem := by
  unfold Hw.missDeadline
  split_ifs
  · rw [Hw.bump, Hw.set_mem, Hw.failHeld_mem]
  · rw [Hw.failHeld_mem, (h.cxDenied_rest x).mem]
  · exact Hw.failHeld_mem _ x _

theorem Hw.missDeadline_regs : RegsKept (missRegs x) h (h.missDeadline x c) := by
  unfold Hw.missDeadline
  split_ifs
  · exact (h.failHeld_regs x _ _).bump (R.RFS_EVT_CNT0_NOT_READY x) 1 (.head _)
  · exact ((h.cxDenied_regs x).mono (by simp [missRegs])).trans (Hw.failHeld_regs _ x _ _)
  · exact h.failHeld_regs x _ _

variable {h x c}

theorem Hw.missDeadline_of_notReady (hc : (h.slice x).held = some c) (hr : c.ppdu.response = false)
    (hn : h.txReady x (h.heldStart x c.ppdu) = false) :
    kget (h.missDeadline x c).txStatus x = some .synthNotReady ∧ (h.missDeadline x c).get (R.RFS_EVT_CNT0_NOT_READY x) =
      min (h.get (R.RFS_EVT_CNT0_NOT_READY x) + 1) 65535 := by
  rw [Hw.missDeadline, if_pos (by rw [hn]; rfl), Hw.get_bump_self _ _ _ (fits_of_bits rfl), Hw.failHeld_get]
  refine ⟨?_, rfl⟩
  rw [Hw.bump_txStatus, Hw.failHeld_of_command hc hr]
  exact kget_kput_self _ _ _

theorem Hw.missDeadline_of_denied (hc : (h.slice x).held = some c) (hr : c.ppdu.response = false)
    (hready : h.txReady x (h.heldStart x c.ppdu) = true) (hp : h.cxPermits x = false) :
    kget (h.missDeadline x c).txStatus x = some .coexDenied := by
  have hc' : ((h.cxDenied x).slice x).held = some c := by rw [(h.cxDenied_rest x).slice]; exact hc
  rw [Hw.missDeadline, if_neg (by rw [hready]; decide), if_pos (by rw [hp]; rfl), Hw.failHeld_of_command hc' hr]
  exact kget_kput_self _ _ _

theorem Hw.missDeadline_of_permitted (hc : (h.slice x).held = some c) (hr : c.ppdu.response = false)
    (hready : h.txReady x (h.heldStart x c.ppdu) = true) (hp : h.cxPermits x = true) :
    kget (h.missDeadline x c).txStatus x = some .refused := by
  rw [Hw.missDeadline, if_neg (by rw [hready]; decide), if_neg (by rw [hp]; decide), Hw.failHeld_of_command hc hr]
  exact kget_kput_self _ _ _

end

/-! ### The commands -/

section
variable {s : State} {x : Fin 3} {lead len resp fit : Nat} {shape : PpduShape} {chains : BitVec 8} {latest : Option Nat}

theorem gives_transmitCommand_refused {n : Hw} (hup : s.hw.mainUp = true) (ht : s.hw.takesCommand x shape)
    (hr : ((s.hw.weltLink x).response.filter fun r => !r.issued) = none)
    (hn : s.hw.planNext x fit (lead + len + resp) = n) (he : n.exchange x = none) (ho : n.funcState (.slice x) ≠ stOpen) :
    Gives (.transmitCommand x lead len shape chains resp fit latest) s fun h =>
      kget h.txStatus x = some .refused ∧ h.slices = n.slices ∧ h.timers = n.timers := by
  subst hn
  refine gives_of_effect_eq (e := execTransmitCommand x lead len shape chains resp fit latest s) rfl rfl hup
    ((Hw.transmitCommand_bare ht hr he).trans (Hw.transmitBare_of_not_open (Hw.funcState_slice _ x ▸ ho))) ⟨?_, rfl, rfl⟩
  rw [Hw.canon_txStatus]
  exact kget_kput_self _ _ _

/-- The slices are as they were when the exchange is planned. -/
theorem takesCommand_planNext {n : Hw} (ht : s.hw.takesCommand x shape) (hn : s.hw.planNext x fit (lead + len + resp) = n) :
    (n.slice x).held = none := by
  obtain ⟨hheld, -⟩ := ht
  rw [Hw.slice, ← hn, Hw.planNext_slices]
  exact hheld

section
variable {n : Hw} {p : TxPpdu} (hup : s.hw.mainUp = true) (ht : s.hw.takesCommand x shape)
  (hr : ((s.hw.weltLink x).response.filter fun r => !r.issued) = none)
  (hn : s.hw.planNext x fit (lead + len + resp) = n) (he : n.exchange x = none) (ho : n.funcState (.slice x) = stOpen)
  (hp : p = n.newPpdu x (n.et + max lead (10 * n.get (R.RFS_FE_TIME_TR_LEAD x))) len (Nat.land chains.toNat (n.txChains x))
    shape.width resp false false latest) (hc : p.chains ≠ 0) (hfit : n.ppduFits x p.t0 p = true)
include ht hr hn he ho hp hc hfit

theorem transmitCommand_of_fits : s.hw.transmitCommand x lead len shape chains.toNat resp fit latest =
    if n.txReady x p.t0 then n.beginTx x p else n.holdTx x p := by
  subst hn
  exact (Hw.transmitCommand_bare ht hr he).trans
    (Hw.transmitBare_of_fits ((Hw.funcState_slice _ x).symm.trans ho) hp hc hfit)

include hup

theorem gives_transmitCommand_accepted (hready : n.txReady x p.t0 = true) :
    Gives (.transmitCommand x lead len shape chains resp fit latest) s fun h =>
      (h.slice x).tx = some p ∧ (h.slice x).held = none ∧
        tget h.timers (.trLead x) = some (p.t0 - p.trLead) ∧
        tget h.timers (.paLead x) = some (p.t0 - 10 * n.get (R.RFS_FE_TIME_PA_LEAD x)) ∧
        tget h.timers (.paLag x) = some (p.t1 + p.paLag) ∧ tget h.timers (.trLag x) = some (p.t1 + p.trLag) := by
  refine gives_of_effect_eq (e := execTransmitCommand x lead len shape chains resp fit latest s) (h := n.beginTx x p) rfl rfl
    hup ((transmitCommand_of_fits ht hr hn he ho hp hc hfit).trans (if_pos hready)) ⟨?_, ?_, ?_, ?_, ?_, ?_⟩
  · rw [Hw.canon_slice, Hw.beginTx_slice]
  · rw [Hw.canon_slice, Hw.beginTx_slice]
    exact takesCommand_planNext ht hn
  · exact n.beginTx_trLead x p
  · exact n.beginTx_paLead x p
  · exact n.beginTx_paLag x p
  · exact n.beginTx_trLag x p

theorem gives_transmitCommand_held (hready : n.txReady x p.t0 = false) :
    Gives (.transmitCommand x lead len shape chains resp fit latest) s fun h =>
      (h.slice x).held = some ⟨p, p.deadline⟩ ∧ tget h.timers (.hold x) = some p.deadline ∧ (h.slice x).tx = none := by
  refine gives_of_effect_eq (e := execTransmitCommand x lead len shape chains resp fit latest s) (h := n.holdTx x p) rfl rfl
    hup ((transmitCommand_of_fits ht hr hn he ho hp hc hfit).trans (if_neg (by rw [hready]; decide))) ⟨?_, ?_, ?_⟩
  · rw [Hw.canon_slice, Hw.holdTx_slice]
  · exact n.holdTx_timer x p
  · rw [Hw.canon_slice, Hw.holdTx_slice]

end

theorem gives_transmitCommand_formed {n : Hw} {e : Exchange} {p : TxPpdu} (hup : s.hw.mainUp = true)
    (ht : s.hw.takesCommand x shape) (hr : ((s.hw.weltLink x).response.filter fun r => !r.issued) = none)
    (hn : s.hw.planNext x fit (lead + len + resp) = n) (he : n.exchange x = some e) (hi : e.issued = false)
    (ha : e.awaits = false) (hf : e.frames = []) (hrts : e.rts = false) (hk : e.kind ≠ .trigger)
    (hend : n.nstrEnd x p.t0 p.t1 false = some p.t1) (hres : e.reserved = true ∨ n.nstrReserved x p.t1 = false)
    (ho : n.funcState (.slice x) = stOpen)
    (hp : p = n.newPpdu x (max (n.et + 10 * n.get (R.RFS_FE_TIME_TR_LEAD x)) ((n.firstInstant x e).getD (n.et + lead))) len
      (Nat.land chains.toNat (n.txChains x)) (e.width.getD shape.width) resp e.reserved false latest) (hc : p.chains ≠ 0)
    (hfit : n.ppduFits x p.t0 p = true) (hready : n.txReady x p.t0 = true) :
    Gives (.transmitCommand x lead len shape chains resp fit latest) s fun h =>
      (h.slice x).tx = some p ∧ h.exchange x = some { e with issued := true } ∧
        tget h.timers (.trLead x) = some (p.t0 - p.trLead) := by
  subst hn
  refine gives_of_effect_eq (e := execTransmitCommand x lead len shape chains resp fit latest s) rfl rfl hup
    ((Hw.transmitCommand_formed ht hr he hi ha hf).trans (Hw.transmitExchange_of_ready hrts hf hk
      ((Hw.funcState_slice _ x).symm.trans ho) hp hc hend hres hfit hready)) ⟨?_, ?_, ?_⟩
  · rw [Hw.canon_slice, Hw.beginTx_slice]
  · rw [Hw.exchange, Hw.canon_welt, Hw.beginTx_welt]
    exact kget_kput_self _ _ _
  · exact Hw.beginTx_trLead _ x p

theorem gives_transmitCommand_response {r : Response} {p : TxPpdu} (hup : s.hw.mainUp = true)
    (ht : s.hw.takesCommand x shape) (hr : (s.hw.weltLink x).response = some r) (hi : r.issued = false)
    (hg : s.hw.granted x = false) (ho : s.hw.get (R.RFS_FSTAT_STATE x) = stOpen)
    (hp : p = s.hw.newPpdu x (max r.due (s.hw.et + 10 * s.hw.get (R.RFS_FE_TIME_TR_LEAD x))) len
      (Nat.land chains.toNat (s.hw.txChains x)) shape.width resp false true latest) (hc : p.chains ≠ 0)
    (hready : s.hw.txReady x p.t0 = true) :
    Gives (.transmitCommand x lead len shape chains resp fit latest) s fun h =>
      (h.slice x).tx = some p ∧ (h.weltLink x).response = some { r with issued := true } ∧
        tget h.timers (.trLead x) = some (p.t0 - p.trLead) := by
  refine gives_of_effect_eq (e := execTransmitCommand x lead len shape chains resp fit latest s) rfl rfl hup
    (Hw.transmitCommand_response ht hr hi hg ho hp hc hready) ⟨?_, ?_, ?_⟩
  · rw [Hw.canon_slice, Hw.beginTx_slice]
  · rw [Hw.weltLink, Hw.canon_welt, Hw.beginTx_welt]
    exact congrArg WeltLink.response (kgetD_kput_self _ _ _ _)
  · exact Hw.beginTx_trLead _ x p

theorem gives_heldCommandSent {c : HeldTx} (hup : s.hw.mainUp = true) (hc : (s.hw.slice x).held = some c)
    (hgo : s.hw.heldMayGo x c = true) : Gives (.heldCommandSent x) s fun h =>
      (h.slice x).held = none ∧
        h.get (R.RFS_EVT_CNT0_HELD_SENT x) = min (s.hw.get (R.RFS_EVT_CNT0_HELD_SENT x) + 1) 65535 ∧
        (h.slice x).tx = some { c.ppdu with
          t0 := s.hw.heldStart x c.ppdu
          t1 := s.hw.heldStart x c.ppdu + (c.ppdu.t1 - c.ppdu.t0) } ∧
        tget h.timers (.trLead x) = some (s.hw.heldStart x c.ppdu - c.ppdu.trLead) := by
  refine gives_of_effect_eq (e := execHeldCommandSent x s) (h := s.hw.sendHeld x c) rfl rfl hup ?_ ⟨?_, ?_, ?_, ?_⟩
  · simp only [hc]
    exact if_pos hgo
  · rw [Hw.canon_slice, Hw.sendHeld_eq, Hw.beginTx_slice]
    exact s.hw.dropCommand_held x
  · rw [Hw.canon_get, Hw.sendHeld_eq, Hw.beginTx_get, Hw.get_bump_self _ _ _ (fits_of_bits rfl)]
    rfl
  · rw [Hw.canon_slice, Hw.sendHeld_eq, Hw.beginTx_slice]
  · rw [Hw.canon_timers, Hw.sendHeld_eq, Hw.beginTx_trLead]

theorem gives_holdDeadline {c : HeldTx} {d : Nat} {a : Hw} (hup : s.hw.mainUp = true)
    (ht : tget s.hw.timers (.hold x) = some d) (hc : (s.hw.slice x).held = some c)
    (ha : (s.hw.advanceTo d).stop (.hold x) = a) (hgo : a.heldMayGo x c = false) (hr : c.ppdu.response = false) :
    Gives (.holdDeadline x) s fun h =>
      (h.slice x).held = none ∧
        (a.txReady x (a.heldStart x c.ppdu) = false → kget h.txStatus x = some .synthNotReady ∧
          h.get (R.RFS_EVT_CNT0_NOT_READY x) = min (s.hw.get (R.RFS_EVT_CNT0_NOT_READY x) + 1) 65535) ∧
        (a.txReady x (a.heldStart x c.ppdu) = true → a.cxPermits x = false → kget h.txStatus x = some .coexDenied) ∧
        (a.txReady x (a.heldStart x c.ppdu) = true → a.cxPermits x = true → kget h.txStatus x = some .refused) ∧
        RegsKept [R.RFS_EVT_CNT0 x, R.SYS_CX_CNT1 0, R.SYS_CX_CNT1 1, R.SYS_CX_CNT1 2] s.hw h ∧ MemKept s.hw h := by
  subst ha
  have hc' : ((s.hw.arrive d (.hold x)).slice x).held = some c := by rw [Hw.arrive_slice]; exact hc
  refine gives_of_effect_eq (e := execHoldDeadline x s) (h := (s.hw.arrive d (.hold x)).missDeadline x c) rfl rfl hup ?_
    ⟨?_, fun hn => ?_, fun hready hp => ?_, fun hready hp => ?_, ?_, MemKept.canon (.of_mem ?_)⟩
  · refine (Hw.onTimer_arrive ht _).trans ?_
    simp only [hc']
    exact if_neg fun hgo' => absurd (hgo.symm.trans hgo') (by decide)
  · rw [Hw.canon_slice, Hw.missDeadline_held]
  · obtain ⟨hst, hcnt⟩ := Hw.missDeadline_of_notReady hc' hr hn
    exact ⟨hst, hcnt.trans (by rw [Hw.arrive_get])⟩
  · exact Hw.missDeadline_of_denied hc' hr hready hp
  · exact Hw.missDeadline_of_permitted hc' hr hready hp
  · exact ((s.hw.arrive_regs d _ _).trans (Hw.missDeadline_regs _ x c)).canon
  · rw [Hw.missDeadline_mem, Hw.arrive_mem]

end

/-- Settles O14: each command's effect is a PPDU accepted, one held or a status; planning what comes next leaves the slices
as they are. -/
theorem transmitCommandsAndHolds : Obligations.TransmitCommandsAndHolds := by
  intro s hup
  exact ⟨fun x lead len shape chains resp fit latest hheld htx hq hform hr =>
      gives_transmitCommand_refused hup ⟨hheld, htx, hq, hform⟩ hr rfl,
    fun x lead len shape chains resp fit latest p hheld htx hq hform hr he ho hp hc hfit =>
      gives_transmitCommand_accepted hup ⟨hheld, htx, hq, hform⟩ hr rfl he ho hp hc hfit,
    fun x lead len shape chains resp fit latest p hheld htx hq hform hr he ho hp hc hfit =>
      gives_transmitCommand_held hup ⟨hheld, htx, hq, hform⟩ hr rfl he ho hp hc hfit,
    fun x lead len shape chains resp fit latest e p hheld htx hq hform hr =>
      gives_transmitCommand_formed hup ⟨hheld, htx, hq, hform⟩ hr rfl,
    fun x lead len shape chains resp fit latest r p hheld htx hq hform =>
      gives_transmitCommand_response hup ⟨hheld, htx, hq, hform⟩,
    fun x c => gives_heldCommandSent hup, fun x c d ht hc => gives_holdDeadline hup ht hc rfl⟩

end Sys2Proof.Machine
end

section
/-!
SUPPORT. A command that goes over the chains of a slice: the turn of one chain leaves every other chain, so that the pass
finds a chain as it was and leaves it as its own turn made it.
-/
namespace Sys2Proof.Machine

section
variable (h : Hw) (x c : Nat) (f : Chain → Chain)

@[simp] theorem Hw.modChain_chain : (h.modChain x c f).chain x c = f (h.chain x c) := kgetD_kput_self _ _ _ _
@[simp] theorem Hw.modChain_get (g : RF) : (h.modChain x c f).get g = h.get g := rfl

theorem Hw.modChain_chain_ne {b : Nat} (hb : b ≠ c) : (h.modChain x b f).chain x c = h.chain x c :=
  kgetD_kput_ne _ _ _ (by omega)

theorem RegsKept.modChain {as : List Nat} {h h' : Hw} (hk : RegsKept as h h') : RegsKept as h (h'.modChain x c f) := hk

end

/-- The record of chain `c` of slice `x` stands as it stood, and the registers of the chain's block read as they read. -/
structure ChainKept (x c : Nat) (h h' : Hw) : Prop where
  chain : h'.chain x c = h.chain x c
  word : ∀ a, R.RFS_DIV x c ≤ a → a < R.RFS_DIV x c + 0x1000 → h'.word a = h.word a

section
variable {x c : Nat} {h h' h'' : Hw}

theorem ChainKept.refl (x c : Nat) (h : Hw) : ChainKept x c h h := ⟨rfl, fun _ _ _ => rfl⟩

theorem ChainKept.trans (h1 : ChainKept x c h h') (h2 : ChainKept x c h' h'') : ChainKept x c h h'' :=
  ⟨h2.chain.trans h1.chain, fun a hlo hhi => (h2.word a hlo hhi).trans (h1.word a hlo hhi)⟩

/-- A field of the chain's block, by the address that it has in the block of chain 0 of slice 0. -/
theorem ChainKept.get (hk : ChainKept x c h h') {g : RF} {a : Nat} (hg : g.addr = a + 0x100000 * x + 0x1000 * c)
    (ha : (decide (0x41010000 ≤ a) && decide (a < 0x41011000)) = true) : h'.get g = h.get g := by
  simp only [Bool.and_eq_true, decide_eq_true_eq] at ha
  exact Hw.get_congr (hk.word _ (by simp only [R.RFS_DIV]; omega) (by simp only [R.RFS_DIV]; omega))

/-- A field of another chain's block is set. -/
theorem ChainKept.set_other (hk : ChainKept x c h h') {b : Nat} (hb : b ≠ c) {g : RF} {a : Nat} (v : Nat)
    (hg : g.addr = a + 0x100000 * x + 0x1000 * b) (ha : (decide (0x41010000 ≤ a) && decide (a < 0x41011000)) = true) :
    ChainKept x c h (h'.set g v) := by
  simp only [Bool.and_eq_true, decide_eq_true_eq] at ha
  refine ⟨hk.chain, fun r hlo hhi => (Hw.word_set_ne h' g v ?_).trans (hk.word r hlo hhi)⟩
  simp only [R.RFS_DIV] at hlo hhi
  omega

theorem ChainKept.modChain_other (hk : ChainKept x c h h') {b : Nat} (hb : b ≠ c) (f : Chain → Chain) :
    ChainKept x c h (h'.modChain x b f) := ⟨(h'.modChain_chain_ne x c f hb).trans hk.chain, hk.word⟩

theorem ChainKept.modSlice (hk : ChainKept x c h h') (y : Nat) (f : Slice → Slice) : ChainKept x c h (h'.modSlice y f) :=
  ⟨hk.chain, hk.word⟩

theorem ChainKept.canon (hk : ChainKept x c h h') : ChainKept x c h h'.canon := ⟨hk.chain, hk.word⟩

theorem Hw.arrive_chainKept (h : Hw) (d : Nat) (t : TimerId) : ChainKept x c h (h.arrive d t) :=
  ⟨congrArg (kgetD _ · _) (h.advanceTo_chains d), fun a _ _ => h.advanceTo_word d a⟩

end

/-! ### A pass over the chains -/

section
variable {x c : Nat} {f : Nat → Hw → Hw} (h : Hw)

/-- The turns of the first `n` chains reach chain `c` with it as it was, and leave it as its turn made it. -/
theorem foldl_range_turn (hf : ∀ b, b ≠ c → ∀ k, ChainKept x c k (f b k)) {n : Nat} (hc : c < n) :
    ∃ k, ChainKept x c h k ∧ ChainKept x c (f c k) ((List.range n).foldl (fun h b => f b h) h) := by
  induction n with
  | zero => omega
  | succ n ih =>
    rw [List.range_succ, List.foldl_append]
    by_cases hn : c = n
    · subst hn
      have hbefore : ChainKept x c h ((List.range c).foldl (fun h b => f b h) h) :=
        List.foldlRecOn _ _ (ChainKept.refl x c h) fun k hk b hb =>
          hk.trans (hf b (Nat.ne_of_lt (List.mem_range.mp hb)) k)
      exact ⟨_, hbefore, ChainKept.refl x c _⟩
    · obtain ⟨k, hk, hafter⟩ := ih (by omega)
      exact ⟨k, hk, hafter.trans (hf n (Ne.symm hn) _)⟩

theorem Hw.forChains_turn (hf : ∀ b, b ≠ c → ∀ k, ChainKept x c k (f b k)) (hc : chainExists x c = true) :
    ∃ k, ChainKept x c h k ∧ ChainKept x c (f c k) (h.forChains x f) :=
  foldl_range_turn h hf (of_decide_eq_true hc)

/-- What every turn leaves, the pass leaves. -/
theorem Hw.forChains_keeps {β : Type} (π : Hw → β) (hf : ∀ b k, π (f b k) = π k) : π (h.forChains x f) = π h :=
  List.foldlRecOn (motive := fun k => π k = π h) _ _ rfl fun k hk b _ => (hf b k).trans hk

theorem Hw.forChains_regs {as : List Nat} (hf : ∀ b < chainsOf x, ∀ k, RegsKept as k (f b k)) :
    RegsKept as h (h.forChains x f) := RegsKept.foldl _ fun k b hb => hf b (List.mem_range.mp hb) k

end

end Sys2Proof.Machine
end

section
/-!
SUPPORT. The aerial and gain timeline, and the settlement of `Obligations.AerialDiversityAndGain` (R117 to R123, R145).
-/
namespace Sys2Proof.Machine
variable {s : State} {x : Fin 3}

/-! ### The gain code chosen (R122) -/

theorem Hw.gainFor_lt (h : Hw) (x c k : Nat) (wide : Int) : h.gainFor x c k wide < 2 ^ 5 := by
  simp only [Hw.gainFor, clampInt]
  omega

theorem ChainKept.gainFor {x c : Nat} {h h' : Hw} (hk : ChainKept x c h h') (k : Nat) (wide : Int) :
    h'.gainFor x c k wide = h.gainFor x c k wide := by
  unfold Hw.gainFor
  rw [hk.get (g := R.RFS_GAIN_TARGET x c) rfl rfl, hk.get (g := R.RFS_GAIN_G_CAP x c) rfl rfl]

/-- The formula of R122 over one fraction bar. -/
theorem Hw.gainFor_eq (h : Hw) (x c k : Nat) (wide : Int) : h.gainFor x c k wide =
    (clampInt 0 (min 23 (h.get (R.RFS_GAIN_G_CAP x c)))
      ((256 * (2 * (k : Int) - 10) - 128 * (h.get (R.RFS_GAIN_TARGET x c) : Int) - wide + 2560) / 512)).toNat := by
  have hsum : 256 * gainOf k + (-128 * (h.get (R.RFS_GAIN_TARGET x c) : Int) - wide) + 2560 =
      256 * (2 * (k : Int) - 10) - 128 * (h.get (R.RFS_GAIN_TARGET x c) : Int) - wide + 2560 := by
    unfold gainOf
    omega
  simp only [Hw.gainFor, hsum]

/-! ### DIV_SWITCH_INB (R117) -/

/-- The turn of one chain: in diversity it goes to INB and keeps the code of window A. -/
def Hw.inbTurn (x c : Nat) (h : Hw) : Hw :=
  if (h.chain x c).diversity then
    h.modChain x c fun ch => { ch with aerial := 1, kA := h.get (R.RFS_GAIN_G_CUR x c) }
  else h

theorem Hw.inbTurn_other {x b c : Nat} (hb : b ≠ c) (h : Hw) : ChainKept x c h (h.inbTurn x b) := by
  unfold Hw.inbTurn
  split
  · exact (ChainKept.refl x c h).modChain_other hb _
  · exact ChainKept.refl x c h

theorem Hw.inbTurn_mem (x c : Nat) (h : Hw) : (h.inbTurn x c).mem = h.mem := by
  unfold Hw.inbTurn
  split <;> rfl

theorem Hw.inbTurn_regs (as : List Nat) (x c : Nat) (h : Hw) : RegsKept as h (h.inbTurn x c) := by
  unfold Hw.inbTurn
  split
  · exact (RegsKept.refl as h).modChain x c _
  · exact RegsKept.refl as h

theorem Hw.inbTurn_of_diversity {x c : Nat} {h : Hw} (hd : (h.chain x c).diversity = true) :
    (h.inbTurn x c).chain x c = { h.chain x c with aerial := 1, kA := h.get (R.RFS_GAIN_G_CUR x c) } := by
  rw [Hw.inbTurn, if_pos hd, Hw.modChain_chain]

theorem Hw.inbTurn_of_fixed {x c : Nat} {h : Hw} (hd : (h.chain x c).diversity = false) : h.inbTurn x c = h :=
  if_neg (by simp [hd])

theorem gives_divSwitchInb (hup : s.hw.mainUp = true) {c d : Nat} (ht : tget s.hw.timers (.divSwitch x) = some d)
    (hc : chainExists x c = true) : Gives (.divSwitchInb x) s fun h =>
      ((s.hw.chain x c).diversity = true →
        (h.chain x c).aerial = 1 ∧ (h.chain x c).kA = s.hw.get (R.RFS_GAIN_G_CUR x c)) ∧
      ((s.hw.chain x c).diversity = false → h.chain x c = s.hw.chain x c) ∧ RegsKept [] s.hw h ∧ MemKept s.hw h := by
  let a := s.hw.arrive d (.divSwitch x)
  obtain ⟨k, hbefore, hafter⟩ := a.forChains_turn (f := Hw.inbTurn x) (fun _ => Hw.inbTurn_other) hc
  have hk : ChainKept x c s.hw k := (s.hw.arrive_chainKept d _).trans hbefore
  refine gives_of_effect_eq (e := execDivSwitchInb x s) (h := a.forChains x (Hw.inbTurn x)) rfl rfl hup
    (Hw.onTimer_arrive ht _) ⟨fun hd => ?_, fun hd => ?_, ?_, MemKept.canon (.of_mem ?_)⟩
  · rw [← hk.chain] at hd
    rw [hafter.canon.chain, Hw.inbTurn_of_diversity hd]
    exact ⟨rfl, hk.get rfl rfl⟩
  · rw [← hk.chain] at hd ⊢
    rw [hafter.canon.chain, Hw.inbTurn_of_fixed hd]
  · exact ((s.hw.arrive_regs d _ _).trans (a.forChains_regs fun c _ => Hw.inbTurn_regs _ x c)).canon
  · rw [Hw.forChains_keeps _ Hw.mem (Hw.inbTurn_mem x), Hw.arrive_mem]

/-! ### DIV_DECISION (R117, R118, R122) -/

theorem chooseAerial_lt (cur hyst : Nat) (pA pB : Int) : chooseAerial cur hyst pA pB < 2 := by
  unfold chooseAerial
  split <;> split <;> omega

/-- The aerial that a chain chooses from the powers of its two windows. -/
def Hw.chosenAerial (h : Hw) (x c : Nat) (a b : WindowPower) : Nat :=
  chooseAerial (h.get (R.RFS_DIV_CUR x c)) (h.get (R.RFS_DIV_HYST x c)) (windowPower (h.chain x c).kA a.p)
    (windowPower (h.get (R.RFS_GAIN_G_CUR x c)) b.p)

/-- The code that the chain takes for the wideband power of aerial `w`. -/
def Hw.gainOn (h : Hw) (x c w : Nat) (a b : WindowPower) : Nat :=
  if w = 0 then h.gainFor x c (h.chain x c).kA a.wide else h.gainFor x c (h.get (R.RFS_GAIN_G_CUR x c)) b.wide

/-- A decision for aerial `w` is counted, and so is the change that it may be. -/
def Hw.countDecision (h : Hw) (x c w : Nat) : Hw :=
  if w = h.get (R.RFS_DIV_CUR x c) then h.bump (R.RFS_DIV_CNT_RUNS x c)
  else (h.bump (R.RFS_DIV_CNT_RUNS x c)).bump (R.RFS_DIV_CNT_SWITCHES x c)

/-- A chain goes to aerial `w` and gain code `k`. -/
def Hw.takeAerial (h : Hw) (x c w k : Nat) : Hw :=
  ((h.set (R.RFS_DIV_CUR x c) w).set (R.RFS_GAIN_G_CUR x c) k).modChain x c fun ch => { ch with aerial := w }

theorem Hw.divDecide_eq (h : Hw) (x c : Nat) (a b : WindowPower) : (h.divDecide x c a b).1 =
    (h.countDecision x c (h.chosenAerial x c a b)).takeAerial x c (h.chosenAerial x c a b)
      (h.gainOn x c (h.chosenAerial x c a b) a b) := rfl

section
variable {x c : Nat} {h h' : Hw}

theorem ChainKept.chosenAerial (hk : ChainKept x c h h') (a b : WindowPower) :
    h'.chosenAerial x c a b = h.chosenAerial x c a b := by
  unfold Hw.chosenAerial
  rw [hk.chain, hk.get (g := R.RFS_DIV_CUR x c) rfl rfl, hk.get (g := R.RFS_DIV_HYST x c) rfl rfl,
    hk.get (g := R.RFS_GAIN_G_CUR x c) rfl rfl]

theorem ChainKept.gainOn (hk : ChainKept x c h h') (w : Nat) (a b : WindowPower) :
    h'.gainOn x c w a b = h.gainOn x c w a b := by
  unfold Hw.gainOn
  rw [hk.chain, hk.get (g := R.RFS_GAIN_G_CUR x c) rfl rfl, hk.gainFor, hk.gainFor]

theorem Hw.gainOn_lt (w : Nat) (a b : WindowPower) : h.gainOn x c w a b < 2 ^ 5 := by
  unfold Hw.gainOn
  split <;> exact h.gainFor_lt _ _ _ _

theorem Hw.countDecision_mem (w : Nat) : (h.countDecision x c w).mem = h.mem := by
  unfold Hw.countDecision
  split <;> rfl

theorem Hw.countDecision_other {b : Nat} (hb : b ≠ c) (w : Nat) : ChainKept x c h (h.countDecision x b w) := by
  have hruns : ChainKept x c h (h.bump (R.RFS_DIV_CNT_RUNS x b)) := (ChainKept.refl x c h).set_other hb _ rfl rfl
  unfold Hw.countDecision
  split
  · exact hruns
  · exact hruns.set_other hb _ rfl rfl

theorem Hw.countDecision_runs (w : Nat) : (h.countDecision x c w).get (R.RFS_DIV_CNT_RUNS x c) =
    min (h.get (R.RFS_DIV_CNT_RUNS x c) + 1) 65535 := by
  have hruns := h.get_bump_self (R.RFS_DIV_CNT_RUNS x c) 1 (fits_of_bits rfl)
  unfold Hw.countDecision
  split
  · exact hruns
  · exact (Hw.get_bump_apart _ _ _ _ (apart_of_bits rfl)).trans hruns

theorem Hw.countDecision_switches (w : Nat) : (h.countDecision x c w).get (R.RFS_DIV_CNT_SWITCHES x c) =
    if w = h.get (R.RFS_DIV_CUR x c) then h.get (R.RFS_DIV_CNT_SWITCHES x c)
    else min (h.get (R.RFS_DIV_CNT_SWITCHES x c) + 1) 65535 := by
  have hruns : (h.bump (R.RFS_DIV_CNT_RUNS x c)).get (R.RFS_DIV_CNT_SWITCHES x c) = h.get (R.RFS_DIV_CNT_SWITCHES x c) :=
    h.get_bump_apart _ _ _ (apart_of_bits rfl)
  unfold Hw.countDecision
  split
  · exact hruns
  · rw [Hw.get_bump_self _ _ _ (fits_of_bits rfl), hruns]
    rfl

theorem Hw.takeAerial_other {b : Nat} (hb : b ≠ c) (w k : Nat) : ChainKept x c h (h.takeAerial x b w k) :=
  have hcur : ChainKept x c h (h.set (R.RFS_DIV_CUR x b) w) := (ChainKept.refl x c h).set_other hb _ rfl rfl
  have hgain : ChainKept x c h ((h.set (R.RFS_DIV_CUR x b) w).set (R.RFS_GAIN_G_CUR x b) k) :=
    hcur.set_other hb _ rfl rfl
  hgain.modChain_other hb _

theorem Hw.takeAerial_cur {w : Nat} (hw : w < 2) (k : Nat) : (h.takeAerial x c w k).get (R.RFS_DIV_CUR x c) = w := by
  have hne : apart (R.RFS_GAIN_G_CUR x c) (R.RFS_DIV_CUR x c) := .inl (by
    simp only [R.RFS_GAIN_G_CUR, R.RFS_GAIN, R.RFS_DIV_CUR, R.RFS_DIV]
    omega)
  rw [Hw.takeAerial, Hw.modChain_get, Hw.get_set_apart _ _ _ _ hne, Hw.get_set_lt _ _ _ (fits_of_bits rfl) hw]

theorem Hw.takeAerial_gain (w : Nat) {k : Nat} (hk : k < 2 ^ 5) :
    (h.takeAerial x c w k).get (R.RFS_GAIN_G_CUR x c) = k := by
  rw [Hw.takeAerial, Hw.modChain_get, Hw.get_set_lt _ _ _ (fits_of_bits rfl) hk]

theorem Hw.takeAerial_aerial (w k : Nat) : ((h.takeAerial x c w k).chain x c).aerial = w := by
  rw [Hw.takeAerial, Hw.modChain_chain]

/-- The chain's counts stand in a register of their own. -/
theorem Hw.takeAerial_count (w k : Nat) {g : RF} (hg : g.addr = R.RFS_DIV_CNT x c) :
    (h.takeAerial x c w k).get g = h.get g := by
  have hregs : RegsKept [R.RFS_DIV x c, R.RFS_GAIN x c] h (h.takeAerial x c w k) :=
    (((RegsKept.refl _ h).set (R.RFS_DIV_CUR x c) w (.head _)).set (R.RFS_GAIN_G_CUR x c) k
      (.tail _ (.head _))).modChain x c _
  refine hregs.get ?_
  simp only [hg, R.RFS_DIV_CNT, R.RFS_DIV, R.RFS_GAIN, List.mem_cons, List.not_mem_nil, or_false]
  omega

/-- What the decision of a chain makes of it. -/
theorem Hw.divDecide_chain (h : Hw) (a b : WindowPower) {w : Nat} (hw : h.chosenAerial x c a b = w) :
    (h.divDecide x c a b).1.get (R.RFS_DIV_CUR x c) = w ∧
      ((h.divDecide x c a b).1.chain x c).aerial = w ∧
      (h.divDecide x c a b).1.get (R.RFS_GAIN_G_CUR x c) = h.gainOn x c w a b ∧
      (h.divDecide x c a b).1.get (R.RFS_DIV_CNT_RUNS x c) = min (h.get (R.RFS_DIV_CNT_RUNS x c) + 1) 65535 ∧
      (h.divDecide x c a b).1.get (R.RFS_DIV_CNT_SWITCHES x c) =
        if w = h.get (R.RFS_DIV_CUR x c) then h.get (R.RFS_DIV_CNT_SWITCHES x c)
        else min (h.get (R.RFS_DIV_CNT_SWITCHES x c) + 1) 65535 := by
  have hlt : w < 2 := hw ▸ chooseAerial_lt _ _ _ _
  rw [Hw.divDecide_eq, hw]
  exact ⟨Hw.takeAerial_cur hlt _, Hw.takeAerial_aerial w _, Hw.takeAerial_gain w (Hw.gainOn_lt w a b),
    (Hw.takeAerial_count w _ rfl).trans (Hw.countDecision_runs w),
    (Hw.takeAerial_count w _ rfl).trans (Hw.countDecision_switches w)⟩

end

/-- The turn of one chain: one in diversity whose windows were measured decides, and its power counts for P_ref. -/
def Hw.decideTurn (m : List (WindowPower × WindowPower)) (x c : Nat) (h : Hw) : Hw :=
  match m[c]? with
  | some (a, b) =>
    if (h.chain x c).diversity then (h.divDecide x c a b).1.notePRef x (h.divDecide x c a b).2 else h
  | none => h

theorem Hw.decideTurn_cases (m : List (WindowPower × WindowPower)) (x c : Nat) (h : Hw) : h.decideTurn m x c = h ∨
    ∃ a b, h.decideTurn m x c = (h.divDecide x c a b).1.notePRef x (h.divDecide x c a b).2 := by
  unfold Hw.decideTurn
  split
  · split
    · exact .inr ⟨_, _, rfl⟩
    · exact .inl rfl
  · exact .inl rfl

theorem Hw.decideTurn_other {m : List (WindowPower × WindowPower)} {x b c : Nat} (hb : b ≠ c) (h : Hw) :
    ChainKept x c h (h.decideTurn m x b) := by
  obtain e | ⟨p, q, e⟩ := h.decideTurn_cases m x b <;> rw [e]
  · exact ChainKept.refl x c h
  · rw [Hw.divDecide_eq]
    exact ((Hw.countDecision_other hb _).trans (Hw.takeAerial_other hb _ _)).modSlice x _

theorem Hw.decideTurn_mem (m : List (WindowPower × WindowPower)) (x c : Nat) (h : Hw) :
    (h.decideTurn m x c).mem = h.mem := by
  obtain e | ⟨p, q, e⟩ := h.decideTurn_cases m x c <;> rw [e]
  exact Hw.countDecision_mem _

theorem Hw.decideTurn_of_diversity {m : List (WindowPower × WindowPower)} {x c : Nat} {a b : WindowPower} {h : Hw}
    (hm : m[c]? = some (a, b)) (hd : (h.chain x c).diversity = true) :
    ChainKept x c (h.divDecide x c a b).1 (h.decideTurn m x c) := by
  simp only [Hw.decideTurn, hm, hd, if_true]
  exact (ChainKept.refl x c _).modSlice x _

theorem gives_divDecision (hup : s.hw.mainUp = true) {c d : Nat} {m : List (WindowPower × WindowPower)}
    {a b : WindowPower} (ht : tget s.hw.timers (.divDecision x) = some d) (hc : chainExists x c = true)
    (hm : m[c]? = some (a, b)) (hd : (s.hw.chain x c).diversity = true) :
    Gives (.divDecision x m) s fun h =>
      h.get (R.RFS_DIV_CUR x c) = s.hw.chosenAerial x c a b ∧ (h.chain x c).aerial = h.get (R.RFS_DIV_CUR x c) ∧
        h.get (R.RFS_GAIN_G_CUR x c) = s.hw.gainOn x c (h.get (R.RFS_DIV_CUR x c)) a b ∧
        h.get (R.RFS_DIV_CNT_RUNS x c) = min (s.hw.get (R.RFS_DIV_CNT_RUNS x c) + 1) 65535 ∧
        h.get (R.RFS_DIV_CNT_SWITCHES x c) = (if h.get (R.RFS_DIV_CUR x c) = s.hw.get (R.RFS_DIV_CUR x c)
          then s.hw.get (R.RFS_DIV_CNT_SWITCHES x c)
          else min (s.hw.get (R.RFS_DIV_CNT_SWITCHES x c) + 1) 65535) ∧ MemKept s.hw h := by
  let n := s.hw.arrive d (.divDecision x)
  obtain ⟨k, hbefore, hafter⟩ := n.forChains_turn (f := Hw.decideTurn m x) (fun _ => Hw.decideTurn_other) hc
  have hk : ChainKept x c s.hw k := (s.hw.arrive_chainKept d _).trans hbefore
  have hdec : ChainKept x c (k.divDecide x c a b).1 (n.forChains x (Hw.decideTurn m x)).canon :=
    ((Hw.decideTurn_of_diversity hm (by rw [hk.chain]; exact hd)).trans hafter).canon
  obtain ⟨hcur, haerial, hgain, hruns, hswitches⟩ := k.divDecide_chain a b (hk.chosenAerial a b)
  have hcur' := (hdec.get (g := R.RFS_DIV_CUR x c) rfl rfl).trans hcur
  rw [hk.gainOn, ← hcur'] at hgain
  rw [hk.get (g := R.RFS_DIV_CNT_RUNS x c) rfl rfl] at hruns
  rw [hk.get (g := R.RFS_DIV_CUR x c) rfl rfl, hk.get (g := R.RFS_DIV_CNT_SWITCHES x c) rfl rfl,
    ← hcur'] at hswitches
  refine gives_of_effect_eq (e := execDivDecision x m s) (h := n.forChains x (Hw.decideTurn m x)) rfl rfl hup
    (Hw.onTimer_arrive ht _) ⟨hcur', ?_, (hdec.get rfl rfl).trans hgain,
      (hdec.get rfl rfl).trans hruns, (hdec.get rfl rfl).trans hswitches, MemKept.canon (.of_mem ?_)⟩
  · rw [hdec.chain, haerial, hcur']
  · rw [Hw.forChains_keeps _ Hw.mem (Hw.decideTurn_mem m x), Hw.arrive_mem]

/-! ### FIXED_WINDOW_END (R119, R122) -/

/-- The turn of one chain: one in a fixed mode whose window was measured takes its new code, and its power counts for
P_ref. -/
def Hw.fixedTurn (m : List WindowPower) (x c : Nat) (h : Hw) : Hw :=
  match m[c]? with
  | some a =>
    if (h.chain x c).diversity then h
    else (h.set (R.RFS_GAIN_G_CUR x c) (h.gainFor x c (h.get (R.RFS_GAIN_G_CUR x c)) a.wide)).notePRef x
      (windowPower (h.get (R.RFS_GAIN_G_CUR x c)) a.p)
  | none => h

theorem Hw.fixedTurn_cases (m : List WindowPower) (x c : Nat) (h : Hw) : h.fixedTurn m x c = h ∨
    ∃ k p, h.fixedTurn m x c = (h.set (R.RFS_GAIN_G_CUR x c) k).notePRef x p := by
  unfold Hw.fixedTurn
  split
  · split
    · exact .inl rfl
    · exact .inr ⟨_, _, rfl⟩
  · exact .inl rfl

theorem Hw.fixedTurn_other {m : List WindowPower} {x b c : Nat} (hb : b ≠ c) (h : Hw) :
    ChainKept x c h (h.fixedTurn m x b) := by
  obtain e | ⟨k, p, e⟩ := h.fixedTurn_cases m x b <;> rw [e]
  · exact ChainKept.refl x c h
  · exact ((ChainKept.refl x c h).set_other hb _ rfl rfl).modSlice x _

theorem Hw.fixedTurn_mem (m : List WindowPower) (x c : Nat) (h : Hw) : (h.fixedTurn m x c).mem = h.mem := by
  obtain e | ⟨k, p, e⟩ := h.fixedTurn_cases m x c <;> rw [e]
  rfl

theorem Hw.fixedTurn_regs (m : List WindowPower) {x c : Nat} (h : Hw) {as : List Nat} (hc : R.RFS_GAIN x c ∈ as) :
    RegsKept as h (h.fixedTurn m x c) := by
  obtain e | ⟨k, p, e⟩ := h.fixedTurn_cases m x c <;> rw [e]
  · exact RegsKept.refl as h
  · exact ((RegsKept.refl as h).set _ _ hc).modSlice x _

theorem Hw.fixedTurn_of_fixed {m : List WindowPower} {x c : Nat} {a : WindowPower} {h : Hw} (hm : m[c]? = some a)
    (hd : (h.chain x c).diversity = false) :
    (h.fixedTurn m x c).get (R.RFS_GAIN_G_CUR x c) = h.gainFor x c (h.get (R.RFS_GAIN_G_CUR x c)) a.wide := by
  simp only [Hw.fixedTurn, hm, hd, Bool.false_eq_true, if_false]
  exact Hw.get_set_lt h _ _ (fits_of_bits rfl) (h.gainFor_lt _ _ _ _)

theorem chainsOf_slice (x : Fin 3) : chainsOf x = if x = 2 then 8 else 4 := by
  revert x
  decide

theorem gives_fixedWindowEnd (hup : s.hw.mainUp = true) {c d : Nat} {m : List WindowPower} {a : WindowPower}
    (ht : tget s.hw.timers (.fixedWindow x) = some d) (hc : chainExists x c = true) (hm : m[c]? = some a)
    (hd : (s.hw.chain x c).diversity = false) : Gives (.fixedWindowEnd x m) s fun h =>
      h.get (R.RFS_GAIN_G_CUR x c) = s.hw.gainFor x c (s.hw.get (R.RFS_GAIN_G_CUR x c)) a.wide ∧
        RegsKept ((List.range (chainsOf x)).map (R.RFS_GAIN x)) s.hw h ∧ MemKept s.hw h := by
  let n := s.hw.arrive d (.fixedWindow x)
  obtain ⟨k, hbefore, hafter⟩ := n.forChains_turn (f := Hw.fixedTurn m x) (fun _ => Hw.fixedTurn_other) hc
  have hk : ChainKept x c s.hw k := (s.hw.arrive_chainKept d _).trans hbefore
  refine gives_of_effect_eq (e := execFixedWindowEnd x m s) (h := n.forChains x (Hw.fixedTurn m x)) rfl rfl hup
    (Hw.onTimer_arrive ht _) ⟨?_, ?_, MemKept.canon (.of_mem ?_)⟩
  · rw [hafter.canon.get (g := R.RFS_GAIN_G_CUR x c) rfl rfl, Hw.fixedTurn_of_fixed hm (by rw [hk.chain]; exact hd),
      hk.gainFor, hk.get (g := R.RFS_GAIN_G_CUR x c) rfl rfl]
  · exact ((s.hw.arrive_regs d _ _).trans (n.forChains_regs fun b hb k =>
      k.fixedTurn_regs m (List.mem_map_of_mem (List.mem_range.mpr hb)))).canon
  · rw [Hw.forChains_keeps _ Hw.mem (Hw.fixedTurn_mem m x), Hw.arrive_mem]

/-! ### QUALIFIER_START (R117, R119, R123, R151) -/

/-- The turn of one chain: aerial and gain are frozen, of one in diversity only late in the timeline. -/
def Hw.freezeTurn (late : Bool) (x c : Nat) (h : Hw) : Hw :=
  if late || !(h.chain x c).diversity then h.modChain x c fun ch => { ch with frozen := true } else h

/-- The chains whose samples pass to the qualifier now are frozen. -/
def Hw.freezeChains (h : Hw) (x : Nat) (late : Bool) : Hw := h.forChains x (Hw.freezeTurn late x)

/-- The samples of the chains in diversity, if any, come 3.6 µs from the instant `d`. -/
def Hw.awaitDiversity (h : Hw) (x d : Nat) (late : Bool) : Hw :=
  if h.anyDiversity x && !late then h.startAt (.qualifier x) (d + 3600) else h

/-- The qualifier begins with the first samples of a timeline. -/
def Hw.beginQualifying (h : Hw) (x : Nat) (p : RxPhase) : Hw :=
  if p = .timeline then
    (h.modSlice x fun s => { s with rx := { s.rx with phase := .qualifying, evaluations := 0 } }).start (.qualEval x) 1600
  else h

/-- Samples pass to the qualifier. -/
def Hw.passSamples (h : Hw) (x : Nat) (late : Bool) : Hw :=
  ((h.freezeChains x late).awaitDiversity x (h.slice x).rx.d late).beginQualifying x (h.slice x).rx.phase

section
variable {x c : Nat} {late : Bool} {h : Hw}

theorem Hw.freezeTurn_cases (late : Bool) (x c : Nat) (h : Hw) :
    h.freezeTurn late x c = h ∨ h.freezeTurn late x c = h.modChain x c fun ch => { ch with frozen := true } := by
  unfold Hw.freezeTurn
  split
  · exact .inr rfl
  · exact .inl rfl

theorem Hw.freezeTurn_other {b : Nat} (hb : b ≠ c) (h : Hw) : ChainKept x c h (h.freezeTurn late x b) := by
  obtain e | e := h.freezeTurn_cases late x b <;> rw [e]
  · exact ChainKept.refl x c h
  · exact (ChainKept.refl x c h).modChain_other hb _

theorem Hw.freezeTurn_frozen (hd : (h.chain x c).diversity = false ∨ late = true) :
    ((h.freezeTurn late x c).chain x c).frozen = true := by
  rw [Hw.freezeTurn, if_pos (by obtain hd | hd := hd <;> simp [hd]), Hw.modChain_chain]

theorem Hw.freezeTurn_rest (b : Nat) (h : Hw) : RestKept h (h.freezeTurn late x b) := by
  obtain e | e := h.freezeTurn_cases late x b <;> rw [e]
  · exact RestKept.refl h
  · rfl

theorem Hw.freezeTurn_regs (as : List Nat) (b : Nat) (h : Hw) : RegsKept as h (h.freezeTurn late x b) := by
  obtain e | e := h.freezeTurn_cases late x b <;> rw [e]
  · exact RegsKept.refl as h
  · exact (RegsKept.refl as h).modChain x b _

theorem Hw.freezeTurn_diversity (late : Bool) (x c b : Nat) (h : Hw) :
    ((h.freezeTurn late x b).chain x c).diversity = (h.chain x c).diversity := by
  by_cases hb : b = c
  · subst hb
    obtain e | e := h.freezeTurn_cases late x b <;> rw [e]
    rw [Hw.modChain_chain]
  · rw [(h.freezeTurn_other hb).chain]

theorem Hw.freezeChains_frozen (hc : chainExists x c = true) (hd : (h.chain x c).diversity = false ∨ late = true) :
    ((h.freezeChains x late).chain x c).frozen = true := by
  obtain ⟨k, hbefore, hafter⟩ := h.forChains_turn (f := Hw.freezeTurn late x) (fun _ => Hw.freezeTurn_other) hc
  rw [Hw.freezeChains, hafter.chain]
  exact Hw.freezeTurn_frozen (by rw [hbefore.chain]; exact hd)

theorem Hw.freezeChains_rest : RestKept h (h.freezeChains x late) := RestKept.foldl _ fun h b => h.freezeTurn_rest b

theorem Hw.freezeChains_regs (as : List Nat) : RegsKept as h (h.freezeChains x late) :=
  h.forChains_regs fun b _ => Hw.freezeTurn_regs as b

theorem Hw.freezeChains_anyDiversity (h : Hw) (x : Nat) (late : Bool) :
    (h.freezeChains x late).anyDiversity x = h.anyDiversity x :=
  congrArg (List.any _) (funext fun c =>
    h.forChains_keeps (fun k => (k.chain x c).diversity) fun b k => k.freezeTurn_diversity late x c b)

/-- But for timers and slices, samples that pass change no more than the frozen chains. -/
theorem Hw.passSamples_eq (h : Hw) (x : Nat) (late : Bool) :
    ∃ t y, h.passSamples x late = { h.freezeChains x late with timers := t, slices := y } := by
  unfold Hw.passSamples Hw.beginQualifying Hw.awaitDiversity
  split <;> split <;> exact ⟨_, _, rfl⟩

theorem Hw.passSamples_frozen (hc : chainExists x c = true) (hd : (h.chain x c).diversity = false ∨ late = true) :
    ((h.passSamples x late).chain x c).frozen = true := by
  obtain ⟨t, y, e⟩ := h.passSamples_eq x late
  rw [e]
  exact Hw.freezeChains_frozen hc hd

theorem Hw.passSamples_mem : (h.passSamples x late).mem = h.mem := by
  obtain ⟨t, y, e⟩ := h.passSamples_eq x late
  rw [e]
  exact Hw.freezeChains_rest.mem

theorem Hw.passSamples_et : (h.passSamples x late).et = h.et := by
  obtain ⟨t, y, e⟩ := h.passSamples_eq x late
  rw [e]
  exact Hw.freezeChains_rest.et

theorem Hw.passSamples_regs (as : List Nat) : RegsKept as h (h.passSamples x late) := by
  obtain ⟨t, y, e⟩ := h.passSamples_eq x late
  rw [e]
  exact Hw.freezeChains_regs as

theorem Hw.awaitDiversity_slice (d y : Nat) : (h.awaitDiversity x d late).slice y = h.slice y := by
  unfold Hw.awaitDiversity
  split <;> rfl

theorem Hw.awaitDiversity_et (d : Nat) : (h.awaitDiversity x d late).et = h.et := by
  unfold Hw.awaitDiversity
  split <;> rfl

/-- The qualifier begins. -/
theorem Hw.passSamples_of_timeline (hp : (h.slice x).rx.phase = .timeline) :
    ((h.passSamples x late).slice x).rx = { (h.slice x).rx with phase := .qualifying, evaluations := 0 } ∧
      tget (h.passSamples x late).timers (.qualEval x) = some (h.et + 1600) := by
  rw [Hw.passSamples, Hw.beginQualifying, if_pos hp]
  constructor
  · rw [Hw.start_slice, Hw.modSlice_slice, Hw.awaitDiversity_slice, Hw.freezeChains_rest.slice]
  · rw [tget_start, if_pos rfl, Hw.modSlice_et, Hw.awaitDiversity_et, Hw.freezeChains_rest.et]

theorem Hw.passSamples_of_other (hp : (h.slice x).rx.phase ≠ .timeline) :
    (h.passSamples x late).slice x = h.slice x := by
  rw [Hw.passSamples, Hw.beginQualifying, if_neg hp, Hw.awaitDiversity_slice, Hw.freezeChains_rest.slice]

/-- The start of the qualifier leaves the timer by which its samples come again. -/
theorem Hw.beginQualifying_timer (p : RxPhase) :
    tget (h.beginQualifying x p).timers (.qualifier x) = tget h.timers (.qualifier x) := by
  unfold Hw.beginQualifying
  split
  · rw [tget_start, if_neg (by simp), Hw.modSlice_timers]
  · rfl

theorem Hw.passSamples_again (hd : h.anyDiversity x = true) :
    tget (h.passSamples x false).timers (.qualifier x) = some ((h.slice x).rx.d + 3600) := by
  have hany : ((h.freezeChains x false).anyDiversity x && !false) = true := by rw [h.freezeChains_anyDiversity, hd]; rfl
  rw [Hw.passSamples, Hw.beginQualifying_timer, Hw.awaitDiversity, if_pos hany, tget_startAt, if_pos rfl]

end

theorem gives_qualifierStart (hup : s.hw.mainUp = true) {d : Nat} (ht : tget s.hw.timers (.qualifier x) = some d) :
    Gives (.qualifierStart x) s fun h =>
      (∀ c, chainExists x c = true → (s.hw.chain x c).diversity = false ∨ (s.hw.slice x).rx.d + 3600 ≤ h.et →
        (h.chain x c).frozen = true) ∧
      ((s.hw.slice x).rx.phase = .timeline →
        (h.slice x).rx = { (s.hw.slice x).rx with phase := .qualifying, evaluations := 0 } ∧
          tget h.timers (.qualEval x) = some (h.et + 1600)) ∧
      ((s.hw.slice x).rx.phase ≠ .timeline → (h.slice x).rx = (s.hw.slice x).rx) ∧
      (h.et < (s.hw.slice x).rx.d + 3600 → s.hw.anyDiversity x = true →
        tget h.timers (.qualifier x) = some ((s.hw.slice x).rx.d + 3600)) ∧ RegsKept [] s.hw h ∧ MemKept s.hw h := by
  let a := s.hw.arrive d (.qualifier x)
  let late := decide ((a.slice x).rx.d + 3600 ≤ a.et)
  have hslice : a.slice x = s.hw.slice x := s.hw.arrive_slice d _ x
  have hchain (c : Nat) : a.chain x c = s.hw.chain x c := (s.hw.arrive_chainKept d _).chain
  have het : (a.passSamples x late).canon.et = a.et := Hw.passSamples_et
  refine gives_of_effect_eq (e := execQualifierStart x s) (h := a.passSamples x late) rfl rfl hup
    (Hw.onTimer_arrive ht _) ⟨fun c hc hd => ?_, fun hp => ?_, fun hp => ?_, fun hearly hany => ?_, ?_,
      MemKept.canon (.of_mem ?_)⟩
  · rw [het, ← hslice, ← hchain] at hd
    exact Hw.passSamples_frozen hc (hd.imp_right decide_eq_true)
  · rw [het, ← hslice]
    exact Hw.passSamples_of_timeline (by rw [hslice]; exact hp)
  · rw [Hw.canon_slice, Hw.passSamples_of_other (by rw [hslice]; exact hp), hslice]
  · rw [het, ← hslice] at hearly
    have hlate : late = false := decide_eq_false (Nat.not_le.mpr hearly)
    have hany' : a.anyDiversity x = true := by simpa only [Hw.anyDiversity, hchain] using hany
    rw [hlate, ← hslice]
    exact Hw.passSamples_again hany'
  · exact ((s.hw.arrive_regs d _ _).trans (Hw.passSamples_regs _)).canon
  · rw [Hw.passSamples_mem, Hw.arrive_mem]

/-! ### ADC_CLIP_GAIN_DROP (R123, R145) -/

/-- A clip while slice `v`, the other of the pair, transmits is counted. -/
def Hw.countClip (h : Hw) (x c v : Nat) : Hw := if x ≠ 0 ∧ h.onAir v then h.bump (R.RFS_CANC_STAT_CLIP_CNT x c) else h

/-- Chain `c` receives unfrozen and is within a measurement window of its timeline. -/
abbrev gainFalls (h : Hw) (x c : Nat) : Prop :=
  (h.slice x).rx.phase ≠ .idle ∧ (h.chain x c).frozen = false ∧
    inWindow (h.chain x c).diversity (h.et - (h.slice x).rx.d) = true

/-- A clip lowers the gain code. -/
def Hw.dropGain (h : Hw) (x c : Nat) : Hw :=
  if h.receiving x ∧ !(h.chain x c).frozen ∧ Machine.inWindow (h.chain x c).diversity (h.et - (h.slice x).rx.d) then
    h.set (R.RFS_GAIN_G_CUR x c) (h.get (R.RFS_GAIN_G_CUR x c) - 9)
  else h

theorem otherOfPair {x : Fin 3} (hx : x ≠ 0) : (if x.val = 1 then 2 else 1) = 3 - x.val := by
  revert x
  decide

theorem OnlyRegs.refl (as : List Nat) (h : Hw) : OnlyRegs as h h := ⟨RegsKept.refl as h, fun _ => rfl, rfl⟩

theorem OnlyRegs.get {as : List Nat} {h h' : Hw} (ho : OnlyRegs as h h') {f : RF} (hf : f.addr ∉ as) :
    h'.get f = h.get f := by
  obtain ⟨hregs, -, -⟩ := ho
  exact hregs.get hf

section
variable (h : Hw) (x c : Nat)

theorem Hw.countClip_onlyRegs (v : Nat) : OnlyRegs [R.RFS_CANC_STAT x c] h (h.countClip x c v) := by
  unfold Hw.countClip
  split
  · exact onlyRegs_setAt h (R.RFS_CANC_STAT_CLIP_CNT x c) _ rfl
  · exact OnlyRegs.refl _ h

theorem Hw.countClip_count (v : Nat) : (h.countClip x c v).get (R.RFS_CANC_STAT_CLIP_CNT x c) =
    if x ≠ 0 ∧ h.onAir v = true then min (h.get (R.RFS_CANC_STAT_CLIP_CNT x c) + 1) 65535
    else h.get (R.RFS_CANC_STAT_CLIP_CNT x c) := by
  unfold Hw.countClip
  split
  · exact h.get_bump_self (R.RFS_CANC_STAT_CLIP_CNT x c) 1 (fits_of_bits rfl)
  · rfl

theorem Hw.countClip_gainFalls (v : Nat) : gainFalls (h.countClip x c v) x c ↔ gainFalls h x c := by
  unfold Hw.countClip
  split <;> exact Iff.rfl

theorem Hw.dropGain_of_falls {h : Hw} {x c : Nat} (hf : gainFalls h x c) :
    h.dropGain x c = h.set (R.RFS_GAIN_G_CUR x c) (h.get (R.RFS_GAIN_G_CUR x c) - 9) := by
  obtain ⟨hp, hz, hw⟩ := hf
  exact if_pos ⟨by simpa [Hw.receiving] using hp, by simp [hz], hw⟩

theorem Hw.dropGain_of_stands {h : Hw} {x c : Nat} (hf : ¬ gainFalls h x c) : h.dropGain x c = h :=
  if_neg fun ⟨hr, hz, hw⟩ => hf ⟨by simpa [Hw.receiving] using hr, by simpa using hz, hw⟩

theorem Hw.dropGain_onlyRegs : OnlyRegs [R.RFS_GAIN x c] h (h.dropGain x c) := by
  unfold Hw.dropGain
  split
  · exact onlyRegs_setAt h (R.RFS_GAIN_G_CUR x c) _ rfl
  · exact OnlyRegs.refl _ h

theorem Hw.dropGain_gain : (h.dropGain x c).get (R.RFS_GAIN_G_CUR x c) =
    if gainFalls h x c then h.get (R.RFS_GAIN_G_CUR x c) - 9 else h.get (R.RFS_GAIN_G_CUR x c) := by
  have hlt : h.get (R.RFS_GAIN_G_CUR x c) < 2 ^ 5 := h.get_lt _
  split
  · next hf =>
    rw [Hw.dropGain_of_falls hf]
    exact Hw.get_set_lt _ _ _ (fits_of_bits rfl) (lt_of_le_of_lt (Nat.sub_le _ _) hlt)
  · next hf => rw [Hw.dropGain_of_stands hf]

end

theorem gives_adcClipGainDrop (hup : s.hw.mainUp = true) {c : Fin 8} (hc : chainExists x c = true) :
    Gives (.adcClipGainDrop x c) s fun h =>
      h.get (R.RFS_GAIN_G_CUR x c) = (if gainFalls s.hw x c then s.hw.get (R.RFS_GAIN_G_CUR x c) - 9
        else s.hw.get (R.RFS_GAIN_G_CUR x c)) ∧
      h.get (R.RFS_CANC_STAT_CLIP_CNT x c) = (if x ≠ 0 ∧ s.hw.onAir (3 - x.val) = true
        then min (s.hw.get (R.RFS_CANC_STAT_CLIP_CNT x c) + 1) 65535 else s.hw.get (R.RFS_CANC_STAT_CLIP_CNT x c)) ∧
      OnlyRegs [R.RFS_GAIN x c, R.RFS_CANC_STAT x c] s.hw h := by
  let k := s.hw.countClip x c (if x.val = 1 then 2 else 1)
  have hclip : OnlyRegs [R.RFS_CANC_STAT x c] s.hw k := s.hw.countClip_onlyRegs x c _
  have hdrop : OnlyRegs [R.RFS_GAIN x c] k (k.dropGain x c) := k.dropGain_onlyRegs x c
  have hfalls : gainFalls k x c ↔ gainFalls s.hw x c := s.hw.countClip_gainFalls x c _
  have hgain : k.get (R.RFS_GAIN_G_CUR x c) = s.hw.get (R.RFS_GAIN_G_CUR x c) :=
    hclip.get (by simp [R.RFS_GAIN_G_CUR, R.RFS_GAIN, R.RFS_CANC_STAT])
  have hcount : (k.dropGain x c).get (R.RFS_CANC_STAT_CLIP_CNT x c) = k.get (R.RFS_CANC_STAT_CLIP_CNT x c) :=
    hdrop.get (by simp [R.RFS_CANC_STAT_CLIP_CNT, R.RFS_CANC_STAT, R.RFS_GAIN])
  refine gives_of_effect_eq (e := execAdcClipGainDrop x c s) (h := k.dropGain x c) rfl rfl hup (if_pos hc)
    ⟨?_, ?_, ((hclip.mono (by simp)).trans (hdrop.mono (by simp))).canon⟩
  · rw [Hw.canon_get, Hw.dropGain_gain, hgain]
    exact if_congr hfalls rfl rfl
  · have hother : (x.val ≠ 0 ∧ s.hw.onAir (if x.val = 1 then 2 else 1) = true) ↔
        (x ≠ 0 ∧ s.hw.onAir (3 - x.val) = true) := by
      rw [Fin.val_ne_zero_iff]
      exact and_congr_right fun hx => by rw [otherOfPair hx]
    rw [Hw.canon_get, hcount, Hw.countClip_count]
    exact if_congr hother rfl rfl

/-- Settles O11: a chain's turn in a pass over the chains is all that the pass does to it, and each command of the timeline
is such a pass, or the work of one chain. -/
theorem aerialDiversityAndGain : Obligations.AerialDiversityAndGain := by
  intro s hup
  refine ⟨fun x c d ht hc => gives_divSwitchInb hup ht hc, ?_, fun x c m a d ht hc hm hd => ?_, fun x d ht => ?_,
    fun x c hc => gives_adcClipGainDrop hup hc⟩
  · rintro x c m a b cur kA kB pA pB d ht hc hm hd rfl rfl rfl rfl rfl
    exact gives_divDecision hup ht hc hm hd
  · obtain ⟨h, hexec, hgain, hregs, hmem⟩ := gives_fixedWindowEnd hup ht hc hm hd
    rw [chainsOf_slice] at hregs
    exact ⟨h, hexec, hgain.trans (Hw.gainFor_eq _ _ _ _ _), hregs, hmem⟩
  · obtain ⟨h, hexec, hfrozen, hbegin, hstays, hagain, hregs, hmem⟩ := gives_qualifierStart hup ht
    refine ⟨h, hexec, fun c _ => hfrozen c, fun hp => ?_, hstays, hagain, hregs, hmem⟩
    obtain ⟨hrx, htimer⟩ := hbegin hp
    exact ⟨by rw [hrx], by rw [hrx], htimer⟩

end Sys2Proof.Machine
end

section
/-!
SUPPORT. The registers of the modem's block; a reception abandoned: the modem is idle, a counter of the modem rises, and a
Last occurrence in progress may have seen foreign energy (R153, R158, R217).
-/
namespace Sys2Proof.Machine

/-! ### The modem's block -/

/-- The field lies in the control block of a slice's modem. -/
def modemField (f : RF) : Prop := 0x41400000 ≤ f.addr ∧ f.addr < 0x41700000

theorem modemField.off_idleRegs {g : RF} (hg : modemField g) (x : Fin 3) : g.addr ∉ idleRegs x := by
  unfold modemField at hg
  simp only [idleRegs, R.RFS_GAIN, R.RFS_DIV, List.mem_flatMap, List.mem_range, List.mem_cons, List.not_mem_nil, or_false]
  rintro ⟨c, hc, hcase⟩
  omega

/-- One of the modem's counters, all of which have 16 bits and stop at their greatest value. -/
structure ModemCounter (f : RF) : Prop where
  block : modemField f
  fits : fits f
  len : f.len = 16

/-- A counter by the address that its register has in the block of slice 0. -/
theorem modemCounter_of_offset {f : RF} {a : Nat} {x : Fin 3} (hf : f.addr = a + 0x100000 * x)
    (h : (decide (0x41400000 ≤ a) && decide (a < 0x41500000) && decide (f.lo + f.len ≤ 32) && decide (f.len = 16)) = true) :
    ModemCounter f := by
  simp only [Bool.and_eq_true, decide_eq_true_eq] at h
  obtain ⟨⟨⟨hlo, hhi⟩, hfits⟩, hlen⟩ := h
  exact ⟨⟨by omega, by omega⟩, hfits, hlen⟩

section
variable (x : Fin 3)

theorem modemCounter_qualFail : ModemCounter (R.PHY_CNT_0_QUAL_FAIL x) := modemCounter_of_offset rfl rfl
theorem modemCounter_falseLock : ModemCounter (R.PHY_CNT_0_FALSE_LOCK x) := modemCounter_of_offset rfl rfl
theorem modemCounter_sigFail : ModemCounter (R.PHY_CNT_3_SIG_FAIL x) := modemCounter_of_offset rfl rfl
theorem modemCounter_streamRej : ModemCounter (R.PHY_CNT_3_STREAM_REJ x) := modemCounter_of_offset rfl rfl
theorem modemCounter_outTol : ModemCounter (R.PHY_CNT_4_OUT_TOL x) := modemCounter_of_offset rfl rfl

end

/-! ### Foreign energy in an occurrence of Last (R217) -/

section
variable (h : Hw) (x : Nat)

theorem Hw.noteForeign_cases : h.noteForeign x = h ∨
    h.noteForeign x = (h.modOcc x fun o => { o with foreign := true }).bump (R.LAST_CNT_0_FOREIGN x) := by
  unfold Hw.noteForeign
  split
  · split
    · exact .inl rfl
    · exact .inr rfl
  · exact .inl rfl

@[simp] theorem Hw.noteForeign_mem : (h.noteForeign x).mem = h.mem := by
  obtain e | e := h.noteForeign_cases x <;> rw [e]
  rfl

@[simp] theorem Hw.noteForeign_free : (h.noteForeign x).free = h.free := by
  obtain e | e := h.noteForeign_cases x <;> rw [e]
  rfl

@[simp] theorem Hw.noteForeign_slice (y : Nat) : (h.noteForeign x).slice y = h.slice y := by
  obtain e | e := h.noteForeign_cases x <;> rw [e]
  rfl

theorem Hw.noteForeign_get (x : Fin 3) {g : RF} (hg : modemField g) : (h.noteForeign x).get g = h.get g := by
  have hne : g.addr ≠ R.LAST_CNT_0 x := by
    unfold modemField at hg
    simp only [R.LAST_CNT_0]
    omega
  obtain e | e := h.noteForeign_cases x <;> rw [e]
  exact Hw.get_congr (Hw.word_bump_ne (h.modOcc x _) (R.LAST_CNT_0_FOREIGN x) 1 hne)

/-! ### A reception dropped, and one abandoned for a reason that is counted -/

@[simp] theorem Hw.stopTimeline_free : (h.stopTimeline x).free = h.free := by simp [Hw.stopTimeline]

theorem Hw.stopTimeline_regs (as : List Nat) : RegsKept as h (h.stopTimeline x) := fun _ _ => by
  simp [Hw.stopTimeline]

theorem Hw.dropReception_regs : RegsKept (idleRegs x) h (h.dropReception x) := by
  unfold Hw.dropReception Hw.idleBegins
  exact (((h.stopTimeline_regs x _).modSlice x _).trans (Hw.idleGain_regs _ x)).modSlice x _

@[simp] theorem Hw.dropReception_free : (h.dropReception x).free = h.free := by
  unfold Hw.dropReception Hw.idleBegins
  exact ((Hw.idleGain_rest _ x).proj Hw.free).trans (h.stopTimeline_free x)

theorem Hw.dropReception_timer : tget (h.dropReception x).timers (.reception x) = none := by
  rw [Hw.dropReception_timers, Hw.stopTimeline, tget_stop, if_neg (by simp), tget_stop, if_pos rfl]

end

/-- The modem of slice `x` is idle, and counter `f` has risen. -/
structure Abandoned (x : Fin 3) (f : RF) (h h' : Hw) : Prop where
  phase : (h'.slice x).rx.phase = .idle
  count : h'.get f = min (h.get f + 1) 65535
  mem : h'.mem = h.mem
  free : h'.free = h.free

section
variable {x : Fin 3} {f : RF} {h h' : Hw}

theorem Hw.dropReception_abandoned (h : Hw) (hf : ModemCounter f) : Abandoned x f h ((h.dropReception x).bump f) where
  phase := by rw [Hw.bump_slice, Hw.dropReception_slice]; rfl
  count := by
    have hkept : (h.dropReception x).get f = h.get f := (h.dropReception_regs x).get (hf.block.off_idleRegs x)
    rw [Hw.get_bump_self _ _ _ hf.fits, hkept, hf.len]
    rfl
  mem := h.dropReception_mem x
  free := h.dropReception_free x

/-- Foreign energy may be noted after the reception is abandoned. -/
theorem Abandoned.noteForeign (ha : Abandoned x f h h') (hf : ModemCounter f) : Abandoned x f h (h'.noteForeign x) where
  phase := by rw [Hw.noteForeign_slice]; exact ha.phase
  count := (h'.noteForeign_get x hf.block).trans ha.count
  mem := (h'.noteForeign_mem x).trans ha.mem
  free := (h'.noteForeign_free x).trans ha.free

/-- Foreign energy may be noted before the reception is abandoned. -/
theorem Abandoned.of_noteForeign (ha : Abandoned x f (h.noteForeign x) h') (hf : ModemCounter f) : Abandoned x f h h' where
  phase := ha.phase
  count := by rw [← h.noteForeign_get x hf.block]; exact ha.count
  mem := ha.mem.trans (h.noteForeign_mem x)
  free := ha.free.trans (h.noteForeign_free x)

/-- The same from the instant that a timer of the reception set. -/
theorem Abandoned.of_arrive {d : Nat} {t : TimerId} (ha : Abandoned x f (h.arrive d t) h') : Abandoned x f h h' where
  phase := ha.phase
  count := by rw [← h.arrive_get d t]; exact ha.count
  mem := ha.mem.trans (h.arrive_mem d t)
  free := ha.free.trans (h.advanceTo_free d)

/-- A false lock (R153). -/
theorem Hw.falseLock_abandoned (h : Hw) : Abandoned x (R.PHY_CNT_0_FALSE_LOCK x) h (h.falseLock x) :=
  (h.dropReception_abandoned (modemCounter_falseLock x)).noteForeign (modemCounter_falseLock x)

end

end Sys2Proof.Machine
end

section
/-!
SUPPORT. The beginning of a reception at D: the control values that it keeps, and the aerial and gain timeline by the modes
that its chains have (R117, R119, R149, R174).
-/
namespace Sys2Proof.Machine

/-! ### The timeline from D (R117, R119) -/

/-- The turn of one chain: it keeps the mode that it has at D, and goes to the first aerial of its timeline. -/
def Hw.timelineTurn (x c : Nat) (h : Hw) : Hw :=
  h.modChain x c fun ch =>
    { ch with
      frozen := false
      diversity := h.get (R.RFS_DIV_MODE x c) == 2
      kA := h.get (R.RFS_GAIN_G_CUR x c)
      aerial := if h.get (R.RFS_DIV_MODE x c) == 2 then 0 else h.get (R.RFS_DIV_MODE x c) }

/-- No earlier timeline runs, and every chain has its mode. -/
def Hw.timelineChains (h : Hw) (x : Nat) : Hw := (h.stopTimeline x).forChains x (Hw.timelineTurn x)

/-- The windows of the fixed chains and of the chains in diversity, if there are any, and the first samples to the
qualifier. -/
def Hw.startWindows (h : Hw) (x : Nat) (fixed diversity : Bool) : Hw :=
  let k := if fixed then h.start (.fixedWindow x) 1600 else h
  let k := if diversity then (k.start (.divSwitch x) 1700).start (.divDecision x) 3400 else k
  k.start (.qualifier x) (if fixed then 1800 else 3600)

section
variable (h : Hw) (x : Nat)

theorem Hw.start_anyFixed (t : TimerId) (n : Nat) : (h.start t n).anyFixed x = h.anyFixed x := rfl
theorem Hw.start_anyDiversity (t : TimerId) (n : Nat) : (h.start t n).anyDiversity x = h.anyDiversity x := rfl

theorem Hw.startTimeline_eq : h.startTimeline x =
    (h.timelineChains x).startWindows x ((h.timelineChains x).anyFixed x) ((h.timelineChains x).anyDiversity x) := by
  unfold Hw.startTimeline Hw.startWindows
  change (let k := h.timelineChains x
    let k' := if k.anyFixed x then k.start (.fixedWindow x) 1600 else k
    let k' := if k'.anyDiversity x then (k'.start (.divSwitch x) 1700).start (.divDecision x) 3400 else k'
    k'.start (.qualifier x) (if k'.anyFixed x then 1800 else 3600)) = _
  generalize h.timelineChains x = k
  cases hfixed : k.anyFixed x <;> cases hdiversity : k.anyDiversity x <;>
    simp [hfixed, hdiversity, Hw.start_anyFixed, Hw.start_anyDiversity]

/-- What neither timers nor chains bear on, the start of a timeline leaves. -/
theorem Hw.startTimeline_keeps {β : Type} (π : Hw → β) (hchain : ∀ k c f, π (Hw.modChain k x c f) = π k)
    (hstart : ∀ k t n, π (Hw.start k t n) = π k) (hstop : ∀ k t, π (Hw.stop k t) = π k) :
    π (h.startTimeline x) = π h := by
  have hchains : π (h.timelineChains x) = π h := by
    rw [Hw.timelineChains, Hw.forChains_keeps (f := Hw.timelineTurn x) _ π fun c k => hchain k c _]
    simp only [Hw.stopTimeline, hstop]
  rw [Hw.startTimeline_eq]
  unfold Hw.startWindows
  dsimp only
  split <;> split <;> simp only [hstart, hchains]

theorem Hw.startTimeline_mem : (h.startTimeline x).mem = h.mem :=
  h.startTimeline_keeps x Hw.mem (fun _ _ _ => rfl) (fun _ _ _ => rfl) fun _ _ => rfl

theorem Hw.startTimeline_et : (h.startTimeline x).et = h.et :=
  h.startTimeline_keeps x Hw.et (fun _ _ _ => rfl) (fun _ _ _ => rfl) fun _ _ => rfl

theorem Hw.startTimeline_slice (y : Nat) : (h.startTimeline x).slice y = h.slice y :=
  h.startTimeline_keeps x (·.slice y) (fun _ _ _ => rfl) (fun _ _ _ => rfl) fun _ _ => rfl

theorem Hw.startTimeline_regs (as : List Nat) : RegsKept as h (h.startTimeline x) := fun a _ =>
  h.startTimeline_keeps x (·.word a) (fun _ _ _ => rfl) (fun _ _ _ => rfl) fun _ _ => rfl

theorem Hw.timelineTurn_other {c b : Nat} (hb : b ≠ c) (k : Hw) : ChainKept x c k (k.timelineTurn x b) :=
  (ChainKept.refl x c k).modChain_other hb _

theorem Hw.timelineChains_diversity {c : Nat} (hc : chainExists x c = true) :
    ((h.timelineChains x).chain x c).diversity = (h.get (R.RFS_DIV_MODE x c) == 2) := by
  obtain ⟨k, hbefore, hafter⟩ := (h.stopTimeline x).forChains_turn (f := Hw.timelineTurn x)
    (fun _ hb => Hw.timelineTurn_other x hb) hc
  have hmode : k.get (R.RFS_DIV_MODE x c) = h.get (R.RFS_DIV_MODE x c) :=
    (hbefore.get rfl rfl).trans (h.stopTimeline_get x _)
  rw [Hw.timelineChains, hafter.chain, Hw.timelineTurn, Hw.modChain_chain, hmode]

theorem chainExists_lt {x c : Nat} (hc : chainExists x c = true) : c < 8 :=
  lt_of_lt_of_le (of_decide_eq_true hc) (chainsOf_le x)

theorem Hw.timelineChains_anyFixed : (h.timelineChains x).anyFixed x = true ↔
    ∃ c < 8, chainExists x c = true ∧ h.get (R.RFS_DIV_MODE x c) ≠ 2 := by
  simp only [Hw.anyFixed, List.any_eq_true, List.mem_range]
  constructor
  · rintro ⟨c, hc, hd⟩
    have he : chainExists x c = true := decide_eq_true hc
    exact ⟨c, chainExists_lt he, he, by simpa [h.timelineChains_diversity x he] using hd⟩
  · rintro ⟨c, -, he, hm⟩
    exact ⟨c, of_decide_eq_true he, by simpa [h.timelineChains_diversity x he] using hm⟩

theorem Hw.timelineChains_anyDiversity : (h.timelineChains x).anyDiversity x = true ↔
    ∃ c < 8, chainExists x c = true ∧ h.get (R.RFS_DIV_MODE x c) = 2 := by
  simp only [Hw.anyDiversity, List.any_eq_true, List.mem_range]
  constructor
  · rintro ⟨c, hc, hd⟩
    have he : chainExists x c = true := decide_eq_true hc
    exact ⟨c, chainExists_lt he, he, by simpa [h.timelineChains_diversity x he] using hd⟩
  · rintro ⟨c, -, he, hm⟩
    exact ⟨c, of_decide_eq_true he, by simpa [h.timelineChains_diversity x he] using hm⟩

theorem Hw.timelineChains_et : (h.timelineChains x).et = h.et := by
  rw [Hw.timelineChains, Hw.forChains_keeps (f := Hw.timelineTurn x) _ Hw.et fun _ _ => rfl, Hw.stopTimeline_et]

theorem Hw.startWindows_fixed (diversity : Bool) :
    tget (h.startWindows x true diversity).timers (.fixedWindow x) = some (h.et + 1600) ∧
      tget (h.startWindows x true diversity).timers (.qualifier x) = some (h.et + 1800) := by
  cases diversity <;> simp [Hw.startWindows, tget_start]

theorem Hw.startWindows_diversity (fixed : Bool) :
    tget (h.startWindows x fixed true).timers (.divSwitch x) = some (h.et + 1700) ∧
      tget (h.startWindows x fixed true).timers (.divDecision x) = some (h.et + 3400) := by
  cases fixed <;> simp [Hw.startWindows, tget_start]

theorem Hw.startWindows_late (diversity : Bool) :
    tget (h.startWindows x false diversity).timers (.qualifier x) = some (h.et + 3600) := by
  cases diversity <;> simp [Hw.startWindows, tget_start]

/-- With a chain in a fixed mode. -/
theorem Hw.startTimeline_fixed (hc : ∃ c < 8, chainExists x c = true ∧ h.get (R.RFS_DIV_MODE x c) ≠ 2) :
    tget (h.startTimeline x).timers (.fixedWindow x) = some (h.et + 1600) ∧
      tget (h.startTimeline x).timers (.qualifier x) = some (h.et + 1800) := by
  rw [Hw.startTimeline_eq, (h.timelineChains_anyFixed x).mpr hc, ← h.timelineChains_et x]
  exact Hw.startWindows_fixed _ x _

/-- With a chain in diversity. -/
theorem Hw.startTimeline_diversity (hc : ∃ c < 8, chainExists x c = true ∧ h.get (R.RFS_DIV_MODE x c) = 2) :
    tget (h.startTimeline x).timers (.divSwitch x) = some (h.et + 1700) ∧
      tget (h.startTimeline x).timers (.divDecision x) = some (h.et + 3400) := by
  rw [Hw.startTimeline_eq, (h.timelineChains_anyDiversity x).mpr hc, ← h.timelineChains_et x]
  exact Hw.startWindows_diversity _ x _

/-- With diversity chains alone. -/
theorem Hw.startTimeline_late (hc : ∀ c < 8, chainExists x c = true → h.get (R.RFS_DIV_MODE x c) = 2) :
    tget (h.startTimeline x).timers (.qualifier x) = some (h.et + 3600) := by
  have hnone : (h.timelineChains x).anyFixed x = false := Bool.eq_false_iff.mpr fun hfixed => by
    obtain ⟨c, hc8, he, hm⟩ := (h.timelineChains_anyFixed x).mp hfixed
    exact hm (hc c hc8 he)
  rw [Hw.startTimeline_eq, hnone, ← h.timelineChains_et x]
  exact Hw.startWindows_late _ x _

/-! ### The reception from D (R149, R174) -/

/-- A reception at D, which is now, with the control values that it keeps. -/
def Hw.receptionAtD : Reception :=
  { Reception.none with
    phase := .timeline
    d := h.et
    qualThresh := h.get (R.PHY_DET_CTL_QUAL_THRESH x)
    restartMargin := h.get (R.PHY_RST_CTL_RESTART_MARGIN x)
    captureMargin := h.get (R.PHY_RST_CTL_CAPTURE_MARGIN x)
    trackThresh := h.get (R.PHY_TRK_CTL_TRACK_THRESH x)
    trackAlways := h.flag (R.PHY_TRK_CTL_TRACK_ALWAYS x)
    pRef := -2048
    rssiCal := (List.range (chainsOf x)).map fun c => h.word (R.PHY_RSSI_CAL x c) }

/-- The slice takes up the reception. -/
def Hw.takeReception : Hw :=
  h.modSlice x fun s => { s with rx := h.receptionAtD x, maxIter := h.get (R.PHY_DEC_CTL_MAX_ITER x) }

theorem Hw.beginReception_eq : h.beginReception x = (h.takeReception x).startTimeline x := rfl

theorem Hw.beginReception_slice : (h.beginReception x).slice x =
    { h.slice x with rx := h.receptionAtD x, maxIter := h.get (R.PHY_DEC_CTL_MAX_ITER x) } := by
  rw [Hw.beginReception_eq, Hw.startTimeline_slice, Hw.takeReception, Hw.modSlice_slice]

theorem Hw.beginReception_mem : (h.beginReception x).mem = h.mem := (h.takeReception x).startTimeline_mem x

theorem Hw.beginReception_et : (h.beginReception x).et = h.et := (h.takeReception x).startTimeline_et x

theorem Hw.beginReception_regs (as : List Nat) : RegsKept as h (h.beginReception x) :=
  ((RegsKept.refl as h).modSlice x _).trans ((h.takeReception x).startTimeline_regs x as)

end

end Sys2Proof.Machine
end

section
/-!
SUPPORT. What a reception comes to at the qualifier, the timing search, L-SIG and the signal fields (R151 to R154, R159, R161,
R162, R167, R171).
-/
namespace Sys2Proof.Machine
variable (h : Hw) (x : Nat)

/-! ### The qualifier (R151) -/

/-- An evaluation that does not pass is followed by another. -/
def Hw.evaluateAgain (n : Nat) : Hw :=
  (h.modSlice x fun s => { s with rx := { s.rx with evaluations := n + 1 } }).start (.qualEval x) 400

/-- The last evaluation did not pass. -/
def Hw.failQualifier : Hw :=
  ((if h.partnerOnAir x then h else h.noteForeign x).dropReception x).bump (R.PHY_CNT_0_QUAL_FAIL x)

/-- The metrics `a` of the lag correlation and `b` of the Barker correlation are compared with the threshold. -/
def Hw.compareMetrics (rx : Reception) (a b : Nat) : Hw :=
  if rx.qualThresh ≤ a then h.qualified x false
  else if rx.qualThresh ≤ b then h.qualified x true
  else if rx.evaluations + 1 < 5 then h.evaluateAgain x rx.evaluations
  else h.failQualifier x

theorem Hw.qualified_search : ((h.qualified x false).slice x).rx.phase = .searching ∧
    tget (h.qualified x false).timers (.lltf x) = some (h.et + 8000) := by
  simp [Hw.qualified, tget_start]

theorem Hw.qualified_dsss :
    ((h.qualified x true).slice x).rx.phase = .beforeLsig ∧ ((h.qualified x true).slice x).rx.dsss = true := by
  simp [Hw.qualified]

theorem Hw.qualified_mem (dsss : Bool) : (h.qualified x dsss).mem = h.mem := by cases dsss <;> rfl

theorem Hw.qualified_et (dsss : Bool) : (h.qualified x dsss).et = h.et := by cases dsss <;> rfl

theorem Hw.evaluateAgain_slice (n : Nat) : (h.evaluateAgain x n).slice x =
    { h.slice x with rx := { (h.slice x).rx with evaluations := n + 1 } } := by
  rw [Hw.evaluateAgain, Hw.start_slice, Hw.modSlice_slice]

theorem Hw.evaluateAgain_timer (n : Nat) : tget (h.evaluateAgain x n).timers (.qualEval x) = some (h.et + 400) := by
  rw [Hw.evaluateAgain, tget_start, if_pos rfl, Hw.modSlice_et]

theorem Hw.failQualifier_abandoned (x : Fin 3) : Abandoned x (R.PHY_CNT_0_QUAL_FAIL x) h (h.failQualifier x) := by
  have hdrop (k : Hw) := k.dropReception_abandoned (x := x) (modemCounter_qualFail x)
  unfold Hw.failQualifier
  split
  · exact hdrop h
  · exact (hdrop _).of_noteForeign (modemCounter_qualFail x)

section
variable {h x} {rx : Reception} {a b : Nat}

theorem Hw.compareMetrics_pass (ha : rx.qualThresh ≤ a) : h.compareMetrics x rx a b = h.qualified x false := if_pos ha

theorem Hw.compareMetrics_barker (ha : a < rx.qualThresh) (hb : rx.qualThresh ≤ b) :
    h.compareMetrics x rx a b = h.qualified x true := by
  rw [Hw.compareMetrics, if_neg (Nat.not_le.mpr ha), if_pos hb]

theorem Hw.compareMetrics_again (ha : a < rx.qualThresh) (hb : b < rx.qualThresh) (hn : rx.evaluations < 4) :
    h.compareMetrics x rx a b = h.evaluateAgain x rx.evaluations := by
  rw [Hw.compareMetrics, if_neg (Nat.not_le.mpr ha), if_neg (Nat.not_le.mpr hb), if_pos (by omega)]

theorem Hw.compareMetrics_fail (ha : a < rx.qualThresh) (hb : b < rx.qualThresh) (hn : 4 ≤ rx.evaluations) :
    h.compareMetrics x rx a b = h.failQualifier x := by
  rw [Hw.compareMetrics, if_neg (Nat.not_le.mpr ha), if_neg (Nat.not_le.mpr hb), if_neg (by omega)]

end

theorem Hw.compareMetrics_mem (x : Fin 3) (rx : Reception) (a b : Nat) : (h.compareMetrics x rx a b).mem = h.mem := by
  unfold Hw.compareMetrics
  split
  · exact h.qualified_mem x _
  · split
    · exact h.qualified_mem x _
    · split
      · rfl
      · exact (h.failQualifier_abandoned x).mem

/-- Without a Barker metric, no outcome draws a free value. -/
theorem Hw.compareMetrics_noBarker (x : Fin 3) {rx : Reception} (a : Nat) (hp : (h.slice x).rx.phase = .qualifying) :
    (h.compareMetrics x rx a 0).free = h.free ∧
      (((h.compareMetrics x rx a 0).slice x).rx.phase = .searching ∨
        ((h.compareMetrics x rx a 0).slice x).rx.phase = .qualifying ∨
        ((h.compareMetrics x rx a 0).slice x).rx.phase = .idle) := by
  by_cases ha : rx.qualThresh ≤ a
  · obtain ⟨hsearching, -⟩ := h.qualified_search x
    rw [Hw.compareMetrics_pass ha]
    exact ⟨rfl, .inl hsearching⟩
  · have ha : a < rx.qualThresh := Nat.lt_of_not_le ha
    have hb : 0 < rx.qualThresh := Nat.zero_lt_of_lt ha
    by_cases hn : rx.evaluations < 4
    · rw [Hw.compareMetrics_again ha hb hn, Hw.evaluateAgain_slice]
      exact ⟨rfl, .inr (.inl hp)⟩
    · rw [Hw.compareMetrics_fail ha hb (Nat.le_of_not_lt hn)]
      have hfail := h.failQualifier_abandoned x
      exact ⟨hfail.free, .inr (.inr hfail.phase)⟩

/-! ### The peak of the L-LTF (R152, R159) -/

/-- The stamp of the instant `back` before now, in units of 2^-16 ns. -/
def Hw.stampBefore (back : Nat) : Stamp :=
  if h.tbLock then stampOf ((h.nt + ntTurn - back * 2 ^ 16 % ntTurn) % ntTurn) else Stamp.zero

/-- The estimate `e` and the instant of the L-STF, `back` before now, are kept. -/
def Hw.takeTiming (back : Nat) (e : Int) : Hw :=
  h.modSlice x fun s =>
    { s with rx := { s.rx with phase := .beforeLsig, stamp := h.stampBefore back, lstf := h.et - back / 2 ^ 16, eps := e } }

/-- A peak whose L-STF was `back` before now and whose estimate is `e`. -/
def Hw.peakFound (back : Nat) (e : Int) : Hw :=
  if e.natAbs = 32767 then ((h.dropReception x).bump (R.PHY_CNT_4_OUT_TOL x)).noteForeign x else h.takeTiming x back e

theorem Hw.takeTiming_rx (back : Nat) (e : Int) : ((h.takeTiming x back e).slice x).rx =
    { (h.slice x).rx with phase := .beforeLsig, stamp := h.stampBefore back, lstf := h.et - back / 2 ^ 16, eps := e } := by
  rw [Hw.takeTiming, Hw.modSlice_slice]

theorem Hw.takeTiming_regs (as : List Nat) (back : Nat) (e : Int) : RegsKept as h (h.takeTiming x back e) :=
  (RegsKept.refl as h).modSlice x _

section
variable {h} {x : Fin 3} {e : Int}

theorem Hw.peakFound_saturated (he : e.natAbs = 32767) (back : Nat) :
    Abandoned x (R.PHY_CNT_4_OUT_TOL x) h (h.peakFound x back e) := by
  rw [Hw.peakFound, if_pos he]
  exact (h.dropReception_abandoned (modemCounter_outTol x)).noteForeign (modemCounter_outTol x)

theorem Hw.peakFound_estimate (he : e.natAbs ≠ 32767) (back : Nat) : h.peakFound x back e = h.takeTiming x back e := if_neg he

theorem Hw.peakFound_mem (back : Nat) (e : Int) : (h.peakFound x back e).mem = h.mem := by
  by_cases he : e.natAbs = 32767
  · exact (Hw.peakFound_saturated he back).mem
  · rw [Hw.peakFound_estimate he]
    rfl

end

/-! ### RSSI (R167) -/

theorem searchBits_lt (p : Nat → Bool) (bits acc : Nat) : searchBits p bits acc < acc + 2 ^ bits := by
  induction bits generalizing acc with
  | zero => simp [searchBits]
  | succ b ih =>
    have hstep := ih (if p (acc + 2 ^ b) then acc + 2 ^ b else acc)
    have hchosen : (if p (acc + 2 ^ b) then acc + 2 ^ b else acc) ≤ acc + 2 ^ b := by
      split <;> simp
    rw [searchBits, Nat.pow_succ]
    omega

theorem meanLevel_range (sum n : Nat) : -2 ^ 11 ≤ meanLevel sum n ∧ meanLevel sum n < 2 ^ 11 := by
  have hlt := searchBits_lt (fun k => decide (n * linearOf (256 * ((k : Int) - 2048)) ≤ sum)) 12 0
  unfold meanLevel
  omega

theorem Hw.ppduRssi_of_levels {h : Hw} {x : Nat} {pAdc l : List Int}
    (hl : h.okLevels x (fun c => ((h.slice x).rx.rssiCal[c]?).getD 0) pAdc = l) (hne : l ≠ []) :
    h.ppduRssi x pAdc = (h, meanLevel (linearSum l) l.length) := by
  unfold Hw.ppduRssi
  rw [hl]
  cases l with
  | nil => exact absurd rfl hne
  | cons p t => rfl

/-! ### A header that passes (R153, R161, R167, R175, R189) -/

/-- The reception is past its header, and the link owes no protection. -/
def Hw.passHeader (tracked : Bool) : Hw :=
  (h.modSlice x fun s =>
    { s with rx := { (h.slice x).rx with phase := .afterLsig, tracked := tracked }, lastStamp := (h.slice x).rx.stamp,
             spoiled := [], decoded := [] }).modWeltLink x fun w => { w with protect := false }

/-- The RSSI of one chain is reported. -/
def Hw.rssiTurn (pAdc : List Int) (x c : Nat) (h : Hw) : Hw :=
  match pAdc[c]? with
  | some p => h.setI (R.PHY_LAST_RSSI_c_RSSI x c) (h.rssiOf x c p)
  | none => h

/-- The RSSI `r` of the PPDU and those of its chains are reported. -/
def Hw.reportRssi (pAdc : List Int) (r : Int) : Hw := (h.setI (R.PHY_LAST_RSSI_RSSI x) r).forChains x (Hw.rssiTurn pAdc x)

/-- The frequency estimate is reported. -/
def Hw.reportEstimate (rx : Reception) : Hw :=
  if rx.dsss then (h.setI (R.PHY_LAST_CFO_CFO x) (signedOf 16 h.freeNat)).drawn else h.setI (R.PHY_LAST_CFO_CFO x) rx.eps

/-- Whether pilot tracking runs and whether the estimate is out of tolerance are reported. -/
def Hw.reportTracking (t o : Bool) : Hw := (h.setFlag (R.PHY_LAST_CFO_TRACKED x) t).setFlag (R.PHY_LAST_CFO_OUT_TOL x) o

/-- Tracking and excess of tolerance are counted. -/
def Hw.countTracking (t o : Bool) : Hw :=
  let k := if t then h.bump (R.PHY_CNT_4_TRACK_ON x) else h
  if o then k.bump (R.PHY_CNT_4_OUT_TOL x) else k

/-- All that a header that passes has reported. -/
def Hw.reportHeader (pAdc : List Int) (rx : Reception) (t o : Bool) : Hw :=
  ((((h.ppduRssi x pAdc).1.reportRssi x pAdc (h.ppduRssi x pAdc).2).reportEstimate x rx).reportTracking x t
    o).countTracking x t o

/-- Pilot tracking of a reception, which no DSSS PPDU has, and its excess of tolerance. -/
def tracksPpdu (rx : Reception) (dur : Nat) : Bool := !rx.dsss && tracks rx dur
def exceedsTolerance (rx : Reception) : Bool := !rx.dsss && outOfTolerance rx.eps

/-- The hardware after the reports, before the end of the reception is set. -/
def Hw.headerReported (pAdc : List Int) (dur : Nat) : Hw :=
  (h.passHeader x (tracksPpdu (h.slice x).rx dur)).reportHeader x pAdc (h.slice x).rx (tracksPpdu (h.slice x).rx dur)
    (exceedsTolerance (h.slice x).rx)

theorem Hw.headerPassed_eq (pAdc : List Int) (dur stop : Nat) : h.headerPassed x pAdc dur stop =
    (h.headerReported x pAdc dur).startAt (.reception x) (max (h.headerReported x pAdc dur).et stop) := rfl

/-! What neither registers nor free values bear on, the reports leave. -/

theorem Hw.reportHeader_keeps {β : Type} (π : Hw → β) (hset : ∀ k f v, π (Hw.set k f v) = π k)
    (hdrawn : ∀ k, π (Hw.drawn k) = π k) (pAdc : List Int) (rx : Reception) (t o : Bool) :
    π (h.reportHeader x pAdc rx t o) = π h := by
  have hrssi : π (h.ppduRssi x pAdc).1 = π h := by
    unfold Hw.ppduRssi
    split
    · exact hdrawn h
    · rfl
  have hturn (c : Nat) (k : Hw) : π (k.rssiTurn pAdc x c) = π k := by
    unfold Hw.rssiTurn
    split
    · exact hset k _ _
    · rfl
  have hlevels (k : Hw) (r : Int) : π (k.reportRssi x pAdc r) = π k :=
    (Hw.forChains_keeps _ π hturn).trans (hset k _ _)
  have hestimate (k : Hw) : π (k.reportEstimate x rx) = π k := by
    unfold Hw.reportEstimate
    split
    · exact (hdrawn _).trans (hset k _ _)
    · exact hset k _ _
  have htracking (k : Hw) : π (k.reportTracking x t o) = π k := (hset _ _ _).trans (hset k _ _)
  have hcount (k : Hw) : π (k.countTracking x t o) = π k := by
    cases t <;> cases o <;> simp [Hw.countTracking, Hw.bump, hset]
  rw [Hw.reportHeader, hcount, htracking, hestimate, hlevels, hrssi]

section
variable (pAdc : List Int) (dur : Nat)

theorem Hw.headerReported_mem : (h.headerReported x pAdc dur).mem = h.mem :=
  Hw.reportHeader_keeps _ x Hw.mem (fun _ _ _ => rfl) (fun _ => rfl) _ _ _ _

theorem Hw.headerReported_et : (h.headerReported x pAdc dur).et = h.et :=
  Hw.reportHeader_keeps _ x Hw.et (fun _ _ _ => rfl) (fun _ => rfl) _ _ _ _

theorem Hw.modWeltLink_slice (l : Nat) (f : WeltLink → WeltLink) (y : Nat) : (h.modWeltLink l f).slice y = h.slice y := rfl

theorem Hw.passHeader_rx (tracked : Bool) : ((h.passHeader x tracked).slice x).rx =
    { (h.slice x).rx with phase := .afterLsig, tracked := tracked } :=
  congrArg Slice.rx ((Hw.modWeltLink_slice _ x _ x).trans (Hw.modSlice_slice h x _))

theorem Hw.headerReported_rx : ((h.headerReported x pAdc dur).slice x).rx =
    { (h.slice x).rx with phase := .afterLsig, tracked := tracksPpdu (h.slice x).rx dur } :=
  (Hw.reportHeader_keeps _ x (fun k => (k.slice x).rx) (fun _ _ _ => rfl) (fun _ => rfl) _ _ _ _).trans (h.passHeader_rx x _)

theorem Hw.headerReported_protect : ((h.headerReported x pAdc dur).weltLink x).protect = false :=
  (Hw.reportHeader_keeps _ x (fun k => (k.weltLink x).protect) (fun _ _ _ => rfl) (fun _ => rfl) _ _ _ _).trans
    (congrArg WeltLink.protect (kgetD_kput_self _ _ _ _))

end

/-! The reports. -/

/-- The registers in which the RSSI of each chain is reported. -/
def chainRssiRegs : List Nat := (List.range 8).map (R.PHY_LAST_RSSI_c x)

section
variable (pAdc : List Int) (r : Int) (rx : Reception) (t o : Bool)

theorem Hw.reportRssi_ppdu (hlo : -2 ^ 11 ≤ r) (hhi : r < 2 ^ 11) :
    (h.reportRssi x pAdc r).getI (R.PHY_LAST_RSSI_RSSI x) = r := by
  have hturns : RegsKept (chainRssiRegs x) (h.setI (R.PHY_LAST_RSSI_RSSI x) r) (h.reportRssi x pAdc r) :=
    Hw.forChains_regs _ fun c hc k => by
      unfold Hw.rssiTurn
      split
      · exact (RegsKept.refl _ k).set _ _
          (List.mem_map_of_mem (List.mem_range.mpr (lt_of_lt_of_le hc (chainsOf_le x))))
      · exact RegsKept.refl _ k
  have hoff : (R.PHY_LAST_RSSI_RSSI x).addr ∉ chainRssiRegs x := by
    simp only [chainRssiRegs, R.PHY_LAST_RSSI_RSSI, R.PHY_LAST_RSSI, R.PHY_LAST_RSSI_c, List.mem_map, List.mem_range]
    rintro ⟨c, hc, hcase⟩
    omega
  rw [Hw.getI_congr (hturns.get hoff)]
  exact Hw.getI_setI_self h (n := 11) (fits_of_bits rfl) rfl hlo hhi

theorem Hw.reportEstimate_regs : RegsKept [R.PHY_LAST_CFO x] h (h.reportEstimate x rx) := by
  unfold Hw.reportEstimate
  split
  · exact (RegsKept.refl _ h).set (R.PHY_LAST_CFO_CFO x) _ (.head _)
  · exact (RegsKept.refl _ h).set (R.PHY_LAST_CFO_CFO x) _ (.head _)

theorem Hw.reportEstimate_ofdm (hd : rx.dsss = false) (he : rx.eps.natAbs < 32768) :
    (h.reportEstimate x rx).getI (R.PHY_LAST_CFO_CFO x) = rx.eps := by
  rw [Hw.reportEstimate, if_neg (by simp [hd])]
  exact Hw.getI_setI_self h (n := 15) (fits_of_bits rfl) rfl (by omega) (by omega)

theorem Hw.reportTracking_regs : RegsKept [R.PHY_LAST_CFO x] h (h.reportTracking x t o) :=
  ((RegsKept.refl _ h).set (R.PHY_LAST_CFO_TRACKED x) _ (.head _)).set (R.PHY_LAST_CFO_OUT_TOL x) _ (.head _)

theorem Hw.reportTracking_estimate : (h.reportTracking x t o).getI (R.PHY_LAST_CFO_CFO x) = h.getI (R.PHY_LAST_CFO_CFO x) :=
  Hw.getI_congr ((Hw.get_setFlag_apart _ _ _ _ (apart_of_bits rfl)).trans (Hw.get_setFlag_apart _ _ _ _ (apart_of_bits rfl)))

theorem Hw.reportTracking_tracked : (h.reportTracking x t o).get (R.PHY_LAST_CFO_TRACKED x) = if t then 1 else 0 :=
  (Hw.get_setFlag_apart _ _ _ _ (apart_of_bits rfl)).trans (Hw.get_setFlag_self _ _ _ (fits_of_bits rfl) Nat.one_pos)

theorem Hw.reportTracking_outTol : (h.reportTracking x t o).get (R.PHY_LAST_CFO_OUT_TOL x) = if o then 1 else 0 :=
  Hw.get_setFlag_self _ _ _ (fits_of_bits rfl) Nat.one_pos

theorem Hw.countTracking_regs : RegsKept [R.PHY_CNT_4 x] h (h.countTracking x t o) := by
  have hon : RegsKept [R.PHY_CNT_4 x] h (h.bump (R.PHY_CNT_4_TRACK_ON x)) := (RegsKept.refl _ h).bump _ 1 (.head _)
  unfold Hw.countTracking
  dsimp only
  split <;> split
  · exact hon.bump (R.PHY_CNT_4_OUT_TOL x) 1 (.head _)
  · exact (RegsKept.refl _ h).bump (R.PHY_CNT_4_OUT_TOL x) 1 (.head _)
  · exact hon
  · exact RegsKept.refl _ h

/-- The estimate, tracking and the counts stand in other registers than the RSSI of the PPDU. -/
theorem Hw.reportHeader_rssi {g : RF} (hg : g.addr = R.PHY_LAST_RSSI x) : (h.reportHeader x pAdc rx t o).get g =
    ((h.ppduRssi x pAdc).1.reportRssi x pAdc (h.ppduRssi x pAdc).2).get g := by
  have hcfo : g.addr ∉ [R.PHY_LAST_CFO x] := by simp [hg, R.PHY_LAST_RSSI, R.PHY_LAST_CFO]
  have hcnt : g.addr ∉ [R.PHY_CNT_4 x] := by simp [hg, R.PHY_LAST_RSSI, R.PHY_CNT_4]
  exact ((Hw.countTracking_regs _ x t o).get hcnt).trans
    (((Hw.reportTracking_regs _ x t o).get hcfo).trans ((Hw.reportEstimate_regs _ x rx).get hcfo))

theorem Hw.reportHeader_cfo {g : RF} (hg : g.addr = R.PHY_LAST_CFO x) : (h.reportHeader x pAdc rx t o).get g =
    ((((h.ppduRssi x pAdc).1.reportRssi x pAdc (h.ppduRssi x pAdc).2).reportEstimate x rx).reportTracking x t o).get g :=
  (Hw.countTracking_regs _ x t o).get (by simp [hg, R.PHY_LAST_CFO, R.PHY_CNT_4])

end

/-- What the header of an OFDM PPDU has reported of RSSI, estimate and tracking. -/
theorem Hw.headerReported_ofdm {h : Hw} {x : Nat} {pAdc l : List Int} (dur : Nat) (hd : (h.slice x).rx.dsss = false)
    (he : (h.slice x).rx.eps.natAbs < 32768)
    (hl : h.okLevels x (fun c => ((h.slice x).rx.rssiCal[c]?).getD 0) pAdc = l) (hne : l ≠ []) :
    (h.headerReported x pAdc dur).getI (R.PHY_LAST_RSSI_RSSI x) = meanLevel (linearSum l) l.length ∧
      (h.headerReported x pAdc dur).getI (R.PHY_LAST_CFO_CFO x) = (h.slice x).rx.eps ∧
      (h.headerReported x pAdc dur).get (R.PHY_LAST_CFO_TRACKED x) = (if tracks (h.slice x).rx dur then 1 else 0) ∧
      (h.headerReported x pAdc dur).get (R.PHY_LAST_CFO_OUT_TOL x) = if outOfTolerance (h.slice x).rx.eps then 1 else 0 := by
  have htracks : tracksPpdu (h.slice x).rx dur = tracks (h.slice x).rx dur := by simp [tracksPpdu, hd]
  have hexceeds : exceedsTolerance (h.slice x).rx = outOfTolerance (h.slice x).rx.eps := by simp [exceedsTolerance, hd]
  have hlevels : (h.passHeader x (tracks (h.slice x).rx dur)).okLevels x (fun c =>
      (((h.passHeader x (tracks (h.slice x).rx dur)).slice x).rx.rssiCal[c]?).getD 0) pAdc = l := by
    rw [Hw.passHeader_rx]
    exact hl
  have hrssi := Hw.ppduRssi_of_levels hlevels hne
  obtain ⟨hlo, hhi⟩ := meanLevel_range (linearSum l) l.length
  generalize meanLevel (linearSum l) l.length = r at hrssi hlo hhi ⊢
  rw [Hw.headerReported, htracks, hexceeds]
  refine ⟨?_, ?_, ?_, ?_⟩
  · rw [Hw.getI_congr (Hw.reportHeader_rssi _ x _ _ _ _ rfl), hrssi]
    exact Hw.reportRssi_ppdu _ x pAdc _ hlo hhi
  · rw [Hw.getI_congr (Hw.reportHeader_cfo _ x _ _ _ _ rfl), Hw.reportTracking_estimate]
    exact Hw.reportEstimate_ofdm _ x _ hd he
  · exact (Hw.reportHeader_cfo _ x _ _ _ _ rfl).trans (Hw.reportTracking_tracked _ x _ _)
  · exact (Hw.reportHeader_cfo _ x _ _ _ _ rfl).trans (Hw.reportTracking_outTol _ x _ _)

/-! ### The signal fields (R154, R162, R171) -/

/-- The PPDU is abandoned for a reason that `f` counts, and the medium is busy to its declared end. -/
def Hw.rejectPpdu (stop : Nat) (f : RF) : Hw :=
  ((h.dropReception x).modSlice x fun s => { s with busyUntil := stop }).bump f

/-- How the PPDU is detected, the period of its midambles and its own training field are noted. -/
def Hw.noteFields (f : SignalField) : Hw :=
  h.modSlice x fun s =>
    { s with rx := { s.rx with detector := some (detectorOf f), midamble := f.shape.midamble,
                               blank := (s.rx.lstf + f.stf.1, s.rx.lstf + f.stf.1 + f.stf.2) } }

/-- The signal fields of a PPDU that is declared to end at `stop`. -/
def Hw.checkFields (stop : Nat) (f : SignalField) : Hw :=
  if !f.valid || !formatSupported x true f.shape then h.rejectPpdu x stop (R.PHY_CNT_3_SIG_FAIL x)
  else if h.receiveChains x < f.streams ∨ 4 < f.users then h.rejectPpdu x stop (R.PHY_CNT_3_STREAM_REJ x)
  else h.noteFields x f

theorem Hw.noteFields_rx (f : SignalField) : ((h.noteFields x f).slice x).rx =
    { (h.slice x).rx with
      detector := some (detectorOf f)
      midamble := f.shape.midamble
      blank := ((h.slice x).rx.lstf + f.stf.1, (h.slice x).rx.lstf + f.stf.1 + f.stf.2) } := by
  rw [Hw.noteFields, Hw.modSlice_slice]

theorem Hw.noteFields_regs (as : List Nat) (f : SignalField) : RegsKept as h (h.noteFields x f) :=
  (RegsKept.refl as h).modSlice x _

theorem Hw.rejectPpdu_abandoned (x : Fin 3) (stop : Nat) {f : RF} (hf : ModemCounter f) :
    Abandoned x f h (h.rejectPpdu x stop f) :=
  have hdrop := h.dropReception_abandoned hf
  { phase := by rw [Hw.rejectPpdu, Hw.bump_slice, Hw.modSlice_slice, Hw.dropReception_slice]; rfl
    count := hdrop.count
    mem := hdrop.mem
    free := hdrop.free }

theorem Hw.rejectPpdu_busy (stop : Nat) (f : RF) : ((h.rejectPpdu x stop f).slice x).busyUntil = stop := by
  rw [Hw.rejectPpdu, Hw.bump_slice, Hw.modSlice_slice]

section
variable {h x} {f : SignalField}

theorem Hw.checkFields_fail (hf : f.valid = false ∨ formatSupported x true f.shape = false) (stop : Nat) :
    h.checkFields x stop f = h.rejectPpdu x stop (R.PHY_CNT_3_SIG_FAIL x) :=
  if_pos (by obtain hf | hf := hf <;> simp [hf])

theorem Hw.checkFields_excess (hv : f.valid = true) (hs : formatSupported x true f.shape = true)
    (he : h.receiveChains x < f.streams ∨ 4 < f.users) (stop : Nat) :
    h.checkFields x stop f = h.rejectPpdu x stop (R.PHY_CNT_3_STREAM_REJ x) := by
  rw [Hw.checkFields, if_neg (by simp [hv, hs]), if_pos he]

theorem Hw.checkFields_pass (hv : f.valid = true) (hs : formatSupported x true f.shape = true)
    (hc : f.streams ≤ h.receiveChains x) (hu : f.users ≤ 4) (stop : Nat) : h.checkFields x stop f = h.noteFields x f := by
  rw [Hw.checkFields, if_neg (by simp [hv, hs]), if_neg (by omega)]

/-- The fields are noted or one of the two counters says why not. -/
theorem Hw.checkFields_cases (h : Hw) (x : Fin 3) (stop : Nat) (f : SignalField) :
    h.checkFields x stop f = h.noteFields x f ∧ f.valid = true ∧ formatSupported x true f.shape = true ∧
        f.streams ≤ h.receiveChains x ∧ f.users ≤ 4 ∨
      ∃ g, ModemCounter g ∧ h.checkFields x stop f = h.rejectPpdu x stop g := by
  by_cases hf : f.valid = false ∨ formatSupported x true f.shape = false
  · exact .inr ⟨_, modemCounter_sigFail x, Hw.checkFields_fail hf stop⟩
  · obtain ⟨hv, hs⟩ := not_or.mp hf
    rw [Bool.not_eq_false] at hv hs
    by_cases he : h.receiveChains x < f.streams ∨ 4 < f.users
    · exact .inr ⟨_, modemCounter_streamRej x, Hw.checkFields_excess hv hs he stop⟩
    · have hc : f.streams ≤ h.receiveChains x := by omega
      have hu : f.users ≤ 4 := by omega
      exact .inl ⟨Hw.checkFields_pass hv hs hc hu stop, hv, hs, hc, hu⟩

end

end Sys2Proof.Machine
end

section
/-!
SUPPORT. The commands of a reception, and the settlement of `Obligations.ReceptionFromEnergyToSignalFields` (R149 to R154, R159,
R161, R162, R167, R171, R174).
-/
namespace Sys2Proof.Machine
variable {s : State} {x : Fin 3}

/-! ### ENERGY_CROSSING and TB_EXPECTED_START (R149, R150) -/

theorem gives_energyCrossing_reached (hup : s.hw.mainUp = true) {rs : List (List Cx)} (hdet : s.hw.detecting x = true)
    (hpow : 4 * s.hw.getI (R.PHY_DET_CTL_ED_THRESH x) ≤ s.hw.slicePower x rs) : Gives (.energyCrossing x rs) s fun h =>
      (h.slice x).rx = s.hw.receptionAtD x ∧ (h.slice x).energy = true ∧
      ((∃ c < 8, chainExists x c = true ∧ s.hw.get (R.RFS_DIV_MODE x c) ≠ 2) →
        tget h.timers (.fixedWindow x) = some (s.hw.et + 1600) ∧ tget h.timers (.qualifier x) = some (s.hw.et + 1800)) ∧
      ((∃ c < 8, chainExists x c = true ∧ s.hw.get (R.RFS_DIV_MODE x c) = 2) →
        tget h.timers (.divSwitch x) = some (s.hw.et + 1700) ∧ tget h.timers (.divDecision x) = some (s.hw.et + 3400)) ∧
      ((∀ c < 8, chainExists x c = true → s.hw.get (R.RFS_DIV_MODE x c) = 2) →
        tget h.timers (.qualifier x) = some (s.hw.et + 3600)) ∧
      RegsKept [] s.hw h ∧ MemKept s.hw h := by
  let k := s.hw.modSlice x fun y => { y with energy := true }
  have hslice : (k.beginReception x).slice x =
      { k.slice x with rx := k.receptionAtD x, maxIter := k.get (R.PHY_DEC_CTL_MAX_ITER x) } := k.beginReception_slice x
  have hk : k.slice x = { s.hw.slice x with energy := true } := s.hw.modSlice_slice x _
  refine gives_of_effect_eq (e := execEnergyCrossing x rs s) (h := k.beginReception x) rfl rfl hup
    ((if_neg (by simp [hdet])).trans (if_pos hpow)) ⟨?_, ?_, fun hc => ?_, fun hc => ?_, fun hc => ?_, ?_,
      MemKept.canon (.of_mem (k.beginReception_mem x))⟩
  · rw [Hw.canon_slice, hslice]
    rfl
  · rw [Hw.canon_slice, hslice, hk]
  · exact (k.takeReception x).startTimeline_fixed x hc
  · exact (k.takeReception x).startTimeline_diversity x hc
  · exact (k.takeReception x).startTimeline_late x hc
  · exact (((RegsKept.refl _ s.hw).modSlice x _).trans (k.beginReception_regs x _)).canon

/-- Energy that ends shows an idle medium from now, but during the partner's own transmission. -/
def Hw.energyEnds (h : Hw) (x : Nat) : Hw :=
  if (h.slice x).energy then
    h.modSlice x fun y => { y with energy := false, idleFrom := if h.partnerOnAir x then (h.slice x).idleFrom else h.et }
  else h

theorem Hw.energyEnds_slice (h : Hw) (x : Nat) : (h.energyEnds x).slice x =
    { h.slice x with
      energy := false
      idleFrom := if (h.slice x).energy = true ∧ h.partnerOnAir x = false then h.et else (h.slice x).idleFrom } := by
  unfold Hw.energyEnds
  split
  · next he =>
    rw [Hw.modSlice_slice]
    cases h.partnerOnAir x <;> simp [he]
  · next he =>
    rw [if_neg fun hc => he hc.1, ← (Bool.not_eq_true _).mp he]

theorem Hw.energyEnds_mem (h : Hw) (x : Nat) : (h.energyEnds x).mem = h.mem := by
  unfold Hw.energyEnds
  split <;> rfl

theorem Hw.energyEnds_regs (h : Hw) (x : Nat) (as : List Nat) : RegsKept as h (h.energyEnds x) := by
  unfold Hw.energyEnds
  split
  · exact (RegsKept.refl as h).modSlice x _
  · exact RegsKept.refl as h

theorem gives_energyCrossing_below (hup : s.hw.mainUp = true) {rs : List (List Cx)} (hdet : s.hw.detecting x = true)
    (hpow : s.hw.slicePower x rs < 4 * s.hw.getI (R.PHY_DET_CTL_ED_THRESH x)) : Gives (.energyCrossing x rs) s fun h =>
      (h.slice x).rx = (s.hw.slice x).rx ∧ (h.slice x).energy = false ∧
      (h.slice x).idleFrom = (if (s.hw.slice x).energy = true ∧ s.hw.partnerOnAir x = false then s.hw.et
        else (s.hw.slice x).idleFrom) ∧ RegsKept [] s.hw h ∧ MemKept s.hw h := by
  have hslice : (s.hw.energyEnds x).canon.slice x = _ := s.hw.energyEnds_slice x
  refine gives_of_effect_eq (e := execEnergyCrossing x rs s) (h := s.hw.energyEnds x) rfl rfl hup
    ((if_neg (by simp [hdet])).trans (if_neg (Int.not_le.mpr hpow))) ⟨?_, ?_, ?_, (s.hw.energyEnds_regs x _).canon,
      MemKept.canon (.of_mem (s.hw.energyEnds_mem x))⟩ <;> rw [hslice]

theorem gives_tbExpectedStart (hup : s.hw.mainUp = true) {d : Nat} (ht : tget s.hw.timers (.tbStart x) = some d)
    (hdet : s.hw.detecting x = true) : Gives (.tbExpectedStart x) s fun h =>
      (h.slice x).rx.phase = .timeline ∧ (h.slice x).rx.d = h.et ∧ RegsKept [] s.hw h ∧ MemKept s.hw h := by
  let a := s.hw.arrive d (.tbStart x)
  have hretune : tget a.timers (.retune x) = tget s.hw.timers (.retune x) :=
    (tget_stop _ _ _).trans ((if_neg (by simp)).trans (by rw [Hw.advanceTo_timers]))
  have hdet' : a.detecting x = true := by
    rw [← hdet]
    simp only [a, Hw.detecting, Hw.measuring, Hw.receiving, Hw.synth, Hw.running, hretune, Hw.arrive_get, Hw.arrive_slice]
  refine gives_of_effect_eq (e := execTbExpectedStart x s) (h := a.beginReception x) rfl rfl hup
    ((Hw.onTimer_arrive ht _).trans (if_pos hdet')) ⟨?_, ?_, ?_, MemKept.canon (.of_mem ?_)⟩
  · rw [Hw.canon_slice, Hw.beginReception_slice]
    rfl
  · rw [Hw.canon_slice, Hw.beginReception_slice, Hw.canon_et, Hw.beginReception_et]
    rfl
  · exact ((s.hw.arrive_regs d _ _).trans (a.beginReception_regs x _)).canon
  · rw [Hw.beginReception_mem, Hw.arrive_mem]

/-! ### QUAL_EVALUATION (R151) -/

section
variable {rs : List (List Cx)} {chips : List Cx} {d : Nat}

/-- An evaluation is the comparison of the metrics at its instant. -/
theorem gives_qualEvaluation {k : Hw} {a b : Nat} {P : Hw → Prop} (hup : s.hw.mainUp = true)
    (ht : tget s.hw.timers (.qualEval x) = some d) (hp : (s.hw.slice x).rx.phase = .qualifying)
    (hm : (s.hw.arrive d (.qualEval x)).metrics x rs chips = (k, a, b))
    (hP : P (k.compareMetrics x (s.hw.slice x).rx a b).canon) : Gives (.qualEvaluation x rs chips) s P := by
  rw [← s.hw.arrive_slice d (.qualEval x)] at hp hP
  refine gives_of_effect_eq (e := execQualEvaluation x rs chips s) rfl rfl hup
    ((Hw.onTimer_arrive ht _).trans ((if_neg (not_not.mpr hp)).trans ?_)) hP
  rw [hm]
  rfl

theorem gives_qualEvaluation_metric (hup : s.hw.mainUp = true) {a b : Nat}
    (ht : tget s.hw.timers (.qualEval x) = some d) (hp : (s.hw.slice x).rx.phase = .qualifying)
    (ha : lagMetric rs = some a) (hb : b = if x = 0 then barkerMetric chips else 0) :
    Gives (.qualEvaluation x rs chips) s fun h =>
      ((s.hw.slice x).rx.qualThresh ≤ a → (h.slice x).rx.phase = .searching ∧ tget h.timers (.lltf x) = some (h.et + 8000)) ∧
      (a < (s.hw.slice x).rx.qualThresh → (s.hw.slice x).rx.qualThresh ≤ b →
        (h.slice x).rx.phase = .beforeLsig ∧ (h.slice x).rx.dsss = true) ∧
      (a < (s.hw.slice x).rx.qualThresh → b < (s.hw.slice x).rx.qualThresh → (s.hw.slice x).rx.evaluations < 4 →
        (h.slice x).rx.phase = .qualifying ∧ (h.slice x).rx.evaluations = (s.hw.slice x).rx.evaluations + 1 ∧
        tget h.timers (.qualEval x) = some (h.et + 400)) ∧
      (a < (s.hw.slice x).rx.qualThresh → b < (s.hw.slice x).rx.qualThresh → 4 ≤ (s.hw.slice x).rx.evaluations →
        (h.slice x).rx.phase = .idle ∧
        h.get (R.PHY_CNT_0_QUAL_FAIL x) = min (s.hw.get (R.PHY_CNT_0_QUAL_FAIL x) + 1) 65535) ∧ MemKept s.hw h := by
  let n := s.hw.arrive d (.qualEval x)
  have hslice : n.slice x = s.hw.slice x := s.hw.arrive_slice d _ x
  have hm : n.metrics x rs chips = (n, a, b) := by
    have hx : (if (x : Nat) = 0 then barkerMetric chips else 0) = b := by
      rw [hb]
      exact if_congr Fin.val_eq_zero_iff rfl rfl
    simp only [Hw.metrics, ha, hx]
  refine gives_qualEvaluation hup ht hp hm ⟨fun h1 => ?_, fun h1 h2 => ?_, fun h1 h2 h3 => ?_, fun h1 h2 h3 => ?_,
    MemKept.canon (.of_mem ((n.compareMetrics_mem x _ a b).trans (s.hw.arrive_mem d _)))⟩
  · rw [Hw.compareMetrics_pass h1, Hw.canon_et, Hw.qualified_et]
    exact n.qualified_search x
  · rw [Hw.compareMetrics_barker h1 h2]
    exact n.qualified_dsss x
  · rw [Hw.compareMetrics_again h1 h2 h3, Hw.canon_slice, Hw.evaluateAgain_slice, hslice]
    exact ⟨hp, rfl, n.evaluateAgain_timer x _⟩
  · rw [Hw.compareMetrics_fail h1 h2 h3]
    have hfail : Abandoned x _ s.hw (n.failQualifier x) := (n.failQualifier_abandoned x).of_arrive
    exact ⟨hfail.phase, hfail.count⟩

theorem gives_qualEvaluation_undefined (hup : s.hw.mainUp = true) (ht : tget s.hw.timers (.qualEval x) = some d)
    (hp : (s.hw.slice x).rx.phase = .qualifying) (hx : x ≠ 0) (ha : lagMetric rs = none) :
    Gives (.qualEvaluation x rs chips) s fun h => h.free = s.hw.free + 1 ∧
      ((h.slice x).rx.phase = .searching ∨ (h.slice x).rx.phase = .qualifying ∨ (h.slice x).rx.phase = .idle) ∧
      MemKept s.hw h := by
  let n := s.hw.arrive d (.qualEval x)
  have hm : n.metrics x rs chips = (n.drawn, n.freeNat % 32768, 0) := by
    have hx : (x : Nat) ≠ 0 := Fin.val_ne_zero_iff.mpr hx
    simp only [Hw.metrics, ha, if_neg hx]
  have hp' : (n.drawn.slice x).rx.phase = .qualifying := by rw [← hp, ← s.hw.arrive_slice d (.qualEval x)]; rfl
  obtain ⟨hfree, hphase⟩ := n.drawn.compareMetrics_noBarker x (rx := (s.hw.slice x).rx) (n.freeNat % 32768) hp'
  have hdrawn : n.drawn.free = s.hw.free + 1 := congrArg (· + 1) (s.hw.advanceTo_free d)
  exact gives_qualEvaluation hup ht hp hm ⟨hfree.trans hdrawn, hphase,
    MemKept.canon (.of_mem ((n.drawn.compareMetrics_mem x _ _ 0).trans (s.hw.arrive_mem d (.qualEval x))))⟩

end

/-! ### LLTF_TIMING_SEARCH (R152, R159) -/

theorem gives_lltfTimingSearch_none (hup : s.hw.mainUp = true) {coarse fine : Int} {d : Nat}
    (ht : tget s.hw.timers (.lltf x) = some d) (hp : (s.hw.slice x).rx.phase = .searching) :
    Gives (.lltfTimingSearch x none coarse fine) s fun h => (h.slice x).rx.phase = .idle ∧
      h.get (R.PHY_CNT_0_FALSE_LOCK x) = min (s.hw.get (R.PHY_CNT_0_FALSE_LOCK x) + 1) 65535 ∧ MemKept s.hw h := by
  let n := s.hw.arrive d (.lltf x)
  have hlock : Abandoned x _ s.hw (n.falseLock x) := n.falseLock_abandoned.of_arrive
  exact gives_of_effect_eq (e := execLltfTimingSearch x none coarse fine s) (h := n.falseLock x) rfl rfl hup
    ((if_neg (not_not.mpr hp)).trans (Hw.onTimer_arrive ht _)) ⟨hlock.phase, hlock.count, MemKept.canon (.of_mem hlock.mem)⟩

theorem gives_lltfTimingSearch_peak (hup : s.hw.mainUp = true) {age stop : Nat} {coarse fine e : Int}
    (ht : tget s.hw.timers (.lltf x) = some stop) (hp : (s.hw.slice x).rx.phase = .searching)
    (hlo : age + (stop - 8000) * 2 ^ 16 ≤ s.hw.et * 2 ^ 16) (hhi : s.hw.et * 2 ^ 16 ≤ age + stop * 2 ^ 16)
    (he : e = freqEstimate (offsetOf coarse fine) (s.hw.centre x).toNat) :
    Gives (.lltfTimingSearch x (some age) coarse fine) s fun h =>
      (e.natAbs = 32767 → (h.slice x).rx.phase = .idle ∧
        h.get (R.PHY_CNT_4_OUT_TOL x) = min (s.hw.get (R.PHY_CNT_4_OUT_TOL x) + 1) 65535) ∧
      (e.natAbs ≠ 32767 → (h.slice x).rx.phase = .beforeLsig ∧ (h.slice x).rx.eps = e ∧
        (h.slice x).rx.lstf = s.hw.et - (age + (8000 + rxLatency x) * 2 ^ 16) / 2 ^ 16 ∧ RegsKept [] s.hw h) ∧
      MemKept s.hw h := by
  let n := s.hw.stop (.lltf x)
  let back := age + (8000 + rxLatency x) * 2 ^ 16
  have hin : (decide (s.hw.et * 2 ^ 16 < age + (stop - 8000) * 2 ^ 16) ||
      decide (age + stop * 2 ^ 16 < s.hw.et * 2 ^ 16)) = false := by
    rw [decide_eq_false (Nat.not_lt.mpr hlo), decide_eq_false (Nat.not_lt.mpr hhi)]
    rfl
  refine gives_of_effect_eq (e := execLltfTimingSearch x (some age) coarse fine s) (h := n.peakFound x back e) rfl rfl hup
    ((if_neg (not_not.mpr hp)).trans ?_) ⟨fun hsat => ?_, fun hsat => ?_,
      MemKept.canon (.of_mem (Hw.peakFound_mem back e))⟩
  · rw [ht, he]
    exact if_neg (by rw [hin]; exact Bool.false_ne_true)
  · have hout : Abandoned x _ n (n.peakFound x back e) := Hw.peakFound_saturated hsat back
    exact ⟨hout.phase, hout.count⟩
  · rw [Hw.peakFound_estimate hsat, Hw.canon_slice, Hw.takeTiming_rx]
    exact ⟨rfl, rfl, rfl, n.takeTiming_regs x _ back e⟩

/-! ### LSIG_DECISION (R153, R154, R161, R167) -/

theorem gives_lsigDecision_falseLock (hup : s.hw.mainUp = true) {f : LsigFormat} {llr pAdc : List Int}
    {rep : Option (List Int)} (hp : (s.hw.slice x).rx.phase = .beforeLsig) (hd : (s.hw.slice x).rx.dsss = false)
    (hf : lsigPasses f (viterbi (llr.map llrOf)) (rep.map fun r => viterbi (r.map llrOf)) = false) :
    Gives (.lsigDecision x (.ofdm f llr rep) pAdc) s fun h => (h.slice x).rx.phase = .idle ∧
      h.get (R.PHY_CNT_0_FALSE_LOCK x) = min (s.hw.get (R.PHY_CNT_0_FALSE_LOCK x) + 1) 65535 ∧ MemKept s.hw h := by
  have hlock : Abandoned x _ s.hw (s.hw.falseLock x) := s.hw.falseLock_abandoned
  refine gives_of_effect_eq (e := execLsigDecision x (.ofdm f llr rep) pAdc s) (h := s.hw.falseLock x) rfl rfl hup
    ((if_neg (not_not.mpr hp)).trans ?_) ⟨hlock.phase, hlock.count, MemKept.canon (.of_mem hlock.mem)⟩
  rw [hd]
  exact if_neg (by rw [hf]; exact Bool.false_ne_true)

theorem gives_lsigDecision_ofdm (hup : s.hw.mainUp = true) {f : LsigFormat} {llr pAdc l : List Int}
    {rep : Option (List Int)} {dur : Nat} (hp : (s.hw.slice x).rx.phase = .beforeLsig)
    (hd : (s.hw.slice x).rx.dsss = false)
    (hf : lsigPasses f (viterbi (llr.map llrOf)) (rep.map fun r => viterbi (r.map llrOf)) = true)
    (hdur : dur = declaredNs f (lsigOf (viterbi (llr.map llrOf)))) (he : (s.hw.slice x).rx.eps.natAbs < 32768)
    (hl : s.hw.okLevels x (fun c => ((s.hw.slice x).rx.rssiCal[c]?).getD 0) pAdc = l) (hne : l ≠ []) :
    Gives (.lsigDecision x (.ofdm f llr rep) pAdc) s fun h => (h.slice x).rx.phase = .afterLsig ∧
      h.getI (R.PHY_LAST_RSSI_RSSI x) = meanLevel (linearSum l) l.length ∧
      h.getI (R.PHY_LAST_CFO_CFO x) = (s.hw.slice x).rx.eps ∧
      h.get (R.PHY_LAST_CFO_TRACKED x) = (if tracks (s.hw.slice x).rx dur then 1 else 0) ∧
      h.get (R.PHY_LAST_CFO_OUT_TOL x) = (if outOfTolerance (s.hw.slice x).rx.eps then 1 else 0) ∧
      (h.weltLink x).protect = false ∧
      tget h.timers (.reception x) = some (max s.hw.et ((s.hw.slice x).rx.lstf + dur)) ∧ MemKept s.hw h := by
  obtain ⟨hrssi, hcfo, htracked, houtTol⟩ := Hw.headerReported_ofdm dur hd he hl hne
  have hrx := s.hw.headerReported_rx x pAdc dur
  refine gives_of_effect_eq (e := execLsigDecision x (.ofdm f llr rep) pAdc s)
    (h := s.hw.headerPassed x pAdc dur ((s.hw.slice x).rx.lstf + dur)) rfl rfl hup
    ((if_neg (not_not.mpr hp)).trans ?_) ?_
  · rw [hd, hdur]
    exact if_pos hf
  · rw [Hw.headerPassed_eq, Hw.headerReported_et]
    exact ⟨congrArg Reception.phase hrx, hrssi, hcfo, htracked, houtTol, s.hw.headerReported_protect x pAdc dur,
      (tget_startAt _ _ _ _).trans (if_pos rfl), MemKept.canon (.of_mem (s.hw.headerReported_mem x pAdc dur))⟩

theorem gives_lsigDecision_dsss (hup : s.hw.mainUp = true) {hdr : BitVec 48} {pAdc : List Int}
    (hp : (s.hw.slice x).rx.phase = .beforeLsig) (hd : (s.hw.slice x).rx.dsss = true) (hf : plcpPasses hdr = true) :
    Gives (.lsigDecision x (.dsss hdr) pAdc) s fun h => (h.slice x).rx.phase = .afterLsig ∧
      (h.slice x).rx.tracked = false ∧ (h.weltLink x).protect = false ∧
      tget h.timers (.reception x) = some (s.hw.et + 1000 * plcpLength hdr) ∧ MemKept s.hw h := by
  have hrx := s.hw.headerReported_rx x pAdc (1000 * plcpLength hdr)
  have htracks : tracksPpdu (s.hw.slice x).rx (1000 * plcpLength hdr) = false := by simp [tracksPpdu, hd]
  refine gives_of_effect_eq (e := execLsigDecision x (.dsss hdr) pAdc s)
    (h := s.hw.headerPassed x pAdc (1000 * plcpLength hdr) (s.hw.et + 1000 * plcpLength hdr)) rfl rfl hup
    ((if_neg (not_not.mpr hp)).trans ?_) ?_
  · rw [hd]
    exact if_pos hf
  · rw [Hw.headerPassed_eq, Hw.headerReported_et, Nat.max_eq_right (Nat.le_add_right _ _)]
    exact ⟨congrArg Reception.phase hrx, (congrArg Reception.tracked hrx).trans htracks,
      s.hw.headerReported_protect x pAdc _, (tget_startAt _ _ _ _).trans (if_pos rfl),
      MemKept.canon (.of_mem (s.hw.headerReported_mem x pAdc _))⟩

/-! ### SIGNAL_FIELD_CHECK (R154, R162, R171) -/

theorem gives_signalFieldCheck (hup : s.hw.mainUp = true) {f : SignalField} (hp : (s.hw.slice x).rx.phase = .afterLsig) :
    Gives (.signalFieldCheck x f) s fun h =>
      (f.valid = false ∨ formatSupported x true f.shape = false →
        h.get (R.PHY_CNT_3_SIG_FAIL x) = min (s.hw.get (R.PHY_CNT_3_SIG_FAIL x) + 1) 65535) ∧
      (f.valid = true → formatSupported x true f.shape = true → s.hw.receiveChains x < f.streams ∨ 4 < f.users →
        h.get (R.PHY_CNT_3_STREAM_REJ x) = min (s.hw.get (R.PHY_CNT_3_STREAM_REJ x) + 1) 65535) ∧
      (f.valid = false ∨ formatSupported x true f.shape = false ∨ s.hw.receiveChains x < f.streams ∨ 4 < f.users →
        (h.slice x).rx.phase = .idle ∧ (h.slice x).busyUntil = (tget s.hw.timers (.reception x)).getD s.hw.et) ∧
      (f.valid = true → formatSupported x true f.shape = true → f.streams ≤ s.hw.receiveChains x → f.users ≤ 4 →
        (h.slice x).rx = { (s.hw.slice x).rx with
          detector := some (detectorOf f)
          midamble := f.shape.midamble
          blank := ((s.hw.slice x).rx.lstf + f.stf.1, (s.hw.slice x).rx.lstf + f.stf.1 + f.stf.2) } ∧
        RegsKept [] s.hw h) ∧ MemKept s.hw h := by
  let stop := (tget s.hw.timers (.reception x)).getD s.hw.et
  have hreject {g : RF} (hg : ModemCounter g) := s.hw.rejectPpdu_abandoned x stop hg
  refine gives_of_effect_eq (e := execSignalFieldCheck x f s) (h := s.hw.checkFields x stop f) rfl rfl hup
    (if_neg (not_not.mpr hp)) ⟨fun hf => ?_, fun hv hs he => ?_, fun hf => ?_, fun hv hs hc hu => ?_,
      MemKept.canon (.of_mem ?_)⟩
  · rw [Hw.checkFields_fail hf]
    exact (hreject (modemCounter_sigFail x)).count
  · rw [Hw.checkFields_excess hv hs he]
    exact (hreject (modemCounter_streamRej x)).count
  · obtain ⟨-, hv, hs, hc, hu⟩ | ⟨g, hg, hrej⟩ := s.hw.checkFields_cases x stop f
    · simp only [hv, hs, Bool.true_eq_false, false_or] at hf
      omega
    · rw [hrej]
      exact ⟨(hreject hg).phase, s.hw.rejectPpdu_busy x stop g⟩
  · rw [Hw.checkFields_pass hv hs hc hu]
    exact ⟨s.hw.noteFields_rx x f, s.hw.noteFields_regs x _ f⟩
  · obtain ⟨hpass, -⟩ | ⟨g, hg, hrej⟩ := s.hw.checkFields_cases x stop f
    · rw [hpass]
      rfl
    · rw [hrej]
      exact (hreject hg).mem

/-! ### RECEPTION_END (R154) -/

theorem gives_receptionEnd (hup : s.hw.mainUp = true) {d : Nat} (ht : tget s.hw.timers (.reception x) = some d) :
    Gives (.receptionEnd x) s fun h => (h.slice x).rx.phase = .idle ∧ (h.slice x).energy = false ∧
      tget h.timers (.reception x) = none ∧ RegsKept (idleRegs x) s.hw h ∧ MemKept s.hw h := by
  let a := s.hw.arrive d (.reception x)
  refine gives_of_effect_eq (e := execReceptionEnd x s)
    (h := (a.dropReception x).modSlice x fun y => { y with energy := false }) rfl rfl hup
    (Hw.onTimer_arrive ht _) ⟨?_, ?_, a.dropReception_timer x, ?_, MemKept.canon (.of_mem ?_)⟩
  · rw [Hw.canon_slice, Hw.modSlice_slice, Hw.dropReception_slice]
    rfl
  · rw [Hw.canon_slice, Hw.modSlice_slice]
  · exact (((s.hw.arrive_regs d _ _).trans (a.dropReception_regs x)).modSlice x _).canon
  · rw [Hw.modSlice_mem, Hw.dropReception_mem, Hw.arrive_mem]

/-! ### The obligation -/

theorem tracks_iff (rx : Reception) (dur : Nat) : tracks rx dur = true ↔
    rx.trackThresh < rx.eps.natAbs ∨ outOfTolerance rx.eps = true ∨ 2000000 < dur ∨ rx.trackAlways = true := by
  simp only [tracks, Bool.or_eq_true, decide_eq_true_eq, or_assoc]

/-- Settles O12: each command either begins the reception with the timeline, goes on with it, or abandons it under the counter
that says why. -/
theorem receptionFromEnergyToSignalFields : Obligations.ReceptionFromEnergyToSignalFields := by
  intro s hup
  refine ⟨fun x rs hdet hpow => ?_, fun x rs hdet hpow => gives_energyCrossing_below hup hdet hpow,
    fun x d ht hdet => gives_tbExpectedStart hup ht hdet,
    fun x rs chips a b d ht hp ha hb => gives_qualEvaluation_metric hup ht hp ha hb,
    fun x rs chips d ht hp hx ha => gives_qualEvaluation_undefined hup ht hp hx ha,
    fun x coarse fine d ht hp => gives_lltfTimingSearch_none hup ht hp,
    fun x age coarse fine e stop ht hp hlo hhi he => gives_lltfTimingSearch_peak hup ht hp hlo hhi he,
    fun x f llr rep pAdc hp hd hf => gives_lsigDecision_falseLock hup hp hd hf,
    fun x f llr rep pAdc l dur hp hd hf hdur he hl hne => ?_,
    fun x hdr pAdc hp hd hf => gives_lsigDecision_dsss hup hp hd hf, fun x f hp => gives_signalFieldCheck hup hp,
    fun x d ht => gives_receptionEnd hup ht⟩
  · obtain ⟨h, hexec, hrx, henergy, htimers⟩ := gives_energyCrossing_reached hup hdet hpow
    exact ⟨h, hexec, by rw [hrx]; rfl, by rw [hrx]; rfl, henergy, by rw [hrx]; rfl, htimers⟩
  · obtain ⟨h, hexec, hphase, hrssi, hcfo, htracked, hrest⟩ := gives_lsigDecision_ofdm hup hp hd hf hdur he hl.symm hne
    exact ⟨h, hexec, hphase, hrssi, hcfo, htracked.trans (if_congr (tracks_iff _ _) rfl rfl), hrest⟩

end Sys2Proof.Machine
end

section
/-!
SUPPORT. Passes that write zeros, and the registers and agreements of a station context that OPEN, KEY and the deletions
make (R179, R182, R183).
-/
namespace Sys2Proof.Machine

/-! ### Passes -/

/-- What one step of a pass brings about holds at its end, where every step keeps it; `I` holds along the pass. -/
theorem foldl_of_step_along {α β : Type} {I P : α → Prop} {f : α → β → α} {l : List β} {b : β} (hb : b ∈ l)
    (hI : ∀ a, ∀ c ∈ l, I a → I (f a c)) (hstep : ∀ a, I a → P (f a b))
    (hkeep : ∀ a, ∀ c ∈ l, I a → P a → P (f a c)) {a : α} (ha : I a) : P (l.foldl f a) := by
  induction l generalizing a with
  | nil => cases hb
  | cons c l ih =>
    have hI' : ∀ a, ∀ c ∈ l, I a → I (f a c) := fun a c hc => hI a c (List.mem_cons_of_mem _ hc)
    have hkeep' : ∀ a, ∀ c ∈ l, I a → P a → P (f a c) := fun a c hc => hkeep a c (List.mem_cons_of_mem _ hc)
    have hrest {a : α} (ha : I a ∧ P a) : P (l.foldl f a) :=
      (List.foldlRecOn (motive := fun a => I a ∧ P a) l f ha fun a ha c hc =>
        ⟨hI' a c hc ha.1, hkeep' a c hc ha.1 ha.2⟩).2
    rcases List.mem_cons.mp hb with rfl | hb
    · exact hrest ⟨hI a b List.mem_cons_self ha, hstep a ha⟩
    · exact ih hb hI' hkeep' (hI a c List.mem_cons_self ha)

theorem foldl_of_step {α β : Type} {P : α → Prop} {f : α → β → α} {l : List β} {b : β} (hb : b ∈ l)
    (hstep : ∀ a, P (f a b)) (hkeep : ∀ a, ∀ c ∈ l, P a → P (f a c)) (a : α) : P (l.foldl f a) :=
  foldl_of_step_along (I := fun _ => True) hb (fun _ _ _ _ => trivial) (fun a _ => hstep a)
    (fun a c hc _ => hkeep a c hc) trivial

/-! ### Zeros -/

theorem bitsOf_eq_zero_iff {w : Word} {lo len : Nat} : bitsOf w lo len = 0 ↔ ∀ i < len, w.getLsbD (lo + i) = false := by
  constructor
  · intro hw i hi
    have hbit := testBit_bitsOf w lo len i
    rwa [hw, Nat.zero_testBit, decide_eq_true hi, Bool.true_and, eq_comm] at hbit
  · intro hw
    apply Nat.eq_of_testBit_eq
    intro i
    rw [testBit_bitsOf, Nat.zero_testBit, Bool.and_eq_false_imp]
    exact fun hi => hw i (of_decide_eq_true hi)

/-- Every field that reads 0 still does. -/
def ZerosKept (h h' : Hw) : Prop := ∀ g : RF, h.get g = 0 → h'.get g = 0

section
variable {h h' h'' : Hw}

theorem ZerosKept.trans (h1 : ZerosKept h h') (h2 : ZerosKept h' h'') : ZerosKept h h'' := fun g hg => h2 g (h1 g hg)

theorem ZerosKept.foldl {α : Type} {f : Hw → α → Hw} (l : List α) (hf : ∀ h a, ZerosKept h (f h a)) (h : Hw) :
    ZerosKept h (l.foldl f h) :=
  List.foldlRecOn l f (motive := ZerosKept h) (fun _ hg => hg) fun _ hz a _ => hz.trans (hf _ a)

theorem zerosKept_set (h : Hw) (f : RF) : ZerosKept h (h.set f 0) := by
  intro g hg
  by_cases ha : g.addr = f.addr
  · rw [Hw.get, bitsOf_eq_zero_iff] at hg ⊢
    intro i hi
    have hbit := hg i hi
    rw [ha] at hbit ⊢
    rw [Hw.word_set_self, getLsbD_setBitsOf, hbit, Nat.zero_testBit, ite_self]
  · rwa [Hw.get_set_apart _ _ _ _ (.inl (Ne.symm ha))]

theorem zerosKept_setWord (h : Hw) (a : Nat) : ZerosKept h (h.setWord a 0) := by
  intro g hg
  by_cases ha : g.addr = a
  · rw [Hw.get, ha, Hw.word_setWord_self, bitsOf_eq_zero_iff]
    simp
  · rwa [Hw.get_setWord_ne _ _ _ _ ha]

theorem Hw.word_setWord_zero (a : Nat) {b : Nat} (hb : h.word b = 0) : (h.setWord a 0).word b = 0 := by
  by_cases ha : b = a
  · rw [ha, Hw.word_setWord_self]
  · rwa [Hw.word_setWord_ne _ _ ha]

end

/-! ### Packet numbers (R179, R198) -/

section
variable (h : Hw) (s k t : Nat)

theorem Hw.rxPn_eq_zero_iff :
    h.rxPn s k t = 0 ↔ h.get (R.STA_RXPN_LO_PN s k t) = 0 ∧ h.get (R.STA_RXPN_HI_PN s k t) = 0 := by
  rw [Hw.rxPn]
  omega

theorem Hw.txPn_eq_zero_iff : h.txPn s k = 0 ↔ h.get (R.STA_TXPN_LO_PN s k) = 0 ∧ h.get (R.STA_TXPN_HI_PN s k) = 0 := by
  rw [Hw.txPn]
  omega

theorem Hw.setRxPn_zerosKept : ZerosKept h (h.setRxPn s k t 0) := (zerosKept_set h _).trans (zerosKept_set _ _)
theorem Hw.setTxPn_zerosKept : ZerosKept h (h.setTxPn s k 0) := (zerosKept_set h _).trans (zerosKept_set _ _)

variable {h s k t} in
theorem ZerosKept.rxPn {h' : Hw} (hz : ZerosKept h h') (h0 : h.rxPn s k t = 0) : h'.rxPn s k t = 0 := by
  rw [Hw.rxPn_eq_zero_iff] at h0 ⊢
  exact ⟨hz _ h0.1, hz _ h0.2⟩

variable {h s k} in
theorem ZerosKept.txPn {h' : Hw} (hz : ZerosKept h h') (h0 : h.txPn s k = 0) : h'.txPn s k = 0 := by
  rw [Hw.txPn_eq_zero_iff] at h0 ⊢
  exact ⟨hz _ h0.1, hz _ h0.2⟩

theorem Hw.setRxPn_rxPn_zero : (h.setRxPn s k t 0).rxPn s k t = 0 :=
  (Hw.rxPn_eq_zero_iff ..).mpr ⟨zerosKept_set _ _ _ (Hw.get_set_const _ rfl), Hw.get_set_const _ rfl⟩

theorem Hw.setTxPn_txPn_zero : (h.setTxPn s k 0).txPn s k = 0 :=
  (Hw.txPn_eq_zero_iff ..).mpr ⟨zerosKept_set _ _ _ (Hw.get_set_const _ rfl), Hw.get_set_const _ rfl⟩

/-- The registers of the packet numbers of key slot `k`. -/
def pnRegs : List Nat :=
  [R.STA_TXPN_LO s k, R.STA_TXPN_HI s k] ++ (List.range 9).flatMap fun t => [R.STA_RXPN_LO s k t, R.STA_RXPN_HI s k t]

theorem Hw.setTxPn_onlyRegs (v : Nat) : OnlyRegs (pnRegs s k) h (h.setTxPn s k v) :=
  (onlyRegs_set _ _ (List.mem_append_left _ (by simp [R.STA_TXPN_LO_PN]))).trans
    (onlyRegs_set _ _ (List.mem_append_left _ (by simp [R.STA_TXPN_HI_PN])))

variable {t} in
theorem Hw.setRxPn_onlyRegs (ht : t < 9) (v : Nat) : OnlyRegs (pnRegs s k) h (h.setRxPn s k t v) := by
  have hmem {a : Nat} (ha : a ∈ [R.STA_RXPN_LO s k t, R.STA_RXPN_HI s k t]) : a ∈ pnRegs s k :=
    List.mem_append_right _ (List.mem_flatMap.mpr ⟨t, List.mem_range.mpr ht, ha⟩)
  exact (onlyRegs_set _ _ (hmem (.head _))).trans (onlyRegs_set _ _ (hmem (.tail _ (.head _))))

theorem OnlyRegs.foldl {α : Type} {as : List Nat} {f : Hw → α → Hw} (l : List α)
    (hf : ∀ h, ∀ a ∈ l, OnlyRegs as h (f h a)) (h : Hw) : OnlyRegs as h (l.foldl f h) :=
  List.foldlRecOn l f (OnlyRegs.refl as h) fun _ ho a ha => ho.trans (hf _ a ha)

theorem Hw.zeroPns_onlyRegs : OnlyRegs (pnRegs s k) h (h.zeroPns s k) :=
  (h.setTxPn_onlyRegs s k 0).trans
    (OnlyRegs.foldl _ (fun h _ ht => h.setRxPn_onlyRegs s k (List.mem_range.mp ht) 0) _)

theorem Hw.zeroPns_zerosKept : ZerosKept h (h.zeroPns s k) :=
  (h.setTxPn_zerosKept s k).trans (ZerosKept.foldl _ (fun h => h.setRxPn_zerosKept s k) _)

theorem Hw.zeroPns_txPn : (h.zeroPns s k).txPn s k = 0 :=
  (ZerosKept.foldl _ (fun h => h.setRxPn_zerosKept s k) _).txPn (h.setTxPn_txPn_zero s k)

variable {t} in
theorem Hw.zeroPns_rxPn (ht : t < 9) : (h.zeroPns s k).rxPn s k t = 0 := by
  have hmem : t ∈ List.range 9 := List.mem_range.mpr ht
  exact foldl_of_step (P := fun h : Hw => h.rxPn s k t = 0) (f := fun h u => h.setRxPn s k u 0) hmem
    (fun h => h.setRxPn_rxPn_zero s k t) (fun h u _ h0 => (h.setRxPn_zerosKept s k u).rxPn h0) _

end

theorem pnRegs_range {s k a : Nat} (hk : k < 2) (ha : a ∈ pnRegs s k) : R.STA_W12 s < a ∧ a < R.STA_W53 s := by
  simp only [pnRegs, List.mem_append, List.mem_flatMap, List.mem_range, List.mem_cons, List.not_mem_nil, or_false,
    R.STA_TXPN_LO, R.STA_TXPN_HI, R.STA_RXPN_LO, R.STA_RXPN_HI] at ha
  simp only [R.STA_W12, R.STA_W53]
  obtain (rfl | rfl) | ⟨t, ht, rfl | rfl⟩ := ha <;> omega

/-! What reads as before where the registers of the packet numbers do. -/

theorem Hw.rxPn_congr {h h' : Hw} {s k t : Nat} (hw : ∀ a ∈ pnRegs s k, h'.word a = h.word a) (ht : t < 9) :
    h'.rxPn s k t = h.rxPn s k t := by
  have hmem {a : Nat} (ha : a ∈ [R.STA_RXPN_LO s k t, R.STA_RXPN_HI s k t]) : a ∈ pnRegs s k :=
    List.mem_append_right _ (List.mem_flatMap.mpr ⟨t, List.mem_range.mpr ht, ha⟩)
  have hlo : h'.get (R.STA_RXPN_LO_PN s k t) = h.get (R.STA_RXPN_LO_PN s k t) := Hw.get_congr (hw _ (hmem (.head _)))
  have hhi : h'.get (R.STA_RXPN_HI_PN s k t) = h.get (R.STA_RXPN_HI_PN s k t) :=
    Hw.get_congr (hw _ (hmem (.tail _ (.head _))))
  rw [Hw.rxPn, hlo, hhi, Hw.rxPn]

theorem Hw.txPn_congr {h h' : Hw} {s k : Nat} (hw : ∀ a ∈ pnRegs s k, h'.word a = h.word a) :
    h'.txPn s k = h.txPn s k := by
  have hlo : h'.get (R.STA_TXPN_LO_PN s k) = h.get (R.STA_TXPN_LO_PN s k) :=
    Hw.get_congr (hw _ (List.mem_append_left _ (.head _)))
  have hhi : h'.get (R.STA_TXPN_HI_PN s k) = h.get (R.STA_TXPN_HI_PN s k) :=
    Hw.get_congr (hw _ (List.mem_append_left _ (.tail _ (.head _))))
  rw [Hw.txPn, hlo, hhi, Hw.txPn]

/-! ### OPEN (R181, R182) -/

/-- The statistics of a station, and the word of WELT_HALF with its bit. -/
def staStatRegs (s : Nat) : List Nat :=
  R.WELT_HALF (s % 1024 / 32) :: (List.range 8).flatMap fun n => [R.STA_STAT_LO s n, R.STA_STAT_HI s n]

theorem staStat_mem {s n : Nat} (hn : n < 8) : R.STA_STAT_LO s n ∈ staStatRegs s ∧ R.STA_STAT_HI s n ∈ staStatRegs s := by
  have hmem {a : Nat} (ha : a ∈ [R.STA_STAT_LO s n, R.STA_STAT_HI s n]) : a ∈ staStatRegs s :=
    List.mem_cons_of_mem _ (List.mem_flatMap.mpr ⟨n, List.mem_range.mpr hn, ha⟩)
  exact ⟨hmem (.head _), hmem (.tail _ (.head _))⟩

/-- The statistics and WELT_HALF lie outside the station contexts. -/
theorem staStatRegs_range {s a : Nat} (ha : a ∈ staStatRegs s) :
    (R.WELT_HALF 0 ≤ a ∧ a < R.WELT_HALF 32) ∨ (R.STA_STAT_LO s 0 ≤ a ∧ a < R.STA_STAT_LO s 8) := by
  simp only [staStatRegs, List.mem_flatMap, List.mem_range, List.mem_cons, List.not_mem_nil, or_false] at ha
  simp only [R.WELT_HALF, R.STA_STAT_LO, R.STA_STAT_HI] at ha ⊢
  obtain rfl | ⟨n, hn, rfl | rfl⟩ := ha <;> omega

section
variable (h : Hw) (s : Nat)

theorem Hw.zeroSta_cases (n : Nat) : ∃ k : Hw, (k = h ∨ k = h.set ⟨R.WELT_HALF (s % 1024 / 32), s % 32, 1⟩ 1) ∧
    h.zeroSta s n = (k.setWord (R.STA_STAT_LO s n) 0).setWord (R.STA_STAT_HI s n) 0 := by
  unfold Hw.zeroSta
  split
  · exact ⟨_, .inr rfl, rfl⟩
  · exact ⟨_, .inl rfl, rfl⟩

theorem onlyRegs_setWord {as : List Nat} (h : Hw) {a : Nat} (w : Word) (ha : a ∈ as) : OnlyRegs as h (h.setWord a w) :=
  ⟨fun _ hb => Hw.word_setWord_ne h w fun hab => hb (hab ▸ ha), fun _ => rfl, rfl⟩

theorem Hw.zeroSta_onlyRegs {n : Nat} (hn : n < 8) : OnlyRegs (staStatRegs s) h (h.zeroSta s n) := by
  obtain ⟨k, hk, hzero⟩ := h.zeroSta_cases s n
  have hhalf : OnlyRegs (staStatRegs s) h k := by
    rcases hk with rfl | rfl
    · exact OnlyRegs.refl _ _
    · exact onlyRegs_set _ _ (.head _)
  rw [hzero]
  exact hhalf.trans ((onlyRegs_setWord _ _ (staStat_mem hn).1).trans (onlyRegs_setWord _ _ (staStat_mem hn).2))

/-- Both words of counter `n` of a station are zero. -/
def Hw.statZero (n : Nat) : Prop := h.word (R.STA_STAT_LO s n) = 0 ∧ h.word (R.STA_STAT_HI s n) = 0

theorem Hw.zeroSta_statZero (n : Nat) : (h.zeroSta s n).statZero s n := by
  obtain ⟨k, -, hzero⟩ := h.zeroSta_cases s n
  rw [hzero]
  exact ⟨Hw.word_setWord_zero _ (Hw.word_setWord_self ..), Hw.word_setWord_self ..⟩

variable {h s} in
theorem Hw.statZero.zeroSta {n : Nat} (h0 : h.statZero s n) (m : Nat) : (h.zeroSta s m).statZero s n := by
  obtain ⟨k, hk, hzero⟩ := h.zeroSta_cases s m
  have hkeep {a : Nat} (ha : R.STA_STAT_LO 0 0 ≤ a) (hw : h.word a = 0) : k.word a = 0 := by
    rcases hk with rfl | rfl
    · exact hw
    · rwa [Hw.word_set_ne]
      simp only [R.STA_STAT_LO, R.WELT_HALF] at ha ⊢
      omega
  rw [hzero]
  exact ⟨Hw.word_setWord_zero _ (Hw.word_setWord_zero _ (hkeep (by simp only [R.STA_STAT_LO]; omega) h0.1)),
    Hw.word_setWord_zero _ (Hw.word_setWord_zero _ (hkeep (by simp only [R.STA_STAT_LO, R.STA_STAT_HI]; omega) h0.2))⟩

/-- OPEN zeroes the packet numbers of both keys. -/
def Hw.clearPns : Hw := (h.zeroPns s 0).zeroPns s 1

/-- OPEN zeroes the agreement bits, the last activity and the last RSSI. -/
def Hw.clearHistory : Hw :=
  ((((h.setWord (R.STA_W53 s) 0).setWord (R.STA_ACT_LO s) 0).setWord (R.STA_ACT_HI s) 0).setWord (R.STA_W58 s) 0).setWord
    (R.STA_W59 s) 0

/-- OPEN zeroes the eight statistics. -/
def Hw.clearStats : Hw := (List.range 8).foldl (fun h n => Hw.zeroSta h s n) h

/-- OPEN maps every TID to `links` in both directions, and the station is open. -/
def Hw.mapAndOpen (links : Nat) : Hw :=
  let h := (h.set (R.STA_W9_DL_MAP s) (everyTid links)).set (R.STA_W10_UL_MAP s) (everyTid links)
  let h := { h with welt := { h.welt with lastSn := h.welt.lastSn.filter fun p => p.1 / 8 != s } }
  h.set (R.STA_W0_STATE s) staOpen

theorem Hw.openStation_eq :
    h.openStation s = (((h.clearPns s).clearHistory s).clearStats s).mapAndOpen s (h.staLinks s) := rfl

theorem Hw.clearPns_zero {k : Nat} (hk : k < 2) :
    (h.clearPns s).txPn s k = 0 ∧ ∀ t < 9, (h.clearPns s).rxPn s k t = 0 := by
  have hkeep := (h.zeroPns s 0).zeroPns_zerosKept s 1
  obtain rfl | rfl : k = 0 ∨ k = 1 := by omega
  · exact ⟨hkeep.txPn (h.zeroPns_txPn s 0), fun t ht => hkeep.rxPn (h.zeroPns_rxPn s 0 ht)⟩
  · exact ⟨(h.zeroPns s 0).zeroPns_txPn s 1, fun t ht => (h.zeroPns s 0).zeroPns_rxPn s 1 ht⟩

theorem Hw.clearHistory_zerosKept : ZerosKept h (h.clearHistory s) :=
  (zerosKept_setWord _ _).trans <| (zerosKept_setWord _ _).trans <| (zerosKept_setWord _ _).trans <|
    (zerosKept_setWord _ _).trans (zerosKept_setWord _ _)

theorem Hw.clearHistory_zero {a : Nat}
    (ha : a ∈ [R.STA_W53 s, R.STA_ACT_LO s, R.STA_ACT_HI s, R.STA_W58 s, R.STA_W59 s]) :
    (h.clearHistory s).word a = 0 := by
  simp only [List.mem_cons, List.not_mem_nil, or_false] at ha
  unfold Hw.clearHistory
  rcases ha with rfl | rfl | rfl | rfl | rfl
  · exact Hw.word_setWord_zero _ <| Hw.word_setWord_zero _ <| Hw.word_setWord_zero _ <| Hw.word_setWord_zero _ <|
      Hw.word_setWord_self ..
  · exact Hw.word_setWord_zero _ <| Hw.word_setWord_zero _ <| Hw.word_setWord_zero _ <| Hw.word_setWord_self ..
  · exact Hw.word_setWord_zero _ <| Hw.word_setWord_zero _ <| Hw.word_setWord_self ..
  · exact Hw.word_setWord_zero _ <| Hw.word_setWord_self ..
  · exact Hw.word_setWord_self ..

theorem Hw.clearStats_zero {n : Nat} (hn : n < 8) : (h.clearStats s).statZero s n := by
  have hmem : n ∈ List.range 8 := List.mem_range.mpr hn
  exact foldl_of_step (P := fun h : Hw => h.statZero s n) (f := fun h n => Hw.zeroSta h s n) hmem
    (fun h => h.zeroSta_statZero s n) (fun h m _ h0 => h0.zeroSta m) h

theorem Hw.clearStats_onlyRegs : OnlyRegs (staStatRegs s) h (h.clearStats s) :=
  OnlyRegs.foldl _ (fun h _ hn => h.zeroSta_onlyRegs s (List.mem_range.mp hn)) h

theorem Hw.mapAndOpen_regs (links : Nat) :
    RegsKept [R.STA_W9 s, R.STA_W10 s, R.STA_W0 s] h (h.mapAndOpen s links) :=
  (((RegsKept.refl _ h).set (R.STA_W9_DL_MAP s) _ (.head _)).set (R.STA_W10_UL_MAP s) _ (.tail _ (.head _))).trans
    ((RegsKept.refl _ _).set (R.STA_W0_STATE s) _ (.tail _ (.tail _ (.head _))))

theorem mapOf_everyTid : ∀ m < 8, ∀ t < 8, mapOf (everyTid m % 2 ^ 24) t = m := by decide

theorem Hw.mapAndOpen_reads (links : Nat) : (h.mapAndOpen s links).get (R.STA_W0_STATE s) = staOpen ∧
    (h.mapAndOpen s links).get (R.STA_W9_DL_MAP s) = everyTid links % 2 ^ 24 ∧
    (h.mapAndOpen s links).get (R.STA_W10_UL_MAP s) = everyTid links % 2 ^ 24 := by
  refine ⟨Hw.get_set_const _ rfl, ?_, ?_⟩
  · refine (Hw.get_set_apart _ _ _ _ (.inl ?_)).trans <| (Hw.get_set_apart _ _ _ _ (.inl ?_)).trans
      (Hw.get_set_self h (R.STA_W9_DL_MAP s) _ (fits_of_bits rfl))
    · simp [R.STA_W0_STATE, R.STA_W9_DL_MAP, R.STA_W0, R.STA_W9]
    · simp [R.STA_W10_UL_MAP, R.STA_W9_DL_MAP, R.STA_W10, R.STA_W9]
  · refine (Hw.get_set_apart _ _ _ _ (.inl ?_)).trans (Hw.get_set_self _ (R.STA_W10_UL_MAP s) _ (fits_of_bits rfl))
    simp [R.STA_W0_STATE, R.STA_W10_UL_MAP, R.STA_W0, R.STA_W10]

/-- What OPEN leaves of the registers that it clears. -/
theorem Hw.openStation_regs : RegsKept ([R.STA_W9 s, R.STA_W10 s, R.STA_W0 s] ++ staStatRegs s)
    ((h.clearPns s).clearHistory s) (h.openStation s) :=
  RegsKept.trans (RegsKept.mono (Hw.clearStats_onlyRegs _ s).1 (List.subset_append_right _ _))
    (RegsKept.mono (Hw.mapAndOpen_regs _ s _) (List.subset_append_left _ _))

theorem openRegs_off {a s : Nat} (hs : s < 1024) (hlo : R.STA_W12 s < a) (hhi : a < R.STA_W60 s) :
    a ∉ [R.STA_W9 s, R.STA_W10 s, R.STA_W0 s] ++ staStatRegs s := by
  intro hmem
  simp only [R.STA_W12, R.STA_W60] at hlo hhi
  rcases List.mem_append.mp hmem with hmem | hmem
  · simp only [R.STA_W9, R.STA_W10, R.STA_W0, List.mem_cons, List.not_mem_nil, or_false] at hmem
    omega
  · have hrange := staStatRegs_range hmem
    simp only [R.WELT_HALF, R.STA_STAT_LO] at hrange
    omega

/-! What OPEN leaves of a station of the device. -/

section
variable {h s} (hs : s < 1024)
include hs

theorem Hw.openStation_word {a : Nat} (hlo : R.STA_W12 s < a) (hhi : a < R.STA_W60 s) :
    (h.openStation s).word a = ((h.clearPns s).clearHistory s).word a := h.openStation_regs s a (openRegs_off hs hlo hhi)

theorem Hw.openStation_history {a : Nat}
    (ha : a ∈ [R.STA_W53 s, R.STA_ACT_LO s, R.STA_ACT_HI s, R.STA_W58 s, R.STA_W59 s]) : (h.openStation s).word a = 0 := by
  refine (Hw.openStation_word hs ?_ ?_).trans ((h.clearPns s).clearHistory_zero s ha) <;>
    simp only [R.STA_W53, R.STA_ACT_LO, R.STA_ACT_HI, R.STA_W58, R.STA_W59, R.STA_W12, R.STA_W60, List.mem_cons,
      List.not_mem_nil, or_false] at ha ⊢ <;> omega

theorem Hw.openStation_pns {k : Nat} (hk : k < 2) :
    (h.openStation s).txPn s k = 0 ∧ ∀ t < 9, (h.openStation s).rxPn s k t = 0 := by
  have hword : ∀ a ∈ pnRegs s k, (h.openStation s).word a = ((h.clearPns s).clearHistory s).word a := fun a ha => by
    obtain ⟨hlo, hhi⟩ := pnRegs_range hk ha
    exact Hw.openStation_word hs hlo (by simp only [R.STA_W53, R.STA_W60] at hhi ⊢; omega)
  obtain ⟨htx, hrx⟩ := h.clearPns_zero s hk
  have hkeep := (h.clearPns s).clearHistory_zerosKept s
  exact ⟨(Hw.txPn_congr hword).trans (hkeep.txPn htx),
    fun t ht => (Hw.rxPn_congr hword ht).trans (hkeep.rxPn (hrx t ht))⟩

theorem Hw.openStation_statZero {n : Nat} (hn : n < 8) : (h.openStation s).statZero s n := by
  have hword {a : Nat} (ha : R.STA_STAT_LO 0 0 ≤ a) :
      (h.openStation s).word a = (((h.clearPns s).clearHistory s).clearStats s).word a := by
    refine Hw.mapAndOpen_regs _ s _ a ?_
    simp only [R.STA_STAT_LO, R.STA_W9, R.STA_W10, R.STA_W0, List.mem_cons, List.not_mem_nil, or_false] at ha ⊢
    omega
  obtain ⟨hlo, hhi⟩ := ((h.clearPns s).clearHistory s).clearStats_zero s hn
  exact ⟨(hword (by simp only [R.STA_STAT_LO]; omega)).trans hlo,
    (hword (by simp only [R.STA_STAT_LO, R.STA_STAT_HI]; omega)).trans hhi⟩

end

end

end Sys2Proof.Machine
end

section
/-!
SUPPORT. The context commands of Welt (R182 to R184): the report that each leaves, and its effect where it does not fail.
-/
namespace Sys2Proof.Machine

/-! ### The report (R205) -/

section
variable (h : Hw) (s : Nat)

theorem Hw.ctxReport_onlyRegs (st : Nat) : OnlyRegs [R.WELT_CTX_RSP] h (h.ctxReport s st) :=
  (onlyRegs_setAt _ R.WELT_CTX_RSP_BUSY _ rfl).trans <| (onlyRegs_setAt _ R.WELT_CTX_RSP_DONE_EV _ rfl).trans <|
    (onlyRegs_setAt _ R.WELT_CTX_RSP_STATUS _ rfl).trans (onlyRegs_setAt _ R.WELT_CTX_RSP_STA _ rfl)

theorem Hw.ctxReport_reads {st : Nat} (hst : st < 16) (hs : s < 1024) : (h.ctxReport s st).get R.WELT_CTX_RSP_BUSY = 0 ∧
    (h.ctxReport s st).get R.WELT_CTX_RSP_DONE_EV = 1 ∧ (h.ctxReport s st).get R.WELT_CTX_RSP_STATUS = st ∧
    (h.ctxReport s st).get R.WELT_CTX_RSP_STA = s := by
  simp (disch := (unfold apart; decide)) only [Hw.ctxReport, Hw.get_set_apart]
  exact ⟨Hw.get_set_const _ rfl, Hw.get_set_const _ rfl, Hw.get_set_lt _ _ _ (fits_of_bits rfl) hst,
    Hw.get_set_lt _ _ _ (fits_of_bits rfl) hs⟩

theorem Hw.ctxReport_get (st : Nat) {g : RF} (hg : g.addr ≠ R.WELT_CTX_RSP) : (h.ctxReport s st).get g = h.get g :=
  (h.ctxReport_onlyRegs s st).1.get (by simpa using hg)

/-- A command that is neither CLOSE nor sent while another runs reports what it comes to. -/
theorem Hw.ctxCommand_run {op st a : Nat} {k : Hw} (hbusy : h.get R.WELT_CTX_RSP_BUSY = 0) (hop : op ≠ 1)
    (ha : a = h.get R.WELT_CTX_ARG_ARG) (hr : h.ctxRun op s a = (st, k)) : h.ctxCommand op s = k.ctxReport s st := by
  rw [Hw.ctxCommand, Hw.flag, hbusy, ← ha, hr, if_neg (by decide), if_neg hop]

end

/-- A context command of station `s` has completed with status `st` (R205), and `P` holds beside its report. -/
def CtxCompleted (s st : Nat) (P : Hw → Prop) (h : Hw) : Prop :=
  h.get R.WELT_CTX_RSP_BUSY = 0 ∧ h.get R.WELT_CTX_RSP_DONE_EV = 1 ∧ h.get R.WELT_CTX_RSP_STATUS = st ∧
    h.get R.WELT_CTX_RSP_STA = s ∧ P h

section
variable {c : Instr} {s : State} {x : Fin 1024} {op st : Nat} {k : Hw}

/-- What a command gives that reports the completion of a context command. -/
theorem gives_ctxCompleted {f : Hw → Hw} {P : Hw → Prop} (hup : s.hw.mainUp = true) (hc : exec c s = s.effect f)
    (hf : f s.hw = k.ctxReport x st) (hst : st < 16) (hP : P (k.ctxReport x st).canon) :
    Gives c s (CtxCompleted x st P) := by
  obtain ⟨hbusy, hdone, hstatus, hsta⟩ := k.ctxReport_reads x hst x.isLt
  exact gives_of_effect_eq hc rfl hup hf ⟨hbusy, hdone, hstatus, hsta, hP⟩

/-- What a context command gives that completes with status `st`. -/
theorem gives_ctxReport {P : Hw → Prop} (hup : s.hw.mainUp = true) (hc : exec c s = s.effect fun h => h.ctxCommand op x)
    (hcmd : s.hw.ctxCommand op x = k.ctxReport x st) (hst : st < 16) (hP : P (k.ctxReport x st).canon) :
    Gives c s (CtxCompleted x st P) := gives_ctxCompleted (f := fun h => h.ctxCommand op x) hup hc hcmd hst hP

/-- A command that fails changes nothing but its report. -/
theorem gives_ctxFailure (hup : s.hw.mainUp = true) (hc : exec c s = s.effect fun h => h.ctxCommand op x)
    (hcmd : s.hw.ctxCommand op x = s.hw.ctxReport x st) (hst : st < 16) :
    Gives c s (CtxCompleted x st (OnlyRegs [R.WELT_CTX_RSP] s.hw)) :=
  gives_ctxReport hup hc hcmd hst (s.hw.ctxReport_onlyRegs x st).canon

/-- A command that changes registers, and units beside them, before its report. -/
theorem RegsKept.ctxReport {as : List Nat} {h : Hw} (hk : RegsKept (R.WELT_CTX_RSP :: as) h k) (x st : Nat) :
    RegsKept (R.WELT_CTX_RSP :: as) h (k.ctxReport x st).canon :=
  (hk.trans ((k.ctxReport_onlyRegs x st).1.mono (List.cons_subset_cons _ (List.nil_subset _)))).canon

theorem MemKept.ctxReport {h : Hw} (hm : MemKept h k) (x st : Nat) : MemKept h (k.ctxReport x st).canon :=
  MemKept.canon fun a => ((k.ctxReport_onlyRegs x st).2.1 a).trans (hm a)

end

/-! ### The effects of KEY and MAP -/

theorem Hw.openStatus_lt (h : Hw) (s : Nat) : h.openStatus s < 16 := by
  simp only [Hw.openStatus, ctxBadState, ctxBadArg, ctxAddrDup, ctxOk]
  split_ifs <;> decide

theorem Hw.staLinks_lt (h : Hw) (s : Nat) : h.staLinks s < 8 := h.get_lt _

/-- The report of a command changes no register of a station. -/
theorem Hw.ctxReport_word (h : Hw) (s st : Nat) {a : Nat} (ha : R.STA_W0 0 ≤ a) :
    (h.ctxReport s st).canon.word a = h.word a := by
  refine (h.ctxReport_onlyRegs s st).1.canon a ?_
  simp only [R.STA_W0, R.WELT_CTX_RSP, List.mem_singleton] at ha ⊢
  omega


/-- The key that KEY stores: its slot and its valid bit. -/
def Hw.storeKey (h : Hw) (s k a : Nat) : Hw :=
  if k = 0 then (h.set (R.STA_W12_KEY0 s) a).set (R.STA_W12_KEY0_V s) 1
  else (h.set (R.STA_W12_KEY1 s) a).set (R.STA_W12_KEY1_V s) 1

/-- KEY before the choice of the transmit key (R182, R198). -/
def Hw.newKey (h : Hw) (s k a : Nat) : Hw := ((h.storeKey s k a).set (R.STA_W12_CIPHER s) (a / 2 ^ 12)).zeroPns s k

theorem Hw.keyStation_eq (h : Hw) (s a : Nat) : h.keyStation s a =
    if a.testBit 16 then (h.newKey s (a / 2 ^ 11 % 2) a).set (R.STA_W0_TX_KEYID s) (a / 2 ^ 11 % 2)
    else h.newKey s (a / 2 ^ 11 % 2) a := rfl

theorem Hw.storeKey_onlyRegs (h : Hw) (s k a : Nat) : OnlyRegs [R.STA_W12 s] h (h.storeKey s k a) := by
  unfold Hw.storeKey
  split
  · exact (onlyRegs_setAt _ (R.STA_W12_KEY0 s) _ rfl).trans (onlyRegs_setAt _ (R.STA_W12_KEY0_V s) _ rfl)
  · exact (onlyRegs_setAt _ (R.STA_W12_KEY1 s) _ rfl).trans (onlyRegs_setAt _ (R.STA_W12_KEY1_V s) _ rfl)

theorem Hw.newKey_onlyRegs (h : Hw) (s k a : Nat) : OnlyRegs (R.STA_W12 s :: pnRegs s k) h (h.newKey s k a) :=
  ((h.storeKey_onlyRegs s k a).trans (onlyRegs_setAt _ (R.STA_W12_CIPHER s) _ rfl)).mono
    (List.cons_subset_cons _ (List.nil_subset _)) |>.trans
    ((Hw.zeroPns_onlyRegs _ s k).mono (List.subset_cons_self _ _))

/-- The fields of STA_s_W12 after KEY. -/
theorem Hw.newKey_reads (h : Hw) (s a : Nat) {k : Nat} (hk : k < 2) :
    (k = 0 → (h.newKey s k a).get (R.STA_W12_KEY0 s) = a % 2 ^ 11 ∧ (h.newKey s k a).get (R.STA_W12_KEY0_V s) = 1) ∧
    (k = 1 → (h.newKey s k a).get (R.STA_W12_KEY1 s) = a % 2 ^ 11 ∧ (h.newKey s k a).get (R.STA_W12_KEY1_V s) = 1) ∧
    (h.newKey s k a).get (R.STA_W12_CIPHER s) = a / 2 ^ 12 % 16 := by
  have hpns {g : RF} (hg : g.addr = R.STA_W12 s) :
      (h.newKey s k a).get g = ((h.storeKey s k a).set (R.STA_W12_CIPHER s) (a / 2 ^ 12)).get g :=
    (Hw.zeroPns_onlyRegs _ s k).1.get fun hmem => absurd (pnRegs_range hk hmem).1 (by omega)
  refine ⟨?_, ?_, (hpns rfl).trans (Hw.get_set_self _ _ _ (fits_of_bits rfl))⟩
  · rintro rfl
    refine ⟨(hpns rfl).trans <| (Hw.get_set_apart _ _ _ _ (apart_of_bits rfl)).trans <|
      (Hw.get_set_apart _ _ _ _ (apart_of_bits rfl)).trans (Hw.get_set_self _ _ _ (fits_of_bits rfl)),
      (hpns rfl).trans <| (Hw.get_set_apart _ _ _ _ (apart_of_bits rfl)).trans (Hw.get_set_const _ rfl)⟩
  · rintro rfl
    refine ⟨(hpns rfl).trans <| (Hw.get_set_apart _ _ _ _ (apart_of_bits rfl)).trans <|
      (Hw.get_set_apart _ _ _ _ (apart_of_bits rfl)).trans (Hw.get_set_self _ _ _ (fits_of_bits rfl)),
      (hpns rfl).trans <| (Hw.get_set_apart _ _ _ _ (apart_of_bits rfl)).trans (Hw.get_set_const _ rfl)⟩

theorem Hw.newKey_pns (h : Hw) (s k a : Nat) : (h.newKey s k a).txPn s k = 0 ∧ ∀ t < 9, (h.newKey s k a).rxPn s k t = 0 :=
  ⟨Hw.zeroPns_txPn _ s k, fun _ ht => Hw.zeroPns_rxPn _ s k ht⟩

/-- The choice of the transmit key changes STA_s_W0 alone. -/
theorem Hw.keyStation_onlyRegs (h : Hw) (s a : Nat) :
    OnlyRegs [R.STA_W0 s] (h.newKey s (a / 2 ^ 11 % 2) a) (h.keyStation s a) := by
  rw [Hw.keyStation_eq]
  split
  · exact onlyRegs_setAt _ _ _ rfl
  · exact OnlyRegs.refl _ _

theorem Hw.keyStation_txKeyId (h : Hw) (s a : Nat) : (h.keyStation s a).get (R.STA_W0_TX_KEYID s) =
    if a.testBit 16 then a / 2 ^ 11 % 2 else h.get (R.STA_W0_TX_KEYID s) := by
  rw [Hw.keyStation_eq]
  split
  · exact Hw.get_set_lt _ _ _ (fits_of_bits rfl) (Nat.mod_lt _ (by decide))
  · refine (h.newKey_onlyRegs s _ a).1.get fun hmem => ?_
    rcases List.mem_cons.mp hmem with heq | hmem
    · simp [R.STA_W0_TX_KEYID, R.STA_W0, R.STA_W12] at heq
    · have hlo := (pnRegs_range (Nat.mod_lt _ (by decide)) hmem).1
      simp only [R.STA_W0_TX_KEYID, R.STA_W0, R.STA_W12] at hlo
      omega


/-- MAP stores the maps of one direction (R182). -/
def Hw.storeMap (h : Hw) (s a : Nat) (up : Bool) : Hw := h.set (if up then R.STA_W10_UL_MAP s else R.STA_W9_DL_MAP s) a

theorem Hw.storeMap_onlyRegs (h : Hw) (s a : Nat) (up : Bool) :
    OnlyRegs [R.STA_W9 s, R.STA_W10 s] h (h.storeMap s a up) := by
  cases up
  · exact onlyRegs_set h (f := R.STA_W9_DL_MAP s) a (.head _)
  · exact onlyRegs_set h (f := R.STA_W10_UL_MAP s) a (.tail _ (.head _))

theorem Hw.storeMap_reads (h : Hw) (s a : Nat) (up : Bool) :
    (h.storeMap s a up).get (R.STA_W9_DL_MAP s) = (if up then h.get (R.STA_W9_DL_MAP s) else a % 2 ^ 24) ∧
    (h.storeMap s a up).get (R.STA_W10_UL_MAP s) = (if up then a % 2 ^ 24 else h.get (R.STA_W10_UL_MAP s)) := by
  have hne : R.STA_W9 s ≠ R.STA_W10 s := by simp [R.STA_W9, R.STA_W10]
  cases up
  · exact ⟨Hw.get_set_self h (R.STA_W9_DL_MAP s) a (fits_of_bits rfl),
      Hw.get_set_apart h (R.STA_W9_DL_MAP s) (R.STA_W10_UL_MAP s) a (.inl hne)⟩
  · exact ⟨Hw.get_set_apart h (R.STA_W10_UL_MAP s) (R.STA_W9_DL_MAP s) a (.inl hne.symm),
      Hw.get_set_self h (R.STA_W10_UL_MAP s) a (fits_of_bits rfl)⟩

/-! ### The effects on agreements -/

section
variable (h : Hw) (s t u : Nat)

/-- The bit of a TID in STA_s_W53. -/
theorem Hw.testBit_set_bit {a i : Nat} (v : Nat) (hi : i < 32) :
    ((h.set ⟨a, i, 1⟩ v).word a).toNat.testBit i = v.testBit 0 := by
  have hself := h.word_set_self ⟨a, i, 1⟩ v
  have hcond : i < 32 ∧ i ≤ i ∧ i < i + 1 := by omega
  rw [hself, ← BitVec.getLsbD, getLsbD_setBitsOf, if_pos hcond, Nat.sub_self]

@[simp] theorem Hw.setTxBa_txBa (a : TxAgreement) : (h.setTxBa s t a).txBa s t = some a := kget_kput_self _ _ _
@[simp] theorem Hw.setRxBa_rxBa (a : RxAgreement) : (h.setRxBa s t a).rxBa s t = some a := kget_kput_self _ _ _

theorem Hw.endTxBa_regs : RegsKept [R.STA_W53 s] h (h.endTxBa s t) := fun _ ha =>
  Hw.word_set_ne h ⟨R.STA_W53 s, t, 1⟩ 0 (by simpa using ha)

theorem Hw.endTxBa_txBa : (h.endTxBa s t).txBa s t = none := kget_kdel_self _ _

theorem Hw.endTxBa_mem : (h.endTxBa s t).mem = h.mem := rfl

/-- The agreement of a TID is gone, with nothing held to release. -/
def Hw.dropRxBa : Hw :=
  ((({ h with welt := { h.welt with rxBa := kdel h.welt.rxBa (baKey s t) } } : Hw).set ⟨R.STA_W53 s, 8 + t, 1⟩ 0).stop
    (.reorder (baKey s t)))

theorem Hw.dropRxBa_regs : RegsKept [R.STA_W53 s] h (h.dropRxBa s t) := fun _ ha =>
  Hw.word_set_ne _ ⟨R.STA_W53 s, 8 + t, 1⟩ 0 (by simpa using ha)

theorem Hw.dropRxBa_rxBa : (h.dropRxBa s t).rxBa s t = none := kget_kdel_self _ _

/-- An agreement that holds nothing ends without a release. -/
theorem Hw.endRxBa_of_empty {g : RxAgreement} (hg : h.rxBa s t = some g) (hheld : g.held = []) :
    h.endRxBa s t = h.dropRxBa s t := by
  have hfind (n : Nat) : g.find n = none := by rw [RxAgreement.find, hheld, List.find?_nil]
  simp only [Hw.endRxBa, hg, hfind, List.foldl_fixed]
  rfl

end

/-! ### The commands where they do not fail -/

section
variable {s : State} {x : Fin 1024} {a : Nat} (hup : s.hw.mainUp = true) (hbusy : s.hw.get R.WELT_CTX_RSP_BUSY = 0)
include hup hbusy

theorem gives_ctxOpen (hst : s.hw.openStatus x = 0) :
    Gives (.ctxOpen x) s (CtxCompleted x 0 fun h => h.get (R.STA_W0_STATE x) = 1 ∧
        (∀ t < 8, mapOf (h.get (R.STA_W9_DL_MAP x)) t = s.hw.get (R.STA_W0_LINKS x) ∧
          mapOf (h.get (R.STA_W10_UL_MAP x)) t = s.hw.get (R.STA_W0_LINKS x)) ∧
        (∀ k < 2, h.txPn x k = 0 ∧ ∀ t < 9, h.rxPn x k t = 0) ∧ h.word (R.STA_W53 x) = 0 ∧
        h.word (R.STA_ACT_LO x) = 0 ∧ h.word (R.STA_ACT_HI x) = 0 ∧ h.word (R.STA_W58 x) = 0 ∧ h.word (R.STA_W59 x) = 0 ∧
        (∀ n < 8, h.word (R.STA_STAT_LO x n) = 0 ∧ h.word (R.STA_STAT_HI x n) = 0)) := by
  have hrun : s.hw.ctxRun 0 x (s.hw.get R.WELT_CTX_ARG_ARG) = (0, s.hw.openStation x) := by simp [Hw.ctxRun, hst, ctxOk]
  have hcmd : s.hw.ctxCommand 0 x = (s.hw.openStation x).ctxReport x 0 := s.hw.ctxCommand_run x hbusy (by decide) rfl hrun
  refine gives_ctxReport (op := 0) hup rfl hcmd (by decide) ?_
  let final := ((s.hw.openStation x).ctxReport x 0).canon
  have hword {a : Nat} (ha : R.STA_W0 0 ≤ a) : final.word a = (s.hw.openStation x).word a := Hw.ctxReport_word _ x 0 ha
  have hget {g : RF} (hg : R.STA_W0 0 ≤ g.addr) : final.get g = (s.hw.openStation x).get g := Hw.get_congr (hword hg)
  have hcleared {a : Nat} (ha : a ∈ [R.STA_W53 x, R.STA_ACT_LO x, R.STA_ACT_HI x, R.STA_W58 x, R.STA_W59 x]) :
      final.word a = 0 := by
    refine (hword ?_).trans (Hw.openStation_history x.isLt ha)
    simp only [R.STA_W0, R.STA_W53, R.STA_ACT_LO, R.STA_ACT_HI, R.STA_W58, R.STA_W59, List.mem_cons, List.not_mem_nil,
      or_false] at ha ⊢
    omega
  have hmap {t : Nat} (ht : t < 8) := mapOf_everyTid _ (s.hw.staLinks_lt x) t ht
  obtain ⟨hstate, hdl, hul⟩ := Hw.mapAndOpen_reads (((s.hw.clearPns x).clearHistory x).clearStats x) x (s.hw.staLinks x)
  have hdl' := (hget (g := R.STA_W9_DL_MAP x) (by simp only [R.STA_W9_DL_MAP, R.STA_W0, R.STA_W9]; omega)).trans hdl
  have hul' := (hget (g := R.STA_W10_UL_MAP x) (by simp only [R.STA_W10_UL_MAP, R.STA_W0, R.STA_W10]; omega)).trans hul
  refine ⟨(hget (g := R.STA_W0_STATE x) (by simp only [R.STA_W0_STATE, R.STA_W0]; omega)).trans hstate,
    fun t ht => ⟨(congrArg (mapOf · t) hdl').trans (hmap ht), (congrArg (mapOf · t) hul').trans (hmap ht)⟩, fun k hk => ?_,
    hcleared (a := R.STA_W53 x) (by simp), hcleared (a := R.STA_ACT_LO x) (by simp),
    hcleared (a := R.STA_ACT_HI x) (by simp), hcleared (a := R.STA_W58 x) (by simp),
     hcleared (a := R.STA_W59 x) (by simp), fun n hn => ?_⟩
  · obtain ⟨htx, hrx⟩ := Hw.openStation_pns (h := s.hw) x.isLt hk
    have hpns : ∀ a ∈ pnRegs x k, final.word a = (s.hw.openStation x).word a := fun a ha => by
      have hlo := (pnRegs_range hk ha).1
      exact hword (by simp only [R.STA_W12, R.STA_W0] at hlo ⊢; omega)
    exact ⟨(Hw.txPn_congr hpns).trans htx, fun t ht => (Hw.rxPn_congr hpns ht).trans (hrx t ht)⟩
  · obtain ⟨hlo, hhi⟩ := Hw.openStation_statZero (h := s.hw) x.isLt hn
    exact ⟨(hword (by simp only [R.STA_STAT_LO, R.STA_W0]; omega)).trans hlo,
      (hword (by simp only [R.STA_STAT_HI, R.STA_W0]; omega)).trans hhi⟩

theorem gives_ctxClose (hopen : s.hw.isOpen x = true) :
    Gives (.ctxClose x) s fun h => h.get R.WELT_CTX_RSP_BUSY = 1 ∧ h.get R.WELT_CTX_RSP_STA = x.val ∧
      h.get (R.STA_W0_STATE x) = 2 ∧ OnlyRegs [R.WELT_CTX_RSP, R.STA_W0 x] s.hw h := by
  have hcmd : s.hw.ctxCommand 1 x =
      ((s.hw.set (R.STA_W0_STATE x) staClosing).set R.WELT_CTX_RSP_BUSY 1).set R.WELT_CTX_RSP_STA x := by
    rw [Hw.ctxCommand, Hw.flag, hbusy, if_neg (by decide), if_pos rfl, if_pos hopen]
  have hrsp {f : RF} (hf : f.addr = R.WELT_CTX_RSP) : apart f (R.STA_W0_STATE x) := by
    refine .inl ?_
    simp only [hf, R.WELT_CTX_RSP, R.STA_W0_STATE, R.STA_W0]
    omega
  refine gives_of_effect_eq (e := execClose x s) (f := fun h => h.ctxCommand 1 x) rfl rfl hup hcmd
    ⟨?_, ?_, ?_, OnlyRegs.canon ?_⟩
  · rw [Hw.canon_get, Hw.get_set_apart _ _ _ _ (apart_of_bits rfl)]
    exact Hw.get_set_const _ rfl
  · rw [Hw.canon_get]
    exact Hw.get_set_lt _ _ _ (fits_of_bits rfl) x.isLt
  · rw [Hw.canon_get, Hw.get_set_apart _ _ _ _ (hrsp rfl), Hw.get_set_apart _ _ _ _ (hrsp rfl)]
    exact Hw.get_set_const _ rfl
  · exact (onlyRegs_set _ (f := R.STA_W0_STATE x) _ (.tail _ (.head _))).trans <|
      (onlyRegs_set _ (f := R.WELT_CTX_RSP_BUSY) _ (.head _)).trans (onlyRegs_set _ (f := R.WELT_CTX_RSP_STA) _ (.head _))

theorem gives_ctxClose_fails (hopen : s.hw.isOpen x = false) :
    Gives (.ctxClose x) s (CtxCompleted x 1 (OnlyRegs [R.WELT_CTX_RSP] s.hw)) := by
  have hcmd : s.hw.ctxCommand 1 x = s.hw.ctxReport x ctxBadState := by
    rw [Hw.ctxCommand, Hw.flag, hbusy, if_neg (by decide), if_pos rfl, if_neg (by simp [hopen])]
  exact gives_ctxFailure (op := 1) hup rfl hcmd (by decide)

variable (ha : a = s.hw.get R.WELT_CTX_ARG_ARG)
include ha

theorem gives_ctxKey {k : Nat} (hopen : s.hw.isOpen x = true) (hk : k = a / 2 ^ 11 % 2)
    (hcipher : 1 ≤ a / 2 ^ 12 % 16 ∧ a / 2 ^ 12 % 16 ≤ 4) : Gives (.ctxKey x) s (CtxCompleted x 0 fun h =>
      (k = 0 → h.get (R.STA_W12_KEY0 x) = a % 2 ^ 11 ∧ h.get (R.STA_W12_KEY0_V x) = 1) ∧
      (k = 1 → h.get (R.STA_W12_KEY1 x) = a % 2 ^ 11 ∧ h.get (R.STA_W12_KEY1_V x) = 1) ∧
      h.get (R.STA_W12_CIPHER x) = a / 2 ^ 12 % 16 ∧ h.txPn x k = 0 ∧ (∀ t < 9, h.rxPn x k t = 0) ∧
      h.get (R.STA_W0_TX_KEYID x) = (if a.testBit 16 then k else s.hw.get (R.STA_W0_TX_KEYID x)) ∧ MemKept s.hw h) := by
  have hrun : s.hw.ctxRun 2 x a = (0, s.hw.keyStation x a) := by
    have hbad : ¬ (a / 2 ^ 12 % 16 = 0 ∨ 4 < a / 2 ^ 12 % 16) := by omega
    simp only [Hw.ctxRun, hopen, Bool.not_true, Bool.false_eq_true, if_false, if_neg hbad, ctxOk]
  have hcmd : s.hw.ctxCommand 2 x = (s.hw.keyStation x a).ctxReport x 0 :=
    s.hw.ctxCommand_run x hbusy (by decide) ha hrun
  refine gives_ctxReport (op := 2) hup rfl hcmd (by decide) ?_
  subst hk
  have hk : a / 2 ^ 11 % 2 < 2 := Nat.mod_lt _ (by decide)
  let keyed := s.hw.newKey x (a / 2 ^ 11 % 2) a
  let final := ((s.hw.keyStation x a).ctxReport x 0).canon
  have hword {b : Nat} (hb : R.STA_W12 x ≤ b) : final.word b = keyed.word b := by
    simp only [R.STA_W12] at hb
    refine (Hw.ctxReport_word _ x 0 (by simp only [R.STA_W0]; omega)).trans ((s.hw.keyStation_onlyRegs x a).1 b ?_)
    simp only [R.STA_W0, List.mem_singleton]
    omega
  have hget {g : RF} (hg : g.addr = R.STA_W12 x) : final.get g = keyed.get g := Hw.get_congr (hword hg.ge)
  have hpns : ∀ b ∈ pnRegs x (a / 2 ^ 11 % 2), final.word b = keyed.word b := fun b hb => hword (pnRegs_range hk hb).1.le
  have hkeyId : final.get (R.STA_W0_TX_KEYID x) = (s.hw.keyStation x a).get (R.STA_W0_TX_KEYID x) :=
    Hw.get_congr (Hw.ctxReport_word _ x 0 (by simp only [R.STA_W0_TX_KEYID, R.STA_W0]; omega))
  obtain ⟨hkey0, hkey1, hciph⟩ := s.hw.newKey_reads x a hk
  obtain ⟨htx, hrx⟩ := s.hw.newKey_pns x (a / 2 ^ 11 % 2) a
  have hmem : MemKept s.hw (s.hw.keyStation x a) := fun b =>
    ((s.hw.keyStation_onlyRegs x a).2.1 b).trans ((s.hw.newKey_onlyRegs x _ a).2.1 b)
  exact ⟨fun h0 => ⟨(hget rfl).trans (hkey0 h0).1, (hget rfl).trans (hkey0 h0).2⟩,
    fun h1 => ⟨(hget rfl).trans (hkey1 h1).1, (hget rfl).trans (hkey1 h1).2⟩, (hget rfl).trans hciph,
    (Hw.txPn_congr hpns).trans htx, fun t ht => (Hw.rxPn_congr hpns ht).trans (hrx t ht),
    hkeyId.trans (s.hw.keyStation_txKeyId x a), hmem.ctxReport x 0⟩

theorem gives_ctxMap (hopen : s.hw.isOpen x = true)
    (hmap : ∀ t < 8, mapOf a t ≠ 0 ∧ Nat.land (mapOf a t) (s.hw.staLinks x) = mapOf a t) :
    Gives (.ctxMap x) s (CtxCompleted x 0 fun h =>
      h.get (R.STA_W9_DL_MAP x) = (if a.testBit 24 then s.hw.get (R.STA_W9_DL_MAP x) else a % 2 ^ 24) ∧
      h.get (R.STA_W10_UL_MAP x) = (if a.testBit 24 then a % 2 ^ 24 else s.hw.get (R.STA_W10_UL_MAP x)) ∧
      OnlyRegs [R.WELT_CTX_RSP, R.STA_W9 x, R.STA_W10 x] s.hw h) := by
  let mapped := s.hw.storeMap x a (a.testBit 24)
  have hrun : s.hw.ctxRun 3 x a = (0, mapped) := by
    have hbad : ((List.range 8).any fun t =>
        mapOf a t == 0 || Nat.land (mapOf a t) (s.hw.staLinks x) != mapOf a t) = false := by
      simpa using hmap
    simp only [Hw.ctxRun, hopen, hbad, Bool.not_true, Bool.false_eq_true, if_false, ctxOk]
    rfl
  have hcmd : s.hw.ctxCommand 3 x = mapped.ctxReport x 0 := s.hw.ctxCommand_run x hbusy (by decide) ha hrun
  have hget {g : RF} (hg : R.STA_W0 0 ≤ g.addr) : (mapped.ctxReport x 0).canon.get g = mapped.get g :=
    Hw.get_congr (Hw.ctxReport_word _ x 0 hg)
  obtain ⟨hdl, hul⟩ := s.hw.storeMap_reads x a (a.testBit 24)
  refine gives_ctxReport (op := 3) hup rfl hcmd (by decide) ⟨(hget ?_).trans hdl, (hget ?_).trans hul, OnlyRegs.canon ?_⟩
  · simp only [R.STA_W9_DL_MAP, R.STA_W0, R.STA_W9]
    omega
  · simp only [R.STA_W10_UL_MAP, R.STA_W0, R.STA_W10]
    omega
  · exact ((s.hw.storeMap_onlyRegs x a _).mono (List.subset_cons_self _ _)).trans
      ((mapped.ctxReport_onlyRegs x 0).mono (List.cons_subset_cons _ (List.nil_subset _)))

theorem gives_baTxAdd (hopen : s.hw.isOpen x = true) (hnone : s.hw.txBa x (a % 8) = none)
    (hroom : s.hw.welt.txBa.length < 2048) (hbuf : 1 ≤ a / 2 ^ 3 % 2 ^ 11 ∧ a / 2 ^ 3 % 2 ^ 11 ≤ 1024) :
    Gives (.baTxAdd x) s (CtxCompleted x 0 fun h =>
      (∃ g ∈ h.txBa x (a % 8), g.bufsz = a / 2 ^ 3 % 2 ^ 11 ∧ g.winStart = a / 2 ^ 14 % 2 ^ 12) ∧
      (h.word (R.STA_W53 x)).toNat.testBit (a % 8) = true ∧ RegsKept [R.WELT_CTX_RSP, R.STA_W53 x] s.hw h ∧
      MemKept s.hw h) := by
  let made : Hw := s.hw.set ⟨R.STA_W53 x, a % 8, 1⟩ 1
  let g : TxAgreement := ⟨a / 2 ^ 3 % 2 ^ 11, a / 2 ^ 14 % 2 ^ 12, false⟩
  have hrun : s.hw.ctxRun 4 x a = (0, made.setTxBa x (a % 8) g) := by
    have hbad : ¬ (a / 2 ^ 3 % 2 ^ 11 = 0 ∨ 1024 < a / 2 ^ 3 % 2 ^ 11) := by omega
    simp only [Hw.ctxRun, hopen, hnone, Option.isSome_none, Bool.not_true, Bool.or_self, Bool.false_eq_true, if_false,
      if_neg hbad, if_neg (not_le.mpr hroom), ctxOk]
    rfl
  have hcmd := s.hw.ctxCommand_run x hbusy (by decide) ha hrun
  refine gives_ctxReport (op := 4) hup rfl hcmd (by decide) ⟨⟨g, ?_, rfl, rfl⟩, ?_, RegsKept.ctxReport ?_ x 0,
    MemKept.ctxReport (fun _ => rfl) x 0⟩
  · exact made.setTxBa_txBa x (a % 8) g
  · rw [Hw.ctxReport_word _ x 0 (by simp only [R.STA_W53, R.STA_W0]; omega)]
    exact s.hw.testBit_set_bit 1 (by omega)
  · exact RegsKept.set (RegsKept.refl _ _) ⟨R.STA_W53 x, a % 8, 1⟩ 1 (.tail _ (.head _))

theorem gives_baTxDel (hsome : (s.hw.txBa x (a % 8)).isSome = true) :
    Gives (.baTxDel x) s (CtxCompleted x 0 fun h => h.txBa x (a % 8) = none ∧
      (h.word (R.STA_W53 x)).toNat.testBit (a % 8) = false ∧ RegsKept [R.WELT_CTX_RSP, R.STA_W53 x] s.hw h ∧
      MemKept s.hw h) := by
  have hrun : s.hw.ctxRun 5 x a = (0, s.hw.endTxBa x (a % 8)) := by
    simp only [Hw.ctxRun, Option.isNone_eq_false_iff.mpr hsome, Bool.false_eq_true, if_false, ctxOk]
  have hcmd := s.hw.ctxCommand_run x hbusy (by decide) ha hrun
  refine gives_ctxReport (op := 5) hup rfl hcmd (by decide) ⟨s.hw.endTxBa_txBa x (a % 8), ?_, RegsKept.ctxReport ?_ x 0,
    MemKept.ctxReport (fun _ => rfl) x 0⟩
  · rw [Hw.ctxReport_word _ x 0 (by simp only [R.STA_W53, R.STA_W0]; omega)]
    exact s.hw.testBit_set_bit 0 (by omega)
  · exact (s.hw.endTxBa_regs x _).mono (List.subset_cons_self _ _)

theorem gives_baRxAdd (hopen : s.hw.isOpen x = true) (hnone : s.hw.rxBa x (a % 8) = none)
    (hroom : s.hw.welt.rxBa.length < 2048) (hslots : 0 < s.hw.get R.WELT_RO_CTL_SLOTS)
    (hbuf : 1 ≤ a / 2 ^ 3 % 2 ^ 11 ∧ a / 2 ^ 3 % 2 ^ 11 ≤ 1024) : Gives (.baRxAdd x) s (CtxCompleted x 0 fun h =>
      h.rxBa x (a % 8) = some ⟨a / 2 ^ 3 % 2 ^ 11, a / 2 ^ 14 % 2 ^ 12, []⟩ ∧
      (h.word (R.STA_W53 x)).toNat.testBit (8 + a % 8) = true ∧ RegsKept [R.WELT_CTX_RSP, R.STA_W53 x] s.hw h ∧
      MemKept s.hw h) := by
  let made : Hw := s.hw.set ⟨R.STA_W53 x, 8 + a % 8, 1⟩ 1
  let g : RxAgreement := ⟨a / 2 ^ 3 % 2 ^ 11, a / 2 ^ 14 % 2 ^ 12, []⟩
  have hrun : s.hw.ctxRun 6 x a = (0, made.setRxBa x (a % 8) g) := by
    have hfull : ¬ (2048 ≤ s.hw.welt.rxBa.length ∨ s.hw.get R.WELT_RO_CTL_SLOTS = 0) := by omega
    have hbad : ¬ (a / 2 ^ 3 % 2 ^ 11 = 0 ∨ 1024 < a / 2 ^ 3 % 2 ^ 11) := by omega
    simp only [Hw.ctxRun, hopen, hnone, Option.isSome_none, Bool.not_true, Bool.or_self, Bool.false_eq_true, if_false,
      if_neg hbad, if_neg hfull, ctxOk]
    rfl
  have hcmd := s.hw.ctxCommand_run x hbusy (by decide) ha hrun
  refine gives_ctxReport (op := 6) hup rfl hcmd (by decide) ⟨made.setRxBa_rxBa x (a % 8) g, ?_, RegsKept.ctxReport ?_ x 0,
    MemKept.ctxReport (fun _ => rfl) x 0⟩
  · rw [Hw.ctxReport_word _ x 0 (by simp only [R.STA_W53, R.STA_W0]; omega)]
    exact s.hw.testBit_set_bit 1 (by omega)
  · exact RegsKept.set (RegsKept.refl _ _) ⟨R.STA_W53 x, 8 + a % 8, 1⟩ 1 (.tail _ (.head _))

theorem gives_baRxDel {g : RxAgreement} (hg : s.hw.rxBa x (a % 8) = some g) (hheld : g.held = []) :
    Gives (.baRxDel x) s (CtxCompleted x 0 fun h => h.rxBa x (a % 8) = none ∧
      (h.word (R.STA_W53 x)).toNat.testBit (8 + a % 8) = false ∧ RegsKept [R.WELT_CTX_RSP, R.STA_W53 x] s.hw h ∧
      MemKept s.hw h) := by
  have hrun : s.hw.ctxRun 7 x a = (0, s.hw.dropRxBa x (a % 8)) := by
    simp only [Hw.ctxRun, hg, Option.isNone_some, Bool.false_eq_true, if_false, ctxOk, Hw.endRxBa_of_empty _ _ _ hg hheld]
  have hcmd := s.hw.ctxCommand_run x hbusy (by decide) ha hrun
  refine gives_ctxReport (op := 7) hup rfl hcmd (by decide) ⟨s.hw.dropRxBa_rxBa x (a % 8), ?_, RegsKept.ctxReport ?_ x 0,
    MemKept.ctxReport (fun _ => rfl) x 0⟩
  · rw [Hw.ctxReport_word _ x 0 (by simp only [R.STA_W53, R.STA_W0]; omega)]
    exact Hw.testBit_set_bit _ 0 (by omega)
  · exact (s.hw.dropRxBa_regs x _).mono (List.subset_cons_self _ _)

end

/-! ### Commands that fail, and commands that are lost -/

section
variable {s : State} {x : Fin 1024} {a : Nat}

/-- A command other than CLOSE whose run fails. -/
theorem gives_ctxFailure_of_run {c : Instr} {op st : Nat} (hup : s.hw.mainUp = true)
    (hbusy : s.hw.get R.WELT_CTX_RSP_BUSY = 0) (hop : op ≠ 1) (hc : exec c s = s.effect fun h => h.ctxCommand op x)
    (ha : a = s.hw.get R.WELT_CTX_ARG_ARG) (hst : st < 16) (hr : s.hw.ctxRun op x a = (st, s.hw)) :
    Gives c s (CtxCompleted x st (OnlyRegs [R.WELT_CTX_RSP] s.hw)) :=
  gives_ctxFailure hup hc (s.hw.ctxCommand_run x hbusy hop ha hr) hst

variable (x) in
theorem Hw.ctxRun_open_fails (h : Hw) (a : Nat) (hst : h.openStatus x ≠ 0) :
    h.ctxRun 0 x a = (h.openStatus x, h) := by
  simp [Hw.ctxRun, ctxOk, hst]

/-- KEY, MAP and the additions of a station that is not open. -/
theorem Hw.ctxRun_notOpen (h : Hw) (s a : Nat) {op : Nat} (hop : op ∈ [2, 3, 4, 6]) (hopen : h.isOpen s = false) :
    h.ctxRun op s a = (ctxBadState, h) := by
  simp only [List.mem_cons, List.not_mem_nil, or_false] at hop
  rcases hop with rfl | rfl | rfl | rfl <;> simp [Hw.ctxRun, hopen]

/-- An agreement that is there is not added again; one that is not there is not deleted. -/
theorem Hw.ctxRun_baTxAdd_again (h : Hw) (s a : Nat) (hsome : (h.txBa s (a % 8)).isSome = true) :
    h.ctxRun 4 s a = (ctxBadState, h) := by simp [Hw.ctxRun, hsome]

theorem Hw.ctxRun_baRxAdd_again (h : Hw) (s a : Nat) (hsome : (h.rxBa s (a % 8)).isSome = true) :
    h.ctxRun 6 s a = (ctxBadState, h) := by simp [Hw.ctxRun, hsome]

theorem Hw.ctxRun_baTxDel_absent (h : Hw) (s a : Nat) (hnone : h.txBa s (a % 8) = none) :
    h.ctxRun 5 s a = (ctxBadState, h) := by simp [Hw.ctxRun, hnone]

theorem Hw.ctxRun_baRxDel_absent (h : Hw) (s a : Nat) (hnone : h.rxBa s (a % 8) = none) :
    h.ctxRun 7 s a = (ctxBadState, h) := by simp [Hw.ctxRun, hnone]

/-- The eight context commands, by their operation codes (R182). -/
theorem exec_ctxCommand {c : Instr} (hc : c ∈ ([.ctxOpen x, .ctxClose x, .ctxKey x, .ctxMap x, .baTxAdd x, .baTxDel x,
    .baRxAdd x, .baRxDel x] : List Instr)) : ∃ op, exec c s = s.effect fun h => h.ctxCommand op x := by
  simp only [List.mem_cons, List.not_mem_nil, or_false] at hc
  rcases hc with rfl | rfl | rfl | rfl | rfl | rfl | rfl | rfl
  exacts [⟨0, rfl⟩, ⟨1, rfl⟩, ⟨2, rfl⟩, ⟨3, rfl⟩, ⟨4, rfl⟩, ⟨5, rfl⟩, ⟨6, rfl⟩, ⟨7, rfl⟩]

theorem gives_ctxLost {c : Instr} (hup : s.hw.mainUp = true) (hbusy : s.hw.get R.WELT_CTX_RSP_BUSY = 1)
    (hc : c ∈ ([.ctxOpen x, .ctxClose x, .ctxKey x, .ctxMap x, .baTxAdd x, .baTxDel x, .baRxAdd x,
      .baRxDel x] : List Instr)) :
    Gives c s fun h => h.get R.WELT_CTX_RSP_LOST = 1 ∧ OnlyRegs [R.WELT_CTX_RSP] s.hw h := by
  obtain ⟨op, hexec⟩ := exec_ctxCommand (s := s) hc
  have hcmd : s.hw.ctxCommand op x = s.hw.set R.WELT_CTX_RSP_LOST 1 := by
    rw [Hw.ctxCommand, Hw.flag, hbusy, if_pos (by decide)]
  exact gives_of_effect_eq hexec rfl hup hcmd ⟨Hw.get_set_const _ rfl, (onlyRegs_setAt _ R.WELT_CTX_RSP_LOST _ rfl).canon⟩

end

/-! ### The obligation -/

/-- Settles O16: each command completes with the effect of its run, fails with its status alone, or is lost. -/
theorem stationContextCommands : Obligations.StationContextCommands := by
  intro s hup
  have hbad {c : Instr} {x : Fin 1024} {op a : Nat} (hbusy : s.hw.get R.WELT_CTX_RSP_BUSY = 0)
      (ha : a = s.hw.get R.WELT_CTX_ARG_ARG) (hop : op ≠ 1) (hc : exec c s = s.effect fun h => h.ctxCommand op x)
      (hr : s.hw.ctxRun op x a = (ctxBadState, s.hw)) :=
    gives_ctxFailure_of_run hup hbusy hop hc ha (by decide) hr
  refine ⟨fun x hbusy hst => gives_ctxOpen hup hbusy hst,
    fun x a hbusy ha hst => gives_ctxFailure_of_run (op := 0) hup hbusy (by decide) rfl ha (s.hw.openStatus_lt x)
      (Hw.ctxRun_open_fails x s.hw a hst),
    fun x hbusy hopen => gives_ctxClose hup hbusy hopen,
    fun x _ hbusy _ hopen => gives_ctxClose_fails hup hbusy hopen,
    fun x a k hbusy ha hopen hk hcipher => gives_ctxKey hup hbusy ha hopen hk hcipher,
    fun x a hbusy ha hopen => hbad (op := 2) hbusy ha (by decide) rfl (s.hw.ctxRun_notOpen x a (by decide) hopen),
    fun x a hbusy ha hopen hmap => gives_ctxMap hup hbusy ha hopen hmap,
    fun x a hbusy ha hopen => hbad (op := 3) hbusy ha (by decide) rfl (s.hw.ctxRun_notOpen x a (by decide) hopen),
    fun x a hbusy ha hopen hnone hroom hbuf => gives_baTxAdd hup hbusy ha hopen hnone hroom hbuf,
    fun x a hbusy ha hno => hbad (op := 4) hbusy ha (by decide) rfl ?_,
    fun x a hbusy ha hsome => gives_baTxDel hup hbusy ha hsome,
    fun x a hbusy ha hnone => hbad (op := 5) hbusy ha (by decide) rfl (s.hw.ctxRun_baTxDel_absent x a hnone),
    fun x a hbusy ha hopen hnone hroom hslots hbuf => gives_baRxAdd hup hbusy ha hopen hnone hroom hslots hbuf,
    fun x a hbusy ha hno => hbad (op := 6) hbusy ha (by decide) rfl ?_,
    fun x a g hbusy ha hg hheld => gives_baRxDel hup hbusy ha hg hheld,
    fun x a hbusy ha hnone => hbad (op := 7) hbusy ha (by decide) rfl (s.hw.ctxRun_baRxDel_absent x a hnone),
    fun x c hbusy hc => gives_ctxLost hup hbusy hc⟩
  · rcases hno with hopen | hsome
    · exact s.hw.ctxRun_notOpen x a (by decide) hopen
    · exact s.hw.ctxRun_baTxAdd_again x a hsome
  · rcases hno with hopen | hsome
    · exact s.hw.ctxRun_notOpen x a (by decide) hopen
    · exact s.hw.ctxRun_baRxAdd_again x a hsome

end Sys2Proof.Machine
end

section
/-!
SUPPORT. CLOSE_COMPLETE: the agreements, keys and MPDUs of a station go, and its context becomes free (R183).
-/
namespace Sys2Proof.Machine

/-! ### What changes registers alone leaves -/

section
variable {as : List Nat} {h h' : Hw} (ho : OnlyRegs as h h')
include ho

theorem OnlyRegs.et_eq : h'.et = h.et := by
  obtain ⟨-, -, hrest⟩ := ho
  exact congrArg (·.et) hrest

end

theorem Hw.writeFields_onlyRegs (h : Hw) (a : Nat) (v : Word) : OnlyRegs [a] h (h.writeFields a v) := by
  unfold Hw.writeFields
  split
  · exact OnlyRegs.refl _ _
  · exact onlyRegs_setWord _ _ (.head _)

/-! ### CLOSE_COMPLETE (R183) -/

/-- Agreements of station `s` have gone, and nothing else has changed but their bits and timeouts. -/
structure AgreementsLess (s : Nat) (h h' : Hw) : Prop where
  regs : RegsKept [R.STA_W53 s] h h'
  mem : h'.mem = h.mem
  txBa : ∀ t, h'.txBa s t = none ∨ h'.txBa s t = h.txBa s t
  rxBa : ∀ t, h'.rxBa s t = none ∨ h'.rxBa s t = h.rxBa s t

theorem AgreementsLess.refl (s : Nat) (h : Hw) : AgreementsLess s h h :=
  ⟨RegsKept.refl _ _, rfl, fun _ => .inr rfl, fun _ => .inr rfl⟩

theorem AgreementsLess.trans {s : Nat} {h h' h'' : Hw} (h1 : AgreementsLess s h h') (h2 : AgreementsLess s h' h'') :
    AgreementsLess s h h'' where
  regs := h1.regs.trans h2.regs
  mem := h2.mem.trans h1.mem
  txBa t := (h2.txBa t).elim .inl fun e => e ▸ h1.txBa t
  rxBa t := (h2.rxBa t).elim .inl fun e => e ▸ h1.rxBa t

section
variable (h : Hw) (s t : Nat)

theorem kget_kdel_cases {α : Type} (m : NMap α) (k j : Nat) : kget (kdel m k) j = none ∨ kget (kdel m k) j = kget m j := by
  rw [kget_kdel]
  split
  · exact .inl rfl
  · exact .inr rfl

theorem Hw.endTxBa_less : AgreementsLess s h (h.endTxBa s t) :=
  ⟨h.endTxBa_regs s t, rfl, fun _ => kget_kdel_cases _ _ _, fun _ => .inr rfl⟩

theorem Hw.dropRxBa_less : AgreementsLess s h (h.dropRxBa s t) :=
  ⟨h.dropRxBa_regs s t, rfl, fun _ => .inr rfl, fun _ => kget_kdel_cases _ _ _⟩

variable {h s t}

/-- The receive agreement of a TID that holds nothing ends, if there is one. -/
theorem Hw.endRxBa_cases (hheld : ∀ g ∈ h.rxBa s t, g.held = []) :
    (h.rxBa s t = none ∧ h.endRxBa s t = h) ∨ h.endRxBa s t = h.dropRxBa s t := by
  cases hg : h.rxBa s t with
  | none => exact .inl ⟨rfl, by simp [Hw.endRxBa, hg]⟩
  | some g => exact .inr (h.endRxBa_of_empty s t hg (hheld g hg))

/-- Both agreements of a TID end. -/
def Hw.endBoth (h : Hw) (s t : Nat) : Hw := (h.endTxBa s t).endRxBa s t

theorem Hw.endBoth_less (hheld : ∀ g ∈ h.rxBa s t, g.held = []) : AgreementsLess s h (h.endBoth s t) ∧
    (h.endBoth s t).txBa s t = none ∧ (h.endBoth s t).rxBa s t = none := by
  have htx := h.endTxBa_less s t
  have hnone := h.endTxBa_txBa s t
  obtain ⟨habsent, hsame⟩ | hdrop := Hw.endRxBa_cases (h := h.endTxBa s t) hheld
  · rw [Hw.endBoth, hsame]
    exact ⟨htx, hnone, habsent⟩
  · rw [Hw.endBoth, hdrop]
    exact ⟨htx.trans (Hw.dropRxBa_less _ s t), hnone, Hw.dropRxBa_rxBa _ s t⟩

/-- The agreements of every TID end. -/
def Hw.endAgreements (h : Hw) (s : Nat) : Hw := (List.range 8).foldl (fun h t => h.endBoth s t) h

theorem AgreementsLess.held {h' : Hw} (hl : AgreementsLess s h h') (hheld : ∀ g ∈ h.rxBa s t, g.held = []) :
    ∀ g ∈ h'.rxBa s t, g.held = [] := by
  intro g hg
  obtain hnone | hsame := hl.rxBa t
  · rw [hnone] at hg
    cases hg
  · exact hheld g (hsame ▸ hg)

theorem Hw.endAgreements_ends (hheld : ∀ t < 8, ∀ g ∈ h.rxBa s t, g.held = []) :
    AgreementsLess s h (h.endAgreements s) ∧
    ∀ t < 8, (h.endAgreements s).txBa s t = none ∧ (h.endAgreements s).rxBa s t = none := by
  have hstep {k : Hw} {u : Nat} (hu : u ∈ List.range 8) (hk : AgreementsLess s h k) :=
    Hw.endBoth_less (hk.held (hheld u (List.mem_range.mp hu)))
  refine ⟨List.foldlRecOn (motive := AgreementsLess s h) _ _ (AgreementsLess.refl s h) fun k hk u hu =>
    hk.trans (hstep hu hk).1, fun t ht => ?_⟩
  have hmem : t ∈ List.range 8 := List.mem_range.mpr ht
  refine foldl_of_step_along (I := AgreementsLess s h) (P := fun k : Hw => k.txBa s t = none ∧ k.rxBa s t = none)
    (f := fun h t => Hw.endBoth h s t) hmem (fun k u hu hk => hk.trans (hstep hu hk).1) (fun k hk => (hstep hmem hk).2)
    (fun k u hu hk hnone => ?_) (AgreementsLess.refl s h)
  have hless := (hstep hu hk).1
  exact ⟨(hless.txBa t).elim id fun e => e.trans hnone.1, (hless.rxBa t).elim id fun e => e.trans hnone.2⟩

end

section
variable (h : Hw) (s : Nat)

/-- The MPDUs of a station go. -/
def Hw.forgetMpdusOf : Hw := { h with welt := { h.welt with mpdus := h.welt.mpdus.filter fun p => p.2.sta != some s } }

theorem Hw.forgetMpdusOf_word (a : Nat) : (h.forgetMpdusOf s).word a = h.word a := rfl

/-- Both keys of a station become invalid. -/
def Hw.dropKeys : Hw := (h.set (R.STA_W12_KEY0_V s) 0).set (R.STA_W12_KEY1_V s) 0

/-- The context of a station whose agreements have ended becomes free. -/
def Hw.vacate : Hw := ((h.dropKeys s).forgetMpdusOf s).set (R.STA_W0_STATE s) staFree

theorem Hw.vacate_word {a : Nat} (ha : a ≠ R.STA_W0 s) : (h.vacate s).word a = (h.dropKeys s).word a :=
  (Hw.word_set_ne _ (R.STA_W0_STATE s) staFree ha).trans (Hw.forgetMpdusOf_word _ s a)

theorem Hw.vacate_mem : (h.vacate s).mem = h.mem := rfl

theorem Hw.vacate_agreements (st u t : Nat) : ((h.vacate s).ctxReport s st).canon.txBa u t = h.txBa u t ∧
    ((h.vacate s).ctxReport s st).canon.rxBa u t = h.rxBa u t := ⟨rfl, rfl⟩

theorem Hw.vacate_reads : (h.vacate s).get (R.STA_W0_STATE s) = 0 ∧ (h.vacate s).get (R.STA_W12_KEY0_V s) = 0 ∧
    (h.vacate s).get (R.STA_W12_KEY1_V s) = 0 := by
  have hkey {g : RF} (hg : g.addr = R.STA_W12 s) :
      (h.vacate s).get g = (h.dropKeys s).get g :=
    Hw.get_congr (h.vacate_word s (by simp [hg, R.STA_W0, R.STA_W12]))
  exact ⟨Hw.get_set_const _ rfl,
    (hkey rfl).trans ((Hw.get_set_apart _ _ _ _ (apart_of_bits rfl)).trans (Hw.get_set_const _ rfl)),
    (hkey rfl).trans (Hw.get_set_const _ rfl)⟩

theorem Hw.vacate_regs : RegsKept [R.STA_W0 s, R.STA_W12 s] h (h.vacate s) := by
  have hkeys : RegsKept [R.STA_W0 s, R.STA_W12 s] h (h.dropKeys s) :=
    ((RegsKept.refl _ h).set (R.STA_W12_KEY0_V s) 0 (by simp [R.STA_W12_KEY0_V])).set
      (R.STA_W12_KEY1_V s) 0 (by simp [R.STA_W12_KEY1_V])
  exact fun a ha => (h.vacate_word s fun he => ha (by simp [he])).trans (hkeys a ha)

end

theorem exec_ctxCloseComplete (x : Fin 1024) (s : State) : exec (.ctxCloseComplete x) s = s.effect fun h =>
    if h.staState x = staClosing ∧ !h.inFlight x then ((h.endAgreements x).vacate x).ctxReport x ctxOk else h := by
  unfold Hw.endAgreements Hw.endBoth Hw.vacate Hw.forgetMpdusOf Hw.dropKeys
  rfl

theorem gives_ctxCloseComplete {s : State} {x : Fin 1024} (hup : s.hw.mainUp = true) (hst : s.hw.staState x = 2)
    (hflight : s.hw.inFlight x = false) (hheld : ∀ t < 8, ((s.hw.rxBa x t).all fun g => g.held.isEmpty) = true) :
    Gives (.ctxCloseComplete x) s (CtxCompleted x 0 fun h =>
      h.get (R.STA_W0_STATE x) = 0 ∧ h.get (R.STA_W12_KEY0_V x) = 0 ∧ h.get (R.STA_W12_KEY1_V x) = 0 ∧
      (∀ t < 8, h.txBa x t = none ∧ h.rxBa x t = none) ∧
      RegsKept [R.WELT_CTX_RSP, R.STA_W0 x, R.STA_W12 x, R.STA_W53 x] s.hw h ∧ MemKept s.hw h) := by
  have hempty : ∀ t < 8, ∀ g ∈ s.hw.rxBa x t, g.held = [] := fun t ht g hg => by
    have hall := hheld t ht
    rw [hg, Option.all_some] at hall
    exact List.isEmpty_iff.mp hall
  have hcond : s.hw.staState x = staClosing ∧ (!s.hw.inFlight x) = true := ⟨hst, by rw [hflight]; rfl⟩
  obtain ⟨k, hk⟩ : ∃ k, s.hw.endAgreements x = k := ⟨_, rfl⟩
  have hends := Hw.endAgreements_ends hempty
  rw [hk] at hends
  obtain ⟨hless, hgone⟩ := hends
  have hclose : (if s.hw.staState x = staClosing ∧ !s.hw.inFlight x then
      ((s.hw.endAgreements x).vacate x).ctxReport x ctxOk else s.hw) = (k.vacate x).ctxReport x ctxOk := by
    rw [if_pos hcond, hk]
  obtain ⟨hfree, hkey0, hkey1⟩ := k.vacate_reads x
  have hctx {g : RF} (hg : R.STA_W0 0 ≤ g.addr) : ((k.vacate x).ctxReport x ctxOk).canon.get g = (k.vacate x).get g :=
    Hw.get_congr (Hw.ctxReport_word _ x ctxOk hg)
  have hctxBase : R.STA_W0 0 ≤ R.STA_W0 x ∧ R.STA_W0 0 ≤ R.STA_W12 x := by simp only [R.STA_W0, R.STA_W12]; omega
  have hregs := (hless.regs.mono (bs := [R.STA_W0 x, R.STA_W12 x, R.STA_W53 x]) (by simp)).trans
    ((k.vacate_regs x).mono (by simp))
  refine gives_ctxCompleted (k := k.vacate x) (st := ctxOk) hup (exec_ctxCloseComplete x s) hclose (by decide)
    ⟨(hctx hctxBase.1).trans hfree, (hctx hctxBase.2).trans hkey0, (hctx hctxBase.2).trans hkey1, ?_,
      RegsKept.ctxReport (hregs.mono (List.subset_cons_self _ _)) x ctxOk,
      MemKept.ctxReport (.of_mem ((k.vacate_mem x).trans hless.mem)) x ctxOk⟩
  intro t ht
  obtain ⟨htx, hrx⟩ := k.vacate_agreements x ctxOk x t
  exact ⟨htx.trans (hgone t ht).1, hrx.trans (hgone t ht).2⟩

end Sys2Proof.Machine
end

section
/-!
SUPPORT. The offset of the TSF (R178), and the wake-up radio's jobs and beacons (R199, R200, R206).
-/
namespace Sys2Proof.Machine

/-! ### TSF_OFS_HI_WRITE (R178) -/

/-- A field that is a whole register takes the word written. -/
theorem Hw.word_set_word (h : Hw) {f : RF} (hlo : f.lo = 0) (hlen : f.len = 32) (v : Word) :
    (h.set f v.toNat).word f.addr = v := by
  rw [Hw.word_set_self]
  refine BitVec.eq_of_getLsbD_eq fun i hi => ?_
  rw [getLsbD_setBitsOf, if_pos (by omega), hlo]
  rfl

theorem gives_tsfOfsHiWrite {s : State} (hup : s.hw.mainUp = true) (v : Word) : Gives (.tsfOfsHiWrite v) s fun h =>
    h.word R.WELT_TSF_OFS_HI = v ∧ h.word R.WELT_TSF_OFS_LO = s.hw.welt.tsfHeld ∧
    OnlyRegs [R.WELT_TSF_OFS_LO, R.WELT_TSF_OFS_HI] s.hw h := by
  have honly : OnlyRegs [R.WELT_TSF_OFS_LO, R.WELT_TSF_OFS_HI] s.hw (s.hw.writeTsfHi v) :=
    (onlyRegs_set _ (f := R.WELT_TSF_OFS_LO_LO) _ (.head _)).trans
      (onlyRegs_set _ (f := R.WELT_TSF_OFS_HI_HI) _ (.tail _ (.head _)))
  refine gives_of_effect_eq (f := fun h => h.writeTsfHi v) rfl rfl hup rfl
    ⟨Hw.word_set_word _ (f := R.WELT_TSF_OFS_HI_HI) rfl rfl v, ?_, honly.canon⟩
  exact (Hw.word_set_ne _ R.WELT_TSF_OFS_HI_HI _ (by decide)).trans (Hw.word_set_word _ (f := R.WELT_TSF_OFS_LO_LO) rfl rfl _)

/-! ### The end of a wake-up job (R199) -/

section
variable (h : Hw) (j : Nat)

/-- The registers of a job that ends. -/
def Hw.wurEndRegs (st : Nat) : Hw := (h.set (R.WELT_WUR_STAT_STATE j) st).set (R.WELT_WUR_STAT_DONE_EV j) 1

theorem Hw.wurEnd_word (st a : Nat) : (h.wurEnd j st).word a = (h.wurEndRegs j st).word a := rfl

theorem Hw.wurEnd_mem (st : Nat) : (h.wurEnd j st).mem = h.mem := rfl

theorem Hw.wurEnd_jobs (st : Nat) : kget (h.wurEnd j st).welt.jobs j = none := kget_kdel_self ..

theorem Hw.wurEnd_timer (st : Nat) : tget (h.wurEnd j st).timers (.wurSend j) = none :=
  (tget_tdel _ _ _).trans (if_pos rfl)

theorem Hw.wurEnd_regs (st : Nat) : RegsKept [R.WELT_WUR_STAT j] h (h.wurEnd j st) := fun a ha =>
  (h.wurEnd_word j st a).trans <|
    ((RegsKept.refl _ h).set (R.WELT_WUR_STAT_STATE j) st (.head _)).set (R.WELT_WUR_STAT_DONE_EV j) 1 (.head _) a ha

theorem Hw.wurEnd_reads {st : Nat} (hst : st < 8) : (h.wurEnd j st).get (R.WELT_WUR_STAT_STATE j) = st ∧
    (h.wurEnd j st).get (R.WELT_WUR_STAT_DONE_EV j) = 1 := by
  have hget (g : RF) : (h.wurEnd j st).get g = (h.wurEndRegs j st).get g := Hw.get_congr (h.wurEnd_word j st _)
  exact ⟨(hget _).trans <| (Hw.get_set_apart _ _ _ _ (apart_of_bits rfl)).trans <|
    Hw.get_set_lt _ _ _ (fits_of_bits rfl) hst, (hget _).trans (Hw.get_set_const _ rfl)⟩

end

/-! ### WUR_JOB_START (R199) -/

theorem regRow_wurCmd (j : Fin 16) : regRow (R.WELT_WUR_CMD j) =
    some ⟨0x40D00400, [(0x10, 0x10)], 0x1FFFFFFF, 0, 0, 0, 0, 0, "WELT_WUR_CMD"⟩ := by
  fin_cases j <;> rfl

section
variable (h : Hw) (j : Fin 16) (v : Word)

/-- A job as its command is stored, with no send counted. -/
def Hw.wurCommanded : Hw :=
  ((h.writeFields (R.WELT_WUR_CMD j) v).set (R.WELT_WUR_STAT_SENT j) 0).set (R.WELT_WUR_STAT_SKIPPED j) 0

/-- A job that sends from now on. -/
def Hw.wurBegun : Hw :=
  let h := (h.set (R.WELT_WUR_STAT_STATE j) wurSending).start (.wurSend j) 0
  { h with welt := { h.welt with jobs := kput h.welt.jobs j ⟨h.et, 0, false⟩ } }

theorem Hw.wurCommanded_onlyRegs : OnlyRegs [R.WELT_WUR_STAT j, R.WELT_WUR_CMD j] h (h.wurCommanded j v) :=
  ((h.writeFields_onlyRegs (R.WELT_WUR_CMD j) v).mono (List.subset_cons_self _ _)).trans <|
    (onlyRegs_set _ (f := R.WELT_WUR_STAT_SENT j) _ (.head _)).trans
      (onlyRegs_set _ (f := R.WELT_WUR_STAT_SKIPPED j) _ (.head _))

theorem Hw.wurCommanded_stat : (h.wurCommanded j v).get (R.WELT_WUR_STAT_SENT j) = 0 ∧
    (h.wurCommanded j v).get (R.WELT_WUR_STAT_SKIPPED j) = 0 :=
  ⟨(Hw.get_set_apart _ _ _ _ (apart_of_bits rfl)).trans (Hw.get_set_const _ rfl), Hw.get_set_const _ rfl⟩

/-- Every field of the command takes what is written. -/
theorem Hw.wurCommanded_get {f : RF} (ha : f.addr = R.WELT_WUR_CMD j)
    (hbits : ∀ i < f.len, (0x1FFFFFFF#32).getLsbD (f.lo + i) = true) : (h.wurCommanded j v).get f = fieldOf v f := by
  have hne : f.addr ≠ R.WELT_WUR_STAT j := by
    simp only [ha, R.WELT_WUR_CMD, R.WELT_WUR_STAT]
    omega
  rw [Hw.wurCommanded, Hw.get_set_apart _ _ _ _ (.inl hne.symm), Hw.get_set_apart _ _ _ _ (.inl hne.symm), ← ha]
  refine Hw.get_writeFields h v (ha ▸ regRow_wurCmd j) fun i hi => ?_
  exact hbits i hi

theorem Hw.wurCommanded_sta : (h.wurCommanded j v).get (R.WELT_WUR_CMD_STA j) = fieldOf v (R.WELT_WUR_CMD_STA j) :=
  h.wurCommanded_get j v rfl (by simp only [R.WELT_WUR_CMD_STA]; decide)

theorem Hw.wurCommanded_group : (h.wurCommanded j v).get (R.WELT_WUR_CMD_GROUP j) = fieldOf v (R.WELT_WUR_CMD_GROUP j) :=
  h.wurCommanded_get j v rfl (by simp only [R.WELT_WUR_CMD_GROUP]; decide)

theorem Hw.wurCommanded_repeat : (h.wurCommanded j v).get (R.WELT_WUR_CMD_REPEAT j) = fieldOf v (R.WELT_WUR_CMD_REPEAT j) :=
  h.wurCommanded_get j v rfl (by simp only [R.WELT_WUR_CMD_REPEAT]; decide)

/-- A station that may be woken: it is open, with WUR. -/
def Hw.wurAble (h : Hw) (s : Nat) : Bool := h.isOpen s && h.flag (R.STA_W0_WUR s)

theorem Hw.wurCommanded_able (s : Nat) : (h.wurCommanded j v).wurAble s = h.wurAble s := by
  have hget {f : RF} (hf : f.addr = R.STA_W0 s) : (h.wurCommanded j v).get f = h.get f := by
    refine (h.wurCommanded_onlyRegs j v).get ?_
    have hj := j.isLt
    simp only [hf, R.STA_W0, R.WELT_WUR_STAT, R.WELT_WUR_CMD, List.mem_cons, List.not_mem_nil, or_false]
    omega
  simp only [Hw.wurAble, Hw.isOpen, Hw.staState, Hw.flag, hget (f := R.STA_W0_STATE s) rfl, hget (f := R.STA_W0_WUR s) rfl]

/-- A command for a job that does not send: the job starts if it may, and is refused otherwise. -/
theorem Hw.writeWurCmd_idle (hst : h.get (R.WELT_WUR_STAT_STATE j) ≠ 1) : h.writeWurCmd j v =
    if fieldOf v (R.WELT_WUR_CMD_GROUP j) != 0 || h.wurAble (fieldOf v (R.WELT_WUR_CMD_STA j))
    then (h.wurCommanded j v).wurBegun j else (h.wurCommanded j v).wurEnd j wurRefused := by
  rw [← h.wurCommanded_able j v, ← h.wurCommanded_group j v, ← h.wurCommanded_sta j v]
  exact if_neg hst

theorem Hw.wurBegun_word (a : Nat) : (h.wurBegun j).word a = (h.set (R.WELT_WUR_STAT_STATE j) wurSending).word a := rfl
theorem Hw.wurBegun_mem : (h.wurBegun j).mem = h.mem := rfl

theorem Hw.wurBegun_job : kget (h.wurBegun j).welt.jobs j = some ⟨h.et, 0, false⟩ := kget_kput_self ..
theorem Hw.wurBegun_timer : tget (h.wurBegun j).timers (.wurSend j) = some h.et :=
  (tget_start _ _ _ _).trans (if_pos rfl)

theorem Hw.wurBegun_get {g : RF} (hg : apart (R.WELT_WUR_STAT_STATE j) g) : (h.wurBegun j).get g = h.get g :=
  (Hw.get_congr (h.wurBegun_word j _)).trans (Hw.get_set_apart _ _ _ _ hg)

theorem Hw.wurBegun_state : (h.wurBegun j).get (R.WELT_WUR_STAT_STATE j) = 1 :=
  (Hw.get_congr (h.wurBegun_word j _)).trans (Hw.get_set_const _ rfl)

theorem Hw.wurBegun_regs : RegsKept [R.WELT_WUR_STAT j] h (h.wurBegun j) := fun a ha =>
  (h.wurBegun_word j a).trans ((RegsKept.refl _ h).set (R.WELT_WUR_STAT_STATE j) _ (.head _) a ha)

end

section
variable {s : State} {j : Fin 16} {v : Word} (hup : s.hw.mainUp = true)
include hup

theorem gives_wurJobStart_starts (hst : s.hw.get (R.WELT_WUR_STAT_STATE j) ≠ 1)
    (hable : fieldOf v (R.WELT_WUR_CMD_GROUP j) = 1 ∨ s.hw.wurAble (fieldOf v (R.WELT_WUR_CMD_STA j)) = true) :
    Gives (.wurJobStart j v) s fun h =>
      h.get (R.WELT_WUR_STAT_STATE j) = 1 ∧ h.get (R.WELT_WUR_STAT_SENT j) = 0 ∧ h.get (R.WELT_WUR_STAT_SKIPPED j) = 0 ∧
      h.get (R.WELT_WUR_CMD_STA j) = fieldOf v (R.WELT_WUR_CMD_STA j) ∧
      h.get (R.WELT_WUR_CMD_REPEAT j) = fieldOf v (R.WELT_WUR_CMD_REPEAT j) ∧
      kget h.welt.jobs j = some ⟨s.hw.et, 0, false⟩ ∧ tget h.timers (.wurSend j) = some s.hw.et ∧
      RegsKept [R.WELT_WUR_STAT j, R.WELT_WUR_CMD j] s.hw h ∧ MemKept s.hw h := by
  have hcond : (fieldOf v (R.WELT_WUR_CMD_GROUP j) != 0 || s.hw.wurAble (fieldOf v (R.WELT_WUR_CMD_STA j))) = true := by
    rcases hable with hgroup | hable
    · rw [hgroup]
      rfl
    · rw [hable, Bool.or_true]
  have hcmd := (s.hw.writeWurCmd_idle j v hst).trans (if_pos hcond)
  have honly := s.hw.wurCommanded_onlyRegs j v
  obtain ⟨hsent, hskip⟩ := s.hw.wurCommanded_stat j v
  have hsta := s.hw.wurCommanded_sta j v
  have hrepeat := s.hw.wurCommanded_repeat j v
  generalize s.hw.wurCommanded j v = k at hcmd honly hsent hskip hsta hrepeat
  have hoff {g : RF} (hg : g.addr = R.WELT_WUR_CMD j) : apart (R.WELT_WUR_STAT_STATE j) g :=
    .inl (by simp only [hg, R.WELT_WUR_STAT_STATE, R.WELT_WUR_STAT, R.WELT_WUR_CMD]; omega)
  refine gives_of_effect_eq (f := fun h => h.writeWurCmd j v) rfl rfl hup hcmd ⟨k.wurBegun_state j,
    (k.wurBegun_get j (apart_of_bits rfl)).trans hsent, (k.wurBegun_get j (apart_of_bits rfl)).trans hskip,
    (k.wurBegun_get j (hoff rfl)).trans hsta, (k.wurBegun_get j (hoff rfl)).trans hrepeat,
    (k.wurBegun_job j).trans (by rw [honly.et_eq]), (k.wurBegun_timer j).trans (by rw [honly.et_eq]),
    (honly.1.trans ((k.wurBegun_regs j).mono (by simp))).canon, ?_⟩
  exact MemKept.canon fun a => ((MemKept.of_mem (k.wurBegun_mem j)) a).trans (honly.2.1 a)

theorem gives_wurJobStart_refused (hst : s.hw.get (R.WELT_WUR_STAT_STATE j) ≠ 1)
    (hgroup : fieldOf v (R.WELT_WUR_CMD_GROUP j) = 0)
    (hable : s.hw.wurAble (fieldOf v (R.WELT_WUR_CMD_STA j)) = false) : Gives (.wurJobStart j v) s fun h =>
      h.get (R.WELT_WUR_STAT_STATE j) = 5 ∧ h.get (R.WELT_WUR_STAT_DONE_EV j) = 1 ∧ kget h.welt.jobs j = none ∧
      RegsKept [R.WELT_WUR_STAT j, R.WELT_WUR_CMD j] s.hw h ∧ MemKept s.hw h := by
  have hcmd := (s.hw.writeWurCmd_idle j v hst).trans (if_neg (by simp [hgroup, hable]))
  have honly := s.hw.wurCommanded_onlyRegs j v
  generalize s.hw.wurCommanded j v = k at hcmd honly
  obtain ⟨hstate, hdone⟩ := k.wurEnd_reads j (st := wurRefused) (by decide)
  refine gives_of_effect_eq (f := fun h => h.writeWurCmd j v) rfl rfl hup hcmd ⟨hstate, hdone, k.wurEnd_jobs j _,
    (honly.1.trans ((k.wurEnd_regs j _).mono (by simp))).canon, ?_⟩
  exact MemKept.canon fun a => ((MemKept.of_mem (k.wurEnd_mem j _)) a).trans (honly.2.1 a)

theorem gives_wurJobStart_sending (hst : s.hw.get (R.WELT_WUR_STAT_STATE j) = 1) : Gives (.wurJobStart j v) s fun h =>
    h.get R.WELT_STAT_CFG_ERR = 1 ∧ OnlyRegs [R.WELT_STAT] s.hw h :=
  gives_of_effect_eq (f := fun h => h.writeWurCmd j v) rfl rfl hup (if_pos hst)
    ⟨Hw.get_set_const _ rfl, (onlyRegs_setAt _ R.WELT_STAT_CFG_ERR _ rfl).canon⟩

end

/-! ### WUR_SEND_DUE (R199) -/

section
variable (h : Hw) (j : Fin 16) (b : WurJob)

theorem Hw.arrive_welt (h : Hw) (d : Nat) (t : TimerId) : (h.arrive d t).welt = h.welt := h.advanceTo_welt d

/-- A send that still waits when the next falls due counts as skipped. -/
def Hw.wurSkip : Hw := if b.waiting then h.set (R.WELT_WUR_STAT_SKIPPED j) (h.get (R.WELT_WUR_STAT_SKIPPED j) + 1) else h

/-- The next send waits, and its successor falls due SPACING on. -/
def Hw.wurNext : Hw :=
  { (h.startAt (.wurSend j) (b.startEt + (b.next + 1) * h.get (R.WELT_WUR_TIME_SPACING j) * 1000000)) with
    welt := { h.welt with jobs := kput h.welt.jobs j { b with next := b.next + 1, waiting := true } } }

/-- The state in which a job ends that has no send left. -/
def Hw.wurOver : Nat := if h.flag (R.WELT_WUR_CMD_GROUP j) then wurSent else wurNoResponse

/-- What the instant of a send does to a job. -/
def Hw.wurDue : Hw :=
  if b.next ≤ (h.wurSkip j b).get (R.WELT_WUR_CMD_REPEAT j) then (h.wurSkip j b).wurNext j b
  else (h.wurSkip j b).wurEnd j ((h.wurSkip j b).wurOver j)

theorem Hw.wurSkip_onlyRegs : OnlyRegs [R.WELT_WUR_STAT j] h (h.wurSkip j b) := by
  unfold Hw.wurSkip
  split
  · exact onlyRegs_setAt _ (R.WELT_WUR_STAT_SKIPPED j) _ rfl
  · exact OnlyRegs.refl _ _

theorem Hw.wurSkip_get {g : RF} (hg : g.addr ≠ R.WELT_WUR_STAT j) : (h.wurSkip j b).get g = h.get g :=
  (h.wurSkip_onlyRegs j b).get (by simpa using hg)

theorem Hw.wurSkip_skipped :
    (b.waiting = false → (h.wurSkip j b).get (R.WELT_WUR_STAT_SKIPPED j) = h.get (R.WELT_WUR_STAT_SKIPPED j)) ∧
    (b.waiting = true → h.get (R.WELT_WUR_STAT_SKIPPED j) < 15 →
      (h.wurSkip j b).get (R.WELT_WUR_STAT_SKIPPED j) = h.get (R.WELT_WUR_STAT_SKIPPED j) + 1) := by
  refine ⟨fun hwait => by rw [Hw.wurSkip, hwait, if_neg (by decide)], fun hwait hlt => ?_⟩
  rw [Hw.wurSkip, hwait, if_pos rfl]
  exact Hw.get_set_lt _ _ _ (fits_of_bits rfl) (lt_of_lt_of_le (Nat.succ_lt_succ hlt) (by simp [R.WELT_WUR_STAT_SKIPPED]))

theorem Hw.wurNext_word (a : Nat) : (h.wurNext j b).word a = h.word a := rfl
theorem Hw.wurNext_mem : (h.wurNext j b).mem = h.mem := rfl
theorem Hw.wurNext_job : kget (h.wurNext j b).welt.jobs j = some ⟨b.startEt, b.next + 1, true⟩ := kget_kput_self ..
theorem Hw.wurNext_timer : tget (h.wurNext j b).timers (.wurSend j) =
    some (b.startEt + (b.next + 1) * h.get (R.WELT_WUR_TIME_SPACING j) * 1000000) :=
  (tget_startAt _ _ _ _).trans (if_pos rfl)

variable {h j b} in
/-- The state that the job finds as it falls due reads as `s.hw`, and the job is the one stored. -/
theorem gives_wurSendDue {s : State} {d : Nat} (hup : s.hw.mainUp = true) (ht : tget s.hw.timers (.wurSend j) = some d)
    (hb : kget s.hw.welt.jobs j = some b) {P : Hw → Prop} (hP : P ((s.hw.arrive d (.wurSend j)).wurDue j b).canon) :
    Gives (.wurSendDue j) s P := by
  have hjob : kget (s.hw.arrive d (.wurSend j)).welt.jobs j = some b := by rw [Hw.arrive_welt, hb]
  refine gives_of_effect_eq (e := execWurSendDue j s) rfl rfl hup ?_ hP
  refine (Hw.onTimer_arrive ht _).trans ?_
  simp only [hjob]
  rfl

end

section
variable {s : State} {j : Fin 16} {d : Nat} {b : WurJob} (hup : s.hw.mainUp = true)
  (ht : tget s.hw.timers (.wurSend j) = some d) (hb : kget s.hw.welt.jobs j = some b)
include hup ht hb

theorem gives_wurSendDue_next (hle : b.next ≤ s.hw.get (R.WELT_WUR_CMD_REPEAT j)) : Gives (.wurSendDue j) s fun h =>
    kget h.welt.jobs j = some ⟨b.startEt, b.next + 1, true⟩ ∧
    tget h.timers (.wurSend j) = some (b.startEt + (b.next + 1) * s.hw.get (R.WELT_WUR_TIME_SPACING j) * 1000000) ∧
    (b.waiting = false → h.get (R.WELT_WUR_STAT_SKIPPED j) = s.hw.get (R.WELT_WUR_STAT_SKIPPED j)) ∧
    (b.waiting = true → s.hw.get (R.WELT_WUR_STAT_SKIPPED j) < 15 →
      h.get (R.WELT_WUR_STAT_SKIPPED j) = s.hw.get (R.WELT_WUR_STAT_SKIPPED j) + 1) ∧
    RegsKept [R.WELT_WUR_STAT j] s.hw h ∧ MemKept s.hw h := by
  refine gives_wurSendDue hup ht hb ?_
  have hget := s.hw.arrive_get d (.wurSend j)
  have hregs := s.hw.arrive_regs d (.wurSend j) [R.WELT_WUR_STAT j]
  have hmem := s.hw.arrive_mem d (.wurSend j)
  generalize s.hw.arrive d (.wurSend j) = k at hget hregs hmem
  have hne : R.WELT_WUR_CMD j ≠ R.WELT_WUR_STAT j ∧ R.WELT_WUR_TIME j ≠ R.WELT_WUR_STAT j := by
    simp [R.WELT_WUR_CMD, R.WELT_WUR_TIME, R.WELT_WUR_STAT]
  have hdue : k.wurDue j b = (k.wurSkip j b).wurNext j b :=
    if_pos (by rwa [k.wurSkip_get j b (g := R.WELT_WUR_CMD_REPEAT j) hne.1, hget])
  have hspacing : (k.wurSkip j b).get (R.WELT_WUR_TIME_SPACING j) = s.hw.get (R.WELT_WUR_TIME_SPACING j) :=
    (k.wurSkip_get j b (g := R.WELT_WUR_TIME_SPACING j) hne.2).trans (hget _)
  have honly := k.wurSkip_onlyRegs j b
  have hskip := k.wurSkip_skipped j b
  rw [hget] at hskip
  rw [hdue]
  generalize k.wurSkip j b = k' at hspacing honly hskip
  refine ⟨k'.wurNext_job j b, (k'.wurNext_timer j b).trans (by rw [hspacing]), hskip.1, hskip.2,
    RegsKept.canon fun a ha => (k'.wurNext_word j b a).trans ((hregs.trans honly.1) a ha), MemKept.canon fun a => ?_⟩
  exact (MemKept.of_mem (k'.wurNext_mem j b) a).trans ((honly.2.1 a).trans (MemKept.of_mem hmem a))

theorem gives_wurSendDue_over (hlt : s.hw.get (R.WELT_WUR_CMD_REPEAT j) < b.next) : Gives (.wurSendDue j) s fun h =>
    h.get (R.WELT_WUR_STAT_STATE j) = (if s.hw.get (R.WELT_WUR_CMD_GROUP j) = 1 then 4 else 3) ∧
    h.get (R.WELT_WUR_STAT_DONE_EV j) = 1 ∧ kget h.welt.jobs j = none ∧ tget h.timers (.wurSend j) = none ∧
    RegsKept [R.WELT_WUR_STAT j] s.hw h ∧ MemKept s.hw h := by
  refine gives_wurSendDue hup ht hb ?_
  have hget := s.hw.arrive_get d (.wurSend j)
  have hregs := s.hw.arrive_regs d (.wurSend j) [R.WELT_WUR_STAT j]
  have hmem := s.hw.arrive_mem d (.wurSend j)
  generalize s.hw.arrive d (.wurSend j) = k at hget hregs hmem
  have hne : R.WELT_WUR_CMD j ≠ R.WELT_WUR_STAT j := by simp [R.WELT_WUR_CMD, R.WELT_WUR_STAT]
  have hcmd {g : RF} (hg : g.addr = R.WELT_WUR_CMD j) : (k.wurSkip j b).get g = s.hw.get g :=
    (k.wurSkip_get j b (hg ▸ hne)).trans (hget g)
  have hdue : k.wurDue j b = (k.wurSkip j b).wurEnd j ((k.wurSkip j b).wurOver j) :=
    if_neg (by rw [hcmd rfl]; exact not_le.mpr hlt)
  have hover : (k.wurSkip j b).wurOver j = if s.hw.get (R.WELT_WUR_CMD_GROUP j) = 1 then 4 else 3 := by
    have hbit : s.hw.get (R.WELT_WUR_CMD_GROUP j) < 2 := s.hw.get_lt _
    rw [Hw.wurOver, Hw.flag, hcmd (g := R.WELT_WUR_CMD_GROUP j) rfl]
    interval_cases s.hw.get (R.WELT_WUR_CMD_GROUP j) <;> rfl
  have honly := k.wurSkip_onlyRegs j b
  rw [hdue, hover]
  generalize k.wurSkip j b = k' at honly
  obtain ⟨hstate, hdone⟩ := k'.wurEnd_reads j (st := if s.hw.get (R.WELT_WUR_CMD_GROUP j) = 1 then 4 else 3)
    (by split <;> decide)
  refine ⟨hstate, hdone, k'.wurEnd_jobs j _, k'.wurEnd_timer j _,
    ((hregs.trans honly.1).trans (k'.wurEnd_regs j _)).canon, MemKept.canon fun a => ?_⟩
  exact (MemKept.of_mem (k'.wurEnd_mem j _) a).trans ((honly.2.1 a).trans (MemKept.of_mem hmem a))

end

/-! ### WUR_BEACON_DUE (R200) -/

/-- What the passing of time leaves, it leaves as network time goes on to an instant. -/
theorem Hw.advanceToNt_keeps {α : Type} (π : Hw → α) (hπ : ∀ h n, π (Hw.advance h n) = π h) (h : Hw) (T : Nat) :
    π (h.advanceToNt T) = π h := by
  have hfuel (fuel : Nat) : ∀ h : Hw, π (h.advanceToNtFuel T fuel) = π h := by
    induction fuel with
    | zero => exact fun h => rfl
    | succ fuel ih =>
      intro h
      rw [Hw.advanceToNtFuel]
      split
      · rfl
      · exact (ih _).trans (hπ h _)
  exact hfuel 64 h

section
variable (h : Hw) (T l : Nat)

theorem Hw.advanceToNt_word (a : Nat) : (h.advanceToNt T).word a = h.word a :=
  Hw.advanceToNt_keeps (fun h => h.word a) (fun h n => h.advance_word n a) h T

theorem Hw.advanceToNt_mem : (h.advanceToNt T).mem = h.mem :=
  Hw.advanceToNt_keeps (fun h => h.mem) Hw.advance_mem h T

theorem Hw.advanceToNt_welt : (h.advanceToNt T).welt = h.welt :=
  Hw.advanceToNt_keeps (fun h => h.welt) Hw.advance_welt h T

/-- Whether a link is available does not depend on the time. -/
theorem Hw.advance_linkAvailable (n : Nat) : (h.advance n).linkAvailable l = h.linkAvailable l := by
  simp only [Hw.linkAvailable, Hw.synth, Hw.slice, Hw.running, Hw.cxCovers, Hw.cx, Hw.advance_get, Hw.advance_flag,
    Hw.advance_slices, Hw.advance_timers, Hw.advance_coex]

theorem Hw.advanceToNt_linkAvailable : (h.advanceToNt T).linkAvailable l = h.linkAvailable l :=
  Hw.advanceToNt_keeps (fun h => h.linkAvailable l) (fun h n => h.advance_linkAvailable l n) h T

/-- A beacon waits on link `l` if the link is available. -/
def Hw.beaconDue : Hw :=
  if h.linkAvailable l then { h with welt := { h.welt with beacons := l :: h.welt.beacons.filter (· != l) } } else h

theorem Hw.beaconDue_word (a : Nat) : (h.beaconDue l).word a = h.word a := by
  unfold Hw.beaconDue
  split <;> rfl

theorem Hw.beaconDue_mem : (h.beaconDue l).mem = h.mem := by
  unfold Hw.beaconDue
  split <;> rfl

theorem Hw.beaconDue_clock : (h.beaconDue l).nt = h.nt ∧ (h.beaconDue l).et = h.et := by
  unfold Hw.beaconDue
  split <;> exact ⟨rfl, rfl⟩

theorem Hw.mem_beaconDue (ha : h.linkAvailable l = true) : l ∈ (h.beaconDue l).welt.beacons := by
  rw [Hw.beaconDue, if_pos ha]
  exact List.mem_cons_self

end

/-- The next multiple of the period of slice `l`'s WUR Beacons, in network time. -/
def Hw.beaconTime (h : Hw) (l : Nat) : Nat :=
  ntAdd 0 (ntOfMicros (h.ntMicros + (h.get (R.WELT_WUR_PERIOD l) * 1024 - h.tsf % (h.get (R.WELT_WUR_PERIOD l) * 1024))))

theorem exec_wurBeaconDue (l : Fin 3) (s : State) : exec (.wurBeaconDue l) s = s.effect fun h =>
    if h.get (R.WELT_WUR_PERIOD l) * 1024 = 0 ∨ l.val = 2 then h else h.atNt (h.beaconTime l) fun h => h.beaconDue l := rfl

section
variable {s : State} {l : Fin 3} (hup : s.hw.mainUp = true) (hpos : 0 < s.hw.get (R.WELT_WUR_PERIOD l) * 1024)
  (hl : l.val < 2)
include hup hpos hl

/-- What WUR_BEACON_DUE gives on slice A or B with a period. -/
theorem gives_wurBeaconDue {P : Hw → Prop} {h' : Hw}
    (hat : s.hw.atNt (s.hw.beaconTime l) (fun h => h.beaconDue l) = h') (hP : P h'.canon) : Gives (.wurBeaconDue l) s P := by
  have hcond : ¬ (s.hw.get (R.WELT_WUR_PERIOD l) * 1024 = 0 ∨ l.val = 2) := by omega
  refine gives_of_effect_eq (exec_wurBeaconDue l s) rfl hup ?_ hP
  rw [if_neg hcond, hat]

theorem gives_wurBeaconDue_unavailable (hno : s.hw.linkAvailable l = false) : Gives (.wurBeaconDue l) s fun h =>
    h.welt.beacons = s.hw.welt.beacons ∧ RegsKept [] s.hw h ∧ MemKept s.hw h := by
  have hsame : (s.hw.advanceToNt (s.hw.beaconTime l)).beaconDue l = s.hw.advanceToNt (s.hw.beaconTime l) :=
    if_neg (by rw [s.hw.advanceToNt_linkAvailable, hno]; decide)
  by_cases hreach : (s.hw.advanceToNt (s.hw.beaconTime l)).ntReached (s.hw.beaconTime l) = true
  · refine gives_wurBeaconDue hup hpos hl ((if_pos hreach).trans hsame) ?_
    have hword := s.hw.advanceToNt_word (s.hw.beaconTime l)
    have hmem := s.hw.advanceToNt_mem (s.hw.beaconTime l)
    have hwelt := s.hw.advanceToNt_welt (s.hw.beaconTime l)
    generalize s.hw.advanceToNt (s.hw.beaconTime l) = k at hword hmem hwelt
    exact ⟨by rw [Hw.canon_welt, hwelt], RegsKept.canon fun a _ => hword a, MemKept.canon (.of_mem hmem)⟩
  · exact gives_wurBeaconDue hup hpos hl (if_neg hreach) ⟨rfl, (RegsKept.refl _ _).canon, MemKept.canon fun _ => rfl⟩

theorem gives_wurBeaconDue_available {T : Nat} (hT : T = s.hw.beaconTime l)
    (hreach : (s.hw.advanceToNt T).ntReached T = true) (hav : s.hw.linkAvailable l = true) :
    Gives (.wurBeaconDue l) s fun h => l.val ∈ h.welt.beacons ∧ h.nt = (s.hw.advanceToNt T).nt ∧
      h.et = (s.hw.advanceToNt T).et ∧ RegsKept [] s.hw h ∧ MemKept s.hw h := by
  subst hT
  refine gives_wurBeaconDue hup hpos hl (if_pos hreach) ?_
  have havail := (s.hw.advanceToNt_linkAvailable (s.hw.beaconTime l) l).trans hav
  have hword := s.hw.advanceToNt_word (s.hw.beaconTime l)
  have hmem := s.hw.advanceToNt_mem (s.hw.beaconTime l)
  generalize s.hw.advanceToNt (s.hw.beaconTime l) = k at havail hword hmem
  obtain ⟨hnt, het⟩ := k.beaconDue_clock l
  exact ⟨by rw [Hw.canon_welt]; exact k.mem_beaconDue l havail, (Hw.canon_nt _).trans hnt, (Hw.canon_et _).trans het,
    RegsKept.canon fun a _ => (k.beaconDue_word l a).trans (hword a),
    MemKept.canon (.of_mem ((k.beaconDue_mem l).trans hmem))⟩

end

/-! ### The obligation -/

/-- Settles O17: CLOSE_COMPLETE frees the station; the offset is written whole; each case of a job and of a beacon. -/
theorem contextCloseTsfAndWakeUpJobs : Obligations.ContextCloseTsfAndWakeUpJobs := by
  intro s hup
  refine ⟨fun x hst hflight hheld => gives_ctxCloseComplete hup hst hflight hheld, fun v => gives_tsfOfsHiWrite hup v,
    fun j v hst hable => gives_wurJobStart_starts hup hst hable,
    fun j v hst hgroup hable => gives_wurJobStart_refused hup hst hgroup hable,
    fun j v hst => gives_wurJobStart_sending hup hst,
    fun j d b ht hb hle => gives_wurSendDue_next hup ht hb hle,
    fun j d b ht hb hlt => gives_wurSendDue_over hup ht hb hlt, ?_, ?_⟩
  · rintro l p rfl hpos hl hno
    exact gives_wurBeaconDue_unavailable hup hpos hl hno
  · rintro l p T rfl hpos hl hT hreach hav
    exact gives_wurBeaconDue_available hup hpos hl hT hreach hav

end Sys2Proof.Machine
end

section
/-!
SUPPORT. What a received data MPDU leaves as it is on its way through Welt (R181, R195 to R199), and what the fabric
gets of it (R196, R318).
-/
namespace Sys2Proof.Machine

/-! ### What reception leaves -/

/-- Registers other than those of `as` have not changed, nor has memory, the clock, a slice, the fabric, a receive
agreement or a last sequence number. -/
structure RxKept (as : List Nat) (h h' : Hw) : Prop where
  regs : RegsKept as h h'
  mem : MemKept h h'
  et : h'.et = h.et
  slices : h'.slices = h.slices
  fabric : h'.fabric = h.fabric
  rxBa : h'.welt.rxBa = h.welt.rxBa
  lastSn : h'.welt.lastSn = h.welt.lastSn

section
variable {as bs : List Nat} {h h' h'' : Hw}

theorem RxKept.refl (as : List Nat) (h : Hw) : RxKept as h h := ⟨RegsKept.refl _ _, fun _ => rfl, rfl, rfl, rfl, rfl, rfl⟩

theorem RxKept.trans (h1 : RxKept as h h') (h2 : RxKept as h' h'') : RxKept as h h'' where
  regs := h1.regs.trans h2.regs
  mem a := (h2.mem a).trans (h1.mem a)
  et := h2.et.trans h1.et
  slices := h2.slices.trans h1.slices
  fabric := h2.fabric.trans h1.fabric
  rxBa := h2.rxBa.trans h1.rxBa
  lastSn := h2.lastSn.trans h1.lastSn

theorem RxKept.mono (hk : RxKept as h h') (hs : as ⊆ bs) : RxKept bs h h' := { hk with regs := hk.regs.mono hs }

theorem RxKept.set (hk : RxKept as h h') (f : RF) (v : Nat) (hf : f.addr ∈ as) : RxKept as h (h'.set f v) :=
  hk.trans ⟨(RegsKept.refl _ _).set f v hf, fun _ => rfl, rfl, rfl, rfl, rfl, rfl⟩

theorem RxKept.foldl {α : Type} {f : Hw → α → Hw} (l : List α) (hf : ∀ h, ∀ a ∈ l, RxKept as h (f h a)) (h : Hw) :
    RxKept as h (l.foldl f h) :=
  List.foldlRecOn l f (RxKept.refl as h) fun _ hk a ha => hk.trans (hf _ a ha)

theorem RxKept.of_onlyRegs (ho : OnlyRegs as h h') : RxKept as h h' := by
  obtain ⟨hregs, hmem, hrest⟩ := ho
  exact ⟨hregs, hmem, congrArg (·.et) hrest, congrArg (·.slices) hrest, congrArg (·.fabric) hrest,
    congrArg (·.welt.rxBa) hrest, congrArg (·.welt.lastSn) hrest⟩

theorem RxKept.staged (hk : RxKept as h h') (s : Nat) : h'.staged s = h.staged s := by
  rw [Hw.staged, hk.fabric, Hw.staged]

theorem RxKept.slice (hk : RxKept as h h') (x : Nat) : h'.slice x = h.slice x := congrArg (kgetD _ · x) hk.slices

end

section
variable (h : Hw) (l : Nat)

theorem Hw.modOcc_kept {as : List Nat} (f : Occurrence → Occurrence) : RxKept as h (h.modOcc l f) :=
  ⟨RegsKept.refl _ _, fun _ => rfl, rfl, rfl, rfl, rfl, rfl⟩

theorem Hw.noteForeign_kept : RxKept [R.LAST_CNT_0 l] h (h.noteForeign l) := by
  obtain e | e := h.noteForeign_cases l <;> rw [e]
  · exact RxKept.refl _ _
  · exact (h.modOcc_kept l _).trans (RxKept.set (RxKept.refl _ _) (R.LAST_CNT_0_FOREIGN l) _ (.head _))

theorem Hw.modWeltLink_kept (f : WeltLink → WeltLink) : RxKept [] h (h.modWeltLink l f) :=
  ⟨RegsKept.refl _ _, fun _ => rfl, rfl, rfl, rfl, rfl, rfl⟩

theorem Hw.bindEmlsr_kept (stas : List Nat) : RxKept [] h (h.bindEmlsr l stas) := by
  refine RxKept.foldl stas (fun h s _ => ?_) h
  split
  · exact ⟨RegsKept.refl _ _, fun _ => rfl, rfl, rfl, rfl, rfl, rfl⟩
  · exact RxKept.refl _ _

/-- The exchange of a link is forgotten. -/
def Hw.forgetExchange : Hw := { h with welt := { h.welt with exchanges := kdel h.welt.exchanges l } }

theorem Hw.forgetExchange_kept : RxKept [] h (h.forgetExchange l) := ⟨RegsKept.refl _ _, fun _ => rfl, rfl, rfl, rfl, rfl, rfl⟩

theorem Hw.endExchange_cases : ∃ k, RxKept [] h k ∧ h.endExchange l = k.forgetExchange l := by
  unfold Hw.endExchange
  split
  · split
    · exact ⟨_, h.bindEmlsr_kept l _, rfl⟩
    · exact ⟨h, RxKept.refl _ _, rfl⟩
  · exact ⟨h, RxKept.refl _ _, rfl⟩

theorem Hw.endExchange_kept : RxKept [] h (h.endExchange l) := by
  obtain ⟨k, hk, hend⟩ := h.endExchange_cases l
  exact hend ▸ hk.trans (k.forgetExchange_kept l)

theorem Hw.acknowledge_kept (acked : List Acked) : RxKept [] h (h.acknowledge l acked).1 := by
  unfold Hw.acknowledge
  split
  · exact RxKept.refl _ _
  · dsimp only
    split
    · exact (h.endExchange_kept l).trans (Hw.modWeltLink_kept _ l _)
    · exact Hw.modWeltLink_kept _ l _

theorem Hw.acknowledgeOf_kept (s : Nat) (m : RxMpdu) : RxKept [R.STA_W0 s] h (h.acknowledgeOf l s m) := by
  have hack := (h.acknowledge_kept l [⟨m.ta.toNat, m.tid, m.sn.toNat⟩]).mono (bs := [R.STA_W0 s]) (List.nil_subset _)
  unfold Hw.acknowledgeOf
  generalize h.acknowledge l [⟨m.ta.toNat, m.tid, m.sn.toNat⟩] = r at hack
  obtain ⟨k, _ | _⟩ := r
  · exact hack
  · exact hack.set ⟨R.STA_W0 s, 18 + l, 1⟩ _ (.head _)

theorem Hw.wurEnd_kept (j st : Nat) : RxKept [R.WELT_WUR_STAT j] h (h.wurEnd j st) :=
  ⟨h.wurEnd_regs j st, fun _ => rfl, rfl, rfl, rfl, rfl, rfl⟩

/-- The states of the wake-up jobs. -/
def wurStats : List Nat := (List.range 16).map R.WELT_WUR_STAT

theorem Hw.wurHeard_kept (s : Nat) : RxKept wurStats h (h.wurHeard s) := by
  refine RxKept.foldl _ (fun h j hj => ?_) h
  split
  · exact (h.wurEnd_kept j _).mono (List.cons_subset.mpr ⟨List.mem_map_of_mem hj, List.nil_subset _⟩)
  · exact RxKept.refl _ _

/-- The last activity of a station is now. -/
def Hw.markActive (s : Nat) : Hw := (h.set (R.STA_ACT_LO_LAST_ACT s) h.et).set (R.STA_ACT_HI_LAST_ACT s) (h.et / 2 ^ 32)

/-- Where the last RSSI of a station on a link stands. -/
def rssiField (l s : Nat) : RF :=
  match l with
  | 0 => R.STA_W58_LAST_RSSI_A s
  | 1 => R.STA_W58_LAST_RSSI_B s
  | _ => R.STA_W59_LAST_RSSI_C s

theorem rssiField_addr (l s : Nat) : (rssiField l s).addr ∈ [R.STA_W58 s, R.STA_W59 s] := by
  unfold rssiField
  split
  · exact .head _
  · exact .head _
  · exact .tail _ (.head _)

theorem Hw.heardFrom_eq (s : Nat) : h.heardFrom l s =
    ((h.markActive s).set (rssiField l s) ((h.markActive s).get (R.PHY_LAST_RSSI_RSSI l))).wurHeard s := rfl

theorem Hw.markActive_kept (s : Nat) : RxKept [R.STA_ACT_LO s, R.STA_ACT_HI s] h (h.markActive s) :=
  ((RxKept.refl _ h).set (R.STA_ACT_LO_LAST_ACT s) _ (.head _)).set (R.STA_ACT_HI_LAST_ACT s) _ (.tail _ (.head _))

/-- What is recorded of a station beside its last activity. -/
def heardRegs (s : Nat) : List Nat := [R.STA_W58 s, R.STA_W59 s] ++ wurStats

theorem Hw.heardFrom_marked (s : Nat) : RxKept (heardRegs s) (h.markActive s) (h.heardFrom l s) := by
  rw [h.heardFrom_eq]
  exact (RxKept.set (RxKept.refl _ _) (rssiField l s) _ (List.mem_append_left _ (rssiField_addr l s))).trans
    ((Hw.wurHeard_kept _ s).mono (List.subset_append_right _ _))

theorem Hw.markActive_reads (s : Nat) : (h.markActive s).get (R.STA_ACT_LO_LAST_ACT s) = h.et % 2 ^ 32 ∧
    (h.markActive s).get (R.STA_ACT_HI_LAST_ACT s) = h.et / 2 ^ 32 % 2 ^ 32 := by
  have hne : R.STA_ACT_HI s ≠ R.STA_ACT_LO s := by simp [R.STA_ACT_HI, R.STA_ACT_LO]
  exact ⟨(Hw.get_set_apart _ _ _ _ (.inl hne)).trans (Hw.get_set_self _ _ _ (fits_of_bits rfl)),
    Hw.get_set_self _ _ _ (fits_of_bits rfl)⟩

end

/-! ### What Clicker gets (R196, R318) -/

theorem Hw.countSta_onlyRegs (h : Hw) {s n : Nat} (hs : s < 1024) (hn : n < 8) (c : Nat) :
    OnlyRegs (staStatRegs s) h (h.countSta s n c) := by
  obtain ⟨hlo, hhi⟩ := staStat_mem (s := s) hn
  rw [Hw.countSta, Nat.mod_eq_of_lt hs]
  refine (h.count40_onlyRegs _ _ _ c).mono fun a ha => ?_
  simp only [List.mem_cons, List.not_mem_nil, or_false] at ha
  rcases ha with rfl | rfl | rfl
  · exact hlo
  · exact hhi
  · rw [staStatRegs, Nat.mod_eq_of_lt hs]
    exact List.mem_cons_self

theorem Hw.countSta_kept (h : Hw) {s n : Nat} (hs : s < 1024) (hn : n < 8) (c : Nat) :
    RxKept (staStatRegs s) h (h.countSta s n c) := .of_onlyRegs (h.countSta_onlyRegs hs hn c)

theorem staCounter (s : Nat) {n : Nat} (hn : n < 8) :
    Counter40 (R.STA_STAT_LO_CNT s n) (R.STA_STAT_HI_CNT s n) ⟨R.WELT_HALF (s / 32), s % 32, 1⟩ where
  fitsLo := fits_of_bits rfl
  lenLo := rfl
  fitsHi := fits_of_bits rfl
  lenHi := rfl
  loHi := .inl (by simp [R.STA_STAT_LO_CNT, R.STA_STAT_HI_CNT, R.STA_STAT_LO, R.STA_STAT_HI])
  hiLo := .inl (by simp [R.STA_STAT_LO_CNT, R.STA_STAT_HI_CNT, R.STA_STAT_LO, R.STA_STAT_HI])
  halfLo := .inl (by simp only [R.STA_STAT_LO_CNT, R.STA_STAT_LO, R.WELT_HALF]; omega)
  halfHi := .inl (by simp only [R.STA_STAT_HI_CNT, R.STA_STAT_HI, R.WELT_HALF]; omega)

/-- The value of a counter of R203. -/
def Hw.staCount (h : Hw) (s n : Nat) : Nat := h.get (R.STA_STAT_LO_CNT s n) + 2 ^ 32 * h.get (R.STA_STAT_HI_CNT s n)

theorem Hw.countSta_staCount (h : Hw) {s n : Nat} (hs : s < 1024) (hn : n < 8) :
    (h.countSta s n).staCount s n = (h.staCount s n + 1) % 2 ^ 40 := by
  rw [Hw.countSta, Nat.mod_eq_of_lt hs]
  exact h.count40_value 1 (staCounter s hn)

/-- An MSDU of station `s` counts, and goes to source 12 + l. -/
def Hw.passMsdu (s t l : Nat) (st : Stamp) (h : Hw) (bs : List Byte) : Hw :=
  ((h.countSta s 4).countSta s 5 bs.length).stage (12 + l) bs true st (weltWord s t false false)

/-- The entry of a staging store that an MSDU becomes. -/
def stagedMsdu (s t : Nat) (st : Stamp) (bs : List Byte) : Staged := ⟨bs, true, st, weltWord s t false false, none, none, 0⟩

/-- MSDUs of station `s` have gone to source 12 + l, and counted there. -/
structure Passed (s t l : Nat) (st : Stamp) (msdus : List (List Byte)) (h h' : Hw) : Prop where
  regs : RegsKept (staStatRegs s) h h'
  mem : MemKept h h'
  lastSn : h'.welt.lastSn = h.welt.lastSn
  staged : h'.staged (12 + l) = h.staged (12 + l) ++ msdus.map (stagedMsdu s t st)

section
variable {s : Nat} (hs : s < 1024) (t l : Nat) (st : Stamp)
include hs

theorem Hw.passMsdu_passed (h : Hw) (bs : List Byte) : Passed s t l st [bs] h (h.passMsdu s t l st bs) := by
  have hcount := (h.countSta_kept hs (n := 4) (by decide) 1).trans (Hw.countSta_kept _ hs (n := 5) (by decide) bs.length)
  unfold Hw.passMsdu
  generalize (h.countSta s 4).countSta s 5 bs.length = k at hcount
  have hstaged : (k.stage (12 + l) bs true st (weltWord s t false false)).staged (12 + l) =
      k.staged (12 + l) ++ [stagedMsdu s t st bs] := kgetD_kput_self ..
  exact ⟨hcount.regs, hcount.mem, hcount.lastSn, hstaged.trans (by rw [hcount.staged]; rfl)⟩

theorem Hw.foldl_passMsdu_passed (msdus : List (List Byte)) (h : Hw) :
    Passed s t l st msdus h (msdus.foldl (Hw.passMsdu s t l st) h) := by
  induction msdus generalizing h with
  | nil => exact ⟨RegsKept.refl _ _, fun _ => rfl, rfl, (List.append_nil _).symm⟩
  | cons bs msdus ih =>
    obtain ⟨hregs, hmem, hsn, hstaged⟩ := h.passMsdu_passed hs t l st bs
    obtain ⟨hregs', hmem', hsn', hstaged'⟩ := ih (h.passMsdu s t l st bs)
    exact ⟨hregs.trans hregs', fun a => (hmem' a).trans (hmem a), hsn'.trans hsn, by
      rw [List.foldl_cons, hstaged', hstaged, List.append_assoc]
      rfl⟩

/-- The MSDUs of an MPDU that no key protects all go to Clicker. -/
theorem Hw.releaseMpdu_passed (h : Hw) {m : HeldMpdu} (hplain : m.protectedFrame = false) (msdus : List (List Byte)) :
    Passed s t m.link m.stamp msdus h (h.releaseMpdu s t m msdus) := by
  have hrelease : h.releaseMpdu s t m msdus = msdus.foldl (Hw.passMsdu s t m.link m.stamp) h := by
    simp only [Hw.releaseMpdu, hplain, Bool.false_and, Bool.false_eq_true, if_false]
    rfl
  exact hrelease ▸ Hw.foldl_passMsdu_passed hs t m.link m.stamp msdus h

end

end Sys2Proof.Machine
end

section
/-!
SUPPORT. MPDU_RECEIVED of a data MPDU, and REORDER_TIMEOUT (R181, R196, R198, R203, R217, R318).
-/
namespace Sys2Proof.Machine

/-! ### MPDU_RECEIVED, case by case -/

section
variable (h : Hw) (l : Nat) (m : RxMpdu)

/-- A sender that the list of the occurrence in progress does not name is foreign there (R217). -/
def Hw.noteUnlisted (sta : Option Nat) : Hw := if h.senderListed l sta then h else h.noteForeign l

theorem Hw.noteUnlisted_kept (sta : Option Nat) : RxKept [R.LAST_CNT_0 l] h (h.noteUnlisted l sta) := by
  unfold Hw.noteUnlisted
  split
  · exact RxKept.refl _ _
  · exact h.noteForeign_kept l

theorem Hw.noteUnlisted_of_none (sta : Option Nat) (hocc : (h.lastOf l).occ = none) : h.noteUnlisted l sta = h :=
  if_pos (by rw [Hw.senderListed, hocc])

variable {h l m}

theorem Hw.mpduReceived_lost (hlost : m.fcs = false ∨ m.place ∈ (h.slice l).spoiled) : h.mpduReceived l m = h := by
  refine if_pos ?_
  rcases hlost with hfcs | hplace
  · rw [hfcs]
    rfl
  · rw [List.contains_iff_mem.mpr hplace, Bool.or_true]

section
variable (hfcs : m.fcs = true) (hplace : m.place ∉ (h.slice l).spoiled) (hkind : m.kind = .data)
include hfcs hplace hkind

/-- A whole data MPDU from an address that is not in the table of its link. -/
theorem Hw.mpduReceived_unknown (hsta : h.stationOf l m.ta.toNat = none) : h.mpduReceived l m =
    ((h.noteUnlisted l none).acknowledge l [⟨m.ta.toNat, m.tid, m.sn.toNat⟩]).1.bump (R.WELT_CNT_0_UNKNOWN_TA l) := by
  have hwhole : (!m.fcs || (h.slice l).spoiled.contains m.place) = false := by simp [hfcs, hplace]
  simp only [Hw.mpduReceived, hwhole, hkind, hsta, Bool.false_eq_true, if_false, Hw.noteUnlisted]

/-- A whole data MPDU of station `x`. -/
theorem Hw.mpduReceived_known {x : Nat} (hsta : h.stationOf l m.ta.toNat = some x) :
    h.mpduReceived l m = ((h.noteUnlisted l (some x)).heardFrom l x).rxData l x m := by
  have hwhole : (!m.fcs || (h.slice l).spoiled.contains m.place) = false := by simp [hfcs, hplace]
  simp only [Hw.mpduReceived, hwhole, hkind, hsta, Bool.false_eq_true, if_false, Hw.noteUnlisted]

end

end

/-! ### A station's MPDU outside an agreement -/

section
variable (h : Hw) (l x : Nat) (m : RxMpdu)

/-- A frame of station `x` is heard and acknowledged. -/
def Hw.heardAndAcked : Hw := ((h.noteUnlisted l (some x)).heardFrom l x).acknowledgeOf l x m

/-- The last sequence number of a TID. -/
def Hw.noteSn (t sn : Nat) : Hw := { h with welt := { h.welt with lastSn := kput h.welt.lastSn (baKey x t) sn } }

/-- The registers that hearing a frame of station `x` may change. -/
def rxRegs : List Nat := [R.LAST_CNT_0 l, R.STA_ACT_LO x, R.STA_ACT_HI x, R.STA_W0 x] ++ heardRegs x

theorem Hw.heard_kept : RxKept (rxRegs l x) h ((h.noteUnlisted l (some x)).heardFrom l x) :=
  ((h.noteUnlisted_kept l (some x)).mono (by simp [rxRegs])).trans <|
    ((Hw.markActive_kept _ x).mono (by simp [rxRegs])).trans
      ((Hw.heardFrom_marked _ l x).mono (List.subset_append_right _ _))

theorem Hw.heardAndAcked_kept : RxKept (rxRegs l x) h (h.heardAndAcked l x m) :=
  (h.heard_kept l x).trans ((Hw.acknowledgeOf_kept _ l x m).mono (by simp [rxRegs]))

theorem wurStats_range {a : Nat} (ha : a ∈ wurStats) : R.WELT_WUR_STAT 0 ≤ a ∧ a < R.WELT_WUR_STAT 16 := by
  simp only [wurStats, List.mem_map, List.mem_range] at ha
  obtain ⟨j, hj, rfl⟩ := ha
  simp only [R.WELT_WUR_STAT]
  omega

/-- After the last activity is recorded, nothing that follows changes it. -/
theorem act_notMem {x a : Nat} (hx : x < 1024) (ha : a = R.STA_ACT_LO x ∨ a = R.STA_ACT_HI x) :
    a ∉ heardRegs x ∧ a ≠ R.STA_W0 x ∧ a ∉ staStatRegs x := by
  simp only [R.STA_ACT_LO, R.STA_ACT_HI] at ha
  refine ⟨fun hmem => ?_, ?_, fun hmem => ?_⟩
  · simp only [heardRegs, List.mem_append, List.mem_cons, List.not_mem_nil, or_false, R.STA_W58, R.STA_W59] at hmem
    rcases hmem with hmem | hmem
    · omega
    · have hrange := wurStats_range hmem
      simp only [R.WELT_WUR_STAT] at hrange
      omega
  · simp only [R.STA_W0]
    omega
  · have hrange := staStatRegs_range hmem
    simp only [R.WELT_HALF, R.STA_STAT_LO] at hrange
    omega

/-- Hearing a frame leaves the statistics of its station. -/
theorem stat_notMem_rxRegs (l : Fin 3) {x n a : Nat} (hx : x < 1024) (hn : n < 8)
    (ha : a = R.STA_STAT_LO x n ∨ a = R.STA_STAT_HI x n) : a ∉ rxRegs l x := by
  simp only [R.STA_STAT_LO, R.STA_STAT_HI] at ha
  intro hmem
  simp only [rxRegs, heardRegs, List.mem_append, List.mem_cons, List.not_mem_nil, or_false, R.LAST_CNT_0, R.STA_ACT_LO,
    R.STA_ACT_HI, R.STA_W0, R.STA_W58, R.STA_W59] at hmem
  rcases hmem with hmem | hmem | hmem
  · omega
  · omega
  · have hrange := wurStats_range hmem
    simp only [R.WELT_WUR_STAT] at hrange
    omega

theorem Hw.heardAndAcked_active (hx : x < 1024) : (h.heardAndAcked l x m).get (R.STA_ACT_LO_LAST_ACT x) = h.et % 2 ^ 32 ∧
    (h.heardAndAcked l x m).get (R.STA_ACT_HI_LAST_ACT x) = h.et / 2 ^ 32 % 2 ^ 32 := by
  have het := (h.noteUnlisted_kept l (some x)).et
  unfold Hw.heardAndAcked
  generalize h.noteUnlisted l (some x) = k at het
  obtain ⟨hlo, hhi⟩ := k.markActive_reads x
  have hkeep {g : RF} (hg : g.addr = R.STA_ACT_LO x ∨ g.addr = R.STA_ACT_HI x) :
      ((k.heardFrom l x).acknowledgeOf l x m).get g = (k.markActive x).get g := by
    obtain ⟨hheard, hw0, -⟩ := act_notMem hx hg
    exact ((Hw.acknowledgeOf_kept _ l x m).regs.get (by simpa using hw0)).trans ((k.heardFrom_marked l x).regs.get hheard)
  exact ⟨(hkeep (.inl rfl)).trans (hlo.trans (by rw [het])), (hkeep (.inr rfl)).trans (hhi.trans (by rw [het]))⟩

end

section
variable {h : Hw} {l x : Nat} {m : RxMpdu}

/-- A data MPDU of station `x` under no agreement, `k` being the state in which it is acknowledged. -/
theorem Hw.rxData_plain {k : Hw} (hnone : h.rxBa x m.tid = none) (hk : h.acknowledgeOf l x m = k) : h.rxData l x m =
    if kget k.welt.lastSn (baKey x m.tid) = some m.sn.toNat then k.countSta x 7
    else (k.noteSn x m.tid m.sn.toNat).releaseMpdu x m.tid (heldOf l m (k.slice l).lastStamp []) m.frames := by
  simp only [Hw.rxData, hnone, hk]
  rfl

/-- A whole data MPDU of station `x` under no agreement: a duplicate counts, another goes to Clicker. -/
theorem Hw.mpduReceived_plain (hfcs : m.fcs = true) (hplace : m.place ∉ (h.slice l).spoiled) (hkind : m.kind = .data)
    (hsta : h.stationOf l m.ta.toNat = some x) (hnone : h.rxBa x m.tid = none) : h.mpduReceived l m =
      if kget h.welt.lastSn (baKey x m.tid) = some m.sn.toNat then (h.heardAndAcked l x m).countSta x 7
      else ((h.heardAndAcked l x m).noteSn x m.tid m.sn.toNat).releaseMpdu x m.tid
        (heldOf l m (h.slice l).lastStamp []) m.frames := by
  have hsn := (h.heardAndAcked_kept l x m).lastSn
  have hslice := (h.heardAndAcked_kept l x m).slice l
  have hheard : ((h.noteUnlisted l (some x)).heardFrom l x).rxBa x m.tid = none := by
    rw [Hw.rxBa, (h.heard_kept l x).rxBa]
    exact hnone
  rw [Hw.mpduReceived_known hfcs hplace hkind hsta, ← hsn, ← hslice]
  exact Hw.rxData_plain hheard rfl

theorem Hw.lt_of_stationOf {ta : Nat} (hsta : h.stationOf l ta = some x) : x < 1024 := by
  unfold Hw.stationOf at hsta
  have hmem := List.mem_of_find?_eq_some hsta
  unfold Hw.stations at hmem
  exact List.mem_range.mp (List.mem_filter.mp hmem).1

end

section
variable {s : State} {l : Fin 3} {m : RxMpdu} (hup : s.hw.mainUp = true)
include hup

theorem gives_mpduReceived_lost (hlost : m.fcs = false ∨ m.place ∈ (s.hw.slice l).spoiled) :
    Gives (.mpduReceived l m) s fun h => Unchanged s.hw h :=
  gives_unchanged_of_effect (e := execMpduReceived l m s) rfl rfl hup (Hw.mpduReceived_lost hlost)

variable (hfcs : m.fcs = true) (hplace : m.place ∉ (s.hw.slice l).spoiled) (hkind : m.kind = .data)
include hfcs hplace hkind

theorem gives_mpduReceived_unknown (hsta : s.hw.stationOf l m.ta.toNat = none) (hocc : (s.hw.lastOf l).occ = none)
    (hgrant : s.hw.granted l = false) (hex : s.hw.exchange l = none) (hresp : (s.hw.weltLink l).response = none) :
    Gives (.mpduReceived l m) s fun h =>
      h.get (R.WELT_CNT_0_UNKNOWN_TA l) = min (s.hw.get (R.WELT_CNT_0_UNKNOWN_TA l) + 1) 65535 ∧
      RegsKept [R.WELT_CNT_0 l] s.hw h ∧ MemKept s.hw h ∧ (h.weltLink l).response =
        some ⟨(s.hw.slice l).idleFrom + sifs l, false, [⟨m.ta.toNat, m.tid, m.sn.toNat⟩], false⟩ := by
  let r : Response := ⟨(s.hw.slice l).idleFrom + sifs l, false, [⟨m.ta.toNat, m.tid, m.sn.toNat⟩], false⟩
  have hack : (s.hw.acknowledge l [⟨m.ta.toNat, m.tid, m.sn.toNat⟩]).1 =
      s.hw.modWeltLink l fun w => { w with response := some r } := by
    simp [Hw.acknowledge, Hw.inQuiet, hocc, hgrant, hex, hresp, r]
  have hrx : s.hw.mpduReceived l m =
      (s.hw.modWeltLink l fun w => { w with response := some r }).bump (R.WELT_CNT_0_UNKNOWN_TA l) := by
    rw [Hw.mpduReceived_unknown hfcs hplace hkind hsta, Hw.noteUnlisted_of_none _ _ _ hocc, hack]
  refine gives_of_effect_eq (e := execMpduReceived l m s) rfl rfl hup hrx ⟨Hw.get_bump_self _ _ _ (fits_of_bits rfl),
    (RegsKept.bump (fun _ _ => rfl) (R.WELT_CNT_0_UNKNOWN_TA l) 1 (.head _)).canon, MemKept.canon fun _ => rfl, ?_⟩
  exact congrArg WeltLink.response (kgetD_kput_self ..)

variable {x : Nat} (hsta : s.hw.stationOf l m.ta.toNat = some x) (hnone : s.hw.rxBa x m.tid = none)
include hsta hnone

theorem gives_mpduReceived_new (hplain : m.protectedFrame = false)
    (hsn : kget s.hw.welt.lastSn (baKey x m.tid) ≠ some m.sn.toNat) : Gives (.mpduReceived l m) s fun h =>
      h.staged (12 + l) = s.hw.staged (12 + l) ++ m.frames.map (stagedMsdu x m.tid (s.hw.slice l).lastStamp) ∧
      kget h.welt.lastSn (baKey x m.tid) = some m.sn.toNat ∧
      h.get (R.STA_ACT_LO_LAST_ACT x) = s.hw.et % 2 ^ 32 ∧ h.get (R.STA_ACT_HI_LAST_ACT x) = s.hw.et / 2 ^ 32 % 2 ^ 32 ∧
      MemKept s.hw h := by
  have hrx := (Hw.mpduReceived_plain hfcs hplace hkind hsta hnone).trans (if_neg hsn)
  refine gives_of_effect_eq (e := execMpduReceived l m s) rfl rfl hup hrx ?_
  have hx := Hw.lt_of_stationOf hsta
  have hkept := s.hw.heardAndAcked_kept l x m
  obtain ⟨hlo, hhi⟩ := s.hw.heardAndAcked_active l x m hx
  generalize s.hw.heardAndAcked l x m = k at hkept hlo hhi
  have hpassed := (k.noteSn x m.tid m.sn.toNat).releaseMpdu_passed hx m.tid (m := heldOf l m (s.hw.slice l).lastStamp [])
    hplain m.frames
  generalize (k.noteSn x m.tid m.sn.toNat).releaseMpdu x m.tid (heldOf l m (s.hw.slice l).lastStamp []) m.frames = f
    at hpassed
  obtain ⟨hregs, hmem, hlast, hstaged⟩ := hpassed
  have hact {g : RF} (hg : g.addr = R.STA_ACT_LO x ∨ g.addr = R.STA_ACT_HI x) : f.get g = k.get g := by
    obtain ⟨-, -, hstat⟩ := act_notMem hx hg
    exact hregs.get hstat
  refine ⟨?_, ?_, (hact (.inl rfl)).trans hlo, (hact (.inr rfl)).trans hhi, MemKept.canon fun a => ?_⟩
  · exact hstaged.trans (congrArg (· ++ _) (hkept.staged (12 + l)))
  · rw [Hw.canon_welt, hlast]
    exact kget_kput_self ..
  · exact (hmem a).trans (hkept.mem a)

theorem gives_mpduReceived_duplicate (hx : x < 1024) (hsn : kget s.hw.welt.lastSn (baKey x m.tid) = some m.sn.toNat) :
    Gives (.mpduReceived l m) s fun h => h.staged (12 + l) = s.hw.staged (12 + l) ∧
      h.staCount x 7 = (s.hw.staCount x 7 + 1) % 2 ^ 40 ∧ MemKept s.hw h := by
  have hrx := (Hw.mpduReceived_plain hfcs hplace hkind hsta hnone).trans (if_pos hsn)
  refine gives_of_effect_eq (e := execMpduReceived l m s) rfl rfl hup hrx ?_
  have hkept := s.hw.heardAndAcked_kept l x m
  generalize s.hw.heardAndAcked l x m = k at hkept
  have hcount := k.countSta_staCount hx (n := 7) (by decide)
  have hcounted := k.countSta_kept hx (n := 7) (by decide) 1
  generalize k.countSta x 7 = f at hcount hcounted
  have hstat : k.staCount x 7 = s.hw.staCount x 7 := by
    have hkeep {g : RF} (hg : g.addr = R.STA_STAT_LO x 7 ∨ g.addr = R.STA_STAT_HI x 7) : k.get g = s.hw.get g :=
      hkept.regs.get (stat_notMem_rxRegs l hx (by decide) hg)
    rw [Hw.staCount, hkeep (g := R.STA_STAT_LO_CNT x 7) (.inl rfl), hkeep (g := R.STA_STAT_HI_CNT x 7) (.inr rfl), Hw.staCount]
  exact ⟨(hcounted.staged _).trans (hkept.staged _), hcount.trans (by rw [hstat]),
    MemKept.canon fun a => (hcounted.mem a).trans (hkept.mem a)⟩

end

/-! ### REORDER_TIMEOUT (R196) -/

section
variable {h : Hw} {s t : Nat} {g : RxAgreement} {m : HeldMpdu}

/-- The only MPDU that an agreement holds is released where the window begins at it, and the window goes on behind it. -/
theorem Hw.releaseRun_single (hg : h.rxBa s t = some g) (hheld : g.held = [m]) (hstart : g.winStart = m.sn) (fuel : Nat) :
    (h.releaseRun s t (fuel + 2)).rxBa s t = some ⟨g.bufsz, (m.sn + 1) % 4096, []⟩ := by
  have hfind : g.find g.winStart = some m := by simp [RxAgreement.find, hheld, hstart]
  have hrest : g.held.filter (fun x => x.sn != m.sn) = [] := by simp [hheld]
  have hrun : h.releaseRun s t (fuel + 2) =
      ((h.releaseHeld s t m).setRxBa s t ⟨g.bufsz, (m.sn + 1) % 4096, []⟩).releaseRun s t (fuel + 1) := by
    rw [Hw.releaseRun, hg]
    simp only [hfind, hrest]
    rw [hstart]
  have hput := (h.releaseHeld s t m).setRxBa_rxBa s t ⟨g.bufsz, (m.sn + 1) % 4096, []⟩
  rw [hrun]
  generalize (h.releaseHeld s t m).setRxBa s t ⟨g.bufsz, (m.sn + 1) % 4096, []⟩ = k at hput
  have hend : k.releaseRun s t (fuel + 1) = k := by
    rw [Hw.releaseRun, hput]
    rfl
  rw [hend, hput]

/-- With nothing held the reorder timeout stops. -/
theorem Hw.watchGap_empty (hg : h.rxBa s t = some g) (hheld : g.held = []) (moved : Bool) :
    h.watchGap s t moved = h.stop (.reorder (baKey s t)) := by
  simp [Hw.watchGap, hg, hheld]

end

theorem gives_reorderTimeout {s : State} {x : Fin 1024} {t : Fin 8} {d : Nat} {g : RxAgreement} {m : HeldMpdu}
    (hup : s.hw.mainUp = true) (ht : tget s.hw.timers (.reorder (baKey x t)) = some d) (hg : s.hw.rxBa x t = some g)
    (hheld : g.held = [m]) : Gives (.reorderTimeout x t) s fun h =>
      h.rxBa x t = some ⟨g.bufsz, (m.sn + 1) % 4096, []⟩ ∧ tget h.timers (.reorder (baKey x t)) = none := by
  obtain ⟨bufsz, winStart, held⟩ := g
  obtain rfl : held = [m] := hheld
  have hbegun : (s.hw.arrive d (.reorder (baKey x t))).rxBa x t = some ⟨bufsz, winStart, [m]⟩ := by
    rw [Hw.rxBa, Hw.arrive_welt]
    exact hg
  have hdue := Hw.onTimer_arrive ht
  generalize s.hw.arrive d (.reorder (baKey x t)) = k at hbegun hdue
  have hrun := Hw.releaseRun_single (k.setRxBa_rxBa x t ⟨bufsz, m.sn, [m]⟩) rfl rfl 1023
  have hgap := Hw.watchGap_empty hrun rfl true
  generalize hk' : (k.setRxBa x t ⟨bufsz, m.sn, [m]⟩).releaseRun x t 1025 = k' at hrun hgap
  refine gives_of_effect_eq (e := execReorderTimeout x t s) (h := k'.stop (.reorder (baKey x t))) rfl rfl hup
    ((hdue _).trans ?_) ⟨hrun, (tget_stop _ _ _).trans (if_pos rfl)⟩
  simp only [hbegun, List.foldl_cons, List.foldl_nil, hk']
  exact hgap

/-! ### The obligation -/

/-- Settles O18: an MPDU is lost, unknown, new or a duplicate; a timeout passes the one MPDU held. -/
theorem receivedMpdusAndReordering : Obligations.ReceivedMpdusAndReordering := by
  intro s hup
  exact ⟨fun l m hlost => gives_mpduReceived_lost hup hlost,
    fun l m hfcs hplace hkind hsta hocc hgrant hex hresp =>
      gives_mpduReceived_unknown hup hfcs hplace hkind hsta hocc hgrant hex hresp,
    fun l m x hfcs hplace hkind hplain hsta hnone hsn =>
      gives_mpduReceived_new hup hfcs hplace hkind hsta hnone hplain hsn,
    fun l m x hfcs hplace hkind hx hsta hnone hsn =>
      gives_mpduReceived_duplicate hup hfcs hplace hkind hsta hnone hx hsn,
    fun x t d g m ht hg hheld _ => gives_reorderTimeout hup ht hg hheld⟩

end Sys2Proof.Machine
end

section
/-!
SUPPORT. The end of an exchange whose AC is none of the device's four (R186, R193).
-/
namespace Sys2Proof.Machine

/-- An exchange of one MPDU that awaits its acknowledgement, and whose AC is none of the four: the EDCA word of that AC on link
A has the address of STA_0_ACT_LO. -/
def strayAcExchange : Exchange :=
  { kind := .data, ac := 0xFC34, frames := [3], rts := false, issued := true, awaits := true, reserved := false,
    responses := true, stas := [0], bars := [], users := [], ulNs := 0, width := none }

theorem strayAc_edca : R.WELT_EDCA strayAcExchange.ac 0 = R.STA_ACT_LO 0 := rfl

/-- The MPDU of the exchange, of station 0 and TID 2. -/
def awaitedMpdu : Mpdu := ⟨some 0, 2, 7, 0, none, 0, true, Stamp.zero, false⟩

/-- Link A awaits the acknowledgement of `awaitedMpdu`. -/
def strayAcState : State := ⟨(Hw.reset.setExchange 0 strayAcExchange).setMpdu 3 awaitedMpdu, []⟩

/-- The contention window of that AC on link A in the state that a command answers. -/
def strayAcWindow : Host.Outcome State Fault Refusal → Option Nat
  | .next s => (s.hw.edca 0 strayAcExchange.ac).cw
  | .fault _ | .refused _ => none

theorem strayAcState_cwMin : strayAcState.hw.cwMin 0 strayAcExchange.ac = 0 := by decide +kernel

/-- The BlockAck writes the elapsed time of 2.2 ms to STA_0_ACT_LO before the AC draws, so that CWmin reads 4095. -/
theorem strayAcState_window :
    strayAcWindow (exec (.blockackReceived 0 0 2 6 [false, true]) strayAcState) = some 4095 := by decide +kernel

/-- Refutes O19: its clause of BLOCKACK_RECEIVED, for an exchange of any AC, has the window drawn at the CWmin of the state
before the command. The EDCA word of the AC 0xFC34, which no exchange of the device has, lies at STA_0_ACT_LO, and the command
itself writes that register (R179) before the AC draws: `strayAcState` reads a CWmin of 0 before and of 4095 then. -/
theorem not_acknowledgementsRetriesAndBackoff : ¬ Obligations.AcknowledgementsRetriesAndBackoff := by
  intro hall
  obtain ⟨hblockAck, -⟩ := hall strayAcState rfl
  obtain ⟨h, hexec, -, -, -, hcw, -⟩ := hblockAck 0 0 2 6 [false, true] strayAcExchange 3 awaitedMpdu rfl rfl rfl rfl rfl
    rfl rfl rfl rfl (by decide +kernel) (by decide +kernel) rfl
  have hwindow : (h.edca 0 strayAcExchange.ac).cw = some 4095 := by
    have hrun := strayAcState_window
    rwa [hexec] at hrun
  have hzero : (h.edca 0 strayAcExchange.ac).cw = some 0 := hcw.trans (congrArg some strayAcState_cwMin)
  exact absurd (hwindow.symm.trans hzero) (by decide)

end Sys2Proof.Machine
end

section
/-!
SUPPORT. An exception of a thread in Run that is still listed as waiting for a lock that the device does not have (R263, R492).
-/
namespace Sys2Proof.Machine

/-- A lock number beyond the 1,024 of the device: its status would stand where EXC_ADDR_LO of thread 0 does. -/
def strayLock : Nat := 0x90F05

theorem strayLock_stat : R.SHK_LOCK_STAT strayLock = R.AWL_EXC_ADDR_LO 0 0 := rfl

/-- DROP with the reason in g1. -/
def dropWord : Word := 0x7c040001

/-- Thread 0, which holds no frame, is in Run with DROP at its PC, and is listed as waiting for `strayLock`, as thread 1 is. -/
def strayLockState : State :=
  ⟨(({ Hw.reset with shank := { Hw.reset.shank with lockWaiters := [(strayLock, [0, 1])] } }.setMemLE 0x20000000 4
      dropWord.toNat).setThreadState 0 thrRun).setThread 0 { AwlThread.initial with on := .lock 0 strayLock }, []⟩

theorem strayLockState_issues : strayLockState.hw.issues 0 .drop dropWord = true := by decide +kernel

theorem strayLockState_mayRecord : strayLockState.hw.mayRecord 0 = true := by decide +kernel

/-- EXC_ADDR_LO of thread 0 in the state that a command answers. -/
def excAddrLo : Host.Outcome State Fault Refusal → Option Word
  | .next s => some (s.hw.word (R.AWL_EXC_ADDR_LO 0 0))
  | .fault _ | .refused _ => none

/-- The thread leaves the list of `strayLock`, whose one remaining waiter is counted in bit 16. -/
theorem strayLockState_excAddrLo : excAddrLo (exec (.drop 0) strayLockState) = some 0x10000 := by decide +kernel

/-- Refutes O28: its clause of RELEASE, DROP and FWD without a frame has the record's address 0 for every thread that may
record, whatever the thread is listed as waiting for. `strayLockState` issues DROP while it is listed at a lock whose status
would stand at EXC_ADDR_LO: the context reset of the exception takes it off that list (R492) and counts the waiters left
there, after the record was written. -/
theorem not_awlDispositionAndLastWrites : ¬ Obligations.AwlDispositionAndLastWrites := by
  intro hall
  obtain ⟨-, -, -, -, -, -, hnoFrame, -⟩ := hall strayLockState rfl
  obtain ⟨h, hexec, -, -, -, -, haddr, -⟩ := hnoFrame 0 dropWord .drop (.inr (.inl rfl)) strayLockState_issues rfl
    strayLockState_mayRecord
  have hcount : h.word (R.AWL_EXC_ADDR_LO 0 0) = 0x10000 := by
    have hrun := strayLockState_excAddrLo
    rw [show exec (.drop 0) strayLockState = .next ⟨h, strayLockState.pending⟩ from hexec] at hrun
    exact Option.some.inj hrun
  exact absurd (hcount.symm.trans haddr) (by decide)

end Sys2Proof.Machine
end

section
/-!
SUPPORT. The passing of time, which moves the clocks alone, and the record of a link's schedule after an update.
-/
namespace Sys2Proof.Machine

/-! ### Time that has passed -/

/-- Nothing a link's schedule looks at has changed but the clocks, and elapsed time has not run back. -/
structure TimePassed (h k : Hw) : Prop where
  regs_eq : k.regs = h.regs
  mem : k.mem = h.mem
  last : k.last = h.last
  slices : k.slices = h.slices
  welt : k.welt = h.welt
  coex : k.coex = h.coex
  timers : k.timers = h.timers
  txStatus : k.txStatus = h.txStatus
  et_le : h.et ≤ k.et

section
variable {h k : Hw}

theorem TimePassed.refl (h : Hw) : TimePassed h h := ⟨rfl, rfl, rfl, rfl, rfl, rfl, rfl, rfl, le_rfl⟩

theorem TimePassed.trans {k' : Hw} (h1 : TimePassed h k) (h2 : TimePassed k k') : TimePassed h k' where
  regs_eq := h2.regs_eq.trans h1.regs_eq
  mem := h2.mem.trans h1.mem
  last := h2.last.trans h1.last
  slices := h2.slices.trans h1.slices
  welt := h2.welt.trans h1.welt
  coex := h2.coex.trans h1.coex
  timers := h2.timers.trans h1.timers
  txStatus := h2.txStatus.trans h1.txStatus
  et_le := h1.et_le.trans h2.et_le

theorem TimePassed.word (ht : TimePassed h k) (a : Nat) : k.word a = h.word a := by simp only [Hw.word, ht.regs_eq]
theorem TimePassed.get (ht : TimePassed h k) (f : RF) : k.get f = h.get f := Hw.get_congr (ht.word f.addr)
theorem TimePassed.lastOf (ht : TimePassed h k) (l : Nat) : k.lastOf l = h.lastOf l := by simp only [Hw.lastOf, ht.last]
theorem TimePassed.slice (ht : TimePassed h k) (x : Nat) : k.slice x = h.slice x := by simp only [Hw.slice, ht.slices]
theorem TimePassed.exchange (ht : TimePassed h k) (l : Nat) : k.exchange l = h.exchange l := by
  simp only [Hw.exchange, ht.welt]
theorem TimePassed.regs (ht : TimePassed h k) (as : List Nat) : RegsKept as h k := fun a _ => ht.word a
theorem TimePassed.memKept (ht : TimePassed h k) : MemKept h k := MemKept.of_mem ht.mem

end

section
variable (h : Hw)

/-- Whole source periods do not take elapsed time back. -/
theorem le_periods_div (e f p P : Nat) : e ≤ (e * 64 + f + p * P) / 64 := by
  rw [Nat.le_div_iff_mul_le (by decide)]
  exact (Nat.le_add_right _ f).trans (Nat.le_add_right _ _)

theorem Hw.et_le_advance (n : Nat) : h.et ≤ (h.advance n).et := by
  unfold Hw.advance
  split
  · exact Nat.le_add_right _ _
  · exact le_periods_div _ _ _ _

theorem Hw.advance_timePassed (n : Nat) : TimePassed h (h.advance n) :=
  ⟨h.advance_regs n, h.advance_mem n, h.advance_last n, h.advance_slices n, h.advance_welt n, h.advance_coex n,
    h.advance_timers n, h.advance_txStatus n, h.et_le_advance n⟩

theorem Hw.advanceTo_timePassed (d : Nat) : TimePassed h (h.advanceTo d) := by
  unfold Hw.advanceTo
  split
  · exact h.advance_timePassed _
  · exact TimePassed.refl h

theorem Hw.advanceToNt_timePassed (T : Nat) : TimePassed h (h.advanceToNt T) := by
  have hfuel (fuel : Nat) : ∀ h : Hw, TimePassed h (h.advanceToNtFuel T fuel) := by
    induction fuel with
    | zero => exact TimePassed.refl
    | succ fuel ih =>
      intro h
      rw [Hw.advanceToNtFuel]
      split
      · exact TimePassed.refl h
      · exact (h.advance_timePassed _).trans (ih _)
  exact hfuel 64 h

/-- An instant of network time that the clock reaches. -/
theorem Hw.atNt_reached {h : Hw} {T : Nat} (hT : (h.advanceToNt T).ntReached T = true) (f : Hw → Hw) :
    h.atNt T f = f (h.advanceToNt T) := if_pos hT

end

/-! ### The record of a link -/

section
variable (h : Hw) (l : Nat)

@[simp] theorem Hw.modLast_lastOf (f : LastSlice → LastSlice) : (h.modLast l f).lastOf l = f (h.lastOf l) :=
  kgetD_kput_self _ _ _ _
@[simp] theorem Hw.modLast_get (f : LastSlice → LastSlice) (g : RF) : (h.modLast l f).get g = h.get g := rfl
@[simp] theorem Hw.modLast_mem (f : LastSlice → LastSlice) : (h.modLast l f).mem = h.mem := rfl
@[simp] theorem Hw.set_lastOf (f : RF) (v : Nat) : (h.set f v).lastOf l = h.lastOf l := rfl
@[simp] theorem Hw.bump_lastOf (f : RF) (n : Nat) : (h.bump f n).lastOf l = h.lastOf l := rfl
@[simp] theorem Hw.modSlice_lastOf (x : Nat) (f : Slice → Slice) : (h.modSlice x f).lastOf l = h.lastOf l := rfl
@[simp] theorem Hw.canon_lastOf : h.canon.lastOf l = h.lastOf l := rfl

theorem RegsKept.modLast {as : List Nat} {h h' : Hw} (hk : RegsKept as h h') (l : Nat) (f : LastSlice → LastSlice) :
    RegsKept as h (h'.modLast l f) := hk

theorem Hw.lastActive_lt : h.lastActive l < 2 := h.get_lt (R.LAST_STAT_ACTIVE l)

end

end Sys2Proof.Machine
end

section
/-!
SUPPORT. The registers and the record of a link's schedule: the number of the cycle, a bank put into force, the checks'
codes and entries, and the four words of an entry.
-/
namespace Sys2Proof.Machine

/-! ### The number of the cycle (R230) -/

section
variable (h : Hw) (l k : Nat)

@[simp] theorem Hw.setCycleNumber_lastOf : (h.setCycleNumber l k).lastOf l = h.lastOf l := rfl

theorem Hw.setCycleNumber_regs : RegsKept [R.LAST_CYC_LO l, R.LAST_CYC_HI l] h (h.setCycleNumber l k) :=
  ((RegsKept.refl _ h).set (R.LAST_CYC_LO_K l) _ (.head _)).set (R.LAST_CYC_HI_K l) _ (.tail _ (.head _))

/-- CYC reads the number of the cycle, in its 64 bits. -/
theorem Hw.setCycleNumber_reads :
    (h.setCycleNumber l k).get (R.LAST_CYC_LO_K l) + 2 ^ 32 * (h.setCycleNumber l k).get (R.LAST_CYC_HI_K l) = k % 2 ^ 64 := by
  have hlo : (h.setCycleNumber l k).get (R.LAST_CYC_LO_K l) = k % 2 ^ 32 :=
    (Hw.get_set_apart _ _ _ _ (apart_of_offsets rfl rfl rfl)).trans (Hw.get_set_self _ _ _ (fits_of_bits rfl))
  have hhi : (h.setCycleNumber l k).get (R.LAST_CYC_HI_K l) = k / 2 ^ 32 % 2 ^ 32 := Hw.get_set_self _ _ _ (fits_of_bits rfl)
  rw [hlo, hhi]
  omega

end

/-! ### The end of an occurrence, no exchange and no calibration window open (R210) -/

/-- What the end of an occurrence changes where link `l` has no exchange and no calibration window. -/
def Hw.occEnded (h : Hw) (l : Nat) : Hw :=
  ((h.modLast l fun s => { s with occ := none }).set (R.LAST_STAT_IN_ENTRY l) 0).modSlice l fun s => { s with calWindow := none }

section
variable {h : Hw} {l : Nat}

theorem Hw.endOccurrence_quiet (he : h.exchange l = none) (hc : (h.slice l).calWindow = none) :
    h.endOccurrence l = h.occEnded l := by
  have hx : (h.occEnded l).exchange l = none := he
  have hdrop : (h.occEnded l).dropReserved l = h.occEnded l := by rw [Hw.dropReserved, hx]
  rw [← hdrop, Hw.endOccurrence, hc]
  rfl

theorem Hw.occEnded_lastOf (h : Hw) (l : Nat) : (h.occEnded l).lastOf l = { h.lastOf l with occ := none } := by
  simp [Hw.occEnded]

theorem Hw.occEnded_calWindow (h : Hw) (l : Nat) : ((h.occEnded l).slice l).calWindow = none := by
  simp [Hw.occEnded]

theorem Hw.occEnded_regs (h : Hw) (l : Nat) : RegsKept [R.LAST_STAT l] h (h.occEnded l) :=
  (((RegsKept.refl _ h).modLast l _).set (R.LAST_STAT_IN_ENTRY l) 0 (.head _)).modSlice l _

theorem Hw.occEnded_get (h : Hw) (l : Nat) {g : RF} (hg : apart (R.LAST_STAT_IN_ENTRY l) g) : (h.occEnded l).get g = h.get g :=
  Hw.get_set_apart _ _ _ _ hg

end

/-! ### A bank put into force (R209, R221) -/

/-- Bank `b` is the one in force, a swap has just happened and none is pending. -/
def Hw.bankUp (h : Hw) (l b : Nat) : Hw :=
  (((h.set (R.LAST_STAT_RUN l) 1).set (R.LAST_STAT_ACTIVE l) b).set (R.LAST_STAT_PEND l) 0).set (R.LAST_STAT_SWAP_EV l) 1

section
variable (h : Hw) (l : Nat)

theorem Hw.bankUp_regs (b : Nat) : RegsKept [R.LAST_STAT l] h (h.bankUp l b) :=
  ((((RegsKept.refl _ h).set (R.LAST_STAT_RUN l) _ (.head _)).set (R.LAST_STAT_ACTIVE l) _ (.head _)).set (R.LAST_STAT_PEND l) _
    (.head _)).set (R.LAST_STAT_SWAP_EV l) _ (.head _)

theorem Hw.bankUp_run (b : Nat) : (h.bankUp l b).get (R.LAST_STAT_RUN l) = 1 := by
  rw [Hw.bankUp, Hw.get_set_apart _ _ _ _ (apart_of_bits rfl), Hw.get_set_apart _ _ _ _ (apart_of_bits rfl),
    Hw.get_set_apart _ _ _ _ (apart_of_bits rfl), Hw.get_set_const _ rfl]

theorem Hw.bankUp_active {b : Nat} (hb : b < 2) : (h.bankUp l b).get (R.LAST_STAT_ACTIVE l) = b := by
  rw [Hw.bankUp, Hw.get_set_apart _ _ _ _ (apart_of_bits rfl), Hw.get_set_apart _ _ _ _ (apart_of_bits rfl),
    Hw.get_set_lt _ _ _ (fits_of_bits rfl) hb]

theorem Hw.bankUp_pend (b : Nat) : (h.bankUp l b).get (R.LAST_STAT_PEND l) = 0 := by
  rw [Hw.bankUp, Hw.get_set_apart _ _ _ _ (apart_of_bits rfl), Hw.get_set_const _ rfl]

theorem Hw.bankUp_swap (b : Nat) : (h.bankUp l b).get (R.LAST_STAT_SWAP_EV l) = 1 := Hw.get_set_const _ rfl

variable {h l}

/-- The first start of a bank depends on the registers of the bank alone. -/
theorem Hw.firstStart_congr {h' : Hw} (hk : RegsKept [R.LAST_STAT l, R.LAST_CYC_LO l, R.LAST_CYC_HI l] h h') (b now : Nat) :
    h'.firstStart l b now = h.firstStart l b now := by
  have hns : h'.get (R.LAST_BASE_NS_NS l b) = h.get (R.LAST_BASE_NS_NS l b) :=
    hk.get (by simp [R.LAST_BASE_NS_NS, R.LAST_BASE_NS, R.LAST_STAT, R.LAST_CYC_LO, R.LAST_CYC_HI]; omega)
  have hlo : h'.get (R.LAST_BASE_S_LO_S_LO l b) = h.get (R.LAST_BASE_S_LO_S_LO l b) :=
    hk.get (by simp [R.LAST_BASE_S_LO_S_LO, R.LAST_BASE_S_LO, R.LAST_STAT, R.LAST_CYC_LO, R.LAST_CYC_HI]; omega)
  have hhi : h'.get (R.LAST_BASE_S_HI_S_HI l b) = h.get (R.LAST_BASE_S_HI_S_HI l b) :=
    hk.get (by simp [R.LAST_BASE_S_HI_S_HI, R.LAST_BASE_S_HI, R.LAST_STAT, R.LAST_CYC_LO, R.LAST_CYC_HI]; omega)
  have hcyc : h'.get (R.LAST_CYCLE_CYCLE l b) = h.get (R.LAST_CYCLE_CYCLE l b) :=
    hk.get (by simp [R.LAST_CYCLE_CYCLE, R.LAST_CYCLE, R.LAST_STAT, R.LAST_CYC_LO, R.LAST_CYC_HI]; omega)
  have hbase : h'.lastBase l b = h.lastBase l b := by simp only [Hw.lastBase, hns, hlo, hhi]
  have hcycle : h'.lastCycle l b = h.lastCycle l b := hcyc
  unfold Hw.firstStart
  rw [hbase, hcycle]

/-- A bank's grid taken up, its first start and number known. -/
theorem Hw.takeGrid_of {b now first k : Nat} (hg : h.firstStart l b now = (first, k)) :
    h.takeGrid l b now =
      (h.modLast l fun s => { s with first := some first, start := first, k := k, next := 0, passed := [] }).setCycleNumber
        l k := by
  generalize ht : @Hw.takeGrid = t
  delta Hw.takeGrid at ht
  rw [← ht]
  beta_reduce
  rw [hg]

/-- Bank `b` of link `l` is in force from the first start and cycle number `grid` on. -/
structure BankStarted (h h' : Hw) (l b : Nat) (grid : Nat × Nat) : Prop where
  run : h'.get (R.LAST_STAT_RUN l) = 1
  active : h'.get (R.LAST_STAT_ACTIVE l) = b
  pend : h'.get (R.LAST_STAT_PEND l) = 0
  swap : h'.get (R.LAST_STAT_SWAP_EV l) = 1
  occ : (h'.lastOf l).occ = none
  cyc : h'.get (R.LAST_CYC_LO_K l) + 2 ^ 32 * h'.get (R.LAST_CYC_HI_K l) = (h'.lastOf l).k % 2 ^ 64
  first : (h'.lastOf l).first = some grid.1
  k : (h'.lastOf l).k = grid.2
  regs : RegsKept [R.LAST_STAT l, R.LAST_CYC_LO l, R.LAST_CYC_HI l] h h'
  mem : MemKept h h'

/-- The record of link `l` and CYC take up a first start and its cycle number, no stop being asked for. -/
def Hw.gridTaken (h : Hw) (l : Nat) (grid : Nat × Nat) : Hw :=
  ((h.modLast l fun s => { s with first := some grid.1, start := grid.1, k := grid.2, next := 0, passed := [] }).setCycleNumber l
    grid.2).modLast l fun s => { s with stopping := false }

theorem Hw.gridTaken_regs (grid : Nat × Nat) : RegsKept [R.LAST_CYC_LO l, R.LAST_CYC_HI l] h (h.gridTaken l grid) :=
  Hw.setCycleNumber_regs _ l grid.2

theorem Hw.gridTaken_lastOf (grid : Nat × Nat) : (h.gridTaken l grid).lastOf l =
    { h.lastOf l with first := some grid.1, start := grid.1, k := grid.2, next := 0, passed := [], stopping := false } := by
  rw [Hw.gridTaken, Hw.modLast_lastOf, Hw.setCycleNumber_lastOf, Hw.modLast_lastOf]

theorem Hw.gridTaken_cyc (grid : Nat × Nat) :
    (h.gridTaken l grid).get (R.LAST_CYC_LO_K l) + 2 ^ 32 * (h.gridTaken l grid).get (R.LAST_CYC_HI_K l) = grid.2 % 2 ^ 64 :=
  Hw.setCycleNumber_reads _ l grid.2

theorem Hw.startBank_quiet (b now : Nat) (he : h.exchange l = none) (hc : (h.slice l).calWindow = none) :
    h.startBank l b now = ((h.bankUp l b).occEnded l).gridTaken l (h.firstStart l b now) := by
  have hend : (h.bankUp l b).endOccurrence l = (h.bankUp l b).occEnded l := Hw.endOccurrence_quiet he hc
  have hregs : RegsKept [R.LAST_STAT l, R.LAST_CYC_LO l, R.LAST_CYC_HI l] h ((h.bankUp l b).occEnded l) :=
    ((h.bankUp_regs l b).trans (Hw.occEnded_regs _ l)).mono (by simp)
  have hgrid := Hw.takeGrid_of ((Hw.firstStart_congr hregs b now).trans Prod.mk.eta.symm)
  rw [Hw.gridTaken, ← hgrid, ← hend]
  rfl

/-- A bank put into force with the first start and number `grid`. -/
theorem Hw.gridTaken_started {b : Nat} (hb : b < 2) (grid : Nat × Nat) :
    BankStarted h (((h.bankUp l b).occEnded l).gridTaken l grid) l b grid := by
  have hstat {g : RF} (hg : g.addr = R.LAST_STAT l) (hin : apart (R.LAST_STAT_IN_ENTRY l) g) :
      (((h.bankUp l b).occEnded l).gridTaken l grid).get g = (h.bankUp l b).get g :=
    ((Hw.gridTaken_regs grid).get (by simp [hg, R.LAST_STAT, R.LAST_CYC_LO, R.LAST_CYC_HI])).trans (Hw.occEnded_get _ l hin)
  constructor
  case run => exact (hstat rfl (apart_of_bits rfl)).trans (h.bankUp_run l b)
  case active => exact (hstat rfl (apart_of_bits rfl)).trans (h.bankUp_active l hb)
  case pend => exact (hstat rfl (apart_of_bits rfl)).trans (h.bankUp_pend l b)
  case swap => exact (hstat rfl (apart_of_bits rfl)).trans (h.bankUp_swap l b)
  case occ => rw [Hw.gridTaken_lastOf, Hw.occEnded_lastOf]
  case cyc => rw [Hw.gridTaken_cyc, Hw.gridTaken_lastOf]
  case first => rw [Hw.gridTaken_lastOf]
  case k => rw [Hw.gridTaken_lastOf]
  case regs =>
    exact (((h.bankUp_regs l b).trans (Hw.occEnded_regs _ l)).mono (by simp)).trans ((Hw.gridTaken_regs grid).mono (by simp))
  case mem => exact fun _ => rfl

/-- A bank is put into force where no exchange and no calibration window is open. -/
theorem Hw.startBank_started {b : Nat} (hb : b < 2) (now : Nat) (he : h.exchange l = none) (hc : (h.slice l).calWindow = none) :
    BankStarted h (h.startBank l b now) l b (h.firstStart l b now) :=
  (Hw.startBank_quiet b now he hc).symm ▸ Hw.gridTaken_started hb _

end

end Sys2Proof.Machine
end

section
/-!
SUPPORT. The banks of the Last tables: arming, validation, stopping, the boundary and the first start, command by command
(R209, R219, R221, R222).
-/
namespace Sys2Proof.Machine

/-! ### The checks of a bank (R219) -/

/-- A failing check has a code of four bits, and its entry an index of twelve. -/
theorem Hw.validateBank_bounds {h : Hw} {l b c i : Nat} (hv : h.validateBank l b = some (c, i)) : c < 16 ∧ i < 4096 := by
  unfold Hw.validateBank at hv
  dsimp only at hv
  split at hv
  · simp at hv; omega
  · split at hv
    · simp at hv; omega
    · next hn =>
      split at hv
      · next j hj =>
        have hjn := List.mem_of_find?_eq_some hj
        simp at hv hjn
        omega
      · obtain ⟨d, hd, hf⟩ := List.exists_of_findSome?_eq_some hv
        obtain ⟨j, hj, hji⟩ := Option.map_eq_some_iff.mp hf
        have hjn := List.mem_of_find?_eq_some hj
        simp at hd hjn hji
        omega

theorem Hw.find_code_lt {p : Nat → Bool} {c : Nat} (hc : [4, 5, 6, 7, 8, 9, 10, 11].find? p = some c) : c < 16 := by
  have := List.mem_of_find?_eq_some hc
  simp at this
  omega

theorem Hw.amendCode_lt {h : Hw} {l i c : Nat} {e : LastEntry} (ha : h.amendCode l i e = some c) : c < 16 := by
  unfold Hw.amendCode at ha
  dsimp only at ha
  split at ha
  · next d hd => cases ha; exact Hw.find_code_lt hd
  · split at ha
    · cases ha; decide
    · cases ha

/-- A failing check is recorded with its code and entry. -/
def Hw.failRecorded (h : Hw) (l c i : Nat) (ev : RF) : Hw := ((h.set (R.LAST_VAL_CODE l) c).set (R.LAST_VAL_INDEX l) i).set ev 1

section
variable (h : Hw) {l c i : Nat} {ev : RF}

theorem Hw.failRecorded_code (hc : c < 16) (hev : ev.addr = R.LAST_STAT l) :
    (h.failRecorded l c i ev).get (R.LAST_VAL_CODE l) = c := by
  rw [Hw.failRecorded, Hw.get_set_apart _ _ _ _ (.inl (by simp [hev, R.LAST_STAT, R.LAST_VAL_CODE, R.LAST_VAL])),
    Hw.get_set_apart _ _ _ _ (apart_of_bits rfl), Hw.get_set_lt _ _ _ (fits_of_bits rfl) hc]

theorem Hw.failRecorded_index (hi : i < 4096) (hev : ev.addr = R.LAST_STAT l) :
    (h.failRecorded l c i ev).get (R.LAST_VAL_INDEX l) = i := by
  rw [Hw.failRecorded, Hw.get_set_apart _ _ _ _ (.inl (by simp [hev, R.LAST_STAT, R.LAST_VAL_INDEX, R.LAST_VAL])),
    Hw.get_set_lt _ _ _ (fits_of_bits rfl) hi]

theorem Hw.failRecorded_onlyRegs (hev : ev.addr = R.LAST_STAT l) :
    OnlyRegs [R.LAST_VAL l, R.LAST_STAT l] h (h.failRecorded l c i ev) :=
  ((onlyRegs_set h (f := R.LAST_VAL_CODE l) c (.head _)).trans (onlyRegs_set _ (f := R.LAST_VAL_INDEX l) i (.head _))).trans
    (onlyRegs_set _ 1 (by simp [hev]))

end

/-! ### ARM, DISARM and STOP (R219, R222) -/

section
variable {s : State} (hup : s.hw.mainUp = true)
include hup

theorem gives_arm (l : Fin 3) (hp : s.hw.lastPend l = false) : Gives (.arm l) s fun h =>
    (h.lastOf l).arming = true ∧ RegsKept [] s.hw h ∧ MemKept s.hw h := by
  refine gives_of_effect_eq rfl rfl hup (f := fun h => h.lastArm l) (if_neg (by simp [hp])) ?_
  exact ⟨by simp, ((RegsKept.refl _ _).modLast _ _).canon, (MemKept.of_mem rfl).canon⟩

theorem gives_arm_pending (l : Fin 3) (hp : s.hw.lastPend l = true) : Gives (.arm l) s fun h => Unchanged s.hw h :=
  gives_unchanged_of_effect rfl rfl hup (f := fun h => h.lastArm l) (if_pos hp)

theorem gives_disarm (l : Fin 3) : Gives (.disarm l) s fun h =>
    h.get (R.LAST_STAT_PEND l) = 0 ∧ OnlyRegs [R.LAST_STAT l] s.hw h := by
  refine gives_of_effect_eq rfl rfl hup (f := fun h => h.lastDisarm l) rfl ?_
  exact ⟨Hw.get_set_const _ rfl, (onlyRegs_setAt _ (R.LAST_STAT_PEND l) 0 rfl).canon⟩

theorem gives_stop (l : Fin 3) : Gives (.stop l) s fun h =>
    h.get (R.LAST_STAT_PEND l) = 0 ∧ (h.lastOf l).stopping = s.hw.lastRun l ∧ RegsKept [R.LAST_STAT l] s.hw h ∧
      MemKept s.hw h := by
  refine gives_of_effect_eq rfl rfl hup (f := fun h => h.lastStop l) rfl ?_
  refine ⟨Hw.get_set_const _ rfl, ?_, ?_, (MemKept.of_mem rfl).canon⟩
  · rw [Hw.canon_lastOf, Hw.lastStop, Hw.modLast_lastOf]
  · exact (((RegsKept.refl _ _).set (R.LAST_STAT_PEND l) 0 (.head _)).modLast l _).canon

end

/-! ### LAST_VALIDATION_DONE (R219, R221) -/

/-- The link `l` is not arming. -/
def Hw.disarmed (h : Hw) (l : Nat) : Hw := h.modLast l fun s => { s with arming := false }

/-- The checks of a bank look at registers alone. -/
theorem Hw.validateBank_congr {h h' : Hw} (hw : ∀ a, h'.word a = h.word a) (l b : Nat) :
    h'.validateBank l b = h.validateBank l b := by
  have hget (f : RF) : h'.get f = h.get f := Hw.get_congr (hw f.addr)
  have hcycle : h'.lastCycle l b = h.lastCycle l b := hget _
  have hcount : h'.lastCount l b = h.lastCount l b := hget _
  have hentry : h'.lastEntry l b = h.lastEntry l b := by funext i; simp only [Hw.lastEntry, Hw.lastWords, hw]
  have hfails : h'.entryFails = h.entryFails := by funext l c e n; simp only [Hw.entryFails, hget]
  unfold Hw.validateBank
  rw [hcycle, hcount, hentry, hfails]

theorem BankStarted.canon {h h' : Hw} {l b : Nat} {grid : Nat × Nat} (hb : BankStarted h h' l b grid) :
    BankStarted h h'.canon l b grid :=
  ⟨hb.run, hb.active, hb.pend, hb.swap, hb.occ, hb.cyc, hb.first, hb.k, hb.regs.canon, hb.mem.canon⟩

/-- A bank starts from where it would without the end of the validation. -/
theorem BankStarted.of_disarmed {h h' : Hw} {l b : Nat} {grid : Nat × Nat} (hb : BankStarted (h.disarmed l) h' l b grid) :
    BankStarted h h' l b grid :=
  ⟨hb.run, hb.active, hb.pend, hb.swap, hb.occ, hb.cyc, hb.first, hb.k, hb.regs, hb.mem⟩

section
variable {s : State} (hup : s.hw.mainUp = true)
include hup

theorem gives_lastValidationDone_fails (l : Fin 3) (c i : Nat) (ha : (s.hw.lastOf l).arming = true)
    (hv : s.hw.validateBank l (1 - s.hw.lastActive l) = some (c, i)) : Gives (.lastValidationDone l) s fun h =>
    (h.lastOf l).arming = false ∧ h.get (R.LAST_VAL_CODE l) = c ∧ h.get (R.LAST_VAL_INDEX l) = i ∧
      h.get (R.LAST_STAT_VAL_ERR_EV l) = 1 ∧ RegsKept [R.LAST_VAL l, R.LAST_STAT l] s.hw h ∧ MemKept s.hw h := by
  obtain ⟨hc, hi⟩ := Hw.validateBank_bounds hv
  have hv' : (s.hw.disarmed l).validateBank l (1 - (s.hw.disarmed l).lastActive l) = some (c, i) :=
    (Hw.validateBank_congr (fun _ => rfl) _ _).trans hv
  refine gives_of_effect_eq (e := execLastValidationDone l s) rfl rfl hup
    (h := (s.hw.disarmed l).failRecorded l c i (R.LAST_STAT_VAL_ERR_EV l)) ?_ ?_
  · dsimp only
    rw [if_pos ha, ← Hw.disarmed, hv']
    rfl
  · exact ⟨by simp [Hw.failRecorded, Hw.disarmed], Hw.failRecorded_code _ hc rfl, Hw.failRecorded_index _ hi rfl,
      Hw.get_set_const _ rfl, (Hw.failRecorded_onlyRegs _ rfl).1.canon, (MemKept.of_mem rfl).canon⟩

theorem gives_lastValidationDone_pends (l : Fin 3) (ha : (s.hw.lastOf l).arming = true)
    (hv : s.hw.validateBank l (1 - s.hw.lastActive l) = none) (hr : s.hw.lastRun l = true) :
    Gives (.lastValidationDone l) s fun h =>
      (h.lastOf l).arming = false ∧ h.get (R.LAST_STAT_PEND l) = 1 ∧ RegsKept [R.LAST_STAT l] s.hw h ∧ MemKept s.hw h := by
  have hv' : (s.hw.disarmed l).validateBank l (1 - (s.hw.disarmed l).lastActive l) = none :=
    (Hw.validateBank_congr (fun _ => rfl) _ _).trans hv
  have hr' : (s.hw.disarmed l).lastRun l = true := hr
  refine gives_of_effect_eq (e := execLastValidationDone l s) rfl rfl hup
    (h := (s.hw.disarmed l).set (R.LAST_STAT_PEND l) 1) ?_ ?_
  · dsimp only
    rw [if_pos ha, ← Hw.disarmed, hv']
    exact if_pos hr'
  · exact ⟨by simp [Hw.disarmed], Hw.get_set_const _ rfl,
      (((RegsKept.refl _ _).modLast l _).set (R.LAST_STAT_PEND l) 1 (.head _)).canon, (MemKept.of_mem rfl).canon⟩

theorem gives_lastValidationDone_starts (l : Fin 3) (ha : (s.hw.lastOf l).arming = true)
    (hv : s.hw.validateBank l (1 - s.hw.lastActive l) = none) (hr : s.hw.lastRun l = false) (he : s.hw.exchange l = none)
    (hc : (s.hw.slice l).calWindow = none) :
    Gives (.lastValidationDone l) s fun h =>
      BankStarted s.hw h l (1 - s.hw.lastActive l) (s.hw.firstStart l (1 - s.hw.lastActive l) s.hw.nt) := by
  have hv' : (s.hw.disarmed l).validateBank l (1 - (s.hw.disarmed l).lastActive l) = none :=
    (Hw.validateBank_congr (fun _ => rfl) _ _).trans hv
  have hr' : ¬(s.hw.disarmed l).lastRun l = true := (Bool.eq_false_iff.mp hr :)
  have hgrid : (s.hw.disarmed l).firstStart l (1 - s.hw.lastActive l) s.hw.nt =
      s.hw.firstStart l (1 - s.hw.lastActive l) s.hw.nt :=
    Hw.firstStart_congr (fun _ _ => rfl) _ _
  have hst := Hw.startBank_started (h := s.hw.disarmed l) (b := 1 - s.hw.lastActive l) (l := l) (by omega) s.hw.nt he hc
  rw [hgrid] at hst
  refine gives_of_effect_eq (e := execLastValidationDone l s) rfl rfl hup
    (h := (s.hw.disarmed l).startBank l (1 - s.hw.lastActive l) s.hw.nt) ?_ hst.of_disarmed.canon
  dsimp only
  rw [if_pos ha, ← Hw.disarmed, hv']
  exact if_neg hr'

end

/-! ### LAST_CYCLE_BOUNDARY (R221, R222) -/

/-- The occurrence in progress ended and no bank in force. -/
def Hw.bankStopped (h : Hw) (l : Nat) : Hw :=
  (((h.occEnded l).set (R.LAST_STAT_RUN l) 0).set (R.LAST_STAT_PEND l) 0).modLast l fun s =>
    { s with first := none, stopping := false, passed := [] }

/-- The occurrence in progress ended and the next cycle, of number `k`, begun at `T`. -/
def Hw.nextCycle (h : Hw) (l T k : Nat) : Hw :=
  ((h.occEnded l).modLast l fun s =>
    { s with start := T, k := s.k + 1, next := 0, passed := s.passed.filter fun p => s.k < p.2 }).setCycleNumber l k

theorem Hw.bankStopped_lastOf (h : Hw) (l : Nat) : (h.bankStopped l).lastOf l =
    { h.lastOf l with first := none, stopping := false, passed := [], occ := none } := by
  rw [Hw.bankStopped, Hw.modLast_lastOf, Hw.set_lastOf, Hw.set_lastOf, Hw.occEnded_lastOf]

theorem Hw.nextCycle_lastOf (h : Hw) (l T n : Nat) : (h.nextCycle l T n).lastOf l =
    { h.lastOf l with start := T, k := (h.lastOf l).k + 1, next := 0,
                      passed := (h.lastOf l).passed.filter fun p => (h.lastOf l).k < p.2, occ := none } := by
  rw [Hw.nextCycle, Hw.setCycleNumber_lastOf, Hw.modLast_lastOf, Hw.occEnded_lastOf]

section
variable {h k : Hw} {l : Nat} (hpass : TimePassed h k)
include hpass

theorem Hw.bankStopped_gives : (k.bankStopped l).canon.get (R.LAST_STAT_RUN l) = 0 ∧
    (k.bankStopped l).canon.get (R.LAST_STAT_PEND l) = 0 ∧ ((k.bankStopped l).canon.lastOf l).stopping = false ∧
    ((k.bankStopped l).canon.lastOf l).occ = none ∧ (k.bankStopped l).canon.nt = k.nt ∧
    RegsKept [R.LAST_STAT l] h (k.bankStopped l).canon ∧ MemKept h (k.bankStopped l).canon := by
  refine ⟨?_, ?_, by rw [Hw.canon_lastOf, Hw.bankStopped_lastOf], by rw [Hw.canon_lastOf, Hw.bankStopped_lastOf], rfl, ?_, ?_⟩
  · rw [Hw.canon_get, Hw.bankStopped, Hw.modLast_get, Hw.get_set_apart _ _ _ _ (apart_of_bits rfl), Hw.get_set_const _ rfl]
  · rw [Hw.canon_get, Hw.bankStopped, Hw.modLast_get, Hw.get_set_const _ rfl]
  · exact ((hpass.regs _).trans ((((k.occEnded_regs l).set (R.LAST_STAT_RUN l) 0 (.head _)).set (R.LAST_STAT_PEND l) 0
      (.head _)).modLast l _)).canon
  · exact (MemKept.of_mem (h' := k.bankStopped l) hpass.mem).canon

theorem Hw.nextCycle_gives (T n : Nat) : ((k.nextCycle l T n).canon.lastOf l).start = T ∧
    ((k.nextCycle l T n).canon.lastOf l).k = (h.lastOf l).k + 1 ∧ ((k.nextCycle l T n).canon.lastOf l).next = 0 ∧
    ((k.nextCycle l T n).canon.lastOf l).occ = none ∧
    (k.nextCycle l T n).canon.get (R.LAST_CYC_LO_K l) + 2 ^ 32 * (k.nextCycle l T n).canon.get (R.LAST_CYC_HI_K l) =
      n % 2 ^ 64 ∧
    RegsKept [R.LAST_STAT l, R.LAST_CYC_LO l, R.LAST_CYC_HI l] h (k.nextCycle l T n).canon ∧
    MemKept h (k.nextCycle l T n).canon := by
  rw [Hw.canon_lastOf, Hw.nextCycle_lastOf, hpass.lastOf]
  refine ⟨rfl, rfl, rfl, rfl, by rw [Hw.canon_get, Hw.canon_get, Hw.nextCycle, Hw.setCycleNumber_reads], ?_, ?_⟩
  · exact (((hpass.regs _).trans ((k.occEnded_regs l).mono (by simp))).trans
      ((Hw.setCycleNumber_regs _ _ _).mono (by simp))).canon
  · exact (MemKept.of_mem (h' := k.nextCycle l T n) hpass.mem).canon

/-- The end of an occurrence leaves the bits of LAST_STAT that tell of banks. -/
theorem Hw.occEnded_stat {g : RF} (hg : apart (R.LAST_STAT_IN_ENTRY l) g) : (k.occEnded l).get g = h.get g :=
  (k.occEnded_get l hg).trans (hpass.get g)

theorem Hw.swap_started (T : Nat) (he : h.exchange l = none) :
    BankStarted h ((k.occEnded l).startBank l (1 - h.lastActive l) T).canon l (1 - h.lastActive l)
      (h.firstStart l (1 - h.lastActive l) T) := by
  have hregs : RegsKept [R.LAST_STAT l, R.LAST_CYC_LO l, R.LAST_CYC_HI l] h (k.occEnded l) :=
    (hpass.regs _).trans ((k.occEnded_regs l).mono (by simp))
  have hst := Hw.startBank_started (h := k.occEnded l) (b := 1 - h.lastActive l) (l := l) (by omega) T
    ((hpass.exchange l).trans he) (k.occEnded_calWindow l)
  rw [Hw.firstStart_congr hregs] at hst
  have hmem : MemKept h (k.occEnded l) := MemKept.of_mem hpass.mem
  exact BankStarted.canon { hst with regs := hregs.trans hst.regs, mem := fun a => (hst.mem a).trans (hmem a) }

end

section
variable {s : State} (hup : s.hw.mainUp = true) {T : Nat}
include hup

/-- The boundary reached: the occurrence in progress ends, and a stop, a swap or the next cycle follows. -/
theorem gives_lastCycleBoundary {P : Hw → Prop} {k : Hw} (l : Fin 3) (hr : s.hw.lastRun l = true)
    (hgo : ((s.hw.lastOf l).first.isNone || (s.hw.lastOf l).stopping || s.hw.lastPend l) = true) (he : s.hw.exchange l = none)
    (hc : (s.hw.slice l).calWindow = none) (hT : T = s.hw.lastBoundary l) (hreach : (s.hw.advanceToNt T).ntReached T = true)
    (hk : (if (s.hw.lastOf l).stopping then (s.hw.advanceToNt T).bankStopped l
      else if ((s.hw.advanceToNt T).occEnded l).lastPend l then
        ((s.hw.advanceToNt T).occEnded l).startBank l (1 - ((s.hw.advanceToNt T).occEnded l).lastActive l) T
      else (s.hw.advanceToNt T).nextCycle l T ((s.hw.lastOf l).k + 1)) = k)
    (hP : P k.canon) : Gives (.lastCycleBoundary l) s P := by
  have hpass := s.hw.advanceToNt_timePassed T
  have hend : (s.hw.advanceToNt T).endOccurrence l = (s.hw.advanceToNt T).occEnded l :=
    Hw.endOccurrence_quiet ((hpass.exchange l).trans he) (by rw [hpass.slice, hc])
  subst hT
  refine gives_of_effect_eq (e := execLastCycleBoundary l s) rfl rfl hup ?_ hP
  dsimp only
  rw [if_pos (by rw [hr, hgo]; rfl), Hw.atNt_reached hreach, hend]
  exact hk

theorem gives_lastCycleBoundary_stops (l : Fin 3) (hr : s.hw.lastRun l = true) (hs : (s.hw.lastOf l).stopping = true)
    (he : s.hw.exchange l = none) (hc : (s.hw.slice l).calWindow = none) (hT : T = s.hw.lastBoundary l)
    (hreach : (s.hw.advanceToNt T).ntReached T = true) : Gives (.lastCycleBoundary l) s fun h =>
      h.get (R.LAST_STAT_RUN l) = 0 ∧ h.get (R.LAST_STAT_PEND l) = 0 ∧ (h.lastOf l).stopping = false ∧
      (h.lastOf l).occ = none ∧ h.nt = (s.hw.advanceToNt T).nt ∧ RegsKept [R.LAST_STAT l] s.hw h ∧ MemKept s.hw h :=
  gives_lastCycleBoundary hup l hr (by simp [hs]) he hc hT hreach (if_pos hs)
    (Hw.bankStopped_gives (s.hw.advanceToNt_timePassed T))

theorem gives_lastCycleBoundary_swaps (l : Fin 3) (hr : s.hw.lastRun l = true) (hs : (s.hw.lastOf l).stopping = false)
    (hp : s.hw.lastPend l = true) (he : s.hw.exchange l = none) (hc : (s.hw.slice l).calWindow = none)
    (hT : T = s.hw.lastBoundary l) (hreach : (s.hw.advanceToNt T).ntReached T = true) :
    Gives (.lastCycleBoundary l) s fun h =>
      BankStarted s.hw h l (1 - s.hw.lastActive l) (s.hw.firstStart l (1 - s.hw.lastActive l) T) := by
  have hpass := s.hw.advanceToNt_timePassed T
  have hpend : ((s.hw.advanceToNt T).occEnded l).lastPend l = true := by
    rw [Hw.lastPend, Hw.flag, Hw.occEnded_stat hpass (apart_of_bits rfl)]
    exact hp
  have hactive : ((s.hw.advanceToNt T).occEnded l).lastActive l = s.hw.lastActive l :=
    Hw.occEnded_stat hpass (apart_of_bits rfl)
  exact gives_lastCycleBoundary hup l hr (by simp [hp]) he hc hT hreach
    (by rw [if_neg (by simp [hs]), if_pos hpend, hactive]) (Hw.swap_started hpass T he)

theorem gives_lastCycleBoundary_continues (l : Fin 3) (hr : s.hw.lastRun l = true) (hs : (s.hw.lastOf l).stopping = false)
    (hp : s.hw.lastPend l = false) (hf : (s.hw.lastOf l).first = none) (he : s.hw.exchange l = none)
    (hc : (s.hw.slice l).calWindow = none) (hT : T = s.hw.lastBoundary l) (hreach : (s.hw.advanceToNt T).ntReached T = true) :
    Gives (.lastCycleBoundary l) s fun h =>
      (h.lastOf l).start = T ∧ (h.lastOf l).k = (s.hw.lastOf l).k + 1 ∧ (h.lastOf l).next = 0 ∧ (h.lastOf l).occ = none ∧
      h.get (R.LAST_CYC_LO_K l) + 2 ^ 32 * h.get (R.LAST_CYC_HI_K l) = ((s.hw.lastOf l).k + 1) % 2 ^ 64 ∧
      RegsKept [R.LAST_STAT l, R.LAST_CYC_LO l, R.LAST_CYC_HI l] s.hw h ∧ MemKept s.hw h := by
  have hpass := s.hw.advanceToNt_timePassed T
  have hpend : ¬((s.hw.advanceToNt T).occEnded l).lastPend l = true := by
    rw [Hw.lastPend, Hw.flag, Hw.occEnded_stat hpass (apart_of_bits rfl)]
    exact Bool.eq_false_iff.mp hp
  exact gives_lastCycleBoundary hup l hr (by simp [hf]) he hc hT hreach
    (by rw [if_neg (by simp [hs]), if_neg hpend]) (Hw.nextCycle_gives hpass T _)

end

/-! ### LAST_BANK_START (R209) -/

/-- The first cycle of a bank, of number `n`, begun. -/
def Hw.firstCycle (h : Hw) (l n : Nat) : Hw :=
  (h.modLast l fun s => { s with first := none, next := 0 }).setCycleNumber l n

theorem Hw.firstCycle_gives {h k : Hw} {l : Nat} (hpass : TimePassed h k) (n : Nat) :
    ((k.firstCycle l n).canon.lastOf l).first = none ∧ ((k.firstCycle l n).canon.lastOf l).next = 0 ∧
    (k.firstCycle l n).canon.get (R.LAST_CYC_LO_K l) + 2 ^ 32 * (k.firstCycle l n).canon.get (R.LAST_CYC_HI_K l) = n % 2 ^ 64 ∧
    RegsKept [R.LAST_CYC_LO l, R.LAST_CYC_HI l] h (k.firstCycle l n).canon ∧ MemKept h (k.firstCycle l n).canon :=
  ⟨by simp [Hw.firstCycle], by simp [Hw.firstCycle], Hw.setCycleNumber_reads _ _ _,
    ((hpass.regs _).trans (Hw.setCycleNumber_regs _ _ _)).canon, (MemKept.of_mem (h' := k.firstCycle l n) hpass.mem).canon⟩

theorem gives_lastBankStart {s : State} (hup : s.hw.mainUp = true) {T : Nat} (l : Fin 3) (hf : (s.hw.lastOf l).first = some T)
    (hs : (s.hw.lastOf l).stopping = false) (hp : s.hw.lastPend l = false) (hreach : (s.hw.advanceToNt T).ntReached T = true) :
    Gives (.lastBankStart l) s fun h =>
      (h.lastOf l).first = none ∧ (h.lastOf l).next = 0 ∧
      h.get (R.LAST_CYC_LO_K l) + 2 ^ 32 * h.get (R.LAST_CYC_HI_K l) = (s.hw.lastOf l).k % 2 ^ 64 ∧
      RegsKept [R.LAST_CYC_LO l, R.LAST_CYC_HI l] s.hw h ∧ MemKept s.hw h := by
  have hpass := s.hw.advanceToNt_timePassed T
  have hnot : ¬((s.hw.lastOf l).stopping || s.hw.lastPend l) = true := by simp [hs, hp]
  refine gives_of_effect_eq (e := execLastBankStart l s) rfl rfl hup ?_ (Hw.firstCycle_gives hpass (s.hw.lastOf l).k)
  rw [hf]
  refine (if_neg hnot).trans ((Hw.atNt_reached hreach _).trans ?_)
  rw [hpass.lastOf, Hw.firstCycle]

end Sys2Proof.Machine
end

section
/-!
SUPPORT. The words of an entry: what the entry registers keep of a written word, and the amendment of an entry (R211, R223).
-/
namespace Sys2Proof.Machine

/-! ### The rows of the entry registers (R230, R231) -/

/-- A row that covers an address, and is the only one among the rows to do so, is the row of the address. -/
theorem findRow_of_unique {rows : List RegRow} {a : Nat} {q : RegRow} (hmem : q ∈ rows) (hbase : q.base ≤ a)
    (hin : inDims q.dims (a - q.base) = true)
    (huniq : ∀ r ∈ rows, r.base ≤ a → inDims r.dims (a - r.base) = true → r = q) : findRow rows a = some q := by
  induction rows with
  | nil => cases hmem
  | cons r t ih =>
    rw [findRow]
    split
    · next hr =>
      simp only [Bool.and_eq_true, decide_eq_true_eq] at hr
      rw [huniq r List.mem_cons_self hr.1 hr.2]
    · next hr =>
      refine ih ?_ fun r hr => huniq r (List.mem_cons_of_mem _ hr)
      rcases List.mem_cons.mp hmem with heq | ht
      · exact absurd (by simp [← heq, hbase, hin]) hr
      · exact ht

/-- The offset of an entry's word is one of its row's. -/
theorem inDims_entry {l b i d : Nat} (hl : l < 3) (hb : b < 2) (hi : i < 4096) (hd : d = 0x40000 * l + 0x10000 * b + 0x10 * i) :
    inDims [(0x3, 0x40000), (0x2, 0x10000), (0x1000, 0x10)] d = true := by
  simp only [inDims, Bool.and_eq_true, decide_eq_true_eq, beq_iff_eq]
  omega

/-- Of the rows of the Last tables' registers, the one that covers word `n` of an entry. -/
theorem regRows40E_entry {l b i a n : Nat} (hb : b < 2) (hi : i < 4096) (hn : n < 4)
    (ha : a = 0x40E10000 + 0x40000 * l + 0x10000 * b + 0x10 * i + 4 * n) :
    ∀ r ∈ regRows 0x40E, r.base ≤ a → inDims r.dims (a - r.base) = true → r.base = 0x40E10000 + 4 * n := by
  simp only [regRows, regRows40E_0, List.mem_cons, List.not_mem_nil, or_false, forall_eq_or_imp, inDims, beq_iff_eq,
      Bool.and_eq_true, decide_eq_true_eq, and_imp, forall_eq]
  omega

theorem regRows40E_nodup : ((regRows 0x40E).map RegRow.base).Nodup := by decide

/-- The row of word `n` of an entry. -/
theorem regRow_entry {l b i a n : Nat} {q : RegRow} (hl : l < 3) (hb : b < 2) (hi : i < 4096) (hn : n < 4)
    (ha : a = 0x40E10000 + 0x40000 * l + 0x10000 * b + 0x10 * i + 4 * n) (hq : q ∈ regRows 0x40E)
    (hbase : q.base = 0x40E10000 + 4 * n) (hdims : q.dims = [(0x3, 0x40000), (0x2, 0x10000), (0x1000, 0x10)]) :
    regRow a = some q := by
  have hpage : a / 0x100000 = 0x40E := by omega
  rw [regRow, hpage]
  refine findRow_of_unique hq (by omega) ?_ fun r hr hle hin => ?_
  · rw [hdims]
    exact inDims_entry hl hb hi (by omega)
  · exact List.inj_on_of_nodup_map regRows40E_nodup hr hq ((regRows40E_entry hb hi hn ha r hr hle hin).trans hbase.symm)

/-! ### What an entry register keeps of a written word (R211) -/

/-- Word `n` of an entry, of the four. -/
def entryWordAddr (l b i n : Nat) : Nat := 0x40E10000 + 0x40000 * l + 0x10000 * b + 0x10 * i + 4 * n

/-- The bits of word `n` of an entry that are fields. -/
def entryMask (n : Nat) : Nat := match n with | 0 => 0xFFFFFFF | 1 => 0xFFFFFFFF | 2 => 0xFF1FFFFF | _ => 0xFF1F

theorem regRow_entryWordAddr {l b i n : Nat} (hl : l < 3) (hb : b < 2) (hi : i < 4096) (hn : n < 4) :
    ∃ q, regRow (entryWordAddr l b i n) = some q ∧ q.rw ||| q.rws = entryMask n := by
  obtain rfl | rfl | rfl | rfl : n = 0 ∨ n = 1 ∨ n = 2 ∨ n = 3 := by omega
  · exact ⟨_, regRow_entry hl hb hi hn rfl (q := (regRows 0x40E)[19]) (List.getElem_mem _) rfl rfl, rfl⟩
  · exact ⟨_, regRow_entry hl hb hi hn rfl (q := (regRows 0x40E)[20]) (List.getElem_mem _) rfl rfl, rfl⟩
  · exact ⟨_, regRow_entry hl hb hi hn rfl (q := (regRows 0x40E)[21]) (List.getElem_mem _) rfl rfl, rfl⟩
  · exact ⟨_, regRow_entry hl hb hi hn rfl (q := (regRows 0x40E)[22]) (List.getElem_mem _) rfl rfl, rfl⟩

/-- The fields of an entry, from its four words. -/
theorem entryOf_words (v : Nat → Word) : entryOf [(v 0).toNat, (v 1).toNat, (v 2).toNat, (v 3).toNat] =
    { start := bitsOf (v 0) 0 24, type := bitsOf (v 0) 24 3, express := (bitsOf (v 0) 27 1).testBit 0, dur := bitsOf (v 1) 0 16,
      every := bitsOf (v 1) 16 8, phase := bitsOf (v 1) 24 8, list := bitsOf (v 2) 0 13, nusr := bitsOf (v 2) 13 8,
      tids := bitsOf (v 2) 24 8, bw := bitsOf (v 3) 0 3, mimo := (bitsOf (v 3) 3 1).testBit 0,
      again := (bitsOf (v 3) 4 1).testBit 0, ulLen := bitsOf (v 3) 8 8 } := by
  simp [entryOf, bitsOf, Nat.shiftRight_eq_div_pow, Nat.testBit_eq_decide_div_mod_eq]

/-- The bits of word `n` from `lo` up, `len` of them, are one field or part of one. -/
def inEntry (n lo len : Nat) : Bool := (List.range len).all fun i => (BitVec.ofNat 32 (entryMask n)).getLsbD (lo + i)

/-- Words that agree in the fields of an entry give the same entry. -/
theorem entryOf_congr {v w : Nat → Word}
    (hvw : ∀ n lo len, n < 4 → inEntry n lo len = true → bitsOf (v n) lo len = bitsOf (w n) lo len) :
    entryOf [(v 0).toNat, (v 1).toNat, (v 2).toNat, (v 3).toNat] =
      entryOf [(w 0).toNat, (w 1).toNat, (w 2).toNat, (w 3).toNat] := by
  simp only [entryOf_words, hvw 0 0 24 (by decide) (by decide), hvw 0 24 3 (by decide) (by decide),
    hvw 0 27 1 (by decide) (by decide), hvw 1 0 16 (by decide) (by decide), hvw 1 16 8 (by decide) (by decide),
    hvw 1 24 8 (by decide) (by decide), hvw 2 0 13 (by decide) (by decide), hvw 2 13 8 (by decide) (by decide),
    hvw 2 24 8 (by decide) (by decide), hvw 3 0 3 (by decide) (by decide), hvw 3 3 1 (by decide) (by decide),
    hvw 3 4 1 (by decide) (by decide), hvw 3 8 8 (by decide) (by decide)]

/-- A field of a word of an entry takes what is written. -/
theorem Hw.bitsOf_writeEntry (h : Hw) (v : Word) {l b i n lo len : Nat} (hl : l < 3) (hb : b < 2) (hi : i < 4096) (hn : n < 4)
    (hin : inEntry n lo len = true) :
    bitsOf ((h.writeFields (entryWordAddr l b i n) v).word (entryWordAddr l b i n)) lo len = bitsOf v lo len := by
  obtain ⟨q, hq, hmask⟩ := regRow_entryWordAddr hl hb hi hn
  refine Hw.get_writeFields h (f := ⟨entryWordAddr l b i n, lo, len⟩) v hq fun j hj => ?_
  rw [hmask]
  exact List.all_eq_true.mp hin j (List.mem_range.mpr hj)

section
variable (l b i : Nat)
theorem lastE0_eq : R.LAST_E0 l b i = entryWordAddr l b i 0 := by simp only [R.LAST_E0, entryWordAddr]; omega
theorem lastE1_eq : R.LAST_E1 l b i = entryWordAddr l b i 1 := by simp only [R.LAST_E1, entryWordAddr]; omega
theorem lastE2_eq : R.LAST_E2 l b i = entryWordAddr l b i 2 := by simp only [R.LAST_E2, entryWordAddr]; omega
theorem lastE3_eq : R.LAST_E3 l b i = entryWordAddr l b i 3 := by simp only [R.LAST_E3, entryWordAddr]; omega
end

theorem Hw.lastEntry_eq (h : Hw) (l b i : Nat) : h.lastEntry l b i =
    entryOf [(h.word (entryWordAddr l b i 0)).toNat, (h.word (entryWordAddr l b i 1)).toNat,
      (h.word (entryWordAddr l b i 2)).toNat, (h.word (entryWordAddr l b i 3)).toNat] := by
  rw [Hw.lastEntry, Hw.lastWords, lastE0_eq, lastE1_eq, lastE2_eq, lastE3_eq]

/-! ### The amendment of an entry (R223) -/

/-- The four words of entry `i` of bank `b` written. -/
def Hw.putEntry (h : Hw) (l b i : Nat) (v : Nat → Word) : Hw :=
  (((h.writeFields (R.LAST_E0 l b i) (v 0)).writeFields (R.LAST_E1 l b i) (v 1)).writeFields (R.LAST_E2 l b i) (v 2)).writeFields
    (R.LAST_E3 l b i) (v 3)

section
variable (h : Hw) {l b i : Nat} (v : Nat → Word)

theorem Hw.putEntry_onlyRegs :
    OnlyRegs [R.LAST_E0 l b i, R.LAST_E1 l b i, R.LAST_E2 l b i, R.LAST_E3 l b i] h (h.putEntry l b i v) :=
  ((((h.writeFields_onlyRegs _ _).mono (by simp)).trans ((Hw.writeFields_onlyRegs _ _ _).mono (by simp))).trans
    ((Hw.writeFields_onlyRegs _ _ _).mono (by simp))).trans ((Hw.writeFields_onlyRegs _ _ _).mono (by simp))

theorem Hw.putEntry_bits {n lo len : Nat} (hl : l < 3) (hb : b < 2) (hi : i < 4096) (hn : n < 4) (hin : inEntry n lo len = true) :
    bitsOf ((h.putEntry l b i v).word (entryWordAddr l b i n)) lo len = bitsOf (v n) lo len := by
  rw [Hw.putEntry, lastE0_eq, lastE1_eq, lastE2_eq, lastE3_eq]
  have hne {m : Nat} (hm : n ≠ m) : entryWordAddr l b i n ≠ entryWordAddr l b i m := by simp only [entryWordAddr]; omega
  obtain rfl | rfl | rfl | rfl : n = 0 ∨ n = 1 ∨ n = 2 ∨ n = 3 := by omega
  · rw [Hw.word_writeFields_ne _ _ _ (hne (by decide)), Hw.word_writeFields_ne _ _ _ (hne (by decide)),
      Hw.word_writeFields_ne _ _ _ (hne (by decide)), Hw.bitsOf_writeEntry _ _ hl hb hi hn hin]
  · rw [Hw.word_writeFields_ne _ _ _ (hne (by decide)), Hw.word_writeFields_ne _ _ _ (hne (by decide)),
      Hw.bitsOf_writeEntry _ _ hl hb hi hn hin]
  · rw [Hw.word_writeFields_ne _ _ _ (hne (by decide)), Hw.bitsOf_writeEntry _ _ hl hb hi hn hin]
  · rw [Hw.bitsOf_writeEntry _ _ hl hb hi hn hin]

theorem Hw.putEntry_lastEntry (hl : l < 3) (hb : b < 2) (hi : i < 4096) :
    (h.putEntry l b i v).lastEntry l b i = entryOf [(v 0).toNat, (v 1).toNat, (v 2).toNat, (v 3).toNat] := by
  rw [Hw.lastEntry_eq]
  exact entryOf_congr (v := fun n => (h.putEntry l b i v).word (entryWordAddr l b i n)) fun n lo len hn hin =>
    Hw.putEntry_bits h v hl hb hi hn hin

end

/-- The words an amendment is given, in their registers. -/
def Hw.amendWords (h : Hw) (l : Nat) : List Nat := (List.range 4).map fun w => (h.word (R.LAST_AMEND_W l w)).toNat

theorem Hw.amend_inactive {h : Hw} {l : Nat} (hr : h.lastRun l = false) (i : Nat) (w : List Nat) :
    (h.amend l i w).1 = h.set (R.LAST_STAT_AMEND_ERR l) 1 := by
  rw [Hw.amend, if_pos (by rw [hr]; rfl)]

theorem Hw.amend_fails {h : Hw} {l i c : Nat} {w : List Nat} (hr : h.lastRun l = true)
    (hc : h.amendCode l i (entryOf w) = some c) : (h.amend l i w).1 = h.failRecorded l c i (R.LAST_STAT_AMEND_ERR l) := by
  rw [Hw.amend, if_neg (by rw [hr]; decide)]
  dsimp only
  rw [hc]
  rfl

/-- An amendment that passes its checks: the words are the entry, and the grid takes it up. -/
theorem Hw.amend_passes {h : Hw} {l i : Nat} (hr : h.lastRun l = true) (hc : h.amendCode l i (entryOf (h.amendWords l)) = none) :
    (h.amend l i (h.amendWords l)).1 =
      (h.putEntry l (h.lastActive l) i fun n => h.word (R.LAST_AMEND_W l n)).amendGrid l i (entryOf (h.amendWords l)) := by
  have hword (n : Nat) (hn : n < 4) : BitVec.ofNat 32 (((h.amendWords l)[n]?).getD 0) = h.word (R.LAST_AMEND_W l n) := by
    simp [Hw.amendWords, hn]
  rw [Hw.amend, if_neg (by rw [hr]; decide)]
  dsimp only
  rw [hc, hword 0 (by decide), hword 1 (by decide), hword 2 (by decide), hword 3 (by decide)]
  rfl

section
variable (k : Hw) (l i : Nat) (e : LastEntry)
theorem Hw.amendGrid_word (a : Nat) : (k.amendGrid l i e).word a = k.word a := rfl
theorem Hw.amendGrid_lastEntry (b j : Nat) : (k.amendGrid l i e).lastEntry l b j = k.lastEntry l b j := by
  rw [Hw.lastEntry_eq, Hw.lastEntry_eq, Hw.amendGrid_word, Hw.amendGrid_word, Hw.amendGrid_word, Hw.amendGrid_word]
end

section
variable {s : State} (hup : s.hw.mainUp = true)
include hup

theorem gives_go {P : Hw → Prop} {h : Hw} (l : Fin 3) (i : Fin 4096) (hf : (s.hw.amend l i (s.hw.amendWords l)).1 = h)
    (hP : P h.canon) : Gives (.go l i) s P :=
  gives_of_effect_eq (e := execGo l i s) rfl rfl hup hf hP

theorem gives_go_inactive (l : Fin 3) (i : Fin 4096) (hr : s.hw.lastRun l = false) : Gives (.go l i) s fun h =>
    h.get (R.LAST_STAT_AMEND_ERR l) = 1 ∧ OnlyRegs [R.LAST_STAT l] s.hw h :=
  gives_go hup l i (Hw.amend_inactive hr _ _)
    ⟨Hw.get_set_const _ rfl, (onlyRegs_setAt _ (R.LAST_STAT_AMEND_ERR l) 1 rfl).canon⟩

theorem gives_go_fails (l : Fin 3) (i : Fin 4096) (c : Nat) (hr : s.hw.lastRun l = true)
    (hc : s.hw.amendCode l i (entryOf (s.hw.amendWords l)) = some c) : Gives (.go l i) s fun h =>
    h.get (R.LAST_VAL_CODE l) = c ∧ h.get (R.LAST_VAL_INDEX l) = i.val ∧ h.get (R.LAST_STAT_AMEND_ERR l) = 1 ∧
      OnlyRegs [R.LAST_VAL l, R.LAST_STAT l] s.hw h :=
  gives_go hup l i (Hw.amend_fails hr hc) ⟨Hw.failRecorded_code _ (Hw.amendCode_lt hc) rfl,
    Hw.failRecorded_index _ i.isLt rfl, Hw.get_set_const _ rfl, (Hw.failRecorded_onlyRegs _ rfl).canon⟩

theorem gives_go_passes (l : Fin 3) (i : Fin 4096) (hr : s.hw.lastRun l = true)
    (hc : s.hw.amendCode l i (entryOf (s.hw.amendWords l)) = none) : Gives (.go l i) s fun h =>
    h.lastEntry l (s.hw.lastActive l) i = entryOf (s.hw.amendWords l) ∧
      RegsKept [R.LAST_E0 l (s.hw.lastActive l) i, R.LAST_E1 l (s.hw.lastActive l) i, R.LAST_E2 l (s.hw.lastActive l) i,
        R.LAST_E3 l (s.hw.lastActive l) i] s.hw h ∧ MemKept s.hw h := by
  obtain ⟨hregs, hmem, -⟩ :=
    s.hw.putEntry_onlyRegs (l := l) (b := s.hw.lastActive l) (i := i) fun n => s.hw.word (R.LAST_AMEND_W l n)
  have hentry := s.hw.putEntry_lastEntry (fun n => s.hw.word (R.LAST_AMEND_W l n)) l.isLt (Hw.lastActive_lt (h := s.hw) l) i.isLt
  refine gives_go hup l i (Hw.amend_passes hr hc) ?_
  generalize Hw.putEntry _ _ _ _ _ = k at hregs hmem hentry ⊢
  exact ⟨(Hw.amendGrid_lastEntry k l i (entryOf (s.hw.amendWords l)) _ _).trans hentry,
    RegsKept.canon fun a ha => (Hw.amendGrid_word k _ _ _ a).trans (hregs a ha), MemKept.canon fun a => hmem a⟩

end

/-! ### The obligation -/

/-- Settles O20, command by command: ARM, the three ends of a validation, DISARM, STOP, the three boundaries, the first start
and the three outcomes of GO. -/
theorem lastBanksAndAmendment : Obligations.LastBanksAndAmendment := by
  intro s hup
  refine ⟨gives_arm hup, gives_arm_pending hup, gives_lastValidationDone_fails hup, gives_lastValidationDone_pends hup, ?_,
    gives_disarm hup, gives_stop hup, ?_, ?_, ?_, ?_, gives_go_inactive hup, gives_go_fails hup, gives_go_passes hup⟩
  case refine_1 =>
    intro l ha hv hr he hc
    obtain ⟨h, hex, hb⟩ := gives_lastValidationDone_starts hup l ha hv hr he hc
    exact ⟨h, hex, hb.run, hb.active, hb.pend, hb.swap, hb.occ, hb.cyc, hb.first, hb.k, hb.regs, hb.mem⟩
  case refine_2 => exact fun l T => gives_lastCycleBoundary_stops hup l
  case refine_3 =>
    intro l T hr hs hp he hc hT hreach
    obtain ⟨h, hex, hb⟩ := gives_lastCycleBoundary_swaps hup l hr hs hp he hc hT hreach
    exact ⟨h, hex, hb.run, hb.active, hb.pend, hb.swap, hb.occ, hb.cyc, hb.first, hb.k, hb.regs, hb.mem⟩
  case refine_4 => exact fun l T => gives_lastCycleBoundary_continues hup l
  case refine_5 => exact fun l T => gives_lastBankStart hup l

end Sys2Proof.Machine
end

section
/-!
SUPPORT. Planning what a reserved occurrence sends, and giving it up again, leaves the schedule as it is: the registers from
the Last tables up, the record of every link, memory and elapsed time (R213, R214).
-/
namespace Sys2Proof.Machine

/-- The first register of the Last tables. -/
def lastRegsBase : Nat := 0x40E00000

/-- The registers from the Last tables up, the schedules' records, memory and elapsed time are as they were. -/
structure ScheduleKept (h k : Hw) : Prop where
  regs : ∀ a, lastRegsBase ≤ a → k.word a = h.word a
  mem : MemKept h k
  last : k.last = h.last
  et : k.et = h.et

section
variable {h k : Hw}

theorem ScheduleKept.refl (h : Hw) : ScheduleKept h h := ⟨fun _ _ => rfl, fun _ => rfl, rfl, rfl⟩

theorem ScheduleKept.trans {k' : Hw} (h1 : ScheduleKept h k) (h2 : ScheduleKept k k') : ScheduleKept h k' where
  regs a ha := (h2.regs a ha).trans (h1.regs a ha)
  mem a := (h2.mem a).trans (h1.mem a)
  last := h2.last.trans h1.last
  et := h2.et.trans h1.et

/-- What touches registers below the Last tables alone. -/
theorem ScheduleKept.of_onlyRegs {as : List Nat} (ho : OnlyRegs as h k) (has : ∀ a ∈ as, a < lastRegsBase) :
    ScheduleKept h k where
  regs a ha := ho.1 a fun hin => Nat.not_lt.mpr ha (has a hin)
  mem := ho.2.1
  last := (congrArg Hw.last ho.2.2 :)
  et := ho.et_eq

theorem ScheduleKept.set (hk : ScheduleKept h k) (f : RF) (v : Nat) (hf : f.addr < lastRegsBase) : ScheduleKept h (k.set f v) :=
  hk.trans (.of_onlyRegs (onlyRegs_setAt k f v rfl) (by simpa using hf))

theorem ScheduleKept.fabric (hk : ScheduleKept h k) (f : Fabric) : ScheduleKept h { k with fabric := f } :=
  ⟨hk.regs, hk.mem, hk.last, hk.et⟩

theorem ScheduleKept.time (hk : ScheduleKept h k) (t : TimeUnit) : ScheduleKept h { k with time := t } :=
  ⟨hk.regs, hk.mem, hk.last, hk.et⟩

theorem ScheduleKept.welt (hk : ScheduleKept h k) (w : WeltUnit) : ScheduleKept h { k with welt := w } :=
  ⟨hk.regs, hk.mem, hk.last, hk.et⟩

theorem ScheduleKept.bump (hk : ScheduleKept h k) (f : RF) (n : Nat) (hf : f.addr < lastRegsBase) : ScheduleKept h (k.bump f n) :=
  hk.set f _ hf

theorem ScheduleKept.get (hk : ScheduleKept h k) {f : RF} (hf : lastRegsBase ≤ f.addr) : k.get f = h.get f :=
  Hw.get_congr (hk.regs _ hf)

theorem ScheduleKept.lastOf (hk : ScheduleKept h k) (l : Nat) : k.lastOf l = h.lastOf l := by simp only [Hw.lastOf, hk.last]

end

section
variable (h : Hw)

/-! ### Frames, buffers, queues and the bus -/

theorem Hw.count40_schedule {lo hi half : RF} (n : Nat) (hlo : lo.addr < lastRegsBase) (hhi : hi.addr < lastRegsBase)
    (hhalf : half.addr < lastRegsBase) : ScheduleKept h (h.count40 lo hi half n) :=
  .of_onlyRegs (h.count40_onlyRegs lo hi half n) (by simp [hlo, hhi, hhalf])

theorem Hw.shankError_schedule (m a k : Nat) (w : Bool) : ScheduleKept h (h.shankError m a k w) :=
  .of_onlyRegs (h.shankError_onlyRegs m a k w) (by decide)

theorem Hw.dramFinding_schedule (a : Nat) (u : Bool) : ScheduleKept h (h.dramFinding a u) := by
  have hc : dramChannel a < 2 := Nat.mod_lt _ (by decide)
  unfold Hw.dramFinding
  generalize dramChannel a = c at hc
  have herr := (((ScheduleKept.refl h).set (R.DRC_ERR_LO_ADDR c) a
    (by simp only [R.DRC_ERR_LO_ADDR, R.DRC_ERR_LO, lastRegsBase]; omega)).set (R.DRC_ERR_HI_ADDR c) (a / 2 ^ 32)
    (by simp only [R.DRC_ERR_HI_ADDR, R.DRC_ERR_HI, lastRegsBase]; omega)).set (R.DRC_ERR_HI_UE c) (if u then 1 else 0)
    (by simp only [R.DRC_ERR_HI_UE, R.DRC_ERR_HI, lastRegsBase]; omega)
  dsimp only
  split
  · exact (herr.bump (R.DRC_CNT2_UE_CNT c) 1 (by simp only [R.DRC_CNT2_UE_CNT, R.DRC_CNT2, lastRegsBase]; omega)).set
      R.DRC_STAT_UE_EV 1 (by decide)
  · exact (herr.bump (R.DRC_CNT1_CE_CNT c) 1 (by simp only [R.DRC_CNT1_CE_CNT, R.DRC_CNT1, lastRegsBase]; omega)).set
      R.DRC_STAT_CE_EV 1 (by decide)

theorem Hw.busRead_schedule (m a n : Nat) : ScheduleKept h (h.busRead m a n).1 := by
  unfold Hw.busRead
  split
  · exact h.shankError_schedule _ _ _ _
  · split
    · exact (h.dramFinding_schedule _ _).trans (Hw.shankError_schedule _ _ _ _ _)
    · exact .refl h

theorem Hw.followLinks_schedule (p a n : Nat) : ScheduleKept h (h.followLinks p a n).1 := by
  fun_induction Hw.followLinks h p a n with
  | case1 | case2 => exact .refl _
  | case3 h a n _ k heq =>
    have hread := h.busRead_schedule 19 (h.linkAddr p (h.bufferIndex p a)) 4
    rwa [heq] at hread
  | case4 h a n _ k w heq k' l heq' ih | case5 h a n _ k w heq k' heq' ih =>
    have hread := h.busRead_schedule 19 (h.linkAddr p (h.bufferIndex p a)) 4
    rw [heq] at hread
    rw [heq'] at ih
    exact hread.trans ih

theorem Hw.chainOf_schedule (f : Frame) : ScheduleKept h (h.chainOf f).1 := by
  unfold Hw.chainOf
  split
  · exact h.followLinks_schedule _ _ _
  · exact .refl h

theorem Hw.readLeaving_schedule (m : Nat) (f : Frame) : ScheduleKept h (h.readLeaving m f).1 := by
  have hchain := h.chainOf_schedule f
  unfold Hw.readLeaving
  split
  · next heq =>
    rw [heq] at hchain
    exact hchain.set R.CKR_STAT_BUS_EV 1 (by decide)
  · next heq =>
    rw [heq] at hchain
    dsimp only
    split
    · split
      · exact (hchain.set R.CKR_STAT_BUS_EV 1 (by decide)).trans (Hw.shankError_schedule _ _ _ _ _)
      · exact hchain.trans (Hw.shankError_schedule _ _ _ _ _)
    · exact hchain

theorem Hw.airReadable_schedule (l id : Nat) : ScheduleKept h (h.airReadable l id).1 := h.readLeaving_schedule _ _

theorem Hw.setFree_schedule (p n : Nat) : ScheduleKept h (h.setFree p n) := by
  have hset := (ScheduleKept.refl h).set (R.CKR_POOL_FREE_FREE (p % 16)) n
    (by simp only [R.CKR_POOL_FREE_FREE, R.CKR_POOL_FREE, lastRegsBase]; omega)
  unfold Hw.setFree
  dsimp only
  split
  · exact hset.set (R.CKR_POOL_LOW_LOW (p % 16)) n (by simp only [R.CKR_POOL_LOW_LOW, R.CKR_POOL_LOW, lastRegsBase]; omega)
  · exact hset

theorem Hw.freeFrame_schedule (id : Nat) : ScheduleKept h (h.freeFrame id) := by
  unfold Hw.freeFrame Hw.returnBuffers
  exact (((ScheduleKept.refl h).fabric _).trans (Hw.setFree_schedule _ _ _)).fabric _

theorem Hw.setQueue_schedule (q : Nat) (l : List Nat) : ScheduleKept h (h.setQueue q l) := (ScheduleKept.refl h).fabric _

theorem Hw.modFrame_schedule (id : Nat) (g : Frame → Frame) : ScheduleKept h (h.modFrame id g) :=
  (ScheduleKept.refl h).fabric _

/-- The registers of a queue lie below the Last tables. -/
theorem tmQ_below (q : Nat) : R.TM_Q_W4 (q % 16384) < lastRegsBase ∧ R.TM_Q_W5 (q % 16384) < lastRegsBase := by
  simp only [R.TM_Q_W4, R.TM_Q_W5, lastRegsBase]; omega

theorem Hw.strictBytes_schedule (q : Nat) : ScheduleKept h (h.strictBytes q) := by
  unfold Hw.strictBytes
  split
  · have he : h.get (R.TM_Q_W6_EGRESS q) < 2 ^ 7 := h.get_lt _
    exact (ScheduleKept.refl h).set (R.TM_EG_STAT_STRICT_BYTES _) _
      (by simp only [R.TM_EG_STAT_STRICT_BYTES, R.TM_EG_STAT, lastRegsBase]; omega)
  · exact .refl h

theorem Hw.takeFrom_schedule (q id : Nat) : ScheduleKept h (h.takeFrom q id) := by
  obtain ⟨h4, h5⟩ := tmQ_below q
  unfold Hw.takeFrom
  exact ((((h.setQueue_schedule q _).set (R.TM_Q_W4_FRAMES _) _ h4).set (R.TM_Q_W5_BUFS _) _ h5).trans
    (Hw.strictBytes_schedule _ q)).trans (Hw.modFrame_schedule _ id _)

theorem Hw.putBack_schedule (q id : Nat) : ScheduleKept h (h.putBack q id) := by
  obtain ⟨h4, h5⟩ := tmQ_below q
  unfold Hw.putBack
  exact (((h.modFrame_schedule id _).trans (Hw.setQueue_schedule _ q _)).set (R.TM_Q_W4_FRAMES _) _ h4).set
    (R.TM_Q_W5_BUFS _) _ h5

/-! ### MPDUs -/

theorem Hw.twoStep_schedule {p : Nat} (hp : p < 16) (f : Frame) (t : Stamp) (v d a : Bool) (n : Nat) :
    ScheduleKept h (h.twoStep p f t v d a n) := by
  have hstat : R.TIME_PSTAT p < lastRegsBase := by simp only [R.TIME_PSTAT, lastRegsBase]; omega
  have hlost : R.TIME_LOST p < lastRegsBase := by simp only [R.TIME_LOST, lastRegsBase]; omega
  unfold Hw.twoStep Hw.tsqWrite
  dsimp only
  split
  · split
    · exact ((ScheduleKept.refl h).time _).set (R.TIME_PSTAT_LEVEL p) _ hstat
    · exact ((((ScheduleKept.refl h).time _).set (R.TIME_LOST_LOST_TAG p) _ hlost).bump (R.TIME_LOST_LOST_CNT p) _ hlost).set
        (R.TIME_PSTAT_OVF p) _ hstat
  · exact .refl h

theorem Hw.forgetMpdu_schedule (id : Nat) : ScheduleKept h (h.forgetMpdu id) := (ScheduleKept.refl h).welt _

theorem Hw.countSta_schedule (s : Nat) {n : Nat} (hn : n < 8) (c : Nat) : ScheduleKept h (h.countSta s n c) := by
  have hs : s % 1024 < 1024 := Nat.mod_lt _ (by decide)
  unfold Hw.countSta
  generalize s % 1024 = x at hs
  exact h.count40_schedule c (by simp only [R.STA_STAT_LO_CNT, R.STA_STAT_LO, lastRegsBase]; omega)
    (by simp only [R.STA_STAT_HI_CNT, R.STA_STAT_HI, lastRegsBase]; omega) (by simp only [R.WELT_HALF, lastRegsBase]; omega)

theorem Hw.dropAir_schedule {l : Nat} (hl : l < 3) (sta : Option Nat) (id : Nat) : ScheduleKept h (h.dropAir l sta id) := by
  unfold Hw.dropAir
  cases sta with
  | none =>
    exact ((h.twoStep_schedule (by omega) _ _ _ _ _ _).trans (Hw.forgetMpdu_schedule _ id)).trans (Hw.freeFrame_schedule _ id)
  | some s =>
    exact (((h.countSta_schedule s (by decide) 1).trans (Hw.twoStep_schedule _ (by omega) _ _ _ _ _ _)).trans
      (Hw.forgetMpdu_schedule _ id)).trans (Hw.freeFrame_schedule _ id)

theorem Hw.slideWindow_schedule (s t : Nat) (b : Bool) : ScheduleKept h (h.slideWindow s t b) := by
  unfold Hw.slideWindow
  split
  · exact .refl h
  · exact (ScheduleKept.refl h).welt _

theorem Hw.dropMpdu_schedule {l : Nat} (hl : l < 3) (id : Nat) (m : Mpdu) : ScheduleKept h (h.dropMpdu l id m) := by
  unfold Hw.dropMpdu
  cases m.sta with
  | none => exact h.dropAir_schedule hl none id
  | some s =>
    dsimp only
    split
    · exact (h.dropAir_schedule hl (some s) id).trans (Hw.slideWindow_schedule _ _ _ _)
    · exact h.dropAir_schedule hl (some s) id

theorem Hw.dropPulled_schedule {l : Nat} (hl : l < 3) (sta : Option Nat) (id : Nat) : ScheduleKept h (h.dropPulled l sta id) := by
  unfold Hw.dropPulled
  split
  · exact h.dropMpdu_schedule hl _ _
  · exact h.dropAir_schedule hl _ _

theorem Hw.nextPn_schedule {s : Nat} (hs : s < 1024) {k : Option MpduKey} (hk : ∀ q ∈ k, q.id < 2) {r : Hw × Nat}
    (hr : h.nextPn (some s) k = some r) : ScheduleKept h r.1 := by
  cases k with
  | none => cases hr; exact .refl h
  | some k =>
    simp only [Hw.nextPn, Option.ite_none_left_eq_some] at hr
    have hid := hk k rfl
    cases hr.2
    exact ((ScheduleKept.refl h).set (R.STA_TXPN_LO_PN s k.id) _
      (by simp only [R.STA_TXPN_LO_PN, R.STA_TXPN_LO, lastRegsBase]; omega)).set (R.STA_TXPN_HI_PN s k.id) _
      (by simp only [R.STA_TXPN_HI_PN, R.STA_TXPN_HI, lastRegsBase]; omega)

theorem Hw.pairwiseKey_id {s : Nat} {q : MpduKey} (hq : q ∈ h.pairwiseKey s) : q.id < 2 := by
  unfold Hw.pairwiseKey at hq
  dsimp only at hq
  split at hq
  · cases hq; exact h.get_lt (R.STA_W0_TX_KEYID s)
  · cases hq

theorem Hw.newMpdu_schedule {k : Hw} {id s t : Nat} (hs : s < 1024) (hm : h.newMpdu id s t = some k) : ScheduleKept h k := by
  simp only [Hw.newMpdu, Option.map_eq_some_iff] at hm
  obtain ⟨r, hr, rfl⟩ := hm
  exact (h.nextPn_schedule hs (fun q => h.pairwiseKey_id) hr).welt _

/-! ### Pulling and forming -/

theorem Hw.pull_schedule {l s : Nat} (hl : l < 3) (hs : s < 1024) (t n : Nat) (ids : List Nat) :
    ScheduleKept h (h.pull l s t n ids).1 := by
  have hlife : (R.WELT_CNT_2_LIFE_DROP l).addr < lastRegsBase := by
    simp only [R.WELT_CNT_2_LIFE_DROP, R.WELT_CNT_2, lastRegsBase]; omega
  induction ids generalizing h n with
  | nil => exact .refl h
  | cons id rest ih =>
    unfold Hw.pull
    split
    · exact .refl h
    · extract_lets q take
      have htake (k : Hw) : ScheduleKept k (take k).1 := by
        have hread := k.airReadable_schedule l id
        simp only [take]
        split
        · next heq =>
          rw [heq] at hread
          exact (hread.trans (Hw.takeFrom_schedule _ q id)).trans (ih _ _)
        · next heq =>
          rw [heq] at hread
          exact ((hread.trans (Hw.takeFrom_schedule _ q id)).trans (Hw.dropPulled_schedule _ hl _ _)).trans (ih _ _)
      split
      · exact ((h.takeFrom_schedule q id).trans (Hw.dropPulled_schedule _ hl _ _)).trans (ih _ _)
      · split
        · exact (((h.takeFrom_schedule q id).bump _ 1 hlife).trans (Hw.dropPulled_schedule _ hl _ _)).trans (ih _ _)
        · split
          · split
            · exact htake h
            · exact .refl h
          · split
            · exact .refl h
            · split
              · next k hk => exact (h.newMpdu_schedule hs hk).trans (htake k)
              · exact (((h.takeFrom_schedule q id).trans (Hw.dropAir_schedule _ hl _ _)).set R.WELT_STAT_PN_EV 1
                  (by decide)).trans (ih _ _)

theorem Hw.pullListed_schedule {l s : Nat} (hl : l < 3) (hs : s < 1024) (o : Occurrence) (fit : Nat) :
    ScheduleKept h (h.pullListed l o s fit).1 := by
  refine List.foldlRecOn (motive := fun r : Hw × List Nat => ScheduleKept h r.1) _ _ (.refl h) fun r hr t _ => ?_
  dsimp only
  split
  · exact hr
  · exact hr.trans (r.1.pull_schedule hl hs t _ _)

/-- A pull in the pattern of a match. -/
theorem Hw.schedule_of_pullListed {k : Hw} {l s fit : Nat} {o : Occurrence} {r : List Nat} (hl : l < 3) (hs : s < 1024)
    (hp : h.pullListed l o s fit = (k, r)) : ScheduleKept h k := by
  have hpull := h.pullListed_schedule hl hs o fit
  rwa [hp] at hpull

theorem Hw.muUser_schedule (l w : Nat) : ScheduleKept h (h.muUser l w).1 := by
  unfold Hw.muUser
  dsimp only
  split
  · exact ⟨fun _ _ => rfl, fun _ => rfl, rfl, rfl⟩
  · exact .refl h

theorem Hw.listedExchange_schedule (l : Nat) (o : Occurrence) (k : ExchangeKind) (ids words : List Nat) (resp : Bool) :
    ScheduleKept h (h.listedExchange l o k ids words resp).1 :=
  List.foldlRecOn (motive := fun r : Hw × List MuUser => ScheduleKept h r.1) words _ (.refl h)
    fun r hr w _ => hr.trans (r.1.muUser_schedule l w)

theorem Hw.planReserved_schedule {l : Nat} (hl : l < 3) (fit : Nat) (o : Occurrence) :
    ScheduleKept h (h.planReserved l fit o).1 := by
  have hsta (w : Nat) : w % 1024 < 1024 := Nat.mod_lt _ (by decide)
  unfold Hw.planReserved
  extract_lets n left some'
  split
  · split
    · exact .refl h
    · extract_lets w
      split
      · next hp => exact h.schedule_of_pullListed hl (hsta w) hp
      · next k ids _ hp =>
        exact (h.schedule_of_pullListed hl (hsta w) hp).trans (k.listedExchange_schedule l o .data ids [w] true)
  · split
    next k ids ws hf =>
    have hfold : ScheduleKept h k := by
      have hmotive := List.foldlRecOn (motive := fun r : Hw × List Nat × List Nat => ScheduleKept h r.1) o.list
        (fun ((h, ids, ws) : Hw × List Nat × List Nat) w =>
          match h.pullListed l o (w % 1024) fit with
          | (h, []) => (h, ids, ws)
          | (h, more) => (h, ids ++ more, ws ++ [w])) (b := (h, [], [])) (.refl h) fun r hr w _ => by
            dsimp only
            split
            · next hp => exact hr.trans (r.1.schedule_of_pullListed hl (hsta w) hp)
            · next hp => exact hr.trans (r.1.schedule_of_pullListed hl (hsta w) hp)
      exact (congrArg (fun r : Hw × List Nat × List Nat => ScheduleKept h r.1) hf).mp hmotive
    split
    · exact hfold
    · exact hfold.trans (k.listedExchange_schedule l o .mu ids ws true)
  · split
    · exact .refl h
    · exact h.listedExchange_schedule l o .trigger [] (o.list.filter fun w => h.triggerable l o (w % 1024)) false
  · split
    · exact .refl h
    · exact h.listedExchange_schedule l o .beacon [] [] false
  · exact .refl h

end

end Sys2Proof.Machine
end

section
/-!
SUPPORT. A Last entry starts (R210, R213, R216, R217): what the schedule of a link changes is seen in the registers of the Last
tables and in the link's record, and the notes taken of an occurrence leave its phase, its start and its list.
-/
namespace Sys2Proof.Machine

/-! ### What changes the schedule alone -/

/-- A register that is none of the Last tables'. -/
def offLast (a : Nat) : Prop := a < 0x40E00000 ∨ 0x40F00000 ≤ a

/-- Registers of the Last tables and the records of the schedules have changed, and no more of what a link looks at. -/
structure LastOnly (h k : Hw) : Prop where
  regs : ∀ a, offLast a → k.word a = h.word a
  mem : k.mem = h.mem
  slices : k.slices = h.slices
  timers : k.timers = h.timers
  coex : k.coex = h.coex
  welt : k.welt = h.welt
  txStatus : k.txStatus = h.txStatus
  et : k.et = h.et
  etFrac : k.etFrac = h.etFrac
  tbLock : k.tbLock = h.tbLock

section
variable {h k : Hw} {l : Nat}

theorem LastOnly.refl (h : Hw) : LastOnly h h := ⟨fun _ _ => rfl, rfl, rfl, rfl, rfl, rfl, rfl, rfl, rfl, rfl⟩

theorem LastOnly.trans {k' : Hw} (h1 : LastOnly h k) (h2 : LastOnly k k') : LastOnly h k' where
  regs a ha := (h2.regs a ha).trans (h1.regs a ha)
  mem := h2.mem.trans h1.mem
  slices := h2.slices.trans h1.slices
  timers := h2.timers.trans h1.timers
  coex := h2.coex.trans h1.coex
  welt := h2.welt.trans h1.welt
  txStatus := h2.txStatus.trans h1.txStatus
  et := h2.et.trans h1.et
  etFrac := h2.etFrac.trans h1.etFrac
  tbLock := h2.tbLock.trans h1.tbLock

theorem LastOnly.modLast (hk : LastOnly h k) (l : Nat) (f : LastSlice → LastSlice) : LastOnly h (k.modLast l f) :=
  ⟨hk.regs, hk.mem, hk.slices, hk.timers, hk.coex, hk.welt, hk.txStatus, hk.et, hk.etFrac, hk.tbLock⟩

theorem LastOnly.set (hk : LastOnly h k) (f : RF) (v : Nat) (hf : 0x40E00000 ≤ f.addr ∧ f.addr < 0x40F00000) :
    LastOnly h (k.set f v) where
  regs a ha := (Hw.word_set_ne k f v (by unfold offLast at ha; omega)).trans (hk.regs a ha)
  mem := hk.mem
  slices := hk.slices
  timers := hk.timers
  coex := hk.coex
  welt := hk.welt
  txStatus := hk.txStatus
  et := hk.et
  etFrac := hk.etFrac
  tbLock := hk.tbLock

theorem LastOnly.bump (hk : LastOnly h k) (f : RF) (n : Nat) (hf : 0x40E00000 ≤ f.addr ∧ f.addr < 0x40F00000) :
    LastOnly h (k.bump f n) := hk.set f _ hf

theorem LastOnly.get (hk : LastOnly h k) {f : RF} (hf : offLast f.addr) : k.get f = h.get f := Hw.get_congr (hk.regs _ hf)
theorem LastOnly.slice (hk : LastOnly h k) (x : Nat) : k.slice x = h.slice x := congrArg (kgetD _ · x) hk.slices
theorem LastOnly.exchange (hk : LastOnly h k) (x : Nat) : k.exchange x = h.exchange x := by rw [Hw.exchange, hk.welt, Hw.exchange]

/-- Links and the medium look at none of the Last tables. -/
structure SameLink (h k : Hw) : Prop where
  get : ∀ f : RF, offLast f.addr → k.get f = h.get f
  slice : ∀ x, k.slice x = h.slice x
  timers : k.timers = h.timers
  coex : k.coex = h.coex

theorem LastOnly.sameLink (hk : LastOnly h k) : SameLink h k := ⟨fun _ => hk.get, hk.slice, hk.timers, hk.coex⟩
theorem TimePassed.sameLink (ht : TimePassed h k) : SameLink h k := ⟨fun f _ => ht.get f, ht.slice, ht.timers, ht.coex⟩

theorem SameLink.trans {k' : Hw} (h1 : SameLink h k) (h2 : SameLink k k') : SameLink h k' :=
  ⟨fun f hf => (h2.get f hf).trans (h1.get f hf), fun x => (h2.slice x).trans (h1.slice x), h2.timers.trans h1.timers,
    h2.coex.trans h1.coex⟩

theorem SameLink.flag (hs : SameLink h k) {f : RF} (hf : offLast f.addr) : k.flag f = h.flag f := by
  rw [Hw.flag, hs.get f hf, Hw.flag]

/-- Whether a link is available is seen in its slice, its registers and the coexistence ports. -/
theorem SameLink.linkAvailable (hs : SameLink h k) (l : Nat) : k.linkAvailable l = h.linkAvailable l := by
  have hstate : k.get (R.RFS_FSTAT_STATE l) = h.get (R.RFS_FSTAT_STATE l) :=
    hs.get _ (.inr (by simp only [R.RFS_FSTAT_STATE, R.RFS_FSTAT]; omega))
  have hsynth : k.synth l = h.synth l := hs.get _ (.inr (by simp only [R.RFS_SYNTH_STATE, R.RFS_SYNTH]; omega))
  have hvswr (c : Nat) : k.flag (R.RFS_VSWR_TX_OFF l c) = h.flag (R.RFS_VSWR_TX_OFF l c) :=
    hs.flag (.inr (by simp only [R.RFS_VSWR_TX_OFF, R.RFS_VSWR]; omega))
  have hport (n : Nat) (hn : n < 3) : (k.cxCovers n 1 l && (k.cx n).grant) = (h.cxCovers n 1 l && (h.cx n).grant) := by
    simp only [Hw.cxCovers, Hw.cx, hs.coex,
      hs.get (R.SYS_CX_CTL_MODE n) (.inl (by simp only [R.SYS_CX_CTL_MODE, R.SYS_CX_CTL]; omega)),
      hs.get (R.SYS_CX_CTL_SLICE_MASK n) (.inl (by simp only [R.SYS_CX_CTL_SLICE_MASK, R.SYS_CX_CTL]; omega))]
  have hports : ((List.range 3).any fun n => k.cxCovers n 1 l && (k.cx n).grant) =
      (List.range 3).any fun n => h.cxCovers n 1 l && (h.cx n).grant := by
    rw [Bool.eq_iff_iff, List.any_eq_true, List.any_eq_true]
    exact exists_congr fun n => and_congr_right fun hn => by rw [hport n (List.mem_range.mp hn)]
  simp only [Hw.linkAvailable, hstate, hsynth, hs.slice, Hw.running, hs.timers, hvswr, hports]

/-- A transmission that has begun to set up, has. -/
theorem SameLink.inSetting (hs : SameLink h k) (he : h.et ≤ k.et) (x : Nat) (hset : h.inSetting x = true) :
    k.inSetting x = true := by
  unfold Hw.inSetting at hset ⊢
  rw [hs.slice]
  split
  · next p hp =>
    rw [hp] at hset
    simp only [decide_eq_true_eq] at hset ⊢
    omega
  · next hp =>
    rw [hp] at hset
    cases hset

theorem SameLink.partnerOnAir (hs : SameLink h k) (he : h.et ≤ k.et) (x : Nat) (hair : h.partnerOnAir x = true) :
    k.partnerOnAir x = true := by
  have hok : k.flag (R.RFS_STR_STAT_STR_OK 1) = h.flag (R.RFS_STR_STAT_STR_OK 1) := hs.flag (.inr (by decide))
  have hpartner : k.nstrPartner x = h.nstrPartner x := by rw [Hw.nstrPartner, hok, Hw.nstrPartner]
  unfold Hw.partnerOnAir at hair ⊢
  rw [hpartner]
  split
  · next y hy =>
    rw [hy] at hair
    exact hs.inSetting he y hair
  · next hy =>
    rw [hy] at hair
    cases hair

/-- A medium found idle stays so while time alone passes. -/
theorem SameLink.mediumIdle (hs : SameLink h k) (he : h.et ≤ k.et) (x : Nat) (hidle : h.mediumIdle x = true) :
    k.mediumIdle x = true := by
  have hair := hs.partnerOnAir he x
  simp only [Hw.mediumIdle, Hw.receiving, Hw.transmitting, hs.slice, Bool.and_eq_true, Bool.or_eq_true, Bool.not_eq_true',
    decide_eq_true_eq] at hidle ⊢
  obtain ⟨⟨⟨hrx, henergy⟩, htx⟩, hbusy⟩ := hidle
  exact ⟨⟨⟨hrx.imp_right fun h => ⟨h.1, hair h.2⟩, henergy.imp_right hair⟩, htx⟩, hbusy.trans he⟩

end

/-! ### The notes taken of an occurrence (R217) -/

/-- Notes were taken of the occurrence of link `l`, and its phase, its start and its list stand. -/
structure NotesTaken (l : Nat) (h k : Hw) : Prop where
  occ : ∀ o, (h.lastOf l).occ = some o →
    ∃ o', (k.lastOf l).occ = some o' ∧ o'.phase = o.phase ∧ o'.start = o.start ∧ o'.list = o.list
  stat : k.word (R.LAST_STAT l) = h.word (R.LAST_STAT l)
  skip : k.get (R.LAST_CNT_0_SKIP_UNAVAIL l) = h.get (R.LAST_CNT_0_SKIP_UNAVAIL l)
  mem : k.mem = h.mem

section
variable {h k : Hw} {l : Nat}

theorem NotesTaken.refl (l : Nat) (h : Hw) : NotesTaken l h h := ⟨fun o ho => ⟨o, ho, rfl, rfl, rfl⟩, rfl, rfl, rfl⟩

theorem NotesTaken.trans {k' : Hw} (h1 : NotesTaken l h k) (h2 : NotesTaken l k k') : NotesTaken l h k' where
  occ o ho := by
    obtain ⟨o1, ho1, hp1, hs1, hl1⟩ := h1.occ o ho
    obtain ⟨o2, ho2, hp2, hs2, hl2⟩ := h2.occ o1 ho1
    exact ⟨o2, ho2, hp2.trans hp1, hs2.trans hs1, hl2.trans hl1⟩
  stat := h2.stat.trans h1.stat
  skip := h2.skip.trans h1.skip
  mem := h2.mem.trans h1.mem

/-- What leaves the registers and the records of the Last tables takes no note. -/
theorem NotesTaken.of_kept (hocc : k.lastOf l = h.lastOf l)
    (hw : ∀ a, 0x40E00000 ≤ a → a < 0x40F00000 → k.word a = h.word a) (hl : l < 3) (hm : k.mem = h.mem) : NotesTaken l h k where
  occ o ho := ⟨o, by rw [hocc, ho], rfl, rfl, rfl⟩
  stat := hw _ (by simp only [R.LAST_STAT]; omega) (by simp only [R.LAST_STAT]; omega)
  skip := Hw.get_congr (hw _ (by simp only [R.LAST_CNT_0_SKIP_UNAVAIL, R.LAST_CNT_0]; omega)
    (by simp only [R.LAST_CNT_0_SKIP_UNAVAIL, R.LAST_CNT_0]; omega))
  mem := hm

theorem Hw.modOcc_occ (h : Hw) (l : Nat) (f : Occurrence → Occurrence) :
    ((h.modOcc l f).lastOf l).occ = ((h.lastOf l).occ).map f := by rw [Hw.modOcc, Hw.modLast_lastOf]

theorem Hw.noteForeign_notes (h : Hw) (l : Nat) : NotesTaken l h (h.noteForeign l) := by
  obtain e | e := h.noteForeign_cases l <;> rw [e]
  · exact NotesTaken.refl l h
  · refine ⟨fun o ho => ⟨{ o with foreign := true }, ?_, rfl, rfl, rfl⟩, ?_, ?_, rfl⟩
    · rw [Hw.bump_lastOf, Hw.modOcc_occ, ho]; rfl
    · exact Hw.word_set_ne _ _ _ (by simp only [R.LAST_STAT, R.LAST_CNT_0_FOREIGN, R.LAST_CNT_0]; omega)
    · exact Hw.get_bump_apart _ _ _ _ (apart_of_bits rfl)

theorem Hw.noteOverlap_notes (h : Hw) (l : Nat) : NotesTaken l h (h.noteOverlap l) := by
  obtain e | e := h.noteOverlap_cases l <;> rw [e]
  · exact NotesTaken.refl l h
  · refine ⟨fun o ho => ⟨{ o with overlap := true }, ?_, rfl, rfl, rfl⟩, ?_, ?_, rfl⟩
    · rw [Hw.bump_lastOf, Hw.modOcc_occ, ho]; rfl
    · exact Hw.word_set_ne _ _ _ (by simp only [R.LAST_STAT, R.LAST_CNT_1_CAL_OVERLAP, R.LAST_CNT_1]; omega)
    · exact Hw.get_bump_apart _ _ _ _ (apart_of_offsets rfl rfl rfl)

theorem Hw.noteForeign_lastOnly (h : Hw) (hl : l < 3) : LastOnly h (h.noteForeign l) := by
  obtain e | e := h.noteForeign_cases l <;> rw [e]
  · exact LastOnly.refl h
  · exact ((LastOnly.refl h).modLast l _).bump (R.LAST_CNT_0_FOREIGN l) 1
      (by simp only [R.LAST_CNT_0_FOREIGN, R.LAST_CNT_0]; omega)

theorem Hw.noteOverlap_lastOnly (h : Hw) (hl : l < 3) : LastOnly h (h.noteOverlap l) := by
  obtain e | e := h.noteOverlap_cases l <;> rw [e]
  · exact LastOnly.refl h
  · exact ((LastOnly.refl h).modLast l _).bump (R.LAST_CNT_1_CAL_OVERLAP l) 1
      (by simp only [R.LAST_CNT_1_CAL_OVERLAP, R.LAST_CNT_1]; omega)

theorem Hw.dropReception_last (h : Hw) (y : Nat) : (h.dropReception y).last = h.last := by
  have hstop : (h.stopTimeline y).last = h.last := by simp [Hw.stopTimeline]
  unfold Hw.dropReception Hw.idleBegins
  exact ((Hw.idleGain_rest _ y).proj Hw.last).trans hstop

/-- A reception dropped is none of the schedule's. -/
theorem Hw.dropReception_notes (h : Hw) (hl : l < 3) (y : Nat) : NotesTaken l h (h.dropReception y) := by
  refine .of_kept ?_ (fun a hlo hhi => h.dropReception_regs y a fun hin => ?_) hl (h.dropReception_mem y)
  · rw [Hw.lastOf, h.dropReception_last y, Hw.lastOf]
  · simp only [idleRegs, List.mem_flatMap, List.mem_cons, List.not_mem_nil, or_false, R.RFS_GAIN, R.RFS_DIV] at hin
    omega

end

end Sys2Proof.Machine
end

section
/-!
SUPPORT. LAST_ENTRY_START (R210, R212, R213, R216, R217): a quiet entry, one skipped, and one that opens with its clear check.
-/
namespace Sys2Proof.Machine

/-- The occurrence `o` is in progress on link `l`. -/
def Hw.putOcc (h : Hw) (l : Nat) (o : Occurrence) : Hw := h.modLast l fun s => { s with occ := some o }

theorem Hw.putOcc_occ (h : Hw) (l : Nat) (o : Occurrence) : ((h.putOcc l o).lastOf l).occ = some o := by
  rw [Hw.putOcc, Hw.modLast_lastOf]

/-- An occurrence begun in its clear check, with what is noted of it at its start. -/
def Hw.checkOpened (h : Hw) (l : Nat) (o : Occurrence) (e : LastEntry) : Hw :=
  let h := h.putOcc l { o with phase := .check }
  let h := if (h.slice l).cal.isSome then h.noteOverlap l else h
  if e.reserved && h.granted l then h.noteForeign l else h

theorem Hw.nstrPartner_lt {h : Hw} {x y : Nat} (hy : h.nstrPartner x = some y) : y < 3 := by
  unfold Hw.nstrPartner at hy
  split at hy
  · cases hy
  · cases hy
    split <;> decide

/-- A collision of the pair counts in Welt's registers. -/
theorem Hw.bumpCollide_notes (h : Hw) {l y : Nat} (hl : l < 3) (hy : y < 3) :
    NotesTaken l h (h.bump (R.WELT_CNT_1_NSTR_COLLIDE y)) :=
  .of_kept rfl (fun a hlo _ => Hw.word_set_ne _ _ _ (by simp only [R.WELT_CNT_1_NSTR_COLLIDE, R.WELT_CNT_1]; omega)) hl rfl

section
variable (h : Hw) {l : Nat} (o : Occurrence) (e : LastEntry)

/-- The notes taken at the start of an occurrence are the schedule's, and leave the occurrence's phase, start and list. -/
theorem Hw.checkOpened_notes (hl : l < 3) : NotesTaken l (h.putOcc l { o with phase := .check }) (h.checkOpened l o e) ∧
    LastOnly h (h.checkOpened l o e) := by
  have hput : LastOnly h (h.putOcc l { o with phase := .check }) := (LastOnly.refl h).modLast l _
  unfold Hw.checkOpened
  generalize h.putOcc l { o with phase := .check } = k at hput
  have hoverlap : NotesTaken l k (if (k.slice l).cal.isSome then k.noteOverlap l else k) ∧
      LastOnly h (if (k.slice l).cal.isSome then k.noteOverlap l else k) := by
    split
    · exact ⟨k.noteOverlap_notes l, hput.trans (k.noteOverlap_lastOnly hl)⟩
    · exact ⟨NotesTaken.refl l k, hput⟩
  dsimp only
  generalize (if (k.slice l).cal.isSome then k.noteOverlap l else k) = k' at hoverlap
  obtain ⟨hnotes, honly⟩ := hoverlap
  split
  · exact ⟨hnotes.trans (k'.noteForeign_notes l), honly.trans (k'.noteForeign_lastOnly hl)⟩
  · exact ⟨hnotes, honly⟩

variable {e}

theorem Hw.openEntry_quiet (he : e.type = 4) : h.openEntry l o e = (h.putOcc l { o with phase := .quiet }).cancelResponse l := by
  rw [Hw.openEntry, he]
  rfl

/-- An entry that is neither quiet nor for calibration is skipped on an unavailable link. -/
theorem Hw.openEntry_skip (hl : l < 3) (h4 : e.type ≠ 4) (h5 : e.type ≠ 5) (hav : h.linkAvailable l = false) :
    h.openEntry l o e =
      ((h.checkOpened l o e).modOcc l fun o => { o with phase := .skipped }).bump (R.LAST_CNT_0_SKIP_UNAVAIL l) := by
  have hno : (!(h.checkOpened l o e).linkAvailable l) = true := by
    rw [(h.checkOpened_notes o e hl).2.sameLink.linkAvailable, hav]; rfl
  unfold Hw.openEntry
  split
  · contradiction
  · contradiction
  · exact if_pos hno

/-- On an available link it opens with its clear check. -/
theorem Hw.openEntry_check (hl : l < 3) (h4 : e.type ≠ 4) (h5 : e.type ≠ 5) (hav : h.linkAvailable l = true) :
    NotesTaken l (h.putOcc l { o with phase := .check }) (h.openEntry l o e) := by
  obtain ⟨hnotes, honly⟩ := h.checkOpened_notes o e hl
  have hyes : ¬(!(h.checkOpened l o e).linkAvailable l) = true := by
    rw [honly.sameLink.linkAvailable, hav]; decide
  unfold Hw.openEntry
  split
  · contradiction
  · contradiction
  · extract_lets put k1 k2 k3 k4
    have hk3 : k3 = h.checkOpened l o e := rfl
    clear_value k3
    subst hk3
    rw [if_neg hyes]
    have hcut : NotesTaken l (h.checkOpened l o e) k4 := by
      simp only [k4]
      split
      · next y hy =>
        split
        · exact (Hw.dropReception_notes _ hl y).trans (Hw.bumpCollide_notes _ hl (Hw.nstrPartner_lt hy))
        · exact NotesTaken.refl l _
      · exact NotesTaken.refl l _
    split
    · exact hnotes.trans hcut
    · exact (hnotes.trans hcut).trans (k4.noteForeign_notes l)

end

/-! ### The start of the next entry -/

/-- LAST_STAT shows entry `i`, and the search goes on after it. -/
def Hw.entryStarted (h : Hw) (l i : Nat) : Hw :=
  ((h.modLast l fun s => { s with next := i + 1 }).set (R.LAST_STAT_ENTRY l) i).set (R.LAST_STAT_IN_ENTRY l) 1

/-- The occurrence of entry `e`, number `i` of the bank in force, that starts at `T` on link `l`. -/
def Hw.occurrenceAt (h : Hw) (l i T : Nat) (e : LastEntry) : Occurrence :=
  { entry := i, words := h.lastWords l (h.lastActive l) i, start := T, startEt := h.et,
    list := (List.range e.nusr).map fun n => (h.word (R.LAST_LIST l (h.lastActive l) (e.list + n))).toNat, phase := .check,
    foreign := false, overlap := false, unfit := 0, position := 0 }

section
variable (h : Hw) (l i : Nat)

theorem Hw.entryStarted_inEntry : (h.entryStarted l i).get (R.LAST_STAT_IN_ENTRY l) = 1 := Hw.get_set_const _ rfl

theorem Hw.entryStarted_entry : (h.entryStarted l i).get (R.LAST_STAT_ENTRY l) = i % 4096 := by
  rw [Hw.entryStarted, Hw.get_set_apart _ _ _ _ (apart_of_bits rfl), Hw.get_set_self _ _ _ (fits_of_bits rfl)]
  rfl

theorem Hw.entryStarted_regs : RegsKept [R.LAST_STAT l] h (h.entryStarted l i) :=
  (((RegsKept.refl _ h).modLast l _).set (R.LAST_STAT_ENTRY l) i (.head _)).set (R.LAST_STAT_IN_ENTRY l) 1 (.head _)

theorem Hw.entryStarted_mem : (h.entryStarted l i).mem = h.mem := by
  rw [Hw.entryStarted, Hw.set_mem, Hw.set_mem, Hw.modLast_mem]

variable {l}

theorem Hw.entryStarted_lastOnly (hl : l < 3) : LastOnly h (h.entryStarted l i) :=
  (((LastOnly.refl h).modLast l _).set (R.LAST_STAT_ENTRY l) i (by simp only [R.LAST_STAT_ENTRY, R.LAST_STAT]; omega)).set
    (R.LAST_STAT_IN_ENTRY l) 1 (by simp only [R.LAST_STAT_IN_ENTRY, R.LAST_STAT]; omega)

variable {h}

/-- The words and the list of an occurrence are those of the registers when it starts, which time has not changed. -/
theorem TimePassed.occurrenceAt_words {k : Hw} (ht : TimePassed h k) (T : Nat) (e : LastEntry) :
    (k.occurrenceAt l i T e).words = h.lastWords l (h.lastActive l) i := by
  have hactive : k.lastActive l = h.lastActive l := ht.get _
  simp only [Hw.occurrenceAt, hactive, Hw.lastWords, ht.word]

theorem TimePassed.occurrenceAt_list {k : Hw} (ht : TimePassed h k) (T : Nat) (e : LastEntry) :
    (k.occurrenceAt l i T e).list =
      (List.range e.nusr).map fun n => (h.word (R.LAST_LIST l (h.lastActive l) (e.list + n))).toNat := by
  have hactive : k.lastActive l = h.lastActive l := ht.get _
  simp only [Hw.occurrenceAt, hactive, ht.word]

end

section
variable {s : State} (hup : s.hw.mainUp = true) {T i : Nat} {e : LastEntry}
include hup

theorem gives_lastEntryStart {P : Hw → Prop} (l : Fin 3) (hr : s.hw.lastRun l = true) (hf : (s.hw.lastOf l).first = none)
    (ho : (s.hw.lastOf l).occ = none) (hn : s.hw.nextEntry l = some (i, e))
    (hT : T = ntAdd (s.hw.lastOf l).start (ntOfMicros e.start)) (hreach : (s.hw.advanceToNt T).ntReached T = true)
    (hP : P (((s.hw.advanceToNt T).entryStarted l i).openEntry l ((s.hw.advanceToNt T).occurrenceAt l i T e) e).canon) :
    Gives (.lastEntryStart l) s P := by
  subst hT
  refine gives_of_effect_eq (e := execLastEntryStart l s) rfl rfl hup ?_ hP
  dsimp only
  rw [if_pos (by rw [hr, hf, ho]; rfl), hn]
  exact Hw.atNt_reached hreach _

end

end Sys2Proof.Machine
end

section
/-!
SUPPORT. Quiet, skipped and checked entries, and the start of an entry on the link.
-/
namespace Sys2Proof.Machine

/-! ### Quiet, skipped, checked -/

/-- Entry `i` of link `l` has started, and LAST_STAT alone of the registers has changed. -/
structure EntryStarted (l i : Nat) (h k : Hw) : Prop where
  inEntry : k.get (R.LAST_STAT_IN_ENTRY l) = 1
  entry : k.get (R.LAST_STAT_ENTRY l) = i % 4096
  regs : RegsKept [R.LAST_STAT l] h k
  mem : k.mem = h.mem
  avail : k.linkAvailable l = h.linkAvailable l

theorem Hw.entryStarted_started {h k : Hw} {l : Nat} (hl : l < 3) (hpass : TimePassed h k) (i : Nat) :
    EntryStarted l i h (k.entryStarted l i) where
  inEntry := k.entryStarted_inEntry l i
  entry := k.entryStarted_entry l i
  regs := (hpass.regs _).trans (k.entryStarted_regs l i)
  mem := (k.entryStarted_mem l i).trans hpass.mem
  avail := (hpass.sameLink.trans (k.entryStarted_lastOnly i hl).sameLink).linkAvailable l

/-- A field of LAST_STAT after the notes of a start. -/
theorem NotesTaken.stat_get {k k' : Hw} {l : Nat} {o : Occurrence} (hn : NotesTaken l (k.putOcc l o) k') {g : RF}
    (hg : g.addr = R.LAST_STAT l) :
    k'.get g = k.get g := by
  refine Hw.get_congr ?_
  rw [hg, hn.stat]
  rfl

section
variable {h k : Hw} {l i : Nat} {o : Occurrence} {e : LastEntry} (hk : EntryStarted l i h k)
include hk

theorem EntryStarted.quiet (he : e.type = 4) :
    (∃ o' ∈ ((k.openEntry l o e).lastOf l).occ, o'.phase = .quiet ∧ o'.start = o.start ∧ o'.words = o.words) ∧
    (k.openEntry l o e).get (R.LAST_STAT_IN_ENTRY l) = 1 ∧ (k.openEntry l o e).get (R.LAST_STAT_ENTRY l) = i % 4096 ∧
    RegsKept [R.LAST_STAT l] h (k.openEntry l o e) ∧ MemKept h (k.openEntry l o e) := by
  rw [Hw.openEntry_quiet _ _ he]
  exact ⟨⟨_, k.putOcc_occ l _, rfl, rfl, rfl⟩, hk.inEntry, hk.entry, hk.regs, MemKept.of_mem hk.mem⟩

theorem EntryStarted.skipped (hl : l < 3) (h4 : e.type ≠ 4) (h5 : e.type ≠ 5) (hav : h.linkAvailable l = false) :
    (((k.openEntry l o e).lastOf l).occ.any fun o => o.phase == .skipped) = true ∧
    (k.openEntry l o e).get (R.LAST_CNT_0_SKIP_UNAVAIL l) = min (h.get (R.LAST_CNT_0_SKIP_UNAVAIL l) + 1) 65535 ∧
    (k.openEntry l o e).get (R.LAST_STAT_IN_ENTRY l) = 1 ∧ (k.openEntry l o e).get (R.LAST_STAT_ENTRY l) = i % 4096 ∧
    MemKept h (k.openEntry l o e) := by
  obtain ⟨hnotes, honly⟩ := k.checkOpened_notes o e hl
  obtain ⟨o', ho', -⟩ := hnotes.occ _ (k.putOcc_occ l _)
  have hskip : (k.checkOpened l o e).get (R.LAST_CNT_0_SKIP_UNAVAIL l) = h.get (R.LAST_CNT_0_SKIP_UNAVAIL l) := by
    rw [hnotes.skip, Hw.putOcc, Hw.modLast_get]
    exact hk.regs.get (by simp [R.LAST_CNT_0_SKIP_UNAVAIL, R.LAST_CNT_0, R.LAST_STAT])
  have hapart {g : RF} (hg : g.addr = R.LAST_STAT l) : apart (R.LAST_CNT_0_SKIP_UNAVAIL l) g :=
    .inl (by simp [hg, R.LAST_CNT_0_SKIP_UNAVAIL, R.LAST_CNT_0, R.LAST_STAT])
  rw [Hw.openEntry_skip _ _ hl h4 h5 (hk.avail.trans hav)]
  refine ⟨?_, ?_, ?_, ?_, MemKept.of_mem ?_⟩
  · rw [Hw.bump_lastOf, Hw.modOcc_occ, ho']; rfl
  · rw [Hw.get_bump_self _ _ _ (fits_of_bits rfl), Hw.modOcc, Hw.modLast_get, hskip]; rfl
  · rw [Hw.get_bump_apart _ _ _ _ (hapart rfl), Hw.modOcc, Hw.modLast_get, hnotes.stat_get rfl, hk.inEntry]
  · rw [Hw.get_bump_apart _ _ _ _ (hapart rfl), Hw.modOcc, Hw.modLast_get, hnotes.stat_get rfl, hk.entry]
  · rw [Hw.bump_mem, Hw.modOcc, Hw.modLast_mem, honly.mem, hk.mem]

theorem EntryStarted.checked (hl : l < 3) (h4 : e.type ≠ 4) (h5 : e.type ≠ 5) (hav : h.linkAvailable l = true) :
    (∃ o' ∈ ((k.openEntry l o e).lastOf l).occ, o'.phase = .check ∧ o'.start = o.start ∧ o'.list = o.list) ∧
    (k.openEntry l o e).get (R.LAST_STAT_IN_ENTRY l) = 1 ∧ (k.openEntry l o e).get (R.LAST_STAT_ENTRY l) = i % 4096 ∧
    MemKept h (k.openEntry l o e) := by
  have hnotes := k.openEntry_check o hl h4 h5 (hk.avail.trans hav)
  obtain ⟨o', ho', hphase, hstart, hlist⟩ := hnotes.occ _ (k.putOcc_occ l _)
  refine ⟨⟨o', ho', hphase, hstart, hlist⟩, (hnotes.stat_get rfl).trans hk.inEntry, (hnotes.stat_get rfl).trans hk.entry,
    MemKept.of_mem ?_⟩
  rw [hnotes.mem, Hw.putOcc, Hw.modLast_mem, hk.mem]

end

section
variable {s : State} (hup : s.hw.mainUp = true)
include hup

theorem gives_lastEntryStart_quiet (l : Fin 3) (i T : Nat) (e : LastEntry) (hr : s.hw.lastRun l = true)
    (hf : (s.hw.lastOf l).first = none) (ho : (s.hw.lastOf l).occ = none) (hn : s.hw.nextEntry l = some (i, e))
    (he : e.type = 4) (hT : T = ntAdd (s.hw.lastOf l).start (ntOfMicros e.start))
    (hreach : (s.hw.advanceToNt T).ntReached T = true) : Gives (.lastEntryStart l) s fun h =>
      (∃ o ∈ (h.lastOf l).occ, o.phase = .quiet ∧ o.start = T ∧ o.words = s.hw.lastWords l (s.hw.lastActive l) i) ∧
      h.get (R.LAST_STAT_IN_ENTRY l) = 1 ∧ h.get (R.LAST_STAT_ENTRY l) = i % 4096 ∧ RegsKept [R.LAST_STAT l] s.hw h ∧
      MemKept s.hw h := by
  have hpass := s.hw.advanceToNt_timePassed T
  obtain ⟨⟨o, hmem, hphase, hstart, hwords⟩, hin, hentry, hregs, hkept⟩ :=
    (Hw.entryStarted_started l.isLt hpass i).quiet (o := (s.hw.advanceToNt T).occurrenceAt l i T e) he
  exact gives_lastEntryStart hup l hr hf ho hn hT hreach
    ⟨⟨o, hmem, hphase, hstart, hwords.trans (hpass.occurrenceAt_words i T e)⟩, hin, hentry, hregs.canon, hkept.canon⟩

theorem gives_lastEntryStart_skip (l : Fin 3) (i T : Nat) (e : LastEntry) (hr : s.hw.lastRun l = true)
    (hf : (s.hw.lastOf l).first = none) (ho : (s.hw.lastOf l).occ = none) (hn : s.hw.nextEntry l = some (i, e))
    (he : e.type ≠ 4 ∧ e.type ≠ 5) (hav : s.hw.linkAvailable l = false)
    (hT : T = ntAdd (s.hw.lastOf l).start (ntOfMicros e.start)) (hreach : (s.hw.advanceToNt T).ntReached T = true) :
    Gives (.lastEntryStart l) s fun h =>
      ((h.lastOf l).occ.any fun o => o.phase == .skipped) = true ∧
      h.get (R.LAST_CNT_0_SKIP_UNAVAIL l) = min (s.hw.get (R.LAST_CNT_0_SKIP_UNAVAIL l) + 1) 65535 ∧
      h.get (R.LAST_STAT_IN_ENTRY l) = 1 ∧ h.get (R.LAST_STAT_ENTRY l) = i % 4096 ∧ MemKept s.hw h := by
  obtain ⟨hocc, hskip, hin, hentry, hmem⟩ := (Hw.entryStarted_started l.isLt (s.hw.advanceToNt_timePassed T) i).skipped
    (o := (s.hw.advanceToNt T).occurrenceAt l i T e) l.isLt he.1 he.2 hav
  exact gives_lastEntryStart hup l hr hf ho hn hT hreach ⟨hocc, hskip, hin, hentry, hmem.canon⟩

theorem gives_lastEntryStart_check (l : Fin 3) (i T : Nat) (e : LastEntry) (hr : s.hw.lastRun l = true)
    (hf : (s.hw.lastOf l).first = none) (ho : (s.hw.lastOf l).occ = none) (hn : s.hw.nextEntry l = some (i, e))
    (he : e.type ≠ 4 ∧ e.type ≠ 5) (hav : s.hw.linkAvailable l = true)
    (hT : T = ntAdd (s.hw.lastOf l).start (ntOfMicros e.start)) (hreach : (s.hw.advanceToNt T).ntReached T = true) :
    Gives (.lastEntryStart l) s fun h =>
      (∃ o ∈ (h.lastOf l).occ, o.phase = .check ∧ o.start = T ∧
        o.list = (List.range e.nusr).map fun n => (s.hw.word (R.LAST_LIST l (s.hw.lastActive l) (e.list + n))).toNat) ∧
      h.get (R.LAST_STAT_IN_ENTRY l) = 1 ∧ h.get (R.LAST_STAT_ENTRY l) = i % 4096 ∧ MemKept s.hw h := by
  have hpass := s.hw.advanceToNt_timePassed T
  obtain ⟨⟨o, hmem, hphase, hstart, hlist⟩, hin, hentry, hkept⟩ := (Hw.entryStarted_started l.isLt hpass i).checked
    (o := (s.hw.advanceToNt T).occurrenceAt l i T e) l.isLt he.1 he.2 hav
  exact gives_lastEntryStart hup l hr hf ho hn hT hreach
    ⟨⟨o, hmem, hphase, hstart, hlist.trans (hpass.occurrenceAt_list i T e)⟩, hin, hentry, hkept.canon⟩

end

end Sys2Proof.Machine
end

section
/-!
SUPPORT. CLEAR_CHECK_END (R216, R217): the content is committed, at the check's end or after a foreign transmission, and a busy
medium is noted.
-/
namespace Sys2Proof.Machine

/-! ### The content committed -/

/-- The occurrence of link `l` is committed, to the exchange `e` if there is one. -/
def Hw.committed (h : Hw) (l : Nat) (e : Option Exchange) (pos unfit : Nat) : Hw :=
  let h := h.modOcc l fun o => { o with phase := .committed, position := pos, unfit := unfit, startEt := h.et }
  e.elim h fun e => h.setExchange l e

/-- What link `l` commits in occurrence `o`. -/
def Hw.planned (h : Hw) (l fit : Nat) (o : Occurrence) : Hw :=
  (h.planReserved l fit o).1.committed l (h.planReserved l fit o).2.1 (h.planReserved l fit o).2.2.1
    (h.planReserved l fit o).2.2.2

theorem Hw.committed_lastOf (h : Hw) (l : Nat) (e : Option Exchange) (pos unfit : Nat) :
    ((h.committed l e pos unfit).lastOf l).occ = ((h.lastOf l).occ).map fun o =>
      { o with phase := .committed, position := pos, unfit := unfit, startEt := h.et } := by
  cases e <;> exact h.modOcc_occ l _

theorem Hw.committed_word (h : Hw) (l : Nat) (e : Option Exchange) (pos unfit a : Nat) :
    (h.committed l e pos unfit).word a = h.word a := by cases e <;> rfl

theorem Hw.committed_mem (h : Hw) (l : Nat) (e : Option Exchange) (pos unfit : Nat) :
    (h.committed l e pos unfit).mem = h.mem := by cases e <;> rfl

theorem Hw.committed_exchange (h : Hw) (l : Nat) (e : Exchange) (pos unfit : Nat) :
    (h.committed l (some e) pos unfit).exchange l = some e := kget_kput_self _ _ _

/-- The occurrence `q` committed at the instant of `k`, and neither the Last tables nor memory changed. -/
structure Committed (l : Nat) (q : Occurrence) (k h : Hw) : Prop where
  occ : ∃ p, (h.lastOf l).occ = some p ∧ p.phase = .committed ∧ p.foreign = q.foreign ∧ p.startEt = k.et
  regs : ∀ a, lastRegsBase ≤ a → h.word a = k.word a
  mem : MemKept k h

theorem ScheduleKept.committed {k h : Hw} {l : Nat} {q : Occurrence} (hs : ScheduleKept k h) (hocc : (k.lastOf l).occ = some q)
    (e : Option Exchange) (pos unfit : Nat) : Committed l q k (h.committed l e pos unfit) where
  occ := by
    refine ⟨{ q with phase := .committed, position := pos, unfit := unfit, startEt := h.et }, ?_, rfl, rfl, hs.et⟩
    rw [Hw.committed_lastOf, hs.lastOf, hocc]
    rfl
  regs a ha := (h.committed_word l e pos unfit a).trans (hs.regs a ha)
  mem a := by rw [← hs.mem a, Hw.byte, h.committed_mem l e pos unfit, Hw.byte]

theorem Hw.planned_committed {k : Hw} {l : Nat} {q : Occurrence} (hl : l < 3) (hocc : (k.lastOf l).occ = some q) (fit : Nat)
    (o : Occurrence) : Committed l q k (k.planned l fit o) := (k.planReserved_schedule hl fit o).committed hocc _ _ _

/-- The content of a beacon entry with a beacon length is the beacon. -/
theorem Hw.planReserved_beacon {k : Hw} {l fit : Nat} {o : Occurrence} (ht : o.type = 3)
    (hlen : k.get (R.LAST_BCN_LEN_LEN l) ≠ 0) : k.planReserved l fit o =
      (k, some ⟨.beacon, 3, [], false, false, false, true, false, [], [], [], 0, some (entryOf o.words).bw⟩, 0, 0) := by
  simp only [Hw.planReserved, ht, if_neg hlen]
  rfl

/-- A beacon committed changes no register and no byte. -/
theorem TimePassed.planned_beacon {h k : Hw} {l fit : Nat} {o : Occurrence} (hpass : TimePassed h k) (ht : o.type = 3)
    (hlen : 0 < h.get (R.LAST_BCN_LEN_LEN l)) : (k.planned l fit o).exchange l =
      some ⟨.beacon, 3, [], false, false, false, true, false, [], [], [], 0, some (entryOf o.words).bw⟩ ∧
      RegsKept [] h (k.planned l fit o) ∧ MemKept h (k.planned l fit o) := by
  rw [Hw.planned, Hw.planReserved_beacon ht (by rw [hpass.get]; omega)]
  exact ⟨k.committed_exchange _ _ _ _, fun a _ => (k.committed_word _ _ _ _ a).trans (hpass.word a),
    MemKept.of_mem ((k.committed_mem _ _ _ _).trans hpass.mem)⟩

section
variable {s : State} (hup : s.hw.mainUp = true) {P : Hw → Prop} {o : Occurrence}
include hup

/-- The medium idle since the start: the content is committed PIFS after it. -/
theorem gives_clearCheckEnd_onTime (l : Fin 3) (fit T : Nat) (hocc : (s.hw.lastOf l).occ = some o) (hphase : o.phase = .check)
    (hsince : s.hw.idleSince l ≤ o.startEt) (hidle : s.hw.mediumIdle l = true) (hav : s.hw.linkAvailable l = true)
    (hex : s.hw.exchange l = none) (hT : T = ntAdd o.start (ntOfNanos (s.hw.pifs l)))
    (hreach : (s.hw.advanceToNt T).ntReached T = true) (hP : P ((s.hw.advanceToNt T).planned l fit o).canon) :
    Gives (.clearCheckEnd l fit) s P := by
  have hpass := s.hw.advanceToNt_timePassed T
  have hgo : ¬(!(s.hw.advanceToNt T).mediumIdle l || !(s.hw.advanceToNt T).linkAvailable l ||
      ((s.hw.advanceToNt T).exchange l).isSome) = true := by
    rw [hpass.sameLink.mediumIdle hpass.et_le l hidle, hpass.sameLink.linkAvailable, hav, hpass.exchange, hex]
    decide
  subst hT
  refine gives_of_effect_eq (e := execClearCheckEnd l fit s) rfl rfl hup ?_ hP
  dsimp only
  rw [hocc]
  dsimp only
  rw [if_neg (not_not_intro hphase), if_neg (Nat.not_lt.mpr hsince), if_neg (by rw [hidle]; decide), Hw.atNt_reached hreach,
    if_neg hgo]
  rcases hplan : (s.hw.advanceToNt (ntAdd o.start (ntOfNanos (s.hw.pifs l)))).planReserved l fit o with ⟨h', e, pos, unfit⟩
  rw [Hw.planned, hplan]
  cases e <;> rfl

/-- The medium idle again after a foreign transmission: the content is committed PIFS after that. -/
theorem gives_clearCheckEnd_late (l : Fin 3) (fit : Nat) (hocc : (s.hw.lastOf l).occ = some o) (hphase : o.phase = .check)
    (hsince : o.startEt < s.hw.idleSince l) (hidle : s.hw.mediumIdle l = true) (hav : s.hw.linkAvailable l = true)
    (hex : s.hw.exchange l = none)
    (hP : P (((s.hw.noteForeign l).advanceTo (s.hw.idleSince l + s.hw.pifs l)).planned l fit o).canon) :
    Gives (.clearCheckEnd l fit) s P := by
  have honly := s.hw.noteForeign_lastOnly l.isLt
  have hpass := (s.hw.noteForeign l).advanceTo_timePassed (s.hw.idleSince l + s.hw.pifs l)
  have hlink := honly.sameLink.trans hpass.sameLink
  have hgo : ¬(!((s.hw.noteForeign l).advanceTo (s.hw.idleSince l + s.hw.pifs l)).mediumIdle l ||
      !((s.hw.noteForeign l).advanceTo (s.hw.idleSince l + s.hw.pifs l)).linkAvailable l ||
      (((s.hw.noteForeign l).advanceTo (s.hw.idleSince l + s.hw.pifs l)).exchange l).isSome) = true := by
    rw [hlink.mediumIdle (honly.et.symm.le.trans hpass.et_le) l hidle, hlink.linkAvailable, hav, hpass.exchange,
      honly.exchange, hex]
    decide
  refine gives_of_effect_eq (e := execClearCheckEnd l fit s) rfl rfl hup ?_ hP
  dsimp only
  rw [hocc]
  dsimp only
  rw [if_neg (not_not_intro hphase), if_pos hsince, if_neg hgo]
  rcases hplan : ((s.hw.noteForeign l).advanceTo (s.hw.idleSince l + s.hw.pifs l)).planReserved l fit o with
    ⟨h', e, pos, unfit⟩
  rw [Hw.planned, hplan]
  cases e <;> rfl

end

/-! ### The clauses -/

/-- A busy medium in the clear check is noted. -/
theorem Hw.noteForeign_check {h : Hw} {l : Nat} {o : Occurrence} (hocc : (h.lastOf l).occ = some o) (hphase : o.phase = .check)
    (hf : o.foreign = false) :
    h.noteForeign l = (h.modOcc l fun o => { o with foreign := true }).bump (R.LAST_CNT_0_FOREIGN l) := by
  unfold Hw.noteForeign
  rw [hocc]
  exact if_neg (by rw [hf, hphase]; decide)

theorem Hw.noteForeign_check_occ {h : Hw} {l : Nat} {o : Occurrence} (hocc : (h.lastOf l).occ = some o)
    (hphase : o.phase = .check) (hf : o.foreign = false) : ((h.noteForeign l).lastOf l).occ = some { o with foreign := true } := by
  rw [Hw.noteForeign_check hocc hphase hf, Hw.bump_lastOf, Hw.modOcc_occ, hocc]
  rfl

theorem Hw.noteForeign_check_count {h : Hw} {l : Nat} {o : Occurrence} (hocc : (h.lastOf l).occ = some o)
    (hphase : o.phase = .check) (hf : o.foreign = false) :
    (h.noteForeign l).get (R.LAST_CNT_0_FOREIGN l) = min (h.get (R.LAST_CNT_0_FOREIGN l) + 1) 65535 := by
  rw [Hw.noteForeign_check hocc hphase hf, Hw.get_bump_self _ _ _ (fits_of_bits rfl)]
  rfl

/-- Elapsed time at an instant depends on the clock alone. -/
theorem Hw.advanceTo_et_congr {h k : Hw} (he : k.et = h.et) (hl : k.tbLock = h.tbLock) (hf : k.etFrac = h.etFrac) (d : Nat) :
    (k.advanceTo d).et = (h.advanceTo d).et := by
  unfold Hw.advanceTo
  rw [he]
  split
  · unfold Hw.advance
    rw [hl]
    split
    · dsimp only; rw [he]
    · dsimp only; rw [he, hf]
  · exact he

section
variable {s : State} (hup : s.hw.mainUp = true)
include hup

theorem gives_clearCheckEnd_commits (l : Fin 3) (fit T : Nat) (o : Occurrence) (hocc : (s.hw.lastOf l).occ = some o)
    (hphase : o.phase = .check) (hsince : s.hw.idleSince l ≤ o.startEt) (hidle : s.hw.mediumIdle l = true)
    (hav : s.hw.linkAvailable l = true) (hex : s.hw.exchange l = none) (hT : T = ntAdd o.start (ntOfNanos (s.hw.pifs l)))
    (hreach : (s.hw.advanceToNt T).ntReached T = true) : Gives (.clearCheckEnd l fit) s fun h =>
      ((h.lastOf l).occ.any fun p => p.phase == .committed && p.startEt == (s.hw.advanceToNt T).et) = true ∧
      MemKept s.hw h := by
  have hpass := s.hw.advanceToNt_timePassed T
  obtain ⟨⟨p, hp, hphase', -, het⟩, -, hmem⟩ :=
    Hw.planned_committed l.isLt ((congrArg LastSlice.occ (hpass.lastOf l)).trans hocc) fit o
  refine gives_clearCheckEnd_onTime hup l fit T hocc hphase hsince hidle hav hex hT hreach ⟨?_, ?_⟩
  · rw [Hw.canon_lastOf, hp]
    simp [hphase', het]
  · exact MemKept.canon fun a => (hmem a).trans (hpass.memKept a)

theorem gives_clearCheckEnd_beacon (l : Fin 3) (fit T : Nat) (o : Occurrence) (hocc : (s.hw.lastOf l).occ = some o)
    (hphase : o.phase = .check) (ht : o.type = 3) (hlen : 0 < s.hw.get (R.LAST_BCN_LEN_LEN l))
    (hsince : s.hw.idleSince l ≤ o.startEt) (hidle : s.hw.mediumIdle l = true) (hav : s.hw.linkAvailable l = true)
    (hex : s.hw.exchange l = none) (hT : T = ntAdd o.start (ntOfNanos (s.hw.pifs l)))
    (hreach : (s.hw.advanceToNt T).ntReached T = true) : Gives (.clearCheckEnd l fit) s fun h =>
      h.exchange l = some ⟨.beacon, 3, [], false, false, false, true, false, [], [], [], 0, some (entryOf o.words).bw⟩ ∧
      RegsKept [] s.hw h ∧ MemKept s.hw h := by
  obtain ⟨hx, hregs, hmem⟩ := (s.hw.advanceToNt_timePassed T).planned_beacon (fit := fit) ht hlen
  exact gives_clearCheckEnd_onTime hup l fit T hocc hphase hsince hidle hav hex hT hreach ⟨hx, hregs.canon, hmem.canon⟩

theorem gives_clearCheckEnd_busy (l : Fin 3) (fit : Nat) (o : Occurrence) (hocc : (s.hw.lastOf l).occ = some o)
    (hphase : o.phase = .check) (hf : o.foreign = false) (hsince : s.hw.idleSince l ≤ o.startEt)
    (hbusy : s.hw.mediumIdle l = false) : Gives (.clearCheckEnd l fit) s fun h =>
      h.get (R.LAST_CNT_0_FOREIGN l) = min (s.hw.get (R.LAST_CNT_0_FOREIGN l) + 1) 65535 ∧
      (h.lastOf l).occ = some { o with foreign := true } ∧ RegsKept [R.LAST_CNT_0 l] s.hw h ∧ MemKept s.hw h := by
  have hkept := s.hw.noteForeign_kept l
  refine gives_of_effect_eq (e := execClearCheckEnd l fit s) rfl rfl hup (h := s.hw.noteForeign l) ?_
    ⟨Hw.noteForeign_check_count hocc hphase hf, Hw.noteForeign_check_occ hocc hphase hf, hkept.regs.canon, hkept.mem.canon⟩
  dsimp only
  rw [hocc]
  dsimp only
  rw [if_neg (not_not_intro hphase), if_neg (Nat.not_lt.mpr hsince), if_pos (by rw [hbusy]; rfl)]

theorem gives_clearCheckEnd_afterBusy (l : Fin 3) (fit : Nat) (o : Occurrence) (hocc : (s.hw.lastOf l).occ = some o)
    (hphase : o.phase = .check) (hf : o.foreign = false) (hsince : o.startEt < s.hw.idleSince l)
    (hidle : s.hw.mediumIdle l = true) (hav : s.hw.linkAvailable l = true) (hex : s.hw.exchange l = none) :
    Gives (.clearCheckEnd l fit) s fun h =>
      ((h.lastOf l).occ.any fun p => p.phase == .committed && p.foreign &&
        p.startEt == (s.hw.advanceTo (s.hw.idleSince l + s.hw.pifs l)).et) = true ∧
      h.get (R.LAST_CNT_0_FOREIGN l) = min (s.hw.get (R.LAST_CNT_0_FOREIGN l) + 1) 65535 ∧ MemKept s.hw h := by
  have honly := s.hw.noteForeign_lastOnly l.isLt
  have hpass := (s.hw.noteForeign l).advanceTo_timePassed (s.hw.idleSince l + s.hw.pifs l)
  have hocc' := (congrArg LastSlice.occ (hpass.lastOf l)).trans (Hw.noteForeign_check_occ hocc hphase hf)
  obtain ⟨⟨p, hp, hphase', hforeign, het⟩, hregs, hmem⟩ := Hw.planned_committed l.isLt hocc' fit o
  refine gives_clearCheckEnd_late hup l fit hocc hphase hsince hidle hav hex ⟨?_, ?_, ?_⟩
  · rw [Hw.canon_lastOf, hp]
    simp [hphase', het, hforeign, Hw.advanceTo_et_congr honly.et honly.tbLock honly.etFrac]
  · rw [Hw.canon_get, Hw.get_congr (hregs _ (by simp only [R.LAST_CNT_0_FOREIGN, R.LAST_CNT_0, lastRegsBase]; omega)),
      hpass.get, Hw.noteForeign_check_count hocc hphase hf]
  · exact MemKept.canon fun a => (hmem a).trans ((hpass.memKept a).trans (MemKept.of_mem honly.mem a))

end

end Sys2Proof.Machine
end

section
/-!
SUPPORT. FIRST_PPDU_START and LAST_ENTRY_END (R210, R213, R214, R217): what the first PPDU of an occurrence counts, the end of
an occurrence, and a reserved exchange that is given up with it.
-/
namespace Sys2Proof.Machine

/-! ### Counters that rise under a condition -/

/-- A counter that rises if `c` holds. -/
def Hw.bumpIf (h : Hw) (c : Prop) [Decidable c] (f : RF) : Hw := if c then h.bump f else h

section
variable (h : Hw) (c : Prop) [Decidable c] (f : RF)

theorem Hw.bumpIf_cases : h.bumpIf c f = h.bump f ∨ h.bumpIf c f = h := by
  by_cases hc : c
  · exact .inl (if_pos hc)
  · exact .inr (if_neg hc)

theorem Hw.bumpIf_self (hf : fits f) : (h.bumpIf c f).get f = if c then min (h.get f + 1) (2 ^ f.len - 1) else h.get f := by
  unfold Hw.bumpIf
  split
  · exact h.get_bump_self f 1 hf
  · rfl

theorem Hw.bumpIf_apart {g : RF} (hg : apart f g) : (h.bumpIf c f).get g = h.get g := by
  obtain e | e := h.bumpIf_cases c f <;> rw [e]
  exact h.get_bump_apart f g 1 hg

theorem Hw.bumpIf_mem : (h.bumpIf c f).mem = h.mem := by obtain e | e := h.bumpIf_cases c f <;> rw [e]; rfl
theorem Hw.bumpIf_et : (h.bumpIf c f).et = h.et := by obtain e | e := h.bumpIf_cases c f <;> rw [e]; rfl
theorem Hw.bumpIf_lastOf (l : Nat) : (h.bumpIf c f).lastOf l = h.lastOf l := by
  obtain e | e := h.bumpIf_cases c f <;> rw [e]; rfl
theorem Hw.bumpIf_slice (x : Nat) : (h.bumpIf c f).slice x = h.slice x := by obtain e | e := h.bumpIf_cases c f <;> rw [e]; rfl
theorem Hw.bumpIf_exchange (x : Nat) : (h.bumpIf c f).exchange x = h.exchange x := by
  obtain e | e := h.bumpIf_cases c f <;> rw [e]; rfl
theorem Hw.bumpIf_txStatus : (h.bumpIf c f).txStatus = h.txStatus := by obtain e | e := h.bumpIf_cases c f <;> rw [e]; rfl

variable {h}

theorem RegsKept.bumpIf {as : List Nat} {h' : Hw} (hk : RegsKept as h h') (hf : f.addr ∈ as) :
    RegsKept as h (h'.bumpIf c f) := by
  obtain e | e := h'.bumpIf_cases c f <;> rw [e]
  · exact hk.bump f 1 hf
  · exact hk

end

/-! ### FIRST_PPDU_START (R213, R216, R217, R226) -/

/-- The instant of the first PPDU of occurrence `o`. -/
def Hw.firstPpduAt (h : Hw) (l delay : Nat) (o : Occurrence) : Nat :=
  match (h.slice l).tx with
  | some p => max (o.startEt + 10000) p.t0
  | none => if (h.exchange l).isSome && (h.slice l).held.isNone then o.startEt + 10000 + delay else o.startEt + 10000

/-- What is counted at the instant `a` of the first PPDU of occurrence `o`, and the phase that follows. -/
def Hw.firstPpdu (h : Hw) (l a : Nat) (o : Occurrence) : Hw :=
  (((h.bumpIf (o.startEt + 10000 < a) (R.LAST_CNT_1_LATE l)).bumpIf (0 < o.unfit) (R.LAST_CNT_3_CAPACITY l)).bumpIf
    ((o.reserved && decide (o.list.length ≤ o.position) && o.unfit == 0) = true) (R.LAST_CNT_2_EMPTY l)).modOcc l fun o =>
      { o with phase := if o.type = 3 then .open else .serving }

section
variable {h k : Hw} {l : Nat} {o : Occurrence} (hpass : TimePassed h k) (a : Nat)
include hpass

theorem TimePassed.firstPpdu_occ (hocc : (h.lastOf l).occ = some o) : ((k.firstPpdu l a o).lastOf l).occ =
    some { o with phase := if o.type = 3 then .open else .serving } := by
  rw [Hw.firstPpdu, Hw.modOcc_occ, Hw.bumpIf_lastOf, Hw.bumpIf_lastOf, Hw.bumpIf_lastOf, hpass.lastOf, hocc]
  rfl

theorem TimePassed.firstPpdu_late : (k.firstPpdu l a o).get (R.LAST_CNT_1_LATE l) =
    if o.startEt + 10000 < a then min (h.get (R.LAST_CNT_1_LATE l) + 1) 65535 else h.get (R.LAST_CNT_1_LATE l) := by
  rw [Hw.firstPpdu, Hw.modOcc, Hw.modLast_get, Hw.bumpIf_apart _ _ _ (apart_of_offsets rfl rfl rfl),
    Hw.bumpIf_apart _ _ _ (apart_of_offsets rfl rfl rfl), Hw.bumpIf_self _ _ _ (fits_of_bits rfl), hpass.get]
  rfl

theorem TimePassed.firstPpdu_capacity : (k.firstPpdu l a o).get (R.LAST_CNT_3_CAPACITY l) =
    if 0 < o.unfit then min (h.get (R.LAST_CNT_3_CAPACITY l) + 1) 65535 else h.get (R.LAST_CNT_3_CAPACITY l) := by
  rw [Hw.firstPpdu, Hw.modOcc, Hw.modLast_get, Hw.bumpIf_apart _ _ _ (apart_of_offsets rfl rfl rfl),
    Hw.bumpIf_self _ _ _ (fits_of_bits rfl), Hw.bumpIf_apart _ _ _ (apart_of_offsets rfl rfl rfl), hpass.get]
  rfl

theorem TimePassed.firstPpdu_empty : (k.firstPpdu l a o).get (R.LAST_CNT_2_EMPTY l) =
    if o.reserved = true ∧ o.list.length ≤ o.position ∧ o.unfit = 0 then min (h.get (R.LAST_CNT_2_EMPTY l) + 1) 65535
    else h.get (R.LAST_CNT_2_EMPTY l) := by
  have hiff : (o.reserved && decide (o.list.length ≤ o.position) && o.unfit == 0) = true ↔
      o.reserved = true ∧ o.list.length ≤ o.position ∧ o.unfit = 0 := by simp [and_assoc]
  rw [Hw.firstPpdu, Hw.modOcc, Hw.modLast_get, Hw.bumpIf_self _ _ _ (fits_of_bits rfl),
    Hw.bumpIf_apart _ _ _ (apart_of_offsets rfl rfl rfl), Hw.bumpIf_apart _ _ _ (apart_of_offsets rfl rfl rfl), hpass.get]
  exact if_congr hiff rfl rfl

theorem TimePassed.firstPpdu_regs :
    RegsKept [R.LAST_CNT_1 l, R.LAST_CNT_2 l, R.LAST_CNT_3 l] h (k.firstPpdu l a o) :=
  ((((hpass.regs _).bumpIf _ (R.LAST_CNT_1_LATE l) (.head _)).bumpIf _ (R.LAST_CNT_3_CAPACITY l)
    (.tail _ (.tail _ (.head _)))).bumpIf _ (R.LAST_CNT_2_EMPTY l) (.tail _ (.head _))).modLast l _

theorem TimePassed.firstPpdu_mem : (k.firstPpdu l a o).mem = h.mem := by
  rw [Hw.firstPpdu, Hw.modOcc, Hw.modLast_mem, Hw.bumpIf_mem, Hw.bumpIf_mem, Hw.bumpIf_mem, hpass.mem]

end

theorem Hw.firstPpdu_et (k : Hw) (l a : Nat) (o : Occurrence) : (k.firstPpdu l a o).et = k.et := by
  have hmod (h : Hw) (f : Occurrence → Occurrence) : (h.modOcc l f).et = h.et := rfl
  rw [Hw.firstPpdu, hmod, Hw.bumpIf_et, Hw.bumpIf_et, Hw.bumpIf_et]

theorem gives_firstPpduStart {s : State} (hup : s.hw.mainUp = true) (l : Fin 3) (delay a : Nat) (o : Occurrence)
    (hocc : (s.hw.lastOf l).occ = some o) (hphase : o.phase = .committed) (ha : a = s.hw.firstPpduAt l delay o) :
    Gives (.firstPpduStart l delay) s fun h =>
      ((h.lastOf l).occ.any fun p => p.phase == (if o.type = 3 then OccPhase.open else OccPhase.serving)) = true ∧
      h.et = (s.hw.advanceTo a).et ∧
      h.get (R.LAST_CNT_1_LATE l) = (if o.startEt + 10000 < a then min (s.hw.get (R.LAST_CNT_1_LATE l) + 1) 65535
        else s.hw.get (R.LAST_CNT_1_LATE l)) ∧
      h.get (R.LAST_CNT_3_CAPACITY l) = (if 0 < o.unfit then min (s.hw.get (R.LAST_CNT_3_CAPACITY l) + 1) 65535
        else s.hw.get (R.LAST_CNT_3_CAPACITY l)) ∧
      h.get (R.LAST_CNT_2_EMPTY l) = (if o.reserved = true ∧ o.list.length ≤ o.position ∧ o.unfit = 0 then
        min (s.hw.get (R.LAST_CNT_2_EMPTY l) + 1) 65535 else s.hw.get (R.LAST_CNT_2_EMPTY l)) ∧
      RegsKept [R.LAST_CNT_1 l, R.LAST_CNT_2 l, R.LAST_CNT_3 l] s.hw h ∧ MemKept s.hw h := by
  have hpass := s.hw.advanceTo_timePassed a
  refine gives_of_effect_eq (e := execFirstPpduStart l delay s) rfl rfl hup (h := (s.hw.advanceTo a).firstPpdu l a o) ?_
    ⟨?_, Hw.firstPpdu_et _ _ _ _, hpass.firstPpdu_late a, hpass.firstPpdu_capacity a, hpass.firstPpdu_empty a,
      (hpass.firstPpdu_regs a).canon, (MemKept.of_mem (hpass.firstPpdu_mem a)).canon⟩
  · dsimp only
    rw [hocc]
    dsimp only
    rw [if_neg (not_not_intro hphase), ha, Hw.firstPpduAt]
    rcases (s.hw.slice l).tx with _ | p <;> rfl
  · rw [Hw.canon_lastOf, hpass.firstPpdu_occ a hocc]
    simp

/-! ### LAST_ENTRY_END (R210, R214) -/

section
variable (h : Hw) (l : Nat)

theorem Hw.occEnded_mem : (h.occEnded l).mem = h.mem := rfl
theorem Hw.occEnded_exchange (x : Nat) : (h.occEnded l).exchange x = h.exchange x := rfl
theorem Hw.occEnded_txStatus : (h.occEnded l).txStatus = h.txStatus := rfl
theorem Hw.occEnded_inEntry : (h.occEnded l).get (R.LAST_STAT_IN_ENTRY l) = 0 := by
  rw [Hw.occEnded, Hw.modSlice_get, Hw.get_set_const _ rfl]
theorem Hw.occEnded_slice : (h.occEnded l).slice l = { h.slice l with calWindow := none } := by
  rw [Hw.occEnded, Hw.modSlice_slice]
  rfl

end

/-- An occurrence ended, no reserved exchange being given up with it. -/
def Hw.entryEnded (h : Hw) (l : Nat) : Hw :=
  (h.bumpIf ((h.slice l).calWindow.isSome = true) (R.LAST_CNT_2_CAL_UNUSED l)).occEnded l

theorem Hw.endOccurrence_eq (h : Hw) (l : Nat) : h.endOccurrence l = (h.entryEnded l).dropReserved l := rfl

section
variable {h k : Hw} {l : Nat} (hpass : TimePassed h k)
include hpass

theorem TimePassed.entryEnded_calUnused : (k.entryEnded l).get (R.LAST_CNT_2_CAL_UNUSED l) =
    if (h.slice l).calWindow.isSome = true then min (h.get (R.LAST_CNT_2_CAL_UNUSED l) + 1) 65535
    else h.get (R.LAST_CNT_2_CAL_UNUSED l) := by
  rw [Hw.entryEnded, Hw.occEnded_get _ _ (apart_of_offsets rfl rfl rfl), Hw.bumpIf_self _ _ _ (fits_of_bits rfl), hpass.get,
    hpass.slice]
  rfl

theorem TimePassed.entryEnded_regs : RegsKept [R.LAST_STAT l, R.LAST_CNT_2 l] h (k.entryEnded l) :=
  ((hpass.regs _).bumpIf _ (R.LAST_CNT_2_CAL_UNUSED l) (.tail _ (.head _))).trans ((Hw.occEnded_regs _ l).mono (by simp))

theorem TimePassed.entryEnded_mem : (k.entryEnded l).mem = h.mem := by
  rw [Hw.entryEnded, Hw.occEnded_mem, Hw.bumpIf_mem, hpass.mem]

theorem TimePassed.entryEnded_exchange : (k.entryEnded l).exchange l = h.exchange l := by
  rw [Hw.entryEnded, Hw.occEnded_exchange, Hw.bumpIf_exchange, hpass.exchange]

theorem TimePassed.entryEnded_txStatus : (k.entryEnded l).txStatus = h.txStatus := by
  rw [Hw.entryEnded, Hw.occEnded_txStatus, Hw.bumpIf_txStatus, hpass.txStatus]

theorem TimePassed.entryEnded_tx : ((k.entryEnded l).slice l).tx = (h.slice l).tx := by
  rw [Hw.entryEnded, Hw.occEnded_slice, Hw.bumpIf_slice, hpass.slice]

end

section
variable (h : Hw) (l : Nat)

theorem Hw.entryEnded_occ : ((h.entryEnded l).lastOf l).occ = none := by rw [Hw.entryEnded, Hw.occEnded_lastOf]
theorem Hw.entryEnded_inEntry : (h.entryEnded l).get (R.LAST_STAT_IN_ENTRY l) = 0 := Hw.occEnded_inEntry _ l
theorem Hw.entryEnded_calWindow : ((h.entryEnded l).slice l).calWindow = none := Hw.occEnded_calWindow _ l

variable {h l}

theorem Hw.dropReserved_none (he : h.exchange l = none) : h.dropReserved l = h := by rw [Hw.dropReserved, he]

/-! ### A reserved exchange given up (R214) -/

/-- The frames of an exchange go back: the schedule, the exchanges and the slices stand. -/
theorem Hw.returnFrames_kept (h : Hw) (l : Nat) (e : Exchange) : ScheduleKept h (h.returnFrames l e) ∧
    (h.returnFrames l e).welt.exchanges = h.welt.exchanges ∧ (h.returnFrames l e).slices = h.slices := by
  have hback (k : Hw) (q id : Nat) (m : Mpdu) : ScheduleKept k ((k.setMpdu id m).putBack q id) ∧
      ((k.setMpdu id m).putBack q id).welt.exchanges = k.welt.exchanges ∧
      ((k.setMpdu id m).putBack q id).slices = k.slices :=
    ⟨((ScheduleKept.refl k).welt _).trans (Hw.putBack_schedule _ q id), rfl, rfl⟩
  refine List.foldlRecOn (motive := fun k => ScheduleKept h k ∧ k.welt.exchanges = h.welt.exchanges ∧ k.slices = h.slices)
    _ _ ⟨.refl h, rfl, rfl⟩ fun k hk id _ => ?_
  obtain ⟨hsched, hex, hsl⟩ := hk
  split
  · next m hm =>
    obtain ⟨hs', hx', hl'⟩ := hback k (k.homeQueue l e m) id { m with awaits := false }
    exact ⟨hsched.trans hs', hx'.trans hex, hl'.trans hsl⟩
  · exact ⟨hsched, hex, hsl⟩

/-- A reserved exchange whose PPDU has not begun is given up: link `l` has none, and holds none. -/
structure GivenUp (l : Nat) (h k : Hw) : Prop where
  kept : ScheduleKept h k
  exchange : k.exchange l = none
  held : (k.slice l).held = none

theorem Hw.withdrawTx_idle (htx : (h.slice l).tx = none) :
    h.withdrawTx l = (h.stop (.hold l)).modSlice l fun s => { s with held := none } := by
  have hno : (((h.stop (.hold l)).modSlice l fun s => { s with held := none }).slice l).tx = none := by
    rw [Hw.modSlice_slice]
    exact htx
  unfold Hw.withdrawTx
  exact if_neg (by rw [Hw.transmitting, hno]; simp)

theorem Hw.dropExchange_givenUp {e : Exchange} (he : h.exchange l = some e) (hheld : (h.slice l).held = none) :
    GivenUp l h (h.dropExchange l) := by
  unfold Hw.dropExchange
  rw [he]
  obtain ⟨hsched, hex, hsl⟩ :=
    Hw.returnFrames_kept { h with welt := { h.welt with exchanges := kdel h.welt.exchanges l } } l e
  refine ⟨((ScheduleKept.refl h).welt _).trans hsched, ?_, ?_⟩
  · rw [Hw.exchange, hex]
    exact kget_kdel_self _ _
  · rw [Hw.slice, hsl]
    exact hheld

theorem Hw.dropReserved_givenUp {e : Exchange} (he : h.exchange l = some e) (hr : e.reserved = true) (ha : e.awaits = false)
    (htx : (h.slice l).tx = none) (hst : kget h.txStatus l = none) : GivenUp l h (h.dropReserved l) := by
  have hwithdraw : ScheduleKept h ((h.stop (.hold l)).modSlice l fun s => { s with held := none }) :=
    ⟨fun _ _ => rfl, fun _ => rfl, rfl, rfl⟩
  have hheld : (((h.stop (.hold l)).modSlice l fun s => { s with held := none }).slice l).held = none := by
    rw [Hw.modSlice_slice]
  have hin : h.inSetting l = false := by rw [Hw.inSetting, htx]
  rw [Hw.dropReserved, he]
  dsimp only
  rw [if_pos (by rw [hr, ha, hin, hst]; rfl), Hw.withdrawTx_idle htx]
  obtain ⟨hkept, hex, hh⟩ :=
    Hw.dropExchange_givenUp (h := (h.stop (.hold l)).modSlice l fun s => { s with held := none }) he hheld
  exact ⟨hwithdraw.trans hkept, hex, hh⟩

end

section
variable {h k : Hw} {l : Nat} (hpass : TimePassed h k)
include hpass

theorem TimePassed.entryEnded_gives : ((k.entryEnded l).canon.lastOf l).occ = none ∧
    (k.entryEnded l).canon.get (R.LAST_STAT_IN_ENTRY l) = 0 ∧ ((k.entryEnded l).canon.slice l).calWindow = none ∧
    (k.entryEnded l).canon.get (R.LAST_CNT_2_CAL_UNUSED l) = (if (h.slice l).calWindow.isSome = true then
      min (h.get (R.LAST_CNT_2_CAL_UNUSED l) + 1) 65535 else h.get (R.LAST_CNT_2_CAL_UNUSED l)) ∧
    RegsKept [R.LAST_STAT l, R.LAST_CNT_2 l] h (k.entryEnded l).canon ∧ MemKept h (k.entryEnded l).canon := by
  rw [Hw.canon_lastOf, Hw.canon_get, Hw.canon_slice, Hw.canon_get]
  exact ⟨k.entryEnded_occ l, k.entryEnded_inEntry l, k.entryEnded_calWindow l, hpass.entryEnded_calUnused,
    hpass.entryEnded_regs.canon, (MemKept.of_mem hpass.entryEnded_mem).canon⟩

theorem TimePassed.entryEnded_givenUp {k' : Hw} (hl : l < 3) (hg : GivenUp l (k.entryEnded l) k') :
    (k'.canon.lastOf l).occ = none ∧ k'.canon.get (R.LAST_STAT_IN_ENTRY l) = 0 ∧ k'.canon.exchange l = none ∧
    (k'.canon.slice l).held = none ∧ MemKept h k'.canon := by
  obtain ⟨hkept, hx, hheld⟩ := hg
  refine ⟨?_, ?_, hx, hheld, ?_⟩
  · rw [Hw.canon_lastOf, hkept.lastOf, Hw.entryEnded_occ]
  · rw [Hw.canon_get, hkept.get (by simp only [R.LAST_STAT_IN_ENTRY, R.LAST_STAT, lastRegsBase]; omega), Hw.entryEnded_inEntry]
  · exact MemKept.canon fun a => (hkept.mem a).trans (MemKept.of_mem hpass.entryEnded_mem a)

end

section
variable {s : State} (hup : s.hw.mainUp = true)
include hup

theorem gives_lastEntryEnd {P : Hw → Prop} {k : Hw} (l : Fin 3) (o : Occurrence) (T : Nat) (hocc : (s.hw.lastOf l).occ = some o)
    (hT : T = ntAdd o.start (ntOfMicros (entryOf o.words).dur)) (hreach : (s.hw.advanceToNt T).ntReached T = true)
    (hk : ((s.hw.advanceToNt T).entryEnded l).dropReserved l = k) (hP : P k.canon) : Gives (.lastEntryEnd l) s P := by
  subst hT
  refine gives_of_effect_eq (e := execLastEntryEnd l s) rfl rfl hup ?_ hP
  rw [hocc]
  exact (Hw.atNt_reached hreach _).trans ((Hw.endOccurrence_eq _ _).trans hk)

theorem gives_lastEntryEnd_noExchange (l : Fin 3) (o : Occurrence) (T : Nat) (hocc : (s.hw.lastOf l).occ = some o)
    (hex : s.hw.exchange l = none) (hT : T = ntAdd o.start (ntOfMicros (entryOf o.words).dur))
    (hreach : (s.hw.advanceToNt T).ntReached T = true) : Gives (.lastEntryEnd l) s fun h =>
      (h.lastOf l).occ = none ∧ h.get (R.LAST_STAT_IN_ENTRY l) = 0 ∧ (h.slice l).calWindow = none ∧
      h.get (R.LAST_CNT_2_CAL_UNUSED l) = (if (s.hw.slice l).calWindow.isSome = true then
        min (s.hw.get (R.LAST_CNT_2_CAL_UNUSED l) + 1) 65535 else s.hw.get (R.LAST_CNT_2_CAL_UNUSED l)) ∧
      RegsKept [R.LAST_STAT l, R.LAST_CNT_2 l] s.hw h ∧ MemKept s.hw h := by
  have hpass := s.hw.advanceToNt_timePassed T
  exact gives_lastEntryEnd hup l o T hocc hT hreach (Hw.dropReserved_none (hpass.entryEnded_exchange.trans hex))
    hpass.entryEnded_gives

theorem gives_lastEntryEnd_reserved (l : Fin 3) (o : Occurrence) (e : Exchange) (T : Nat) (hocc : (s.hw.lastOf l).occ = some o)
    (hex : s.hw.exchange l = some e) (hr : e.reserved = true) (ha : e.awaits = false) (htx : (s.hw.slice l).tx = none)
    (hst : kget s.hw.txStatus l = none) (hT : T = ntAdd o.start (ntOfMicros (entryOf o.words).dur))
    (hreach : (s.hw.advanceToNt T).ntReached T = true) : Gives (.lastEntryEnd l) s fun h =>
      (h.lastOf l).occ = none ∧ h.get (R.LAST_STAT_IN_ENTRY l) = 0 ∧ h.exchange l = none ∧ (h.slice l).held = none ∧
      MemKept s.hw h := by
  have hpass := s.hw.advanceToNt_timePassed T
  have hgiven := Hw.dropReserved_givenUp (hpass.entryEnded_exchange.trans hex) hr ha (hpass.entryEnded_tx.trans htx)
    (by rw [hpass.entryEnded_txStatus, hst])
  exact gives_lastEntryEnd hup l o T hocc hT hreach rfl (hpass.entryEnded_givenUp l.isLt hgiven)

end

/-! ### The obligation -/

/-- Settles O21, command by command: the three starts of an entry, the four ends of its clear check, its first PPDU and the two
ends of an occurrence. -/
theorem lastEntriesOnTheLink : Obligations.LastEntriesOnTheLink := by
  intro s hup
  refine ⟨gives_lastEntryStart_quiet hup, gives_lastEntryStart_skip hup, gives_lastEntryStart_check hup,
    gives_clearCheckEnd_commits hup, gives_clearCheckEnd_beacon hup, gives_clearCheckEnd_busy hup,
    gives_clearCheckEnd_afterBusy hup, ?_, gives_lastEntryEnd_noExchange hup, gives_lastEntryEnd_reserved hup⟩
  intro l delay a o hocc hphase ha
  refine gives_firstPpduStart hup l delay a o hocc hphase (ha.trans ?_)
  cases htx : (s.hw.slice l).tx <;> simp only [Hw.firstPpduAt, htx]

end Sys2Proof.Machine
end

section
/-!
SUPPORT. The registers and flags of an Awl thread after a write (R239, R240), and a thread that has issued an instruction (R236,
R265): what the device shows behind it, and the instructions that only compute.
-/
namespace Sys2Proof.Machine

/-! ### The registers and flags of a thread -/

section
variable (th : AwlThread) (r : Nat) (v : Dword)

theorem AwlThread.reg_setReg (q : Nat) :
    (th.setReg r v).reg q = if q = 0 then 0 else (kget [(r, v)] q).getD (th.reg q) := by
  by_cases hq : q = 0
  · simp [AwlThread.reg, hq]
  · by_cases hr : r = 0
    · simp [AwlThread.setReg, AwlThread.reg, kget, hr, hq]
    · by_cases hqr : q = r
      · simp [AwlThread.setReg, AwlThread.reg, kget, hr, hqr]
      · simp [AwlThread.setReg, AwlThread.reg, kget, hr, hq, hqr, kgetD_kput_ne]

@[simp] theorem AwlThread.setReg_flags : (th.setReg r v).flags = th.flags := by unfold AwlThread.setReg; split <;> rfl
@[simp] theorem AwlThread.setReg_pc : (th.setReg r v).pc = th.pc := by unfold AwlThread.setReg; split <;> rfl
@[simp] theorem AwlThread.setReg_count : (th.setReg r v).count = th.count := by unfold AwlThread.setReg; split <;> rfl

end

section
variable (th : AwlThread) (w : Word) (b : Bool) (x : AwlResult)

theorem AwlThread.put_reg (q : Nat) : (th.put w b x).reg q = (th.setReg (rdOf w) x.r).reg q := by
  unfold AwlThread.put; split <;> rfl

theorem AwlThread.put_flags : (th.put w b x).flags = (if b then some (x.z, x.n, x.c, x.v) else none).getD th.flags := by
  cases b
  · exact th.setReg_flags _ _
  · rfl

@[simp] theorem AwlThread.put_pc : (th.put w b x).pc = th.pc := by cases b <;> simp [AwlThread.put, AwlThread.setFlags]
@[simp] theorem AwlThread.put_count : (th.put w b x).count = th.count := by
  cases b <;> simp [AwlThread.put, AwlThread.setFlags]

end

theorem Hw.thread_modThread (h : Hw) (t u : Nat) (f : AwlThread → AwlThread) :
    (h.modThread t f).thread u = if u = t then f (h.thread t) else h.thread u := h.thread_setThread t u _

@[simp] theorem Hw.thread_modThread_self (h : Hw) (t : Nat) (f : AwlThread → AwlThread) :
    (h.modThread t f).thread t = f (h.thread t) := by rw [Hw.thread_modThread, if_pos rfl]

theorem Hw.thread_modThread_ne (h : Hw) {t u : Nat} (f : AwlThread → AwlThread) (hu : u ≠ t) :
    (h.modThread t f).thread u = h.thread u := by rw [Hw.thread_modThread, if_neg hu]

/-! ### Changes of the engine array's own state -/

/-- Nothing has changed but the state of the engine array beside its registers. -/
def AwlOnly (h h' : Hw) : Prop := h' = { h with awl := h'.awl }

section
variable {h h' h'' : Hw}

theorem AwlOnly.refl (h : Hw) : AwlOnly h h := rfl

theorem AwlOnly.trans (h1 : AwlOnly h h') (h2 : AwlOnly h' h'') : AwlOnly h h'' := by
  unfold AwlOnly at *
  rw [h2, h1]

theorem AwlOnly.proj {β : Type} (ho : AwlOnly h h') (π : Hw → β) (hπ : ∀ a, π { h with awl := a } = π h) : π h' = π h :=
  (congrArg π ho).trans (hπ _)

theorem AwlOnly.regs (ho : AwlOnly h h') : h'.regs = h.regs := ho.proj Hw.regs fun _ => rfl
theorem AwlOnly.shank (ho : AwlOnly h h') : h'.shank = h.shank := ho.proj Hw.shank fun _ => rfl
theorem AwlOnly.bench (ho : AwlOnly h h') : h'.bench = h.bench := ho.proj Hw.bench fun _ => rfl
theorem AwlOnly.word (ho : AwlOnly h h') (a : Nat) : h'.word a = h.word a := ho.proj (·.word a) fun _ => rfl
theorem AwlOnly.get (ho : AwlOnly h h') (f : RF) : h'.get f = h.get f := ho.proj (·.get f) fun _ => rfl
theorem AwlOnly.privileged (ho : AwlOnly h h') (t : Nat) : h'.privileged t = h.privileged t :=
  ho.proj (·.privileged t) fun _ => rfl
theorem AwlOnly.regsKept (ho : AwlOnly h h') (as : List Nat) : RegsKept as h h' := fun a _ => ho.word a
theorem AwlOnly.memKept (ho : AwlOnly h h') : MemKept h h' := fun a => ho.proj (·.byte a) fun _ => rfl

theorem Hw.modThread_awlOnly (h : Hw) (t : Nat) (f : AwlThread → AwlThread) : AwlOnly h (h.modThread t f) := rfl

end

/-! ### A thread that has issued -/

/-- A thread whose instruction has issued: counted, and the PC past it. -/
def AwlThread.stepped (th : AwlThread) : AwlThread := { th with count := th.count + 1, pc := th.pc + 4 }

/-- The hardware in which an instruction of thread `t` takes effect. -/
def Hw.stepped (h : Hw) (t : Nat) : Hw := (h.issued t).modThread t fun th => { th with pc := th.pc + 4 }

section
variable (h : Hw) (t : Nat)

theorem Hw.thread_issued (u : Nat) :
    (h.issued t).thread u = if u = t then { h.thread t with count := (h.thread t).count + 1 } else h.thread u := by
  cases hp : h.privileged t <;> simp only [Hw.issued, hp, if_true, Bool.false_eq_true, if_false]
  · exact Hw.thread_modThread { h with awl := { h.awl with lastIssued := _ } } t u _
  · exact h.thread_modThread t u _

theorem Hw.thread_stepped (u : Nat) : (h.stepped t).thread u = if u = t then (h.thread t).stepped else h.thread u := by
  simp only [Hw.stepped, Hw.thread_modThread, Hw.thread_issued]
  split <;> rfl

@[simp] theorem Hw.thread_stepped_self : (h.stepped t).thread t = (h.thread t).stepped := by
  rw [Hw.thread_stepped, if_pos rfl]

theorem Hw.stepped_awlOnly : AwlOnly h (h.stepped t) := by
  unfold Hw.stepped Hw.issued
  split <;> rfl

@[simp] theorem Hw.stepped_raisers : (h.stepped t).awl.raisers = h.awl.raisers := by
  unfold Hw.stepped Hw.issued
  split <;> rfl

end

/-- A thread that issues a valid word away from the end of the instruction memory and below its limit has its effect. -/
theorem Hw.issue_of_issues {h : Hw} {t : Nat} {k : AwlKind} {w : Word} (hi : h.issues t k w = true) (taken : Bool)
    (f : Word → Hw → Hw) : h.issue t k taken none f = f w (h.stepped t) := by
  simp only [Hw.issues, Hw.issuesAny, Bool.and_eq_true, beq_iff_eq, bne_iff_ne, Bool.not_eq_true'] at hi
  obtain ⟨⟨⟨⟨⟨hissuer, hw⟩, hkind⟩, hvalid⟩, hlimit⟩, hpc⟩ := hi
  have hpc' : ((h.issued t).thread t).pc ≠ 0x1FFFC := by rwa [Hw.thread_issued, if_pos rfl]
  simp [Hw.issue, hissuer, hw, hkind, hvalid, hlimit, hpc', Hw.stepped]

theorem Hw.validWord_of_issues {h : Hw} {t : Nat} {k : AwlKind} {w : Word} (hi : h.issues t k w = true) :
    validWord k w = true := by
  simp only [Hw.issues, Hw.issuesAny, Bool.and_eq_true] at hi
  obtain ⟨⟨⟨-, hvalid⟩, -⟩, -⟩ := hi
  exact hvalid

theorem Hw.kindOf_of_issues {h : Hw} {t : Nat} {k : AwlKind} {w : Word} (hi : h.issues t k w = true) :
    kindOf w = some k := by
  simp only [Hw.issues, Hw.issuesAny, Bool.and_eq_true, beq_iff_eq] at hi
  obtain ⟨⟨⟨⟨-, hkind⟩, -⟩, -⟩, -⟩ := hi
  exact hkind

/-! ### Instructions that only compute -/

/-- The thread behind its instruction with a result put: one register and, where `b` is set, the flags. -/
theorem Hw.computes_put (h : Hw) (t : Nat) (w : Word) (b : Bool) (x : AwlResult) {f : AwlThread → AwlThread}
    (hf : f (h.thread t).stepped = (h.thread t).stepped.put w b x) :
    Computes h ((h.stepped t).modThread t f).canon t (rdOf w) x.r (if b then some (x.z, x.n, x.c, x.v) else none) := by
  have hth : ((h.stepped t).modThread t f).thread t = (h.thread t).stepped.put w b x := by
    rw [Hw.thread_modThread_self, Hw.thread_stepped_self, hf]
  have honly := (h.stepped_awlOnly t).trans (Hw.modThread_awlOnly _ t f)
  refine ⟨⟨fun q _ => ?_, ?_, ?_⟩, ?_, fun u _ hu => ?_, (honly.regsKept []).canon, honly.memKept.canon⟩
  · exact (congrArg (·.reg q) hth).trans ((AwlThread.put_reg _ w b x q).trans (AwlThread.reg_setReg _ _ _ _))
  · exact (congrArg (·.flags) hth).trans (AwlThread.put_flags _ w b x)
  · exact (congrArg (·.pc) hth).trans (AwlThread.put_pc _ w b x)
  · exact (congrArg (·.count) hth).trans (AwlThread.put_count _ w b x)
  · exact (Hw.thread_modThread_ne _ f hu).trans (by rw [Hw.thread_stepped, if_neg hu])

section
variable {c : Instr} {s : State} {e : Host.Outcome State Fault Refusal} {t : Nat} {k : AwlKind} {w : Word} {b : Bool}
  {x : AwlResult}

/-- An instruction whose effect on its thread is that a result is put. -/
theorem gives_put {f : Word → AwlThread → AwlThread} (hc : exec c s = e)
    (he : e = s.effect fun h => h.issue t k false none fun w h => h.modThread t (f w)) (hup : s.hw.mainUp = true)
    (hi : s.hw.issues t k w = true) (hf : f w (s.hw.thread t).stepped = (s.hw.thread t).stepped.put w b x) :
    Gives c s fun h => Computes s.hw h t (rdOf w) x.r (if b then some (x.z, x.n, x.c, x.v) else none) :=
  gives_of_effect_eq hc he hup (Hw.issue_of_issues hi _ _) (s.hw.computes_put t w b x hf)

/-- An instruction of the arithmetic and logic unit, by its result and its flags C and V. -/
theorem gives_alu {f : Word → Bool} {op : AwlThread → Word → AwlResult} {r : Dword} {cf vf : Bool} (hc : exec c s = e)
    (he : e = s.effect fun h => h.alu t k f op) (hup : s.hw.mainUp = true) (hi : s.hw.issues t k w = true)
    (hop : op (s.hw.thread t).stepped w = .of r cf vf) :
    Gives c s fun h => Computes s.hw h t (rdOf w) r (if f w then some (r == 0, r.msb, cf, vf) else none) :=
  gives_put (f := fun w th => th.put w (f w) (op th w)) (x := .of r cf vf) hc he hup hi
    (congrArg (AwlThread.put _ w (f w)) hop)

/-- An instruction that writes a register and no flag. -/
theorem gives_setReg {op : Word → AwlThread → Dword} {r : Dword} (hc : exec c s = e)
    (he : e = s.effect fun h => h.issue t k false none fun w h => h.modThread t fun th => th.setReg (rdOf w) (op w th))
    (hup : s.hw.mainUp = true) (hi : s.hw.issues t k w = true) (hop : op w (s.hw.thread t).stepped = r) :
    Gives c s fun h => Computes s.hw h t (rdOf w) r none :=
  gives_put (f := fun w th => th.setReg (rdOf w) (op w th)) (b := false) (x := .of r false false) hc he hup hi
    (congrArg (AwlThread.setReg _ (rdOf w)) hop)

end

end Sys2Proof.Machine
end

section
/-!
SUPPORT. The results and flags of the arithmetic, logic and field instructions (R253 to R259), read as arithmetic over whole
numbers and as fields of bits.
-/
namespace Sys2Proof.Machine

/-! ### Sums, differences and products (R253 to R255) -/

theorem inSigned64_eq_false_iff (x : Int) : inSigned64 x = false ↔ x < -(2 ^ 63) ∨ 2 ^ 63 - 1 < x := by
  simp only [inSigned64, Bool.and_eq_false_iff, decide_eq_false_iff_not, not_le]

/-- The signs tell a sum that leaves the signed range. -/
theorem awlAdd_eq (a b : Dword) : awlAdd a b =
    .of (a + b) (decide (2 ^ 64 ≤ a.toNat + b.toNat)) (!inSigned64 (a.toInt + b.toInt)) := by
  have hover : (a.msb == b.msb && (a + b).msb != a.msb) = !inSigned64 (a.toInt + b.toInt) := by
    refine (BitVec.saddOverflow_eq a b).symm.trans (Bool.eq_iff_iff.mpr ?_)
    simp only [BitVec.saddOverflow, Bool.or_eq_true, decide_eq_true_eq, Bool.not_eq_true', inSigned64_eq_false_iff]
    omega
  exact congrArg (AwlResult.of _ _) hover

/-- The signs tell a difference that leaves the signed range. -/
theorem awlSub_eq (a b : Dword) : awlSub a b =
    .of (a - b) (decide (b.toNat ≤ a.toNat)) (!inSigned64 (a.toInt - b.toInt)) := by
  have hsigns : (a.msb != b.msb && (a - b).msb != a.msb) = a.ssubOverflow b := by
    rw [BitVec.ssubOverflow_eq]
    cases a.msb <;> cases b.msb <;> cases (a - b).msb <;> rfl
  have hover : (a.msb != b.msb && (a - b).msb != a.msb) = !inSigned64 (a.toInt - b.toInt) := by
    refine hsigns.trans (Bool.eq_iff_iff.mpr ?_)
    simp only [BitVec.ssubOverflow, Bool.or_eq_true, decide_eq_true_eq, Bool.not_eq_true', inSigned64_eq_false_iff]
    omega
  exact congrArg (AwlResult.of _ _) hover

theorem awlClamp_eq (u : Bool) {x r : Int}
    (hr : r = if u then min (2 ^ 64 - 1) (max 0 x) else min (2 ^ 63 - 1) (max (-(2 ^ 63)) x)) :
    awlClamp u x = .of (BitVec.ofInt 64 r) false (decide (r ≠ x)) := by
  have hclamp : (if u then clampInt 0 (2 ^ 64 - 1) x else clampInt (-(2 ^ 63)) (2 ^ 63 - 1) x) = r := by
    rw [hr]
    cases u <;> simp only [clampInt, if_true, Bool.false_eq_true, if_false] <;> omega
  have hne : (r != x) = decide (r ≠ x) := Bool.eq_iff_iff.mpr (by simp)
  simp only [awlClamp, hclamp, hne]

/-! ### Shifts (R257) -/

theorem awlShift_shl (a : Dword) (n : Nat) :
    awlShift .shl a n = .of (a <<< n) (decide (0 < n ∧ n ≤ 64) && a.getLsbD (64 - n)) false := by
  have hr : (if n < 64 then a <<< n else 0) = a <<< n := by
    split
    · rfl
    · next hn => exact (BitVec.shiftLeft_eq_zero (by omega)).symm
  have hc : (if n = 0 then false else if n ≤ 64 then a.getLsbD (64 - n) else false) =
      (decide (0 < n ∧ n ≤ 64) && a.getLsbD (64 - n)) := by
    by_cases h0 : n = 0
    · simp [h0]
    · by_cases hn : n ≤ 64 <;> simp [h0, hn, Nat.pos_of_ne_zero h0]
  simp only [awlShift, hr, hc]

theorem awlShift_shr (a : Dword) (n : Nat) :
    awlShift .shr a n = .of (a >>> n) (decide (0 < n ∧ n ≤ 64) && a.getLsbD (n - 1)) false := by
  have hr : (if n < 64 then a >>> n else 0) = a >>> n := by
    split
    · rfl
    · next hn => exact (BitVec.ushiftRight_eq_zero (by omega)).symm
  have hc : (if n = 0 then false else if n ≤ 64 then a.getLsbD (n - 1) else false) =
      (decide (0 < n ∧ n ≤ 64) && a.getLsbD (n - 1)) := by
    by_cases h0 : n = 0
    · simp [h0]
    · by_cases hn : n ≤ 64 <;> simp [h0, hn, Nat.pos_of_ne_zero h0]
  simp only [awlShift, hr, hc]

/-- An arithmetic shift is a floor division, by whatever power of two. -/
theorem awlShift_shra (a : Dword) (n : Nat) : awlShift .shra a n =
    .of (BitVec.ofInt 64 (a.toInt / 2 ^ n)) (decide (0 < n) && if n ≤ 64 then a.getLsbD (n - 1) else a.msb) false := by
  have hr : (if n < 64 then a.sshiftRight n else if a.msb then BitVec.allOnes 64 else 0) =
      BitVec.ofInt 64 (a.toInt / 2 ^ n) := by
    have hdiv : BitVec.ofInt 64 (a.toInt / 2 ^ n) = a.sshiftRight n := by
      rw [← BitVec.ofInt_toInt (x := a.sshiftRight n), BitVec.toInt_sshiftRight, Int.shiftRight_eq_div_pow]
      simp
    rw [hdiv]
    split
    · rfl
    · next hn =>
      refine BitVec.eq_of_getLsbD_eq fun i hi => ?_
      have hout : ¬ n + i < 64 := by omega
      rw [BitVec.getLsbD_sshiftRight, if_neg hout]
      cases a.msb
      · simp
      · simp [hi, -BitVec.reduceAllOnes]
  have hc : (if n = 0 then false else if n ≤ 64 then a.getLsbD (n - 1) else a.msb) =
      (decide (0 < n) && if n ≤ 64 then a.getLsbD (n - 1) else a.msb) := by
    by_cases h0 : n = 0
    · simp [h0]
    · simp [h0, Nat.pos_of_ne_zero h0]
  simp only [awlShift, hr, hc]

/-! ### Fields (R259) -/

theorem awlBfx_unsigned (a : Dword) (p l : Nat) : awlBfx a p l false = ((a >>> p).setWidth l).setWidth 64 := by
  apply BitVec.eq_of_toNat_eq
  simp [awlBfx, Nat.shiftRight_eq_div_pow]

theorem awlBfx_signed (a : Dword) (p : Nat) {l : Nat} (hl : 0 < l) :
    awlBfx a p l true = ((a >>> p).setWidth l).signExtend 64 := by
  have hf : ((a >>> p).setWidth l).toNat = a.toNat / 2 ^ p % 2 ^ l := by simp [Nat.shiftRight_eq_div_pow]
  have hhalf : 2 ^ l = 2 * 2 ^ (l - 1) := by rw [← Nat.pow_succ', Nat.succ_eq_add_one, Nat.sub_add_cancel hl]
  rw [BitVec.signExtend, BitVec.toInt_eq_toNat_cond, hf]
  simp only [awlBfx, Bool.true_and, decide_eq_true_eq]
  by_cases hneg : 2 ^ (l - 1) ≤ a.toNat / 2 ^ p % 2 ^ l
  · rw [if_pos hneg, if_neg (by omega)]
    simp
  · rw [if_neg hneg, if_pos (by omega), BitVec.ofInt_natCast]

/-- The bits of a number with the field of `l` bits at `p` replaced by those of `v`. -/
theorem testBit_replaceField (d v p l i : Nat) :
    (d - d / 2 ^ p % 2 ^ l * 2 ^ p + v % 2 ^ l * 2 ^ p).testBit i =
      if p ≤ i ∧ i < p + l then v.testBit (i - p) else d.testBit i := by
  have hd : d = 2 ^ p * (2 ^ l * (d / 2 ^ p / 2 ^ l) + d / 2 ^ p % 2 ^ l) + d % 2 ^ p := by
    rw [Nat.div_add_mod, Nat.div_add_mod]
  have hnew : d - d / 2 ^ p % 2 ^ l * 2 ^ p + v % 2 ^ l * 2 ^ p =
      2 ^ p * (2 ^ l * (d / 2 ^ p / 2 ^ l) + v % 2 ^ l) + d % 2 ^ p := by
    generalize d / 2 ^ p / 2 ^ l = hi at *
    generalize d / 2 ^ p % 2 ^ l = f at *
    rw [Nat.mul_add, Nat.mul_comm (2 ^ p) f] at hd
    rw [Nat.mul_add, Nat.mul_comm (2 ^ p) (v % 2 ^ l)]
    omega
  have hlow : d % 2 ^ p < 2 ^ p := Nat.mod_lt _ (Nat.two_pow_pos p)
  have hmid : v % 2 ^ l < 2 ^ l := Nat.mod_lt _ (Nat.two_pow_pos l)
  rw [hnew, Nat.testBit_two_pow_mul_add _ hlow, Nat.testBit_two_pow_mul_add _ hmid]
  by_cases hp : i < p
  · rw [if_pos hp, if_neg (by omega), Nat.testBit_mod_two_pow]
    simp [hp]
  · rw [if_neg hp]
    by_cases hl : i - p < l
    · rw [if_pos hl, if_pos (by omega), Nat.testBit_mod_two_pow]
      simp [hl]
    · rw [if_neg hl, if_neg (by omega), Nat.testBit_div_two_pow, Nat.testBit_div_two_pow]
      congr 1
      omega

/-- The mask of a field leaves the bits outside it. -/
theorem awlBfi_eq (d a : Dword) (p l : Nat) : awlBfi d a p l =
    BitVec.ofNat 64 (d.toNat - d.toNat / 2 ^ p % 2 ^ l * 2 ^ p + a.toNat % 2 ^ l * 2 ^ p) := by
  refine BitVec.eq_of_getLsbD_eq fun i hi => ?_
  simp only [awlBfi, BitVec.getLsbD_or, BitVec.getLsbD_and, BitVec.getLsbD_not, BitVec.getLsbD_shiftLeft,
    BitVec.getLsbD_ofNat, testBit_replaceField, Nat.testBit_mul_two_pow, Nat.testBit_two_pow_sub_one, hi, decide_true,
    Bool.true_and]
  by_cases hp : p ≤ i
  · have hlt : ¬ i < p := by omega
    by_cases hl : i - p < l
    · have hin : i < p + l := by omega
      simp [hp, hlt, hl, hin, BitVec.getLsbD]
    · have hout : ¬ i < p + l := by omega
      simp [hp, hl, hout, BitVec.getLsbD]
  · simp [hp, BitVec.getLsbD]

end Sys2Proof.Machine
end

section
/-!
SUPPORT. Arithmetic, logic, shifts, fields and CRC (R253 to R257, R259, R276).
-/
namespace Sys2Proof.Machine

/-- An immediate in halfword X (R251). -/
theorem AwlThread.bOr_eq (th : AwlThread) (w : Word) :
    th.bOr w = if isImm w then BitVec.ofNat 64 (immOf w * 2 ^ (16 * xOf w)) else th.reg (rbOf w) := by
  have himm : immZero w <<< (16 * xOf w) = BitVec.ofNat 64 (immOf w * 2 ^ (16 * xOf w)) := by
    refine BitVec.eq_of_toNat_eq ?_
    simp [immZero, Nat.shiftLeft_eq]
  rw [AwlThread.bOr, himm]

/-- SUBS has no immediate form (R250, R251). -/
theorem isImm_of_kindOf_subs {w : Word} (hk : kindOf w = some .subs) : isImm w = false := by
  unfold kindOf at hk
  split at hk
  case h_1 hop => simp [isImm, hop]
  all_goals (repeat' split at hk) <;> simp at hk

section
variable {s : State} (hup : s.hw.mainUp = true)
include hup

/-- CMP names g0, where a result is discarded. -/
theorem gives_cmp (t : Fin 256) (w : Word) (a b : Dword) (hi : s.hw.issues t .cmp w = true) (ha : a = (s.hw.thread t).a w)
    (hb : b = (s.hw.thread t).b w) : Gives (.cmp t) s fun h => Computes s.hw h t (rdOf w) 0
      (some (a - b == 0, (a - b).msb, decide (b.toNat ≤ a.toNat), !inSigned64 (a.toInt - b.toInt))) := by
  subst ha hb
  have hrd : rdOf w = 0 := by
    have hvalid := Hw.validWord_of_issues hi
    simp only [validWord] at hvalid
    split at hvalid <;> simp_all
  generalize ha : (s.hw.thread t).a w = a
  generalize hb : (s.hw.thread t).b w = b
  have hsub : awlSub ((s.hw.thread t).stepped.a w) ((s.hw.thread t).stepped.b w) = _ :=
    (congrArg₂ awlSub ha hb).trans (awlSub_eq a b)
  refine gives_put (e := execCmp t s) (b := true)
    (x := { AwlResult.of (a - b) (decide (b.toNat ≤ a.toNat)) (!inSigned64 (a.toInt - b.toInt)) with r := 0 }) rfl rfl hup hi ?_
  simp only [hsub, AwlThread.put, AwlThread.setReg, hrd, if_true]

theorem gives_bfx (t : Fin 256) (w : Word) (a : Dword) (hi : s.hw.issues t .bfx w = true) (ha : a = (s.hw.thread t).a w) :
    Gives (.bfx t) s fun h => Computes s.hw h t (rdOf w)
      (if sxOf w then ((a >>> posOf w).setWidth (lenOf w)).signExtend 64
        else ((a >>> posOf w).setWidth (lenOf w)).setWidth 64) none := by
  subst ha
  refine gives_setReg (e := execBfx t s) rfl rfl hup hi ?_
  cases hsx : sxOf w
  · exact awlBfx_unsigned _ _ _
  · exact awlBfx_signed _ _ (Nat.succ_pos _)

theorem gives_crc (t : Fin 256) (w : Word) (a : Dword) (n : Nat) (hi : s.hw.issues t .crc w = true)
    (ha : a = (s.hw.thread t).a w) (hn : n = ((s.hw.thread t).reg (rbOf w)).toNat) (hrange : 1 ≤ n ∧ n ≤ 8) :
    Gives (.crc t) s fun h => Computes s.hw h t (rdOf w)
      ((awlCrc (crcPoly (uOf w)) (((s.hw.thread t).reg (rdOf w)).truncate 32) a n).zeroExtend 64) none := by
  subst ha
  have hn' : (((s.hw.stepped t).thread t).reg (rbOf w)).toNat = n := by rw [Hw.thread_stepped_self, hn]; rfl
  have hok : ¬ (n = 0 ∨ 8 < n) := by omega
  refine gives_of_effect_eq (e := execCrc t s) rfl rfl hup ((Hw.issue_of_issues hi _ _).trans ?_)
    (s.hw.computes_put t w false (.of _ false false) (f := fun th => th.setReg (rdOf w)
      ((awlCrc (crcPoly (uOf w)) ((th.reg (rdOf w)).truncate 32) (th.a w) n).zeroExtend 64)) rfl)
  simp only [hn', if_neg hok]

end

/-- Settles O22, instruction by instruction. -/
theorem awlArithmeticLogicAndFields : Obligations.AwlArithmeticLogicAndFields := by
  intro s hup
  refine ⟨?_, ?_, gives_cmp hup, ?_, ?_, ?_, ?_, ?_, ?_, ?_, ?_, ?_, ?_, gives_bfx hup, ?_, gives_crc hup⟩
  · rintro t w _ _ hi rfl rfl
    exact gives_alu (e := execAdd t s) rfl rfl hup hi (awlAdd_eq _ _)
  · rintro t w _ _ hi rfl rfl
    exact gives_alu (e := execSub t s) rfl rfl hup hi (awlSub_eq _ _)
  · rintro t w _ _ _ r hi rfl rfl rfl hr
    exact gives_alu (e := execAdds t s) rfl rfl hup hi (awlClamp_eq (satU w) hr)
  · rintro t w _ _ _ r hi rfl rfl rfl hr
    have hb : (s.hw.thread t).bSat w = (s.hw.thread t).b w := by
      simp [AwlThread.bSat, isImm_of_kindOf_subs (Hw.kindOf_of_issues hi)]
    rw [hb] at hr ⊢
    exact gives_alu (e := execSubs t s) rfl rfl hup hi (awlClamp_eq (satU w) hr)
  · rintro t w _ _ hi rfl rfl
    exact gives_alu (e := execMul t s) rfl rfl hup hi rfl
  · rintro t w _ _ _ hi rfl rfl rfl
    exact gives_alu (e := execMulh t s) rfl rfl hup hi rfl
  · rintro t w _ _ hi rfl rfl
    exact gives_alu (e := execAnd t s) rfl rfl hup hi rfl
  · rintro t w _ _ hi rfl rfl
    rw [← AwlThread.bOr_eq]
    exact gives_alu (e := execOr t s) rfl rfl hup hi rfl
  · rintro t w _ _ hi rfl rfl
    rw [← AwlThread.bOr_eq]
    exact gives_alu (e := execXor t s) rfl rfl hup hi rfl
  · rintro t w _ _ hi rfl rfl
    exact gives_alu (e := execShl t s) rfl rfl hup hi (awlShift_shl _ _)
  · rintro t w _ _ hi rfl rfl
    exact gives_alu (e := execShr t s) rfl rfl hup hi (awlShift_shr _ _)
  · rintro t w _ _ hi rfl rfl
    exact gives_alu (e := execShra t s) rfl rfl hup hi (awlShift_shra _ _)
  · rintro t w _ _ hi rfl rfl
    exact gives_setReg (e := execBfi t s) rfl rfl hup hi (awlBfi_eq _ _ _ _)

end Sys2Proof.Machine
end

section
/-!
SUPPORT. Counting bits and hashing (R258, R277).
-/
namespace Sys2Proof.Machine

/-- The leading zeros below bit `n` are the `r` bits above the highest one bit. -/
theorem leadingZeros_eq (a : Dword) (n r : Nat) (hr : r ≤ n) (hzero : ∀ i < n, n ≤ i + r → a.getLsbD i = false)
    (hone : r < n → a.getLsbD (n - 1 - r) = true) : leadingZeros a n = r := by
  induction n generalizing r with
  | zero => exact (Nat.le_zero.mp hr).symm
  | succ n ih =>
    cases r with
    | zero =>
      have htop : a.getLsbD n = true := hone (Nat.succ_pos n)
      simp [leadingZeros, htop]
    | succ r =>
      have htop : a.getLsbD n = false := hzero n (Nat.lt_succ_self n) (by omega)
      have hrest : leadingZeros a n = r := ih r (by omega) (fun i hi hn => hzero i (by omega) (by omega))
        fun hlt => by simpa [Nat.sub_sub, Nat.add_comm] using hone (by omega)
      simp [leadingZeros, htop, hrest, Nat.add_comm]

theorem oneBits_eq_countP (a : Dword) (n : Nat) : oneBits a n = (List.range n).countP fun i => a.getLsbD i := by
  induction n with
  | zero => rfl
  | succ n ih => rw [oneBits, ih, List.range_succ, List.countP_append, List.countP_singleton, Nat.add_comm]

theorem awlHash_eq {a b x : Dword} (hx : x.toNat = (a ^^^ b).toNat * 0x9E3779B97F4A7C15 % 2 ^ 64) :
    awlHash a b = x ^^^ x >>> 32 := by
  have hmul : (a ^^^ b) * 0x9E3779B97F4A7C15 = x := BitVec.eq_of_toNat_eq ((BitVec.toNat_mul _ _).trans hx.symm)
  simp only [awlHash, hmul]

/-- Settles O23, instruction by instruction. -/
theorem countingBitsAndHashing : Obligations.CountingBitsAndHashing := by
  intro s hup
  refine ⟨?_, ?_, ?_, ?_⟩
  · rintro t w _ r hi rfl ⟨hle, hzero, hone⟩
    have hcount : BitVec.ofNat 64 (leadingZeros ((s.hw.thread t).a w) 64) = r := by
      rw [leadingZeros_eq _ 64 r.toNat hle hzero hone, BitVec.ofNat_toNat, BitVec.setWidth_eq]
    exact gives_alu (e := execClz t s) rfl rfl hup hi (congrArg (AwlResult.of · _ false) hcount)
  · rintro t w _ r hi rfl hr
    have hcount : BitVec.ofNat 64 (oneBits ((s.hw.thread t).a w) 64) = r := by
      rw [oneBits_eq_countP, ← hr, BitVec.ofNat_toNat, BitVec.setWidth_eq]
    exact gives_alu (e := execPopc t s) rfl rfl hup hi (congrArg (AwlResult.of · false false) hcount)
  · rintro t w _ _ x hi rfl rfl hx
    exact gives_setReg (e := execHash t s) rfl rfl hup hi (awlHash_eq hx)
  · intro t w hi ha hb
    have hkey : awlHash ((s.hw.thread t).a w) ((s.hw.thread t).reg (rbOf w)) = 0x9E3779B9E17D05AC := by
      rw [ha, hb]
      decide
    exact gives_setReg (e := execHash t s) rfl rfl hup hi hkey

end Sys2Proof.Machine
end

section
/-!
SUPPORT. A thread that waits (R237), the request of a unit's operation (R270), and its grant: what the
operation finds at its unit.
-/
namespace Sys2Proof.Machine

/-! ### Waiting -/

/-- The context `th'` is that of `th` behind an instruction that has written nothing: the PC is past it. -/
structure AwlThread.Past (th th' : AwlThread) : Prop where
  g : th'.g = th.g
  flags : th'.flags = th.flags
  pc : th'.pc = th.pc + 4

theorem AwlThread.Past.reg {th th' : AwlThread} (hp : th.Past th') (q : Nat) : th'.reg q = th.reg q := by
  rw [AwlThread.reg, hp.g, AwlThread.reg]

theorem AwlThread.past_stepped (th : AwlThread) : th.Past th.stepped := ⟨rfl, rfl, rfl⟩

section
variable {h k k' : Hw} {t : Nat} (w : Word) (a : Nat) (on : WaitOn)

theorem Hw.thread_suspend (k : Hw) (t u : Nat) : (k.suspend t w a on).thread u =
    if u = t then { k.thread t with pc := (k.thread t).pc - 4, on := on, insn := w, addr := a } else k.thread u :=
  k.thread_modThread t u fun th => { th with pc := th.pc - 4, on := on, insn := w, addr := a }

theorem Hw.suspend_regsKept (k : Hw) (t : Nat) :
    RegsKept [R.AWL_THR_STAT (t / 4) (t % 4)] k (k.suspend t w a on) :=
  RegsKept.set (h' := k.modThread t _) (fun _ _ => rfl) (R.AWL_THR_STAT_STATE (t / 4) (t % 4)) thrWait
    (List.mem_singleton.mpr rfl)

/-- A thread behind an instruction that goes to Wait stands on it again, as before. -/
theorem Hw.waits_suspend (hp : (h.thread t).Past (k.thread t)) : Waits h (k.suspend t w a on) t on := by
  have hth : (k.suspend t w a on).thread t = { k.thread t with pc := (k.thread t).pc - 4, on := on, insn := w, addr := a } := by
    rw [Hw.thread_suspend, if_pos rfl]
  refine ⟨congrArg AwlThread.on hth, ?_, fun q _ => ?_, ?_, ?_⟩
  · exact Hw.get_set_const _ rfl
  · refine (congrArg (AwlThread.reg · q) hth).trans ((hp.reg q).trans ?_)
    by_cases hq : q = 0 <;> simp [kget, AwlThread.reg, hq]
  · exact (congrArg AwlThread.flags hth).trans hp.flags
  · exact (congrArg AwlThread.pc hth).trans (by rw [hp.pc, Nat.add_sub_cancel])

/-- What an instruction leaves that ends in Wait. -/
theorem Hw.suspend_leaves {as : List Nat} (hp : (h.thread t).Past (k.thread t)) (hr : RegsKept as h k) (hm : MemKept h k)
    (hmem : R.AWL_THR_STAT (t / 4) (t % 4) ∈ as) : Waits h (k.suspend t w a on).canon t on ∧
      RegsKept as h (k.suspend t w a on).canon ∧ MemKept h (k.suspend t w a on).canon :=
  ⟨Hw.waits_suspend w a on hp,
    (hr.trans ((k.suspend_regsKept w a on t).mono (by simpa using hmem))).canon, MemKept.canon hm⟩

end

/-! ### Asking a unit -/

theorem Hw.canon_arbiter (h : Hw) (t : Nat) : h.canon.arbiter t = h.arbiter t := rfl

section
variable {s : State} (hup : s.hw.mainUp = true)
include hup

/-- An instruction of a unit: the thread waits, and its request is the last at the unit's target. -/
theorem gives_ask {c : Instr} {e : Host.Outcome State Fault Refusal} {f : Word → Hw → Hw} {k : AwlKind} {w : Word} {t : Nat}
    (target addr : Nat) (write : Bool) (hc : exec c s = e) (he : e = s.effect fun h => h.issue t k false none f)
    (hi : s.hw.issues t k w = true) (hf : f w (s.hw.stepped t) = (s.hw.stepped t).ask t w target addr write) :
    Gives c s fun h => Waits s.hw h t .unit ∧ RegsKept [R.AWL_THR_STAT (t / 4) (t % 4)] s.hw h ∧ MemKept s.hw h ∧
      ((h.arbiter target).waiting.getLast?.any fun r =>
        r.master == 8 + t / 32 && r.thread == some t && r.addr == addr && r.data.isSome == write) = true := by
  refine gives_of_effect_eq hc he hup ((Hw.issue_of_issues hi _ _).trans hf) ?_
  have honly := s.hw.stepped_awlOnly t
  have hpast : (s.hw.thread t).Past ((s.hw.stepped t).thread t) := by
    rw [Hw.thread_stepped_self]
    exact AwlThread.past_stepped _
  obtain ⟨hwaits, hregs, hmem⟩ :=
    Hw.suspend_leaves w addr .unit hpast (honly.regsKept _) honly.memKept (List.mem_singleton.mpr rfl)
  rw [Hw.ask]
  generalize (s.hw.stepped t).suspend t w addr .unit = j at *
  refine ⟨hwaits, hregs, hmem, ?_⟩
  rw [Hw.canon_arbiter, Hw.waiting_presentTo, List.getLast?_concat]
  cases write <;> simp

end

/-! ### The grant of a unit (R270, R272, R480) -/

/-- Target `t` has taken the request `q` up under rule `g`: it waits no more, and the counters of ARB_STAT have moved. -/
def Hw.takenUp (h : Hw) (t : Nat) (g : GrantRule) (q : Request) (pre : Bool) : Hw :=
  let h := h.setArbiter t (h.afterGrant t g q)
  let h := if g = .forced then h.bump (R.SHK_ARB_STAT_FORCED t) else h
  if g = .emergency && pre then h.bump (R.SHK_ARB_STAT_PREEMPT t) else h

/-- Nothing has changed but the arbiters and the register ARB_STAT of target `t`. -/
structure ArbiterOnly (h k : Hw) (t : Nat) : Prop where
  rest : k = { h with regs := k.regs, shank := { h.shank with arbiters := k.shank.arbiters } }
  regs : RegsKept [R.SHK_ARB_STAT t] h k

section
variable {h k : Hw} {t : Nat}

theorem ArbiterOnly.bump (ho : ArbiterOnly h k t) {f : RF} (hf : f.addr = R.SHK_ARB_STAT t) :
    ArbiterOnly h (k.bump f) t where
  rest := by
    obtain ⟨rs, as, rfl⟩ : ∃ rs as, k = { h with regs := rs, shank := { h.shank with arbiters := as } } :=
      ⟨_, _, ho.rest⟩
    rfl
  regs := ho.regs.bump f 1 (by simp [hf])

theorem Hw.takenUp_arbiterOnly (h : Hw) (t : Nat) (g : GrantRule) (q : Request) (pre : Bool) :
    ArbiterOnly h (h.takenUp t g q pre) t := by
  have hset : ArbiterOnly h (h.setArbiter t (h.afterGrant t g q)) t := ⟨rfl, fun _ _ => rfl⟩
  unfold Hw.takenUp
  cases g
  case forced => exact hset.bump rfl
  case emergency =>
    cases pre
    · exact hset
    · exact hset.bump rfl
  all_goals exact hset

theorem Hw.grant_eq {g : GrantRule} {q : Request} (hc : h.grantChoice t = some (g, q)) (pre : Bool) (e : EccFinding) :
    h.grant t pre e = (h.takenUp t g q pre).serveGrant t q e := by
  simp only [Hw.grant, hc]
  rfl

theorem ArbiterOnly.awl (ho : ArbiterOnly h k t) : k.awl = h.awl := (congrArg Hw.awl ho.rest :)
theorem ArbiterOnly.thread (ho : ArbiterOnly h k t) (u : Nat) : k.thread u = h.thread u := by
  rw [Hw.thread, ho.awl, Hw.thread]

/-- A register of the access tables, or another one outside the arbiters' block, reads as before. -/
theorem ArbiterOnly.word (ho : ArbiterOnly h k t) {a : Nat} (ha : a < 0x40300600 ∨ 0x40300600 + 4 * t < a) :
    k.word a = h.word a := ho.regs a (by simp only [R.SHK_ARB_STAT, List.mem_singleton]; omega)

/-- A field of such a register. -/
theorem ArbiterOnly.get (ho : ArbiterOnly h k t) {f : RF} (hf : f.addr < 0x40300600 ∨ 0x40300600 + 4 * t < f.addr) :
    k.get f = h.get f := Hw.get_congr (ho.word hf)

/-- A mask or bound of the access tables, which stand below the registers of the arbiters. -/
theorem ArbiterOnly.pair (ho : ArbiterOnly h k t) {lo hi : Nat} (hlo : lo < 0x40300600) (hhi : hi < 0x40300600) :
    k.pair lo hi = h.pair lo hi := by
  rw [Hw.pair, ho.word (.inl hlo), ho.word (.inl hhi), Hw.pair]

theorem ArbiterOnly.defaultPermits (ho : ArbiterOnly h k t) (ht : t < 67) (m : Nat) (write : Bool) :
    k.defaultPermits t m write = h.defaultPermits t m write := by
  have hw := ho.pair (lo := R.ILT_ACC_DEF_WMASK_LO t) (hi := R.ILT_ACC_DEF_WMASK_HI t)
    (by simp only [R.ILT_ACC_DEF_WMASK_LO]; omega) (by simp only [R.ILT_ACC_DEF_WMASK_HI]; omega)
  have hr := ho.pair (lo := R.ILT_ACC_DEF_RMASK_LO t) (hi := R.ILT_ACC_DEF_RMASK_HI t)
    (by simp only [R.ILT_ACC_DEF_RMASK_LO]; omega) (by simp only [R.ILT_ACC_DEF_RMASK_HI]; omega)
  rw [Hw.defaultPermits, hw, hr, Hw.defaultPermits]

theorem ArbiterOnly.windowOf (ho : ArbiterOnly h k t) (ht : t < 67) (a : Nat) : k.windowOf t a = h.windowOf t a := by
  refine List.find?_congr fun w hmem => ?_
  have hw := List.mem_range.mp hmem
  have hen := ho.word (a := R.ILT_ACC_EN t) (.inl (by simp only [R.ILT_ACC_EN]; omega))
  have hbase := ho.pair (lo := R.ILT_ACC_BASE_LO t w) (hi := R.ILT_ACC_BASE_HI t w)
    (by simp only [R.ILT_ACC_BASE_LO]; omega) (by simp only [R.ILT_ACC_BASE_HI]; omega)
  have hlimit := ho.pair (lo := R.ILT_ACC_LIMIT_LO t w) (hi := R.ILT_ACC_LIMIT_HI t w)
    (by simp only [R.ILT_ACC_LIMIT_LO]; omega) (by simp only [R.ILT_ACC_LIMIT_HI]; omega)
  rw [hen, hbase, hlimit]

theorem ArbiterOnly.tablesApply (ho : ArbiterOnly h k t) : k.tablesApply = h.tablesApply := by
  rw [Hw.tablesApply, ho.get (.inl (by decide)), Hw.tablesApply]

theorem ArbiterOnly.tablePermits (ho : ArbiterOnly h k t) (ht : t < 67) (m a : Nat) (write : Bool) :
    k.tablePermits t m a write = h.tablePermits t m a write := by
  simp only [Hw.tablePermits, ho.tablesApply, ho.windowOf ht]
  cases hwin : h.windowOf t a with
  | none => rw [ho.defaultPermits ht]
  | some w =>
    have hw : w < 16 := List.mem_range.mp (List.mem_of_find?_eq_some hwin)
    have hwm := ho.pair (lo := R.ILT_ACC_WMASK_LO t w) (hi := R.ILT_ACC_WMASK_HI t w)
      (by simp only [R.ILT_ACC_WMASK_LO]; omega) (by simp only [R.ILT_ACC_WMASK_HI]; omega)
    have hrm := ho.pair (lo := R.ILT_ACC_RMASK_LO t w) (hi := R.ILT_ACC_RMASK_HI t w)
      (by simp only [R.ILT_ACC_RMASK_LO]; omega) (by simp only [R.ILT_ACC_RMASK_HI]; omega)
    simp only [hwm, hrm]

theorem ArbiterOnly.unitPermits (ho : ArbiterOnly h k t) (ht : t < 67) (m a : Nat) (write : Bool) :
    k.unitPermits t m a write = h.unitPermits t m a write := by
  have hdebug : k.debugPermits a write = h.debugPermits a write := by
    simp only [Hw.debugPermits, ho.get (f := R.ILT_DBG_STAT_LEVEL) (.inl (by decide))]
  simp only [Hw.unitPermits, Hw.permits, ho.tablesApply, ho.defaultPermits ht, ho.tablePermits ht, hdebug]

/-- A request for a unit that a thread waits for is served there. -/
theorem ArbiterOnly.serveGrant (ho : ArbiterOnly h k t) {q : Request} {u : Nat} (e : EccFinding) (hq : q.thread = some u)
    (hon : (h.thread u).on = .unit) : k.serveGrant t q e = k.serveUnit t u q := by
  have hwait : k.waitOf q = .unit := by simp only [Hw.waitOf, hq, ho.thread, hon]
  simp only [Hw.serveGrant, hq, if_pos hwait]

end

/-- The context in which a unit's operation takes effect: the PC past the instruction, and no wait. -/
def AwlThread.served (th : AwlThread) : AwlThread := { th with pc := th.pc + 4, on := .nothing }

theorem AwlThread.past_served (th : AwlThread) : th.Past th.served := ⟨rfl, rfl, rfl⟩

/-- The hardware `k` in which the operation of thread `t` takes effect that target `g` grants: beside the arbiters and ARB_STAT
only the context of the thread has changed. -/
structure AtUnit (h k : Hw) (g t : Nat) : Prop where
  thread : k.thread t = (h.thread t).served
  others : ∀ u, u ≠ t → k.thread u = h.thread u
  rest : k = { h with
    regs := k.regs
    shank := { h.shank with arbiters := k.shank.arbiters }
    awl := { h.awl with threads := k.awl.threads } }
  regs : RegsKept [R.SHK_ARB_STAT g] h k

section
variable {h k : Hw} {g t : Nat}

theorem ArbiterOnly.atUnit (ho : ArbiterOnly h k g) (t : Nat) :
    AtUnit h (k.modThread t fun th => { th with pc := th.pc + 4, on := .nothing }) g t where
  thread := by rw [Hw.thread_modThread_self, ho.thread, AwlThread.served]
  others u hu := by rw [Hw.thread_modThread_ne _ _ hu, ho.thread]
  rest := by
    obtain ⟨rs, as, rfl⟩ : ∃ rs as, k = { h with regs := rs, shank := { h.shank with arbiters := as } } :=
      ⟨_, _, ho.rest⟩
    rfl
  regs := ho.regs

/-- A permitted operation of a unit takes effect at the grant. -/
theorem Hw.grant_of_unitGranted {w : Word} {kind : AwlKind} (hg : g < 67) (hu : h.unitGranted g t w kind = true) (pre : Bool)
    (e : EccFinding) : ∃ k, AtUnit h k g t ∧ h.grant g pre e = k.unitEffect t w kind := by
  unfold Hw.unitGranted at hu
  split at hu
  · next r q hc =>
    simp only [Bool.and_eq_true, beq_iff_eq] at hu
    obtain ⟨⟨⟨⟨hq, hon⟩, hw⟩, hkind⟩, hpermits⟩ := hu
    have ho := h.takenUp_arbiterOnly g r q pre
    refine ⟨_, ho.atUnit t, ?_⟩
    rw [Hw.grant_eq hc, ho.serveGrant e hq hon, Hw.serveUnit, if_pos ((ho.unitPermits hg _ _ _).trans hpermits), Hw.unitGrant]
    simp only [ho.thread, hw, hkind]
  · cases hu

namespace AtUnit

theorem past (hk : AtUnit h k g t) : (h.thread t).Past (k.thread t) := hk.thread ▸ AwlThread.past_served _
theorem on (hk : AtUnit h k g t) : (k.thread t).on = .nothing := (congrArg AwlThread.on hk.thread :)
theorem locks (hk : AtUnit h k g t) : (k.thread t).locks = (h.thread t).locks := (congrArg AwlThread.locks hk.thread :)
theorem a (hk : AtUnit h k g t) (w : Word) : (k.thread t).a w = (h.thread t).a w := (congrArg (AwlThread.a · w) hk.thread :)
theorem reg (hk : AtUnit h k g t) (r : Nat) : (k.thread t).reg r = (h.thread t).reg r := hk.past.reg r
theorem lockId (hk : AtUnit h k g t) (w : Word) : (k.thread t).lockId w = (h.thread t).lockId w :=
  (congrArg (AwlThread.lockId · w) hk.thread :)
theorem memKept (hk : AtUnit h k g t) : MemKept h k := fun a => (congrArg (Hw.byte · a) hk.rest :)
theorem wordsOf (hk : AtUnit h k g t) (q : Nat) : k.wordsOf q = h.wordsOf q := (congrArg (Hw.wordsOf · q) hk.rest :)
theorem pullersOf (hk : AtUnit h k g t) (q : Nat) : k.pullersOf q = h.pullersOf q := (congrArg (Hw.pullersOf · q) hk.rest :)
theorem pushersOf (hk : AtUnit h k g t) (q : Nat) : k.pushersOf q = h.pushersOf q := (congrArg (Hw.pushersOf · q) hk.rest :)
theorem lockWaiters (hk : AtUnit h k g t) (i : Nat) : k.lockWaiters i = h.lockWaiters i :=
  (congrArg (Hw.lockWaiters · i) hk.rest :)

theorem get (hk : AtUnit h k g t) {f : RF} (hf : f.addr < 0x40300600 ∨ 0x40300600 + 4 * g < f.addr) : k.get f = h.get f :=
  Hw.get_congr (hk.regs _ (by simp only [R.SHK_ARB_STAT, List.mem_singleton]; omega))

theorem privileged (hk : AtUnit h k g t) (hg : g < 67) (u : Nat) : k.privileged u = h.privileged u := by
  have hmask := hk.get (f := R.WELT_CTL_TIMING_MASK) (.inr (by simp only [R.WELT_CTL_TIMING_MASK, R.WELT_CTL]; omega))
  simp only [Hw.privileged, Hw.timingThread, hmask]

/-- The operation ends in Wait without another register written. -/
theorem suspend (hk : AtUnit h k g t) (w : Word) (a : Nat) (on : WaitOn) : Waits h (k.suspend t w a on).canon t on ∧
    RegsKept [R.SHK_ARB_STAT g, R.AWL_THR_STAT (t / 4) (t % 4)] h (k.suspend t w a on).canon ∧
    MemKept h (k.suspend t w a on).canon :=
  Hw.suspend_leaves w a on hk.past (hk.regs.mono (by simp)) hk.memKept (by simp)

end AtUnit

/-- A grant of a unit gives what its operation does there. -/
theorem gives_unit {s : State} {w : Word} {kind : AwlKind} {P : Hw → Prop} (hup : s.hw.mainUp = true) (hg : g < 67)
    (hu : s.hw.unitGranted g t w kind = true) (pre : Bool) (e : EccFinding)
    (hP : ∀ k, AtUnit s.hw k g t → P (k.unitEffect t w kind).canon) : Gives (.arbiterGrant ⟨g, hg⟩ pre e) s P := by
  obtain ⟨k, hk, hgrant⟩ := Hw.grant_of_unitGranted hg hu pre e
  exact gives_of_effect_eq (e := execArbiterGrant ⟨g, hg⟩ pre e s) rfl rfl hup hgrant (hP k hk)

end

end Sys2Proof.Machine
end

section
/-!
SUPPORT. An exception of an Awl thread (R262, R263, R268): its frame and its locks given up, the record, and the
state it is left in.
-/
namespace Sys2Proof.Machine

/-! ### The locks that a thread gives up (R493) -/

/-- The registers of the hardware locks. -/
def lockRegs : List Nat := (List.range 1024).map R.SHK_LOCK_STAT

theorem lockStat_mem_lockRegs {i : Nat} (hi : i < 1024) : R.SHK_LOCK_STAT i ∈ lockRegs :=
  List.mem_map_of_mem (List.mem_range.mpr hi)

theorem notMem_lockRegs {a : Nat} (ha : 0x40305000 ≤ a) : a ∉ lockRegs := by
  simp only [lockRegs, R.SHK_LOCK_STAT, List.mem_map, List.mem_range]
  rintro ⟨i, hi, hia⟩
  omega

/-- Locks have passed on between `h` and `k`: no other register and no byte of memory has changed, and thread `t` holds the frame
it held and stands in the wait it stood in, or has the answer to it. -/
structure LocksPassed (h k : Hw) (t : Nat) : Prop where
  regs : RegsKept lockRegs h k
  mem : MemKept h k
  frame : (k.thread t).frame = (h.thread t).frame
  on : (k.thread t).on = (h.thread t).on ∨ ∃ r, (k.thread t).on = .done r

section
variable {h k k' : Hw} {t : Nat}

theorem LocksPassed.refl (h : Hw) (t : Nat) : LocksPassed h h t := ⟨fun _ _ => rfl, fun _ => rfl, rfl, .inl rfl⟩

theorem LocksPassed.trans (h1 : LocksPassed h k t) (h2 : LocksPassed k k' t) : LocksPassed h k' t where
  regs := h1.regs.trans h2.regs
  mem a := (h2.mem a).trans (h1.mem a)
  frame := h2.frame.trans h1.frame
  on := by
    obtain hsame | hdone := h2.on
    · exact hsame ▸ h1.on
    · exact .inr hdone

/-- A change of the locks that a thread lists. -/
theorem Hw.modLocks_passed (h : Hw) (t u : Nat) (f : List Nat → List Nat) :
    LocksPassed h (h.modThread u fun th => { th with locks := f th.locks }) t where
  regs _ _ := rfl
  mem _ := rfl
  frame := by
    rw [Hw.thread_modThread]
    split
    · next hu => rw [hu]
    · rfl
  on := .inl <| by
    rw [Hw.thread_modThread]
    split
    · next hu => rw [hu]
    · rfl

theorem Hw.answer_passed (h : Hw) (t u : Nat) (r : Reply) : LocksPassed h (h.answer u r) t where
  regs _ _ := rfl
  mem _ := rfl
  frame := by
    rw [Hw.answer, Hw.thread_modThread]
    split
    · next hu => rw [hu]
    · rfl
  on := by
    rw [Hw.answer, Hw.thread_modThread]
    split
    · exact .inr ⟨r, rfl⟩
    · exact .inl rfl

/-- Writes of a lock's register. -/
theorem LocksPassed.set (hp : LocksPassed h k t) {i : Nat} (hi : i < 1024) {f : RF} (v : Nat)
    (hf : f.addr = R.SHK_LOCK_STAT i) : LocksPassed h (k.set f v) t :=
  { hp with regs := hp.regs.set f v (hf ▸ lockStat_mem_lockRegs hi) }

theorem Hw.passLock_passed (h : Hw) {i : Nat} (hi : i < 1024) (b : Bool) (t : Nat) : LocksPassed h (h.passLock i b) t := by
  cases hw : h.lockWaiters i with
  | nil =>
    simp only [Hw.passLock, hw]
    exact (((LocksPassed.refl h t).set hi _ rfl).set hi _ rfl).set hi _ rfl |>.set hi _ rfl
  | cons u rest =>
    have hwaiters : LocksPassed h (h.setLockWaiters i rest) t := {
      regs := (h.setLockWaiters_regsKept i rest).mono (by simpa using lockStat_mem_lockRegs hi)
      mem := h.setLockWaiters_byte i rest
      frame := rfl
      on := .inl rfl }
    have hgiven := (((hwaiters.set hi 1 (f := R.SHK_LOCK_STAT_HELD i) rfl).set hi 0 (f := R.SHK_LOCK_STAT_BROKEN i) rfl).set hi
      (8 + u / 32) (f := R.SHK_LOCK_STAT_OWNER i) rfl).set hi u (f := R.SHK_LOCK_STAT_THREAD i) rfl
    simp only [Hw.passLock, hw]
    exact (hgiven.trans (Hw.modLocks_passed _ t u (i :: ·))).trans (Hw.answer_passed _ t u _)

theorem Hw.forgetLock_passed (h : Hw) (i t : Nat) : LocksPassed h (h.forgetLock i) t := by
  simp only [Hw.forgetLock]
  split
  · exact h.modLocks_passed t _ (·.filter (· != i))
  · exact LocksPassed.refl h t

theorem Hw.breakLocksOf_passed (h : Hw) (u t : Nat) (hl : ∀ i ∈ (h.thread u).locks, i < 1024) :
    LocksPassed h (h.breakLocksOf u) t :=
  List.foldlRecOn (motive := (LocksPassed h · t)) _ _ (LocksPassed.refl h t) fun k hk i hi =>
    hk.trans ((k.forgetLock_passed i t).trans (Hw.passLock_passed _ (hl i hi) true t))

/-! ### The record (R263, R268) -/

/-- `k` is `h` with the record of an exception of thread `t` written. -/
structure Recorded (h k : Hw) (t code : Nat) (w : Word) (pc addr info : Nat) : Prop where
  rest : k = { h with regs := k.regs }
  resume : k.get (R.AWL_CLU_CFG_RESUME (t / 32)) = h.get (R.AWL_CLU_CFG_RESUME (t / 32))
  marked : k.get (R.AWL_THR_STAT_EXC_EV (t / 4) (t % 4)) = 1
  code : k.get (R.AWL_THR_STAT_CODE (t / 4) (t % 4)) = code
  pc : k.word (R.AWL_EXC_PC (t / 4) (t % 4)) = BitVec.ofNat 32 pc
  insn : k.word (R.AWL_EXC_INSN (t / 4) (t % 4)) = w
  addrLo : k.word (R.AWL_EXC_ADDR_LO (t / 4) (t % 4)) = BitVec.ofNat 32 addr
  addrHi : k.word (R.AWL_EXC_ADDR_HI (t / 4) (t % 4)) = BitVec.ofNat 32 (addr / 2 ^ 32)
  info : k.word (R.AWL_EXC_INFO (t / 4) (t % 4)) = BitVec.ofNat 32 info

/-- With no record standing, an exception writes one. -/
theorem Hw.recordException_recorded (h : Hw) {t code : Nat} (hcode : code < 32) (w : Word)
    (pc addr imm bus : Nat) (hev : h.flag (R.AWL_THR_STAT_EXC_EV (t / 4) (t % 4)) = false)
    (hovf : h.flag (R.AWL_THR_STAT_OVF (t / 4) (t % 4)) = false) :
    Recorded h (h.recordException t code w pc addr imm bus) t code w pc addr (imm + 2 ^ 16 * bus) := by
  have hev' : (h.bump (R.AWL_THR_STAT_EXC_CNT (t / 4) (t % 4))).flag (R.AWL_THR_STAT_EXC_EV (t / 4) (t % 4)) = false := by
    rwa [Hw.flag, Hw.get_bump_apart _ _ _ _ (apart_of_bits rfl)]
  have hovf' : (h.bump (R.AWL_THR_STAT_EXC_CNT (t / 4) (t % 4))).flag (R.AWL_THR_STAT_OVF (t / 4) (t % 4)) = false := by
    rwa [Hw.flag, Hw.get_bump_apart _ _ _ _ (apart_of_bits rfl)]
  have hclu : R.AWL_CLU_CFG (t / 32) ≠ R.AWL_THR_STAT (t / 4) (t % 4) := by
    simp only [R.AWL_CLU_CFG, R.AWL_THR_STAT]
    omega
  simp only [Hw.recordException, hev', hovf', Bool.false_eq_true, if_false]
  constructor
  case rest => rfl
  all_goals simp (disch := (simp only [R.AWL_EXC_PC, R.AWL_EXC_INSN, R.AWL_EXC_ADDR_LO, R.AWL_EXC_ADDR_HI, R.AWL_EXC_INFO,
      R.AWL_THR_STAT, R.AWL_THR_STAT_EXC_EV, R.AWL_THR_STAT_CODE, R.AWL_CLU_CFG_RESUME, R.AWL_CLU_CFG]; omega)) only
    [Hw.word_setWord_self, Hw.word_setWord_ne, Hw.get_setWord_ne]
  case resume =>
    exact Hw.get_congr <| (Hw.word_set_ne _ (R.AWL_THR_STAT_EXC_EV _ _) 1 hclu).trans <|
      (Hw.word_set_ne _ (R.AWL_THR_STAT_CODE _ _) code hclu).trans (Hw.word_bump_ne _ (R.AWL_THR_STAT_EXC_CNT _ _) 1 hclu)
  case marked => exact Hw.get_set_const _ rfl
  case code => rw [Hw.get_set_apart _ _ _ _ (apart_of_bits rfl), Hw.get_set_lt _ _ _ (fits_of_bits rfl) hcode]

/-! ### The words that waiting pushers append (R281, R282) -/

/-- Queues and waits have moved on: beside the engine array nothing has changed, and every thread holds the frame it held. -/
structure QueuesMoved (h k : Hw) : Prop where
  only : AwlOnly h k
  frame : ∀ u, (k.thread u).frame = (h.thread u).frame

theorem QueuesMoved.refl (h : Hw) : QueuesMoved h h := ⟨AwlOnly.refl h, fun _ => rfl⟩

theorem QueuesMoved.trans (h1 : QueuesMoved h k) (h2 : QueuesMoved k k') : QueuesMoved h k' :=
  ⟨h1.only.trans h2.only, fun u => (h2.frame u).trans (h1.frame u)⟩

theorem Hw.answer_moved (h : Hw) (t : Nat) (r : Reply) : QueuesMoved h (h.answer t r) :=
  ⟨rfl, fun u => (h.answer_passed u t r).frame⟩

theorem Hw.setWords_moved (h : Hw) (q : Nat) (l : List Dword) : QueuesMoved h (h.setWords q l) := ⟨rfl, fun _ => rfl⟩
theorem Hw.setPullers_moved (h : Hw) (q : Nat) (l : List Nat) : QueuesMoved h (h.setPullers q l) := ⟨rfl, fun _ => rfl⟩
theorem Hw.setPushers_moved (h : Hw) (q : Nat) (l : List Nat) : QueuesMoved h (h.setPushers q l) := ⟨rfl, fun _ => rfl⟩

theorem Hw.pushWord_moved (h : Hw) (q : Nat) (v : Dword) : QueuesMoved h (h.pushWord q v) := by
  unfold Hw.pushWord
  split
  · split
    · exact (h.setPullers_moved q _).trans (Hw.answer_moved _ _ _)
    · exact (h.setPullers_moved q _).trans (Hw.setWords_moved _ q _)
  · exact h.setWords_moved q _

theorem Hw.servePushers_moved (h : Hw) (q fuel : Nat) : QueuesMoved h (h.servePushers q fuel) := by
  induction fuel generalizing h with
  | zero => exact QueuesMoved.refl h
  | succ fuel ih =>
    unfold Hw.servePushers
    split
    · exact QueuesMoved.refl h
    · split
      · dsimp only
        split
        · exact (((h.setPushers_moved q _).trans (Hw.pushWord_moved _ q _)).trans (Hw.answer_moved _ _ _)).trans (ih _)
        · exact (h.setPushers_moved q _).trans (ih _)
      · exact QueuesMoved.refl h

/-! ### The exception as a whole -/

/-- A thread that stands in no wait, or has its answer, is in no list of waiting threads. -/
theorem Hw.leaveWaits_of_on (hon : (h.thread t).on = .nothing ∨ ∃ r, (h.thread t).on = .done r) : h.leaveWaits t = h := by
  obtain hon | ⟨r, hon⟩ := hon <;> simp only [Hw.leaveWaits, hon]

/-- A frame that a thread gives up stands in no register and in no byte of memory. -/
theorem Hw.dropHeld_gives (h : Hw) (t reason : Nat) : (h.dropHeld t reason).regs = h.regs ∧
    (h.dropHeld t reason).mem = h.mem ∧ ((h.dropHeld t reason).thread t).frame = none ∧
    ((h.dropHeld t reason).thread t).on = (h.thread t).on ∧ ((h.dropHeld t reason).thread t).locks = (h.thread t).locks := by
  unfold Hw.dropHeld
  split
  · have hth (k : Hw) : ((k.modThread t fun th => { th with frame := none, dirty := 0 }).thread t) =
      { k.thread t with frame := none, dirty := 0 } := k.thread_modThread_self t _
    exact ⟨rfl, rfl, congrArg AwlThread.frame (hth _), (congrArg AwlThread.on (hth _) :),
      (congrArg AwlThread.locks (hth _) :)⟩
  · next hf => exact ⟨rfl, rfl, hf, rfl, rfl⟩

/-- The record written and the frame given up, the thread takes the state it is left in. -/
theorem excepts_of_recorded {j l : Hw} {code : Nat} {w : Word} {addr info st : Nat}
    (hj : Recorded k j t code w (h.thread t).pc addr info) (hregs : l.regs = j.regs) (hmem : MemKept h l)
    (hframe : (l.thread t).frame = none) (hlt : st < 8)
    (hst : st = if code = 10 then 4 else if h.get (R.AWL_CLU_CFG_RESUME (t / 32)) = 1 then 0 else 3) :
    Excepts h (l.setThreadState t st) t code w addr info := by
  have hw (a : Nat) (ha : a ≠ R.AWL_THR_STAT (t / 4) (t % 4)) : (l.setThreadState t st).word a = j.word a :=
    (Hw.word_set_ne l (R.AWL_THR_STAT_STATE (t / 4) (t % 4)) st ha).trans (by rw [Hw.word, hregs, Hw.word])
  have hg (f : RF) (hf : apart (R.AWL_THR_STAT_STATE (t / 4) (t % 4)) f) : (l.setThreadState t st).get f = j.get f :=
    (Hw.get_set_apart l _ f st hf).trans (Hw.get_congr (by rw [Hw.word, hregs, Hw.word]))
  refine ⟨(hg _ (apart_of_bits rfl)).trans hj.marked, (hg _ (apart_of_bits rfl)).trans hj.code, (hw _ ?_).trans hj.pc,
    (hw _ ?_).trans hj.insn, (hw _ ?_).trans hj.addrLo, (hw _ ?_).trans hj.addrHi, (hw _ ?_).trans hj.info, hframe,
    (Hw.get_set_lt l (R.AWL_THR_STAT_STATE (t / 4) (t % 4)) st (fits_of_bits rfl) hlt).trans hst, hmem⟩
  all_goals
    simp only [R.AWL_EXC_PC, R.AWL_EXC_INSN, R.AWL_EXC_ADDR_LO, R.AWL_EXC_ADDR_HI, R.AWL_EXC_INFO, R.AWL_THR_STAT]
    omega

/-- The state that an exception leaves its thread in, the record written: Halt, Idle after a context reset, or Fault. -/
def Hw.leftBy (h : Hw) (t code : Nat) : Hw :=
  if code = 10 then (h.setThreadState t thrHalt).modThread t fun th => { th with on := .nothing }
  else if h.flag (R.AWL_CLU_CFG_RESUME (t / 32)) then (h.resetContext t).setThreadState t thrIdle
  else ((h.leaveWaits t).setThreadState t thrFault).modThread t fun th => { th with on := .nothing }

theorem Hw.exception_eq (h : Hw) (t code : Nat) (w : Word) (addr imm bus : Nat) : h.exception t code w addr imm bus =
    (((h.dropHeld t 254).breakLocksOf t).recordException t code w (h.thread t).pc addr imm bus).leftBy t code := rfl

theorem Hw.setThreadState_modThread (h : Hw) (t st : Nat) (f : AwlThread → AwlThread) :
    (h.setThreadState t st).modThread t f = (h.modThread t f).setThreadState t st := rfl

/-- The context reset of a thread that stands in no list: registers and memory stay. -/
theorem Hw.resetContext_gives (h : Hw) (hon : h.leaveWaits t = h) : (h.resetContext t).regs = h.regs ∧
    MemKept h (h.resetContext t) ∧ ((h.resetContext t).thread t).frame = none := by
  simp only [Hw.resetContext, hon, Hw.emptyMailbox]
  generalize hk : ({ h.setThread t AwlThread.initial with latches := _ } : Hw) = k
  have hmoved := (k.setWords_moved (mailboxOf t) []).trans (Hw.servePushers_moved _ (mailboxOf t) 256)
  have hthread : k.thread t = AwlThread.initial := by
    subst hk
    exact (h.thread_setThread t t _).trans (if_pos rfl)
  refine ⟨hmoved.only.regs.trans ?_, fun a => (hmoved.only.memKept a).trans ?_, (hmoved.frame t).trans ?_⟩
  · subst hk; rfl
  · subst hk; rfl
  · rw [hthread]; rfl

/-- However the thread is left, the record stands and no byte of memory has changed. -/
theorem Recorded.leftBy {j : Hw} {code : Nat} {w : Word} {addr info : Nat} (hj : Recorded k j t code w (h.thread t).pc addr info)
    (hframe : (k.thread t).frame = none) (hmem : MemKept h k)
    (hon : (k.thread t).on = .nothing ∨ ∃ r, (k.thread t).on = .done r)
    (hresume : k.get (R.AWL_CLU_CFG_RESUME (t / 32)) = h.get (R.AWL_CLU_CFG_RESUME (t / 32))) :
    Excepts h (j.leftBy t code) t code w addr info := by
  have hjthread : j.thread t = k.thread t := (congrArg (Hw.thread · t) hj.rest :)
  have hjmem : MemKept h j := fun a => (congrArg (Hw.byte · a) hj.rest :).trans (hmem a)
  have hleave : j.leaveWaits t = j := Hw.leaveWaits_of_on (by rwa [hjthread])
  have hquiet : ((j.modThread t fun th => { th with on := .nothing }).thread t).frame = none := by
    rw [Hw.thread_modThread_self, hjthread, hframe]
  have hflag : j.flag (R.AWL_CLU_CFG_RESUME (t / 32)) = (h.get (R.AWL_CLU_CFG_RESUME (t / 32)) != 0) := by
    rw [Hw.flag, hj.resume, hresume]
  have hbit : h.get (R.AWL_CLU_CFG_RESUME (t / 32)) < 2 := h.get_lt _
  unfold Hw.leftBy
  split
  · next hhalt =>
    rw [Hw.setThreadState_modThread]
    exact excepts_of_recorded hj rfl hjmem hquiet (by decide) (by rw [if_pos hhalt]; rfl)
  · next hhalt =>
    split
    · next hset =>
      obtain ⟨hregs, hkept, hnone⟩ := j.resetContext_gives hleave
      have hone : h.get (R.AWL_CLU_CFG_RESUME (t / 32)) = 1 := by simp only [hflag, bne_iff_ne] at hset; omega
      exact excepts_of_recorded hj hregs (fun a => (hkept a).trans (hjmem a)) hnone (by decide)
        (by rw [if_neg hhalt, if_pos hone]; rfl)
    · next hclear =>
      have hzero : h.get (R.AWL_CLU_CFG_RESUME (t / 32)) ≠ 1 := by simp only [hflag, bne_iff_ne] at hclear; omega
      rw [hleave, Hw.setThreadState_modThread]
      exact excepts_of_recorded hj rfl hjmem hquiet (by decide) (by rw [if_neg hhalt, if_neg hzero]; rfl)

/-- A thread that stands in no wait and may record an exception takes it. -/
theorem Hw.exception_excepts (h : Hw) {t code : Nat} (hcode : code < 32) (hmay : h.mayRecord t = true)
    (hon : (h.thread t).on = .nothing) (w : Word) (addr imm bus : Nat) :
    Excepts h (h.exception t code w addr imm bus) t code w addr (imm + 2 ^ 16 * bus) := by
  simp only [Hw.mayRecord, Bool.and_eq_true, Bool.not_eq_true', List.all_eq_true, decide_eq_true_eq] at hmay
  obtain ⟨⟨hev, hovf⟩, hlocks⟩ := hmay
  obtain ⟨hdregs, hdmem, hdframe, hdon, hdlocks⟩ := h.dropHeld_gives t 254
  rw [Hw.exception_eq]
  generalize h.dropHeld t 254 = d at *
  have hpassed := d.breakLocksOf_passed t t (by rwa [hdlocks])
  generalize d.breakLocksOf t = k at *
  have hget (f : RF) (hf : 0x40305000 ≤ f.addr) : k.get f = h.get f :=
    Hw.get_congr ((hpassed.regs _ (notMem_lockRegs hf)).trans (by rw [Hw.word, hdregs, Hw.word]))
  have hflag (f : RF) (hf : f.addr = R.AWL_THR_STAT (t / 4) (t % 4)) : k.flag f = h.flag f := by
    rw [Hw.flag, hget f (by rw [hf, R.AWL_THR_STAT]; omega), Hw.flag]
  have hrecorded := k.recordException_recorded hcode w (h.thread t).pc addr imm bus
    ((hflag (R.AWL_THR_STAT_EXC_EV (t / 4) (t % 4)) rfl).trans hev) ((hflag (R.AWL_THR_STAT_OVF (t / 4) (t % 4)) rfl).trans hovf)
  have hstill : (k.thread t).on = .nothing ∨ ∃ r, (k.thread t).on = .done r := by
    rw [← hon, ← hdon]
    exact hpassed.on
  exact hrecorded.leftBy (hpassed.frame.trans hdframe) (fun a => (hpassed.mem a).trans (by rw [Hw.byte, hdmem, Hw.byte]))
    hstill (hget _ (by simp only [R.AWL_CLU_CFG_RESUME, R.AWL_CLU_CFG]; omega))

theorem Excepts.canon {code : Nat} {w : Word} {addr info : Nat} (he : Excepts h k t code w addr info) :
    Excepts h k.canon t code w addr info := by
  obtain ⟨hev, hcode, hpc, hw, hlo, hhi, hinfo, hframe, hst, hmem⟩ := he
  exact ⟨hev, hcode, hpc, hw, hlo, hhi, hinfo, hframe, hst, hmem.canon⟩

/-- An exception in the hardware that an instruction finds is one of the hardware that it was issued in. -/
theorem Excepts.of_found {code : Nat} {w : Word} {addr info : Nat} (he : Excepts k k' t code w addr info)
    (hpc : (k.thread t).pc = (h.thread t).pc) (hmem : MemKept h k)
    (hresume : k.get (R.AWL_CLU_CFG_RESUME (t / 32)) = h.get (R.AWL_CLU_CFG_RESUME (t / 32))) :
    Excepts h k' t code w addr info := by
  obtain ⟨hev, hcode, hpc', hw, hlo, hhi, hinfo, hframe, hst, hmem'⟩ := he
  exact ⟨hev, hcode, hpc ▸ hpc', hw, hlo, hhi, hinfo, hframe, hresume ▸ hst, fun a => (hmem' a).trans (hmem a)⟩

/-- An operation of a unit that raises an exception at its grant. -/
theorem AtUnit.raiseAt {g code : Nat} (hk : AtUnit h k g t) (hg : g < 67) (hmay : h.mayRecord t = true) (hcode : code < 32)
    (w : Word) : Excepts h (k.raiseAt t code w 0 0 0).canon t code w 0 0 := by
  have hgetk (f : RF) (hf : 0x40C00000 ≤ f.addr) : k.get f = h.get f := hk.get (.inr (by omega))
  have hth := k.thread_modThread_self t fun th => { th with pc := th.pc - 4 }
  rw [Hw.raiseAt]
  generalize hj : (k.modThread t fun th => { th with pc := th.pc - 4 }) = j at *
  have hget (f : RF) (hf : 0x40C00000 ≤ f.addr) : j.get f = h.get f := by subst hj; exact hgetk f hf
  have hpc : (j.thread t).pc = (h.thread t).pc := by rw [hth]; exact (congrArg (·.pc - 4) hk.thread :)
  have hmayj : j.mayRecord t = true := by
    have hflag (f : RF) (hf : f.addr = R.AWL_THR_STAT (t / 4) (t % 4)) : j.flag f = h.flag f := by
      rw [Hw.flag, hget f (by rw [hf, R.AWL_THR_STAT]; omega), Hw.flag]
    have hlocks : (j.thread t).locks = (h.thread t).locks := by rw [hth]; exact hk.locks
    rw [← hmay, Hw.mayRecord, hflag (R.AWL_THR_STAT_EXC_EV (t / 4) (t % 4)) rfl, hflag (R.AWL_THR_STAT_OVF (t / 4) (t % 4)) rfl,
      hlocks, Hw.mayRecord]
  have hmemj : MemKept h j := by subst hj; exact hk.memKept
  refine (Excepts.of_found (j.exception_excepts hcode hmayj ?_ w 0 0 0) hpc hmemj (hget _ ?_)).canon
  · rw [hth]; exact hk.on
  · simp only [R.AWL_CLU_CFG_RESUME, R.AWL_CLU_CFG]; omega

end

end Sys2Proof.Machine
end

section
/-!
SUPPORT. The operations of the queue unit at their grant (R278 to R281), and an operation that its access table
refuses (R480, R481).
-/
namespace Sys2Proof.Machine

/-! ### What the instructions do -/

section
variable {h : Hw} {t q : Nat} {w : Word}

/-- A mailbox or a work queue is no DMA ring. -/
theorem not_ring_of_wordQueue (hw : (isMailbox q || isWorkQueue q) = true) : ¬ q < 64 := by
  simp only [isMailbox, isWorkQueue, Bool.or_eq_true, Bool.and_eq_true, decide_eq_true_eq] at hw
  omega

theorem Hw.qpush_word (hq : ((h.thread t).a w).toNat = q) (hw : (isMailbox q || isWorkQueue q) = true) : h.qpush t w =
    if (h.wordsOf q).length < queueDepth q then (h.pushWord q ((h.thread t).reg (rbOf w))).ready t w (some 0) none
    else if h.privileged t then h.ready t w (some 1) none
    else (h.suspend t w 0 (.push (rdOf w) q ((h.thread t).reg (rbOf w)))).setPushers q (h.pushersOf q ++ [t]) := by
  simp only [Hw.qpush, hq, if_neg (not_ring_of_wordQueue hw), hw, if_true]

theorem Hw.qpush_closedRing (hq : ((h.thread t).a w).toNat = q) (hlt : q < 64) (hmode : h.ringMode q = 0)
    (hst : h.ringState q = stClosed) : h.qpush t w = h.ready t w (some 2) none := by
  simp [Hw.qpush, Hw.pushRing, hq, hlt, hmode, hst]

theorem Hw.qpush_noQueue (hq : ((h.thread t).a w).toNat = q) (hge : 64 ≤ q) (hw : (isMailbox q || isWorkQueue q) = false) :
    h.qpush t w = h.raiseAt t excQid w 0 0 0 := by
  simp [Hw.qpush, hq, Nat.not_lt.mpr hge, hw]

theorem Hw.pushWord_joins (v : Dword) (hp : h.pullersOf q = []) : h.pushWord q v = h.setWords q (h.wordsOf q ++ [v]) := by
  simp only [Hw.pushWord, hp]

theorem Hw.pushWord_wakes {u rd x : Nat} {rest : List Nat} (v : Dword) (hp : h.pullersOf q = u :: rest)
    (hon : (h.thread u).on = .pull rd x) : h.pushWord q v = (h.setPullers q rest).answer u ⟨rd, some v, some false, 0⟩ := by
  simp only [Hw.pushWord, hp, hon]

theorem Hw.servePushers_none (fuel : Nat) (hp : h.pushersOf q = []) : h.servePushers q fuel = h := by
  cases fuel with
  | zero => rfl
  | succ fuel => simp only [Hw.servePushers, hp]

/-- QPULL of the oldest word, with no push waiting. -/
theorem Hw.qpull_word {v : Dword} {rest : List Dword} (hq : ((h.thread t).a w).toNat = q) (hm : mayPull t q = true)
    (hw : h.wordsOf q = v :: rest) (hp : h.pushersOf q = []) :
    h.qpull t w = (h.setWords q rest).ready t w (some v) (some false) := by
  have hserve : (h.setWords q rest).servePushers q 256 = h.setWords q rest := Hw.servePushers_none 256 hp
  simp only [Hw.qpull, hq, hm, Bool.not_true, Bool.false_eq_true, if_false, Hw.pullWord, hw, hserve]

theorem Hw.qpull_empty (hq : ((h.thread t).a w).toNat = q) (hm : mayPull t q = true) (hw : h.wordsOf q = []) :
    h.qpull t w = if uOf w || h.privileged t then h.ready t w none (some true)
      else (h.suspend t w 0 (.pull (rdOf w) q)).setPullers q (h.pullersOf q ++ [t]) := by
  simp only [Hw.qpull, hq, hm, Bool.not_true, Bool.false_eq_true, if_false, Hw.pullWord, hw]

theorem Hw.qpeek_eq (hq : ((h.thread t).a w).toNat = q) (hm : mayPull t q = true) :
    h.qpeek t w = h.ready t w (h.wordsOf q).head? (some (h.wordsOf q).isEmpty) := by
  simp only [Hw.qpeek, hq, hm, Bool.not_true, Bool.false_eq_true, if_false]
  cases h.wordsOf q <;> rfl

theorem Hw.wordsOf_setWords (h : Hw) (q : Nat) (l : List Dword) : (h.setWords q l).wordsOf q = l := kgetD_kput_self _ _ _ _
theorem Hw.pullersOf_setPullers (h : Hw) (q : Nat) (l : List Nat) : (h.setPullers q l).pullersOf q = l := kgetD_kput_self _ _ _ _
theorem Hw.pushersOf_setPushers (h : Hw) (q : Nat) (l : List Nat) : (h.setPushers q l).pushersOf q = l := kgetD_kput_self _ _ _ _

end

/-! ### A refused operation -/

/-- An error logged in hardware whose error log reads as before. -/
theorem Logged.of_found {h k k' : Hw} {m a kind : Nat} {write : Bool} (hl : Logged k k' m a kind write)
    (hword : ∀ a ∈ shankErrorRegs, k.word a = h.word a) : Logged h k' m a kind write := by
  have hget (f : RF) (hf : f.addr ∈ shankErrorRegs) : k.get f = h.get f := Hw.get_congr (hword _ hf)
  unfold Logged at *
  rwa [hget R.SHK_ERR_CNT_LO_CNT (by decide), hget R.SHK_ERR_CNT_HI_CNT (by decide), Hw.flag, hget R.SHK_STAT_ERR_EV (by decide),
    hword R.SHK_ERR_ADDR_LO (by decide), hword R.SHK_ERR_ADDR_HI (by decide), hword R.SHK_ERR_INFO (by decide)] at hl

section
variable {s : State} (hup : s.hw.mainUp = true)
include hup

theorem gives_unit_refused (t : Fin 256) (g : Fin 67) (q : Request) (r : GrantRule) (pre : Bool) (e : EccFinding)
    (hc : s.hw.grantChoice g = some (r, q)) (hq : q.thread = some t.val) (hon : (s.hw.thread t).on = .unit)
    (hp : s.hw.unitPermits g q.master q.addr q.data.isSome = false) : Gives (.arbiterGrant g pre e) s fun h =>
      (h.thread t).on = .done ⟨0, none, none, 2⟩ ∧ Logged s.hw h q.master q.addr 2 q.data.isSome ∧ MemKept s.hw h := by
  have ho := s.hw.takenUp_arbiterOnly g r q pre
  refine gives_of_effect_eq (e := execArbiterGrant g pre e s) rfl rfl hup
    ((Hw.grant_eq hc pre e).trans (ho.serveGrant e hq hon)) ?_
  have hmem : MemKept s.hw (s.hw.takenUp g r q pre) := fun a => (congrArg (Hw.byte · a) ho.rest :)
  generalize s.hw.takenUp g r q pre = k at *
  rw [Hw.serveUnit, ho.unitPermits g.isLt, hp, if_neg Bool.false_ne_true]
  have hlog := k.shankError_logged q.master q.addr 2 q.data.isSome (by decide)
  have herr := k.shankError_onlyRegs q.master q.addr 2 q.data.isSome
  unfold Hw.replyError
  generalize k.shankError q.master q.addr 2 q.data.isSome = j at *
  obtain ⟨-, hjmem, hrest⟩ := herr
  have hjon : (j.thread t).on = .unit := by
    have hthread : j.thread t = k.thread t := (congrArg (Hw.thread · t) hrest :)
    rw [hthread, ho.thread, hon]
  have hreply : j.reply q 2 [] = j.answer t ⟨0, none, none, 2⟩ := by simp only [Hw.reply, hq, hjon]
  rw [if_pos rfl, hreply]
  refine ⟨j.thread_answer_self t _, ?_, fun a => ?_⟩
  · refine Logged.of_found (k := k) hlog fun a ha => ho.word (.inl ?_)
    simp only [shankErrorRegs, R.SHK_STAT, R.SHK_ERR_CNT_LO, R.SHK_ERR_CNT_HI, R.SHK_ERR_ADDR_LO, R.SHK_ERR_ADDR_HI,
      R.SHK_ERR_INFO, List.mem_cons, List.not_mem_nil, or_false] at ha
    omega
  · exact (Hw.canon_byte _ a).trans ((hjmem a).trans (hmem a))

/-! ### QPUSH -/

section
variable (t : Fin 256) (w : Word) (pre : Bool) (e : EccFinding) (q : Nat) (hu : s.hw.unitGranted 45 t w .qpush = true)
  (hq : q = ((s.hw.thread t).a w).toNat)
include hu hq

theorem gives_qpush_joins (hw : (isMailbox q || isWorkQueue q) = true) (hspace : (s.hw.wordsOf q).length < queueDepth q)
    (hp : s.hw.pullersOf q = []) : Gives (.arbiterGrant 45 pre e) s fun h =>
      h.wordsOf q = s.hw.wordsOf q ++ [(s.hw.thread t).reg (rbOf w)] ∧ Waits s.hw h t (.done ⟨rdOf w, some 0, none, 0⟩) ∧
      RegsKept [R.SHK_ARB_STAT 45, R.AWL_THR_STAT (t / 4) (t % 4)] s.hw h ∧ MemKept s.hw h := by
  refine gives_unit (g := 45) hup (by decide) hu pre e fun k hk => ?_
  have heffect : k.unitEffect t w .qpush =
      (k.setWords q (k.wordsOf q ++ [(k.thread t).reg (rbOf w)])).ready t w (some 0) none := by
    refine (Hw.qpush_word (by rw [hk.a, hq]) hw).trans ?_
    rw [if_pos (by rwa [hk.wordsOf]), Hw.pushWord_joins _ (by rw [hk.pullersOf, hp])]
  rw [heffect, hk.wordsOf, hk.reg, Hw.ready]
  exact ⟨k.wordsOf_setWords q _,
    Hw.suspend_leaves (k := k.setWords q _) w 0 _ hk.past (hk.regs.mono (by simp)) hk.memKept (by simp)⟩

theorem gives_qpush_wakes (u rd x : Nat) (rest : List Nat) (hw : (isMailbox q || isWorkQueue q) = true)
    (hspace : (s.hw.wordsOf q).length < queueDepth q) (hp : s.hw.pullersOf q = u :: rest)
    (hon : (s.hw.thread u).on = .pull rd x) (hut : u ≠ t) : Gives (.arbiterGrant 45 pre e) s fun h =>
      h.wordsOf q = s.hw.wordsOf q ∧ h.pullersOf q = rest ∧
      (h.thread u).on = .done ⟨rd, some ((s.hw.thread t).reg (rbOf w)), some false, 0⟩ ∧
      Waits s.hw h t (.done ⟨rdOf w, some 0, none, 0⟩) ∧
      RegsKept [R.SHK_ARB_STAT 45, R.AWL_THR_STAT (t / 4) (t % 4)] s.hw h ∧ MemKept s.hw h := by
  refine gives_unit (g := 45) hup (by decide) hu pre e fun k hk => ?_
  have heffect : k.unitEffect t w .qpush = ((k.setPullers q rest).answer u
      ⟨rd, some ((k.thread t).reg (rbOf w)), some false, 0⟩).ready t w (some 0) none := by
    refine (Hw.qpush_word (by rw [hk.a, hq]) hw).trans ?_
    rw [if_pos (by rwa [hk.wordsOf]), Hw.pushWord_wakes _ (by rw [hk.pullersOf, hp]) (by rw [hk.others u hut, hon])]
  have hpast := hk.past
  have hwords := hk.wordsOf q
  have hregs := hk.regs.mono (bs := [R.SHK_ARB_STAT 45, R.AWL_THR_STAT (t / 4) (t % 4)]) (by simp)
  rw [heffect, hk.reg, Hw.ready]
  generalize hr : (⟨rd, some ((s.hw.thread t).reg (rbOf w)), some false, 0⟩ : Reply) = r
  have hself : (k.setPullers q rest).thread t = ((k.setPullers q rest).answer u r).thread t :=
    (Hw.thread_modThread_ne _ _ (Ne.symm hut)).symm
  have hanswer : (((k.setPullers q rest).answer u r).thread u).on = .done r := Hw.thread_answer_self _ u r
  have hpullers : ((k.setPullers q rest).answer u r).pullersOf q = rest := k.pullersOf_setPullers q rest
  have hpastj : (s.hw.thread t).Past (((k.setPullers q rest).answer u r).thread t) := hself ▸ hpast
  have hleaves := Hw.suspend_leaves w 0 (.done ⟨rdOf w, some 0, none, 0⟩) hpastj hregs hk.memKept (by simp)
  refine ⟨hwords, hpullers, ?_, hleaves⟩
  exact (congrArg AwlThread.on ((Hw.thread_suspend w 0 _ _ t u).trans (if_neg hut))).trans hanswer

theorem gives_qpush_refused (hw : (isMailbox q || isWorkQueue q) = true) (hfull : queueDepth q ≤ (s.hw.wordsOf q).length)
    (hpriv : s.hw.privileged t = true) : Gives (.arbiterGrant 45 pre e) s fun h =>
      h.wordsOf q = s.hw.wordsOf q ∧ Waits s.hw h t (.done ⟨rdOf w, some 1, none, 0⟩) ∧
      RegsKept [R.SHK_ARB_STAT 45, R.AWL_THR_STAT (t / 4) (t % 4)] s.hw h ∧ MemKept s.hw h := by
  refine gives_unit (g := 45) hup (by decide) hu pre e fun k hk => ?_
  have heffect : k.unitEffect t w .qpush = k.ready t w (some 1) none := by
    refine (Hw.qpush_word (by rw [hk.a, hq]) hw).trans ?_
    rw [if_neg (by rw [hk.wordsOf]; omega), if_pos (by rwa [hk.privileged (by decide)])]
  rw [heffect, Hw.ready]
  exact ⟨hk.wordsOf q, hk.suspend w 0 _⟩

theorem gives_qpush_waits (hw : (isMailbox q || isWorkQueue q) = true) (hfull : queueDepth q ≤ (s.hw.wordsOf q).length)
    (hpriv : s.hw.privileged t = false) : Gives (.arbiterGrant 45 pre e) s fun h =>
      h.wordsOf q = s.hw.wordsOf q ∧ h.pushersOf q = s.hw.pushersOf q ++ [t.val] ∧
      Waits s.hw h t (.push (rdOf w) q ((s.hw.thread t).reg (rbOf w))) ∧
      RegsKept [R.SHK_ARB_STAT 45, R.AWL_THR_STAT (t / 4) (t % 4)] s.hw h ∧ MemKept s.hw h := by
  refine gives_unit (g := 45) hup (by decide) hu pre e fun k hk => ?_
  have heffect : k.unitEffect t w .qpush =
      (k.suspend t w 0 (.push (rdOf w) q ((k.thread t).reg (rbOf w)))).setPushers q (k.pushersOf q ++ [t.val]) := by
    refine (Hw.qpush_word (by rw [hk.a, hq]) hw).trans ?_
    rw [if_neg (by rw [hk.wordsOf]; omega), if_neg (by rw [hk.privileged (by decide), hpriv]; decide)]
  have hleaves := hk.suspend w 0 (.push (rdOf w) q ((s.hw.thread t).reg (rbOf w)))
  rw [heffect, hk.reg, hk.pushersOf]
  exact ⟨hk.wordsOf q, (k.suspend t w 0 _).pushersOf_setPushers q _, hleaves⟩

theorem gives_qpush_closed (hlt : q < 64) (hmode : s.hw.ringMode q = 0) (hst : s.hw.ringState q = stClosed) :
    Gives (.arbiterGrant 45 pre e) s fun h => Waits s.hw h t (.done ⟨rdOf w, some 2, none, 0⟩) ∧
      RegsKept [R.SHK_ARB_STAT 45, R.AWL_THR_STAT (t / 4) (t % 4)] s.hw h ∧ MemKept s.hw h := by
  refine gives_unit (g := 45) hup (by decide) hu pre e fun k hk => ?_
  have hmode' :=
    (hk.get (f := R.CKR_RING_CFG_MODE q) (.inr (by simp only [R.CKR_RING_CFG_MODE, R.CKR_RING_CFG]; omega))).trans hmode
  have hst' := (hk.get (f := R.CKR_RING_FSTAT_STATE q)
    (.inr (by simp only [R.CKR_RING_FSTAT_STATE, R.CKR_RING_FSTAT]; omega))).trans hst
  have heffect : k.unitEffect t w .qpush = k.ready t w (some 2) none :=
    Hw.qpush_closedRing (by rw [hk.a, hq]) hlt hmode' hst'
  rw [heffect, Hw.ready]
  exact hk.suspend w 0 _

theorem gives_qpush_noQueue (hge : 64 ≤ q) (hw : (isMailbox q || isWorkQueue q) = false) (hmay : s.hw.mayRecord t = true) :
    Gives (.arbiterGrant 45 pre e) s fun h => Excepts s.hw h t 18 w 0 0 := by
  refine gives_unit (g := 45) hup (by decide) hu pre e fun k hk => ?_
  have heffect : k.unitEffect t w .qpush = k.raiseAt t excQid w 0 0 0 := Hw.qpush_noQueue (by rw [hk.a, hq]) hge hw
  rw [heffect]
  exact hk.raiseAt (by decide) hmay (by decide) w

end

/-! ### QPULL and QPEEK -/

section
variable (t : Fin 256) (w : Word) (pre : Bool) (e : EccFinding) (q : Nat)

theorem gives_qpull_word (v : Dword) (rest : List Dword) (hu : s.hw.unitGranted 45 t w .qpull = true)
    (hq : q = ((s.hw.thread t).a w).toNat) (hm : mayPull t q = true) (hw : s.hw.wordsOf q = v :: rest)
    (hp : s.hw.pushersOf q = []) : Gives (.arbiterGrant 45 pre e) s fun h =>
      h.wordsOf q = rest ∧ Waits s.hw h t (.done ⟨rdOf w, some v, some false, 0⟩) ∧
      RegsKept [R.SHK_ARB_STAT 45, R.AWL_THR_STAT (t / 4) (t % 4)] s.hw h ∧ MemKept s.hw h := by
  refine gives_unit (g := 45) hup (by decide) hu pre e fun k hk => ?_
  have heffect : k.unitEffect t w .qpull = (k.setWords q rest).ready t w (some v) (some false) :=
    Hw.qpull_word (by rw [hk.a, hq]) hm (by rw [hk.wordsOf, hw]) (by rw [hk.pushersOf, hp])
  rw [heffect, Hw.ready]
  exact ⟨k.wordsOf_setWords q _,
    Hw.suspend_leaves (k := k.setWords q _) w 0 _ hk.past (hk.regs.mono (by simp)) hk.memKept (by simp)⟩

theorem gives_qpull_returns (hu : s.hw.unitGranted 45 t w .qpull = true) (hq : q = ((s.hw.thread t).a w).toNat)
    (hm : mayPull t q = true) (hw : s.hw.wordsOf q = []) (hnow : (uOf w || s.hw.privileged t) = true) :
    Gives (.arbiterGrant 45 pre e) s fun h => Waits s.hw h t (.done ⟨rdOf w, none, some true, 0⟩) ∧
      RegsKept [R.SHK_ARB_STAT 45, R.AWL_THR_STAT (t / 4) (t % 4)] s.hw h ∧ MemKept s.hw h := by
  refine gives_unit (g := 45) hup (by decide) hu pre e fun k hk => ?_
  have heffect : k.unitEffect t w .qpull = k.ready t w none (some true) := by
    refine (Hw.qpull_empty (by rw [hk.a, hq]) hm (by rw [hk.wordsOf, hw])).trans ?_
    rw [hk.privileged (by decide), if_pos hnow]
  rw [heffect, Hw.ready]
  exact hk.suspend w 0 _

theorem gives_qpull_waits (hu : s.hw.unitGranted 45 t w .qpull = true) (hq : q = ((s.hw.thread t).a w).toNat)
    (hm : mayPull t q = true) (hw : s.hw.wordsOf q = []) (hwait : (uOf w || s.hw.privileged t) = false) :
    Gives (.arbiterGrant 45 pre e) s fun h =>
      h.pullersOf q = s.hw.pullersOf q ++ [t.val] ∧ Waits s.hw h t (.pull (rdOf w) q) ∧
      RegsKept [R.SHK_ARB_STAT 45, R.AWL_THR_STAT (t / 4) (t % 4)] s.hw h ∧ MemKept s.hw h := by
  refine gives_unit (g := 45) hup (by decide) hu pre e fun k hk => ?_
  have heffect : k.unitEffect t w .qpull =
      (k.suspend t w 0 (.pull (rdOf w) q)).setPullers q (k.pullersOf q ++ [t.val]) := by
    refine (Hw.qpull_empty (by rw [hk.a, hq]) hm (by rw [hk.wordsOf, hw])).trans ?_
    rw [hk.privileged (by decide), if_neg (by rw [hwait]; decide)]
  have hleaves := hk.suspend w 0 (.pull (rdOf w) q)
  rw [heffect, hk.pullersOf]
  exact ⟨(k.suspend t w 0 _).pullersOf_setPullers q _, hleaves⟩

theorem gives_qpeek (hu : s.hw.unitGranted 45 t w .qpeek = true) (hq : q = ((s.hw.thread t).a w).toNat)
    (hm : mayPull t q = true) : Gives (.arbiterGrant 45 pre e) s fun h =>
      h.wordsOf q = s.hw.wordsOf q ∧
      Waits s.hw h t (.done ⟨rdOf w, (s.hw.wordsOf q).head?, some (s.hw.wordsOf q).isEmpty, 0⟩) ∧
      RegsKept [R.SHK_ARB_STAT 45, R.AWL_THR_STAT (t / 4) (t % 4)] s.hw h ∧ MemKept s.hw h := by
  refine gives_unit (g := 45) hup (by decide) hu pre e fun k hk => ?_
  have heffect : k.unitEffect t w .qpeek = k.ready t w (k.wordsOf q).head? (some (k.wordsOf q).isEmpty) :=
    Hw.qpeek_eq (by rw [hk.a, hq]) hm
  rw [heffect, hk.wordsOf, Hw.ready]
  exact ⟨hk.wordsOf q, hk.suspend w 0 _⟩

end

end

end Sys2Proof.Machine
end

section
/-!
SUPPORT. LOCK and UNLOCK at the grant of their unit (R283, R284, R491, R492).
-/
namespace Sys2Proof.Machine

/-! ### What the instructions do -/

section
variable {h k : Hw} {t i : Nat} {w : Word}

theorem Hw.lockOp_noLock (hi : 1024 ≤ (h.thread t).lockId w) : h.lockOp t w = h.raiseAt t excLockId w 0 0 0 := by
  simp only [Hw.lockOp, if_pos hi]

theorem Hw.lockOp_lock (hid : (h.thread t).lockId w = i) (hi : i < 1024)
    (hfew : ((h.thread t).locks.contains i || decide (8 ≤ (h.thread t).locks.length)) = false) : h.lockOp t w =
      if !h.lockHeld i then (h.giveLockThread i t).ready t w (some (if h.lockBroken i then 1 else 0)) none
      else if h.privileged t then h.ready t w (some 2) none
      else (h.suspend t w 0 (.lock (rdOf w) i)).setLockWaiters i (h.lockWaiters i ++ [t]) := by
  simp only [Hw.lockOp, hid, if_neg (Nat.not_le.mpr hi), hfew, Bool.false_eq_true, if_false]

theorem Hw.unlockOp_held (hid : (h.thread t).lockId w = i) (hi : i < 1024) (hmem : i ∈ (h.thread t).locks) :
    h.unlockOp t w = ((h.forgetLock i).passLock i false).suspend t w 0 (.done ⟨0, none, none, 0⟩) := by
  simp [Hw.unlockOp, hid, Nat.not_le.mpr hi, hmem, Hw.releaseLock]

theorem Hw.unlockOp_notHeld (hid : (h.thread t).lockId w = i) (hi : i < 1024) (hmem : i ∉ (h.thread t).locks) :
    h.unlockOp t w = h.raiseAt t excLockState w 0 0 0 := by
  simp [Hw.unlockOp, hid, Nat.not_le.mpr hi, hmem]

/-! ### The registers of a lock, and of a thread that goes to Wait -/

/-- The status of a lock stands apart from the state of a thread. -/
theorem lockStat_ne_thrStat (hi : i < 1024) (t : Nat) : R.SHK_LOCK_STAT i ≠ R.AWL_THR_STAT (t / 4) (t % 4) := by
  simp only [R.SHK_LOCK_STAT, R.AWL_THR_STAT]
  omega

/-- A thread that goes to Wait leaves a lock as it is. -/
theorem Hw.suspend_get_lock (k : Hw) (t : Nat) (a : Nat) (on : WaitOn) (hi : i < 1024) {f : RF}
    (hf : f.addr = R.SHK_LOCK_STAT i) : (k.suspend t w a on).get f = k.get f :=
  (k.suspend_regsKept w a on t).get (by rw [hf, List.mem_singleton]; exact lockStat_ne_thrStat hi t)

/-- A lock at the grant of its unit. -/
theorem AtUnit.get_lock (hk : AtUnit h k 44 t) {f : RF} (hf : f.addr = R.SHK_LOCK_STAT i) : k.get f = h.get f :=
  hk.get (.inr (by rw [hf, R.SHK_LOCK_STAT]; omega))

theorem AtUnit.lockHeld (hk : AtUnit h k 44 t) (i : Nat) : k.lockHeld i = h.lockHeld i := by
  rw [Hw.lockHeld, Hw.flag, hk.get_lock (i := i) rfl]; rfl

theorem AtUnit.lockBroken (hk : AtUnit h k 44 t) (i : Nat) : k.lockBroken i = h.lockBroken i := by
  rw [Hw.lockBroken, Hw.flag, hk.get_lock (i := i) rfl]; rfl

theorem Hw.giveLock_awl (h : Hw) (i m t : Nat) : (h.giveLock i m t).awl = h.awl := by simp [Hw.giveLock]

theorem Hw.get_of_flag_false {f : RF} (hf : h.flag f = false) : h.get f = 0 := by simpa [Hw.flag] using hf

/-- A thread that waits for a lock: its place in the list changes nothing that it waits with. -/
theorem Waits.setLockWaiters {on : WaitOn} (hw : Waits h k t on) (hi : i < 1024) (l : List Nat) :
    Waits h (k.setLockWaiters i l) t on := by
  obtain ⟨hon, hst, hwrote⟩ := hw
  have hkept : (k.setLockWaiters i l).threadState t = k.threadState t :=
    (k.setLockWaiters_regsKept i l).get (by rw [List.mem_singleton]; exact (lockStat_ne_thrStat hi t).symm)
  exact ⟨hon, hkept.trans hst, hwrote⟩

theorem Waits.canon {on : WaitOn} (hw : Waits h k t on) : Waits h k.canon t on := hw

theorem Hw.canon_lockWaiters (h : Hw) (i : Nat) : h.canon.lockWaiters i = h.lockWaiters i := rfl

/-- The release of a lock leaves a thread as it was but for the locks that it lists, unless the lock passes to it. -/
theorem Hw.releaseLock_past {th : AwlThread} (hp : th.Past (h.thread t))
    (hw : ∀ u rest, h.lockWaiters i = u :: rest → t ≠ u) :
    th.Past (((h.forgetLock i).passLock i false).thread t) := by
  have hforget : th.Past ((h.forgetLock i).thread t) := by
    simp only [Hw.forgetLock]
    split
    · rw [Hw.thread_modThread]
      split
      · next ht => exact ht ▸ ⟨hp.g, hp.flags, hp.pc⟩
      · exact hp
    · exact hp
  cases hwait : h.lockWaiters i with
  | nil =>
    rw [← Hw.forgetLock_lockWaiters h i i] at hwait
    simp only [Hw.passLock, hwait]
    exact hforget
  | cons u rest =>
    have htu := hw u rest hwait
    rw [← Hw.forgetLock_lockWaiters h i i] at hwait
    simp only [Hw.passLock, hwait, Hw.answer, Hw.giveLockThread]
    rw [Hw.thread_modThread_ne _ _ htu, Hw.thread_modThread_ne _ _ htu]
    exact hforget

/-- A lock that no thread waits for has no owner and no thread when it is released. -/
theorem Hw.passLock_noOwner (hw : h.lockWaiters i = []) (b : Bool) : (h.passLock i b).get (R.SHK_LOCK_STAT_HELD i) = 0 ∧
    (h.passLock i b).get (R.SHK_LOCK_STAT_OWNER i) = 0 ∧ (h.passLock i b).get (R.SHK_LOCK_STAT_THREAD i) = 0 := by
  refine ⟨Hw.get_of_flag_false (h.passLock_free b hw).held, ?_, ?_⟩
  · simp only [Hw.passLock, hw]
    rw [Hw.get_set_apart _ _ _ _ (apart_of_bits rfl)]
    exact Hw.get_set_const _ rfl
  · simp only [Hw.passLock, hw]
    exact Hw.get_set_const _ rfl

end

/-! ### LOCK -/

section
variable {s : State} (hup : s.hw.mainUp = true) (t : Fin 256) (w : Word) (pre : Bool) (e : EccFinding) (i : Nat)
include hup

section
variable (hu : s.hw.unitGranted 44 t w .lock = true) (hid : i = (s.hw.thread t).lockId w) (hi : i < 1024)
  (hfew : ((s.hw.thread t).locks.contains i || decide (8 ≤ (s.hw.thread t).locks.length)) = false)
include hu hid hi hfew

theorem gives_lock_free (hl : s.hw.lockHeld i = false) : Gives (.arbiterGrant 44 pre e) s fun h =>
    h.get (R.SHK_LOCK_STAT_HELD i) = 1 ∧ h.get (R.SHK_LOCK_STAT_OWNER i) = 8 + t.val / 32 ∧
    h.get (R.SHK_LOCK_STAT_THREAD i) = t.val ∧ h.get (R.SHK_LOCK_STAT_BROKEN i) = 0 ∧ i ∈ (h.thread t).locks ∧
    Waits s.hw h t (.done ⟨rdOf w, some (if s.hw.lockBroken i then 1 else 0), none, 0⟩) ∧
    RegsKept [R.SHK_ARB_STAT 44, R.AWL_THR_STAT (t / 4) (t % 4), R.SHK_LOCK_STAT i] s.hw h ∧ MemKept s.hw h := by
  refine gives_unit (g := 44) hup (by decide) hu pre e fun k hk => ?_
  have heffect : k.unitEffect t w .lock =
      (k.giveLockThread i t).ready t w (some (if s.hw.lockBroken i then 1 else 0)) none := by
    refine (Hw.lockOp_lock (by rw [hk.lockId, hid]) hi (by rwa [hk.locks])).trans ?_
    rw [hk.lockHeld, hl, hk.lockBroken]
    rfl
  rw [heffect, Hw.ready]
  generalize (WaitOn.done _) = on
  obtain ⟨hgregs, hgmem, -⟩ := k.giveLock_onlyRegs i (8 + t.val / 32) t
  have hheld := Hw.get_of_flag rfl (k.lockHeld_giveLock i (8 + t.val / 32) t)
  have hbroken := Hw.get_of_flag_false (k.lockBroken_giveLock i (8 + t.val / 32) t)
  have howner := k.lockOwner_giveLock i t (m := 8 + t.val / 32) (by omega)
  have hthread := k.lockThread_giveLock i (8 + t.val / 32) t.isLt
  have hself : (k.giveLock i (8 + t.val / 32) t).thread t = k.thread t := by rw [Hw.thread, Hw.giveLock_awl, Hw.thread]
  have hregs := (hk.regs.mono (bs := [R.SHK_ARB_STAT 44, R.AWL_THR_STAT (t / 4) (t % 4), R.SHK_LOCK_STAT i]) (by simp)).trans
    (hgregs.mono (by simp))
  have hmem : MemKept s.hw (k.giveLock i (8 + t.val / 32) t) := fun a => (hgmem a).trans (hk.memKept a)
  have hpast := hk.past
  rw [Hw.giveLockThread]
  generalize k.giveLock i (8 + t.val / 32) t = j at *
  have hjt := j.thread_modThread_self t fun th => { th with locks := i :: th.locks }
  have honly := j.modThread_awlOnly t fun th => { th with locks := i :: th.locks }
  generalize (j.modThread t fun th => { th with locks := i :: th.locks }) = l at *
  have hpastl : (s.hw.thread t).Past (l.thread t) := by
    rw [hjt, hself]
    exact ⟨hpast.g, hpast.flags, hpast.pc⟩
  have hget (f : RF) (hf : f.addr = R.SHK_LOCK_STAT i) : (l.suspend t w 0 on).canon.get f = j.get f :=
    (Hw.suspend_get_lock l t 0 on hi hf).trans (honly.get f)
  have hlocks : ((l.suspend t w 0 on).thread t).locks = i :: (j.thread t).locks :=
    (congrArg AwlThread.locks ((l.thread_suspend w 0 on t t).trans (if_pos rfl))).trans (congrArg AwlThread.locks hjt)
  refine ⟨(hget _ rfl).trans hheld, (hget _ rfl).trans howner, (hget _ rfl).trans hthread, (hget _ rfl).trans hbroken,
    hlocks ▸ List.mem_cons_self, ?_⟩
  exact Hw.suspend_leaves w 0 on hpastl (hregs.trans (honly.regsKept _)) (fun a => (honly.memKept a).trans (hmem a)) (by simp)

theorem gives_lock_refused (hl : s.hw.lockHeld i = true) (hpriv : s.hw.privileged t = true) :
    Gives (.arbiterGrant 44 pre e) s fun h => Waits s.hw h t (.done ⟨rdOf w, some 2, none, 0⟩) ∧
      RegsKept [R.SHK_ARB_STAT 44, R.AWL_THR_STAT (t / 4) (t % 4)] s.hw h ∧ MemKept s.hw h := by
  refine gives_unit (g := 44) hup (by decide) hu pre e fun k hk => ?_
  have heffect : k.unitEffect t w .lock = k.ready t w (some 2) none := by
    refine (Hw.lockOp_lock (by rw [hk.lockId, hid]) hi (by rwa [hk.locks])).trans ?_
    rw [hk.lockHeld, hl, if_neg (by decide), if_pos (by rwa [hk.privileged (by decide)])]
  rw [heffect, Hw.ready]
  exact hk.suspend w 0 _

theorem gives_lock_waits (hl : s.hw.lockHeld i = true) (hpriv : s.hw.privileged t = false) :
    Gives (.arbiterGrant 44 pre e) s fun h =>
      h.lockWaiters i = s.hw.lockWaiters i ++ [t.val] ∧ Waits s.hw h t (.lock (rdOf w) i) ∧
      RegsKept [R.SHK_ARB_STAT 44, R.AWL_THR_STAT (t / 4) (t % 4), R.SHK_LOCK_STAT i] s.hw h ∧ MemKept s.hw h := by
  refine gives_unit (g := 44) hup (by decide) hu pre e fun k hk => ?_
  have heffect : k.unitEffect t w .lock =
      (k.suspend t w 0 (.lock (rdOf w) i)).setLockWaiters i (s.hw.lockWaiters i ++ [t.val]) := by
    refine (Hw.lockOp_lock (by rw [hk.lockId, hid]) hi (by rwa [hk.locks])).trans ?_
    rw [hk.lockHeld, hl, if_neg (by decide), if_neg (by rw [hk.privileged (by decide), hpriv]; decide), hk.lockWaiters]
  have hwaits := Hw.waits_suspend w 0 (.lock (rdOf w) i) hk.past
  have hregs : RegsKept [R.SHK_ARB_STAT 44, R.AWL_THR_STAT (t / 4) (t % 4), R.SHK_LOCK_STAT i] s.hw
      (k.suspend t w 0 (.lock (rdOf w) i)) := (hk.regs.mono (by simp)).trans ((k.suspend_regsKept w 0 _ t).mono (by simp))
  have hmem : MemKept s.hw (k.suspend t w 0 (.lock (rdOf w) i)) := hk.memKept
  rw [heffect]
  generalize k.suspend t w 0 (.lock (rdOf w) i) = j at *
  refine ⟨(Hw.canon_lockWaiters _ i).trans (j.setLockWaiters_lockWaiters i _), (hwaits.setLockWaiters hi _).canon,
    (hregs.trans ((j.setLockWaiters_regsKept i _).mono (by simp))).canon, MemKept.canon fun a => ?_⟩
  exact (j.setLockWaiters_byte i _ a).trans (hmem a)

end

theorem gives_lock_noLock (hu : s.hw.unitGranted 44 t w .lock = true) (hid : 1024 ≤ (s.hw.thread t).lockId w)
    (hmay : s.hw.mayRecord t = true) : Gives (.arbiterGrant 44 pre e) s fun h => Excepts s.hw h t 19 w 0 0 := by
  refine gives_unit (g := 44) hup (by decide) hu pre e fun k hk => ?_
  have heffect : k.unitEffect t w .lock = k.raiseAt t excLockId w 0 0 0 := Hw.lockOp_noLock (by rwa [hk.lockId])
  rw [heffect]
  exact hk.raiseAt (by decide) hmay (by decide) w

/-! ### UNLOCK -/

section
variable (hu : s.hw.unitGranted 44 t w .unlock = true) (hid : i = (s.hw.thread t).lockId w) (hi : i < 1024)
include hu hid hi

theorem gives_unlock_free (hmine : i ∈ (s.hw.thread t).locks) (hw : s.hw.lockWaiters i = []) :
    Gives (.arbiterGrant 44 pre e) s fun h =>
      h.get (R.SHK_LOCK_STAT_HELD i) = 0 ∧ h.get (R.SHK_LOCK_STAT_OWNER i) = 0 ∧ h.get (R.SHK_LOCK_STAT_THREAD i) = 0 ∧
      Waits s.hw h t (.done ⟨0, none, none, 0⟩) ∧
      RegsKept [R.SHK_ARB_STAT 44, R.AWL_THR_STAT (t / 4) (t % 4), R.SHK_LOCK_STAT i] s.hw h ∧ MemKept s.hw h := by
  refine gives_unit (g := 44) hup (by decide) hu pre e fun k hk => ?_
  have heffect : k.unitEffect t w .unlock = _ := Hw.unlockOp_held (by rw [hk.lockId, hid]) hi (by rwa [hk.locks])
  have hkw : k.lockWaiters i = [] := by rw [hk.lockWaiters, hw]
  obtain ⟨-, -, hlregs, hlmem⟩ := k.loseLock_free false hkw
  obtain ⟨hheld, howner, hthread⟩ := (k.forgetLock i).passLock_noOwner ((k.forgetLock_lockWaiters i i).trans hkw) false
  have hpast := Hw.releaseLock_past (i := i) hk.past fun u rest hcons => by simp [hkw] at hcons
  rw [heffect]
  generalize (k.forgetLock i).passLock i false = j at *
  refine ⟨(Hw.suspend_get_lock j t 0 _ hi rfl).trans hheld, (Hw.suspend_get_lock j t 0 _ hi rfl).trans howner,
    (Hw.suspend_get_lock j t 0 _ hi rfl).trans hthread, ?_⟩
  exact Hw.suspend_leaves w 0 _ hpast ((hk.regs.mono (by simp)).trans (hlregs.mono (by simp)))
    (fun a => (hlmem a).trans (hk.memKept a)) (by simp)

theorem gives_unlock_passes (u rd : Nat) (rest : List Nat) (hmine : i ∈ (s.hw.thread t).locks)
    (hw : s.hw.lockWaiters i = u :: rest) (hon : (s.hw.thread u).on = .lock rd i) (hut : u < 256 ∧ u ≠ t) :
    Gives (.arbiterGrant 44 pre e) s fun h =>
      h.get (R.SHK_LOCK_STAT_HELD i) = 1 ∧ h.get (R.SHK_LOCK_STAT_OWNER i) = 8 + u / 32 ∧
      h.get (R.SHK_LOCK_STAT_THREAD i) = u ∧ h.lockWaiters i = rest ∧ (h.thread u).on = .done ⟨rd, some 0, none, 0⟩ ∧
      Waits s.hw h t (.done ⟨0, none, none, 0⟩) ∧
      RegsKept [R.SHK_ARB_STAT 44, R.AWL_THR_STAT (t / 4) (t % 4), R.SHK_LOCK_STAT i] s.hw h ∧ MemKept s.hw h := by
  obtain ⟨hu256, hne⟩ := hut
  refine gives_unit (g := 44) hup (by decide) hu pre e fun k hk => ?_
  have heffect : k.unitEffect t w .unlock = _ := Hw.unlockOp_held (by rw [hk.lockId, hid]) hi (by rwa [hk.locks])
  have hkw : k.lockWaiters i = u :: rest := by rw [hk.lockWaiters, hw]
  obtain ⟨hheld, -, howner, hthread, hwaiters, hstatus, hlregs, hlmem⟩ :=
    k.loseLock_taken false hkw hu256 (by rw [hk.others u hne, hon])
  have hpast := Hw.releaseLock_past (i := i) hk.past fun v rest' hcons => by
    rw [hkw, List.cons.injEq] at hcons
    exact hcons.1 ▸ hne.symm
  rw [heffect]
  generalize (k.forgetLock i).passLock i false = j at *
  refine ⟨(Hw.suspend_get_lock j t 0 _ hi rfl).trans (Hw.get_of_flag rfl hheld),
    (Hw.suspend_get_lock j t 0 _ hi rfl).trans howner,
    (Hw.suspend_get_lock j t 0 _ hi rfl).trans hthread, hwaiters, ?_, ?_⟩
  · exact (congrArg AwlThread.on ((Hw.thread_suspend w 0 _ j t u).trans (if_neg hne))).trans hstatus
  · exact Hw.suspend_leaves w 0 _ hpast ((hk.regs.mono (by simp)).trans (hlregs.mono (by simp)))
      (fun a => (hlmem a).trans (hk.memKept a)) (by simp)

theorem gives_unlock_notHeld (hmine : i ∉ (s.hw.thread t).locks) (hmay : s.hw.mayRecord t = true) :
    Gives (.arbiterGrant 44 pre e) s fun h => Excepts s.hw h t 20 w 0 0 := by
  refine gives_unit (g := 44) hup (by decide) hu pre e fun k hk => ?_
  have heffect : k.unitEffect t w .unlock = k.raiseAt t excLockState w 0 0 0 :=
    Hw.unlockOp_notHeld (by rw [hk.lockId, hid]) hi (by rwa [hk.locks])
  rw [heffect]
  exact hk.raiseAt (by decide) hmay (by decide) w

end

end

end Sys2Proof.Machine
end

section
/-!
SUPPORT. RAISE (R261, R472): what a signal leaves unchanged, with the event it posts and the dispatch behind it, and
its three outcomes.
-/
namespace Sys2Proof.Machine

/-! ### What events and dispatch leave unchanged (R466, R468 to R471) -/

/-- Nothing has changed but registers and the Bench's own state, and the signals stored there are the same. -/
structure SignalsKept (h k : Hw) : Prop where
  rest : k = { h with regs := k.regs, bench := k.bench }
  signals : ∀ u, (k.bt u).signals = (h.bt u).signals

theorem Hw.bt_modBt (h : Hw) (t u : Nat) (f : BenchThread → BenchThread) :
    (h.modBt t f).bt u = if u = t then f (h.bt t) else h.bt u := by
  split
  · next hu => exact hu ▸ kgetD_kput_self _ _ _ _
  · next hu => exact kgetD_kput_ne _ _ _ hu

namespace SignalsKept

variable {h k j : Hw}

theorem refl (h : Hw) : SignalsKept h h := ⟨rfl, fun _ => rfl⟩

theorem trans (hk : SignalsKept h k) (hj : SignalsKept k j) : SignalsKept h j where
  rest := by rw [hj.rest, hk.rest]
  signals u := (hj.signals u).trans (hk.signals u)

/-- A change of registers alone. -/
theorem ofRegs (hk : SignalsKept h k) {rs : _} (hj : j = { k with regs := rs }) : SignalsKept h j :=
  hk.trans (hj ▸ ⟨rfl, fun _ => rfl⟩)

theorem set (hk : SignalsKept h k) (f : RF) (v : Nat) : SignalsKept h (k.set f v) := hk.ofRegs rfl
theorem setWord (hk : SignalsKept h k) (a : Nat) (w : Word) : SignalsKept h (k.setWord a w) := hk.ofRegs rfl
theorem bump (hk : SignalsKept h k) (f : RF) : SignalsKept h (k.bump f) := hk.ofRegs rfl

theorem setReadyList (hk : SignalsKept h k) (l : Nat) (v : List Nat) : SignalsKept h (k.setReadyList l v) :=
  hk.trans ⟨rfl, fun _ => rfl⟩

theorem modBt (hk : SignalsKept h k) (t : Nat) {f : BenchThread → BenchThread} (hf : ∀ x, (f x).signals = x.signals) :
    SignalsKept h (k.modBt t f) :=
  hk.trans ⟨rfl, fun u => by rw [Hw.bt_modBt]; split <;> simp_all⟩

theorem unlist (hk : SignalsKept h k) (t : Nat) : SignalsKept h (k.unlist t) := hk.setReadyList _ _

theorem setNext (hk : SignalsKept h k) (n t cause : Nat) : SignalsKept h (k.setNext n t cause) :=
  ((hk.set _ _).set _ _).set _ _

theorem setNextIdle (hk : SignalsKept h k) (n cause : Nat) : SignalsKept h (k.setNextIdle n cause) :=
  ((hk.set _ _).set _ _).set _ _

theorem makeReady (hk : SignalsKept h k) (t : Nat) (head byReady : Bool) : SignalsKept h (k.makeReady t head byReady) := by
  unfold Hw.makeReady
  refine (((hk.set _ _).set _ _).modBt t ?_).setReadyList _ _
  exact fun _ => rfl

theorem runThread (hk : SignalsKept h k) (t : Nat) : SignalsKept h (k.runThread t) := by
  unfold Hw.runThread
  exact (((hk.unlist t).set _ _).set _ _).modBt t fun _ => rfl

theorem withdraw (hk : SignalsKept h k) (n : Nat) : SignalsKept h (k.withdraw n) := by
  unfold Hw.withdraw
  split
  · exact hk
  · dsimp only
    split
    · exact hk
    · split
      · exact hk.setNext _ _ _
      · exact hk.setNextIdle _ _

theorem dispatchOne (hk : SignalsKept h k) (t : Nat) : SignalsKept h (k.dispatchOne t) := by
  unfold Hw.dispatchOne
  split
  · exact hk
  · split
    · exact hk.setNext _ _ _
    · split
      · exact hk.setNext _ _ _
      · exact hk

theorem foldl {α : Type} {f : Hw → α → Hw} (hf : ∀ k a, SignalsKept h k → SignalsKept h (f k a)) (l : List α)
    (hk : SignalsKept h k) : SignalsKept h (l.foldl f k) := by
  induction l generalizing k with
  | nil => exact hk
  | cons a l ih => exact ih (hf k a hk)

theorem dispatch (hk : SignalsKept h k) : SignalsKept h k.dispatch := by
  unfold Hw.dispatch
  refine foldl (fun k n hk => ?_) _ (foldl (fun k t hk => hk.dispatchOne t) _ (foldl (fun k n hk => hk.withdraw n) _ hk))
  split
  · exact hk.runThread _
  · exact hk

theorem wakeOnEvent (hk : SignalsKept h k) (t : Nat) : SignalsKept h (k.wakeOnEvent t) := by
  unfold Hw.wakeOnEvent
  dsimp only
  split
  · exact ((hk.setWord _ _).setWord _ _).makeReady t false false
  · exact hk

theorem postEvent (hk : SignalsKept h k) (t bit : Nat) : SignalsKept h (k.postEvent t bit) := by
  unfold Hw.postEvent
  split
  · exact hk.bump _
  · exact ((hk.setWord _ _).wakeOnEvent t).dispatch

end SignalsKept

/-! ### An accepted signal -/

section
variable {h : Hw} {c : Nat} (v : Dword)

theorem Hw.signal_dropped (hst : h.btState (c % 4096) = btUnused ∨ h.btTomb (c % 4096) = true) :
    h.signal c v = h.bump R.BENCH_CNT0_EV_DROP := if_pos hst

/-- A signal to an existing thread joins those stored there, before its event is posted. -/
theorem Hw.signal_stored (hst : ¬ (h.btState (c % 4096) = btUnused ∨ h.btTomb (c % 4096) = true)) :
    SignalsKept (h.modBt (c % 4096) fun x => { x with signals := x.signals ++ [(c, v)] }) (h.signal c v) := by
  rw [Hw.signal, if_neg hst]
  exact (SignalsKept.refl _).postEvent _ _

/-- A signal changes registers and the Bench's state, and nothing else. -/
theorem Hw.signal_rest (h : Hw) (c : Nat) :
    h.signal c v = { h with regs := (h.signal c v).regs, bench := (h.signal c v).bench } := by
  by_cases hst : h.btState (c % 4096) = btUnused ∨ h.btTomb (c % 4096) = true
  · rw [Hw.signal_dropped v hst]
    rfl
  · exact (Hw.signal_stored v hst).rest

end

/-! ### The thread behind RAISE -/

/-- The thread of an instruction that has issued, with one register written, whatever has changed outside the engine array. -/
theorem Hw.wrote_setReg {h j : Hw} {t : Nat} (r : Nat) (v : Dword) (hj : j.awl = (h.stepped t).awl) :
    Wrote h (j.modThread t fun th => th.setReg r v).canon t [(r, v)] none ((h.thread t).pc + 4) ∧
    OthersKept t h (j.modThread t fun th => th.setReg r v).canon := by
  have hthread (u : Nat) : j.thread u = (h.stepped t).thread u := by rw [Hw.thread, hj, Hw.thread]
  have hth : (j.modThread t fun th => th.setReg r v).thread t = (h.thread t).stepped.setReg r v := by
    rw [Hw.thread_modThread_self, hthread, Hw.thread_stepped_self]
  refine ⟨⟨fun q _ => ?_, ?_, ?_⟩, fun u _ hu => ?_⟩
  · exact (congrArg (AwlThread.reg · q) hth).trans (AwlThread.reg_setReg _ _ _ _)
  · exact (congrArg AwlThread.flags hth).trans (AwlThread.setReg_flags _ _ _)
  · exact (congrArg AwlThread.pc hth).trans (AwlThread.setReg_pc _ _ _)
  · exact (Hw.thread_modThread_ne j (fun th => th.setReg r v) hu).trans
      ((hthread u).trans (by rw [Hw.thread_stepped, if_neg hu]))

/-! ### RAISE -/

theorem Hw.get_bump_sigFull (h : Hw) :
    (h.bump R.BENCH_CNT1_SIG_FULL).get R.BENCH_CNT1_SIG_FULL = min (h.get R.BENCH_CNT1_SIG_FULL + 1) 65535 :=
  h.get_bump_self R.BENCH_CNT1_SIG_FULL 1 (fits_of_bits rfl)

section
variable {s : State} (hup : s.hw.mainUp = true) (t : Fin 256) (w : Word) (hi : s.hw.issues t .raise w = true)
include hup hi

/-- What RAISE does once issued, with the code and value of the thread before it. -/
theorem gives_raise {P : Hw → Prop} {j : Hw}
    (hf : (if s.hw.signalAccepted (immOf w) then
        ((s.hw.stepped t).signal (immOf w) ((s.hw.thread t).a w)).modThread t fun th => th.setReg (rdOf w) 0
      else if s.hw.privileged t then
        ((s.hw.stepped t).bump R.BENCH_CNT1_SIG_FULL).modThread t fun th => th.setReg (rdOf w) 1
      else
        let h := ((s.hw.stepped t).bump R.BENCH_CNT1_SIG_FULL).suspend t w 0 (.raise (rdOf w) (immOf w) ((s.hw.thread t).a w))
        { h with awl := { h.awl with raisers := h.awl.raisers ++ [t.val] } }) = j)
    (hP : P j.canon) : Gives (.raise t) s P := by
  have honly := s.hw.stepped_awlOnly t
  have haccepted : (s.hw.stepped t).signalAccepted (immOf w) = s.hw.signalAccepted (immOf w) :=
    honly.proj (·.signalAccepted (immOf w)) fun _ => rfl
  have ha : ((s.hw.stepped t).thread t).a w = (s.hw.thread t).a w := by rw [Hw.thread_stepped_self]; rfl
  refine gives_of_effect_eq (e := execRaise t s) rfl rfl hup ((Hw.issue_of_issues hi _ _).trans ?_) hP
  simp only [haccepted, honly.privileged, ha]
  exact hf

theorem gives_raise_accepted (hacc : s.hw.signalAccepted (immOf w) = true) : Gives (.raise t) s fun h =>
    Wrote s.hw h t [(rdOf w, 0)] none ((s.hw.thread t).pc + 4) ∧ OthersKept t s.hw h ∧ MemKept s.hw h ∧
    (s.hw.btState (immOf w % 4096) = 0 → h.get R.BENCH_CNT0_EV_DROP = min (s.hw.get R.BENCH_CNT0_EV_DROP + 1) 65535) ∧
    (s.hw.btState (immOf w % 4096) ≠ 0 ∧ s.hw.btTomb (immOf w % 4096) = false →
      (h.bt (immOf w % 4096)).signals = (s.hw.bt (immOf w % 4096)).signals ++ [(immOf w, (s.hw.thread t).a w)]) := by
  refine gives_raise hup t w hi (if_pos hacc) ?_
  have honly := s.hw.stepped_awlOnly t
  have hrest := (s.hw.stepped t).signal_rest ((s.hw.thread t).a w) (immOf w)
  have hstate : (s.hw.stepped t).btState (immOf w % 4096) = s.hw.btState (immOf w % 4096) := honly.get _
  have htomb : (s.hw.stepped t).btTomb (immOf w % 4096) = s.hw.btTomb (immOf w % 4096) :=
    honly.proj (·.btTomb (immOf w % 4096)) fun _ => rfl
  have hbt (u : Nat) : (s.hw.stepped t).bt u = s.hw.bt u := honly.proj (·.bt u) fun _ => rfl
  have hdrop := (s.hw.stepped t).signal_dropped ((s.hw.thread t).a w) (c := immOf w)
  have hstored := (s.hw.stepped t).signal_stored ((s.hw.thread t).a w) (c := immOf w)
  have hmem : MemKept s.hw ((s.hw.stepped t).signal (immOf w) ((s.hw.thread t).a w)) := fun a =>
    (congrArg (Hw.byte · a) hrest :).trans (honly.memKept a)
  rw [hstate, htomb] at hdrop hstored
  generalize (s.hw.stepped t).signal (immOf w) ((s.hw.thread t).a w) = j at *
  obtain ⟨hwrote, hothers⟩ := Hw.wrote_setReg (h := s.hw) (t := t) (rdOf w) 0 ((congrArg Hw.awl hrest :))
  refine ⟨hwrote, hothers, MemKept.canon hmem, fun hunused => ?_, fun hused => ?_⟩
  · have hget : j.get R.BENCH_CNT0_EV_DROP = min (s.hw.get R.BENCH_CNT0_EV_DROP + 1) 65535 := by
      rw [hdrop (.inl hunused), Hw.get_bump_self _ _ _ (fits_of_bits rfl), honly.get]
      rfl
    exact hget
  · obtain ⟨hused, htombed⟩ := hused
    have hkept := (hstored (by simp [btUnused, hused, htombed])).signals (immOf w % 4096)
    rw [Hw.bt_modBt, if_pos rfl, hbt] at hkept
    exact hkept

theorem gives_raise_refused (hacc : s.hw.signalAccepted (immOf w) = false) (hpriv : s.hw.privileged t = true) :
    Gives (.raise t) s fun h =>
      Wrote s.hw h t [(rdOf w, 1)] none ((s.hw.thread t).pc + 4) ∧
      h.get R.BENCH_CNT1_SIG_FULL = min (s.hw.get R.BENCH_CNT1_SIG_FULL + 1) 65535 ∧
      RegsKept [R.BENCH_CNT1] s.hw h ∧ MemKept s.hw h := by
  refine gives_raise hup t w hi ((if_neg (by simp [hacc])).trans (if_pos hpriv)) ?_
  have honly := s.hw.stepped_awlOnly t
  refine ⟨(Hw.wrote_setReg (rdOf w) 1 rfl).1, ?_, ?_, honly.memKept.canon⟩
  · exact (Hw.get_bump_sigFull _).trans (by rw [honly.get])
  · exact RegsKept.bump (honly.regsKept _) R.BENCH_CNT1_SIG_FULL 1 (List.mem_singleton.mpr rfl)

theorem gives_raise_waits (hacc : s.hw.signalAccepted (immOf w) = false) (hpriv : s.hw.privileged t = false) :
    Gives (.raise t) s fun h =>
      Waits s.hw h t (.raise (rdOf w) (immOf w) ((s.hw.thread t).a w)) ∧ h.awl.raisers = s.hw.awl.raisers ++ [t.val] ∧
      h.get R.BENCH_CNT1_SIG_FULL = min (s.hw.get R.BENCH_CNT1_SIG_FULL + 1) 65535 ∧
      RegsKept [R.BENCH_CNT1, R.AWL_THR_STAT (t / 4) (t % 4)] s.hw h ∧ MemKept s.hw h := by
  refine gives_raise hup t w hi ((if_neg (by simp [hacc])).trans (if_neg (by simp [hpriv]))) ?_
  have honly := s.hw.stepped_awlOnly t
  have hpast : (s.hw.thread t).Past (((s.hw.stepped t).bump R.BENCH_CNT1_SIG_FULL).thread t) := by
    have hth : ((s.hw.stepped t).bump R.BENCH_CNT1_SIG_FULL).thread t = (s.hw.thread t).stepped :=
      s.hw.thread_stepped_self t
    exact hth ▸ AwlThread.past_stepped _
  have hregs : RegsKept [R.BENCH_CNT1, R.AWL_THR_STAT (t / 4) (t % 4)] s.hw ((s.hw.stepped t).bump R.BENCH_CNT1_SIG_FULL) :=
    RegsKept.bump (honly.regsKept _) R.BENCH_CNT1_SIG_FULL 1 List.mem_cons_self
  have hmem : MemKept s.hw ((s.hw.stepped t).bump R.BENCH_CNT1_SIG_FULL) := honly.memKept
  have hfull := (s.hw.stepped t).get_bump_sigFull.trans (by rw [honly.get])
  have hraisers : ((s.hw.stepped t).bump R.BENCH_CNT1_SIG_FULL).awl.raisers = s.hw.awl.raisers := s.hw.stepped_raisers t
  generalize (s.hw.stepped t).bump R.BENCH_CNT1_SIG_FULL = j at *
  obtain ⟨hwaits, hkept, hmemKept⟩ :=
    Hw.suspend_leaves w 0 (.raise (rdOf w) (immOf w) ((s.hw.thread t).a w)) hpast hregs hmem (by simp)
  refine ⟨hwaits, ?_, ?_, hkept, hmemKept⟩
  · exact congrArg (· ++ [t.val]) hraisers
  · have hsuspend := (j.suspend_regsKept w 0 (.raise (rdOf w) (immOf w) ((s.hw.thread t).a w)) t).get
      (f := R.BENCH_CNT1_SIG_FULL) (by simp only [R.BENCH_CNT1_SIG_FULL, R.BENCH_CNT1, R.AWL_THR_STAT, List.mem_singleton]; omega)
    exact hsuspend.trans hfull

end

/-! ### The instructions of the units and RAISE -/

/-- Settles O26, clause by clause: the requests, the operations of the queue unit and of the lock unit at their grant, RAISE. -/
theorem awlQueuesAndLocks : Obligations.AwlQueuesAndLocks := by
  intro s hup
  have hlock (t : Fin 256) (w : Word) : ((s.hw.stepped t).thread t).lockId w = (s.hw.thread t).lockId w := by
    rw [Hw.thread_stepped_self]
    rfl
  refine ⟨?qpush, ?qpull, ?qpeek, ?lock, ?unlock, fun t g q r pre e => gives_unit_refused hup t g q r pre e,
    fun t w pre e q => gives_qpush_joins hup t w pre e q, ?wakes, fun t w pre e q => gives_qpush_refused hup t w pre e q,
    fun t w pre e q => gives_qpush_waits hup t w pre e q, fun t w pre e q => gives_qpush_closed hup t w pre e q,
    fun t w pre e q => gives_qpush_noQueue hup t w pre e q, fun t w pre e q => gives_qpull_word hup t w pre e q,
    fun t w pre e q => gives_qpull_returns hup t w pre e q, fun t w pre e q => gives_qpull_waits hup t w pre e q,
    fun t w pre e q => gives_qpeek hup t w pre e q, fun t w pre e i => gives_lock_free hup t w pre e i,
    fun t w pre e i => gives_lock_refused hup t w pre e i, fun t w pre e i => gives_lock_waits hup t w pre e i,
    fun t w pre e => gives_lock_noLock hup t w pre e, fun t w pre e i => gives_unlock_free hup t w pre e i, ?passes,
    fun t w pre e i => gives_unlock_notHeld hup t w pre e i, gives_raise_accepted hup, gives_raise_refused hup,
    gives_raise_waits hup⟩
  case qpush => exact fun t w hi => gives_ask hup 45 0 true (e := execQpush t s) rfl rfl hi rfl
  case qpull => exact fun t w hi => gives_ask hup 45 0 true (e := execQpull t s) rfl rfl hi rfl
  case qpeek => exact fun t w hi => gives_ask hup 45 0 false (e := execQpeek t s) rfl rfl hi rfl
  case lock =>
    rintro t w i hi rfl
    exact gives_ask hup 44 _ false (e := execLock t s) rfl rfl hi (by simp only [hlock, lockUnit])
  case unlock =>
    rintro t w i hi rfl
    exact gives_ask hup 44 _ true (e := execUnlock t s) rfl rfl hi (by simp only [hlock, lockUnit])
  case wakes => exact fun t w pre e q u rd x rest hu hq => gives_qpush_wakes hup t w pre e q hu hq u rd x rest
  case passes => exact fun t w pre e i u rd rest hu hid hi => gives_unlock_passes hup t w pre e i hu hid hi u rd rest

end Sys2Proof.Machine
end
